-- ==== Sys2Proof/Word.lean ====
section
/-! DEFINITION. The byte and the plainest arithmetic the model uses: saturation, bit fields of a
number, rounding up to a multiple. -/

namespace Sys2Proof

/-- A byte of memory. -/
abbrev Byte := BitVec 8

/-- Bits [hi:lo] of a number (R2: bit 0 is the least significant). -/
def bitsOf (v hi lo : Nat) : Nat := v / 2 ^ lo % 2 ^ (hi + 1 - lo)

/-- Bit n of a number. -/
def bitAt (v n : Nat) : Bool := v / 2 ^ n % 2 == 1

/-- The largest value a field of w bits holds. -/
def maxOf (w : Nat) : Nat := 2 ^ w - 1

/-- A counter of w bits that saturates. -/
def satAdd (w a b : Nat) : Nat := min (a + b) (maxOf w)

/-- ceil(a ÷ b). -/
def ceilDiv (a b : Nat) : Nat := (a + b - 1) / b

/-- The bits of a Bool. -/
def b2n (b : Bool) : Nat := if b then 1 else 0

end Sys2Proof
end

