-- ==== Sys2Proof/Syntax.lean ====
section
/-! DEFINITION. The commands of the block, one constructor for each row of the table, and the records
and events they bring. Operands named t are Cadence times in ns. -/

namespace Sys2Proof

/-- Who sends a register write: the management context (context 0, the PF driver), a hub's control
core, the Blueprint loader, the driver of a virtual function, or anyone else. -/
inductive Src where
  | mgmt
  | core (hub : Nat)
  | blueprint
  | driver (ctx : Nat)
  | other
  deriving DecidableEq, Repr

/-- Where a register write goes: the physical function's map (R25) or the BAR0 window of a virtual
function (R403). -/
inductive Target where
  | pf (addr : Nat)
  | vf (fn off : Nat)
  deriving DecidableEq, Repr

/-- The bytes every request record shares (R194) with the ring that carried it: its context and its
intake count. -/
structure ReqHead where
  ctx : Nat
  idx : Nat
  handle : Nat
  tag : Nat
  deriving DecidableEq, Repr

/-- A GENERATE record (Table 7-5); `resv` says that every reserved byte and bit is zero. -/
structure GenerateRec where
  flags : Nat
  permit : Nat
  depth : Nat
  promptAddr : Nat
  promptLen : Nat
  maxNew : Nat
  maxFirstUs : Nat
  maxIntervalNs : Nat
  model : Nat
  draft : Nat
  adapter : Nat
  topK : Nat
  temperature : Nat
  topP : Nat
  seed : Nat
  stops : List Nat
  resumeHint : Nat
  resv : Bool
  deriving DecidableEq, Repr

/-- The 128 bytes of a record read at a tick, or that its read failed (R193). -/
structure RecRead where
  readable : Bool
  bytes : List Nat
  deriving DecidableEq, Repr

/-- What the intake engine reads of one context's control block and ring at a tick (R191). -/
structure CtlRead where
  ctx : Nat
  readable : Bool
  producer : Nat
  consumer : Nat
  recs : List RecRead
  deriving DecidableEq, Repr

/-- One merged candidate list as the control core reads it (R145): l and the entries
(token index, x, W), all FP32 patterns but the index. -/
structure CandList where
  l : Nat
  entries : List (Nat × Nat × Nat)
  deriving DecidableEq, Repr

/-- How the read of a prompt chunk ended (R197): with its token IDs, or failed. -/
inductive ChunkRead where
  | read (tokens : List Nat)
  | readFailed
  deriving DecidableEq, Repr

/-- What the step that ends gave one request: the candidate lists of its verify
positions in order, and the drafts its draft passes proposed for the next step (R205). -/
structure RowResult where
  ctx : Nat
  idx : Nat
  positions : List CandList
  drafts : List CandList
  deriving DecidableEq, Repr

/-- The bundle header of Table 7-16. `wellFormed` says that its MAGIC, FORMAT, reserved bytes and
unused directory entries are as the table gives them; `sections` is the directory: TYPE, OFFSET,
BYTES; `digests` are its SHA-256 values in the same order. -/
structure BundleHeader where
  wellFormed : Bool
  bundleBytes : Nat
  vocab : Nat
  eos : Nat
  layout : Nat
  weightBytes : List Nat
  sections : List (Nat × Nat × Nat)
  digests : List (List Nat)
  deriving DecidableEq, Repr

/-- The worst case of an expert pass (R58): the CARD_ID of the pass, which is sized for `capacity` rows on each of `experts`
experts, its top-k, and the overflow passes prepared for it: row-expert pairs, experts' weights and CARD_ID. -/
structure WorstCase where
  card : Nat
  topK : Nat
  experts : Nat
  capacity : Nat
  passes : List (Nat × Nat × Nat)
  deriving DecidableEq, Repr

/-- How the new sessions of a model are spread over modules (R173): 0 not, 1 by position with pages per member, 2 by head; the
other members as fabric addresses. DESIGN CHOICE (log 76): the spec does not say what decides it; the model's recipe does. -/
structure SplitPlan where
  kind : Nat
  rangePages : Nat
  others : List Nat
  deriving DecidableEq, Repr

/-- A variant of a card for fewer serving cores in a hub or fewer hubs (R295), as CARD_IDs. -/
structure CardVariant where
  card : Nat
  cores : Nat
  hubs : Nat
  variant : Nat
  deriving DecidableEq, Repr

/-- What the RECIPE section tells the runtime (Table 7-17): for each row bucket or block count, the
segments of a decode step, of sampling, of a prefill chunk and of a training micro-step, a segment
being the CARD_IDs that run side by side; the wings that run a card, as CARD_ID and a mask (a card that is not listed runs
on all four); the worst cases of expert passes; how its sessions are spread over modules; and the variants of its cards. -/
structure Recipe where
  decode : List (Nat × List (List Nat))
  sampling : List (Nat × List (List Nat))
  prefill : List (Nat × List (List Nat))
  train : List (Nat × List (List Nat))
  optimizer : List (List Nat)
  wings : List (Nat × Nat)
  worst : List WorstCase
  split : SplitPlan
  variants : List CardVariant
  deriving DecidableEq, Repr

/-- One target of a target set (R478). -/
structure Target478 where
  layer : Nat
  addMode : Nat
  dIn : Nat
  dOut : Nat
  deriving DecidableEq, Repr

/-- A LOAD_BUNDLE record (Table 7-6). -/
structure LoadBundleRec where
  addr : Nat
  bytes : Nat
  model : Nat
  resv : Bool
  deriving DecidableEq, Repr

/-- A security record of Table 13-6. -/
structure SecRec where
  flags : Nat
  addr : Nat
  bytes : Nat
  nonce : Nat
  keyIndex : Nat
  resv : Bool
  deriving DecidableEq, Repr

/-- An operand descriptor (Table 3-4). `resvZero` is whether its reserved bits are zero. -/
structure OpDesc where
  fmt : Nat
  kind : Nat
  block : Nat
  dir : Nat
  stride : Nat
  off : Nat
  tensor : Nat
  resvZero : Bool
  deriving DecidableEq, Repr

/-- An output descriptor (Table 3-8). -/
structure OutDesc where
  fmt : Nat
  ref : Bool
  ovf : Bool
  resvZero : Bool
  deriving DecidableEq, Repr

/-- Activity of a core under one card that a Derailleur counted at a gear (R316): the hub, E_CYCLE and cycles, E_MAC and
multiply-accumulates. -/
structure CoreActivity where
  hub : Nat
  gear : Nat
  eCycle : Nat
  cycles : Nat
  eMac : Nat
  macs : Nat
  deriving DecidableEq, Repr

/-- Activity of a wing in a window (R316): that of its cores, Hallway flits and HBM transfers of 64 B with their coefficients, and its
leakage over the window in fJ. -/
structure WingActivity where
  cores : List CoreActivity
  flits : List (Nat × Nat)
  hbm : List (Nat × Nat)
  leak : Nat
  deriving DecidableEq, Repr

/-- A run of a field test (R296): the columns of FT01's output tile; what a fault-free run leaves in the output region, for the
tests whose generators their cards define; and the bytes that a defect changes, as offset and mask. -/
structure FtRun where
  cols : Nat
  out : List Nat
  flips : List (Nat × Nat)
  deriving DecidableEq, Repr

/-- A MATRIX stage descriptor (Table 4-2). -/
structure MatrixDesc where
  arrays : Nat
  flags : Nat
  rows : Nat
  kseg : Nat
  m : Nat
  n : Nat
  k : Nat
  out : OutDesc
  a : OpDesc
  b : OpDesc
  aOff : Nat
  bOff : Nat
  cOff : Nat
  liveOff : Nat
  aStride : Nat
  bStride : Nat
  cStride : Nat
  resvZero : Bool
  deriving DecidableEq, Repr

/-- A FREEWHEEL stage descriptor (Table 4-5). -/
structure FwDesc where
  rows : Nat
  flags : Nat
  kseg : Nat
  n : Nat
  k : Nat
  out : OutDesc
  a : OpDesc
  b : OpDesc
  aOff : Nat
  bOff : Nat
  cOff : Nat
  liveOff : Nat
  aStride : Nat
  bStride : Nat
  cStride : Nat
  resvZero : Bool
  deriving DecidableEq, Repr

/-- A vector instruction (Table 5-2). -/
structure VInstr where
  op : Nat
  dst : Nat
  a : Nat
  b : Nat
  c : Nat
  bKind : Nat
  guard : Nat
  imm : Nat
  resv : Nat
  deriving DecidableEq, Repr

/-- A VECTOR, REDUCTION or SFU stage descriptor (Table 5-4). Strides are in units of 4 bytes; `prog` is
the program at PROG_OFF, which comes with the card. -/
structure VecDesc where
  mode : Nat
  flags : Nat
  lane : Nat
  progLen : Nat
  rows : Nat
  fn : Nat
  scalar : Nat
  cols : Nat
  tableTag : Nat
  indexBase : Nat
  inD : OpDesc
  outD : OpDesc
  inOff : Nat
  inStride : Nat
  outOff : Nat
  outStride : Nat
  auxOff : Nat
  auxStride : Nat
  progOff : Nat
  paramOff : Nat
  lenOff : Nat
  liveOff : Nat
  redOff : Nat
  prog : List VInstr
  resvZero : Bool
  deriving DecidableEq, Repr

/-- A STREAM stage descriptor in a Larder mode (Table 6-7), as ADAPTER_READ (Table 8-3) or in a transfer
mode (Table 9-3). -/
inductive StreamDesc where
  | page (mode flags parts layout cores share budget layer stageIndex lenOff dataOff mapOff qrySrc qryDst
      qryBytes heads stagingOff : Nat) (resvZero : Bool)
  | adapter (model target cores share groups groupOff rowOff dataOff groupBytes statusOff : Nat) (resvZero : Bool)
  | transfer (mode flags redFmt rows srcIndex rowBytes srcCount src dst srcStride dstStride fillValue
      liveOff : Nat) (resvZero : Bool)
  | reserved (mode : Nat)
  deriving DecidableEq, Repr

/-- A stage of a fused command; its kind is a nibble of STAGE_KINDS (Table 4-1). -/
inductive Stage where
  | matrix (d : MatrixDesc)
  | freewheel (d : FwDesc)
  | vector (d : VecDesc)
  | reduction (d : VecDesc)
  | sfu (d : VecDesc)
  | stream (d : StreamDesc)
  deriving DecidableEq, Repr

/-- A fused command (Table 4-1). -/
structure FusedCmd where
  stageCount : Nat
  flags : Nat
  commandBytes : Nat
  stageKinds : Nat
  resvZero : Bool
  stages : List Stage
  deriving DecidableEq, Repr

/-- A hardware fault that a stage meets (R112 to R115, R152): the tile or row, the segment or chunk; the bits flipped in an
entry of the WORK bank (`mask`, 0 for none; entries row after row) or a residue latched in the datapath (`residue`); whether
it lies in the drain's conversion of row `entry`, whether an uncorrectable table entry caused it (R151), whether the replay is
free of it, and whether it was injected (R120). For what a checkpoint reports, `residue` is set where no checksum caught it. -/
structure StageFault where
  tile : Nat
  segment : Nat
  entry : Nat
  mask : Nat
  residue : Bool
  drain : Bool
  table : Bool
  replayOk : Bool
  injected : Bool
  deriving DecidableEq, Repr

/-- What a run of a stage brings beside its data: faults, bubbles by kind (FEED, DRAIN, LIMIT), corrected words, an uncorrectable word if one was read (0 none, 1 local store,
2 Pantry), summary-bus stall cycles, corrected coefficient entries, ARITH cycles and Hallway flits, and flits that missed
their slot (R46) and the ns that its flows waited beyond the plan, for retransmitted packets, retried bursts, forced refreshes or
reorder buffers (R57). -/
structure StageRun where
  faults : List StageFault
  feed : Nat
  drainBub : Nat
  limit : Nat
  corrected : Nat
  uncorr : Nat
  stall : Nat
  coefs : Nat
  cycles : Nat
  flits : Nat
  slips : Nat
  waited : Nat
  deriving DecidableEq, Repr

/-- An HBM list entry of a kernel card (Table 2-3). -/
structure HbmEntry where
  wing : Nat
  mask : Nat
  rd : Nat
  wr : Nat
  deriving DecidableEq, Repr

/-- A semaphore list entry of a kernel card (Table 2-3). -/
structure SemEntry where
  num : Nat
  acq : Nat
  rel : Nat
  deriving DecidableEq, Repr

/-- A credit list entry of a kernel card (Table 2-3). -/
structure CreditEntry where
  link : Nat
  cls : Nat
  credits : Nat
  acq : Nat
  rel : Nat
  deriving DecidableEq, Repr

/-- A kernel card as the module holds it: the header of Table 2-2, the lists of Table 2-3 and the
command stream. `digestOk` is whether SHA-256 over the card equals DIGEST; `resvZero` whether every
reserved byte and bit of the header and the lists is zero. -/
structure CardImage where
  magic : Nat
  format : Nat
  headerBytes : Nat
  cardBytes : Nat
  cardId : Nat
  kind : Nat
  flags : Nat
  coreCount : Nat
  hubCount : Nat
  minGear : Nat
  semCount : Nat
  creditCount : Nat
  lsBytes : Nat
  pantryBytes : Nat
  cmdCount : Nat
  maxNs : Nat
  cycles : List Nat
  flitTotal : List Nat
  flitPeak : List Nat
  hbmListOff : Nat
  hbmListCount : Nat
  semListOff : Nat
  creditListOff : Nat
  cmdOff : Nat
  eCycle : Nat
  eMac : Nat
  eFlit : Nat
  eHbm : Nat
  digestOk : Bool
  resvZero : Bool
  hbm : List HbmEntry
  sems : List SemEntry
  credits : List CreditEntry
  cmds : List FusedCmd
  deriving DecidableEq, Repr

/-- What arrives of a bundle during LOAD_BUNDLE (R198): a card with the words of its stages' programs, the end of the CARDS
section, the bytes of the RECIPE section with what the runtime reads in them (its format belongs to the release, Table 7-17), the
bytes of a section of another type, or a host read that failed (R400). -/
inductive BundlePart where
  | card (bytes : List Nat) (progs : List (List Nat))
  | cardsEnd
  | recipe (bytes : List Nat) (r : Recipe)
  | whole (type : Nat) (bytes : List Nat)
  | readFailed
  deriving DecidableEq, Repr

/-- What the freeze of a plan is given (R36): the prompt chunks read for the step (R197), by context and intake index,
whether the plan digests of lead and shadow agree (R303), and for each wing the highest gear that conditions 3 and 4 of R319 allow. -/
structure FreezeIn where
  chunks : List (Nat × Nat × ChunkRead)
  digestsAgree : Bool
  gearLimit : List Nat
  deriving DecidableEq, Repr

/-- The clear header of an encrypted image as its 64 bytes say (R231); `ok` covers MAGIC, VERSION and the reserved bytes. -/
structure ClearHeader where
  ok : Bool
  plainBytes : Nat
  iv : Nat
  deriving DecidableEq, Repr

/-- An ADAPTER_LOAD record (Table 8-5). `slotBits` is bytes 0x02 to 0x03. -/
structure AdapterLoadRec where
  slotBits : Nat
  addr : Nat
  bytes : Nat
  keyIndex : Nat
  model : Nat
  resv : Bool
  deriving DecidableEq, Repr

/-- A TRAIN_OPEN record (Table 8-5). -/
structure TrainOpenRec where
  flags : Nat
  slotBits : Nat
  addr : Nat
  bytes : Nat
  keyIndex : Nat
  rank : Nat
  accum : Nat
  targetSet : Nat
  model : Nat
  lr : Nat
  beta1 : Nat
  beta2 : Nat
  eps : Nat
  weightDecay : Nat
  clip : Nat
  alpha : Nat
  initBound : Nat
  seed : Nat
  workspaceMib : Nat
  resv : Bool
  deriving DecidableEq, Repr

/-- A TRAIN_STEP record (Table 8-5) with the lengths and token words at DATA_ADDR (R240); none when
the host read fails. -/
structure TrainStepRec where
  slotBits : Nat
  dataAddr : Nat
  seqCount : Nat
  tokenCount : Nat
  resultAddr : Nat
  model : Nat
  resv : Bool
  data : Option (List Nat × List Nat)
  deriving DecidableEq, Repr

/-- A TRAIN_CHECKPOINT record (Table 8-5). -/
structure TrainCkptRec where
  slotBits : Nat
  destAddr : Nat
  destBytes : Nat
  keyIndex : Nat
  resultAddr : Nat
  resv : Bool
  deriving DecidableEq, Repr

/-- An adapter image in plaintext, as its bytes say (R219, Table 8-1): whether MAGIC, VERSION and the reserved bytes are right, the
header's fields, the target table as index, d_in and d_out, whether DIGEST matches, and the body. -/
structure AdapterImage where
  headerOk : Bool
  kind : Nat
  format : Nat
  model : Nat
  targetSet : Nat
  rank : Nat
  targetCount : Nat
  alpha : Nat
  optStep : Nat
  table : List (Nat × Nat × Nat)
  digestOk : Bool
  body : List Nat
  deriving DecidableEq, Repr

/-- How a training micro-step ended in the step that finished it: its outcome (0 completed, else a
final code of Table 0-5), the FP64 pattern of its loss sum, its gradient
contributions in element order, and whether the lead and its shadow agree on the scalars (R251). -/
structure TrainResult where
  ctx : Nat
  idx : Nat
  outcome : Nat
  lossSum : Nat
  grads : List Nat
  agree : Bool
  deriving DecidableEq, Repr

/-- A fused command as the plan puts it into a core's queue (R11): the hub and logical slot, the context
tag, the card and the command's index in it, the items of its task (R476), the card's cores on the hub,
and, for a card of a locked segment that spans modules, the members' fabric addresses and the
segment's start. -/
structure QueuedCmd where
  hub : Nat
  slot : Nat
  ctx : Nat
  card : CardImage
  index : Nat
  cmd : FusedCmd
  task : List (Nat × Nat)
  cores : Nat
  members : List Nat
  segStart : Nat
  deriving DecidableEq, Repr

/-- What the end of a step is given (R32): when its work completed, how long after the end its records
were issued (at most 2,000 ns, R208), its rows' results, its training results, the late causes that
arose in it as bits (R62), and the reserve it used in ns. -/
structure StepEndIn where
  workDone : Nat
  issueDelay : Nat
  rows : List RowResult
  train : List TrainResult
  causes : Nat
  reserveUsed : Nat
  deriving DecidableEq, Repr

/-- A Spoke packet of types DATA, RED, ACK, NAK, SYNC, CREDIT and those the module forwards (Table 12-4).
`data` holds its bytes, or the fields of a control packet's body in order. -/
structure Packet where
  type : Nat
  cls : Nat
  vc : Nat
  retx : Bool
  src : Nat
  dst : Nat
  srcEpoch : Nat
  dstEpoch : Nat
  ctx : Nat
  last : Bool
  hops : Nat
  seq : Nat
  slot : Nat
  flow : Nat
  srcIndex : Nat
  destAddr : Nat
  data : List Nat
  crc : Nat
  deriving DecidableEq, Repr

/-- The body of a HELLO (Table 12-5). -/
structure HelloBody where
  addr : Nat
  assigned : Bool
  link : Nat
  sizeX : Nat
  sizeY : Nat
  sizeZ : Nat
  wrap : Nat
  slotId : Nat
  epoch : Nat
  deriving DecidableEq, Repr

/-- The body of an EPOCH packet: address, epoch, state and originator. -/
structure EpochBody where
  addr : Nat
  epoch : Nat
  st : Nat
  orig : Nat
  deriving DecidableEq, Repr

/-- The body of a BARRIER packet. -/
structure BarrierBody where
  start : Nat
  arrival : Nat
  causes : Nat
  abort : Bool
  done : Bool
  deriving DecidableEq, Repr

/-- What calls for a link retrain (Table 12-2): more than 64 uncorrectable codewords in 1 ms, lanes lost
or above the error ratio (by mask), or the third failed transmission of a packet. -/
inductive LinkTrouble where
  | codewords (n : Nat)
  | lanes (mask : Nat)
  | thirdFailure
  deriving DecidableEq, Repr
/-- The atomic operations of RISC-V's AMO instructions (R267). -/
inductive AmoOp where
  | swap | add | xor | and | or | min | max | minu | maxu
  deriving DecidableEq, Repr


/-- A Pannier entry (Table 8-2): STATE 0 FREE, 1 LOADING, 2 READY, 3 TRAINING, 4 RELEASING. -/
structure PEntry where
  st : Nat
  ctx : Nat
  rank : Nat
  model : Nat
  targetSet : Nat
  format : Nat
  scale : Nat
  job : Nat
  storeOff : List Nat
  partUnits : List Nat
  loadTime : Nat
  deriving DecidableEq, Repr


/-- An image that an update has written to flash (R419): its bytes, and whether its signature verifies. -/
structure FlashWrite where
  bytes : List Nat
  signed : Bool
  deriving DecidableEq, Repr

/-- A flash image as the security core sees it (Table 15-3): the header's fields, the SETTINGS entries (address,
value, mask), whether it carries TEST_ENABLE (R459) and THERMAL, and the first of checks 0x01, 0x02, 0x03, 0x05, 0x07 and
0x08 of Table 15-5 that its bytes fail, 0 if none. -/
structure FlashImage where
  rootKey : Nat
  fwSvn : Nat
  bpSvn : Nat
  fwDigest : Nat
  bpDigest : Nat
  settings : List (Nat × Nat × Nat)
  testEnable : Bool
  thermal : Bool
  failCheck : Nat
  deriving DecidableEq, Repr

/-- A host read that failed (R400): one an item needs, by context and intake index, or a control block or ring. -/
inductive HostRead where
  | item (ctx idx : Nat)
  | control (ctx : Nat)
  deriving DecidableEq, Repr

/-- The body of a JOIN packet (Table 12-5): KIND 1 request, 2 grant, 3 refused. -/
structure JoinBody where
  addr : Nat
  kind : Nat
  epoch : Nat
  reason : Nat
  deriving DecidableEq, Repr

/-- A temperature sensor (R327): a hub's junction sensor, an HBM stack (wing × 3 + stack), the coolant inlet, the
Vestibule. -/
inductive ThermalSensor where
  | hub (h : Nat)
  | stack (n : Nat)
  | inlet
  | vestibule
  deriving DecidableEq, Repr

/-- The commands. -/
inductive Instr where
  /-- INTAKE_TICK (R191). -/
  | intakeTick (n : Nat) (ctls : List CtlRead)
  /-- GENERATE (R195). -/
  | generate (h : ReqHead) (r : GenerateRec)
  /-- CANCEL (R213). -/
  | cancel (h : ReqHead) (resv : Bool)
  /-- CLOSE (R188). -/
  | close (h : ReqHead) (resv : Bool)
  /-- HINT (R207). -/
  | hint (h : ReqHead) (permit : Nat) (us : Nat) (resv : Bool)
  /-- LOAD_BUNDLE (R477): `hdr` are the 4 KiB of the bundle's header, none where they cannot be read. -/
  | loadBundle (h : ReqHead) (r : LoadBundleRec) (hdr : Option (List Nat))
  /-- BUNDLE_SECTION_ARRIVAL (R198). -/
  | bundleSectionArrival (t : Nat) (n : Nat) (part : BundlePart)
  /-- UNLOAD_BUNDLE (R213). -/
  | unloadBundle (h : ReqHead) (model : Nat) (resv : Bool)
  /-- ADAPTER_LOAD (R232). -/
  | adapterLoad (h : ReqHead) (r : AdapterLoadRec)
  /-- ADAPTER_IMAGE_AUTHENTICATED (R232). -/
  | adapterImageAuthenticated (t : Nat) (ctx : Nat) (idx : Nat) (hdr : Option (List Nat)) (tagOk : Bool) (img : List Nat)
  /-- ADAPTER_RELEASE (R233). -/
  | adapterRelease (h : ReqHead) (slotBits : Nat) (resv : Bool)
  /-- RELEASE_ZEROING_DONE (R233). -/
  | releaseZeroingDone (t : Nat) (slot : Nat)
  /-- TRAIN_OPEN (R238). -/
  | trainOpen (h : ReqHead) (r : TrainOpenRec)
  /-- TRAIN_STEP (R240). -/
  | trainStep (h : ReqHead) (r : TrainStepRec)
  /-- TRAIN_CHECKPOINT (R245). -/
  | trainCheckpoint (h : ReqHead) (r : TrainCkptRec)
  /-- CHECKPOINT_WRITE_DONE (R245). -/
  | checkpointWriteDone (t : Nat) (ctx : Nat) (idx : Nat)
  /-- TRAIN_CLOSE (R246). -/
  | trainClose (h : ReqHead) (slotBits : Nat) (flags : Nat) (format : Nat) (resv : Bool)
  /-- ATTEST (R390). -/
  | attest (h : ReqHead) (r : SecRec)
  /-- ATTEST_REPORT_SIGNED (R390). -/
  | attestReportSigned (t : Nat)
  /-- KEY_BEGIN (R391). -/
  | keyBegin (h : ReqHead) (r : SecRec)
  /-- KEY_FINISH (R391). -/
  | keyFinish (h : ReqHead) (r : SecRec) (ct : Option (List Nat))
  /-- KEY_ERASE (R391). -/
  | keyErase (h : ReqHead) (keyIndex : Nat) (resv : Bool)
  /-- PENDING_KEY_EXPIRY (R391). -/
  | pendingKeyExpiry (t : Nat) (ctx : Nat) (keyIndex : Nat)
  /-- EVQ_POLL (R208). -/
  | evqPoll (t : Nat) (c : Nat) (v : Option Nat)
  /-- BACKLOG_TIMEOUT (R209). -/
  | backlogTimeout (t : Nat) (c : Nat)
  /-- EVQ_REARM_POLL (R410). -/
  | evqRearmPoll (t : Nat) (c : Nat) (v : Option Nat)
  /-- PLAN_FREEZE (R36). -/
  | planFreeze (t : Nat) (f : FreezeIn)
  /-- STEP_BOUNDARY (R32). -/
  | stepBoundary (t : Nat) (e : StepEndIn)
  /-- IDLE_BOUNDARY (R475). -/
  | idleBoundary (t : Nat)
  /-- REFRESH_WATCHDOG (R49). -/
  | refreshWatchdog (t : Nat) (chan : Nat) (slots : Nat)
  /-- HUB_TT_LOAD (R44). -/
  | hubTtLoad (src : Src) (hub : Nat)
  /-- HUB_TT_LOAD_DONE (R44). -/
  | hubTtLoadDone (t : Nat) (hub : Nat)
  /-- WING_TT_LOAD (R44). -/
  | wingTtLoad (src : Src) (wing : Nat)
  /-- WING_TT_LOAD_DONE (R44). -/
  | wingTtLoadDone (t : Nat) (wing : Nat)
  /-- WING_TT_FLIP_REQ (R45). -/
  | wingTtFlipReq (src : Src) (wing : Nat) (value : Nat)
  /-- REMAP_FLIP_REQ (R20). -/
  | remapFlipReq (src : Src) (hub : Nat) (value : Nat)
  /-- REMAP_SLOT_WRITE (R21). -/
  | remapSlotWrite (src : Src) (hub : Nat) (bank : Nat) (slot : Nat) (value : Nat)
  /-- VEC_COEF_LOAD (R155). -/
  | vecCoefLoad (src : Src) (hub : Nat)
  /-- VEC_COEF_LOAD_DONE (R155). -/
  | vecCoefLoadDone (t : Nat) (hub : Nat)
  /-- VEC_COEF_FLIP_REQ (R155). -/
  | vecCoefFlipReq (src : Src) (hub : Nat) (value : Nat)
  /-- PANNIER_COPY_START (R228). -/
  | pannierCopyStart (src : Src)
  /-- PANNIER_COPY_DONE (R228). -/
  | pannierCopyDone (t : Nat)
  /-- PANNIER_FLIP_REQ (R226). -/
  | pannierFlipReq (src : Src) (value : Nat)
  /-- PANNIER_ENTRY_WRITE (R227). -/
  | pannierEntryWrite (src : Src) (wing : Nat) (bank : Nat) (slot : Nat) (e : PEntry)
  /-- REGISTER_WRITE (R4). -/
  | registerWrite (src : Src) (tg : Target) (width : Nat) (value : Nat)
  /-- FUSED_COMMAND (R98). -/
  | fusedCommand (t : Nat) (q : QueuedCmd)
  /-- MATRIX_STAGE (R101). -/
  | matrixStage (t : Nat) (hub : Nat) (phys : Nat) (run : StageRun)
  /-- RETENTION_RELEASE (R102). -/
  | retentionRelease (t : Nat) (hub : Nat) (phys : Nat) (cycles : Nat)
  /-- RESCUE_REPLAY (R290). -/
  | rescueReplay (t : Nat) (hub : Nat) (phys : Nat) (passed : Bool) (port : List Nat)
  /-- FREEWHEEL_STAGE (R110). -/
  | freewheelStage (t : Nat) (hub : Nat) (phys : Nat) (port : List Nat) (run : StageRun)
  /-- MAP (R123). -/
  | map (t : Nat) (hub : Nat) (phys : Nat) (run : StageRun)
  /-- GATE (R149). -/
  | gate (t : Nat) (hub : Nat) (phys : Nat) (run : StageRun)
  /-- SOFTMAX (R147). -/
  | softmax (t : Nat) (hub : Nat) (phys : Nat) (run : StageRun)
  /-- COMPRESS (R129). -/
  | compress (t : Nat) (hub : Nat) (phys : Nat) (run : StageRun)
  /-- EXPAND (R129). -/
  | expand (t : Nat) (hub : Nat) (phys : Nat) (run : StageRun)
  /-- GATHER (R129). -/
  | gather (t : Nat) (hub : Nat) (phys : Nat) (run : StageRun)
  /-- SCATTER (R129). -/
  | scatter (t : Nat) (hub : Nat) (phys : Nat) (run : StageRun)
  /-- SFU_STAGE (R127). -/
  | sfuStage (t : Nat) (hub : Nat) (phys : Nat) (run : StageRun)
  /-- ADD (R125). -/
  | add (hub : Nat) (phys : Nat) (i : VInstr)
  /-- SUB (R125). -/
  | sub (hub : Nat) (phys : Nat) (i : VInstr)
  /-- MUL (R125). -/
  | mul (hub : Nat) (phys : Nat) (i : VInstr)
  /-- FMA (R125). -/
  | fma (hub : Nat) (phys : Nat) (i : VInstr)
  /-- MAX (R122). -/
  | max (hub : Nat) (phys : Nat) (i : VInstr)
  /-- MIN (R122). -/
  | min (hub : Nat) (phys : Nat) (i : VInstr)
  /-- ABS (R125). -/
  | abs (hub : Nat) (phys : Nat) (i : VInstr)
  /-- NEG (R125). -/
  | neg (hub : Nat) (phys : Nat) (i : VInstr)
  /-- CMPLT (R125). -/
  | cmplt (hub : Nat) (phys : Nat) (i : VInstr)
  /-- CMPLE (R125). -/
  | cmple (hub : Nat) (phys : Nat) (i : VInstr)
  /-- CMPEQ (R125). -/
  | cmpeq (hub : Nat) (phys : Nat) (i : VInstr)
  /-- SEL (R125). -/
  | sel (hub : Nat) (phys : Nat) (i : VInstr)
  /-- IADD (R125). -/
  | iadd (hub : Nat) (phys : Nat) (i : VInstr)
  /-- AND (R125). -/
  | and (hub : Nat) (phys : Nat) (i : VInstr)
  /-- OR (R125). -/
  | or (hub : Nat) (phys : Nat) (i : VInstr)
  /-- XOR (R125). -/
  | xor (hub : Nat) (phys : Nat) (i : VInstr)
  /-- SHL (R125). -/
  | shl (hub : Nat) (phys : Nat) (i : VInstr)
  /-- SHRA (R125). -/
  | shra (hub : Nat) (phys : Nat) (i : VInstr)
  /-- CVTI (R122). -/
  | cvti (hub : Nat) (phys : Nat) (i : VInstr)
  /-- CVTF (R125). -/
  | cvtf (hub : Nat) (phys : Nat) (i : VInstr)
  /-- FN (R137). -/
  | fn (hub : Nat) (phys : Nat) (i : VInstr)
  /-- LUT (R156). -/
  | lut (hub : Nat) (phys : Nat) (i : VInstr)
  /-- PWC (R156). -/
  | pwc (hub : Nat) (phys : Nat) (i : VInstr)
  /-- RED (R139). -/
  | red (hub : Nat) (phys : Nat) (i : VInstr)
  /-- FN_EXP2 (R133). -/
  | fnExp2 (hub : Nat) (phys : Nat) (i : VInstr)
  /-- FN_LOG2 (R134). -/
  | fnLog2 (hub : Nat) (phys : Nat) (i : VInstr)
  /-- FN_EXP (R137). -/
  | fnExp (hub : Nat) (phys : Nat) (i : VInstr)
  /-- FN_RECIP (R137). -/
  | fnRecip (hub : Nat) (phys : Nat) (i : VInstr)
  /-- FN_RSQRT (R137). -/
  | fnRsqrt (hub : Nat) (phys : Nat) (i : VInstr)
  /-- FN_SIGMOID (R137). -/
  | fnSigmoid (hub : Nat) (phys : Nat) (i : VInstr)
  /-- FN_TANH (R137). -/
  | fnTanh (hub : Nat) (phys : Nat) (i : VInstr)
  /-- FN_SILU (R137). -/
  | fnSilu (hub : Nat) (phys : Nat) (i : VInstr)
  /-- FN_GELU (R137). -/
  | fnGelu (hub : Nat) (phys : Nat) (i : VInstr)
  /-- FN_SOFTPLUS (R137). -/
  | fnSoftplus (hub : Nat) (phys : Nat) (i : VInstr)
  /-- REDUCE_SUM (R140). -/
  | reduceSum (t : Nat) (hub : Nat) (phys : Nat) (run : StageRun)
  /-- REDUCE_SUMSQ (R139). -/
  | reduceSumsq (t : Nat) (hub : Nat) (phys : Nat) (run : StageRun)
  /-- REDUCE_MAX (R139). -/
  | reduceMax (t : Nat) (hub : Nat) (phys : Nat) (run : StageRun)
  /-- REDUCE_MIN (R139). -/
  | reduceMin (t : Nat) (hub : Nat) (phys : Nat) (run : StageRun)
  /-- ARGMAX (R139). -/
  | argmax (t : Nat) (hub : Nat) (phys : Nat) (run : StageRun)
  /-- SMSTAT (R141). -/
  | smstat (t : Nat) (hub : Nat) (phys : Nat) (run : StageRun)
  /-- TOPK (R139). -/
  | topk (t : Nat) (hub : Nat) (phys : Nat) (run : StageRun)
  /-- ROUTE (R139). -/
  | route (t : Nat) (hub : Nat) (phys : Nat) (run : StageRun)
  /-- HIST (R139). -/
  | hist (t : Nat) (hub : Nat) (phys : Nat) (run : StageRun)
  /-- MERGE (R145). -/
  | merge (t : Nat) (hub : Nat) (phys : Nat) (run : StageRun)
  /-- SUMQ_POP (R143). -/
  | sumqPop (src : Src) (hub : Nat)
  /-- SCALAR_CSR_WRITE (R131). -/
  | scalarCsrWrite (hub : Nat) (n : Nat) (value : Nat)
  /-- PAGE_READ (R169). -/
  | pageRead (t : Nat) (hub : Nat) (phys : Nat) (run : StageRun)
  /-- PAGE_WRITE (R170). -/
  | pageWrite (t : Nat) (hub : Nat) (phys : Nat) (run : StageRun)
  /-- ADAPTER_READ (R223). -/
  | adapterRead (t : Nat) (hub : Nat) (phys : Nat) (run : StageRun)
  /-- COPY (R266). -/
  | copy (t : Nat) (hub : Nat) (phys : Nat) (host : Option (List Nat)) (run : StageRun)
  /-- RED_ADD (R268). -/
  | redAdd (t : Nat) (hub : Nat) (phys : Nat) (host : Option (List Nat)) (run : StageRun)
  /-- FILL (R266). -/
  | fill (t : Nat) (hub : Nat) (phys : Nat) (run : StageRun)
  /-- PANTRY_AMO (R267). -/
  | pantryAmo (hub : Nat) (addr : Nat) (double : Bool) (op : AmoOp) (value : Nat)
  /-- PANTRY_LR (R267). -/
  | pantryLr (hub : Nat) (addr : Nat) (double : Bool)
  /-- PANTRY_SC (R267). -/
  | pantrySc (hub : Nat) (addr : Nat) (double : Bool) (value : Nat)
  /-- MEM_GRANT (R260). -/
  | memGrant (src : Src) (hub : Nat) (granule : Nat) (space : Nat) (phys : Nat) (owner : Nat) (go : Bool)
  /-- MAT_INJECT_ARM (R120). -/
  | matInjectArm (src : Src) (hub : Nat) (slot : Nat) (target : Nat) (bit : Nat)
  /-- HANG_TIMEOUT (R291). -/
  | hangTimeout (t : Nat) (hub : Nat) (phys : Nat) (reserve : Nat)
  /-- TRAIL_DUMP_DONE (R453). -/
  | trailDumpDone (t : Nat) (scope : Nat)
  /-- FIELD_TEST (R296): the run, the bundle's expected CRC, and whether a checksum, residue or ECC event occurred. -/
  | fieldTest (t : Nat) (hub : Nat) (phys : Nat) (test : Nat) (ft : FtRun) (expected : Nat) (event : Bool)
  /-- SWEEP_ROTATION (R298). -/
  | sweepRotation (t : Nat) (hub : Nat)
  /-- HEARTBEAT_SAMPLE (R302). -/
  | heartbeatSample (t : Nat) (hub : Nat) (value : Nat)
  /-- SHADOW_HEARTBEAT_SAMPLE (R302). -/
  | shadowHeartbeatSample (t : Nat) (value : Nat)
  /-- CELLAR_WRITE (R304). -/
  | cellarWrite (t : Nat)
  /-- COALESCE_WINDOW_END (R304). -/
  | coalesceWindowEnd (t : Nat) (kind : Nat) (unit : Nat)
  /-- PLATFORM_EVENT_MESSAGE (R418). -/
  | platformEventMessage (t : Nat) (answered : Bool)
  /-- PLDM_EVENT_RETRY (R418). -/
  | pldmEventRetry (t : Nat) (answered : Bool)
  /-- MARK_SUSPECT (R309). -/
  | markSuspect (src : Src) (hub : Nat) (slot : Nat)
  /-- MARK_RETIRED (R309). -/
  | markRetired (src : Src) (hub : Nat) (slot : Nat)
  /-- SET_SKIP (R309). -/
  | setSkip (src : Src) (hub : Nat) (slot : Nat) (value : Nat)
  /-- READMIT (R301). -/
  | readmit (src : Src) (hub : Nat) (slot : Nat)
  /-- CLEAR_LAST_EVENT (R309). -/
  | clearLastEvent (src : Src) (hub : Nat) (slot : Nat)
  /-- SET_HUB_NORMAL (R293). -/
  | setHubNormal (src : Src) (hub : Nat)
  /-- HBM_BURST_RETRY (R269). -/
  | hbmBurstRetry (t : Nat) (addr : Nat) (attempt : Nat) (write : Bool)
  /-- HBM_STORED_ERROR (R269). -/
  | hbmStoredError (t : Nat) (addr : Nat) (correctable : Bool)
  /-- WEIGHT_REBUILD_DONE (R275). -/
  | weightRebuildDone (t : Nat) (block : Nat) (verified : Bool)
  /-- REFETCH_DONE (R276). -/
  | refetchDone (t : Nat) (block : Nat) (source : Nat) (data : List (List Nat))
  /-- DEGRADED_DRAIN_DONE (R271). -/
  | degradedDrainDone (t : Nat) (chan : Nat)
  /-- DEGRADED_TIMEOUT (R270). -/
  | degradedTimeout (t : Nat) (chan : Nat)
  /-- PATROL_SCRUB (R272). -/
  | patrolScrub (t : Nat) (chan : Nat)
  /-- STACK_FAILURE (R270). -/
  | stackFailure (t : Nat) (stack : Nat) (room : Bool)
  /-- REGION_CLEAR_DONE (R278). -/
  | regionClearDone (t : Nat) (region : Nat)
  /-- HBM_REPAIR_GO (R279). -/
  | hbmRepairGo (src : Src) (chan : Nat)
  /-- HBM_REPAIR_DONE (R279). -/
  | hbmRepairDone (t : Nat) (chan : Nat) (ok : Bool) (spares : Nat) (block : Option Nat)
  /-- PARK_IMAGE_COMPLETE (R179). -/
  | parkImageComplete (t : Nat) (session : Nat)
  /-- UNPARK_DUE (R180). -/
  | unparkDue (t : Nat) (session : Nat)
  /-- UNPARK_COMPLETE (R179). -/
  | unparkComplete (t : Nat) (session : Nat) (host : Option (List Nat))
  /-- PWR_ALERT_ASSERT (R323): the line has been asserted at the pin for `width` ns. -/
  | pwrAlertAssert (t : Nat) (rail : Nat) (delay : Nat) (width : Nat)
  /-- STORM_EXPIRY (R326). -/
  | stormExpiry (t : Nat) (wing : Nat)
  /-- PWR_ALERT_DEASSERT (R323). -/
  | pwrAlertDeassert (t : Nat) (rail : Nat)
  /-- ALERT_HOLD_EXPIRY (R323): `mv` is the VCORE from which the return starts. -/
  | alertHoldExpiry (t : Nat) (wing : Nat) (mv : Nat)
  /-- ALERT_LONG_HOLD (R323). -/
  | alertLongHold (t : Nat) (rail : Nat)
  /-- THROTTLE_ASSERT (R323). -/
  | throttleAssert (t : Nat)
  /-- THROTTLE_DEASSERT (R323). -/
  | throttleDeassert (t : Nat)
  /-- DERAILLEUR_WINDOW (R316). -/
  | derailleurWindow (t : Nat) (wing : Nat) (meas : Nat) (est : WingActivity) (input : Option Nat) (attrib : List (Nat × Nat))
  /-- LIMITER_SAMPLE (R320). -/
  | limiterSample (t : Nat) (wing : Nat) (predicted : Nat) (measured : Nat) (ends : Bool) (extra : Nat)
  /-- DRL_EST_CLEAR (R317). -/
  | drlEstClear (src : Src) (t : Nat) (wing : Nat)
  /-- PWR_CAP_WRITE (R324). -/
  | pwrCapWrite (src : Src) (t : Nat) (value : Nat)
  /-- PWR_METER_WRITE (R331). -/
  | pwrMeterWrite (src : Src) (t : Nat) (m : Nat) (value : Nat)
  /-- THERMAL_LEVEL (R328). -/
  | thermalLevel (t : Nat) (sensor : ThermalSensor) (reading : Nat)
  /-- RAIL_FAULT (R334). -/
  | railFault (t : Nat) (rail : Nat) (kind : Nat) (room : Bool)
  /-- INPUT_VOLTAGE_BAND (R464). -/
  | inputVoltageBand (t : Nat) (volts : Nat) (amps : Nat)
  /-- POWER_FAIL (R445). -/
  | powerFail (t : Nat) (volts : Nat) (flushed : Nat)
  /-- HOTSWAP_LIMIT_TIMEOUT (R465). -/
  | hotswapLimitTimeout (t : Nat)
  /-- HOTSWAP_RESTART (R465). -/
  | hotswapRestart (t : Nat) (seenA : Nat) (seenB : Nat) (cores : List Nat) (chans : List Nat)
  /-- LINK_SIGNAL_DETECT (R337). -/
  | linkSignalDetect (t : Nat) (l : Nat)
  /-- LINK_TRAINING_DONE (R337). -/
  | linkTrainingDone (t : Nat) (l : Nat) (mask : Nat) (delay : Nat)
  /-- LINK_TRAINING_TIMEOUT (R337). -/
  | linkTrainingTimeout (t : Nat) (l : Nat)
  /-- LINK_ERROR_THRESHOLD (R338). -/
  | linkErrorThreshold (t : Nat) (l : Nat) (trouble : LinkTrouble) (tasks : List (List (Nat × Nat) × Nat))
  /-- LINK_RETRAIN_DONE (R337). -/
  | linkRetrainDone (t : Nat) (l : Nat) (mask : Nat)
  /-- LINK_RETRAIN_TIMEOUT (R337). -/
  | linkRetrainTimeout (t : Nat) (l : Nat) (tasks : List (List (Nat × Nat) × Nat))
  /-- LINK_LOST (R337). -/
  | linkLost (t : Nat) (l : Nat)
  /-- SPOKE_DATA (R344). -/
  | spokeData (t : Nat) (l : Nat) (p : Packet) (uncorr : Bool) (task : List (Nat × Nat)) (card : Nat)
  /-- SPOKE_RED (R353). -/
  | spokeRed (t : Nat) (l : Nat) (p : Packet) (uncorr : Bool) (task : List (Nat × Nat)) (card : Nat) (fmt : Nat) (count : Nat)
  /-- SPOKE_ACK (R343). -/
  | spokeAck (t : Nat) (l : Nat) (p : Packet)
  /-- SPOKE_NAK (R343). -/
  | spokeNak (t : Nat) (l : Nat) (p : Packet) (tasks : List (List (Nat × Nat) × Nat))
  /-- SPOKE_SYNC (R350). -/
  | spokeSync (t : Nat) (l : Nat) (p : Packet)
  /-- SYNC_SEND (R350). -/
  | syncSend (t : Nat)
  /-- UPSTREAM_TIMEOUT (R352). -/
  | upstreamTimeout (t : Nat)
  /-- HOLDOVER_TIMEOUT (R352). -/
  | holdoverTimeout (t : Nat)
  /-- HELLO (R348). -/
  | hello (t : Nat) (l : Nat) (b : HelloBody)
  /-- JOIN (R359). -/
  | join (t : Nat) (l : Nat) (b : JoinBody)
  /-- JOIN_RETRY (R359). -/
  | joinRetry (t : Nat)
  /-- SETTLED_TIMER (R359). -/
  | settledTimer (t : Nat)
  /-- EPOCH (R355). -/
  | epoch (t : Nat) (l : Nat) (b : EpochBody)
  /-- SELF_DEAD_TIMEOUT (R358). -/
  | selfDeadTimeout (t : Nat)
  /-- CREDIT (R346). -/
  | credit (t : Nat) (l : Nat) (p : Packet)
  /-- LINKLOST (R357). -/
  | linklost (t : Nat) (l : Nat) (reporter : Nat) (lost : Nat) (rlink : Nat)
  /-- DECLARE_TIMEOUT (R357). -/
  | declareTimeout (t : Nat) (l : Nat) (heard : Bool)
  /-- BARRIER (R354). -/
  | barrier (t : Nat) (l : Nat) (p : Packet) (b : BarrierBody)
  /-- SPOKE_TABLE_FLIP (R340). -/
  | spokeTableFlip (t : Nat)
  /-- SPOKE_TT_LOAD (R341). -/
  | spokeTtLoad (src : Src)
  /-- SPOKE_TT_FLIP_REQ (R340). -/
  | spokeTtFlipReq (src : Src) (value : Nat)
  /-- SPOKE_FAB_ADDR_WRITE (R348). -/
  | spokeFabAddrWrite (src : Src) (t : Nat) (addr : Nat)
  /-- FAB_DRAIN (R361). -/
  | fabDrain (src : Src) (t : Nat) (successor : Nat)
  /-- DRAIN_COMPLETE (R361). -/
  | drainComplete (t : Nat) (moved : Nat)
  /-- FAB_CANCEL_DRAIN (R361). -/
  | fabCancelDrain (src : Src) (t : Nat)
  /-- FAB_LEAVE (R361). -/
  | fabLeave (src : Src) (t : Nat)
  /-- LINK_RETIRE (R337). -/
  | linkRetire (src : Src) (t : Nat) (l : Nat) (tasks : List (List (Nat × Nat) × Nat))
  /-- LINK_RESTORE (R337). -/
  | linkRestore (src : Src) (t : Nat) (l : Nat)
  /-- CTX_GRANT (R369). -/
  | ctxGrant (src : Src) (t : Nat) (c : Nat) (cls : Bool)
  /-- CTX_SUSPEND (R375). -/
  | ctxSuspend (src : Src) (t : Nat) (c : Nat)
  /-- SUSPEND_DONE (R375). -/
  | suspendDone (t : Nat) (c : Nat)
  /-- CTX_RESUME (R369). -/
  | ctxResume (src : Src) (t : Nat) (c : Nat)
  /-- CTX_TEARDOWN (R378). -/
  | ctxTeardown (src : Src) (t : Nat) (c : Nat)
  /-- TEARDOWN_ITEMS_ENDED (R378). -/
  | teardownItemsEnded (t : Nat) (c : Nat)
  /-- TEARDOWN_GRANULES_FREED (R378). -/
  | teardownGranulesFreed (t : Nat) (c : Nat)
  /-- SERVE_ENABLE_WRITE (R215). -/
  | serveEnableWrite (src : Src) (t : Nat) (c : Nat) (value : Nat)
  /-- IDE_FAILURE (R394). -/
  | ideFailure (t : Nat) (c : Nat) (integrity : Bool)
  /-- NON_IDE_REQUEST (R398). -/
  | nonIdeRequest (t : Nat) (c : Nat)
  /-- PCIE_LINK_DOWN (R401). -/
  | pcieLinkDown (t : Nat)
  /-- PCIE_LINK_UP (R401). -/
  | pcieLinkUp (t : Nat) (width : Nat) (rate : Nat) (flit : Bool)
  /-- HOST_READ_FAILURE (R400). -/
  | hostReadFailure (t : Nat) (what : HostRead) (timeout : Bool)
  /-- VF_FLR (R402). -/
  | vfFlr (t : Nat) (n : Nat)
  /-- PF_FLR (R402). -/
  | pfFlr (t : Nat)
  /-- VF_ENABLE_CLEARED (R402). -/
  | vfEnableCleared (t : Nat)
  /-- BUS_MASTER_DISABLE (R402). -/
  | busMasterDisable (t : Nat) (f : Nat) (en : Bool)
  /-- MEMORY_SPACE_DISABLE (R402). -/
  | memorySpaceDisable (t : Nat) (f : Nat) (en : Bool)
  /-- PERST_ASSERT (R436). -/
  | perstAssert (t : Nat)
  /-- PERST_DEASSERT (R432). -/
  | perstDeassert (t : Nat)
  /-- CTXWIN_CADENCE_READ (R404). -/
  | ctxwinCadenceRead (t : Nat) (c : Nat) (width : Nat) (high : Bool)
  /-- MBX_SEND (R405). -/
  | mbxSend (src : Src) (c : Nat) (pf : Bool)
  /-- MBX_ACK (R405). -/
  | mbxAck (src : Src) (c : Nat) (pf : Bool)
  /-- MODERATION_EXPIRY (R409). -/
  | moderationExpiry (t : Nat) (e : Nat)
  /-- MSIX_MASK (R412). -/
  | msixMask (fn : Nat) (entry : Option Nat)
  /-- MSIX_UNMASK (R412). -/
  | msixUnmask (fn : Nat) (entry : Option Nat)
  /-- SLOT_ID_SAMPLE (R406). -/
  | slotIdSample (t : Nat) (v : Nat)
  /-- COLD_START (R431). -/
  | coldStart (seenA : Nat) (seenB : Nat) (cores : List Nat) (chans : List Nat)
  /-- BOOT_READY (R429). -/
  | bootReady (t : Nat)
  /-- BOOT_WATCHDOG (R431). -/
  | bootWatchdog (t : Nat) (check : Nat)
  /-- ALIAS_CERT_SIGNED (R386). -/
  | aliasCertSigned (t : Nat)
  /-- HUB_RESET (R434). -/
  | hubReset (src : Src) (t : Nat) (hub : Nat)
  /-- HUB_RESET_COMPLETE (R302). -/
  | hubResetComplete (t : Nat) (hub : Nat) (fails : List Nat)
  /-- WARM_RESET (R435). -/
  | warmReset (src : Src) (t : Nat)
  /-- WARM_RESET_COMPLETE (R435). -/
  | warmResetComplete (t : Nat) (fails : List Nat)
  /-- LP_IDLE_SELECT (R439). -/
  | lpIdleSelect (t : Nat) (depends : Bool)
  /-- LP_ENTRY_COMPLETE (R437). -/
  | lpEntryComplete (t : Nat)
  /-- KICKSTAND_ENTRY (R441). -/
  | kickstandEntry (t : Nat) (l2 : Bool)
  /-- LP_WAKE_TIMER (R439). -/
  | lpWakeTimer (t : Nat)
  /-- LP_WAKE (R440). -/
  | lpWake (src : Src) (t : Nat)
  /-- LP_EXIT_COMPLETE (R437). -/
  | lpExitComplete (t : Nat)
  /-- DBG_FREEZE (R453). -/
  | dbgFreeze (src : Src) (t : Nat)
  /-- DBG_UNFREEZE (R453). -/
  | dbgUnfreeze (src : Src) (t : Nat)
  /-- DBG_SNAP (R449). -/
  | dbgSnap (src : Src) (t : Nat)
  /-- COUNTER_CONTRIBUTION (R449). -/
  | counterContribution (t : Nat) (counts : List (Nat × Nat))
  /-- DBG_HALT_REQ (R455). -/
  | dbgHaltReq (src : Src) (t : Nat) (hub : Nat)
  /-- BREAKPOINT_TRIGGER (R454). -/
  | breakpointTrigger (t : Nat) (hub : Nat)
  /-- HALT_DRAINED (R455). -/
  | haltDrained (t : Nat) (hub : Nat)
  /-- DBG_RESUME (R456). -/
  | dbgResume (src : Src) (t : Nat) (hub : Nat)
  /-- DMI_READ (R454). -/
  | dmiRead (src : Src) (hub : Nat) (addr : Nat)
  /-- DMI_WRITE (R454). -/
  | dmiWrite (src : Src) (hub : Nat) (addr : Nat)
  /-- HUB_WITHDRAW (R457). -/
  | hubWithdraw (src : Src) (t : Nat) (hub : Nat)
  /-- HUB_RETURN (R457). -/
  | hubReturn (src : Src) (t : Nat) (hub : Nat)
  /-- LBIST (R458). -/
  | lbist (src : Src) (t : Nat) (hub : Nat) (patterns : Nat)
  /-- MBIST (R457). -/
  | mbist (src : Src) (t : Nat) (hub : Nat)
  /-- MBIST_RET (R457). -/
  | mbistRet (src : Src) (t : Nat) (hub : Nat)
  /-- HUB_SWEEP (R457). -/
  | hubSweep (src : Src) (t : Nat) (hub : Nat) (phys : Nat)
  /-- BIST_COMPLETE (R457). -/
  | bistComplete (t : Nat) (hub : Nat) (sigs : List Nat) (fails : List (Nat × Nat × Nat)) (first : Nat) (word : Nat) (count : Nat)
  /-- ENTDAA (R414). -/
  | entdaa (addr : Nat)
  /-- SET_ENDPOINT_ID (R415). -/
  | setEndpointId (eid : Nat)
  /-- GET_ENDPOINT_ID (R415). -/
  | getEndpointId
  /-- GET_ENDPOINT_UUID (R415). -/
  | getEndpointUuid
  /-- GET_MCTP_VERSION_SUPPORT (R415). -/
  | getMctpVersionSupport (type : Nat)
  /-- GET_MESSAGE_TYPE_SUPPORT (R415). -/
  | getMessageTypeSupport
  /-- GET_TID (R416). -/
  | getTid
  /-- SET_TID (R416). -/
  | setTid (tid : Nat)
  /-- GET_PLDM_VERSION (R416). -/
  | getPldmVersion (type : Nat)
  /-- GET_PLDM_TYPES (R416). -/
  | getPldmTypes
  /-- GET_PLDM_COMMANDS (R416). -/
  | getPldmCommands (type : Nat)
  /-- GET_PDR (R417). -/
  | getPdr (handle : Nat)
  /-- GET_PDR_REPOSITORY_INFO (R417). -/
  | getPdrRepositoryInfo
  /-- GET_SENSOR_READING (R417). -/
  | getSensorReading (sensor : Nat)
  /-- GET_STATE_SENSOR_READINGS (R417). -/
  | getStateSensorReadings (sensor : Nat)
  /-- MODULE_CAP_EFFECTER (R417). -/
  | moduleCapEffecter (t : Nat) (value : Nat)
  /-- WAKE_EFFECTER (R413). -/
  | wakeEffecter (t : Nat)
  /-- RESET_EFFECTER (R417). -/
  | resetEffecter (t : Nat)
  /-- SET_EVENT_RECEIVER (R418). -/
  | setEventReceiver (t : Nat) (eid : Option Nat)
  /-- POLL_FOR_PLATFORM_EVENT_MESSAGE (R418). -/
  | pollForPlatformEventMessage
  /-- QUERY_DEVICE_IDENTIFIERS (R419). -/
  | queryDeviceIdentifiers
  /-- GET_FIRMWARE_PARAMETERS (R419). -/
  | getFirmwareParameters
  /-- REQUEST_UPDATE (R419). -/
  | requestUpdate
  /-- PASS_COMPONENT_TABLE (R419). -/
  | passComponentTable
  /-- UPDATE_COMPONENT (R419). -/
  | updateComponent
  /-- FW_TRANSFER_COMPLETE (R419). -/
  | fwTransferComplete (w : FlashWrite)
  /-- ACTIVATE_FIRMWARE (R419). -/
  | activateFirmware (selfContained : Bool)
  /-- GET_STATUS (R419). -/
  | getStatus
  /-- CANCEL_UPDATE_COMPONENT (R419). -/
  | cancelUpdateComponent
  /-- CANCEL_UPDATE (R419). -/
  | cancelUpdate
  /-- GET_VERSION (R399). -/
  | getVersion
  /-- GET_CAPABILITIES (R399). -/
  | getCapabilities
  /-- NEGOTIATE_ALGORITHMS (R399). -/
  | negotiateAlgorithms (offered : Bool)
  /-- PSK_EXCHANGE (R399). -/
  | pskExchange (underKey : Bool)
  /-- PSK_FINISH (R399). -/
  | pskFinish (verified : Bool)
  /-- END_SESSION (R399). -/
  | endSession
  /-- KEY_PROG (R399). -/
  | keyProg (n : Nat) (set : Nat) (sub : Nat) (rx : Bool)
  /-- K_SET_GO (R399). -/
  | kSetGo (n : Nat) (set : Nat)
  /-- K_SET_STOP (R399). -/
  | kSetStop (n : Nat) (set : Nat)
  /-- FT_STARVED (R298). -/
  | ftStarved (t : Nat) (hub : Nat)
  /-- MACHINE_CHECK (R302). -/
  | machineCheck (t : Nat)
  /-- PHY_RETRAINING_FAIL (R270). -/
  | phyRetrainingFail (t : Nat) (chan : Nat)
  /-- ALERT_ONGOING (R333). -/
  | alertOngoing (t : Nat) (rail : Nat)
  /-- SLOT_ID_CHANGE (R406). -/
  | slotIdChange (t : Nat) (v : Nat)
  /-- INPUT_GLITCH (R406). -/
  | inputGlitch (t : Nat)
  /-- PCIE_LINK_RETRAIN (R397). -/
  | pcieLinkRetrain (t : Nat) (width : Nat) (rate : Nat)
  /-- DOE_DISCOVERY (R397). -/
  | doeDiscovery (index : Nat)
  /-- IDCODE (R459). -/
  | idcode
  /-- BYPASS (R459). -/
  | bypass (n : Nat) (value : Nat)
  /-- SHORT_CIRCUIT (R465). -/
  | shortCircuit (t : Nat)
  deriving DecidableEq, Repr

end Sys2Proof
end

