-- ==== Sys2Proof/WellFormed.lean ====
section
/-! DEFINITION. Well-formed commands: operands that name things the block has, and values that fit the fields they stand
for. A sender only sends well-formed commands; the meanings are total and do not rest on it. -/

namespace Sys2Proof

/-- A value fits n bits. -/
def fits (n v : Nat) : Bool := decide (v < 2 ^ n)

/-- A module hub index (R11). -/
def hubOk (h : Nat) : Bool := decide (h < 160)

/-- A wing. -/
def wingOk (w : Nat) : Bool := decide (w < 4)

/-- A context number (R366). -/
def ctxOk (c : Nat) : Bool := decide (c < 64)

/-- An HBM channel of the module: wing × 96 + channel. -/
def chanOk (c : Nat) : Bool := decide (c < 384)

/-- A Spoke link, X+ to Z−. -/
def linkOk (l : Nat) : Bool := decide (l < 6)

/-- A physical slot of a hub: 64 cores and 2 spares (R14). -/
def physOk (p : Nat) : Bool := decide (p < 66)

/-- A session index (R17). -/
def sessionOk (i : Nat) : Bool := decide (i < 65536)

/-- An HBM region: wing × 3,072 + region (R257). -/
def regionOk (r : Nat) : Bool := decide (r < 12288)

/-- An HBM stack: wing × 3 + stack. -/
def stackOk (n : Nat) : Bool := decide (n < 12)

/-- A rail (Table 11-1). -/
def railOk (r : Nat) : Bool := decide (r < 21)

/-- A register access of 4 or 8 bytes (R4). -/
def widthOk (w : Nat) : Bool := w == 4 || w == 8

/-- The sender of a register write. -/
def sourceOk : Src → Bool
  | .core h => hubOk h
  | .driver c => ctxOk c
  | .mgmt => true
  | .blueprint => true
  | .other => true

/-- Where a register write goes. -/
def targetOk : Target → Bool
  | .pf a => fits 40 a
  | .vf fn off => decide (1 ≤ fn) && ctxOk fn && fits 16 off

/-- The common bytes of a request record (R194). -/
def headOk (h : ReqHead) : Bool := ctxOk h.ctx && fits 32 h.idx && fits 32 h.handle && fits 64 h.tag

/-- A GENERATE record (Table 7-5). -/
def generateOk (r : GenerateRec) : Bool :=
  fits 8 r.flags && fits 8 r.permit && fits 8 r.depth && fits 64 r.promptAddr && fits 32 r.promptLen && fits 32 r.maxNew
    && fits 32 r.maxFirstUs && fits 32 r.maxIntervalNs && fits 16 r.model && fits 16 r.draft && fits 16 r.adapter && fits 16 r.topK
    && fits 32 r.temperature && fits 32 r.topP && fits 64 r.seed && r.stops.all (fits 32) && fits 32 r.resumeHint

/-- A vector instruction (Table 5-2). -/
def vinstrOk (i : VInstr) : Bool :=
  fits 8 i.op && fits 4 i.dst && fits 4 i.a && fits 4 i.b && fits 4 i.c && fits 2 i.bKind && fits 2 i.guard && fits 32 i.imm

/-- A Spoke packet (Table 12-4). -/
def packetOk (p : Packet) : Bool :=
  fits 4 p.type && fits 2 p.cls && fits 1 p.vc && fits 8 p.hops && fits 16 p.seq && fits 16 p.slot && fits 20 p.flow
    && fits 12 p.srcIndex && fits 52 p.destAddr && fits 32 p.crc && fits 12 p.src && fits 12 p.dst && fits 16 p.srcEpoch && fits 16 p.dstEpoch && ctxOk p.ctx && p.data.all (fits 8)

/-- Whether a command is well formed. -/
def Instr.wellFormed : Instr → Bool
  | .intakeTick _ _ => true
  | .generate h r => headOk h && generateOk r
  | .cancel h _ => headOk h
  | .close h _ => headOk h
  | .hint h permit us _ => headOk h && fits 8 permit && fits 32 us
  | .loadBundle h r _ => headOk h && fits 64 r.addr && fits 64 r.bytes && fits 16 r.model
  | .bundleSectionArrival _ _ _ => true
  | .unloadBundle h model _ => headOk h && fits 16 model
  | .adapterLoad h r => headOk h && fits 16 r.slotBits && fits 64 r.addr && fits 64 r.bytes && fits 8 r.keyIndex && fits 16 r.model
  | .adapterImageAuthenticated _ ctx _ _ _ _ => ctxOk ctx
  | .adapterRelease h slotBits _ => headOk h && fits 16 slotBits
  | .releaseZeroingDone _ slot => decide (slot < 16384)
  | .trainOpen h _ => headOk h
  | .trainStep h _ => headOk h
  | .trainCheckpoint h _ => headOk h
  | .checkpointWriteDone _ ctx _ => ctxOk ctx
  | .trainClose h slotBits flags format _ => headOk h && fits 16 slotBits && fits 8 flags && fits 8 format
  | .attest h _ => headOk h
  | .attestReportSigned _ => true
  | .keyBegin h _ => headOk h
  | .keyFinish h _ _ => headOk h
  | .keyErase h keyIndex _ => headOk h && fits 8 keyIndex
  | .pendingKeyExpiry _ ctx keyIndex => ctxOk ctx && decide (keyIndex < 4)
  | .evqPoll _ c v => ctxOk c && v.all (fits 32)
  | .backlogTimeout _ c => ctxOk c
  | .evqRearmPoll _ c v => ctxOk c && v.all (fits 32)
  | .planFreeze _ f => decide (f.gearLimit.length = 4) && f.gearLimit.all (fits 3)
  | .stepBoundary _ e => decide (e.issueDelay ≤ 2000) && fits 7 e.causes
  | .idleBoundary _ => true
  | .refreshWatchdog _ chan _ => chanOk chan
  | .hubTtLoad src hub => sourceOk src && hubOk hub
  | .hubTtLoadDone _ hub => hubOk hub
  | .wingTtLoad src wing => sourceOk src && wingOk wing
  | .wingTtLoadDone _ wing => wingOk wing
  | .wingTtFlipReq src wing _ => sourceOk src && wingOk wing
  | .remapFlipReq src hub _ => sourceOk src && hubOk hub
  | .remapSlotWrite src hub bank slot value => sourceOk src && hubOk hub && decide (bank < 2) && decide (slot < 64) && fits 32 value
  | .vecCoefLoad src hub => sourceOk src && hubOk hub
  | .vecCoefLoadDone _ hub => hubOk hub
  | .vecCoefFlipReq src hub _ => sourceOk src && hubOk hub
  | .pannierCopyStart src => sourceOk src
  | .pannierCopyDone _ => true
  | .pannierFlipReq src _ => sourceOk src
  | .pannierEntryWrite src wing bank slot _ => sourceOk src && wingOk wing && decide (bank < 2) && decide (slot < 16384)
  | .registerWrite src tg width value => sourceOk src && targetOk tg && widthOk width && fits (8 * width) value
  | .fusedCommand _ q => hubOk q.hub && ctxOk q.ctx
  | .matrixStage _ hub phys _ => hubOk hub && physOk phys
  | .retentionRelease _ hub phys _ => hubOk hub && physOk phys
  | .rescueReplay _ hub phys _ _ => hubOk hub && physOk phys
  | .freewheelStage _ hub phys _ _ => hubOk hub && physOk phys
  | .map _ hub phys _ => hubOk hub && physOk phys
  | .gate _ hub phys _ => hubOk hub && physOk phys
  | .softmax _ hub phys _ => hubOk hub && physOk phys
  | .compress _ hub phys _ => hubOk hub && physOk phys
  | .expand _ hub phys _ => hubOk hub && physOk phys
  | .gather _ hub phys _ => hubOk hub && physOk phys
  | .scatter _ hub phys _ => hubOk hub && physOk phys
  | .sfuStage _ hub phys _ => hubOk hub && physOk phys
  | .add hub phys i => hubOk hub && physOk phys && vinstrOk i
  | .sub hub phys i => hubOk hub && physOk phys && vinstrOk i
  | .mul hub phys i => hubOk hub && physOk phys && vinstrOk i
  | .fma hub phys i => hubOk hub && physOk phys && vinstrOk i
  | .max hub phys i => hubOk hub && physOk phys && vinstrOk i
  | .min hub phys i => hubOk hub && physOk phys && vinstrOk i
  | .abs hub phys i => hubOk hub && physOk phys && vinstrOk i
  | .neg hub phys i => hubOk hub && physOk phys && vinstrOk i
  | .cmplt hub phys i => hubOk hub && physOk phys && vinstrOk i
  | .cmple hub phys i => hubOk hub && physOk phys && vinstrOk i
  | .cmpeq hub phys i => hubOk hub && physOk phys && vinstrOk i
  | .sel hub phys i => hubOk hub && physOk phys && vinstrOk i
  | .iadd hub phys i => hubOk hub && physOk phys && vinstrOk i
  | .and hub phys i => hubOk hub && physOk phys && vinstrOk i
  | .or hub phys i => hubOk hub && physOk phys && vinstrOk i
  | .xor hub phys i => hubOk hub && physOk phys && vinstrOk i
  | .shl hub phys i => hubOk hub && physOk phys && vinstrOk i
  | .shra hub phys i => hubOk hub && physOk phys && vinstrOk i
  | .cvti hub phys i => hubOk hub && physOk phys && vinstrOk i
  | .cvtf hub phys i => hubOk hub && physOk phys && vinstrOk i
  | .fn hub phys i => hubOk hub && physOk phys && vinstrOk i
  | .lut hub phys i => hubOk hub && physOk phys && vinstrOk i
  | .pwc hub phys i => hubOk hub && physOk phys && vinstrOk i
  | .red hub phys i => hubOk hub && physOk phys && vinstrOk i
  | .fnExp2 hub phys i => hubOk hub && physOk phys && vinstrOk i
  | .fnLog2 hub phys i => hubOk hub && physOk phys && vinstrOk i
  | .fnExp hub phys i => hubOk hub && physOk phys && vinstrOk i
  | .fnRecip hub phys i => hubOk hub && physOk phys && vinstrOk i
  | .fnRsqrt hub phys i => hubOk hub && physOk phys && vinstrOk i
  | .fnSigmoid hub phys i => hubOk hub && physOk phys && vinstrOk i
  | .fnTanh hub phys i => hubOk hub && physOk phys && vinstrOk i
  | .fnSilu hub phys i => hubOk hub && physOk phys && vinstrOk i
  | .fnGelu hub phys i => hubOk hub && physOk phys && vinstrOk i
  | .fnSoftplus hub phys i => hubOk hub && physOk phys && vinstrOk i
  | .reduceSum _ hub phys _ => hubOk hub && physOk phys
  | .reduceSumsq _ hub phys _ => hubOk hub && physOk phys
  | .reduceMax _ hub phys _ => hubOk hub && physOk phys
  | .reduceMin _ hub phys _ => hubOk hub && physOk phys
  | .argmax _ hub phys _ => hubOk hub && physOk phys
  | .smstat _ hub phys _ => hubOk hub && physOk phys
  | .topk _ hub phys _ => hubOk hub && physOk phys
  | .route _ hub phys _ => hubOk hub && physOk phys
  | .hist _ hub phys _ => hubOk hub && physOk phys
  | .merge _ hub phys _ => hubOk hub && physOk phys
  | .sumqPop src hub => sourceOk src && hubOk hub
  | .scalarCsrWrite hub n value => hubOk hub && decide (n < 32) && fits 32 value
  | .pageRead _ hub phys _ => hubOk hub && physOk phys
  | .pageWrite _ hub phys _ => hubOk hub && physOk phys
  | .adapterRead _ hub phys _ => hubOk hub && physOk phys
  | .copy _ hub phys _ _ => hubOk hub && physOk phys
  | .redAdd _ hub phys _ _ => hubOk hub && physOk phys
  | .fill _ hub phys _ => hubOk hub && physOk phys
  | .pantryAmo hub _ _ _ _ => hubOk hub
  | .pantryLr hub _ _ => hubOk hub
  | .pantrySc hub _ _ _ => hubOk hub
  | .memGrant src hub _ _ phys owner _ => sourceOk src && hubOk hub && physOk phys && fits 7 owner
  | .matInjectArm src hub slot _ _ => sourceOk src && hubOk hub && fits 7 slot
  | .hangTimeout _ hub phys _ => hubOk hub && physOk phys
  | .trailDumpDone _ scope => decide (scope < 161)
  | .fieldTest _ hub phys _ _ _ _ => hubOk hub && physOk phys
  | .sweepRotation _ hub => hubOk hub
  | .heartbeatSample _ hub _ => hubOk hub
  | .shadowHeartbeatSample _ _ => true
  | .cellarWrite _ => true
  | .coalesceWindowEnd _ _ _ => true
  | .platformEventMessage _ _ => true
  | .pldmEventRetry _ _ => true
  | .markSuspect src hub slot => sourceOk src && hubOk hub && physOk slot
  | .markRetired src hub slot => sourceOk src && hubOk hub && physOk slot
  | .setSkip src hub slot value => sourceOk src && hubOk hub && physOk slot && fits 2 value
  | .readmit src hub slot => sourceOk src && hubOk hub && physOk slot
  | .clearLastEvent src hub slot => sourceOk src && hubOk hub && physOk slot
  | .setHubNormal src hub => sourceOk src && hubOk hub
  | .hbmBurstRetry _ _ _ _ => true
  | .hbmStoredError _ _ _ => true
  | .weightRebuildDone _ _ _ => true
  | .refetchDone _ _ _ _ => true
  | .degradedDrainDone _ chan => chanOk chan
  | .degradedTimeout _ chan => chanOk chan
  | .patrolScrub _ chan => chanOk chan
  | .stackFailure _ stack _ => stackOk stack
  | .regionClearDone _ region => regionOk region
  | .hbmRepairGo src chan => sourceOk src && chanOk chan
  | .hbmRepairDone _ chan _ _ _ => chanOk chan
  | .parkImageComplete _ session => sessionOk session
  | .unparkDue _ session => sessionOk session
  | .unparkComplete _ session _ => sessionOk session
  | .pwrAlertAssert _ rail _ _ => railOk rail
  | .stormExpiry _ wing => wingOk wing
  | .pwrAlertDeassert _ rail => railOk rail
  | .alertHoldExpiry _ wing _ => wingOk wing
  | .alertLongHold _ rail => railOk rail
  | .throttleAssert _ => true
  | .throttleDeassert _ => true
  | .derailleurWindow _ wing _ _ _ _ => wingOk wing
  | .limiterSample _ wing _ _ _ _ => wingOk wing
  | .drlEstClear src _ wing => sourceOk src && wingOk wing
  | .pwrCapWrite src _ _ => sourceOk src
  | .pwrMeterWrite src _ m value => sourceOk src && decide (m < 8) && fits 16 value
  | .thermalLevel _ _ _ => true
  | .railFault _ rail _ _ => railOk rail
  | .inputVoltageBand _ _ _ => true
  | .powerFail _ _ _ => true
  | .hotswapLimitTimeout _ => true
  | .hotswapRestart _ _ _ _ _ => true
  | .linkSignalDetect _ l => linkOk l
  | .linkTrainingDone _ l mask _ => linkOk l && fits 8 mask
  | .linkTrainingTimeout _ l => linkOk l
  | .linkErrorThreshold _ l _ _ => linkOk l
  | .linkRetrainDone _ l mask => linkOk l && fits 8 mask
  | .linkRetrainTimeout _ l _ => linkOk l
  | .linkLost _ l => linkOk l
  | .spokeData _ l p _ _ _ => linkOk l && packetOk p
  | .spokeRed _ l p _ _ _ _ _ => linkOk l && packetOk p
  | .spokeAck _ l p => linkOk l && packetOk p
  | .spokeNak _ l p _ => linkOk l && packetOk p
  | .spokeSync _ l p => linkOk l && packetOk p
  | .syncSend _ => true
  | .upstreamTimeout _ => true
  | .holdoverTimeout _ => true
  | .hello _ l _ => linkOk l
  | .join _ l _ => linkOk l
  | .joinRetry _ => true
  | .settledTimer _ => true
  | .epoch _ l _ => linkOk l
  | .selfDeadTimeout _ => true
  | .credit _ l p => linkOk l && packetOk p
  | .linklost _ l _ _ _ => linkOk l
  | .declareTimeout _ l _ => linkOk l
  | .barrier _ l p _ => linkOk l && packetOk p
  | .spokeTableFlip _ => true
  | .spokeTtLoad src => sourceOk src
  | .spokeTtFlipReq src _ => sourceOk src
  | .spokeFabAddrWrite src _ addr => sourceOk src && fits 32 addr
  | .fabDrain src _ successor => sourceOk src && fits 12 successor
  | .drainComplete _ _ => true
  | .fabCancelDrain src _ => sourceOk src
  | .fabLeave src _ => sourceOk src
  | .linkRetire src _ l _ => sourceOk src && linkOk l
  | .linkRestore src _ l => sourceOk src && linkOk l
  | .ctxGrant src _ c _ => sourceOk src && ctxOk c
  | .ctxSuspend src _ c => sourceOk src && ctxOk c
  | .suspendDone _ c => ctxOk c
  | .ctxResume src _ c => sourceOk src && ctxOk c
  | .ctxTeardown src _ c => sourceOk src && ctxOk c
  | .teardownItemsEnded _ c => ctxOk c
  | .teardownGranulesFreed _ c => ctxOk c
  | .serveEnableWrite src _ c _ => sourceOk src && ctxOk c
  | .ideFailure _ c _ => ctxOk c
  | .nonIdeRequest _ c => ctxOk c
  | .pcieLinkDown _ => true
  | .pcieLinkUp _ width _ _ => decide (width ∈ [1, 2, 4, 8, 16])
  | .hostReadFailure _ _ _ => true
  | .vfFlr _ n => decide (1 ≤ n) && ctxOk n
  | .pfFlr _ => true
  | .vfEnableCleared _ => true
  | .busMasterDisable _ f _ => ctxOk f
  | .memorySpaceDisable _ f _ => ctxOk f
  | .perstAssert _ => true
  | .perstDeassert _ => true
  | .ctxwinCadenceRead _ c width _ => ctxOk c && widthOk width
  | .mbxSend src c _ => sourceOk src && ctxOk c
  | .mbxAck src c _ => sourceOk src && ctxOk c
  | .moderationExpiry _ _ => true
  | .msixMask f _ => ctxOk f
  | .msixUnmask f _ => ctxOk f
  | .slotIdSample _ v => fits 8 v
  | .coldStart _ _ _ _ => true
  | .bootReady _ => true
  | .bootWatchdog _ _ => true
  | .aliasCertSigned _ => true
  | .hubReset src _ hub => sourceOk src && hubOk hub
  | .hubResetComplete _ hub _ => hubOk hub
  | .warmReset src _ => sourceOk src
  | .warmResetComplete _ _ => true
  | .lpIdleSelect _ _ => true
  | .lpEntryComplete _ => true
  | .kickstandEntry _ _ => true
  | .lpWakeTimer _ => true
  | .lpWake src _ => sourceOk src
  | .lpExitComplete _ => true
  | .dbgFreeze src _ => sourceOk src
  | .dbgUnfreeze src _ => sourceOk src
  | .dbgSnap src _ => sourceOk src
  | .counterContribution _ _ => true
  | .dbgHaltReq src _ hub => sourceOk src && hubOk hub
  | .breakpointTrigger _ hub => hubOk hub
  | .haltDrained _ hub => hubOk hub
  | .dbgResume src _ hub => sourceOk src && hubOk hub
  | .dmiRead src hub addr => sourceOk src && hubOk hub && fits 7 addr
  | .dmiWrite src hub addr => sourceOk src && hubOk hub && fits 7 addr
  | .hubWithdraw src _ hub => sourceOk src && hubOk hub
  | .hubReturn src _ hub => sourceOk src && hubOk hub
  | .lbist src _ hub patterns => sourceOk src && hubOk hub && fits 7 patterns
  | .mbist src _ hub => sourceOk src && hubOk hub
  | .mbistRet src _ hub => sourceOk src && hubOk hub
  | .hubSweep src _ hub phys => sourceOk src && hubOk hub && physOk phys
  | .bistComplete _ hub _ _ _ _ _ => hubOk hub
  | .entdaa addr => fits 7 addr
  | .setEndpointId eid => fits 8 eid
  | .getEndpointId => true
  | .getEndpointUuid => true
  | .getMctpVersionSupport _ => true
  | .getMessageTypeSupport => true
  | .getTid => true
  | .setTid tid => fits 8 tid
  | .getPldmVersion _ => true
  | .getPldmTypes => true
  | .getPldmCommands _ => true
  | .getPdr _ => true
  | .getPdrRepositoryInfo => true
  | .getSensorReading _ => true
  | .getStateSensorReadings _ => true
  | .moduleCapEffecter _ _ => true
  | .wakeEffecter _ => true
  | .resetEffecter _ => true
  | .setEventReceiver _ _ => true
  | .pollForPlatformEventMessage => true
  | .queryDeviceIdentifiers => true
  | .getFirmwareParameters => true
  | .requestUpdate => true
  | .passComponentTable => true
  | .updateComponent => true
  | .fwTransferComplete _ => true
  | .activateFirmware _ => true
  | .getStatus => true
  | .cancelUpdateComponent => true
  | .cancelUpdate => true
  | .getVersion => true
  | .getCapabilities => true
  | .negotiateAlgorithms _ => true
  | .pskExchange _ => true
  | .pskFinish _ => true
  | .endSession => true
  | .keyProg _ _ _ _ => true
  | .kSetGo _ _ => true
  | .kSetStop _ _ => true
  | .ftStarved _ hub => hubOk hub
  | .machineCheck _ => true
  | .phyRetrainingFail _ chan => chanOk chan
  | .alertOngoing _ rail => railOk rail
  | .slotIdChange _ v => fits 8 v
  | .inputGlitch _ => true
  | .pcieLinkRetrain _ width _ => decide (width ∈ [1, 2, 4, 8, 16])
  | .doeDiscovery _ => true
  | .idcode => true
  | .bypass n value => fits n value
  | .shortCircuit _ => true

end Sys2Proof
end

