-- ==== Sys2Proof/Decode.lean ====
section
/-! DEFINITION. The block has no instruction words: the command table gives no row any bits, so no word spells a command.
Commands come as events with their operands. -/

namespace Sys2Proof

/-- The command that a word spells: none, since the table gives no row any bits. -/
def decodeTableWord (_nbits _w : Nat) : Option Instr := none

end Sys2Proof
end

