-- ==== Sys2Proof/Machine/Sha256.lean ====
section
/-! DEFINITION. SHA-256, which the spec names for the digests of cards, sections, images and plans (R33, R221, R303, R477, R478)
and does not define: PRESUMED (log 74), the function of FIPS 180-4. -/

namespace Sys2Proof.Machine

/-- The constants of the rounds, one number of 32 bits after another. -/
def shaK : List Nat :=
  [0x428a2f98, 0x71374491, 0xb5c0fbcf, 0xe9b5dba5, 0x3956c25b, 0x59f111f1, 0x923f82a4, 0xab1c5ed5,
   0xd807aa98, 0x12835b01, 0x243185be, 0x550c7dc3, 0x72be5d74, 0x80deb1fe, 0x9bdc06a7, 0xc19bf174] ++
  [0xe49b69c1, 0xefbe4786, 0x0fc19dc6, 0x240ca1cc, 0x2de92c6f, 0x4a7484aa, 0x5cb0a9dc, 0x76f988da,
   0x983e5152, 0xa831c66d, 0xb00327c8, 0xbf597fc7, 0xc6e00bf3, 0xd5a79147, 0x06ca6351, 0x14292967] ++
  [0x27b70a85, 0x2e1b2138, 0x4d2c6dfc, 0x53380d13, 0x650a7354, 0x766a0abb, 0x81c2c92e, 0x92722c85,
   0xa2bfe8a1, 0xa81a664b, 0xc24b8b70, 0xc76c51a3, 0xd192e819, 0xd6990624, 0xf40e3585, 0x106aa070] ++
  [0x19a4c116, 0x1e376c08, 0x2748774c, 0x34b0bcb5, 0x391c0cb3, 0x4ed8aa4a, 0x5b9cca4f, 0x682e6ff3,
   0x748f82ee, 0x78a5636f, 0x84c87814, 0x8cc70208, 0x90befffa, 0xa4506ceb, 0xbef9a3f7, 0xc67178f2]

/-- The eight words of the state before the first block. -/
def shaInit : List Nat :=
  [0x6a09e667, 0xbb67ae85, 0x3c6ef372, 0xa54ff53a, 0x510e527f, 0x9b05688c, 0x1f83d9ab, 0x5be0cd19]

/-- Rotate a word of 32 bits right. -/
def rotr (n x : Nat) : Nat := x / 2 ^ n + x % 2 ^ n * 2 ^ (32 - n)

/-- The next word of the schedule, from the words so far, newest first. -/
def shaNext (w : List Nat) : Nat :=
  let a := w.getD 14 0
  let b := w.getD 1 0
  let s0 := rotr 7 a ^^^ rotr 18 a ^^^ a / 2 ^ 3
  let s1 := rotr 17 b ^^^ rotr 19 b ^^^ b / 2 ^ 10
  (w.getD 15 0 + s0 + w.getD 6 0 + s1) % 2 ^ 32

/-- The schedule of a block of 16 words, oldest first. -/
def shaSchedule (m : List Nat) : List Nat := ((List.range 48).foldl (fun w _ => shaNext w :: w) m.reverse).reverse

/-- One round over the eight working words. -/
def shaRound (v : List Nat) (kw : Nat × Nat) : List Nat :=
  let g := fun (i : Nat) => v.getD i 0
  let s1 := rotr 6 (g 4) ^^^ rotr 11 (g 4) ^^^ rotr 25 (g 4)
  let ch := (g 4 &&& g 5) ^^^ ((0xFFFFFFFF - g 4) &&& g 6)
  let t1 := g 7 + s1 + ch + kw.1 + kw.2
  let s0 := rotr 2 (g 0) ^^^ rotr 13 (g 0) ^^^ rotr 22 (g 0)
  let maj := (g 0 &&& g 1) ^^^ (g 0 &&& g 2) ^^^ (g 1 &&& g 2)
  [(t1 + s0 + maj) % 2 ^ 32, g 0, g 1, g 2, (g 3 + t1) % 2 ^ 32, g 4, g 5, g 6]

/-- A block into the state. -/
def shaBlock (h m : List Nat) : List Nat :=
  (h.zip ((shaK.zip (shaSchedule m)).foldl shaRound h)).map (fun x => (x.1 + x.2) % 2 ^ 32)

/-- Bytes as words of 32 bits, the first byte highest; `fuel` bounds the number of words. -/
def shaWords : Nat → List Nat → List Nat
  | 0, _ => []
  | n + 1, b => if b.isEmpty then [] else (b.take 4).foldl (fun x y => x * 256 + y % 256) 0 :: shaWords n (b.drop 4)

/-- Words as blocks of 16. -/
def shaBlocks : Nat → List Nat → List (List Nat)
  | 0, _ => []
  | n + 1, w => if w.isEmpty then [] else w.take 16 :: shaBlocks n (w.drop 16)

/-- A message with its padding: a bit 1, zeros, and its length in bits as 8 bytes, the highest first. -/
def shaPad (b : List Nat) : List Nat :=
  b ++ 0x80 :: List.replicate ((119 - b.length % 64) % 64) 0 ++ (List.range 8).map (fun i => 8 * b.length / 256 ^ (7 - i) % 256)

/-- SHA-256 of some bytes, as its 32 bytes. -/
def sha256 (b : List Nat) : List Nat :=
  let w := shaWords (b.length + 72) (shaPad b)
  (((shaBlocks w.length w).foldl shaBlock shaInit).map (fun x => (List.range 4).map (fun i => x / 256 ^ (3 - i) % 256))).flatten

/-- HMAC-SHA-256. PRESUMED (log 74): as RFC 2104 gives it. -/
def hmac (key msg : List Nat) : List Nat :=
  let k := if 64 < key.length then sha256 key else key
  let k := k ++ List.replicate (64 - k.length) 0
  sha256 (k.map (· ^^^ 0x5C) ++ sha256 (k.map (· ^^^ 0x36) ++ msg))

/-- Blocks of HKDF's expansion from one to the last, after the block before. -/
def hkdfBlocks (prk info : List Nat) : Nat → Nat → List Nat → List Nat
  | 0, _, _ => []
  | n + 1, i, prev => let b := hmac prk (prev ++ info ++ [i]); b ++ hkdfBlocks prk info n (i + 1) b

/-- The first n bytes of HKDF-SHA-256; no salt is 32 zero bytes. PRESUMED (log 74): as RFC 5869 gives it. -/
def hkdf (salt ikm info : List Nat) (n : Nat) : List Nat :=
  let prk := hmac (if salt.isEmpty then List.replicate 32 0 else salt) ikm
  (hkdfBlocks prk info ((n + 31) / 32) 1 []).take n

/-! CRC-64/XZ -/

def crcBit (c : Nat) : Nat := if c % 2 = 1 then (c / 2) ^^^ 0xC96C5795D7870F42 else c / 2
def crcByte (c b : Nat) : Nat := (List.range 8).foldl (fun x _ => crcBit x) (c ^^^ (b % 256))

/-- CRC-64/XZ: the ECMA-182 polynomial, reflected, all ones before and after. -/
def crc64 (l : List Nat) : Nat := l.foldl crcByte (maxOf 64) ^^^ maxOf 64

/-! CRC-32C -/

def crc32Bit (c : Nat) : Nat := if c % 2 = 1 then (c / 2) ^^^ 0x82F63B78 else c / 2
def crc32Byte (c b : Nat) : Nat := (List.range 8).foldl (fun x _ => crc32Bit x) (c ^^^ (b % 256))

/-- CRC-32C: the Castagnoli polynomial, reflected, all ones before and after. PRESUMED (log 74): as RFC 3720 gives it. -/
def crc32c (l : List Nat) : Nat := l.foldl crc32Byte (maxOf 32) ^^^ maxOf 32

end Sys2Proof.Machine
end

