-- ==== Sys2Proof/Config.lean ====
section
/-! DEFINITION. What the spec leaves open: values without a body, so that nothing can be proved about
which value they are. -/

namespace Sys2Proof

/-- The n-th free value. -/
opaque Config.freeValue : Nat → Nat

/-- How many bits the high part (0) and the low part (1) of EXP's x × log2 e hold beyond 24 significant bits and
beyond 2^−34: R137 does not state their widths. -/
opaque Config.expWidths : Nat → Nat

/-- The order and fusing of the vector operations of TANH, GELU and SOFTPLUS (codes of Table 5-8), which that table
does not state. -/
opaque Config.fnForm : Nat → Nat

/-- BETA^t in FP64 (R243): the spec does not state how the power is formed. -/
opaque Config.betaPow : Nat → Nat → Nat

/-- A value that the security core derives or signs: a label, its inputs. -/
opaque Config.secure : Nat → List Nat → Nat

end Sys2Proof
end

