-- ==== Sys2Proof/Machine/Numbers.lean ====
section
/-! DEFINITION. Number formats and exact arithmetic: the element formats of R64 to R67, the scales of
R70 and R73 to R76, the column accumulator of R77 and R78, the split of R81, the drain of R84 to R87
and the checksum tolerance of R88. Every value is exact until the one rounding a rule names. -/

namespace Sys2Proof.Machine

/-- A value read from an element: a NaN, an infinity, or (−1)^neg × m × 2^e. -/
inductive Num where
  | nan
  | inf (neg : Bool)
  | fin (neg : Bool) (m : Nat) (e : Int)
  deriving DecidableEq, Repr

/-- An exact number v × 2^e. -/
structure Dyad where
  v : Int
  e : Int
  deriving DecidableEq, Repr

/-- A floating format of Table 3-1: exponent bits, mantissa bits, bias, the largest finite pattern of
Table 3-2 without its sign, the pattern of infinity where there is one, and the canonical NaN of R87
where there is one. -/
structure FFmt where
  eb : Nat
  mb : Nat
  bias : Int
  maxPat : Nat
  infPat : Option Nat
  nanPat : Option Nat
  deriving DecidableEq, Repr

def fE4M3 : FFmt := ⟨4, 3, 7, 0x7E, none, some 0x7F⟩
def fE5M2 : FFmt := ⟨5, 2, 15, 0x7B, some 0x7C, some 0x7E⟩
def fE3M2 : FFmt := ⟨3, 2, 3, 0x1F, none, none⟩
def fE2M3 : FFmt := ⟨2, 3, 1, 0x1F, none, none⟩
def fE2M1 : FFmt := ⟨2, 1, 1, 0x7, none, none⟩
def fBF16 : FFmt := ⟨8, 7, 127, 0x7F7F, some 0x7F80, some 0x7FC0⟩
def fFP16 : FFmt := ⟨5, 10, 15, 0x7BFF, some 0x7C00, some 0x7E00⟩
def fFP32 : FFmt := ⟨8, 23, 127, 0x7F7FFFFF, some 0x7F800000, some 0x7FC00000⟩

/-- The format of a code of Table 3-1, for the floating codes. -/
def ffmtOf : Nat → Option FFmt
  | 0x1 => some fE4M3 | 0x2 => some fE5M2 | 0x3 => some fE3M2 | 0x4 => some fE2M3
  | 0x5 => some fE2M1 | 0x8 => some fBF16 | 0x9 => some fFP16 | 0xA => some fFP32
  | _ => none

/-- Bits of an element, Table 3-1 (0: a reserved code). -/
def elemBits : Nat → Nat
  | 0x1 => 8 | 0x2 => 8 | 0x3 => 6 | 0x4 => 6 | 0x5 => 4 | 0x6 => 8 | 0x7 => 4 | 0x8 => 16
  | 0x9 => 16 | 0xA => 32 | 0xB => 32 | _ => 0

/-- A two's-complement number of w bits. -/
def signedOf (w v : Nat) : Int := if v % 2 ^ w < 2 ^ (w - 1) then (v % 2 ^ w : Nat) else (v % 2 ^ w : Nat) - (2 ^ w : Nat)

/-- The two's-complement bits of an integer, wrapped to w bits. -/
def wrapTo (w : Nat) (v : Int) : Nat := (v % (2 ^ w : Nat)).toNat

/-- An integer saturated to w bits of two's complement, as bits. -/
def satTo (w : Nat) (v : Int) : Nat :=
  wrapTo w (max (-(2 ^ (w - 1) : Nat)) (min ((2 ^ (w - 1) : Nat) - 1) v))

/-- 2^i for a natural i, as an integer. -/
def ipow2 (i : Nat) : Int := ((2 ^ i : Nat) : Int)

/-- Whether a pattern without its sign is a NaN of the format (Table 3-2, IEEE 754). -/
def isNanPat (f : FFmt) (u : Nat) : Bool :=
  match f.infPat, f.nanPat with
  | some i, _ => decide (i < u)
  | none, some n => u == n
  | none, none => false

/-- R65: the value of a floating element. -/
def decodeF (f : FFmt) (bits : Nat) : Num :=
  let u := bits % 2 ^ (f.eb + f.mb)
  let neg := bitAt bits (f.eb + f.mb)
  if isNanPat f u then .nan
  else if f.infPat = some u then .inf neg
  else
    let ex := u / 2 ^ f.mb
    let m := u % 2 ^ f.mb
    if ex = 0 then .fin neg m (1 - f.bias - f.mb)
    else .fin neg (m + 2 ^ f.mb) (ex - f.bias - f.mb)

/-- The integer nearest to n ÷ d, ties to even. -/
def rneDiv (n d : Nat) : Nat :=
  let q := n / d
  let r := n % d
  if 2 * r > d ∨ (2 * r = d ∧ q % 2 = 1) then q + 1 else q

/-- floor(log2(n ÷ d)) for positive n and d. -/
def log2Quot (n d : Nat) : Int :=
  let k : Int := (Nat.log2 n : Int) - (Nat.log2 d : Int)
  let ge : Bool := if 0 ≤ k then decide (d * 2 ^ k.toNat ≤ n) else decide (d ≤ n * 2 ^ (-k).toNat)
  if ge then k else k - 1

/-- The pattern, without a sign, of (n ÷ d) × 2^e rounded once to nearest even at the format's
precision, the exponent range taken as unbounded above (R86). -/
def roundPat (f : FFmt) (n d : Nat) (e : Int) : Nat :=
  if n = 0 then 0
  else
    let emin : Int := 1 - f.bias
    let ex := log2Quot n d + e
    let l := max ex emin - f.mb
    let s := e - l
    let q := if 0 ≤ s then rneDiv (n * 2 ^ s.toNat) d else rneDiv n (d * 2 ^ (-s).toNat)
    if q < 2 ^ f.mb then q else ((l + f.mb + f.bias).toNat) * 2 ^ f.mb + (q - 2 ^ f.mb)

/-- The canonical NaN of the format; +0 where it has none (R76). -/
def nanOf (f : FFmt) : Nat := f.nanPat.getD 0

/-- An infinity converted into the format: itself, or saturated, or NaN (R76, R86). -/
def infOf (f : FFmt) (toInf : Bool) (neg : Bool) : Nat :=
  let sgn := b2n neg * 2 ^ (f.eb + f.mb)
  if toInf then
    match f.infPat, f.nanPat with
    | some i, _ => sgn + i
    | none, some n => n
    | none, none => sgn + f.maxPat
  else sgn + f.maxPat

/-- Round a signed quotient into the format. `toInf` false saturates, true overflows to infinity. A
non-zero value that rounds to zero keeps its sign. -/
def roundF (f : FFmt) (toInf neg : Bool) (n d : Nat) (e : Int) : Nat :=
  let p := roundPat f n d e
  if p > f.maxPat then infOf f toInf neg else b2n neg * 2 ^ (f.eb + f.mb) + p

/-- Round an exact number into the format; exact zero gives +0 (R86). -/
def roundDyad (f : FFmt) (toInf : Bool) (x : Dyad) : Nat :=
  roundF f toInf (decide (x.v < 0)) x.v.natAbs 1 x.e

/-- The value of a number that is finite. -/
def numDyad : Num → Dyad
  | .fin neg m e => ⟨if neg then -(m : Int) else m, e⟩
  | _ => ⟨0, 0⟩

def dyadMul (x y : Dyad) : Dyad := ⟨x.v * y.v, x.e + y.e⟩

def dyadAdd (x y : Dyad) : Dyad :=
  let l := min x.e y.e
  ⟨x.v * ipow2 (x.e - l).toNat + y.v * ipow2 (y.e - l).toNat, l⟩

def dyadNeg (x : Dyad) : Dyad := ⟨-x.v, x.e⟩

/-- Exact comparison of two exact numbers. -/
def dyadLt (x y : Dyad) : Bool := decide ((dyadAdd x (dyadNeg y)).v < 0)

/-- Exact comparison of two numbers with infinities; false when either is a NaN. -/
def numLt : Num → Num → Bool
  | .nan, _ => false
  | _, .nan => false
  | .inf true, .inf true => false
  | .inf true, _ => true
  | _, .inf true => false
  | .inf false, _ => false
  | _, .inf false => true
  | x, y => dyadLt (numDyad x) (numDyad y)

/-- Exact equality of value (−0 = +0); false when either is a NaN. -/
def numEq : Num → Num → Bool
  | .nan, _ => false
  | _, .nan => false
  | x, y => !numLt x y && !numLt y x

def numNeg : Num → Bool
  | .nan => false
  | .inf n => n
  | .fin n _ _ => n

def numIsZero : Num → Bool
  | .fin _ 0 _ => true
  | _ => false

/-- IEEE 754 addition in a format, one rounding to nearest even. A zero sum of unlike signs is +0. -/
def addF (f : FFmt) (a b : Nat) : Nat :=
  match decodeF f a, decodeF f b with
  | .nan, _ => nanOf f
  | _, .nan => nanOf f
  | .inf p, .inf q => if p = q then infOf f true p else nanOf f
  | .inf p, _ => infOf f true p
  | _, .inf q => infOf f true q
  | .fin p m e, .fin q n g =>
    let s := dyadAdd (numDyad (.fin p m e)) (numDyad (.fin q n g))
    if s.v = 0 then (if p && q then 2 ^ (f.eb + f.mb) else 0) else roundDyad f true s

/-- IEEE 754 multiplication in a format, one rounding to nearest even. -/
def mulF (f : FFmt) (a b : Nat) : Nat :=
  match decodeF f a, decodeF f b with
  | .nan, _ => nanOf f
  | _, .nan => nanOf f
  | .inf p, y => if numIsZero y then nanOf f else infOf f true (p != numNeg y)
  | x, .inf q => if numIsZero x then nanOf f else infOf f true (numNeg x != q)
  | .fin p m e, .fin q n g => roundF f true (p != q) (m * n) 1 (e + g)

/-- a × b + c with a single rounding. -/
def fmaF (f : FFmt) (a b c : Nat) : Nat :=
  match decodeF f a, decodeF f b, decodeF f c with
  | .nan, _, _ => nanOf f
  | _, .nan, _ => nanOf f
  | .inf p, y, z =>
    if numIsZero y then nanOf f else
      match z with
      | .nan => nanOf f
      | .inf r => if r = (p != numNeg y) then infOf f true r else nanOf f
      | .fin .. => infOf f true (p != numNeg y)
  | x, .inf q, z =>
    if numIsZero x then nanOf f else
      match z with
      | .nan => nanOf f
      | .inf r => if r = (numNeg x != q) then infOf f true r else nanOf f
      | .fin .. => infOf f true (numNeg x != q)
  | .fin .., .fin .., .nan => nanOf f
  | .fin .., .fin .., .inf r => infOf f true r
  | .fin p m e, .fin q n g, .fin r k h =>
    let pr := dyadMul (numDyad (.fin p m e)) (numDyad (.fin q n g))
    let s := dyadAdd pr (numDyad (.fin r k h))
    if s.v = 0 then
      (if pr.v = 0 ∧ k = 0 then (if (p != q) && r then 2 ^ (f.eb + f.mb) else 0) else 0)
    else roundDyad f true s

/-- Negate a pattern of the format. -/
def negF (f : FFmt) (a : Nat) : Nat :=
  if bitAt a (f.eb + f.mb) then a - 2 ^ (f.eb + f.mb) else a + 2 ^ (f.eb + f.mb)

def f32Add := addF fFP32
def f32Mul := mulF fFP32
def f32Fma := fmaF fFP32

/-- FP32 quotient of two finite positive patterns, rounded once (R202, R76). -/
def f32Div (a b : Nat) : Nat :=
  match decodeF fFP32 a, decodeF fFP32 b with
  | .fin p m e, .fin q n g => if n = 0 then nanOf fFP32 else roundF fFP32 true (p != q) m n (e - g)
  | .nan, _ => nanOf fFP32
  | _, .nan => nanOf fFP32
  | .inf p, .fin q _ _ => infOf fFP32 true (p != q)
  | .inf _, .inf _ => nanOf fFP32
  | .fin p _ _, .inf q => b2n (p != q) * 2 ^ 31

/-- Exact comparison a < b of FP32 patterns. -/
def f32Lt (a b : Nat) : Bool := numLt (decodeF fFP32 a) (decodeF fFP32 b)

/-- Exact comparison a ≤ b of FP32 patterns. -/
def f32Le (a b : Nat) : Bool :=
  numLt (decodeF fFP32 a) (decodeF fFP32 b) || numEq (decodeF fFP32 a) (decodeF fFP32 b)

/-- R66: the value of an element under a scale kind. -/
def elemNum (fmt kind bits : Nat) : Num :=
  if fmt = 0x6 then
    let n := signedOf 8 bits
    .fin (decide (n < 0)) n.natAbs (if kind = 1 then -6 else 0)
  else if fmt = 0x7 then
    let n := signedOf 4 bits
    .fin (decide (n < 0)) n.natAbs 0
  else
    match ffmtOf fmt with
    | some f => decodeF f bits
    | none => .fin false 0 0

/-- R70: the value of a scale byte; none for a NaN scale. -/
def scaleDyad (kind v : Nat) : Option Dyad :=
  if kind = 1 then (if v = 0xFF then none else some ⟨1, (v : Int) - 127⟩)
  else if kind = 2 then
    match decodeF fE4M3 (v % 128) with
    | .fin _ m e => some ⟨m, e⟩
    | _ => none
  else some ⟨1, 0⟩

/-- Block size of a BLOCK code 1 to 6 (R71). -/
def blockSize (code : Nat) : Nat := 2 ^ (code + 2)

/-- R73: the local-store offset of the scale byte that covers element (r, k). -/
def scaleAddr (dir block off stride r k : Nat) : Nat :=
  match dir with
  | 0 => off + r * stride + k / blockSize block
  | 1 => off + r / blockSize block * stride + k
  | 2 => off + r / 16 * stride + k / 16
  | _ => off + r / 32 * stride + k / 32

/-- e_max of R76 for an E8M0 scale. The rule gives none for FP32 and INT32: 0 there is the model's own
(assumption 73). -/
def eMaxOf : Nat → Int
  | 0x1 => 8 | 0x2 => 15 | 0x3 => 4 | 0x4 => 2 | 0x5 => 2 | 0x6 => 0 | 0x7 => 2 | _ => 0

/-- Largest finite magnitude of a narrow format as an exact number (Table 3-2). The table gives none
for INT32: 0 there is the model's own (assumption 73). -/
def maxDyad (fmt : Nat) : Dyad :=
  if fmt = 0x6 then ⟨127, 0⟩
  else if fmt = 0x7 then ⟨7, 0⟩
  else match ffmtOf fmt with
    | some f => numDyad (decodeF f f.maxPat)
    | none => ⟨0, 0⟩

/-- The larger in magnitude of two numbers that are not NaN. -/
def magMax (x y : Num) : Num :=
  let ab : Num → Num := fun z => match z with
    | .fin _ m e => .fin false m e
    | .inf _ => .inf false
    | .nan => .fin false 0 0
  if numLt (ab x) (ab y) then ab y else ab x

/-- amax of R76. -/
def blockAmax (xs : List Num) : Num := xs.foldl magMax (.fin false 0 0)

/-- R76: the scale byte the quantiser chooses for a block. -/
def quantScale (fmt kind : Nat) (xs : List Num) : Nat :=
  match blockAmax xs with
  | .inf _ => if kind = 1 then 254 else 0x7E
  | .nan => 0
  | .fin _ m e =>
    if m = 0 then 0
    else if kind = 1 then
      (max 0 (min 254 ((Nat.log2 m : Int) + e - eMaxOf fmt + 127))).toNat
    else
      let mx := maxDyad fmt
      max 1 (min 0x7E (roundPat fE4M3 m mx.v.natAbs (e - mx.e)))

/-- R76: one element divided by its scale, rounded to nearest even and saturated. -/
def quantElem (fmt kind scale : Nat) (x : Num) : Nat :=
  let sc := (scaleDyad kind scale).getD ⟨1, 0⟩
  if fmt = 0x6 ∨ fmt = 0x7 then
    let w := elemBits fmt
    let lim := maxOf (w - 1)
    match x with
    | .nan => 0
    | .inf neg => wrapTo w (if neg then -(lim : Int) else lim)
    | .fin neg m e =>
      if sc.v = 0 then 0
      else
        let e' := e - sc.e + (if fmt = 0x6 ∧ kind = 1 then 6 else 0)
        let q := if 0 ≤ e' then rneDiv (m * 2 ^ e'.toNat) sc.v.natAbs
                 else rneDiv m (sc.v.natAbs * 2 ^ (-e').toNat)
        let q := min q lim
        wrapTo w (if neg then -(q : Int) else q)
  else
    match ffmtOf fmt with
    | none => 0
    | some f =>
      match x with
      | .nan => nanOf f
      | .inf neg => infOf f false neg
      | .fin neg m e => if sc.v = 0 then 0 else roundF f false neg m sc.v.natAbs (e - sc.e)

/-- The column accumulator of R77: A and E_run (none before the first non-zero product). -/
structure Acc where
  a : Int
  run : Option Int
  deriving DecidableEq, Repr

def accZero : Acc := ⟨0, none⟩

/-- Divide by 2^d: floor in TRUNC mode, nearest even in REF mode. -/
def shiftBy (ref : Bool) (a : Int) (d : Nat) : Int :=
  if ref then
    (if a < 0 then -(rneDiv a.natAbs (2 ^ d) : Int) else rneDiv a.natAbs (2 ^ d))
  else a.fdiv (ipow2 d)

/-- align(p, L) of R77. -/
def alignTo (ref : Bool) (p : Dyad) (l : Int) : Int :=
  if l ≤ p.e then p.v * ipow2 (p.e - l).toNat else shiftBy ref p.v (l - p.e).toNat

/-- The e for which 2^e ≤ |p| < 2^(e+1). -/
def dyadExp (p : Dyad) : Int := (Nat.log2 p.v.natAbs : Int) + p.e

/-- The renormalising loop of R77. -/
def accNorm (ref : Bool) : Nat → Int → Int → Acc
  | 0, a, r => ⟨a, some r⟩
  | n + 1, a, r =>
    if (2 ^ 46 : Nat) ≤ a.natAbs then accNorm ref n (shiftBy ref a 1) (r + 1) else ⟨a, some r⟩

/-- R77: one group of products into a column accumulator. -/
def accGroup (ref : Bool) (acc : Acc) (ps : List Dyad) : Acc :=
  let nz := ps.filter (fun p => p.v != 0)
  match nz with
  | [] => acc
  | p :: r =>
    let eg := r.foldl (fun m q => max m (dyadExp q)) (dyadExp p)
    let eg := match acc.run with | some x => max eg x | none => eg
    let a := match acc.run with
      | some x => if x < eg then shiftBy ref acc.a (eg - x).toNat else acc.a
      | none => acc.a
    accNorm ref 64 (nz.foldl (fun s q => s + alignTo ref q (eg - 39)) a) eg

/-- R78: one group on the integer path. -/
def accGroupInt (acc : Acc) (ps : List Int) : Acc := ⟨ps.foldl (· + ·) acc.a, some 39⟩

/-- The value of a column accumulator. -/
def accDyad (acc : Acc) : Dyad :=
  match acc.run with
  | some r => ⟨acc.a, r - 39⟩
  | none => ⟨0, 0⟩

/-- R81: the pieces hi and lo of a BF16 or FP16 element, with their exponents; an element of any
other format is whole. -/
def splitElem (fmt : Nat) (x : Dyad) : Dyad × Dyad :=
  let c := if fmt = 0x8 then 1 else 4
  let hi := x.v.fdiv (ipow2 c)
  (⟨hi, x.e + c⟩, ⟨x.v - hi * ipow2 c, x.e⟩)

/-- The combined scale S of R75 from two operands' tensor scales (FP32 patterns). -/
def tensorScale (a b : Option Nat) : Option Nat :=
  match a, b with
  | some x, some y => some (f32Mul x y)
  | some x, none => some x
  | none, y => y

/-- R84, R86, R87: the output pattern of one element on the floating path. -/
def drainF (f : FFmt) (ovf special : Bool) (acc : Acc) (s : Option Nat) : Nat :=
  if special then nanOf f
  else
    let x := accDyad acc
    match s.map (decodeF fFP32) with
    | none => roundDyad f ovf x
    | some .nan => nanOf f
    | some (.inf q) => if x.v = 0 then nanOf f else infOf f ovf (decide (x.v < 0) != q)
    | some (.fin q n g) => if x.v = 0 then 0 else roundF f ovf (decide (x.v < 0) != q) (x.v.natAbs * n) 1 (x.e + g)

/-- R86: the output pattern for an output format code; INT8 and INT32 saturate the exact integer. -/
def drainElem (outFmt : Nat) (ovf special : Bool) (acc : Acc) (s : Option Nat) : Nat :=
  if outFmt = 0x6 then satTo 8 acc.a
  else if outFmt = 0xB then satTo 32 acc.a
  else match ffmtOf outFmt with
    | some f => drainF f ovf special acc s
    | none => 0

/-- R88: the bound a on lossy addends and shifts per accumulator. -/
def lossyBound (passes k g : Nat) : Nat := passes * (k + 2 * ceilDiv k g)

/-- R88: T in units of 2^(E_s − 39) for a check over n accumulators whose bound is a: 16 columns for the checksum column, the
rows of the tile for the checksum row. -/
def toleranceUnits (n a : Nat) : Nat := (n + 1) * a + n

/-- R88: an accumulator aligned to E_s in the tile's mode. -/
def alignAcc (ref : Bool) (es : Int) (c : Acc) : Int :=
  match c.run with
  | some r => shiftBy ref c.a (es - r).toNat
  | none => 0

/-- R88: whether the accumulators of a row or column disagree with their checksum entry. -/
def sumMismatch (int ref : Bool) (n a : Nat) (accs : List Acc) (pred : Acc) : Bool :=
  if int then (accs.map (·.a)).sum != pred.a
  else match ((pred :: accs).filterMap (·.run)) with
    | [] => false
    | e :: r =>
      let es := r.foldl max e
      decide (toleranceUnits n a < ((accs.map (alignAcc ref es)).sum - alignAcc ref es pred).natAbs)

/-- The 48 bits of an accumulator with some of them flipped (R77, R120). -/
def flipAcc (mask : Nat) (c : Acc) : Acc := { c with a := signedOf 48 (wrapTo 48 c.a ^^^ mask % 2 ^ 48) }

end Sys2Proof.Machine
end

