-- ==== Sys2Proof/Machine/Functions.lean ====
section
/-! DEFINITION. The special function unit: exp2 and log2 (R133 to R136), the composed functions of Table
5-8 (R137), and the coefficient-table lookups of R156. All values are FP32 patterns unless a lane format
is named. The four tables are the end values and derivatives of R133 and R134, in units of 2^−34. -/

namespace Sys2Proof.Machine

/-- 2^(k ÷ 64), rounded at 2^−34, k = 0 to 64. -/
def exp2Val : List Int :=
  [17179869184, 17366945694, 17556059333, 17747232285, 17940486974, 18135846069, 18333332485, 18532969386] ++
  [18734780191, 18938788572, 19145018458, 19353494041, 19564239773, 19777280377, 19992640840, 20210346425] ++
  [20430422668, 20652895385, 20877790671, 21105134905, 21334954757, 21567277182, 21802129432, 22039539056] ++
  [22279533902, 22522142119, 22767392167, 23015312813, 23265933138, 23519282539, 23775390735, 24034287765] ++
  [24296004000, 24560570137, 24828017211, 25098376593, 25371679995, 25647959476, 25927247443, 26209576657] ++
  [26494980235, 26783491653, 27075144755, 27369973752, 27668013225, 27969298135, 28273863824, 28581746014] ++
  [28892980823, 29207604756, 29525654719, 29847168019, 30172182369, 30500735894, 30832867132, 31168615042] ++
  [31508019007, 31851118839, 32197954783, 32548567523, 32902998185, 33261288344, 33623480028, 33989615720] ++
  [34359738368]

/-- The derivative of 2^((k + t) ÷ 64) with respect to t, rounded at 2^−34. -/
def exp2Der : List Int :=
  [186065279, 188091398, 190139579, 192210063, 194303093, 196418915, 198557777, 200719929] ++
  [202905626, 205115123, 207348681, 209606560, 211889026, 214196346, 216528791, 218886635] ++
  [221270154, 223679628, 226115340, 228577574, 231066621, 233582771, 236126321, 238697568] ++
  [241296814, 243924364, 246580526, 249265612, 251979937, 254723818, 257497579, 260301544] ++
  [263136042, 266001405, 268897971, 271826078, 274786070, 277778294, 280803101, 283860846] ++
  [286951888, 290076589, 293235316, 296428440, 299656334, 302919377, 306217953, 309552448] ++
  [312923253, 316330764, 319775380, 323257506, 326777549, 330335923, 333933046, 337569338] ++
  [341245227, 344961144, 348717525, 352514810, 356353444, 360233879, 364156568, 368121974] ++
  [372130559]

/-- log2(1 + k ÷ 64), rounded at 2^−34. -/
def log2Val : List Int :=
  [0, 384276102, 762685163, 1135403647, 1502600171, 1864435971, 2221065319, 2572635924] ++
  [2919289296, 3261161089, 3598381422, 3931075170, 4259362248, 4583357869, 4903172785, 5218913514] ++
  [5530682557, 5838578592, 6142696666, 6443128369, 6739962002, 7033282728, 7323172724, 7609711315] ++
  [7892975107, 8173038110, 8449971853, 8723845491, 8994725915, 9262677844, 9527763923, 9790044805] ++
  [10049579240, 10306424151, 10560634708, 10812264403, 11061365114, 11307987169, 11552179411, 11793989252] ++
  [12033462729, 12270644559, 12505578186, 12738305831, 12968868536, 13197306209, 13423657664, 13647960662] ++
  [13870251946, 14090567282, 14308941488, 14525408472, 14740001259, 14952752025, 15163692124, 15372852117] ++
  [15580261797, 15785950214, 15989945704, 16192275906, 16392967788, 16592047670, 16789541242, 16985473583] ++
  [17179869184]

/-- The derivative of log2(1 + (k + t) ÷ 64) with respect to t, rounded at 2^−34. -/
def log2Der : List Int :=
  [387270501, 381312493, 375535031, 369930031, 364489883, 359207421, 354075887, 349088902] ++
  [344240445, 339524823, 334936650, 330470828, 326122527, 321887170, 317760411, 313738128] ++
  [309816401, 305991507, 302259903, 298618218, 295063239, 291591907, 288201303, 284888645] ++
  [281651274, 278486653, 275392356, 272366067, 269405566, 266508732, 263673533, 260898022] ++
  [258180334, 255518681, 252911348, 250356688, 247853121, 245399129, 242993256, 240634098] ++
  [238320308, 236050591, 233823699, 231638431, 229493630, 227388184, 225321019, 223291100] ++
  [221297429, 219339045, 217415018, 215524453, 213666483, 211840274, 210045018, 208279933] ++
  [206544267, 204837290, 203158296, 201506602, 199881549, 198282497, 196708826, 195159938] ++
  [193635251]

/-- The near-one segments of R134: value and derivative at t = 0, value and derivative at t = 1. -/
def nearOne : List (Int × Int × Int × Int) :=
  [(24980988296, -98870716, 24882636932, -97835081),
   (24882636932, -97835081, 24785312075, -96817625),
   (24785312075, -193635251, 24593670513, -189670931)]

/-- A signed quotient by 2^d, to nearest even. -/
def rneShift (v : Int) (d : Nat) : Int := shiftBy true v d

/-- The Hermite cubic through (v0, d0) and (v1, d1) at t = tn ÷ 2^td, each Horner product rounded to
nearest even at 2^−34 (R133). -/
def hermite (v0 d0 v1 d1 : Int) (tn : Int) (td : Nat) : Int :=
  let c2 := 3 * (v1 - v0) - 2 * d0 - d1
  let c3 := 2 * (v0 - v1) + d0 + d1
  let h2 := c2 + rneShift (tn * c3) td
  let h1 := d0 + rneShift (tn * h2) td
  v0 + rneShift (tn * h1) td

/-- exp2 of a finite number (R133, R135); `low` enters the segment evaluation beside t (R137; zero in R133). -/
def exp2Dyad (x low : Dyad) : Nat :=
  if dyadLt x ⟨128, 0⟩ = false then 0x7F800000
  else if dyadLt ⟨-150, 0⟩ x = false then 0
  else
    let d := (-x.e).toNat
    let v := x.v * ipow2 x.e.toNat
    let n := v.fdiv (ipow2 d)
    let f := (v - n * ipow2 d) * 64
    let k := (f.fdiv (ipow2 d)).toNat
    let t := dyadAdd ⟨f - (k : Int) * ipow2 d, -(d : Int)⟩ ⟨low.v * 64, low.e⟩
    let q := hermite (exp2Val.getD k 0) (exp2Der.getD k 0) (exp2Val.getD (k + 1) 0) (exp2Der.getD (k + 1) 0)
      (t.v * ipow2 t.e.toNat) (-t.e).toNat
    roundDyad fFP32 true ⟨q, n - 34⟩

/-- EXP2 (R133, Table 5-7). -/
def fnExp2 (x : Nat) : Nat :=
  match decodeF fFP32 x with
  | .nan => 0x7FC00000
  | .inf true => 0
  | .inf false => 0x7F800000
  | .fin neg m e => exp2Dyad (numDyad (.fin neg m e)) ⟨0, 0⟩

/-- LOG2 (R134, Table 5-7). -/
def fnLog2 (x : Nat) : Nat :=
  match decodeF fFP32 x with
  | .nan => 0x7FC00000
  | .inf true => 0x7FC00000
  | .inf false => 0x7F800000
  | .fin neg m e =>
    if m = 0 then 0xFF800000
    else if neg then 0x7FC00000
    else
      let b := Nat.log2 m
      let ex : Int := e + b
      let inNear := (decide (ex = -1) && decide (63 * 2 ^ b ≤ 32 * m)) || (decide (ex = 0) && decide (64 * m < 65 * 2 ^ b))
      if inNear then
        let u := dyadAdd ⟨m, e⟩ ⟨-1, 0⟩
        let i := if decide (u.v < 0) then (if dyadLt u ⟨-1, -7⟩ then 0 else 1) else 2
        let start : Dyad := if i = 0 then ⟨-1, -6⟩ else if i = 1 then ⟨-1, -7⟩ else ⟨0, 0⟩
        let dt := dyadAdd u (dyadNeg start)
        let te := dt.e + (if i = 2 then 6 else 7)
        let tn := dt.v * ipow2 te.toNat
        let c := nearOne.getD i (0, 0, 0, 0)
        let r := hermite c.1 c.2.1 c.2.2.1 c.2.2.2 tn (-te).toNat
        roundDyad fFP32 true (dyadMul u ⟨r, -34⟩)
      else
        let f : Nat := (m - 2 ^ b) * 64
        let k := f / 2 ^ b
        let t : Int := (f % 2 ^ b : Nat)
        let q := hermite (log2Val.getD k 0) (log2Der.getD k 0) (log2Val.getD (k + 1) 0) (log2Der.getD (k + 1) 0) t b
        roundDyad fFP32 true ⟨q + ex * ipow2 34, -34⟩

def f32Neg (x : Nat) : Nat := negF fFP32 x
def f32Sub (a b : Nat) : Nat := f32Add a (f32Neg b)

/-- log2 e, to nearest at 2^−120. -/
def log2E : Dyad := ⟨1917670637729674084946755258930051709, -120⟩

/-- An exact number rounded to nearest even at n significant bits. -/
def sigRound (n : Nat) (x : Dyad) : Dyad :=
  let l := Nat.log2 x.v.natAbs + 1
  ⟨rneShift x.v (l - n), x.e + (l - n : Nat)⟩

/-- An exact number rounded to nearest even at 2^−d. -/
def fixRound (d : Nat) (x : Dyad) : Dyad :=
  if -(d : Int) ≤ x.e then x else ⟨rneShift x.v (-(d : Int) - x.e).toNat, -(d : Int)⟩

/-- EXP (R137): x × log2 e as a rounded high part and a low part that enters the segment evaluation. How many bits
each holds beyond FP32 and beyond the segment's grid of 2^−34 is not stated: `Config.expWidths` (log 11). -/
def fnExp (x : Nat) : Nat :=
  match decodeF fFP32 x with
  | .nan => 0x7FC00000
  | .inf true => 0
  | .inf false => 0x7F800000
  | .fin neg m e =>
    let p := dyadMul (numDyad (.fin neg m e)) log2E
    let high := sigRound (24 + Config.expWidths 0) p
    exp2Dyad high (fixRound (34 + Config.expWidths 1) (dyadAdd p (dyadNeg high)))

/-- Whether bit i of the free form of a function's vector operations is set (log 11). -/
def fnForm (code i : Nat) : Bool := Config.fnForm code / 2 ^ i % 2 == 1

/-- a × b + c of a composed function: one FMA or two operations, as its free form says. -/
def fnMulAdd (fused : Bool) (a b c : Nat) : Nat := if fused then f32Fma a b c else f32Add (f32Mul a b) c

/-- a × b × c in either order. -/
def fnMul3 (left : Bool) (a b c : Nat) : Nat := if left then f32Mul (f32Mul a b) c else f32Mul a (f32Mul b c)

/-- Multiply an FP32 pattern by 2^k, rounded once. -/
def f32Scale (x : Nat) (k : Int) : Nat :=
  match decodeF fFP32 x with
  | .fin neg m e => roundF fFP32 true neg m 1 (e + k)
  | _ => x

/-- RECIP (R137): on the significand m, y0 = exp2(−log2 m) and one Newton step by FMA, then the sign and
2^−e. -/
def fnRecip (x : Nat) : Nat :=
  match decodeF fFP32 x with
  | .nan => 0x7FC00000
  | .inf neg => b2n neg * 2 ^ 31
  | .fin neg m e =>
    if m = 0 then b2n neg * 2 ^ 31 + 0x7F800000
    else
      let b := Nat.log2 m
      let sig := roundF fFP32 true false m 1 (-(b : Int))
      let y0 := fnExp2 (f32Neg (fnLog2 sig))
      let y := f32Fma y0 (f32Fma (f32Neg sig) y0 0x3F800000) y0
      f32Scale (if neg then f32Neg y else y) (-(e + b))

/-- RSQRT (R137): y0 = exp2(−0.5 × log2 x), then y0 + (0.5 × y0) × (1 − (x × y0) × y0). -/
def fnRsqrt (x : Nat) : Nat :=
  match decodeF fFP32 x with
  | .nan => 0x7FC00000
  | .inf false => 0
  | .inf true => 0x7FC00000
  | .fin neg m _ =>
    if m = 0 then b2n neg * 2 ^ 31 + 0x7F800000
    else if neg then 0x7FC00000
    else
      let y0 := fnExp2 (f32Mul 0xBF000000 (fnLog2 x))
      let r := f32Fma (f32Neg (f32Mul x y0)) y0 0x3F800000
      f32Fma (f32Mul 0x3F000000 y0) r y0

/-- SIGMOID (R137). −17 is 0xC188_0000. -/
def fnSigmoid (x : Nat) : Nat :=
  if x = 0x7F800000 then 0x3F800000
  else if x = 0xFF800000 then 0
  else if numEq (decodeF fFP32 x) (decodeF fFP32 x) = false then 0x7FC00000
  else if f32Lt x 0xC1880000 then fnExp x
  else fnRecip (f32Add 0x3F800000 (fnExp (f32Neg x)))

/-- TANH (R137): 9.1 is 0x4111_999A and 2 ln 2 is 0x3FB1_7218. The quotient is p × RECIP(d); which of the two sums
of products is fused is not stated (log 11). -/
def fnTanh (x : Nat) : Nat :=
  let sgn := x / 2 ^ 31 * 2 ^ 31
  let a := x % 2 ^ 31
  if numEq (decodeF fFP32 x) (decodeF fFP32 x) = false then 0x7FC00000
  else if f32Le 0x4111999A a then sgn + 0x3F800000
  else
    let a2 := f32Mul 0x40000000 a
    let u := fnExp a2
    if u = 0x3F800000 then x
    else
      let u1 := f32Sub u 0x3F800000
      let l := fnLog2 u
      let p := f32Mul u1 a2
      let d := if fnForm 7 0 then f32Fma u1 a2 (f32Mul 0x3FB17218 l) else fnMulAdd (fnForm 7 1) 0x3FB17218 l p
      sgn + f32Mul p (fnRecip d) % 2 ^ 31

/-- SILU (R137). −∞ gives −0. -/
def fnSilu (x : Nat) : Nat :=
  if x = 0x7F800000 then 0x7F800000
  else if x = 0xFF800000 then 0x80000000
  else f32Mul x (fnSigmoid x)

/-- GELU (R137): −∞ gives −0. 1.5957691 is 0x3FCC_4229 and 0.044715 is 0x3D37_2713; the order of the products of
x + 0.044715 x³ and whether the sum is fused are not stated (log 11). -/
def fnGelu (x : Nat) : Nat :=
  if x = 0x7F800000 then 0x7F800000
  else if x = 0xFF800000 then 0x80000000
  else if numEq (decodeF fFP32 x) (decodeF fFP32 x) = false then 0x7FC00000
  else
    let sq := f32Mul x x
    let c := 0x3D372713
    let y := if fnForm 9 1 then fnMulAdd (fnForm 9 0) c (f32Mul sq x) x
      else if fnForm 9 2 then fnMulAdd (fnForm 9 0) (f32Mul c x) sq x
      else fnMulAdd (fnForm 9 0) (f32Mul c sq) x x
    f32Mul x (fnSigmoid (f32Mul 0x3FCC4229 y))

/-- SOFTPLUS (R137): 20 is 0x41A0_0000 and ln 2 is 0x3F31_7218. The quotient is a product with RECIP(v − 1); the
order of the products is not stated (log 11). -/
def fnSoftplus (x : Nat) : Nat :=
  if x = 0x7F800000 then 0x7F800000
  else if x = 0xFF800000 then 0
  else if numEq (decodeF fFP32 x) (decodeF fFP32 x) = false then 0x7FC00000
  else if f32Lt 0x41A00000 x then x
  else if f32Lt x 0xC1880000 then fnExp x
  else
    let u := fnExp x
    let v := f32Add 0x3F800000 u
    if v = 0x3F800000 then u
    else
      let l := f32Mul 0x3F317218 (fnLog2 v)
      let r := fnRecip (f32Sub v 0x3F800000)
      fnMul3 (fnForm 10 0) l (if fnForm 10 1 then r else u) (if fnForm 10 1 then u else r)

/-- The function of a code of Table 5-8; reserved codes never pass the validator. -/
def fnOf (code x : Nat) : Nat :=
  match code with
  | 0x01 => fnExp2 x
  | 0x02 => fnLog2 x
  | 0x03 => fnExp x
  | 0x04 => fnRecip x
  | 0x05 => fnRsqrt x
  | 0x06 => fnSigmoid x
  | 0x07 => fnTanh x
  | 0x08 => fnSilu x
  | 0x09 => fnGelu x
  | 0x0A => fnSoftplus x
  | _ => x

end Sys2Proof.Machine
end

