-- ==== Sys2Proof/Machine/Store.lean ====
section
/-! DEFINITION. Sparse data by number: an association list with rising keys, in which a key whose
value is the default is not listed, so that equal contents are equal lists. -/

namespace Sys2Proof.Machine

/-- A table keyed by a number. -/
abbrev Store (α : Type) := List (Nat × α)

/-- The value listed at k, if any. -/
def storeFind {α : Type} : Store α → Nat → Option α
  | [], _ => none
  | (k', v) :: r, k => if k = k' then some v else storeFind r k

/-- List v at k, keeping the keys rising. -/
def storeInsert {α : Type} : Store α → Nat → α → Store α
  | [], k, v => [(k, v)]
  | (k', v') :: r, k, v =>
    if k < k' then (k, v) :: (k', v') :: r
    else if k = k' then (k, v) :: r
    else (k', v') :: storeInsert r k v

/-- Take k out of the list. -/
def storeErase {α : Type} (m : Store α) (k : Nat) : Store α := m.filter (fun e => e.1 != k)

/-- What k holds, where d is what an unlisted key holds. -/
def storeGet {α : Type} (d : α) (m : Store α) (k : Nat) : α := (storeFind m k).getD d

/-- Make k hold v, where d is what an unlisted key holds. -/
def storePut {α : Type} [DecidableEq α] (d : α) (m : Store α) (k : Nat) (v : α) : Store α :=
  if v = d then storeErase m k else storeInsert m k v

/-- The canonical form: keys strictly rising and no entry that an unlisted key would read as. -/
abbrev StoreWf {α : Type} (d : Nat → α) (m : Store α) : Prop :=
  m.Pairwise (fun a b => a.1 < b.1) ∧ ∀ e ∈ m, e.2 ≠ d e.1

/-- Keep the entries whose key satisfies p. -/
def storeKeep {α : Type} (p : Nat → Bool) (m : Store α) : Store α := m.filter (fun e => p e.1)

/-- The keys in use whose value satisfies p. -/
def storeKeys {α : Type} (p : α → Bool) (m : Store α) : List Nat :=
  (m.filter (fun e => p e.2)).map (fun e => e.1)

end Sys2Proof.Machine
end

