-- ==== Sys2Proof/Machine/Registers.lean ====
section
/-! DEFINITION. Every register field that the six-column tables of spec/ give the module: its name,
where it lies, its bits, its access code (R4), its reset value, its Kept-through class (R5), who may
write it and, where the spec states one, its range. Reserved bits (R3) and WO command fields (which
read zero and hold nothing, R4) have no entry. -/

namespace Sys2Proof.Machine

/-- One constructor per register field; the name is the register's and the field's name in spec/. -/
inductive Fld where
  -- Table 1-4. HUB_ID
  | HUB_ID_HUB
  | HUB_ID_WING
  | HUB_ID_MODULE_HUB_INDEX
  -- Table 1-5. HUB_REMAP_CTRL
  | HUB_REMAP_CTRL_ACTIVE_BANK
  | HUB_REMAP_CTRL_FLIP_REQ
  | HUB_REMAP_CTRL_WRITE_DROPPED
  | HUB_REMAP_CTRL_FLIP_REJECTED
  | HUB_REMAP_CTRL_ACTIVE_GEN
  -- Table 1-6. HUB_REMAP_B0_SLOT and HUB_REMAP_B1_SLOT (instance n)
  | HUB_REMAP_B0_SLOT_PHYS_SLOT
  | HUB_REMAP_B1_SLOT_PHYS_SLOT
  | HUB_REMAP_B0_SLOT_VALID
  | HUB_REMAP_B1_SLOT_VALID
  -- Table 1-7. HUB_SLOT_STATE (instance p)
  | HUB_SLOT_STATE_STATE
  | HUB_SLOT_STATE_FENCED
  -- Table 2-12. Vestibule timetable block
  | TT_CONFIG_RESERVE_PCT
  | TT_CONFIG_INTAKE_TICK
  | TT_CONFIG_PLAN_LEAD
  | TT_DEFAULT_INTERVAL
  | TT_STEP_NUMBER
  | TT_STEP_START
  | TT_STEP_PLANNED_END
  | TT_LATE_STEPS
  | TT_REFUSED
  | TT_RESERVE_PEAK
  -- Table 2-13. Wing timetable block
  | WING_TT_CTRL_ACTIVE_BANK
  | WING_TT_CTRL_FLIP_REQ
  | WING_TT_CTRL_FLIP_REJECTED
  | WING_TT_CTRL_HOT_REFRESH
  | WING_TT_CTRL_ACTIVE_GEN
  | WING_TT_LOAD_SRC_OFFSET
  | WING_TT_REJECT_HUB
  | WING_TT_REJECT_CHANNEL
  | WING_TT_REJECT_REASON
  | WING_TT_REFRESH_FORCED
  -- Table 2-14. Hub timetable registers
  | HUB_TT_CTRL_ACTIVE_BANK
  | HUB_TT_CTRL_LOAD_BUSY
  | HUB_TT_CTRL_LOAD_DONE
  | HUB_TT_CTRL_LOAD_ERROR
  | HUB_TT_CTRL_LOAD_REASON
  | HUB_TT_CTRL_ACTIVE_GEN
  | HUB_TT_LOAD_SRC_OFFSET
  | HUB_TT_SLIP
  -- Table 4-8. Matrix engine register fields
  | MAT_SEL_PHYS_SLOT
  | MAT_CORE_STATUS_BUSY
  | MAT_CORE_STATUS_REPLAYING
  | MAT_CORE_STATUS_HELD
  | MAT_CORE_STATUS_LIVE_CLAMP
  | MAT_CORE_STATUS_RETAIN_WAIT
  | MAT_CORE_STATUS_TILE_FAIL
  | MAT_MISMATCH_CHECKSUM
  | MAT_MISMATCH_RESIDUE
  | MAT_REPLAY_CYCLES
  | MAT_BUBBLE_FEED
  | MAT_BUBBLE_DRAIN
  | MAT_BUBBLE_LIMIT
  | MAT_SPECIAL_TILES
  | FW_BUBBLE_FEED
  | MAT_RETAIN_WAIT_CYCLES
  | MAT_HUB_MISMATCH
  | MAT_INJECT_SLOT
  | MAT_INJECT_TARGET
  | MAT_INJECT_BIT
  -- Table 5-14. Vector register fields
  | VEC_SEL_PHYS_SLOT
  | VEC_CORE_STATUS_BUSY
  | VEC_CORE_STATUS_REPLAYING
  | VEC_CORE_STATUS_HELD
  | VEC_CORE_STATUS_CHUNK_FAIL
  | VEC_CORE_STATUS_SCALAR_FAULT
  | VEC_CORE_STATUS_TABLE_MISMATCH
  | VEC_CORE_STATUS_INDEX_FAULT
  | VEC_CORE_STATUS_LEN_CLAMP
  | VEC_RESIDUE_VECTOR
  | VEC_RESIDUE_SFU_RED
  | VEC_REPLAY_CYCLES
  | VEC_SUMMARY_STALL
  | VEC_SUMQ_STATUS_COUNT
  | VEC_COEF_CTRL_ACTIVE_BANK
  | VEC_COEF_CTRL_FLIP_REQ
  | VEC_COEF_CTRL_FLIP_REJECTED
  | VEC_COEF_CTRL_LOAD_BUSY
  | VEC_COEF_CTRL_LOAD_DONE
  | VEC_COEF_CTRL_LOAD_ERROR
  | VEC_COEF_CTRL_LOAD_REASON
  | VEC_COEF_CTRL_ACTIVE_GEN
  | VEC_COEF_LOAD_SRC_OFFSET
  | VEC_COEF_TAG_ACTIVE_TAG
  | VEC_COEF_TAG_INACTIVE_TAG
  | VEC_COEF_CORRECTED
  | VEC_HUB_RESIDUE
  | VEC_SCALAR_VALUE
  | VEC_SCALAR_CTX
  | VEC_SCALAR_SHARED
  | VEC_SCALAR_VALID
  -- Table 6-12. Vestibule Larder block
  | LARDER_CTRL_PARK_RATE
  | LARDER_CTRL_SQUEEZE_PCT
  | LARDER_CTRL_HOST_PARK_EN
  | LARDER_CTRL_PARK_MARGIN
  | LARDER_ROOT_BASE
  | LARDER_PARKS
  | LARDER_UNPARKS
  | LARDER_PARK_CRC_FAIL
  | LARDER_LAYOUT_LAYERS
  | LARDER_LAYOUT_LATENT_UNITS
  | LARDER_LAYOUT_LATENT_FMT
  | LARDER_LAYOUT_ROPE_UNITS
  | LARDER_LAYOUT_ROPE_FMT
  | LARDER_LAYOUT_SLAB_UNITS
  | LARDER_LAYOUT_VALID
  -- Table 6-13. Wing Larder block
  | LARDER_POOL_BASE
  | LARDER_POOL_LIMIT
  | LARDER_PARK_BASE
  | LARDER_PARK_LIMIT
  -- Table 6-14. Hub Larder registers
  | LARDER_STATUS_BUSY
  | LARDER_STATUS_CTX_FAULT
  | LARDER_STATUS_MAP_FAULT
  | LARDER_STATUS_FILL_FAULT
  | LARDER_STATUS_RANGE_FAULT
  | LARDER_STATUS_LAYOUT_FAULT
  | LARDER_STATUS_POISON
  | LARDER_FAULT_INFO_SLOT
  | LARDER_FAULT_INFO_ROW
  | LARDER_PAGES_READ
  | LARDER_TOKENS_WRITTEN
  | LARDER_PAD_SLOTS
  -- Table 7-14. Context window serving registers
  | SERVE_CTRL_ENABLE
  | SERVE_CTRL_FAULTED
  | SERVE_CTRL_BACKLOG
  | SERVE_BLOCK_ADDR
  | SERVE_INTAKE_BASE
  | SERVE_INTAKE_SIZE_LOG2
  | SERVE_EVQ_BASE
  | SERVE_EVQ_SIZE_LOG2
  | SERVE_EVQ_SIZE_VECTOR
  | SERVE_INTAKE_COUNT
  | SERVE_EVQ_COUNT
  | SERVE_OPEN_ITEMS
  | SERVE_SPILLED
  | SERVE_PARK_BASE
  | SERVE_PARK_SIZE
  -- Table 7-15. Vestibule serving block
  | SERVE_TICKS
  | SERVE_RECORDS_READ
  | SERVE_ACCEPTED
  | SERVE_INVALID
  | SERVE_BACKLOG_TEARDOWNS
  | SERVE_SESSIONS_OPEN
  | SERVE_SESSION_LIMIT
  -- Table 8-9. Vestibule Pannier block
  | PANNIER_CTRL_ACTIVE_BANK
  | PANNIER_CTRL_FLIP_REQ
  | PANNIER_CTRL_FLIP_REJECTED
  | PANNIER_CTRL_WRITE_DROPPED
  | PANNIER_CTRL_COPY_BUSY
  | PANNIER_CTRL_READY
  | PANNIER_CTRL_ACTIVE_GEN
  | PANNIER_LOADS
  | PANNIER_AUTH_FAIL
  | PANNIER_OWNER_FAULTS
  | PANNIER_SLOTS_USED
  | TRAIN_JOBS_OPEN
  | TRAIN_OPT_STEPS
  | TRAIN_SKIPPED
  | PANNIER_QUOTA
  -- Table 8-10. Wing Pannier block
  | PANNIER_BANK0_BASE
  | PANNIER_BANK1_BASE
  | PANNIER_STORE_BASE
  | PANNIER_STORE_LIMIT
  | TRAIN_WS_BASE
  | TRAIN_WS_LIMIT
  -- Table 8-11. Hub Pannier registers
  | PANNIER_STATUS_FAULT
  | PANNIER_STATUS_REASON
  | PANNIER_FAULT_INFO_SLOT
  | PANNIER_FAULT_INFO_CORE
  | PANNIER_CACHE_MISS
  -- Table 9-9. Hub memory registers
  | MEM_PANTRY_MODE_CACHE_MIB
  | MEM_GRANULE_SEL
  | MEM_GRANULE_INFO_OWNER
  | MEM_GRANULE_INFO_WRITTEN
  | MEM_STATUS_ADDR_FAULT
  | MEM_STATUS_GRANULE_FAULT
  | MEM_STATUS_LS_UNCORR
  | MEM_STATUS_PANTRY_UNCORR
  | MEM_FAULT_INFO_SLOT
  | MEM_FAULT_INFO_CTX
  | MEM_ECC_CORRECTED
  | MEM_CACHE_HITS
  | MEM_RED_REORDER_WAIT
  -- Table 9-10. Wing memory block
  | HBM_WEIGHT_OFF
  | HBM_WEIGHT_ROWS
  | HBM_WEIGHT_CHMASK
  | HBM_WEIGHT_SPARE
  | HBM_REFETCH_PEER
  | HBM_POISON_COUNT
  | HBM_REBUILDS
  | HBM_REFETCHES
  | HBM_REBUILD_MAX_NS
  -- Table 9-11. HBM channel block
  | HBM_CH_STATE_STATE
  | HBM_CH_RETRIES
  | HBM_CH_CORRECTED
  | HBM_CH_UNCORR
  | HBM_REPAIR_CTRL_KIND
  | HBM_REPAIR_ADDR
  | HBM_REPAIR_STATUS_BUSY
  | HBM_REPAIR_STATUS_DONE
  | HBM_REPAIR_STATUS_FAIL
  | HBM_REPAIR_STATUS_SPARES_LEFT
  -- Table 10-10. Hub integrity registers
  | INTEG_SEL_PHYS_SLOT
  | INTEG_CORE_INFO_SKIP
  | INTEG_CORE_INFO_READMITS
  | INTEG_CORE_INFO_CLEARED
  | INTEG_CORE_INFO_RETIRE_PENDING
  | INTEG_CORE_INFO_UNDER_TEST
  | INTEG_CORE_INFO_PASS_RUN
  | INTEG_CMD_STATUS_DONE
  | INTEG_CMD_STATUS_REJECTED
  | INTEG_CMD_STATUS_REASON
  | INTEG_HUB_STATE
  | INTEG_HUB_OUT
  | INTEG_HUB_FT_STARVED
  | INTEG_HUB_SUSPECTS
  | INTEG_HUB_SERVING
  | INTEG_TEST_PASS
  | INTEG_TEST_FAIL
  | INTEG_RESCUES
  | INTEG_HANGS
  | INTEG_HEARTBEAT
  -- Table 10-11. Vestibule integrity block
  | INTEG_CONFIG_SUSPECT_WINDOW
  | INTEG_FT_FT_PERIOD
  | INTEG_FT_ROTATE_EN
  | INTEG_FT_ROTATE_MIN
  | INTEG_LEAD_LEAD_WING
  | INTEG_LEAD_SHADOW_WING
  | INTEG_LEAD_TAKEOVERS
  | INTEG_LEAD_DIVERGES
  | INTEG_DERATE_SERVING
  | INTEG_DERATE_RATIO
  | CELLAR_NEXT_SEQ
  | CELLAR_DROPPED
  | CELLAR_STATUS_READY
  | CELLAR_STATUS_COPY_FAULT
  | INTEG_MODULE_EVENTS
  -- Table 11-7. Vestibule power block
  | PWR_CAP_CAP_W
  | PWR_CAP_CAP_PENDING
  | PWR_CONFIG_THROTTLE_GEAR
  | PWR_CONFIG_GEAR_CEILING
  | PWR_CONFIG_ALERT_HOLD
  | PWR_CONFIG_DISAGREE_PCT
  | PWR_CONFIG_DISAGREE_WINDOWS
  | PWR_CONFIG_FALLBACK_DROP
  | PWR_INPUT_VOLTS
  | PWR_INPUT_AMPS
  | PWR_INPUT_W
  | PWR_STATUS_ALERT_ACTIVE
  | PWR_STATUS_THROTTLE_ACTIVE
  | PWR_STATUS_ALERT_SEEN
  | PWR_STATUS_THROTTLE_SEEN
  | PWR_STATUS_INLET_HIGH
  | PWR_ALERT_MAP
  | PWR_ALERT_COUNT
  | PWR_INLET
  | ENERGY_MODULE
  | ENERGY_ATTRIB
  | PWR_METER_CTX_CTX
  | PWR_METER_CTX_EN
  | PWR_METER_ENERGY
  -- Table 11-8. Wing Derailleur block
  | DRL_GEAR_PLANNED
  | DRL_GEAR_CURRENT
  | DRL_GEAR_CEILING
  | DRL_GEAR_FORCED
  | DRL_GEAR_THROTTLED
  | DRL_GEAR_DEFERRED
  | DRL_GEAR_CEILING_PENDING
  | DRL_RAIL_CAP_AMPS
  | DRL_EST_STATE
  | DRL_EST_MISSES
  | DRL_K
  | DRL_DISAGREE
  | DRL_VCORE_MILLIVOLTS
  | DRL_VCORE_AMPS
  | DRL_LIMIT_NS
  | DRL_DEFERRED_COUNT
  | DRL_TEMP
  | DRL_STACK_TEMP
  -- Table 11-9. Hub power registers
  | HUB_PWR_TRIM_STEPS
  | HUB_PWR_TEMP
  -- Table 12-10. Vestibule fabric block
  | SPOKE_FAB_CFG_SIZE_X
  | SPOKE_FAB_CFG_SIZE_Y
  | SPOKE_FAB_CFG_WRAP
  | SPOKE_FAB_CFG_SIZE_Z
  | SPOKE_FAB_CFG_GM_PRIORITY
  | SPOKE_FAB_CFG_FLIP_PERIOD
  | SPOKE_FAB_ADDR_ADDR
  | SPOKE_FAB_ADDR_ASSIGNED
  | SPOKE_FAB_ADDR_EPOCH
  | SPOKE_FAB_STATUS_STATE
  | SPOKE_FAB_STATUS_SETTLED
  | SPOKE_FAB_STATUS_CAD_STATE
  | SPOKE_FAB_STATUS_HOPS_EXCEEDED
  | SPOKE_FAB_STATUS_CMD_REJECTED
  | SPOKE_CAD_OFFSET
  | SPOKE_CAD_UPSTREAM_LINK
  | SPOKE_CAD_UPSTREAM_HOPS
  | SPOKE_CAD_UPSTREAM_GM
  | SPOKE_DROP_STALE_SRC
  | SPOKE_DROP_STALE_DST
  | SPOKE_DROP_ROUTE
  | SPOKE_DROP_OWNER
  | SPOKE_TT_FLIP_AT
  | SPOKE_TT_CTRL_ACTIVE_BANK
  | SPOKE_TT_CTRL_FLIP_REQ
  | SPOKE_TT_CTRL_FLIP_REJECTED
  | SPOKE_TT_CTRL_LOAD_ERROR
  | SPOKE_TT_CTRL_LOADED
  | SPOKE_TT_CTRL_ACTIVE_GEN
  | SPOKE_TT_LOAD_SRC
  | SPOKE_TT_LOAD_TABLE
  | SPOKE_CREDIT_POOL
  -- Table 12-11. Link block
  | SPOKE_LINK_STATE_STATE
  | SPOKE_LINK_STATE_LANES
  | SPOKE_LINK_STATE_LANE_MASK
  | SPOKE_LINK_STATE_PEER
  | SPOKE_LINK_DELAY
  | SPOKE_FEC_CORRECTED
  | SPOKE_FEC_UNCORR
  | SPOKE_RETX
  | SPOKE_RETRAINS
  | SPOKE_LANE_SER
  -- Table 12-12. Epoch table entry
  | EPOCH_ENTRY_EPOCH
  | EPOCH_ENTRY_STATE
  -- Table 13-10. Context block
  | CTX_CMD_STATUS_BUSY
  | CTX_CMD_STATUS_DONE
  | CTX_CMD_STATUS_CMD_REJECTED
  | CTX_CMD_STATUS_REASON
  | CTX_WINDOW_OPEN
  | CTX_WINDOW_CTX
  | CTX_WINDOWS
  | CTX_SWITCH_NS_MAX
  | CTX_PREEMPT_WAIT_MAX
  | CTX_CONFIG_WINDOW_MAX
  | CTX_CONFIG_SWITCH_SLOTS
  | CTX_TEARDOWNS
  | CTX_STATE_STATE
  | CTX_STATE_CLASS
  | CTX_STATE_IDE_READY
  | CTX_STATE_SLOT
  | CTX_STATE_KEYS
  | CTX_STATE_PENDING
  -- Table 13-11. Hub context registers
  | HUB_SEM_HELD
  | HUB_SEM_CTX
  | HUB_SEM_CORES
  | HUB_SEM_ARRIVED
  | HUB_SEM_STATUS_SEM_FAULT
  | HUB_SEM_STATUS_SEM
  | HUB_SWITCH_BASE
  -- Table 14-9. Context window registers
  | CTXWIN_INFO_CTX
  | CTXWIN_INFO_CLASS
  | CTXWIN_INFO_STATE
  | CTXWIN_INFO_IDE_READY
  | CTXWIN_CADENCE
  | MBX_CTRL_IN_FULL
  | MBX_CTRL_OUT_BUSY
  | MBX_CTRL_OVERRUN
  -- Table 14-10. PCI Express block
  | PCIE_LINK_WIDTH
  | PCIE_LINK_RATE
  | PCIE_LINK_FLIT
  | PCIE_LINK_UP
  | PCIE_LINK_DEGRADED
  | PCIE_ERR_CORR
  | PCIE_ERR_UNCORR
  | PCIE_CPL_TIMEOUT
  | PCIE_LINK_DOWNS
  | PCIE_IDE_FAIL
  -- Table 14-11. Event controller block
  | EVC_STATUS_CELLAR
  | EVC_STATUS_CTX
  | EVC_STATUS_LINK
  | EVC_STATUS_POWER
  | EVC_MBX_PENDING
  | EVC_ROUTE_MODULE
  | EVC_ROUTE_MBX
  | EVC_REARM_POLL
  | EVC_FILTER_THROTTLE
  | EVC_INPUTS_THROTTLE
  | EVC_INPUTS_PERST
  | EVC_INPUTS_SLOT_ID
  | EVC_GLITCHES
  | EVC_MOD
  -- Table 14-12. Management block
  | MGMT_I3C_DYN_ADDR
  | MGMT_I3C_ADDR_VALID
  | MGMT_I3C_EID
  | MGMT_I3C_RECEIVER_SET
  | MGMT_EVENTS_PENDING
  | MGMT_UPDATE_STATE
  | MGMT_UPDATE_IMAGE
  -- Table 15-14. Start-up block
  | BOOT_STATUS_PHASE
  | BOOT_STATUS_IMAGE
  | BOOT_STATUS_FALLBACK
  | BOOT_STATUS_ROOT_KEY
  | BOOT_STATUS_RECOVERY
  | BOOT_STATUS_FAIL_CHECK
  | BOOT_COUNT
  | BOOT_MS
  | RESET_STATUS_LAST_KIND
  | RESET_STATUS_BUSY
  | RESET_STATUS_REJECTED
  | LP_CONFIG_CEILING
  | LP_CONFIG_MARGIN
  | LP_CONFIG_IDLE_MIN
  | LP_CTRL_HOLD
  | LP_STATUS_STATE
  | LP_STATUS_TARGET
  | LP_STATUS_KICKSTAND_READY
  | LP_STATUS_BLOCKER
  | LP_NEXT_EVENT
  | LP_WAKE_AT
  | LP_WAKE_REQ
  | LP_ENTRIES
  | LP_RESIDENCY
  -- Table 16-7. Debug block
  | DBG_CTRL_DEBUG_EN
  | DBG_CTRL_PLANNER_HALT_EN
  | DBG_CTRL_FREEZE_ON
  | DBG_STATUS_TEST_MODE
  | DBG_STATUS_FROZEN
  | DBG_STATUS_HALTED
  | DBG_DUMP_BASE
  | DBG_FREEZE_AT
  | DBG_SNAP_TIME
  | DBG_BUSY_CYCLES
  | DBG_MAC_ROWS
  | DBG_HBM_BYTES
  | DBG_HALL_FLITS
  | DBG_STEPS
  | DBG_IDLE_NS
  | DBG_ERR_ARITH
  | DBG_ERR_ECC_CORR
  | DBG_ERR_ECC_UNCORR
  | DBG_ERR_LINK
  | DBG_SHADOW
  -- Table 16-8. Hub debug registers
  | DBG_PROF_CTRL_EN
  | DBG_PROF_CTRL_WRAP
  | DBG_PROF_CTRL_CTX_ANY
  | DBG_PROF_CTRL_CTX
  | DBG_PROF_CARD
  | DBG_PROF_PTR_HEAD
  | DBG_PROF_PTR_TAIL
  | DBG_PROF_LOST
  | DBG_TRAIL_SEL_PHYS_SLOT
  | DBG_TRAIL_SEL_HUB
  | DBG_TRAIL_STATUS_FROZEN
  | DBG_TRAIL_STATUS_TRIGGER
  | DBG_TRAIL_STATUS_DUMPED
  | DBG_TRAIL_STATUS_NEXT
  | DBG_HALT_HALTED
  | DBG_HALT_DRAINED
  | DBG_HALT_SUMQ_DISCARDED
  | DBG_HALT_NS
  | DBG_DMI_ADDR_ADDR
  | DBG_DMI_ADDR_BUSY
  | DBG_DMI_ADDR_ERROR
  | DBG_DMI_DATA
  | DBG_HUB_STATUS_STATE
  | DBG_HUB_STATUS_RESULT
  | DBG_HUB_STATUS_REASON
  | DBG_BIST_SIG_SEL
  | DBG_BIST_SIG
  | DBG_MBIST_FIRST_MEMORY
  | DBG_MBIST_FIRST_COUNT
  | DBG_MBIST_WORD
  deriving DecidableEq, Repr

/-- The kinds of register block: the Vestibule (absolute address), a hub block (R24), a wing block
(R25), an HBM channel block (R281), a context window (R403), a Spoke link block (R367). -/
inductive Block where
  | vest | hub | wing | chan | win | link
  deriving DecidableEq, Repr

/-- Access codes of Table 0-3 for fields that hold a value. -/
inductive Access where
  | ro | rw | rw1c
  deriving DecidableEq, Repr

/-- Kept-through classes of Table 0-4, from the least severe event to the most severe. -/
inductive Kept where
  | none | ctx | hub | warm | stow | kickstand | all
  deriving DecidableEq, Repr

/-- Who may write a field: the management context, the lead control core, the control core of the
field's own hub, the control core of hub 0 of the field's wing, the Blueprint loader, the driver of
the field's context window. -/
inductive Writer where
  | mgmt | lead | ownHub | wingHub0 | blueprint | driver
  deriving DecidableEq, Repr

/-- One row of a register field table. `own` marks a field whose write has a command of its own. -/
structure FieldRow where
  block : Block
  off : Nat
  count : Nat
  stride : Nat
  hi : Nat
  lo : Nat
  acc : Access
  reset : Nat
  kept : Kept
  writers : List Writer
  own : Bool
  range : Option (Nat × Nat)
  sel : Option Fld
  deriving DecidableEq, Repr

/-- The register field tables of spec/, row by row. For a block of kind `vest` the offset is the
device address itself. -/
def fieldRow : Fld → FieldRow
  -- Table 1-4. HUB_ID
  | .HUB_ID_HUB => ⟨.hub, 0x0, 1, 0, 5, 0, .ro, 0, .warm, [], false, none, none⟩
  | .HUB_ID_WING => ⟨.hub, 0x0, 1, 0, 9, 8, .ro, 0, .warm, [], false, none, none⟩
  | .HUB_ID_MODULE_HUB_INDEX => ⟨.hub, 0x0, 1, 0, 23, 16, .ro, 0, .warm, [], false, none, none⟩
  -- Table 1-5. HUB_REMAP_CTRL
  | .HUB_REMAP_CTRL_ACTIVE_BANK => ⟨.hub, 0x100, 1, 0, 0, 0, .ro, 0, .hub, [.ownHub, .mgmt], false, none, none⟩
  | .HUB_REMAP_CTRL_FLIP_REQ => ⟨.hub, 0x100, 1, 0, 1, 1, .rw, 0, .hub, [.ownHub, .mgmt], true, none, none⟩
  | .HUB_REMAP_CTRL_WRITE_DROPPED => ⟨.hub, 0x100, 1, 0, 2, 2, .rw1c, 0, .hub, [.ownHub, .mgmt], false, none, none⟩
  | .HUB_REMAP_CTRL_FLIP_REJECTED => ⟨.hub, 0x100, 1, 0, 3, 3, .rw1c, 0, .hub, [.ownHub, .mgmt], false, none, none⟩
  | .HUB_REMAP_CTRL_ACTIVE_GEN => ⟨.hub, 0x100, 1, 0, 31, 16, .ro, 1, .hub, [.ownHub, .mgmt], false, none, none⟩
  -- Table 1-6. HUB_REMAP_B0_SLOT and HUB_REMAP_B1_SLOT (instance n)
  | .HUB_REMAP_B0_SLOT_PHYS_SLOT => ⟨.hub, 0x200, 64, 4, 6, 0, .rw, 0, .hub, [.ownHub, .mgmt], true, none, none⟩
  | .HUB_REMAP_B1_SLOT_PHYS_SLOT => ⟨.hub, 0x300, 64, 4, 6, 0, .rw, 0, .hub, [.ownHub, .mgmt], true, none, none⟩
  | .HUB_REMAP_B0_SLOT_VALID => ⟨.hub, 0x200, 64, 4, 7, 7, .rw, 1, .hub, [.ownHub, .mgmt], true, none, none⟩
  | .HUB_REMAP_B1_SLOT_VALID => ⟨.hub, 0x300, 64, 4, 7, 7, .rw, 1, .hub, [.ownHub, .mgmt], true, none, none⟩
  -- Table 1-7. HUB_SLOT_STATE (instance p)
  | .HUB_SLOT_STATE_STATE => ⟨.hub, 0x400, 66, 4, 2, 0, .ro, 0, .hub, [], false, none, none⟩
  | .HUB_SLOT_STATE_FENCED => ⟨.hub, 0x400, 66, 4, 3, 3, .ro, 0, .hub, [], false, none, none⟩
  -- Table 2-12. Vestibule timetable block
  | .TT_CONFIG_RESERVE_PCT => ⟨.vest, 0xff01a00000, 1, 0, 3, 0, .ro, 4, .stow, [.blueprint], false, (some (2, 15)), none⟩
  | .TT_CONFIG_INTAKE_TICK => ⟨.vest, 0xff01a00000, 1, 0, 15, 8, .ro, 0x32, .stow, [.blueprint], false, (some (10, 200)), none⟩
  | .TT_CONFIG_PLAN_LEAD => ⟨.vest, 0xff01a00000, 1, 0, 23, 16, .ro, 0x64, .stow, [.blueprint], false, (some (20, 250)), none⟩
  | .TT_DEFAULT_INTERVAL => ⟨.vest, 0xff01a00008, 1, 0, 31, 0, .ro, 0x4c4b40, .stow, [.blueprint], false, none, none⟩
  | .TT_STEP_NUMBER => ⟨.vest, 0xff01a00010, 1, 0, 63, 0, .ro, 0, .stow, [], false, none, none⟩
  | .TT_STEP_START => ⟨.vest, 0xff01a00018, 1, 0, 63, 0, .ro, 0, .stow, [], false, none, none⟩
  | .TT_STEP_PLANNED_END => ⟨.vest, 0xff01a00020, 1, 0, 63, 0, .ro, 0, .stow, [], false, none, none⟩
  | .TT_LATE_STEPS => ⟨.vest, 0xff01a00028, 1, 0, 31, 0, .ro, 0, .stow, [], false, none, none⟩
  | .TT_REFUSED => ⟨.vest, 0xff01a0002c, 1, 0, 31, 0, .ro, 0, .stow, [], false, none, none⟩
  | .TT_RESERVE_PEAK => ⟨.vest, 0xff01a00030, 1, 0, 15, 0, .ro, 0, .stow, [], false, none, none⟩
  -- Table 2-13. Wing timetable block
  | .WING_TT_CTRL_ACTIVE_BANK => ⟨.wing, 0xe0000, 1, 0, 0, 0, .ro, 0, .hub, [.wingHub0, .lead, .mgmt], false, none, none⟩
  | .WING_TT_CTRL_FLIP_REQ => ⟨.wing, 0xe0000, 1, 0, 1, 1, .rw, 0, .hub, [.wingHub0, .lead, .mgmt], true, none, none⟩
  | .WING_TT_CTRL_FLIP_REJECTED => ⟨.wing, 0xe0000, 1, 0, 2, 2, .rw1c, 0, .hub, [.wingHub0, .lead, .mgmt], false, none, none⟩
  | .WING_TT_CTRL_HOT_REFRESH => ⟨.wing, 0xe0000, 1, 0, 3, 3, .ro, 0, .hub, [.wingHub0, .lead, .mgmt], false, none, none⟩
  | .WING_TT_CTRL_ACTIVE_GEN => ⟨.wing, 0xe0000, 1, 0, 31, 16, .ro, 1, .hub, [.wingHub0, .lead, .mgmt], false, none, none⟩
  | .WING_TT_LOAD_SRC_OFFSET => ⟨.wing, 0xe0004, 1, 0, 22, 6, .rw, 0, .hub, [.wingHub0, .lead, .mgmt], false, none, none⟩
  | .WING_TT_REJECT_HUB => ⟨.wing, 0xe0008, 1, 0, 5, 0, .ro, 0x3f, .hub, [.wingHub0, .lead, .mgmt], false, none, none⟩
  | .WING_TT_REJECT_CHANNEL => ⟨.wing, 0xe0008, 1, 0, 14, 8, .ro, 0x7f, .hub, [.wingHub0, .lead, .mgmt], false, none, none⟩
  | .WING_TT_REJECT_REASON => ⟨.wing, 0xe0008, 1, 0, 19, 16, .ro, 0, .hub, [.wingHub0, .lead, .mgmt], false, none, none⟩
  | .WING_TT_REFRESH_FORCED => ⟨.wing, 0xe000c, 1, 0, 31, 0, .ro, 0, .hub, [.wingHub0, .lead, .mgmt], false, none, none⟩
  -- Table 2-14. Hub timetable registers
  | .HUB_TT_CTRL_ACTIVE_BANK => ⟨.hub, 0x600, 1, 0, 0, 0, .ro, 0, .hub, [.ownHub, .wingHub0, .lead, .mgmt], false, none, none⟩
  | .HUB_TT_CTRL_LOAD_BUSY => ⟨.hub, 0x600, 1, 0, 1, 1, .ro, 0, .hub, [.ownHub, .wingHub0, .lead, .mgmt], false, none, none⟩
  | .HUB_TT_CTRL_LOAD_DONE => ⟨.hub, 0x600, 1, 0, 2, 2, .rw1c, 0, .hub, [.ownHub, .wingHub0, .lead, .mgmt], false, none, none⟩
  | .HUB_TT_CTRL_LOAD_ERROR => ⟨.hub, 0x600, 1, 0, 3, 3, .rw1c, 0, .hub, [.ownHub, .wingHub0, .lead, .mgmt], false, none, none⟩
  | .HUB_TT_CTRL_LOAD_REASON => ⟨.hub, 0x600, 1, 0, 7, 4, .ro, 0, .hub, [.ownHub, .wingHub0, .lead, .mgmt], false, none, none⟩
  | .HUB_TT_CTRL_ACTIVE_GEN => ⟨.hub, 0x600, 1, 0, 31, 16, .ro, 1, .hub, [.ownHub, .wingHub0, .lead, .mgmt], false, none, none⟩
  | .HUB_TT_LOAD_SRC_OFFSET => ⟨.hub, 0x604, 1, 0, 22, 6, .rw, 0, .hub, [.ownHub, .wingHub0, .lead, .mgmt], false, none, none⟩
  | .HUB_TT_SLIP => ⟨.hub, 0x608, 1, 0, 31, 0, .ro, 0, .hub, [.ownHub, .wingHub0, .lead, .mgmt], false, none, none⟩
  -- Table 4-8. Matrix engine register fields
  | .MAT_SEL_PHYS_SLOT => ⟨.hub, 0x800, 1, 0, 6, 0, .rw, 0, .hub, [.ownHub, .mgmt], false, none, none⟩
  | .MAT_CORE_STATUS_BUSY => ⟨.hub, 0x804, 66, 0, 0, 0, .ro, 0, .hub, [.ownHub, .mgmt], false, none, (some .MAT_SEL_PHYS_SLOT)⟩
  | .MAT_CORE_STATUS_REPLAYING => ⟨.hub, 0x804, 66, 0, 1, 1, .ro, 0, .hub, [.ownHub, .mgmt], false, none, (some .MAT_SEL_PHYS_SLOT)⟩
  | .MAT_CORE_STATUS_HELD => ⟨.hub, 0x804, 66, 0, 2, 2, .ro, 0, .hub, [.ownHub, .mgmt], false, none, (some .MAT_SEL_PHYS_SLOT)⟩
  | .MAT_CORE_STATUS_LIVE_CLAMP => ⟨.hub, 0x804, 66, 0, 3, 3, .rw1c, 0, .hub, [.ownHub, .mgmt], false, none, (some .MAT_SEL_PHYS_SLOT)⟩
  | .MAT_CORE_STATUS_RETAIN_WAIT => ⟨.hub, 0x804, 66, 0, 4, 4, .rw1c, 0, .hub, [.ownHub, .mgmt], false, none, (some .MAT_SEL_PHYS_SLOT)⟩
  | .MAT_CORE_STATUS_TILE_FAIL => ⟨.hub, 0x804, 66, 0, 5, 5, .rw1c, 0, .hub, [.ownHub, .mgmt], false, none, (some .MAT_SEL_PHYS_SLOT)⟩
  | .MAT_MISMATCH_CHECKSUM => ⟨.hub, 0x808, 66, 0, 15, 0, .ro, 0, .hub, [.ownHub, .mgmt], false, none, (some .MAT_SEL_PHYS_SLOT)⟩
  | .MAT_MISMATCH_RESIDUE => ⟨.hub, 0x808, 66, 0, 31, 16, .ro, 0, .hub, [.ownHub, .mgmt], false, none, (some .MAT_SEL_PHYS_SLOT)⟩
  | .MAT_REPLAY_CYCLES => ⟨.hub, 0x80c, 66, 0, 31, 0, .ro, 0, .hub, [.ownHub, .mgmt], false, none, (some .MAT_SEL_PHYS_SLOT)⟩
  | .MAT_BUBBLE_FEED => ⟨.hub, 0x810, 66, 0, 31, 0, .ro, 0, .hub, [.ownHub, .mgmt], false, none, (some .MAT_SEL_PHYS_SLOT)⟩
  | .MAT_BUBBLE_DRAIN => ⟨.hub, 0x814, 66, 0, 31, 0, .ro, 0, .hub, [.ownHub, .mgmt], false, none, (some .MAT_SEL_PHYS_SLOT)⟩
  | .MAT_BUBBLE_LIMIT => ⟨.hub, 0x818, 66, 0, 31, 0, .ro, 0, .hub, [.ownHub, .mgmt], false, none, (some .MAT_SEL_PHYS_SLOT)⟩
  | .MAT_SPECIAL_TILES => ⟨.hub, 0x81c, 66, 0, 31, 0, .ro, 0, .hub, [.ownHub, .mgmt], false, none, (some .MAT_SEL_PHYS_SLOT)⟩
  | .FW_BUBBLE_FEED => ⟨.hub, 0x820, 66, 0, 31, 0, .ro, 0, .hub, [.ownHub, .mgmt], false, none, (some .MAT_SEL_PHYS_SLOT)⟩
  | .MAT_RETAIN_WAIT_CYCLES => ⟨.hub, 0x824, 66, 0, 31, 0, .ro, 0, .hub, [.ownHub, .mgmt], false, none, (some .MAT_SEL_PHYS_SLOT)⟩
  | .MAT_HUB_MISMATCH => ⟨.hub, 0x828, 1, 0, 31, 0, .ro, 0, .hub, [], false, none, none⟩
  | .MAT_INJECT_SLOT => ⟨.hub, 0x830, 1, 0, 5, 0, .rw, 0, .hub, [.mgmt], false, none, none⟩
  | .MAT_INJECT_TARGET => ⟨.hub, 0x830, 1, 0, 9, 8, .rw, 0, .hub, [.mgmt], false, none, none⟩
  | .MAT_INJECT_BIT => ⟨.hub, 0x830, 1, 0, 21, 16, .rw, 0, .hub, [.mgmt], false, none, none⟩
  -- Table 5-14. Vector register fields
  | .VEC_SEL_PHYS_SLOT => ⟨.hub, 0x900, 1, 0, 6, 0, .rw, 0, .hub, [.ownHub, .mgmt], false, none, none⟩
  | .VEC_CORE_STATUS_BUSY => ⟨.hub, 0x904, 66, 0, 0, 0, .ro, 0, .hub, [.ownHub, .mgmt], false, none, (some .VEC_SEL_PHYS_SLOT)⟩
  | .VEC_CORE_STATUS_REPLAYING => ⟨.hub, 0x904, 66, 0, 1, 1, .ro, 0, .hub, [.ownHub, .mgmt], false, none, (some .VEC_SEL_PHYS_SLOT)⟩
  | .VEC_CORE_STATUS_HELD => ⟨.hub, 0x904, 66, 0, 2, 2, .ro, 0, .hub, [.ownHub, .mgmt], false, none, (some .VEC_SEL_PHYS_SLOT)⟩
  | .VEC_CORE_STATUS_CHUNK_FAIL => ⟨.hub, 0x904, 66, 0, 3, 3, .rw1c, 0, .hub, [.ownHub, .mgmt], false, none, (some .VEC_SEL_PHYS_SLOT)⟩
  | .VEC_CORE_STATUS_SCALAR_FAULT => ⟨.hub, 0x904, 66, 0, 4, 4, .rw1c, 0, .hub, [.ownHub, .mgmt], false, none, (some .VEC_SEL_PHYS_SLOT)⟩
  | .VEC_CORE_STATUS_TABLE_MISMATCH => ⟨.hub, 0x904, 66, 0, 5, 5, .rw1c, 0, .hub, [.ownHub, .mgmt], false, none, (some .VEC_SEL_PHYS_SLOT)⟩
  | .VEC_CORE_STATUS_INDEX_FAULT => ⟨.hub, 0x904, 66, 0, 6, 6, .rw1c, 0, .hub, [.ownHub, .mgmt], false, none, (some .VEC_SEL_PHYS_SLOT)⟩
  | .VEC_CORE_STATUS_LEN_CLAMP => ⟨.hub, 0x904, 66, 0, 7, 7, .rw1c, 0, .hub, [.ownHub, .mgmt], false, none, (some .VEC_SEL_PHYS_SLOT)⟩
  | .VEC_RESIDUE_VECTOR => ⟨.hub, 0x908, 66, 0, 15, 0, .ro, 0, .hub, [.ownHub, .mgmt], false, none, (some .VEC_SEL_PHYS_SLOT)⟩
  | .VEC_RESIDUE_SFU_RED => ⟨.hub, 0x908, 66, 0, 31, 16, .ro, 0, .hub, [.ownHub, .mgmt], false, none, (some .VEC_SEL_PHYS_SLOT)⟩
  | .VEC_REPLAY_CYCLES => ⟨.hub, 0x90c, 66, 0, 31, 0, .ro, 0, .hub, [.ownHub, .mgmt], false, none, (some .VEC_SEL_PHYS_SLOT)⟩
  | .VEC_SUMMARY_STALL => ⟨.hub, 0x910, 66, 0, 31, 0, .ro, 0, .hub, [.ownHub, .mgmt], false, none, (some .VEC_SEL_PHYS_SLOT)⟩
  | .VEC_SUMQ_STATUS_COUNT => ⟨.hub, 0x914, 1, 0, 9, 0, .ro, 0, .hub, [.ownHub, .mgmt], false, none, none⟩
  | .VEC_COEF_CTRL_ACTIVE_BANK => ⟨.hub, 0x918, 1, 0, 0, 0, .ro, 0, .hub, [.ownHub, .mgmt], false, none, none⟩
  | .VEC_COEF_CTRL_FLIP_REQ => ⟨.hub, 0x918, 1, 0, 1, 1, .rw, 0, .hub, [.ownHub, .mgmt], true, none, none⟩
  | .VEC_COEF_CTRL_FLIP_REJECTED => ⟨.hub, 0x918, 1, 0, 2, 2, .rw1c, 0, .hub, [.ownHub, .mgmt], false, none, none⟩
  | .VEC_COEF_CTRL_LOAD_BUSY => ⟨.hub, 0x918, 1, 0, 3, 3, .ro, 0, .hub, [.ownHub, .mgmt], false, none, none⟩
  | .VEC_COEF_CTRL_LOAD_DONE => ⟨.hub, 0x918, 1, 0, 4, 4, .rw1c, 0, .hub, [.ownHub, .mgmt], false, none, none⟩
  | .VEC_COEF_CTRL_LOAD_ERROR => ⟨.hub, 0x918, 1, 0, 5, 5, .rw1c, 0, .hub, [.ownHub, .mgmt], false, none, none⟩
  | .VEC_COEF_CTRL_LOAD_REASON => ⟨.hub, 0x918, 1, 0, 9, 6, .ro, 0, .hub, [.ownHub, .mgmt], false, none, none⟩
  | .VEC_COEF_CTRL_ACTIVE_GEN => ⟨.hub, 0x918, 1, 0, 31, 16, .ro, 1, .hub, [.ownHub, .mgmt], false, none, none⟩
  | .VEC_COEF_LOAD_SRC_OFFSET => ⟨.hub, 0x91c, 1, 0, 22, 6, .rw, 0, .hub, [.ownHub, .mgmt], false, none, none⟩
  | .VEC_COEF_TAG_ACTIVE_TAG => ⟨.hub, 0x920, 1, 0, 15, 0, .ro, 0, .hub, [.ownHub, .mgmt], false, none, none⟩
  | .VEC_COEF_TAG_INACTIVE_TAG => ⟨.hub, 0x920, 1, 0, 31, 16, .ro, 0, .hub, [.ownHub, .mgmt], false, none, none⟩
  | .VEC_COEF_CORRECTED => ⟨.hub, 0x924, 1, 0, 31, 0, .ro, 0, .hub, [.ownHub, .mgmt], false, none, none⟩
  | .VEC_HUB_RESIDUE => ⟨.hub, 0x928, 1, 0, 31, 0, .ro, 0, .hub, [.ownHub, .mgmt], false, none, none⟩
  | .VEC_SCALAR_VALUE => ⟨.hub, 0xa00, 32, 8, 31, 0, .ro, 0, .none, [], false, none, none⟩
  | .VEC_SCALAR_CTX => ⟨.hub, 0xa00, 32, 8, 37, 32, .ro, 0, .none, [], false, none, none⟩
  | .VEC_SCALAR_SHARED => ⟨.hub, 0xa00, 32, 8, 38, 38, .ro, 0, .none, [], false, none, none⟩
  | .VEC_SCALAR_VALID => ⟨.hub, 0xa00, 32, 8, 39, 39, .ro, 0, .none, [], false, none, none⟩
  -- Table 6-12. Vestibule Larder block
  | .LARDER_CTRL_PARK_RATE => ⟨.vest, 0xff01a20000, 1, 0, 7, 0, .ro, 0x64, .stow, [.blueprint], false, (some (8, 200)), none⟩
  | .LARDER_CTRL_SQUEEZE_PCT => ⟨.vest, 0xff01a20000, 1, 0, 13, 8, .ro, 0x19, .stow, [.blueprint], false, (some (5, 50)), none⟩
  | .LARDER_CTRL_HOST_PARK_EN => ⟨.vest, 0xff01a20000, 1, 0, 16, 16, .ro, 1, .stow, [.blueprint], false, none, none⟩
  | .LARDER_CTRL_PARK_MARGIN => ⟨.vest, 0xff01a20000, 1, 0, 31, 24, .ro, 0x14, .stow, [.blueprint], false, (some (1, 255)), none⟩
  | .LARDER_ROOT_BASE => ⟨.vest, 0xff01a20008, 1, 0, 39, 12, .rw, 0, .stow, [.lead, .mgmt], false, none, none⟩
  | .LARDER_PARKS => ⟨.vest, 0xff01a20010, 1, 0, 31, 0, .ro, 0, .stow, [], false, none, none⟩
  | .LARDER_UNPARKS => ⟨.vest, 0xff01a20014, 1, 0, 31, 0, .ro, 0, .stow, [], false, none, none⟩
  | .LARDER_PARK_CRC_FAIL => ⟨.vest, 0xff01a20018, 1, 0, 31, 0, .ro, 0, .stow, [], false, none, none⟩
  | .LARDER_LAYOUT_LAYERS => ⟨.vest, 0xff01a20100, 16, 8, 8, 0, .rw, 0, .stow, [.lead, .mgmt], false, none, none⟩
  | .LARDER_LAYOUT_LATENT_UNITS => ⟨.vest, 0xff01a20100, 16, 8, 21, 16, .rw, 0, .stow, [.lead, .mgmt], false, none, none⟩
  | .LARDER_LAYOUT_LATENT_FMT => ⟨.vest, 0xff01a20100, 16, 8, 27, 24, .rw, 0, .stow, [.lead, .mgmt], false, none, none⟩
  | .LARDER_LAYOUT_ROPE_UNITS => ⟨.vest, 0xff01a20100, 16, 8, 36, 32, .rw, 0, .stow, [.lead, .mgmt], false, none, none⟩
  | .LARDER_LAYOUT_ROPE_FMT => ⟨.vest, 0xff01a20100, 16, 8, 43, 40, .rw, 0, .stow, [.lead, .mgmt], false, none, none⟩
  | .LARDER_LAYOUT_SLAB_UNITS => ⟨.vest, 0xff01a20100, 16, 8, 55, 48, .ro, 0, .stow, [.lead, .mgmt], false, none, none⟩
  | .LARDER_LAYOUT_VALID => ⟨.vest, 0xff01a20100, 16, 8, 63, 63, .rw, 0, .stow, [.lead, .mgmt], false, none, none⟩
  -- Table 6-13. Wing Larder block
  | .LARDER_POOL_BASE => ⟨.wing, 0xd0000, 1, 0, 27, 0, .rw, 0, .hub, [.lead, .mgmt], false, none, none⟩
  | .LARDER_POOL_LIMIT => ⟨.wing, 0xd0004, 1, 0, 27, 0, .rw, 0, .hub, [.lead, .mgmt], false, none, none⟩
  | .LARDER_PARK_BASE => ⟨.wing, 0xd0008, 1, 0, 27, 0, .rw, 0, .hub, [.lead, .mgmt], false, none, none⟩
  | .LARDER_PARK_LIMIT => ⟨.wing, 0xd000c, 1, 0, 27, 0, .rw, 0, .hub, [.lead, .mgmt], false, none, none⟩
  -- Table 6-14. Hub Larder registers
  | .LARDER_STATUS_BUSY => ⟨.hub, 0xd00, 1, 0, 0, 0, .ro, 0, .hub, [.lead, .mgmt], false, none, none⟩
  | .LARDER_STATUS_CTX_FAULT => ⟨.hub, 0xd00, 1, 0, 1, 1, .rw1c, 0, .hub, [.lead, .mgmt], false, none, none⟩
  | .LARDER_STATUS_MAP_FAULT => ⟨.hub, 0xd00, 1, 0, 2, 2, .rw1c, 0, .hub, [.lead, .mgmt], false, none, none⟩
  | .LARDER_STATUS_FILL_FAULT => ⟨.hub, 0xd00, 1, 0, 3, 3, .rw1c, 0, .hub, [.lead, .mgmt], false, none, none⟩
  | .LARDER_STATUS_RANGE_FAULT => ⟨.hub, 0xd00, 1, 0, 4, 4, .rw1c, 0, .hub, [.lead, .mgmt], false, none, none⟩
  | .LARDER_STATUS_LAYOUT_FAULT => ⟨.hub, 0xd00, 1, 0, 5, 5, .rw1c, 0, .hub, [.lead, .mgmt], false, none, none⟩
  | .LARDER_STATUS_POISON => ⟨.hub, 0xd00, 1, 0, 6, 6, .rw1c, 0, .hub, [.lead, .mgmt], false, none, none⟩
  | .LARDER_FAULT_INFO_SLOT => ⟨.hub, 0xd04, 1, 0, 5, 0, .ro, 0, .hub, [.lead, .mgmt], false, none, none⟩
  | .LARDER_FAULT_INFO_ROW => ⟨.hub, 0xd04, 1, 0, 25, 16, .ro, 0, .hub, [.lead, .mgmt], false, none, none⟩
  | .LARDER_PAGES_READ => ⟨.hub, 0xd08, 1, 0, 31, 0, .ro, 0, .hub, [.lead, .mgmt], false, none, none⟩
  | .LARDER_TOKENS_WRITTEN => ⟨.hub, 0xd0c, 1, 0, 31, 0, .ro, 0, .hub, [.lead, .mgmt], false, none, none⟩
  | .LARDER_PAD_SLOTS => ⟨.hub, 0xd10, 1, 0, 31, 0, .ro, 0, .hub, [.lead, .mgmt], false, none, none⟩
  -- Table 7-14. Context window serving registers
  | .SERVE_CTRL_ENABLE => ⟨.win, 0x0, 1, 0, 0, 0, .rw, 0, .stow, [.driver], true, none, none⟩
  | .SERVE_CTRL_FAULTED => ⟨.win, 0x0, 1, 0, 1, 1, .ro, 0, .stow, [.driver], false, none, none⟩
  | .SERVE_CTRL_BACKLOG => ⟨.win, 0x0, 1, 0, 2, 2, .ro, 0, .stow, [.driver], false, none, none⟩
  | .SERVE_BLOCK_ADDR => ⟨.win, 0x8, 1, 0, 47, 7, .rw, 0, .stow, [.driver], false, none, none⟩
  | .SERVE_INTAKE_BASE => ⟨.win, 0x10, 1, 0, 47, 7, .rw, 0, .stow, [.driver], false, none, none⟩
  | .SERVE_INTAKE_SIZE_LOG2 => ⟨.win, 0x18, 1, 0, 4, 0, .rw, 0, .stow, [.driver], false, none, none⟩
  | .SERVE_EVQ_BASE => ⟨.win, 0x20, 1, 0, 47, 6, .rw, 0, .stow, [.driver], false, none, none⟩
  | .SERVE_EVQ_SIZE_LOG2 => ⟨.win, 0x28, 1, 0, 4, 0, .rw, 0, .stow, [.driver], false, none, none⟩
  | .SERVE_EVQ_SIZE_VECTOR => ⟨.win, 0x28, 1, 0, 26, 16, .rw, 0, .stow, [.driver], false, none, none⟩
  | .SERVE_INTAKE_COUNT => ⟨.win, 0x30, 1, 0, 31, 0, .ro, 0, .stow, [.driver], false, none, none⟩
  | .SERVE_EVQ_COUNT => ⟨.win, 0x34, 1, 0, 31, 0, .ro, 0, .stow, [.driver], false, none, none⟩
  | .SERVE_OPEN_ITEMS => ⟨.win, 0x38, 1, 0, 23, 0, .ro, 0, .stow, [.driver], false, none, none⟩
  | .SERVE_SPILLED => ⟨.win, 0x3c, 1, 0, 31, 0, .ro, 0, .stow, [.driver], false, none, none⟩
  | .SERVE_PARK_BASE => ⟨.win, 0x40, 1, 0, 47, 12, .rw, 0, .stow, [.driver], false, none, none⟩
  | .SERVE_PARK_SIZE => ⟨.win, 0x48, 1, 0, 31, 0, .rw, 0, .stow, [.driver], false, none, none⟩
  -- Table 7-15. Vestibule serving block
  | .SERVE_TICKS => ⟨.vest, 0xff01a60000, 1, 0, 63, 0, .ro, 0, .stow, [], false, none, none⟩
  | .SERVE_RECORDS_READ => ⟨.vest, 0xff01a60008, 1, 0, 31, 0, .ro, 0, .stow, [], false, none, none⟩
  | .SERVE_ACCEPTED => ⟨.vest, 0xff01a6000c, 1, 0, 31, 0, .ro, 0, .stow, [], false, none, none⟩
  | .SERVE_INVALID => ⟨.vest, 0xff01a60010, 1, 0, 31, 0, .ro, 0, .stow, [], false, none, none⟩
  | .SERVE_BACKLOG_TEARDOWNS => ⟨.vest, 0xff01a60014, 1, 0, 31, 0, .ro, 0, .stow, [], false, none, none⟩
  | .SERVE_SESSIONS_OPEN => ⟨.vest, 0xff01a60018, 1, 0, 16, 0, .ro, 0, .stow, [], false, none, none⟩
  | .SERVE_SESSION_LIMIT => ⟨.vest, 0xff01a60100, 64, 4, 16, 0, .rw, 0, .stow, [.mgmt], false, (some (0, 65536)), none⟩
  -- Table 8-9. Vestibule Pannier block
  | .PANNIER_CTRL_ACTIVE_BANK => ⟨.vest, 0xff01a80000, 1, 0, 0, 0, .ro, 0, .stow, [.lead, .mgmt], false, none, none⟩
  | .PANNIER_CTRL_FLIP_REQ => ⟨.vest, 0xff01a80000, 1, 0, 1, 1, .rw, 0, .stow, [.lead, .mgmt], true, none, none⟩
  | .PANNIER_CTRL_FLIP_REJECTED => ⟨.vest, 0xff01a80000, 1, 0, 2, 2, .rw1c, 0, .stow, [.lead, .mgmt], false, none, none⟩
  | .PANNIER_CTRL_WRITE_DROPPED => ⟨.vest, 0xff01a80000, 1, 0, 3, 3, .rw1c, 0, .stow, [.lead, .mgmt], false, none, none⟩
  | .PANNIER_CTRL_COPY_BUSY => ⟨.vest, 0xff01a80000, 1, 0, 4, 4, .ro, 0, .stow, [.lead, .mgmt], false, none, none⟩
  | .PANNIER_CTRL_READY => ⟨.vest, 0xff01a80000, 1, 0, 11, 8, .rw, 0, .stow, [.lead, .mgmt], false, none, none⟩
  | .PANNIER_CTRL_ACTIVE_GEN => ⟨.vest, 0xff01a80000, 1, 0, 31, 16, .ro, 1, .stow, [.lead, .mgmt], false, none, none⟩
  | .PANNIER_LOADS => ⟨.vest, 0xff01a80010, 1, 0, 31, 0, .ro, 0, .stow, [.lead, .mgmt], false, none, none⟩
  | .PANNIER_AUTH_FAIL => ⟨.vest, 0xff01a80014, 1, 0, 31, 0, .ro, 0, .stow, [.lead, .mgmt], false, none, none⟩
  | .PANNIER_OWNER_FAULTS => ⟨.vest, 0xff01a80018, 1, 0, 31, 0, .ro, 0, .stow, [.lead, .mgmt], false, none, none⟩
  | .PANNIER_SLOTS_USED => ⟨.vest, 0xff01a8001c, 1, 0, 14, 0, .ro, 0, .stow, [.lead, .mgmt], false, none, none⟩
  | .TRAIN_JOBS_OPEN => ⟨.vest, 0xff01a80020, 1, 0, 10, 0, .ro, 0, .stow, [.lead, .mgmt], false, none, none⟩
  | .TRAIN_OPT_STEPS => ⟨.vest, 0xff01a80024, 1, 0, 31, 0, .ro, 0, .stow, [.lead, .mgmt], false, none, none⟩
  | .TRAIN_SKIPPED => ⟨.vest, 0xff01a80028, 1, 0, 31, 0, .ro, 0, .stow, [.lead, .mgmt], false, none, none⟩
  | .PANNIER_QUOTA => ⟨.vest, 0xff01a80100, 64, 4, 14, 0, .rw, 0, .stow, [.mgmt], false, (some (0, 16384)), none⟩
  -- Table 8-10. Wing Pannier block
  | .PANNIER_BANK0_BASE => ⟨.wing, 0xc0000, 1, 0, 27, 0, .rw, 0, .hub, [.lead, .mgmt], false, none, none⟩
  | .PANNIER_BANK1_BASE => ⟨.wing, 0xc0004, 1, 0, 27, 0, .rw, 0, .hub, [.lead, .mgmt], false, none, none⟩
  | .PANNIER_STORE_BASE => ⟨.wing, 0xc0008, 1, 0, 27, 0, .rw, 0, .hub, [.lead, .mgmt], false, none, none⟩
  | .PANNIER_STORE_LIMIT => ⟨.wing, 0xc000c, 1, 0, 27, 0, .rw, 0, .hub, [.lead, .mgmt], false, none, none⟩
  | .TRAIN_WS_BASE => ⟨.wing, 0xc0010, 1, 0, 27, 0, .rw, 0, .hub, [.lead, .mgmt], false, none, none⟩
  | .TRAIN_WS_LIMIT => ⟨.wing, 0xc0014, 1, 0, 27, 0, .rw, 0, .hub, [.lead, .mgmt], false, none, none⟩
  -- Table 8-11. Hub Pannier registers
  | .PANNIER_STATUS_FAULT => ⟨.hub, 0xe00, 1, 0, 0, 0, .rw1c, 0, .hub, [.lead, .mgmt], false, none, none⟩
  | .PANNIER_STATUS_REASON => ⟨.hub, 0xe00, 1, 0, 3, 1, .ro, 0, .hub, [.lead, .mgmt], false, none, none⟩
  | .PANNIER_FAULT_INFO_SLOT => ⟨.hub, 0xe04, 1, 0, 13, 0, .ro, 0, .hub, [.lead, .mgmt], false, none, none⟩
  | .PANNIER_FAULT_INFO_CORE => ⟨.hub, 0xe04, 1, 0, 21, 16, .ro, 0, .hub, [.lead, .mgmt], false, none, none⟩
  | .PANNIER_CACHE_MISS => ⟨.hub, 0xe08, 1, 0, 31, 0, .ro, 0, .hub, [.lead, .mgmt], false, none, none⟩
  -- Table 9-9. Hub memory registers
  | .MEM_PANTRY_MODE_CACHE_MIB => ⟨.hub, 0xf00, 1, 0, 3, 0, .ro, 2, .hub, [.blueprint], false, (some (0, 8)), none⟩
  | .MEM_GRANULE_SEL => ⟨.hub, 0xf08, 1, 0, 22, 0, .rw, 0, .hub, [.lead, .ownHub, .mgmt], false, none, none⟩
  | .MEM_GRANULE_INFO_OWNER => ⟨.hub, 0xf0c, 1, 0, 6, 0, .ro, 0x7f, .hub, [.lead, .ownHub, .mgmt], false, none, none⟩
  | .MEM_GRANULE_INFO_WRITTEN => ⟨.hub, 0xf0c, 1, 0, 7, 7, .ro, 0, .hub, [.lead, .ownHub, .mgmt], false, none, none⟩
  | .MEM_STATUS_ADDR_FAULT => ⟨.hub, 0xf10, 1, 0, 0, 0, .rw1c, 0, .hub, [.lead, .ownHub, .mgmt], false, none, none⟩
  | .MEM_STATUS_GRANULE_FAULT => ⟨.hub, 0xf10, 1, 0, 1, 1, .rw1c, 0, .hub, [.lead, .ownHub, .mgmt], false, none, none⟩
  | .MEM_STATUS_LS_UNCORR => ⟨.hub, 0xf10, 1, 0, 2, 2, .rw1c, 0, .hub, [.lead, .ownHub, .mgmt], false, none, none⟩
  | .MEM_STATUS_PANTRY_UNCORR => ⟨.hub, 0xf10, 1, 0, 3, 3, .rw1c, 0, .hub, [.lead, .ownHub, .mgmt], false, none, none⟩
  | .MEM_FAULT_INFO_SLOT => ⟨.hub, 0xf14, 1, 0, 5, 0, .ro, 0, .hub, [.lead, .ownHub, .mgmt], false, none, none⟩
  | .MEM_FAULT_INFO_CTX => ⟨.hub, 0xf14, 1, 0, 13, 8, .ro, 0, .hub, [.lead, .ownHub, .mgmt], false, none, none⟩
  | .MEM_ECC_CORRECTED => ⟨.hub, 0xf18, 1, 0, 31, 0, .ro, 0, .hub, [.lead, .ownHub, .mgmt], false, none, none⟩
  | .MEM_CACHE_HITS => ⟨.hub, 0xf1c, 1, 0, 31, 0, .ro, 0, .hub, [.lead, .ownHub, .mgmt], false, none, none⟩
  | .MEM_RED_REORDER_WAIT => ⟨.hub, 0xf20, 1, 0, 31, 0, .ro, 0, .hub, [.lead, .ownHub, .mgmt], false, none, none⟩
  -- Table 9-10. Wing memory block
  | .HBM_WEIGHT_OFF => ⟨.wing, 0x80000, 1, 0, 18, 0, .rw, 0, .hub, [.lead, .mgmt], false, none, none⟩
  | .HBM_WEIGHT_ROWS => ⟨.wing, 0x80004, 1, 0, 18, 0, .rw, 0, .hub, [.lead, .mgmt], false, none, none⟩
  | .HBM_WEIGHT_CHMASK => ⟨.wing, 0x80008, 1, 0, 95, 0, .rw, 0, .hub, [.lead, .mgmt], false, none, none⟩
  | .HBM_WEIGHT_SPARE => ⟨.wing, 0x80014, 1, 0, 18, 0, .rw, 0, .hub, [.lead, .mgmt], false, none, none⟩
  | .HBM_REFETCH_PEER => ⟨.wing, 0x80018, 4, 4, 11, 0, .rw, 0, .hub, [.lead, .mgmt], false, none, none⟩
  | .HBM_POISON_COUNT => ⟨.wing, 0x80028, 1, 0, 8, 0, .ro, 0, .hub, [.lead, .mgmt], false, none, none⟩
  | .HBM_REBUILDS => ⟨.wing, 0x8002c, 1, 0, 31, 0, .ro, 0, .hub, [.lead, .mgmt], false, none, none⟩
  | .HBM_REFETCHES => ⟨.wing, 0x80030, 1, 0, 31, 0, .ro, 0, .hub, [.lead, .mgmt], false, none, none⟩
  | .HBM_REBUILD_MAX_NS => ⟨.wing, 0x80034, 1, 0, 31, 0, .ro, 0, .hub, [.lead, .mgmt], false, none, none⟩
  -- Table 9-11. HBM channel block
  | .HBM_CH_STATE_STATE => ⟨.chan, 0x0, 1, 0, 1, 0, .ro, 3, .hub, [.lead, .mgmt], false, none, none⟩
  | .HBM_CH_RETRIES => ⟨.chan, 0x4, 1, 0, 31, 0, .ro, 0, .hub, [.lead, .mgmt], false, none, none⟩
  | .HBM_CH_CORRECTED => ⟨.chan, 0x8, 1, 0, 31, 0, .ro, 0, .hub, [.lead, .mgmt], false, none, none⟩
  | .HBM_CH_UNCORR => ⟨.chan, 0xc, 1, 0, 31, 0, .ro, 0, .hub, [.lead, .mgmt], false, none, none⟩
  | .HBM_REPAIR_CTRL_KIND => ⟨.chan, 0x10, 1, 0, 1, 0, .rw, 0, .hub, [.lead, .mgmt], false, none, none⟩
  | .HBM_REPAIR_ADDR => ⟨.chan, 0x14, 1, 0, 31, 0, .rw, 0, .hub, [.lead, .mgmt], false, none, none⟩
  | .HBM_REPAIR_STATUS_BUSY => ⟨.chan, 0x18, 1, 0, 0, 0, .ro, 0, .hub, [.lead, .mgmt], false, none, none⟩
  | .HBM_REPAIR_STATUS_DONE => ⟨.chan, 0x18, 1, 0, 1, 1, .rw1c, 0, .hub, [.lead, .mgmt], false, none, none⟩
  | .HBM_REPAIR_STATUS_FAIL => ⟨.chan, 0x18, 1, 0, 2, 2, .rw1c, 0, .hub, [.lead, .mgmt], false, none, none⟩
  | .HBM_REPAIR_STATUS_SPARES_LEFT => ⟨.chan, 0x18, 1, 0, 15, 8, .ro, 0, .hub, [.lead, .mgmt], false, none, none⟩
  -- Table 10-10. Hub integrity registers
  | .INTEG_SEL_PHYS_SLOT => ⟨.hub, 0x1000, 1, 0, 6, 0, .rw, 0, .hub, [.ownHub, .mgmt], false, none, none⟩
  | .INTEG_CORE_INFO_SKIP => ⟨.hub, 0x1004, 66, 0, 1, 0, .ro, 0, .hub, [], false, none, (some .INTEG_SEL_PHYS_SLOT)⟩
  | .INTEG_CORE_INFO_READMITS => ⟨.hub, 0x1004, 66, 0, 3, 2, .ro, 0, .hub, [], false, none, (some .INTEG_SEL_PHYS_SLOT)⟩
  | .INTEG_CORE_INFO_CLEARED => ⟨.hub, 0x1004, 66, 0, 4, 4, .ro, 0, .hub, [], false, none, (some .INTEG_SEL_PHYS_SLOT)⟩
  | .INTEG_CORE_INFO_RETIRE_PENDING => ⟨.hub, 0x1004, 66, 0, 5, 5, .ro, 0, .hub, [], false, none, (some .INTEG_SEL_PHYS_SLOT)⟩
  | .INTEG_CORE_INFO_UNDER_TEST => ⟨.hub, 0x1004, 66, 0, 6, 6, .ro, 0, .hub, [], false, none, (some .INTEG_SEL_PHYS_SLOT)⟩
  | .INTEG_CORE_INFO_PASS_RUN => ⟨.hub, 0x1004, 66, 0, 31, 16, .ro, 0, .hub, [], false, none, (some .INTEG_SEL_PHYS_SLOT)⟩
  | .INTEG_CMD_STATUS_DONE => ⟨.hub, 0x100c, 1, 0, 0, 0, .rw1c, 0, .hub, [.ownHub, .mgmt], false, none, none⟩
  | .INTEG_CMD_STATUS_REJECTED => ⟨.hub, 0x100c, 1, 0, 1, 1, .rw1c, 0, .hub, [.ownHub, .mgmt], false, none, none⟩
  | .INTEG_CMD_STATUS_REASON => ⟨.hub, 0x100c, 1, 0, 5, 2, .ro, 0, .hub, [.ownHub, .mgmt], false, none, none⟩
  | .INTEG_HUB_STATE => ⟨.hub, 0x1010, 1, 0, 1, 0, .ro, 0, .hub, [.ownHub, .mgmt], false, none, none⟩
  | .INTEG_HUB_OUT => ⟨.hub, 0x1010, 1, 0, 2, 2, .ro, 0, .hub, [.ownHub, .mgmt], false, none, none⟩
  | .INTEG_HUB_FT_STARVED => ⟨.hub, 0x1010, 1, 0, 3, 3, .ro, 0, .hub, [.ownHub, .mgmt], false, none, none⟩
  | .INTEG_HUB_SUSPECTS => ⟨.hub, 0x1010, 1, 0, 15, 8, .ro, 0, .hub, [.ownHub, .mgmt], false, none, none⟩
  | .INTEG_HUB_SERVING => ⟨.hub, 0x1010, 1, 0, 22, 16, .ro, 0x40, .hub, [.ownHub, .mgmt], false, none, none⟩
  | .INTEG_TEST_PASS => ⟨.hub, 0x1014, 1, 0, 31, 0, .ro, 0, .hub, [.ownHub, .mgmt], false, none, none⟩
  | .INTEG_TEST_FAIL => ⟨.hub, 0x1018, 1, 0, 31, 0, .ro, 0, .hub, [.ownHub, .mgmt], false, none, none⟩
  | .INTEG_RESCUES => ⟨.hub, 0x101c, 1, 0, 31, 0, .ro, 0, .hub, [.ownHub, .mgmt], false, none, none⟩
  | .INTEG_HANGS => ⟨.hub, 0x1020, 1, 0, 31, 0, .ro, 0, .hub, [.ownHub, .mgmt], false, none, none⟩
  | .INTEG_HEARTBEAT => ⟨.hub, 0x1024, 1, 0, 31, 0, .ro, 0, .none, [.ownHub, .mgmt], false, none, none⟩
  -- Table 10-11. Vestibule integrity block
  | .INTEG_CONFIG_SUSPECT_WINDOW => ⟨.vest, 0xff01aa0000, 1, 0, 16, 0, .ro, 0xe10, .stow, [.blueprint], false, (some (60, 86400)), none⟩
  | .INTEG_FT_FT_PERIOD => ⟨.vest, 0xff01aa0004, 1, 0, 7, 0, .ro, 0x18, .stow, [.blueprint], false, (some (1, 168)), none⟩
  | .INTEG_FT_ROTATE_EN => ⟨.vest, 0xff01aa0004, 1, 0, 8, 8, .ro, 1, .stow, [.blueprint], false, none, none⟩
  | .INTEG_FT_ROTATE_MIN => ⟨.vest, 0xff01aa0004, 1, 0, 27, 16, .ro, 0x3c, .stow, [.blueprint], false, (some (1, 3600)), none⟩
  | .INTEG_LEAD_LEAD_WING => ⟨.vest, 0xff01aa0008, 1, 0, 1, 0, .ro, 0, .stow, [.blueprint], false, none, none⟩
  | .INTEG_LEAD_SHADOW_WING => ⟨.vest, 0xff01aa0008, 1, 0, 3, 2, .ro, 1, .stow, [], false, none, none⟩
  | .INTEG_LEAD_TAKEOVERS => ⟨.vest, 0xff01aa0008, 1, 0, 15, 8, .ro, 0, .stow, [], false, none, none⟩
  | .INTEG_LEAD_DIVERGES => ⟨.vest, 0xff01aa0008, 1, 0, 31, 16, .ro, 0, .stow, [], false, none, none⟩
  | .INTEG_DERATE_SERVING => ⟨.vest, 0xff01aa000c, 1, 0, 13, 0, .ro, 0x2800, .stow, [], false, none, none⟩
  | .INTEG_DERATE_RATIO => ⟨.vest, 0xff01aa000c, 1, 0, 31, 16, .ro, 0x3e8, .stow, [], false, none, none⟩
  | .CELLAR_NEXT_SEQ => ⟨.vest, 0xff01aa0010, 1, 0, 31, 0, .ro, 0, .stow, [], false, none, none⟩
  | .CELLAR_DROPPED => ⟨.vest, 0xff01aa0014, 1, 0, 31, 0, .ro, 0, .stow, [], false, none, none⟩
  | .CELLAR_STATUS_READY => ⟨.vest, 0xff01aa0018, 1, 0, 0, 0, .ro, 0, .stow, [.lead, .mgmt], false, none, none⟩
  | .CELLAR_STATUS_COPY_FAULT => ⟨.vest, 0xff01aa0018, 1, 0, 1, 1, .rw1c, 0, .stow, [.lead, .mgmt], false, none, none⟩
  | .INTEG_MODULE_EVENTS => ⟨.vest, 0xff01aa001c, 1, 0, 31, 0, .ro, 0, .stow, [], false, none, none⟩
  -- Table 11-7. Vestibule power block
  | .PWR_CAP_CAP_W => ⟨.vest, 0xff01ac0000, 1, 0, 11, 0, .rw, 0xb54, .stow, [.mgmt], true, (some (1000, 3300)), none⟩
  | .PWR_CAP_CAP_PENDING => ⟨.vest, 0xff01ac0000, 1, 0, 16, 16, .ro, 0, .stow, [.mgmt], true, none, none⟩
  | .PWR_CONFIG_THROTTLE_GEAR => ⟨.vest, 0xff01ac0004, 1, 0, 2, 0, .ro, 2, .stow, [.blueprint], false, none, none⟩
  | .PWR_CONFIG_GEAR_CEILING => ⟨.vest, 0xff01ac0004, 1, 0, 6, 4, .ro, 7, .stow, [.blueprint], false, none, none⟩
  | .PWR_CONFIG_ALERT_HOLD => ⟨.vest, 0xff01ac0004, 1, 0, 15, 8, .ro, 0x14, .stow, [.blueprint], false, (some (5, 255)), none⟩
  | .PWR_CONFIG_DISAGREE_PCT => ⟨.vest, 0xff01ac0004, 1, 0, 21, 16, .ro, 0x19, .stow, [.blueprint], false, (some (25, 50)), none⟩
  | .PWR_CONFIG_DISAGREE_WINDOWS => ⟨.vest, 0xff01ac0004, 1, 0, 27, 24, .ro, 3, .stow, [.blueprint], false, (some (3, 8)), none⟩
  | .PWR_CONFIG_FALLBACK_DROP => ⟨.vest, 0xff01ac0004, 1, 0, 29, 28, .ro, 2, .stow, [.blueprint], false, (some (1, 2)), none⟩
  | .PWR_INPUT_VOLTS => ⟨.vest, 0xff01ac0008, 1, 0, 15, 0, .ro, 0, .stow, [], false, none, none⟩
  | .PWR_INPUT_AMPS => ⟨.vest, 0xff01ac0008, 1, 0, 31, 16, .ro, 0, .stow, [], false, none, none⟩
  | .PWR_INPUT_W => ⟨.vest, 0xff01ac000c, 1, 0, 15, 0, .ro, 0, .stow, [], false, none, none⟩
  | .PWR_STATUS_ALERT_ACTIVE => ⟨.vest, 0xff01ac0010, 1, 0, 0, 0, .ro, 0, .stow, [.mgmt], false, none, none⟩
  | .PWR_STATUS_THROTTLE_ACTIVE => ⟨.vest, 0xff01ac0010, 1, 0, 1, 1, .ro, 0, .stow, [.mgmt], false, none, none⟩
  | .PWR_STATUS_ALERT_SEEN => ⟨.vest, 0xff01ac0010, 1, 0, 2, 2, .rw1c, 0, .stow, [.mgmt], false, none, none⟩
  | .PWR_STATUS_THROTTLE_SEEN => ⟨.vest, 0xff01ac0010, 1, 0, 3, 3, .rw1c, 0, .stow, [.mgmt], false, none, none⟩
  | .PWR_STATUS_INLET_HIGH => ⟨.vest, 0xff01ac0010, 1, 0, 4, 4, .ro, 0, .stow, [.mgmt], false, none, none⟩
  | .PWR_ALERT_MAP => ⟨.vest, 0xff01ac0014, 1, 0, 20, 0, .ro, 0, .stow, [], false, none, none⟩
  | .PWR_ALERT_COUNT => ⟨.vest, 0xff01ac0018, 1, 0, 31, 0, .ro, 0, .stow, [], false, none, none⟩
  | .PWR_INLET => ⟨.vest, 0xff01ac001c, 1, 0, 11, 0, .ro, 0, .stow, [], false, none, none⟩
  | .ENERGY_MODULE => ⟨.vest, 0xff01ac0040, 1, 0, 63, 0, .ro, 0, .kickstand, [], false, none, none⟩
  | .ENERGY_ATTRIB => ⟨.vest, 0xff01ac0048, 1, 0, 63, 0, .ro, 0, .stow, [], false, none, none⟩
  | .PWR_METER_CTX_CTX => ⟨.vest, 0xff01ac0080, 8, 16, 5, 0, .rw, 0, .stow, [.mgmt], true, none, none⟩
  | .PWR_METER_CTX_EN => ⟨.vest, 0xff01ac0080, 8, 16, 7, 7, .rw, 0, .stow, [.mgmt], true, none, none⟩
  | .PWR_METER_ENERGY => ⟨.vest, 0xff01ac0088, 8, 16, 63, 0, .ro, 0, .stow, [], false, none, none⟩
  -- Table 11-8. Wing Derailleur block
  | .DRL_GEAR_PLANNED => ⟨.wing, 0xb0000, 1, 0, 2, 0, .ro, 0, .hub, [.mgmt], false, none, none⟩
  | .DRL_GEAR_CURRENT => ⟨.wing, 0xb0000, 1, 0, 6, 4, .ro, 0, .hub, [.mgmt], false, none, none⟩
  | .DRL_GEAR_CEILING => ⟨.wing, 0xb0000, 1, 0, 10, 8, .ro, 7, .hub, [.mgmt], false, none, none⟩
  | .DRL_GEAR_FORCED => ⟨.wing, 0xb0000, 1, 0, 12, 12, .ro, 0, .hub, [.mgmt], false, none, none⟩
  | .DRL_GEAR_THROTTLED => ⟨.wing, 0xb0000, 1, 0, 13, 13, .ro, 0, .hub, [.mgmt], false, none, none⟩
  | .DRL_GEAR_DEFERRED => ⟨.wing, 0xb0000, 1, 0, 14, 14, .ro, 0, .hub, [.mgmt], false, none, none⟩
  | .DRL_GEAR_CEILING_PENDING => ⟨.wing, 0xb0000, 1, 0, 15, 15, .ro, 0, .hub, [.mgmt], false, none, none⟩
  | .DRL_RAIL_CAP_AMPS => ⟨.wing, 0xb0004, 1, 0, 9, 0, .rw, 0x21c, .hub, [.mgmt], false, (some (100, 600)), none⟩
  | .DRL_EST_STATE => ⟨.wing, 0xb0008, 1, 0, 1, 0, .ro, 0, .hub, [.mgmt], false, none, none⟩
  | .DRL_EST_MISSES => ⟨.wing, 0xb0008, 1, 0, 5, 2, .ro, 0, .hub, [.mgmt], false, none, none⟩
  | .DRL_K => ⟨.wing, 0xb000c, 1, 0, 17, 0, .ro, 0x10000, .hub, [.mgmt], false, none, none⟩
  | .DRL_DISAGREE => ⟨.wing, 0xb0010, 1, 0, 9, 0, .ro, 0, .hub, [.mgmt], false, none, none⟩
  | .DRL_VCORE_MILLIVOLTS => ⟨.wing, 0xb0014, 1, 0, 9, 0, .ro, 0, .hub, [.mgmt], false, none, none⟩
  | .DRL_VCORE_AMPS => ⟨.wing, 0xb0014, 1, 0, 25, 16, .ro, 0, .hub, [.mgmt], false, none, none⟩
  | .DRL_LIMIT_NS => ⟨.wing, 0xb0018, 1, 0, 31, 0, .ro, 0, .hub, [.mgmt], false, none, none⟩
  | .DRL_DEFERRED_COUNT => ⟨.wing, 0xb001c, 1, 0, 31, 0, .ro, 0, .hub, [.mgmt], false, none, none⟩
  | .DRL_TEMP => ⟨.wing, 0xb0020, 1, 0, 11, 0, .ro, 0, .hub, [.mgmt], false, none, none⟩
  | .DRL_STACK_TEMP => ⟨.wing, 0xb0024, 3, 4, 11, 0, .ro, 0, .hub, [.mgmt], false, none, none⟩
  -- Table 11-9. Hub power registers
  | .HUB_PWR_TRIM_STEPS => ⟨.hub, 0x1100, 1, 0, 2, 0, .rw, 0, .hub, [.ownHub, .mgmt], false, (some (0, 6)), none⟩
  | .HUB_PWR_TEMP => ⟨.hub, 0x1104, 1, 0, 11, 0, .ro, 0, .hub, [], false, none, none⟩
  -- Table 12-10. Vestibule fabric block
  | .SPOKE_FAB_CFG_SIZE_X => ⟨.vest, 0xff01b00000, 1, 0, 3, 0, .ro, 0, .stow, [.blueprint], false, none, none⟩
  | .SPOKE_FAB_CFG_SIZE_Y => ⟨.vest, 0xff01b00000, 1, 0, 7, 4, .ro, 0, .stow, [.blueprint], false, none, none⟩
  | .SPOKE_FAB_CFG_WRAP => ⟨.vest, 0xff01b00000, 1, 0, 10, 8, .ro, 0, .stow, [.blueprint], false, none, none⟩
  | .SPOKE_FAB_CFG_SIZE_Z => ⟨.vest, 0xff01b00000, 1, 0, 15, 12, .ro, 0, .stow, [.blueprint], false, none, none⟩
  | .SPOKE_FAB_CFG_GM_PRIORITY => ⟨.vest, 0xff01b00000, 1, 0, 23, 16, .ro, 0xff, .stow, [.blueprint], false, none, none⟩
  | .SPOKE_FAB_CFG_FLIP_PERIOD => ⟨.vest, 0xff01b00000, 1, 0, 31, 24, .ro, 0xa, .stow, [.blueprint], false, (some (1, 100)), none⟩
  | .SPOKE_FAB_ADDR_ADDR => ⟨.vest, 0xff01b00004, 1, 0, 11, 0, .rw, 0, .stow, [.mgmt], true, none, none⟩
  | .SPOKE_FAB_ADDR_ASSIGNED => ⟨.vest, 0xff01b00004, 1, 0, 12, 12, .ro, 0, .stow, [.mgmt], true, none, none⟩
  | .SPOKE_FAB_ADDR_EPOCH => ⟨.vest, 0xff01b00004, 1, 0, 31, 16, .ro, 0, .stow, [.mgmt], true, none, none⟩
  | .SPOKE_FAB_STATUS_STATE => ⟨.vest, 0xff01b00008, 1, 0, 2, 0, .ro, 0, .stow, [.mgmt, .lead], false, none, none⟩
  | .SPOKE_FAB_STATUS_SETTLED => ⟨.vest, 0xff01b00008, 1, 0, 3, 3, .ro, 0, .stow, [.mgmt, .lead], false, none, none⟩
  | .SPOKE_FAB_STATUS_CAD_STATE => ⟨.vest, 0xff01b00008, 1, 0, 6, 4, .ro, 0, .stow, [.mgmt, .lead], false, none, none⟩
  | .SPOKE_FAB_STATUS_HOPS_EXCEEDED => ⟨.vest, 0xff01b00008, 1, 0, 7, 7, .ro, 0, .stow, [.mgmt, .lead], false, none, none⟩
  | .SPOKE_FAB_STATUS_CMD_REJECTED => ⟨.vest, 0xff01b00008, 1, 0, 8, 8, .rw1c, 0, .stow, [.mgmt, .lead], false, none, none⟩
  | .SPOKE_CAD_OFFSET => ⟨.vest, 0xff01b00010, 1, 0, 31, 0, .ro, 0, .stow, [], false, none, none⟩
  | .SPOKE_CAD_UPSTREAM_LINK => ⟨.vest, 0xff01b00014, 1, 0, 2, 0, .ro, 7, .stow, [], false, none, none⟩
  | .SPOKE_CAD_UPSTREAM_HOPS => ⟨.vest, 0xff01b00014, 1, 0, 13, 8, .ro, 0, .stow, [], false, none, none⟩
  | .SPOKE_CAD_UPSTREAM_GM => ⟨.vest, 0xff01b00014, 1, 0, 27, 16, .ro, 0, .stow, [], false, none, none⟩
  | .SPOKE_DROP_STALE_SRC => ⟨.vest, 0xff01b00018, 1, 0, 31, 0, .ro, 0, .stow, [], false, none, none⟩
  | .SPOKE_DROP_STALE_DST => ⟨.vest, 0xff01b0001c, 1, 0, 31, 0, .ro, 0, .stow, [], false, none, none⟩
  | .SPOKE_DROP_ROUTE => ⟨.vest, 0xff01b00020, 1, 0, 31, 0, .ro, 0, .stow, [], false, none, none⟩
  | .SPOKE_DROP_OWNER => ⟨.vest, 0xff01b00024, 1, 0, 31, 0, .ro, 0, .stow, [], false, none, none⟩
  | .SPOKE_TT_FLIP_AT => ⟨.vest, 0xff01b00028, 1, 0, 63, 0, .rw, 0, .stow, [.lead], false, none, none⟩
  | .SPOKE_TT_CTRL_ACTIVE_BANK => ⟨.vest, 0xff01b00030, 1, 0, 0, 0, .ro, 0, .stow, [.lead], false, none, none⟩
  | .SPOKE_TT_CTRL_FLIP_REQ => ⟨.vest, 0xff01b00030, 1, 0, 1, 1, .rw, 0, .stow, [.lead], true, none, none⟩
  | .SPOKE_TT_CTRL_FLIP_REJECTED => ⟨.vest, 0xff01b00030, 1, 0, 2, 2, .rw1c, 0, .stow, [.lead], false, none, none⟩
  | .SPOKE_TT_CTRL_LOAD_ERROR => ⟨.vest, 0xff01b00030, 1, 0, 3, 3, .rw1c, 0, .stow, [.lead], false, none, none⟩
  | .SPOKE_TT_CTRL_LOADED => ⟨.vest, 0xff01b00030, 1, 0, 10, 4, .ro, 0, .stow, [.lead], false, none, none⟩
  | .SPOKE_TT_CTRL_ACTIVE_GEN => ⟨.vest, 0xff01b00030, 1, 0, 31, 16, .ro, 1, .stow, [.lead], false, none, none⟩
  | .SPOKE_TT_LOAD_SRC => ⟨.vest, 0xff01b00038, 1, 0, 51, 6, .rw, 0, .stow, [.lead], false, none, none⟩
  | .SPOKE_TT_LOAD_TABLE => ⟨.vest, 0xff01b00038, 1, 0, 58, 56, .rw, 0, .stow, [.lead], false, none, none⟩
  | .SPOKE_CREDIT_POOL => ⟨.vest, 0xff01b00400, 512, 4, 9, 0, .rw, 0, .stow, [.lead], false, (some (0, 512)), none⟩
  -- Table 12-11. Link block
  | .SPOKE_LINK_STATE_STATE => ⟨.link, 0x0, 1, 0, 2, 0, .ro, 0, .stow, [.mgmt], false, none, none⟩
  | .SPOKE_LINK_STATE_LANES => ⟨.link, 0x0, 1, 0, 7, 4, .ro, 0, .stow, [.mgmt], false, none, none⟩
  | .SPOKE_LINK_STATE_LANE_MASK => ⟨.link, 0x0, 1, 0, 15, 8, .ro, 0, .stow, [.mgmt], false, none, none⟩
  | .SPOKE_LINK_STATE_PEER => ⟨.link, 0x0, 1, 0, 27, 16, .ro, 0, .stow, [.mgmt], false, none, none⟩
  | .SPOKE_LINK_DELAY => ⟨.link, 0x4, 1, 0, 15, 0, .ro, 0, .stow, [.mgmt], false, none, none⟩
  | .SPOKE_FEC_CORRECTED => ⟨.link, 0x8, 1, 0, 31, 0, .ro, 0, .stow, [.mgmt], false, none, none⟩
  | .SPOKE_FEC_UNCORR => ⟨.link, 0xc, 1, 0, 31, 0, .ro, 0, .stow, [.mgmt], false, none, none⟩
  | .SPOKE_RETX => ⟨.link, 0x10, 1, 0, 31, 0, .ro, 0, .stow, [.mgmt], false, none, none⟩
  | .SPOKE_RETRAINS => ⟨.link, 0x14, 1, 0, 31, 0, .ro, 0, .stow, [.mgmt], false, none, none⟩
  | .SPOKE_LANE_SER => ⟨.link, 0x20, 8, 4, 31, 0, .ro, 0, .stow, [.mgmt], false, none, none⟩
  -- Table 12-12. Epoch table entry
  | .EPOCH_ENTRY_EPOCH => ⟨.vest, 0xff01b20000, 4096, 4, 15, 0, .ro, 0, .stow, [], false, none, none⟩
  | .EPOCH_ENTRY_STATE => ⟨.vest, 0xff01b20000, 4096, 4, 17, 16, .ro, 0, .stow, [], false, none, none⟩
  -- Table 13-10. Context block
  | .CTX_CMD_STATUS_BUSY => ⟨.vest, 0xff01b40004, 1, 0, 0, 0, .ro, 0, .stow, [.mgmt], false, none, none⟩
  | .CTX_CMD_STATUS_DONE => ⟨.vest, 0xff01b40004, 1, 0, 1, 1, .rw1c, 0, .stow, [.mgmt], false, none, none⟩
  | .CTX_CMD_STATUS_CMD_REJECTED => ⟨.vest, 0xff01b40004, 1, 0, 2, 2, .rw1c, 0, .stow, [.mgmt], false, none, none⟩
  | .CTX_CMD_STATUS_REASON => ⟨.vest, 0xff01b40004, 1, 0, 7, 4, .ro, 0, .stow, [.mgmt], false, none, none⟩
  | .CTX_WINDOW_OPEN => ⟨.vest, 0xff01b40008, 1, 0, 0, 0, .ro, 0, .stow, [], false, none, none⟩
  | .CTX_WINDOW_CTX => ⟨.vest, 0xff01b40008, 1, 0, 13, 8, .ro, 0, .stow, [], false, none, none⟩
  | .CTX_WINDOWS => ⟨.vest, 0xff01b4000c, 1, 0, 31, 0, .ro, 0, .stow, [], false, none, none⟩
  | .CTX_SWITCH_NS_MAX => ⟨.vest, 0xff01b40010, 1, 0, 31, 0, .ro, 0, .stow, [], false, none, none⟩
  | .CTX_PREEMPT_WAIT_MAX => ⟨.vest, 0xff01b40014, 1, 0, 31, 0, .ro, 0, .stow, [], false, none, none⟩
  | .CTX_CONFIG_WINDOW_MAX => ⟨.vest, 0xff01b40018, 1, 0, 16, 0, .ro, 0x4e20, .stow, [.blueprint], false, (some (1000, 100000)), none⟩
  | .CTX_CONFIG_SWITCH_SLOTS => ⟨.vest, 0xff01b40018, 1, 0, 20, 17, .ro, 4, .stow, [.blueprint], false, (some (1, 16)), none⟩
  | .CTX_TEARDOWNS => ⟨.vest, 0xff01b4001c, 1, 0, 31, 0, .ro, 0, .stow, [], false, none, none⟩
  | .CTX_STATE_STATE => ⟨.vest, 0xff01b40100, 64, 4, 1, 0, .ro, 0, .stow, [], false, none, none⟩
  | .CTX_STATE_CLASS => ⟨.vest, 0xff01b40100, 64, 4, 2, 2, .ro, 0, .stow, [], false, none, none⟩
  | .CTX_STATE_IDE_READY => ⟨.vest, 0xff01b40100, 64, 4, 3, 3, .ro, 0, .stow, [], false, none, none⟩
  | .CTX_STATE_SLOT => ⟨.vest, 0xff01b40100, 64, 4, 7, 4, .ro, 0, .stow, [], false, none, none⟩
  | .CTX_STATE_KEYS => ⟨.vest, 0xff01b40100, 64, 4, 11, 8, .ro, 0, .kickstand, [], false, none, none⟩
  | .CTX_STATE_PENDING => ⟨.vest, 0xff01b40100, 64, 4, 15, 12, .ro, 0, .kickstand, [], false, none, none⟩
  -- Table 13-11. Hub context registers
  | .HUB_SEM_HELD => ⟨.hub, 0x1200, 16, 4, 0, 0, .ro, 0, .hub, [], false, none, none⟩
  | .HUB_SEM_CTX => ⟨.hub, 0x1200, 16, 4, 13, 8, .ro, 0, .hub, [], false, none, none⟩
  | .HUB_SEM_CORES => ⟨.hub, 0x1200, 16, 4, 22, 16, .ro, 0, .hub, [], false, none, none⟩
  | .HUB_SEM_ARRIVED => ⟨.hub, 0x1200, 16, 4, 30, 24, .ro, 0, .hub, [], false, none, none⟩
  | .HUB_SEM_STATUS_SEM_FAULT => ⟨.hub, 0x1240, 1, 0, 0, 0, .rw1c, 0, .hub, [.ownHub, .mgmt], false, none, none⟩
  | .HUB_SEM_STATUS_SEM => ⟨.hub, 0x1240, 1, 0, 7, 4, .ro, 0, .hub, [.ownHub, .mgmt], false, none, none⟩
  | .HUB_SWITCH_BASE => ⟨.hub, 0x1244, 1, 0, 27, 0, .rw, 0, .hub, [.lead], false, none, none⟩
  -- Table 14-9. Context window registers
  | .CTXWIN_INFO_CTX => ⟨.win, 0x100, 1, 0, 5, 0, .ro, 0, .stow, [], false, none, none⟩
  | .CTXWIN_INFO_CLASS => ⟨.win, 0x100, 1, 0, 8, 8, .ro, 0, .stow, [], false, none, none⟩
  | .CTXWIN_INFO_STATE => ⟨.win, 0x100, 1, 0, 11, 10, .ro, 0, .stow, [], false, none, none⟩
  | .CTXWIN_INFO_IDE_READY => ⟨.win, 0x100, 1, 0, 12, 12, .ro, 0, .stow, [], false, none, none⟩
  | .CTXWIN_CADENCE => ⟨.win, 0x108, 1, 0, 63, 0, .ro, 0, .stow, [], false, none, none⟩
  | .MBX_CTRL_IN_FULL => ⟨.win, 0x400, 2, 4, 2, 2, .ro, 0, .stow, [.driver], false, none, none⟩
  | .MBX_CTRL_OUT_BUSY => ⟨.win, 0x400, 2, 4, 3, 3, .ro, 0, .stow, [.driver], false, none, none⟩
  | .MBX_CTRL_OVERRUN => ⟨.win, 0x400, 2, 4, 4, 4, .rw1c, 0, .stow, [.driver], false, none, none⟩
  -- Table 14-10. PCI Express block
  | .PCIE_LINK_WIDTH => ⟨.vest, 0xff01b60000, 1, 0, 4, 0, .ro, 0, .stow, [], false, none, none⟩
  | .PCIE_LINK_RATE => ⟨.vest, 0xff01b60000, 1, 0, 10, 8, .ro, 0, .stow, [], false, none, none⟩
  | .PCIE_LINK_FLIT => ⟨.vest, 0xff01b60000, 1, 0, 11, 11, .ro, 0, .stow, [], false, none, none⟩
  | .PCIE_LINK_UP => ⟨.vest, 0xff01b60000, 1, 0, 12, 12, .ro, 0, .stow, [], false, none, none⟩
  | .PCIE_LINK_DEGRADED => ⟨.vest, 0xff01b60000, 1, 0, 13, 13, .ro, 0, .stow, [], false, none, none⟩
  | .PCIE_ERR_CORR => ⟨.vest, 0xff01b60004, 1, 0, 31, 0, .ro, 0, .stow, [], false, none, none⟩
  | .PCIE_ERR_UNCORR => ⟨.vest, 0xff01b60008, 1, 0, 31, 0, .ro, 0, .stow, [], false, none, none⟩
  | .PCIE_CPL_TIMEOUT => ⟨.vest, 0xff01b6000c, 1, 0, 31, 0, .ro, 0, .stow, [], false, none, none⟩
  | .PCIE_LINK_DOWNS => ⟨.vest, 0xff01b60010, 1, 0, 31, 0, .ro, 0, .stow, [], false, none, none⟩
  | .PCIE_IDE_FAIL => ⟨.vest, 0xff01b60014, 1, 0, 31, 0, .ro, 0, .stow, [], false, none, none⟩
  -- Table 14-11. Event controller block
  | .EVC_STATUS_CELLAR => ⟨.vest, 0xff01b80000, 1, 0, 0, 0, .rw1c, 0, .stow, [.mgmt], false, none, none⟩
  | .EVC_STATUS_CTX => ⟨.vest, 0xff01b80000, 1, 0, 1, 1, .rw1c, 0, .stow, [.mgmt], false, none, none⟩
  | .EVC_STATUS_LINK => ⟨.vest, 0xff01b80000, 1, 0, 2, 2, .rw1c, 0, .stow, [.mgmt], false, none, none⟩
  | .EVC_STATUS_POWER => ⟨.vest, 0xff01b80000, 1, 0, 3, 3, .rw1c, 0, .stow, [.mgmt], false, none, none⟩
  | .EVC_MBX_PENDING => ⟨.vest, 0xff01b80008, 1, 0, 63, 1, .rw1c, 0, .stow, [.mgmt], false, none, none⟩
  | .EVC_ROUTE_MODULE => ⟨.vest, 0xff01b80010, 1, 0, 31, 0, .rw, 1, .stow, [.mgmt], false, none, none⟩
  | .EVC_ROUTE_MBX => ⟨.vest, 0xff01b80014, 1, 0, 31, 0, .rw, 1, .stow, [.mgmt], false, none, none⟩
  | .EVC_REARM_POLL => ⟨.vest, 0xff01b80018, 1, 0, 5, 0, .rw, 5, .stow, [.mgmt], false, (some (1, 50)), none⟩
  | .EVC_FILTER_THROTTLE => ⟨.vest, 0xff01b8001c, 1, 0, 9, 0, .ro, 0x14, .kickstand, [.blueprint], false, (some (2, 1023)), none⟩
  | .EVC_INPUTS_THROTTLE => ⟨.vest, 0xff01b80020, 1, 0, 0, 0, .ro, 0, .kickstand, [], false, none, none⟩
  | .EVC_INPUTS_PERST => ⟨.vest, 0xff01b80020, 1, 0, 1, 1, .ro, 0, .kickstand, [], false, none, none⟩
  | .EVC_INPUTS_SLOT_ID => ⟨.vest, 0xff01b80020, 1, 0, 13, 8, .ro, 0, .kickstand, [], false, none, none⟩
  | .EVC_GLITCHES => ⟨.vest, 0xff01b80024, 1, 0, 31, 0, .ro, 0, .kickstand, [], false, none, none⟩
  | .EVC_MOD => ⟨.vest, 0xff01b80100, 32, 4, 9, 0, .rw, 0, .stow, [.mgmt], false, (some (0, 1000)), none⟩
  -- Table 14-12. Management block
  | .MGMT_I3C_DYN_ADDR => ⟨.vest, 0xff01ba0000, 1, 0, 6, 0, .ro, 0, .kickstand, [], false, none, none⟩
  | .MGMT_I3C_ADDR_VALID => ⟨.vest, 0xff01ba0000, 1, 0, 7, 7, .ro, 0, .kickstand, [], false, none, none⟩
  | .MGMT_I3C_EID => ⟨.vest, 0xff01ba0000, 1, 0, 15, 8, .ro, 0, .kickstand, [], false, none, none⟩
  | .MGMT_I3C_RECEIVER_SET => ⟨.vest, 0xff01ba0000, 1, 0, 16, 16, .ro, 0, .kickstand, [], false, none, none⟩
  | .MGMT_EVENTS_PENDING => ⟨.vest, 0xff01ba0004, 1, 0, 12, 0, .ro, 0, .kickstand, [], false, none, none⟩
  | .MGMT_UPDATE_STATE => ⟨.vest, 0xff01ba0008, 1, 0, 2, 0, .ro, 0, .kickstand, [], false, none, none⟩
  | .MGMT_UPDATE_IMAGE => ⟨.vest, 0xff01ba0008, 1, 0, 4, 4, .ro, 0, .kickstand, [], false, none, none⟩
  -- Table 15-14. Start-up block
  | .BOOT_STATUS_PHASE => ⟨.vest, 0xff01bc0000, 1, 0, 3, 0, .ro, 0, .kickstand, [], false, none, none⟩
  | .BOOT_STATUS_IMAGE => ⟨.vest, 0xff01bc0000, 1, 0, 4, 4, .ro, 0, .kickstand, [], false, none, none⟩
  | .BOOT_STATUS_FALLBACK => ⟨.vest, 0xff01bc0000, 1, 0, 5, 5, .ro, 0, .kickstand, [], false, none, none⟩
  | .BOOT_STATUS_ROOT_KEY => ⟨.vest, 0xff01bc0000, 1, 0, 6, 6, .ro, 0, .kickstand, [], false, none, none⟩
  | .BOOT_STATUS_RECOVERY => ⟨.vest, 0xff01bc0000, 1, 0, 7, 7, .ro, 0, .kickstand, [], false, none, none⟩
  | .BOOT_STATUS_FAIL_CHECK => ⟨.vest, 0xff01bc0000, 1, 0, 15, 8, .ro, 0, .kickstand, [], false, none, none⟩
  | .BOOT_COUNT => ⟨.vest, 0xff01bc0004, 1, 0, 31, 0, .ro, 0, .kickstand, [], false, none, none⟩
  | .BOOT_MS => ⟨.vest, 0xff01bc0008, 1, 0, 15, 0, .ro, 0, .kickstand, [], false, none, none⟩
  | .RESET_STATUS_LAST_KIND => ⟨.vest, 0xff01bc0014, 1, 0, 2, 0, .ro, 4, .kickstand, [.mgmt], false, none, none⟩
  | .RESET_STATUS_BUSY => ⟨.vest, 0xff01bc0014, 1, 0, 3, 3, .ro, 0, .kickstand, [.mgmt], false, none, none⟩
  | .RESET_STATUS_REJECTED => ⟨.vest, 0xff01bc0014, 1, 0, 4, 4, .rw1c, 0, .kickstand, [.mgmt], false, none, none⟩
  | .LP_CONFIG_CEILING => ⟨.vest, 0xff01bc0020, 1, 0, 1, 0, .ro, 2, .stow, [.blueprint], false, none, none⟩
  | .LP_CONFIG_MARGIN => ⟨.vest, 0xff01bc0020, 1, 0, 19, 4, .ro, 0x3e8, .stow, [.blueprint], false, (some (100, 50000)), none⟩
  | .LP_CONFIG_IDLE_MIN => ⟨.vest, 0xff01bc0020, 1, 0, 31, 24, .ro, 5, .stow, [.blueprint], false, (some (1, 255)), none⟩
  | .LP_CTRL_HOLD => ⟨.vest, 0xff01bc0024, 1, 0, 0, 0, .rw, 0, .stow, [.mgmt], false, none, none⟩
  | .LP_STATUS_STATE => ⟨.vest, 0xff01bc0028, 1, 0, 2, 0, .ro, 1, .kickstand, [], false, none, none⟩
  | .LP_STATUS_TARGET => ⟨.vest, 0xff01bc0028, 1, 0, 6, 4, .ro, 1, .kickstand, [], false, none, none⟩
  | .LP_STATUS_KICKSTAND_READY => ⟨.vest, 0xff01bc0028, 1, 0, 8, 8, .ro, 0, .kickstand, [], false, none, none⟩
  | .LP_STATUS_BLOCKER => ⟨.vest, 0xff01bc0028, 1, 0, 15, 12, .ro, 0, .kickstand, [], false, none, none⟩
  | .LP_NEXT_EVENT => ⟨.vest, 0xff01bc0030, 1, 0, 63, 0, .ro, 0xffffffffffffffff, .stow, [], false, none, none⟩
  | .LP_WAKE_AT => ⟨.vest, 0xff01bc0038, 1, 0, 63, 0, .ro, 0, .kickstand, [], false, none, none⟩
  | .LP_WAKE_REQ => ⟨.vest, 0xff01bc0040, 1, 0, 63, 0, .rw, 0, .stow, [.mgmt], false, none, none⟩
  | .LP_ENTRIES => ⟨.vest, 0xff01bc0048, 3, 4, 31, 0, .ro, 0, .kickstand, [], false, none, none⟩
  | .LP_RESIDENCY => ⟨.vest, 0xff01bc0060, 3, 8, 63, 0, .ro, 0, .kickstand, [], false, none, none⟩
  -- Table 16-7. Debug block
  | .DBG_CTRL_DEBUG_EN => ⟨.vest, 0xff01be0000, 1, 0, 0, 0, .rw, 0, .stow, [.mgmt], false, none, none⟩
  | .DBG_CTRL_PLANNER_HALT_EN => ⟨.vest, 0xff01be0000, 1, 0, 1, 1, .rw, 0, .stow, [.mgmt], false, none, none⟩
  | .DBG_CTRL_FREEZE_ON => ⟨.vest, 0xff01be0000, 1, 0, 20, 16, .rw, 0xf, .stow, [.mgmt], false, none, none⟩
  | .DBG_STATUS_TEST_MODE => ⟨.vest, 0xff01be0004, 1, 0, 0, 0, .ro, 0, .stow, [], false, none, none⟩
  | .DBG_STATUS_FROZEN => ⟨.vest, 0xff01be0004, 1, 0, 1, 1, .ro, 0, .stow, [], false, none, none⟩
  | .DBG_STATUS_HALTED => ⟨.vest, 0xff01be0004, 1, 0, 2, 2, .ro, 0, .stow, [], false, none, none⟩
  | .DBG_DUMP_BASE => ⟨.vest, 0xff01be0008, 1, 0, 39, 12, .rw, 0, .stow, [.mgmt], false, none, none⟩
  | .DBG_FREEZE_AT => ⟨.vest, 0xff01be0010, 1, 0, 63, 0, .ro, 0, .stow, [], false, none, none⟩
  | .DBG_SNAP_TIME => ⟨.vest, 0xff01be0020, 1, 0, 63, 0, .ro, 0, .stow, [], false, none, none⟩
  | .DBG_BUSY_CYCLES => ⟨.vest, 0xff01be0040, 1, 0, 63, 0, .ro, 0, .stow, [], false, none, none⟩
  | .DBG_MAC_ROWS => ⟨.vest, 0xff01be0048, 1, 0, 63, 0, .ro, 0, .stow, [], false, none, none⟩
  | .DBG_HBM_BYTES => ⟨.vest, 0xff01be0050, 1, 0, 63, 0, .ro, 0, .stow, [], false, none, none⟩
  | .DBG_HALL_FLITS => ⟨.vest, 0xff01be0058, 1, 0, 63, 0, .ro, 0, .stow, [], false, none, none⟩
  | .DBG_STEPS => ⟨.vest, 0xff01be0060, 1, 0, 63, 0, .ro, 0, .stow, [], false, none, none⟩
  | .DBG_IDLE_NS => ⟨.vest, 0xff01be0068, 1, 0, 63, 0, .ro, 0, .stow, [], false, none, none⟩
  | .DBG_ERR_ARITH => ⟨.vest, 0xff01be0070, 1, 0, 63, 0, .ro, 0, .stow, [], false, none, none⟩
  | .DBG_ERR_ECC_CORR => ⟨.vest, 0xff01be0078, 1, 0, 63, 0, .ro, 0, .stow, [], false, none, none⟩
  | .DBG_ERR_ECC_UNCORR => ⟨.vest, 0xff01be0080, 1, 0, 63, 0, .ro, 0, .stow, [], false, none, none⟩
  | .DBG_ERR_LINK => ⟨.vest, 0xff01be0088, 1, 0, 63, 0, .ro, 0, .stow, [], false, none, none⟩
  | .DBG_SHADOW => ⟨.vest, 0xff01be0140, 10, 8, 63, 0, .ro, 0, .stow, [], false, none, none⟩
  -- Table 16-8. Hub debug registers
  | .DBG_PROF_CTRL_EN => ⟨.hub, 0x1300, 1, 0, 0, 0, .rw, 0, .hub, [.ownHub, .mgmt], false, none, none⟩
  | .DBG_PROF_CTRL_WRAP => ⟨.hub, 0x1300, 1, 0, 1, 1, .rw, 0, .hub, [.ownHub, .mgmt], false, none, none⟩
  | .DBG_PROF_CTRL_CTX_ANY => ⟨.hub, 0x1300, 1, 0, 2, 2, .rw, 0, .hub, [.ownHub, .mgmt], false, none, none⟩
  | .DBG_PROF_CTRL_CTX => ⟨.hub, 0x1300, 1, 0, 13, 8, .rw, 0, .hub, [.ownHub, .mgmt], false, none, none⟩
  | .DBG_PROF_CARD => ⟨.hub, 0x1304, 1, 0, 31, 0, .rw, 0, .hub, [.ownHub, .mgmt], false, none, none⟩
  | .DBG_PROF_PTR_HEAD => ⟨.hub, 0x1308, 1, 0, 8, 0, .ro, 0, .ctx, [.ownHub, .mgmt], false, none, none⟩
  | .DBG_PROF_PTR_TAIL => ⟨.hub, 0x1308, 1, 0, 24, 16, .rw, 0, .ctx, [.ownHub, .mgmt], false, none, none⟩
  | .DBG_PROF_LOST => ⟨.hub, 0x130c, 1, 0, 31, 0, .ro, 0, .ctx, [], false, none, none⟩
  | .DBG_TRAIL_SEL_PHYS_SLOT => ⟨.hub, 0x1310, 1, 0, 6, 0, .rw, 0, .hub, [.mgmt], false, none, none⟩
  | .DBG_TRAIL_SEL_HUB => ⟨.hub, 0x1310, 1, 0, 7, 7, .rw, 0, .hub, [.mgmt], false, none, none⟩
  | .DBG_TRAIL_STATUS_FROZEN => ⟨.hub, 0x1314, 1, 0, 0, 0, .ro, 0, .ctx, [], false, none, none⟩
  | .DBG_TRAIL_STATUS_TRIGGER => ⟨.hub, 0x1314, 1, 0, 3, 1, .ro, 0, .ctx, [], false, none, none⟩
  | .DBG_TRAIL_STATUS_DUMPED => ⟨.hub, 0x1314, 1, 0, 4, 4, .ro, 0, .ctx, [], false, none, none⟩
  | .DBG_TRAIL_STATUS_NEXT => ⟨.hub, 0x1314, 1, 0, 13, 8, .ro, 0, .ctx, [], false, none, none⟩
  | .DBG_HALT_HALTED => ⟨.hub, 0x1318, 1, 0, 0, 0, .ro, 0, .ctx, [.mgmt], false, none, none⟩
  | .DBG_HALT_DRAINED => ⟨.hub, 0x1318, 1, 0, 1, 1, .ro, 0, .ctx, [.mgmt], false, none, none⟩
  | .DBG_HALT_SUMQ_DISCARDED => ⟨.hub, 0x1318, 1, 0, 31, 16, .ro, 0, .ctx, [.mgmt], false, none, none⟩
  | .DBG_HALT_NS => ⟨.hub, 0x131c, 1, 0, 31, 0, .ro, 0, .ctx, [], false, none, none⟩
  | .DBG_DMI_ADDR_ADDR => ⟨.hub, 0x1320, 1, 0, 6, 0, .rw, 0, .hub, [.mgmt], false, none, none⟩
  | .DBG_DMI_ADDR_BUSY => ⟨.hub, 0x1320, 1, 0, 30, 30, .ro, 0, .hub, [.mgmt], false, none, none⟩
  | .DBG_DMI_ADDR_ERROR => ⟨.hub, 0x1320, 1, 0, 31, 31, .rw1c, 0, .hub, [.mgmt], false, none, none⟩
  | .DBG_DMI_DATA => ⟨.hub, 0x1324, 1, 0, 31, 0, .rw, 0, .hub, [.mgmt], false, none, none⟩
  | .DBG_HUB_STATUS_STATE => ⟨.hub, 0x1334, 1, 0, 2, 0, .ro, 0, .hub, [], false, none, none⟩
  | .DBG_HUB_STATUS_RESULT => ⟨.hub, 0x1334, 1, 0, 5, 4, .ro, 0, .hub, [], false, none, none⟩
  | .DBG_HUB_STATUS_REASON => ⟨.hub, 0x1334, 1, 0, 11, 8, .ro, 0, .hub, [], false, none, none⟩
  | .DBG_BIST_SIG_SEL => ⟨.hub, 0x1338, 1, 0, 6, 0, .rw, 0, .hub, [.mgmt], false, none, none⟩
  | .DBG_BIST_SIG => ⟨.hub, 0x1340, 1, 0, 63, 0, .ro, 0, .hub, [], false, none, none⟩
  | .DBG_MBIST_FIRST_MEMORY => ⟨.hub, 0x1348, 1, 0, 15, 0, .ro, 0, .hub, [], false, none, none⟩
  | .DBG_MBIST_FIRST_COUNT => ⟨.hub, 0x1348, 1, 0, 31, 16, .ro, 0, .hub, [], false, none, none⟩
  | .DBG_MBIST_WORD => ⟨.hub, 0x134c, 1, 0, 31, 0, .ro, 0, .hub, [], false, none, none⟩

end Sys2Proof.Machine
end

