-- ==== Sys2Proof/Machine/State.lean ====
section
/-! DEFINITION. The state of the module as plain data, its faults and refusals, and the state after
reset. Register fields are in `regs` (the tables of Machine/Registers.lean); everything else the spec
gives the machine has a field of its own. -/

namespace Sys2Proof.Machine

/-- Faults: no rule of spec/ leaves the block stopped by a command. What the spec calls a fault is a change of state
(a status bit, a record, a reset), so there is no constructor and no command faults (safe). -/
inductive Fault where
  deriving DecidableEq, Repr

/-- Refusals. -/
inductive Refusal where
  /-- A row of the table whose meaning is not written; raised by an arm of exec; safe. -/
  | notModelled (mnemonic : String)
  deriving DecidableEq, Repr

/-- What the bytes 0x18 to 0x3F of an event record hold (Table 7-9). -/
inductive EventBody where
  | accepted (deadline interval opcode readTime : Nat)
  | tokens (late truncated stopped : Bool) (firstIndex : Nat) (toks : List Nat)
  | final (issued appended committed cardId lastIssue lateNs draftsAccepted draftsProposed : Nat)
  | ring
  deriving DecidableEq, Repr

/-- An event record (Table 7-8). -/
structure EventRec where
  status : Nat
  cause : Nat
  detail : Nat
  handle : Nat
  tag : Nat
  seq : Nat
  reqIndex : Nat
  body : EventBody
  deriving DecidableEq, Repr

/-- Session states of Table 7-1. -/
inductive SessState where
  | idle | busy | closing
  deriving DecidableEq, Repr

/-- What is kept for a session that is not FREE (R187). `resume`: none, no hint; some none, no resume
expected; some (some t), expected at t (R207). -/
structure Session where
  st : SessState
  ctx : Nat
  gen : Nat
  model : Nat
  draft : Nat
  companion : Option Nat
  isCompanion : Bool
  pendingTok : Option Nat
  seq : Nat
  resume : Option (Option Nat)
  resumeUs : Nat
  permit : Nat
  drafts : List Nat
  deriving DecidableEq, Repr

/-- An accepted request that has no final code yet (R8, R187). Control requests that wait for others
list them in `waits`. `causes` collects late causes, bit i for cause i (R9). -/
structure Item where
  ctx : Nat
  idx : Nat
  opcode : Nat
  handle : Nat
  tag : Nat
  sess : Option Nat
  model : Nat
  draft : Nat
  slot : Option Nat
  tA : Nat
  deadline : Nat
  interval : Nat
  gen : Option GenerateRec
  promptDone : Nat
  issued : Nat
  lastIssue : Nat
  lateNs : Nat
  causes : Nat
  draftsAccepted : Nat
  draftsProposed : Nat
  stop : Nat
  waits : List (Nat × Nat)
  pages : Nat
  data : List Nat
  deriving DecidableEq, Repr

/-- A decode row of a planned step: the request and the token index it is planned to issue. -/
structure RowPlan where
  ctx : Nat
  idx : Nat
  model : Nat
  depth : Nat
  draft : Nat
  j : Nat
  deriving DecidableEq, Repr

/-- A prefill chunk of a planned step (R200); `last` chunks sample the first token (R201). -/
structure ChunkPlan where
  ctx : Nat
  idx : Nat
  model : Nat
  blocks : Nat
  tokens : Nat
  last : Bool
  samples : Bool
  depth : Nat
  draft : Nat
  deriving DecidableEq, Repr

/-- A piece of a training micro-step in a planned step (R241), in 256-token blocks, or with `opt` its optimizer
card (R243); `last` marks the last step that holds its work. -/
structure TrainPlan where
  ctx : Nat
  idx : Nat
  model : Nat
  blocks : Nat
  opt : Bool
  last : Bool
  deriving DecidableEq, Repr

/-- A planned step that has not started: its exclusive window if any, the length of a switch step,
its rows, chunks, training micro-steps and planned data movement (R38). -/
structure PStep where
  window : Option Nat
  switchIn : Bool
  switchOut : Bool
  switchNs : Nat
  rows : List RowPlan
  chunks : List ChunkPlan
  train : List TrainPlan
  moveNs : Nat
  loads : List (Nat × Nat)
  deriving DecidableEq, Repr

/-- What the planner knows of the step that runs (R32). `causes`: late causes at work in it, bit i for
cause i; `carried`: causes of earlier overruns that still delay it (R62). -/
structure StepRun where
  running : Bool
  cur : PStep
  lastEnd : Nat
  causes : Nat
  carried : Nat
  alertSeen : Bool
  boundaryAt : Option Nat
  reserveNs : Nat
  reserveUsed : Nat
  deriving DecidableEq, Repr

/-- What a step whose plan has frozen keeps of its freeze (R36): its number, the gear planned for each wing (R319), its planned
start, whether THROTTLE_IN_N lowered a gear (R323), and the wings with a stack of 80 °C or more (R48). -/
structure FrozenStep where
  number : Nat
  gears : List Nat
  start : Nat
  throttled : Bool
  hot : List Nat
  deriving DecidableEq, Repr

/-- The states of a model number. -/
inductive ModelState where
  | loading | loaded | unloading | unusable
  deriving DecidableEq, Repr

/-- A model that is loaded or being loaded (R198, R477). -/
structure Model where
  st : ModelState
  owner : Nat × Nat
  header : BundleHeader
  arrived : List Nat
  cards : List CardImage
  recipe : Recipe
  targetSets : List (Nat × List Target478)
  columnMap : List (List Nat)
  digest : Nat
  weightRows : List (Nat × Nat)
  weightMask : List Nat
  sectionUnits : Nat
  image : List Nat
  deriving DecidableEq, Repr

/-- A Cellar record (Table 10-6) but for its CRC, which is a function of the rest. DATA is the fields
of Table 10-7 in order, each with its width in bytes. -/
structure CellarRec where
  kind : Nat
  flags : Nat
  unit : Nat
  seq : Nat
  time : Nat
  boot : Nat
  ctx : Nat
  st : Nat
  count : Nat
  step : Nat
  data : List (Nat × Nat)
  deriving DecidableEq, Repr

/-- A 1 s coalescing window of R304 for one KIND and UNIT: when it opened, how many further records
arrived, and the last of them. -/
structure Coalesce where
  kind : Nat
  unit : Nat
  start : Nat
  more : Nat
  last : CellarRec
  deriving DecidableEq, Repr

/-- An entry of the reset and low-power log (Table 15-12). -/
structure LogEntry where
  kind : Nat
  detail : Nat
  unit : Nat
  boot : Nat
  time : Nat
  energy : Nat
  duration : Nat
  deriving DecidableEq, Repr

/-- The retirement record (Table 10-9): what the runtime restores from it under R308. Core entries are
keyed by module hub index × 66 + physical slot and hold STATE, SKIP, READMITS, CLEARED and the
lifetime events; only entries that differ from a new part's are listed. -/
structure Retirement where
  generation : Nat
  boot : Nat
  time : Nat
  cores : List (Nat × Nat)
  hubs : List (Nat × Nat)
  remap : List (Nat × Nat)
  channels : List (Nat × Nat)
  lead : Nat
  shadow : Nat
  deriving DecidableEq, Repr

/-- The interrupt sources of Table 14-5 that are routed (R408). -/
inductive IrqSource where
  | module | mbxVf
  deriving DecidableEq, Repr

/-- An interrupt message, by function and table entry. -/
structure Msix where
  fn : Nat
  entry : Nat
  deriving DecidableEq, Repr

/-- The delivery state of a PF entry (R409): when it last sent and the status bits that delivery
reported, and whether a delivery waits for the moderation interval. -/
structure PfTarget where
  lastSent : Option Nat
  reportedStatus : Nat
  reportedMbx : Nat
  waiting : List IrqSource
  deriving DecidableEq, Repr

/-- What leaves the module: memory writes to the host, messages, packets, answers and wires. -/
inductive Out where
  /-- An interrupt message (R407). -/
  | msix (m : Msix)
  /-- Bytes that a context's function writes to host memory from an IOVA on: control blocks, event records, reports, images,
  result blocks, flits. -/
  | hostWrite (ctx addr : Nat) (bytes : List Nat)
  /-- The value a read command returned. -/
  | readData (v : Nat)
  /-- A PLDM platform event message, whose eventData are the 64 bytes of a Cellar record (R418). -/
  | platformEvent (bytes : List Nat)
  /-- An answer on the management port or the DOE mailbox: protocol, command, completion and fields. -/
  | answer (proto cmd code : Nat) (fields : List Nat)
  /-- A Spoke packet sent on a link. -/
  | packet (link : Nat) (p : Packet)
  /-- The WAKE_N wire (R413). -/
  | wakeN (asserted : Bool)
  /-- The test data output (R459). -/
  | tdo (bits value : Nat)
  deriving DecidableEq, Repr

/-- A pending decapsulation key (R391): when its KEY_BEGIN came, and the key. -/
structure PendingKey where
  time : Nat
  value : Nat
  deriving DecidableEq, Repr

/-- An adapter key at a KEY_INDEX, and its export counter (R247, R391). -/
structure AdapterKey where
  value : Nat
  counter : Nat
  deriving DecidableEq, Repr

/-- A report the security core has yet to sign (R390): its item, its KIND (1 ATTEST, 2 KEY_BEGIN), its record, and
the decapsulation key whose EK it carries. -/
structure ReportJob where
  ctx : Nat
  idx : Nat
  kind : Nat
  req : SecRec
  key : Nat
  deriving DecidableEq, Repr

/-- The selection record (Table 15-2); its CRC is a function of the rest. -/
structure Selection where
  generation : Nat
  preferred : Nat
  stateA : Nat
  stateB : Nat
  tries : Nat
  minFw : Nat
  minBp : Nat
  rootKey : Nat
  deriving DecidableEq, Repr

/-- The flash content of a new module before an image is known: an image that passes every check and names no
setting (DESIGN CHOICE: the spec gives no flash content). -/
def defaultImage : FlashImage := ⟨0, 0, 0, 0, 0, [], false, false, 0⟩

/-- A page-table entry (Table 6-4): STATE 0 NONE, 1 COMMITTED, 2 TENTATIVE. -/
structure Pte where
  base : Nat
  ctx : Nat
  st : Nat
  fill : Nat
  gen : Nat
  deriving DecidableEq, Repr

/-- The root record of a session (Table 6-3) with the directory and the leaves it points to (Table
6-4): `dir` lists the directory entries that are VALID, each with its CTX; `ptes` the entries that
are not NONE. `st`: 1 RESIDENT, 2 PARKING, 3 PARKED, 4 UNPARKING (a FREE root is not listed). `wing`
is the wing whose pool holds the pages, and `away` the committed tokens that later members of a session split by position
hold (R173). -/
structure Root where
  handle : Nat
  layout : Nat
  st : Nat
  form : Nat
  split : Nat
  committed : Nat
  reserved : Nat
  dirBase : Nat
  parkAddr : Nat
  splitCount : Nat
  splitIndex : Nat
  rangePages : Nat
  members : List Nat
  away : Nat
  wing : Nat
  dir : Store (Nat × Nat)
  ptes : Store Pte
  deriving DecidableEq, Repr

/-- One trained element: its master, moments and the gradient collected in the cycle (R242, R243). -/
structure TrainElem where
  theta : Nat
  m : Nat
  v : Nat
  grad : Nat
  deriving DecidableEq, Repr

/-- A training job (R238): its fields from TRAIN_OPEN, its elements with A of each target before B,
their BF16 working copy, the counted micro-steps and positions of the cycle, t, and its
workspace: wing, first unit and units. -/
structure Job where
  ctx : Nat
  slot : Nat
  rc : TrainOpenRec
  rank : Nat
  alpha : Nat
  targetSet : Nat
  elems : List TrainElem
  working : List Nat
  counted : Nat
  positions : Nat
  t : Nat
  opened : Bool
  ws : Nat × Nat × Nat
  deriving DecidableEq, Repr

/-- An entry change that waits for a Pannier flip: the slot, its entry, and the item whose FINAL
follows the flip (R229): context, intake index, final code and detail. -/
structure PannierEdit where
  slot : Nat
  entry : PEntry
  final : Option (Nat × Nat × Nat × Nat)
  deriving DecidableEq, Repr

/-- An entry of a hub's cache of Pannier entries (R225). -/
structure CachedEntry where
  slot : Nat
  gen : Nat
  entry : PEntry
  deriving DecidableEq, Repr

/-- A line of a Pantry under reduction (R268): the next index it expects, how many sources it takes in
all, and the addends held in the reorder buffer, each with its index and its 32 elements. -/
structure RedLine where
  line : Nat
  expected : Nat
  count : Nat
  fmt : Nat
  held : List (Nat × List Nat)
  deriving DecidableEq, Repr

/-- What is kept for an HBM channel beside its registers: times of parity retries, of uncorrectable
stored errors, the time it became DEGRADED, and the failing rows of blocks it poisoned (R270, R279). -/
structure ChanLog where
  chan : Nat
  retries : List Nat
  uncorr : List Nat
  degradedAt : Nat
  rows : List Nat
  deriving DecidableEq, Repr

/-- A weight block under rebuild or a stripe under refetch (R275, R276). -/
structure Rebuild where
  wing : Nat
  block : Nat
  start : Nat
  refetch : Bool
  deriving DecidableEq, Repr

/-- A clear of an HBM region in progress (R278): the region, its next owner, and the context whose teardown frees
it, 64 if none. -/
structure RegionClear where
  region : Nat
  next : Nat
  ctx : Nat
  deriving DecidableEq, Repr

/-- A tag of the Pantry cache part (R264): its hub, its 128-byte line and the owner it was read
under; a hub's tags of one set are kept most recently used first. -/
structure CacheTag where
  hub : Nat
  line : Nat
  owner : Nat
  deriving DecidableEq, Repr


/-- The host-facing queue of one context as the module keeps it: the RING of R190 to R193, the event
queue and spill of R208 and R209, and the arming bit of R410. `spill` lists the records that wait in
spill, oldest first, each with whether it took a general record; `noRoom` is set while the last
EVQ_CONSUMER read was out of range under FAULTED (R411). -/
structure CtxQueue where
  consumer : Nat
  ringFails : Nat
  recFails : Nat
  spill : List (Bool × EventRec)
  backlogSince : Option Nat
  noRoom : Bool
  armed : Bool
  noted : Nat
  deriving DecidableEq, Repr

/-- Serving state: sessions by index (an index that is FREE is not listed), the last generation of every
index and the order of its last release (R186), accepted items in order of acceptance, models by number,
context queues, and the host park images in use (R216): context, 4 KiB unit, units, session;
and items that end at the next boundary because the host link was lost (R401). -/
structure Serving where
  sessions : Store Session := []
  idxUsed : Store (Nat × Nat) := []
  releases : Nat := 0
  items : List Item := []
  models : Store Model := []
  queues : Store CtxQueue := []
  hostParks : List (Nat × Nat × Nat × Nat) := []
  lastTick : Nat := 0
  intakeStopped : Bool := false
  draining : Bool := false
  aborting : List (Nat × Nat) := []
  deriving DecidableEq, Repr

/-- Timetable state: planned steps that have not started, the running step, the start of the first
planned step when none runs, the slot-table banks (key: table × 2 + bank, where a table is a module hub
index or 160 + wing), whether a load of the inactive bank has completed since the last flip, the remap
entries written since the last flip (key hub × 64 + slot), the coefficient banks, the HBM refresh
watchdogs (slots since REFRESH, key wing × 96 + channel), the gear limits of the last freeze (R319), the gears planned
for the step that began last (R39), the numbers of frozen steps that lost their work after it (R36, R38), and the
planned end of the last step that THROTTLE_IN_N slowed (R62). `frozen` tells
of the first planned steps, those whose plans have frozen (R36). `ttSaved` and `coefSaved` are the runtime's records of the
table images in HBM while the wings' tables are lost, and `reloadDue` says that the planner has yet to load them (R63,
Table 15-11). -/
structure Timetable where
  plan : List PStep := []
  run : StepRun := ⟨false, ⟨none, false, false, 0, [], [], [], 0, []⟩, 0, 0, 0, false, none, 0, 0⟩
  frozen : List FrozenStep := []
  planStart : Nat := 0
  ttBanks : Store (List Nat) := []
  ttLoaded : Store Bool := []
  wingBusy : Store Bool := []
  remapWritten : Store Bool := []
  coefBanks : Store (List Nat) := []
  coefLoaded : Store Bool := []
  refreshAge : Store Nat := []
  gearLimit : List Nat := []
  placed : List (Nat × Nat) := []
  stepGears : Option (List Nat) := none
  lapsed : Nat := 0
  throttleEnd : Nat := 0
  ttSaved : Store (List Nat) := []
  coefSaved : Store (List Nat) := []
  reloadDue : Bool := false
  deriving DecidableEq, Repr

/-- Reporting state: records on their way (R304), the event ring of the Cellar, coalescing windows, the
two copies of the retirement record with their validity (R307), the repair list, the reset and low-power
log, the delivery of platform events (R418), interrupt state (R407 to R412), and everything that has
left the module, oldest first. -/
structure Reporting where
  faultQueue : List CellarRec := []
  toWrite : List CellarRec := []
  ring : List CellarRec := []
  coalesce : List Coalesce := []
  retirement : List Retirement := []
  retireLive : Retirement := ⟨0, 0, 0, [], [], [], [], 0, 1⟩
  repairs : List (Nat × Nat × Nat) := []
  log : List LogEntry := []
  eventTries : Nat := 0
  eventNext : Option Nat := none
  eventHeld : Bool := false
  receiver : Option Nat := none
  msixMask : Store Bool := []
  msixPending : Store Bool := []
  fnMask : Store Bool := []
  pfTargets : Store PfTarget := []
  lastTarget : Nat × Nat := (0, 0)
  pendingSrc : List IrqSource := []
  outs : List Out := []
  deriving DecidableEq, Repr

/-- Rows a stage hands over to the next stage of its command (R98): the element format and, per row, the
element patterns. -/
structure HandOver where
  fmt : Nat
  segment : Nat
  rows : List (List Nat)
  deriving DecidableEq, Repr

/-- A bank of an accumulator file with the checksum entries that stay in step with it (R92, R111): the column accumulators
row after row, each with whether a special factor has entered it; the checksum column's entries, one for each row and group of
16 columns; the checksum row's entries, one for each column. -/
structure Bank where
  accs : List (Acc × Bool)
  colSums : List Acc
  rowSums : List Acc
  deriving DecidableEq, Repr

/-- The matrix engine or the Freewheel path of a core (R92, R93, R100, R108): whether an ACC_CONTINUE chain is open and, of the
command that used the engine last, its context, card and task; the bound a of R88 that its tile has accumulated; the three banks; the weights
in ACTIVE and SHADOW, column after column; the queue number of the command whose first block SHADOW holds (R99); the Freewheel
replay buffer; and whether an injected fault waits for the drain of the open tile (R120). -/
structure ArrayState where
  chained : Bool
  ctx : Nat
  card : Nat
  task : List (Nat × Nat)
  len : Nat
  work : Bank
  check : Bank
  drain : Bank
  active : List (List (Option Dyad))
  shadow : List (List (Option Dyad))
  preload : Option Nat
  port : List Nat
  drainFault : Bool
  deriving DecidableEq, Repr

/-- A command in a core's queue or running: its number in the queue, the command, when it started, which stages have completed,
the hand-over buffer, its VECTOR stage's copy of the scalar registers with the coefficient bank it reads (R131, R152; none before
that stage starts), and for its
command record the counts of R450 (cycles, rows, FEED, DRAIN, LIMIT, replay cycles, flits), whether a part of it was replayed,
whether it was held and whether it was rescued; `unused` is the reserve that the step had left when it started (R291). -/
structure RunCmd where
  num : Nat
  q : QueuedCmd
  start : Nat
  unused : Nat
  started : Bool
  done : List Bool
  hand : HandOver
  scalars : Option (List Nat)
  stats : List Nat
  replayed : Bool
  wasHeld : Bool
  rescued : Bool
  deriving DecidableEq, Repr

/-- The vector registers of a chunk (R123): V0 to V15 and P0 to P3, lane by lane. -/
structure VecRegs where
  v : List (List Nat)
  p : List (List Bool)
  deriving DecidableEq, Repr

/-- A row state of the reduction unit (R139 to R141): the operation, the running value (sum, maximum,
minimum, m), l, the index, the elements taken, candidates (value, index), flags NAN_SEEN and EMPTY_ROW. -/
structure RedState where
  op : Nat
  val : Nat
  l : Nat
  index : Nat
  count : Nat
  cands : List (Nat × Nat)
  hist : List Nat
  nan : Bool
  any : Bool
  deriving DecidableEq, Repr

/-- A summary record (Table 5-11). -/
structure SummaryRec where
  kind : Nat
  flags : Nat
  slot : Nat
  ctx : Nat
  row : Nat
  seq : Nat
  value0 : Nat
  value1 : Nat
  index0 : Nat
  count : Nat
  deriving DecidableEq, Repr

/-- What the chunks of a row give (R123): the lanes of V0 that are active in P0, P1, the row states, and the registers of the
last chunk, or of the chunk that a hold retains. -/
structure RowOut where
  vals : List (Option Nat)
  p1 : List Bool
  reds : List RedState
  regs : VecRegs
  deriving DecidableEq, Repr

/-- What a held engine waits with (R115, R152): the command's number, the engine (1 matrix, 2 Freewheel, 3 vector, 4 SFU or
reduction), the stage's number, the tile or row, the segment or chunk, whether the drain's conversion is held, whether a
residue was the cause, whether the fault was injected, and of a held chunk what the row's chunks before it gave with the
chunk's retained inputs. -/
structure Held where
  num : Nat
  engine : Nat
  stage : Nat
  tile : Nat
  segment : Nat
  drain : Bool
  residue : Bool
  injected : Bool
  row : RowOut
  deriving DecidableEq, Repr

/-- A stage whose write waits on a retained range (R102): its core, its command's number, its place, and since when. -/
structure RetainWait where
  core : Nat
  num : Nat
  stage : Nat
  since : Nat
  deriving DecidableEq, Repr

/-- A task of the running step (R476): its items, its card, and the cores that hold or held its commands. -/
structure TaskRec where
  items : List (Nat × Nat)
  card : Nat
  cores : List Nat
  deriving DecidableEq, Repr

/-- The cores, by module hub index × 66 + physical slot: command queues and running commands, the arrays and the Freewheel
path, registers of the last chunk with its lane format, row states, held engines, armed injections, commands
started, the stages whose writes wait on a retained range (R102), event times within the windows of R287 and R293, and
field-test history: the time of the last full sweep, the run of passing sweeps that clears a core (count,
first time), and the runs of the current sweep; by hub: the summary queue, the scalar copy, heartbeats
and control-core failures, Pantry error times, semaphore cards, the hub's SUSPECT cores with their times and whether a trim has counted them,
the last rotation and the core last swept; the summary records that wait in a core (R143); the tasks of the running step; by core: the reason a pending retirement was marked with, and the
rate of its sweeps (0 full, 1 7/8, 2 3/4). -/
structure Cores where
  queues : Store (List RunCmd) := []
  arrays : Store ArrayState := []
  wheels : Store ArrayState := []
  vregs : Store (Nat × VecRegs) := []
  reds : Store RedState := []
  held : Store Held := []
  inject : Store (Nat × Nat) := []
  started : Store Nat := []
  waiting : List RetainWait := []
  events : Store (List Nat) := []
  sweepAt : Store Nat := []
  clearRun : Store (Nat × Nat) := []
  sweep : Store (List Nat) := []
  hubEvents : Store (List Nat) := []
  hubSuspects : Store (List (Nat × Nat × Bool)) := []
  sumq : Store (List SummaryRec) := []
  sumWait : Store (List SummaryRec) := []
  tasks : List TaskRec := []
  beat : Store (Nat × Nat) := []
  ccFails : Store (List Nat) := []
  pantryErrs : Store (List Nat) := []
  semCards : Store (Nat × List Nat × List Nat) := []
  halted : List Nat := []
  lastRotate : Store Nat := []
  lastSwept : Store Nat := []
  marks : Store Nat := []
  thin : List Nat := []
  testRate : Store Nat := []
  lifetime : Store Nat := []
  shadowBeat : Nat × Nat := (0, 0)
  deriving DecidableEq, Repr
/-- Larder state: the roots by session index as the runtime keeps them, as its tables in HBM hold them since it last wrote
those (R164), and the space of the HBM park areas that images hold: wing, 4 KiB unit, units, session. -/
structure Larder where
  roots : Store Root := []
  tables : Store Root := []
  parkSpace : List (Nat × Nat × Nat × Nat) := []
  deriving DecidableEq, Repr

/-- A release in progress (R233): its slot, the items whose FINALs follow it, and whether a teardown started it. -/
structure Release where
  slot : Nat
  items : List (Nat × Nat)
  teardown : Bool
  deriving DecidableEq, Repr

/-- Pannier state: entry changes that wait for a flip (R229), jobs by number (R238), each hub's cache of entries, most recently used
first (R225), and releases in progress. The banks lie in HBM (R222). -/
structure Pannier where
  edits : List PannierEdit := []
  jobs : Store Job := []
  caches : Store (List CachedEntry) := []
  releases : List Release := []
  deriving DecidableEq, Repr

/-- A granule held in a save slot (R382, R383): its owner, whether the slot is slot 0, and its valid lines with
their bytes. -/
structure SaveEntry where
  hub : Nat
  ctx : Nat
  shared : Bool
  granule : Nat
  lines : List (Nat × List Nat)
  deriving DecidableEq, Repr

/-- Memory state: bytes by device address, valid on-chip lines (R260), granule owners by device address ÷
4,096, region owners by wing × 3,072 + region (R281), poisoned 4 KiB blocks (R274), save slots (R383), the
LR reservation of each hub's control core as its word's address ÷ 8 (R267), lines under reduction (R268), region
clears in progress (R278), the spare-area remap (R275), cache-part tags (R264), channel logs, and rebuilds
and refetches in progress. -/
structure Memory where
  bytes : Store Byte := []
  valid : Store Bool := []
  granules : Store Nat := []
  regions : Store Nat := []
  poison : List Nat := []
  saves : List SaveEntry := []
  lr : Store Nat := []
  redLines : List RedLine := []
  regionClears : List RegionClear := []
  spare : Store Nat := []
  cacheTags : List CacheTag := []
  chanLogs : List ChanLog := []
  rebuilds : List Rebuild := []
  deriving DecidableEq, Repr

/-- An alert that is asserted or whose hold has not ended (R323, R333): its source (a rail index, or 100 × sensor kind
+ index of a thermal ALARM); its code, the rail index or 0x40 + wing; the wings it acts on; when it was asserted, took
its wings to G0 and was deasserted; the gear before; and bits [0] locked segment, [1] limiter active, as Table 11-6 has
them. -/
structure AlertRun where
  src : Nat
  code : Nat
  wings : List Nat
  start : Nat
  g0 : Nat
  ended : Option Nat
  gear : Nat
  flags : Nat
  deriving DecidableEq, Repr

/-- Power state: alerts in progress; when each wing's hold ends; wings whose VCORE has slewed to G0's; assertion times
per wing and when a storm's drop ends (R326); when THROTTLE_IN_N was asserted; limiter duties in eighths with the
samples at or above 1/4 and below 90 % of the cap, charges in units of a quarter ns, and downshift requests (R320,
R321); thermal levels that hold (sensor kind, index, level) and the ceiling drops of WARN levels and of the inlet
(R328); wings whose FALLBACK_DROP is in force (R318); drops of the ceiling that accepted promises may still need more
than, each with its time and the wings' ceilings before it (R322); rails that force G0 until management acts and wings out of placement (R334) and those whose telemetry is lost; tripped wings (R329); the input
band of Table 17-3 (0 below 46 V to 5 above 70 V); since when HOTSWAP is off by its current limit; and what the meter of
the open window's context will advance by at its close (R331), and the Vestibule sensor's last reading. -/
structure Power where
  alerts : List AlertRun := []
  holdEnd : Store Nat := []
  slewed : List Nat := []
  asserts : List (Nat × Nat) := []
  stormEnd : Store Nat := []
  throttleAt : Option Nat := none
  duty : Store Nat := []
  high : Store Nat := []
  low : Store Nat := []
  charge : Store Nat := []
  downReq : List Nat := []
  levels : List (Nat × Nat × Nat) := []
  warnDrop : Store Nat := []
  inletDrop : Nat := 0
  estDrop : List Nat := []
  drops : List (Nat × List Nat) := []
  railForced : List Nat := []
  wingsOut : List Nat := []
  tripped : List Nat := []
  band : Nat := 3
  hotswapOff : Option Nat := none
  noTelemetry : List Nat := []
  windowEnergy : Nat := 0
  vestTemp : Nat := 0
  deriving DecidableEq, Repr

/-- Context state: functions whose bus mastering is off (R402) and those whose memory space is; suspensions in
progress (context and when its command was written, R375), teardowns in progress (context and when they started,
R378), those whose items have ended; adapter keys of the security core by context × 4 + index, pending
decapsulation keys by the same number, reports to be signed, mailbox buffers, and the latched high word of
CTXWIN_CADENCE by window. -/
structure Contexts where
  noMaster : List Nat := []
  noMemory : List Nat := []
  suspending : List (Nat × Nat) := []
  tearing : List (Nat × Nat) := []
  ended : List Nat := []
  keys : Store AdapterKey := []
  pendingKeys : Store PendingKey := []
  reports : List ReportJob := []
  mbox : Store Nat := []
  latched : Store Nat := []
  deriving DecidableEq, Repr

/-- Start-up and low-power state: when the last request record was read (R438), the state an exit comes from with its
reason and start, the state being entered, whether a wake event waits for the end of an entry (R442), a CTX_CMD
written in a low-power state, which waits for the exit's end (R440): OP, context, class; a warm reset that waits for
an exit (R442), by its trigger; the two flash images, A and B, the selection record's copies, the one in force first
(R423), the image in the shadow (R430), whether the alias certificate is signed (R386), when the input reached 54 V,
whether the next cold start follows a Porch watchdog restart, the trigger and start of a warm reset in progress, the
hubs a hub reset is in progress on (trigger + 8 × (1 + its start), or the trigger alone while it waits for a dump), whether
a power fail is in progress (R445), the result of the image choice (Table 15-13), whether SLOT_ID has been sampled, and
whether WAKE_N is asserted. -/
structure Boot where
  lastRecord : Nat := 0
  lpFrom : Nat := 1
  lpReason : Nat := 0
  lpSince : Nat := 0
  lpTarget : Nat := 1
  wakePending : Bool := false
  heldCmd : Option (Nat × Nat × Bool) := none
  heldReset : Option Nat := none
  images : List FlashImage := [defaultImage, defaultImage]
  selection : List Selection := [⟨0, 0, 2, 2, 0, 0, 0, 0⟩]
  shadow : Option FlashImage := none
  aliasSigned : Bool := false
  coldAt : Nat := 0
  watchdog : Bool := false
  warm : Option (Nat × Nat) := none
  hubResets : Store Nat := []
  failing : Bool := false
  bootResult : Nat := 1
  slotSampled : Bool := false
  wakeN : Bool := false
  deriving DecidableEq, Repr

/-- An entry of an event trail (Table 16-2). -/
structure TrailEntry where
  time : Nat
  code : Nat
  ctx : Nat
  arg16 : Nat
  arg32 : Nat
  deriving DecidableEq, Repr

/-- A command record (Table 16-1). -/
structure ProfRec where
  flags : Nat
  ctx : Nat
  phys : Nat
  slot : Nat
  card : Nat
  index : Nat
  gear : Nat
  skip : Nat
  start : Nat
  finish : Nat
  cycles : Nat
  rows : Nat
  feed : Nat
  drain : Nat
  limit : Nat
  replay : Nat
  flits : Nat
  number : Nat
  deriving DecidableEq, Repr

/-- A self-test that runs on a hub (Table 16-4). -/
structure BistRun where
  op : Nat
  phys : Nat
  patterns : Nat
  start : Nat
  deriving DecidableEq, Repr

/-- Debug state: event trails (key: core, 20,000 + hub, 30,000 for the Vestibule), the next entry of each, and those that skipped entries
during the open window, whether the Vestibule trail is frozen, dumps in progress (hub or 160, time, trigger),
the profile ring of each hub by entry and its record number, counts that hubs have yet to contribute (R449),
halt times, self-tests in progress, LBIST signatures (hub × 68 + partition), debug-module registers (hub × 128
+ address), hubs with an armed trigger, and the hubs halted while they hold the lead. -/
structure DebugState where
  trails : Store (List TrailEntry) := []
  trailNext : Store Nat := []
  skipped : List Nat := []
  vFrozen : Bool := false
  dumps : List (Nat × Nat × Nat) := []
  prof : Store ProfRec := []
  profCount : Store Nat := []
  contrib : Store Nat := []
  haltAt : Store Nat := []
  tests : Store BistRun := []
  sigs : Store Nat := []
  dmi : Store Nat := []
  armed : List Nat := []
  windowAt : Nat := 0
  idleSince : Nat := 0
  deriving DecidableEq, Repr

/-- An IDE stream (R399): the key sets programmed, by set × 8 + sub-stream, and the set in use. -/
structure IdeStream where
  programmed : List Nat
  active : Option Nat
  deriving DecidableEq, Repr

/-- Management state: the terminus ID (Table 14-6), whether a firmware update has been requested, its component table
passed and its transfer begun, the image it wrote, the SPDM exchange of the DOE mailbox by its last step (0 none, 1
GET_VERSION, 2 GET_CAPABILITIES, 3 NEGOTIATE_ALGORITHMS, 4 PSK_EXCHANGE, 5 session open), the IDE streams by virtual
function, and whether the test port's instruction is BYPASS (R459). -/
structure Management where
  tid : Nat := 0
  requested : Bool := false
  passed : Bool := false
  written : Option FlashImage := none
  spdm : Nat := 0
  ide : Store IdeStream := []
  bypass : Bool := false
  deriving DecidableEq, Repr


/-- A Spoke link beside its registers: the next LINK_SEQ to send and to receive, the replay buffer with the
number of times each packet was sent (R343), times of uncorrectable codewords and of retrains, lanes
retired, the neighbour's last HELLO, when the link was LOST, the contexts that hold its receive buffers
(R345), and the last SYNC: its hops and grandmaster, and when it came. -/
structure LinkSt where
  txSeq : Nat
  rxSeq : Nat
  replay : List (Nat × Packet)
  uncorr : List Nat
  retrains : List Nat
  badLanes : Nat
  peer : Option HelloBody
  lostAt : Option Nat
  buffers : List Nat
  syncHops : Nat
  syncGm : Nat
  syncAt : Option Nat
  deriving DecidableEq, Repr

/-- A locked segment (R59, R353): its start, its members' addresses (the module's own for a segment on one module), the
items of its tasks, the contexts and wings of its commands here, and the arrivals stamped so far: address, arrival, causes,
abort. -/
structure Segment where
  start : Nat
  members : List Nat
  task : List (Nat × Nat)
  parts : List (Nat × Nat)
  arrived : List (Nat × Nat × Nat × Bool)
  deriving DecidableEq, Repr

/-- Fabric state: links, flood bodies seen, LINKLOST reports (reporter, lost), consecutive small offsets,
since when HOLDOVER and all links LOST hold, the JOIN retry and grant times, whether management wrote the
address, the drain's successor, locked segments, the Spoke tables' images (table × 2 + bank), the time of
the last flip, credits that cards hold (context, link, class, credits), and packets that wait for a credit, by link
(R346). -/
structure Fabric where
  links : Store LinkSt := []
  seen : List (Nat × List Nat) := []
  reports : List (Nat × Nat) := []
  cadGood : Nat := 0
  holdSince : Option Nat := none
  allLostAt : Option Nat := none
  joinRetry : Option Nat := none
  grantAt : Option Nat := none
  addrWritten : Bool := false
  successor : Nat := 0
  segments : List Segment := []
  banks : Store (List Nat) := []
  flipAt : Nat := 0
  held : List (Nat × Nat × Nat × Nat) := []
  waiting : List (Nat × Packet) := []
  deriving DecidableEq, Repr


/-- The key of instance n of a register field in `regs`. -/
def regKey (f : Fld) (n : Nat) : Nat := n * 1024 + f.ctorIdx

/-- The reset value of instance n of a field: the Reset column, and the values that differ from instance
to instance (Tables 1-4, 1-6, 1-7, 14-9; context 0 is always ACTIVE, R369). -/
def regReset (f : Fld) (n : Nat) : Nat :=
  match f with
  | .HUB_ID_HUB => n % 40
  | .HUB_ID_WING => n / 40
  | .HUB_ID_MODULE_HUB_INDEX => n
  | .HUB_REMAP_B0_SLOT_PHYS_SLOT => n % 64
  | .HUB_REMAP_B1_SLOT_PHYS_SLOT => n % 64
  | .HUB_SLOT_STATE_STATE => if n % 66 < 64 then 1 else 2
  | .CTX_STATE_STATE => if n = 0 then 1 else 0
  | .CTXWIN_INFO_CTX => n
  | .CTXWIN_INFO_STATE => if n = 0 then 1 else 0
  | _ => (fieldRow f).reset
/-- The module. `regs` holds every register field of Machine/Registers.lean that differs from its reset
value, under `regKey`; `now` is the Cadence time in ns; `freeNext` counts the free values taken (the
model's own field); `pending` is the queue of waiting commands. -/
structure State where
  regs : Store Nat
  now : Nat
  freeNext : Nat
  serve : Serving
  tt : Timetable
  rep : Reporting
  lard : Larder
  pann : Pannier
  mem : Memory
  core : Cores
  fab : Fabric
  pwr : Power
  ctxs : Contexts
  boot : Boot
  dbg : DebugState
  mgt : Management
  pending : List Instr
  deriving DecidableEq, Repr

/-- The module right after power is applied and before its cold start has run: every register field at
the value of its Reset column, nothing held, nothing waiting. -/
def State.reset : State :=
  { regs := [], now := 0, freeNext := 0, serve := {}, tt := {}, rep := {}, lard := {}, pann := {}, mem := {},
    core := {}, fab := {}, pwr := {}, ctxs := {}, boot := {}, dbg := {}, mgt := {}, pending := [] }

end Sys2Proof.Machine
end

