-- ==== Sys2Proof/Machine/Lanes.lean ====
section
/-! DEFINITION. Lane arithmetic of the vector engine (R121, R122), one vector instruction over a chunk's
registers (R123 to R125), and the conversions of elements into lanes and out of them (R66, R74, R76). -/

namespace Sys2Proof.Machine

/-- Bits of a lane (Table 5-1). -/
def laneBits (lane : Nat) : Nat := if lane = 1 then 32 else if lane = 4 then 8 else 16

/-- Elements of a chunk (Table 5-1). -/
def laneCount (lane : Nat) : Nat := if lane = 1 then 64 else if lane = 4 then 256 else 128

/-- The floating format of a lane; INT8 lanes have none. -/
def laneFmt (lane : Nat) : FFmt := if lane = 2 then fBF16 else if lane = 3 then fFP16 else fFP32

/-- Whether the lanes hold integers only. -/
def laneInt (lane : Nat) : Bool := lane == 4

/-- A number rounded once to a format; overflow goes to infinity. -/
def toFmt (f : FFmt) : Num → Nat
  | .nan => nanOf f
  | .inf neg => infOf f true neg
  | .fin neg m e => roundF f true neg m 1 e

/-- Round a number to an integer, to nearest even. -/
def numInt : Num → Int
  | .fin neg m e =>
    let q : Int := if 0 ≤ e then (m * 2 ^ e.toNat : Nat) else (rneDiv m (2 ^ (-e).toNat) : Nat)
    if neg then -q else q
  | _ => 0

/-- A number as a saturated integer of w bits; NaN gives 0 (CVTI, R122). -/
def numSat (w : Nat) : Num → Nat
  | .nan => 0
  | .inf neg => if neg then 2 ^ (w - 1) else 2 ^ (w - 1) - 1
  | x => satTo w (numInt x)

/-- The number an integer is. -/
def intNum (v : Int) : Num := .fin (decide (v < 0)) v.natAbs 0

/-- A number in a lane's format. -/
def toLane (lane : Nat) (x : Num) : Nat := if laneInt lane then numSat 8 x else toFmt (laneFmt lane) x

/-- The number a lane holds. -/
def laneNum (lane : Nat) (v : Nat) : Num :=
  if laneInt lane then intNum (signedOf 8 v) else decodeF (laneFmt lane) v

/-- A 32-bit scalar, immediate, parameter or table entry in a lane: rounded in 16-bit lanes (R124), its low bits
in 8-bit lanes. -/
def lane32 (lane v : Nat) : Nat :=
  if lane = 1 then v % 2 ^ 32 else if lane = 4 then v % 256 else toFmt (laneFmt lane) (decodeF fFP32 v)

/-- The FP32 value of a lane. -/
def laneF32 (lane v : Nat) : Nat := if lane = 1 then v else toFmt fFP32 (laneNum lane v)

/-! Opcodes (Table 5-3) on one lane -/

def laneAdd (lane a b : Nat) : Nat := addF (laneFmt lane) a b
def laneSub (lane a b : Nat) : Nat := addF (laneFmt lane) a (negF (laneFmt lane) b)
def laneMul (lane a b : Nat) : Nat := mulF (laneFmt lane) a b
def laneFma (lane a b c : Nat) : Nat := fmaF (laneFmt lane) a b c

/-- Whether a is below b, with −0 below +0 where `zeros` asks for it (R122). -/
def laneBelow (lane : Nat) (zeros : Bool) (a b : Nat) : Bool :=
  let x := laneNum lane a
  let y := laneNum lane b
  numLt x y || (zeros && numIsZero x && numIsZero y && numNeg x && !numNeg y)

def laneIsNan (lane v : Nat) : Bool := laneNum lane v == .nan

/-- MAX and MIN: NaN if either operand is NaN, +0 above −0. -/
def laneMax (lane a b : Nat) : Nat :=
  if laneIsNan lane a || laneIsNan lane b then nanOf (laneFmt lane) else if laneBelow lane true a b then b else a
def laneMin (lane a b : Nat) : Nat :=
  if laneIsNan lane a || laneIsNan lane b then nanOf (laneFmt lane) else if laneBelow lane true b a then b else a

def laneAbs (lane a : Nat) : Nat :=
  if laneIsNan lane a then nanOf (laneFmt lane) else a % 2 ^ (laneBits lane - 1)
def laneNeg (lane a : Nat) : Nat :=
  if laneIsNan lane a then nanOf (laneFmt lane) else negF (laneFmt lane) a

def laneLt (lane a b : Nat) : Bool := laneBelow lane false a b
def laneEq (lane a b : Nat) : Bool := numEq (laneNum lane a) (laneNum lane b)
def laneLe (lane a b : Nat) : Bool := laneLt lane a b || laneEq lane a b

def laneIadd (lane a b : Nat) : Nat := (a + b) % 2 ^ laneBits lane
def laneAnd (_lane a b : Nat) : Nat := a &&& b
def laneOr (_lane a b : Nat) : Nat := a ||| b
def laneXor (_lane a b : Nat) : Nat := a ^^^ b
def laneShl (lane a b : Nat) : Nat := a * 2 ^ (b % laneBits lane) % 2 ^ laneBits lane
def laneShra (lane a b : Nat) : Nat :=
  wrapTo (laneBits lane) ((signedOf (laneBits lane) a).fdiv (ipow2 (b % laneBits lane)))
def laneCvti (lane a : Nat) : Nat := numSat (laneBits lane) (laneNum lane a)
def laneCvtf (lane a : Nat) : Nat := toFmt (laneFmt lane) (intNum (signedOf (laneBits lane) a))
def laneFn (code lane a : Nat) : Nat := lane32 lane (fnOf code (laneF32 lane a))
def laneLut (coef : List Nat) (lane a : Nat) : Nat := lane32 lane (coef.getD (a % 256) 0)

/-- PWC (R156). -/
def lanePwc (coef : List Nat) (lane a : Nat) : Nat :=
  match laneNum lane a with
  | .nan => nanOf (laneFmt lane)
  | x =>
    let top : Num := .fin false (2 ^ 24 - 1) (-24)
    let u := if numLt x (.fin false 0 0) then .fin false 0 0 else if numLt top x then top else x
    let d := numDyad u
    let v := if 0 ≤ d.e then 0 else (d.v * 64).fdiv (ipow2 (-d.e).toNat)
    let k := v.toNat
    let t := toFmt (laneFmt lane) (let r := dyadAdd (dyadMul d ⟨64, 0⟩) ⟨-(k : Int), 0⟩; .fin false r.v.natAbs r.e)
    let c := fun (j : Nat) => lane32 lane (coef.getD (4 * k + j) 0)
    laneFma lane t (laneFma lane t (laneFma lane t (c 3) (c 2)) (c 1)) (c 0)

/-! One instruction over a chunk -/

/-- What a stage copies when it starts (R131, R156): the scalar values and the active coefficient table. -/
structure VEnv where
  lane : Nat
  scalars : List Nat
  coef : List Nat
  deriving DecidableEq, Repr

def vreg (g : VecRegs) (i : Nat) : List Nat := g.v.getD i []
def preg (g : VecRegs) (i : Nat) : List Bool := g.p.getD i []

/-- Operand b of an instruction (Table 5-2). -/
def operandB (e : VEnv) (g : VecRegs) (i : VInstr) : List Nat :=
  let n := (vreg g 0).length
  match i.bKind with
  | 0 => vreg g i.b
  | 1 => List.replicate n (lane32 e.lane (e.scalars.getD (i.imm % 32) 0))
  | 2 => List.replicate n (lane32 e.lane i.imm)
  | _ => List.replicate n (lane32 e.lane (e.coef.getD (i.imm % 256) 0))

/-- The lanes an instruction may change (GUARD of Table 5-2). -/
def guardOf (g : VecRegs) (i : VInstr) : List Bool :=
  if i.guard = 0 then List.replicate (vreg g 0).length true else preg g i.guard

/-- Put lanes into a V register where the guard allows. -/
def setV (g : VecRegs) (i : VInstr) (vals : List Nat) : VecRegs :=
  let m := (vals.zip ((vreg g i.dst).zip (guardOf g i))).map (fun x => if x.2.2 then x.1 else x.2.1)
  { g with v := g.v.set i.dst m }

/-- Put lanes into a P register where the guard allows. -/
def setP (g : VecRegs) (i : VInstr) (vals : List Bool) : VecRegs :=
  let d := i.dst % 4
  let m := (vals.zip ((preg g d).zip (guardOf g i))).map (fun x => if x.2.2 then x.1 else x.2.1)
  { g with p := g.p.set d m }

/-- Instructions of one, two and three operands. -/
def vUn (f : Nat → Nat → Nat) (e : VEnv) (i : VInstr) (g : VecRegs) : VecRegs := setV g i ((vreg g i.a).map (f e.lane))
def vBin (f : Nat → Nat → Nat → Nat) (e : VEnv) (i : VInstr) (g : VecRegs) : VecRegs :=
  setV g i (((vreg g i.a).zip (operandB e g i)).map (fun x => f e.lane x.1 x.2))
def vCmp (f : Nat → Nat → Nat → Bool) (e : VEnv) (i : VInstr) (g : VecRegs) : VecRegs :=
  setP g i (((vreg g i.a).zip (operandB e g i)).map (fun x => f e.lane x.1 x.2))
def vFma (e : VEnv) (i : VInstr) (g : VecRegs) : VecRegs :=
  setV g i (((vreg g i.a).zip ((operandB e g i).zip (vreg g i.c))).map (fun x => laneFma e.lane x.1 x.2.1 x.2.2))
def vSel (e : VEnv) (i : VInstr) (g : VecRegs) : VecRegs :=
  setV g i (((preg g (i.c % 4)).zip ((vreg g i.a).zip (operandB e g i))).map (fun x => if x.1 then x.2.1 else x.2.2))
def vFn (code : Nat) (e : VEnv) (i : VInstr) (g : VecRegs) : VecRegs := vUn (laneFn code) e i g

/-- An instruction other than RED (Table 5-3). -/
def vinstr (e : VEnv) (i : VInstr) (g : VecRegs) : VecRegs :=
  match i.op with
  | 0x01 => vBin laneAdd e i g
  | 0x02 => vBin laneSub e i g
  | 0x03 => vBin laneMul e i g
  | 0x04 => vFma e i g
  | 0x05 => vBin laneMax e i g
  | 0x06 => vBin laneMin e i g
  | 0x07 => vUn laneAbs e i g
  | 0x08 => vUn laneNeg e i g
  | 0x09 => vCmp laneLt e i g
  | 0x0A => vCmp laneLe e i g
  | 0x0B => vCmp laneEq e i g
  | 0x0C => vSel e i g
  | 0x10 => vBin laneIadd e i g
  | 0x11 => vBin laneAnd e i g
  | 0x12 => vBin laneOr e i g
  | 0x13 => vBin laneXor e i g
  | 0x14 => vBin laneShl e i g
  | 0x15 => vBin laneShra e i g
  | 0x18 => vUn laneCvti e i g
  | 0x19 => vUn laneCvtf e i g
  | 0x20 => vFn (i.imm % 256) e i g
  | 0x28 => vUn (laneLut e.coef) e i g
  | 0x29 => vUn (lanePwc e.coef) e i g
  | _ => g

/-! Elements and lanes -/

/-- An element's value under its scale byte or tensor scale, as a number (R66, R70, R74). -/
def scaledNum (d : OpDesc) (bits scale : Nat) : Num :=
  let x := elemNum d.fmt d.kind bits
  let by_ := fun (y : Num) => match x, y with
    | .nan, _ => .nan
    | _, .nan => .nan
    | .inf p, y => if numIsZero y then .nan else .inf (p != numNeg y)
    | x, .inf q => if numIsZero x then .nan else .inf (numNeg x != q)
    | .fin p m e, .fin q n g => .fin (p != q) (m * n) (e + g)
  if d.kind = 1 ∨ d.kind = 2 then
    match scaleDyad d.kind scale with
    | some z => by_ (.fin false z.v.natAbs z.e)
    | none => .nan
  else if d.kind = 3 then by_ (decodeF fFP32 d.tensor)
  else x

/-- An element in a lane: INT32 elements enter 32-bit lanes as they are (R123). -/
def loadLane (lane : Nat) (d : OpDesc) (bits scale : Nat) : Nat :=
  if d.fmt = 0xB then (if lane = 1 then bits else toLane lane (intNum (signedOf 32 bits)))
  else toLane lane (scaledNum d bits scale)

/-- The number a lane gives an output of a format: integers where the format is INT32, or the lanes are. -/
def outNum (lane fmt v : Nat) : Num :=
  if fmt = 0xB then intNum (signedOf (laneBits lane) v) else laneNum lane v

/-- One output element without block scales: BF16, FP16 and FP32 overflow to infinity, the narrow formats
saturate (R76); a tensor scale divides. -/
def outElem (lane : Nat) (d : OpDesc) (v : Nat) : Nat :=
  let x := outNum lane d.fmt v
  if d.fmt = 0xB then numSat 32 x
  else if d.kind = 3 then
    match x, decodeF fFP32 d.tensor with
    | .fin p m e, .fin q n g =>
      if n = 0 then (if m = 0 then quantElem d.fmt 0 0 .nan else quantElem d.fmt 0 0 (.inf (p != q)))
      else match ffmtOf d.fmt with
        | some f => roundF f (d.fmt == 8 || d.fmt == 9 || d.fmt == 0xA) (p != q) m n (e - g)
        | none =>
          let w := elemBits d.fmt
          let z := e - g
          let r := if 0 ≤ z then rneDiv (m * 2 ^ z.toNat) n else rneDiv m (n * 2 ^ (-z).toNat)
          satTo w (if p != q then -(r : Int) else r)
    | .fin .., .inf _ => 0
    | .inf p, .fin q _ _ => quantElem d.fmt 0 0 (.inf (p != q))
    | _, _ => quantElem d.fmt 0 0 .nan
  else if d.fmt = 8 ∨ d.fmt = 9 ∨ d.fmt = 0xA then toFmt ((ffmtOf d.fmt).getD fFP32) x
  else quantElem d.fmt 0 0 x

end Sys2Proof.Machine
end

