-- ==== Sys2Proof/Machine/Ops.lean ====
section
/-! DEFINITION. The named operations every family uses: reading and writing a register field, counters
and their stop during exclusive windows, the Cadence, free values, and small list operations. -/

namespace Sys2Proof.Machine

/-- Width of a field in bits. -/
def fieldWidth (f : Fld) : Nat := (fieldRow f).hi + 1 - (fieldRow f).lo

/-- The value of instance n of a field. -/
def rd (s : State) (f : Fld) (n : Nat := 0) : Nat := storeGet (regReset f n) s.regs (regKey f n)

/-- Whether a one-bit field is set. -/
def rdb (s : State) (f : Fld) (n : Nat := 0) : Bool := rd s f n == 1

/-- Set instance n of a field. -/
def wr (s : State) (f : Fld) (n : Nat) (v : Nat) : State :=
  { s with regs := storePut (regReset f n) s.regs (regKey f n) v }

/-- Set a one-bit field from a Bool. -/
def wrb (s : State) (f : Fld) (n : Nat) (b : Bool) : State := wr s f n (b2n b)

/-- Set several instances of a field to one value. -/
def wrAll (s : State) (f : Fld) (ns : List Nat) (v : Nat) : State := ns.foldl (fun t n => wr t f n v) s

/-- Add k to a saturating counter. -/
def inc (s : State) (f : Fld) (n : Nat := 0) (k : Nat := 1) : State :=
  wr s f n (satAdd (fieldWidth f) (rd s f n) k)

/-- Add one to a counter that wraps. -/
def incWrap (s : State) (f : Fld) (n : Nat := 0) : State :=
  wr s f n ((rd s f n + 1) % 2 ^ fieldWidth f)

/-- Advance an ACTIVE_GEN: from 0xFFFF it wraps to 0x0001 (R226). -/
def nextGen (g : Nat) : Nat := if g ≥ 0xFFFF then 1 else g + 1

/-- The confidential context whose exclusive window is open, if any (R380). -/
def windowCtx (s : State) : Option Nat := if rdb s .CTX_WINDOW_OPEN then some (rd s .CTX_WINDOW_CTX) else none

/-- Add k to a per-hub or per-core counter, which does not count while an exclusive window is open
(R119, R159, R185, R253, R282, R311, Table 13-4). -/
def incX (s : State) (f : Fld) (n : Nat := 0) (k : Nat := 1) : State :=
  if (windowCtx s).isSome then s else inc s f n k

/-- Move the Cadence to the time at which a command happens; it never moves back. -/
def tick (s : State) (at_ : Nat) : State := { s with now := max s.now at_ }

/-- The next free value: nothing constrains it. -/
def takeFree (s : State) (w : Nat) : Nat × State :=
  ((Config.freeValue s.freeNext) % 2 ^ w, { s with freeNext := s.freeNext + 1 })

/-- Slot length in ns (Table 2-1). -/
def slotNs : Nat := 40

/-- slot_ceil of R39 in ns. -/
def slotCeil (t : Nat) : Nat := ceilDiv t slotNs * slotNs

/-- PLAN_LEAD in ns. -/
def planLead (s : State) : Nat := rd s .TT_CONFIG_PLAN_LEAD * 1000

/-- The intake tick in ns. -/
def intakeTick (s : State) : Nat := rd s .TT_CONFIG_INTAKE_TICK * 1000

/-- Module hub index of the lead control core: hub 0 of the lead's wing. -/
def leadHub (s : State) : Nat := rd s .INTEG_LEAD_LEAD_WING * 40

def updServe (s : State) (f : Serving → Serving) : State := { s with serve := f s.serve }
def updTt (s : State) (f : Timetable → Timetable) : State := { s with tt := f s.tt }
def updRep (s : State) (f : Reporting → Reporting) : State := { s with rep := f s.rep }
def updLard (s : State) (f : Larder → Larder) : State := { s with lard := f s.lard }
def updPann (s : State) (f : Pannier → Pannier) : State := { s with pann := f s.pann }
def updMem (s : State) (f : Memory → Memory) : State := { s with mem := f s.mem }
def updCore (s : State) (f : Cores → Cores) : State := { s with core := f s.core }
def updFab (s : State) (f : Fabric → Fabric) : State := { s with fab := f s.fab }
def updPwr (s : State) (f : Power → Power) : State := { s with pwr := f s.pwr }
def updCtxs (s : State) (f : Contexts → Contexts) : State := { s with ctxs := f s.ctxs }
def updBoot (s : State) (f : Boot → Boot) : State := { s with boot := f s.boot }
def updDbg (s : State) (f : DebugState → DebugState) : State := { s with dbg := f s.dbg }
def updMgt (s : State) (f : Management → Management) : State := { s with mgt := f s.mgt }

/-- Whether a write comes from the management context: its writes come through the physical function's BAR0, which
decodes while Memory Space Enable is set (R402). -/
def isMgmt (s : State) (src : Src) : Bool := src == .mgmt && !decide (0 ∈ s.ctxs.noMemory)

/-! Memory -/

def pantryBase : Nat := 0xC000000000
def lsBase : Nat := 0xC100000000

/-- On-chip storage with valid bits (R260): Pantry windows and local stores. -/
def onChip (a : Nat) : Bool := decide (pantryBase ≤ a ∧ a < 0xC200000000)

/-- HBM (Table 9-1). -/
def isHbm (a : Nat) : Bool := decide (a < 0xC000000000)

/-- Whether the 128-byte line of an on-chip address holds data. -/
def lineValid (s : State) (a : Nat) : Bool := storeGet false s.mem.valid (a / 128)

/-- One byte as any reader sees it (R260). -/
def readByte (s : State) (a : Nat) : Nat :=
  if onChip a && !lineValid s a then 0 else (storeGet (0 : Byte) s.mem.bytes a).toNat

/-- Write one byte; an invalid on-chip line becomes valid with zeros in its other bytes (R260). -/
def writeByte (s : State) (a v : Nat) : State :=
  if onChip a && !lineValid s a then
    updMem s fun m => { m with
      bytes := storePut (0 : Byte) (storeKeep (fun k => k / 128 != a / 128) m.bytes) a (BitVec.ofNat 8 v)
      valid := storePut false m.valid (a / 128) true }
  else updMem s fun m => { m with bytes := storePut (0 : Byte) m.bytes a (BitVec.ofNat 8 v) }

def readBytes (s : State) (a n : Nat) : List Nat := (List.range n).map (fun i => readByte s (a + i))

def writeBytes : List Nat → Nat → State → State
  | [], _, s => s
  | v :: r, a, s => writeBytes r (a + 1) (writeByte s a v)

/-- Little-endian number of n bytes (R2). -/
def leNum (l : List Nat) : Nat := l.foldr (fun b acc => b % 256 + 256 * acc) 0
def leBytes (n v : Nat) : List Nat := (List.range n).map (fun i => v / 256 ^ i % 256)
def readLe (s : State) (a n : Nat) : Nat := leNum (readBytes s a n)
def writeLe (s : State) (a n v : Nat) : State := writeBytes (leBytes n v) a s

/-- Something leaves the module. -/
def emit (s : State) (o : Out) : State := updRep s fun r => { r with outs := r.outs ++ [o] }

/-- Bytes go to host memory, at the IOVA that an address with bit 48 set or clear gives (R18). -/
def hostOut (s : State) (ctx a : Nat) (l : List Nat) : State := emit s (.hostWrite ctx (a % 2 ^ 48) l)

/-- Fold a state transformer over a list. -/
def each {α : Type} (l : List α) (s : State) (f : State → α → State) : State := l.foldl f s

/-- Insert an element into a sorted list, after its equals. -/
def insertBy {α : Type} (le : α → α → Bool) (x : α) : List α → List α
  | [] => [x]
  | y :: r => if le y x then y :: insertBy le x r else x :: y :: r

/-- Sort a list; equal elements keep their order. -/
def sortBy {α : Type} (le : α → α → Bool) (l : List α) : List α := l.foldl (fun acc x => insertBy le x acc) []

/-- The module hub index whose storage a 4 KiB granule of the device map belongs to (R16). -/
def granuleHub (g : Nat) : Nat :=
  if g < 0xC100000 then (g - 0xC000000) / 2048
  else
    let core := (g - 0xC100000) / 32
    core / 8192 * 40 + core % 8192 / 128

/-- 4 KiB units of the HBM regions whose owner is MODULE, which hold the runtime's own data (R257). -/
def moduleUnits (s : State) : Nat := (s.mem.regions.filter (fun e => e.2 == 0x40)).length * 16384

/-- Accepted items of a context without a final code (R8). -/
def itemCount (s : State) (c : Nat) : Nat := (s.serve.items.filter (fun i => i.ctx == c)).length

/-- Set a field in the register store. -/
def putReg (m : Store Nat) (f : Fld) (n v : Nat) : Store Nat := storePut (regReset f n) m (regKey f n) v

/-- Registers that are another view of the runtime's lists: open items, sessions, records in the fault
queue (Tables 7-14, 7-15, 14-9). -/
def viewRegs (s : State) : Store Nat :=
  let m := (List.range 64).foldl (fun m c => putReg m .SERVE_OPEN_ITEMS c (itemCount s c)) s.regs
  putReg (putReg m .SERVE_SESSIONS_OPEN 0 s.serve.sessions.length) .MGMT_EVENTS_PENDING 0 (min 4096 s.rep.faultQueue.length)

/-- The state with those registers set. -/
def mirror (s : State) : State := { s with regs := viewRegs s }

/-- What every command ends with: the next state, in which the registers that are views show their lists
and the queue of waiting commands is as it was, since no command changes it. -/
def settle (s t : State) : Host.Outcome State Fault Refusal :=
  .next { mirror t with pending := s.pending }

end Sys2Proof.Machine
end

