-- ==== Sys2Proof/Machine/Trails.lean ====
section
/-! DEFINITION. Event trails and their freezes (R452, R453) and the counts that hubs contribute (R449). -/

namespace Sys2Proof.Machine

/-- Keys of the trails. -/
def hubTrail (h : Nat) : Nat := 20000 + h
def vestTrail : Nat := 30000

/-- Entries a trail holds (R452). -/
def trailSize (k : Nat) : Nat := if k < 20000 then 32 else if k < 30000 then 64 else 256

/-- Whether the trail of a key is frozen. -/
def trailFrozen (s : State) (k : Nat) : Bool :=
  if k = vestTrail then s.dbg.vFrozen
  else rdb s .DBG_TRAIL_STATUS_FROZEN (if k < 20000 then k / 66 else k - 20000)

/-- Whether a context is of the confidential class. -/
def confidential (s : State) (c : Nat) : Bool := rdb s .CTX_STATE_CLASS c

/-- Write a trail entry. A confidential-class context causes none; the trail then owes a WINDOW_GAP (R452). -/
def trail (s : State) (k code ctx arg16 arg32 : Nat) : State :=
  if confidential s ctx then
    updDbg s fun d => { d with skipped := if k ∈ d.skipped then d.skipped else d.skipped ++ [k] }
  else if trailFrozen s k then s
  else
    let l := storeGet [] s.dbg.trails k ++ [⟨s.now, code, ctx, arg16 % 65536, arg32 % 2 ^ 32⟩]
    updDbg s fun d => { d with
      trails := storePut [] d.trails k (l.drop (l.length - trailSize k))
      trailNext := storePut 0 d.trailNext k ((storeGet 0 d.trailNext k + 1) % trailSize k) }

/-- Freeze one scope: a hub's trails, or the Vestibule's (160). Its dump starts where DBG_DUMP_BASE is set. -/
def freezeScope (s : State) (h trigger : Nat) : State :=
  let frozen := if h = 160 then s.dbg.vFrozen else rdb s .DBG_TRAIL_STATUS_FROZEN h
  if frozen then s
  else
    let s := if h = 160 then updDbg s fun d => { d with vFrozen := true }
      else wr (wr (wr s .DBG_TRAIL_STATUS_FROZEN h 1) .DBG_TRAIL_STATUS_TRIGGER h trigger) .DBG_TRAIL_STATUS_DUMPED h 0
    let s := wr (wr s .DBG_STATUS_FROZEN 0 1) .DBG_FREEZE_AT 0 s.now
    if rd s .DBG_DUMP_BASE = 0 then s else updDbg s fun d => { d with dumps := d.dumps ++ [(h, s.now, trigger)] }

/-- A trigger of FREEZE_ON freezes the affected hub and the Vestibule, unless that hub is frozen (R453). -/
def freezeHub (s : State) (h bit : Nat) : State :=
  if bitAt (rd s .DBG_CTRL_FREEZE_ON) bit && !rdb s .DBG_TRAIL_STATUS_FROZEN h then
    freezeScope (freezeScope s h (bit + 1)) 160 (bit + 1)
  else s

/-- Freeze every trail of the module. -/
def freezeAll (s : State) (trigger : Nat) : State := each (List.range 161) s fun t h => freezeScope t h trigger

/-- DBG_STATUS shows whether any trail is frozen and any control core halted. -/
def settleDebug (s : State) : State :=
  let frozen := s.dbg.vFrozen || s.regs.any (fun e => e.1 % 1024 == Fld.DBG_TRAIL_STATUS_FROZEN.ctorIdx)
  wrb (wrb s .DBG_STATUS_FROZEN 0 frozen) .DBG_STATUS_HALTED 0 (!s.core.halted.isEmpty)

/-- Counts that wait for a contribution (R449), by the counter's place in Table 16-7. -/
def contribute (s : State) (i n : Nat) : State :=
  updDbg s fun d => { d with contrib := storePut 0 d.contrib i (storeGet 0 d.contrib i + n) }

/-- The counters of Table 16-7 in order. -/
def debugCounters : List Fld :=
  [.DBG_BUSY_CYCLES, .DBG_MAC_ROWS, .DBG_HBM_BYTES, .DBG_HALL_FLITS, .DBG_STEPS, .DBG_IDLE_NS, .DBG_ERR_ARITH,
   .DBG_ERR_ECC_CORR, .DBG_ERR_ECC_UNCORR, .DBG_ERR_LINK]

/-- Add the waiting counts to the module counters, which wrap (R449). -/
def addContributions (s : State) : State :=
  let s := each s.dbg.contrib s fun t e =>
    match debugCounters[e.1]? with
    | some f => wr t f 0 ((rd t f + e.2) % 2 ^ 64)
    | none => t
  updDbg s fun d => { d with contrib := [] }

end Sys2Proof.Machine
end

