-- ==== Sys2Proof/Machine/Report.lean ====
section
/-! DEFINITION. The report path (R304 to R308), interrupts (R407 to R412) and event records (R208 to
R213): the operations every family reports through. -/

namespace Sys2Proof.Machine

/-! Interrupts -/

/-- Key of an MSI-X table entry: function 0 is the PF. -/
def msixKey (fn entry : Nat) : Nat := fn * 2048 + entry

/-- Whether an entry is masked, by its own Mask bit or by the Function Mask (R408). Mask bits are 1
until software clears them. -/
def msixMasked (s : State) (fn entry : Nat) : Bool :=
  storeGet true s.rep.msixMask (msixKey fn entry) || storeGet false s.rep.fnMask fn

/-- Send a message of an entry, or set its pending bit while it is masked (R412). -/
def sendMsix (s : State) (fn entry : Nat) : State :=
  if msixMasked s fn entry then
    updRep s fun r => { r with msixPending := storePut false r.msixPending (msixKey fn entry) true }
  else emit s (.msix ⟨fn, entry⟩)

/-- The four bits of EVC_STATUS. -/
def evcStatus (s : State) : Nat :=
  rd s .EVC_STATUS_CELLAR + 2 * rd s .EVC_STATUS_CTX + 4 * rd s .EVC_STATUS_LINK + 8 * rd s .EVC_STATUS_POWER

/-- The route mask of a source (Table 14-5). -/
def routeMask (s : State) : IrqSource → Nat
  | .module => rd s .EVC_ROUTE_MODULE
  | .mbxVf => rd s .EVC_ROUTE_MBX

/-- The entry that a source used last. -/
def lastUsed (s : State) : IrqSource → Nat
  | .module => s.rep.lastTarget.1
  | .mbxVf => s.rep.lastTarget.2

/-- The enabled target after the one used last, in ascending order with wrap-around (R408). -/
def nextTarget (s : State) (src : IrqSource) : Option Nat :=
  ((List.range 32).map (fun i => (lastUsed s src + 1 + i) % 32)).find?
    (fun e => bitAt (routeMask s src) e && !msixMasked s 0 e)

/-- The delivery state of PF entry e. -/
def pfTarget (s : State) (e : Nat) : PfTarget := storeGet ⟨none, 0, 0, []⟩ s.rep.pfTargets e

def setPfTarget (s : State) (e : Nat) (t : PfTarget) : State :=
  updRep s fun r => { r with pfTargets := storePut ⟨none, 0, 0, []⟩ r.pfTargets e t }

/-- Send to PF entry e what a source reports (R409). -/
def sendPf (s : State) (e : Nat) (src : IrqSource) : State :=
  let old := pfTarget s e
  let t : PfTarget :=
    { lastSent := some s.now
      reportedStatus := if src = .module then evcStatus s else 0
      reportedMbx := if src = .mbxVf then rd s .EVC_MBX_PENDING else 0
      waiting := old.waiting.filter (· ≠ src) }
  sendMsix (setPfTarget s e t) 0 e

/-- Whether PF entry e is idle: every status bit of its most recent delivery has been cleared. -/
def pfIdle (s : State) (e : Nat) : Bool := (pfTarget s e).reportedStatus == 0 && (pfTarget s e).reportedMbx == 0

/-- Whether the moderation interval of entry e has passed (R409). -/
def modPassed (s : State) (e : Nat) : Bool :=
  match (pfTarget s e).lastSent with
  | none => true
  | some t => decide (t + rd s .EVC_MOD e * 1000 ≤ s.now)

/-- Deliver an event of a source: to the next enabled target, at once or after the moderation interval;
with no enabled target it stays pending (R408, R409). -/
def deliver (s : State) (src : IrqSource) : State :=
  match nextTarget s src with
  | none =>
    if src ∈ s.rep.pendingSrc then s else updRep s fun r => { r with pendingSrc := r.pendingSrc ++ [src] }
  | some e =>
    let s := updRep s fun r =>
      { r with lastTarget := if src = .module then (e, r.lastTarget.2) else (r.lastTarget.1, e) }
    if pfIdle s e || modPassed s e then sendPf s e src
    else
      let t := pfTarget s e
      if src ∈ t.waiting then s else setPfTarget s e { t with waiting := t.waiting ++ [src] }

/-- A target may have become enabled: deliver the sources that wait for one, once each (R408). -/
def deliverPending (s : State) : State :=
  each s.rep.pendingSrc s fun t src =>
    if (nextTarget t src).isSome then
      deliver (updRep t fun r => { r with pendingSrc := r.pendingSrc.filter (· ≠ src) }) src
    else t

/-- Set a bit of EVC_STATUS and raise MODULE (Table 14-5). -/
def raiseModule (s : State) (bit : Fld) : State := deliver (wr s bit 0 1) .module

/-! Cellar records -/

/-- Kinds that are never coalesced and never dropped (R304). -/
def neverDropped (kind : Nat) : Bool := kind == 0x03 || kind == 0x05 || kind == 0x0A

/-- A record enters the path: it takes the next SEQ, waits for its durable write, and enters the Porch
fault queue unless 4,096 records fill it (R304). -/
def acceptRecord (s : State) (c : CellarRec) : State :=
  let c := { c with seq := rd s .CELLAR_NEXT_SEQ }
  let s := incWrap s .CELLAR_NEXT_SEQ
  let s := updRep s fun r => { r with toWrite := r.toWrite ++ [c] }
  if s.rep.faultQueue.length < 4096 || neverDropped c.kind then
    raiseModule (updRep s fun r => { r with faultQueue := r.faultQueue ++ [c] }) .EVC_STATUS_CELLAR
  else inc s .CELLAR_DROPPED

/-- The coalescing window of a KIND and UNIT that is open now (R304). -/
def openWindow (s : State) (kind unit : Nat) : Option Coalesce :=
  s.rep.coalesce.find? (fun w => w.kind == kind && w.unit == unit && decide (s.now < w.start + 1000000000))

/-- A record is formed and queued, or only counted in an open coalescing window (R304). -/
def queueRecord (s : State) (c : CellarRec) : State :=
  if neverDropped c.kind then acceptRecord s c
  else
    match openWindow s c.kind c.unit with
    | some _ =>
      updRep s fun r => { r with coalesce := r.coalesce.map fun w =>
        if w.kind = c.kind ∧ w.unit = c.unit then { w with more := w.more + 1, last := c } else w }
    | none =>
      let keep := s.rep.coalesce.filter (fun w => !(w.kind == c.kind && w.unit == c.unit))
      acceptRecord (updRep s fun r => { r with coalesce := keep ++ [⟨c.kind, c.unit, s.now, 0, c⟩] }) c

/-- Form a Cellar record (Table 10-6). `cause` is the context of the command concerned; `data` lists
width, value and whether the field names a card ID, a command index, a row or an address, which R306
withholds in the window of the context that caused the record. -/
def report (s : State) (kind unit : Nat) (data : List (Nat × Nat × Bool)) (cause : Option Nat := none)
    (st : Nat := 0) (injected : Bool := false) : State :=
  let withheld := cause.isSome && windowCtx s == cause
  queueRecord s
    { kind := kind
      flags := b2n injected + 2 * b2n withheld
      unit := unit
      seq := 0
      time := s.now
      boot := rd s .BOOT_COUNT
      ctx := if withheld then 0xFF else cause.getD 0xFF
      st := st
      count := 1
      step := rd s .TT_STEP_NUMBER
      data := data.map fun d => (d.1, if withheld && d.2.2 then 0 else d.2.1) }

/-- A hub error: the register offset of the status that latched, its value and the logical slot (R304); it
leaves a trail entry and may freeze the hub's trails (R453). -/
def hubError (s : State) (hub off value slot : Nat) (cause : Option Nat := none) : State :=
  let s := report s 0x0C hub [(4, off, false), (4, value, false), (1, slot, false)] cause
  freezeHub (trail s (hubTrail hub) 0x25 (cause.getD 0) slot off) hub 2

/-- A TEARDOWN record's DATA (Table 10-7). -/
def reportTeardown (s : State) (ctx why : Nat) : State :=
  report s 0x0B 0 [(1, why, false), (1, ctx, false)] (some ctx)

/-- An entry of the reset and low-power log (Table 15-12), which holds 894. -/
def logEntry (s : State) (kind detail unit duration : Nat) : State :=
  let all := s.rep.log ++ [⟨kind, detail, unit, rd s .BOOT_COUNT, s.now, rd s .ENERGY_MODULE, duration⟩]
  updRep s fun r => { r with log := all.drop (all.length - 894) }

/-! Event queues -/

def emptyQueue : CtxQueue := ⟨0, 0, 0, [], none, false, false, 0⟩

def queueOf (s : State) (c : Nat) : CtxQueue := storeGet emptyQueue s.serve.queues c

def setQueue (s : State) (c : Nat) (q : CtxQueue) : State :=
  updServe s fun v => { v with queues := storePut emptyQueue v.queues c q }

/-- Whether the host can be written for a context: the link is in DL_Up and its function may master the
bus (R401, R402). -/
def hostReach (s : State) (c : Nat) : Bool :=
  rdb s .PCIE_LINK_UP && !decide (c ∈ s.ctxs.noMaster)

/-- Records in the event queue that the host has not consumed (R190). -/
def evqUsed (s : State) (c : Nat) : Nat :=
  (rd s .SERVE_EVQ_COUNT c + 2 ^ 32 - (queueOf s c).consumer) % 2 ^ 32

def evqSize (s : State) (c : Nat) : Nat := 2 ^ rd s .SERVE_EVQ_SIZE_LOG2 c

/-- Whether a record can go to the host's queue now. -/
def evqRoom (s : State) (c : Nat) : Bool :=
  hostReach s c && !(queueOf s c).noRoom && decide (evqUsed s c < evqSize s c)

/-- Records that occupy general records of spill (R209). -/
def generalUsed (q : CtxQueue) : Nat := (q.spill.filter (·.1)).length

/-- The module half of a control block: the 64 bytes from 0x40 on (Table 7-2). -/
def controlBytes (consumer producer spilled : Nat) : List Nat :=
  leBytes 4 consumer ++ leBytes 4 producer ++ leBytes 4 spilled ++ List.replicate 52 0

/-- The module writes its half of the control block (R190). -/
def writeControl (s : State) (c : Nat) : State :=
  hostOut s c (rd s .SERVE_BLOCK_ADDR c * 128 + 0x40)
    (controlBytes (rd s .SERVE_INTAKE_COUNT c) (rd s .SERVE_EVQ_COUNT c) (rd s .SERVE_SPILLED c))

/-- Bytes 0x18 to 0x3F of an event record (Table 7-9). -/
def bodyBytes : EventBody → List Nat
  | .accepted deadline interval opcode readTime =>
    leBytes 8 deadline ++ leBytes 4 interval ++ leBytes 4 (opcode % 256) ++ leBytes 8 readTime ++ List.replicate 16 0
  | .tokens late truncated stopped firstIndex toks =>
    [toks.length, b2n late + 2 * b2n truncated + 4 * b2n stopped, 0, 0] ++ leBytes 4 firstIndex
      ++ ((List.range 8).map (fun i => leBytes 4 (toks.getD i 0))).flatten
  | .final issued appended committed cardId lastIssue lateNs draftsAccepted draftsProposed =>
    leBytes 4 issued ++ leBytes 4 appended ++ leBytes 4 committed ++ leBytes 4 cardId ++ leBytes 8 lastIssue
      ++ leBytes 4 (min lateNs 0xFFFFFFFF) ++ leBytes 4 draftsAccepted ++ leBytes 4 draftsProposed ++ List.replicate 4 0
  | .ring => List.replicate 40 0

/-- KIND of an event record (Table 7-8). -/
def eventKind : EventBody → Nat
  | .accepted .. => 1
  | .tokens .. => 2
  | .final .. => 3
  | .ring => 4

/-- The 64 bytes of an event record (Tables 7-8, 7-9). -/
def eventBytes (r : EventRec) : List Nat :=
  [eventKind r.body, r.status % 256, r.cause % 256, r.detail % 256] ++ leBytes 4 r.handle ++ leBytes 8 r.tag ++ leBytes 4 r.seq
    ++ leBytes 4 r.reqIndex ++ bodyBytes r.body

/-- Where the record of a count goes: the slot of the count modulo the queue's size (R190, R208). -/
def evqAddr (s : State) (c n : Nat) : Nat := rd s .SERVE_EVQ_BASE c * 64 + 64 * (n % evqSize s c)

/-- Keep SERVE_SPILLED and BACKLOG as R209 says; the 100 ms count from when BACKLOG is set. -/
def spillStatus (s : State) (c : Nat) : State :=
  let q := queueOf s c
  let full := decide (4096 ≤ generalUsed q)
  let s := wr s .SERVE_SPILLED c q.spill.length
  let s := wrb s .SERVE_CTRL_BACKLOG c full
  setQueue s c { q with backlogSince := if full then some (q.backlogSince.getD s.now) else none }

/-- The MSI-X function and entry of a context's event queue (Table 14-5). -/
def fireEvq (s : State) (c : Nat) : State :=
  let q := queueOf s c
  if q.armed && rd s .SERVE_EVQ_COUNT c != q.consumer && hostReach s c then
    sendMsix (setQueue s c { q with armed := false, noted := q.consumer }) c (rd s .SERVE_EVQ_SIZE_VECTOR c)
  else s

/-- Write a record into the host's queue and then EVQ_PRODUCER (R208). -/
def writeEvq (s : State) (c : Nat) (r : EventRec) : State :=
  let s := hostOut s c (evqAddr s c (rd s .SERVE_EVQ_COUNT c)) (eventBytes r)
  incWrap s .SERVE_EVQ_COUNT c

/-- Move spilled records to the queue in order while there is room (R209); n bounds the number. -/
def drainLoop (c : Nat) : Nat → State → State
  | 0, s => s
  | n + 1, s =>
    match (queueOf s c).spill with
    | [] => s
    | e :: r =>
      if evqRoom s c then drainLoop c n (writeEvq (setQueue s c { queueOf s c with spill := r }) c e.2) else s

/-- Drain spill, write the control block and fire the queue's interrupt (R209, R410). -/
def drainSpill (s : State) (c : Nat) : State :=
  if (queueOf s c).spill = [] ∨ evqRoom s c = false then s
  else fireEvq (writeControl (spillStatus (drainLoop c (queueOf s c).spill.length s) c) c) c

/-- Whether a record other than a final code would find no room at all (R209). -/
def generalFull (s : State) (c : Nat) : Bool :=
  !((queueOf s c).spill.isEmpty && evqRoom s c) && decide (4096 ≤ generalUsed (queueOf s c))

/-- Write a record of a context, to the queue or to spill (R208, R209). The caller has seen that a record
other than a final code finds room. -/
def putEvent (s : State) (c : Nat) (final : Bool) (r : EventRec) : State :=
  if (queueOf s c).spill.isEmpty && evqRoom s c then fireEvq (writeControl (writeEvq s c r) c) c
  else
    let q := queueOf s c
    let s := spillStatus (setQueue s c { q with spill := q.spill ++ [(!final, r)] }) c
    if hostReach s c then writeControl s c else s

/-! Sessions named by a handle -/

def handleCtx (h : Nat) : Nat := bitsOf h 31 26
def handleIdx (h : Nat) : Nat := bitsOf h 25 10
def handleGen (h : Nat) : Nat := bitsOf h 9 0

/-- The handle of R17. -/
def mkHandle (ctx idx gen : Nat) : Nat := ctx * 2 ^ 26 + idx * 2 ^ 10 + gen

/-- The session of an index, if it is not FREE. -/
def sessAt (s : State) (i : Nat) : Option Session := storeFind s.serve.sessions i

/-- Whether a handle names a live session of the context that the host may see (R17, R204). -/
def liveHandle (s : State) (ctx h : Nat) : Option Nat :=
  match sessAt s (handleIdx h) with
  | some x =>
    if handleCtx h = ctx ∧ x.ctx = ctx ∧ x.gen = handleGen h ∧ handleGen h ≠ 0 ∧ x.isCompanion = false
    then some (handleIdx h) else none
  | none => none

/-- The code and detail of check 6 for a handle: generation, then context, then index (Table 7-7). -/
def handleCheck (s : State) (ctx h : Nat) : Option Nat :=
  if handleGen h = 0 then some 0x01
  else if handleCtx h ≠ ctx then some 0x02
  else match sessAt s (handleIdx h) with
    | none => some (if ((storeFind s.serve.idxUsed (handleIdx h)).map (·.1)).getD (handleGen h) = handleGen h then 0x03 else 0x01)
    | some x =>
      if x.gen ≠ handleGen h then some 0x01
      else if x.ctx ≠ ctx then some 0x02
      else if x.isCompanion then some 0x03 else none

/-- The next value of a session's sequence counter (R210). -/
def nextSeq (q : Nat) : Nat := if q ≥ 0xFFFFFFFF then 1 else q + 1

def setSession (s : State) (i : Nat) (x : Session) : State :=
  updServe s fun v => { v with sessions := storeInsert v.sessions i x }

/-- A record of an item or of an answer: HANDLE and the next SEQ of the session it names, else the
request's HANDLE and SEQ 0 (R210). -/
def sendEvent (s : State) (ctx handle tag idx status cause detail : Nat) (final : Bool) (body : EventBody) : State :=
  match liveHandle s ctx handle with
  | some i =>
    match sessAt s i with
    | some x =>
      let q := nextSeq x.seq
      putEvent (setSession s i { x with seq := q }) ctx final ⟨status, cause, detail, handle, tag, q, idx, body⟩
    | none => s
  | none => putEvent s ctx final ⟨status, cause, detail, handle, tag, 0, idx, body⟩

/-- A RING event (R193, Table 7-8). -/
def ringEvent (s : State) (c detail : Nat) : State :=
  if generalFull s c then s
  else putEvent s c false ⟨0x30, 0, detail, 0, 0, 0, rd s .SERVE_INTAKE_COUNT c, .ring⟩

/-- A ring fault: a RING event, ENABLE cleared, FAULTED set (R193, R411). -/
def ringFault (s : State) (c detail : Nat) : State :=
  wr (wr (ringEvent s c detail) .SERVE_CTRL_ENABLE c 0) .SERVE_CTRL_FAULTED c 1

/-- What a read of EVQ_CONSUMER gives: an out-of-range value raises detail 0x03 once, and then leaves
the queue without room until a value in range is read (R411); spill drains as room appears; a disarmed
queue whose consumer has moved is armed again (R410). -/
def readConsumer (s : State) (c v : Nat) : State :=
  let q := queueOf s c
  if (rd s .SERVE_EVQ_COUNT c + 2 ^ 32 - v) % 2 ^ 32 > evqSize s c then
    let s1 := setQueue s c { q with noRoom := true }
    if rdb s .SERVE_CTRL_FAULTED c then s1 else ringFault s1 c 0x03
  else
    let rearm := !q.armed && v != q.noted
    let s := setQueue s c { q with consumer := v, noRoom := false, armed := q.armed || rearm }
    fireEvq (drainSpill s c) c

end Sys2Proof.Machine
end

