-- ==== Sys2Proof/Machine/Planner.lean ====
section
/-! DEFINITION. The step planner: lengths (R38, R39), planned ends, the trial plan of a placement (R54,
R200), and the page and session arithmetic of admission (R180, R181, R186). -/

namespace Sys2Proof.Machine

/-- f(Gg) in MHz (Table 11-2). -/
def gearMhz : Nat → Nat
  | 0 => 350 | 1 => 500 | 2 => 600 | 3 => 700 | 4 => 800 | 5 => 900 | 6 => 975 | _ => 1050

/-- The smallest row bucket that holds n rows (R38); beyond 1,024 there is none. -/
def rowBucket (n : Nat) : Nat :=
  if n ≤ 64 then 64 else if n ≤ 128 then 128 else if n ≤ 256 then 256 else if n ≤ 512 then 512 else 1024

/-- Rows of the step's 1,024 that a step's decode rows occupy (R199). -/
def rowCount (p : PStep) : Nat := (p.rows.map (fun r => 1 + r.depth)).sum

/-- Prefill tokens of a step (R200: at most 4,096). -/
def tokenCount (p : PStep) : Nat := (p.chunks.map (·.tokens)).sum

/-- The step without work. -/
def emptyStep : PStep := ⟨none, false, false, 0, [], [], [], 0, []⟩

/-- Whether a step holds work (R38). -/
def hasWork (p : PStep) : Bool :=
  !p.rows.isEmpty || !p.chunks.isEmpty || !p.train.isEmpty || p.moveNs != 0 || p.switchIn || p.switchOut

/-- A loaded model. -/
def modelAt (s : State) (m : Nat) : Option Model := storeFind s.serve.models m

/-- The segments a recipe lists for the smallest size that is at least n, or for its largest size. -/
def recipeFor (l : List (Nat × List (List Nat))) (n : Nat) : List (List Nat) :=
  match l.filter (fun e => decide (n ≤ e.1)) with
  | [] => (l.getLast?.map (·.2)).getD []
  | e :: r => (r.foldl (fun a b => if b.1 < a.1 then b else a) e).2

/-- The card that a card is a variant of; itself if of none. -/
def baseCard (m : Model) (card : Nat) : Nat := ((m.recipe.variants.find? (fun v => v.variant == card)).map (·.card)).getD card

/-- The wings that run a card (R39). DESIGN CHOICE (log 68): the recipe tells them; a card it does not place runs on all four. -/
def cardWings (m : Model) (card : Nat) : List Nat :=
  match (m.recipe.wings.find? (fun e => e.1 == baseCard m card)).map (fun e => (List.range 4).filter (bitAt e.2)) with
  | some (w :: r) => w :: r
  | _ => [0, 1, 2, 3]

/-- The largest serving-core count of a variant that does not exceed a count (R295). -/
def variantOf (n : Nat) : Nat := ([64, 63, 62, 60, 56].find? (fun v => decide (v ≤ n))).getD 56

/-- The variant of a card for the placement of the last freeze (R295): for the largest count that every hub of its wings serves,
and for the most hubs that are in placement. -/
def placedCard (s : State) (m : Model) (card : Nat) : Nat :=
  let ps := (cardWings m card).map (fun w => s.tt.placed.getD w (40, 64))
  let cores := variantOf ((ps.filter (fun p => p.1 != 0)).foldl (fun n p => min n p.2) 64)
  let hubs := (ps.map (·.1)).sum
  let l := m.recipe.variants.filter (fun (v : CardVariant) => v.card == card && v.cores == cores && decide (v.hubs ≤ hubs))
  ((l.find? (fun (v : CardVariant) => l.all (fun (u : CardVariant) => decide (u.hubs ≤ v.hubs)))).map (fun v => v.variant)).getD card

/-- The cards of a segment. -/
def segCards (m : Model) (ids : List Nat) : List CardImage := m.cards.filter (fun c => c.cardId ∈ ids)

/-- The overflow pass that an expert pass over a number of rows needs (R58): k × (rows − c) row-expert pairs, spread over
min(E, floor(rows × k ÷ (c + 1))) experts' weights; the smallest that is prepared for so many, or the last. None where no
expert can hold more than c rows. -/
def overflowCard (w : WorstCase) (rows : Nat) : Option Nat :=
  let pairs := w.topK * (rows - w.capacity)
  let spread := min w.experts (rows * w.topK / (w.capacity + 1))
  if pairs = 0 then none
  else (((w.passes.filter (fun p => decide (pairs ≤ p.1 ∧ spread ≤ p.2.1))).head?.orElse (fun _ => w.passes.getLast?))).map (·.2.2)

/-- A segment over a number of rows, with the overflow pass that follows its cards with WORST_CASE set (R58). -/
def withOverflow (m : Model) (rows : Nat) (ids : List Nat) : List (List Nat) :=
  let bounded := (segCards m ids).filter (fun c => bitAt c.flags 1)
  let extra := (m.recipe.worst.filter (fun w => bounded.any (fun c => c.cardId == w.card))).filterMap (fun w => overflowCard w rows)
  if extra.isEmpty then [ids] else [ids, extra]

/-- The time of one card in slots: that of the slowest wing that runs it (R39). -/
def cardSlots (m : Model) (gs : List Nat) (c : CardImage) : Nat :=
  ((cardWings m c.cardId).map (fun w =>
    let g := max (gs.getD w 0) c.minGear
    ceilDiv (c.cycles.getD g 0 * 25) (gearMhz g))).foldl max 0

/-- Slots of one segment: the longest of its cards, each at the gears planned for its wings, and the drain slot (R39). -/
def segSlots (m : Model) (gs : List Nat) (ids : List Nat) : Nat := ((segCards m ids).map (cardSlots m gs)).foldl max 0 + 1

/-- The segments of model number n over a number of rows, with their overflow passes, each card in the variant for its placement. -/
def modelSegs (s : State) (n rows : Nat) (pick : Recipe → List (List Nat)) : List (Model × List Nat) :=
  match modelAt s n with
  | some m => ((pick m.recipe).flatMap (withOverflow m rows)).map (fun ids => (m, ids.map (placedCard s m)))
  | none => []

/-- Sessions of a step with a draft depth above 0, with the depth and draft model of each; a request whose
first token the step samples counts (R205). -/
def draftRows (p : PStep) : List (Nat × Nat) :=
  (p.rows.map (fun r => (r.depth, r.draft)) ++ (p.chunks.filter (·.samples)).map (fun c => (c.depth, c.draft))).filter
    (fun (d : Nat × Nat) => d.1 != 0)

/-- The segments of stage 3 of R205: D_max draft passes in sequence. -/
def draftSegs (s : State) (p : PStep) : List (Model × List Nat) :=
  let ds := draftRows p
  let dmax := (ds.map (·.1)).foldl max 0
  let b := rowBucket ds.length
  (List.replicate dmax ((ds.map (·.2)).eraseDups.flatMap (fun m =>
    modelSegs s m b (fun r => recipeFor r.decode b ++ recipeFor r.sampling b)))).flatten

/-- The segments of a step in order (R38, R39): decode, prefill, sampling, draft passes and training work. -/
def stepSegs (s : State) (p : PStep) : List (Model × List Nat) :=
  let b := rowBucket (rowCount p)
  let ms := (p.rows.map (·.model)).eraseDups
  let smp := (p.rows.map (·.model) ++ (p.chunks.filter (·.samples)).map (·.model)).eraseDups
  ms.flatMap (fun m => modelSegs s m b (fun r => recipeFor r.decode b))
    ++ p.chunks.flatMap (fun c => modelSegs s c.model (c.blocks * 256) (fun r => recipeFor r.prefill c.blocks))
    ++ smp.flatMap (fun m => modelSegs s m b (fun r => recipeFor r.sampling b))
    ++ draftSegs s p
    ++ p.train.flatMap (fun t => modelSegs s t.model (t.blocks * 256) (fun r => if t.opt then r.optimizer else recipeFor r.train t.blocks))

/-- The effective ceilings of the wings. -/
def ceilings (s : State) : List Nat := (List.range 4).map (fun w => rd s .DRL_GEAR_CEILING w)

/-- What the predictions of the last freeze allow each wing (R319), and THROTTLE_GEAR while THROTTLE_IN_N is asserted (R323). -/
def gearsAllowed (s : State) : List Nat :=
  (List.range 4).map (fun w => min (s.tt.gearLimit.getD w 7)
    (if rd s .PWR_STATUS_THROTTLE_ACTIVE = 1 then rd s .PWR_CONFIG_THROTTLE_GEAR else 7))

/-- The lower of two gears, wing by wing. -/
def lowerGears (a b : List Nat) : List Nat := List.zipWith min a b

/-- The gears of the wings that conditions 1, 3 and 4 of R319 allow steps that are still to freeze, and new admissions (R322). -/
def planGears (s : State) : List Nat := lowerGears (ceilings s) (gearsAllowed s)

/-- The gears of a step from those allowed: every wing at or above the MIN_GEAR of the cards it runs (R319). DESIGN CHOICE (log
68): a wing of which a card asks more than the other conditions allow is planned at that card's MIN_GEAR. -/
def stepGears (s : State) (base : List Nat) (p : PStep) : List Nat :=
  let cards := (stepSegs s p).flatMap (fun e => (segCards e.1 e.2).map (fun c => (cardWings e.1 c.cardId, c.minGear)))
  (List.range 4).map (fun w => ((cards.filter (fun c => decide (w ∈ c.1))).map (·.2)).foldl max (base.getD w 0))

/-- How many of the first planned steps have frozen (R36). -/
def frozenCount (s : State) : Nat := s.tt.frozen.length

/-- Slots of the gear changes at the start of a step (R39, R52), from the gears of the step before; none where there was no
step before. DESIGN CHOICE (log 68): wings that change at one slot boundary share the slot. -/
def gearChanges (prev : Option (List Nat)) (gs : List Nat) : Nat := b2n (prev.getD gs != gs)

/-- Whether the cards of a model need other modules: some card uses Spoke links (Table 2-2). -/
def needsPeers (s : State) (m : Nat) : Bool := ((modelAt s m).map (fun x => x.cards.any (fun c => bitAt c.flags 2))).getD false

/-- The work of a step in slots at its wings' gears (R39, R38, R180, R383); `chg` is the slot of a gear change at its start. -/
def stepWork (s : State) (gs : List Nat) (chg : Nat) (p : PStep) : Nat :=
  if p.switchIn || p.switchOut then ceilDiv p.switchNs slotNs
  else
    let core := ((stepSegs s p).map (fun e => segSlots e.1 gs e.2)).sum
    (if core = 0 then ceilDiv p.moveNs slotNs else core) + chg

/-- The planned length of a step in slots (R39); a switch step lasts its switch (R383). -/
def stepSlots (s : State) (gs : List Nat) (chg : Nat) (p : PStep) : Nat :=
  if p.switchIn || p.switchOut then stepWork s gs chg p
  else max 25 (ceilDiv (stepWork s gs chg p * 100) (100 - rd s .TT_CONFIG_RESERVE_PCT))

/-- The planned length in ns of a step that has not frozen, after a step with the gears `prev`. -/
def stepLen (s : State) (prev : Option (List Nat)) (p : PStep) : Nat :=
  let gs := stepGears s (planGears s) p
  stepSlots s gs (gearChanges prev gs) p * slotNs

/-- The gears of the first planned step: those that its freeze took, once it has frozen (R319). -/
def headGears (s : State) : List Nat :=
  match s.tt.frozen.head?, s.tt.plan with
  | some f, _ => f.gears
  | none, p :: _ => stepGears s (planGears s) p
  | none, [] => planGears s

/-- Planned start of the first planned step: the planned end of the running step, or later where the plan was empty when
its freeze passed (R32, R36). -/
def headStart (s : State) : Nat :=
  let t := (s.tt.frozen.head?.map (·.start)).getD s.tt.planStart
  if s.tt.run.running then max (rd s .TT_STEP_PLANNED_END) t else t

/-- Planned start that the first step of a plan takes when none is planned yet (R36, R475). -/
def newStart (s : State) : Nat :=
  if s.tt.run.running then
    if s.now + planLead s ≤ rd s .TT_STEP_PLANNED_END then rd s .TT_STEP_PLANNED_END
    else max (rd s .TT_STEP_PLANNED_END) (slotCeil (s.now + planLead s))
  else slotCeil (max s.now s.tt.run.lastEnd + planLead s)

/-- Planned start of the first step of the plan (R32, R475). -/
def firstStart (s : State) : Nat := if s.tt.plan.isEmpty then newStart s else headStart s

/-- The time before which the first step that has not frozen does not start: it is set when that step is planned, with
PLAN_LEAD for its freeze (R36, R475). -/
def openBound (s : State) : Nat :=
  if frozenCount s < s.tt.plan.length then s.tt.planStart
  else if s.tt.plan.isEmpty then newStart s
  else slotCeil (s.now + planLead s)

/-- Planned starts and ends of steps from time t on, the frozen ones first and the others at the gears that `base` allows,
after a step at the gears `prev` (R36, R39). -/
def spansFrom (s : State) (base : List Nat) : List FrozenStep → Bool → Option (List Nat) → Nat → List PStep → List (Nat × Nat)
  | _, _, _, _, [] => []
  | f :: fs, _, prev, t, p :: r =>
    let b := max t f.start
    let e := b + stepSlots s f.gears (gearChanges prev f.gears) p * slotNs
    (b, e) :: spansFrom s base fs true (some f.gears) e r
  | [], after, prev, t, p :: r =>
    let b := if after then max t (openBound s) else t
    let gs := stepGears s base p
    let e := b + stepSlots s gs (gearChanges prev gs) p * slotNs
    (b, e) :: spansFrom s base [] false (some gs) e r

/-- Planned starts and ends of a plan's steps. -/
def planSpans (s : State) (t : Nat) (plan : List PStep) : List (Nat × Nat) :=
  spansFrom s (planGears s) s.tt.frozen false s.tt.stepGears t plan

/-- Planned ends of a plan's steps. -/
def planEnds (s : State) (t : Nat) (plan : List PStep) : List Nat := (planSpans s t plan).map (·.2)

/-- Planned start of the first step that has not frozen. -/
def openStart (s : State) : Nat :=
  (((planSpans s (firstStart s) s.tt.plan).drop (frozenCount s)).head?.map (·.1)).getD (firstStart s)

/-- A planned delivery: context, intake index, token number j (0 for a completion) and its time. -/
structure Delivery where
  ctx : Nat
  idx : Nat
  j : Nat
  time : Nat
  deriving DecidableEq, Repr

/-- The deliveries of one step that ends at e. -/
def stepDeliveries (p : PStep) (e : Nat) : List Delivery :=
  p.rows.map (fun r => ⟨r.ctx, r.idx, r.j, e + 2000⟩)
    ++ (p.chunks.filter (·.last)).map (fun c => ⟨c.ctx, c.idx, b2n c.samples, e + 2000⟩)
    ++ (p.train.filter (·.last)).map (fun t => ⟨t.ctx, t.idx, 0, e + 2000⟩)

/-- All planned deliveries of a plan. -/
def deliveries (s : State) (plan : List PStep) : List Delivery :=
  ((plan.zip (planEnds s (firstStart s) plan)).map (fun e => stepDeliveries e.1 e.2)).flatten

/-- The promise of token j of an item (R55). -/
def promise (i : Item) (j : Nat) : Nat := i.deadline + (j - 1) * i.interval

/-- Whether a plan at the gears that `base` allows keeps every promise accepted by a time (R322). -/
def keepsPromises (s : State) (base : List Nat) (by_ : Nat) : Bool :=
  let spans := spansFrom s base s.tt.frozen false s.tt.stepGears (firstStart s) s.tt.plan
  ((s.tt.plan.zip spans).map (fun e => stepDeliveries e.1 e.2.2)).flatten.all fun d =>
    match s.serve.items.find? (fun i => i.ctx == d.ctx && i.idx == d.idx) with
    | some i => decide (by_ < i.tA) || decide (d.time ≤ promise i d.j)
    | none => true

/-- The gears that a step may take at its freeze: the lowered ceilings, or the lowest higher gears, up to the ceilings before
the drops, that keep every promise accepted before them (R322). -/
def freezeGears (s : State) : List Nat :=
  let base := planGears s
  let old := (List.range 4).map (fun w => (s.pwr.drops.map (fun d => d.2.getD w 0)).foldl max 0)
  let hi := List.zipWith max base (lowerGears old (gearsAllowed s))
  let by_ := (s.pwr.drops.map (·.1)).foldl max 0
  let raised := fun (n : Nat) => List.zipWith (fun b h => min h (b + n)) base hi
  if s.pwr.drops.isEmpty then base
  else (((List.range 8).map raised).find? (fun gs => keepsPromises s gs by_)).getD hi

/-- Whether a trial harms a delivery of an accepted item (R54): it plans it later than the current plan does, or after its
deadline while the current plan has it on time. -/
def harmed (s : State) (trial : List PStep) : Bool :=
  let old := deliveries s s.tt.plan
  (deliveries s trial).any fun d =>
    match old.find? (fun o => o.ctx == d.ctx && o.idx == d.idx && o.j == d.j),
          s.serve.items.find? (fun i => i.ctx == d.ctx && i.idx == d.idx) with
    | some o, some i => decide (o.time < d.time) || (decide (o.time ≤ promise i d.j) && decide (promise i d.j < d.time))
    | _, _ => false

/-- The interval of an accepted request with rows in a step; none for items that promise no token. -/
def rowInterval (s : State) (ctx idx : Nat) : Option Nat :=
  (s.serve.items.find? (fun i => i.ctx == ctx && i.idx == idx)).bind
    (fun i => if i.interval = 0 then none else some i.interval)

/-- I_min of a step (R54); a request that is not yet an item brings its own interval. -/
def iMin (s : State) (ctx idx ival : Nat) (p : PStep) : Option Nat :=
  let own := if p.rows.any (fun r => r.ctx == ctx && r.idx == idx) then [ival] else []
  match p.rows.filterMap (fun r => rowInterval s r.ctx r.idx) ++ own with
  | [] => none
  | a :: r => some (r.foldl min a)

/-- The TABLE_TAGs that the vector stages of a card name (R156). -/
def cardTags (c : CardImage) : List Nat :=
  ((c.cmds.flatMap (·.stages)).filterMap (fun st =>
    match st with | .vector d | .reduction d | .sfu d => (if d.tableTag = 0 then none else some d.tableTag) | _ => none)).eraseDups

/-- The cards of a step name one coefficient table (R156). DESIGN CHOICE (log 68): cards that share a wing share hubs. -/
def tagsAgree (s : State) (p : PStep) : Bool :=
  let uses := (stepSegs s p).flatMap (fun e => (segCards e.1 e.2).map (fun c => (cardWings e.1 c.cardId, cardTags c)))
  (List.range 4).all (fun w =>
    decide (((uses.filter (fun u => decide (w ∈ u.1))).flatMap (·.2)).eraseDups.length ≤ 1))

/-- A locked segment lasts at most 100,000 ns with its drain slot (R59). -/
def lockedFits (s : State) (gs : List Nat) (p : PStep) : Bool :=
  (stepSegs s p).all (fun e => !(segCards e.1 e.2).any (fun c => bitAt c.flags 0) || decide (segSlots e.1 gs e.2 * slotNs ≤ 100000))

/-- Whether a step of a length in ns keeps R54's first test: it is at most I_min and at most 2,500,000 slots long, and
its rows are at most 1,024; its locked segments and its tables are within R59 and R156. -/
def stepFits (s : State) (ctx idx ival len : Nat) (p : PStep) : Bool :=
  decide (len ≤ 100000000) && decide (rowCount p ≤ 1024) &&
    (match iMin s ctx idx ival p with | none => true | some m => decide (len ≤ m))
    && lockedFits s (stepGears s (planGears s) p) p && tagsAgree s p

/-- What a request asks of the timetable. -/
structure Ask where
  ctx : Nat
  idx : Nat
  model : Nat
  depth : Nat
  draft : Nat
  ival : Nat
  tokens : Nat
  maxNew : Nat
  window : Bool
  deriving DecidableEq, Repr

/-- Whether a step may hold the rows and chunks of a request: steps of an exclusive window hold only their
own context (R380). -/
def mayShare (a : Ask) (p : PStep) : Bool :=
  !p.switchIn && !p.switchOut && (if a.window then p.window == some a.ctx else p.window == none)

/-- A chunk of n blocks of the request, with `left` tokens still to place. -/
def mkChunk (a : Ask) (n left : Nat) : ChunkPlan :=
  let last := decide (left ≤ n * 256)
  ⟨a.ctx, a.idx, a.model, n, min left (n * 256), last, last && decide (0 < a.maxNew), a.depth, a.draft⟩

/-- The largest chunk, in blocks, that the step can hold (R200). -/
def largestChunk (s : State) (a : Ask) (prev : Option (List Nat)) (p : PStep) (left : Nat) : Nat :=
  ((List.range (min 16 (ceilDiv left 256) + 1)).filter (fun n =>
    let q := { p with chunks := p.chunks ++ [mkChunk a n left] }
    decide (tokenCount p + min left (n * 256) ≤ 4096) && stepFits s a.ctx a.idx a.ival (stepLen s prev q) q)).foldl max 0

/-- The gears of a step that the planner places next, after the frozen steps that are left. -/
def nextGears (s : State) (fs : List FrozenStep) (p : PStep) : Option (List Nat) :=
  some ((fs.head?.map (·.gears)).getD (stepGears s (planGears s) p))

/-- One decode row of the request. -/
def mkRow (a : Ask) (j : Nat) : RowPlan := ⟨a.ctx, a.idx, a.model, a.depth, a.draft, j⟩

/-- A new step of the kind the request may use. -/
def freshStep (a : Ask) : PStep := { emptyStep with window := if a.window then some a.ctx else none }

/-- Decode rows j, j + 1, … in the steps that follow (R199, R201). -/
def addRows (a : Ask) : List PStep → Nat → Nat → List PStep
  | [], n, j => (List.range n).map (fun k => { freshStep a with rows := [mkRow a (j + k)] })
  | p :: r, 0, _ => p :: r
  | p :: r, n + 1, j =>
    if mayShare a p then { p with rows := p.rows ++ [mkRow a j] } :: addRows a r n (j + 1)
    else p :: addRows a r (n + 1) j

/-- Place the chunks in new steps at the end of the plan; none where not one block fits. -/
def tailChunks (s : State) (a : Ask) : Nat → Option (List Nat) → Nat → Nat → Option (List PStep)
  | 0, _, _, _ => none
  | fuel + 1, prev, left, shrink =>
    let n := largestChunk s a prev (freshStep a) left
    if n = 0 then none
    else
      let cut := min shrink (n - 1)
      let c := mkChunk a (n - cut) left
      let p := { freshStep a with chunks := [c] }
      if c.last then some (p :: addRows a [] (a.maxNew - 1) 2)
      else (tailChunks s a fuel (nextGears s [] p) (left - c.tokens) (shrink - cut)).map (p :: ·)

/-- Place the chunks from the given step on, skipping `skip` steps, each chunk the largest that fits less
its share of `shrink` blocks (R200); the frozen steps and the gears of the step before go along (R39). -/
def placeChunks (s : State) (a : Ask) : List FrozenStep → Option (List Nat) → List PStep → Nat → Nat → Nat → Option (List PStep)
  | _, prev, [], _, left, shrink => tailChunks s a (ceilDiv left 256 + 1) prev left shrink
  | fs, prev, p :: r, skip, left, shrink =>
    let n := if skip > 0 || !mayShare a p then 0 else largestChunk s a prev p left
    if n = 0 then (placeChunks s a fs.tail (nextGears s fs p) r (skip - 1) left shrink).map (p :: ·)
    else
      let cut := min shrink (n - 1)
      let c := mkChunk a (n - cut) left
      let p' := { p with chunks := p.chunks ++ [c] }
      if c.last then some (p' :: addRows a r (a.maxNew - 1) 2)
      else (placeChunks s a fs.tail (nextGears s fs p') r 0 (left - c.tokens) (shrink - cut)).map (p' :: ·)

/-- The first step, counted from 0, that a chunk may use: not a frozen one, and not before a chunk of a
request accepted earlier (R36, R200). -/
def chunkFloor (s : State) (plan : List PStep) : Nat :=
  let used := (plan.zipIdx.filter (fun e => !e.1.chunks.isEmpty)).map (·.2)
  max (frozenCount s) (used.foldl max 0)

/-- The outcome of a trial: the plan it would adopt and d_first, or the test that failed (R54). A module whose Cadence is
UNLOCKED takes part in no new placement that spans modules (R352); DESIGN CHOICE (log 88): a request that needs one fails the
first test. -/
def trialTest (s : State) (a : Ask) (tA maxFirst : Nat) (trial : Option (List PStep)) : Except Nat (List PStep × Nat) :=
  match trial with
  | none => .error 0x01
  | some t =>
    if rd s .SPOKE_FAB_STATUS_CAD_STATE = 4 ∧ needsPeers s a.model = true then .error 0x01
    else if (t.zip (planSpans s (firstStart s) t)).any (fun e => !stepFits s a.ctx a.idx a.ival (e.2.2 - e.2.1) e.1) then .error 0x01
    else if harmed s t then .error 0x02
    else
      let first := ((deliveries s t).filter (fun d => d.ctx == a.ctx && d.idx == a.idx && decide (d.j ≤ 1))).map (·.time)
      let d := first.foldl max 0
      if maxFirst ≠ 0 ∧ d > tA + maxFirst * 1000 then .error 0x03 else .ok (t, d)

/-- Try trials in order; the first that passes is adopted, else the first failing test is the answer. -/
def firstTrial (s : State) (a : Ask) (tA maxFirst : Nat) : List (Option (List PStep)) → Nat → Except Nat (List PStep × Nat)
  | [], e => .error (if e = 0 then 0x01 else e)
  | t :: r, e =>
    match trialTest s a tA maxFirst t with
    | .ok x => .ok x
    | .error d => firstTrial s a tA maxFirst r (if e = 0 then d else e)

/-- The length of a switch step (R383): S and L are the bytes of the busiest hub. -/
def switchLen (s : State) (ctx : Nat) : Nat :=
  let hubs := List.range 160
  let t := hubs.map (fun h =>
    let granted := (s.mem.granules.filter (fun g => granuleHub g.1 == h && g.2 != ctx && g.2 != 0x7F)).length * 4096
    let held := (s.mem.saves.filter (fun e => e.hub == h && e.ctx == ctx && !e.shared)).length * 4096
    5000 + ceilDiv ((granted + held) * 10) 744)
  slotCeil (t.foldl max 0)

/-- The steps of a window: a switch in, the steps, a switch out (R380). -/
def windowSteps (s : State) (ctx : Nat) (body : List PStep) : List PStep :=
  let n := switchLen s ctx
  [{ emptyStep with window := some ctx, switchIn := true, switchNs := n }] ++ body ++
    [{ emptyStep with window := some ctx, switchOut := true, switchNs := n }]

/-- Group the steps of a request into windows of at most WINDOW_MAX (R380). -/
def windowGroups (s : State) : List PStep → List PStep → Nat → List (List PStep)
  | [], cur, _ => if cur.isEmpty then [] else [cur]
  | p :: r, cur, len =>
    let l := stepLen s none p
    if cur.isEmpty || decide (len + l ≤ rd s .CTX_CONFIG_WINDOW_MAX * 1000) then windowGroups s r (cur ++ [p]) (len + l)
    else cur :: windowGroups s r [p] l

/-- The plan with windows inserted after its first n steps, one window for each group, with the plan's
next shared step between two of them. -/
def insertWindows (s : State) (ctx : Nat) (plan : List PStep) (n : Nat) (groups : List (List PStep)) : List PStep :=
  let rec go : List (List PStep) → List PStep → List PStep
    | [], r => r
    | g :: gs, [] => windowSteps s ctx g ++ go gs []
    | g :: gs, p :: r => windowSteps s ctx g ++ [p] ++ go gs r
  plan.take n ++ go groups (plan.drop n)

/-- How often the chunks or pieces of n blocks can be made smaller by one block, down to one block in each step (R200). -/
def shrinks (n : Nat) : List Nat := List.range (15 * n + 1)

/-- The trials that insert a request's windows at each position of the plan that lies between windows, with the work in the
steps that `body` gives for each size of the chunks (R200, R381). -/
def windowTrials (s : State) (a : Ask) (body : Nat → Option (List PStep)) : List (Option (List PStep)) :=
  let plan := s.tt.plan
  (((List.range (plan.length + 1 - frozenCount s)).map (· + frozenCount s)).filter (fun n =>
    ((plan.drop n).head?.map (fun p => p.window.isNone || p.switchIn)).getD true
      && ((plan.take n).getLast?.map (fun p => p.window.isNone || p.switchOut)).getD true)).flatMap (fun n =>
    (shrinks (ceilDiv a.tokens 256)).map (fun k => (body k).map (fun b => insertWindows s a.ctx plan n (windowGroups s b [] 0))))

/-- The trials of a request in the order of R200; for a confidential-class context, its windows at each
position of the plan that lies between windows (R381). -/
def trials (s : State) (a : Ask) (extra : Nat) : List (Option (List PStep)) :=
  let plan := s.tt.plan
  let floor := chunkFloor s plan
  if a.window then windowTrials s a (tailChunks s a (ceilDiv a.tokens 256 + 1) none a.tokens)
  else
    (List.range (plan.length + 1 - min (floor + extra) plan.length)).flatMap (fun d =>
      (shrinks (ceilDiv a.tokens 256)).map (fun k =>
        placeChunks s a s.tt.frozen s.tt.stepGears plan (floor + extra + d) a.tokens k))

/-! Training micro-steps (R241, R243) -/

/-- A piece of n blocks of a micro-step with `left` tokens to place; `opt` when an optimizer card follows. -/
def mkPiece (a : Ask) (opt : Bool) (n left : Nat) : TrainPlan :=
  ⟨a.ctx, a.idx, a.model, n, false, decide (left ≤ n * 256) && !opt⟩

/-- The largest piece, in blocks of at most 4,096 tokens in all, that the step can hold. -/
def largestPiece (s : State) (a : Ask) (prev : Option (List Nat)) (p : PStep) (left : Nat) : Nat :=
  ((List.range (min 16 (ceilDiv left 256) + 1)).filter (fun n =>
    let q := { p with train := p.train ++ [mkPiece a true n left] }
    stepFits s a.ctx a.idx a.ival (stepLen s prev q) q)).foldl max 0

/-- The optimizer card in the step after the last piece (R243). -/
def addOptimizer (a : Ask) : List PStep → List PStep
  | [] => [{ freshStep a with train := [⟨a.ctx, a.idx, a.model, 0, true, true⟩] }]
  | p :: r =>
    if mayShare a p then { p with train := p.train ++ [⟨a.ctx, a.idx, a.model, 0, true, true⟩] } :: r
    else p :: addOptimizer a r

/-- Pieces in new steps at the end of the plan. -/
def tailPieces (s : State) (a : Ask) (opt : Bool) : Nat → Option (List Nat) → Nat → Nat → Option (List PStep)
  | 0, _, _, _ => none
  | fuel + 1, prev, left, shrink =>
    let n := largestPiece s a prev (freshStep a) left
    if n = 0 then none
    else
      let cut := min shrink (n - 1)
      let p := { freshStep a with train := [mkPiece a opt (n - cut) left] }
      if left ≤ (n - cut) * 256 then some (p :: if opt then addOptimizer a [] else [])
      else (tailPieces s a opt fuel (nextGears s [] p) (left - (n - cut) * 256) (shrink - cut)).map (p :: ·)

/-- Place the pieces as R200 places chunks. -/
def placePieces (s : State) (a : Ask) (opt : Bool) :
    List FrozenStep → Option (List Nat) → List PStep → Nat → Nat → Nat → Option (List PStep)
  | _, prev, [], _, left, shrink => tailPieces s a opt (ceilDiv left 256 + 1) prev left shrink
  | fs, prev, p :: r, skip, left, shrink =>
    let n := if skip > 0 || !mayShare a p then 0 else largestPiece s a prev p left
    if n = 0 then (placePieces s a opt fs.tail (nextGears s fs p) r (skip - 1) left shrink).map (p :: ·)
    else
      let cut := min shrink (n - 1)
      let p' := { p with train := p.train ++ [mkPiece a opt (n - cut) left] }
      if left ≤ (n - cut) * 256 then some (p' :: if opt then addOptimizer a r else r)
      else (placePieces s a opt fs.tail (nextGears s fs p') r 0 (left - (n - cut) * 256) (shrink - cut)).map (p' :: ·)

/-- The trials of a micro-step in the order of R200. -/
def trainTrials (s : State) (a : Ask) (opt : Bool) : List (Option (List PStep)) :=
  let plan := s.tt.plan
  let f := frozenCount s
  if a.window then windowTrials s a (tailPieces s a opt (ceilDiv a.tokens 256 + 1) none a.tokens)
  else
    (List.range (plan.length + 1 - min f plan.length)).flatMap (fun d =>
      (shrinks (ceilDiv a.tokens 256)).map (fun k => placePieces s a opt s.tt.frozen s.tt.stepGears plan (f + d) a.tokens k))

/-- Decide a placement (R54). `extra` steps are left before the first chunk for planned movement. -/
def admitPlan (s : State) (a : Ask) (tA maxFirst extra : Nat) : Except Nat (List PStep × Nat) :=
  firstTrial s a tA maxFirst (trials s a extra) 0

/-- A step without an item's rows, chunks and training work. -/
def stripStep (ctx idx : Nat) (p : PStep) : PStep :=
  { p with
    rows := p.rows.filter (fun r => !(r.ctx == ctx && r.idx == idx))
    chunks := p.chunks.filter (fun c => !(c.ctx == ctx && c.idx == idx))
    train := p.train.filter (fun m => !(m.ctx == ctx && m.idx == idx)) }

/-- A plan that loses all its steps while no step runs leaves a boundary at its start. -/
def keepBoundary (b : Nat) (s : State) : State :=
  if s.tt.plan.isEmpty && !s.tt.run.running && s.tt.run.boundaryAt.isNone
  then updTt s fun t => { t with run := { t.run with boundaryAt := some b } } else s

/-- Take an item's work out of the steps that have not frozen; steps left without work are not issued (R38). -/
def dropOpen (s : State) (ctx idx : Nat) : State :=
  if s.tt.plan.isEmpty then s
  else
    let k := frozenCount s
    keepBoundary (headStart s) (updTt s fun t =>
      { t with plan := t.plan.take k ++ ((t.plan.drop k).map (stripStep ctx idx)).filter hasWork })

/-- Take an item's work out of the plan. A frozen step that keeps work stays as it froze (R36); one left without work is not
issued (R38). -/
def dropItem (s : State) (ctx idx : Nat) : State :=
  let s := dropOpen s ctx idx
  let old := s.tt.plan.zip s.tt.frozen
  let kept := old.filter (fun e => hasWork (stripStep ctx idx e.1))
  let last := (s.tt.frozen.getLast?.map (·.number)).getD 0
  if kept.length = old.length then s
  else keepBoundary (headStart s) (updTt s fun t => { t with
    plan := kept.map (·.1) ++ t.plan.drop t.frozen.length
    frozen := kept.map (·.2)
    lapsed := if kept.isEmpty then last - rd s .TT_STEP_NUMBER else t.lapsed })

/-- The most movement that a step of its own holds: with its reserve it lasts at most 100 ms (Table 2-1, R39). -/
def moveCap (s : State) : Nat := 1000000 * (100 - rd s .TT_CONFIG_RESERVE_PCT) - slotNs

/-- Steps of their own for a movement of n ns. -/
def moveOnly (s : State) (n : Nat) : List PStep :=
  List.replicate (n / moveCap s) { emptyStep with moveNs := moveCap s }
    ++ (if n % moveCap s = 0 then [] else [{ emptyStep with moveNs := n % moveCap s }])

/-- Plan a data movement of n ns from the first step that has not frozen: what does not fit in one step
continues in the next, and steps of their own are issued for the rest (R38, R180). -/
def planMove (s : State) (n : Nat) : State :=
  let rec go : List PStep → Nat → List PStep
    | [], left => moveOnly s left
    | p :: r, left =>
      if p.window.isSome then p :: go r left
      else
        let take := min left (stepLen s none p - p.moveNs)
        { p with moveNs := p.moveNs + take } :: go r (left - take)
  updTt s fun t =>
    { t with plan := t.plan.take (frozenCount s) ++ go (t.plan.drop (frozenCount s)) n, planStart := openBound s }

/-- The ns of movement that a plan has in each step beyond another plan of the same steps and more. -/
def movedMore : List PStep → List PStep → List Nat
  | _, [] => []
  | [], q :: r => q.moveNs :: movedMore [] r
  | p :: l, q :: r => (q.moveNs - p.moveNs) :: movedMore l r

/-- The planned completion of the movement that a plan has beyond the plan of `old`: the planned end of the last step with any of
it. -/
def moveEnd (old s : State) : Nat :=
  (((planEnds s (firstStart s) s.tt.plan).zip (movedMore old.tt.plan s.tt.plan)).filter (fun e => e.2 != 0)).map (·.1) |>.foldl max s.now

/-- Plan the transfer of the bundle of model n, of ns ns (R38, R198): the steps say how much of it they hold. -/
def planLoad (s : State) (n ns : Nat) : State :=
  let u := planMove s ns
  let more := movedMore s.tt.plan u.tt.plan
  updTt u fun t => { t with plan := (t.plan.zip more).map (fun e => if e.2 = 0 then e.1 else { e.1 with loads := e.1.loads ++ [(n, e.2)] }) }

/-- Take what is left of the transfer of the bundle of model n out of the steps that have not frozen (R198). -/
def dropLoad (s : State) (n : Nat) : State :=
  let cut := fun (p : PStep) => { p with
    moveNs := p.moveNs - ((p.loads.filter (fun e => e.1 == n)).map (·.2)).sum, loads := p.loads.filter (fun e => e.1 != n) }
  if s.tt.plan.isEmpty then s
  else keepBoundary (headStart s) (updTt s fun t =>
    { t with plan := t.plan.take (frozenCount s) ++ ((t.plan.drop (frozenCount s)).map cut).filter hasWork })

/-- The number of steps, from the first that has not frozen, that a movement of n ns occupies. -/
def moveSteps (s : State) : List PStep → Nat → Nat
  | _, 0 => 0
  | [], n + 1 => (moveOnly s (n + 1)).length
  | p :: r, n + 1 => 1 + moveSteps s r (n + 1 - stepLen s none p)

/-- The next step boundary (R31, R475): the planned end of the running step, else the start of the planned one or an idle
boundary before it. -/
def nextBoundary (s : State) : Nat :=
  if s.tt.run.running then rd s .TT_STEP_PLANNED_END
  else match s.tt.run.boundaryAt, s.tt.plan with
    | some t, [] => t
    | some t, _ :: _ => min t (headStart s)
    | none, _ :: _ => headStart s
    | none, [] => slotCeil (s.now + planLead s)

/-- A boundary is wanted while no step runs or is planned: place it (R475). -/
def wantBoundary (s : State) : State :=
  if s.tt.run.running || !s.tt.plan.isEmpty then s
  else
    let b := s.tt.run.boundaryAt.getD (slotCeil (s.now + planLead s))
    updTt s fun t => { t with run := { t.run with boundaryAt := some b } }

/-- Adopt a plan (R54); a first step gets its planned start (R36, R475). -/
def adopt (s : State) (plan : List PStep) : State := updTt s fun t => { t with plan := plan, planStart := openBound s }

end Sys2Proof.Machine
end

