-- ==== Sys2Proof/Machine/Larders.lean ====
section
/-! DEFINITION. Layouts, pages and park images (R160 to R163, R177 to R181, R216): sizes, the pool and
what an admission reserves, and starting, abandoning and releasing parks. -/

namespace Sys2Proof.Machine

/-! Layout arithmetic (R161) -/

def layLayers (s : State) (n : Nat) : Nat := rd s .LARDER_LAYOUT_LAYERS n
def layDim (s : State) (n : Nat) : Nat := rd s .LARDER_LAYOUT_LATENT_UNITS n * 32
def layRope (s : State) (n : Nat) : Nat := rd s .LARDER_LAYOUT_ROPE_UNITS n * 16
/-- Bytes of a latent element. -/
def layW (s : State) (n : Nat) : Nat := if rd s .LARDER_LAYOUT_LATENT_FMT n = 0x8 then 2 else 1
def layLat (s : State) (n : Nat) : Nat := 16 * layDim s n * layW s n
def layScale (s : State) (n : Nat) : Nat := if rd s .LARDER_LAYOUT_LATENT_FMT n = 0x1 then 16 * layDim s n / 32 else 0
def layRopeOff (s : State) (n : Nat) : Nat := ceilDiv (layLat s n + layScale s n) 64 * 64
def slabBytes (s : State) (n : Nat) : Nat := ceilDiv (layRopeOff s n + 32 * layRope s n) 256 * 256
def pageBytes (s : State) (n : Nat) : Nat := ceilDiv (layLayers s n * slabBytes s n) 4096 * 4096
/-- Units of 4 KiB of a page. -/
def pageUnits (s : State) (n : Nat) : Nat := pageBytes s n / 4096

/-- Size of a park slab in a form (R178). -/
def parkSlab (s : State) (n form : Nat) : Nat :=
  if form = 1 then slabBytes s n
  else 16 * layDim s n * (if form = 2 then 6 else 4) / 8 + 16 * layDim s n / 32 + 32 * layRope s n

/-- Bytes of a park image of p pages (R178). -/
def imageBytes (s : State) (n form p : Nat) : Nat := p * layLayers s n * parkSlab s n form + 64 + 8 * p

/-- Whether every field of a layout is valid (R160). -/
def layoutValid (s : State) (n : Nat) : Bool :=
  let rope := rd s .LARDER_LAYOUT_ROPE_UNITS n
  let rf := rd s .LARDER_LAYOUT_ROPE_FMT n
  let lf := rd s .LARDER_LAYOUT_LATENT_FMT n
  decide (1 ≤ layLayers s n ∧ layLayers s n ≤ 256)
    && decide (1 ≤ rd s .LARDER_LAYOUT_LATENT_UNITS n ∧ rd s .LARDER_LAYOUT_LATENT_UNITS n ≤ 32)
    && (lf == 1 || lf == 8) && decide (rope ≤ 16) && (if rope = 0 then rf == 0 else rf == 8 || rf == 9)

/-- Planned time of a park or unpark of p pages (R180). -/
def parkTime (s : State) (n form p : Nat) : Nat :=
  if form = 1 then ceilDiv (imageBytes s n 1 p) (rd s .LARDER_CTRL_PARK_RATE)
  else ceilDiv (p * layLayers s n * (slabBytes s n + parkSlab s n form) * 1000) (71424 * rd s .LARDER_CTRL_SQUEEZE_PCT)

/-! The pool (R181) -/

def rootAt (s : State) (i : Nat) : Option Root := storeFind s.lard.roots i
def setRoot (s : State) (i : Nat) (r : Root) : State := updLard s fun l => { l with roots := storeInsert l.roots i r }

/-- Pages a root holds. -/
def pagesHeld (r : Root) : Nat := r.ptes.length

/-- Pages that hold n tokens. -/
def pagesFor (n : Nat) : Nat := ceilDiv n 16

/-- Units of the directory and the leaves that n pages need. -/
def tableUnits (n : Nat) : Nat := if n = 0 then 0 else 1 + ceilDiv n 512

/-- Units that a root holds or reserves. -/
def rootUnits (s : State) (r : Root) : Nat :=
  let n := pagesHeld r + r.reserved
  n * pageUnits s r.layout + tableUnits n

/-- RETIRED channels as ranges of 4 KiB units: nothing is placed on them (R270). -/
def deadUnits (s : State) : List (Nat × Nat) :=
  ((List.range 384).filter (fun c => rd s .HBM_CH_STATE_STATE c == 2)).map (fun c => (c * 0x80000, 0x80000))

/-- Units of [lo, hi) that lie on channels in service. -/
def unitsInService (s : State) (lo hi : Nat) : Nat :=
  (hi - lo) - ((deadUnits s).map (fun d => min hi (d.1 + d.2) - max lo d.1)).sum

/-- Units of wing w's pool, and those its roots hold or reserve. -/
def poolSize (s : State) (w : Nat) : Nat := unitsInService s (rd s .LARDER_POOL_BASE w) (rd s .LARDER_POOL_LIMIT w)
def poolHeld (s : State) (w : Nat) : Nat := ((s.lard.roots.filter (fun e => e.2.wing == w)).map (fun e => rootUnits s e.2)).sum

/-- Units of wing w's pool that no root holds or reserves. -/
def poolFree (s : State) (w : Nat) : Nat := poolSize s w - poolHeld s w

/-- The 4 KiB units of wing w's pool in use, by start and length: what the runtime's roots name, and what its tables in HBM
still name, since no page or table is used again before the step that may reach it has ended (R176). -/
def poolUsed (s : State) (w : Nat) : List (Nat × Nat) :=
  (((s.lard.roots ++ s.lard.tables).filter (fun e => e.2.wing == w)).map (fun e =>
    e.2.ptes.map (fun p => (p.2.base, pageUnits s e.2.layout)) ++ e.2.dir.map (fun d => (d.2.1, 1))
      ++ (if e.2.dir.isEmpty then [] else [(e.2.dirBase / 4096, 1)]))).flatten

/-- The lowest start in [lo, hi) of n free units, given the units in use. -/
def allocLow (lo hi n : Nat) (used : List (Nat × Nat)) : Option Nat :=
  ((lo :: used.map (fun u => u.1 + u.2)).filter (fun c =>
    decide (lo ≤ c ∧ c + n ≤ hi) && used.all (fun u => decide (c + n ≤ u.1 ∨ u.1 + u.2 ≤ c)))).min?

/-- The lowest start in [lo, hi) of n free units that lie within one channel in service (R256). -/
def allocChan (s : State) (lo hi n : Nat) (used : List (Nat × Nat)) : Option Nat :=
  let all := used ++ deadUnits s
  let starts := lo :: all.map (fun u => u.1 + u.2) ++ (List.range (hi / 0x80000 - lo / 0x80000)).map (fun i => (lo / 0x80000 + 1 + i) * 0x80000)
  (starts.filter (fun c =>
    decide (lo ≤ c ∧ c + n ≤ hi) && c / 0x80000 == (c + n - 1) / 0x80000
      && all.all (fun u => decide (c + n ≤ u.1 ∨ u.1 + u.2 ≤ c)))).min?

/-- A page or table of n units in wing w's pool: its device address ÷ 4,096. -/
def allocPool (s : State) (w n : Nat) (extra : List (Nat × Nat)) : Option Nat :=
  allocChan s (rd s .LARDER_POOL_BASE w) (rd s .LARDER_POOL_LIMIT w) n (poolUsed s w ++ extra)

/-! Park areas -/

/-- Space for an HBM image in wing w's park area. -/
def allocPark (s : State) (w units : Nat) : Option Nat :=
  allocChan s (rd s .LARDER_PARK_BASE w) (rd s .LARDER_PARK_LIMIT w) units
    ((s.lard.parkSpace.filter (fun e => e.1 == w)).map (fun e => (e.2.1, e.2.2.1)))

/-- Space for a HOST image in a context's park region (R216), in 4 KiB units from its base. -/
def allocHost (s : State) (c units : Nat) : Option Nat :=
  allocLow 0 (rd s .SERVE_PARK_SIZE c) units
    ((s.serve.hostParks.filter (fun e => e.1 == c)).map (fun e => (e.2.1, e.2.2.1)))

/-- The committed pages of a root. -/
def committedPages (r : Root) : Nat := pagesFor r.committed

/-- Whether a form is permitted, possible and fits (R177, R216). -/
def formFits (s : State) (x : Session) (r : Root) (form : Nat) : Bool :=
  let units := ceilDiv (imageBytes s r.layout form (committedPages r)) 4096
  bitAt x.permit (form - 1) &&
    (if form = 1 then
      rdb s .LARDER_CTRL_HOST_PARK_EN && rd s .CTX_STATE_CLASS x.ctx == 0 && rd s .SERVE_PARK_SIZE x.ctx != 0
        && (allocHost s x.ctx units).isSome
    else (allocPark s r.wing units).isSome)

/-- Whether a session qualifies to park in a form now (R180): its expected resume lies further away than
the park, the unpark and PARK_MARGIN; no resume expected qualifies at once; no hint never does. -/
def formQualifies (s : State) (x : Session) (r : Root) (form : Nat) : Bool :=
  match x.resume with
  | none => false
  | some none => true
  | some (some t) =>
    decide (s.now + 2 * parkTime s r.layout form (committedPages r) + rd s .LARDER_CTRL_PARK_MARGIN * 1000000 < t)

/-- The first form a session parks in, under pressure or not (R180). -/
def parkForm (s : State) (pressure : Bool) (i : Nat) : Option Nat :=
  match sessAt s i, rootAt s i with
  | some x, some r =>
    if x.st = .idle ∧ x.isCompanion = false ∧ r.st = 1 ∧ x.permit ≠ 0 then
      [1, 2, 3].find? (fun f => formFits s x r f && (pressure || formQualifies s x r f))
    else none
  | _, _ => none

/-- Forget the image space of a session. -/
def freeImage (s : State) (i : Nat) : State :=
  updServe (updLard s fun l => { l with parkSpace := l.parkSpace.filter (fun e => e.2.2.2 != i) })
    fun v => { v with hostParks := v.hostParks.filter (fun e => e.2.2.2 != i) }

/-- Start parking one session in a form (Table 6-10): tentative pages are released, the image gets its
space (bit 48 marks a host address, Table 6-3), the transfer is planned. A session without committed pages is PARKED at once,
with the image of its header alone, which the runtime writes with its tables (R183). -/
def startPark (s : State) (form i : Nat) : State :=
  match sessAt s i, rootAt s i with
  | some x, some r =>
    let n := committedPages r
    let units := ceilDiv (imageBytes s r.layout form n) 4096
    let r := if n = 0 then { r with ptes := [], dir := [], dirBase := 0, form := form, st := 3 }
      else { r with ptes := r.ptes.filter (fun p => p.2.st == 1), form := form, st := 2 }
    let s := if form = 1 then
        match allocHost s x.ctx units with
        | some u => updServe (setRoot s i { r with parkAddr := 2 ^ 48 + rd s .SERVE_PARK_BASE x.ctx * 4096 + u * 4096 })
            fun v => { v with hostParks := v.hostParks ++ [(x.ctx, u, units, i)] }
        | none => s
      else
        match allocPark s r.wing units with
        | some u => updLard (setRoot s i { r with parkAddr := u * 4096 })
            fun l => { l with parkSpace := l.parkSpace ++ [(r.wing, u, units, i)] }
        | none => s
    if n = 0 then inc s .LARDER_PARKS else planMove s (parkTime s r.layout form n)
  | _, _ => s

/-- Park a session and its companion with it (R204). -/
def parkSession (s : State) (form i : Nat) : State :=
  let s1 := startPark s form i
  match (sessAt s i).bind (·.companion) with
  | some k => startPark s1 form k
  | none => s1

/-- Sort key of R180: sessions with no hint or no resume expected first, then the furthest resume. -/
def resumeKey (x : Session) : Nat :=
  match x.resume with
  | some (some t) => t
  | _ => 2 ^ 80

/-- Idle resident sessions that can park in some form, in the order of R180. -/
def parkOrder (s : State) (pressure : Bool) : List Nat :=
  (sortBy (fun a b => decide (resumeKey b.2 ≤ resumeKey a.2))
    (s.serve.sessions.filter (fun e => (parkForm s pressure e.1).isSome))).map (·.1)

/-- Park sessions of wing w, in order, until its pool has n free units; none where that cannot be. The
pages count as free once the parks complete. -/
def pressureParks (w n : Nat) : List Nat → State → Nat → Option State
  | [], s, gained => if n ≤ poolFree s w + gained then some s else none
  | i :: r, s, gained =>
    if n ≤ poolFree s w + gained then some s
    else
      match rootAt s i, parkForm s true i with
      | some k, some f =>
        let mine := (k :: (((sessAt s i).bind (·.companion)).bind (rootAt s)).toList).filter (fun q => q.wing == w)
        if mine.any (fun q => committedPages q != 0) then
          pressureParks w n r (parkSession s f i) (gained + (mine.map (rootUnits s)).sum)
        else pressureParks w n r s gained
      | _, _ => pressureParks w n r s gained

/-- Start the parks that R180 asks for at a freeze: the sessions that qualify, furthest resume first. -/
def parkDue (s : State) : State :=
  each (parkOrder s false) s fun t i =>
    match parkForm t false i with
    | some f => parkSession t f i
    | none => t

/-- Start reading a parked session's image back (Table 6-10): its pages are allocated by the runtime when
the image arrives, so they are reserved now, unless a request's reservation holds them already (R181), and the transfer is
planned. -/
def startUnpark1 (s : State) (i : Nat) : State :=
  match rootAt s i with
  | some r =>
    if r.st = 3 then
      planMove (setRoot s i { r with st := 4, reserved := max r.reserved (committedPages r) })
        (parkTime s r.layout r.form (committedPages r))
    else s
  | none => s

def startUnpark (s : State) (i : Nat) : State :=
  let s1 := startUnpark1 s i
  match (sessAt s i).bind (·.companion) with
  | some k => startUnpark1 s1 k
  | none => s1

/-- Free a root with its pages and image. -/
def freeRoot (s : State) (i : Nat) : State :=
  freeImage (updLard s fun l => { l with roots := storeErase l.roots i }) i

/-- Allocate entries for pages a root does not yet map, as TENTATIVE with FILL 0 (R175), with the leaves
and the directory they need; pages lists the page indices in ascending order. -/
def mapPages (s : State) (i : Nat) (pages : List Nat) : State :=
  each pages s fun t p =>
    match rootAt t i with
    | none => t
    | some r =>
      if (storeFind r.ptes p).isSome then t
      else
        let ctx := handleCtx r.handle
        let dirNew := if r.dir.isEmpty then allocPool t r.wing 1 [] else some (r.dirBase / 4096)
        let ex := (dirNew.map (fun d => [(d, 1)])).getD []
        let leafNew := match storeFind r.dir (p / 512) with
          | some e => some e.1
          | none => allocPool t r.wing 1 ex
        let ex2 := ex ++ (leafNew.map (fun d => [(d, 1)])).getD []
        match dirNew, leafNew, allocPool t r.wing (pageUnits t r.layout) ex2 with
        | some d, some l, some u =>
          setRoot t i { r with
            dirBase := d * 4096
            dir := storeInsert r.dir (p / 512) (l, ctx)
            ptes := storeInsert r.ptes p ⟨u, ctx, 2, 0, handleGen r.handle⟩
            reserved := r.reserved - 1 }
        | _, _, _ => t

/-- Of n tokens in all, those that lie on this module: under a split by position member 0 holds the first RANGE_PAGES pages
(R173). -/
def heldHere (r : Root) (n : Nat) : Nat := if r.split = 1 ∧ r.rangePages ≠ 0 then min n (16 * r.rangePages) else n

/-- Commit c tokens of a session (R175): each page that holds them becomes COMMITTED with its FILL; what lies beyond this
module's range the next members hold. -/
def commitTokens (s : State) (i c : Nat) : State :=
  match rootAt s i with
  | none => s
  | some r =>
    if c = 0 then s
    else
      let total := heldHere r (r.committed + r.away + c)
      let s := setRoot s i { r with away := r.committed + r.away + c - total }
      let first := r.committed / 16
      let pages := (List.range (pagesFor total - first)).map (· + first)
      let s := mapPages s i pages
      match rootAt s i with
      | none => s
      | some r =>
        setRoot s i { r with
          committed := total
          ptes := r.ptes.map (fun e =>
            if e.1 ∈ pages then (e.1, { e.2 with st := 1, fill := min 16 (total - 16 * e.1) }) else e) }

/-- Commit to a session and to its companion, which is fed the same tokens (R204). -/
def commitBoth (s : State) (i c : Nat) : State :=
  let s1 := commitTokens s i c
  match (sessAt s i).bind (·.companion) with
  | some k => commitTokens s1 k c
  | none => s1

end Sys2Proof.Machine
end

