-- ==== Sys2Proof/Machine/Admission.lean ====
section
/-! DEFINITION. Items and sessions: answering a record directly, accepting it, ending an item, and the
session states of Table 7-1. -/

namespace Sys2Proof.Machine

def itemAt (s : State) (ctx idx : Nat) : Option Item :=
  s.serve.items.find? (fun i => i.ctx == ctx && i.idx == idx)

def setItem (s : State) (x : Item) : State :=
  updServe s fun v => { v with items := v.items.map (fun i => if i.ctx = x.ctx ∧ i.idx = x.idx then x else i) }

/-- The open GENERATE of a session. -/
def openGen (s : State) (i : Nat) : Option Item :=
  s.serve.items.find? (fun x => x.opcode == 0x01 && x.sess == some i)

/-- The lowest cause in a set of causes (R9). -/
def lowestCause (c : Nat) : Nat := ([1, 2, 3, 4, 5, 6].find? (fun k => bitAt c k)).getD 0

/-- Committed tokens of the session a handle names. -/
def committedOf (s : State) (ctx handle : Nat) : Nat :=
  (((liveHandle s ctx handle).bind (rootAt s)).map (fun r => r.committed + r.away)).getD 0

/-- A direct answer: a final code for a record that is not accepted (R8, R198). It uses its reserved
record when general spill is full (R209). -/
def answer (s : State) (h : ReqHead) (code detail : Nat) (cardId : Nat := 0) (appended : Nat := 0) : State :=
  let s := if code = 0x10 then inc s .TT_REFUSED
    else if code = 0x30 ∨ code = 0x31 then inc s .SERVE_INVALID else s
  sendEvent s h.ctx h.handle h.tag h.idx code 0 detail true
    (.final 0 appended (committedOf s h.ctx h.handle) cardId s.now 0 0 0)

/-- The first check of a decision list that fails, with its code and detail. -/
def firstFail : List (Bool × Nat × Nat) → Option (Nat × Nat)
  | [] => none
  | (ok, c, d) :: r => if ok then firstFail r else some (c, d)

/-- A session's index is freed (R188): root, pages and companion go, the index keeps its generation and
takes the latest release. -/
def freeIndex (s : State) (i : Nat) : State :=
  match sessAt s i with
  | none => s
  | some x =>
    let s := freeRoot s i
    updServe s fun v => { v with
      sessions := storeErase v.sessions i
      idxUsed := storeInsert v.idxUsed i (x.gen, v.releases + 1)
      releases := v.releases + 1 }

/-- Release a session and its companion. -/
def freeSession (s : State) (i : Nat) : State :=
  match sessAt s i with
  | none => s
  | some x =>
    match x.companion with
    | some k => freeIndex (freeIndex s k) i
    | none => freeIndex s i

/-- The index a new session takes (R186). -/
def newIndex (s : State) : Option Nat :=
  let never := s.serve.idxUsed.length
  if never < 65536 then some never
  else
    let free := s.serve.idxUsed.filter (fun e => (sessAt s e.1).isNone)
    (free.find? (fun e => free.all (fun f => decide (e.2.2 ≤ f.2.2)))).map (·.1)

/-- The generation after an index's last one (R17). -/
def nextSessGen (s : State) (i : Nat) : Nat :=
  match storeFind s.serve.idxUsed i with
  | none => 1
  | some (g, _) => if g ≥ 1023 then 1 else g + 1

/-- How a new session of a model is spread (R173): as its recipe says where every other member is LIVE and Cadence is not UNLOCKED
(R352), else not at all. -/
def splitOf (s : State) (model : Nat) : SplitPlan :=
  let p := ((modelAt s model).map (fun m => m.recipe.split)).getD ⟨0, 0, []⟩
  if (p.kind = 1 ∨ p.kind = 2) ∧ p.others ≠ [] ∧ p.others.length ≤ 15 ∧ p.others.all (fun m => rd s .EPOCH_ENTRY_STATE m == 1) ∧
    rd s .SPOKE_FAB_STATUS_CAD_STATE ≠ 4 then p else ⟨0, 0, []⟩

/-- Create a session on an index with a root on a wing; this module is member 0 of a split. -/
def openSession (s : State) (i ctx model draft permit wing : Nat) (companion : Option Nat) (isComp : Bool) : State :=
  let g := nextSessGen s i
  let p := splitOf s model
  let members := if p.kind = 0 then [] else rd s .SPOKE_FAB_ADDR_ADDR :: p.others
  let s := updServe s fun v => { v with
    sessions := storeInsert v.sessions i
      ⟨.busy, ctx, g, model, draft, companion, isComp, none, 0, none, 0, permit, []⟩
    idxUsed := storeInsert v.idxUsed i (g, (((storeFind v.idxUsed i).map (·.2)).getD 0)) }
  setRoot s i ⟨mkHandle ctx i g, model, 1, 0, p.kind, 0, 0, 0, 0, max 1 members.length, 0, if p.kind = 1 then p.rangePages else 0, members, 0,
    wing, [], []⟩

/-- Sessions a context holds, companions included. -/
def sessionsOf (s : State) (ctx : Nat) : Nat := (s.serve.sessions.filter (fun e => e.2.ctx == ctx)).length

/-- Release what a session's request reserved (R187); what a running unpark will fill stays reserved. -/
def releaseReserve (s : State) (i : Nat) : State :=
  let clear := fun (t : State) (k : Nat) => match rootAt t k with
    | some r => setRoot t k { r with reserved := if r.st = 4 then committedPages r else 0 }
    | none => t
  let s1 := clear s i
  match (sessAt s i).bind (·.companion) with
  | some k => clear s1 k
  | none => s1

/-- The expected resume that RESUME_HINT_US gives at a time (R207). -/
def resumeOf (t us : Nat) : Option (Option Nat) :=
  if us = 0 then none else if us = 0xFFFFFFFF then some none else some (some (t + us * 1000))

/-- The session's transition at the final code of its open request (Table 7-1). -/
def sessionAtFinal (s : State) (x : Item) : State :=
  match x.sess with
  | none => s
  | some i =>
    if x.opcode = 0x01 then
      let s := releaseReserve s i
      match sessAt s i with
      | none => s
      | some ss =>
        let closeAfter := match x.gen with | some g => bitAt g.flags 3 | none => false
        if ss.st = .closing ∨ closeAfter = true then freeSession s i
        else setSession s i { ss with st := .idle, resume := resumeOf (max s.now x.lastIssue) ss.resumeUs }
    else s

/-- Take an item out of the list of accepted items. -/
def removeItem (s : State) (x : Item) : State :=
  updServe s fun v => { v with items := v.items.filter (fun i => !(i.ctx == x.ctx && i.idx == x.idx)) }

/-- The 64 bytes of a result block (Table 8-6). -/
def resultBlock (loss counted optStep norm opt skip done digest : Nat) : List Nat :=
  leBytes 8 loss ++ leBytes 4 counted ++ leBytes 4 optStep ++ leBytes 4 norm ++ [opt, skip, 0, 0] ++ leBytes 8 done ++ leBytes 32 digest

/-- The result block that a TRAIN_STEP has not written yet precedes its FINAL (R244, Table 8-6): nothing was applied. -/
def lastBlock (s : State) (x : Item) : State :=
  match x.opcode == 0x13, x.data with
  | true, [_, _, a] | true, [_, _, a, _] =>
    let t := ((s.pann.jobs.find? (fun e => x.slot == some e.2.slot)).map (fun e => e.2.t)).getD 0
    hostOut s x.ctx a (resultBlock 0 0 t 0 0 0 s.now 0)
  | _, _ => s

/-- End one item with its FINAL record (R8, R62): DONE becomes DONE_LATE when a delivery was late. -/
def finishItem (s : State) (x : Item) (code detail : Nat) (cardId : Nat := 0) : State :=
  let s := lastBlock s x
  let late := code = 0x01 ∧ x.causes ≠ 0
  let s1 := sendEvent s x.ctx x.handle x.tag x.idx (if late then 0x02 else code)
    (if late then lowestCause x.causes else 0) detail true
    (.final x.issued x.promptDone (committedOf s x.ctx x.handle) cardId
      (if x.issued = 0 then max s.now x.lastIssue else x.lastIssue) x.lateNs x.draftsAccepted x.draftsProposed)
  dropItem (sessionAtFinal (removeItem s1 x) x) x.ctx x.idx

/-- How the step that ends was late: the issue time of its records, the late causes at work, whether PWR_ALERT_N was
asserted in it, and the planned end of the last step that THROTTLE_IN_N slowed (R62). -/
structure StepIssue where
  time : Nat
  causes : Nat
  alert : Bool
  throttleEnd : Nat
  deriving DecidableEq, Repr

/-- Record the delivery of token j, or of a completion for j = 0, in its item (R62). A late delivery of a step without a
cause is charged to the throttle where a step it slowed moved the plan, else to replays (R10). -/
def markDelivery (x : Item) (j : Nat) (e : StepIssue) : Item :=
  let late := decide (promise x j < e.time)
  let why := if e.causes ≠ 0 then e.causes else if x.tA < e.throttleEnd then 64 else 4
  { x with
    causes := x.causes ||| (if e.alert then 2 else 0) ||| (if late then why else 0)
    lateNs := max x.lateNs (min (maxOf 32) (e.time - promise x j))
    lastIssue := e.time }

/-- The completion of an item outside a step's deliveries: what delays the running step delays it (R62). -/
def completed (s : State) (x : Item) : Item :=
  markDelivery x 0 ⟨s.now, s.tt.run.causes ||| s.tt.run.carried, false, s.tt.throttleEnd⟩

/-- An unloaded model goes: its sessions and the sessions that draft with it are released (R213), its
weight rows are freed. -/
def releaseModel (s : State) (m : Nat) : State :=
  let gone := s.serve.sessions.filter (fun e => !e.2.isCompanion && (e.2.model == m || e.2.draft == m))
  let s := each gone s fun t e => freeSession t e.1
  updServe s fun v => { v with models := storeErase v.models m }

/-- Items that waited for a finished item drop it; a CANCEL, CLOSE or UNLOAD_BUNDLE with nothing left to
wait for ends, late only if one of those items was late (R213). Items of other kinds keep an empty list and
are taken on by their own rules. -/
def settleWaiters (s : State) (x : Item) : State :=
  let s := updServe s fun v => { v with items := v.items.map (fun i =>
    if (x.ctx, x.idx) ∈ i.waits then
      { i with waits := i.waits.filter (· ≠ (x.ctx, x.idx)), causes := i.causes ||| x.causes, stop := 9,
               lateNs := if i.causes ||| x.causes = 0 then 0 else min (maxOf 32) (s.now - i.deadline) }
    else i) }
  each (s.serve.items.filter (fun i => i.waits.isEmpty && i.stop == 9 && (i.opcode == 2 || i.opcode == 3 || i.opcode == 6))) s
    fun t i =>
      let t := finishItem t i 0x01 0x07
      if i.opcode = 6 then releaseModel t i.model else t

/-- End an item and settle the items that waited for it. -/
def endItem (s : State) (x : Item) (code detail : Nat) (cardId : Nat := 0) : State :=
  settleWaiters (finishItem s x code detail cardId) x

/-- End every item that satisfies p, in order of acceptance. -/
def endItems (s : State) (p : Item → Bool) (code detail : Nat) : State :=
  each (s.serve.items.filter p) s fun t x =>
    match itemAt t x.ctx x.idx with
    | some y => endItem t y code detail
    | none => t

/-- A record of an item other than its final code; an item whose record finds no room ends with
ABORTED_TASK detail 0x09 (R209). -/
def itemEvent (s : State) (x : Item) (status detail : Nat) (body : EventBody) : State :=
  if generalFull s x.ctx then endItem s x 0x23 0x09
  else sendEvent s x.ctx x.handle x.tag x.idx status 0 detail false body

/-- A new item of a request head. -/
def newItem (s : State) (h : ReqHead) (opcode : Nat) : Item :=
  ⟨h.ctx, h.idx, opcode, h.handle, h.tag, none, 0, 0, none, s.serve.lastTick, 0, 0, none, 0, 0, 0, 0, 0, 0, 0, 0, [], 0, []⟩

/-- Accept an item: it is listed, counted and its ACCEPTED record is written with its promise (R55). -/
def accept (s : State) (x : Item) : State :=
  let s := updServe s fun v => { v with items := v.items ++ [x] }
  let s := inc s .SERVE_ACCEPTED
  itemEvent s x 0x08 0 (.accepted x.deadline x.interval x.opcode x.tA)

/-- The completion deadline of an item that needs no step work (R55). -/
def promptDeadline (s : State) : Nat := s.serve.lastTick + intakeTick s + 2000

/-- Accept an item that completes at once. -/
def acceptDone (s : State) (x : Item) (code detail : Nat) : State :=
  let s := accept s { x with deadline := promptDeadline s }
  match itemAt s x.ctx x.idx with
  | some y => endItem s y code detail
  | none => s

/-- Whether a model number is loaded, usable and not being unloaded. -/
def modelUsable (s : State) (m : Nat) : Bool :=
  match modelAt s m with
  | some x => x.st == .loaded
  | none => false

/-- The active bank's entry of a Pannier slot, as the lead's own wing holds it (R222, R229). -/
def freeEntry : PEntry := ⟨0, 0, 0, 0, 0, 0, 0, 0, [0, 0, 0, 0], [0, 0, 0, 0], 0⟩

/-- Where a wing's replica of a bank begins, in bytes of the device map, and where the entry of a slot lies in it (R222). -/
def bankBase (s : State) (bank wing : Nat) : Nat := rd s (if bank = 0 then .PANNIER_BANK0_BASE else .PANNIER_BANK1_BASE) wing * 4096
def entryAddr (s : State) (bank wing slot : Nat) : Nat := bankBase s bank wing + 64 * slot

/-- The 64 bytes of an entry, and the entry that 64 bytes hold (Table 8-2). -/
def entryBytes (e : PEntry) : List Nat :=
  [e.st % 256, e.ctx % 256] ++ leBytes 2 e.rank ++ [e.model % 256, e.targetSet % 256, e.format % 256, 0] ++ leBytes 4 e.scale ++ leBytes 2 e.job
    ++ [0, 0] ++ ((List.range 4).map (fun w => leBytes 4 (e.storeOff.getD w 0))).flatten
    ++ ((List.range 4).map (fun w => leBytes 4 (e.partUnits.getD w 0))).flatten ++ leBytes 8 e.loadTime ++ List.replicate 8 0
def entryOf (l : List Nat) : PEntry :=
  let num := fun (o n : Nat) => leNum ((l.drop o).take n)
  ⟨num 0 1, num 1 1 % 64, num 2 2, num 4 1, num 5 1, num 6 1, num 8 4, num 0xC 2, (List.range 4).map (fun w => num (0x10 + 4 * w) 4),
    (List.range 4).map (fun w => num (0x20 + 4 * w) 4), num 0x30 8⟩

def pannierEntry (s : State) (bank wing slot : Nat) : PEntry := entryOf (readBytes s (entryAddr s bank wing slot) 64)
def activeEntry (s : State) (slot : Nat) : PEntry :=
  pannierEntry s (rd s .PANNIER_CTRL_ACTIVE_BANK) (rd s .INTEG_LEAD_LEAD_WING) slot

/-- Check 8 for a GENERATE (R235). -/
def adapterOk (s : State) (ctx slot model : Nat) : Bool :=
  let e := activeEntry s slot
  e.st == 2 && e.ctx == ctx && e.model == model

/-- RANK_BUDGET of a rank (R237). -/
def rankBudget (r : Nat) : Nat := if r ≤ 16 then 16 else if r ≤ 64 then 64 else 256

/-- The adapter slots that a step's rows and chunks name, each once. -/
def stepSlotsUsed (s : State) (p : PStep) : List Nat :=
  ((p.rows.map (fun r => (r.ctx, r.idx)) ++ p.chunks.map (fun c => (c.ctx, c.idx))).filterMap
    (fun k => (itemAt s k.1 k.2).bind (·.slot))).eraseDups

/-- R237: at most 256 distinct slots and a sum of RANK_BUDGETs of at most 8,192 in every step; `slot` is
named by the rows of the request (ctx, idx), which is not an item yet. -/
def adapterLimits (s : State) (plan : List PStep) (ctx idx : Nat) (slot : Option Nat) : Bool :=
  plan.all fun p =>
    let own := if p.rows.any (fun r => r.ctx == ctx && r.idx == idx) || p.chunks.any (fun c => c.ctx == ctx && c.idx == idx)
      then slot.toList else []
    let slots := (stepSlotsUsed s p ++ own).eraseDups.filter (fun k => (activeEntry s k).rank != 0)
    decide (slots.length ≤ 256) && decide ((slots.map (fun k => rankBudget (activeEntry s k).rank)).sum ≤ 8192)

end Sys2Proof.Machine
end

