-- ==== Sys2Proof/Machine/Links.lean ====
section
/-! DEFINITION. Sending on the Spoke links (R343, R346, R349) and the barriers of locked segments
(R59 to R61, R325, R353, R354). -/

namespace Sys2Proof.Machine

/-- A link's state beside its registers. -/
def emptyLink : LinkSt := ⟨0, 0, [], [], [], 0, none, none, [], 0, 0, none⟩
def linkOf (s : State) (l : Nat) : LinkSt := storeGet emptyLink s.fab.links l
def setLink (s : State) (l : Nat) (x : LinkSt) : State :=
  updFab s fun f => { f with links := storePut emptyLink f.links l x }

/-- The module's own fabric address and epoch. -/
def ownAddr (s : State) : Nat := rd s .SPOKE_FAB_ADDR_ADDR
def ownEpoch (s : State) : Nat := rd s .SPOKE_FAB_ADDR_EPOCH

/-- Whether a link is UP. -/
def linkUp (s : State) (l : Nat) : Bool := rd s .SPOKE_LINK_STATE_STATE l == 2

/-- Types that take no LINK_SEQ of their own and are not kept for retransmission: ACK, NAK, SYNC, EPOCH, LINKLOST (R343). -/
def exemptType (t : Nat) : Bool := t == 3 || t == 4 || t == 5 || t == 8 || t == 0xA

/-- Widths in bytes of the fields of a control packet's body (Table 12-5). -/
def bodyWidths : Nat → List Nat
  | 6 => [2, 1, 1, 1, 1, 1, 2]
  | 7 => [2, 1, 2, 1]
  | 8 => [2, 2, 1, 2]
  | 0xA => [2, 2, 1]
  | 0xB => [8, 8, 1, 1]
  | _ => []

/-- A packet's data as bytes, in whole units of 32 (R342). -/
def packetData (p : Packet) : List Nat :=
  let w := bodyWidths p.type
  let d := if w.isEmpty then p.data.map (· % 256) else ((w.zip p.data).map (fun e => leBytes e.1 e.2)).flatten
  d ++ List.replicate ((32 - d.length % 32) % 32) 0

/-- The header of Table 12-4 up to its CRC. -/
def packetHead (p : Packet) : List Nat :=
  leBytes 1 (p.type + 16 * p.cls + 64 * p.vc + 128 * b2n p.retx) ++ leBytes 1 ((packetData p).length / 32) ++ leBytes 2 p.src
    ++ leBytes 2 p.dst ++ leBytes 2 p.srcEpoch ++ leBytes 2 p.dstEpoch ++ leBytes 1 (p.ctx + 64 * b2n p.last) ++ leBytes 1 p.hops
    ++ leBytes 2 p.seq ++ leBytes 2 p.slot ++ leBytes 4 (p.flow + 2 ^ 20 * p.srcIndex) ++ leBytes 8 p.destAddr

/-- The CRC of a packet (Table 12-4): over the header, DEDUCED (log 89) up to the CRC itself, and the data, with what a hop changes
taken as zero. -/
def packetCrc (p : Packet) : Nat := crc32c (packetHead { p with vc := 0, retx := false, hops := 0, seq := 0 } ++ packetData p)

/-- The bytes of a packet on a link. -/
def packetBytes (p : Packet) : List Nat := packetHead p ++ leBytes 4 p.crc ++ packetData p

/-- Send a packet on an UP link, its CRC formed where this module is its source: it takes the next LINK_SEQ and stays in the replay buffer until an ACK covers it,
unless its type is exempt (R343). -/
def sendPacket (s : State) (l : Nat) (p : Packet) : State :=
  if linkUp s l then
    let x := linkOf s l
    let p := { p with seq := x.txSeq, crc := if p.src = ownAddr s then packetCrc p else p.crc }
    if exemptType p.type then emit s (.packet l p)
    else emit (setLink s l { x with txSeq := (x.txSeq + 1) % 65536, replay := x.replay ++ [(1, p)] }) (.packet l p)
  else s

/-- A control packet of a type with a body, from this module to an address. -/
def ctlPacket (s : State) (type dst : Nat) (body : List Nat) (ctx : Nat := 0) : Packet :=
  ⟨type, 0, 0, false, ownAddr s, dst, ownEpoch s, rd s .EPOCH_ENTRY_EPOCH dst, ctx, true, 0, 0,
   s.now / slotNs % 65536, 0, 0, 0, body, 0⟩

/-- The address of the neighbour on a link. -/
def peerOf (s : State) (l : Nat) : Nat := rd s .SPOKE_LINK_STATE_PEER l

/-- Return credits of a context on the link its packets came by (R346, Table 12-5). -/
def returnCredits (s : State) (l c n : Nat) : State :=
  if n = 0 then s
  else sendPacket s l { ctlPacket s 9 (peerOf s l) [] c with destAddr := c + 64 * l + 65536 * n }

/-- The fields of a BARRIER packet: start, arrival, causes, ABORT and DONE. -/
def barrierFields (b : BarrierBody) : List Nat := [b.start, b.arrival, b.causes, b2n b.abort + 2 * b2n b.done]

/-- The link to the next hop of an address, by the routing table in force at a source slot (R340, R349):
its output (6 local, 7 unreachable) and whether it crosses a dateline. -/
def routeEntry (s : State) (bank a : Nat) : Nat := (storeGet [] s.fab.banks (6 * 2 + bank)).getD a 7
def routeOut (s : State) (a : Nat) : Nat := routeEntry s (rd s .SPOKE_TT_CTRL_ACTIVE_BANK) a % 8

/-- Send a packet toward its destination. -/
def routePacket (s : State) (p : Packet) : State :=
  let o := routeOut s p.dst
  if o < 6 ∧ rd s .EPOCH_ENTRY_STATE p.dst = 1 then sendPacket s o p else s

/-- The coordinator of a segment: its member with the lowest address (R354). -/
def coordinator (g : Segment) : Nat := (g.members.min?).getD 0

/-- A control packet of a segment. -/
def sendBarrier (s : State) (dst : Nat) (b : BarrierBody) : State := routePacket s (ctlPacket s 0xB dst (barrierFields b))

/-- A segment is over on this module. -/
def dropSegment (s : State) (g : Segment) : State :=
  updFab s fun f => { f with segments := f.segments.filter (fun x => !(x.start == g.start && x.members == g.members)) }

def putSegment (s : State) (g : Segment) : State :=
  updFab (dropSegment s g) fun f => { f with segments := f.segments ++ [g] }

/-- A segment completes with the latest arrival and the union of the cause masks (R61, R325): a stamp of POWER_ALERT makes
the step one with an alert; a wait beyond the unused reserve adds COLLECTIVE_WAIT and every cause of the late members. -/
def segmentDone (s : State) (g : Segment) (latest causes : Nat) : State :=
  let own := ((g.arrived.find? (fun a => a.1 == ownAddr s)).map (·.2.1)).getD latest
  let wait := latest - own
  let left := s.tt.run.reserveNs - s.tt.run.reserveUsed
  let s := dropSegment s g
  updTt s fun t =>
    let alert := bitAt causes 1
    let c := (if alert then 2 else 0) ||| (if left < wait then 16 ||| causes else 0)
    { t with run := { t.run with
        alertSeen := t.run.alertSeen || alert, causes := t.run.causes ||| c, reserveUsed := t.run.reserveUsed + wait } }

/-- The coordinator: an ABORT ends the segment for every member at once; when every member has arrived each gets a DONE
with the latest arrival and the union of the masks (R354). Gives the segment when it aborted. -/
def coordinate (s : State) (g : Segment) : State × Option Segment :=
  let latest := (g.arrived.map (·.2.1)).foldl max 0
  let causes := (g.arrived.map (·.2.2.1)).foldl (fun a b => a ||| b) 0
  let others := g.members.filter (· != ownAddr s)
  let tell := fun (t : State) (ab : Bool) => each others t fun x m => sendBarrier x m ⟨g.start, latest, causes, ab, true⟩
  if g.arrived.any (·.2.2.2) then (dropSegment (tell s true) g, some g)
  else if g.members.all (fun m => g.arrived.any (fun a => a.1 == m)) then (segmentDone (tell s false) g latest causes, none)
  else (putSegment s g, none)

/-- This module arrives at the barrier of a segment, with the late causes of its step or with ABORT. Gives the segment
when it aborted on this module's word as coordinator. -/
def arriveBarrier (s : State) (g : Segment) (abort : Bool) : State × Option Segment :=
  if g.arrived.any (fun a => a.1 == ownAddr s) then (s, none)
  else
    let causes := s.tt.run.causes
    let g := { g with arrived := g.arrived ++ [(ownAddr s, s.now, causes, abort)] }
    if coordinator g = ownAddr s then coordinate s g
    else (putSegment (sendBarrier s (coordinator g) ⟨g.start, s.now, causes, abort, false⟩) g, none)

/-- The members' tasks of an aborted segment end ABORTED_TASK with detail 0x02. -/
def endSegmentItems (s : State) (g : Segment) : State :=
  endItems s (fun i => g.task.any (fun k => k == (i.ctx, i.idx))) 0x23 0x02

/-- The segments that satisfy p abort on this module (R354, R378). -/
def abortSegments (s : State) (p : Segment → Bool) : State :=
  each (s.fab.segments.filter p) s fun t g =>
    match arriveBarrier t g true with
    | (t, some g) => endSegmentItems t g
    | (t, none) => t

/-- A command as its queue holds it: a card with LOCKED set runs only in a locked segment, whose one member is this module
where the plan names no other (R59). -/
def lockCmd (s : State) (q : QueuedCmd) : QueuedCmd :=
  if bitAt q.card.flags 0 && q.members.isEmpty then { q with members := [ownAddr s] } else q

/-- Whether a locked segment runs on a wing, or holds commands of a context (R60). -/
def lockedOn (s : State) (w : Nat) : Bool := s.fab.segments.any (fun g => decide (g.start ≤ s.now) && g.parts.any (fun p => p.2 == w))
def lockedCtx (s : State) (c : Nat) : Bool := s.fab.segments.any (fun g => g.parts.any (fun p => p.1 == c))

/-- The segment that a queued command of a card with LOCKED set belongs to, with its task's items (R59, R353). -/
def openSegment (s : State) (q : QueuedCmd) : State :=
  if q.members = [] then s
  else
    match s.fab.segments.find? (fun g => g.start == q.segStart && g.members == q.members) with
    | some g => putSegment s { g with task := (g.task ++ q.task).eraseDups, parts := (g.parts ++ [(q.ctx, q.hub / 40)]).eraseDups }
    | none => putSegment s ⟨q.segStart, q.members, q.task, [(q.ctx, q.hub / 40)], []⟩

/-- The last command of a card of a segment has completed on this module: the module arrives at the barrier. -/
def leaveSegment (s : State) (q : QueuedCmd) : State :=
  if q.members = [] ∨ s.core.queues.any (fun e => e.2.any (fun r => r.q.segStart == q.segStart && r.q.members == q.members)) = true then s
  else
    match s.fab.segments.find? (fun g => g.start == q.segStart && g.members == q.members) with
    | some g => (arriveBarrier s g false).1
    | none => s

end Sys2Proof.Machine
end

