-- ==== Sys2Proof/Machine/MemOps.lean ====
section
/-! DEFINITION. Memory: the device address map (R254 to R256), owners (R257, R261), valid lines (R260),
the local stores and Pantry windows, and how a task ends (R476). -/

namespace Sys2Proof.Machine

/-! Addresses -/

/-- Start of the Pantry scratch window of a hub (R16). -/
def pantryAddr (hub off : Nat) : Nat := pantryBase + hub * 0x800000 + off

/-- Physical core index (R14). -/
def physIndex (hub phys : Nat) : Nat := hub / 40 * 8192 + hub % 40 * 128 + phys

/-- Address of a byte of a physical core's local store (R16). -/
def lsAddr (hub phys off : Nat) : Nat := lsBase + physIndex hub phys * 0x20000 + off

/-- Key of a physical core. -/
def coreKey (hub phys : Nat) : Nat := hub * 66 + phys

/-- The wing and the channel of an HBM address (R254, R256). -/
def hbmWing (a : Nat) : Nat := a / 0x3000000000
def hbmChan (a : Nat) : Nat := a % 0x3000000000 / 0x80000000

/-- The region of an HBM address (R257): wing × 3,072 + channel × 32 + region of 64 MiB. -/
def hbmRegion (a : Nat) : Nat := hbmWing a * 3072 + hbmChan a * 32 + a % 0x80000000 / 0x4000000

/-- Whether an address is a hole or reserved for the stream unit (R254, R255). -/
def addrFaulty (s : State) (a : Nat) : Bool :=
  if isHbm a then false
  else if decide (a < 0xC050000000) then
    decide ((a - pantryBase) % 0x800000 ≥ (8 - rd s .MEM_PANTRY_MODE_CACHE_MIB ((a - pantryBase) / 0x800000)) * 0x100000)
  else !(a / 2 ^ 48 == 1)

/-- Read w bits that start `bit` bits after an address (packing of R67). -/
def readBits (s : State) (a bit w : Nat) : Nat :=
  readLe s (a + bit / 8) ((bit % 8 + w + 7) / 8) / 2 ^ (bit % 8) % 2 ^ w

/-- Write w bits that start `bit` bits after an address. -/
def writeBits (s : State) (a bit w v : Nat) : State :=
  let n := (bit % 8 + w + 7) / 8
  let old := readLe s (a + bit / 8) n
  let lo := old % 2 ^ (bit % 8)
  let hi := old / 2 ^ (bit % 8 + w)
  writeLe s (a + bit / 8) n (lo + (v % 2 ^ w) * 2 ^ (bit % 8) + hi * 2 ^ (bit % 8 + w))

/-! Owners -/

def granuleOwner (s : State) (a : Nat) : Nat := storeGet 0x7F s.mem.granules (a / 4096)
def regionOwner (s : State) (a : Nat) : Nat := storeGet 0x7F s.mem.regions (hbmRegion a)

/-- Whether a command of a context may access an on-chip granule (R257, R261). -/
def granuleOk (s : State) (ctx : Nat) (write : Bool) (a : Nat) : Bool :=
  let o := granuleOwner s a
  o == ctx || (o == 0x41 && (!write || ctx == 0))

/-- Whether a transfer stage may access an HBM byte (R257). -/
def regionOk (s : State) (ctx : Nat) (write maintFill : Bool) (a : Nat) : Bool :=
  let o := regionOwner s a
  o == ctx || (o == 0x41 && (!write || ctx == 0)) || (o == 0x40 && maintFill)

/-- The 4 KiB granules that n bytes from an address touch. -/
def granulesOf (a n : Nat) : List Nat :=
  if n = 0 then [] else (List.range ((a + n - 1) / 4096 - a / 4096 + 1)).map (fun i => (a / 4096 + i) * 4096)

/-- Clear the valid bits of a granule (R260). -/
def clearGranule (s : State) (a : Nat) : State :=
  updMem s fun m => { m with valid := storeKeep (fun k => k / 32 != a / 4096) m.valid }

/-- Whether a granule has been written since its grant (R260). -/
def granuleWritten (s : State) (a : Nat) : Bool := s.mem.valid.any (fun e => e.1 / 32 == a / 4096)

/-- Whether a HBM address lies in a poisoned 4 KiB block. -/
def poisoned (s : State) (a : Nat) : Bool := decide (a / 4096 ∈ s.mem.poison)

/-! Cores and tasks -/

def queueAt (s : State) (k : Nat) : List RunCmd := storeGet [] s.core.queues k
def setQueueAt (s : State) (k : Nat) (q : List RunCmd) : State :=
  updCore s fun c => { c with queues := storePut [] c.queues k q }

/-- The command that runs on a core: the head of its queue, once started. -/
def curCmd (s : State) (k : Nat) : Option RunCmd := (queueAt s k).head?.filter (·.started)

/-- The command of a number in a core's queue. -/
def cmdAt (s : State) (k n : Nat) : Option RunCmd := (queueAt s k).find? (fun r => r.num == n)

/-- Put a command back into its place in a core's queue. -/
def setCmd (s : State) (k : Nat) (r : RunCmd) : State :=
  setQueueAt s k ((queueAt s k).map (fun x => if x.num = r.num then r else x))

/-- The physical slot that serves a logical slot, if it is served (R19, R23). -/
def physOf (s : State) (hub slot : Nat) : Option Nat :=
  let n := hub * 64 + slot
  if rd s .HUB_REMAP_CTRL_ACTIVE_BANK hub = 0 then
    (if rdb s .HUB_REMAP_B0_SLOT_VALID n then some (rd s .HUB_REMAP_B0_SLOT_PHYS_SLOT n) else none)
  else if rdb s .HUB_REMAP_B1_SLOT_VALID n then some (rd s .HUB_REMAP_B1_SLOT_PHYS_SLOT n) else none

/-- Free the semaphores and return the credits of a card none of whose commands is queued any more. -/
def freeCard (s : State) (card : Nat) : State :=
  if s.core.queues.any (fun e => e.2.any (fun r => r.q.card.cardId == card)) then s
  else
    let s := each (s.core.semCards.filter (fun e => e.2.1 == card)) s fun t e =>
      wr (wr (wr (wr t .HUB_SEM_HELD e.1 0) .HUB_SEM_CTX e.1 0) .HUB_SEM_CORES e.1 0) .HUB_SEM_ARRIVED e.1 0
    let s := each (s.fab.held.filter (fun e => e.2.2.1 == card)) s fun t e =>
      wr t .SPOKE_CREDIT_POOL (e.1 * 8 + e.2.1) (rd t .SPOKE_CREDIT_POOL (e.1 * 8 + e.2.1) + e.2.2.2)
    let s := updCore s fun c => { c with semCards := c.semCards.filter (fun e => e.2.1 != card) }
    updFab s fun f => { f with held := f.held.filter (fun e => e.2.2.1 != card) }

/-- Rows of a local store that a stage names: the first offset, how many rows, the bytes between their starts, the bytes of
each, and whether they are written. -/
structure Extent where
  off : Nat
  n : Nat
  stride : Nat
  bytes : Nat
  w : Bool
  deriving DecidableEq, Repr

/-- The rows of an extent, as offset and bytes. -/
def extentRows (e : Extent) : List (Nat × Nat) := (List.range e.n).map (fun i => (e.off + i * e.stride, e.bytes))

/-- One past the last byte of an extent; 0 where it names none. -/
def extentEnd (e : Extent) : Nat := if e.n = 0 ∨ e.bytes = 0 then 0 else e.off + (e.n - 1) * e.stride + e.bytes

/-- Whether a command may touch the local-store extents it names (R261). -/
def extentsOk (s : State) (hub phys ctx : Nat) (l : List Extent) : Bool :=
  l.all fun e => (extentRows e).all (fun x => (granulesOf (lsAddr hub phys x.1) x.2).all (granuleOk s ctx e.w))

end Sys2Proof.Machine
end

