-- ==== Sys2Proof/Machine/Validator.lean ====
section
/-! DEFINITION. The card validator (R35, Table 2-4) with the engine rules it applies (R72, R85, R98, R100,
R101, R108, R110, R127 to R129, R157, R167, R223, R265), and the local-store extents of a stage. -/

namespace Sys2Proof.Machine

/-- Bytes of a row of n elements of a format, FP6 padded to whole groups of three bytes (R67). -/
def rowBytes (fmt n : Nat) : Nat :=
  if elemBits fmt = 6 then ceilDiv n 4 * 3 else ceilDiv (n * elemBits fmt) 8

/-- Rows and columns that one scale byte covers (R73). -/
def scaleCover (d : OpDesc) : Nat × Nat :=
  match d.dir with
  | 0 => (1, blockSize d.block)
  | 1 => (blockSize d.block, 1)
  | 2 => (16, 16)
  | _ => (32, 32)

/-- The scale bytes of rows r0 to r1 − 1 (the operand's other dimension) and elements k0 to k1 − 1 along K (R73). -/
def scaleRange (d : OpDesc) (r0 r1 k0 k1 : Nat) (w : Bool) : List Extent :=
  if (d.kind = 1 ∨ d.kind = 2) ∧ r0 < r1 ∧ k0 < k1 then
    let c := scaleCover d
    [⟨d.off + r0 / c.1 * d.stride + k0 / c.2, (r1 - 1) / c.1 + 1 - r0 / c.1, d.stride, (k1 - 1) / c.2 + 1 - k0 / c.2, w⟩]
  else []

/-- The scale bytes of an operand of r rows by k elements along K. -/
def scaleExtent (d : OpDesc) (r k : Nat) (w : Bool) : List Extent := scaleRange d 0 r 0 k w

/-! Rules of operands and stages (check 0x0C) -/

/-- An operand descriptor by itself (R71, R72, R90); `matrix` forbids FP32 and INT32. -/
def opDescOk (d : OpDesc) (matrix : Bool) : Bool :=
  let scaled := d.kind == 1 || d.kind == 2
  elemBits d.fmt != 0 && (!matrix || (d.fmt != 0xA && d.fmt != 0xB)) && d.resvZero && decide (d.kind ≤ 3)
    && !(scaled && (d.fmt == 8 || d.fmt == 9))
    && (if scaled then
          d.block != 0 && decide (d.block ≤ 7) && (if d.block = 7 then d.dir == 2 || d.dir == 3 else d.dir == 0 || d.dir == 1)
            && decide (d.off ≤ 0x17FFF)
        else d.block == 0 && d.dir == 0 && d.stride == 0 && d.off == 0 && (d.kind == 3 || d.tensor == 0))

/-- Row of Table 3-3 of a pair of operand formats: 1 to 4, or 0 for a reserved pair. -/
def pairing (a b : Nat) : Nat :=
  let is4 := fun (f : Nat) => f == 5 || f == 7
  let is8 := fun (f : Nat) => decide (1 ≤ f ∧ f ≤ 7)
  let is16 := fun (f : Nat) => f == 8 || f == 9
  if is4 a && is4 b then 1
  else if is8 a && is8 b then 2
  else if (is16 a && is8 b) || (is8 a && is16 b) then 3
  else if is16 a && is16 b then 4
  else 0

/-- Whether a product takes the integer path (R69). -/
def intPath (a b : OpDesc) : Bool :=
  let i := fun (d : OpDesc) => (d.fmt == 6 || d.fmt == 7) && d.kind == 0
  i a && i b

/-- An output descriptor (R85). -/
def outDescOk (o : OutDesc) (int : Bool) : Bool :=
  o.resvZero && (o.fmt ∈ [1, 2, 8, 9, 0xA] || (int && o.fmt ∈ [6, 0xB]))

/-- A matrix stage (R101, R100, R117). -/
def matrixOk (d : MatrixDesc) : Bool :=
  let hand := bitAt d.flags 2
  let out := bitAt d.flags 3
  let live := bitAt d.flags 1
  let chained := bitAt d.flags 4 || bitAt d.flags 5
  decide (1 ≤ d.arrays ∧ d.arrays ≤ 2) && decide (d.flags < 64) && decide (1 ≤ d.rows ∧ d.rows ≤ 256)
    && decide (1 ≤ d.kseg ∧ d.kseg ≤ 32) && decide (1 ≤ d.m ∧ d.m ≤ 1048576) && decide (1 ≤ d.n ∧ d.n ≤ 1048576)
    && decide (1 ≤ d.k ∧ d.k ≤ 1048576) && outDescOk d.out (intPath d.a d.b) && opDescOk d.a true && opDescOk d.b true
    && pairing d.a.fmt d.b.fmt != 0 && d.resvZero && (live || d.liveOff == 0) && d.liveOff % 4 == 0
    && (!hand || d.aStride != 0) && d.bStride != 0 && (if out then d.cStride == 0 && d.cOff == 0 else d.cStride != 0)
    && (!chained || (decide (d.m ≤ d.rows) && decide (d.n ≤ 16 * d.arrays)))

/-- Scale bytes of one slice of 32 K by 16 columns of a Freewheel weight operand over KSEG slices (R108). -/
def fwScaleBytes (d : OpDesc) (kseg : Nat) : Nat :=
  if d.kind = 1 ∨ d.kind = 2 then
    match d.dir with
    | 0 => if blockSize d.block ≤ 32 then kseg * (16 * 32 / blockSize d.block) else 16 * ceilDiv (kseg * 32) (blockSize d.block)
    | 1 => kseg * (32 * ceilDiv 16 (blockSize d.block))
    | 2 => kseg * 2
    | _ => kseg
  else 0

/-- A Freewheel stage (R107, R108, R110). DESIGN CHOICE (log 70): Table 4-5 gives LIVE_OFF only "as in R103"; a LIVE_OFF that is
not 0 without LIVE_EN or not 4-byte aligned is rejected, as Table 4-2 says of a matrix stage. -/
def freewheelOk (d : FwDesc) : Bool :=
  let port := bitAt d.flags 0
  let live := bitAt d.flags 1
  let out := bitAt d.flags 2
  let p := pairing d.a.fmt d.b.fmt
  decide (1 ≤ d.rows ∧ d.rows ≤ 4) && decide (d.flags < 8) && decide (1 ≤ d.kseg ∧ d.kseg ≤ 32)
    && decide (1 ≤ d.n ∧ d.n ≤ 1048576) && decide (1 ≤ d.k ∧ d.k ≤ 1048576) && outDescOk d.out (intPath d.a d.b)
    && opDescOk d.a true && opDescOk d.b true && (p == 1 || p == 2) && d.resvZero && (live || d.liveOff == 0)
    && d.liveOff % 4 == 0 && (if port then d.bOff == 0 && d.bStride == 0 && ((d.b.kind != 1 && d.b.kind != 2) || (d.b.off == 0 && d.b.stride == 0))
        else d.bStride != 0)
    && (if out then d.cStride == 0 && d.cOff == 0 else d.cStride != 0)
    && (!port || decide (d.kseg * 512 * elemBits d.b.fmt / 8 + fwScaleBytes d.b d.kseg ≤ 16384))

/-- Opcodes of Table 5-3. -/
def vopDefined (o : Nat) : Bool :=
  decide (1 ≤ o ∧ o ≤ 0xC) || decide (0x10 ≤ o ∧ o ≤ 0x15) || o ∈ [0x18, 0x19, 0x20, 0x28, 0x29, 0x30]

/-- The reduction a RED instruction names, and its K. -/
def redOf (i : VInstr) : Nat := i.dst
def redK (i : VInstr) : Nat := i.b

/-- K within the range of an operation (Table 5-2, R157). -/
def kOk (op k : Nat) : Bool :=
  if op = 7 ∨ op = 0xA then decide (1 ≤ k ∧ k ≤ 64) else if op = 8 then decide (1 ≤ k ∧ k ≤ 8) else decide (k ≤ 64)

/-- One instruction in a lane width (R122, R124, R125). -/
def vinstrOk (lane : Nat) (i : VInstr) : Bool :=
  vopDefined i.op && i.resv == 0
    && (lane != 4 || !(i.op ∈ [0x01, 0x02, 0x03, 0x04, 0x07, 0x08, 0x18, 0x19, 0x20, 0x28, 0x29]))
    && (!(i.op ∈ [0x09, 0x0A, 0x0B]) || decide (1 ≤ i.dst % 4))
    && (i.op != 0x20 || decide (1 ≤ i.imm % 256 ∧ i.imm % 256 ≤ 0xA))
    && (i.op != 0x30 || (decide (1 ≤ redOf i ∧ redOf i ≤ 9) && kOk (redOf i) (redK i) && decide (i.bKind ≤ 1) && decide (i.imm < 0x20000)))

/-- A program of a stage (R128, R157). -/
def progOk (d : VecDesc) : Bool :=
  let reds := (d.prog.filter (fun i => i.op == 0x30)).map redOf
  d.prog.length == d.progLen && d.prog.all (vinstrOk d.lane) && decide (reds.length ≤ 2) && reds.eraseDups.length == reds.length
    && (!bitAt d.flags 0 || reds.all (fun r => r ∈ [1, 2, 3, 4, 5]))
    && (d.tableTag != 0 || !(d.prog.any (fun i => i.op == 0x28 || i.op == 0x29)))

/-- The fields VECTOR, REDUCTION and SFU stages share (Table 5-4). -/
def vecCommon (d : VecDesc) (red : Bool) : Bool :=
  let out := bitAt d.flags 1
  decide (d.flags < 128) && (red || !bitAt d.flags 6) && decide (1 ≤ d.lane ∧ d.lane ≤ 4) && decide (1 ≤ d.rows ∧ d.rows ≤ 1024)
    && decide (1 ≤ d.cols ∧ d.cols ≤ 1048576) && opDescOk d.inD false && opDescOk d.outD false
    && ((d.outD.kind != 1 && d.outD.kind != 2) || d.outD.dir == 0) && d.resvZero && d.progOff % 8 == 0 && decide (d.scalar < 32)
    && (if out then d.outOff == 0 && d.outStride == 0 else d.outStride != 0 || decide (d.rows ≤ 1))

/-- A VECTOR stage (Table 5-5); `prev` is the stage before it. -/
def vectorOk (prev : Option Stage) (d : VecDesc) : Bool :=
  let hand := bitAt d.flags 0
  vecCommon d false && (d.mode == 3 || d.scalar == 0) && (d.mode == 2 || d.fn == 0) && progOk d
    && (match d.mode with
        | 1 => decide (1 ≤ d.progLen ∧ d.progLen ≤ 32)
        | 2 => d.progLen == 0 && hand && d.fn ∈ [6, 8, 9] && d.cols % 32 == 0 &&
            (match prev with | some (.matrix m) => m.arrays == 2 | _ => false)
        | 3 => d.progLen == 0 && !hand && decide (d.lane ≤ 3)
        | 4 => decide (1 ≤ d.progLen ∧ d.progLen ≤ 32) && !bitAt d.flags 1
        | 5 => decide (d.progLen ≤ 32)
        | 6 => d.progLen == 0 && d.outD.fmt == d.inD.fmt
        | 7 => d.progLen == 0 && d.outD.fmt == 0xA
        | _ => false)

/-- A REDUCTION stage (Table 5-10). -/
def reductionOk (d : VecDesc) : Bool :=
  vecCommon d true && d.scalar == 0 && d.progLen == 0 && d.prog.isEmpty && decide (1 ≤ d.mode ∧ d.mode ≤ 0xA)
    && (if d.mode ∈ [7, 8, 0xA] then kOk d.mode d.fn else d.fn == 0) && d.outD.fmt == 0xA && d.outD.kind == 0
    && (d.mode != 0xA || decide (d.cols ≤ 64)) && (!bitAt d.flags 0 || d.mode ∈ [1, 2, 3, 4, 5])

/-- An SFU stage. -/
def sfuOk (d : VecDesc) : Bool :=
  vecCommon d false && d.mode == 1 && d.scalar == 0 && d.progLen == 0 && d.prog.isEmpty && decide (1 ≤ d.fn ∧ d.fn ≤ 0xA)

/-- A core named in an address field (R14): no reserved hub or slot. -/
def coreNameOk (c : Nat) : Bool := decide (c % 128 ≤ 63) && decide (c / 128 % 64 ≤ 39)

/-- A STREAM stage (R167, R223, R265). -/
def streamOk (d : StreamDesc) : Bool :=
  match d with
  | .page mode flags parts layout cores share budget layer idx lenOff dataOff mapOff qsrc qdst qbytes heads soff rz =>
    (mode == 8 || mode == 9) && decide (flags < 8) && decide (1 ≤ parts ∧ parts ≤ 3) && decide (1 ≤ layout ∧ layout ≤ 15)
      && decide (1 ≤ cores ∧ cores ≤ 64) && decide (share < cores) && decide (1 ≤ budget ∧ budget ≤ 8) && decide (layer ≤ 511)
      && decide (idx ≤ 4095) && [lenOff, dataOff, mapOff, qdst].all (fun o => decide (o < 0x20000)) && mapOff % 8 == 0
      && (if bitAt flags 0 then decide (1 ≤ qbytes ∧ qbytes ≤ 65536) else qbytes == 0)
      && (mode != 8 || decide (1 ≤ heads ∧ heads ≤ 256)) && decide (qsrc < 0x20000) && decide (soff < 0x20000) && rz
  | .adapter model _ cores share groups goff roff doff gbytes soff rz =>
    decide (1 ≤ model ∧ model ≤ 15) && decide (1 ≤ cores ∧ cores ≤ 64) && decide (share < cores) && decide (1 ≤ groups ∧ groups ≤ 256)
      && decide (1 ≤ gbytes ∧ gbytes ≤ 98304) && [goff, roff, doff, soff].all (fun o => decide (o < 0x20000)) && rz
  | .transfer mode flags redFmt rows srcIndex rowBytes srcCount src dst _ dstStride _ liveOff rz =>
    let sk := flags % 4
    let dk := flags / 4 % 4
    (mode == 1 || mode == 2 || mode == 3) && decide (flags < 64) && sk != 3 && dk != 3
      && (if mode = 2 then (redFmt == 0xA || redFmt == 0xB) && decide (1 ≤ srcCount ∧ srcCount ≤ 4096) && decide (srcIndex < srcCount)
            && rowBytes % 128 == 0 && dk == 0 && dst % 128 == 0 && decide (pantryBase ≤ dst ∧ dst < pantryBase + 0x50000000)
          else redFmt == 0 && srcCount == 0 && srcIndex == 0)
      && decide (1 ≤ rows ∧ rows ≤ 65535) && decide (rowBytes ≤ 16777216) && rowBytes % 4 == 0
      && (mode != 3 || src == 0) && (sk != 0 || src % 4 == 0) && (dk != 0 || dst % 4 == 0)
      && (dstStride != 0 || decide (rows ≤ 1)) && decide (liveOff < 0x20000) && rz
  | .reserved _ => false

/-! Commands -/

/-- Kind nibble of a stage (Table 4-1). -/
def stageKind : Stage → Nat
  | .matrix _ => 1 | .freewheel _ => 2 | .vector _ => 3 | .reduction _ => 4 | .sfu _ => 5 | .stream _ => 6

/-- Whether a stage takes, or gives, hand-over. -/
def takesHand : Stage → Bool
  | .matrix d => bitAt d.flags 2
  | .vector d => bitAt d.flags 0 | .reduction d => bitAt d.flags 0 | .sfu d => bitAt d.flags 0
  | _ => false
def givesHand : Stage → Bool
  | .matrix d => bitAt d.flags 3
  | .freewheel d => bitAt d.flags 2
  | .vector d => bitAt d.flags 1 | .reduction d => bitAt d.flags 1 | .sfu d => bitAt d.flags 1
  | _ => false

/-- Engines, by stage kind, that a stage occupies beside its own (R128). -/
def alsoUses : Stage → List Nat
  | .vector d =>
    let sm := d.prog.any (fun i => i.op == 0x20 || (i.op == 0x30 && redOf i == 6)) || d.mode == 2 || d.mode == 3
    let rd := d.prog.any (fun i => i.op == 0x30) || d.mode == 3
    (if sm then [5] else []) ++ (if rd then [4] else [])
  | .reduction d => if d.mode = 6 ∨ d.mode = 0xA then [5] else []
  | _ => []

/-- One stage after the stage before it. -/
def stageOk (prev : Option Stage) (st : Stage) : Bool :=
  (!takesHand st || (match prev with | some p => givesHand p | none => false)) &&
  (match st with
   | .matrix d => matrixOk d
   | .freewheel d => freewheelOk d
   | .vector d => vectorOk prev d
   | .reduction d => reductionOk d
   | .sfu d => sfuOk d
   | .stream d => streamOk d)

/-- The stages of a command in order. -/
def stagesOk : Option Stage → List Stage → Bool
  | _, [] => true
  | p, x :: r => stageOk p x && stagesOk (some x) r

/-- A fused command (R97, R98, R128). -/
def cmdOk (c : FusedCmd) : Bool :=
  let own := c.stages.map stageKind
  let used := own ++ (c.stages.map alsoUses).flatten
  decide (1 ≤ c.stageCount ∧ c.stageCount ≤ 4) && c.stages.length == c.stageCount && decide (c.flags < 2) && c.resvZero
    && c.commandBytes == 16 + 64 * c.stageCount
    && c.stageKinds == (own.zipIdx.map (fun e => e.1 * 16 ^ e.2)).sum
    && used.eraseDups.length == used.length && stagesOk none c.stages

/-- The matrix stage of a command, if it has one. -/
def matrixOf (c : FusedCmd) : Option MatrixDesc :=
  c.stages.findSome? (fun st => match st with | .matrix d => some d | _ => none)

/-- Whether two matrix stages may be chained (R100). -/
def chainMatch (x y : MatrixDesc) : Bool :=
  x.arrays == y.arrays && x.rows == y.rows && x.m == y.m && x.n == y.n && x.out == y.out
    && pairing x.a.fmt x.b.fmt == pairing y.a.fmt y.b.fmt

/-- ACC_CONTINUE and ACC_JOIN pair within the card (R100); `open_` is a stage whose accumulator is open. -/
def chainsOk : Option MatrixDesc → List MatrixDesc → Bool
  | p, [] => p.isNone
  | none, x :: r => !bitAt x.flags 5 && chainsOk (if bitAt x.flags 4 then some x else none) r
  | some y, x :: r => bitAt x.flags 5 && chainMatch y x && chainsOk (if bitAt x.flags 4 then some x else none) r

/-! Extents (check 0x0B and R261) -/

/-- The local-store extents of a matrix stage. -/
def matrixExtents (d : MatrixDesc) : List Extent :=
  let hand := bitAt d.flags 2
  let tr := bitAt d.flags 0
  [⟨d.aOff, d.m, d.aStride, rowBytes d.a.fmt d.k, hand⟩]
    ++ (if tr then [⟨d.bOff, d.n, d.bStride, rowBytes d.b.fmt d.k, false⟩] else [⟨d.bOff, d.k, d.bStride, rowBytes d.b.fmt d.n, false⟩])
    ++ scaleExtent d.a d.m d.k false ++ (if tr then scaleExtent d.b d.k d.n false else scaleExtent d.b d.n d.k false)
    ++ (if bitAt d.flags 3 || bitAt d.flags 4 then [] else [⟨d.cOff, d.m, d.cStride, rowBytes d.out.fmt d.n, true⟩])
    ++ (if bitAt d.flags 1 then [⟨d.liveOff, 1, 0, 4, false⟩] else [])

/-- The local-store extents of a Freewheel stage. -/
def fwExtents (d : FwDesc) : List Extent :=
  let port := bitAt d.flags 0
  ⟨d.aOff, d.rows, d.aStride, rowBytes d.a.fmt d.k, false⟩ :: scaleExtent d.a d.rows d.k false
    ++ (if port then [] else ⟨d.bOff, d.k, d.bStride, rowBytes d.b.fmt d.n, false⟩ :: scaleExtent d.b d.n d.k false)
    ++ (if bitAt d.flags 2 then [] else [⟨d.cOff, d.rows, d.cStride, rowBytes d.out.fmt d.n, true⟩])
    ++ (if bitAt d.flags 1 then [⟨d.liveOff, 1, 0, 4, false⟩] else [])

/-- Bytes a reduction writes for each row, or once for HIST (Table 5-10, R145). -/
def redOutBytes (op k : Nat) : Nat :=
  match op with
  | 5 => 8 | 6 => 8 | 7 => 8 * k | 8 => 8 * k | 9 => 1024 | 0xA => 16 + 16 * k | _ => 4

/-- The extent of a reduction's output. -/
def redExtent (op k off rows : Nat) : List Extent :=
  if op = 9 then [⟨off, 1, 0, 1024, true⟩] else [⟨off, rows, redOutBytes op k, redOutBytes op k, true⟩]

/-- The local-store extents of a vector stage; strides are in units of 4 bytes. Lists that name rows are
checked entry by entry when they are read (R129). -/
def vecExtents (kind : Nat) (d : VecDesc) : List Extent :=
  let merge := kind == 4 && d.mode == 0xA
  let vec := fun (m : Nat) => kind == 3 && d.mode == m
  let outCols := if vec 2 then d.cols / 2 else d.cols
  (if bitAt d.flags 0 then []
   else if merge then [⟨d.inOff, d.rows, 4 * d.inStride, 8 * d.cols, false⟩, ⟨d.auxOff, d.rows, 4 * d.auxStride, 8 * d.fn * d.cols, false⟩]
   else if vec 6 then []
   else [⟨d.inOff, d.rows, 4 * d.inStride, rowBytes d.inD.fmt d.cols, false⟩])
  ++ (if merge || vec 6 then [] else scaleExtent d.inD d.rows d.cols false)
  ++ (if bitAt d.flags 1 || kind == 4 || vec 7 then []
      else ⟨d.outOff, d.rows, 4 * d.outStride, rowBytes d.outD.fmt outCols, true⟩ :: scaleExtent d.outD d.rows outCols true)
  ++ (if bitAt d.flags 4 then [⟨d.auxOff, d.rows, 4 * d.auxStride, d.cols * laneBits d.lane / 8, false⟩] else [])
  ++ (if bitAt d.flags 5 then [⟨d.paramOff, d.rows, 4, 4, false⟩] else [])
  ++ (if bitAt d.flags 3 then [⟨d.lenOff, d.rows, 4, 4, false⟩] else [])
  ++ (if bitAt d.flags 2 then [⟨d.liveOff, 1, 0, 4, false⟩] else [])
  ++ (if d.progLen = 0 then [] else [⟨d.progOff, d.progLen, 8, 8, false⟩])
  ++ ((d.prog.filter (fun i => i.op == 0x30)).map (fun i => redExtent (redOf i) (redK i) i.imm d.rows)).flatten
  ++ (if kind = 4 then redExtent d.mode d.fn d.redOff d.rows else [])
  ++ (if vec 3 then [⟨d.redOff, d.rows, 8, 8, true⟩] else [])
  ++ (if vec 4 || vec 5 then [⟨d.redOff, d.rows, 4, 4, vec 4⟩, ⟨d.auxOff, d.rows, 4 * d.auxStride, 4 * d.cols, vec 4⟩] else [])
  ++ (if vec 6 || vec 7 then [⟨d.redOff, 1, 0, 4, false⟩, ⟨d.auxOff, d.rows, if vec 6 then 4 else 8, if vec 6 then 4 else 8, false⟩] else [])

/-- The local-store extents of a stream stage that its descriptor gives by itself; the slab images or token records at DATA_OFF
reach as far as the layout says, and a length table as far as its row count says, which is checked when the stage runs. -/
def streamExtents (d : StreamDesc) : List Extent :=
  match d with
  | .page mode flags _ _ _ _ _ _ _ lenOff dataOff mapOff _ qdst qbytes _ _ _ =>
    ⟨lenOff, 1, 0, 16, false⟩ :: ⟨dataOff, 1, 0, 1, mode == 8⟩ :: (if mode = 8 then [⟨mapOff, 1, 0, 80, true⟩] else [])
      ++ (if bitAt flags 0 then [⟨qdst, 1, 0, qbytes, true⟩] else [])
  | .adapter _ _ _ _ groups goff _ doff gbytes soff _ =>
    [⟨goff, groups, 8, 8, false⟩, ⟨doff, groups, gbytes, gbytes, true⟩, ⟨soff, groups, 4, 4, true⟩]
  | .transfer _ flags _ rows _ rowB _ src dst ss ds _ liveOff _ =>
    (if flags % 4 = 1 then [⟨bitsOf src 48 32, rows, ss, rowB, false⟩] else [])
      ++ (if flags / 4 % 4 = 1 then [⟨bitsOf dst 48 32, rows, ds, rowB, true⟩] else [])
      ++ (if bitAt flags 5 then [⟨liveOff, 1, 0, 4, false⟩] else [])
  | .reserved _ => []

def stageExtents : Stage → List Extent
  | .matrix d => matrixExtents d
  | .freewheel d => fwExtents d
  | .vector d => vecExtents 3 d
  | .reduction d => vecExtents 4 d
  | .sfu d => vecExtents 5 d
  | .stream d => streamExtents d

/-- The cores a transfer names (R14). -/
def namesOk : Stage → Bool
  | .stream (.transfer _ flags _ _ _ _ _ src dst _ _ _ _ _) =>
    (flags % 4 != 2 || coreNameOk (bitsOf src 14 0)) && (flags / 4 % 4 != 2 || coreNameOk (bitsOf dst 14 0))
  | _ => true

/-! Table 2-4 -/

/-- The extents of a card's lists and command stream. -/
def cardExtents (c : CardImage) : List (Nat × Nat) :=
  (if c.hbmListCount = 0 then [] else [(c.hbmListOff, 32 * c.hbmListCount)])
    ++ (if c.semCount = 0 then [] else [(c.semListOff, 8 * c.semCount)])
    ++ (if c.creditCount = 0 then [] else [(c.creditListOff, 8 * c.creditCount)])
    ++ (if c.cmds.isEmpty then [] else [(c.cmdOff, (c.cmds.map (·.commandBytes)).sum)])

def extentsApart : List (Nat × Nat) → Bool
  | [] => true
  | x :: r => r.all (fun y => decide (x.1 + x.2 ≤ y.1 ∨ y.1 + y.2 ≤ x.1)) && extentsApart r

/-- The gears at or above MIN_GEAR. -/
def cardGears (c : CardImage) : List Nat := (List.range 8).filter (fun g => decide (c.minGear ≤ g))

/-- n_min of check 0x07: slots of the shortest permitted duration. -/
def cardMinSlots (c : CardImage) : Nat :=
  (((cardGears c).map (fun g => ceilDiv (c.cycles.getD g 0 * 25) (gearMhz g))).min?).getD 0

/-- Whether the slabs that a stage names lie in their layout, which has as many layers as `layers` gives (Table 6-7). -/
def layerOk (layers : Nat → Nat) : Stage → Bool
  | .stream (.page _ _ _ layout _ _ _ layer _ _ _ _ _ _ _ _ _ _) => decide (layer < layers layout)
  | _ => true

/-- The reason code of the first check of Table 2-4 that a card fails; `before` are the cards of the bundle
that arrived before it. -/
def validateCard (layers : Nat → Nat) (before : List CardImage) (c : CardImage) : Option Nat :=
  ([ (c.magic == 0x4B434E5A && c.format == 1 && c.headerBytes == 0x100, 0x01),
     (decide (0x100 ≤ c.cardBytes) && c.cardBytes % 64 == 0
        && [c.hbmListOff, c.semListOff, c.creditListOff].all (fun o => o % 8 == 0)
        && (cardExtents c).all (fun e => decide (0x100 ≤ e.1 ∧ e.1 + e.2 ≤ c.cardBytes)) && extentsApart (cardExtents c), 0x02),
     (c.digestOk, 0x03),
     (c.cardId != 0 && c.kind != 0 && c.coreCount != 0 && c.hubCount != 0 && c.cmdCount != 0 && c.maxNs != 0 && c.cmdOff != 0
        && (cardGears c).all (fun g => c.cycles.getD g 0 != 0), 0x04),
     (decide (c.coreCount ≤ 10240) && decide (c.hubCount ≤ 160) && decide (c.minGear ≤ 7) && decide (c.semCount ≤ 16)
        && decide (c.creditCount ≤ 12) && decide (c.lsBytes ≤ 98304) && decide (c.pantryBytes ≤ 8388608)
        && decide (c.hbmListCount ≤ 4), 0x05),
     ((List.range 8).all (fun g => if g < c.minGear then c.cycles.getD g 0 == 0
        else decide (c.cycles.getD g 0 * 1000 ≤ c.maxNs * gearMhz g)), 0x06),
     (decide (c.flitPeak.sum ≤ 39)
        && (c.flitTotal.zip c.flitPeak).all (fun e => decide (e.1 ≤ e.2 * cardMinSlots c)), 0x07),
     ((c.kind != 4 || bitAt c.flags 0) && (!bitAt c.flags 0 || decide (c.maxNs ≤ 100000)), 0x08),
     (c.sems.all (fun e => decide (e.acq ≤ e.rel ∧ e.rel < c.cmdCount)), 0x09),
     (c.credits.all (fun e => decide (e.acq ≤ e.rel ∧ e.rel < c.cmdCount)), 0x0A),
     (c.cmds.all (fun k => k.stages.all (fun st => namesOk st
        && (stageExtents st).all (fun e => decide (extentEnd e ≤ c.lsBytes)))), 0x0B),
     (c.resvZero && decide (c.flags < 8) && decide (c.kind ≤ 7) && c.cmds.length == c.cmdCount
        && c.hbm.length == c.hbmListCount && c.sems.length == c.semCount && c.credits.length == c.creditCount
        && c.sems.all (fun e => decide (e.num ≤ 15))
        && c.credits.all (fun e => decide (e.link ≤ 5) && (e.cls == 2 || e.cls == 3) && e.credits != 0)
        && before.all (fun b => b.cardId != c.cardId)
        && c.cmds.all cmdOk && c.cmds.all (fun k => k.stages.all (layerOk layers)) && chainsOk none (c.cmds.filterMap matrixOf), 0x0C) ].find? (fun e => !e.1)).map (·.2)

end Sys2Proof.Machine
end

