-- ==== Sys2Proof/Machine/Layouts.lean ====
section
/-! DEFINITION. The words and bytes of a kernel card: operand and output descriptors (Tables 3-4, 3-8), vector instructions (Table
5-2), stage descriptors (Tables 4-2, 4-5, 5-4, 6-7, 8-3, 9-3), fused commands (Table 4-1), the card's header and lists (Tables
2-2, 2-3). Every multi-byte field is little-endian (R2). -/

namespace Sys2Proof.Machine

/-- A field of n bytes at an offset. -/
def fieldAt (b : List Nat) (o n : Nat) : Nat := leNum ((b.drop o).take n)

/-- An operand descriptor word (Table 3-4). -/
def opDescOf (w : Nat) : OpDesc :=
  let kind := bitsOf w 5 4
  let scaled := decide (kind = 1 ∨ kind = 2)
  let hi := if scaled then bitsOf w 63 49 == 0 else bitsOf w 31 16 == 0 && (kind == 3 || bitsOf w 63 32 == 0)
  ⟨bitsOf w 3 0, kind, bitsOf w 8 6, bitsOf w 10 9, bitsOf w 31 16, if scaled then bitsOf w 48 32 else 0,
    if kind = 3 then bitsOf w 63 32 else 0, bitsOf w 15 11 == 0 && hi⟩

/-- An output descriptor word (Table 3-8). -/
def outDescOf (w : Nat) : OutDesc := ⟨bitsOf w 3 0, bitAt w 4, bitAt w 5, bitsOf w 31 6 == 0⟩

/-- A vector instruction (Table 5-2). For RED, bits [22:16] hold K, [23] SUMMARY, [24] NORM_ALL and [25] is reserved. -/
def vinstrOf (w : Nat) : VInstr :=
  let red := decide (bitsOf w 7 0 = 0x30)
  ⟨bitsOf w 7 0, bitsOf w 11 8, bitsOf w 15 12, if red then bitsOf w 22 16 else bitsOf w 19 16,
    if red then bitsOf w 23 23 else bitsOf w 23 20, bitsOf w 25 24, bitsOf w 27 26, bitsOf w 63 32, bitsOf w 31 28⟩

/-- An offset field: bits [16:0], and whether [31:17] are zero. -/
def offOf (b : List Nat) (o : Nat) : Nat × Bool := (bitsOf (fieldAt b o 4) 16 0, bitsOf (fieldAt b o 4) 31 17 == 0)

def zeroBytes (b : List Nat) (o n : Nat) : Bool := fieldAt b o n == 0

/-- A MATRIX stage descriptor (Table 4-2). -/
def matrixDescOf (b : List Nat) : MatrixDesc :=
  let f := fieldAt b
  ⟨f 0 1, f 1 1, f 2 2, f 4 1, f 8 4, f 0xC 4, f 0x10 4, outDescOf (f 0x14 4), opDescOf (f 0x18 8), opDescOf (f 0x20 8),
    (offOf b 0x28).1, (offOf b 0x2C).1, (offOf b 0x30).1, (offOf b 0x34).1, f 0x38 2, f 0x3A 2, f 0x3C 2,
    zeroBytes b 5 3 && zeroBytes b 0x3E 2 && [0x28, 0x2C, 0x30, 0x34].all (fun o => (offOf b o).2)⟩

/-- A FREEWHEEL stage descriptor (Table 4-5). -/
def fwDescOf (b : List Nat) : FwDesc :=
  let f := fieldAt b
  ⟨f 0 1, f 1 1, f 2 1, f 4 4, f 8 4, outDescOf (f 0xC 4), opDescOf (f 0x10 8), opDescOf (f 0x18 8),
    (offOf b 0x20).1, (offOf b 0x24).1, (offOf b 0x28).1, (offOf b 0x2C).1, f 0x30 2, f 0x32 2, f 0x34 2,
    zeroBytes b 3 1 && zeroBytes b 0x36 10 && [0x20, 0x24, 0x28, 0x2C].all (fun o => (offOf b o).2)⟩

/-- A VECTOR, REDUCTION or SFU stage descriptor (Table 5-4) with the words of the program that stands at PROG_OFF. -/
def vecDescBytes (b : List Nat) (prog : List Nat) : VecDesc :=
  let f := fieldAt b
  let off := fun (o : Nat) => (offOf b o).1
  let str := fun (o : Nat) => bitsOf (f o 4) 31 17
  ⟨f 0 1, f 1 1, f 2 1, f 3 1, f 4 2, f 6 1, f 7 1, f 8 4, f 0xC 2, f 0xE 2, opDescOf (f 0x10 8), opDescOf (f 0x18 8),
    off 0x20, str 0x20, off 0x24, str 0x24, off 0x28, str 0x28, off 0x2C, off 0x30, off 0x34, off 0x38, off 0x3C,
    prog.map vinstrOf, [0x2C, 0x30, 0x34, 0x38, 0x3C].all (fun o => (offOf b o).2)⟩

/-- An address field of a transfer (Table 9-3) has no bits beside its kind's: 52 bits of a device address, an offset, or an offset
and a logical core. -/
def addrFieldOk (kind a : Nat) : Bool :=
  match kind with
  | 0 => decide (a < 2 ^ 52)
  | 1 => bitsOf a 63 49 == 0 && bitsOf a 31 0 == 0
  | _ => bitsOf a 63 49 == 0 && bitsOf a 31 15 == 0

/-- A STREAM stage descriptor (Tables 6-7, 8-3, 9-3). -/
def streamDescOf (b : List Nat) : StreamDesc :=
  let f := fieldAt b
  let mode := f 0 1
  if mode = 8 ∨ mode = 9 then
    .page mode (f 1 1) (f 2 1) (f 3 1) (f 4 1) (f 5 1) (f 6 1) (f 8 2) (f 0xA 2) (f 0xC 4) (f 0x10 4) (f 0x14 4) (f 0x18 4) (f 0x1C 4)
      (f 0x20 4) (f 0x24 2) (f 0x28 4) (zeroBytes b 7 1 && zeroBytes b 0x26 2 && zeroBytes b 0x2C 20)
  else if mode = 0xA then
    .adapter (f 1 1) (f 2 2) (f 4 1) (f 5 1) (f 6 2) (f 8 4) (f 0xC 4) (f 0x10 4) (f 0x14 4) (f 0x18 4) (zeroBytes b 0x1C 36)
  else if mode = 1 ∨ mode = 2 ∨ mode = 3 then
    .transfer mode (f 1 1) (f 2 1) (f 4 2) (f 6 2) (f 8 4) (f 0xC 2) (f 0x10 8) (f 0x18 8) (f 0x20 4) (f 0x24 4) (f 0x28 4) (f 0x2C 4)
      (zeroBytes b 3 1 && zeroBytes b 0xE 2 && zeroBytes b 0x30 16 && addrFieldOk (f 1 1 % 4) (f 0x10 8) && addrFieldOk (f 1 1 / 4 % 4) (f 0x18 8))
  else .reserved mode

/-- A stage descriptor of a kind (Table 4-1), with the programs that the stages to come have; gives the programs left. -/
def stageOfBytes (kind : Nat) (b : List Nat) (progs : List (List Nat)) : Stage × List (List Nat) :=
  let vec := vecDescBytes b (if fieldAt b 3 1 = 0 then [] else progs.headD [])
  let rest := if fieldAt b 3 1 = 0 then progs else progs.drop 1
  match kind with
  | 1 => (.matrix (matrixDescOf b), progs)
  | 2 => (.freewheel (fwDescOf b), progs)
  | 3 => (.vector vec, rest)
  | 4 => (.reduction vec, rest)
  | 5 => (.sfu vec, rest)
  | 6 => (.stream (streamDescOf b), progs)
  | _ => (.stream (.reserved 0), progs)

/-- The stages of a command by their kinds. -/
def stagesOfBytes : List Nat → List Nat → List (List Nat) → List Stage × List (List Nat)
  | [], _, progs => ([], progs)
  | k :: ks, b, progs =>
    let x := stageOfBytes k (b.take 64) progs
    let y := stagesOfBytes ks (b.drop 64) x.2
    (x.1 :: y.1, y.2)

/-- A fused command (Table 4-1). -/
def cmdOfBytes (b : List Nat) (progs : List (List Nat)) : FusedCmd × List (List Nat) :=
  let n := fieldAt b 0 1
  let kinds := fieldAt b 4 2
  let x := stagesOfBytes ((List.range (min n 4)).map (fun i => kinds / 16 ^ i % 16)) (b.drop 16) progs
  (⟨n, fieldAt b 1 1, fieldAt b 2 2, kinds, zeroBytes b 6 10, x.1⟩, x.2)

/-- The command stream: each command says how long it is. -/
def cmdsOfBytes : Nat → List Nat → List (List Nat) → List FusedCmd
  | 0, _, _ => []
  | n + 1, b, progs =>
    let x := cmdOfBytes b progs
    x.1 :: cmdsOfBytes n (b.drop (max 16 x.1.commandBytes)) x.2

/-- The entries of a list of the card: their count, size and place. -/
def cardList {α : Type} (b : List Nat) (off n size : Nat) (f : List Nat → α) : List α :=
  (List.range n).map (fun i => f ((b.drop (off + i * size)).take size))

/-- An HBM, semaphore or credit entry (Table 2-3), and whether its reserved bits are zero. -/
def hbmEntryOf (e : List Nat) : HbmEntry := ⟨fieldAt e 0 1 % 4, fieldAt e 1 12, fieldAt e 16 8, fieldAt e 24 8⟩
def semEntryOf (e : List Nat) : SemEntry := ⟨fieldAt e 0 1, fieldAt e 2 2, fieldAt e 4 2⟩
def creditEntryOf (e : List Nat) : CreditEntry := ⟨fieldAt e 0 1, fieldAt e 1 1, fieldAt e 2 2, fieldAt e 4 2, fieldAt e 6 2⟩

/-- A kernel card (Tables 2-2 and 2-3), whose commands' programs come beside it: the spec gives a program's place in the local store
(R124) and none in the card, so a card arrives with the words that its stages will find at PROG_OFF (DESIGN CHOICE, log 75). -/
def cardOfBytes (b : List Nat) (progs : List (List Nat)) : CardImage :=
  let f := fieldAt b
  let list := fun (o n w : Nat) => (List.range n).map (fun i => f (o + w * i) w)
  let hbmN := min (f 0x6A 2) 4
  let semN := min (f 0x16 1) 16
  let creN := min (f 0x17 1) 12
  let size := f 8 4
  let cmdN := min (f 0x20 4) ((b.length - f 0x70 4) / 16)
  ⟨f 0 4, f 4 2, f 6 2, size, f 0xC 4, f 0x10 1, f 0x11 1, f 0x12 2, f 0x14 1, f 0x15 1, f 0x16 1, f 0x17 1, f 0x18 4, f 0x1C 4,
    f 0x20 4, f 0x24 4, list 0x28 8 4, list 0x48 6 4, list 0x60 6 1, f 0x68 2, f 0x6A 2, f 0x6C 2, f 0x6E 2, f 0x70 4, f 0x74 4,
    f 0x78 4, f 0x7C 4, f 0x80 4,
    decide (b.length = size) && decide ((b.drop 0xE0).take 32 = sha256 (b.take 0xE0 ++ b.drop 0x100)),
    zeroBytes b 0x66 2 && zeroBytes b 0x84 92
      && (cardList b (f 0x68 2) hbmN 32 (fun e => fieldAt e 0 1 / 4 == 0 && zeroBytes e 13 3)).all id
      && (cardList b (f 0x6C 2) semN 8 (fun e => zeroBytes e 1 1 && zeroBytes e 6 2)).all id,
    cardList b (f 0x68 2) hbmN 32 hbmEntryOf, cardList b (f 0x6C 2) semN 8 semEntryOf, cardList b (f 0x6E 2) creN 8 creditEntryOf,
    cmdsOfBytes cmdN (b.drop (f 0x70 4)) progs⟩

end Sys2Proof.Machine
end

