-- ==== Sys2Proof/Machine/Queues.lean ====
section
/-! DEFINITION. The command queues of the cores (R11, R98, R99): the stages in progress, hub semaphores (R373, R374), credits
(R346), the start of commands, and how a task ends (R476). -/

namespace Sys2Proof.Machine

/-! Stages in progress -/

/-- Whether stage i of a started command is in progress: it has not completed, and the stage that hands over to it has (R98).
A stage runs as one command of the block, so its rows are there once the stage before it is done (log 69). -/
def inProgress (r : RunCmd) (i : Nat) : Bool :=
  r.started && !r.done.getD i true && (match r.q.cmd.stages[i]? with
    | some st => !takesHand st || r.done.getD (i - 1) false
    | none => false)

/-- The stages in progress on a core: command, place, stage. -/
def stagesOn (s : State) (k : Nat) : List (RunCmd × Nat × Stage) :=
  ((queueAt s k).map (fun r => (r.q.cmd.stages.zipIdx.filter (fun e => inProgress r e.2)).map (fun e => (r, e.2, e.1)))).flatten

/-- The cores of a hub that have commands. -/
def hubQueues (s : State) (h : Nat) : List Nat := (s.core.queues.map (·.1)).filter (fun k => k / 66 == h)

def isLarder : Stage → Bool
  | .stream (.page ..) => true
  | _ => false

/-- The BUSY bits show the stages in progress (Tables 4-8, 5-14, 6-12). -/
def showBusy (s : State) (k : Nat) : State :=
  let on := fun (t : State) (j : Nat) (p : Stage → Bool) => (stagesOn t j).any (fun e => p e.2.2)
  let s := wrb s .MAT_CORE_STATUS_BUSY k (on s k (fun st => decide (stageKind st ≤ 2)))
  let s := wrb s .VEC_CORE_STATUS_BUSY k (on s k (fun st => decide (3 ≤ stageKind st ∧ stageKind st ≤ 5)))
  wrb s .LARDER_STATUS_BUSY (k / 66) ((hubQueues s (k / 66)).any (fun j => on s j isLarder))

/-- The scalar registers of a hub as words of Table 5-6 without the reserved bits, and the hub's active coefficient bank after
them: what a VECTOR stage takes with it when it starts (R131, R152). -/
def scalarWindow (s : State) (h : Nat) : List Nat :=
  (List.range 32).map (fun n =>
    let x := h * 32 + n
    rd s .VEC_SCALAR_VALUE x + 2 ^ 32 * rd s .VEC_SCALAR_CTX x + 2 ^ 38 * rd s .VEC_SCALAR_SHARED x + 2 ^ 39 * rd s .VEC_SCALAR_VALID x)
    ++ [rd s .VEC_COEF_CTRL_ACTIVE_BANK h]

/-- The command of a number as its stages start: a VECTOR stage that is now in progress has taken its copy of the scalars
(R131). -/
def noteStarts (s : State) (k n : Nat) : State :=
  match cmdAt s k n with
  | none => s
  | some r =>
    let vec := r.q.cmd.stages.zipIdx.any (fun e => stageKind e.1 == 3 && inProgress r e.2)
    if vec && r.scalars.isNone then setCmd s k { r with scalars := some (scalarWindow s (k / 66)) } else s

/-! Ending a task -/

/-- A task ends without its queues moving on (R476): its items end, its commands leave every queue, the cores that ran one are
idle, an open chain of it is abandoned, and a locked segment it is in aborts (R354). -/
def stopTask (s : State) (task : List (Nat × Nat)) (card code detail : Nat) : State :=
  let mine := fun (r : RunCmd) => r.q.card.cardId == card && r.q.task == task
  let ran := (s.core.queues.filter (fun e => e.2.any (fun r => r.started && mine r))).map (·.1)
  let opened := (s.core.arrays.filter (fun e => e.2.chained && e.2.card == card && e.2.task == task)).map (·.1)
  let s := updCore s fun c => { c with
    queues := (c.queues.map (fun e => (e.1, e.2.filter (fun r => !mine r)))).filter (fun e => !e.2.isEmpty)
    held := storeKeep (fun k => !decide (k ∈ ran)) c.held
    arrays := storeKeep (fun k => !decide (k ∈ ran ++ opened)) c.arrays
    wheels := storeKeep (fun k => !decide (k ∈ ran)) c.wheels
    waiting := c.waiting.filter (fun w => !decide (w.core ∈ ran))
    reds := storeKeep (fun k => !decide (k / 65536 ∈ ran)) c.reds
    tasks := c.tasks.filter (fun x => !(x.card == card && x.items == task)) }
  let s := each ran s fun t k => wr (wr (showBusy t k) .MAT_CORE_STATUS_HELD k 0) .VEC_CORE_STATUS_HELD k 0
  let s := each task (freeCard s card) fun t k =>
    match itemAt t k.1 k.2 with
    | some x => endItem t x code detail
    | none => t
  abortSegments s (fun g => task.any (fun k => decide (k ∈ g.task)))

/-! Semaphores and credits -/

/-- The index of a context's credit pool for a link. -/
def poolIdx (c l : Nat) : Nat := c * 8 + l

def semKey (h n : Nat) : Nat := h * 16 + n

/-- The semaphores that a command acquires, or releases. -/
def semsAt (q : QueuedCmd) (acq : Bool) : List Nat :=
  (q.card.sems.filter (fun e => (if acq then e.acq else e.rel) == q.index)).map (·.num)

/-- A core of a card reaches its acquire command: it claims a free semaphore, or joins its card's barrier. A
semaphore held by another card is a planning fault that ends the task (R373, R374). -/
def arriveSem (s : State) (k : Nat) (r : RunCmd) (n : Nat) : State :=
  let h := k / 66
  let x := semKey h n
  let c := storeGet (0, [], []) s.core.semCards x
  if rdb s .HUB_SEM_HELD x && c.1 != r.q.card.cardId then
    let s := wr (wr s .HUB_SEM_STATUS_SEM_FAULT h 1) .HUB_SEM_STATUS_SEM h n
    stopTask (hubError s h 0x1240 1 r.q.slot (some r.q.ctx)) r.q.task r.q.card.cardId 0x23 0x02
  else if k ∈ c.2.1 then s
  else
    let s := if rdb s .HUB_SEM_HELD x then s
      else wr (wr (wr s .HUB_SEM_HELD x 1) .HUB_SEM_CTX x r.q.ctx) .HUB_SEM_CORES x r.q.cores
    let s := wr s .HUB_SEM_ARRIVED x (c.2.1.length + 1)
    let s := trail s (hubTrail h) 0x23 r.q.ctx n (c.2.1.length + 1)
    updCore s fun m => { m with semCards := storeInsert m.semCards x (r.q.card.cardId, c.2.1 ++ [k], c.2.2) }

/-- A release command has completed on a core; the last core frees the semaphore (R373). -/
def releaseSem (k : Nat) (r : RunCmd) (s : State) (n : Nat) : State :=
  let h := k / 66
  let x := semKey h n
  let c := storeGet (0, [], []) s.core.semCards x
  if c.1 ≠ r.q.card.cardId then s
  else if c.2.2.length + 1 ≥ rd s .HUB_SEM_CORES x then
    let s := wr (wr (wr (wr s .HUB_SEM_HELD x 0) .HUB_SEM_CTX x 0) .HUB_SEM_CORES x 0) .HUB_SEM_ARRIVED x 0
    trail (updCore s fun m => { m with semCards := storeErase m.semCards x }) (hubTrail h) 0x24 r.q.ctx n r.q.card.cardId
  else updCore s fun m => { m with semCards := storeInsert m.semCards x (c.1, c.2.1, c.2.2 ++ [k]) }

/-- Credits of a card's entry that are held. -/
def creditHeld (s : State) (q : QueuedCmd) (e : CreditEntry) : Bool :=
  decide ((q.ctx, e.link, q.card.cardId, e.credits) ∈ s.fab.held)

/-- The credit entries a command acquires and does not hold yet. -/
def creditsWanted (s : State) (q : QueuedCmd) : List CreditEntry :=
  q.card.credits.filter (fun e => e.acq == q.index && !creditHeld s q e)

/-- Whether the pools of the command's own context hold what it wants. -/
def creditsThere (s : State) (q : QueuedCmd) : Bool :=
  (creditsWanted s q).all (fun e => decide (e.credits ≤ rd s .SPOKE_CREDIT_POOL (poolIdx q.ctx e.link)))

/-- Draw a card's credits from its context's pool (R346). -/
def drawCredits (s : State) (q : QueuedCmd) : State :=
  each (creditsWanted s q) s fun t e =>
    let n := poolIdx q.ctx e.link
    updFab (wr t .SPOKE_CREDIT_POOL n (rd t .SPOKE_CREDIT_POOL n - e.credits)) fun f =>
      { f with held := f.held ++ [(q.ctx, e.link, q.card.cardId, e.credits)] }

/-- Return the credits whose release command has completed on every core of the card. -/
def returnDrawn (s : State) (q : QueuedCmd) : State :=
  let busy := fun (rel : Nat) => s.core.queues.any (fun e => e.2.any (fun r => r.q.card.cardId == q.card.cardId && decide (r.q.index ≤ rel)))
  each (q.card.credits.filter (fun e => e.rel == q.index && creditHeld s q e && !busy e.rel)) s fun t e =>
    let n := poolIdx q.ctx e.link
    updFab (wr t .SPOKE_CREDIT_POOL n (rd t .SPOKE_CREDIT_POOL n + e.credits)) fun f =>
      { f with held := f.held.filter (· != (q.ctx, e.link, q.card.cardId, e.credits)) }

/-! Start -/

/-- Whether every semaphore that a command acquires has all its cores. -/
def semsReady (s : State) (k : Nat) (r : RunCmd) : Bool :=
  (semsAt r.q true).all fun n =>
    let x := semKey (k / 66) n
    rd s .HUB_SEM_ARRIVED x == rd s .HUB_SEM_CORES x && decide (k ∈ (storeGet (0, [], []) s.core.semCards x).2.1)

/-- The reserve that the running step has left (R57). -/
def reserveLeft (s : State) : Nat := if s.tt.run.running then s.tt.run.reserveNs - s.tt.run.reserveUsed else 0

/-- A core's command starts: it counts, takes its credits, and its first stages are in progress. A command of a locked segment
starts with its segment (R59). -/
def beginCmd (s : State) (k : Nat) (r : RunCmd) : State :=
  let s := drawCredits s r.q
  let s := updCore s fun c => { c with started := storePut 0 c.started k (storeGet 0 c.started k + 1) }
  let s := trail s k 0x01 r.q.ctx r.q.index r.q.card.cardId
  let at_ := if r.q.members = [] then s.now else max s.now r.q.segStart
  showBusy (noteStarts (setCmd s k { r with started := true, start := at_, unused := reserveLeft s }) k r.num) k

/-- The command of a core that may start next: the first that has not started, at the head of the queue or behind commands that
have all started if its WAIT_PREV is clear (R99). None starts while an engine of the core is held (R115) or the core is fenced. -/
def nextCmd (s : State) (k : Nat) : Option RunCmd :=
  if (storeFind s.core.held k).isSome || rdb s .HUB_SLOT_STATE_FENCED k then none
  else match (queueAt s k).zipIdx.find? (fun e => !e.1.started) with
    | some (r, i) => if i = 0 ∨ bitAt r.q.cmd.flags 0 = false then some r else none
    | none => none

/-- A core reaches the barriers of its next command. -/
def reachSems (s : State) (k : Nat) : State :=
  match nextCmd s k with
  | some r => each (semsAt r.q true) s (fun t n => arriveSem t k r n)
  | none => s

/-- Start the commands of a core that nothing keeps back. -/
def startHead : Nat → State → Nat → State
  | 0, s, _ => s
  | n + 1, s, k =>
    match nextCmd s k with
    | some r => if semsReady s k r && creditsThere s r.q then startHead n (reachSems (beginCmd s k r) k) k else s
    | none => s

/-- The commands of a hub's queues reach their barriers and start as they can. -/
def pumpOnce (s : State) (h : Nat) : State :=
  let s := each (hubQueues s h) s reachSems
  each (hubQueues s h) s (startHead 16)

/-- Twice, since the last core to reach a barrier lets the others start. -/
def pump (s : State) (h : Nat) : State := pumpOnce (pumpOnce s h) h

/-- The commands that wait on hubs go on. -/
def pumpAll (s : State) (hs : List Nat) : State := each hs s pump

/-- The hubs of a task's cores. -/
def taskHubs (s : State) (task : List (Nat × Nat)) (card : Nat) : List Nat :=
  ((s.core.queues.filter (fun e => e.2.any (fun r => r.q.card.cardId == card && r.q.task == task))).map (fun e => e.1 / 66)).eraseDups

/-- End a task (R476); commands behind its own go on in queue order. -/
def endTask (s : State) (task : List (Nat × Nat)) (card code detail : Nat) : State :=
  pumpAll (stopTask s task card code detail) (taskHubs s task card)

/-- A fault of a command on a core: the status bit is latched, a hub error is reported, the task ends
ABORTED_TASK with detail 0x02. -/
def taskFault (s : State) (hub : Nat) (r : RunCmd) (f : Fld) (n : Nat) : State :=
  let s := wr s f n 1
  let s := hubError s hub (fieldRow f).off (2 ^ (fieldRow f).lo) r.q.slot (some r.q.ctx)
  endTask s r.q.task r.q.card.cardId 0x23 0x02

/-- GRANULE_FAULT of a command (R257, R261). -/
def granuleFault (s : State) (hub : Nat) (r : RunCmd) : State :=
  let s := wr (wr s .MEM_FAULT_INFO_SLOT hub r.q.slot) .MEM_FAULT_INFO_CTX hub r.q.ctx
  taskFault s hub r .MEM_STATUS_GRANULE_FAULT hub

/-- ADDR_FAULT of a stream stage (R255). -/
def addrFault (s : State) (hub : Nat) (r : RunCmd) : State :=
  let s := wr (wr s .MEM_FAULT_INFO_SLOT hub r.q.slot) .MEM_FAULT_INFO_CTX hub r.q.ctx
  taskFault s hub r .MEM_STATUS_ADDR_FAULT hub

end Sys2Proof.Machine
end

