-- ==== Sys2Proof/Machine/RegFile.lean ====
section
/-! DEFINITION. The register fields as a list, and what the events of Table 0-4 do to them (R5). -/

namespace Sys2Proof.Machine

def flds0 : List Fld :=
  [.HUB_ID_HUB, .HUB_ID_WING, .HUB_ID_MODULE_HUB_INDEX, .HUB_REMAP_CTRL_ACTIVE_BANK, .HUB_REMAP_CTRL_FLIP_REQ,
   .HUB_REMAP_CTRL_WRITE_DROPPED, .HUB_REMAP_CTRL_FLIP_REJECTED, .HUB_REMAP_CTRL_ACTIVE_GEN,
   .HUB_REMAP_B0_SLOT_PHYS_SLOT, .HUB_REMAP_B1_SLOT_PHYS_SLOT, .HUB_REMAP_B0_SLOT_VALID, .HUB_REMAP_B1_SLOT_VALID,
   .HUB_SLOT_STATE_STATE, .HUB_SLOT_STATE_FENCED, .TT_CONFIG_RESERVE_PCT, .TT_CONFIG_INTAKE_TICK,
   .TT_CONFIG_PLAN_LEAD, .TT_DEFAULT_INTERVAL, .TT_STEP_NUMBER, .TT_STEP_START, .TT_STEP_PLANNED_END,
   .TT_LATE_STEPS, .TT_REFUSED, .TT_RESERVE_PEAK, .WING_TT_CTRL_ACTIVE_BANK, .WING_TT_CTRL_FLIP_REQ,
   .WING_TT_CTRL_FLIP_REJECTED, .WING_TT_CTRL_HOT_REFRESH, .WING_TT_CTRL_ACTIVE_GEN, .WING_TT_LOAD_SRC_OFFSET,
   .WING_TT_REJECT_HUB, .WING_TT_REJECT_CHANNEL, .WING_TT_REJECT_REASON, .WING_TT_REFRESH_FORCED,
   .HUB_TT_CTRL_ACTIVE_BANK, .HUB_TT_CTRL_LOAD_BUSY, .HUB_TT_CTRL_LOAD_DONE, .HUB_TT_CTRL_LOAD_ERROR,
   .HUB_TT_CTRL_LOAD_REASON, .HUB_TT_CTRL_ACTIVE_GEN, .HUB_TT_LOAD_SRC_OFFSET, .HUB_TT_SLIP, .MAT_SEL_PHYS_SLOT,
   .MAT_CORE_STATUS_BUSY, .MAT_CORE_STATUS_REPLAYING, .MAT_CORE_STATUS_HELD, .MAT_CORE_STATUS_LIVE_CLAMP,
   .MAT_CORE_STATUS_RETAIN_WAIT]
def flds1 : List Fld :=
  [.MAT_CORE_STATUS_TILE_FAIL, .MAT_MISMATCH_CHECKSUM, .MAT_MISMATCH_RESIDUE, .MAT_REPLAY_CYCLES,
   .MAT_BUBBLE_FEED, .MAT_BUBBLE_DRAIN, .MAT_BUBBLE_LIMIT, .MAT_SPECIAL_TILES, .FW_BUBBLE_FEED,
   .MAT_RETAIN_WAIT_CYCLES, .MAT_HUB_MISMATCH, .MAT_INJECT_SLOT, .MAT_INJECT_TARGET, .MAT_INJECT_BIT,
   .VEC_SEL_PHYS_SLOT, .VEC_CORE_STATUS_BUSY, .VEC_CORE_STATUS_REPLAYING, .VEC_CORE_STATUS_HELD,
   .VEC_CORE_STATUS_CHUNK_FAIL, .VEC_CORE_STATUS_SCALAR_FAULT, .VEC_CORE_STATUS_TABLE_MISMATCH,
   .VEC_CORE_STATUS_INDEX_FAULT, .VEC_CORE_STATUS_LEN_CLAMP, .VEC_RESIDUE_VECTOR, .VEC_RESIDUE_SFU_RED,
   .VEC_REPLAY_CYCLES, .VEC_SUMMARY_STALL, .VEC_SUMQ_STATUS_COUNT, .VEC_COEF_CTRL_ACTIVE_BANK,
   .VEC_COEF_CTRL_FLIP_REQ, .VEC_COEF_CTRL_FLIP_REJECTED, .VEC_COEF_CTRL_LOAD_BUSY, .VEC_COEF_CTRL_LOAD_DONE,
   .VEC_COEF_CTRL_LOAD_ERROR, .VEC_COEF_CTRL_LOAD_REASON, .VEC_COEF_CTRL_ACTIVE_GEN, .VEC_COEF_LOAD_SRC_OFFSET,
   .VEC_COEF_TAG_ACTIVE_TAG, .VEC_COEF_TAG_INACTIVE_TAG, .VEC_COEF_CORRECTED, .VEC_HUB_RESIDUE, .VEC_SCALAR_VALUE,
   .VEC_SCALAR_CTX, .VEC_SCALAR_SHARED, .VEC_SCALAR_VALID, .LARDER_CTRL_PARK_RATE, .LARDER_CTRL_SQUEEZE_PCT,
   .LARDER_CTRL_HOST_PARK_EN]
def flds2 : List Fld :=
  [.LARDER_CTRL_PARK_MARGIN, .LARDER_ROOT_BASE, .LARDER_PARKS, .LARDER_UNPARKS, .LARDER_PARK_CRC_FAIL,
   .LARDER_LAYOUT_LAYERS, .LARDER_LAYOUT_LATENT_UNITS, .LARDER_LAYOUT_LATENT_FMT, .LARDER_LAYOUT_ROPE_UNITS,
   .LARDER_LAYOUT_ROPE_FMT, .LARDER_LAYOUT_SLAB_UNITS, .LARDER_LAYOUT_VALID, .LARDER_POOL_BASE,
   .LARDER_POOL_LIMIT, .LARDER_PARK_BASE, .LARDER_PARK_LIMIT, .LARDER_STATUS_BUSY, .LARDER_STATUS_CTX_FAULT,
   .LARDER_STATUS_MAP_FAULT, .LARDER_STATUS_FILL_FAULT, .LARDER_STATUS_RANGE_FAULT, .LARDER_STATUS_LAYOUT_FAULT,
   .LARDER_STATUS_POISON, .LARDER_FAULT_INFO_SLOT, .LARDER_FAULT_INFO_ROW, .LARDER_PAGES_READ,
   .LARDER_TOKENS_WRITTEN, .LARDER_PAD_SLOTS, .SERVE_CTRL_ENABLE, .SERVE_CTRL_FAULTED, .SERVE_CTRL_BACKLOG,
   .SERVE_BLOCK_ADDR, .SERVE_INTAKE_BASE, .SERVE_INTAKE_SIZE_LOG2, .SERVE_EVQ_BASE, .SERVE_EVQ_SIZE_LOG2,
   .SERVE_EVQ_SIZE_VECTOR, .SERVE_INTAKE_COUNT, .SERVE_EVQ_COUNT, .SERVE_OPEN_ITEMS, .SERVE_SPILLED,
   .SERVE_PARK_BASE, .SERVE_PARK_SIZE, .SERVE_TICKS, .SERVE_RECORDS_READ, .SERVE_ACCEPTED, .SERVE_INVALID,
   .SERVE_BACKLOG_TEARDOWNS]
def flds3 : List Fld :=
  [.SERVE_SESSIONS_OPEN, .SERVE_SESSION_LIMIT, .PANNIER_CTRL_ACTIVE_BANK, .PANNIER_CTRL_FLIP_REQ,
   .PANNIER_CTRL_FLIP_REJECTED, .PANNIER_CTRL_WRITE_DROPPED, .PANNIER_CTRL_COPY_BUSY, .PANNIER_CTRL_READY,
   .PANNIER_CTRL_ACTIVE_GEN, .PANNIER_LOADS, .PANNIER_AUTH_FAIL, .PANNIER_OWNER_FAULTS, .PANNIER_SLOTS_USED,
   .TRAIN_JOBS_OPEN, .TRAIN_OPT_STEPS, .TRAIN_SKIPPED, .PANNIER_QUOTA, .PANNIER_BANK0_BASE, .PANNIER_BANK1_BASE,
   .PANNIER_STORE_BASE, .PANNIER_STORE_LIMIT, .TRAIN_WS_BASE, .TRAIN_WS_LIMIT, .PANNIER_STATUS_FAULT,
   .PANNIER_STATUS_REASON, .PANNIER_FAULT_INFO_SLOT, .PANNIER_FAULT_INFO_CORE, .PANNIER_CACHE_MISS,
   .MEM_PANTRY_MODE_CACHE_MIB, .MEM_GRANULE_SEL, .MEM_GRANULE_INFO_OWNER, .MEM_GRANULE_INFO_WRITTEN,
   .MEM_STATUS_ADDR_FAULT, .MEM_STATUS_GRANULE_FAULT, .MEM_STATUS_LS_UNCORR, .MEM_STATUS_PANTRY_UNCORR,
   .MEM_FAULT_INFO_SLOT, .MEM_FAULT_INFO_CTX, .MEM_ECC_CORRECTED, .MEM_CACHE_HITS, .MEM_RED_REORDER_WAIT,
   .HBM_WEIGHT_OFF, .HBM_WEIGHT_ROWS, .HBM_WEIGHT_CHMASK, .HBM_WEIGHT_SPARE, .HBM_REFETCH_PEER, .HBM_POISON_COUNT,
   .HBM_REBUILDS]
def flds4 : List Fld :=
  [.HBM_REFETCHES, .HBM_REBUILD_MAX_NS, .HBM_CH_STATE_STATE, .HBM_CH_RETRIES, .HBM_CH_CORRECTED, .HBM_CH_UNCORR,
   .HBM_REPAIR_CTRL_KIND, .HBM_REPAIR_ADDR, .HBM_REPAIR_STATUS_BUSY, .HBM_REPAIR_STATUS_DONE,
   .HBM_REPAIR_STATUS_FAIL, .HBM_REPAIR_STATUS_SPARES_LEFT, .INTEG_SEL_PHYS_SLOT, .INTEG_CORE_INFO_SKIP,
   .INTEG_CORE_INFO_READMITS, .INTEG_CORE_INFO_CLEARED, .INTEG_CORE_INFO_RETIRE_PENDING,
   .INTEG_CORE_INFO_UNDER_TEST, .INTEG_CORE_INFO_PASS_RUN, .INTEG_CMD_STATUS_DONE, .INTEG_CMD_STATUS_REJECTED,
   .INTEG_CMD_STATUS_REASON, .INTEG_HUB_STATE, .INTEG_HUB_OUT, .INTEG_HUB_FT_STARVED, .INTEG_HUB_SUSPECTS,
   .INTEG_HUB_SERVING, .INTEG_TEST_PASS, .INTEG_TEST_FAIL, .INTEG_RESCUES, .INTEG_HANGS, .INTEG_HEARTBEAT,
   .INTEG_CONFIG_SUSPECT_WINDOW, .INTEG_FT_FT_PERIOD, .INTEG_FT_ROTATE_EN, .INTEG_FT_ROTATE_MIN,
   .INTEG_LEAD_LEAD_WING, .INTEG_LEAD_SHADOW_WING, .INTEG_LEAD_TAKEOVERS, .INTEG_LEAD_DIVERGES,
   .INTEG_DERATE_SERVING, .INTEG_DERATE_RATIO, .CELLAR_NEXT_SEQ, .CELLAR_DROPPED, .CELLAR_STATUS_READY,
   .CELLAR_STATUS_COPY_FAULT, .INTEG_MODULE_EVENTS, .PWR_CAP_CAP_W]
def flds5 : List Fld :=
  [.PWR_CAP_CAP_PENDING, .PWR_CONFIG_THROTTLE_GEAR, .PWR_CONFIG_GEAR_CEILING, .PWR_CONFIG_ALERT_HOLD,
   .PWR_CONFIG_DISAGREE_PCT, .PWR_CONFIG_DISAGREE_WINDOWS, .PWR_CONFIG_FALLBACK_DROP, .PWR_INPUT_VOLTS,
   .PWR_INPUT_AMPS, .PWR_INPUT_W, .PWR_STATUS_ALERT_ACTIVE, .PWR_STATUS_THROTTLE_ACTIVE, .PWR_STATUS_ALERT_SEEN,
   .PWR_STATUS_THROTTLE_SEEN, .PWR_STATUS_INLET_HIGH, .PWR_ALERT_MAP, .PWR_ALERT_COUNT, .PWR_INLET,
   .ENERGY_MODULE, .ENERGY_ATTRIB, .PWR_METER_CTX_CTX, .PWR_METER_CTX_EN, .PWR_METER_ENERGY, .DRL_GEAR_PLANNED,
   .DRL_GEAR_CURRENT, .DRL_GEAR_CEILING, .DRL_GEAR_FORCED, .DRL_GEAR_THROTTLED, .DRL_GEAR_DEFERRED,
   .DRL_GEAR_CEILING_PENDING, .DRL_RAIL_CAP_AMPS, .DRL_EST_STATE, .DRL_EST_MISSES, .DRL_K, .DRL_DISAGREE,
   .DRL_VCORE_MILLIVOLTS, .DRL_VCORE_AMPS, .DRL_LIMIT_NS, .DRL_DEFERRED_COUNT, .DRL_TEMP, .DRL_STACK_TEMP,
   .HUB_PWR_TRIM_STEPS, .HUB_PWR_TEMP, .SPOKE_FAB_CFG_SIZE_X, .SPOKE_FAB_CFG_SIZE_Y, .SPOKE_FAB_CFG_WRAP,
   .SPOKE_FAB_CFG_SIZE_Z, .SPOKE_FAB_CFG_GM_PRIORITY]
def flds6 : List Fld :=
  [.SPOKE_FAB_CFG_FLIP_PERIOD, .SPOKE_FAB_ADDR_ADDR, .SPOKE_FAB_ADDR_ASSIGNED, .SPOKE_FAB_ADDR_EPOCH,
   .SPOKE_FAB_STATUS_STATE, .SPOKE_FAB_STATUS_SETTLED, .SPOKE_FAB_STATUS_CAD_STATE,
   .SPOKE_FAB_STATUS_HOPS_EXCEEDED, .SPOKE_FAB_STATUS_CMD_REJECTED, .SPOKE_CAD_OFFSET, .SPOKE_CAD_UPSTREAM_LINK,
   .SPOKE_CAD_UPSTREAM_HOPS, .SPOKE_CAD_UPSTREAM_GM, .SPOKE_DROP_STALE_SRC, .SPOKE_DROP_STALE_DST,
   .SPOKE_DROP_ROUTE, .SPOKE_DROP_OWNER, .SPOKE_TT_FLIP_AT, .SPOKE_TT_CTRL_ACTIVE_BANK, .SPOKE_TT_CTRL_FLIP_REQ,
   .SPOKE_TT_CTRL_FLIP_REJECTED, .SPOKE_TT_CTRL_LOAD_ERROR, .SPOKE_TT_CTRL_LOADED, .SPOKE_TT_CTRL_ACTIVE_GEN,
   .SPOKE_TT_LOAD_SRC, .SPOKE_TT_LOAD_TABLE, .SPOKE_CREDIT_POOL, .SPOKE_LINK_STATE_STATE, .SPOKE_LINK_STATE_LANES,
   .SPOKE_LINK_STATE_LANE_MASK, .SPOKE_LINK_STATE_PEER, .SPOKE_LINK_DELAY, .SPOKE_FEC_CORRECTED,
   .SPOKE_FEC_UNCORR, .SPOKE_RETX, .SPOKE_RETRAINS, .SPOKE_LANE_SER, .EPOCH_ENTRY_EPOCH, .EPOCH_ENTRY_STATE,
   .CTX_CMD_STATUS_BUSY, .CTX_CMD_STATUS_DONE, .CTX_CMD_STATUS_CMD_REJECTED, .CTX_CMD_STATUS_REASON,
   .CTX_WINDOW_OPEN, .CTX_WINDOW_CTX, .CTX_WINDOWS, .CTX_SWITCH_NS_MAX, .CTX_PREEMPT_WAIT_MAX]
def flds7 : List Fld :=
  [.CTX_CONFIG_WINDOW_MAX, .CTX_CONFIG_SWITCH_SLOTS, .CTX_TEARDOWNS, .CTX_STATE_STATE, .CTX_STATE_CLASS,
   .CTX_STATE_IDE_READY, .CTX_STATE_SLOT, .CTX_STATE_KEYS, .CTX_STATE_PENDING, .HUB_SEM_HELD, .HUB_SEM_CTX,
   .HUB_SEM_CORES, .HUB_SEM_ARRIVED, .HUB_SEM_STATUS_SEM_FAULT, .HUB_SEM_STATUS_SEM, .HUB_SWITCH_BASE,
   .CTXWIN_INFO_CTX, .CTXWIN_INFO_CLASS, .CTXWIN_INFO_STATE, .CTXWIN_INFO_IDE_READY, .CTXWIN_CADENCE,
   .MBX_CTRL_IN_FULL, .MBX_CTRL_OUT_BUSY, .MBX_CTRL_OVERRUN, .PCIE_LINK_WIDTH, .PCIE_LINK_RATE, .PCIE_LINK_FLIT,
   .PCIE_LINK_UP, .PCIE_LINK_DEGRADED, .PCIE_ERR_CORR, .PCIE_ERR_UNCORR, .PCIE_CPL_TIMEOUT, .PCIE_LINK_DOWNS,
   .PCIE_IDE_FAIL, .EVC_STATUS_CELLAR, .EVC_STATUS_CTX, .EVC_STATUS_LINK, .EVC_STATUS_POWER, .EVC_MBX_PENDING,
   .EVC_ROUTE_MODULE, .EVC_ROUTE_MBX, .EVC_REARM_POLL, .EVC_FILTER_THROTTLE, .EVC_INPUTS_THROTTLE,
   .EVC_INPUTS_PERST, .EVC_INPUTS_SLOT_ID, .EVC_GLITCHES, .EVC_MOD]
def flds8 : List Fld :=
  [.MGMT_I3C_DYN_ADDR, .MGMT_I3C_ADDR_VALID, .MGMT_I3C_EID, .MGMT_I3C_RECEIVER_SET, .MGMT_EVENTS_PENDING,
   .MGMT_UPDATE_STATE, .MGMT_UPDATE_IMAGE, .BOOT_STATUS_PHASE, .BOOT_STATUS_IMAGE, .BOOT_STATUS_FALLBACK,
   .BOOT_STATUS_ROOT_KEY, .BOOT_STATUS_RECOVERY, .BOOT_STATUS_FAIL_CHECK, .BOOT_COUNT, .BOOT_MS,
   .RESET_STATUS_LAST_KIND, .RESET_STATUS_BUSY, .RESET_STATUS_REJECTED, .LP_CONFIG_CEILING, .LP_CONFIG_MARGIN,
   .LP_CONFIG_IDLE_MIN, .LP_CTRL_HOLD, .LP_STATUS_STATE, .LP_STATUS_TARGET, .LP_STATUS_KICKSTAND_READY,
   .LP_STATUS_BLOCKER, .LP_NEXT_EVENT, .LP_WAKE_AT, .LP_WAKE_REQ, .LP_ENTRIES, .LP_RESIDENCY, .DBG_CTRL_DEBUG_EN,
   .DBG_CTRL_PLANNER_HALT_EN, .DBG_CTRL_FREEZE_ON, .DBG_STATUS_TEST_MODE, .DBG_STATUS_FROZEN, .DBG_STATUS_HALTED,
   .DBG_DUMP_BASE, .DBG_FREEZE_AT, .DBG_SNAP_TIME, .DBG_BUSY_CYCLES, .DBG_MAC_ROWS, .DBG_HBM_BYTES,
   .DBG_HALL_FLITS, .DBG_STEPS, .DBG_IDLE_NS, .DBG_ERR_ARITH, .DBG_ERR_ECC_CORR]
def flds9 : List Fld :=
  [.DBG_ERR_ECC_UNCORR, .DBG_ERR_LINK, .DBG_SHADOW, .DBG_PROF_CTRL_EN, .DBG_PROF_CTRL_WRAP,
   .DBG_PROF_CTRL_CTX_ANY, .DBG_PROF_CTRL_CTX, .DBG_PROF_CARD, .DBG_PROF_PTR_HEAD, .DBG_PROF_PTR_TAIL,
   .DBG_PROF_LOST, .DBG_TRAIL_SEL_PHYS_SLOT, .DBG_TRAIL_SEL_HUB, .DBG_TRAIL_STATUS_FROZEN,
   .DBG_TRAIL_STATUS_TRIGGER, .DBG_TRAIL_STATUS_DUMPED, .DBG_TRAIL_STATUS_NEXT, .DBG_HALT_HALTED,
   .DBG_HALT_DRAINED, .DBG_HALT_SUMQ_DISCARDED, .DBG_HALT_NS, .DBG_DMI_ADDR_ADDR, .DBG_DMI_ADDR_BUSY,
   .DBG_DMI_ADDR_ERROR, .DBG_DMI_DATA, .DBG_HUB_STATUS_STATE, .DBG_HUB_STATUS_RESULT, .DBG_HUB_STATUS_REASON,
   .DBG_BIST_SIG_SEL, .DBG_BIST_SIG, .DBG_MBIST_FIRST_MEMORY, .DBG_MBIST_FIRST_COUNT, .DBG_MBIST_WORD]

/-- Every field, in the order of its constructors. -/
def allFlds : List Fld := flds0 ++ flds1 ++ flds2 ++ flds3 ++ flds4 ++ flds5 ++ flds6 ++ flds7 ++ flds8 ++ flds9

/-- The field of a constructor number. -/
def fldOf (i : Nat) : Option Fld := allFlds[i]?

/-- The order of Kept-through classes (Table 0-4). -/
def keptRank : Kept → Nat
  | .none => 0 | .ctx => 1 | .hub => 2 | .warm => 3 | .stow => 4 | .kickstand => 5 | .all => 6

/-- The register block that instance n of a field lies in. -/
def blockIdx (f : Fld) (n : Nat) : Nat := n / (fieldRow f).count

/-- An event of a rank returns the fields of lower classes that satisfy p to their reset values (R5). -/
def resetRegs (s : State) (rank : Nat) (p : Fld → Nat → Bool) : State :=
  { s with regs := s.regs.filter fun e =>
      match fldOf (e.1 % 1024) with
      | some f => !(decide (keptRank (fieldRow f).kept < rank) && p f (e.1 / 1024))
      | none => true }

end Sys2Proof.Machine
end

