-- ==== Sys2Proof/Machine/Control.lean ====
section
/-! DEFINITION. Operations several families share: starting a low-power exit (R440), changing a context's
state, stopping a context's commands (R116, R153), its semaphores and credits, and starting a teardown
(R378). -/

namespace Sys2Proof.Machine

/-- Start an exit for a reason of Table 15-13: from DOZE, STOW or KICKSTAND at once, during an entry after
it completes (R440, R442). The time spent in the state is added to its residency; wings that were off start
again through the phases of Table 15-6; from KICKSTAND the Porch asserts WAKE_N (R413). In COAST, while steps run and
during an exit there is nothing to start. -/
def startExit (s : State) (reason : Nat) : State :=
  let st := rd s .LP_STATUS_STATE
  if st = 5 then updBoot s fun b => { b with wakePending := true, lpReason := reason }
  else if st = 2 ∨ st = 3 ∨ st = 4 then
    let s := inc s .LP_RESIDENCY (st - 2) ((s.now - s.boot.lpSince) / 1000)
    let s := updBoot s fun b => { b with lpFrom := st, lpReason := reason, lpSince := s.now, wakeN := b.wakeN || st == 4 }
    let s := if st = 4 then emit s (.wakeN true) else s
    let s := if 3 ≤ st then wr s .BOOT_STATUS_PHASE 0 3 else s
    wr (wr s .LP_STATUS_STATE 0 6) .LP_STATUS_KICKSTAND_READY 0 0
  else s

/-- The state of a context changes: both views of it, and the MODULE interrupt (Table 14-5). -/
def setCtxState (s : State) (c v : Nat) : State :=
  raiseModule (wr (wr s .CTX_STATE_STATE c v) .CTXWIN_INFO_STATE c v) .EVC_STATUS_CTX

/-- Free the hub semaphores that a context's cards hold (R378). -/
def freeSems (s : State) (c : Nat) : State :=
  each (List.range 2560) s fun t n =>
    if rdb t .HUB_SEM_HELD n && rd t .HUB_SEM_CTX n == c then
      updCore (wr (wr (wr (wr t .HUB_SEM_HELD n 0) .HUB_SEM_CTX n 0) .HUB_SEM_CORES n 0) .HUB_SEM_ARRIVED n 0)
        fun k => { k with semCards := storeErase k.semCards n }
    else t

/-- A context's credit pools become 0, its receive buffers are freed and its credits returned (R378). -/
def dropCredits (s : State) (c : Nat) : State :=
  let s := each (List.range 6) s fun t l =>
    let x := linkOf t l
    let n := (x.buffers.filter (· == c)).length
    let t := setLink t l { x with buffers := x.buffers.filter (· != c) }
    wr (returnCredits t l c n) .SPOKE_CREDIT_POOL (poolIdx c l) 0
  updFab s fun f => { f with held := f.held.filter (fun e => e.1 != c), waiting := f.waiting.filter (fun e => e.2.ctx != c) }

/-! Summaries (R143) -/

/-- A hub's summary queue, whose length VEC_SUMQ_STATUS shows. -/
def setSumq (s : State) (h : Nat) (l : List SummaryRec) : State :=
  updCore (wr s .VEC_SUMQ_STATUS_COUNT h l.length) fun c => { c with sumq := storePut [] c.sumq h l }

/-- One turn of the summary bus: each core of the hub with records in its buffer posts one, in the order of the logical slots,
while the queue of 512 has room; with the control core halted, a record that finds the queue full is discarded (R455). -/
def sumTurn (s : State) (h : Nat) : State :=
  let ready := s.core.sumWait.filter (fun e => e.1 / 66 == h)
  let order := sortBy (fun a b => decide (((a.2.head?.map (·.slot)).getD 0) ≤ ((b.2.head?.map (·.slot)).getD 0))) ready
  each order s fun t e =>
    match e.2 with
    | [] => t
    | x :: rest =>
      let l := storeGet [] t.core.sumq h
      let gone := updCore t fun c => { c with sumWait := storePut [] c.sumWait e.1 rest }
      if l.length < 512 then setSumq gone h (l ++ [x])
      else if rdb t .DBG_HALT_HALTED h then inc gone .DBG_HALT_SUMQ_DISCARDED h
      else t

/-- The turns of the bus until every buffer is empty or the queue is full. -/
def drainSums (s : State) (h : Nat) : State :=
  let n := ((s.core.sumWait.filter (fun e => e.1 / 66 == h)).map (fun e => e.2.length)).foldl max 0
  (List.range n).foldl (fun t _ => sumTurn t h) s

/-- Cores on which a command of the context runs. -/
def runningCores (s : State) (c : Nat) : List Nat :=
  storeKeys (fun q => q.any (fun r => r.started && r.q.ctx == c)) s.core.queues

/-- A command record is written for commands that the hub's filter selects (R450); those of a confidential-class
context count nowhere (R451). -/
def profile (s : State) (k : Nat) (r : RunCmd) (stopped : Bool) : State :=
  let h := k / 66
  let sel := rdb s .DBG_PROF_CTRL_EN h && (rdb s .DBG_PROF_CTRL_CTX_ANY h || rd s .DBG_PROF_CTRL_CTX h == r.q.ctx)
    && (rd s .DBG_PROF_CARD h == 0 || rd s .DBG_PROF_CARD h == r.q.card.cardId)
  if !sel || confidential s r.q.ctx then s
  else
    let n := storeGet 0 s.dbg.profCount h
    let head := rd s .DBG_PROF_PTR_HEAD h
    let full := (head + 1) % 512 == rd s .DBG_PROF_PTR_TAIL h
    let s := if full then inc s .DBG_PROF_LOST h else s
    if full && !rdb s .DBG_PROF_CTRL_WRAP h then s
    else
      let g := fun (i : Nat) => r.stats.getD i 0
      let rec_ : ProfRec :=
        ⟨b2n r.replayed + 2 * b2n r.wasHeld + 4 * b2n stopped, r.q.ctx, k % 66, r.q.slot, r.q.card.cardId, r.q.index,
         rd s .DRL_GEAR_CURRENT (h / 40), rd s .INTEG_CORE_INFO_SKIP k, r.start, s.now, g 0, g 1, g 2, g 3, g 4, g 5, g 6, n⟩
      let s := updDbg s fun d => { d with
        prof := storeInsert d.prof (h * 512 + head) rec_
        profCount := storePut 0 d.profCount h ((n + 1) % 2 ^ 32) }
      let s := wr s .DBG_PROF_PTR_HEAD h ((head + 1) % 512)
      if full then wr s .DBG_PROF_PTR_TAIL h ((head + 2) % 512) else s

/-- A core stops the commands of a context (R116, R153): their trail and command records are written, they leave the queue, the
engines that they used are emptied without drain, and the commands of other contexts go on. -/
def stopOnCore (c : Nat) (s : State) (k : Nat) : State :=
  let mine := (queueAt s k).filter (fun r => r.started && r.q.ctx == c)
  let s := each mine s fun t r => profile (trail t k 0x09 c r.q.index 1) k r true
  let hold := match storeFind s.core.held k with
    | some h => mine.any (fun r => r.num == h.num)
    | none => false
  let s := setQueueAt s k ((queueAt s k).filter (fun r => r.q.ctx != c))
  let s := updCore s fun x => { x with
    vregs := storeErase x.vregs k
    reds := storeKeep (fun i => i / 65536 != k) x.reds
    held := if hold then storeErase x.held k else x.held
    waiting := x.waiting.filter (fun w => !(w.core == k && mine.any (fun r => r.num == w.num))) }
  let s := if hold then wr (wr s .MAT_CORE_STATUS_HELD k 0) .VEC_CORE_STATUS_HELD k 0 else s
  showBusy s k

/-- The context's commands stop and its queued commands are discarded, with its chains, banks, replay buffers, registers, row
states and held engines, its summaries in buffers and queues, and the scalar registers whose CTX names it (R116, R132, R153). -/
def stopCommands (s : State) (c : Nat) : State :=
  let ks := runningCores s c
  let hubs := ((s.core.queues.filter (fun e => e.2.any (fun r => r.q.ctx == c))).map (fun e => e.1 / 66)).eraseDups
  let s := each ks s (stopOnCore c)
  let s := updCore s fun x => { x with
    queues := (x.queues.map (fun e => (e.1, e.2.filter (fun r => r.q.ctx != c)))).filter (fun e => !e.2.isEmpty)
    arrays := x.arrays.filter (fun e => e.2.ctx != c)
    wheels := x.wheels.filter (fun e => e.2.ctx != c)
    sumWait := (x.sumWait.map (fun e => (e.1, e.2.filter (fun r => r.ctx != c)))).filter (fun e => !e.2.isEmpty) }
  let s := each s.core.sumq s fun t e => setSumq t e.1 (e.2.filter (fun r => r.ctx != c))
  let s := each (s.core.sumWait.map (fun e => e.1 / 66)).eraseDups s drainSums
  let named := (s.regs.filter (fun e => e.1 % 1024 == Fld.VEC_SCALAR_CTX.ctorIdx && e.2 == c)).map (·.1 / 1024)
  let s := each named s fun t n =>
    wr (wr (wr (wr t .VEC_SCALAR_VALID n 0) .VEC_SCALAR_CTX n 0) .VEC_SCALAR_SHARED n 0) .VEC_SCALAR_VALUE n 0
  pumpAll s hubs

/-- Steps of a context's planned windows go; of an open window only its switch out stays (R379). -/
def dropWindows (s : State) (c : Nat) : State :=
  let open_ := windowCtx s == some c
  let rec go : Bool → List PStep → List PStep
    | _, [] => []
    | inside, p :: r =>
      if p.window ≠ some c then p :: go inside r
      else if inside ∧ p.switchOut = true then p :: go false r
      else go inside r
  let k := frozenCount s
  let inside := (s.tt.plan.take k).foldl (fun b p => if p.window = some c then !p.switchOut else b) open_
  updTt s fun t => { t with plan := t.plan.take k ++ go inside (t.plan.drop k) }

/-- Start the teardown of a context (R378, the first three rows of Table 13-2): STATE becomes TEARING,
ENABLE is cleared, its commands stop, its semaphores and credits go, its locked segments abort; a
suspend in progress is overtaken (R379). The heartbeats, of class NONE, start again from 0 (R5, Table 15-10). Context 0 is never
torn down (R369). -/
def startTeardown (s : State) (c cause : Nat) : State :=
  let st := rd s .CTX_STATE_STATE c
  if c = 0 ∨ st = 0 ∨ st = 3 then s
  else
    let tasks := fun (g : Segment) => g.task.any (fun k => k.1 == c)
    let s := wr (setCtxState s c 3) .SERVE_CTRL_ENABLE c 0
    let s := if s.ctxs.suspending.any (fun e => e.1 == c) then wr s .CTX_CMD_STATUS_BUSY 0 0 else s
    let s := updCtxs s fun x => { x with suspending := x.suspending.filter (fun e => e.1 != c), tearing := x.tearing ++ [(c, s.now)] }
    let s := abortSegments (dropCredits (freeSems (stopCommands (dropWindows s c) c) c) c) tasks
    reportTeardown (inc (resetRegs s (keptRank .ctx) (fun f _ => f == .INTEG_HEARTBEAT)) .CTX_TEARDOWNS) c cause

end Sys2Proof.Machine
end

