-- ==== Sys2Proof/Machine/Records.lean ====
section
/-! DEFINITION. The bytes of what the host keeps for the module: request records (Tables 7-5, 7-6, 8-5 and 13-6), the header of a
model bundle (Table 7-16) and its TARGET_SETS and COLUMN_MAP sections (R478). Multi-byte fields are little-endian (R2). -/

namespace Sys2Proof.Machine

/-- Whether every byte of a record outside some ranges (offset, bytes) is zero. -/
def restZero (b : List Nat) (used : List (Nat × Nat)) : Bool :=
  (List.range 128).all (fun i => b.getD i 0 % 256 == 0 || used.any (fun u => decide (u.1 ≤ i ∧ i < u.1 + u.2)))

/-- The bytes that every record shares: OPCODE, HANDLE and USER_TAG (R194). -/
def commonBytes : List (Nat × Nat) := [(0, 1), (4, 4), (8, 8)]

/-- The common bytes of a record read from the ring of a context at an intake count. -/
def headOf (ctx idx : Nat) (b : List Nat) : ReqHead := ⟨ctx, idx, fieldAt b 4 4, fieldAt b 8 8⟩

/-- A GENERATE record (Table 7-5). An unused stop token names none. -/
def generateOf (b : List Nat) : GenerateRec :=
  let f := fieldAt b
  ⟨f 1 1, f 2 1, f 3 1, f 0x10 8, f 0x18 4, f 0x1C 4, f 0x20 4, f 0x24 4, f 0x28 2, f 0x2A 2, f 0x2C 2, f 0x2E 2, f 0x30 4, f 0x34 4,
    f 0x38 8, ((List.range 4).map (fun i => f (0x40 + 4 * i) 4)).filter (· != 0xFFFFFFFF), f 0x50 4,
    restZero b (commonBytes ++ [(1, 3), (0x10, 0x44)])⟩

/-- A record of the adapter opcodes with a transfer (Table 8-5). -/
def adapterLoadOf (b : List Nat) : AdapterLoadRec :=
  let f := fieldAt b
  ⟨f 2 2, f 0x10 8, f 0x18 8, f 0x20 1, f 0x28 2, restZero b (commonBytes ++ [(2, 2), (0x10, 17), (0x28, 2)])⟩

/-- A TRAIN_OPEN record (Table 8-5). -/
def trainOpenOf (b : List Nat) : TrainOpenRec :=
  let f := fieldAt b
  ⟨f 1 1, f 2 2, f 0x10 8, f 0x18 8, f 0x20 1, f 0x22 2, f 0x24 2, f 0x26 1, f 0x28 2, f 0x30 4, f 0x34 4, f 0x38 4, f 0x3C 4, f 0x40 4,
    f 0x44 4, f 0x48 4, f 0x4C 4, f 0x50 8, f 0x58 4,
    restZero b (commonBytes ++ [(1, 3), (0x10, 17), (0x22, 5), (0x28, 2), (0x30, 44)])⟩

/-- A TRAIN_STEP record (Table 8-5); the data at DATA_ADDR comes by its own reads. -/
def trainStepOf (b : List Nat) : TrainStepRec :=
  let f := fieldAt b
  ⟨f 2 2, f 0x10 8, f 0x18 2, f 0x1C 4, f 0x20 8, f 0x28 2, restZero b (commonBytes ++ [(2, 2), (0x10, 10), (0x1C, 14)]), none⟩

/-- A TRAIN_CHECKPOINT record (Table 8-5). -/
def trainCkptOf (b : List Nat) : TrainCkptRec :=
  let f := fieldAt b
  ⟨f 2 2, f 0x10 8, f 0x18 8, f 0x20 1, f 0x30 8, restZero b (commonBytes ++ [(2, 2), (0x10, 17), (0x30, 8)])⟩

/-- A security record (Table 13-6) whose own fields lie in the given ranges. -/
def secOf (b : List Nat) (used : List (Nat × Nat)) : SecRec :=
  let f := fieldAt b
  ⟨f 1 1, f 0x10 8, f 0x18 8, f 0x20 32, f 0x40 1, restZero b (commonBytes ++ used)⟩

/-- The command of a record by its OPCODE (Tables 7-4, 8-5, 13-6); none for a reserved OPCODE. What further reads of host memory
bring (a bundle's header, a step's data, a ciphertext) is not in the record. -/
def recordCommand (ctx idx : Nat) (b : List Nat) : Option Instr :=
  let h := headOf ctx idx b
  let f := fieldAt b
  let only := fun (l : List (Nat × Nat)) => restZero b (commonBytes ++ l)
  match f 0 1 with
  | 0x01 => some (.generate h (generateOf b))
  | 0x02 => some (.cancel h (only []))
  | 0x03 => some (.close h (only []))
  | 0x04 => some (.hint h (f 2 1) (f 0x50 4) (only [(2, 1), (0x50, 4)]))
  | 0x05 => some (.loadBundle h ⟨f 0x10 8, f 0x18 8, f 0x28 2, only [(0x10, 16), (0x28, 2)]⟩ none)
  | 0x06 => some (.unloadBundle h (f 0x28 2) (only [(0x28, 2)]))
  | 0x10 => some (.adapterLoad h (adapterLoadOf b))
  | 0x11 => some (.adapterRelease h (f 2 2) (only [(2, 2)]))
  | 0x12 => some (.trainOpen h (trainOpenOf b))
  | 0x13 => some (.trainStep h (trainStepOf b))
  | 0x14 => some (.trainCheckpoint h (trainCkptOf b))
  | 0x15 => some (.trainClose h (f 2 2) (f 1 1) (f 0x20 1) (only [(1, 3), (0x20, 1)]))
  | 0x20 => some (.attest h (secOf b [(1, 1), (0x10, 48)]))
  | 0x21 => some (.keyBegin h (secOf b [(0x10, 49)]))
  | 0x22 => some (.keyFinish h (secOf b [(0x10, 16), (0x40, 1)]) none)
  | 0x23 => some (.keyErase h (f 0x40 1) (only [(0x40, 1)]))
  | _ => none

/-! Bundles -/

/-- The header of a model bundle from its 4 KiB (Table 7-16). LAYOUT has the bits of LARDER_LAYOUT with SLAB_UNITS, VALID and the
reserved ones zero. -/
def bundleHeaderOf (b : List Nat) : BundleHeader :=
  let f := fieldAt b
  let n := f 6 2
  let e := fun (i o w : Nat) => f (0x40 + 64 * i + o) w
  let v := f 0x18 8
  ⟨b.length == 4096 && f 0 4 == 0x444E424B && f 4 2 == 1
      && (List.range (min n 16)).all (fun i => e i 2 6 == 0 && e i 24 8 == 0) && f (0x40 + 64 * min n 16) (1024 - 64 * min n 16) == 0
      && f 0x440 3008 == 0
      && [(15, 9), (23, 22), (31, 28), (39, 37), (63, 44)].all (fun r => bitsOf v r.1 r.2 == 0),
    f 8 8, f 0x10 4, f 0x14 4, v, (List.range 4).map (fun w => f (0x20 + 8 * w) 8),
    (List.range (min n 17)).map (fun i => (e i 0 2, e i 8 8, e i 16 8)), (List.range (min n 17)).map (fun i => (b.drop (0x40 + 64 * i + 32)).take 32)⟩

/-- The sets of a TARGET_SETS section, one after another, or none where their bytes break R478. -/
def setsOf : Nat → List Nat → Option (List (Nat × List Target478))
  | 0, b => if b.isEmpty then some [] else none
  | n + 1, b =>
    let f := fieldAt b
    let len := f 2 2
    let es := (List.range len).map (fun i => (b.drop (8 + 16 * i)).take 16)
    let ok := decide (8 + 16 * len ≤ b.length) && decide (1 ≤ f 0 1 ∧ f 0 1 ≤ 15) && f 1 1 == 0 && f 4 4 == 0 && decide (1 ≤ len ∧ len ≤ 4096)
      && es.all (fun e => decide (fieldAt e 2 1 ≤ 1) && fieldAt e 3 1 == 0 && fieldAt e 12 4 == 0)
    if ok then
      (setsOf n (b.drop (8 + 16 * len))).map (fun r =>
        (f 0 1, es.map (fun e => ⟨fieldAt e 0 2, fieldAt e 2 1, fieldAt e 4 4, fieldAt e 8 4⟩)) :: r)
    else none

/-- A TARGET_SETS section (R478): its sets, each number at most once; none where it is malformed. -/
def targetSetsOf (b : List Nat) : Option (List (Nat × List Target478)) :=
  if 8 ≤ b.length ∧ fieldAt b 0 2 ≤ 15 ∧ fieldAt b 2 6 = 0 then
    (setsOf (fieldAt b 0 2) (b.drop 8)).bind (fun l => if (l.map (·.1)).Nodup then some l else none)
  else none

/-- A COLUMN_MAP section (R478): four entries for each target of each set; none where it has another length. -/
def columnMapOf (sets : List (Nat × List Target478)) (b : List Nat) : Option (List (List Nat)) :=
  let n := 4 * (sets.map (fun e => e.2.length)).sum
  if b.length = 16 * n then
    some ((List.range n).map (fun i => (List.range 4).map (fun k => fieldAt b (16 * i + 4 * k) 4)))
  else none

end Sys2Proof.Machine
end

