-- ==== Sys2Proof/Machine/Weights.lean ====
section
/-! DEFINITION. Erasure-coded weights (R273, R274): the geometry of stripes, storing a wing's weight image with its
parity, and forming a block from the sixteen others of its stripe (R275). -/

namespace Sys2Proof.Machine

/-- The ascending list of channels of a mask. -/
def maskChans (mask : Nat) : List Nat := (List.range 96).filter (bitAt mask)

/-- The channels of a wing's stripe rotation as a load captures them: those of HBM_WEIGHT_CHMASK that are in service (R274). -/
def captureMask (s : State) (w : Nat) : Nat :=
  (((maskChans (rd s .HBM_WEIGHT_CHMASK w)).filter (fun c => rd s .HBM_CH_STATE_STATE (w * 96 + c) != 2)).map (2 ^ ·)).sum

/-- The channels that a model's weights on a wing lie in, as captured at its load. -/
def modelChans (m : Model) (w : Nat) : List Nat := maskChans (m.weightMask.getD w 0)

/-- Device address of the block at position p of a wing's weight area, over the channels l. -/
def blockAt (s : State) (w : Nat) (l : List Nat) (p : Nat) : Nat :=
  w * 0x3000000000 + l.getD (p % l.length) 0 * 0x80000000 + (rd s .HBM_WEIGHT_OFF w + p / l.length) * 4096

/-- Device address of block j of stripe k: 0 to 15 data, 16 parity. -/
def stripeBlock (s : State) (w : Nat) (l : List Nat) (k j : Nat) : Nat := blockAt s w l (17 * k + j)

/-- The position of a 4 KiB block of the weight area over the channels l; none outside it. -/
def posIn (s : State) (l : List Nat) (a : Nat) : Option Nat :=
  let w := a / 0x3000000000
  let row := a % 0x80000000 / 4096
  match l.findIdx? (fun c => c == a % 0x3000000000 / 0x80000000) with
  | some i =>
    if rd s .HBM_WEIGHT_OFF w ≤ row ∧ row < rd s .HBM_WEIGHT_OFF w + rd s .HBM_WEIGHT_ROWS w then
      some ((row - rd s .HBM_WEIGHT_OFF w) * l.length + i)
    else none
  | none => none

/-- The model that holds a block of the weight area. -/
def blockModel (s : State) (a : Nat) : Option (Nat × Model) :=
  s.serve.models.find? fun e =>
    let w := a / 0x3000000000
    let r := e.2.weightRows.getD w (0, 0)
    match posIn s (modelChans e.2 w) a with
    | some p => decide (r.1 ≤ p / 17) && decide (p / 17 < r.1 + r.2)
    | none => false

/-- The channels over which a block of the weight area is laid out: those of the model that holds it, else the register's. -/
def layoutAt (s : State) (a : Nat) : List Nat :=
  match blockModel s a with
  | some e => modelChans e.2 (a / 0x3000000000)
  | none => maskChans (rd s .HBM_WEIGHT_CHMASK (a / 0x3000000000))

/-- The position of a 4 KiB block of the weight area in its layout; none outside the area. -/
def blockPos (s : State) (a : Nat) : Option Nat := posIn s (layoutAt s a) a

/-- Whether two addresses lie in one stripe. -/
def sameStripe (s : State) (a b : Nat) : Bool :=
  a / 0x3000000000 == b / 0x3000000000 && layoutAt s a == layoutAt s b
    && (match blockPos s a, blockPos s b with
      | some p, some q => p / 17 == q / 17
      | _, _ => false)

/-- Whether an address lies in a stripe whose data is on its way from a peer or the host (R276): its readers stall. -/
def refetched (s : State) (a : Nat) : Bool := s.mem.rebuilds.any (fun r => r.refetch && sameStripe s (r.block * 4096) a)

/-- Bytewise XOR of blocks. -/
def xorBlocks (l : List (List Nat)) : List Nat := l.foldl (fun a b => List.zipWith (· ^^^ ·) a b) (List.replicate 4096 0)

/-- Write one stripe from its 64 KiB of data; parity goes first (R274). -/
def storeStripe (w : Nat) (l : List Nat) (k : Nat) (data : List Nat) (s : State) : State :=
  let d := (List.range 16).map (fun j => let b := (data.drop (j * 4096)).take 4096; b ++ List.replicate (4096 - b.length) 0)
  let s := writeBytes (xorBlocks d) (stripeBlock s w l k 16) s
  d.zipIdx.foldl (fun t e => writeBytes e.1 (stripeBlock t w l k e.2) t) s

/-- Write a wing's weight image from stripe k0 on, over the channels l. -/
def storeImage (w : Nat) (l : List Nat) (k0 : Nat) (bytes : List Nat) (s : State) : State :=
  (List.range (ceilDiv bytes.length 65536)).foldl (fun t i => storeStripe w l (k0 + i) ((bytes.drop (i * 65536)).take 65536) t) s

/-- Form the block at position p from the other sixteen of its stripe and write it back (R275). -/
def rebuildBlock (w : Nat) (l : List Nat) (p : Nat) (s : State) : State :=
  let others := ((List.range 17).filter (· != p % 17)).map (fun j => readBytes s (stripeBlock s w l (p / 17) j) 4096)
  writeBytes (xorBlocks others) (blockAt s w l p) s

/-- The stripes over n channels that share rows with stripes k to k + c − 1 over n' channels: the first, and how many. -/
def stripesBeside (n n' k c : Nat) : Nat × Nat :=
  let first := 17 * k / n' * n / 17
  (first, ceilDiv (ceilDiv (17 * (k + c)) n' * n) 17 - first)

/-- The first stripe for n stripes on a wing over the channels of a mask, beside the models' ranges already there. -/
def allocStripes (s : State) (w mask n : Nat) : Option Nat :=
  if n = 0 then some 0
  else
    let l := (maskChans mask).length
    let total := if l < 17 then 0 else l * rd s .HBM_WEIGHT_ROWS w / 17
    let used := (s.serve.models.filter (fun e => (e.2.weightRows.getD w (0, 0)).2 != 0)).map fun e =>
      let r := e.2.weightRows.getD w (0, 0)
      if e.2.weightMask.getD w 0 = mask then r else stripesBeside l (modelChans e.2 w).length r.1 r.2
    allocLow 0 total n used

end Sys2Proof.Machine
end

