-- ==== Sys2Proof/Machine/Serving.lean ====
section
/-! DEFINITION. Commands of the serving family (R186 to R217): intake ticks, requests of the common
opcodes, model bundles, and the event-queue polls. -/

namespace Sys2Proof.Machine

/-! Intake (R190 to R193) -/

/-- A failed read of a control block: the third at successive ticks raises a ring fault with detail 0x02 (R193). -/
def readFailed (s : State) (c : Nat) : State :=
  let q := queueOf s c
  if q.ringFails ≥ 2 then ringFault (setQueue s c { q with ringFails := 0 }) c 0x02
  else setQueue s c { q with ringFails := q.ringFails + 1 }

/-- A failed read of a record, likewise. -/
def recordFailed (s : State) (c : Nat) : State :=
  let q := queueOf s c
  if q.recFails ≥ 2 then ringFault (setQueue s c { q with recFails := 0 }) c 0x02
  else setQueue s c { q with recFails := q.recFails + 1 }

/-- Whether the OPCODE of a record is one of Tables 7-4, 8-5 and 13-6 (R194). -/
def opcodeDefined (b : List Nat) : Bool := (recordCommand 0 0 b).isSome

/-- Read records from the ring of a context (R191, R192): a record that cannot be read stops the visit; a
record with an undefined opcode is answered at once (check 1 of Table 7-7); every other one is decided by
the command that its bytes spell (`recordCommand`). -/
def readRecords (c : Nat) : List RecRead → State → State
  | [], s => s
  | r :: rest, s =>
    if r.readable = false then recordFailed s c
    else
      let idx := rd s .SERVE_INTAKE_COUNT c
      let s := incWrap (inc s .SERVE_RECORDS_READ) .SERVE_INTAKE_COUNT c
      let s := setQueue s c { queueOf s c with recFails := 0 }
      let s := updBoot s fun b => { b with lastRecord := s.now }
      let s := if opcodeDefined r.bytes then s else answer s (headOf c idx r.bytes) 0x30 0x40
      readRecords c rest s

/-- Whether the intake engine reads a context's ring: the module is READY (R431), ENABLE is 1, the context is not
suspended (R377), the host can be reached (R401, R402) and the lead is not halted (R456). -/
def intakeOn (s : State) (c : Nat) : Bool :=
  rd s .BOOT_STATUS_PHASE == 8 && rdb s .SERVE_CTRL_ENABLE c && rd s .CTX_STATE_STATE c == 1 && hostReach s c && !s.serve.intakeStopped
    && !decide (leadHub s ∈ s.core.halted)

/-- The visit of one context at a tick; `left` records remain of the tick's limit. -/
def visitContext (s : State) (r : CtlRead) (left : Nat) : State :=
  if r.readable = false then readFailed s r.ctx
  else
    let s := readConsumer (setQueue s r.ctx { queueOf s r.ctx with ringFails := 0 }) r.ctx r.consumer
    let avail := (r.producer + 2 ^ 32 - rd s .SERVE_INTAKE_COUNT r.ctx) % 2 ^ 32
    if rd s .LP_STATUS_STATE = 2 ∨ rd s .LP_STATUS_STATE = 3 then
      if avail = 0 then s else startExit s 3
    else if 5 ≤ rd s .LP_STATUS_STATE then s
    else if avail > 2 ^ rd s .SERVE_INTAKE_SIZE_LOG2 r.ctx then ringFault s r.ctx 0x01
    else if avail = 0 then s
    else writeControl (readRecords r.ctx (r.recs.take (min (min avail 256) left)) s) r.ctx

/-- The visits of a tick, context by context, under the limit over all contexts (R192). -/
def visitAll (ctls : List CtlRead) : List Nat → Nat → State → State
  | [], _, s => s
  | c :: rest, left, s =>
    match ctls.find? (fun r => r.ctx == c) with
    | some r =>
      if intakeOn s c then
        let s' := visitContext s r left
        visitAll ctls rest (left - (rd s' .SERVE_INTAKE_COUNT c + 2 ^ 32 - rd s .SERVE_INTAKE_COUNT c) % 2 ^ 32) s'
      else visitAll ctls rest left s
    | none => visitAll ctls rest left s

/-- INTAKE_TICK n (R191, R192): the tick's Cadence time is n intake ticks; contexts are visited in
ascending order from n mod 64. -/
def execIntakeTick (n : Nat) (ctls : List CtlRead) (s0 : State) : Host.Outcome State Fault Refusal :=
  let s := tick s0 (n * intakeTick s0)
  let s := inc (updServe s fun v => { v with lastTick := n * intakeTick s }) .SERVE_TICKS
  let u := visitAll ctls ((List.range 64).map (fun i => (n + i) % 64)) (40 * rd s .TT_CONFIG_INTAKE_TICK) s
  let moved := fun (c : Nat) => (rd u .SERVE_INTAKE_COUNT c + 2 ^ 32 - rd s .SERVE_INTAKE_COUNT c) % 2 ^ 32
  let seen := (List.range 64).filter (fun c => intakeOn s c && ctls.any (fun r => r.ctx == c))
  settle s0 (trail u vestTrail 0x40 0 seen.length ((List.range 64).map moved).sum)

/-! GENERATE -/

/-- FP32 pattern that is positive and finite. -/
def f32PosFinite (v : Nat) : Bool := decide (0 < v ∧ v < 0x7F800000)

/-- FP32 pattern in [0, 1]. −0.0 is 0. -/
def f32Unit (v : Nat) : Bool := decide (v ≤ 0x3F800000) || v == 0x80000000

/-- A host IOVA: bit 48 set, nothing above it. -/
def isHostAddr (a align : Nat) : Bool := a / 2 ^ 48 == 1 && a % align == 0

def genNew (r : GenerateRec) : Bool := bitAt r.flags 0
def genGreedy (r : GenerateRec) : Bool := bitAt r.flags 1

/-- The adapter slot a GENERATE names. -/
def genSlot (r : GenerateRec) : Option Nat := if bitAt r.adapter 15 then some (r.adapter % 16384) else none

/-- Checks 1 to 10 of Table 7-7 for a GENERATE, in order. -/
def generateChecks (s : State) (h : ReqHead) (r : GenerateRec) : Option (Nat × Nat) :=
  let i := handleIdx h.handle
  let isNew := genNew r
  let ss := sessAt s i
  let hc := if isNew then none else handleCheck s h.ctx h.handle
  firstFail
    [ (r.resv && decide (r.flags < 16) && decide (r.permit < 8) && !bitAt r.adapter 14, 0x30, 0x41),
      ((!isNew || h.handle == 0) && decide (r.depth ≤ 7)
        && (r.promptLen == 0 || isHostAddr r.promptAddr 4)
        && decide (r.promptLen ≤ 1048576) && decide (r.maxNew ≤ 1048576)
        && decide (1 ≤ r.model ∧ r.model ≤ 15) && decide (r.draft ≤ 15) && decide (r.topK ≤ 64)
        && (genGreedy r || (f32PosFinite r.temperature && f32Unit r.topP)), 0x30, 0x42),
      (modelUsable s r.model && (r.draft == 0 || modelUsable s r.draft), 0x30, 0x45),
      (hc != some 0x01, 0x31, 0x01),
      (hc != some 0x02, 0x31, 0x02),
      (hc != some 0x03, 0x31, 0x03),
      (isNew || (ss.map (·.model) == some r.model && ss.map (·.draft) == some r.draft), 0x30, 0x4E),
      (r.depth == 0 || r.draft != 0, 0x30, 0x46),
      ((match genSlot r with | some k => adapterOk s h.ctx k r.model | none => true), 0x31, 0x04),
      (isNew || ss.map (·.st) == some .idle, 0x10, 0x04),
      (!rdb s .SERVE_CTRL_BACKLOG h.ctx, 0x10, 0x05),
      (!s.serve.draining || !(needsPeers s r.model || (isNew && (splitOf s r.model).kind != 0) || ((rootAt s i).map (fun k => !isNew && !k.members.isEmpty)).getD false), 0x10, 0x07),
      (!isNew || (decide (sessionsOf s h.ctx + 1 + b2n (r.draft != 0) ≤ rd s .SERVE_SESSION_LIMIT h.ctx)
        && decide (s.serve.sessions.length + 1 + b2n (r.draft != 0) ≤ 65536)), 0x11, 0x02) ]

/-- The first wing whose pool has n free units. -/
def wingFor (s : State) (n : Nat) : Option Nat := (List.range 4).find? (fun w => decide (n ≤ poolFree s w))

/-- The wing whose pool lies closest to n units once idle sessions park. -/
def wingFull (s : State) : Nat :=
  ((List.range 4).find? (fun w => (List.range 4).all (fun v => decide (poolFree s v ≤ poolFree s w)))).getD 0

/-- Reserve pages of session i for n tokens in all (R181), parking idle sessions under pressure where they
make room (R180); none where they cannot. -/
def reservePages (s : State) (i n : Nat) : Option State :=
  match rootAt s i with
  | none => none
  | some r =>
    let need := pagesFor (heldHere r n) - pagesHeld r
    let units := need * pageUnits s r.layout + tableUnits (pagesHeld r + need) - tableUnits (pagesHeld r)
    let others := { r with reserved := 0 }
    let s0 := setRoot s i others
    match pressureParks r.wing units ((parkOrder s0 true).filter (· != i)) s0 0 with
    | none => none
    | some t => some (setRoot t i { others with reserved := need })

/-- Open the session of a NEW_SESSION request, with its companion (R186, R204). -/
def openFor (s : State) (ctx : Nat) (r : GenerateRec) (tokens : Nat) : Option (Nat × State) :=
  let place := fun (t : State) (m : Nat) =>
    (wingFor t (pagesFor tokens * pageUnits t m + tableUnits (pagesFor tokens))).getD (wingFull t)
  match newIndex s with
  | none => none
  | some i =>
    let s1 := openSession s i ctx r.model r.draft r.permit (place s r.model) none false
    if r.draft = 0 then some (i, s1)
    else
      match newIndex s1 with
      | none => none
      | some k =>
        let s2 := openSession s1 k ctx r.draft 0 r.permit (place s1 r.draft) none true
        match sessAt s2 i with
        | some x => some (i, setSession s2 i { x with companion := some k })
        | none => none

/-- Tokens that a GENERATE appends before its first token: the pending token and the prompt (R200). -/
def appendCount (s : State) (i : Nat) (r : GenerateRec) : Nat :=
  b2n (((sessAt s i).bind (·.pendingTok)).isSome) + r.promptLen

/-- All tokens a session can need (R181). -/
def tokenNeed (s : State) (i : Nat) (r : GenerateRec) : Nat :=
  ((rootAt s i).map (fun k => k.committed + k.away)).getD 0 + appendCount s i r + r.maxNew + r.depth

/-- The item of an accepted GENERATE. -/
def genItem (s : State) (h : ReqHead) (r : GenerateRec) (i deadline ival : Nat) : Item :=
  { newItem s { h with handle := ((rootAt s i).map (·.handle)).getD 0 } 0x01 with
    sess := some i, model := r.model, draft := r.draft, slot := genSlot r, gen := some r
    deadline := deadline, interval := ival }

/-- The session takes the request: BUSY, with its hint and park permission; a park in progress is
abandoned at the next boundary, and a parked session starts its unpark (Table 6-10). -/
def takeRequest (s : State) (i : Nat) (r : GenerateRec) : State :=
  match sessAt s i with
  | none => s
  | some x => startUnpark (setSession s i { x with st := .busy, resumeUs := r.resumeHint, permit := r.permit, resume := none }) i

/-- What the checks of an admission give: a state and an item to accept in it, and the code and detail of the FINAL of an
item without work, which ends at once. -/
structure Admitted where
  st : State
  item : Item
  empty : Option (Nat × Nat)
  deriving DecidableEq, Repr

/-- A GENERATE whose session exists (a new one was opened on a trial state): pages, timetable, acceptance, or the code
and detail of its refusal. `back` is the state before it. -/
def trialGenerate (back s : State) (h : ReqHead) (r : GenerateRec) (i : Nat) : Except (Nat × Nat) Admitted :=
  if tokenNeed s i r > 1048576 then .error (0x11, 0x05)
  else
    match (reservePages s i (tokenNeed s i r)).bind (fun t =>
        match (sessAt t i).bind (·.companion) with
        | some k => reservePages t k (tokenNeed s i r)
        | none => some t) with
    | none => .error (0x11, 0x01)
    | some t =>
      let n := appendCount t i r
      let t := takeRequest t i r
      if n = 0 ∨ (r.promptLen = 0 ∧ r.maxNew = 0) then .ok ⟨t, genItem t h r i 0 0, some (0x03, 0x08)⟩
      else
        let ival := if r.maxIntervalNs = 0 then rd t .TT_DEFAULT_INTERVAL else r.maxIntervalNs
        let moved := (t.tt.plan.map (·.moveNs)).sum - (back.tt.plan.map (·.moveNs)).sum
        let extra := if moved = 0 then 0
          else moveSteps t (t.tt.plan.drop (frozenCount t)) moved
        let a : Ask := ⟨h.ctx, h.idx, r.model, r.depth, r.draft, ival, n, r.maxNew, rd t .CTX_STATE_CLASS h.ctx == 1⟩
        match admitPlan t a t.serve.lastTick r.maxFirstUs extra with
        | .error d => .error (0x10, d)
        | .ok (plan, d) =>
          if adapterLimits t plan h.ctx h.idx (genSlot r) then
            .ok ⟨adopt t plan, genItem t h r i d (if r.maxNew = 0 then 0 else ival), none⟩
          else .error (0x10, 0x06)

/-- Every check of a GENERATE, in order (R54, R198). -/
def admitGenerate (s : State) (h : ReqHead) (r : GenerateRec) : Except (Nat × Nat) Admitted :=
  match generateChecks s h r with
  | some e => .error e
  | none =>
    if genNew r then
      match openFor s h.ctx r (r.promptLen + r.maxNew + r.depth) with
      | none => .error (0x11, 0x02)
      | some (i, t) => trialGenerate s t h r i
    else trialGenerate s s h r (handleIdx h.handle)

/-- GENERATE (R195, R198, R54). -/
def execGenerate (h : ReqHead) (r : GenerateRec) (s : State) : Host.Outcome State Fault Refusal :=
  settle s
    (match admitGenerate s h r with
    | .error (c, d) => answer s h c d
    | .ok a =>
      match a.empty with
      | some (c, d) => acceptDone a.st a.item c d
      | none => accept a.st a.item)

/-! CANCEL, CLOSE, HINT -/

/-- Checks 2, 6 and 10 of Table 7-7 for a request that names a session. -/
def handleChecks (s : State) (h : ReqHead) (resv : Bool) : Option (Nat × Nat) :=
  let hc := handleCheck s h.ctx h.handle
  firstFail
    [ (resv, 0x30, 0x41), (hc != some 0x01, 0x31, 0x01), (hc != some 0x02, 0x31, 0x02),
      (hc != some 0x03, 0x31, 0x03), (!rdb s .SERVE_CTRL_BACKLOG h.ctx, 0x10, 0x05) ]

/-- Mark the open request of a session to stop at the next boundary with a detail; CLOSE's 0x05 wins over
CANCEL's 0x04 (R213). -/
def stopOpen (s : State) (x : Item) (detail : Nat) : State :=
  setItem s { x with stop := max x.stop detail }

/-- A CANCEL or CLOSE of an open request: accepted with the next boundary as its deadline, it waits for the request (R55,
R213), whose work leaves the steps that have not frozen. -/
def stopAndWait (s : State) (h : ReqHead) (opcode detail : Nat) (x : Item) : State :=
  let s := stopOpen (wantBoundary s) x detail
  let b := nextBoundary s
  accept (dropOpen s x.ctx x.idx) { newItem s h opcode with sess := x.sess, deadline := b + 2000, waits := [(x.ctx, x.idx)] }

/-- CANCEL (R213). -/
def execCancel (h : ReqHead) (resv : Bool) (s : State) : Host.Outcome State Fault Refusal :=
  settle s
    (match handleChecks s h resv with
    | some (c, d) => answer s h c d
    | none =>
      match openGen s (handleIdx h.handle) with
      | some x => stopAndWait s h 0x02 0x04 x
      | none => acceptDone s { newItem s h 0x02 with sess := some (handleIdx h.handle) } 0x03 0x08)

/-- CLOSE (R188, R213): the session becomes CLOSING; without an open request it is released at the next
boundary, where the item ends. -/
def execClose (h : ReqHead) (resv : Bool) (s : State) : Host.Outcome State Fault Refusal :=
  settle s
    (match handleChecks s h resv with
    | some (c, d) => answer s h c d
    | none =>
      let i := handleIdx h.handle
      let s := match sessAt s i with
        | some x => setSession s i { x with st := .closing }
        | none => s
      match openGen s i with
      | some x => stopAndWait s h 0x03 0x05 x
      | none =>
        let s := wantBoundary s
        accept s { newItem s h 0x03 with sess := some i, deadline := nextBoundary s + 2000 })

/-- HINT (R207). While no step runs or is planned, a session that now qualifies parks at once (R180). -/
def execHint (h : ReqHead) (permit us : Nat) (resv : Bool) (s : State) : Host.Outcome State Fault Refusal :=
  settle s
    (match handleChecks s h (resv && decide (permit < 8)) with
    | some (c, d) => answer s h c d
    | none =>
      let i := handleIdx h.handle
      let s := match sessAt s i with
        | some x =>
          if x.st = .idle then setSession s i { x with permit := permit, resumeUs := us, resume := resumeOf s.now us }
          else setSession s i { x with permit := permit, resumeUs := us }
        | none => s
      acceptDone (if s.tt.run.running ∨ s.tt.plan ≠ [] then s else parkDue s) { newItem s h 0x04 with sess := some i } 0x01 0x07)

/-! Model bundles (R477, R198, R213) -/

/-- Whether a bundle header keeps R477 beyond what `wellFormed` covers: the directory in order, 4 KiB
aligned, without overlap, ending at BUNDLE_BYTES, with the required sections. -/
def headerOk (r : LoadBundleRec) (h : BundleHeader) : Bool :=
  let secs := h.sections
  let types := secs.map (·.1)
  h.wellFormed && h.bundleBytes == r.bytes && decide (2 ≤ secs.length ∧ secs.length ≤ 16)
    && types.all (fun t => t ∈ [0x01, 0x02, 0x03, 0x04, 0x10, 0x11, 0x12, 0x13])
    && decide (types.Pairwise (· < ·))
    && secs.all (fun e => e.2.1 % 4096 == 0 && decide (4096 ≤ e.2.1))
    && decide (secs.Pairwise (fun a b => a.2.1 + a.2.2 ≤ b.2.1))
    && (secs.getLast?.map (fun e => e.2.1 + e.2.2)) == some r.bytes
    && types.contains 0x03 && types.contains 0x04 && (!types.contains 0x01 || types.contains 0x02)
    && (List.range 4).all (fun w => match secs.find? (fun e => e.1 == 0x10 + w) with
        | some e => e.2.2 == h.weightBytes.getD w 0 && e.2.2 != 0
        | none => h.weightBytes.getD w 0 == 0)

/-- Stripes of 17 blocks that a wing's weight section takes (R477). -/
def stripesFor (bytes : Nat) : Nat := ceilDiv bytes 65536

/-- MODULE-region units of the sections that are no weights. -/
def sectionUnitsOf (h : BundleHeader) : Nat := ceilDiv ((h.sections.filter (fun e => decide (e.1 < 0x10))).map (fun e => e.2.2)).sum 4096

/-- Whether the sections of a header can be held (check 14). -/
def bundleFits (s : State) (h : BundleHeader) : Bool :=
  (List.range 4).all (fun w => (allocStripes s w (captureMask s w) (stripesFor (h.weightBytes.getD w 0))).isSome)
    && decide ((s.serve.models.map (fun e => e.2.sectionUnits)).sum + sectionUnitsOf h ≤ moduleUnits s)

/-- The planned rate of a bundle transfer in bytes per ns: the 64 GB/s of adapter images (R232); the spec
states no other. -/
def bundleRate : Nat := 64

/-- Checks of Table 7-7 for a LOAD_BUNDLE, in order, with the bytes of its header. Check 15 always passes: the transfer takes only
what steps leave unused and steps of its own (R38), so that no step grows and no delivery moves. -/
def bundleChecks (s : State) (h : ReqHead) (r : LoadBundleRec) (hdr : Option (List Nat)) : Option (Nat × Nat) :=
  firstFail
    [ (r.resv, 0x30, 0x41),
      (h.handle == 0 && r.bytes != 0 && isHostAddr r.addr 4096 && decide (1 ≤ r.model ∧ r.model ≤ 15), 0x30, 0x42),
      ((match hdr with | some x => headerOk r (bundleHeaderOf x) | none => false), 0x30, 0x4F),
      (h.ctx == 0, 0x30, 0x43),
      ((modelAt s r.model).isNone, 0x30, 0x47),
      (!rdb s .SERVE_CTRL_BACKLOG h.ctx, 0x10, 0x05),
      ((match hdr with | some x => bundleFits s (bundleHeaderOf x) | none => true), 0x11, 0x04) ]

/-- The model that a LOAD_BUNDLE starts, with its weight rows and the header as the first bytes of its image. -/
def newModel (s : State) (h : ReqHead) (hdr : List Nat) : Model :=
  let x := bundleHeaderOf hdr
  let rows := (List.range 4).map (fun w => let n := stripesFor (x.weightBytes.getD w 0); ((allocStripes s w (captureMask s w) n).getD 0, n))
  ⟨.loading, (h.ctx, h.idx), x, [], [], ⟨[], [], [], [], [], [], [], ⟨0, 0, []⟩, []⟩, [], [], 0, rows, (List.range 4).map (captureMask s), sectionUnitsOf x, hdr⟩

/-- LOAD_BUNDLE (R198, R477): the transfer is planned, and its planned completion is the item's deadline. `hdr` is none when the
header cannot be read. -/
def execLoadBundle (h : ReqHead) (r : LoadBundleRec) (hdr : Option (List Nat)) (s : State) :
    Host.Outcome State Fault Refusal :=
  settle s
    (match bundleChecks s h r hdr, hdr with
    | some (c, d), _ => answer s h c d
    | none, none => answer s h 0x30 0x4F
    | none, some b =>
      let u := updServe s fun v => { v with models := storeInsert v.models r.model (newModel s h b) }
      let u := planLoad u r.model (ceilDiv r.bytes bundleRate)
      accept u { newItem u h 0x05 with model := r.model, deadline := moveEnd s u + 2000, pages := r.addr, data := [r.bytes] })

/-- A load that fails ends with a code: everything written is released and the transfer abandoned. -/
def failLoad (s : State) (n : Nat) (m : Model) (code detail cardId : Nat) : State :=
  let s := dropLoad (updServe s fun v => { v with models := storeErase v.models n }) n
  match itemAt s m.owner.1 m.owner.2 with
  | some x => endItem s x code detail cardId
  | none => s

/-- The Larder layout n of model n, from the bundle header (R477, R160): bits as in LARDER_LAYOUT. -/
def setLayout (s : State) (n v : Nat) : State :=
  let s := wr s .LARDER_LAYOUT_LAYERS n (bitsOf v 8 0)
  let s := wr s .LARDER_LAYOUT_LATENT_UNITS n (bitsOf v 21 16)
  let s := wr s .LARDER_LAYOUT_LATENT_FMT n (bitsOf v 27 24)
  let s := wr s .LARDER_LAYOUT_ROPE_UNITS n (bitsOf v 36 32)
  let s := wr s .LARDER_LAYOUT_ROPE_FMT n (bitsOf v 43 40)
  let ok := layoutValid s n
  let s := wr s .LARDER_LAYOUT_SLAB_UNITS n (slabBytes s n / 256)
  wrb s .LARDER_LAYOUT_VALID n ok

/-- Every section of the header's directory has arrived: the model is loaded, its layout is written and
the item ends DONE. DESIGN CHOICE (log 87): bytes of the bundle between sections count as zero in the digest of its image. -/
def loadComplete (s : State) (n : Nat) (m : Model) : State :=
  if m.header.sections.all (fun e => decide (e.1 ∈ m.arrived)) then
    let s := setLayout s n m.header.layout
    let s := updServe s fun v => { v with models := storeInsert v.models n { m with st := .loaded, digest := leNum (sha256 m.image), image := [] } }
    match itemAt s m.owner.1 m.owner.2 with
    | some x => endItem s (completed s x) 0x01 0x07
    | none => s
  else updServe s fun v => { v with models := storeInsert v.models n m }

/-- The section of a bundle that is read next, in ascending order of offset: TYPE, OFFSET, BYTES and digest (R198). -/
def dueSection (m : Model) : Option ((Nat × Nat × Nat) × List Nat) :=
  (m.header.sections.zip m.header.digests).find? (fun e => decide (e.1.1 ∉ m.arrived))

/-- Bytes with zeros after them up to a length. -/
def padTo (n : Nat) (b : List Nat) : List Nat := b ++ List.replicate (n - b.length) 0

/-- A section has arrived whole in `m.image`: it has its length and its digest, or the load ends (R198, R477). -/
def sectionEnds (s : State) (n : Nat) (m : Model) (e : (Nat × Nat × Nat) × List Nat) : State :=
  if m.image.length = e.1.2.1 + e.1.2.2 ∧ sha256 (m.image.drop e.1.2.1) = e.2 then
    loadComplete s n { m with arrived := m.arrived ++ [e.1.1] }
  else failLoad s n m 0x30 0x4F 0

/-- The layers that the cards of the bundle of model n find in a layout: its own come from its header (R160, R477). -/
def layersOf (s : State) (n : Nat) (m : Model) (layout : Nat) : Nat :=
  if layout = n then bitsOf m.header.layout 8 0 else rd s .LARDER_LAYOUT_LAYERS layout

/-- A part of the section that is due has arrived. -/
def partArrives (s : State) (n : Nat) (m : Model) (e : (Nat × Nat × Nat) × List Nat) (part : BundlePart) : State :=
  let whole := fun (b : List Nat) => { m with image := padTo e.1.2.1 m.image ++ b }
  match e.1.1, part with
  | 0x04, .card b progs =>
    let c := cardOfBytes b progs
    let m' := { m with cards := m.cards ++ [c], image := padTo (max e.1.2.1 (ceilDiv m.image.length 64 * 64)) m.image ++ b }
    match validateCard (layersOf s n m) m.cards c with
    | some reason => failLoad s n m 0x30 reason c.cardId
    | none => updServe s fun v => { v with models := storeInsert v.models n m' }
  | 0x04, .cardsEnd => sectionEnds s n { m with image := padTo (e.1.2.1 + e.1.2.2) m.image } e
  | 0x03, .recipe b r => sectionEnds s n { whole b with recipe := r } e
  | t, .whole t' b =>
    if t ≠ t' ∨ t = 0x03 ∨ t = 0x04 then s
    else if t = 0x01 then
      match targetSetsOf b with
      | some sets => sectionEnds s n { whole b with targetSets := sets } e
      | none => failLoad s n m 0x30 0x4F 0
    else if t = 0x02 then
      match columnMapOf m.targetSets b with
      | some rows => sectionEnds s n { whole b with columnMap := rows } e
      | none => failLoad s n m 0x30 0x4F 0
    else sectionEnds (storeImage (t - 0x10) (modelChans m (t - 0x10)) (m.weightRows.getD (t - 0x10) (0, 0)).1 b s) n (whole b) e
  | _, _ => s

/-- BUNDLE_SECTION_ARRIVAL (R198, R35, R400): a card is validated as soon as its last byte has arrived, a section against its
digest and its own rules; the first failure ends the load. Sections are read in order, so that no other part arrives. -/
def execBundleSectionArrival (t n : Nat) (part : BundlePart) (s : State) : Host.Outcome State Fault Refusal :=
  settle s
    (let s := tick s t
    match modelAt s n with
    | none => s
    | some m =>
      if m.st ≠ .loading then s
      else if part = .readFailed then failLoad s n m 0x23 0x05 0
      else
        match dueSection m with
        | some e => partArrives s n m e part
        | none => s)

/-- Checks of Table 7-7 for an UNLOAD_BUNDLE. -/
def unloadChecks (s : State) (h : ReqHead) (model : Nat) (resv : Bool) : Option (Nat × Nat) :=
  firstFail
    [ (resv, 0x30, 0x41), (h.handle == 0 && decide (1 ≤ model ∧ model ≤ 15), 0x30, 0x42), (h.ctx == 0, 0x30, 0x43),
      (modelUsable s model, 0x30, 0x45), (!rdb s .SERVE_CTRL_BACKLOG h.ctx, 0x10, 0x05) ]

/-- The open items that name a model. -/
def modelUsers (s : State) (model : Nat) : List Item :=
  s.serve.items.filter (fun i => i.opcode == 0x01 && (i.model == model || i.draft == model)
    || decide (i.opcode ∈ [0x10, 0x12, 0x13]) && i.model == model)

/-- UNLOAD_BUNDLE (R213). -/
def execUnloadBundle (h : ReqHead) (model : Nat) (resv : Bool) (s : State) : Host.Outcome State Fault Refusal :=
  settle s
    (match unloadChecks s h model resv with
    | some (c, d) => answer s h c d
    | none =>
      let users := modelUsers s model
      let s := updServe s fun v => { v with models := match storeFind v.models model with
        | some m => storeInsert v.models model { m with st := .unloading }
        | none => v.models }
      let x := { newItem s h 0x06 with model := model }
      if users.isEmpty then releaseModel (acceptDone s x 0x01 0x07) model
      else
        accept s { x with
          deadline := (users.map (fun i => i.deadline + ((i.gen.map (·.maxNew)).getD 0 - 1) * i.interval)).foldl max 0 + 2000
          waits := users.map (fun i => (i.ctx, i.idx)) })

/-! Event-queue polls -/

/-- EVQ_POLL (R208, R209, R411): a read of EVQ_CONSUMER. A read that fails gives nothing; the retries of R193 are those of the
ticks' reads. -/
def execEvqPoll (t c : Nat) (v : Option Nat) (s : State) : Host.Outcome State Fault Refusal :=
  settle s
    (let s := tick s t
    if hostReach s c = false then s
    else match v with
      | none => s
      | some x => readConsumer s c x)

/-- EVQ_REARM_POLL (R410): the read of EVQ_CONSUMER while the queue is disarmed. -/
def execEvqRearmPoll (t c : Nat) (v : Option Nat) (s : State) : Host.Outcome State Fault Refusal :=
  settle s
    (let s := tick s t
    if (queueOf s c).armed || !hostReach s c then s
    else match v with
      | none => s
      | some x => readConsumer s c x)

/-- BACKLOG_TIMEOUT (R209): BACKLOG set for 100 ms with the link in DL_Up tears the context down. -/
def execBacklogTimeout (t c : Nat) (s : State) : Host.Outcome State Fault Refusal :=
  settle s
    (let s := tick s t
    match (queueOf s c).backlogSince with
    | some since =>
      if rdb s .SERVE_CTRL_BACKLOG c && rdb s .PCIE_LINK_UP && decide (since + 100000000 ≤ s.now) then
        startTeardown (if c = 0 ∨ rd s .CTX_STATE_STATE c = 0 ∨ rd s .CTX_STATE_STATE c = 3 then s else inc s .SERVE_BACKLOG_TEARDOWNS) c 1
      else s
    | none => s)

end Sys2Proof.Machine
end

