-- ==== Sys2Proof/Machine/CoreEvents.lean ====
section
/-! DEFINITION. Events of cores and hubs and the states they lead to (R287 to R295), the retirement record
(R307, R308), remap flips (R19 to R22), hub resets (R434) and failed control cores (R302). -/

namespace Sys2Proof.Machine

/-! The retirement record -/

def emptyRetirement : Retirement := ⟨0, 0, 0, [], [], [], [], 0, 1⟩

/-- The copy in force: the valid copy with the higher generation, which is kept first (R307). -/
def liveRetirement (s : State) : Retirement := s.rep.retirement.headD emptyRetirement

/-- Write the retirement record: the other copy takes the change and the next generation (R307). -/
def saveRetirement (s : State) (f : Retirement → Retirement) : State :=
  let o := liveRetirement s
  let n := { f o with generation := o.generation + 1, boot := rd s .BOOT_COUNT, time := s.now }
  updRep s fun r => { r with retirement := n :: r.retirement.take 1 }

/-- State of a new core: 1 ACTIVE for slots 0 to 63, 2 SPARE for 64 and 65 (Table 1-7). -/
def newCore (k : Nat) : Nat := if k % 66 < 64 then 1 else 2

def coreState (s : State) (k : Nat) : Nat := rd s .HUB_SLOT_STATE_STATE k

/-- A core's entry of Table 10-9. -/
def saveCore (s : State) (k : Nat) : State :=
  let v := coreState s k + 8 * rd s .INTEG_CORE_INFO_SKIP k + 32 * rd s .INTEG_CORE_INFO_READMITS k
    + 128 * rd s .INTEG_CORE_INFO_CLEARED k + 256 * storeGet 0 s.core.lifetime k
  saveRetirement s fun r => { r with cores := storePut (newCore k) r.cores k v }

/-- A hub's entry of Table 10-9; bit 2 tells that Pantry errors took it out of placement. -/
def saveHub (s : State) (h : Nat) : State :=
  let p := decide (4 ≤ (storeGet [] s.core.pantryErrs h).length)
  saveRetirement s fun r => { r with hubs := storePut 0 r.hubs h (rd s .INTEG_HUB_STATE h + 4 * b2n p) }

/-! Cores -/

/-- W of R288 in ns. -/
def suspectWindow (s : State) : Nat := rd s .INTEG_CONFIG_SUSPECT_WINDOW * 1000000000

/-- A slot's entry of the active remap bank, as bits [7:0] of Table 1-6. -/
def bankEntry (s : State) (bank n : Nat) : Nat :=
  if bank = 0 then rd s .HUB_REMAP_B0_SLOT_PHYS_SLOT n + 128 * rd s .HUB_REMAP_B0_SLOT_VALID n
  else rd s .HUB_REMAP_B1_SLOT_PHYS_SLOT n + 128 * rd s .HUB_REMAP_B1_SLOT_VALID n

def setBankEntry (s : State) (bank n v : Nat) : State :=
  if bank = 0 then wr (wr s .HUB_REMAP_B0_SLOT_PHYS_SLOT n (v % 128)) .HUB_REMAP_B0_SLOT_VALID n (v / 128 % 2)
  else wr (wr s .HUB_REMAP_B1_SLOT_PHYS_SLOT n (v % 128)) .HUB_REMAP_B1_SLOT_VALID n (v / 128 % 2)

/-- The logical slot that a physical core serves. -/
def logicalOf (s : State) (hub phys : Nat) : Option Nat :=
  (List.range 64).find? (fun l => physOf s hub l == some phys)

def serving (s : State) (k : Nat) : Bool := (logicalOf s (k / 66) (k % 66)).isSome

/-- A CORE_STATE record (Table 10-7). -/
def coreRecord (s : State) (k before reason : Nat) : State :=
  report s 0x03 (physIndex (k / 66) (k % 66))
    [(1, reason, false), (1, rd s .INTEG_CORE_INFO_SKIP k, false), (1, rd s .INTEG_CORE_INFO_READMITS k, false)]
    none (before + 16 * coreState s k)

/-- A core's state changes: RETIRED comes with FENCED and empties its queue; the transition is in the
retirement record before anything that follows from it (R288, R289). -/
def setCoreState (s : State) (k v reason : Nat) : State :=
  let before := coreState s k
  let s := wr s .HUB_SLOT_STATE_STATE k v
  let s := if v = 4 then
      let s := wr (wr s .HUB_SLOT_STATE_FENCED k 1) .INTEG_CORE_INFO_RETIRE_PENDING k 0
      updCore s fun c => { c with
        queues := storeErase c.queues k, held := storeErase c.held k, arrays := storeErase c.arrays k,
        wheels := storeErase c.wheels k, waiting := c.waiting.filter (fun w => w.core != k), marks := storeErase c.marks k }
    else s
  coreRecord (saveCore s k) k before reason

/-- A core is marked RETIRED: at once while it serves no slot, else at the next step boundary (R288). -/
def markRetired (s : State) (k reason : Nat) (atOnce : Bool) : State :=
  if coreState s k = 4 then s
  else if atOnce ∨ serving s k = false then setCoreState s k 4 reason
  else updCore (wr s .INTEG_CORE_INFO_RETIRE_PENDING k 1) fun c => { c with marks := storePut 0 c.marks k reason }

/-! Hubs -/

/-- A HUB_STATE record (Table 10-7). -/
def hubRecord (s : State) (h before trigger : Nat) : State :=
  report s 0x05 h [(1, trigger, false)] none (before + 16 * rd s .INTEG_HUB_STATE h)

/-- A hub becomes TRIMMED, or RETIRED with all its cores (R293). -/
def setHubState (s : State) (h v trigger : Nat) : State :=
  let before := rd s .INTEG_HUB_STATE h
  let s := hubRecord (saveHub (wr s .INTEG_HUB_STATE h v) h) h before trigger
  if v = 2 then
    each (List.range 66) (wr s .INTEG_HUB_OUT h 1) fun t p => markRetired t (h * 66 + p) 0x0B true
  else if v = 1 then
    let l := (storeGet [] s.core.hubSuspects h).map (fun e => (e.1, e.2.1, true))
    updCore s fun c => { c with hubSuspects := storePut [] c.hubSuspects h l }
  else s

/-- The hub's cores that became SUSPECT within W; `new_` leaves out those a trim has counted. -/
def suspectsWithin (s : State) (h : Nat) (new_ : Bool) : List Nat :=
  ((storeGet [] s.core.hubSuspects h).filter
    (fun e => decide (s.now < e.2.1 + suspectWindow s) && !(new_ && e.2.2))).map (·.1) |>.eraseDups

/-- Three distinct cores SUSPECT within W trim a NORMAL hub; three further ones retire a TRIMMED hub (R293). -/
def hubSuspect (s : State) (h : Nat) : State :=
  let s := wr s .INTEG_HUB_SUSPECTS h (min 255 (suspectsWithin s h false).length)
  if (suspectsWithin s h true).length < 3 then s
  else if rd s .INTEG_HUB_STATE h = 0 then setHubState s h 1 1
  else if rd s .INTEG_HUB_STATE h = 1 then setHubState s h 2 1
  else s

/-- A core is marked SUSPECT (R288): its sweeps start again at full rate. -/
def markSuspect (s : State) (k reason : Nat) : State :=
  let h := k / 66
  let s := setCoreState s k 3 reason
  let s := updCore (wr s .INTEG_CORE_INFO_PASS_RUN k 0) fun c => { c with
    testRate := storePut 0 c.testRate k 0
    clearRun := storeErase c.clearRun k
    hubSuspects := storePut [] c.hubSuspects h (storeGet [] c.hubSuspects h ++ [(k % 66, s.now, false)]) }
  hubSuspect s h

/-- Key of a core's event times, and of its corrected words. -/
def eventKey (k : Nat) : Nat := 2 * k

/-- The counts that one event adds to: the module's, the core's lifetime count, and the hub's events within
W, of which the eighth trims a NORMAL hub (R287, R293, R308). -/
def countEvent (s : State) (k : Nat) : State :=
  let h := k / 66
  let s := inc s .INTEG_MODULE_EVENTS
  let ev := (storeGet [] s.core.hubEvents h).filter (fun t => decide (s.now < t + suspectWindow s)) ++ [s.now]
  let s := updCore s fun c => { c with
    lifetime := storePut 0 c.lifetime k (min 255 (storeGet 0 c.lifetime k + 1))
    events := storePut [] c.events (eventKey k) [s.now]
    hubEvents := storePut [] c.hubEvents h ev }
  let s := saveCore s k
  if rd s .INTEG_HUB_STATE h = 0 ∧ 8 ≤ ev.length then setHubState s h 1 2 else s

/-- An event on a core (R287, Table 10-3): a second event within W makes an ACTIVE core SUSPECT, and any
later event retires a SUSPECT core that serves. `held` marks a held tile, which retires at once. -/
def coreEvent (s : State) (k : Nat) (held : Bool := false) : State :=
  let last := (storeGet [] s.core.events (eventKey k)).head?
  let within := match last with | some t => decide (s.now ≤ t + suspectWindow s) | none => false
  let s := countEvent s k
  if coreState s k = 1 then (if within then markSuspect s k 0x01 else s)
  else if coreState s k = 3 ∧ serving s k then markRetired s k 0x07 held
  else s

/-- A uncorrectable local-store word is an event and marks an ACTIVE core (reason 0x04); its MEMORY record
is written by the caller. -/
def lsUncorrectable (s : State) (k : Nat) : State :=
  let st := coreState s k
  let s := countEvent s k
  if st = 1 then (if coreState s k = 1 then markSuspect s k 0x04 else s)
  else if st = 3 ∧ serving s k then markRetired s k 0x07 false
  else s

/-- n corrected local-store words: 16 within 24 h write a MEMORY record and mark an ACTIVE core (Table 10-3,
R262). -/
def lsCorrected (s : State) (k n addr : Nat) : State :=
  let ts := (storeGet [] s.core.events (eventKey k + 1)).filter (fun t => decide (s.now < t + 86400000000000))
    ++ List.replicate (min n 16) s.now
  let full := decide (16 ≤ ts.length)
  let s := updCore s fun c => { c with events := storePut [] c.events (eventKey k + 1) (if full then [] else ts) }
  if full then
    let s := report s 0x07 (physIndex (k / 66) (k % 66)) [(1, 1, false), (1, 1, false), (8, addr, true)]
    if coreState s k = 1 then markSuspect s k 0x05 else s
  else s

/-- Uncorrectable words of a Pantry slice: the fourth within 24 h takes the hub out of placement (R293). -/
def pantryUncorrectable (s : State) (h : Nat) : State :=
  let ts := (storeGet [] s.core.pantryErrs h).filter (fun t => decide (s.now < t + 86400000000000)) ++ [s.now]
  let s := updCore s fun c => { c with pantryErrs := storePut [] c.pantryErrs h (ts.drop (ts.length - 4)) }
  if 4 ≤ ts.length then hubRecord (saveHub (wr s .INTEG_HUB_OUT h 1) h) h (rd s .INTEG_HUB_STATE h) 4 else s

/-! Remap flips -/

/-- The check of R20 on a hub's inactive bank. -/
def bankPasses (s : State) (h : Nat) : Bool :=
  let b := 1 - rd s .HUB_REMAP_CTRL_ACTIVE_BANK h
  let ps := ((List.range 64).map (fun l => bankEntry s b (h * 64 + l))).filter (fun v => 128 ≤ v) |>.map (· % 128)
  ps.all (fun p => decide (p ≤ 65) && coreState s (h * 66 + p) != 4) && ps.eraseDups.length == ps.length

/-- The inactive bank becomes active: a SPARE it names is ACTIVE, an ACTIVE core it no longer names is SPARE
(Table 10-3); a core marked RETIRED becomes it as its slot moves. -/
def activateBank (s : State) (h : Nat) : State :=
  let named0 := (List.range 66).filter (fun p => (logicalOf s h p).isSome)
  let s := wr s .HUB_REMAP_CTRL_ACTIVE_BANK h (1 - rd s .HUB_REMAP_CTRL_ACTIVE_BANK h)
  let s := wr s .HUB_REMAP_CTRL_ACTIVE_GEN h (nextGen (rd s .HUB_REMAP_CTRL_ACTIVE_GEN h))
  let s := updTt s fun t => { t with remapWritten := storeKeep (fun k => k / 64 != h) t.remapWritten }
  let s := each (List.range 66) s fun t p =>
    let k := h * 66 + p
    let now_ := (logicalOf t h p).isSome
    if now_ && coreState t k == 2 then saveCore (wr t .HUB_SLOT_STATE_STATE k 1) k
    else if !now_ && decide (p ∈ named0) then
      if rdb t .INTEG_CORE_INFO_RETIRE_PENDING k then setCoreState t k 4 (storeGet 0x07 t.core.marks k)
      else if coreState t k = 1 then saveCore (wr t .HUB_SLOT_STATE_STATE k 2) k
      else t
    else t
  let s := trail s (hubTrail h) 0x21 0 1 (rd s .HUB_REMAP_CTRL_ACTIVE_GEN h)
  let a := rd s .HUB_REMAP_CTRL_ACTIVE_BANK h
  let s := wr s .INTEG_HUB_SERVING h (((List.range 64).filter (fun l => (physOf s h l).isSome)).length)
  let put := fun (m : Store Nat) (l : Nat) => storePut (l + 128) m (h * 64 + l) (bankEntry s a (h * 64 + l))
  saveRetirement s fun r => { r with remap := (List.range 64).foldl put r.remap }

/-- A requested flip at a step boundary (R20, R22, R226). -/
def flipRemap (s : State) (h : Nat) : State :=
  let full := (List.range 64).all (fun l => storeGet false s.tt.remapWritten (h * 64 + l))
  let s := wr s .HUB_REMAP_CTRL_FLIP_REQ h 0
  if full && bankPasses s h then activateBank s h
  else hubError (wr s .HUB_REMAP_CTRL_FLIP_REJECTED h 1) h 0x100 8 0

/-- The runtime moves, at a step boundary, the slots of cores that are SUSPECT, marked RETIRED or RETIRED
to SPARE cores in ascending physical slot. With no SPARE left a SUSPECT core keeps its slot with SKIP 7/8,
and the slot of a RETIRED one goes to a SUSPECT core that serves no slot and has a SKIP, else it is no longer served (R23, R288,
R294). -/
def moveSlots (s : State) (h : Nat) : State :=
  let bad := fun (t : State) (l : Nat) => match physOf t h l with
    | some p => coreState t (h * 66 + p) == 3 || coreState t (h * 66 + p) == 4 || rdb t .INTEG_CORE_INFO_RETIRE_PENDING (h * 66 + p)
    | none => false
  let spares := (List.range 66).filter (fun p => coreState s (h * 66 + p) == 2)
  let out := (List.range 64).filter (bad s)
  let take := out.zipIdx.map (fun e => (e.1, spares[e.2]?))
  let stays := fun (l : Nat) => match physOf s h l with
    | some p => coreState s (h * 66 + p) == 3 && !rdb s .INTEG_CORE_INFO_RETIRE_PENDING (h * 66 + p)
    | none => false
  let slow := (List.range 66).filter (fun p => coreState s (h * 66 + p) == 3 && rd s .INTEG_CORE_INFO_SKIP (h * 66 + p) != 0
    && !serving s (h * 66 + p) && !rdb s .INTEG_CORE_INFO_RETIRE_PENDING (h * 66 + p))
  let left := take.filter (fun e => e.2.isNone && !stays e.1)
  let moves := take.filter (·.2.isSome) ++ left.zipIdx.map (fun e => (e.1.1, slow[e.2]?))
  let s := each (take.filter (fun e => e.2.isNone && stays e.1)) s fun t e =>
    match physOf t h e.1 with
    | some p =>
      let k := h * 66 + p
      if rd t .INTEG_CORE_INFO_SKIP k = 0 then saveCore (wr t .INTEG_CORE_INFO_SKIP k 1) k else t
    | none => t
  if moves = [] then s
  else
    let a := rd s .HUB_REMAP_CTRL_ACTIVE_BANK h
    let s := each (List.range 64) s fun t l =>
      let v := match moves.find? (fun e => e.1 == l) with
        | some (_, some p) => p + 128
        | some (_, none) => bankEntry t a (h * 64 + l) % 128
        | none => bankEntry t a (h * 64 + l)
      setBankEntry t (1 - a) (h * 64 + l) v
    activateBank s h

/-- The hubs some of whose cores are not in a new core's state. -/
def touchedHubs (s : State) : List Nat :=
  (s.regs.filter (fun e => e.1 % 1024 == Fld.HUB_SLOT_STATE_STATE.ctorIdx || e.1 % 1024 == Fld.INTEG_CORE_INFO_RETIRE_PENDING.ctorIdx)).map
    (fun e => e.1 / 1024 / 66) |>.eraseDups

/-- What a step boundary does for cores and hubs: requested flips, moves of slots, and the trim of hubs that
have become TRIMMED (R20, R288, R293, R313). -/
def coresAtBoundary (s : State) : State :=
  let req := (s.regs.filter (fun e => e.1 % 1024 == Fld.HUB_REMAP_CTRL_FLIP_REQ.ctorIdx)).map (·.1 / 1024)
  let s := each req s flipRemap
  let s := each ((touchedHubs s).filter (fun h => decide (h ∉ req))) s moveSlots
  let trimmed := (s.regs.filter (fun e => e.1 % 1024 == Fld.INTEG_HUB_STATE.ctorIdx && e.2 == 1)).map (·.1 / 1024)
  each trimmed s fun t h => if rd t .HUB_PWR_TRIM_STEPS h < 4 then wr t .HUB_PWR_TRIM_STEPS h 4 else t

/-! Derating (R295) -/

/-- Serving cores of a hub in eighths: SKIP 7/8 and 3/4 count as such. -/
def hubCores (s : State) (h : Nat) : Nat :=
  ((List.range 64).map (fun l => match physOf s h l with
    | some p => 8 - rd s .INTEG_CORE_INFO_SKIP (h * 66 + p)
    | none => 0)).sum / 8

/-- Whether a hub takes part in placement. -/
def inPlacement (s : State) (h : Nat) : Bool :=
  !rdb s .INTEG_HUB_OUT h && rd s .INTEG_HUB_STATE h != 2 && decide (56 ≤ hubCores s h)

/-- Whether a hub is kept out of placement by something other than a halt, a failed test or too few serving cores. -/
def keptOut (s : State) (h : Nat) : Bool :=
  rd s .INTEG_HUB_STATE h == 2 || rd s .DBG_HUB_STATUS_STATE h != 0 || (storeFind s.boot.hubResets h).isSome
    || decide (4 ≤ (storeGet [] s.core.pantryErrs h).length) || decide (h / 40 ∈ s.pwr.wingsOut)

/-- A hub with fewer than 56 serving cores is out of placement until it has them again. -/
def thinHub (s : State) (h : Nat) : State :=
  let put := fun (u : State) (l : List Nat) => updCore u fun c => { c with thin := l }
  let others := s.core.thin.filter (· != h)
  if hubCores s h < 56 then (if rdb s .INTEG_HUB_OUT h then s else put (wr s .INTEG_HUB_OUT h 1) (h :: others))
  else if h ∈ s.core.thin then
    let u := put s others
    if keptOut u h || decide (h ∈ u.core.halted) then u else wr u .INTEG_HUB_OUT h 0
  else s

/-- A wing's placement: its hubs in placement, and the serving cores of the one with fewest. -/
def wingPlace (s : State) (w : Nat) : Nat × Nat :=
  let l := ((List.range 40).map (w * 40 + ·)).filter (inPlacement s)
  (l.length, ((l.map (hubCores s)).min?).getD 64)

/-- Placement and INTEG_DERATE at a freeze, and a DERATE record when the derating has changed. -/
def derate (s : State) : State :=
  let s := each (List.range 160) s thinHub
  let s := updTt s fun t => { t with placed := (List.range 4).map (wingPlace s) }
  let hs := (List.range 160).filter (inPlacement s)
  let v := variantOf ((hs.map (hubCores s)).min?.getD 64)
  let ratio := if hs = [] then 0xFFFF else min 0xFFFF (ceilDiv (1000 * 64 * 160) (v * hs.length))
  let sv := (hs.map (fun h => rd s .INTEG_HUB_SERVING h)).sum
  if ratio = rd s .INTEG_DERATE_RATIO ∧ sv = rd s .INTEG_DERATE_SERVING then s
  else
    let s := wr (wr s .INTEG_DERATE_RATIO 0 ratio) .INTEG_DERATE_SERVING 0 sv
    report s 0x0D 0 [(2, sv, false), (1, 160 - hs.length, false), (2, ratio, false), (1, 0, false)]

/-! Hub resets and failed control cores -/

/-- Whether a core's key belongs to a hub. -/
def ofHub (h k : Nat) : Bool := k / 66 == h

/-- The tasks of the running step that have, or had, a command on one of some cores (R476). -/
def tasksOn (s : State) (p : Nat → Bool) : List (List (Nat × Nat) × Nat) :=
  (s.core.tasks.filter (fun x => x.cores.any p)).map (fun x => (x.items, x.card))

/-- The tasks of the running step with a command on a hub (R302). -/
def tasksOnHub (s : State) (h : Nat) : List (List (Nat × Nat) × Nat) := tasksOn s (ofHub h)

/-- The tasks that need a hub end ABORTED_TASK (R302, R455). -/
def abortHubTasks (s : State) (h detail : Nat) : State :=
  each (tasksOnHub s h) s fun t e => endTask t e.1 e.2 0x23 detail

/-- A hub's Pantry slice and local stores are lost, and their granules FREE. -/
def loseHubMemory (s : State) (h : Nat) : State :=
  let mine := fun (g : Nat) => decide (0xC000000 ≤ g) && decide (g < 0xC200000) && granuleHub g == h
  updMem s fun m => { m with
    bytes := storeKeep (fun a => !mine (a / 4096)) m.bytes
    valid := storeKeep (fun l => !mine (l / 32)) m.valid
    granules := storeKeep (fun g => !mine g) m.granules
    lr := storeKeep (· != h) m.lr
    cacheTags := m.cacheTags.filter (fun t => t.hub != h) }

/-- A hub reset (Table 15-7, Table 15-11): engines, caches, Pantry slice and local stores are lost, their granules FREE, and
the hub's registers of classes NONE and CTX return to their reset values; the coefficient replicas are lost and restored. -/
def hubReset (s : State) (h : Nat) : State :=
  let s := resetRegs s (keptRank .hub) (fun f n => (fieldRow f).block == .hub && blockIdx f n == h)
  let s := updPann s fun p => { p with caches := storeErase p.caches h }
  let s := updCore s fun c => { c with
    queues := storeKeep (fun k => !ofHub h k) c.queues
    arrays := storeKeep (fun k => !ofHub h k) c.arrays
    wheels := storeKeep (fun k => !ofHub h k) c.wheels
    sumWait := storeKeep (fun k => !ofHub h k) c.sumWait
    vregs := storeKeep (fun k => !ofHub h k) c.vregs
    reds := storeKeep (fun k => !ofHub h (k / 65536)) c.reds
    held := storeKeep (fun k => !ofHub h k) c.held
    inject := storeErase c.inject h
    waiting := c.waiting.filter (fun w => !ofHub h w.core)
    halted := c.halted.filter (· != h) }
  let s := updDbg s fun d => { d with
    trails := storeKeep (fun k => k != hubTrail h && !(decide (k < 20000) && ofHub h k)) d.trails
    trailNext := storeKeep (fun k => k != hubTrail h && !(decide (k < 20000) && ofHub h k)) d.trailNext
    prof := storeKeep (fun k => k / 512 != h) d.prof, profCount := storeErase d.profCount h, armed := d.armed.filter (· != h)
    haltAt := storeErase d.haltAt h, tests := storeErase d.tests h, dmi := storeKeep (fun k => k / 128 != h) d.dmi }
  settleDebug (loseHubMemory s h)

/-- A RESET record (Table 15-13). -/
def resetRecord (s : State) (kind trigger unit ended : Nat) : State :=
  report s 0x21 unit [(1, kind, false), (1, trigger, false), (2, unit, false), (4, ended, false)]

/-- Do a hub reset that has fallen due; what it started with is kept until it completes. -/
def doHubReset (s : State) (h trigger : Nat) : State :=
  updBoot (hubReset s h) fun b => { b with hubResets := storeInsert b.hubResets h (trigger + 8 * (s.now + 1)) }

/-- A hub reset falls due (R434, R302): trigger 1 a control-core failure, 2 RESET_CMD. Its tasks end; it waits for a dump of
the hub in progress (R453). -/
def beginHubReset (s : State) (h trigger : Nat) : State :=
  let n := s.serve.items.length
  let s := abortHubTasks s h 0x02
  let s := resetRecord (wr (wr (wr s .RESET_STATUS_BUSY 0 1) .RESET_STATUS_LAST_KIND 0 1) .INTEG_HUB_OUT h 1) 1 trigger h (n - s.serve.items.length)
  let s := updCore s fun c => { c with thin := c.thin.filter (· != h) }
  if s.dbg.dumps.any (fun d => d.1 == h) then updBoot s fun b => { b with hubResets := storeInsert b.hubResets h trigger }
  else doHubReset s h trigger

/-- A CONTROL_CORE record (Table 10-7). -/
def controlRecord (s : State) (unit event : Nat) : State :=
  report s 0x0A unit [(1, event, false), (1, rd s .INTEG_LEAD_LEAD_WING, false), (1, rd s .INTEG_LEAD_SHADOW_WING, false)]

/-- A hub's control core has failed (R302): its tasks end, it leaves placement and is reset; the second
failure within 24 h retires it (R293). -/
def hubFailed (s : State) (h : Nat) : State :=
  let ts := (storeGet [] s.core.ccFails h).filter (fun t => decide (s.now < t + 86400000000000)) ++ [s.now]
  let s := controlRecord (updCore s fun c => { c with ccFails := storePut [] c.ccFails h ts }) h 1
  let s := beginHubReset (freezeHub s h 3) h 1
  if 2 ≤ ts.length ∧ rd s .INTEG_HUB_STATE h ≠ 2 then setHubState s h 2 3 else s

/-- The shadow takes over planning, and a new shadow is chosen (R302, R303). -/
def takeover (s : State) : State :=
  let old := rd s .INTEG_LEAD_LEAD_WING
  let lead := rd s .INTEG_LEAD_SHADOW_WING
  let sh := (([1, 2, 3].map (fun i => (old + i) % 4)).find?
    (fun w => w != lead && rd s .INTEG_HUB_STATE (w * 40) != 2)).getD lead
  let s := inc (wr (wr s .INTEG_LEAD_LEAD_WING 0 lead) .INTEG_LEAD_SHADOW_WING 0 sh) .INTEG_LEAD_TAKEOVERS
  let s := saveRetirement s fun r => { r with lead := lead, shadow := sh }
  trail (controlRecord s (lead * 40) 2) vestTrail 0x43 0 lead sh

end Sys2Proof.Machine
end

