-- ==== Sys2Proof/Machine/Archive.lean ====
section
/-! DEFINITION. The bytes of what the Cellar and the flash hold beside images: Cellar records (Table 10-6), the retirement record
(Table 10-9), the repair list (Table 10-8), the reset and low-power log (Table 15-12) and the selection record (Table 15-2). -/

namespace Sys2Proof.Machine

/-- Bytes with zeros after them up to a length. -/
def zeroFill (n : Nat) (b : List Nat) : List Nat := b.take n ++ List.replicate (n - b.length) 0

/-- A record of bytes followed by their CRC-64/XZ. -/
def withCrc (b : List Nat) : List Nat := b ++ leBytes 8 (crc64 b)

/-- The 64 bytes of a Cellar record (R305, Table 10-6); DATA follows one field after another and is filled with zeros. -/
def cellarBytes (c : CellarRec) : List Nat :=
  withCrc (leBytes 1 c.kind ++ leBytes 1 c.flags ++ leBytes 2 c.unit ++ leBytes 4 c.seq ++ leBytes 8 c.time ++ leBytes 4 c.boot
    ++ leBytes 1 c.ctx ++ leBytes 1 c.st ++ leBytes 2 c.count ++ leBytes 8 c.step
    ++ zeroFill 24 ((c.data.map (fun e => leBytes e.1 e.2)).flatten))

/-- The 32,768 bytes of a copy of the retirement record (R308, Table 10-9); what a record does not list is as in a new part. -/
def retirementBytes (r : Retirement) : List Nat :=
  let cores := (List.range 10560).map (fun k => leBytes 2 (storeGet (newCore k) r.cores k))
  let remap := (List.range 10240).map (fun n => storeGet (n % 64 + 128) r.remap n)
  withCrc (zeroFill 64 (leBytes 4 r.generation ++ leBytes 4 r.boot ++ leBytes 8 r.time) ++ cores.flatten
    ++ (List.range 160).map (fun h => storeGet 0 r.hubs h) ++ remap ++ (List.range 384).map (fun c => storeGet 0 r.channels c)
    ++ zeroFill 792 [r.lead % 4 + 4 * (r.shadow % 4)])

/-- An entry of the repair list: channel, row and time (Table 10-8). -/
def repairBytes (e : Nat × Nat × Nat) : List Nat := zeroFill 16 (leBytes 2 e.1 ++ leBytes 4 e.2.1 ++ leBytes 8 e.2.2)

/-- An entry of the reset and low-power log (Table 15-12). -/
def logBytes (e : LogEntry) : List Nat :=
  let b := leBytes 1 e.kind ++ leBytes 1 e.detail ++ leBytes 2 e.unit ++ leBytes 4 e.boot ++ leBytes 8 e.time ++ leBytes 8 e.energy
    ++ leBytes 4 e.duration
  b ++ leBytes 4 (crc32c b)

/-- The 4 KiB of a copy of the selection record (R423, Table 15-2). -/
def selectionBytes (r : Selection) : List Nat :=
  withCrc (zeroFill 0xFF8 (leBytes 4 0x4C455342 ++ leBytes 4 r.generation ++ leBytes 1 r.preferred ++ leBytes 1 r.stateA
    ++ leBytes 1 r.stateB ++ leBytes 1 r.tries ++ leBytes 4 r.minFw ++ leBytes 4 r.minBp ++ leBytes 1 r.rootKey))

end Sys2Proof.Machine
end

