-- ==== Sys2Proof/Machine/Resets.lean ====
section
/-! DEFINITION. What the wings lose when their supplies or their clocks go, what is restored (R308, R443, R444), and
the start of a warm reset (R434, R435). -/

namespace Sys2Proof.Machine

/-- Fields of hub, wing and channel blocks that come back after the wings were reset, from the shadow and the runtime's
records in HBM (R443), and the sensors' readings, which are taken anew. An active bank is one of them: Tables 1-5 and 2-13 say
that the runtime restores it. DESIGN CHOICE (log 64): it is the bank from before, since neither the retirement record nor any
other record of the spec holds it; generations are not restored, so that each reads its Reset value 0x0001 (R5). -/
def restoredFlds : List Fld :=
  [.HUB_REMAP_CTRL_ACTIVE_BANK, .WING_TT_CTRL_ACTIVE_BANK, .WING_TT_CTRL_HOT_REFRESH, .HUB_TT_CTRL_ACTIVE_BANK,
   .VEC_COEF_CTRL_ACTIVE_BANK, .VEC_COEF_TAG_ACTIVE_TAG, .VEC_COEF_TAG_INACTIVE_TAG, .LARDER_POOL_BASE, .LARDER_POOL_LIMIT, .LARDER_PARK_BASE, .LARDER_PARK_LIMIT,
   .PANNIER_BANK0_BASE, .PANNIER_BANK1_BASE, .PANNIER_STORE_BASE, .PANNIER_STORE_LIMIT, .TRAIN_WS_BASE,
   .TRAIN_WS_LIMIT, .MEM_PANTRY_MODE_CACHE_MIB, .HBM_WEIGHT_OFF, .HBM_WEIGHT_ROWS, .HBM_WEIGHT_CHMASK,
   .HBM_WEIGHT_SPARE, .HBM_REFETCH_PEER, .HBM_POISON_COUNT, .HUB_PWR_TRIM_STEPS, .HUB_SWITCH_BASE, .DRL_TEMP, .DRL_STACK_TEMP, .HUB_PWR_TEMP]

/-- The slot table and coefficient banks lose their contents; the runtime's records in HBM hold their images, and the
planner loads them again before the next step (R63, Table 15-11). -/
def loseTables (s : State) : State :=
  updTt s fun t => if t.reloadDue then t else
    { t with ttSaved := t.ttBanks, coefSaved := t.coefBanks, ttBanks := [], coefBanks := [], reloadDue := true }

/-- The wings' registers and tables after an event of a rank: what is not restored takes its reset value. -/
def wingRegs (s : State) (rank : Nat) : State :=
  loseTables (resetRegs (updCore s fun c => { c with sumq := [] }) rank (fun f _ =>
    ((fieldRow f).block == .hub || (fieldRow f).block == .wing || (fieldRow f).block == .chan) && !decide (f ∈ restoredFlds)))

/-- What the runtime restores from the retirement record (R308): slot states, FENCED, SKIP, READMITS and CLEARED, both remap
banks and the hub states. -/
def restoreRetired (s : State) : State :=
  let r := liveRetirement s
  let s := each r.cores s fun t e =>
    let t := wr (wrb t .HUB_SLOT_STATE_FENCED e.1 (e.2 % 8 == 4)) .HUB_SLOT_STATE_STATE e.1 (e.2 % 8)
    let t := wr (wr t .INTEG_CORE_INFO_SKIP e.1 (e.2 / 8 % 4)) .INTEG_CORE_INFO_READMITS e.1 (e.2 / 32 % 4)
    wr t .INTEG_CORE_INFO_CLEARED e.1 (e.2 / 128 % 2)
  let s := each r.remap s fun t e => setBankEntry (setBankEntry t 0 e.1 e.2) 1 e.1 e.2
  let s := each r.hubs s fun t e => wrb (wr t .INTEG_HUB_STATE e.1 (e.2 % 4)) .INTEG_HUB_OUT e.1 (e.2 % 4 == 2 || 4 ≤ e.2)
  each ((r.remap.map (fun e => e.1 / 64)).eraseDups) s fun t h =>
    wr t .INTEG_HUB_SERVING h ((List.range 64).filter (fun l => (physOf t h l).isSome)).length

/-- The channel states that the retirement record holds; DEGRADED comes back as RETIRED (R308). -/
def recordedChan (s : State) (c : Nat) : Nat :=
  let v := storeGet 0 (liveRetirement s).channels c
  if v = 1 then 2 else v

/-- The planner loads both banks of every slot table, and the coefficient banks are restored (R63, Table 15-11). DESIGN CHOICE
(log 64): the images are those from before, so that an inactive bank that held one holds a load that a flip may take. -/
def reloadTables (s : State) : State :=
  if s.tt.reloadDue then
    let s := updTt s fun t => { t with
      ttBanks := t.ttSaved, coefBanks := t.coefSaved, ttSaved := [], coefSaved := [], reloadDue := false }
    each (List.range 164) s fun t k =>
      let wing := if k < 160 then k / 40 else k - 160
      if (storeGet [] t.tt.ttBanks (k * 2 + (1 - rd t .WING_TT_CTRL_ACTIVE_BANK wing))).isEmpty then t
      else
        let t := updTt t fun x => { x with ttLoaded := storePut false x.ttLoaded k true }
        if k < 160 then wr t .HUB_TT_CTRL_LOAD_DONE k 1 else t
  else s

/-- The wings run again after a warm reset, a STOW exit or a KICKSTAND exit: everything that R308 names is restored, and the
tables are loaded. -/
def restoreWings (s : State) : State :=
  reloadTables (each (List.range 384) (restoreRetired s) fun t c => wr t .HBM_CH_STATE_STATE c (recordedChan s c))

/-- The engines' working state and the control cores' and stream units' caches are lost (Table 15-11); the summary queues are
hub registers and are not among them (R158). -/
def loseEngines (s : State) : State :=
  let s := updMem s fun m => { m with lr := [], cacheTags := [], redLines := [] }
  let s := updPann s fun p => { p with caches := [] }
  updCore s fun c => { c with queues := [], arrays := [], wheels := [], sumWait := [], tasks := [], vregs := [], reds := [], held := [], inject := [], waiting := [], semCards := [], halted := [], beat := [] }

/-- Local stores and Pantries are lost: their bytes, owners and valid bits (Table 15-11). -/
def loseOnChip (s : State) : State :=
  updMem s fun m => { m with
    bytes := storeKeep (fun a => !onChip a) m.bytes, valid := storeKeep (fun l => !onChip (l * 128)) m.valid
    granules := storeKeep (fun g => !onChip (g * 4096)) m.granules }

/-- Nothing runs and nothing is planned. -/
def dropPlan (s : State) : State :=
  let s := wr (wr s .CTX_WINDOW_OPEN 0 0) .CTX_WINDOW_CTX 0 0
  updTt s fun t => { t with plan := [], frozen := [], run := { t.run with running := false, boundaryAt := none, causes := 0, carried := 0, alertSeen := false } }

/-- A park whose image was not written leaves its session RESIDENT; an unpark that did not end leaves it PARKED. -/
def dropParks (s : State) : State :=
  updLard s fun l => { l with roots := l.roots.map (fun e =>
    if e.2.st = 2 then (e.1, { e.2 with st := 1 }) else if e.2.st = 4 then (e.1, { e.2 with st := 3 }) else e) }

/-- A DEBUG record (R460); where R460 does not say what a field of its event holds, it is free. -/
def debugRecord (s : State) (event hub : Nat) (byte value : Option Nat) : State :=
  let (b, s) := match byte with | some x => (x, s) | none => takeFree s 8
  let (v, s) := match value with | some x => (x, s) | none => takeFree s 64
  report s 0x28 hub [(1, event, false), (1, b, false), (2, hub, false), (8, v, false)]

/-- The wings restart (R434, R435): intake stops, the wings and their on-chip contents are lost, HBM is kept. Triggers, as
Table 15-7 lists them: 1 RESET_CMD, 2 the PLDM effecter, 3 a PF reset, 4 the return of a tripped wing, 5 the failure of
both lead and shadow. In a low-power state the exit comes first (R442). -/
def warmReset (s : State) (trigger : Nat) : State :=
  if s.boot.warm.isSome then s
  else if 2 ≤ rd s .LP_STATUS_STATE then startExit (updBoot s fun b => { b with heldReset := some trigger }) 3
  else
    let s := updServe s fun v => { v with intakeStopped := true }
    let s := wr (wr (wr s .RESET_STATUS_BUSY 0 1) .RESET_STATUS_LAST_KIND 0 2) .BOOT_STATUS_PHASE 0 3
    let s := loseOnChip (loseEngines (wingRegs (dropParks (dropPlan s)) (keptRank .warm)))
    let s := updDbg s fun d => { d with trails := storeKeep (fun k => k == vestTrail) d.trails, trailNext := storeKeep (fun k => k == vestTrail) d.trailNext, prof := [], profCount := [], armed := [], haltAt := [], tests := [], dmi := [], dumps := d.dumps.filter (fun e => e.1 == 160) }
    let s := updPwr s fun p => { p with duty := [], high := [], low := [], charge := [], downReq := [] }
    updBoot (settleDebug s) fun b => { b with warm := some (trigger, s.now), hubResets := [] }

/-- The lead fails and its shadow takes over, or both have failed and the wings restart (R302, R434). -/
def leadFails (s : State) : State :=
  if rdb s .INTEG_HUB_OUT (rd s .INTEG_LEAD_SHADOW_WING * 40) then warmReset s 5 else takeover s

end Sys2Proof.Machine
end

