-- ==== Sys2Proof/Machine/Images.lean ====
section
/-! DEFINITION. Slot table images (Table 2-6), their checks, and the transfers between wings that the active tables carry (R13,
R40 to R43, R47, R48). -/

namespace Sys2Proof.Machine

/-! Slot table images (Table 2-6) -/

/-- Numbers of an image held as bytes. -/
def imgNum (l : List Nat) (o n : Nat) : Nat := leNum ((l.drop o).take n)
def imgByte (l : List Nat) (o : Nat) : Nat := ((l.drop o).head?).getD 0

def imgPatterns (l : List Nat) : Nat := imgByte l 4
def imgSlots (l : List Nat) : Nat := imgNum l 6 2
/-- Start and length of pattern i. -/
def imgPattern (l : List Nat) (i : Nat) : Nat × Nat :=
  let e := imgNum l (0x40 + 4 * i) 4
  (bitsOf e 9 0, bitsOf e 24 16)

/-- The patterns in use. -/
def imgUsed (l : List Nat) : List (Nat × Nat) := ((List.range (imgPatterns l)).map (imgPattern l)).filter (fun p => p.2 != 0)

/-- Counts, lengths and starts in range (Table 2-14, reason 2). -/
def headerRange (l : List Nat) : Bool :=
  decide (1 ≤ imgPatterns l ∧ imgPatterns l ≤ 64) && decide (8 ≤ imgSlots l ∧ imgSlots l ≤ 1024 ∧ imgSlots l % 8 = 0)
    && (imgUsed l).all (fun p => decide (p.2 ≤ 256 ∧ p.1 + p.2 ≤ imgSlots l))

/-- Whether the reserved bits of a header and its directory are zero; `five` is what byte 5 may hold. -/
def headerResv (l : List Nat) (five : Nat) : Bool :=
  decide (imgByte l 5 ≤ five) && ((l.drop 8).take 56).all (· == 0)
    && (List.range 64).all (fun i => let e := imgNum l (0x40 + 4 * i) 4; bitsOf e 15 10 == 0 && bitsOf e 31 25 == 0)

/-- The die-to-die edges of a wing (Table 2-5). -/
inductive Edge where
  | vestibule | horizontal | vertical
  deriving DecidableEq, Repr

/-- The hubs whose routers hold an edge. -/
def edgeHubs : Edge → List Nat
  | .vestibule => [30, 31, 38, 39]
  | .horizontal => [7, 15, 23, 31]
  | .vertical => [35, 36, 37, 38]

/-- The port of hub h's router for an edge it holds, 6 EDGE_A or 7 EDGE_B: of two edges the Vestibule's is EDGE_A (R40).
DESIGN CHOICE (log 66): a router with one edge has it at EDGE_A. -/
def edgePort (h : Nat) (e : Edge) : Nat := if e ≠ .vestibule ∧ h ∈ edgeHubs .vestibule then 7 else 6

/-- The ports of hub h's router: 0 N, 1 E, 2 S, 3 W, 4 LOCAL, 5 MEM, 6 EDGE_A, 7 EDGE_B. The mesh has 8 columns and
5 rows; the edge ports are those of Table 2-5 (R40). DESIGN CHOICE (log 66): a router with one edge has it at EDGE_A. -/
def hasPort (h p : Nat) : Bool :=
  let vest := decide (h ∈ edgeHubs .vestibule)
  let nb := decide (h ∈ edgeHubs .horizontal) || decide (h ∈ edgeHubs .vertical)
  match p with
  | 0 => decide (8 ≤ h)
  | 1 => decide (h % 8 ≠ 7)
  | 2 => decide (h < 32)
  | 3 => decide (h % 8 ≠ 0)
  | 4 | 5 => true
  | 6 => vest || nb
  | 7 => vest && nb
  | _ => false

/-- The port of output field i of a route entry and of source code c (R42). -/
def outPort (i : Nat) : Nat := if i < 6 then i else if i < 10 then 6 else 7
def srcPort (c : Nat) : Nat := if c < 6 then c - 1 else if c < 10 then 6 else if c < 14 then 7 else 5

/-- A route entry names only ports that hub h's router has (R42). -/
def routeOk (h e : Nat) : Bool :=
  (List.range 14).all fun i =>
    let c := e / 16 ^ i % 16
    c == 0 || (c != 15 && hasPort h (outPort i) && hasPort h (srcPort c))

/-- No core is used twice in one direction of a crossbar record (R43). -/
def crossbarOk (r : List Nat) : Bool :=
  let cores := fun (l : List Nat) => (l.filter (fun b => 128 ≤ b)).map (· % 64)
  let out := cores (r.take 16 ++ (r.drop 33).take 1)
  let inn := cores ((r.drop 16).take 17)
  out.eraseDups.length == out.length && inn.eraseDups.length == inn.length

/-- Reserved bits of a crossbar record. -/
def crossbarResv (r : List Nat) : Bool := (r.take 34).all (fun b => !bitAt b 6) && (r.drop 34).all (· == 0)

/-- The reason of Table 2-14 with which a hub image fails, 0 if it loads. -/
def hubImageReason (h : Nat) (l : List Nat) : Nat :=
  let n := imgSlots l
  let routes := (List.range n).map (fun i => imgNum l (0x140 + 8 * i) 8)
  let xbars := (List.range n).map (fun i => (l.drop (0x140 + 8 * n + 64 * i)).take 64)
  if imgNum l 0 4 ≠ 0x4C485354 then 1
  else if !headerRange l || l.length < 0x140 + 72 * n then 2
  else if !routes.all (routeOk h) then 4
  else if !xbars.all crossbarOk then 5
  else if !headerResv l 0 || routes.any (fun e => 2 ^ 56 ≤ e) || !xbars.all crossbarResv then 6
  else 0

/-- The segment list of a wing image. -/
def imgSegments (l : List Nat) : List Nat := (List.range (imgNum l 0x140 4)).map (fun i => imgNum l (0x148 + 8 * i) 8)

/-- The HBM window entries of a channel. -/
def imgWindow (l : List Nat) (c : Nat) : List Nat := (l.drop (0x8148 + c * imgSlots l)).take (imgSlots l)

/-- The reason with which a wing image fails to load, 0 if it loads. -/
def wingImageReason (l : List Nat) : Nat :=
  if imgNum l 0 4 ≠ 0x4C485354 then 1
  else if !headerRange l || !decide (1 ≤ imgNum l 0x140 4 ∧ imgNum l 0x140 4 ≤ 4096) || l.length < 0x8148 + 96 * imgSlots l then 2
  else if !headerResv l 1
      || (imgSegments l).any (fun e => bitsOf e 23 22 != 0 || bitsOf e 31 30 != 0 || bitsOf e 63 54 != 0)
      || ((l.drop 0x8148).take (96 * imgSlots l)).any (fun b => 5 ≤ b) then 6
  else 0

/-- The longest run without a REFRESH entry in a pattern counted cyclically; the whole pattern and more where it
has none. -/
def refreshGap (w : List Nat) : Nat :=
  if 3 ∈ w then ((w ++ w).foldl (fun (a : Nat × Nat) k => if k = 3 then (0, a.2) else (a.1 + 1, max a.2 (a.1 + 1))) (0, 0)).2
  else 1024

/-- A READ and a WRITE slot of a channel have a TURN slot between them (R47), the pattern counted cyclically. -/
def turnsOk (w : List Nat) : Bool :=
  ((w ++ w).foldl (fun (a : Nat × Bool) k =>
    if k = 4 then (0, a.2)
    else if k = 1 ∨ k = 2 then (k, a.2 && (a.1 == 0 || a.1 == k))
    else a) (0, true)).2

/-- The slots of the patterns in use on a channel. -/
def channelPatterns (l : List Nat) (c : Nat) : List (List Nat) :=
  (imgUsed l).map (fun p => ((imgWindow l c).drop p.1).take p.2)

/-- The first channel that breaks R48 or R47, with reason 7 or 8. -/
def windowFault (l : List Nat) : Option (Nat × Nat) :=
  let lim := if imgByte l 5 % 2 = 1 then 16 else 32
  (List.range 96).findSome? fun c =>
    let ps := channelPatterns l c
    if ps.any (fun w => decide (lim ≤ refreshGap w)) then some (c, 7)
    else if ps.any (fun w => !turnsOk w) then some (c, 8) else none

/-- Keys of table banks: a hub's tables, or the wing's own. -/
def wingTable (w : Nat) : Nat := 160 + w
def ttBank (s : State) (table bank : Nat) : List Nat := storeGet [] s.tt.ttBanks (table * 2 + bank)

/-! What the active tables carry between wings -/

/-- The route entries of the active patterns of a hub's table. -/
def activeRoutes (s : State) (hub : Nat) : List Nat :=
  let img := ttBank s hub (rd s .WING_TT_CTRL_ACTIVE_BANK (hub / 40))
  (imgUsed img).flatMap (fun p => (List.range p.2).map (fun i => imgNum img (0x140 + 8 * (p.1 + i)) 8))

/-- Whether the plan assigns a slot that leaves a wing over an edge. -/
def sendsOver (s : State) (wing : Nat) (e : Edge) : Bool :=
  (edgeHubs e).any fun h => (activeRoutes s (wing * 40 + h)).any fun r =>
    (List.range 14).any (fun i => outPort i == edgePort h e && r / 16 ^ i % 16 != 0)

/-- Whether the plan assigns a slot that enters a wing over an edge. -/
def takesFrom (s : State) (wing : Nat) (e : Edge) : Bool :=
  (edgeHubs e).any fun h => (activeRoutes s (wing * 40 + h)).any fun r =>
    (List.range 14).any (fun i => let c := r / 16 ^ i % 16; c != 0 && srcPort c == edgePort h e)

/-- The edge over which two wings exchange traffic: W0–W1 and W2–W3 face each other horizontally, W1–W2 and W0–W3 vertically,
and the diagonal pairs cross the Vestibule (R13). -/
def edgeBetween (a b : Nat) : Edge :=
  if (a + b) % 2 = 0 then .vestibule else if min a b % 2 = 0 ∧ max a b = min a b + 1 then .horizontal else .vertical

/-- Whether traffic from wing a to wing b is sent: the plan assigns slots on both wings' edges (R13). -/
def carried (s : State) (a b : Nat) : Bool :=
  a == b || (sendsOver s a (edgeBetween a b) && takesFrom s b (edgeBetween a b))

/-- The wing that holds a device address, if one does. -/
def wingOf (a : Nat) : Option Nat :=
  if isHbm a then some (hbmWing a) else if onChip a then some (granuleHub (a / 4096) / 40) else none

end Sys2Proof.Machine
end

