-- ==== Sys2Proof/Machine/Draw.lean ====
section
/-! DEFINITION. The counter-based generator of R202 and R241, the draw of a token from a merged candidate list (R146,
R202), and the FP32 and FP64 arithmetic of the control core's scalars (R243). -/

namespace Sys2Proof.Machine

/-! Philox4x32-10 -/

/-- One round: counter words and key words. -/
def philoxRound (c : Nat × Nat × Nat × Nat) (k : Nat × Nat) : Nat × Nat × Nat × Nat :=
  let p0 := 0xD2511F53 * c.1
  let p1 := 0xCD9E8D57 * c.2.2.1
  ((p1 / 2 ^ 32 ^^^ c.2.1 ^^^ k.1), p1 % 2 ^ 32, (p0 / 2 ^ 32 ^^^ c.2.2.2 ^^^ k.2), p0 % 2 ^ 32)

/-- n rounds; the key advances between rounds. -/
def philoxLoop : Nat → (Nat × Nat × Nat × Nat) → (Nat × Nat) → Nat × Nat × Nat × Nat
  | 0, c, _ => c
  | n + 1, c, k => philoxLoop n (philoxRound c k) ((k.1 + 0x9E3779B9) % 2 ^ 32, (k.2 + 0xBB67AE85) % 2 ^ 32)

/-- The first output word for a 64-bit key and a counter. -/
def philoxWord (key : Nat) (c : Nat × Nat × Nat × Nat) : Nat :=
  (philoxLoop 10 (c.1 % 2 ^ 32, c.2.1 % 2 ^ 32, c.2.2.1 % 2 ^ 32, c.2.2.2 % 2 ^ 32) (key % 2 ^ 32, key / 2 ^ 32 % 2 ^ 32)).1

/-- The 24 bits of u: u = uBits × 2^−24 (R202). -/
def uBits (w : Nat) : Nat := w / 2 ^ 8

/-- u of token j of a request as an FP32 pattern; it is exact. -/
def tokenU (seed j : Nat) : Nat := roundDyad fFP32 true ⟨uBits (philoxWord seed (j, 0, 0, 0)), -24⟩

/-! Drawing a token (R146) -/

/-- The shortest prefix of entries whose W reaches a bound; all of them, and true for a truncated nucleus, if none
does. -/
def nucleus (bound : Nat) : List (Nat × Nat × Nat) → List (Nat × Nat × Nat) → List (Nat × Nat × Nat) × Bool
  | done, [] => (done, true)
  | done, e :: r => if f32Le bound e.2.2 then (done ++ [e], false) else nucleus bound (done ++ [e]) r

/-- Effective top_k and top_p of a request (R202). −0.0 is 0 too. -/
def topK (r : GenerateRec) : Nat := if r.topK = 0 then 64 else min r.topK 64
def topP (r : GenerateRec) : Nat := if r.topP % 2 ^ 31 = 0 then 0x3F800000 else r.topP

/-- The token drawn for token number j of a request, and whether the nucleus was truncated; none from an empty
list. -/
def drawToken (r : GenerateRec) (j : Nat) (l : CandList) : Option Nat × Bool :=
  if bitAt r.flags 1 then (l.entries.head?.map (·.1), false)
  else
    let kept := l.entries.take (topK r)
    let (kept, trunc) := nucleus (f32Mul (topP r) l.l) [] kept
    match kept.getLast? with
    | none => (none, false)
    | some last =>
      let bound := f32Mul (tokenU r.seed j) last.2.2
      (((kept.find? (fun e => f32Lt bound e.2.2)).getD last).1, trunc)

/-! Scalars -/

def fFP64 : FFmt := ⟨11, 52, 1023, 0x7FEFFFFFFFFFFFFF, some 0x7FF0000000000000, some 0x7FF8000000000000⟩

/-- Quotient of two patterns of a format, rounded once; a zero divisor gives an infinity, or NaN for 0 ÷ 0. -/
def divF (f : FFmt) (a b : Nat) : Nat :=
  match decodeF f a, decodeF f b with
  | .fin p m e, .fin q n g =>
    if n = 0 then (if m = 0 then nanOf f else infOf f true (p != q)) else roundF f true (p != q) m n (e - g)
  | .nan, _ => nanOf f
  | _, .nan => nanOf f
  | .inf p, .fin q _ _ => infOf f true (p != q)
  | .inf _, .inf _ => nanOf f
  | .fin p _ _, .inf q => b2n (p != q) * 2 ^ (f.eb + f.mb)

/-- floor of the square root, bit by bit from 2^80. -/
def isqrt (n : Nat) : Nat :=
  ((List.range 81).map (fun i => 80 - i)).foldl (fun r b => if (r + 2 ^ b) * (r + 2 ^ b) ≤ n then r + 2 ^ b else r) 0

/-- FP32 square root, rounded once to nearest even. -/
def f32Sqrt (x : Nat) : Nat :=
  match decodeF fFP32 x with
  | .nan => nanOf fFP32
  | .inf false => infOf fFP32 true false
  | .inf true => nanOf fFP32
  | .fin neg m e =>
    if m = 0 then x
    else if neg then nanOf fFP32
    else
      let odd := e % 2
      let n := m * 2 ^ (100 + odd.toNat)
      let r := isqrt n
      roundF fFP32 true false (2 * r + b2n (r * r != n)) 1 ((e - odd - 100) / 2 - 1)

/-- A number of one format rounded into another. -/
def convF (g f : FFmt) (x : Nat) : Nat := toFmt f (decodeF g x)

end Sys2Proof.Machine
end

