-- ==== Sys2Proof/Machine/Engine.lean ====
section
/-! DEFINITION. The life of a fused command on a core (R11, R23, R97 to R99, R372): its place in the queue, hub
semaphores (R373, R374), credits (R346), its start, faults and holds of its stages (R112 to R115, R152,
R287), its completion, and its command record (R450, R451). -/

namespace Sys2Proof.Machine

/-! Completion -/

/-- A command completes (R98): it leaves its queue, its semaphores and credits are released, its ranges are no longer retained,
and the commands that wait behind it start; the last of a locked segment's brings the module to its barrier. -/
def completeCmd (s : State) (k : Nat) (r : RunCmd) : State :=
  let s := setQueueAt s k ((queueAt s k).filter (fun x => x.num != r.num))
  let s := updCore s fun c => { c with waiting := c.waiting.filter (fun w => !(w.core == k && w.num == r.num)) }
  let s := showBusy s k
  let s := (semsAt r.q false).foldl (releaseSem k r) s
  let s := returnDrawn s r.q
  let s := contribute s 0 (r.stats.getD 0 0)
  let s := trail s k 0x02 r.q.ctx r.q.index (r.stats.getD 0 0)
  pump (leaveSegment (profile s k r false) r.q) (k / 66)

/-- Stage i of a command has written its last output; a stage that takes its rows is then in progress. -/
def stageDone (s : State) (k n i : Nat) : State :=
  match cmdAt s k n with
  | some r =>
    let r := { r with done := r.done.set i true }
    let s := showBusy (noteStarts (setCmd s k r) k n) k
    if r.done.all id then completeCmd s k r else s
  | none => s

/-! What a stage may run -/

/-- The engines that a stage occupies (R98, R128). -/
def engines (st : Stage) : List Nat := stageKind st :: alsoUses st

/-- Whether a stage of the commands before one in a queue still occupies an engine that a stage needs. -/
def engineTaken (q : List RunCmd) (n : Nat) (st : Stage) : Bool :=
  (q.takeWhile (fun x => x.num != n)).any fun x =>
    x.q.cmd.stages.zipIdx.any fun e => !x.done.getD e.2 true && (engines e.1).any (fun g => decide (g ∈ engines st))

/-- The stage that an engine event acts on: the first command in queue order with a stage of the kind in progress on a free
engine, the stage's place, and the stage, while nothing on the core is held (R98, R99, R115). -/
def stageOf (s : State) (k : Nat) (p : Stage → Bool) : Option (RunCmd × Nat × Stage) :=
  if (storeFind s.core.held k).isSome then none
  else (stagesOn s k).find? fun e =>
    p e.2.2 && decide (e.1.start ≤ s.now) && !engineTaken (queueAt s k) e.1.num e.2.2

/-- Change the command of a number in a core's queue. -/
def updCmd (s : State) (k n : Nat) (f : RunCmd → RunCmd) : State :=
  match cmdAt s k n with
  | some r => setCmd s k (f r)
  | none => s

/-- Rows that a stage hands over. -/
def handOver (s : State) (k n : Nat) (h : HandOver) : State := updCmd s k n fun r => { r with hand := h }

/-- What a run adds to the counts of a command's record. -/
def addStats (s : State) (k n rows replay : Nat) (run : StageRun) (replayed held : Bool) : State :=
  let add := [run.cycles, rows, run.feed, run.drainBub, run.limit, replay, run.flits]
  updCmd s k n fun r => { r with
    stats := (r.stats.zip add).map (fun e => e.1 + e.2), replayed := r.replayed || replayed, wasHeld := r.wasHeld || held }

/-! The replay reserve (R57) -/

/-- Replays and waits of the running step take reserve as they arise. -/
def useReserve (s : State) (ns : Nat) : State :=
  if s.tt.run.running then updTt s fun t => { t with run := { t.run with reserveUsed := t.run.reserveUsed + ns } } else s

/-- Counters of a run that are not an engine's own: flits that missed their slots (R46) and the reserve their waits took (R57), bus and memory words (R143, R151,
R262), module counts. -/
def runCounts (s : State) (k : Nat) (run : StageRun) : State :=
  let s := contribute (contribute s 3 run.flits) 7 run.corrected
  let s := useReserve (inc s .HUB_TT_SLIP (k / 66) run.slips) run.waited
  let s := incX s .MEM_ECC_CORRECTED (k / 66) run.corrected
  incX s .VEC_COEF_CORRECTED (k / 66) run.coefs

/-- The time of cycles on a core at its wing's gear, in whole ns. -/
def coreNs (s : State) (k cycles : Nat) : Nat := ceilDiv (cycles * 1000) (gearMhz (rd s .DRL_GEAR_CURRENT (k / 66 / 40)))

/-! Waits on retained ranges (R102) -/

/-- Whether a stage's write waits on a retained range. -/
def isWaiting (s : State) (k n i : Nat) : Bool := s.core.waiting.any (fun w => w.core == k && w.num == n && w.stage == i)

/-- A stage whose write meets a retained range waits. -/
def waitRetained (s : State) (k n i : Nat) : State :=
  updCore (wr s .MAT_CORE_STATUS_RETAIN_WAIT k 1) fun c => { c with waiting := c.waiting ++ [⟨k, n, i, s.now⟩] }

/-! Faults of checkpoints and chunks -/

/-- The engine number of Table 10-7 of a stage. -/
def engineOf (st : Stage) : Nat := match st with | .matrix _ => 1 | .freewheel _ => 2 | .vector _ => 3 | _ => 4

/-- A CHECK_FAIL or RESCUE record; `sum` where a checksum comparison failed, else the residue code found the fault. -/
def checkRecord (s : State) (kind k : Nat) (r : RunCmd) (engine seg : Nat) (sum inj : Bool) (result : Nat) : State :=
  report s kind (physIndex (k / 66) (k % 66))
    [(4, r.q.card.cardId, true), (4, r.q.index, true), (4, seg, false), (1, engine, false),
     (1, if sum then 1 else 2, false), (1, result, false)] (some r.q.ctx) 0 inj

/-- Counters of one fault: of a checkpoint or drain on the matrix side (`sum`: a comparison failed; `f.residue`: a residue was
latched), of a chunk on the vector side, where an uncorrectable table entry counts with the SFU (R151); `cyc` is what the
replay costs. A second failure counts again. -/
def faultCounts (s : State) (k : Nat) (st : Stage) (f : StageFault) (sum : Bool) (cyc : Nat) : State :=
  let n := if f.replayOk then 1 else 2
  let s := contribute s 6 n
  if stageKind st ≤ 2 then
    let s := incX s .MAT_MISMATCH_RESIDUE k (if f.residue then n else 0)
    let s := incX s .MAT_MISMATCH_CHECKSUM k (if sum then n else 0)
    let s := if f.drain then s else incX s .MAT_HUB_MISMATCH (k / 66) n
    incX s .MAT_REPLAY_CYCLES k cyc
  else
    let s := if stageKind st = 3 ∧ f.table = false then incX s .VEC_RESIDUE_VECTOR k n else incX s .VEC_RESIDUE_SFU_RED k n
    incX (incX s .VEC_HUB_RESIDUE (k / 66) n) .VEC_REPLAY_CYCLES k cyc

/-- An engine is held (R115, R152): its status shows it, the hub's trail freezes, and the core is SUSPECT. -/
def holdEngine (s : State) (k : Nat) (r : RunCmd) (i : Nat) (st : Stage) (f : StageFault) (row : RowOut) : State :=
  let s := if stageKind st ≤ 2 then wr (wr s .MAT_CORE_STATUS_HELD k 1) .MAT_CORE_STATUS_TILE_FAIL k 1
    else wr (wr s .VEC_CORE_STATUS_HELD k 1) .VEC_CORE_STATUS_CHUNK_FAIL k 1
  let h : Held := ⟨r.num, engineOf st, i, f.tile, f.segment, f.drain, f.residue, f.injected, row⟩
  let s := updCore s fun c => { c with held := storeInsert c.held k h }
  freezeHub (trail s k 0x05 r.q.ctx f.segment 0) (k / 66) 1

/-- One fault of a stage: counted, reported, an event of the core unless injected, and its replay takes reserve. A fault whose
replay fails holds the engine (R115, R152); on a core that was SUSPECT before it, the event retires the core and the task ends
FAILED_ARITH (R288). DESIGN CHOICE (log 72): a row that the drain converts again with a fault holds the engine in the same
way, where R114 is silent. -/
def stageFault (s : State) (k : Nat) (r : RunCmd) (i : Nat) (st : Stage) (f : StageFault) (sum : Bool) (cyc : Nat) (row : RowOut) : State :=
  let was := coreState s k
  let engine := if f.drain then 5 else engineOf st
  let s := useReserve (faultCounts s k st f sum cyc) (coreNs s k cyc)
  let s := trail s k 0x03 r.q.ctx f.segment (engine + 256 * (if sum then 1 else 2))
  let s := checkRecord s 0x01 k r engine f.segment sum f.injected (if f.replayOk then 1 else 2)
  if f.replayOk then trail (if f.injected then s else coreEvent s k false) k 0x04 r.q.ctx f.segment cyc
  else
    let s := holdEngine s k r i st f row
    let s := if f.injected then s else coreEvent s k true
    if was = 3 ∧ f.injected = false then endTask s r.q.task r.q.card.cardId 0x22 0
    else if f.injected = false ∧ coreState s k = 1 then markSuspect s k 0x02
    else s

/-- An uncorrectable word that a stage read (R262): of the local store, an event of the core; of the Pantry, one of
the hub. The task ends FAILED_MEMORY. -/
def uncorrectable (s : State) (k : Nat) (r : RunCmd) (which addr : Nat) : State :=
  let h := k / 66
  let f : Fld := if which = 1 then .MEM_STATUS_LS_UNCORR else .MEM_STATUS_PANTRY_UNCORR
  let s := contribute s 8 1
  let s := report s 0x07 (if which = 1 then physIndex h (k % 66) else h)
    [(1, which, false), (1, 2, false), (8, addr, true)] (some r.q.ctx)
  let s := if which = 1 then lsUncorrectable s k else pantryUncorrectable s h
  let s := wr (wr (wr s f h 1) .MEM_FAULT_INFO_SLOT h r.q.slot) .MEM_FAULT_INFO_CTX h r.q.ctx
  let s := hubError s h (fieldRow f).off (2 ^ (fieldRow f).lo) r.q.slot (some r.q.ctx)
  endTask s r.q.task r.q.card.cardId 0x20 0

/-! Live rows -/

/-- The live row count that a stage reads, clamped to m (R103). -/
def liveRows (s : State) (k : Nat) (en : Bool) (off m : Nat) : Nat :=
  if en then min m (readLe s (lsAddr (k / 66) (k % 66) off) 4) else m

/-- A live count above m sets LIVE_CLAMP and reports a hub error (R103). -/
def liveClamp (s : State) (k : Nat) (r : RunCmd) (en : Bool) (off m : Nat) : State :=
  if en && decide (m < readLe s (lsAddr (k / 66) (k % 66) off) 4) then
    hubError (wr s .MAT_CORE_STATUS_LIVE_CLAMP k 1) (k / 66) 0x804 8 r.q.slot (some r.q.ctx)
  else s

end Sys2Proof.Machine
end

