-- ==== Sys2Proof/Machine/Matrix.lean ====
section
/-! DEFINITION. Matrix and Freewheel stages (R91 to R120): the products of a tile group by group (R77, R78, R81),
accumulation across commands (R100), the drain (R84 to R87), live rows (R103), checkpoints, replays and
holds (R112 to R115), and injected faults (R120). -/

namespace Sys2Proof.Machine

/-! Operands -/

/-- Element (r, c) of rows of packed elements: bits at off + r × stride, column c (R67). -/
def elemAt (s : State) (base fmt off stride r c : Nat) : Nat :=
  readBits s (base + off + r * stride) (c * elemBits fmt) (elemBits fmt)

/-- The exact value of an element under a scale byte; none for a special factor (R74, R84). -/
def factor (d : OpDesc) (bits : Nat) (scale : Nat) : Option Dyad :=
  match elemNum d.fmt d.kind bits with
  | .fin neg m e =>
    let x := numDyad (.fin neg m e)
    if d.kind = 1 ∨ d.kind = 2 then (scaleDyad d.kind scale).map (dyadMul x) else some x
  | _ => none

/-- The scale byte of element (r, k) of an operand, from the local store (R73). -/
def scaleAt (s : State) (base : Nat) (d : OpDesc) (r k : Nat) : Nat :=
  if d.kind = 1 ∨ d.kind = 2 then readByte s (base + scaleAddr d.dir d.block d.off d.stride r k) else 0

/-- A row of A: the factors along K. -/
def rowOfA (s : State) (base : Nat) (d : OpDesc) (off stride k r : Nat) : List (Option Dyad) :=
  (List.range k).map fun i => factor d (elemAt s base d.fmt off stride r i) (scaleAt s base d r i)

/-- A column of B along K. With TRANSPOSE_B the stored row is N and the stored column is K, and the scale's
indices are the stored ones (R94). -/
def colOfB (s : State) (base : Nat) (d : OpDesc) (off stride k : Nat) (tr : Bool) (n : Nat) : List (Option Dyad) :=
  (List.range k).map fun i =>
    if tr then factor d (elemAt s base d.fmt off stride n i) (scaleAt s base d i n)
    else factor d (elemAt s base d.fmt off stride i n) (scaleAt s base d n i)

/-! Products and accumulation -/

def is16 (f : Nat) : Bool := f == 8 || f == 9

/-- The piece of an element that a pass takes: 0 whole, 1 hi, 2 lo (R81). -/
def piece (fmt p : Nat) (x : Dyad) : Dyad :=
  if p = 0 then x else if p = 1 then (splitElem fmt x).1 else (splitElem fmt x).2

/-- The passes of a pairing, as the pieces of A and B (R82, R94). -/
def passes (a b : Nat) : List (Nat × Nat) :=
  match is16 a, is16 b with
  | false, false => [(0, 0)]
  | true, false => [(1, 0), (2, 0)]
  | false, true => [(0, 1), (0, 2)]
  | true, true => [(1, 1), (1, 2), (2, 1)]

/-- K elements per block: 64 under MP, else 32 (R91). -/
def blockK (a b : OpDesc) : Nat := if pairing a.fmt b.fmt = 1 then 64 else 32

/-- Cut a list into groups of n; `fuel` bounds the number of groups. -/
def groupsOf {α : Type} (n : Nat) : Nat → List α → List (List α)
  | 0, _ => []
  | f + 1, l => if l.isEmpty then [] else l.take n :: groupsOf n f (l.drop n)

/-- A tile as an engine streams it: its operands, the mode, K elements per block (32, or 64 under MP; a Freewheel slice has 32
whatever the pairing, R107), blocks per segment, K, its rows with whether they are live (R103), and its columns, along K. -/
structure Tile where
  a : OpDesc
  b : OpDesc
  ref : Bool
  kb : Nat
  kseg : Nat
  k : Nat
  rows : List (Bool × List (Option Dyad))
  cols : List (List (Option Dyad))
  deriving DecidableEq, Repr

/-- The blocks of a tile in order: every pass sweeps all of K (R94). -/
def tileBlocks (t : Tile) : List ((Nat × Nat) × Nat) :=
  ((passes t.a.fmt t.b.fmt).map (fun p => (List.range (ceilDiv t.k t.kb)).map (fun j => (p, j)))).flatten

def tileSegments (t : Tile) : Nat := ceilDiv (tileBlocks t).length t.kseg

/-- The K elements of block j of a row or column. -/
def blockOf (t : Tile) (j : Nat) (l : List (Option Dyad)) : List (Option Dyad) := (l.drop (j * t.kb)).take t.kb

/-- The weights of a block, column after column (R93). -/
def blockWeights (t : Tile) (j : Nat) : List (List (Option Dyad)) := t.cols.map (blockOf t j)

/-- One group of products into an accumulator, on the tile's path (R77, R78). -/
def addGroup (t : Tile) (c : Acc) (xs ys : List Dyad) : Acc :=
  let ps := (xs.zip ys).map (fun p => dyadMul p.1 p.2)
  if intPath t.a t.b then accGroupInt c (ps.map (·.v)) else accGroup t.ref c ps

/-- The sum of lists of numbers, place by place and exact (R111). -/
def sumPlaces (n : Nat) (ls : List (List Dyad)) : List Dyad :=
  ls.foldl (fun acc l => (acc.zip l).map (fun p => dyadAdd p.1 p.2)) (List.replicate n ⟨0, 0⟩)

/-- The pieces of an operand that a pass takes; a special factor counts as zero beside its mark (R81, R84). -/
def pieces (d : OpDesc) (p : Nat) (l : List (Option Dyad)) : List Dyad := l.map (fun x => piece d.fmt p (x.getD ⟨0, 0⟩))

/-- One block into a bank: each live row's group into the entry of every column, with the checksum column of each array and the
checksum row beside them (R91, R111). Bubbles change nothing (R95). -/
def blockInto (t : Tile) (w : Bank) (blk : (Nat × Nat) × Nat) : Bank :=
  let n := t.cols.length
  let xs := t.rows.map (fun r => (r.1, blockOf t blk.2 r.2))
  let ys := blockWeights t blk.2
  let px := xs.map (fun r => (r.1, pieces t.a blk.1.1 r.2))
  let py := ys.map (pieces t.b blk.1.2)
  let width := min t.kb (t.k - blk.2 * t.kb)
  let entry := fun (e : (Acc × Bool) × Nat) =>
    let x := xs.getD (e.2 / n) (false, [])
    let y := ys.getD (e.2 % n) []
    if x.1 then
      let bad := e.1.2 || (x.2 ++ y).any (·.isNone)
      (if bad then e.1.1 else addGroup t e.1.1 (px.getD (e.2 / n) (false, [])).2 (py.getD (e.2 % n) []), bad)
    else e.1
  let g := ceilDiv n 16
  let colSum := fun (e : Acc × Nat) =>
    let x := px.getD (e.2 / g) (false, [])
    if x.1 then addGroup t e.1 x.2 (sumPlaces width ((py.drop (16 * (e.2 % g))).take 16)) else e.1
  let live := (px.filter (·.1)).map (·.2)
  let rowSum := fun (e : Acc × Nat) => addGroup t e.1 (sumPlaces width live) (py.getD e.2 [])
  ⟨w.accs.zipIdx.map entry, w.colSums.zipIdx.map colSum, w.rowSums.zipIdx.map rowSum⟩

/-- A bank with every entry empty (R92). -/
def emptyBank (t : Tile) : Bank :=
  ⟨List.replicate (t.rows.length * t.cols.length) (accZero, false), List.replicate (t.rows.length * ceilDiv t.cols.length 16) accZero,
   List.replicate t.cols.length accZero⟩

/-- The blocks of a segment. -/
def segBlocks (t : Tile) (seg : Nat) : List ((Nat × Nat) × Nat) := ((tileBlocks t).drop (seg * t.kseg)).take t.kseg

/-- A bank after a segment. -/
def runSegment (t : Tile) (seg : Nat) (w : Bank) : Bank := (segBlocks t seg).foldl (blockInto t) w

/-- The bound a of R88 over the first n blocks of a tile: completed passes in full, the current one with its K so far (R112). -/
def boundAt (t : Tile) (n : Nat) : Nat :=
  let nb := ceilDiv t.k t.kb
  lossyBound (n / nb) t.k t.kb + lossyBound 1 (min t.k (n % nb * t.kb)) t.kb

/-- The entries of array g of a bank. -/
def arrayAccs (n g : Nat) (w : Bank) : List (Acc × Bool) := (w.accs.zipIdx.filter (fun e => e.2 % n / 16 == g)).map (·.1)

/-- The arrays of a tile, as checksum tiles of 16 columns, in which a special factor has entered (R89). -/
def specialArrays (n : Nat) (w : Bank) : List Nat := (List.range (ceilDiv n 16)).filter (fun g => (arrayAccs n g w).any (·.2))

/-- Whether a row or column check of either array fails, where a is the bound of R88 at the checkpoint; an array that is special
is not compared (R88, R89, R112). -/
def checkFails (t : Tile) (a : Nat) (w : Bank) : Bool :=
  let n := t.cols.length
  let g := ceilDiv n 16
  let int := intPath t.a t.b
  let skip := specialArrays n w
  let row := fun (r gg : Nat) => ((w.accs.drop (r * n + 16 * gg)).take (min 16 (n - 16 * gg))).map (·.1)
  let col := fun (c : Nat) => (List.range t.rows.length).map (fun r => (w.accs.getD (r * n + c) (accZero, false)).1)
  w.colSums.zipIdx.any (fun e => decide (e.2 % g ∉ skip) && sumMismatch int t.ref 16 a (row (e.2 / g) (e.2 % g)) e.1)
    || w.rowSums.zipIdx.any (fun e => decide (e.2 / 16 ∉ skip) && sumMismatch int t.ref t.rows.length a (col e.2) e.1)

/-- A bank after an upset of one entry, and whether the residue code sees it: the flipped bits change the entry by an amount that
is not a multiple of 7 (R114). -/
def upset (w : Bank) (entry mask : Nat) : Bank × Bool :=
  match w.accs[entry]? with
  | some c =>
    let d := flipAcc mask c.1
    ({ w with accs := w.accs.set entry (d, c.2) }, (d.a - c.1.a) % 7 != 0)
  | none => (w, false)

/-- The combined tensor scale of two operands (R75). -/
def stageScale (a b : OpDesc) : Option Nat :=
  tensorScale (if a.kind = 3 then some a.tensor else none) (if b.kind = 3 then some b.tensor else none)

/-- The drain of a bank: output patterns, row after row (R84 to R87). DESIGN CHOICE (log 73): R76 speaks of a drain that writes
FP8 with block scales, for which Table 3-8 gives no field; the drain writes none. -/
def drainTile (a b : OpDesc) (o : OutDesc) (cols : Nat) (accs : List (Acc × Bool)) : List (List Nat) :=
  groupsOf cols accs.length (accs.map (fun c => drainElem o.fmt o.ovf c.2 c.1 (stageScale a b)))

/-- Write a row's elements of a format at a column into the local store. -/
def writeRow (s : State) (addr fmt col : Nat) (vals : List Nat) : State :=
  vals.zipIdx.foldl (fun t e => writeBits t addr ((col + e.2) * elemBits fmt) (elemBits fmt) e.1) s

/-- Put a row's elements at a column of a handed-over row. -/
def putCols (row : List Nat) (col : Nat) (vals : List Nat) : List Nat :=
  row.take col ++ vals ++ row.drop (col + vals.length)

/-- What a tile's rows go to: the local store, or the hand-over buffer. -/
def emitTile (s : State) (k n : Nat) (hand : Bool) (o : OutDesc) (off stride row0 col0 : Nat) (out : List (List Nat)) : State :=
  if hand then
    updCmd s k n fun r => { r with hand := { r.hand with rows := r.hand.rows.zipIdx.map fun e =>
      if row0 ≤ e.2 ∧ e.2 < row0 + out.length then putCols e.1 col0 (out.getD (e.2 - row0) []) else e.1 } }
  else out.zipIdx.foldl (fun t e => writeRow t (lsAddr (k / 66) (k % 66) (off + (row0 + e.2) * stride)) o.fmt col0 e.1) s

/-- An empty hand-over buffer for n rows of w elements. -/
def freshHand (s : State) (k n fmt seg rows w : Nat) : State := handOver s k n ⟨fmt, seg, List.replicate rows (List.replicate w 0)⟩

/-! An engine with its banks -/

/-- Which of the two engines a stage uses: 1 the arrays, 2 the Freewheel path. -/
def engineIdle : ArrayState := ⟨false, 0, 0, [], 0, ⟨[], [], []⟩, ⟨[], [], []⟩, ⟨[], [], []⟩, [], [], none, [], false⟩

def engineAt (s : State) (k kind : Nat) : ArrayState :=
  storeGet engineIdle (if kind = 1 then s.core.arrays else s.core.wheels) k

def setEngine (s : State) (k kind : Nat) (x : ArrayState) : State :=
  updCore s fun c => if kind = 1 then { c with arrays := storePut engineIdle c.arrays k x }
    else { c with wheels := storePut engineIdle c.wheels k x }

def updEngine (s : State) (k kind : Nat) (f : ArrayState → ArrayState) : State := setEngine s k kind (f (engineAt s k kind))

/-- What an engine runs for one stage: the core, the command, the stage's place, the stage, the tiles by number, whether a row is
live, what a replay costs, how a tile's rows leave, how a segment begins and what the last one leaves (weights, replay buffer),
and the faults that its run brings. `joins` and `stays` are ACC_JOIN and ACC_CONTINUE. -/
structure ArrayRun where
  k : Nat
  r : RunCmd
  i : Nat
  st : Stage
  kind : Nat
  live : Nat
  joins : Bool
  stays : Bool
  faults : List StageFault

/-- The row of a hold of the arrays: none of the vector engine's. -/
def noRow : RowOut := ⟨[], [], [], ⟨[], []⟩⟩

/-- The faults of a segment as one: every upset, whether a residue is latched; the replay is free of them if each is. -/
def segFault (e : ArrayRun) (tile seg : Nat) : Option StageFault :=
  match e.faults.filter (fun f => f.tile == tile && f.segment == seg && !f.drain) with
  | [] => none
  | f :: rest => some { f with
      residue := f.residue || rest.any (·.residue), replayOk := f.replayOk && rest.all (·.replayOk), injected := f.injected && rest.all (·.injected) }

/-- WORK at the end of a segment with its upsets, and whether a residue was latched in it. -/
def upsets (e : ArrayRun) (tile seg : Nat) (w : Bank) : Bank × Bool :=
  (e.faults.filter (fun f => f.tile == tile && f.segment == seg && !f.drain)).foldl (fun x f =>
    let y := upset x.1 f.entry f.mask
    (y.1, x.2 || y.2 || f.residue)) (w, false)

/-- The checkpoint of a segment (R112 to R115): the comparison of R88 and the residues decide; a pass copies WORK to CHECK; a
failure is replayed from CHECK, and a replay that fails again holds the engine. Answers whether the stage stopped. -/
def checkpoint (e : ArrayRun) (t : Tile) (tile seg cyc : Nat) (s : State) : State × Bool :=
  let blks := segBlocks t seg
  let s := updEngine s e.k e.kind fun x => { x with
    active := blockWeights t ((blks.getLastD ((0, 0), 0)).2)
    shadow := match (tileBlocks t)[(seg + 1) * t.kseg]? with | some b => blockWeights t b.2 | none => [] }
  let x := engineAt s e.k e.kind
  let clean := runSegment t seg x.check
  let hit := upsets e tile seg clean
  let a := x.len + boundAt t (min (tileBlocks t).length ((seg + 1) * t.kseg))
  let sum := decide (e.live ≠ 0) && checkFails t a hit.1
  let pass := fun (s : State) (w : Bank) => updEngine s e.k e.kind fun x => { x with work := w, check := w }
  if sum || (decide (e.live ≠ 0) && hit.2) then
    let f := (segFault e tile seg).getD ⟨tile, seg, 0, 0, false, false, false, false, false⟩
    let s := updEngine s e.k e.kind fun x => { x with work := hit.1 }
    let s := stageFault s e.k e.r e.i e.st { f with residue := hit.2 } sum cyc noRow
    if f.replayOk && (cmdAt s e.k e.r.num).isSome then (pass s clean, false) else (s, true)
  else (pass s hit.1, false)

/-- How the tiles of a stage are made and leave: their number, tile t, the cycles of a replay of its segment, its output from the
DRAIN bank, and what the Freewheel replay buffer holds of a segment. -/
structure TileSet where
  count : Nat
  tile : State → Nat → Tile
  cyc : Nat → Nat → Nat
  out : State → Nat → List (Acc × Bool) → State
  port : Nat → Nat → List Nat

/-- The segments of a tile from one on (R108, R112). -/
def runSegments (e : ArrayRun) (ts : TileSet) (t : Tile) (tile : Nat) : Nat → Nat → State → State × Bool
  | 0, _, s => (s, false)
  | n + 1, seg, s =>
    let s := updEngine s e.k e.kind fun x => { x with port := ts.port tile seg }
    let x := checkpoint e t tile seg (ts.cyc tile seg) s
    if x.2 then x else runSegments e ts t tile n (seg + 1) x.1

/-- The drain's faults of a tile, row after row (R114). -/
def runDrain (e : ArrayRun) : List StageFault → State → State × Bool
  | [], s => (s, false)
  | f :: rest, s =>
    let s := stageFault s e.k e.r e.i e.st { f with residue := true } false 6 noRow
    if f.replayOk && (cmdAt s e.k e.r.num).isSome then runDrain e rest s else (s, true)

/-- The end of a tile: WORK and DRAIN change roles and the live rows leave, or the accumulation stays open (R92, R100, R112). -/
def endTile (e : ArrayRun) (ts : TileSet) (t : Tile) (tile : Nat) (s : State) : State × Bool :=
  let n := t.cols.length
  if e.stays then
    (updEngine s e.k e.kind fun x => { x with chained := true, len := x.len + boundAt t (tileBlocks t).length }, false)
  else
    let x := engineAt s e.k e.kind
    let s := setEngine s e.k e.kind { x with drain := x.work, work := x.drain, chained := false, len := 0 }
    let s := if e.live = 0 then s else incX s .MAT_SPECIAL_TILES e.k (specialArrays n x.work).length
    let d := runDrain e (if e.live = 0 then [] else e.faults.filter (fun f => f.tile == tile && f.drain)) s
    if d.2 then d else (ts.out d.1 tile ((x.work.accs.zipIdx.filter (fun c => (t.rows.getD (c.2 / n) (false, [])).1)).map (·.1)), false)

/-- A tile whose first block comes from SHADOW, where it was loaded for this command (R99). -/
def withPreload (x : ArrayState) (n : Nat) (t : Tile) : Tile :=
  if x.preload = some n then { t with cols := (x.shadow.zip t.cols).map (fun c => c.1 ++ c.2.drop t.kb) } else t

/-- A tile from one of its segments on. A new tile starts empty unless it joins the open accumulation of the same task (R92). -/
def runTile (e : ArrayRun) (ts : TileSet) (s : State) (tile seg : Nat) (fresh : Bool) : State × Bool :=
  let x := engineAt s e.k e.kind
  let t := if fresh then withPreload x e.r.num (ts.tile s tile) else ts.tile s tile
  let mine := e.joins && x.chained && x.ctx == e.r.q.ctx && x.card == e.r.q.card.cardId && x.task == e.r.q.task
  let w := if mine then x.work else emptyBank t
  let s := if fresh then setEngine s e.k e.kind { x with
      ctx := e.r.q.ctx, card := e.r.q.card.cardId, task := e.r.q.task, chained := false, work := w, check := w,
      len := if mine then x.len else 0, preload := none } else s
  let y := runSegments e ts t tile (tileSegments t - seg) seg s
  if y.2 then y else endTile e ts t tile y.1

/-- The tiles from one on. -/
def runTiles (e : ArrayRun) (ts : TileSet) : Nat → Nat → State → State × Bool
  | 0, _, s => (s, false)
  | n + 1, tile, s =>
    let x := runTile e ts s tile 0 true
    if x.2 then x else runTiles e ts n (tile + 1) x.1

/-- A held stage from the tile and segment, or the drain, it was held at (R290). -/
def resumeTiles (e : ArrayRun) (ts : TileSet) (h : Held) (s : State) : State × Bool :=
  let x := engineAt s e.k e.kind
  let first := if h.drain then
      let t := ts.tile s h.tile
      let n := t.cols.length
      (ts.out s h.tile ((x.drain.accs.zipIdx.filter (fun c => (t.rows.getD (c.2 / n) (false, [])).1)).map (·.1)), false)
    else runTile e ts s h.tile h.segment false
  if first.2 then first else runTiles e ts (ts.count - h.tile - 1) (h.tile + 1) first.1

/-! Injected faults (R120) -/

/-- The fault that an armed injection puts into the first tile that its logical slot starts: bit BIT of its first accumulator, a
multiplier residue in its first segment, or a residue of its first row's drain, which in a tile of ACC_CONTINUE waits for the
drain. A stage whose live count is 0 starts no tile, and one of ACC_JOIN goes on with a tile begun before. -/
def injected (s : State) (k slot live : Nat) (joins stays : Bool) (kind : Nat) : List StageFault × State :=
  let late := if (engineAt s k kind).drainFault && !stays && live != 0 then [(⟨0, 0, 0, 0, true, true, false, true, true⟩ : StageFault)] else []
  let s := if late = [] then s else updEngine s k kind fun x => { x with drainFault := false }
  match storeFind s.core.inject (k / 66) with
  | some (sl, v) =>
    if sl ≠ slot ∨ live = 0 ∨ joins then (late, s)
    else
      let s := updCore s fun c => { c with inject := storeErase c.inject (k / 66) }
      let f : StageFault := ⟨0, 0, 0, 0, false, false, false, true, true⟩
      match v / 64 with
      | 0 => (late ++ (if v % 64 < 48 then [{ f with mask := 2 ^ (v % 64) }] else []), s)
      | 1 => (late ++ [{ f with residue := true }], s)
      | 2 => if stays then (late, updEngine s k kind fun x => { x with drainFault := true }) else (late ++ [{ f with residue := true, drain := true }], s)
      | _ => (late, s)
  | none => (late, s)

/-! Retained ranges (R102) -/

/-- The local-store bytes of elements c0 to c1 − 1 of rows r0 to r1 − 1 of an operand. -/
def elemRange (fmt off stride r0 r1 c0 c1 : Nat) : List Extent :=
  let b := elemBits fmt
  let lo := c0 * b / 8
  if r0 < r1 ∧ c0 < c1 then [⟨off + r0 * stride + lo, r1 - r0, stride, ceilDiv (c1 * b) 8 - lo, false⟩] else []

/-- Of an operand of which `whole` is the length along K, what one block needs: rows r0 to r1 − 1 and K elements k0 to k1 − 1, with
their scales. -/
def operandRange (d : OpDesc) (off stride r0 r1 k0 k1 : Nat) (alongK : Bool) : List Extent :=
  (if alongK then elemRange d.fmt off stride r0 r1 k0 k1 else elemRange d.fmt off stride k0 k1 r0 r1)
    ++ scaleRange d r0 r1 k0 k1 false

def matFlag (d : MatrixDesc) (i : Nat) : Bool := bitAt d.flags i

/-- Columns of a weight block (R91). -/
def blockN (d : MatrixDesc) : Nat := 16 * d.arrays

/-- Tiles of a stage: row tiles times column blocks. -/
def matTiles (d : MatrixDesc) : Nat := ceilDiv d.m d.rows * ceilDiv d.n (blockN d)

/-- First row and column of tile t, and one past its last ones. -/
def matSpan (d : MatrixDesc) (t : Nat) : (Nat × Nat) × (Nat × Nat) :=
  let nb := ceilDiv d.n (blockN d)
  let r0 := t / nb * d.rows
  let c0 := t % nb * blockN d
  ((r0, min d.m (r0 + d.rows)), (c0, min d.n (c0 + blockN d)))

/-- The K blocks of a segment of a stage of `n` passes: first and one past the last K element of each. -/
def segK (k kb kseg n seg : Nat) : List (Nat × Nat) :=
  let nb := ceilDiv k kb
  (((List.range kseg).map (seg * kseg + ·)).filter (fun q => decide (q < nb * n))).map (fun q => (q % nb * kb, min k ((q % nb + 1) * kb)))

/-- What a segment of a MATRIX stage retains. With TRANSPOSE_B the stored rows of B are N (R94). -/
def matRetains (d : MatrixDesc) (tile seg : Nat) : List Extent :=
  let x := matSpan d tile
  ((segK d.k (blockK d.a d.b) d.kseg (passes d.a.fmt d.b.fmt).length seg).map fun b =>
    operandRange d.a d.aOff d.aStride x.1.1 x.1.2 b.1 b.2 true
      ++ (if matFlag d 0 then elemRange d.b.fmt d.bOff d.bStride x.2.1 x.2.2 b.1 b.2 ++ scaleRange d.b b.1 b.2 x.2.1 x.2.2 false
          else operandRange d.b d.bOff d.bStride x.2.1 x.2.2 b.1 b.2 false)).flatten

/-- What a segment of a FREEWHEEL stage retains of the local store. -/
def fwRetains (d : FwDesc) (tile seg : Nat) : List Extent :=
  ((segK d.k 32 d.kseg 1 seg).map fun b =>
    operandRange d.a d.aOff d.aStride 0 d.rows b.1 b.2 true
      ++ (if bitAt d.flags 0 then [] else operandRange d.b d.bOff d.bStride (16 * tile) (min d.n (16 * tile + 16)) b.1 b.2 false)).flatten

/-- What a stage in progress retains: its open segment, where it is held or else its first (a stage runs as one command of the
block, log 69), and the input range of a SOFTMAX (R102, R147). -/
def stageRetains (h : Option Held) (n : Nat) (i : Nat) (st : Stage) : List Extent :=
  let at_ := match h with
    | some x => if x.num = n ∧ x.stage = i then (x.tile, x.segment) else (0, 0)
    | none => (0, 0)
  match st with
  | .matrix d => matRetains d at_.1 at_.2
  | .freewheel d => fwRetains d at_.1 at_.2
  | .vector d => if d.mode = 3 then
      ⟨d.inOff, d.rows, 4 * d.inStride, rowBytes d.inD.fmt d.cols, false⟩ :: scaleExtent d.inD d.rows d.cols false else []
  | _ => []

/-- What a stage writes of its core's local store: the slab images of a PAGE_READ among it (R171), but not the rows that a MATRIX
stage's feeder writes through. -/
def stageWrites (s : State) (st : Stage) : List Extent :=
  ((match st with
    | .matrix d => matrixExtents { d with flags := d.flags % 4 + d.flags / 8 * 8 }
    | .stream (.page 8 _ _ layout _ _ budget _ _ _ dataOff _ _ _ _ _ _ _) =>
      ⟨dataOff, budget, slabBytes s layout, slabBytes s layout, true⟩ :: stageExtents st
    | _ => stageExtents st).filter (·.w))

/-- Whether two runs of bytes meet. -/
def bytesMeet (x y : Nat × Nat) : Bool := decide (x.1 < y.1 + y.2 ∧ y.1 < x.1 + x.2)

/-- Whether a stage's writes meet a range that another stage in progress on the core retains. -/
def retainConflict (s : State) (k : Nat) (r : RunCmd) (i : Nat) (st : Stage) : Bool :=
  let kept := ((stagesOn s k).filter (fun e => !(e.1.num == r.num && e.2.1 == i))).map (fun e => stageRetains (storeFind s.core.held k) e.1.num e.2.1 e.2.2)
  let rows := (kept.flatten.map extentRows).flatten
  ((stageWrites s st).map extentRows).flatten.any (fun x => rows.any (bytesMeet x))

/-! Around a stage -/

/-- A bubble or wait that reaches 4,096 cycles leaves a STALL entry, and another every 2^20 cycles while it lasts (Table
16-3). -/
def stall (s : State) (k ctx kind n : Nat) : State :=
  if 4096 ≤ n then each (List.range ((n - 4096) / 2 ^ 20 + 1)) s fun t j => trail t k 0x08 ctx kind (4096 + j * 2 ^ 20) else s

/-- What stops a stage before it moves data, and what it does otherwise: a write that meets a retained range waits (R102), owners
of the local-store bytes are checked (R261), and an uncorrectable word stops it (R262). -/
def enterStage (s : State) (k : Nat) (r : RunCmd) (i : Nat) (st : Stage) (run : StageRun) (go : State → State) : State :=
  let h := k / 66
  if isWaiting s k r.num i then s
  else if retainConflict s k r i st then waitRetained s k r.num i
  else if extentsOk s h (k % 66) r.q.ctx (stageExtents st) = false then granuleFault s h r
  else if run.uncorr ≠ 0 then uncorrectable s k r run.uncorr (lsAddr h (k % 66) 0)
  else
    let s := if run.corrected = 0 then s else lsCorrected s k run.corrected (lsAddr h (k % 66) 0)
    go (runCounts s k run)

/-- The counters of a MATRIX or FREEWHEEL stage: FEED bubbles of its engine, LIMIT bubbles, and DRAIN bubbles of the arrays. -/
def arrayCounts (s : State) (k ctx kind : Nat) (run : StageRun) : State :=
  let s := incX s (if kind = 1 then .MAT_BUBBLE_FEED else .FW_BUBBLE_FEED) k run.feed
  let s := if kind = 1 then incX s .MAT_BUBBLE_DRAIN k run.drainBub else s
  let s := incX s .MAT_BUBBLE_LIMIT k run.limit
  stall (stall s k ctx 1 run.feed) k ctx 2 run.drainBub

/-- The faults that a stage meets, an injected one first, and what its tiles with their checkpoints come to. With a live count of 0
nothing is compared (R103). -/
def passTiles (s : State) (k : Nat) (r : RunCmd) (i : Nat) (st : Stage) (run : StageRun) (kind live : Nat) (joins stays : Bool)
    (ts : TileSet) : List StageFault × State × Bool :=
  let inj := injected s k r.q.slot live joins stays kind
  let faults := if live = 0 then [] else inj.1 ++ run.faults
  (faults, runTiles ⟨k, r, i, st, kind, live, joins, stays, faults⟩ ts ts.count 0 inj.2)

/-- What every MATRIX or FREEWHEEL stage does around its tiles: its clamp and buffers, its tiles, and its end. -/
def arrayStage (s : State) (k : Nat) (r : RunCmd) (i : Nat) (st : Stage) (run : StageRun) (kind live rows : Nat) (joins stays : Bool)
    (setup : State → State) (ts : TileSet) (after : State → State) : State :=
  enterStage s k r i st run fun s =>
    let x := passTiles (arrayCounts (setup s) k r.q.ctx kind run) k r i st run kind live joins stays ts
    let cycles := (x.1.map (fun f => if f.drain then 6 else ts.cyc f.tile f.segment)).sum
    let s := contribute (addStats x.2.1 k r.num rows cycles run (!x.1.isEmpty) x.2.2) 1 rows
    if x.2.2 then s else stageDone (after s) k r.num i

/-! The matrix stage -/

/-- Tile t of a MATRIX stage. -/
def matTile (k : Nat) (d : MatrixDesc) (live : Nat) (s : State) (t : Nat) : Tile :=
  let x := matSpan d t
  let base := lsAddr (k / 66) (k % 66) 0
  let rs := (List.range (x.1.2 - x.1.1)).map (x.1.1 + ·)
  let cs := (List.range (x.2.2 - x.2.1)).map (x.2.1 + ·)
  ⟨d.a, d.b, d.out.ref, blockK d.a d.b, d.kseg, d.k, rs.map (fun r => (decide (r < live), rowOfA s base d.a d.aOff d.aStride d.k r)),
    cs.map (colOfB s base d.b d.bOff d.bStride d.k (matFlag d 0))⟩

/-- The command behind one in its queue, where it may overlap and has a MATRIX stage (R99). -/
def chainNext (s : State) (k n : Nat) : Option (RunCmd × MatrixDesc) :=
  match (queueAt s k).dropWhile (fun r => r.num != n) with
  | _ :: x :: _ => if bitAt x.q.cmd.flags 0 then none else (matrixOf x.q.cmd).map (fun d => (x, d))
  | _ => none

/-- The first block of the next command's weights enters SHADOW during the last block of this one (R99). -/
def preloadNext (k n : Nat) (s : State) : State :=
  match chainNext s k n with
  | some (x, d) => updEngine s k 1 fun a => { a with shadow := blockWeights (matTile k d 0 s 0) 0, preload := some x.num }
  | none => s

/-- Rows handed over are written through to A before they enter (R101). -/
def writeThrough (s : State) (k : Nat) (hand : HandOver) (d : MatrixDesc) (live : Nat) : State :=
  (hand.rows.take live).zipIdx.foldl
    (fun t e => writeRow t (lsAddr (k / 66) (k % 66) (d.aOff + e.2 * d.aStride)) d.a.fmt 0 e.1) s

/-- Rows that a stage streams into the arrays, over all tiles, blocks and passes. -/
def matRows (d : MatrixDesc) (live : Nat) : Nat :=
  live * ceilDiv d.n (blockN d) * ceilDiv d.k (blockK d.a d.b) * (passes d.a.fmt d.b.fmt).length

/-- What a replay of a segment costs (R113): the restore, the segment's blocks, and the reload of a preload that was discarded,
which only the stage's last segment meets. -/
def matReplay (d : MatrixDesc) (next : Bool) (tile seg : Nat) : Nat :=
  let all := ceilDiv d.k (blockK d.a d.b) * (passes d.a.fmt d.b.fmt).length
  let x := matSpan d tile
  let blocks := min d.kseg (all - seg * d.kseg)
  let last := decide (all ≤ (seg + 1) * d.kseg) && tile + 1 == matTiles d
  32 + blocks * (max (x.1.2 - x.1.1) 20 + 12) + (if next && last then 20 else 0)

/-- The tiles of a MATRIX stage. -/
def matTileSet (s : State) (k n : Nat) (d : MatrixDesc) (live : Nat) : TileSet :=
  ⟨matTiles d, matTile k d live, matReplay d (chainNext s k n).isSome,
   fun s t accs =>
     let x := matSpan d t
     emitTile s k n (matFlag d 3) d.out d.cOff d.cStride x.1.1 x.2.1 (drainTile d.a d.b d.out (x.2.2 - x.2.1) accs),
   fun _ _ => []⟩

/-- What a MATRIX stage does before its tiles: its clamp, the rows handed over to it, its own hand-over buffer. -/
def matSetup (k : Nat) (r : RunCmd) (d : MatrixDesc) (live : Nat) (s : State) : State :=
  let s := liveClamp s k r (matFlag d 1) d.liveOff d.m
  let s := if matFlag d 2 then writeThrough s k r.hand d live else s
  if matFlag d 3 then freshHand s k r.num d.out.fmt (blockN d) live d.n else s

/-- The live rows of a MATRIX stage (R103). -/
def matLive (s : State) (k : Nat) (d : MatrixDesc) : Nat := liveRows s k (matFlag d 1) d.liveOff d.m

/-- MATRIX_STAGE (R101). -/
def execMatrixStage (t hub phys : Nat) (run : StageRun) (s : State) : Host.Outcome State Fault Refusal :=
  let u := tick s t
  let k := coreKey hub phys
  settle s (match stageOf u k (fun st => stageKind st == 1) with
    | some (r, i, .matrix d) =>
      let live := matLive u k d
      arrayStage u k r i (.matrix d) run 1 live (matRows d live) (matFlag d 5) (matFlag d 4) (matSetup k r d live)
        (matTileSet u k r.num d live) (preloadNext k r.num)
    | _ => u)

/-! The Freewheel stage -/

/-- Scale bytes that slice j of a segment carries from the port (R109). -/
def portScales (d : OpDesc) (kseg j : Nat) : Nat :=
  if d.kind = 1 ∨ d.kind = 2 then
    match d.dir with
    | 0 => if blockSize d.block ≤ 32 then 16 * (32 / blockSize d.block)
           else if j % kseg = 0 ∨ j * 32 % blockSize d.block = 0 then 16 else 0
    | 1 => 32 * ceilDiv 16 (blockSize d.block)
    | 2 => 2
    | _ => 1
  else 0

/-- Bytes of slice j from the port: 32 rows of 16 elements, then its scale bytes. -/
def portSlice (d : OpDesc) (kseg j : Nat) : Nat := 64 * elemBits d.fmt + portScales d kseg j

/-- Where slice j of tile t starts in the bytes that arrive. -/
def portStart (d : OpDesc) (kseg slices t j : Nat) : Nat :=
  t * ((List.range slices).map (portSlice d kseg)).sum + ((List.range j).map (portSlice d kseg)).sum

/-- The factor of weight (k, n) from the bytes that arrive at the port in consumption order (R109). -/
def portFactor (d : OpDesc) (kseg slices : Nat) (bytes : List Nat) (n k : Nat) : Option Dyad :=
  let w := elemBits d.fmt
  let t := n / 16
  let j := k / 32
  let bit := (k % 32 * 16 + n % 16) * w
  let at_ := portStart d kseg slices t j
  let v := leNum ((bytes.drop (at_ + bit / 8)).take 2) / 2 ^ (bit % 8) % 2 ^ w
  let b := blockSize d.block
  let seg := j / kseg * kseg
  let jj := if d.dir = 0 ∧ 32 < b then max seg (k / b * b / 32) else j
  let idx := match d.dir with
    | 0 => if b ≤ 32 then n % 16 * (32 / b) + k % 32 / b else n % 16
    | 1 => (n / b - 16 * t / b) * 32 + k % 32
    | 2 => k % 32 / 16
    | _ => 0
  factor d v (bytes.getD (portStart d kseg slices t jj + 64 * w + idx) 0)

/-- Tile t of a FREEWHEEL stage: its rows by 16 output columns, in slices of 32 K whatever the pairing (R107, R108). -/
def fwTile (k : Nat) (d : FwDesc) (live : Nat) (port : List Nat) (s : State) (t : Nat) : Tile :=
  let cs := (List.range (min 16 (d.n - 16 * t))).map (16 * t + ·)
  let base := lsAddr (k / 66) (k % 66) 0
  ⟨d.a, d.b, d.out.ref, 32, d.kseg, d.k, (List.range d.rows).map (fun r => (decide (r < live), rowOfA s base d.a d.aOff d.aStride d.k r)),
    cs.map fun n =>
      if bitAt d.flags 0 then (List.range d.k).map (portFactor d.b d.kseg (ceilDiv d.k 32) port n)
      else colOfB s base d.b d.bOff d.bStride d.k false n⟩

/-- Columns that the Freewheel path takes in a cycle (Table 4-4). -/
def fwCols (rows : Nat) : Nat := if rows = 1 then 4 else if rows = 2 then 2 else 1

/-- What a replay of a Freewheel segment costs (R108, R113). -/
def fwReplay (d : FwDesc) (seg : Nat) : Nat := 32 + min d.kseg (ceilDiv d.k 32 - seg * d.kseg) * (16 / fwCols d.rows) + 8

/-- The tiles of a FREEWHEEL stage. With W_FROM_PORT the replay buffer holds the bytes of the current segment (R108). -/
def fwTileSet (k n : Nat) (d : FwDesc) (live : Nat) (port : List Nat) : TileSet :=
  let slices := ceilDiv d.k 32
  ⟨ceilDiv d.n 16, fwTile k d live port, fun _ seg => fwReplay d seg,
   fun s t accs => emitTile s k n (bitAt d.flags 2) d.out d.cOff d.cStride 0 (16 * t) (drainTile d.a d.b d.out (min 16 (d.n - 16 * t)) accs),
   fun t seg => if bitAt d.flags 0 then
       let lo := portStart d.b d.kseg slices t (seg * d.kseg)
       (port.drop lo).take (portStart d.b d.kseg slices t (min slices ((seg + 1) * d.kseg)) - lo)
     else []⟩

/-- What a FREEWHEEL stage does before its tiles, and its live rows (R103). -/
def fwSetup (k : Nat) (r : RunCmd) (d : FwDesc) (live : Nat) (s : State) : State :=
  let s := liveClamp s k r (bitAt d.flags 1) d.liveOff d.rows
  if bitAt d.flags 2 then freshHand s k r.num d.out.fmt 16 live d.n else s

def fwLive (s : State) (k : Nat) (d : FwDesc) : Nat := liveRows s k (bitAt d.flags 1) d.liveOff d.rows

/-- FREEWHEEL_STAGE (R110): `port` holds the weight bytes that arrive with W_FROM_PORT. -/
def execFreewheelStage (t hub phys : Nat) (port : List Nat) (run : StageRun) (s : State) : Host.Outcome State Fault Refusal :=
  let u := tick s t
  let k := coreKey hub phys
  settle s (match stageOf u k (fun st => stageKind st == 2) with
    | some (r, i, .freewheel d) =>
      let live := fwLive u k d
      arrayStage u k r i (.freewheel d) run 2 live (live * ceilDiv d.n 16 * ceilDiv d.k 32) false false (fwSetup k r d live)
        (fwTileSet k r.num d live port) id
    | _ => u)

/-! Commands of the queue -/

/-- The task of a command has a core (R476). -/
def noteTask (s : State) (k : Nat) (q : QueuedCmd) : State :=
  let mine := fun (x : TaskRec) => x.items == q.task && x.card == q.card.cardId
  let add := fun (l : List TaskRec) =>
    if l.any mine then l.map (fun x => if mine x ∧ k ∉ x.cores then { x with cores := x.cores ++ [k] } else x)
    else l ++ [⟨q.task, q.card.cardId, [k]⟩]
  updCore s fun c => { c with tasks := add c.tasks }

/-- The tokens that the running step appends for an item (R175): those of its chunk, or of its decode row with its drafts. -/
def newCount (s : State) (k : Nat × Nat) : Nat :=
  let p := s.tt.run.cur
  ((p.chunks.filter (fun c => c.ctx == k.1 && c.idx == k.2)).map (·.tokens)).sum
    + ((p.rows.filter (fun r => r.ctx == k.1 && r.idx == k.2)).map (fun r => 1 + r.depth)).sum

/-- The root that a stage of a layout reads for an item: that of its session, or of the session's companion (R204). -/
def stageRoot (s : State) (layout : Nat) (k : Nat × Nat) : Option Root :=
  (((itemAt s k.1 k.2).bind (·.sess)).bind fun i =>
    ((i :: ((sessAt s i).bind (·.companion)).toList).filterMap (rootAt s)).find? (fun r => r.layout == layout))

/-- One entry of a length table (Table 6-6). DEDUCED (log 78): ROT starts a row's pages where those of the rows before it
ended, as in the worked example of R176. -/
def lenEntry (cores : Nat) (acc : List Nat × Nat) (e : Root × Nat) : List Nat × Nat :=
  let r := e.1
  let n := heldHere r (r.committed + r.away + e.2) - r.committed
  (acc.1 ++ leBytes 4 r.handle ++ leBytes 4 r.committed ++ leBytes 2 n ++ [acc.2 % max 1 cores, 0]
    ++ leBytes 4 (if r.split = 1 then r.splitIndex * r.rangePages * 16 else 0), acc.2 + pagesFor (r.committed + n))

/-- The bytes of the length table of a command's rows for a stage (R166); none where no item of the command has a session of the
layout. -/
def lenTableBytes (s : State) (q : QueuedCmd) (layout cores : Nat) : List Nat :=
  let rows := q.task.filterMap (fun k => (stageRoot s layout k).map (fun r => (r, newCount s k)))
  if rows = [] then [] else leBytes 4 rows.length ++ List.replicate 12 0 ++ (rows.foldl (lenEntry cores) ([], 0)).1

/-- The adapter rows of a command (R236): of each item that names a slot, its slot and its rows' handle words, as many as it has
rows in the step; the rows of a training piece carry the context alone (R223). -/
def adapterRows (s : State) (q : QueuedCmd) : List (Nat × List Nat) :=
  q.task.filterMap fun k =>
    match itemAt s k.1 k.2 with
    | some x => x.slot.map fun slot =>
        let pieces := ((s.tt.run.cur.train.filter (fun p => p.ctx == k.1 && p.idx == k.2)).map (fun p => p.blocks * 256)).sum
        (slot, if x.sess.isSome then List.replicate (newCount s k) x.handle else List.replicate pieces (k.1 * 2 ^ 26))
    | none => none

/-- The groups of a step's adapter rows: by slot, the slots ascending, rows within a group in row order (R236). -/
def adapterGroups (rows : List (Nat × List Nat)) : List (Nat × List Nat) :=
  let slots := ((rows.map (·.1)).eraseDups).foldl (fun l k => insertBy (fun a b => decide (a ≤ b)) k l) []
  slots.map (fun k => (k, ((rows.filter (fun r => r.1 == k)).map (·.2)).flatten))

/-- One entry of a group list (Table 8-3), after the groups with `first` rows before it. -/
def groupEntry (s : State) (acc : List Nat × Nat) (g : Nat × List Nat) : List Nat × Nat :=
  (acc.1 ++ leBytes 2 g.1 ++ leBytes 2 (rankBudget (activeEntry s g.1).rank) ++ leBytes 2 acc.2 ++ leBytes 2 g.2.length, acc.2 + g.2.length)

/-- The group list for a stage of n groups, and its rows' handles; none where the command has no adapter rows. DESIGN CHOICE
(log 86): a stage with more groups than the rows have repeats the last one without rows. -/
def adapterTables (s : State) (q : QueuedCmd) (n : Nat) : List Nat × List Nat :=
  let gs := adapterGroups (adapterRows s q)
  match gs.getLast? with
  | none => ([], [])
  | some g =>
    let all := gs ++ List.replicate (n - gs.length) (g.1, [])
    (((all.take n).foldl (groupEntry s) ([], 0)).1, (gs.flatMap (fun e => e.2)).flatMap (leBytes 4))

/-- The scale of a row of logits (R202): log2 e ÷ TEMPERATURE, rounded once. DESIGN CHOICE (log 86): a GREEDY request, whose
TEMPERATURE is ignored, scales by log2 e. -/
def rowScale (r : GenerateRec) : Nat := if bitAt r.flags 1 then 0x3FB8AA3B else divF fFP32 0x3FB8AA3B r.temperature

/-- The row parameters of a sampling stage: the scale of each row that the command's items sample in the running step. -/
def rowScales (s : State) (q : QueuedCmd) : List Nat :=
  let p := s.tt.run.cur
  q.task.flatMap fun k =>
    match (itemAt s k.1 k.2).bind (·.gen) with
    | some r =>
      let n := (p.chunks.filter (fun c => c.ctx == k.1 && c.idx == k.2 && c.samples)).length
        + ((p.rows.filter (fun x => x.ctx == k.1 && x.idx == k.2)).map (fun x => 1 + x.depth)).sum
      (List.replicate n (rowScale r)).flatMap (leBytes 4)
    | none => []

/-- Whether a vector stage samples at level 1 (R144): a row parameter, and RED SMSTAT and RED TOPK in its program. -/
def samplesLogits (d : VecDesc) : Bool :=
  bitAt d.flags 5 && d.prog.any (fun i => i.op == 0x30 && redOf i == 6) && d.prog.any (fun i => i.op == 0x30 && redOf i == 7)

/-- The runtime places in the local store of the core that takes part what a command's stages read there of the plan: the length
tables of Larder stages (R166, R175), the group lists and handles of ADAPTER_READ (R236, Table 8-3), and the row scales of the
sampling program (R202). -/
def placeTables (s : State) (k : Nat) (q : QueuedCmd) : State :=
  let at_ := fun (o : Nat) => lsAddr (k / 66) (k % 66) o
  each q.cmd.stages s fun t st =>
    match st with
    | .stream (.page _ _ _ layout cores _ _ _ _ lenOff _ _ _ _ _ _ _ _) => writeBytes (lenTableBytes t q layout cores) (at_ lenOff) t
    | .stream (.adapter _ _ _ _ groups groupOff rowOff _ _ _ _) =>
      writeBytes (adapterTables t q groups).2 (at_ rowOff) (writeBytes (adapterTables t q groups).1 (at_ groupOff) t)
    | .vector d => if samplesLogits d then writeBytes (rowScales t q) (at_ d.paramOff) t else t
    | _ => t

/-- FUSED_COMMAND (R11, R23, R59, R98): the command enters the queue of the physical core that serves its logical slot, unless the
slot is not served or the queue is full or fenced, and starts when it can; a command of a LOCKED card belongs to a locked segment.
The length tables of its Larder stages are placed before it (R166).
DESIGN CHOICE (log 67): the hub error of a slot that is not served, for which no status latches, names the slot's entry of remap
bank 0 and the value 0. -/
def execFusedCommand (t : Nat) (q : QueuedCmd) (s : State) : Host.Outcome State Fault Refusal :=
  let u := tick s t
  settle s (if q.hub ∈ u.core.halted then u
    else match physOf u q.hub q.slot with
    | none =>
      endTask (hubError u q.hub (0x200 + 4 * q.slot) 0 q.slot (some q.ctx)) q.task q.card.cardId 0x23 0x02
    | some p =>
      let k := coreKey q.hub p
      let q := lockCmd u q
      let num := ((queueAt u k).map (·.num)).foldl max 0 + 1
      let fresh : RunCmd := ⟨num, q, 0, 0, false, q.cmd.stages.map (fun _ => false), ⟨0, 0, []⟩, none, List.replicate 7 0, false, false, false⟩
      if rdb u .HUB_SLOT_STATE_FENCED k || decide (16 ≤ (queueAt u k).length) then u
      else pump (setQueueAt (noteTask (openSegment (placeTables u k q) q) k q) k (queueAt u k ++ [fresh])) q.hub)

/-- MAT_INJECT_ARM (R118 to R120): the fields are written by the hub's control core and the management context; ARM takes effect
only from the management context, and not while an exclusive window is open. DESIGN CHOICE (log 72): arming again before the
first injection has fired replaces it. -/
def execMatInjectArm (src : Src) (hub slot target bit : Nat) (s : State) : Host.Outcome State Fault Refusal :=
  settle s (if isMgmt s src || src == .core hub then
      let u := wr (wr (wr s .MAT_INJECT_SLOT hub slot) .MAT_INJECT_TARGET hub target) .MAT_INJECT_BIT hub bit
      if isMgmt s src = true ∧ (windowCtx s).isNone then
        updCore u fun c => { c with inject := storeInsert c.inject hub (slot, target * 64 + bit) }
      else u
    else s)

/-- RETENTION_RELEASE (R102): the first waiting write of a core that no open segment's range meets any more may proceed; the cycles
it waited are counted and take reserve (R57). -/
def execRetentionRelease (t hub phys cycles : Nat) (s : State) : Host.Outcome State Fault Refusal :=
  let u := tick s t
  let k := coreKey hub phys
  let ready := fun (w : RetainWait) => match cmdAt u k w.num with
    | some r => match r.q.cmd.stages[w.stage]? with
      | some st => w.core == k && !retainConflict u k r w.stage st
      | none => false
    | none => false
  settle s (match u.core.waiting.find? ready with
    | some w =>
      let ctx := ((cmdAt u k w.num).map (·.q.ctx)).getD 0
      let u := stall (useReserve (incX u .MAT_RETAIN_WAIT_CYCLES k cycles) (coreNs u k cycles)) k ctx 3 cycles
      updCore u fun c => { c with waiting := c.waiting.erase w }
    | none => u)

end Sys2Proof.Machine
end

