-- ==== Sys2Proof/Machine/PannierOps.lean ====
section
/-! DEFINITION. Pannier adapters: the parts of an image (R219, R222, R478), the store of each wing, entry changes
and flips (R226 to R229), and releases (R233). -/

namespace Sys2Proof.Machine

/-! Parts -/

/-- Bytes of an element of an adapter format. -/
def adW (fmt : Nat) : Nat := if fmt = 8 then 2 else 1

/-- Scale bytes of n elements along K; BF16 carries none (Table 8-1). -/
def adScales (fmt n : Nat) : Nat := if fmt = 1 then ceilDiv n 32 else 0

/-- The targets of a set of a model (R478). -/
def targetsOf (m : Model) (set : Nat) : List Target478 := ((m.targetSets.find? (fun e => e.1 == set)).map (·.2)).getD []

/-- Targets of the sets before a set. -/
def targetsBefore (set : Nat) : List (Nat × List Target478) → Nat
  | [] => 0
  | e :: r => if e.1 = set then 0 else e.2.length + targetsBefore set r

/-- The COLUMN_MAP entry of a target on a wing: first row of B, rows, first column of A, columns (R478). -/
def mapEntry (m : Model) (set target wing : Nat) : List Nat :=
  m.columnMap.getD ((targetsBefore set m.targetSets + target) * 4 + wing) [0, 0, 0, 0]

/-- Bytes of a target in the body of a KIND 0x1 image. -/
def targetBytes (fmt r : Nat) (t : Target478) : Nat :=
  r * (t.dIn * adW fmt + adScales fmt t.dIn) + t.dOut * (r * adW fmt + adScales fmt r)

/-- Bytes of a target in a wing's part. -/
def partBytes (fmt r : Nat) (e : List Nat) : Nat :=
  if r = 0 then 0
  else r * (e.getD 3 0 * adW fmt + adScales fmt (e.getD 3 0)) + e.getD 1 0 * (r * adW fmt + adScales fmt r)

/-- n consecutive rows of a matrix in a byte list: the bytes [c0, c0 + cn) of each row of `width` bytes. -/
def subRows (l : List Nat) (base width r0 n c0 cn : Nat) : List Nat :=
  ((List.range n).map (fun i => (l.drop (base + (r0 + i) * width + c0)).take cn)).flatten

/-- A target's share of a wing's part, cut from the body: A, A's scales, B, B's scales. -/
def partOfTarget (fmt r : Nat) (t : Target478) (e body : List Nat) (base : Nat) : List Nat :=
  let w := adW fmt
  let aS := base + r * t.dIn * w
  let b := aS + r * adScales fmt t.dIn
  let bS := b + t.dOut * r * w
  subRows body base (t.dIn * w) 0 r (e.getD 2 0 * w) (e.getD 3 0 * w)
    ++ (if fmt = 1 then subRows body aS (adScales fmt t.dIn) 0 r (e.getD 2 0 / 32) (adScales fmt (e.getD 3 0)) else [])
    ++ subRows body b (r * w) (e.getD 0 0) (e.getD 1 0) 0 (r * w)
    ++ (if fmt = 1 then subRows body bS (adScales fmt r) (e.getD 0 0) (e.getD 1 0) 0 (adScales fmt r) else [])

/-- A wing's part of a body, target after target. -/
def wingPart (m : Model) (set fmt r wing : Nat) (body : List Nat) : List Nat :=
  if r = 0 then []
  else
    let ts := targetsOf m set
    (ts.zipIdx.map (fun x =>
      partOfTarget fmt r x.1 (mapEntry m set x.2 wing) body ((ts.take x.2).map (targetBytes fmt r)).sum)).flatten

/-- Bytes of a wing's part. -/
def wingPartBytes (m : Model) (set fmt r wing : Nat) : Nat :=
  ((List.range (targetsOf m set).length).map (fun i => partBytes fmt r (mapEntry m set i wing))).sum

/-! Entries -/

/-- The entry of a slot once the changes that wait for a flip have taken effect. -/
def plannedEntry (s : State) (slot : Nat) : PEntry :=
  ((s.pann.edits.filter (fun e => e.slot == slot)).getLast?.map (·.entry)).getD (activeEntry s slot)

/-- An entry change that the runtime carries to the next flip, with the item whose FINAL follows it (R229). A
boundary is wanted for it where no step is planned (R475). -/
def queueEdit (s : State) (slot : Nat) (e : PEntry) (final : Option (Nat × Nat × Nat × Nat)) : State :=
  wantBoundary (updPann s fun p => { p with edits := p.edits ++ [⟨slot, e, final⟩] })

/-- The slots of a wing's replica of a bank whose STATE byte is not FREE. -/
def bankSlots (s : State) (bank wing : Nat) : List Nat :=
  let b := bankBase s bank wing
  (s.mem.bytes.filter (fun e => decide (b ≤ e.1 ∧ e.1 < b + 0x100000) && (e.1 - b) % 64 == 0)).map (fun e => (e.1 - b) / 64)

/-- Slots that the active bank or a change to come does not leave FREE. -/
def slotsInUse (s : State) : List Nat :=
  let live := bankSlots s (rd s .PANNIER_CTRL_ACTIVE_BANK) (rd s .INTEG_LEAD_LEAD_WING)
  (live ++ s.pann.edits.map (·.slot)).eraseDups.filter (fun k => (plannedEntry s k).st != 0)

/-- Slots a context holds. -/
def slotsOf (s : State) (ctx : Nat) : Nat := ((slotsInUse s).filter (fun k => (plannedEntry s k).ctx == ctx)).length

/-- Units of a wing's store in use: offset and length. -/
def storeUsed (s : State) (w : Nat) : List (Nat × Nat) :=
  (slotsInUse s).map (fun k => let e := plannedEntry s k; (e.storeOff.getD w 0, e.partUnits.getD w 0)) |>.filter (fun u => u.2 != 0)

/-- An offset for n units in wing w's store. -/
def allocStore (s : State) (w n : Nat) (more : List (Nat × Nat)) : Option Nat :=
  let base := rd s .PANNIER_STORE_BASE w
  if n = 0 then some 0
  else (allocChan s base (rd s .PANNIER_STORE_LIMIT w) n (((storeUsed s w) ++ more).map (fun u => (u.1 + base, u.2)))).map (· - base)

/-- Device address of a wing's part. -/
def partAddr (s : State) (w : Nat) (e : PEntry) : Nat := (rd s .PANNIER_STORE_BASE w + e.storeOff.getD w 0) * 4096

/-- Copy n bytes of HBM from one place to another: blocks written whole lose their poison (R277). -/
def copyRange (s : State) (src dst n : Nat) : State :=
  let part := s.mem.bytes.filter (fun e => decide (src ≤ e.1 ∧ e.1 < src + n))
  updMem s fun m => { m with
    bytes := part.foldl (fun l e => storePut (0 : Byte) l (dst + (e.1 - src)) e.2) (storeKeep (fun k => decide (k < dst) || decide (dst + n ≤ k)) m.bytes)
    poison := m.poison.filter (fun b => !(decide (dst ≤ b * 4096) && decide ((b + 1) * 4096 ≤ dst + n))) }

/-- The active bank goes into the inactive bank of every wing (R228). -/
def copyBank (s : State) : State :=
  let a := rd s .PANNIER_CTRL_ACTIVE_BANK
  each (List.range 4) s fun t w => copyRange t (bankBase t a w) (bankBase t (1 - a) w) 0x100000

/-- The entry as it goes into a bank: LOAD_TIME is when it becomes READY or TRAINING (Table 8-2). -/
def stampEntry (s : State) (e : PEntry) : PEntry := if (e.st = 2 ∨ e.st = 3) ∧ e.loadTime = 0 then { e with loadTime := s.now } else e

/-- The runtime brings every wing's inactive bank up to date with the active one, writes the waiting changes into it, sets READY for
all four wings and requests the flip (R228, R229). -/
def composeBank (s : State) : State :=
  let b := 1 - rd s .PANNIER_CTRL_ACTIVE_BANK
  let s := each s.pann.edits (copyBank s) fun t e =>
    each (List.range 4) t fun u w => writeBytes (entryBytes (stampEntry u e.entry)) (entryAddr u b w e.slot) u
  wr (wr s .PANNIER_CTRL_READY 0 15) .PANNIER_CTRL_FLIP_REQ 0 1

/-- The module-wide flip (R226): READY clears, the generation advances. -/
def flipBank (s : State) : State :=
  let s := wr s .PANNIER_CTRL_ACTIVE_BANK 0 (1 - rd s .PANNIER_CTRL_ACTIVE_BANK)
  let s := wr (wr s .PANNIER_CTRL_READY 0 0) .PANNIER_CTRL_ACTIVE_GEN 0 (nextGen (rd s .PANNIER_CTRL_ACTIVE_GEN))
  wr s .PANNIER_SLOTS_USED 0 (bankSlots s (rd s .PANNIER_CTRL_ACTIVE_BANK) (rd s .INTEG_LEAD_LEAD_WING)).length

/-- End an item with DONE and a detail, late when its promise has passed; with no cause given the lateness is
that of R62's hardware waits. -/
def endDone (s : State) (k : Nat × Nat) (detail : Nat) : State :=
  match itemAt s k.1 k.2 with
  | some x =>
    let late := decide (x.deadline < s.now) && x.causes == 0
    endItem s { x with causes := if late then 4 else x.causes, lateNs := s.now - x.deadline, lastIssue := s.now } 0x01 detail
  | none => s

/-- The FINAL that follows a flip (R229): context, index, code, detail. -/
def endPannier (s : State) (k : Nat × Nat × Nat × Nat) : State :=
  if k.2.2.1 = 1 then endDone s (k.1, k.2.1) k.2.2.2
  else match itemAt s k.1 k.2.1 with
    | some x => endItem s x k.2.2.1 k.2.2.2
    | none => s

/-- A flip that was requested takes effect if every wing is READY and no copy runs, else it is rejected (R226, R227). -/
def pannierFlip (s : State) : State :=
  let s := wr s .PANNIER_CTRL_FLIP_REQ 0 0
  if rd s .PANNIER_CTRL_READY = 0xF ∧ rdb s .PANNIER_CTRL_COPY_BUSY = false then flipBank s
  else hubError (wr s .PANNIER_CTRL_FLIP_REJECTED 0 1) (leadHub s) 0 4 0

/-- Pannier changes at a step boundary: a requested flip, else the runtime's own changes, composed into the inactive bank and flipped
in; these wait while a copy runs (R228, R229). -/
def pannierBoundary (s : State) : State :=
  if rdb s .PANNIER_CTRL_FLIP_REQ then pannierFlip s
  else if s.pann.edits = [] ∨ rdb s .PANNIER_CTRL_COPY_BUSY = true then s
  else
    let finals := s.pann.edits.filterMap (·.final)
    let s := updPann (pannierFlip (composeBank s)) fun p => { p with edits := [] }
    each finals s fun t k => endPannier t k

/-! Releases (R233) -/

/-- Whether an open item names a slot. -/
def slotNamed (s : State) (slot : Nat) (but : List (Nat × Nat)) : Bool :=
  s.serve.items.any (fun i => i.slot == some slot && !decide ((i.ctx, i.idx) ∈ but))

/-- A slot becomes RELEASING at the next flip, and its release is under way; a release of it that is under way already takes the item
along. -/
def startRelease (s : State) (slot : Nat) (item : Option (Nat × Nat)) (teardown : Bool) : State :=
  let s := queueEdit s slot { plannedEntry s slot with st := 4, job := 0 } none
  let old := s.pann.releases.filter (fun r => r.slot == slot)
  updPann s fun p => { p with releases := p.releases.filter (fun r => r.slot != slot)
    ++ [⟨slot, (old.map (·.items)).flatten ++ item.toList, teardown || old.any (·.teardown)⟩] }

/-- Zero n bytes of memory from an address. -/
def zeroRange (s : State) (a n : Nat) : State :=
  updMem s fun m => { m with bytes := storeKeep (fun k => !(decide (a ≤ k) && decide (k < a + n))) m.bytes }

/-- Zero every part of an entry; a whole rewrite clears poison (R277). -/
def zeroParts (s : State) (e : PEntry) : State :=
  each (List.range 4) s fun t w =>
    let a := partAddr t w e
    let n := e.partUnits.getD w 0
    updMem (zeroRange t a (n * 4096)) fun m => { m with poison := m.poison.filter (fun b => !(decide (a / 4096 ≤ b) && decide (b < a / 4096 + n))) }

/-- Time that zeroing an entry's parts takes at full HBM bandwidth of each wing, 7,987.2 GB/s (Table 1-11: 12 stacks of 2,662.4). -/
def zeroNs (e : PEntry) : Nat := ceilDiv (((List.range 4).map (fun w => e.partUnits.getD w 0 * 4096)).foldl max 0 * 10) 79872

/-- The boundary at which a flip asked for at time t can take effect (R232): the planned end of the step then
running, or the idle boundary. -/
def flipAfter (s : State) (t : Nat) : Nat :=
  let ends := planEnds s (firstStart s) s.tt.plan
  let all := (if s.tt.run.running then [rd s .TT_STEP_PLANNED_END] else []) ++ ends
  (all.find? (fun e => decide (t ≤ e))).getD (slotCeil (t + planLead s))

end Sys2Proof.Machine
end

