-- ==== Sys2Proof/Machine/Streams.lean ====
section
/-! DEFINITION. STREAM stages (R165 to R171, R222 to R225, R265, R266, R268), the Pantry's atomic operations
(R267) and granule grants (R260). -/

namespace Sys2Proof.Machine

/-! Moving bytes -/

/-- A poison list entry count of a wing (Table 9-10). -/
def countPoison (s : State) (w : Nat) : State :=
  wr s .HBM_POISON_COUNT w (min 256 (s.mem.poison.filter (fun b => b / 0x3000000 == w)).length)

/-- Make n units of HBM zero; a block written whole loses its poison (R277). -/
def zeroUnits (s : State) (u n : Nat) : State :=
  countPoison (updMem s fun m => { m with
    bytes := storeKeep (fun k => decide (k / 4096 < u) || decide (u + n ≤ k / 4096)) m.bytes
    poison := m.poison.filter (fun b => decide (b < u) || decide (u + n ≤ b)) }) (hbmWing (u * 4096))

/-- Whether a 4 KiB unit of HBM lies in its wing's replica of a Pannier bank. DEDUCED (log 81): a wing whose two bank registers are
equal, as they are after reset, has no banks yet. -/
def inBank (s : State) (u bank : Nat) : Bool :=
  let w := hbmWing (u * 4096)
  let at_ := fun (b : Nat) => bankBase s b w / 4096
  at_ 0 != at_ 1 && decide (at_ bank ≤ u ∧ u < at_ bank + 256)

/-- The wing's memory controllers drop a write to this unit: it lies in the active Pannier bank, or in the inactive one while a flip is
requested or a copy runs (R226 to R228). -/
def bankGuard (s : State) (u : Nat) : Bool :=
  let a := rd s .PANNIER_CTRL_ACTIVE_BANK
  inBank s u a || (inBank s u (1 - a) && (rdb s .PANNIER_CTRL_FLIP_REQ || rdb s .PANNIER_CTRL_COPY_BUSY))

/-- A write to a wing's inactive bank clears the wing's READY bit (R227). -/
def bankTouched (s : State) (u : Nat) : State :=
  let w := hbmWing (u * 4096)
  let r := rd s .PANNIER_CTRL_READY
  if inBank s u (1 - rd s .PANNIER_CTRL_ACTIVE_BANK) && bitAt r w then wr s .PANNIER_CTRL_READY 0 (r - 2 ^ w) else s

/-- Write bytes to HBM: what would change an active Pannier bank is dropped (R227); a block written whole loses its poison, a partial
write to a poisoned block is discarded and counted (R277). -/
def storeHbm (s : State) (a : Nat) (l : List Nat) : State :=
  each (granulesOf a l.length) s fun t g =>
    let lo := max a g
    let hi := min (a + l.length) (g + 4096)
    let part := (l.drop (lo - a)).take (hi - lo)
    if bankGuard t (g / 4096) then wr t .PANNIER_CTRL_WRITE_DROPPED 0 1
    else
    let t := bankTouched t (g / 4096)
    if poisoned t g then
      if hi - lo = 4096 then
        countPoison (writeBytes part lo (updMem t fun m => { m with poison := m.poison.filter (· != g / 4096) })) (hbmWing g)
      else inc t .HBM_CH_UNCORR (hbmWing g * 96 + hbmChan g)
    else writeBytes part lo t

/-- A write to a word clears every LR reservation of it (R267). -/
def clearLr (s : State) (a n : Nat) : State :=
  updMem s fun m => { m with lr := m.lr.filter (fun e => !(decide (a / 8 ≤ e.2) && decide (e.2 ≤ (a + n - 1) / 8))) }

/-- Write bytes wherever the device map puts them; host memory is outside the module. -/
def putBytes (s : State) (ctx a : Nat) (l : List Nat) : State :=
  if l = [] then s
  else if isHbm a then storeHbm s a l
  else if onChip a then clearLr (writeBytes l a s) a l.length
  else hostOut s ctx a l

/-- Whether an address lies in the weight area (R273). -/
def inWeights (s : State) (a : Nat) : Bool := isHbm a && (blockPos s a).isSome

/-! The cache part of a Pantry slice (R264) -/

/-- Sets of a hub's cache part: eight ways of 128-byte lines. -/
def cacheSets (s : State) (h : Nat) : Nat := rd s .MEM_PANTRY_MODE_CACHE_MIB h * 1024

/-- A cacheable read of one line under an owner: a hit needs the same tag or a SHARED source; the line becomes the
most recently used of its set, and the ninth of the set leaves. -/
def cacheLine (h owner : Nat) (s : State) (line : Nat) : State :=
  let sets := cacheSets s h
  if sets = 0 then s
  else
    let same := fun (t : CacheTag) => t.hub == h && t.line == line
    let hit := s.mem.cacheTags.any (fun t => same t && (t.owner == owner || owner == 0x41))
    let rest := s.mem.cacheTags.filter (fun t => !same t)
    let mine := fun (t : CacheTag) => t.hub == h && t.line % sets == line % sets
    let keep := (rest.filter mine).take 7
    let s := if hit then incX s .MEM_CACHE_HITS h else s
    updMem s fun m => { m with cacheTags := ⟨h, line, owner⟩ :: (keep ++ rest.filter (fun t => !mine t)) }

/-! Around a stage -/

/-- What every stream stage does around its own work, beside what stops any stage: its counts are kept and it ends. `body`
answers whether the stage completed. -/
def streamStage (s : State) (k : Nat) (r : RunCmd) (i : Nat) (st : Stage) (run : StageRun) (rows : Nat)
    (body : State → State × Bool) : State :=
  enterStage s k r i st run fun s =>
    let x := body s
    if x.2 && (cmdAt x.1 k r.num).isSome then stageDone (addStats x.1 k r.num rows 0 run false false) k r.num i else x.1

/-- The event of a stream stage in one of some modes on a core. -/
def streamEvent (s : State) (t hub phys : Nat) (p : StreamDesc → Bool)
    (f : State → Nat → RunCmd → Nat → StreamDesc → State) : State :=
  let u := tick s t
  let k := coreKey hub phys
  match stageOf u k (fun st => match st with | .stream d => p d | _ => false) with
  | some (r, i, .stream d) => f u k r i d
  | _ => u

/-! Length tables and page lists (R166, R168) -/

/-- A row of a length table. -/
structure LenRow where
  handle : Nat
  committed : Nat
  new_ : Nat
  rot : Nat
  firstPos : Nat
  deriving DecidableEq, Repr

/-- The rows of the length table at an address. -/
def lenTable (s : State) (a : Nat) : List LenRow :=
  (List.range (min 1024 (readLe s a 4))).map fun i =>
    let e := a + 16 + 16 * i
    ⟨readLe s e 4, readLe s (e + 4) 4, readLe s (e + 8) 2, readLe s (e + 10) 1, readLe s (e + 12) 4⟩

/-- Pages of a row and valid tokens of a page. -/
def lenPages (r : LenRow) : Nat := ceilDiv (r.committed + r.new_) 16
def lenValid (r : LenRow) (p : Nat) : Nat := min 16 (r.committed + r.new_ - 16 * p)

/-- The page list of a share: row and page of each position, none for padding (R168). -/
def pageList (rows : List LenRow) (cores share budget : Nat) : List (Option (Nat × Nat)) :=
  (rows.zipIdx.map fun e =>
    let ps := (List.range (lenPages e.1)).filter (fun p => (p + e.1.rot % cores) % cores == share)
    ps.map (fun p => some (e.2, p)) ++ List.replicate (ceilDiv ps.length budget * budget - ps.length) none).flatten

/-! Walk checks (Table 6-5) -/

/-- Address of a session index's record in the root table (R162). -/
def rootRecord (s : State) (i : Nat) : Nat := rd s .LARDER_ROOT_BASE * 4096 + 128 * i

/-- The directory entry and the page-table entry of page p, as words, from the tables in HBM (R163, R165); a page-table entry
under a directory entry that is not VALID reads as NONE. -/
def walkWords (s : State) (root p : Nat) : Nat × Nat :=
  let dir := readLe s (readLe s (root + 0x10) 8 + 8 * (p / 512)) 8
  (dir, if bitAt dir 34 then readLe s (bitsOf dir 27 0 * 4096 + 8 * (p % 512)) 8 else 0)

/-- The fields of a page-table entry's word (Table 6-4). -/
def pteOf (w : Nat) : Pte := ⟨bitsOf w 27 0, bitsOf w 37 32, bitsOf w 39 38, bitsOf w 44 40, bitsOf w 57 48⟩

/-- The outcome of the walk for page p of a row: its entry, or the status bit of the first check that fails (R165). -/
def walkPage (s : State) (ctx wing layout : Nat) (row : LenRow) (p : Nat) (fillOk : Nat → Bool) : Except Fld Pte :=
  let root := rootRecord s (handleIdx row.handle)
  let w := walkWords s root p
  let e := pteOf w.2
  if !rdb s .LARDER_LAYOUT_VALID layout || readByte s (root + 4) != layout then .error .LARDER_STATUS_LAYOUT_FAULT
  else if readLe s root 4 ≠ row.handle ∨ handleCtx row.handle ≠ ctx ∨ bitsOf w.1 33 28 ≠ ctx ∨ e.ctx ≠ ctx ∨ e.gen ≠ handleGen row.handle then
    .error .LARDER_STATUS_CTX_FAULT
  else if readByte s (root + 5) ≠ 1 ∨ bitAt w.1 34 = false ∨ e.st = 0 ∨ (readByte s (root + 7) = 1 ∧ readLe s (root + 0x24) 4 = 0) then
    .error .LARDER_STATUS_MAP_FAULT
  else if e.base < rd s .LARDER_POOL_BASE wing ∨ rd s .LARDER_POOL_LIMIT wing < e.base + pageUnits s layout then .error .LARDER_STATUS_RANGE_FAULT
  else if (e.st = 1 ∧ e.fill = 0) ∨ fillOk e.fill = false then .error .LARDER_STATUS_FILL_FAULT
  else .ok e

/-- A failed walk check: its bit, the core and the row are recorded, a hub error is reported and the task ends
ABORTED_TASK. -/
def walkFault (s : State) (k : Nat) (r : RunCmd) (f : Fld) (row : Nat) : State :=
  let h := k / 66
  taskFault (wr (wr s .LARDER_FAULT_INFO_SLOT h r.q.slot) .LARDER_FAULT_INFO_ROW h row) h r f h

/-! PAGE_READ and PAGE_WRITE -/

/-- Whether byte b of a slab belongs to one of PARTS and to one of the first n tokens (R161, R169). -/
def slabKeeps (s : State) (layout parts n b : Nat) : Bool :=
  let lat := layLat s layout
  let sc := layScale s layout
  let ro := layRopeOff s layout
  let perTok := lat / 16
  let perSc := sc / 16
  let perRo := layRope s layout * 2
  if b < lat then bitAt parts 0 && decide (b / perTok < n)
  else if b < lat + sc then bitAt parts 0 && decide ((b - lat) / perSc < n)
  else if ro ≤ b ∧ b < ro + 16 * perRo then bitAt parts 1 && decide ((b - ro) / perRo < n)
  else false

/-- Every open item of a session ends FAILED_MEMORY and the session is released (R182, R271, R277). -/
def loseSession (s : State) (i : Nat) : State :=
  let main := ((s.serve.sessions.find? (fun e => e.2.companion == some i)).map (·.1)).getD i
  freeSession (endItems s (fun x => x.sess == some main) 0x20 0) main

/-- The 4 KiB blocks of a page that hold poison. -/
def pagePoisoned (s : State) (base units : Nat) : Bool :=
  s.mem.poison.any (fun b => decide (base ≤ b) && decide (b < base + units))

/-- The first page of a stage whose walk fails, with its row and status bit. -/
def firstBad (s : State) (ctx wing layout : Nat) (rows : List LenRow) (fill : LenRow → Nat → Nat → Bool) :
    List (Nat × Nat) → Option (Nat × Fld)
  | [] => none
  | (ri, p) :: rest =>
    match rows[ri]? with
    | none => firstBad s ctx wing layout rows fill rest
    | some row =>
      match walkPage s ctx wing layout row p (fill row p) with
      | .error f => some (ri, f)
      | .ok _ => firstBad s ctx wing layout rows fill rest

/-- Fill one slot of a PAGE_READ stage: its slab image, its page-map entry and the staging copy. -/
def fillSlot (k : Nat) (r : RunCmd) (rows : List LenRow) (flags parts layout layer dataOff mapOff stagingOff : Nat)
    (s : State) (e : Nat × Option (Nat × Nat)) : State :=
  let h := k / 66
  let base := lsAddr h (k % 66) 0
  let i := e.1
  let slab := slabBytes s layout
  let ring := pantryAddr h (stagingOff + i * slab)
  let put := fun (t : State) (l : List Nat) =>
    let t := writeBytes l (base + dataOff + i * slab) t
    if bitAt flags 2 then clearLr (writeBytes l ring t) ring l.length else t
  let mapTo := base + mapOff + 8 * i
  match e.2 with
  | none =>
    let s := put s (List.replicate slab 0)
    incX (writeLe (writeLe s mapTo 4 0xFFFF) (mapTo + 4) 4 0) .LARDER_PAD_SLOTS h
  | some (ri, p) =>
    match rows[ri]?.bind (fun row => ((walkPage s r.q.ctx (h / 40) layout row p (fun _ => true)).toOption).map (fun x => (row, x))) with
    | none => s
    | some (row, pte) =>
      let bad := pagePoisoned s pte.base (pageUnits s layout)
      let src := if bitAt flags 1 then ring else pte.base * 4096 + layer * slab
      let n := lenValid row p
      let img := (List.range slab).map (fun b => if !bad && slabKeeps s layout parts n b then readByte s (src + b) else 0)
      let s := put s img
      let s := writeLe (writeLe s mapTo 4 (ri + 65536 * n + 2 ^ 24 * b2n bad)) (mapTo + 4) 4 p
      if bad then wr s .LARDER_STATUS_POISON h 1 else incX s .LARDER_PAGES_READ h

/-- Sessions of the rows whose slots a stage found poisoned. -/
def poisonedRows (s : State) (r : RunCmd) (wing layout : Nat) (rows : List LenRow) (slots : List (Nat × Nat)) : List Nat :=
  (slots.filterMap fun e =>
    match rows[e.1]? with
    | none => none
    | some row =>
      match walkPage s r.q.ctx wing layout row e.2 (fun _ => true) with
      | .ok pte => if pagePoisoned s pte.base (pageUnits s layout) then some (handleIdx row.handle) else none
      | .error _ => none).eraseDups

/-- The Pantry range of a staging ring: a MODULE granule, or one the context may use (R261). -/
def stagingOk (s : State) (h ctx : Nat) (write : Bool) (off n : Nat) : Bool :=
  (granulesOf (pantryAddr h off) n).all (fun a => granuleOwner s a == 0x40 || granuleOk s ctx write a)

/-- Whether every byte of a range exists for the stream unit. -/
def rangeExists (s : State) (a n : Nat) : Bool :=
  (granulesOf a n).all (fun g => !addrFaulty s (max a g)) && (n == 0 || !addrFaulty s (a + n - 1))

/-- PAGE_READ (R169). -/
def pageReadBody (k : Nat) (r : RunCmd) (flags parts layout cores share budget layer idx lenOff dataOff mapOff qrySrc qryDst
    qryBytes heads stagingOff : Nat) (s : State) : State × Bool :=
  let h := k / 66
  let base := lsAddr h (k % 66) 0
  let rows := lenTable s (base + lenOff)
  let slab := slabBytes s layout
  let list := pageList rows cores share budget
  let slots := (List.range budget).map (fun i => (i, (list.getD (idx * budget + i) none)))
  let held := slots.filterMap (·.2)
  let fill := fun (row : LenRow) (p f : Nat) => decide (min 16 (row.committed - 16 * p) ≤ f)
  let row0 := held.head?.bind (fun e => rows[e.1]?.map (fun x => (e.1, e.2, x)))
  let qa := pantryAddr h (qrySrc + ((row0.map (·.1)).getD 0) * qryBytes)
  if extentsOk s h (k % 66) r.q.ctx [⟨lenOff, 1, 0, 16 + 16 * rows.length, false⟩, ⟨dataOff, budget, slab, slab, true⟩] = false
      ∨ ((bitAt flags 1 ∨ bitAt flags 2) ∧ stagingOk s h r.q.ctx (bitAt flags 2) stagingOff (budget * slab) = false) then
    (granuleFault s h r, false)
  else match firstBad s r.q.ctx (h / 40) layout rows fill held with
    | some (ri, f) => (walkFault s k r f ri, false)
    | none =>
      if bitAt flags 0 ∧ row0.isSome ∧ rangeExists s qa qryBytes = false then (addrFault s h r, false)
      else if bitAt flags 0 ∧ row0.isSome ∧ (granulesOf qa qryBytes).all (granuleOk s r.q.ctx false) = false then (granuleFault s h r, false)
      else
        let s := if bitAt flags 0 && row0.isSome then writeBytes (readBytes s qa qryBytes) (base + qryDst) s else s
        let lost := poisonedRows s r (h / 40) layout rows held
        let s := slots.foldl (fillSlot k r rows flags parts layout layer dataOff mapOff stagingOff) s
        let valid := (held.map (fun e => match rows[e.1]? with | some x => lenValid x e.2 | none => 0)).sum
        let s := writeLe s (base + mapOff + 64) 4 (if row0.isSome then heads else 0)
        let s := writeLe s (base + mapOff + 68) 4 valid
        let s := writeLe s (base + mapOff + 72) 4 ((row0.map (fun e => e.2.2.firstPos + 16 * e.2.1)).getD 0)
        let s := writeLe s (base + mapOff + 76) 4 0
        (each lost s loseSession, true)

/-- One token record of a PAGE_WRITE stage goes to its slot: its parts, from the record at an address. -/
def writeToken (layout parts layer : Nat) (s : State) (e : Nat × Nat × Nat) : State :=
  let perTok := layLat s layout / 16
  let perSc := layScale s layout / 16
  let perRo := layRope s layout * 2
  let slabAt := e.1 * 4096 + layer * slabBytes s layout
  let slot := e.2.1
  let src := e.2.2
  let part := fun (t : State) (on : Bool) (from_ n dst : Nat) => if on then storeHbm t dst (readBytes t from_ n) else t
  let s := part s (bitAt parts 0) src perTok (slabAt + slot * perTok)
  let s := part s (bitAt parts 0) (src + perTok) perSc (slabAt + layLat s layout + slot * perSc)
  part s (bitAt parts 1) (src + perTok + perSc) perRo (slabAt + layRopeOff s layout + slot * perRo)

/-- The tokens a share writes: row, page and slot in it, in the order of the run (R170). -/
def newTokens (rows : List LenRow) (cores share : Nat) : List (Nat × Nat × Nat) :=
  let all := (rows.zipIdx.map (fun e => (List.range e.1.new_).map (fun j => (e.2, (e.1.committed + j) / 16, (e.1.committed + j) % 16)))).flatten
  (all.zipIdx.filter (fun e => e.2 % cores == share)).map (·.1)

/-- PAGE_WRITE (R170). -/
def pageWriteBody (k : Nat) (r : RunCmd) (parts layout cores share layer lenOff dataOff : Nat) (s : State) : State × Bool :=
  let h := k / 66
  let base := lsAddr h (k % 66) 0
  let rows := lenTable s (base + lenOff)
  let toks := newTokens rows cores share
  let size := layLat s layout / 16 + layScale s layout / 16 + layRope s layout * 2
  let pages := (toks.map (fun e => (e.1, e.2.1))).eraseDups
  let fill := fun (row : LenRow) (p f : Nat) =>
    toks.all (fun e => !(rows[e.1]? == some row && e.2.1 == p) || decide (f ≤ e.2.2))
  if extentsOk s h (k % 66) r.q.ctx [⟨lenOff, 1, 0, 16 + 16 * rows.length, false⟩, ⟨dataOff, toks.length, size, size, false⟩] = false then
    (granuleFault s h r, false)
  else match firstBad s r.q.ctx (h / 40) layout rows fill pages with
    | some (ri, f) => (walkFault s k r f ri, false)
    | none =>
      let places := toks.zipIdx.filterMap fun e =>
        rows[e.1.1]?.bind fun row =>
          match walkPage s r.q.ctx (h / 40) layout row e.1.2.1 (fun _ => true) with
          | .ok pte => some (pte.base, e.1.2.2, base + dataOff + e.2 * size)
          | .error _ => none
      (incX (places.foldl (writeToken layout parts layer) s) .LARDER_TOKENS_WRITTEN h places.length, true)

/-- PAGE_READ (R169). -/
def execPageRead (t hub phys : Nat) (run : StageRun) (s : State) : Host.Outcome State Fault Refusal :=
  settle s (streamEvent s t hub phys (fun d => match d with | .page m .. => m == 8 | _ => false) fun u k r i d =>
    match d with
    | .page _ flags parts layout cores share budget layer idx lenOff dataOff mapOff qs qd qb heads so _ =>
      streamStage u k r i (.stream d) run budget
        (pageReadBody k r flags parts layout cores share budget layer idx lenOff dataOff mapOff qs qd qb heads so)
    | _ => u)

/-- PAGE_WRITE (R170). -/
def execPageWrite (t hub phys : Nat) (run : StageRun) (s : State) : Host.Outcome State Fault Refusal :=
  settle s (streamEvent s t hub phys (fun d => match d with | .page m .. => m == 9 | _ => false) fun u k r i d =>
    match d with
    | .page _ _ parts layout cores share _ layer _ lenOff dataOff _ _ _ _ _ _ _ =>
      streamStage u k r i (.stream d) run 0 (pageWriteBody k r parts layout cores share layer lenOff dataOff)
    | _ => u)

/-! ADAPTER_READ -/

/-- The entry a hub's stream units see: the cached copy of the active generation, else the bank of the hub's wing,
which the cache of 64 then holds (R225). -/
def lookupEntry (s : State) (h slot : Nat) : PEntry × State :=
  let gen := rd s .PANNIER_CTRL_ACTIVE_GEN
  let l := storeGet [] s.pann.caches h
  match l.find? (fun c => c.slot == slot && c.gen == gen) with
  | some c => (c.entry, updPann s fun p => { p with caches := storePut [] p.caches h (c :: l.filter (fun x => x.slot != slot)) })
  | none =>
    let e := pannierEntry s (rd s .PANNIER_CTRL_ACTIVE_BANK) (h / 40) slot
    let s := incX s .PANNIER_CACHE_MISS h
    (e, updPann s fun p => { p with caches := storePut [] p.caches h ((⟨slot, gen, e⟩ :: l.filter (fun x => x.slot != slot)).take 64) })

/-- The reason an ADAPTER_READ group is skipped, 0 for none (R223, R250). -/
def groupReason (s : State) (r : RunCmd) (h model slot budget : Nat) (ctxs : List Nat) (e : PEntry) : Nat :=
  let training := e.st == 3 && r.q.task.any (fun k => match itemAt s k.1 k.2 with
    | some x => x.opcode == 0x13 && x.slot == some slot
    | none => false)
  if !(e.st == 2 || e.st == 4 || training) then 1
  else if !(ctxs.all (· == e.ctx)) then 2
  else if e.model ≠ model then 3
  else if budget < e.rank then 4
  else if e.rank ≠ 0 ∧ pagePoisoned s (partAddr s (h / 40) e / 4096) (e.partUnits.getD (h / 40) 0) then 5
  else 0

/-- The slice of a group: A, A's scales, B, B's scales of the share's columns of A and rows of B, padded to the rank
budget (R222 to R224). Columns of A are shared in whole blocks of 32. -/
def adapterSlice (s : State) (h : Nat) (e : PEntry) (target cores share budget : Nat) : List Nat :=
  match modelAt s e.model with
  | none => []
  | some m =>
    let w := h / 40
    let col := mapEntry m e.targetSet target w
    let fmt := e.format
    let ew := adW fmt
    let base := partAddr s w e + ((List.range target).map (fun i => partBytes fmt e.rank (mapEntry m e.targetSet i w))).sum
    let cn := col.getD 3 0
    let rn := col.getD 1 0
    let per := ceilDiv (ceilDiv cn 32) cores
    let c0 := min cn (share * per * 32)
    let n := min cn ((share + 1) * per * 32) - c0
    let perB := ceilDiv rn cores
    let b0 := min rn (share * perB)
    let nb := min rn ((share + 1) * perB) - b0
    let aS := base + e.rank * cn * ew
    let b := aS + e.rank * adScales fmt cn
    let bS := b + rn * e.rank * ew
    let z := fun (k : Nat) => List.replicate k 0
    ((List.range budget).map (fun i => if i < e.rank then readBytes s (base + i * cn * ew + c0 * ew) (n * ew) else z (n * ew))).flatten
      ++ ((List.range budget).map (fun i =>
        if i < e.rank then readBytes s (aS + i * adScales fmt cn + c0 / 32) (adScales fmt n) else z (adScales fmt n))).flatten
      ++ ((List.range nb).map (fun i => readBytes s (b + (b0 + i) * e.rank * ew) (e.rank * ew) ++ z ((budget - e.rank) * ew))).flatten
      ++ ((List.range nb).map (fun i => readBytes s (bS + (b0 + i) * adScales fmt e.rank) (adScales fmt e.rank)
        ++ z (adScales fmt budget - adScales fmt e.rank))).flatten

/-- The items of the rows of a group: the open request of each session handle, or the command's training item of the
context a training row names. -/
def groupItems (s : State) (r : RunCmd) (handles : List Nat) : List (Nat × Nat) :=
  (handles.map fun hd =>
    if handleGen hd = 0 then r.q.task.filter (fun k => k.1 == handleCtx hd)
    else match liveHandle s (handleCtx hd) hd with
      | some i => ((openGen s i).map (fun x => (x.ctx, x.idx))).toList
      | none => []).flatten.eraseDups

/-- Serve one group of an ADAPTER_READ stage. -/
def serveGroup (k : Nat) (r : RunCmd) (model target cores share groupOff rowOff dataOff groupBytes statusOff : Nat)
    (s : State) (g : Nat) : State :=
  let h := k / 66
  let base := lsAddr h (k % 66) 0
  let ga := base + groupOff + 8 * g
  let slot := readLe s ga 2 % 16384
  let budget := readLe s (ga + 2) 2
  let first := readLe s (ga + 4) 2
  let handles := (List.range (readLe s (ga + 6) 2)).map (fun i => readLe s (base + rowOff + 4 * (first + i)) 4)
  let (e, s) := lookupEntry s h slot
  let why := groupReason s r h model slot budget (handles.map handleCtx) e
  let img := if why = 0 ∧ e.rank ≠ 0 then adapterSlice s h e target cores share budget else []
  let s := writeBytes ((img ++ List.replicate (groupBytes - img.length) 0).take groupBytes) (base + dataOff + g * groupBytes) s
  let s := writeLe s (base + statusOff + 4 * g) 4 (b2n (why != 0) + 2 * why + 65536 * e.rank)
  if why = 0 then s
  else
    let s := wr (wr s .PANNIER_STATUS_FAULT h 1) .PANNIER_STATUS_REASON h why
    let s := wr (wr s .PANNIER_FAULT_INFO_SLOT h slot) .PANNIER_FAULT_INFO_CORE h r.q.slot
    let s := hubError (inc s .PANNIER_OWNER_FAULTS) h 0xE00 (1 + 2 * why) r.q.slot (some r.q.ctx)
    let s := each (groupItems s r handles) s fun t i =>
      match itemAt t i.1 i.2 with
      | some x => endItem t x (if why = 5 then 0x20 else 0x23) (if why = 5 then 0 else 0x02)
      | none => t
    if why = 5 ∧ (plannedEntry s slot).st = 2 then startRelease s slot none false else s

/-- ADAPTER_READ (R223). -/
def execAdapterRead (t hub phys : Nat) (run : StageRun) (s : State) : Host.Outcome State Fault Refusal :=
  settle s (streamEvent s t hub phys (fun d => match d with | .adapter .. => true | _ => false) fun u k r i d =>
    match d with
    | .adapter model target cores share groups goff roff doff gbytes soff _ =>
      streamStage u k r i (.stream d) run groups fun x =>
        ((List.range groups).foldl (serveGroup k r model target cores share goff roff doff gbytes soff) x, true)
    | _ => u)

/-! Transfer modes (R265, R266, R268) -/

/-- The address of a row of a SRC or DST field, if the core it names is served. -/
def rowAddr (s : State) (k kind field stride row : Nat) : Option Nat :=
  let h := k / 66
  match kind with
  | 0 => some (field % 2 ^ 52 + row * stride)
  | 1 => some (lsAddr h (k % 66) (bitsOf field 48 32 + row * stride))
  | _ =>
    let hub := bitsOf field 14 13 * 40 + bitsOf field 12 7
    (physOf s hub (bitsOf field 6 0)).map (fun p => lsAddr hub p (bitsOf field 48 32 + row * stride))

/-- Whether the stream unit may reach a row: 0 yes, 1 an address fault, 2 an owner fault (R255, R257, R261). -/
def rowCheck (s : State) (ctx kind : Nat) (write maintFill : Bool) (a n : Nat) : Nat :=
  if n = 0 then 0
  else if kind ≠ 0 then (if (granulesOf a n).all (granuleOk s ctx write) then 0 else 2)
  else if !rangeExists s a n then 1
  else if isHbm a then
    (if (granulesOf a n).all (fun g => regionOk s ctx write maintFill (max a g)) then 0 else 2)
  else if a / 2 ^ 48 = 1 then 0
  else if (granulesOf a n).all (granuleOk s ctx write) then 0 else 2

/-- Fault of a row check. -/
def rowFault (s : State) (k : Nat) (r : RunCmd) (c : Nat) : State :=
  if c = 1 then addrFault s (k / 66) r else granuleFault s (k / 66) r

/-- A target line of a reduction, as an unlisted line reads. -/
def redLineAt (s : State) (line count fmt : Nat) : RedLine := (s.mem.redLines.find? (fun l => l.line == line)).getD ⟨line, 0, count, fmt, []⟩

def setRedLine (s : State) (l : RedLine) : State :=
  updMem s fun m => { m with redLines := m.redLines.filter (fun x => x.line != l.line) ++ [l] }

/-- Add 32 elements into a line: FP32, or INT32 wrapping. -/
def addFlit (s : State) (line fmt : Nat) (v : List Nat) : State :=
  let a := line * 128
  let sum := v.zipIdx.map fun e =>
    let old := readLe s (a + 4 * e.2) 4
    if fmt = 0xA then f32Add old e.1 else (old + e.1) % 2 ^ 32
  clearLr (writeBytes ((sum.map (leBytes 4)).flatten) a s) a 128

/-- Apply the held addends that have become due, in ascending index; a complete line starts anew. -/
def drainRed (s : State) (line : Nat) : Nat → State
  | 0 => s
  | n + 1 =>
    match s.mem.redLines.find? (fun l => l.line == line) with
    | none => s
    | some l =>
      match l.held.find? (fun e => e.1 == l.expected) with
      | none => s
      | some e =>
        let s := addFlit s line l.fmt e.2
        let l := { l with held := l.held.filter (fun x => x.1 != e.1), expected := l.expected + 1 }
        let l := if l.expected ≥ l.count then { l with expected := 0 } else l
        drainRed (if l.expected = 0 ∧ l.held = [] then updMem s fun m => { m with redLines := m.redLines.filter (fun x => x.line != line) }
          else setRedLine s l) line n

/-- Addends that a Pantry bank holds in its reorder buffer (R263, R268). -/
def bankHeld (s : State) (line : Nat) : Nat :=
  ((s.mem.redLines.filter (fun l => l.line * 128 / 0x800000 == line * 128 / 0x800000 && l.line % 16 == line % 16)).map (fun l => l.held.length)).sum

/-- One source flit reaches its target line (R268). An early flit is held; beyond 32 in its bank it waits in its source
queue, which is counted. -/
def redArrive (h : Nat) (s : State) (line idx count fmt : Nat) (v : List Nat) : State :=
  let l := redLineAt s line count fmt
  let early := l.expected != idx
  let s := if early && decide (32 ≤ bankHeld s line) then incX s .MEM_RED_REORDER_WAIT h else s
  let s := setRedLine s { l with held := l.held ++ [(idx, v)] }
  drainRed s line (l.held.length + 1)

/-- The source bytes of a row: from the device, or from the bytes that a host read gave. -/
def srcBytes (s : State) (a n : Nat) (host : List Nat) (row : Nat) : List Nat :=
  if a / 2 ^ 48 = 1 then (host.drop (row * n)).take n else readBytes s a n

/-- Whether the plan carries a row between the core's wing and the wings of its source and destination (R13). -/
def rowCarried (s : State) (k mode src dst : Nat) : Bool :=
  let w := k / 66 / 40
  (mode == 3 || (match wingOf src with | some a => carried s a w | none => true))
    && (match wingOf dst with | some b => carried s w b | none => true)

/-- Move one row of a transfer stage; none when nothing stops it. A row that the plan does not carry between wings is not
sent (R13). -/
def moveRow (k : Nat) (r : RunCmd) (mode sk dk fmt srcIdx cnt n fill : Nat) (cache : Bool) (host : Option (List Nat))
    (s : State) (row : Nat) (src dst : Nat) : State × Bool :=
  let h := k / 66
  let ctx := r.q.ctx
  let maint := mode == 3 && bitAt r.q.card.flags 3
  let cs := if mode = 3 then 0 else rowCheck s ctx sk false false src n
  let cd := rowCheck s ctx dk true maint dst n
  let cold := fun (a : Nat) => isHbm a && (granulesOf a n).any (fun g => poisoned s g || refetched s g)
  if cs ≠ 0 then (rowFault s k r cs, false)
  else if cd ≠ 0 then (rowFault s k r cd, false)
  else if mode ≠ 3 ∧ cold src then
    (if inWeights s src then (s, false) else (endTask s r.q.task r.q.card.cardId 0x20 0, false))
  else if mode ≠ 3 ∧ src / 2 ^ 48 = 1 ∧ host = none then (endTask s r.q.task r.q.card.cardId 0x23 0x05, false)
  else if rowCarried s k mode src dst = false then (s, true)
  else
    let s := if cache && mode == 1 && isHbm src then
        ((List.range (ceilDiv n 128)).map (fun i => src / 128 + i)).foldl (cacheLine h (regionOwner s src)) s
      else s
    let data := if mode = 3 then ((List.range (n / 4)).map (fun _ => leBytes 4 fill)).flatten else srcBytes s src n (host.getD []) row
    if mode = 2 then
      let flits := (List.range (n / 128)).map (fun i =>
        (dst / 128 + i, (List.range 32).map (fun j => leNum ((data.drop (i * 128 + 4 * j)).take 4))))
      (flits.foldl (fun t f => redArrive ((dst - pantryBase) / 0x800000) t f.1 srcIdx cnt fmt f.2) s, true)
    else (putBytes s ctx dst data, true)

/-- The rows of a transfer stage in ascending order. -/
def moveRows (k : Nat) (r : RunCmd) (d : StreamDesc) (host : Option (List Nat)) : Nat → Nat → State → State × Bool
  | 0, _, s => (s, true)
  | n + 1, row, s =>
    match d with
    | .transfer mode flags fmt _ srcIdx rowB cnt src dst ss ds fill _ _ =>
      match (if mode = 3 then some 0 else rowAddr s k (flags % 4) src ss row), rowAddr s k (flags / 4 % 4) dst ds row with
      | some a, some b =>
        let (s, ok) := moveRow k r mode (flags % 4) (flags / 4 % 4) fmt srcIdx cnt rowB fill (bitAt flags 4) host s row a b
        if ok then moveRows k r d host n (row + 1) s else (s, false)
      | _, _ => (addrFault s (k / 66) r, false)
    | _ => (s, false)

/-- A transfer stage of a mode. -/
def transferEvent (s : State) (t hub phys mode_ : Nat) (host : Option (List Nat)) (run : StageRun) : State :=
  streamEvent s t hub phys (fun d => match d with | .transfer m .. => m == mode_ | _ => false) fun u k r i d =>
    match d with
    | .transfer _ flags _ rows _ rowB _ _ _ _ _ _ liveOff _ =>
      let live := liveRows u k (bitAt flags 5) liveOff rows
      streamStage u k r i (.stream d) run live fun x =>
        let x := liveClamp x k r (bitAt flags 5) liveOff rows
        if rowB = 0 then (x, true) else moveRows k r d host live 0 x
    | _ => u

/-- COPY (R266): `host` is what a read of host memory gave, row after row. -/
def execCopy (t hub phys : Nat) (host : Option (List Nat)) (run : StageRun) (s : State) : Host.Outcome State Fault Refusal :=
  settle s (transferEvent s t hub phys 1 host run)

/-- RED_ADD (R268). -/
def execRedAdd (t hub phys : Nat) (host : Option (List Nat)) (run : StageRun) (s : State) : Host.Outcome State Fault Refusal :=
  settle s (transferEvent s t hub phys 2 host run)

/-- FILL (R266). -/
def execFill (t hub phys : Nat) (run : StageRun) (s : State) : Host.Outcome State Fault Refusal :=
  settle s (transferEvent s t hub phys 3 none run)

/-! Atomic operations and grants -/

/-- Whether an atomic of a width may run at an address: aligned, in the scratch part of a Pantry window. -/
def atomicOk (s : State) (a n : Nat) : Bool :=
  decide (pantryBase ≤ a) && decide (a < 0xC050000000) && a % n == 0 && !addrFaulty s a

/-- What an AMO leaves in memory, for operands of w bits. -/
def amoResult (op : AmoOp) (w old v : Nat) : Nat :=
  match op with
  | .swap => v
  | .add => (old + v) % 2 ^ w
  | .xor => old ^^^ v
  | .and => old &&& v
  | .or => old ||| v
  | .min => if signedOf w old ≤ signedOf w v then old else v
  | .max => if signedOf w old ≤ signedOf w v then v else old
  | .minu => Nat.min old v
  | .maxu => Nat.max old v

/-- PANTRY_AMO (R267): a control core's atomic on a word of 32 or 64 bits; its old value is returned. Any other
address takes an access fault in the control core and changes nothing here. -/
def execPantryAmo (hub addr : Nat) (double : Bool) (op : AmoOp) (value : Nat) (s : State) : Host.Outcome State Fault Refusal :=
  let n := if double then 8 else 4
  settle s (if hub < 160 ∧ atomicOk s addr n then
      let old := readLe s addr n
      let v := amoResult op (8 * n) old (value % 2 ^ (8 * n))
      emit (clearLr (writeLe s addr n v) addr n) (.readData old)
    else s)

/-- PANTRY_LR (R267): the word is read and its aligned 8 bytes are reserved for the control core. -/
def execPantryLr (hub addr : Nat) (double : Bool) (s : State) : Host.Outcome State Fault Refusal :=
  let n := if double then 8 else 4
  settle s (if hub < 160 ∧ atomicOk s addr n then
      emit (updMem s fun m => { m with lr := storeInsert m.lr hub (addr / 8) }) (.readData (readLe s addr n))
    else s)

/-- PANTRY_SC (R267): the store happens if the reservation still holds, and 0 is returned; else 1. -/
def execPantrySc (hub addr : Nat) (double : Bool) (value : Nat) (s : State) : Host.Outcome State Fault Refusal :=
  let n := if double then 8 else 4
  settle s (if hub < 160 ∧ atomicOk s addr n then
      let held := storeFind s.mem.lr hub == some (addr / 8)
      let s := updMem s fun m => { m with lr := storeErase m.lr hub }
      if held then emit (clearLr (writeLe s addr n (value % 2 ^ (8 * n))) addr n) (.readData 0) else emit s (.readData 1)
    else s)

/-- Whether a source is one of the lead control core, the hub's own control core and the management context. -/
def hubWriter (s : State) (src : Src) (hub : Nat) : Bool :=
  match src with
  | .mgmt => isMgmt s src
  | .core h => h == hub || h == leadHub s
  | _ => false

/-- Owner codes that a grant may set (R257). -/
def grantCode (o : Nat) : Bool := decide (o ≤ 0x41) || o == 0x7F

/-- MEM_GRANT (R260): the granule takes its owner and loses every valid bit. -/
def execMemGrant (src : Src) (hub granule space phys owner : Nat) (go : Bool) (s : State) : Host.Outcome State Fault Refusal :=
  settle s (if go && hubWriter s src hub && decide (hub < 160) && grantCode owner
        && (if space = 0 then decide (granule < 2048) else decide (granule < 24) && decide (phys < 66)) then
      let a := if space = 0 then pantryAddr hub (granule * 4096) else lsAddr hub phys (granule * 4096)
      let s := clearGranule s a
      updMem s fun m => { m with granules := storePut 0x7F m.granules (a / 4096) owner }
    else s)

end Sys2Proof.Machine
end

