-- ==== Sys2Proof/Machine/Integrity.lean ====
section
/-! DEFINITION. Field tests and sweeps (R296 to R301), hangs (R291), heartbeats (R302), operations on cores and hubs
(R309), trail dumps (R453), and the report path's own events (R304, R418). -/

namespace Sys2Proof.Machine

/-! Field tests -/

/-- Tests of the library (Table 10-5). -/
def testCount : Nat := 12

/-- Whether a test may run on a core: never on one whose READMITS count has reached 2 once retired, and at G2 or above
(R296, R300). -/
def testable (s : State) (k : Nat) : Bool :=
  decide (2 ≤ rd s .DRL_GEAR_CURRENT (k / 66 / 40)) && !(coreState s k == 4 && rd s .INTEG_CORE_INFO_READMITS k == 2)

/-- The SKIP in force while a core is tested: the rate of its sweeps, or the one it serves with. -/
def testSkip (s : State) (k : Nat) : Nat :=
  if serving s k then rd s .INTEG_CORE_INFO_SKIP k else storeGet 0 s.core.testRate k

/-- A run of passing sweeps ends. -/
def dropRun (s : State) (k : Nat) : State :=
  updCore (wr s .INTEG_CORE_INFO_PASS_RUN k 0) fun c => { c with clearRun := storeErase c.clearRun k, sweep := storeErase c.sweep k }

/-- What a failed test does to its core (Table 10-3, R300). -/
def failedTest (s : State) (k : Nat) : State :=
  let s := dropRun s k
  match coreState s k with
  | 1 => markSuspect s k 0x03
  | 2 => markRetired s k 0x03 false
  | 3 =>
    if serving s k then s
    else
      let r := storeGet 0 s.core.testRate k
      if r ≥ 2 then markRetired s k 0x03 false
      else updCore s fun c => { c with testRate := storePut 0 c.testRate k (r + 1) }
  | _ => if rdb s .INTEG_CORE_INFO_CLEARED k then saveCore (wr s .INTEG_CORE_INFO_CLEARED k 0) k else s

/-- Whether some serving core of a hub was last swept longer ago than FT_PERIOD (R298). -/
def starved (s : State) (h : Nat) : Bool :=
  (List.range 66).any fun p =>
    let k := h * 66 + p
    serving s k && decide (storeGet 0 s.core.sweepAt k + rd s .INTEG_FT_FT_PERIOD * 3600000000000 < s.now)

/-- A core has passed the whole library in order (R298, R300, Table 10-3). -/
def passedSweep (s : State) (k : Nat) : State :=
  let h := k / 66
  let run := storeGet (0, s.now) s.core.clearRun k
  let s := inc s .INTEG_CORE_INFO_PASS_RUN k
  let n := run.1 + 1
  let s := updCore s fun c => { c with
    sweepAt := storePut 0 c.sweepAt k s.now
    sweep := storeErase c.sweep k
    lastSwept := storeInsert c.lastSwept h (k % 66)
    clearRun := storeInsert c.clearRun k (n, run.2) }
  let s := if rdb s .INTEG_HUB_FT_STARVED h && !starved s h then wr s .INTEG_HUB_FT_STARVED h 0 else s
  let rate := storeGet 0 s.core.testRate k
  if coreState s k = 3 ∧ serving s k = false ∧ 16 ≤ n then
    if rate = 0 then
      if run.2 + 3600000000000 ≤ s.now then dropRun (setCoreState (wr s .INTEG_CORE_INFO_SKIP k 0) k 2 0x09) k else s
    else if rd s .INTEG_CORE_INFO_SKIP k = rate then s
    else setCoreState (wr s .INTEG_CORE_INFO_SKIP k rate) k 3 0x09
  else if coreState s k = 4 ∧ 64 ≤ n ∧ run.2 + 86400000000000 ≤ s.now ∧ rd s .INTEG_CORE_INFO_CLEARED k = 0 then
    saveCore (wr s .INTEG_CORE_INFO_CLEARED k 1) k
  else s

/-- MAX_NS of a test's card (Table 10-5). -/
def fieldTestNs (test : Nat) : Nat := [0, 24000, 48000, 24000, 72000, 48000, 32000, 16000, 40000, 24000, 12000, 60000, 20000].getD test 0

/-- Whether a test may start now (R57): the core's step work is complete, and while a step runs the reserve it has left exceeds
the card's MAX_NS. -/
def testStarts (s : State) (k test : Nat) : Bool :=
  (queueAt s k).isEmpty && (!s.tt.run.running || decide (fieldTestNs test + s.tt.run.reserveUsed < s.tt.run.reserveNs))

/-- The pattern generator of FT01 (R299). -/
def ft01A (r k : Nat) : Int := ((r + 3 * k) % 15 : Nat) - 7
def ft01B (k n : Nat) : Int := ((5 * k + n) % 13 : Nat) - 6

/-- FT01's tile: 256 rows of INT8 by INT8 over K = 256, in REF mode (R80, Table 10-5). -/
def ft01Tile (cols : Nat) : Tile :=
  let d : OpDesc := ⟨6, 0, 0, 0, 0, 0, 0, true⟩
  ⟨d, d, true, 32, 8, 256, (List.range 256).map (fun r => (true, (List.range 256).map (fun k => some ⟨ft01A r k, 0⟩))),
    (List.range cols).map (fun n => (List.range 256).map (fun k => some ⟨ft01B k n, 0⟩))⟩

/-- The bytes that FT01 leaves in its output region, row after row in INT32. -/
def ft01Out (cols : Nat) : List Nat :=
  let t := ft01Tile cols
  let w := (List.range (tileSegments t)).foldl (fun w i => runSegment t i w) (emptyBank t)
  ((drainTile t.a t.b ⟨0xB, true, false, true⟩ cols w.accs).flatten.map (leBytes 4)).flatten

/-- The CRC of a test's output region as the core left it (R296). -/
def observedCrc (test : Nat) (ft : FtRun) : Nat :=
  crc64 (ft.flips.foldl (fun l f => l.modify f.1 (fun b => (b ^^^ f.2) % 256)) (if test = 1 then ft01Out ft.cols else ft.out))

/-- FIELD_TEST (R296): a test runs on a core, from its inputs to the CRC of its output region. -/
def execFieldTest (t hub phys test : Nat) (ft : FtRun) (expected : Nat) (event : Bool) (s : State) : Host.Outcome State Fault Refusal :=
  let u := tick s t
  let k := coreKey hub phys
  let observed := observedCrc test ft
  settle s (if decide (1 ≤ test ∧ test ≤ testCount) && decide (hub < 160) && decide (phys < 66) && testable u k && testStarts u k test then
      if observed = expected ∧ event = false then
        let u := incX u .INTEG_TEST_PASS hub
        let done := storeGet [] u.core.sweep k
        if test = done.length + 1 then
          if test = testCount then passedSweep u k
          else updCore u fun c => { c with sweep := storeInsert c.sweep k (done ++ [test]) }
        else if test = 1 then updCore u fun c => { c with sweep := storeInsert c.sweep k [1] }
        else u
      else
        let u := incX u .INTEG_TEST_FAIL hub
        let u := report u 0x06 (physIndex hub phys)
          [(1, test, false), (1, testSkip u k, false), (1, if event then 3 else 2, false), (8, observed, false), (8, expected, false)]
        failedTest u k
    else u)

/-- The core that a rotation sweeps next (R298): SUSPECT cores not serving, eligible RETIRED cores, then the ACTIVE or
SPARE core with the oldest last sweep. -/
def nextToSweep (s : State) (h : Nat) : Option Nat :=
  let ps := List.range 66
  let st := fun (p : Nat) => coreState s (h * 66 + p)
  let age := fun (p : Nat) => storeGet 0 s.core.sweepAt (h * 66 + p)
  match ps.find? (fun p => st p == 3 && !serving s (h * 66 + p)) with
  | some p => some p
  | none =>
    match ps.find? (fun p => st p == 4 && decide (rd s .INTEG_CORE_INFO_READMITS (h * 66 + p) < 2) && !rdb s .INTEG_CORE_INFO_CLEARED (h * 66 + p)) with
    | some p => some p
    | none =>
      let l := ps.filter (fun p => st p == 1 || st p == 2)
      l.find? (fun p => l.all (fun q => decide (age p ≤ age q)))

/-- Compose the inactive bank of a hub with one slot moved, and request its flip (R20, R294). While a flip is pending the
writes are dropped (R21). -/
def requestMove (s : State) (h slot phys : Nat) : State :=
  if rdb s .HUB_REMAP_CTRL_FLIP_REQ h then wr s .HUB_REMAP_CTRL_WRITE_DROPPED h 1
  else
  let a := rd s .HUB_REMAP_CTRL_ACTIVE_BANK h
  let s := each (List.range 64) s fun t l =>
    let v := if l = slot then phys + 128 else bankEntry t a (h * 64 + l)
    updTt (setBankEntry t (1 - a) (h * 64 + l) v) fun x => { x with remapWritten := storePut false x.remapWritten (h * 64 + l) true }
  wantBoundary (wr s .HUB_REMAP_CTRL_FLIP_REQ h 1)

/-- SWEEP_ROTATION (R298). -/
def execSweepRotation (t hub : Nat) (s : State) : Host.Outcome State Fault Refusal :=
  let u := tick s t
  let spares := (List.range 66).filter (fun p => coreState u (hub * 66 + p) == 2)
  let due := match storeFind u.core.lastRotate hub with
    | some x => decide (x + rd u .INTEG_FT_ROTATE_MIN * 1000000000 ≤ u.now)
    | none => true
  settle s (if decide (hub < 160) && rdb u .INTEG_FT_ROTATE_EN && decide (2 ≤ spares.length) && due then
      match nextToSweep u hub with
      | none => u
      | some p =>
        let u := updCore u fun c => { c with lastRotate := storeInsert c.lastRotate hub u.now }
        let spare := ((storeFind u.core.lastSwept hub).filter (fun q => decide (q ∈ spares))).or spares.head?
        match logicalOf u hub p, spare with
        | some l, some q => if coreState u (hub * 66 + p) = 1 ∧ q ≠ p then requestMove u hub l q else u
        | _, _ => u
    else u)

/-- FT_STARVED (R298): the flag is set and a DERATE record carries it. -/
def execFtStarved (t hub : Nat) (s : State) : Host.Outcome State Fault Refusal :=
  let u := tick s t
  settle s (if decide (hub < 160) && starved u hub && !rdb u .INTEG_HUB_FT_STARVED hub then
      let u := wr u .INTEG_HUB_FT_STARVED hub 1
      let out := ((List.range 160).filter (fun h => !inPlacement u h)).length
      report u 0x0D hub [(2, rd u .INTEG_DERATE_SERVING, false), (1, out, false), (2, rd u .INTEG_DERATE_RATIO, false), (1, 1, false)]
    else u)

/-! Hangs and heartbeats -/

/-- HANG_TIMEOUT (R291): a command has run longer than MAX_NS plus the step's unused reserve at its start, which the event's
reserve is not below. The core leaves service at once, and every task with a command on it ends (R476). -/
def execHangTimeout (t hub phys reserve : Nat) (s : State) : Host.Outcome State Fault Refusal :=
  let u := tick s t
  let k := coreKey hub phys
  settle s (match (queueAt u k).find? (fun r => r.started && decide (r.unused ≤ reserve ∧ r.start + r.q.card.maxNs + reserve < u.now)) with
    | some r =>
      let u := trail (incX u .INTEG_HANGS hub) k 0x09 r.q.ctx r.q.index 2
      let u := endTask u r.q.task r.q.card.cardId 0x23 0x02
      let u := each (tasksOn u (· == k)) u fun x e => endTask x e.1 e.2 0x23 0x02
      let u := markRetired u k 0x06 true
      let u := report u 0x04 (physIndex hub phys)
        [(4, r.q.card.cardId, true), (4, r.q.index, true), (8, r.start, false)] (some r.q.ctx)
      freezeHub u hub 0
    | none => u)

/-- HEARTBEAT_SAMPLE (R302): the lead samples a hub's heartbeat; one that has not advanced over 300 µs has a failed
control core. -/
def execHeartbeatSample (t hub value : Nat) (s : State) : Host.Outcome State Fault Refusal :=
  let u := tick s t
  let b := storeGet (0, 0) u.core.beat hub
  settle s (if hub ≥ 160 ∨ rd u .INTEG_HUB_STATE hub = 2 ∨ hub ∈ u.core.halted ∨ (storeFind u.boot.hubResets hub).isSome then u
    else
      let fresh := updCore (wr u .INTEG_HEARTBEAT hub (value % 2 ^ 32)) fun c => { c with beat := storeInsert c.beat hub (value, u.now) }
      if value ≠ b.1 then fresh
      else if b.2 + 300000 ≤ u.now then hubFailed fresh hub
      else u)

/-- Module hub index of the shadow control core; while it is halted nothing takes over (R455). -/
def shadowHub (s : State) : Nat := rd s .INTEG_LEAD_SHADOW_WING * 40

/-- SHADOW_HEARTBEAT_SAMPLE (R302): the shadow takes over when the lead's heartbeat has not advanced for 30 µs. -/
def execShadowHeartbeatSample (t value : Nat) (s : State) : Host.Outcome State Fault Refusal :=
  let u := tick s t
  let fresh := updCore u fun c => { c with shadowBeat := (value, u.now) }
  settle s (if value ≠ u.core.shadowBeat.1 then fresh
    else if leadHub u ∈ u.core.halted ∨ shadowHub u ∈ u.core.halted then u
    else if u.core.shadowBeat.2 + 30000 ≤ u.now then leadFails fresh
    else u)

/-- MACHINE_CHECK (R302): the lead takes a machine check and the shadow takes over. -/
def execMachineCheck (t : Nat) (s : State) : Host.Outcome State Fault Refusal :=
  let u := tick s t
  settle s (if shadowHub u ∈ u.core.halted then u
    else leadFails (updCore u fun c => { c with shadowBeat := (c.shadowBeat.1, u.now) }))

/-! INTEG_CORE_CMD (R309) -/

/-- The operation's outcome in INTEG_CMD_STATUS. -/
def cmdDone (s : State) (hub : Nat) : State := wr s .INTEG_CMD_STATUS_DONE hub 1
def cmdRejected (s : State) (hub reason : Nat) : State := wr (wr s .INTEG_CMD_STATUS_REJECTED hub 1) .INTEG_CMD_STATUS_REASON hub reason

/-- An operation of INTEG_CORE_CMD: a source that may not write it is ignored; operations 4 to 6 are the management
context's alone (reason 1); the slot must exist (reason 3). -/
def coreCmd (s : State) (src : Src) (hub slot : Nat) (mgmtOnly : Bool) (f : State → Nat → State) : State :=
  let ok := match src with | .core h => h == hub | _ => isMgmt s src
  if !ok || decide (160 ≤ hub) then s
  else if mgmtOnly && !isMgmt s src then cmdRejected s hub 1
  else if 66 ≤ slot then cmdRejected s hub 3
  else f s (hub * 66 + slot)

/-- MARK_SUSPECT (R309, Table 10-3): a RETIRED core never returns to SUSPECT. -/
def execMarkSuspect (src : Src) (hub slot : Nat) (s : State) : Host.Outcome State Fault Refusal :=
  settle s (coreCmd s src hub slot false fun u k =>
    if coreState u k = 4 then cmdRejected u hub 2
    else if coreState u k = 3 then cmdDone u hub
    else cmdDone (markSuspect u k 0x0A) hub)

/-- MARK_RETIRED (R309, Table 10-3). -/
def execMarkRetired (src : Src) (hub slot : Nat) (s : State) : Host.Outcome State Fault Refusal :=
  settle s (coreCmd s src hub slot false fun u k => cmdDone (markRetired u k 0x0A false) hub)

/-- SET_SKIP (R309): 0 none, 1 7/8, 2 3/4. -/
def execSetSkip (src : Src) (hub slot value : Nat) (s : State) : Host.Outcome State Fault Refusal :=
  settle s (coreCmd s src hub slot false fun u k =>
    if value ≥ 3 then cmdRejected u hub 2 else cmdDone (saveCore (wr u .INTEG_CORE_INFO_SKIP k value) k) hub)

/-- READMIT (R301): a CLEARED RETIRED core becomes a SPARE, at most twice. -/
def execReadmit (src : Src) (hub slot : Nat) (s : State) : Host.Outcome State Fault Refusal :=
  settle s (coreCmd s src hub slot true fun u k =>
    if coreState u k ≠ 4 then cmdRejected u hub 2
    else if rd u .INTEG_CORE_INFO_READMITS k ≥ 2 then cmdRejected u hub 4
    else if rd u .INTEG_CORE_INFO_CLEARED k = 0 then cmdRejected u hub 2
    else
      let u := wr (wr (wr u .HUB_SLOT_STATE_FENCED k 0) .INTEG_CORE_INFO_SKIP k 0) .INTEG_CORE_INFO_CLEARED k 0
      let u := dropRun (wr u .INTEG_CORE_INFO_READMITS k (rd u .INTEG_CORE_INFO_READMITS k + 1)) k
      cmdDone (setCoreState u k 2 0x0C) hub)

/-- CLEAR_LAST_EVENT (R309). -/
def execClearLastEvent (src : Src) (hub slot : Nat) (s : State) : Host.Outcome State Fault Refusal :=
  settle s (coreCmd s src hub slot true fun u k =>
    cmdDone (updCore u fun c => { c with events := storeErase c.events (eventKey k) }) hub)

/-- SET_HUB_NORMAL (R293, R309): the hub is NORMAL and in placement again; what had been counted against it starts
anew. Its cores keep their states. -/
def execSetHubNormal (src : Src) (hub : Nat) (s : State) : Host.Outcome State Fault Refusal :=
  settle s (coreCmd s src hub 0 true fun u _ =>
    let before := rd u .INTEG_HUB_STATE hub
    let u := wr (wr (wr u .INTEG_HUB_STATE hub 0) .INTEG_HUB_OUT hub 0) .INTEG_HUB_SUSPECTS hub 0
    let u := updCore u fun c => { c with
      hubEvents := storeErase c.hubEvents hub, hubSuspects := storeErase c.hubSuspects hub,
      pantryErrs := storeErase c.pantryErrs hub, ccFails := storeErase c.ccFails hub }
    cmdDone (hubRecord (saveHub u hub) hub before 5) hub)

/-! Dumps -/

/-- A trail entry's 16 bytes (Table 16-2). -/
def trailBytes (e : TrailEntry) : List Nat :=
  leBytes 8 e.time ++ leBytes 1 e.code ++ leBytes 1 e.ctx ++ leBytes 2 e.arg16 ++ leBytes 4 e.arg32

/-- A trail as it stands in a dump: its entries, oldest first, and zeros. -/
def trailDump (s : State) (k : Nat) : List Nat :=
  let l := ((storeGet [] s.dbg.trails k).map trailBytes).flatten
  l ++ List.replicate (16 * trailSize k - l.length) 0

/-- TRAIL_DUMP_DONE (R453): the trails of a hub, or of the Vestibule (160), stand in the dump area and a DEBUG record
is written. -/
def execTrailDumpDone (t scope : Nat) (s : State) : Host.Outcome State Fault Refusal :=
  let u := tick s t
  settle s (match u.dbg.dumps.find? (fun d => d.1 == scope) with
    | none => u
    | some (_, time, trigger) =>
      let base := rd u .DBG_DUMP_BASE * 4096 + scope * 0x10000
      let bytes := if scope = 160 then trailDump u vestTrail
        else
          leBytes 8 0x50524454 ++ leBytes 8 time ++ leBytes 8 trigger ++ List.replicate 40 0
            ++ ((List.range 66).map (fun p => trailDump u (scope * 66 + p))).flatten ++ trailDump u (hubTrail scope)
      let u := storeHbm u base bytes
      let u := updDbg u fun d => { d with dumps := d.dumps.filter (fun x => x.1 != scope) }
      let u := if scope < 160 then wr u .DBG_TRAIL_STATUS_DUMPED scope 1 else u
      let u := report u 0x28 scope [(1, 1, false), (1, trigger, false), (2, scope, false), (8, time, false)]
      match storeFind u.boot.hubResets scope with
      | some r => if r < 8 then doHubReset u scope r else u
      | none => u)

/-! The report path -/

/-- CELLAR_WRITE (R304, R307): the oldest record that waits is made durable; the ring of 30,720 overwrites its oldest. -/
def execCellarWrite (t : Nat) (s : State) : Host.Outcome State Fault Refusal :=
  let u := tick s t
  settle s (match u.rep.toWrite with
    | [] => u
    | c :: rest => updRep u fun r => { r with toWrite := rest, ring := (r.ring ++ [c]).drop (r.ring.length + 1 - 30720) })

/-- COALESCE_WINDOW_END (R304): a window's second has ended; what arrived in it after the first goes as one record. -/
def execCoalesceWindowEnd (t kind unit : Nat) (s : State) : Host.Outcome State Fault Refusal :=
  let u := tick s t
  let mine := fun (w : Coalesce) => w.kind == kind && w.unit == unit
  settle s (match u.rep.coalesce.find? mine with
    | none => u
    | some w =>
      if u.now < w.start + 1000000000 then u
      else
        let u := updRep u fun r => { r with coalesce := r.coalesce.filter (fun x => !mine x) }
        if w.more = 0 then u else acceptRecord u { w.last with flags := w.last.flags % 4 + 4, count := min w.more 65535 })

/-- The head record leaves the fault queue. -/
def popEvent (s : State) : State :=
  updRep s fun r => { r with faultQueue := r.faultQueue.tail, eventTries := 0, eventNext := none, eventHeld := false }

/-- PLATFORM_EVENT_MESSAGE (R418): the head record goes to the event receiver, which answers or does not. -/
def execPlatformEventMessage (t : Nat) (answered : Bool) (s : State) : Host.Outcome State Fault Refusal :=
  let u := tick s t
  settle s (match u.rep.faultQueue, u.rep.receiver with
    | c :: _, some _ =>
      if u.rep.eventTries ≠ 0 then u
      else
        let u := emit u (.platformEvent (cellarBytes c))
        if answered then popEvent u else updRep u fun r => { r with eventTries := 1, eventNext := some (u.now + 100000000) }
    | _, _ => u)

/-- PLDM_EVENT_RETRY (R418): after 100 ms, three times; then the record is held, and a retry falls due every 1 s. -/
def execPldmEventRetry (t : Nat) (answered : Bool) (s : State) : Host.Outcome State Fault Refusal :=
  let u := tick s t
  settle s (match u.rep.faultQueue, u.rep.receiver, u.rep.eventNext with
    | c :: _, some _, some due =>
      if u.now < due then u
      else
        let u := emit u (.platformEvent (cellarBytes c))
        if answered then popEvent u
        else
          let n := u.rep.eventTries + 1
          updRep u fun r => { r with eventTries := n, eventHeld := decide (4 ≤ n), eventNext := some (u.now + if n < 4 then 100000000 else 1000000000) }
    | _, _, _ => u)

end Sys2Proof.Machine
end

