-- ==== Sys2Proof/Machine/Hbm.lean ====
section
/-! DEFINITION. HBM errors and channels (R269 to R272), rebuild and refetch of weights (R275, R276), poison outside
them (R277), region clears (R278) and repairs (R279). Channels are numbered wing × 96 + channel. -/

namespace Sys2Proof.Machine

/-! Channels -/

def chanOf (a : Nat) : Nat := a / 0x80000000
def chanLog (s : State) (c : Nat) : ChanLog := (s.mem.chanLogs.find? (fun l => l.chan == c)).getD ⟨c, [], [], 0, []⟩
def setChanLog (s : State) (l : ChanLog) : State :=
  updMem s fun m => { m with chanLogs := m.chanLogs.filter (fun x => x.chan != l.chan) ++ [l] }

/-- Poisoned blocks of a channel. -/
def chanPoison (s : State) (c : Nat) : Nat := (s.mem.poison.filter (fun b => b / 0x80000 == c)).length

/-- A channel changes state: the retirement record holds it, and an HBM_CHANNEL record names the row of Table 9-5. -/
def setChan (s : State) (c v row : Nat) : State :=
  let s := wr s .HBM_CH_STATE_STATE c v
  let s := saveRetirement s fun r => { r with channels := storePut 0 r.channels c v }
  let recent := ((chanLog s c).retries.filter (fun t => decide (s.now < t + 1000000))).length
  report s 0x08 c [(1, row, false), (4, recent, false), (2, chanPoison s c, false)]

/-- Sessions that have a page, a table or a root on a channel. -/
def sessionsOn (s : State) (c : Nat) : List Nat :=
  (s.lard.roots.filter (fun e =>
    let on := fun (u : Nat) => u / 0x80000 == c
    e.2.ptes.any (fun p => on p.2.base) || e.2.dir.any (fun d => on d.2.1) || (!e.2.dir.isEmpty && on (e.2.dirBase / 4096))
      || on (rd s .LARDER_ROOT_BASE + e.1 / 32))).map (·.1)

/-- Slots with a part on a channel. -/
def slotsOn (s : State) (c : Nat) : List Nat :=
  (slotsInUse s).filter fun k =>
    let e := plannedEntry s k
    (List.range 4).any fun w => e.partUnits.getD w 0 != 0 && chanOf (partAddr s w e) == c

/-- A job is dropped (R250): its open items end FAILED_MEMORY and its slot is released. -/
def dropJob (s : State) (n code detail : Nat) : State :=
  match storeFind s.pann.jobs n with
  | none => s
  | some j =>
    let s := updPann s fun p => { p with jobs := storeErase p.jobs n }
    let s := wr s .TRAIN_JOBS_OPEN 0 s.pann.jobs.length
    let s := endItems s (fun x => x.slot == some j.slot && decide (0x12 ≤ x.opcode ∧ x.opcode ≤ 0x15)) code detail
    let a := (rd s .TRAIN_WS_BASE j.ws.1 + j.ws.2.1) * 4096
    let s := zeroRange s a (j.ws.2.2 * 4096)
    if (plannedEntry s j.slot).st = 0 then s else startRelease s j.slot none false

/-- Jobs whose workspace lies on a channel. -/
def jobsOn (s : State) (c : Nat) : List Nat :=
  (s.pann.jobs.filter (fun e => chanOf ((rd s .TRAIN_WS_BASE e.2.ws.1 + e.2.ws.2.1) * 4096) == c)).map (·.1)

/-- Whether stripe k of a wing over the channels l has a block on a RETIRED channel. -/
def stripeDegraded (s : State) (w : Nat) (l : List Nat) (k : Nat) : Bool :=
  (List.range 17).any fun j => rd s .HBM_CH_STATE_STATE (chanOf (stripeBlock s w l k j)) == 2

/-- Weight blocks wait for a rebuild or a refetch: a running step carries the cause WEIGHT_REBUILD (Table 2-9). -/
def stallOnWeights (s : State) : State :=
  if s.tt.run.running then updTt s fun t => { t with run := { t.run with causes := t.run.causes ||| 8 } } else s

/-- Park sessions of a wing, in the order of R180, until the pool covers what it owes; `gained` units come back. -/
def parkForCover (w : Nat) : List Nat → State → Nat → State × Nat
  | [], s, g => (s, g)
  | i :: r, s, g =>
    if poolHeld s w ≤ poolSize s w + g then (s, g)
    else match rootAt s i, parkForm s true i with
      | some k, some f =>
        let mine := (k :: (((sessAt s i).bind (·.companion)).bind (rootAt s)).toList).filter (fun q => q.wing == w)
        if mine = [] then parkForCover w r s g else parkForCover w r (parkSession s f i) (g + (mine.map (rootUnits s)).sum)
      | _, _ => parkForCover w r s g

/-- End accepted items FAILED_MEMORY, the most recently accepted first, until the pool covers what it owes. -/
def endForCover (w g : Nat) : List Item → State → State
  | [], s => s
  | x :: r, s =>
    if poolHeld s w ≤ poolSize s w + g then s
    else endForCover w g r (match x.sess.bind (rootAt s), itemAt s x.ctx x.idx with
      | some k, some y => if k.wing = w then endItem s y 0x20 0 else s
      | _, _ => s)

/-- Reservations that a shrunken pool no longer covers (R181). -/
def coverReservations (s : State) (w : Nat) : State :=
  let (s, g) := parkForCover w (parkOrder s true) s 0
  endForCover w g s.serve.items.reverse s

/-- A channel is RETIRED: what it still holds is lost (R271). -/
def retireChan (s : State) (c row : Nat) : State :=
  if rd s .HBM_CH_STATE_STATE c = 2 then s
  else
    let s := setChan s c 2 row
    let s := each (sessionsOn s c) s loseSession
    let s := each (slotsOn s c) s fun t k =>
      let t := endItems t (fun x => x.slot == some k && x.opcode == 0x01) 0x20 0
      if (plannedEntry t k).st = 2 then startRelease t k none false else t
    coverReservations (each (jobsOn s c) s (fun t n => dropJob t n 0x20 0)) (c / 96)

/-- The 4 KiB units on a channel that R271 moves out of it: pages and page tables, images of the park areas, adapter parts. -/
def unitsToMove (s : State) (c : Nat) : Nat :=
  let on := fun (u : Nat) => u / 0x80000 == c
  (s.lard.roots.map (fun e => ((e.2.ptes.filter (fun p => on p.2.base)).length * pageUnits s e.2.layout
      + (e.2.dir.filter (fun d => on d.2.1)).length + b2n (!e.2.dir.isEmpty && on (e.2.dirBase / 4096))))).sum
    + ((s.lard.parkSpace.filter (fun e => on e.2.1)).map (fun e => e.2.2.1)).sum
    + ((slotsInUse s).map (fun k =>
        let e := plannedEntry s k
        (((List.range 4).filter (fun w => e.partUnits.getD w 0 != 0 && chanOf (partAddr s w e) == c)).map (fun w => e.partUnits.getD w 0)).sum)).sum

/-- An ACTIVE channel becomes DEGRADED (Table 9-5): what R271 moves out of it is planned data movement. DESIGN CHOICE (log 80): the
movement is planned at the channel's bandwidth, 83.2 B/ns. -/
def degradeChan (s : State) (c : Nat) : State :=
  if rd s .HBM_CH_STATE_STATE c = 0 then
    let s := setChan (setChanLog s { chanLog s c with degradedAt := s.now }) c 1 2
    let n := unitsToMove s c
    if n = 0 then s else planMove s (ceilDiv (n * 40960) 832)
  else s

/-- The thresholds of Table 9-5 on a channel. -/
def chanThresholds (s : State) (c : Nat) : State :=
  let st := rd s .HBM_CH_STATE_STATE c
  let l := chanLog s c
  let r := (l.retries.filter (fun t => decide (s.now < t + 1000000))).length
  let u := (l.uncorr.filter (fun t => decide (s.now < t + 86400000000000))).length
  let p := chanPoison s c
  if st ≥ 2 then s
  else if 256 ≤ r ∨ 64 ≤ p then retireChan s c 3
  else if 16 ≤ r ∨ 4 ≤ u ∨ 48 ≤ p then degradeChan s c
  else s

/-! Poison -/

/-- What becomes of a block outside the weights that is poisoned, where the runtime acts at once (Table 9-7): page
tables and roots lose their sessions, a Pannier bank is rewritten from another wing, training state is dropped. -/
def poisonElsewhere (s : State) (b : Nat) : State :=
  let bank := (List.range 4).any fun w => [rd s .PANNIER_BANK0_BASE w, rd s .PANNIER_BANK1_BASE w].any fun x => decide (x ≤ b) && decide (b < x + 256)
  let tables := (s.lard.roots.filter (fun e =>
    e.2.dir.any (fun d => d.2.1 == b) || (!e.2.dir.isEmpty && e.2.dirBase / 4096 == b) || rd s .LARDER_ROOT_BASE + e.1 / 32 == b)).map (·.1)
  let jobs := (s.pann.jobs.filter (fun e =>
    let a := rd s .TRAIN_WS_BASE e.2.ws.1 + e.2.ws.2.1
    decide (a ≤ b) && decide (b < a + ceilDiv (12 * e.2.elems.length) 4096))).map (·.1)
  let work := (s.pann.jobs.filter (fun e =>
    let a := rd s .TRAIN_WS_BASE e.2.ws.1 + e.2.ws.2.1
    decide (a + ceilDiv (12 * e.2.elems.length) 4096 ≤ b) && decide (b < a + e.2.ws.2.2))).map (·.2.slot)
  let w := hbmWing (b * 4096)
  let from_ := (w + 1) % 4
  let whole := fun (k : Nat) => bankBase s k from_ + (b * 4096 - bankBase s k w)
  if bank ∧ (inBank s b 0 || inBank s b 1) = true ∧ regionOwner s (b * 4096) = 0x40 then
    copyRange s (whole (if inBank s b 0 then 0 else 1)) (b * 4096) 4096
  else
    let s := each tables s loseSession
    let s := each jobs s (fun t n => dropJob t n 0x20 0)
    endItems s (fun x => x.opcode == 0x13 && (match x.slot with | some k => decide (k ∈ work) | none => false)) 0x20 0

/-- An uncorrectable block (R269, R274, R277): counted, reported, poisoned; a weight block is rebuilt, or its stripe is
refetched where a second block is poisoned or the stripe is degraded (R275, R276). -/
def poisonBlock (s : State) (a : Nat) : State :=
  let c := chanOf a
  let b := a / 4096
  let s := contribute (inc s .HBM_CH_UNCORR c) 8 1
  let s := report s 0x07 c [(1, 3, false), (1, 2, false), (8, a, true)]
  let l := chanLog s c
  let s := setChanLog s { l with uncorr := (l.uncorr ++ [s.now]).drop (l.uncorr.length + 1 - 4), rows := l.rows ++ [a % 0x80000000 / 4096] }
  let s := updRep s fun r => { r with repairs := (r.repairs ++ [(c, a % 0x80000000 / 4096, s.now)]).drop (r.repairs.length + 1 - 1020) }
  if b ∈ s.mem.poison then chanThresholds s c
  else
    let s := countPoison (updMem s fun m => { m with poison := m.poison ++ [b] }) (hbmWing a)
    let s := match blockPos s a with
      | none => poisonElsewhere s b
      | some p =>
        let w := hbmWing a
        let re := s.mem.rebuilds.any (fun r => sameStripe s (r.block * 4096) a) || stripeDegraded s w (layoutAt s a) (p / 17)
        let promote := fun (r : Rebuild) => if re && sameStripe s (r.block * 4096) a then { r with refetch := true } else r
        stallOnWeights (updMem s fun m => { m with rebuilds := m.rebuilds.map promote ++ [⟨w, b, s.now, re⟩] })
    chanThresholds s c

/-- HBM_BURST_RETRY (R269): the attempt of a burst that met a parity error; the fifth of a read is an uncorrectable read,
of a write it retires the channel. -/
def execHbmBurstRetry (t addr attempt : Nat) (write : Bool) (s : State) : Host.Outcome State Fault Refusal :=
  let u := tick s t
  let c := chanOf addr
  settle s (if isHbm addr = false ∨ attempt = 0 then u
    else if attempt ≤ 4 then
      let l := chanLog u c
      let u := setChanLog (inc u .HBM_CH_RETRIES c) { l with retries := (l.retries ++ [u.now]).drop (l.retries.length + 1 - 256) }
      chanThresholds u c
    else if write then retireChan (inc u .HBM_CH_UNCORR c) c 3
    else poisonBlock u addr)

/-- HBM_STORED_ERROR (R269). -/
def execHbmStoredError (t addr : Nat) (correctable : Bool) (s : State) : Host.Outcome State Fault Refusal :=
  let u := tick s t
  settle s (if isHbm addr = false then u
    else if correctable then contribute (inc u .HBM_CH_CORRECTED (chanOf addr)) 7 1
    else poisonBlock u addr)

/-! Rebuild and refetch -/

/-- A block's readers have stalled until now; the longest stall is kept (Table 9-10). -/
def stallEnded (s : State) (w start : Nat) : State :=
  wr s .HBM_REBUILD_MAX_NS w (min (maxOf 32) (max (rd s .HBM_REBUILD_MAX_NS w) (s.now - start)))

/-- A WEIGHT record (Table 10-7). -/
def weightRecord (s : State) (w action stripe model : Nat) : State :=
  report s 0x09 w [(1, action, false), (4, stripe, false), (2, model, false)]

/-- The number of the model that holds a block; 0 for none. -/
def holderOf (s : State) (a : Nat) : Nat := ((blockModel s a).map (·.1)).getD 0

/-- Blocks are unpoisoned and their rebuilds are over. -/
def unpoison (s : State) (w : Nat) (bs : List Nat) : State :=
  countPoison (updMem s fun m => { m with
    poison := m.poison.filter (fun b => !decide (b ∈ bs)), rebuilds := m.rebuilds.filter (fun r => !decide (r.block ∈ bs)) }) w

/-- WEIGHT_REBUILD_DONE (R275): the block is formed anew; if the verify read fails it goes to the spare area, which has
64 places. -/
def execWeightRebuildDone (t block : Nat) (verified : Bool) (s : State) : Host.Outcome State Fault Refusal :=
  let u := tick s t
  settle s (match u.mem.rebuilds.find? (fun r => r.block == block && !r.refetch), blockPos u (block * 4096) with
    | some r, some p =>
      let used := (u.mem.spare.filter (fun e => e.1 / 0x3000000 == r.wing)).length
      if verified = false ∧ 64 ≤ used then
        updMem u fun m => { m with rebuilds := m.rebuilds.map (fun x => if x.block = block then { x with refetch := true } else x) }
      else
        let u := unpoison (rebuildBlock r.wing (layoutAt u (block * 4096)) p u) r.wing [block]
        let u := if verified then u else updMem u fun m => { m with spare := storeInsert m.spare block used }
        weightRecord (stallEnded (inc u .HBM_REBUILDS r.wing) r.wing r.start) r.wing 1 (p / 17) (holderOf u (block * 4096))
    | _, _ => u)

/-- A model becomes unusable for want of the data of stripe k (R276). -/
def loseModel (s : State) (w k m : Nat) : State :=
  if (modelAt s m).isNone then s
  else
    let s := updServe s fun v => { v with models := v.models.map (fun e => if e.1 = m then (e.1, { e.2 with st := .unusable }) else e) }
    endItems (weightRecord s w 4 k m) (fun x => (x.model == m || x.draft == m) && decide (x.opcode ≠ 0x06)) 0x20 0

/-- REFETCH_DONE (R276): the data of the stripe that a block belongs to has come from a peer (2) or from the host (3), or
from nowhere (0). -/
def execRefetchDone (t block source : Nat) (data : List (List Nat)) (s : State) : Host.Outcome State Fault Refusal :=
  let u := tick s t
  settle s (match u.mem.rebuilds.find? (fun r => r.block == block && r.refetch), blockPos u (block * 4096) with
    | some r, some p =>
      let k := p / 17
      let l := layoutAt u (block * 4096)
      let bs := (List.range 17).map (fun j => stripeBlock u r.wing l k j / 4096)
      if source = 2 ∨ source = 3 then
        let u := unpoison (storeStripe r.wing l k data.flatten u) r.wing bs
        weightRecord (stallEnded (inc u .HBM_REFETCHES r.wing) r.wing r.start) r.wing source k (holderOf u (block * 4096))
      else
        loseModel (updMem u fun m => { m with rebuilds := m.rebuilds.filter (fun x => !decide (x.block ∈ bs)) }) r.wing k
          (holderOf u (block * 4096))
    | _, _ => u)

/-! Degraded and failed channels -/

/-- Units of a channel, as a range that an allocation keeps off. -/
def chanUnits (c : Nat) : Nat × Nat := (c * 0x80000, 0x80000)

/-- Copy n units between two places of HBM. -/
def copyUnits (s : State) (src dst n : Nat) : State := writeBytes (readBytes s (src * 4096) (n * 4096)) (dst * 4096) s

/-- Move a session's pages off a channel, each PTE switched by one write (R271). -/
def movePages (c : Nat) (s : State) (i : Nat) : State :=
  match rootAt s i with
  | none => s
  | some r =>
    each (r.ptes.filter (fun e => e.2.base / 0x80000 == c)) s fun t e =>
      match rootAt t i, allocPool t r.wing (pageUnits t r.layout) [chanUnits c] with
      | some q, some u =>
        setRoot (copyUnits t e.2.base u (pageUnits t r.layout)) i { q with ptes := storeInsert q.ptes e.1 { e.2 with base := u } }
      | _, _ => t

/-- Move a session's directory and leaf tables off a channel: a leaf's entry in the directory follows it, and the root names the
directory's new place (R162, R163). -/
def moveTables (c : Nat) (s : State) (i : Nat) : State :=
  match rootAt s i with
  | none => s
  | some r =>
    let s := each (r.dir.filter (fun e => e.2.1 / 0x80000 == c)) s fun t e =>
      match rootAt t i, allocPool t r.wing 1 [chanUnits c] with
      | some q, some u => setRoot t i { q with dir := storeInsert q.dir e.1 (u, e.2.2) }
      | _, _ => t
    if r.dir.isEmpty || r.dirBase / 0x80000000 != c then s
    else match rootAt s i, allocPool s r.wing 1 [chanUnits c] with
      | some q, some u => setRoot s i { q with dirBase := u * 4096 }
      | _, _ => s

/-- Move an image of the park area off a channel. -/
def moveImages (c : Nat) (s : State) : State :=
  each (s.lard.parkSpace.filter (fun e => e.2.1 / 0x80000 == c)) s fun t e =>
    let used := chanUnits c :: (t.lard.parkSpace.filter (fun x => x.1 == e.1)).map (fun x => (x.2.1, x.2.2.1))
    match allocChan t (rd t .LARDER_PARK_BASE e.1) (rd t .LARDER_PARK_LIMIT e.1) e.2.2.1 used, rootAt t e.2.2.2 with
    | some u, some r =>
      let t := setRoot (copyUnits t e.2.1 u e.2.2.1) e.2.2.2 { r with parkAddr := u * 4096 }
      updLard t fun l => { l with parkSpace := l.parkSpace.map (fun x => if x = e then (e.1, u, e.2.2.1, e.2.2.2) else x) }
    | _, _ => t

/-- Move adapter parts off a channel and carry their entries to the next flip. -/
def moveParts (c : Nat) (s : State) : State :=
  each (slotsOn s c) s fun t k =>
    let e := plannedEntry t k
    each ((List.range 4).filter (fun w => e.partUnits.getD w 0 != 0 && chanOf (partAddr t w e) == c)) t fun u w =>
      let base := rd u .PANNIER_STORE_BASE w
      let n := e.partUnits.getD w 0
      match allocChan u base (rd u .PANNIER_STORE_LIMIT w) n (chanUnits c :: (storeUsed u w).map (fun x => (x.1 + base, x.2))) with
      | some v =>
        let e := plannedEntry u k
        queueEdit (copyUnits u (base + e.storeOff.getD w 0) v n) k { e with storeOff := e.storeOff.set w (v - base) } none
      | none => u

/-- DEGRADED_DRAIN_DONE (R271, Table 9-5): everything but weights has been moved out; the channel is RETIRED. -/
def execDegradedDrainDone (t chan : Nat) (s : State) : Host.Outcome State Fault Refusal :=
  let u := tick s t
  settle s (if rd u .HBM_CH_STATE_STATE chan = 1 ∧ chan < 384 then
      retireChan (moveParts chan (moveImages chan (each (sessionsOn u chan) u (fun v i => moveTables chan (movePages chan v i) i)))) chan 4
    else u)

/-- DEGRADED_TIMEOUT (Table 9-5): 1 s has passed since the channel became DEGRADED. -/
def execDegradedTimeout (t chan : Nat) (s : State) : Host.Outcome State Fault Refusal :=
  let u := tick s t
  settle s (if rd u .HBM_CH_STATE_STATE chan = 1 ∧ chan < 384 ∧ (chanLog u chan).degradedAt + 1000000000 ≤ u.now then retireChan u chan 4
    else u)

/-- PATROL_SCRUB (R272): a pass over a channel in IDLE slots; an error it finds is a command of its own. -/
def execPatrolScrub (t _chan : Nat) (s : State) : Host.Outcome State Fault Refusal := settle s (tick s t)

/-- PHY_RETRAINING_FAIL (Table 9-5). -/
def execPhyRetrainingFail (t chan : Nat) (s : State) : Host.Outcome State Fault Refusal :=
  let u := tick s t
  settle s (if rd u .HBM_CH_STATE_STATE chan < 2 ∧ chan < 384 then retireChan u chan 3 else u)

/-- Lay out the weights of every model on a wing again, over their channels still in service (R276); none where they do not
fit. -/
def relayWing (s : State) (w : Nat) : Option State :=
  let onWing := s.serve.models.filter (fun e => (e.2.weightRows.getD w (0, 0)).2 != 0)
  let put := fun (t : State) (n : Nat) (rows : Nat × Nat) (mask : Nat) => updServe t fun v => { v with
    models := v.models.map (fun e =>
      if e.1 = n then (n, { e.2 with weightRows := e.2.weightRows.set w rows, weightMask := e.2.weightMask.set w mask }) else e) }
  let bare := each onWing s fun t e => put t e.1 (0, 0) 0
  onWing.foldl (fun acc e => acc.bind fun t =>
    let n := (e.2.weightRows.getD w (0, 0)).2
    let mask := (((modelChans e.2 w).filter (fun c => rd s .HBM_CH_STATE_STATE (w * 96 + c) != 2)).map (2 ^ ·)).sum
    (allocStripes t w mask n).map fun k => put t e.1 (k, n) mask) (some bare)

/-- The refetches of every stripe of a wing's models. -/
def wingRefetches (s : State) (w : Nat) : List Rebuild :=
  (s.serve.models.map fun e =>
    let r := e.2.weightRows.getD w (0, 0)
    (List.range r.2).map fun i => Rebuild.mk w (stripeBlock s w (modelChans e.2 w) (r.1 + i) 0 / 4096) s.now true).flatten

/-- A stack fails (Table 9-5, R276): its 32 channels are retired, and the wing's weights are laid out again over the other channels and
refetched; `room` is whether the wing can hold them. Where it cannot, its models become unusable. -/
def stackFails (s : State) (stack : Nat) (room : Bool) : State :=
  let w := stack / 3
  let u := (List.range 32).foldl (fun x i => retireChan x (stack * 32 + i) 5) s
  let onWing := u.serve.models.filter (fun e => (e.2.weightRows.getD w (0, 0)).2 != 0)
  if onWing = [] then u
  else match room, relayWing u w with
    | true, some v =>
      stallOnWeights (updMem v fun m => { m with rebuilds := m.rebuilds.filter (fun r => r.wing != w) ++ wingRefetches v w })
    | _, _ => each onWing u (fun x e => loseModel x w (e.2.weightRows.getD w (0, 0)).1 e.1)

/-- STACK_FAILURE of a stack (wing × 3 + stack). -/
def execStackFailure (t stack : Nat) (room : Bool) (s : State) : Host.Outcome State Fault Refusal :=
  let u := tick s t
  settle s (if stack ≥ 12 then u else stackFails u stack room)

/-! Regions -/

/-- A region (wing × 3,072 + channel × 32 + region) starts to be cleared for its next owner (R278); `ctx` is the context
whose teardown frees it. -/
def startClear (s : State) (region next : Nat) (ctx : Nat := 64) : State :=
  let s := updMem s fun m => { m with
    regions := storePut 0x7F m.regions region 0x7E,
    regionClears := m.regionClears.filter (fun x => x.region != region) ++ [⟨region, next, ctx⟩] }
  planMove s 832600

/-- Device address of a region. -/
def regionAddr (region : Nat) : Nat := region / 3072 * 0x3000000000 + region % 3072 * 0x4000000

/-- A region has been zeroed whole: its poison is gone and it takes its owner. -/
def finishClear (s : State) (x : RegionClear) : State :=
  let a := regionAddr x.region
  let s := updMem (zeroRange s a 0x4000000) fun m => { m with
    regions := storePut 0x7F m.regions x.region x.next,
    regionClears := m.regionClears.filter (· ≠ x),
    poison := m.poison.filter (fun b => b / 16384 != a / 0x4000000) }
  countPoison s (hbmWing a)

/-! Repair (R279) -/

/-- HBM_REPAIR_GO: only the management context, only on an OFFLINE channel. -/
def execHbmRepairGo (src : Src) (chan : Nat) (s : State) : Host.Outcome State Fault Refusal :=
  let kind := rd s .HBM_REPAIR_CTRL_KIND chan
  settle s (if isMgmt s src = false ∨ 384 ≤ chan ∨ rdb s .HBM_REPAIR_STATUS_BUSY chan then s
    else if rd s .HBM_CH_STATE_STATE chan = 3 ∧ (kind = 1 ∨ kind = 2) then wr s .HBM_REPAIR_STATUS_BUSY chan 1
    else wr s .HBM_REPAIR_STATUS_FAIL chan 1)

/-- HBM_REPAIR_DONE: the stack reports; `block` is the 4 KiB block whose row was replaced, which reads as zero. -/
def execHbmRepairDone (t chan : Nat) (ok : Bool) (spares : Nat) (block : Option Nat) (s : State) : Host.Outcome State Fault Refusal :=
  let u := tick s t
  settle s (if chan < 384 ∧ rdb u .HBM_REPAIR_STATUS_BUSY chan then
      let u := wr (wr u .HBM_REPAIR_STATUS_BUSY chan 0) .HBM_REPAIR_STATUS_SPARES_LEFT chan (spares % 256)
      if ok then
        let u := wr u .HBM_REPAIR_STATUS_DONE chan 1
        match block with
        | some b => if chanOf (b * 4096) = chan then zeroRange u (b * 4096) 4096 else u
        | none => u
      else wr u .HBM_REPAIR_STATUS_FAIL chan 1
    else u)

end Sys2Proof.Machine
end

