-- ==== Sys2Proof/Machine/Park.lean ====
section
/-! DEFINITION. Park images (R177, R178): their bytes, writing them (R179) and reading them back. -/

namespace Sys2Proof.Machine

/-! Slabs in park form -/

/-- Elements of a format packed as R67 packs them, lowest bits first. -/
def packElems (w : Nat) (l : List Nat) : List Nat := leBytes (ceilDiv (l.length * w) 8) (l.zipIdx.map (fun e => e.1 * 2 ^ (w * e.2))).sum

/-- Element i of packed bytes. -/
def unpackElem (w : Nat) (l : List Nat) (i : Nat) : Nat := leNum ((l.drop (i * w / 8)).take 3) / 2 ^ (i * w % 8) % 2 ^ w

/-- The format of a lossy form: FP6 E2M3 or FP4 E2M1. -/
def parkFmt (form : Nat) : Nat := if form = 2 then 0x4 else 0x5

/-- The numbers of token t's latent in a slab at an address (R161, R66, R70). -/
def latentNums (s : State) (layout slab t : Nat) : List Num :=
  let d := layDim s layout
  (List.range d).map fun i =>
    if rd s .LARDER_LAYOUT_LATENT_FMT layout = 1 then
      let bits := readByte s (slab + t * d + i)
      let sc := readByte s (slab + layLat s layout + t * (d / 32) + i / 32)
      scaledNum ⟨1, 1, 3, 0, 0, 0, 0, true⟩ bits sc
    else elemNum 8 0 (readLe s (slab + 2 * (t * d + i)) 2)

/-- A slab in a lossy form: latents, scale bytes, positional parts (R178). -/
def packSlab (s : State) (layout form slab : Nat) : List Nat :=
  let d := layDim s layout
  let f := parkFmt form
  let toks := (List.range 16).map fun t =>
    let xs := latentNums s layout slab t
    let blocks := (List.range (d / 32)).map (fun b => (xs.drop (32 * b)).take 32)
    let scs := blocks.map (quantScale f 1)
    (((blocks.zip scs).map (fun e => e.1.map (quantElem f 1 e.2))).flatten, scs)
  (toks.map (fun x => packElems (elemBits f) x.1)).flatten ++ (toks.map (·.2)).flatten
    ++ readBytes s (slab + layRopeOff s layout) (32 * layRope s layout)

/-- A slab as it returns to its page from a park form (R177). -/
def unpackSlab (s : State) (layout form : Nat) (l : List Nat) : List Nat :=
  let d := layDim s layout
  if form = 1 then l
  else
    let f := parkFmt form
    let w := elemBits f
    let lat := 16 * d * w / 8
    let sc := fun (t i : Nat) => l.getD (lat + t * (d / 32) + i / 32) 0
    let elem := fun (t i : Nat) => unpackElem w (l.drop (t * d * w / 8)) i
    let fp8 := rd s .LARDER_LAYOUT_LATENT_FMT layout = 1
    let latent := if fp8 then
        (List.range (16 * d)).map (fun n => toFmt fE4M3 (elemNum f 0 (elem (n / d) (n % d))))
      else
        ((List.range (16 * d)).map (fun n =>
          leBytes 2 (quantElem 8 0 0 (scaledNum ⟨f, 1, 3, 0, 0, 0, 0, true⟩ (elem (n / d) (n % d)) (sc (n / d) (n % d)))))).flatten
    let scales := if fp8 then (l.drop lat).take (16 * d / 32) else []
    let head := latent ++ scales
    let rope := (l.drop (lat + 16 * d / 32)).take (32 * layRope s layout)
    let body := head ++ List.replicate (layRopeOff s layout - head.length) 0 ++ rope
    body ++ List.replicate (slabBytes s layout - body.length) 0

/-! Images -/

/-- The committed pages of a root in ascending order. -/
def parkPages (r : Root) : List Pte := (r.ptes.filter (fun e => e.2.st == 1)).map (·.2)

/-- One page in park form: its slabs one after another. -/
def pageImage (s : State) (r : Root) (form : Nat) (p : Pte) : List Nat :=
  ((List.range (layLayers s r.layout)).map (fun l =>
    let a := p.base * 4096 + l * slabBytes s r.layout
    if form = 1 then readBytes s a (slabBytes s r.layout) else packSlab s r.layout form a)).flatten

/-- The first 32 bytes of an image's header. -/
def imageHead (s : State) (r : Root) (n : Nat) : List Nat :=
  leBytes 4 0x4B524150 ++ leBytes 4 r.handle ++ [r.layout, r.form, 0, 0] ++ leBytes 4 r.committed ++ leBytes 4 n
    ++ leBytes 4 (parkSlab s r.layout r.form) ++ leBytes 8 s.now

/-- A park image: header, CRC table, pages (R178). -/
def parkImage (s : State) (r : Root) : List Nat :=
  let pages := (parkPages r).map (pageImage s r r.form)
  let h := imageHead s r pages.length
  h ++ leBytes 8 (crc64 h) ++ List.replicate 24 0 ++ (pages.map (fun p => leBytes 8 (crc64 p))).flatten ++ pages.flatten

/-- The session whose state decides a session's park: a companion parks with the session it serves (R204). -/
def userOf (s : State) (i : Nat) (x : Session) : Session :=
  (s.serve.sessions.find? (fun e => e.2.companion == some i)).elim x (·.2)

/-- PARK_IMAGE_COMPLETE (R179): the image is written, the session becomes PARKED, its pages and tables return to the
pool. A session that has taken a request meanwhile keeps its pages; its park is abandoned at the boundary. -/
def execParkImageComplete (t session : Nat) (s : State) : Host.Outcome State Fault Refusal :=
  let u := tick s t
  settle s (match rootAt u session, sessAt u session with
    | some r, some x =>
      if r.st ≠ 2 ∨ (userOf u session x).st ≠ .idle then u
      else if (parkPages r).any (fun p => pagePoisoned u p.base (pageUnits u r.layout)) then loseSession u session
      else
        let u := putBytes u x.ctx r.parkAddr (parkImage u r)
        inc (setRoot u session { r with st := 3, ptes := [], dir := [], dirBase := 0 }) .LARDER_PARKS
    | _, _ => u)

/-- Whether the pool of a parked session's wing can take its pages and those of its companion. -/
def unparkFits (s : State) (i : Nat) : Bool :=
  let need := fun (k : Nat) => match rootAt s k with
    | some r => if r.st = 3 then committedPages r * pageUnits s r.layout + tableUnits (committedPages r) else 0
    | none => 0
  match rootAt s i with
  | some r => decide (need i + (((sessAt s i).bind (·.companion)).map need).getD 0 ≤ poolFree s r.wing)
  | none => false

/-- Whether a parked session's expected resume is no further away than its unpark (R180). -/
def unparkIsDue (s : State) (i : Nat) : Bool :=
  match sessAt s i, rootAt s i with
  | some x, some r => (match x.resume with
    | some (some at_) => r.st == 3 && decide (at_ ≤ s.now + parkTime s r.layout r.form (committedPages r))
    | _ => false)
  | _, _ => false

/-- UNPARK_DUE (R180): the unpark starts if the pages fit; otherwise the session stays PARKED until a freeze finds room. -/
def execUnparkDue (t session : Nat) (s : State) : Host.Outcome State Fault Refusal :=
  let u := tick s t
  settle s (if unparkIsDue u session && unparkFits u session then startUnpark u session else u)

/-- The unparks that a freeze starts (R180). -/
def unparkWaiting (s : State) : State :=
  each (s.serve.sessions.map (·.1)) s fun t i =>
    if unparkIsDue t i && unparkFits t i && !((sessAt t i).map (·.isCompanion)).getD true then startUnpark t i else t

/-- Whether the bytes of an image carry matching CRCs for n pages of a root. -/
def imageOk (s : State) (r : Root) (n : Nat) (l : List Nat) : Bool :=
  let page := layLayers s r.layout * parkSlab s r.layout r.form
  leNum ((l.drop 0x20).take 8) == crc64 (l.take 0x20) && leNum (l.take 4) == 0x4B524150 && leNum ((l.drop 4).take 4) == r.handle
    && (List.range n).all (fun i =>
      leNum ((l.drop (64 + 8 * i)).take 8) == crc64 ((l.drop (64 + 8 * n + i * page)).take page))

/-- Write the pages of an image back (R177, R179): pages are allocated, their slabs written with zeros at the page's end (R161), their entries COMMITTED. -/
def restorePages (s : State) (i n : Nat) (l : List Nat) : State :=
  let s := mapPages s i (List.range n)
  match rootAt s i with
  | none => s
  | some r =>
    let ps := parkSlab s r.layout r.form
    let page := layLayers s r.layout * ps
    let s := each r.ptes s fun t e =>
      (List.range (layLayers s r.layout)).foldl (fun u k =>
        putBytes u (handleCtx r.handle) (e.2.base * 4096 + k * slabBytes u r.layout)
          (unpackSlab u r.layout r.form ((l.drop (64 + 8 * n + e.1 * page + k * ps)).take ps))) (zeroUnits t e.2.base (pageUnits t r.layout))
    setRoot s i { r with st := 1, ptes := r.ptes.map (fun e => (e.1, { e.2 with st := 1, fill := min 16 (r.committed - 16 * e.1) })) }

/-- UNPARK_COMPLETE (R179): the image has been read, from the host (none where that read failed) or from the park area; a
mismatch loses the session. -/
def execUnparkComplete (t session : Nat) (host : Option (List Nat)) (s : State) : Host.Outcome State Fault Refusal :=
  let u := tick s t
  settle s (match rootAt u session with
    | none => u
    | some r =>
      if r.st ≠ 4 then u
      else
        let n := committedPages r
        let units := ceilDiv (imageBytes u r.layout r.form n) 4096
        let l := if r.form = 1 then host else if pagePoisoned u (r.parkAddr / 4096) units then none
          else some (readBytes u r.parkAddr (imageBytes u r.layout r.form n))
        match l with
        | some b =>
          if n = 0 ∨ imageOk u r n b then inc (freeImage (restorePages u session n b) session) .LARDER_UNPARKS
          else loseSession (inc u .LARDER_PARK_CRC_FAIL) session
        | none => loseSession (inc u .LARDER_PARK_CRC_FAIL) session)

end Sys2Proof.Machine
end

