-- ==== Sys2Proof/Machine/Access.lean ====
section
/-! DEFINITION. Access to registers: who may write a field, where a field lies, what a read of a field
returns, and the effect of a write on each field that it covers (R4, R24, R25, R403). -/

namespace Sys2Proof.Machine

/-! Who may write -/

/-- The wing that holds block b of a kind. -/
def blockWing : Block → Nat → Nat
  | .hub, b => b / 40
  | .wing, b => b
  | .chan, b => b / 96
  | _, _ => 0

/-- Whether a source is one of the writers of instance n of a field. -/
def isWriter (s : State) (src : Src) (f : Fld) (n : Nat) : Writer → Bool
  | .mgmt => isMgmt s src
  | .lead => src == .core (leadHub s)
  | .ownHub => (fieldRow f).block == .hub && src == .core (blockIdx f n)
  | .wingHub0 => src == .core (blockWing (fieldRow f).block (blockIdx f n) * 40)
  | .blueprint => src == .blueprint
  | .driver => if (fieldRow f).count = 2 ∧ n % 2 = 1 then isMgmt s src
    else (src == .driver (blockIdx f n) && !decide (blockIdx f n ∈ s.ctxs.noMemory)) || (blockIdx f n == 0 && isMgmt s src)

/-- Before READY, writes of the physical function to blocks outside the Vestibule are discarded (R431). -/
def beforeReady (s : State) (src : Src) (f : Fld) : Bool :=
  src == .mgmt && rd s .BOOT_STATUS_PHASE != 8 && ((fieldRow f).block == .hub || (fieldRow f).block == .wing || (fieldRow f).block == .chan)

/-- Whether a source may write instance n of a field; writes from any other source are ignored. -/
def mayWrite (s : State) (src : Src) (f : Fld) (n : Nat := 0) : Bool :=
  !beforeReady s src f && (fieldRow f).writers.any (isWriter s src f n)

/-! Where a field lies -/

/-- The block of a kind that holds an address of the physical function's map: its index and the offset in it. -/
def pfBlock (k : Block) (a : Nat) : Option (Nat × Nat) :=
  match k with
  | .vest => if 0xFF01800000 ≤ a ∧ a < 0xFF02000000 then some (0, a) else none
  | .hub => if 0xFF00000000 ≤ a ∧ a < 0xFF00A00000 then some ((a - 0xFF00000000) / 0x10000, (a - 0xFF00000000) % 0x10000) else none
  | .wing => if 0xFF01000000 ≤ a ∧ a < 0xFF01400000 then some ((a - 0xFF01000000) / 0x100000, (a - 0xFF01000000) % 0x100000) else none
  | .chan =>
    if 0xFF01000000 ≤ a ∧ a < 0xFF01400000 ∧ (a - 0xFF01000000) % 0x100000 < 0x60000 then
      some ((a - 0xFF01000000) / 0x100000 * 96 + (a - 0xFF01000000) % 0x100000 / 0x1000, a % 0x1000)
    else none
  | .win => if 0xFF01A40000 ≤ a ∧ a < 0xFF01A50000 then some (0, a - 0xFF01A40000)
    else if 0xFF01B70000 + 0x400 ≤ a ∧ a < 0xFF01B70000 + 0x400 * 64 ∧ a % 0x400 = 0x200 then
      some ((a - 0xFF01B70000) / 0x400, 0x404)
    else none
  | .link => if 0xFF01B10000 ≤ a ∧ a < 0xFF01B16000 then some ((a - 0xFF01B10000) / 0x1000, a % 0x1000) else none

/-- Where a write goes, by block kind: block index and offset. A virtual function's BAR0 holds its context's
window; the PF side of a mailbox is the second instance of its fields, at offset 0x404 here. -/
def targetAt (tg : Target) (k : Block) : Option (Nat × Nat) :=
  match tg with
  | .pf a => pfBlock k a
  | .vf fn off => if k = .win ∧ 1 ≤ fn ∧ fn < 64 ∧ off < 0x10000 ∧ ¬ (0x404 ≤ off ∧ off < 0x408) then some (fn, off) else none

/-- The instances of a field with a byte in [o, o + width) of block b, with the offset of each one's
register. Of the fields that a selector shows, the one of the selected physical slot. -/
def instancesAt (s : State) (f : Fld) (b o width : Nat) : List (Nat × Nat) :=
  let r := fieldRow f
  let hit := fun (reg : Nat) => decide (reg + r.lo / 8 < o + width) && decide (o < reg + r.hi / 8 + 1)
  match r.sel with
  | some g =>
    let p := rd s g b
    if p < 66 ∧ hit r.off = true then [(b * r.count + p, r.off)] else []
  | none =>
    if r.stride = 0 then (if hit r.off then [(b * r.count, r.off)] else [])
    else
      let i := (o - r.off) / r.stride
      ([i, i + 1].filter (fun j => decide (j < r.count) && hit (r.off + j * r.stride))).map (fun j => (b * r.count + j, r.off + j * r.stride))

/-! Reads -/

/-- The granule that a MEM_GRANULE_SEL value selects. -/
def selGranule (hub v : Nat) : Nat :=
  if bitAt v 11 then lsAddr hub (bitsOf v 22 16) (bitsOf v 10 0 * 4096) else pantryAddr hub (bitsOf v 10 0 * 4096)

/-- The trail that a hub's DBG_TRAIL_SEL shows. -/
def shownTrail (s : State) (h : Nat) : Nat :=
  if rdb s .DBG_TRAIL_SEL_HUB h then hubTrail h else coreKey h (rd s .DBG_TRAIL_SEL_PHYS_SLOT h)

/-- What a read of a field returns. The fields that show other state show it as it is. -/
def readField (s : State) (f : Fld) (n : Nat := 0) : Nat :=
  match f with
  | .MEM_GRANULE_INFO_OWNER => granuleOwner s (selGranule n (rd s .MEM_GRANULE_SEL n))
  | .MEM_GRANULE_INFO_WRITTEN => b2n (granuleWritten s (selGranule n (rd s .MEM_GRANULE_SEL n)))
  | .DBG_TRAIL_STATUS_NEXT => storeGet 0 s.dbg.trailNext (shownTrail s n)
  | .DBG_BIST_SIG => storeGet 0 s.dbg.sigs (n * 68 + rd s .DBG_BIST_SIG_SEL n)
  | .CTXWIN_CADENCE => s.now
  | _ => rd s f n

/-! Writes -/

/-- Bits of a field after a write of `width` bytes of v at o, where the field's register is at offset reg; the
bits the write does not cover keep `old`. A set bit of an RW1C field clears. -/
def mergeBits (r : FieldRow) (reg o width v old : Nat) : Nat :=
  ((List.range (r.hi + 1 - r.lo)).map (fun i =>
    let bit := reg * 8 + r.lo + i
    let was := bitAt old i
    let now_ := if o * 8 ≤ bit ∧ bit < (o + width) * 8 then
        let w := bitAt v (bit - o * 8)
        if r.acc = .rw1c then was && !w else w
      else was
    b2n now_ * 2 ^ i)).sum

/-- Whether a value is one that the field takes: a write outside a stated range is ignored. -/
def inRange (r : FieldRow) (v : Nat) : Bool :=
  match r.range with
  | some (lo, hi) => decide (lo ≤ v ∧ v ≤ hi)
  | none => true

/-- Whether a session of a context is parked, or being parked or unparked, in HOST form (R216). -/
def hostParked (s : State) (c : Nat) : Bool :=
  s.serve.sessions.any (fun e => e.2.ctx == c &&
    (match rootAt s e.1 with | some r => r.form == 1 && decide (2 ≤ r.st) | none => false))

/-- What keeps a field from being written, for now or, at the reserved place of a layout 0, for good (R184, R215, R216, R228, R461). -/
def writeLocked (s : State) (src : Src) (f : Fld) (n : Nat) : Bool :=
  match f with
  | .SERVE_BLOCK_ADDR | .SERVE_INTAKE_BASE | .SERVE_INTAKE_SIZE_LOG2 | .SERVE_EVQ_BASE | .SERVE_EVQ_SIZE_LOG2
  | .SERVE_EVQ_SIZE_VECTOR => rdb s .SERVE_CTRL_ENABLE n || rd s .SERVE_OPEN_ITEMS n != 0
  | .SERVE_PARK_BASE | .SERVE_PARK_SIZE => hostParked s n
  | .PANNIER_CTRL_READY => rdb s .PANNIER_CTRL_COPY_BUSY
  | .LARDER_LAYOUT_LAYERS | .LARDER_LAYOUT_LATENT_UNITS | .LARDER_LAYOUT_LATENT_FMT | .LARDER_LAYOUT_ROPE_UNITS | .LARDER_LAYOUT_ROPE_FMT
  | .LARDER_LAYOUT_VALID => n == 0
  | .DBG_PROF_CTRL_EN | .DBG_PROF_CTRL_WRAP | .DBG_PROF_CTRL_CTX_ANY | .DBG_PROF_CTRL_CTX | .DBG_PROF_CARD
  | .DBG_PROF_PTR_TAIL => !isMgmt s src && confidential s (rd s .DBG_PROF_CTRL_CTX n)
  | _ => false

/-- What follows a field's new value: interrupt delivery sees cleared status bits and new routes. -/
def afterWrite (s : State) (f : Fld) : State :=
  match f with
  | .EVC_STATUS_CELLAR | .EVC_STATUS_CTX | .EVC_STATUS_LINK | .EVC_STATUS_POWER =>
    let v := evcStatus s
    updRep s fun r => { r with pfTargets := r.pfTargets.map (fun e => (e.1, { e.2 with reportedStatus := e.2.reportedStatus &&& v })) }
  | .EVC_MBX_PENDING =>
    let v := rd s .EVC_MBX_PENDING
    updRep s fun r => { r with pfTargets := r.pfTargets.map (fun e => (e.1, { e.2 with reportedMbx := e.2.reportedMbx &&& v })) }
  | .EVC_ROUTE_MODULE | .EVC_ROUTE_MBX => deliverPending s
  | _ => s

/-- A write reaches instance n of a field whose register is at offset reg. -/
def writeField (s : State) (src : Src) (f : Fld) (n reg o width v : Nat) : State :=
  let r := fieldRow f
  if r.acc = .ro ∨ r.own = true ∨ mayWrite s src f n = false then s
  else if writeLocked s src f n then
    (if f = .PANNIER_CTRL_READY then wr s .PANNIER_CTRL_WRITE_DROPPED 0 1 else s)
  else
    let new_ := mergeBits r reg o width v (rd s f n)
    if inRange r new_ then afterWrite (wr s f n new_) f else s

/-- The slab size of a layout, and VALID 0 for a layout with an invalid field (R160). -/
def settleLayout (s : State) (n : Nat) : State :=
  let s := if layoutValid s n then s else wr s .LARDER_LAYOUT_VALID n 0
  wr s .LARDER_LAYOUT_SLAB_UNITS n (slabBytes s n / 256)

/-- Registers and windows at which no field of Machine/Registers.lean lies: registers of WO fields and the windows
of bytes. -/
def otherAssigned (tg : Target) : Bool :=
  let inR := fun (o lo hi : Nat) => decide (lo ≤ o) && decide (o < hi)
  (match targetAt tg .hub with
    | some (_, o) => inR o 0xF04 0xF08 || inR o 0x1008 0x100C || inR o 0x1330 0x1334 || inR o 0x2000 0x2400 || inR o 0x4000 0xC000
        || inR o 0xC00 0xC20
    | none => false)
  || (match targetAt tg .wing with | some (_, o) => inR o 0x90000 0x90C00 | none => false)
  || (match targetAt tg .vest with
    | some (_, a) => inR a 0xFF01B0000C 0xFF01B00010 || inR a 0xFF01B40000 0xFF01B40004 || inR a 0xFF01BC0010 0xFF01BC0014
        || inR a 0xFF01BE0018 0xFF01BE001C || inR a 0xFF01BE0140 0xFF01BE0190 || inR a 0xFF01BE1000 0xFF01BE2000
        || inR a 0xFF01B68000 0xFF01B68200 || inR a 0xFF01B69000 0xFF01B69008
        || (inR a 0xFF01B70400 0xFF01B80000 && decide (a % 0x400 < 0x204))
    | none => false)
  || (match targetAt tg .win with
    | some (c, o) => inR o 0x200 0x404 || (c != 0 && (inR o 0x1000 0x1020 || inR o 0x1800 0x1808))
    | none => false)
  || (match targetAt tg .link with | some (_, o) => inR o 0x18 0x1C | none => false)

/-- Whether an address holds a register (R255): a word of it belongs to a field of the tables, or it is one of
the registers and windows without one. -/
def assigned (s : State) (tg : Target) (width : Nat) : Bool :=
  otherAssigned tg || allFlds.any fun f =>
    match targetAt tg (fieldRow f).block with
    | some (b, o) =>
      let r := fieldRow f
      r.sel.isSome && decide (r.off ≤ o + 3) && decide (o < r.off + 4) || !(instancesAt s f b o width).isEmpty
        || decide (r.off ≤ o) && decide (o < r.off + (r.hi / 32 + 1) * 4) 
    | none => false

/-- A byte of an HBM region's owner is written (R278, R281): the region is cleared for its next owner. A code
that R257 reserves, CLEARING itself, and a region under clear leave it as it is. -/
def writeOwner (s : State) (src : Src) (wing region v : Nat) : State :=
  let n := wing * 3072 + region
  let ok := (isMgmt s src || src == .core (leadHub s)) && grantCode v && storeGet 0x7F s.mem.regions n != 0x7E
  if ok && storeGet 0x7F s.mem.regions n != v then startClear s n v else s

/-- Bytes of the mailbox buffers by window × 1,024: 0x000 and 0x100 the VF's inbound and outbound buffers, 0x200
and 0x300 the PF's. Only outbound buffers are written (R405). -/
def mboxKey (tg : Target) : Option Nat :=
  match tg with
  | .pf a =>
    if 0xFF01B70400 ≤ a ∧ a < 0xFF01B80000 ∧ 0x100 ≤ a % 0x400 ∧ a % 0x400 < 0x200 then
      some ((a - 0xFF01B70000) / 0x400 * 1024 + 0x300 + (a % 0x400 - 0x100))
    else none
  | .vf fn off => if 1 ≤ fn ∧ fn < 64 ∧ 0x300 ≤ off ∧ off < 0x400 then some (fn * 1024 + 0x100 + (off - 0x300)) else none

end Sys2Proof.Machine
end

