-- ==== Sys2Proof/Machine/Tables.lean ====
section
/-! DEFINITION. The double-banked tables (R19 to R22, R40 to R49, R154, R155, R226 to R228): images and their
checks, loads, flip requests and flips, and writes of registers without behaviour of their own. -/

namespace Sys2Proof.Machine

/-! Loads and flips of the wing's tables -/

/-- The image at an offset of a hub's Pantry scratch window: at most n bytes, and none beyond the window's
scratch part. -/
def pantryImage (s : State) (hub off n : Nat) : List Nat :=
  let lim := (8 - rd s .MEM_PANTRY_MODE_CACHE_MIB hub) * 0x100000
  readBytes s (pantryAddr hub off) (min n (lim - off))

/-- A START of a hub's table load (R44). -/
def startHubLoad (s : State) (h : Nat) : State :=
  if rdb s .WING_TT_CTRL_FLIP_REQ (h / 40) then
    let s := wr (wr s .HUB_TT_CTRL_LOAD_ERROR h 1) .HUB_TT_CTRL_LOAD_REASON h 3
    trail s (hubTrail h) 0x22 0 2 3
  else wr s .HUB_TT_CTRL_LOAD_BUSY h 1

/-- HUB_TT_LOAD (R44). -/
def execHubTtLoad (src : Src) (hub : Nat) (s : State) : Host.Outcome State Fault Refusal :=
  settle s (if hub < 160 && mayWrite s src .HUB_TT_LOAD_SRC_OFFSET hub then startHubLoad s hub else s)

/-- HUB_TT_LOAD_DONE (R44): the checks of Table 2-14; a load that passes replaces the inactive bank, and one that fails leaves it
with what it held. -/
def execHubTtLoadDone (t hub : Nat) (s : State) : Host.Outcome State Fault Refusal :=
  let u := tick s t
  settle s (if rdb u .HUB_TT_CTRL_LOAD_BUSY hub then
      let u := wr u .HUB_TT_CTRL_LOAD_BUSY hub 0
      let img := pantryImage u hub (rd u .HUB_TT_LOAD_SRC_OFFSET hub * 64) (0x140 + 72 * 1024)
      let why := hubImageReason (hub % 40) img
      if why = 0 then
        let b := 1 - rd u .WING_TT_CTRL_ACTIVE_BANK (hub / 40)
        let u := updTt u fun x => { x with
          ttBanks := storePut [] x.ttBanks (hub * 2 + b) (img.take (0x140 + 72 * imgSlots img))
          ttLoaded := storePut false x.ttLoaded hub true }
        wr (wr u .HUB_TT_CTRL_LOAD_DONE hub 1) .HUB_TT_CTRL_LOAD_REASON hub 0
      else
        let u := wr (wr u .HUB_TT_CTRL_LOAD_ERROR hub 1) .HUB_TT_CTRL_LOAD_REASON hub why
        trail u (hubTrail hub) 0x22 0 2 why
    else u)

/-- WING_TT_LOAD (R44). The wing block holds no load status; a failed load shows in WING_TT_REJECT.REASON. -/
def execWingTtLoad (src : Src) (wing : Nat) (s : State) : Host.Outcome State Fault Refusal :=
  settle s (if wing < 4 && mayWrite s src .WING_TT_LOAD_SRC_OFFSET wing then
      if rdb s .WING_TT_CTRL_FLIP_REQ wing then
        trail (wr s .WING_TT_REJECT_REASON wing 3) (hubTrail (wing * 40)) 0x22 0 2 3
      else updTt s fun x => { x with wingBusy := storePut false x.wingBusy wing true }
    else s)

/-- The wing image that the planner wrote at LOAD_SRC: HOT_REFRESH is set in it when a stack of the wing read 80 °C or more at
the freeze of the step that begins next (R48). -/
def wingSource (s : State) (w : Nat) : List Nat :=
  let img := pantryImage s (w * 40) (rd s .WING_TT_LOAD_SRC_OFFSET w * 64) (0x8148 + 96 * 1024)
  if (s.tt.frozen.head?.map (fun f => decide (w ∈ f.hot))).getD false then img.modify 5 (fun b => b ||| 1) else img

/-- WING_TT_LOAD_DONE (R44). -/
def execWingTtLoadDone (t wing : Nat) (s : State) : Host.Outcome State Fault Refusal :=
  let u := tick s t
  settle s (if storeGet false u.tt.wingBusy wing then
      let u := updTt u fun x => { x with wingBusy := storePut false x.wingBusy wing false }
      let img := wingSource u wing
      let why := wingImageReason img
      let b := 1 - rd u .WING_TT_CTRL_ACTIVE_BANK wing
      if why = 0 then updTt u fun x => { x with
        ttBanks := storePut [] x.ttBanks (wingTable wing * 2 + b) (img.take (0x8148 + 96 * imgSlots img))
        ttLoaded := storePut false x.ttLoaded (wingTable wing) true }
      else trail (wr u .WING_TT_REJECT_REASON wing why) (hubTrail (wing * 40)) 0x22 0 2 why
    else u)

/-- A write of 1 to a FLIP_REQ by one of the field's writers; writing 0 has no effect. -/
def setFlipReq (s : State) (src : Src) (f : Fld) (n value : Nat) : State :=
  if mayWrite s src f n && value % 2 == 1 then wr s f n 1 else s

/-- A request for a flip at a step boundary; while no step runs or is planned it places one (R475). -/
def requestFlip (s : State) (src : Src) (f : Fld) (n value : Nat) : State :=
  if mayWrite s src f n && value % 2 == 1 then wantBoundary (wr s f n 1) else s

/-- WING_TT_FLIP_REQ (R45). -/
def execWingTtFlipReq (src : Src) (wing value : Nat) (s : State) : Host.Outcome State Fault Refusal :=
  settle s (if wing < 4 then requestFlip s src .WING_TT_CTRL_FLIP_REQ wing value else s)

/-- A wing's flip is rejected: the first failing hub or channel, and a hub error (R45). -/
def rejectWing (s : State) (w hub chan why : Nat) : State :=
  let s := wr (wr (wr s .WING_TT_REJECT_HUB w hub) .WING_TT_REJECT_CHANNEL w chan) .WING_TT_REJECT_REASON w why
  hubError (wr s .WING_TT_CTRL_FLIP_REJECTED w 1) (w * 40) 0xE0000 4 0

/-- Every hub of a wing and the wing itself hold a load of the inactive bank made since the last flip (R37, R45). -/
def wingLoaded (s : State) (w : Nat) : Bool :=
  (List.range 40).all (fun i => storeGet false s.tt.ttLoaded (w * 40 + i)) && storeGet false s.tt.ttLoaded (wingTable w)

/-- The wing's tables flip together (R45). -/
def flipWing (s : State) (w : Nat) : State :=
  let s := wr s .WING_TT_CTRL_FLIP_REQ w 0
  let loaded := fun (t : Nat) => storeGet false s.tt.ttLoaded t
  let img := ttBank s (wingTable w) (1 - rd s .WING_TT_CTRL_ACTIVE_BANK w)
  match (List.range 40).find? (fun i => !loaded (w * 40 + i)) with
  | some i => rejectWing s w i 0x7F (rd s .HUB_TT_CTRL_LOAD_REASON (w * 40 + i))
  | none =>
    if !loaded (wingTable w) then rejectWing s w 0x3F 0x7F (rd s .WING_TT_REJECT_REASON w)
    else match windowFault img with
      | some (c, why) => rejectWing s w 0x3F c why
      | none =>
        let b := 1 - rd s .WING_TT_CTRL_ACTIVE_BANK w
        let g := nextGen (rd s .WING_TT_CTRL_ACTIVE_GEN w)
        let s := wr (wr s .WING_TT_CTRL_ACTIVE_BANK w b) .WING_TT_CTRL_ACTIVE_GEN w g
        let s := wr s .WING_TT_CTRL_HOT_REFRESH w (imgByte img 5 % 2)
        let s := each (List.range 40) s fun t i =>
          let h := w * 40 + i
          wr (wr (wr t .HUB_TT_CTRL_ACTIVE_BANK h b) .HUB_TT_CTRL_ACTIVE_GEN h g) .HUB_TT_CTRL_LOAD_DONE h 0
        let s := updTt s fun x => { x with
          ttLoaded := storeKeep (fun t => !(t / 40 == w && decide (t < 160)) && t != wingTable w) x.ttLoaded }
        trail s (hubTrail (w * 40)) 0x21 0 2 g

/-- The refresh watchdog of a channel reads `slots` slots without a REFRESH slot (R49): from its limit on the channel
refreshes in the next slot, and the watchdog starts again. -/
def execRefreshWatchdog (t chan slots : Nat) (s : State) : Host.Outcome State Fault Refusal :=
  let u := tick s t
  let w := chan / 96
  let lim := if rdb u .WING_TT_CTRL_HOT_REFRESH w then 20 else 40
  settle s (if 384 ≤ chan then u
    else if lim ≤ slots then
      inc (updTt u fun x => { x with refreshAge := storePut 0 x.refreshAge chan 0 }) .WING_TT_REFRESH_FORCED w
    else updTt u fun x => { x with refreshAge := storePut 0 x.refreshAge chan slots })

/-! The remap table (R20, R21) -/

/-- REMAP_FLIP_REQ (R20). -/
def execRemapFlipReq (src : Src) (hub value : Nat) (s : State) : Host.Outcome State Fault Refusal :=
  settle s (if hub < 160 then requestFlip s src .HUB_REMAP_CTRL_FLIP_REQ hub value else s)

/-- REMAP_SLOT_WRITE (R21). -/
def execRemapSlotWrite (src : Src) (hub bank slot value : Nat) (s : State) : Host.Outcome State Fault Refusal :=
  let n := hub * 64 + slot
  settle s (if 160 ≤ hub ∨ 64 ≤ slot ∨ 2 ≤ bank ∨ mayWrite s src .HUB_REMAP_B0_SLOT_VALID n = false then s
    else if bank = rd s .HUB_REMAP_CTRL_ACTIVE_BANK hub ∨ rdb s .HUB_REMAP_CTRL_FLIP_REQ hub then
      wr s .HUB_REMAP_CTRL_WRITE_DROPPED hub 1
    else updTt (setBankEntry s bank n (value % 256)) fun x => { x with remapWritten := storePut false x.remapWritten n true })

/-! Coefficient tables (R154, R155) -/

/-- The reason of VEC_COEF_CTRL with which an image fails. -/
def coefReason (l : List Nat) : Nat :=
  if imgNum l 0 4 ≠ 0x42464543 then 1
  else if imgNum l 4 2 = 0 then 2
  else if ((l.drop 6).take 10).any (· != 0) then 4
  else 0

/-- VEC_COEF_LOAD (R155). -/
def execVecCoefLoad (src : Src) (hub : Nat) (s : State) : Host.Outcome State Fault Refusal :=
  settle s (if 160 ≤ hub ∨ mayWrite s src .VEC_COEF_LOAD_SRC_OFFSET hub = false then s
    else if rdb s .VEC_COEF_CTRL_FLIP_REQ hub then
      trail (wr (wr s .VEC_COEF_CTRL_LOAD_ERROR hub 1) .VEC_COEF_CTRL_LOAD_REASON hub 3) (hubTrail hub) 0x22 0 3 3
    else wr s .VEC_COEF_CTRL_LOAD_BUSY hub 1)

/-- VEC_COEF_LOAD_DONE (R155): every replica of the hub takes the image. -/
def execVecCoefLoadDone (t hub : Nat) (s : State) : Host.Outcome State Fault Refusal :=
  let u := tick s t
  settle s (if rdb u .VEC_COEF_CTRL_LOAD_BUSY hub then
      let u := wr u .VEC_COEF_CTRL_LOAD_BUSY hub 0
      let img := pantryImage u hub (rd u .VEC_COEF_LOAD_SRC_OFFSET hub * 64) 1040
      let why := coefReason img
      if why = 0 then
        let b := 1 - rd u .VEC_COEF_CTRL_ACTIVE_BANK hub
        let u := updTt u fun x => { x with
          coefBanks := storePut [] x.coefBanks (hub * 2 + b) ((List.range 256).map (fun i => imgNum img (16 + 4 * i) 4))
          coefLoaded := storePut false x.coefLoaded hub true }
        let u := wr (wr u .VEC_COEF_CTRL_LOAD_DONE hub 1) .VEC_COEF_CTRL_LOAD_REASON hub 0
        wr u .VEC_COEF_TAG_INACTIVE_TAG hub (imgNum img 4 2)
      else
        let u := wr (wr u .VEC_COEF_CTRL_LOAD_ERROR hub 1) .VEC_COEF_CTRL_LOAD_REASON hub why
        trail u (hubTrail hub) 0x22 0 3 why
    else u)

/-- VEC_COEF_FLIP_REQ (R155). -/
def execVecCoefFlipReq (src : Src) (hub value : Nat) (s : State) : Host.Outcome State Fault Refusal :=
  settle s (if hub < 160 then requestFlip s src .VEC_COEF_CTRL_FLIP_REQ hub value else s)

/-- All replicas of a hub flip together, if a load has completed since the last flip (R155). -/
def flipCoefs (s : State) (h : Nat) : State :=
  let s := wr s .VEC_COEF_CTRL_FLIP_REQ h 0
  if storeGet false s.tt.coefLoaded h then
    let a := rd s .VEC_COEF_TAG_ACTIVE_TAG h
    let g := nextGen (rd s .VEC_COEF_CTRL_ACTIVE_GEN h)
    let s := wr s .VEC_COEF_CTRL_ACTIVE_BANK h (1 - rd s .VEC_COEF_CTRL_ACTIVE_BANK h)
    let s := wr (wr s .VEC_COEF_CTRL_ACTIVE_GEN h g) .VEC_COEF_CTRL_LOAD_DONE h 0
    let s := wr (wr s .VEC_COEF_TAG_ACTIVE_TAG h (rd s .VEC_COEF_TAG_INACTIVE_TAG h)) .VEC_COEF_TAG_INACTIVE_TAG h a
    trail (updTt s fun x => { x with coefLoaded := storePut false x.coefLoaded h false }) (hubTrail h) 0x21 0 3 g
  else hubError (wr s .VEC_COEF_CTRL_FLIP_REJECTED h 1) h 0x918 4 0

/-- Instances of a field that hold 1. -/
def instancesSet (s : State) (f : Fld) : List Nat :=
  (s.regs.filter (fun e => e.1 % 1024 == f.ctorIdx && e.2 == 1)).map (·.1 / 1024)

/-- The requested flips of slot tables and coefficient tables at a step boundary. -/
def tablesAtBoundary (s : State) : State :=
  let s := each (instancesSet s .WING_TT_CTRL_FLIP_REQ) s flipWing
  each (instancesSet s .VEC_COEF_CTRL_FLIP_REQ) s flipCoefs

/-! The Pannier's bank commands (R226 to R228) -/

/-- Whether a source may write the Pannier's registers. -/
def pannierWriter (s : State) (src : Src) : Bool := mayWrite s src .PANNIER_CTRL_READY

/-- PANNIER_COPY_START (R228). The copy writes every wing's inactive bank, so that READY clears; while FLIP_REQ is 1 or
a copy runs it is dropped (R226). It takes windows of the running step, or a step is issued for it (R38). -/
def execPannierCopyStart (src : Src) (s : State) : Host.Outcome State Fault Refusal :=
  settle s (if pannierWriter s src then
      if rdb s .PANNIER_CTRL_FLIP_REQ || rdb s .PANNIER_CTRL_COPY_BUSY then wr s .PANNIER_CTRL_WRITE_DROPPED 0 1
      else
        let s := wr (wr s .PANNIER_CTRL_COPY_BUSY 0 1) .PANNIER_CTRL_READY 0 0
        if s.tt.run.running then s else planMove s 2000
    else s)

/-- PANNIER_COPY_DONE (R228): every wing's inactive bank equals the active one. -/
def execPannierCopyDone (t : Nat) (s : State) : Host.Outcome State Fault Refusal :=
  let u := tick s t
  settle s (if rdb u .PANNIER_CTRL_COPY_BUSY then
      wr (copyBank u) .PANNIER_CTRL_COPY_BUSY 0 0
    else u)

/-- PANNIER_FLIP_REQ (R226). -/
def execPannierFlipReq (src : Src) (value : Nat) (s : State) : Host.Outcome State Fault Refusal :=
  settle s (requestFlip s src .PANNIER_CTRL_FLIP_REQ 0 value)

/-- PANNIER_ENTRY_WRITE (R222, R227): the lead control core writes the 64 bytes of an entry into one wing's replica of a bank. -/
def execPannierEntryWrite (src : Src) (wing bank slot : Nat) (e : PEntry) (s : State) : Host.Outcome State Fault Refusal :=
  settle s (if 4 ≤ wing ∨ 2 ≤ bank ∨ 16384 ≤ slot ∨ src ≠ .core (leadHub s) then s
    else storeHbm s (entryAddr s bank wing slot) (entryBytes e))

/-! Register writes -/

/-- The hub and the physical core slot of a local-store window address: core ID bits [14:13], [12:7] and [6:0]. -/
def lsWindow (a : Nat) : Nat × Nat × Nat :=
  let id := (a - lsBase) / 0x20000
  (id / 8192, id / 128 % 64, id % 128)

/-- The hub that an address of the management context concerns, hub 0 for one that belongs to no hub (R255). -/
def hubConcerned (a : Nat) : Nat :=
  if pantryBase ≤ a ∧ a < 0xC050000000 then (a - pantryBase) / 0x800000
  else if lsBase ≤ a ∧ a < 0xC200000000 then
    let (w, h, _) := lsWindow a
    if h < 40 then w * 40 + h else 0
  else if 0xFF00000000 ≤ a ∧ a < 0xFF00A00000 then (a - 0xFF00000000) / 0x10000
  else 0

/-- A management write to an address of the device map that holds no register (R254, R255): a physical core's
storage takes the bytes; the reserved part of its window, a window of a reserved ID, the cache part of a Pantry
window, a hole and a reserved register set ADDR_FAULT. Table 9-1 lets management reach no HBM, Pantry storage or host memory. -/
def mgmtWrite (s : State) (a width v : Nat) : State :=
  if lsBase ≤ a ∧ a < 0xC200000000 then
    let (_, h, p) := lsWindow a
    if h < 40 ∧ p < 66 ∧ (a - lsBase) % 0x20000 + width ≤ 0x18000 then writeLe s a width v
    else wr s .MEM_STATUS_ADDR_FAULT (hubConcerned a) 1
  else if addrFaulty s a = false then s
  else wr s .MEM_STATUS_ADDR_FAULT (hubConcerned a) 1

/-- A write of `width` bytes to a register address. Fields whose write has a command of its own and WO fields act
through their commands; reserved bits are ignored (R3); a management write to an address without a register
sets ADDR_FAULT (R255). -/
def regWrite (s : State) (src : Src) (tg : Target) (width v : Nat) : State :=
  match mboxKey tg with
  | some k =>
    let ok : Bool := match tg with | .pf _ => isMgmt s src | .vf fn _ => src == .driver fn
    if ok then updCtxs s fun x => { x with
      mbox := (List.range (min width (256 - k % 256))).foldl (fun m i => storePut 0 m (k + i) (v / 256 ^ i % 256)) x.mbox }
    else s
  | none =>
    match targetAt tg .wing with
    | some (w, o) =>
      if 0x90000 ≤ o ∧ o < 0x90C00 then
        each (List.range width) s fun t i => writeOwner t src w (o - 0x90000 + i) (v / 256 ^ i % 256)
      else regFields s src tg width v
    | none => regFields s src tg width v
where
  /-- The fields the write covers. -/
  regFields (s : State) (src : Src) (tg : Target) (width v : Nat) : State :=
    if !assigned s tg width then
      match tg, src with
      | .pf a, .mgmt => mgmtWrite s a width v
      | _, _ => s
    else
      let layoutHeld := match tg with
        | .pf a => decide (0xFF01A20100 ≤ a ∧ a < 0xFF01A20180)
        | _ => false
      let n := match tg with | .pf a => (a - 0xFF01A20100) / 8 | _ => 0
      let was := rdb s .LARDER_LAYOUT_VALID n
      let t := allFlds.foldl (fun t f =>
        match targetAt tg (fieldRow f).block with
        | some (b, o) => (instancesAt s f b o width).foldl (fun t e => writeField t src f e.1 e.2 o width v) t
        | none => t) s
      if layoutHeld then (if was && rdb t .LARDER_LAYOUT_VALID n then s else settleLayout t n) else t

end Sys2Proof.Machine
end

