-- ==== Sys2Proof/Machine/Adapters.lean ====
section
/-! DEFINITION. Adapter requests (R230 to R234, R248): loads, releases, and what they share with training: keys, slots,
the writing of an image's parts. -/

namespace Sys2Proof.Machine

/-! Keys and slots -/

/-- The adapter key of a context at an index. -/
def keyAt (s : State) (ctx i : Nat) : Option AdapterKey := storeFind s.ctxs.keys (ctx * 4 + i)

/-- Whether a load, open or checkpoint may use KEY_INDEX (R231, R399): context 0 keeps index 3 for SPDM. -/
def keyUsable (s : State) (ctx i : Nat) (isImport : Bool) : Bool :=
  (keyAt s ctx i).isSome && !(isImport && ctx == 0 && i == 3)

/-- Whether a slot is free for a load or an open (R239). -/
def slotFree (s : State) (slot : Nat) : Bool :=
  (plannedEntry s slot).st == 0 && !s.pann.jobs.any (fun e => e.2.slot == slot)

/-- Slots a context holds, with those of jobs that are still being opened. -/
def slotsHeld (s : State) (ctx : Nat) : Nat :=
  slotsOf s ctx + (s.pann.jobs.filter (fun e => e.2.ctx == ctx && (plannedEntry s e.2.slot).st == 0)).length

/-- Check 13: a FREE slot and room in the quota. -/
def slotRoom (s : State) (ctx slot : Nat) : Bool := slotFree s slot && decide (slotsHeld s ctx < rd s .PANNIER_QUOTA ctx)

/-- SCALE of an entry (Table 8-2). -/
def entryScale (alpha rank : Nat) : Nat :=
  if rank = 0 then 0 else f32Div alpha (roundDyad fFP32 true ⟨rank, 0⟩)

/-- Planned time of a transfer at 64 GB/s (R232, R245). -/
def transferNs (bytes : Nat) : Nat := ceilDiv bytes 64

/-- Time to zero n bytes at full HBM bandwidth, 31,948.8 GB/s over the module. -/
def zeroTime (n : Nat) : Nat := ceilDiv (n * 10) 319488

/-- Places for an entry's parts, wing by wing. -/
def placeParts (s : State) (units : List Nat) : Option (List Nat) :=
  let l := (List.range 4).map (fun w => allocStore s w (units.getD w 0) [])
  if l.all Option.isSome then some (l.map (fun o => o.getD 0)) else none

/-- Units of each wing's part of an adapter. -/
def partUnitsOf (m : Model) (set fmt rank : Nat) : List Nat :=
  (List.range 4).map (fun w => ceilDiv (wingPartBytes m set fmt rank w) 4096)

/-- An entry with its places; none if a wing's store cannot hold its part. -/
def buildEntry (s : State) (st ctx rank model set fmt alpha job : Nat) : Option PEntry :=
  match modelAt s model with
  | none => none
  | some m =>
    let units := partUnitsOf m set fmt rank
    (placeParts s units).map (fun offs => ⟨st, ctx, rank, model, set, fmt, entryScale alpha rank, job, offs, units, 0⟩)

/-- Write a body's parts at an entry's places; a whole rewrite clears poison (R277). -/
def writeParts (s : State) (e : PEntry) (body : List Nat) : State :=
  match modelAt s e.model with
  | none => s
  | some m =>
    each (List.range 4) (zeroParts s e) fun t w =>
      if e.partUnits.getD w 0 = 0 then t
      else writeBytes (wingPart m e.targetSet e.format e.rank w body) (partAddr t w e) t

/-! Images (R219, R221) -/

/-- Whether a rank is one of Table 8-1. -/
def rankOk (r : Nat) : Bool := r == 0 || (decide (4 ≤ r ∧ r ≤ 256) && r % 4 == 0)

/-- The clear header that 64 bytes hold, and the bytes of one (R231). -/
def clearOf (l : List Nat) : ClearHeader :=
  ⟨decide (l.length = 64) && fieldAt l 0 4 == 0x434E4150 && fieldAt l 4 2 == 1 && zeroBytes l 6 2 && zeroBytes l 0x1C 36, fieldAt l 8 8, fieldAt l 0x10 12⟩
def clearBytes (plain iv : Nat) : List Nat :=
  leBytes 4 0x434E4150 ++ leBytes 2 1 ++ [0, 0] ++ leBytes 8 plain ++ leBytes 12 iv ++ List.replicate 36 0

/-- The image that plaintext bytes hold (R219, Table 8-1). -/
def imageOf (l : List Nat) : AdapterImage :=
  let n := fieldAt l 0xE 2
  let rows := (List.range (min n (l.length / 16))).map (fun i => (l.drop (64 + 16 * i)).take 16)
  ⟨decide (64 + 16 * n ≤ l.length) && fieldAt l 0 4 == 0x4E4E4150 && fieldAt l 4 2 == 1 && zeroBytes l 0xB 1 && zeroBytes l 0x18 8
      && rows.all (fun r => zeroBytes r 2 2 && zeroBytes r 12 4),
    fieldAt l 6 1, fieldAt l 7 1, fieldAt l 8 2, fieldAt l 0xA 1, fieldAt l 0xC 2, n, fieldAt l 0x10 4, fieldAt l 0x14 4,
    rows.map (fun r => (fieldAt r 0 2, fieldAt r 4 4, fieldAt r 8 4)),
    decide ((l.drop 0x20).take 32 = sha256 (l.drop 64)), l.drop (64 + 16 * n)⟩

/-- Bytes of a target in the body of an image of a KIND. -/
def kindBytes (kind fmt r : Nat) (t : Target478) : Nat := if kind = 1 then targetBytes fmt r t else 12 * (r * t.dIn + t.dOut * r)

/-- R219 and R221 for an image of a KIND for a model. DEDUCED (log 82): the table names every target of the set once, and the body has
the bytes of its targets and no more. -/
def imageOkFor (s : State) (kind model : Nat) (x : AdapterImage) : Bool :=
  match modelAt s model with
  | none => false
  | some m =>
    let ts := targetsOf m x.targetSet
    x.headerOk && x.kind == kind && (if kind = 1 then x.format == 1 || x.format == 8 else x.format == 0xA)
      && x.model == model && m.targetSets.any (fun e => e.1 == x.targetSet) && rankOk x.rank
      && x.targetCount == ts.length && x.table.all (fun e => ts[e.1]?.map (fun t => (t.dIn, t.dOut)) == some e.2)
      && decide ((x.table.map (·.1)).Nodup) && f32PosFinite x.alpha && (kind == 2 || x.optStep == 0) && x.digestOk
      && x.body.length == (ts.map (kindBytes kind x.format x.rank)).sum

/-- The body of an image with its targets in the order of the set (R219). -/
def bodyInSetOrder (s : State) (model : Nat) (x : AdapterImage) : List Nat :=
  let ts := ((modelAt s model).map (fun m => targetsOf m x.targetSet)).getD []
  let size := fun (i : Nat) => (ts[i]?.map (kindBytes x.kind x.format x.rank)).getD 0
  ((List.range ts.length).map (fun i =>
    (x.body.drop (((x.table.map (·.1)).takeWhile (· != i)).map size).sum).take (size i))).flatten

/-- What a transferred image comes to: none if it is good, else the final code and detail (R231, R221, R400). -/
def imageFault (s : State) (load : Bool) (bytes model : Nat) (hdr : Option (List Nat)) (tagOk : Bool) (img : List Nat) :
    Option (Nat × Nat) :=
  match hdr.map clearOf with
  | none => some (0x23, 0x05)
  | some c =>
    firstFail [ (c.ok && c.plainBytes + 80 == bytes, 0x30, 0x49),
      (!(load && c.iv / 2 ^ 64 == 0xFFFFFFFF), 0x30, 0x4C),
      (tagOk, 0x30, 0x48),
      (imageOkFor s (if load then 1 else 2) model (imageOf img), 0x30, 0x49) ]

/-! ADAPTER_LOAD -/

/-- Checks 2, 3, 5, 7, 10 and 13 of Table 7-7. -/
def loadChecks (s : State) (h : ReqHead) (r : AdapterLoadRec) : Option (Nat × Nat) :=
  firstFail
    [ (r.resv && decide (r.slotBits < 16384), 0x30, 0x41),
      (h.handle == 0 && isHostAddr r.addr 4096 && r.bytes != 0 && decide (r.keyIndex ≤ 3) && decide (1 ≤ r.model ∧ r.model ≤ 15), 0x30, 0x42),
      (modelUsable s r.model, 0x30, 0x45),
      (keyUsable s h.ctx r.keyIndex true, 0x30, 0x4A),
      (!rdb s .SERVE_CTRL_BACKLOG h.ctx, 0x10, 0x05),
      (slotRoom s h.ctx r.slotBits, 0x11, 0x03) ]

/-- ADAPTER_LOAD (R232): the entry becomes LOADING at the next flip and the transfer follows. -/
def execAdapterLoad (h : ReqHead) (r : AdapterLoadRec) (s : State) : Host.Outcome State Fault Refusal :=
  settle s
    (match loadChecks s h r with
    | some (c, d) => answer s h c d
    | none =>
      let e : PEntry := { freeEntry with st := 1, ctx := h.ctx, model := r.model }
      let s := queueEdit s r.slotBits e none
      let u := planMove s (transferNs r.bytes)
      let dl := flipAfter u (moveEnd s u + zeroTime r.bytes) + 2000
      accept u
        { newItem u h 0x10 with slot := some r.slotBits, model := r.model, deadline := dl, data := [r.bytes, r.keyIndex] })

/-- The outcome of a load's image: READY at the next flip, or the written bytes zeroed and the entry FREE at the next
flip; the FINAL follows the flip (R232, R229). -/
def finishLoad (s : State) (x : Item) (slot : Nat) (hdr : Option (List Nat)) (tagOk : Bool) (img : List Nat) : State :=
  let s := setItem s { x with stop := 1 }
  let y := imageOf img
  match imageFault s true (x.data.getD 0 0) x.model hdr tagOk img with
  | some (c, d) =>
    let s := if d = 0x48 then inc s .PANNIER_AUTH_FAIL else s
    queueEdit s slot freeEntry (some (x.ctx, x.idx, c, d))
  | none =>
    match buildEntry s 2 x.ctx y.rank x.model y.targetSet y.format y.alpha 0 with
    | none => queueEdit s slot freeEntry (some (x.ctx, x.idx, 0x11, 0x06))
    | some e => queueEdit (inc (writeParts s e (bodyInSetOrder s x.model y)) .PANNIER_LOADS) slot e (some (x.ctx, x.idx, 1, 0x07))

/-! ADAPTER_RELEASE -/

/-- The latest deadline of the items that name a slot: a GENERATE's is that of its last token (R55). -/
def slotDeadline (s : State) (slot : Nat) : Nat :=
  ((s.serve.items.filter (fun i => i.slot == some slot)).map (fun i =>
    i.deadline + ((i.gen.map (·.maxNew)).getD 0 - 1) * i.interval)).foldl max 0

/-- Checks of Table 7-7 for an ADAPTER_RELEASE; check 8 reads the bank that is active when the record is read (R229). -/
def releaseChecks (s : State) (h : ReqHead) (slotBits : Nat) (resv : Bool) : Option (Nat × Nat) :=
  let e := activeEntry s slotBits
  firstFail
    [ (resv && decide (slotBits < 16384), 0x30, 0x41), (h.handle == 0, 0x30, 0x42),
      (e.st == 2 && e.ctx == h.ctx, 0x31, 0x04),
      (!rdb s .SERVE_CTRL_BACKLOG h.ctx, 0x10, 0x05) ]

/-- ADAPTER_RELEASE (R233). -/
def execAdapterRelease (h : ReqHead) (slotBits : Nat) (resv : Bool) (s : State) : Host.Outcome State Fault Refusal :=
  let e := activeEntry s slotBits
  settle s
    (match releaseChecks s h slotBits resv with
    | some (c, d) => answer s h c d
    | none =>
      let s := startRelease s slotBits (some (h.ctx, h.idx)) false
      let t := max (nextBoundary s) (slotDeadline s slotBits) + zeroNs e
      accept s { newItem s h 0x11 with slot := some slotBits, deadline := flipAfter s t + 2000 })

/-- RELEASE_ZEROING_DONE (R233, R234): the parts of a RELEASING slot that no open item names any more, or that a teardown
releases, are zero; the entry becomes FREE at the next flip. -/
def execReleaseZeroingDone (t slot : Nat) (s : State) : Host.Outcome State Fault Refusal :=
  let u := tick s t
  settle s
    (match u.pann.releases.find? (fun r => r.slot == slot) with
    | none => u
    | some r =>
      let e := activeEntry u slot
      if e.st ≠ 4 ∨ (r.teardown = false ∧ slotNamed u slot r.items = true) then u
      else
        let u := updPann (zeroParts u e) fun p => { p with releases := p.releases.filter (fun x => x.slot != slot) }
        each (r.items.map (fun k => (k.1, k.2, 1, 0x07))) (queueEdit u slot freeEntry none) fun v k => queueEdit v slot freeEntry (some k))

end Sys2Proof.Machine
end

