-- ==== Sys2Proof/Machine/Fabric.lean ====
section
/-! DEFINITION. The links of the fabric (R336 to R341), epochs and liveness (R355 to R358), discovery, joining and
leaving (R348, R359 to R362), and Cadence (R350 to R352). -/

namespace Sys2Proof.Machine

/-! Links -/

/-- A LINK record (Table 12-7); a change of a link's state raises MODULE status LINK. -/
def linkRecord (s : State) (l event : Nat) : State :=
  let n := ((linkOf s l).uncorr.filter (fun x => decide (s.now < x + 1000000))).length
  raiseModule (report s 0x18 l [(1, l, false), (1, event, false), (1, rd s .SPOKE_LINK_STATE_LANES l, false), (4, n, false), (2, peerOf s l, false)])
    .EVC_STATUS_LINK

/-- The state of a link changes, which is reported by an event of Table 12-7; 0 for none of them. -/
def setLinkState (s : State) (l v event : Nat) : State :=
  let s := wr s .SPOKE_LINK_STATE_STATE l v
  if event = 0 then raiseModule s .EVC_STATUS_LINK else linkRecord s l event

/-- The lanes of a mask that a link uses: its lowest, an even number, 8, 6 or 4; none with fewer than 4 (R338). -/
def evenLanes (mask : Nat) : List Nat :=
  let good := (List.range 8).filter (fun i => bitAt mask i)
  if good.length < 4 then [] else good.take (good.length / 2 * 2)

def setLanes (s : State) (l : Nat) (ls : List Nat) : State :=
  wr (wr s .SPOKE_LINK_STATE_LANES l ls.length) .SPOKE_LINK_STATE_LANE_MASK l ((ls.map (fun i => 2 ^ i)).sum)

/-- A link is RETIRED: its lanes are out of use, and the tasks that needed packets it has not delivered end ABORTED_TASK
with detail 0x03 (R343). -/
def retireLink (s : State) (l : Nat) (tasks : List (List (Nat × Nat) × Nat)) : State :=
  let pending := !(linkOf s l).replay.isEmpty
  let s := setLink s l { linkOf s l with replay := [] }
  let s := linkRecord (setLanes (wr s .SPOKE_LINK_STATE_STATE l 4) l []) l 4
  if pending then each tasks s fun t e => endTask t e.1 e.2 0x23 0x03 else s

/-- Start a retrain, or retire the link at the third within 1 s (Tables 12-1, 12-2). -/
def retrainLink (s : State) (l : Nat) (tasks : List (List (Nat × Nat) × Nat)) : State :=
  let x := linkOf s l
  let ts := x.retrains.filter (fun r => decide (s.now < r + 1000000000)) ++ [s.now]
  let s := inc (setLink s l { x with retrains := ts }) .SPOKE_RETRAINS l
  if 3 ≤ ts.length then retireLink s l tasks else setLinkState s l 3 3

/-- The HELLO this module sends (Table 12-5). DESIGN CHOICE (log 89): of the byte 'SIZE_Z and WRAP_Z' the spec gives no bits; the
size is in [3:0], the wrap in [4]. -/
def helloFields (s : State) (l : Nat) : List Nat :=
  [rd s .SPOKE_FAB_ADDR_ADDR + 0x8000 * rd s .SPOKE_FAB_ADDR_ASSIGNED, l, rd s .SPOKE_FAB_CFG_SIZE_X + 16 * rd s .SPOKE_FAB_CFG_SIZE_Y,
   rd s .SPOKE_FAB_CFG_WRAP + 16 * rd s .SPOKE_FAB_CFG_SIZE_Z,
   rd s .SPOKE_FAB_CFG_SIZE_Z + 16 * (rd s .SPOKE_FAB_CFG_WRAP / 4), rd s .EVC_INPUTS_SLOT_ID, ownEpoch s]

/-- A link reaches UP on the lanes of a mask (Table 12-1); with fewer than 4 usable lanes it is RETIRED. -/
def linkComesUp (s : State) (l mask : Nat) : State :=
  let ls := evenLanes (mask % 256 &&& (0xFF ^^^ (linkOf s l).badLanes))
  if ls = [] then retireLink s l [] else setLinkState (setLanes s l ls) l 2 1

/-- LINK_SIGNAL_DETECT. -/
def execLinkSignalDetect (t l : Nat) (s : State) : Host.Outcome State Fault Refusal :=
  let u := tick s t
  settle s (if l < 6 ∧ rd u .SPOKE_LINK_STATE_STATE l = 0 then setLinkState u l 1 0 else u)

/-- LINK_TRAINING_DONE: the lanes that locked and the measured delay; a HELLO goes out (R336, R337, R348). -/
def execLinkTrainingDone (t l mask delay : Nat) (s : State) : Host.Outcome State Fault Refusal :=
  let u := tick s t
  settle s (if l < 6 ∧ rd u .SPOKE_LINK_STATE_STATE l = 1 then
      let u := linkComesUp (setLink (wr u .SPOKE_LINK_DELAY l (min delay (maxOf 16))) l { linkOf u l with txSeq := 0, rxSeq := 0, replay := [], lostAt := none }) l mask
      let u := if rd u .SPOKE_FAB_STATUS_STATE = 0 ∧ linkUp u l ∧ rdb u .SPOKE_FAB_ADDR_ASSIGNED = false then wr u .SPOKE_FAB_STATUS_STATE 0 1 else u
      sendPacket u l (ctlPacket u 6 (peerOf u l) (helloFields u l))
    else u)

/-- LINK_TRAINING_TIMEOUT. -/
def execLinkTrainingTimeout (t l : Nat) (s : State) : Host.Outcome State Fault Refusal :=
  let u := tick s t
  settle s (if l < 6 ∧ rd u .SPOKE_LINK_STATE_STATE l = 1 then retireLink u l [] else u)

/-- LINK_ERROR_THRESHOLD (Table 12-2); `tasks` are the tasks that need packets the link has not delivered. -/
def execLinkErrorThreshold (t l : Nat) (trouble : LinkTrouble) (tasks : List (List (Nat × Nat) × Nat)) (s : State) : Host.Outcome State Fault Refusal :=
  let u := tick s t
  settle s (if l < 6 ∧ linkUp u l then
      match trouble with
      | .codewords n => if 64 < n then retrainLink u l tasks else u
      | .thirdFailure => retrainLink u l tasks
      | .lanes m =>
        let x := linkOf u l
        let u := setLink u l { x with badLanes := x.badLanes ||| (m % 256) }
        let ls := evenLanes (0xFF ^^^ (linkOf u l).badLanes)
        let u := linkRecord u l 2
        if ls = [] then retireLink u l tasks else retrainLink u l tasks
    else u)

/-- LINK_RETRAIN_DONE. -/
def execLinkRetrainDone (t l mask : Nat) (s : State) : Host.Outcome State Fault Refusal :=
  let u := tick s t
  settle s (if l < 6 ∧ rd u .SPOKE_LINK_STATE_STATE l = 3 then linkComesUp u l mask else u)

/-- LINK_RETRAIN_TIMEOUT. -/
def execLinkRetrainTimeout (t l : Nat) (tasks : List (List (Nat × Nat) × Nat)) (s : State) : Host.Outcome State Fault Refusal :=
  let u := tick s t
  settle s (if l < 6 ∧ rd u .SPOKE_LINK_STATE_STATE l = 3 then retireLink u l tasks else u)

/-- LINK_RETIRE: a management write of RETIRE. -/
def execLinkRetire (src : Src) (t l : Nat) (tasks : List (List (Nat × Nat) × Nat)) (s : State) : Host.Outcome State Fault Refusal :=
  let u := tick s t
  settle s (if isMgmt s src = true ∧ l < 6 ∧ rd u .SPOKE_LINK_STATE_STATE l ≠ 4 then retireLink u l tasks else if isMgmt s src = true then u else s)

/-- LINK_RESTORE: a management write of RESTORE retrains a RETIRED or MISCABLED link on all its lanes. -/
def execLinkRestore (src : Src) (t l : Nat) (s : State) : Host.Outcome State Fault Refusal :=
  let u := tick s t
  settle s (if isMgmt s src = false then s
    else if l < 6 ∧ (rd u .SPOKE_LINK_STATE_STATE l = 4 ∨ rd u .SPOKE_LINK_STATE_STATE l = 5) then
      setLinkState (setLink u l { linkOf u l with badLanes := 0, retrains := [], peer := none }) l 1 7
    else u)

/-! Floods and epochs -/

def entryEpoch (s : State) (a : Nat) : Nat := rd s .EPOCH_ENTRY_EPOCH a
def entryState (s : State) (a : Nat) : Nat := rd s .EPOCH_ENTRY_STATE a

def setEntry (s : State) (a e st : Nat) : State := wr (wr s .EPOCH_ENTRY_EPOCH a e) .EPOCH_ENTRY_STATE a st

/-- Whether epoch a is ahead of b in 16-bit serial-number arithmetic (R355). -/
def serialAhead (a b : Nat) : Bool := let d := (a + 65536 - b) % 65536; decide (0 < d ∧ d < 32768)

/-- An epoch advances by one, from 0xFFFF to 0x0001 (R355). -/
def nextEpoch (e : Nat) : Nat := if e ≥ 0xFFFF then 1 else e + 1

/-- Send a flood body on every UP link but the one it came by, unless it has been seen (R342); 6 for this module's own. -/
def flood (s : State) (type : Nat) (body : List Nat) (from_ : Nat) : State :=
  if (type, body) ∈ s.fab.seen then s
  else
    let s := updFab s fun f => { f with seen := f.seen ++ [(type, body)] }
    each ((List.range 6).filter (fun l => l != from_ && linkUp s l)) s fun t l => sendPacket t l (ctlPacket t type (peerOf t l) body)

def floodEpoch (s : State) (b : EpochBody) (from_ : Nat) : State := flood s 8 [b.addr, b.epoch, b.st, b.orig] from_

/-- An EPOCH record (Table 12-7). -/
def epochRecord (s : State) (a e st reason by_ : Nat) : State :=
  report s 0x19 a [(2, a, false), (2, e, false), (1, st, false), (1, reason, false), (2, by_, false)]

/-- A session split over members is lost by position: its open items end FAILED_PEER and it is released (R174). -/
def losePeerSession (s : State) (i : Nat) : State := freeSession (endItems s (fun x => x.sess == some i) 0x21 0) i

/-- A training job whose gradient collective failed discards the gradients of its cycle (R242, Table 12-6). -/
def discardCycle (s : State) (slot : Nat) : State :=
  updPann s fun p => { p with jobs := p.jobs.map (fun e =>
    if e.2.slot = slot then (e.1, { e.2 with counted := 0, positions := 0, elems := e.2.elems.map (fun x => { x with grad := 0 }) }) else e) }

/-- The items of a segment that has lost a member end FAILED_PEER (Table 12-6). -/
def losePeerSegment (s : State) (g : Segment) : State :=
  let s := dropSegment s g
  let slots := (s.serve.items.filter (fun i => i.opcode == 0x13 && g.task.any (fun k => k == (i.ctx, i.idx)))).filterMap (·.slot)
  let ts := ((s.core.queues.map (fun e => (e.2.filter (fun r => r.q.segStart == g.start && r.q.members == g.members)).map (fun r => (r.q.task, r.q.card.cardId)))).flatten).eraseDups
  let s := each ts s fun t e => endTask t e.1 e.2 0x21 0
  each slots (endItems s (fun i => g.task.any (fun k => k == (i.ctx, i.idx))) 0x21 0) discardCycle

/-- What the loss of a module does here (Table 12-6): collectives and position-split sessions with it end, head-split
sessions go on with the survivors, to which the lost member's heads move at the next step; a delivery that this makes late carries the
cause PEER_LOST (R174). -/
def peerDead (s : State) (m : Nat) : State :=
  let s := each (s.fab.segments.filter (fun g => decide (m ∈ g.members))) s losePeerSegment
  let hit := s.lard.roots.filter (fun e => decide (m ∈ e.2.members))
  let s := each (hit.filter (fun e => e.2.split == 1)) s fun t e => losePeerSession t e.1
  let heads := hit.filter (fun e => e.2.split == 2)
  let s := updLard s fun l => { l with roots := l.roots.map (fun e => if e.2.split = 2 then (e.1, { e.2 with members := e.2.members.filter (· != m) }) else e) }
  if heads = [] then s else updTt s fun t => { t with run :=
    if t.run.running then { t.run with causes := t.run.causes ||| 32 } else { t.run with carried := t.run.carried ||| 32 } }

/-- LOST links whose liveness procedure has ended are DOWN (Table 12-1). -/
def lostDown (s : State) (p : Nat → Bool) : State :=
  each ((List.range 6).filter (fun l => rd s .SPOKE_LINK_STATE_STATE l == 6 && p l)) s fun t l =>
    setLinkState (setLink (setLanes t l []) l { emptyLink with badLanes := (linkOf t l).badLanes }) l 0 0

/-- LOST links to a module whose liveness procedure has ended are DOWN. -/
def linksDown (s : State) (m : Nat) : State := lostDown s fun l => peerOf s l == m

/-- The module finds itself declared dead (R358); the liveness procedure of its own LOST links has ended with that. -/
def selfDead (s : State) : State :=
  let n := s.serve.items.length
  let s := each s.fab.segments s losePeerSegment
  let s := each (s.lard.roots.filter (fun e => !e.2.members.isEmpty)) s fun t e => losePeerSession t e.1
  let ended := n - s.serve.items.length
  let s := { s with regs := s.regs.filter (fun e => e.1 % 1024 != Fld.EPOCH_ENTRY_STATE.ctorIdx) }
  let s := wr (wr s .SPOKE_FAB_STATUS_STATE 0 5) .SPOKE_FAB_STATUS_SETTLED 0 0
  let s := updFab s fun f => { f with allLostAt := none, grantAt := none }
  lostDown (report s 0x1B 0 [(2, ownAddr s, false), (2, ownEpoch s, false), (4, ended, false)]) fun _ => true

/-- A module is declared DEAD by this one (R357). -/
def declareDead (s : State) (m : Nat) : State :=
  let e := nextEpoch (entryEpoch s m)
  let s := floodEpoch (epochRecord (setEntry s m e 2) m e 2 1 (ownAddr s)) ⟨m, e, 2, ownAddr s⟩ 6
  let s := updFab s fun f => { f with reports := f.reports.filter (fun r => r.2 != m) }
  linksDown (peerDead s m) m

/-! Addresses (R18, R347, R348) -/

def coordX (a : Nat) : Nat := bitsOf a 11 8
def coordY (a : Nat) : Nat := bitsOf a 7 4
def coordZ (a : Nat) : Nat := bitsOf a 3 0
def dimSize (s : State) (d : Nat) : Nat :=
  (if d = 0 then rd s .SPOKE_FAB_CFG_SIZE_X else if d = 1 then rd s .SPOKE_FAB_CFG_SIZE_Y else rd s .SPOKE_FAB_CFG_SIZE_Z) + 1

/-- One step from a coordinate in a dimension, where there is a module (R347). -/
def stepCoord (s : State) (d c : Nat) (up : Bool) : Option Nat :=
  let n := dimSize s d
  if n = 1 then none
  else if up then (if c + 1 < n then some (c + 1) else if bitAt (rd s .SPOKE_FAB_CFG_WRAP) d then some 0 else none)
  else if 0 < c then some (c - 1) else if bitAt (rd s .SPOKE_FAB_CFG_WRAP) d then some (n - 1) else none

/-- The address one step from a along a link's direction: 0 X+, 1 X−, 2 Y+, 3 Y−, 4 Z+, 5 Z−. -/
def neighbour (s : State) (a l : Nat) : Option Nat :=
  let up := l % 2 == 0
  match l / 2 with
  | 0 => (stepCoord s 0 (coordX a) up).map (fun x => x * 256 + a % 256)
  | 1 => (stepCoord s 1 (coordY a) up).map (fun y => coordX a * 256 + y * 16 + coordZ a)
  | _ => (stepCoord s 2 (coordZ a) up).map (fun z => a / 16 * 16 + z)

/-- The opposite direction of a link. -/
def opposite (l : Nat) : Nat := l / 2 * 2 + (1 - l % 2)

def inFabric (s : State) (a : Nat) : Bool :=
  decide (coordX a < dimSize s 0 ∧ coordY a < dimSize s 1 ∧ coordZ a < dimSize s 2)

/-- The neighbours of a module that are LIVE. -/
def liveNeighbours (s : State) (m : Nat) : List Nat :=
  ((List.range 6).filterMap (fun l => neighbour s m l)).eraseDups.filter (fun a => entryState s a == 1)

/-- Whether a HELLO shows a LIVE neighbour: it has an address and an epoch, and the epoch table does not say that it is
DEAD or has LEFT at that epoch or later. -/
def helloLive (s : State) (b : HelloBody) : Bool :=
  b.assigned && b.epoch != 0 && !((entryState s b.addr == 2 || entryState s b.addr == 3) && !serialAhead b.epoch (entryEpoch s b.addr))

/-- The address that the neighbour on a link implies for this module (R348). -/
def implied (s : State) (l : Nat) (b : HelloBody) : Option Nat := neighbour s b.addr (opposite l)

/-- Links whose neighbour is LIVE, with what it said. -/
def liveLinks (s : State) : List (Nat × HelloBody) :=
  (List.range 6).filterMap (fun l => match (linkOf s l).peer with
    | some b => if linkUp s l && helloLive s b then some (l, b) else none
    | none => none)

/-- Send JOIN on the lowest link whose neighbour is LIVE (R359). -/
def sendJoin (s : State) : State :=
  match liveLinks s with
  | (l, b) :: _ => sendPacket (updFab s fun f => { f with joinRetry := none }) l (ctlPacket s 7 b.addr [ownAddr s, 1, 0, 0])
  | [] => s

/-- The module has an address and no epoch in the fabric: it discovers and asks to join. -/
def wantsJoin (s : State) : Bool := rdb s .SPOKE_FAB_ADDR_ASSIGNED && decide (rd s .SPOKE_FAB_STATUS_STATE ∈ [0, 1, 5])

/-- The fabric is formed by this module alone, with epoch 1 (R348). -/
def rootFabric (s : State) : State :=
  let a := ownAddr s
  let s := wr (wr (wr s .SPOKE_FAB_ADDR_ASSIGNED 0 1) .SPOKE_FAB_ADDR_EPOCH 0 1) .SPOKE_FAB_STATUS_STATE 0 2
  let s := updFab s fun f => { f with grantAt := some s.now }
  floodEpoch (epochRecord (setEntry s a 1 1) a 1 1 2 a) ⟨a, 1, 1, a⟩ 6

/-- HELLO (R348): a link with a wrong direction, size or address is MISCABLED; a LIVE neighbour gives the address. -/
def hello (s : State) (l : Nat) (b : HelloBody) : State :=
  let s := setLink s l { linkOf s l with peer := some b }
  let s := wr s .SPOKE_LINK_STATE_PEER l (b.addr % 4096)
  let same := b.sizeX == rd s .SPOKE_FAB_CFG_SIZE_X && b.sizeY == rd s .SPOKE_FAB_CFG_SIZE_Y && b.sizeZ == rd s .SPOKE_FAB_CFG_SIZE_Z
    && b.wrap == rd s .SPOKE_FAB_CFG_WRAP && b.link == opposite l
  if !same then setLinkState s l 5 5
  else if helloLive s b = false then s
  else
    match implied s l b with
    | none => setLinkState s l 5 5
    | some a =>
      if rdb s .SPOKE_FAB_ADDR_ASSIGNED ∧ a ≠ ownAddr s ∨ s.fab.addrWritten ∧ a ≠ ownAddr s then setLinkState s l 5 5
      else
        let s := if entryState s b.addr = 0 ∨ serialAhead b.epoch (entryEpoch s b.addr) then setEntry s b.addr b.epoch 1 else s
        let s := wr (wr s .SPOKE_FAB_ADDR_ADDR 0 a) .SPOKE_FAB_ADDR_ASSIGNED 0 1
        if wantsJoin s then sendJoin (if rd s .SPOKE_FAB_STATUS_STATE = 0 then wr s .SPOKE_FAB_STATUS_STATE 0 1 else s) else s

/-- A packet that is kept for retransmission has arrived in order on a link: it is acknowledged (R343). -/
def takeSeq (s : State) (l : Nat) : State :=
  let x := linkOf s l
  let s := setLink s l { x with rxSeq := (x.rxSeq + 1) % 65536 }
  sendPacket s l { ctlPacket s 3 (peerOf s l) [] with destAddr := x.rxSeq }

/-- HELLO. -/
def execHello (t l : Nat) (b : HelloBody) (s : State) : Host.Outcome State Fault Refusal :=
  let u := tick s t
  settle s (if l < 6 ∧ (linkUp u l ∨ rd u .SPOKE_LINK_STATE_STATE l = 1) then hello (takeSeq u l) l b else u)

/-- SPOKE_FAB_ADDR_WRITE (R348). -/
def execSpokeFabAddrWrite (src : Src) (t addr : Nat) (s : State) : Host.Outcome State Fault Refusal :=
  let u := tick s t
  let a := addr % 4096
  settle s (if isMgmt s src = false then s
    else if rdb u .SPOKE_FAB_ADDR_ASSIGNED ∨ inFabric u a = false then u
    else
      let u := updFab (wr u .SPOKE_FAB_ADDR_ADDR 0 a) fun f => { f with addrWritten := true }
      match liveLinks u with
      | [] => rootFabric u
      | ls =>
        let bad := ls.filter (fun e => implied u e.1 e.2 != some a)
        let u := each bad u fun x e => setLinkState x e.1 5 5
        if bad.length = ls.length then u else sendJoin (wr (wr u .SPOKE_FAB_ADDR_ASSIGNED 0 1) .SPOKE_FAB_STATUS_STATE 0 1))

/-! Joining -/

/-- Whether Cadence may be stepped: no accepted item and no planned step (R352). -/
def steppable (s : State) : Bool := s.serve.items.isEmpty && s.tt.plan.isEmpty && !s.tt.run.running

/-- The last offset, as a signed number of ns. -/
def cadOffset (s : State) : Int := let v := rd s .SPOKE_CAD_OFFSET; if v < 2 ^ 31 then v else (v : Int) - 2 ^ 32

/-- A JOIN request at a neighbour (R359). -/
def joinRequest (s : State) (l a : Nat) : State :=
  let reply := fun (t : State) (kind e why : Nat) => sendPacket t l (ctlPacket t 7 a [a, kind, e, why])
  if entryState s a = 1 then reply s 3 0 1
  else
    let e := nextEpoch (entryEpoch s a)
    let s := epochRecord (setEntry s a e 1) a e 1 2 (ownAddr s)
    reply (floodEpoch s ⟨a, e, 1, ownAddr s⟩ 6) 2 e 0

/-- JOIN (R359, R352): a request is granted or refused; a grant makes the joiner LIVE unless its Cadence is off and may not
be stepped; a refusal is retried after 10 ms. -/
def execJoin (t l : Nat) (b : JoinBody) (s : State) : Host.Outcome State Fault Refusal :=
  let u := tick s t
  settle s (if ¬ (l < 6 ∧ linkUp u l) then u
    else
      let u := takeSeq u l
      let a := b.addr % 4096
      let peer := peerOf u l
      if b.kind = 1 then joinRequest u l a
      else if a ≠ ownAddr u ∨ wantsJoin u = false then u
      else if b.kind = 2 then
        if (cadOffset u).natAbs ≤ 1000 ∨ steppable u then
          let u := wr (wr (setEntry u a b.epoch 1) .SPOKE_FAB_ADDR_EPOCH 0 b.epoch) .SPOKE_FAB_STATUS_STATE 0 2
          let u := updFab (wr u .SPOKE_FAB_STATUS_SETTLED 0 0) fun f => { f with grantAt := some u.now, joinRetry := none }
          epochRecord u a b.epoch 1 2 peer
        else epochRecord u a b.epoch (entryState u a) 4 peer
      else if b.kind = 3 then
        let u := epochRecord u a (ownEpoch u) (entryState u a) 4 peer
        if b.reason = 1 then updFab u fun f => { f with joinRetry := some (u.now + 10000000) } else u
      else u)

/-- JOIN_RETRY (R359). -/
def execJoinRetry (t : Nat) (s : State) : Host.Outcome State Fault Refusal :=
  let u := tick s t
  settle s (match u.fab.joinRetry with
    | some r => if r ≤ u.now ∧ wantsJoin u then sendJoin u else u
    | none => u)

/-- SETTLED_TIMER (R359). -/
def execSettledTimer (t : Nat) (s : State) : Host.Outcome State Fault Refusal :=
  let u := tick s t
  settle s (match u.fab.grantAt with
    | some g => if g + 1000000 ≤ u.now then updFab (wr u .SPOKE_FAB_STATUS_SETTLED 0 1) fun f => { f with grantAt := none } else u
    | none => u)

/-! Liveness -/

/-- Whether this module declares a lost one: it is the lowest of its LIVE neighbours (R357). -/
def declarer (s : State) (m : Nat) : Bool := (liveNeighbours s m).min? == some (ownAddr s)

/-- Declare a module once every LIVE neighbour has reported it lost, if this module is the declarer and has lost it. -/
def tryDeclare (s : State) (m : Nat) : State :=
  let mine := (List.range 6).any (fun l => rd s .SPOKE_LINK_STATE_STATE l == 6 && peerOf s l == m)
  if mine && declarer s m && entryState s m == 1 && (liveNeighbours s m).all (fun a => decide ((a, m) ∈ s.fab.reports)) then declareDead s m else s

/-- Links that could carry traffic and are all LOST. -/
def allLost (s : State) : Bool :=
  let used := (List.range 6).filter (fun l => let v := rd s .SPOKE_LINK_STATE_STATE l; v == 1 || v == 2 || v == 3 || v == 6)
  !used.isEmpty && used.all (fun l => rd s .SPOKE_LINK_STATE_STATE l == 6)

/-- LINK_LOST (R337, R357): the loss of a neighbour that HELLO has named is flooded; with every link lost, the 200 µs of R358
start. -/
def execLinkLost (t l : Nat) (s : State) : Host.Outcome State Fault Refusal :=
  let u := tick s t
  let st := rd u .SPOKE_LINK_STATE_STATE l
  settle s (if 6 ≤ l ∨ st = 0 ∨ st = 4 ∨ st = 6 then u
    else
      let m := peerOf u l
      let u := setLinkState (setLink u l { linkOf u l with lostAt := some u.now }) l 6 6
      let u := updFab u fun f => { f with allLostAt := if allLost u then some u.now else f.allLostAt }
      if (linkOf u l).peer = none then u
      else
        let u := updFab u fun f => { f with reports := if (ownAddr u, m) ∈ f.reports then f.reports else f.reports ++ [(ownAddr u, m)] }
        tryDeclare (flood u 0xA [ownAddr u, m, l] 6) m)

/-- LINKLOST (R357). -/
def execLinklost (t l reporter lost rlink : Nat) (s : State) : Host.Outcome State Fault Refusal :=
  let u := tick s t
  settle s (if ¬ (l < 6 ∧ linkUp u l) then u
    else
      let u := flood u 0xA [reporter, lost, rlink] l
      let u := updFab u fun f => { f with reports := if (reporter, lost) ∈ f.reports then f.reports else f.reports ++ [(reporter, lost)] }
      tryDeclare u lost)

/-- DECLARE_TIMEOUT (R357): 100 µs after the link was LOST; `heard` is whether some neighbour of the module still hears it, so
that only the link is retired. A neighbour that is not LIVE needs no declaration: the link is DOWN. -/
def execDeclareTimeout (t l : Nat) (heard : Bool) (s : State) : Host.Outcome State Fault Refusal :=
  let u := tick s t
  settle s (match (linkOf u l).lostAt with
    | none => u
    | some x =>
      if u.now < x + 100000 ∨ rd u .SPOKE_LINK_STATE_STATE l ≠ 6 then u
      else if heard then retireLink u l []
      else if entryState u (peerOf u l) ≠ 1 then linksDown u (peerOf u l)
      else if declarer u (peerOf u l) then declareDead u (peerOf u l)
      else u)

/-- SELF_DEAD_TIMEOUT (R358). -/
def execSelfDeadTimeout (t : Nat) (s : State) : Host.Outcome State Fault Refusal :=
  let u := tick s t
  settle s (match u.fab.allLostAt with
    | some x => if x + 200000 ≤ u.now ∧ allLost u ∧ rd u .SPOKE_FAB_STATUS_STATE ∈ [2, 3, 4] then selfDead u else u
    | none => u)

/-- EPOCH (R355, R358): a body ahead of its entry, or DEAD over LIVE at the same epoch, is taken; the body is flooded on. A
module that so finds itself dead asks to join again over a link that is UP. -/
def execEpoch (t l : Nat) (b : EpochBody) (s : State) : Host.Outcome State Fault Refusal :=
  let u := tick s t
  settle s (if ¬ (l < 6 ∧ linkUp u l) ∨ b.st = 0 ∨ 3 < b.st then u
    else
      let a := b.addr % 4096
      let u := floodEpoch u b l
      let ahead := serialAhead b.epoch (entryEpoch u a) || (b.epoch == entryEpoch u a && b.st == 2 && entryState u a == 1)
      if !ahead then u
      else
        let u := epochRecord (setEntry u a b.epoch b.st) a b.epoch b.st (if b.st = 1 then 2 else if b.st = 2 then 1 else 3) b.orig
        if a = ownAddr u ∧ rdb u .SPOKE_FAB_ADDR_ASSIGNED ∧ b.st ≠ 1 then sendJoin (selfDead u)
        else if b.st = 2 then linksDown (peerDead u a) a
        else u)

/-! Draining and leaving (R361) -/

/-- A DRAIN record. -/
def drainRecord (s : State) (phase moved : Nat) : State := report s 0x1C 0 [(1, phase, false), (2, s.fab.successor, false), (4, moved, false)]

def fabRejected (s : State) : State := wr s .SPOKE_FAB_STATUS_CMD_REJECTED 0 1

/-- FAB_DRAIN: OP DRAIN of SPOKE_FAB_CMD (R361, Table 12-9). -/
def execFabDrain (src : Src) (t successor : Nat) (s : State) : Host.Outcome State Fault Refusal :=
  let u := tick s t
  let m := successor % 4096
  settle s (if isMgmt s src = false then s
    else if rd u .SPOKE_FAB_STATUS_STATE ≠ 2 ∨ m = ownAddr u ∨ entryState u m ≠ 1 then fabRejected u
    else drainRecord (updServe (updFab (wr u .SPOKE_FAB_STATUS_STATE 0 3) fun f => { f with successor := m }) fun v => { v with draining := true }) 1 0)

/-- DRAIN_COMPLETE: `moved` split members have moved to the successor. -/
def execDrainComplete (t moved : Nat) (s : State) : Host.Outcome State Fault Refusal :=
  let u := tick s t
  settle s (if rd u .SPOKE_FAB_STATUS_STATE = 3 ∧ u.lard.roots.all (fun e => e.2.members.isEmpty) ∧ u.fab.segments = [] then
      drainRecord (wr u .SPOKE_FAB_STATUS_STATE 0 4) 2 moved
    else u)

/-- FAB_CANCEL_DRAIN. -/
def execFabCancelDrain (src : Src) (t : Nat) (s : State) : Host.Outcome State Fault Refusal :=
  let u := tick s t
  settle s (if isMgmt s src = false then s
    else if rd u .SPOKE_FAB_STATUS_STATE = 3 ∨ rd u .SPOKE_FAB_STATUS_STATE = 4 then
      drainRecord (updServe (wr u .SPOKE_FAB_STATUS_STATE 0 2) fun v => { v with draining := false }) 4 0
    else fabRejected u)

/-- The module's own entry is flooded as LEFT (R361, R362). -/
def leaveFabric (s : State) : State :=
  let a := ownAddr s
  let e := nextEpoch (entryEpoch s a)
  let s := floodEpoch (epochRecord (setEntry s a e 3) a e 3 3 a) ⟨a, e, 3, a⟩ 6
  let s := updServe (wr (wr s .SPOKE_FAB_STATUS_STATE 0 0) .SPOKE_FAB_STATUS_SETTLED 0 0) fun v => { v with draining := false }
  drainRecord s 3 0

/-- FAB_LEAVE. -/
def execFabLeave (src : Src) (t : Nat) (s : State) : Host.Outcome State Fault Refusal :=
  let u := tick s t
  settle s (if isMgmt s src = false then s else if rd u .SPOKE_FAB_STATUS_STATE = 4 then leaveFabric u else fabRejected u)

/-! Cadence (R350 to R352) -/

/-- A CADENCE record (Table 12-7). -/
def cadenceRecord (s : State) (event : Nat) : State :=
  let up := rd s .SPOKE_CAD_UPSTREAM_LINK
  report s 0x1A 0 [(1, event, false), (2, if up < 6 then peerOf s up else 0xFFFF, false), (4, rd s .SPOKE_CAD_OFFSET, false), (2, rd s .SPOKE_CAD_UPSTREAM_GM, false)]

/-- Links that could be the upstream: UP, with a SYNC in the last 100 µs from a grandmaster other than this module. -/
def upstreamLinks (s : State) : List Nat :=
  (List.range 6).filter (fun l =>
    let x := linkOf s l
    linkUp s l && (match x.syncAt with | some a => decide (s.now < a + 100000) | none => false)
      && !(rdb s .SPOKE_FAB_ADDR_ASSIGNED && x.syncGm == ownAddr s))

/-- The upstream: the fewest hops, then the lowest link (R350). -/
def bestUpstream (s : State) : Option Nat :=
  (upstreamLinks s).foldl (fun o l => match o with
    | some b => if (linkOf s l).syncHops < (linkOf s b).syncHops then some l else some b
    | none => some l) none

/-- Take an upstream, or none: then the module is in HOLDOVER if it followed one (R352). -/
def chooseUpstream (s : State) : State :=
  let old := rd s .SPOKE_CAD_UPSTREAM_LINK
  match bestUpstream s with
  | some l =>
    let x := linkOf s l
    let s := wr (wr (wr s .SPOKE_CAD_UPSTREAM_LINK 0 l) .SPOKE_CAD_UPSTREAM_HOPS 0 (min 63 (x.syncHops + 1))) .SPOKE_CAD_UPSTREAM_GM 0 x.syncGm
    let far := decide (24 < x.syncHops + 1)
    let new := far && !rdb s .SPOKE_FAB_STATUS_HOPS_EXCEEDED
    let s := wr s .SPOKE_FAB_STATUS_HOPS_EXCEEDED 0 (b2n far)
    let s := if new then cadenceRecord s 6 else s
    if old = l then s else cadenceRecord (updFab s fun f => { f with cadGood := 0, holdSince := none }) 5
  | none =>
    if old = 7 then s
    else
      let s := updFab (wr (wr s .SPOKE_CAD_UPSTREAM_LINK 0 7) .SPOKE_FAB_STATUS_CAD_STATE 0 3) fun f => { f with holdSince := some s.now, cadGood := 0 }
      cadenceRecord s 2

/-- An offset from the upstream: the servo's state, and a step of the counter where it is allowed (R350, R352). The counter
never runs backward. -/
def takeOffset (s : State) (off : Int) : State :=
  let st := rd s .SPOKE_FAB_STATUS_CAD_STATE
  let s := wr s .SPOKE_CAD_OFFSET 0 (off % 4294967296).toNat
  if off.natAbs < 4 then
    let n := s.fab.cadGood + 1
    let s := updFab s fun f => { f with cadGood := min n 10 }
    if 10 ≤ n then (if st = 2 then s else cadenceRecord (wr s .SPOKE_FAB_STATUS_CAD_STATE 0 2) 1)
    else if st = 2 then s else wr s .SPOKE_FAB_STATUS_CAD_STATE 0 1
  else
    let joining := !decide (rd s .SPOKE_FAB_STATUS_STATE ∈ [2, 3, 4]) || !rdb s .SPOKE_FAB_STATUS_SETTLED || st == 4
    let s := updFab s fun f => { f with cadGood := 0 }
    let s := if st = 2 then s else wr s .SPOKE_FAB_STATUS_CAD_STATE 0 1
    if 1000 < off.natAbs ∧ joining ∧ steppable s then cadenceRecord { s with now := s.now + off.toNat } 4 else s

/-- SPOKE_SYNC (R350): the packet's DEST_ADDR is the time its first bit left the sender; FLOW holds the hops, LOCKED and the
grandmaster. -/
def execSpokeSync (t l : Nat) (p : Packet) (s : State) : Host.Outcome State Fault Refusal :=
  let u := tick s t
  settle s (if ¬ (l < 6 ∧ linkUp u l) then u
    else
      let u := setLink u l { linkOf u l with syncHops := p.flow % 64, syncGm := p.flow / 256 % 4096, syncAt := some u.now }
      let u := chooseUpstream u
      if rd u .SPOKE_CAD_UPSTREAM_LINK = l then
        takeOffset u ((4 * (p.destAddr : Int) + rd u .SPOKE_LINK_DELAY l - 4 * u.now) / 4)
      else u)

/-- SYNC_SEND (R350), in the control slot of every slot s with s mod 250 = 0. -/
def execSyncSend (t : Nat) (s : State) : Host.Outcome State Fault Refusal :=
  let u := tick s t
  settle s (if u.now / slotNs % 250 = 0 then
      let up := rd u .SPOKE_CAD_UPSTREAM_LINK
      let hops := if up = 7 then 0 else rd u .SPOKE_CAD_UPSTREAM_HOPS
      let gm := if up = 7 then ownAddr u else rd u .SPOKE_CAD_UPSTREAM_GM
      let flow := hops + 64 * b2n (rd u .SPOKE_FAB_STATUS_CAD_STATE == 2) + 256 * gm
      each (List.range 6) u fun x l => sendPacket x l { ctlPacket x 5 (peerOf x l) [] with destAddr := x.now, flow := flow }
    else u)

/-- UPSTREAM_TIMEOUT (R352): no SYNC from the upstream for 100 µs. -/
def execUpstreamTimeout (t : Nat) (s : State) : Host.Outcome State Fault Refusal :=
  let u := tick s t
  let l := rd u .SPOKE_CAD_UPSTREAM_LINK
  settle s (if l < 6 ∧ (linkUp u l = false ∨ (linkOf u l).syncAt.all (fun a => decide (a + 100000 ≤ u.now)) = true) then chooseUpstream u else u)

/-- HOLDOVER_TIMEOUT (R352): 20 ms in HOLDOVER. -/
def execHoldoverTimeout (t : Nat) (s : State) : Host.Outcome State Fault Refusal :=
  let u := tick s t
  settle s (match u.fab.holdSince with
    | some h =>
      if h + 20000000 ≤ u.now ∧ rd u .SPOKE_FAB_STATUS_CAD_STATE = 3 then cadenceRecord (wr u .SPOKE_FAB_STATUS_CAD_STATE 0 4) 3 else u
    | none => u)

end Sys2Proof.Machine
end

