-- ==== Sys2Proof/Machine/Security.lean ====
section
/-! DEFINITION. The security core: identity and signatures (R386 to R388), attestation reports (R389, R390) and
adapter keys (R391, R392). What it derives or signs is Config.secure, whose first argument says which value:
2 the identity key of its seeds, 3 the alias key of its seeds, 4 an encapsulation key, 5 a decapsulated secret, 6 an alias signature, 7 the identity key's
signature of an alias certificate, 8 Zhoyth's signature of the identity certificate, 10 the serial, 11 the root key's digest,
12 S. -/

namespace Sys2Proof.Machine

/-! Identity -/

/-- The device secret S (R386). -/
def deviceSecret : List Nat := leBytes 32 (Config.secure 12 [])

/-- The identity public key, of the seeds that S gives, and DEVICE_ID, its SHA-256 (R386). -/
def identityKey : List Nat := leBytes 48 (Config.secure 2 (hkdf [] deviceSecret [0x49, 0x44] 72))
def deviceId : List Nat := sha256 identityKey

/-- The image that runs. -/
def runningImage (s : State) : FlashImage := s.boot.shadow.getD defaultImage

/-- M: SHA-256 of the digests and versions of the running images (R386). DEDUCED (log 84): the versions are 4 bytes each, as in the
report. -/
def measurement (s : State) : List Nat :=
  let i := runningImage s
  sha256 (leBytes 32 i.fwDigest ++ leBytes 32 i.bpDigest ++ leBytes 4 i.fwSvn ++ leBytes 4 i.bpSvn)

/-- The alias public key, of the seeds that S and M give. -/
def aliasKey (s : State) : List Nat := leBytes 32 (Config.secure 3 (hkdf (measurement s) deviceSecret [0x41, 0x4C] 48))

/-- The 128 bytes of a certificate that are signed (Table 13-5). -/
def certFields (kind alg serial : Nat) (key measured issuer : List Nat) : List Nat :=
  leBytes 4 0x5452435A ++ [kind, alg, 0, 0] ++ leBytes 8 serial ++ key ++ List.replicate (48 - key.length) 0 ++ measured ++ issuer

/-- The alias certificate (R387). -/
def aliasCert (s : State) : List Nat :=
  let f := certFields 2 2 (rd s .BOOT_COUNT) (aliasKey s) (measurement s) deviceId
  f ++ leBytes 16224 (Config.secure 7 f)

/-- The identity certificate in flash (R387). -/
def identityCert : List Nat :=
  let f := certFields 1 1 (Config.secure 10 []) identityKey (List.replicate 32 0) (leBytes 32 (Config.secure 11 []))
  f ++ leBytes 16224 (Config.secure 8 f)

/-- ALIAS_CERT_SIGNED: the identity key has signed the alias certificate; it and S are erased (R386). -/
def execAliasCertSigned (t : Nat) (s : State) : Host.Outcome State Fault Refusal :=
  let u := tick s t
  settle s (if rd u .BOOT_STATUS_PHASE = 8 then updBoot u fun b => { b with aliasSigned := true } else u)

/-! Keys -/

/-- CTX_STATE.KEYS and PENDING mirror what the Porch holds. -/
def mirrorKeys (s : State) (c : Nat) : State :=
  let bits := fun (has : Nat → Bool) => ((List.range 4).map (fun i => b2n (has i) * 2 ^ i)).sum
  let s := wr s .CTX_STATE_KEYS c (bits fun i => (storeFind s.ctxs.keys (c * 4 + i)).isSome)
  wr s .CTX_STATE_PENDING c (bits fun i => (storeFind s.ctxs.pendingKeys (c * 4 + i)).isSome)

/-- The encapsulation key of a decapsulation key. -/
def encapKey (dk : Nat) : List Nat := leBytes 1568 (Config.secure 4 [dk])

/-- The adapter key that a decapsulation key and a ciphertext give a context at an index (R391). -/
def adapterKey (dk ctx idx : Nat) (ct : List Nat) : Nat :=
  leNum (hkdf (sha256 (encapKey dk)) (leBytes 32 (Config.secure 5 (dk :: ct))) [0x5A, 0x4E, ctx, idx] 32)

/-! Reports -/

/-- Bytes a report takes, with the certificates where CHAIN asks for them (Table 13-6). -/
def reportBytes (r : SecRec) : Nat := if bitAt r.flags 0 then 51616 else 18912

/-- Checks 2, 3, 4 and 10 of Table 7-7 for a report, then its room (R392, R395, R459). -/
def reportChecks (s : State) (h : ReqHead) (r : SecRec) : Option (Nat × Nat) :=
  firstFail
    [ (r.resv && decide (r.flags ≤ 1), 0x30, 0x41),
      (h.handle == 0 && isHostAddr r.addr 64 && r.bytes != 0 && decide (r.keyIndex ≤ 3), 0x30, 0x42),
      (!rdb s .DBG_STATUS_TEST_MODE, 0x30, 0x43),
      (!rdb s .SERVE_CTRL_BACKLOG h.ctx, 0x10, 0x05),
      (decide (reportBytes r ≤ r.bytes), 0x11, 0x06) ]

/-- The deadline of a report: 25 ms for it and for each report queued ahead of it, from the time at which the alias
certificate is signed at the latest (R390, Table 15-6). -/
def reportDeadline (s : State) : Nat :=
  let from_ := if s.boot.aliasSigned then promptDeadline s else max (promptDeadline s) (s.boot.coldAt + 1400000000)
  from_ + 25000000 * (s.ctxs.reports.length + 1)

/-- Queue a report for the security core. -/
def queueReport (s : State) (h : ReqHead) (r : SecRec) (opcode kind key : Nat) : State :=
  let s := accept s { newItem s h opcode with deadline := reportDeadline s }
  updCtxs s fun x => { x with reports := x.reports ++ [⟨h.ctx, h.idx, kind, r, key⟩] }

/-- ATTEST (R390). -/
def execAttest (h : ReqHead) (r : SecRec) (s : State) : Host.Outcome State Fault Refusal :=
  settle s
    (match reportChecks s h r with
    | some (c, d) => answer s h c d
    | none => queueReport s h r 0x20 1 0)

/-- The checks of a KEY_BEGIN: those of a report, with FLAGS reserved (Table 13-6). -/
def beginChecks (s : State) (h : ReqHead) (r : SecRec) : Option (Nat × Nat) :=
  if r.flags = 0 then reportChecks s h r else some (0x30, 0x41)

/-- KEY_BEGIN (R391): a new key pair; its decapsulation key replaces what was pending at the index, and its EK goes
into the report. -/
def execKeyBegin (h : ReqHead) (r : SecRec) (s : State) : Host.Outcome State Fault Refusal :=
  settle s
    (match beginChecks s h r with
    | some (c, d) => answer s h c d
    | none =>
      let (dk, s) := takeFree s 256
      let s := updCtxs s fun x => { x with pendingKeys := storeInsert x.pendingKeys (h.ctx * 4 + r.keyIndex) ⟨s.now, dk⟩ }
      queueReport (mirrorKeys s h.ctx) h r 0x21 2 dk)

/-- MODELS_DIGEST: SHA-256 over the SHA-256 of the bundle images of models 1 to 15, zeros for an empty one (Table 13-7). -/
def modelsDigest (s : State) : List Nat :=
  sha256 ((List.range 15).map (fun i => leBytes 32 (((modelAt s (i + 1)).map (·.digest)).getD 0))).flatten

/-- Bytes 0x000 to 0x71F of a report, which its signature covers (Table 13-7). -/
def reportFields (s : State) (j : ReportJob) : List Nat :=
  let i := runningImage s
  let begin_ := decide (j.kind = 2)
  let who := j.ctx + 64 * rd s .CTX_STATE_CLASS j.ctx + 128 * rd s .CTX_STATE_IDE_READY j.ctx
  let ek := if begin_ then encapKey j.key else List.replicate 1568 0
  leBytes 4 0x5450525A ++ leBytes 2 1 ++ [j.kind, who] ++ leBytes 8 s.now ++ leBytes 32 j.req.nonce ++ deviceId ++ measurement s
    ++ leBytes 32 i.fwDigest ++ leBytes 32 i.bpDigest ++ leBytes 4 i.fwSvn ++ leBytes 4 i.bpSvn ++ leBytes 4 (rd s .BOOT_COUNT)
    ++ [rd s .BOOT_STATUS_IMAGE, if begin_ then j.req.keyIndex else 0, 0, 0] ++ modelsDigest s
    ++ (if begin_ then sha256 ek else List.replicate 32 0) ++ ek

/-- A report with its signature by the alias key, and the certificates where CHAIN asks for them (R390). -/
def reportOf (s : State) (j : ReportJob) : List Nat :=
  let f := reportFields s j
  f ++ leBytes 17088 (Config.secure 6 (aliasKey s ++ f)) ++ (if bitAt j.req.flags 0 then identityCert ++ aliasCert s else [])

/-- ATTEST_REPORT_SIGNED: the security core, which signs one report at a time in order, has signed the oldest one; it is
written to the host and its item ends (R390). Reports wait for the alias certificate (Table 15-6). -/
def execAttestReportSigned (t : Nat) (s : State) : Host.Outcome State Fault Refusal :=
  let u := tick s t
  settle s
    (match u.ctxs.reports with
    | [] => u
    | j :: rest =>
      if u.boot.aliasSigned = false then u
      else
        let out := reportOf u j
        let u := updCtxs u fun x => { x with reports := rest }
        match itemAt u j.ctx j.idx with
        | none => u
        | some x =>
          if x.opcode ≠ 0x1F + j.kind then u
          else
            let u := hostOut u j.ctx j.req.addr out
            endDone u (j.ctx, j.idx) 0x07)

/-- Checks 2, 3, 4, 7 and 10 of Table 7-7 for a KEY_FINISH. -/
def finishChecks (s : State) (h : ReqHead) (r : SecRec) : Option (Nat × Nat) :=
  firstFail
    [ (r.resv && r.flags == 0, 0x30, 0x41),
      (h.handle == 0 && r.bytes == 1568 && decide (r.keyIndex ≤ 3), 0x30, 0x42),
      (!rdb s .DBG_STATUS_TEST_MODE, 0x30, 0x43),
      ((storeFind s.ctxs.pendingKeys (h.ctx * 4 + r.keyIndex)).isSome, 0x30, 0x4D),
      (!rdb s .SERVE_CTRL_BACKLOG h.ctx, 0x10, 0x05) ]

/-- KEY_FINISH (R391): the ciphertext is read and decapsulated, the decapsulation key is gone, and the adapter key
takes its index with its export counter at 1. A ciphertext that cannot be read ends the item (R400). -/
def execKeyFinish (h : ReqHead) (r : SecRec) (ct : Option (List Nat)) (s : State) : Host.Outcome State Fault Refusal :=
  let k := h.ctx * 4 + r.keyIndex
  settle s
    (match finishChecks s h r, storeFind s.ctxs.pendingKeys k with
    | some (c, d), _ => answer s h c d
    | none, none => s
    | none, some p =>
      match ct with
      | none => acceptDone s (newItem s h 0x22) 0x23 0x05
      | some l =>
        let s := updCtxs s fun x => { x with
          keys := storeInsert x.keys k ⟨adapterKey p.value h.ctx r.keyIndex l, 1⟩, pendingKeys := storeErase x.pendingKeys k }
        acceptDone (mirrorKeys s h.ctx) (newItem s h 0x22) 0x01 0x07)

/-- Checks of Table 7-7 for a KEY_ERASE. -/
def eraseChecks (s : State) (h : ReqHead) (keyIndex : Nat) (resv : Bool) : Option (Nat × Nat) :=
  firstFail [ (resv, 0x30, 0x41), (h.handle == 0 && decide (keyIndex ≤ 3), 0x30, 0x42),
    (!rdb s .SERVE_CTRL_BACKLOG h.ctx, 0x10, 0x05) ]

/-- KEY_ERASE (R391): DONE, or DONE_EMPTY where the index held no key. -/
def execKeyErase (h : ReqHead) (keyIndex : Nat) (resv : Bool) (s : State) : Host.Outcome State Fault Refusal :=
  let k := h.ctx * 4 + keyIndex
  settle s
    (match eraseChecks s h keyIndex resv with
    | some (c, d) => answer s h c d
    | none =>
      if (storeFind s.ctxs.keys k).isSome then
        acceptDone (mirrorKeys (updCtxs s fun x => { x with keys := storeErase x.keys k }) h.ctx) (newItem s h 0x23) 0x01 0x07
      else acceptDone s (newItem s h 0x23) 0x03 0x08)

/-- PENDING_KEY_EXPIRY: 60 s after its KEY_BEGIN a pending key is gone (R391). -/
def execPendingKeyExpiry (t ctx keyIndex : Nat) (s : State) : Host.Outcome State Fault Refusal :=
  let u := tick s t
  let k := ctx * 4 + keyIndex
  settle s
    (match storeFind u.ctxs.pendingKeys k with
    | none => u
    | some p =>
      if p.time + 60000000000 ≤ u.now then
        mirrorKeys (updCtxs u fun x => { x with pendingKeys := storeErase x.pendingKeys k }) ctx
      else u)

end Sys2Proof.Machine
end

