-- ==== Sys2Proof/Machine/ContextCmds.lean ====
section
/-! DEFINITION. Commands of the context family (R369 to R383, R393, R394, R398): grants, suspensions, teardowns and
their stages, ENABLE, and IDE failures. -/

namespace Sys2Proof.Machine

/-! CTX_CMD -/

/-- DONE and CMD_REJECTED tell of the last command: whether it took effect, and whether it was refused (R396). -/
def ctxOutcome (s : State) (took refused : Bool) : State :=
  wrb (wrb s .CTX_CMD_STATUS_DONE 0 took) .CTX_CMD_STATUS_CMD_REJECTED 0 refused

/-- A CTX_CMD is refused with a reason and changes nothing else (R369). -/
def ctxRejected (s : State) (reason : Nat) : State := wr (ctxOutcome s false true) .CTX_CMD_STATUS_REASON 0 reason

def ctxDone (s : State) : State := ctxOutcome (wr s .CTX_CMD_STATUS_BUSY 0 0) true false

/-- A CTX_CMD is in progress. -/
def ctxBusy (s : State) : State := ctxOutcome (wr s .CTX_CMD_STATUS_BUSY 0 1) false false

/-- Save slots that granted confidential contexts hold. -/
def saveSlots (s : State) : List Nat :=
  ((List.range 64).filter (fun c => rd s .CTX_STATE_STATE c != 0 && confidential s c)).map (fun c => rd s .CTX_STATE_SLOT c)

/-- The lowest free save slot from 1, if the module has one (R370, R383). -/
def freeSaveSlot (s : State) : Option Nat :=
  let used := saveSlots s
  if rd s .CTX_CONFIG_SWITCH_SLOTS ≤ used.length + 1 then none
  else ((List.range 16).map (· + 1)).find? (fun n => !decide (n ∈ used))

/-- Fields of the serving registers of a window (Table 7-14). -/
def servingFld (f : Fld) : Bool := (fieldRow f).block == .win && decide ((fieldRow f).off < 0x50)

/-- A granted context's window takes its reset values and its mailbox clears (R215, R405). -/
def resetWindow (s : State) (c : Nat) : State :=
  let mine := fun (e : Nat × Nat) =>
    match fldOf (e.1 % 1024) with
    | some f => (servingFld f || f == .MBX_CTRL_IN_FULL || f == .MBX_CTRL_OUT_BUSY || f == .MBX_CTRL_OVERRUN)
        && blockIdx f (e.1 / 1024) == c
    | none => false
  let s := { s with regs := s.regs.filter (fun e => !mine e) }
  let s := updServe s fun v => { v with queues := storeErase v.queues c }
  updCtxs s fun x => { x with mbox := storeKeep (fun k => k / 1024 != c) x.mbox }

/-- CTX_CMD GRANT (R369, R370, R431, R459). -/
def ctxGrant (s : State) (c : Nat) (cls : Bool) : State :=
  let slot := freeSaveSlot s
  if rd s .CTX_STATE_STATE c ≠ 0 ∨ rd s .BOOT_STATUS_PHASE ≠ 8 ∨ rdb s .DBG_STATUS_TEST_MODE = true then ctxRejected s 2
  else if cls ∧ slot = none then ctxRejected s 5
  else
    let s := resetWindow s c
    let s := wr (wr s .CTX_STATE_CLASS c (b2n cls)) .CTXWIN_INFO_CLASS c (b2n cls)
    let s := wr s .CTX_STATE_SLOT c (if cls then slot.getD 0 else 0)
    ctxDone (setCtxState s c 1)

/-- What a suspend leaves in a core's queue: the commands of the context's cards that have started on it complete, and those of a
locked segment that has begun, where pre-emption takes no effect (R60, R375); those of later cards are discarded. -/
def keepRunning (c now : Nat) (q : List RunCmd) : List RunCmd :=
  let runs := fun (x : RunCmd) => q.any (fun r => r.started && r.q.card.cardId == x.q.card.cardId && r.q.task == x.q.task)
  q.filter (fun x => x.q.ctx != c || runs x || (x.q.members != [] && decide (x.q.segStart ≤ now)))

/-- A context leaves the locked segments that have not begun; one that nobody else is in goes. -/
def leaveUnbegun (s : State) (c : Nat) : State :=
  updFab s fun f => { f with segments := (f.segments.map (fun g =>
    if g.start ≤ s.now then g else { g with parts := g.parts.filter (fun p => p.1 != c) })).filter (fun g => decide (g.start ≤ s.now) || !g.parts.isEmpty) }

/-- CTX_CMD SUSPEND (R375, R377): cards that run complete, later ones are discarded, the items end. -/
def ctxSuspend (s : State) (c : Nat) : State :=
  if c = 0 then ctxRejected s 3
  else if rd s .CTX_STATE_STATE c ≠ 1 then ctxRejected s 2
  else
    let s := updCore s fun x => { x with
      queues := (x.queues.map (fun e => (e.1, keepRunning c s.now e.2))).filter (fun e => !e.2.isEmpty) }
    let s := updCtxs (ctxBusy s) fun x => { x with suspending := x.suspending ++ [(c, s.now)] }
    dropWindows (endItems (leaveUnbegun s c) (fun i => i.ctx == c) 0x23 0x04) c

/-- CTX_CMD RESUME (R369). -/
def ctxResume (s : State) (c : Nat) : State :=
  if rd s .CTX_STATE_STATE c = 2 then ctxDone (setCtxState s c 1) else ctxRejected s 2

/-- CTX_CMD TEARDOWN (R378, R395). -/
def ctxTeardown (s : State) (c : Nat) : State :=
  if c = 0 then ctxRejected s 3
  else if rd s .CTX_STATE_STATE c = 1 ∨ rd s .CTX_STATE_STATE c = 2 then ctxDone (startTeardown s c 3)
  else ctxRejected s 2

/-- Execute a CTX_CMD by its OP. -/
def runCtxCmd (s : State) (op c : Nat) (cls : Bool) : State :=
  if op = 1 then ctxGrant s c cls
  else if op = 2 then ctxSuspend s c
  else if op = 3 then ctxResume s c
  else if op = 4 then ctxTeardown s c
  else ctxRejected s 4

/-- A write of CTX_CMD with GO: only the management context's counts (R396). While BUSY it is rejected, but for a
teardown of the context whose suspend is in progress (R379). In a low-power state it starts an exit and is executed
after it (R440). -/
def ctxCmd (s : State) (src : Src) (t op c : Nat) (cls : Bool) : State :=
  let u := tick s t
  let c := c % 64
  if isMgmt s src = false then s
  else if rdb u .CTX_CMD_STATUS_BUSY ∧ ¬ (op = 4 ∧ u.ctxs.suspending.any (fun e => e.1 == c) = true) then ctxRejected u 2
  else if 2 ≤ rd u .LP_STATUS_STATE then
    let u := startExit u 3
    updBoot (ctxBusy u) fun b => { b with heldCmd := some (op, c, cls) }
  else runCtxCmd u op c cls

def execCtxGrant (src : Src) (t c : Nat) (cls : Bool) (s : State) : Host.Outcome State Fault Refusal := settle s (ctxCmd s src t 1 c cls)
def execCtxSuspend (src : Src) (t c : Nat) (s : State) : Host.Outcome State Fault Refusal := settle s (ctxCmd s src t 2 c false)
def execCtxResume (src : Src) (t c : Nat) (s : State) : Host.Outcome State Fault Refusal := settle s (ctxCmd s src t 3 c false)
def execCtxTeardown (src : Src) (t c : Nat) (s : State) : Host.Outcome State Fault Refusal := settle s (ctxCmd s src t 4 c false)

/-- SUSPEND_DONE: every core has passed its card boundary, and no locked segment of the context is open (R60, R375). -/
def execSuspendDone (t c : Nat) (s : State) : Host.Outcome State Fault Refusal :=
  let u := tick s t
  settle s
    (match u.ctxs.suspending.find? (fun e => e.1 == c) with
    | none => u
    | some e =>
      if u.core.queues.any (fun q => q.2.any (fun r => r.q.ctx == c)) || lockedCtx u c then u
      else
        let u := updCtxs u fun x => { x with suspending := x.suspending.filter (fun y => y.1 != c) }
        let u := wr u .CTX_PREEMPT_WAIT_MAX 0 (max (rd u .CTX_PREEMPT_WAIT_MAX) (min (u.now - e.2) (maxOf 32)))
        ctxDone (setCtxState u c 2))

/-! Teardown -/

/-- A context's training jobs are dropped without a checkpoint (R234). -/
def dropJobs (s : State) (c : Nat) : State :=
  each (s.pann.jobs.filter (fun e => e.2.ctx == c)) s fun t e =>
    let t := updPann t fun p => { p with jobs := storeErase p.jobs e.1 }
    let a := (rd t .TRAIN_WS_BASE e.2.ws.1 + e.2.ws.2.1) * 4096
    wr (zeroRange t a (e.2.ws.2.2 * 4096)) .TRAIN_JOBS_OPEN 0 t.pann.jobs.length

/-- What the 100 µs row of Table 13-2 does to a context: items end, sessions are FREE, slots, jobs and keys go. -/
def endContext (s : State) (c : Nat) : State :=
  let s := endItems s (fun i => i.ctx == c) 0x24 0
  let s := each (s.serve.sessions.filter (fun e => e.2.ctx == c)) s fun t e => freeSession t e.1
  let s := dropJobs s c
  let s := each ((slotsInUse s).filter (fun k => (plannedEntry s k).ctx == c && (plannedEntry s k).st != 4)) s fun t k =>
    startRelease t k none true
  let s := updCtxs s fun x => { x with
    keys := storeKeep (fun k => k / 4 != c) x.keys
    pendingKeys := storeKeep (fun k => k / 4 != c) x.pendingKeys
    reports := x.reports.filter (fun j => j.ctx != c)
    ended := x.ended ++ [c] }
  mirrorKeys s c

/-- TEARDOWN_ITEMS_ENDED (R378, R234). -/
def execTeardownItemsEnded (t c : Nat) (s : State) : Host.Outcome State Fault Refusal :=
  let u := tick s t
  settle s (if u.ctxs.tearing.any (fun e => e.1 == c) ∧ c ∉ u.ctxs.ended then endContext u c else u)

/-- The last region of a TEARING context is clear: it is FREE (Table 13-1). -/
def contextFree (s : State) (c : Nat) : State :=
  let s := updCtxs s fun x => { x with tearing := x.tearing.filter (fun e => e.1 != c), ended := x.ended.filter (· != c) }
  let s := wr (wr (wr s .CTX_STATE_SLOT c 0) .CTX_STATE_CLASS c 0) .CTXWIN_INFO_CLASS c 0
  setCtxState s c 0

/-- Keys of a store whose value is v. -/
def keysOf (m : Store Nat) (v : Nat) : List Nat := (m.filter (fun e => e.2 == v)).map (·.1)

/-- TEARDOWN_GRANULES_FREED (R378): the context's granules become FREE with their valid bits cleared, its save slot is
empty, what slot 0 holds of it is discarded (R379), and its regions start to be cleared. -/
def execTeardownGranulesFreed (t c : Nat) (s : State) : Host.Outcome State Fault Refusal :=
  let u := tick s t
  settle s (if u.ctxs.tearing.any (fun e => e.1 == c) ∧ c ∈ u.ctxs.ended then
      let gs := keysOf u.mem.granules c
      let u := each gs u fun x g => clearGranule x (g * 4096)
      let u := updMem u fun m => { m with
        granules := storeKeep (fun g => !decide (g ∈ gs)) m.granules
        saves := m.saves.filter (fun e => e.ctx != c) }
      let rs := keysOf u.mem.regions c
      if rs = [] then contextFree u c else each rs u fun x r => startClear x r 0x7F c
    else u)

/-- REGION_CLEAR_DONE (R278): a CLEARING region has been zeroed and takes its owner; the last one of a TEARING context
frees it. -/
def execRegionClearDone (t region : Nat) (s : State) : Host.Outcome State Fault Refusal :=
  let u := tick s t
  settle s
    (match u.mem.regionClears.find? (fun x => x.region == region) with
    | none => u
    | some x =>
      let u := finishClear u x
      if x.ctx < 64 ∧ u.ctxs.tearing.any (fun e => e.1 == x.ctx) ∧ u.mem.regionClears.any (fun y => y.ctx == x.ctx) = false
        then contextFree u x.ctx else u)

/-! ENABLE -/

/-- Whether ENABLE can be set (R214, R393, R403): sizes in range, VECTOR in the function's range, and a keyed IDE
stream for a confidential-class context. -/
def enableOk (s : State) (c : Nat) : Bool :=
  let i := rd s .SERVE_INTAKE_SIZE_LOG2 c
  let e := rd s .SERVE_EVQ_SIZE_LOG2 c
  let v := rd s .SERVE_EVQ_SIZE_VECTOR c
  decide (6 ≤ i ∧ i ≤ 16) && decide (6 ≤ e ∧ e ≤ 20) && (if c = 0 then decide (v < 32) else v == 0)
    && (!confidential s c || rdb s .CTX_STATE_IDE_READY c)

/-- SERVE_ENABLE_WRITE (R215, R410, R411): as ENABLE changes to 1 the counts become 0, the module half is written and the
queue is armed; FAULTED clears. What waits in spill drains. -/
def execServeEnableWrite (src : Src) (t c value : Nat) (s : State) : Host.Outcome State Fault Refusal :=
  let u := tick s t
  settle s (if c ≥ 64 ∨ mayWrite u src .SERVE_CTRL_ENABLE c = false then s
    else if value % 2 = 0 then wr u .SERVE_CTRL_ENABLE c 0
    else if enableOk u c = false then u
    else
      let u := wr u .SERVE_CTRL_FAULTED c 0
      if rdb u .SERVE_CTRL_ENABLE c then u
      else
        let u := wr (wr (wr u .SERVE_CTRL_ENABLE c 1) .SERVE_INTAKE_COUNT c 0) .SERVE_EVQ_COUNT c 0
        let u := setQueue u c { queueOf u c with consumer := 0, ringFails := 0, recFails := 0, noRoom := false, armed := true, noted := 0 }
        drainSpill (writeControl u c) c)

/-! IDE failures -/

/-- Whether a context is granted and of the confidential class. -/
def confGranted (s : State) (c : Nat) : Bool :=
  decide (0 < c ∧ c < 64) && confidential s c && (rd s .CTX_STATE_STATE c == 1 || rd s .CTX_STATE_STATE c == 2)

/-- The stream of a function is no longer in the secure state. -/
def ideDown (s : State) (c : Nat) : State :=
  let s := wr (wr s .CTX_STATE_IDE_READY c 0) .CTXWIN_INFO_IDE_READY c 0
  let s := updMgt s fun m => { m with ide := m.ide.map (fun e => if e.1 = c then (e.1, { e.2 with active := none }) else e) }
  if confGranted s c then startTeardown s c 2 else s

/-- IDE_FAILURE (R394, R398): the stream leaves the secure state, or reports an integrity failure, which is counted. -/
def execIdeFailure (t c : Nat) (integrity : Bool) (s : State) : Host.Outcome State Fault Refusal :=
  let u := tick s t
  settle s (if c = 0 ∨ 64 ≤ c ∨ rdb u .CTX_STATE_IDE_READY c = false then u
    else ideDown (if integrity then inc u .PCIE_IDE_FAIL else u) c)

/-- NON_IDE_REQUEST (R398): a request outside the stream to the BAR of a confidential-class context that is ACTIVE or
SUSPENDED is discarded, counted, and starts its teardown. -/
def execNonIdeRequest (t c : Nat) (s : State) : Host.Outcome State Fault Refusal :=
  let u := tick s t
  settle s (if confGranted u c then startTeardown (inc u .PCIE_IDE_FAIL) c 2 else u)

end Sys2Proof.Machine
end

