-- ==== Sys2Proof/Machine/Reduce.lean ====
section
/-! DEFINITION. The reduction unit (R139 to R145): the running state of each operation, its update by a chunk in
the fixed pairwise order, and its output and summary. -/

namespace Sys2Proof.Machine

def f32NegInf : Nat := 0xFF800000
def f32PosInf : Nat := 0x7F800000
def f32Nan : Nat := 0x7FC00000

def f32IsNan (x : Nat) : Bool := decodeF fFP32 x == .nan

/-- Add neighbours; an absent lane passes its partner through (R140). -/
def pairUp (f : Nat → Nat → Nat) : List (Option Nat) → List (Option Nat)
  | x :: y :: r =>
    (match x, y with
     | some a, some b => some (f a b)
     | some a, none => some a
     | none, y => y) :: pairUp f r
  | l => l

/-- The pairwise tree of R140; `fuel` bounds its depth. -/
def treeSum (f : Nat → Nat → Nat) : Nat → List (Option Nat) → Option Nat
  | 0, l => l.head?.join
  | n + 1, l => if l.length ≤ 1 then l.head?.join else treeSum f n (pairUp f l)

def f32Tree (l : List (Option Nat)) : Option Nat := treeSum f32Add 32 l

/-- Order of candidates: larger value first, then the lower index (R139). -/
def candLe (x y : Nat × Nat) : Bool := f32Lt y.1 x.1 || (!f32Lt x.1 y.1 && decide (x.2 ≤ y.2))

/-- The K best of a list of candidates. -/
def bestOf (k : Nat) (l : List (Nat × Nat)) : List (Nat × Nat) := (sortBy candLe l).take k

/-- The state of an operation before a row's first chunk (R139, R141). -/
def redStart (op : Nat) (int : Bool) : RedState :=
  let v := match op with
    | 3 => if int then 2 ^ 31 else f32NegInf
    | 4 => if int then 2 ^ 31 - 1 else f32PosInf
    | 5 => if int then 2 ^ 31 else f32NegInf
    | 6 => f32NegInf
    | 8 => f32NegInf
    | _ => 0
  ⟨op, v, 0, 0xFFFFFFFF, 0, [], [], false, false⟩

/-- The sum of exp2(x − m) of a chunk, in the pairwise order. -/
def expSum (m : Nat) (xs : List (Option Nat)) : Nat :=
  (f32Tree (xs.map (fun x => x.map (fun v => fnExp2 (f32Sub v m))))).getD 0

/-- SMSTAT's update by a chunk (R141). -/
def smstat (st : RedState) (xs : List (Option Nat)) : RedState :=
  let vs := xs.filterMap id
  let c := vs.foldl (fun m v => if f32IsNan m || f32IsNan v then f32Nan else if f32Lt m v || (m == 0x80000000 && v == 0) then v else m) f32NegInf
  if f32IsNan st.val then st
  else if f32IsNan c || c == f32PosInf then { st with val := f32Nan, l := f32Nan, nan := true }
  else if f32Lt st.val c then
    { st with val := c, l := f32Fma st.l (fnExp2 (f32Sub st.val c)) (expSum c xs), any := true }
  else if f32Lt f32NegInf c then { st with l := f32Add st.l (expSum st.val xs) }
  else st

/-- One source of a merge of (m, l) pairs (R145). -/
def smMerge (st : RedState) (m l : Nat) : RedState :=
  if f32IsNan st.val then st
  else if f32IsNan m || f32IsNan l || m == f32PosInf then { st with val := f32Nan, l := f32Nan, nan := true }
  else if f32Lt st.val m then { st with val := m, l := f32Fma st.l (fnExp2 (f32Sub st.val m)) l, any := true }
  else if f32Lt f32NegInf m then { st with l := f32Fma l (fnExp2 (f32Sub m st.val)) st.l }
  else st

/-- An order-keeping extreme over values with their indices: NaN values are excluded and noted. -/
def extreme (int : Bool) (better : Nat → Nat → Bool) (st : RedState) (xs : List (Nat × Nat)) : RedState :=
  xs.foldl (fun r x =>
    if !int && f32IsNan x.1 then { r with nan := true }
    else if !r.any || better x.1 r.val then { r with val := x.1, index := x.2, any := true } else r) st

/-- Signed order of INT32 lanes. -/
def intLt (a b : Nat) : Bool := decide (signedOf 32 a < signedOf 32 b)

/-- The state of an operation after a chunk: lane values (none where a lane is not taken) with column indices;
`int` for integer lanes, whose values are sign-extended to 32 bits. -/
def redFeed (k : Nat) (int : Bool) (st : RedState) (xs : List (Option (Nat × Nat))) : RedState :=
  let taken := xs.filterMap id
  let st := { st with count := st.count + taken.length }
  let vals := xs.map (fun x => x.map (·.1))
  let lt := if int then intLt else fun a b => numLt (decodeF fFP32 a) (decodeF fFP32 b)
  let zlt := fun (a b : Nat) => lt a b || (!int && a == 0x80000000 && b == 0)
  let sane := vals.map (fun x => x.filter (fun v => (int && st.op == 1) || !f32IsNan v))
  let seen := decide ((sane.filterMap id).length < taken.length)
  match st.op with
  | 1 =>
    let add := if int then fun a b => (a + b) % 2 ^ 32 else f32Add
    match treeSum add 32 sane with
    | some v => { st with val := add st.val v, any := true, nan := st.nan || seen }
    | none => { st with nan := st.nan || seen }
  | 2 =>
    match f32Tree (sane.map (fun x => x.map (fun v => f32Mul v v))) with
    | some v => { st with val := f32Add st.val v, any := true, nan := st.nan || seen }
    | none => { st with nan := st.nan || seen }
  | 3 => extreme int (fun a b => zlt b a) st taken
  | 4 => extreme int (fun a b => zlt a b) st taken
  | 5 => extreme int (fun a b => lt b a) st taken
  | 6 => smstat st vals
  | 7 =>
    let good := taken.filter (fun x => !f32IsNan x.1)
    { st with cands := bestOf k (st.cands ++ good), nan := st.nan || decide (good.length < taken.length) }
  | 8 =>
    let good := taken.filter (fun x => !f32IsNan x.1)
    let st := smstat st (vals.map (fun x => x.filter (fun v => !f32IsNan v)))
    { st with cands := bestOf k (st.cands ++ good), nan := st.nan || decide (good.length < taken.length) }
  | 9 =>
    let bump := fun (h : List Nat) (x : Nat × Nat) => if x.1 < 256 then h.set x.1 ((h.getD x.1 0 + 1) % 2 ^ 32) else h
    let h := taken.foldl bump (if st.hist = [] then List.replicate 256 0 else st.hist)
    { st with hist := h }
  | _ => st

/-- Whether a row ended without a finite value or candidate (EMPTY_ROW). -/
def redEmpty (st : RedState) : Bool :=
  match st.op with
  | 6 => st.val == f32NegInf
  | 7 => st.cands.isEmpty
  | 8 => st.cands.isEmpty
  | _ => st.count == 0

/-- Candidates padded to K entries (R139). -/
def padCands (k : Nat) (l : List (Nat × Nat)) : List (Nat × Nat) :=
  l ++ List.replicate (k - l.length) (f32NegInf, 0xFFFFFFFF)

/-- ROUTE's weights: exp2(x_i − x_0) over the sum of the K entries, or over the whole row with NORM_ALL (R139). The
spec gives no weights to a row without candidates: DESIGN CHOICE (log 73), they are 0. -/
def routeWeights (k : Nat) (all : Bool) (st : RedState) : List (Nat × Nat) :=
  let c := padCands k st.cands
  let x0 := (c.headD (f32NegInf, 0)).1
  let es := c.map (fun x => if x.1 = f32NegInf then 0 else fnExp2 (f32Sub x.1 x0))
  let sum := if all then st.l else (f32Tree (es.map some)).getD 0
  let r := fnRecip sum
  (c.zip es).map (fun e => (e.1.2, if st.cands.isEmpty then 0 else f32Mul e.2 r))

/-- The 32-bit words an operation writes for a row (Table 5-10). -/
def redWords (k : Nat) (all : Bool) (st : RedState) : List Nat :=
  match st.op with
  | 5 => [st.val, st.index]
  | 6 => [st.val, st.l]
  | 7 => ((padCands k st.cands).map (fun x => [x.1, x.2])).flatten
  | 8 => ((routeWeights k all st).map (fun x => [x.1, x.2])).flatten
  | 9 => if st.hist = [] then List.replicate 256 0 else st.hist
  | _ => [st.val]

/-- VALUE0, VALUE1, INDEX0 and COUNT of a summary (Table 5-10). -/
def redSummary (k : Nat) (all : Bool) (st : RedState) : Nat × Nat × Nat × Nat :=
  match st.op with
  | 5 => (st.val, 0, st.index, st.count)
  | 6 => (st.val, st.l, 0, st.count)
  | 7 =>
    let h := (padCands k st.cands).headD (f32NegInf, 0xFFFFFFFF)
    (h.1, 0, h.2, st.cands.length)
  | 8 =>
    let h := (routeWeights k all st).headD (0xFFFFFFFF, 0)
    (h.2, 0, h.1, k)
  | 9 => (0, 0, 0, st.count)
  | _ => (st.val, 0, 0, st.count)

end Sys2Proof.Machine
end

