-- ==== Sys2Proof/Machine/Training.lean ====
section
/-! DEFINITION. Training jobs (R238 to R247, R251): opening, micro-steps, the optimizer step, checkpoints and closing. -/

namespace Sys2Proof.Machine

/-! Jobs -/

/-- The job whose slot it is, with its number. -/
def jobOf (s : State) (slot : Nat) : Option (Nat × Job) := s.pann.jobs.find? (fun e => e.2.slot == slot)

def setJob (s : State) (n : Nat) (j : Job) : State :=
  let s := updPann s fun p => { p with jobs := storeInsert p.jobs n j }
  wr s .TRAIN_JOBS_OPEN 0 s.pann.jobs.length

/-- The lowest job number in 1 to 1,024 that no job has. -/
def freeJob (s : State) : Option Nat :=
  ((List.range 1024).map (· + 1)).find? (fun n => (storeFind s.pann.jobs n).isNone)

/-- Workspace of n 4 KiB units: the first wing whose area holds it, with the first unit (R238). -/
def allocWorkspace (s : State) (n : Nat) : Option (Nat × Nat) :=
  (List.range 4).findSome? fun w =>
    let base := rd s .TRAIN_WS_BASE w
    let used := (s.pann.jobs.filter (fun e => e.2.ws.1 == w)).map (fun e => (base + e.2.ws.2.1, e.2.ws.2.2))
    (allocLow base (rd s .TRAIN_WS_LIMIT w) n (used ++ deadUnits s)).map (fun a => (w, a - base))

/-- Elements of A and of B of each target, in order. -/
def elemCount (m : Model) (set rank : Nat) : Nat :=
  ((targetsOf m set).map (fun t => rank * t.dIn + t.dOut * rank)).sum

/-- The BF16 copy of a master (R238). -/
def bf16Of (theta : Nat) : Nat := convF fFP32 fBF16 theta

/-- The bytes of a BF16 body. -/
def bf16Body (l : List Nat) : List Nat := (l.map (leBytes 2)).flatten

/-- Element (i, j) of A of target n (R238): (u − 0.5) × 2 × INIT_BOUND; a bound of 0 gives +0 (Table 8-8). -/
def initElem (seed bound n i j : Nat) : Nat :=
  if bound % 2 ^ 31 = 0 then 0
  else f32Mul (roundDyad fFP32 true ⟨(uBits (philoxWord seed (n, i, j, 0)) : Int) - 2 ^ 23, -23⟩) bound

/-- The masters of a new job. -/
def initElems (m : Model) (set rank seed bound : Nat) : List TrainElem :=
  ((targetsOf m set).zipIdx.map (fun t =>
    ((List.range rank).map (fun i => (List.range t.1.dIn).map (fun j => TrainElem.mk (initElem seed bound t.2 i j) 0 0 0))).flatten
      ++ List.replicate (t.1.dOut * rank) ⟨0, 0, 0, 0⟩)).flatten

/-! TRAIN_OPEN -/

/-- FP32 patterns that are finite and at least 0, and in [0, 1). -/
def f32NonNeg (v : Nat) : Bool := decide (v < 0x7F800000) || v == 0x80000000
def f32BelowOne (v : Nat) : Bool := decide (v < 0x3F800000) || v == 0x80000000

/-- Check 3 for a TRAIN_OPEN (Table 8-5). -/
def openRanges (h : ReqHead) (r : TrainOpenRec) : Bool :=
  let img := bitAt r.flags 0
  h.handle == 0 && decide (1 ≤ r.accum ∧ r.accum ≤ 4096) && decide (1 ≤ r.model ∧ r.model ≤ 15)
    && decide (1 ≤ r.workspaceMib ∧ r.workspaceMib ≤ 65536)
    && f32NonNeg r.lr && f32NonNeg r.eps && f32NonNeg r.weightDecay && f32NonNeg r.clip && f32BelowOne r.beta1 && f32BelowOne r.beta2
    && (if img then isHostAddr r.addr 4096 && r.bytes != 0 && decide (r.keyIndex ≤ 3) && r.rank == 0 && r.targetSet == 0
        else r.addr == 0 && r.bytes == 0 && r.keyIndex == 0 && rankOk r.rank && r.rank != 0
          && decide (1 ≤ r.targetSet ∧ r.targetSet ≤ 15) && f32PosFinite r.alpha && f32NonNeg r.initBound)

/-- Checks 2 to 13 of Table 7-7 for a TRAIN_OPEN. -/
def openChecks (s : State) (h : ReqHead) (r : TrainOpenRec) : Option (Nat × Nat) :=
  let img := bitAt r.flags 0
  firstFail
    [ (r.resv && decide (r.slotBits < 16384) && decide (r.flags < 2), 0x30, 0x41),
      (openRanges h r, 0x30, 0x42),
      (modelUsable s r.model, 0x30, 0x45),
      (!img || keyUsable s h.ctx r.keyIndex true, 0x30, 0x4A),
      (img || ((modelAt s r.model).map (fun m => m.targetSets.any (fun e => e.1 == r.targetSet))).getD false, 0x30, 0x49),
      (!rdb s .SERVE_CTRL_BACKLOG h.ctx, 0x10, 0x05),
      (slotRoom s h.ctx r.slotBits, 0x11, 0x03),
      ((freeJob s).isSome && (allocWorkspace s (r.workspaceMib * 256)).isSome, 0x11, 0x06) ]

/-- The job becomes open: its working copy is written and its entry is TRAINING at the next flip (R238); the item ends with
REFUSED_CAPACITY 0x06 where a store cannot hold the copy. -/
def openJob (s : State) (n : Nat) (j : Job) (model : Nat) (k : Nat × Nat) : State :=
  match buildEntry s 3 j.ctx j.rank model j.targetSet 8 j.alpha n with
  | none =>
    let s := updPann s fun p => { p with jobs := storeErase p.jobs n }
    match itemAt s k.1 k.2 with
    | some x => endItem (wr s .TRAIN_JOBS_OPEN 0 s.pann.jobs.length) x 0x11 0x06
    | none => s
  | some e =>
    let work := j.elems.map (fun x => bf16Of x.theta)
    let s := setJob (writeParts s e (bf16Body work)) n { j with working := work, opened := true }
    queueEdit s j.slot e (some (k.1, k.2, 1, 0x07))

/-- TRAIN_OPEN (R238). -/
def execTrainOpen (h : ReqHead) (r : TrainOpenRec) (s : State) : Host.Outcome State Fault Refusal :=
  settle s
    (match openChecks s h r with
    | some (c, d) => answer s h c d
    | none =>
      let n := (freeJob s).getD 1
      let ws := (allocWorkspace s (r.workspaceMib * 256)).getD (0, 0)
      let j : Job := ⟨h.ctx, r.slotBits, r, r.rank, r.alpha, r.targetSet, [], [], 0, 0, 0, false, (ws.1, ws.2, r.workspaceMib * 256)⟩
      let x : Item := { newItem s h 0x12 with slot := some r.slotBits, model := r.model, data := [r.bytes, r.keyIndex] }
      if bitAt r.flags 0 then
        let ns := transferNs r.bytes
        let u := planMove (setJob s n j) ns
        accept u { x with deadline := flipAfter u (moveEnd s u) + 2000 }
      else
        match modelAt s r.model with
        | none => s
        | some m =>
          if (buildEntry s 3 h.ctx r.rank r.model r.targetSet 8 r.alpha n).isNone then answer s h 0x11 0x06
          else
            let s := accept s { x with deadline := nextBoundary s + 2000 }
            openJob (setJob s n j) n { j with elems := initElems m r.targetSet r.rank r.seed r.initBound } r.model (h.ctx, h.idx))

/-- The elements that the body of a checkpoint image holds, its targets in the order of the set: each target has A, B, m_A, m_B, v_A
and v_B in FP32 (R219). -/
def elemsOf (ts : List Target478) (rank : Nat) (body : List Nat) : List TrainElem :=
  (ts.foldl (fun (acc : List TrainElem × List Nat) t =>
    let n := rank * t.dIn + t.dOut * rank
    let word := fun (i : Nat) => fieldAt acc.2 (4 * i) 4
    (acc.1 ++ (List.range n).map (fun i => ⟨word i, word (n + i), word (2 * n + i), 0⟩), acc.2.drop (12 * n))) ([], body)).1

/-- The outcome of the image of a TRAIN_OPEN with FROM_IMAGE (R238): the job's state, or the item's end. -/
def finishOpen (s : State) (x : Item) (slot : Nat) (hdr : Option (List Nat)) (tagOk : Bool) (img : List Nat) : State :=
  match jobOf s slot with
  | none => s
  | some (n, j) =>
    let s := setItem s { x with stop := 1 }
    let y := imageOf img
    match imageFault s false (x.data.getD 0 0) x.model hdr tagOk img with
    | some (c, d) =>
      let s := if d = 0x48 then inc s .PANNIER_AUTH_FAIL else s
      let s := updPann s fun p => { p with jobs := storeErase p.jobs n }
      endItem (wr s .TRAIN_JOBS_OPEN 0 s.pann.jobs.length) x c d
    | none =>
      let ts := ((modelAt s x.model).map (fun m => targetsOf m y.targetSet)).getD []
      openJob s n { j with
        rank := y.rank, alpha := y.alpha, targetSet := y.targetSet, t := y.optStep
        elems := elemsOf ts y.rank (bodyInSetOrder s x.model y) } x.model (x.ctx, x.idx)

/-- ADAPTER_IMAGE_AUTHENTICATED (R232, R238): what the transfer of an image has found; `hdr` is none where the host read
failed. -/
def execAdapterImageAuthenticated (t ctx idx : Nat) (hdr : Option (List Nat)) (tagOk : Bool) (img : List Nat)
    (s : State) : Host.Outcome State Fault Refusal :=
  let u := tick s t
  settle s
    (match itemAt u ctx idx with
    | none => u
    | some x =>
      match x.slot with
      | none => u
      | some slot =>
        if x.stop ≠ 0 then u
        else if x.opcode = 0x10 then finishLoad u x slot hdr tagOk img
        else if x.opcode = 0x12 ∧ ((jobOf u slot).map (fun e => e.2.opened)) = some false then finishOpen u x slot hdr tagOk img
        else u)

/-! TRAIN_STEP (R240 to R244) -/

/-- An open item of a job (R239). -/
def jobBusy (s : State) (slot : Nat) : Bool :=
  s.serve.items.any (fun i => i.slot == some slot && decide (0x12 ≤ i.opcode ∧ i.opcode ≤ 0x15))

/-- Check 8 for a training record: the slot is TRAINING in the active bank and owned (R229, R239). -/
def trainSlotOk (s : State) (ctx slot : Nat) : Bool :=
  let e := activeEntry s slot
  e.st == 3 && e.ctx == ctx

/-- The job of the slot lives; it is gone between its end and the flip that changes its entry (R250). DEDUCED (log 83): a record that
finds the slot TRAINING without a job, and no open item of the job, ends as one that names no training slot. -/
def jobLives (s : State) (slot : Nat) : Bool := (jobOf s slot).isSome && (plannedEntry s slot).st == 3

/-- R240 on lengths and token words. -/
def trainDataOk (vocab tokenCount : Nat) (lens toks : List Nat) : Bool :=
  lens.sum == tokenCount && lens.all (fun n => decide (n ≤ 8192)) && toks.all (fun t => decide (t % 2 ^ 31 < vocab))

/-- The counted positions of a micro-step (R240): the tokens with LOSS, but for the first of each sequence. -/
def countedOf (lens toks : List Nat) : Nat :=
  (lens.foldl (fun (acc : Nat × List Nat) n =>
    (acc.1 + (((acc.2.take n).drop 1).filter (fun t => bitAt t 31)).length, acc.2.drop n)) (0, toks)).1

/-- Write a result block to the host. -/
def writeResult (s : State) (ctx addr : Nat) (block : List Nat) : State := hostOut s ctx addr block

/-- Checks 2 to 10 for a TRAIN_STEP. -/
def stepChecks (s : State) (h : ReqHead) (r : TrainStepRec) : Option (Nat × Nat) :=
  firstFail
    [ (r.resv && decide (r.slotBits < 16384), 0x30, 0x41),
      (h.handle == 0 && r.dataAddr % 4 == 0 && decide (r.seqCount ≤ 256) && decide (r.tokenCount ≤ 16384)
        && r.resultAddr % 64 == 0 && decide (1 ≤ r.model ∧ r.model ≤ 15), 0x30, 0x42),
      (modelUsable s r.model, 0x30, 0x45),
      (trainSlotOk s h.ctx r.slotBits, 0x31, 0x04),
      ((activeEntry s r.slotBits).model == r.model, 0x30, 0x4E),
      (!jobBusy s r.slotBits, 0x10, 0x04),
      (jobLives s r.slotBits, 0x31, 0x04),
      (!rdb s .SERVE_CTRL_BACKLOG h.ctx, 0x10, 0x05),
      (!s.serve.draining || !needsPeers s r.model || ((jobOf s r.slotBits).map (fun e => decide (0 < e.2.counted))).getD false,
        0x10, 0x07) ]

/-- TRAIN_STEP (R240, R241, R248): a record that passes the checks and the timetable is accepted; its data is then read,
and malformed data ends it with nothing applied. -/
def execTrainStep (h : ReqHead) (r : TrainStepRec) (s : State) : Host.Outcome State Fault Refusal :=
  settle s
    (match stepChecks s h r with
    | some (c, d) => answer s h c d 0 r.tokenCount
    | none =>
      let x : Item := { newItem s h 0x13 with slot := some r.slotBits, model := r.model, data := [0, 0, r.resultAddr] }
      if r.tokenCount = 0 then
        let s := accept s { x with deadline := promptDeadline s }
        (match itemAt s h.ctx h.idx with | some y => endItem s y 0x03 0x08 | none => s)
      else
        let opt := ((jobOf s r.slotBits).map (fun e => decide (e.2.rc.accum ≤ e.2.counted + 1))).getD false
        let a : Ask := ⟨h.ctx, h.idx, r.model, 0, 0, 0, r.tokenCount, 0, rd s .CTX_STATE_CLASS h.ctx == 1⟩
        match firstTrial s a s.serve.lastTick 0 (trainTrials s a opt) 0 with
        | .error d => answer s h 0x10 d 0 r.tokenCount
        | .ok (plan, d) =>
          let s := accept (adopt s plan) { x with deadline := d, promptDone := r.tokenCount }
          match itemAt s h.ctx h.idx, r.data with
          | none, _ => s
          | some y, none => endItem s y 0x23 0x05
          | some y, some (lens, toks) =>
            let vocab := ((modelAt s r.model).map (fun m => m.header.vocab)).getD 0
            if trainDataOk vocab r.tokenCount lens toks && toks.length == r.tokenCount && lens.length == r.seqCount then
              setItem s { y with data := [0, countedOf lens toks, r.resultAddr] }
            else endItem s y 0x30 0x4B)

/-! The optimizer step (R243) -/

/-- SUMSQ of all gradients scaled by k, chunk by chunk as one row (R139, R140). -/
def gradSumsq (k : Nat) (gs : List Nat) : Nat :=
  let scaled := gs.map (fun g => f32Mul g k)
  ((List.range (ceilDiv scaled.length 64)).foldl (fun st i =>
    redFeed 0 false st (((scaled.drop (i * 64)).take 64).map (fun v => some (v, 0)))) (redStart 2 false)).val

/-- 1 ÷ (1 − BETA^t) in FP64, rounded to FP32 (R243). -/
def biasFactor (beta t : Nat) : Nat :=
  let one := 0x3FF0000000000000
  convF fFP64 fFP32 (divF fFP64 one (addF fFP64 one (negF fFP64 (Config.betaPow beta t % 2 ^ 64))))

/-- The scalars of an update. -/
structure OptScalars where
  k : Nat
  b1 : Nat
  b2 : Nat
  c1 : Nat
  c2 : Nat
  eps : Nat
  wd : Nat
  lr : Nat
  deriving DecidableEq, Repr

/-- The update of one element, every operation rounded once in FP32 (R243). -/
def updateElem (o : OptScalars) (e : TrainElem) : TrainElem :=
  let g := f32Mul e.grad o.k
  let m := f32Fma o.b1 e.m (f32Mul (f32Sub 0x3F800000 o.b1) g)
  let v := f32Fma o.b2 e.v (f32Mul (f32Mul (f32Sub 0x3F800000 o.b2) g) g)
  let mh := f32Mul m o.c1
  let vh := f32Mul v o.c2
  let sd := if f32Lt 0 vh then f32Mul vh (fnRsqrt vh) else 0
  let u := f32Mul mh (fnRecip (f32Add sd o.eps))
  ⟨f32Fma (f32Neg o.lr) (f32Fma o.wd e.theta u) e.theta, m, v, 0⟩

/-- The optimizer step of a job when its cycle closes: the job after it, OPT, SKIP_REASON and GRAD_NORM (R243, R251). -/
def optimizerStep (j : Job) (agree : Bool) : Job × Nat × Nat × Nat :=
  let clear : Job := { j with counted := 0, positions := 0, elems := j.elems.map (fun e => { e with grad := 0 }) }
  if j.positions = 0 then (clear, 2, 2, 0)
  else
    let k0 := f32Div 0x3F800000 (roundDyad fFP32 true ⟨j.positions, 0⟩)
    let norm := f32Sqrt (gradSumsq k0 (j.elems.map (·.grad)))
    if norm ≥ 0x7F800000 || !agree then (clear, 2, 1, norm)
    else
      let k := if f32Lt 0 j.rc.clip && f32Lt j.rc.clip norm then f32Div (f32Mul k0 j.rc.clip) norm else k0
      let t := j.t + 1
      let o : OptScalars := ⟨k, j.rc.beta1, j.rc.beta2, biasFactor j.rc.beta1 t, biasFactor j.rc.beta2 t, j.rc.eps, j.rc.weightDecay, j.rc.lr⟩
      let elems := j.elems.map (updateElem o)
      ({ clear with t := t, elems := elems, working := elems.map (fun e => bf16Of e.theta) }, 1, 0, norm)

/-- A completed micro-step's buffer joins the cycle's buffer (R242). -/
def addGrads (j : Job) (gs : List Nat) (counted : Nat) : Job :=
  { j with counted := j.counted + 1, positions := j.positions + counted
           elems := j.elems.zipIdx.map (fun e => { e.1 with grad := f32Add e.1.grad (gs.getD e.2 0) }) }

/-- End a micro-step: its result block and its FINAL, late when its promise has passed. -/
def endMicro (s : State) (x : Item) (code detail : Nat) (block : List Nat) : State :=
  let s := writeResult s x.ctx (x.data.getD 2 0) block
  let late := decide (x.deadline < s.now) && x.causes == 0
  endItem s { x with causes := if late then 4 else x.causes, lateNs := s.now - x.deadline, lastIssue := s.now, data := [] } code detail

/-- The failure code of Table 0-5 that a failed piece ends its item with: a value that the table reserves counts as
FAILED_ARITH (R7). -/
def failureCode (code : Nat) : Nat := if code ∈ [0x20, 0x21, 0x23, 0x24] then code else 0x22

/-- The pieces of a micro-step have run (R242): its outcome and contributions. With an optimizer card planned for the next
step the item waits for it. -/
def pieceDone (s : State) (r : TrainResult) : State :=
  match itemAt s r.ctx r.idx with
  | none => s
  | some x =>
    match x.slot.bind (jobOf s) with
    | none => s
    | some (n, j) =>
      if r.outcome ≠ 0 then endMicro s x (failureCode r.outcome) 0 (resultBlock 0 0 j.t 0 0 0 s.now 0)
      else
        let positions := x.data.getD 1 0
        let j := addGrads j r.grads positions
        let s := setJob s n j
        if j.counted < j.rc.accum then endMicro s x 1 0x09 (resultBlock r.lossSum positions j.t 0 0 0 s.now 0)
        else setItem s { x with data := [r.lossSum, positions, x.data.getD 2 0, 1] }

/-- The step that holds the optimizer card has ended (R243, R244). -/
def optimizerDone (s : State) (x : Item) (agree : Bool) : State :=
  match x.slot.bind (jobOf s) with
  | none => s
  | some (n, j) =>
    let (j', opt, skip, norm) := optimizerStep j agree
    let norm' := if !agree && opt == 2 && skip == 1 then norm else if skip = 2 then 0 else norm
    let s := setJob s n j'
    let s := if opt = 1 then
        let e := activeEntry s j.slot
        inc (writeParts s e (bf16Body j'.working)) .TRAIN_OPT_STEPS
      else inc s .TRAIN_SKIPPED
    let s := if !agree && skip == 1 then hubError s (leadHub s) 0 0 0 (some x.ctx) else s
    endMicro s x 1 (if opt = 1 then 0x0A else 0x0B)
      (resultBlock (x.data.getD 0 0) (x.data.getD 1 0) j'.t norm' opt skip s.now 0)

/-! TRAIN_CHECKPOINT (R245, R247) -/

/-- Plaintext bytes of a job's checkpoint: header, target table, FP32 body. -/
def ckptBytes (s : State) (j : Job) : Nat :=
  match modelAt s j.rc.model with
  | some m => 64 + 16 * (targetsOf m j.targetSet).length + 12 * elemCount m j.targetSet j.rank
  | none => 64

/-- The target table and body of a job's checkpoint: each target's A, B, m_A, m_B, v_A and v_B in FP32 (R219). -/
def ckptBody (s : State) (j : Job) : List Nat :=
  let ts := ((modelAt s j.rc.model).map (fun m => targetsOf m j.targetSet)).getD []
  (ts.zipIdx.map (fun t => leBytes 2 t.2 ++ [0, 0] ++ leBytes 4 t.1.dIn ++ leBytes 4 t.1.dOut ++ [0, 0, 0, 0])).flatten
    ++ (ts.foldl (fun (acc : List Nat × List TrainElem) t =>
      let l := acc.2.take (j.rank * t.dIn + t.dOut * j.rank)
      let part := fun (f : TrainElem → Nat) => (l.map (fun e => leBytes 4 (f e))).flatten
      (acc.1 ++ part (·.theta) ++ part (·.m) ++ part (·.v), acc.2.drop l.length)) ([], j.elems)).1

/-- The plaintext of a job's checkpoint (Table 8-1). -/
def ckptPlain (s : State) (j : Job) : List Nat :=
  let ts := ((modelAt s j.rc.model).map (fun m => targetsOf m j.targetSet)).getD []
  let body := ckptBody s j
  leBytes 4 0x4E4E4150 ++ leBytes 2 1 ++ [2, 0xA] ++ leBytes 2 j.rc.model ++ [j.targetSet, 0] ++ leBytes 2 j.rank ++ leBytes 2 ts.length
    ++ leBytes 4 j.alpha ++ leBytes 4 j.t ++ List.replicate 8 0 ++ sha256 body ++ body

/-- An encrypted image under a key and an IV: the clear header, the ciphertext, the tag (R231). -/
def encrypted (key iv : Nat) (plain : List Nat) : List Nat :=
  let hdr := clearBytes plain.length iv
  let input := key :: iv :: hdr ++ plain
  hdr ++ leBytes plain.length (Config.secure 1 input) ++ leBytes 16 (Config.secure 9 input)

/-- Checks of Table 7-7 for a TRAIN_CHECKPOINT. -/
def ckptChecks (s : State) (h : ReqHead) (r : TrainCkptRec) : Option (Nat × Nat) :=
  firstFail
    [ (r.resv && decide (r.slotBits < 16384), 0x30, 0x41),
      (h.handle == 0 && r.destAddr % 4096 == 0 && r.destBytes != 0 && decide (r.keyIndex ≤ 3) && r.resultAddr % 64 == 0, 0x30, 0x42),
      (keyUsable s h.ctx r.keyIndex false, 0x30, 0x4A),
      (trainSlotOk s h.ctx r.slotBits, 0x31, 0x04),
      (!jobBusy s r.slotBits, 0x10, 0x04),
      (jobLives s r.slotBits, 0x31, 0x04),
      (!rdb s .SERVE_CTRL_BACKLOG h.ctx, 0x10, 0x05),
      (((jobOf s r.slotBits).map (fun e => decide (80 + ckptBytes s e.2 ≤ r.destBytes))).getD false, 0x11, 0x06) ]

/-- TRAIN_CHECKPOINT (R245). -/
def execTrainCheckpoint (h : ReqHead) (r : TrainCkptRec) (s : State) : Host.Outcome State Fault Refusal :=
  settle s
    (match ckptChecks s h r with
    | some (c, d) => answer s h c d
    | none =>
      let bytes := 80 + ((jobOf s r.slotBits).map (fun e => ckptBytes s e.2)).getD 0
      let ns := transferNs bytes
      let u := planMove s ns
      accept u { newItem u h 0x14 with
        slot := some r.slotBits, deadline := moveEnd s u + 2000, data := [r.destAddr, r.keyIndex, r.resultAddr] })

/-- CHECKPOINT_WRITE_DONE (R245, R247): the image is at the host under the key's next export IV; the result block carries its
plaintext DIGEST. A key erased meanwhile leaves nothing to encrypt under, and the item ends ABORTED_TASK. -/
def execCheckpointWriteDone (t ctx idx : Nat) (s : State) : Host.Outcome State Fault Refusal :=
  let u := tick s t
  settle s
    (match itemAt u ctx idx with
    | none => u
    | some x =>
      if x.opcode ≠ 0x14 then u
      else
        match x.slot.bind (jobOf u), keyAt u ctx (x.data.getD 1 0) with
        | some (_, j), some k =>
          let plain := ckptPlain u j
          let iv := 0xFFFFFFFF * 2 ^ 64 + k.counter
          let u := updCtxs u fun c => { c with keys := storeInsert c.keys (ctx * 4 + x.data.getD 1 0) { k with counter := k.counter + 1 } }
          let u := hostOut u ctx (x.data.getD 0 0) (encrypted k.value iv plain)
          endMicro u x 1 0x07 (resultBlock 0 0 j.t 0 0 0 u.now (fieldAt plain 0x20 32))
        | _, _ => endItem u x 0x23 0)

/-! TRAIN_CLOSE (R246) -/

/-- Erase a job: masters, m, v and the workspace are zeroed and freed. -/
def eraseJob (s : State) (n : Nat) (j : Job) : State :=
  let s := updPann s fun p => { p with jobs := storeErase p.jobs n }
  let a := rd s .TRAIN_WS_BASE j.ws.1 + j.ws.2.1
  let s := updMem (zeroRange s (a * 4096) (j.ws.2.2 * 4096)) fun m => { m with
    poison := m.poison.filter (fun b => !(decide (a ≤ b) && decide (b < a + j.ws.2.2))) }
  wr s .TRAIN_JOBS_OPEN 0 s.pann.jobs.length

/-- Rows of n elements quantised to FP8 E4M3 with E8M0 scales in blocks of 32 along K (R76): elements, then scales. -/
def quantRows (width : Nat) (l : List Nat) : List Nat :=
  let rows := (List.range (l.length / max width 1)).map (fun i => (l.drop (i * width)).take width)
  let blocks := rows.map (fun r => (List.range (ceilDiv width 32)).map (fun b => ((r.drop (b * 32)).take 32).map (decodeF fFP32)))
  let coded := blocks.map (fun bs => bs.map (fun b => let sc := quantScale 1 1 b; (sc, b.map (quantElem 1 1 sc))))
  (coded.map (fun bs => (bs.map (·.2)).flatten)).flatten ++ (coded.map (fun bs => bs.map (·.1))).flatten

/-- The body of a serving copy of the masters in a format (R246, R219). -/
def servingBody (ts : List Target478) (fmt rank : Nat) : List Nat → List Nat
  | thetas =>
    if fmt = 8 then bf16Body (thetas.map bf16Of)
    else
      (ts.foldl (fun (acc : List Nat × List Nat) t =>
        let a := acc.2.take (rank * t.dIn)
        let b := (acc.2.drop (rank * t.dIn)).take (t.dOut * rank)
        (acc.1 ++ quantRows t.dIn a ++ quantRows rank b, acc.2.drop (rank * t.dIn + t.dOut * rank))) ([], thetas)).1

/-- Checks of Table 7-7 for a TRAIN_CLOSE. -/
def closeChecks (s : State) (h : ReqHead) (slotBits flags format : Nat) (resv : Bool) : Option (Nat × Nat) :=
  let pub := bitAt flags 0
  firstFail
    [ (resv && decide (slotBits < 16384) && decide (flags < 2), 0x30, 0x41),
      (h.handle == 0 && (if pub then format == 1 || format == 8 else format == 0), 0x30, 0x42),
      (trainSlotOk s h.ctx slotBits, 0x31, 0x04),
      (!jobBusy s slotBits, 0x10, 0x04),
      (jobLives s slotBits, 0x31, 0x04),
      (!rdb s .SERVE_CTRL_BACKLOG h.ctx, 0x10, 0x05) ]

/-- TRAIN_CLOSE (R246): with PUBLISH the entry is READY at the next flip, else the slot is released. -/
def execTrainClose (h : ReqHead) (slotBits flags format : Nat) (resv : Bool) (s : State) : Host.Outcome State Fault Refusal :=
  let pub := bitAt flags 0
  settle s
    (match closeChecks s h slotBits flags format resv with
    | some (c, d) => answer s h c d
    | none =>
      match jobOf s slotBits with
      | none => answer s h 0x31 0x04
      | some (n, j) =>
        let x : Item := { newItem s h 0x15 with slot := some slotBits }
        let old := activeEntry s slotBits
        if pub then
          match buildEntry s 2 h.ctx j.rank j.rc.model j.targetSet format j.alpha 0, modelAt s j.rc.model with
          | some e, some m =>
            let s := accept s { x with deadline := nextBoundary s + 2000 }
            let s := writeParts s e (servingBody (targetsOf m j.targetSet) format j.rank (j.elems.map (·.theta)))
            queueEdit (eraseJob (zeroParts s old) n j) slotBits e (some (h.ctx, h.idx, 1, 0x07))
          | _, _ => answer s h 0x11 0x06
        else
          let s := startRelease (eraseJob s n j) slotBits (some (h.ctx, h.idx)) false
          accept s { x with deadline := flipAfter s (nextBoundary s + zeroNs old) + 2000 })

end Sys2Proof.Machine
end

