-- ==== Sys2Proof/Machine/Pcie.lean ====
section
/-! DEFINITION. Commands of the host-interface family (R397 to R412, R432, R436): the PCI Express link and its functions,
PERST_N, the mailboxes, interrupt masks, and the filtered signals. -/

namespace Sys2Proof.Machine

/-! The link -/

/-- The PCIE_LINK register as it reads. -/
def pcieLinkValue (s : State) : Nat :=
  rd s .PCIE_LINK_WIDTH + 2 ^ 8 * rd s .PCIE_LINK_RATE + 2 ^ 11 * rd s .PCIE_LINK_FLIT + 2 ^ 12 * rd s .PCIE_LINK_UP
    + 2 ^ 13 * rd s .PCIE_LINK_DEGRADED

/-- The open items of the contexts that satisfy p end at the next step boundary, with ABORTED_TASK 0x06 (R401). -/
def abortAtBoundary (s : State) (p : Nat → Bool) : State :=
  let ids := (s.serve.items.filter (fun i => p i.ctx)).map (fun i => (i.ctx, i.idx))
  if ids.isEmpty then s
  else wantBoundary (updServe s fun v => { v with aborting := (v.aborting ++ ids).eraseDups })

/-- The link leaves DL_Up: intake stops, since no context reaches the host, and records spill (R401). -/
def leaveDlUp (s : State) : State :=
  let s := inc (wr s .PCIE_LINK_UP 0 0) .PCIE_LINK_DOWNS
  raiseModule (trail s vestTrail 0x45 0 1 (pcieLinkValue s)) .EVC_STATUS_LINK

/-- A width and a rate that the link has trained to; below 16 lanes or 128 GT/s a PCIE record follows, whose KIND and DATA
no table gives (R397). -/
def trainedTo (s : State) (width rate : Nat) : State :=
  let deg := decide (width < 16 ∨ rate < 7)
  let s := wrb (wr (wr s .PCIE_LINK_WIDTH 0 (width % 32)) .PCIE_LINK_RATE 0 (rate % 8)) .PCIE_LINK_DEGRADED 0 deg
  if deg then
    let (kind, s) := takeFree s 8
    report s kind 0 []
  else s

/-- The host can be written again for these contexts: spill drains (R209), and a BACKLOG that is still set counts its
100 ms from zero (R401). -/
def hostReturns (s : State) (cs : List Nat) : State :=
  each cs s fun t c =>
    let q := queueOf t c
    drainSpill (setQueue t c { q with backlogSince := q.backlogSince.map (fun _ => t.now) }) c

/-- PCIE_LINK_DOWN (R401). -/
def execPcieLinkDown (t : Nat) (s : State) : Host.Outcome State Fault Refusal :=
  let u := tick s t
  settle s (if rdb u .PCIE_LINK_UP then abortAtBoundary (leaveDlUp u) (fun _ => true) else u)

/-- PCIE_LINK_UP (R401, R413): no link comes up while PERST_N is asserted, the module is without power or in RECOVERY. -/
def execPcieLinkUp (t width rate : Nat) (flit : Bool) (s : State) : Host.Outcome State Fault Refusal :=
  let u := tick s t
  settle s (if rdb u .PCIE_LINK_UP ∨ rdb u .EVC_INPUTS_PERST ∨ rdb u .BOOT_STATUS_RECOVERY ∨ rd u .BOOT_STATUS_PHASE < 3 ∨ rd u .LP_STATUS_STATE = 4 then u
    else
      let u := wrb (wr u .PCIE_LINK_UP 0 1) .PCIE_LINK_FLIT 0 flit
      let u := trainedTo u width rate
      let u := raiseModule (trail u vestTrail 0x45 0 2 (pcieLinkValue u)) .EVC_STATUS_LINK
      let u := if u.boot.wakeN then emit (updBoot u fun b => { b with wakeN := false }) (.wakeN false) else u
      hostReturns u (List.range 64))

/-- PCIE_LINK_RETRAIN (R397). -/
def execPcieLinkRetrain (t width rate : Nat) (s : State) : Host.Outcome State Fault Refusal :=
  let u := tick s t
  settle s (if rdb u .PCIE_LINK_UP then raiseModule (trainedTo u width rate) .EVC_STATUS_LINK else u)

/-! Host reads (R400) -/

/-- A host read that an item needs has failed: nothing read before is used, and the item ends ABORTED_TASK, a prompt
with detail 0x01 (R197), any other read with 0x05. -/
def itemReadFailed (s : State) (x : Item) : State :=
  if x.opcode = 0x01 then endItem s x 0x23 0x01
  else if x.opcode = 0x05 then
    match modelAt s x.model with
    | some m => failLoad s x.model m 0x23 0x05 0
    | none => endItem s x 0x23 0x05
  else if x.opcode = 0x10 ∨ x.opcode = 0x12 then
    match x.slot with
    | some slot =>
      if x.stop ≠ 0 then s
      else
        if x.opcode = 0x10 then finishLoad s x slot none false [] else finishOpen s x slot none false []
    | none => s
  else endItem s x 0x23 0x05

/-- HOST_READ_FAILURE (R400, R193). -/
def execHostReadFailure (t : Nat) (what : HostRead) (timeout : Bool) (s : State) : Host.Outcome State Fault Refusal :=
  let u := tick s t
  let u := if timeout then inc u .PCIE_CPL_TIMEOUT else u
  settle s
    (match what with
    | .control c => readFailed u c
    | .item c i => match itemAt u c i with | some x => itemReadFailed u x | none => u)

/-! Functions (R402) -/

/-- VF_FLR (Table 14-2). -/
def execVfFlr (t n : Nat) (s : State) : Host.Outcome State Fault Refusal :=
  settle s (startTeardown (tick s t) n 3)

/-- PF_FLR (Table 14-2, R434). -/
def execPfFlr (t : Nat) (s : State) : Host.Outcome State Fault Refusal :=
  settle s (warmReset (tick s t) 3)

/-- Contexts 1 to 63 are torn down with cause 3. -/
def tearAll (s : State) : State := each ((List.range 64).drop 1) s fun t c => startTeardown t c 3

/-- VF_ENABLE_CLEARED (Table 14-2). -/
def execVfEnableCleared (t : Nat) (s : State) : Host.Outcome State Fault Refusal :=
  settle s (tearAll (tick s t))

/-- BUS_MASTER_DISABLE: the host clears Bus Master Enable of a function, or with `en` sets it again (Table 14-2). -/
def execBusMasterDisable (t f : Nat) (en : Bool) (s : State) : Host.Outcome State Fault Refusal :=
  let u := tick s t
  let gone := u.ctxs.noMaster.filter (· != f)
  settle s (if 64 ≤ f then u
    else if en then drainSpill (updCtxs u fun x => { x with noMaster := gone }) f
    else updCtxs u fun x => { x with noMaster := gone ++ [f] })

/-- MEMORY_SPACE_DISABLE: the host clears Memory Space Enable of a function, or with `en` sets it again (Table 14-2). -/
def execMemorySpaceDisable (t f : Nat) (en : Bool) (s : State) : Host.Outcome State Fault Refusal :=
  let u := tick s t
  let gone := u.ctxs.noMemory.filter (· != f)
  settle s (if 64 ≤ f then u else updCtxs u fun x => { x with noMemory := if en then gone else gone ++ [f] })

/-! PERST_N -/

/-- The endpoint and its configuration space are reset: masks are set again, nothing is pending, and the streams' keys and
the mailbox's session are gone. -/
def resetEndpoint (s : State) : State :=
  let s := wrAll (wrAll s .CTX_STATE_IDE_READY (List.range 64) 0) .CTXWIN_INFO_IDE_READY (List.range 64) 0
  let s := updMgt s fun m => { m with ide := [], spdm := 0 }
  updRep (updCtxs s fun x => { x with noMaster := [], noMemory := [] }) fun r => { r with msixMask := [], msixPending := [], fnMask := [] }

/-- PERST_ASSERT (R436): outside KICKSTAND, the effects of R401 for context 0 and teardown of contexts 1 to 63; in
KICKSTAND it is expected and tears nothing down. -/
def execPerstAssert (t : Nat) (s : State) : Host.Outcome State Fault Refusal :=
  let u := tick s t
  let n := u.serve.items.length
  settle s (if rdb u .EVC_INPUTS_PERST then u
    else
      let u := wr u .EVC_INPUTS_PERST 0 1
      if u.boot.failing ∨ rd u .LP_STATUS_STATE = 4 then u
      else
        let u := if rdb u .PCIE_LINK_UP then leaveDlUp u else u
        let u := tearAll (abortAtBoundary (resetEndpoint u) (· == 0))
        let u := report (wr u .RESET_STATUS_LAST_KIND 0 3) 0x21 0 [(1, 3, false), (1, 1, false), (2, 0, false), (4, n, false)]
        logEntry u 4 0 0 0)

/-- PERST_DEASSERT (R432, R441): 100 ms after the input reached 54 V at the earliest; in KICKSTAND it starts an exit. -/
def execPerstDeassert (t : Nat) (s : State) : Host.Outcome State Fault Refusal :=
  let u := tick s (max t (s.boot.coldAt + 100000000))
  settle s (if rdb u .EVC_INPUTS_PERST then
      let u := wr u .EVC_INPUTS_PERST 0 0
      if rd u .LP_STATUS_STATE = 4 then startExit u 5 else u
    else u)

/-! Windows -/

/-- CTXWIN_CADENCE_READ (R404): 64 bits at once, or the low word, which latches the high word, or the high word. With
Memory Space Enable cleared the access completes without data (R402). -/
def execCtxwinCadenceRead (t c width : Nat) (high : Bool) (s : State) : Host.Outcome State Fault Refusal :=
  let u := tick s t
  settle s (if 64 ≤ c ∨ c ∈ u.ctxs.noMemory then u
    else if width = 8 then emit u (.readData (u.now % 2 ^ 64))
    else if high then
      let v := storeGet (u.now / 2 ^ 32 % 2 ^ 32) u.ctxs.latched c
      emit (updCtxs u fun x => { x with latched := storeErase x.latched c }) (.readData v)
    else
      let u := updCtxs u fun x => { x with latched := storeInsert x.latched c (u.now / 2 ^ 32 % 2 ^ 32) }
      emit u (.readData (u.now % 2 ^ 32)))

/-- Copy 256 bytes of the mailbox buffers. -/
def copyBox (m : Store Nat) (from_ to_ : Nat) : Store Nat :=
  (List.range 256).foldl (fun b i => storePut 0 b (to_ + i) (storeGet 0 m (from_ + i))) m

/-- The instances of MBX_CTRL of the two sides of a mailbox: the virtual function's and the PF's. -/
def mbxSide (c : Nat) (pf : Bool) : Nat := 2 * c + b2n pf

/-- MBX_SEND: a write of SEND on one side of the mailbox of VF c (R405). -/
def execMbxSend (src : Src) (c : Nat) (pf : Bool) (s : State) : Host.Outcome State Fault Refusal :=
  let me := mbxSide c pf
  let other := mbxSide c (!pf)
  settle s (if c = 0 ∨ 64 ≤ c ∨ mayWrite s src .MBX_CTRL_OVERRUN me = false then s
    else if rdb s .MBX_CTRL_OUT_BUSY me then wr s .MBX_CTRL_OVERRUN me 1
    else
      let s := updCtxs s fun x => { x with
        mbox := if pf then copyBox x.mbox (c * 1024 + 0x300) (c * 1024) else copyBox x.mbox (c * 1024 + 0x100) (c * 1024 + 0x200) }
      let s := wr (wr s .MBX_CTRL_OUT_BUSY me 1) .MBX_CTRL_IN_FULL other 1
      if pf then sendMsix s c 1
      else deliver (wr s .EVC_MBX_PENDING 0 (rd s .EVC_MBX_PENDING ||| 2 ^ (c - 1))) .mbxVf)

/-- MBX_ACK: a write of ACK (R405). -/
def execMbxAck (src : Src) (c : Nat) (pf : Bool) (s : State) : Host.Outcome State Fault Refusal :=
  settle s (if c = 0 ∨ 64 ≤ c ∨ mayWrite s src .MBX_CTRL_OVERRUN (mbxSide c pf) = false then s
    else wr (wr s .MBX_CTRL_IN_FULL (mbxSide c pf) 0) .MBX_CTRL_OUT_BUSY (mbxSide c (!pf)) 0)

/-! Interrupts -/

/-- MODERATION_EXPIRY (R409). -/
def execModerationExpiry (t e : Nat) (s : State) : Host.Outcome State Fault Refusal :=
  let u := tick s t
  settle s
    (match (pfTarget u e).waiting with
    | src :: _ => if modPassed u e then sendPf u e src else u
    | [] => u)

/-- Entries of a function's MSI-X table (Table 14-1). -/
def msixEntries (fn : Nat) : Nat := if fn = 0 then 32 else 2

/-- MSIX_MASK: the host sets the Mask bit of an entry, or with none the Function Mask (R412). -/
def execMsixMask (fn : Nat) (entry : Option Nat) (s : State) : Host.Outcome State Fault Refusal :=
  settle s (if 64 ≤ fn then s
    else match entry with
      | some e => if e < msixEntries fn then updRep s fun r => { r with msixMask := storePut true r.msixMask (msixKey fn e) true } else s
      | none => updRep s fun r => { r with fnMask := storePut false r.fnMask fn true })

/-- MSIX_UNMASK (R412): each entry that is pending and no longer masked sends one message, and a source that waited for a
target delivers (R408). -/
def execMsixUnmask (fn : Nat) (entry : Option Nat) (s : State) : Host.Outcome State Fault Refusal :=
  settle s (if 64 ≤ fn then s
    else
      let s := match entry with
        | some e => if e < msixEntries fn then updRep s fun r => { r with msixMask := storePut true r.msixMask (msixKey fn e) false } else s
        | none => updRep s fun r => { r with fnMask := storePut false r.fnMask fn false }
      let s := each (List.range (msixEntries fn)) s fun t e =>
        if storeGet false t.rep.msixPending (msixKey fn e) && !msixMasked t fn e then
          emit (updRep t fun r => { r with msixPending := storePut false r.msixPending (msixKey fn e) false }) (.msix ⟨fn, e⟩)
        else t
      deliverPending s)

/-! Signals (R406) -/

/-- SLOT_ID_SAMPLE: once, after 10 ms without change. -/
def execSlotIdSample (t v : Nat) (s : State) : Host.Outcome State Fault Refusal :=
  let u := tick s t
  settle s (if u.boot.slotSampled then u
    else wr (updBoot u fun b => { b with slotSampled := true }) .EVC_INPUTS_SLOT_ID 0 (v % 64))

/-- SLOT_ID_CHANGE: ignored and recorded; no table gives the record's KIND and DATA. -/
def execSlotIdChange (t v : Nat) (s : State) : Host.Outcome State Fault Refusal :=
  let u := tick s t
  settle s (if u.boot.slotSampled ∧ v % 64 ≠ rd u .EVC_INPUTS_SLOT_ID then
      let (kind, u) := takeFree u 8
      report u kind 0 []
    else u)

/-- INPUT_GLITCH. -/
def execInputGlitch (t : Nat) (s : State) : Host.Outcome State Fault Refusal :=
  settle s (inc (tick s t) .EVC_GLITCHES)

/-- DOE_DISCOVERY (R397): the PF's mailbox lists, by index, its data object protocols as the PCI Special Interest Group
numbers them: 0 Discovery, 1 CMA/SPDM, 2 Secured CMA/SPDM; each answer names the next index, 0 after the last. -/
def execDoeDiscovery (index : Nat) (s : State) : Host.Outcome State Fault Refusal :=
  settle s (if rdb s .PCIE_LINK_UP ∧ index < 3 then emit s (.answer 4 index 0 [1, index, (index + 1) % 3]) else s)

end Sys2Proof.Machine
end

