-- ==== Sys2Proof/Machine/Power.lean ====
section
/-! DEFINITION. Power: gears and what forces them, alerts and storms, the estimator, the limiter, caps and meters,
thermal levels, rail faults and the input (R312 to R335, R445, R464 to R466). -/

namespace Sys2Proof.Machine

/-! Gears and ceilings -/

/-- The wings that the alert of a rail acts on (Table 11-1). -/
def railWings (rail : Nat) : List Nat := if 3 ≤ rail ∧ rail ≤ 18 then [(rail - 3) % 4] else [0, 1, 2, 3]

/-- The hub core supply V_g of a gear in mV, and the VCORE setpoint (R314). -/
def gearMv (g : Nat) : Nat := [560, 600, 630, 670, 710, 750, 800, 860].getD g 860
def vcoreMv (g : Nat) : Nat := gearMv g + 30

/-- Whether an alert line or a thermal ALARM that acts on a wing is asserted. -/
def alerted (s : State) (w : Nat) : Bool := s.pwr.alerts.any (fun a => a.ended.isNone && decide (w ∈ a.wings))

/-- Whether an alert keeps a wing at G0: the assertion, its hold, or the slew back (R323). -/
def forcedG0 (s : State) (w : Nat) : Bool := alerted s w || (storeFind s.pwr.holdEnd w).isSome

/-- The gear in effect is the lowest that any event demands (R323). -/
def settleGear (s : State) (w : Nat) : State :=
  let f := forcedG0 s w
  let g :=
    if f || !s.pwr.railForced.isEmpty || decide (w ∈ s.pwr.tripped) then 0
    else if rdb s .DRL_GEAR_THROTTLED w then min (rd s .DRL_GEAR_PLANNED w) (rd s .PWR_CONFIG_THROTTLE_GEAR)
    else rd s .DRL_GEAR_PLANNED w
  let mv := if f && !decide (w ∈ s.pwr.slewed) then rd s .DRL_VCORE_MILLIVOLTS w else vcoreMv g
  wr (wr (wrb s .DRL_GEAR_FORCED w f) .DRL_GEAR_CURRENT w g) .DRL_VCORE_MILLIVOLTS w mv

def settleGears (s : State) : State := each (List.range 4) s settleGear

/-- GEAR_CEILING, which is treated as G4 without a THERMAL section (Table 15-4). -/
def gearCeiling (s : State) : Nat :=
  match s.boot.shadow with
  | some i => if i.thermal then rd s .PWR_CONFIG_GEAR_CEILING else min 4 (rd s .PWR_CONFIG_GEAR_CEILING)
  | none => rd s .PWR_CONFIG_GEAR_CEILING

/-- The effective ceiling of a wing: GEAR_CEILING less the drops in force (R319, R322). -/
def ceilingNow (s : State) (w : Nat) : Nat :=
  gearCeiling s - ((if w ∈ s.pwr.estDrop then rd s .PWR_CONFIG_FALLBACK_DROP else 0)
    + b2n (storeFind s.pwr.stormEnd w).isSome + storeGet 0 s.pwr.warnDrop w + s.pwr.inletDrop)

/-- The effective ceilings follow the drops in force; a drop is kept while promises accepted before it may need more
(R322). -/
def setCeilings (s : State) : State :=
  let owed := !s.serve.items.isEmpty
  let t := each (List.range 4) s fun t w =>
    let c := ceilingNow t w
    wr (if owed && decide (c < rd t .DRL_GEAR_CEILING w) then wr t .DRL_GEAR_CEILING_PENDING w 1 else t) .DRL_GEAR_CEILING w c
  if owed && (List.range 4).any (fun w => decide (rd t .DRL_GEAR_CEILING w < rd s .DRL_GEAR_CEILING w)) then
    updPwr t fun p => { p with drops := p.drops ++ [(t.now, ceilings s)] }
  else t

/-- No promise accepted before a drop is left, so that it binds in full (R322). -/
def dropsBind (s : State) : State :=
  let by_ := (s.pwr.drops.map (·.1)).foldl max 0
  if s.pwr.drops.isEmpty || s.serve.items.any (fun i => decide (i.tA ≤ by_)) then s
  else wrAll (updPwr s fun p => { p with drops := [] }) .DRL_GEAR_CEILING_PENDING (List.range 4) 0

/-- The step p freezes with its number, its planned start and the gears chosen for it (R36, R319, R322); CEILING_PENDING stays
where a promise needs more than the ceiling. -/
def freezeStep (s : State) (p : PStep) (number start : Nat) : State :=
  let base := freezeGears s
  let owed := base != planGears s
  let gs := stepGears s base p
  let s := if owed then s else updPwr s fun p => { p with drops := [] }
  let s := each (List.range 4) s fun t w => wrb t .DRL_GEAR_CEILING_PENDING w (owed && rd t .DRL_GEAR_CEILING w < base.getD w 0)
  let slowed := rdb s .PWR_STATUS_THROTTLE_ACTIVE && (List.range 4).any (fun w => decide (gs.getD w 0 < rd s .DRL_GEAR_CEILING w))
  let hot := (List.range 4).filter (fun w => (List.range 3).any (fun i => decide (800 ≤ rd s .DRL_STACK_TEMP (w * 3 + i))))
  updTt s fun t => { t with frozen := t.frozen ++ [⟨number, gs, start, slowed, hot⟩] }

/-- A freeze sets every ceiling. While a WARN level holds on a wing or one of its stacks its drop grows by one gear at
each freeze; afterwards it shrinks by one (R328). The drop of a fallback ends at the freeze after it (Table 11-3). -/
def ceilingsAtFreeze (s : State) : State :=
  let s := updPwr s fun p => { p with estDrop := p.estDrop.filter (fun w => rd s .DRL_EST_STATE w == 2) }
  setCeilings (each (List.range 4) s fun t w =>
    let warn := t.pwr.levels.any (fun l => (l.1 == 1 && l.2.1 == w) || (l.1 == 2 && l.2.1 / 3 == w))
    let d := storeGet 0 t.pwr.warnDrop w
    let d' := if warn then min 7 (d + 1) else d - 1
    updPwr t fun p => { p with warnDrop := storePut 0 p.warnDrop w d' })

/-- A power trail entry of the Vestibule (Table 16-2). -/
def powerTrail (s : State) (unit gear : Nat) (throttle : Bool) : State :=
  trail s vestTrail 0x42 0 unit (gear + 256 * b2n throttle)

/-- A late cause bears on the running step. -/
def stepCause (s : State) (bit : Nat) : State :=
  if s.tt.run.running then updTt s fun t => { t with run := { t.run with causes := t.run.causes ||| bit } } else s

/-! Alerts -/

/-- A POWER_ALERT record (Table 11-6). -/
def alertRecord (s : State) (code : Nat) (wings : List Nat) (gear flags asserted atG0 : Nat) : State :=
  report s 0x10 code [(1, code, false), (1, (wings.map (fun w => 2 ^ w)).sum, false), (1, gear, false), (1, flags, false),
    (4, min asserted (maxOf 32), false), (4, min atG0 (maxOf 32), false)]

/-- Write the record of every assertion that has ended and whose wings have returned from G0 (R333). -/
def finishAlerts (s : State) : State :=
  let hasEnded := fun (a : AlertRun) => a.ended.isSome && a.wings.all (fun w => !forcedG0 s w)
  let done := s.pwr.alerts.filter hasEnded
  let s := updPwr s fun p => { p with alerts := p.alerts.filter (fun a => !hasEnded a) }
  each done s fun t a => alertRecord t a.code a.wings a.gear (a.flags % 4) (a.ended.getD 0 - a.start) (slotCeil t.now - a.g0)

/-- A wing's count of assertions within 100 ms; the fourth is a storm (R326), after which four more make the next. -/
def stormCheck (s : State) (code w : Nat) : State :=
  let l := (s.pwr.asserts.filter (fun e => e.1 == w && decide (s.now < e.2 + 100000000))).map (·.2) ++ [s.now]
  let storm := decide (4 ≤ l.length)
  let keep := s.pwr.asserts.filter (fun e => e.1 != w)
  let s := updPwr s fun p => { p with asserts := keep ++ (if storm then [] else l.map (fun x => (w, x))) }
  if storm then
    let s := updPwr s fun p => { p with stormEnd := storeInsert p.stormEnd w (s.now + 1000000000) }
    setCeilings (alertRecord s code [w] (rd s .DRL_GEAR_CURRENT w) 4 0 0)
  else s

/-- An alert line, or a thermal ALARM treated as one, is asserted (R323, R325, R328): its wings go to G0 within 500 ns,
the limiter's duty becomes 0 and the running step counts as one with an alert (R62). -/
def alertOn (s : State) (src code : Nat) (wings : List Nat) (delay : Nat) : State :=
  if s.pwr.alerts.any (fun a => a.src == src && a.ended.isNone) then s
  else
    let limiting := wings.any (fun w => storeGet 0 s.pwr.duty w != 0)
    let gear := ((wings.map (fun w => rd s .DRL_GEAR_CURRENT w)).min?).getD 0
    let a : AlertRun := ⟨src, code, wings, s.now, slotCeil s.now + min delay 480 / 40 * 40, none, gear, b2n (wings.any (lockedOn s)) + 2 * b2n limiting⟩
    let s := updPwr s fun p => { p with
      alerts := p.alerts ++ [a], duty := storeKeep (fun w => !decide (w ∈ wings)) p.duty
      high := storeKeep (fun w => !decide (w ∈ wings)) p.high, low := storeKeep (fun w => !decide (w ∈ wings)) p.low }
    let s := wr (wr (inc s .PWR_ALERT_COUNT) .PWR_STATUS_ALERT_ACTIVE 0 1) .PWR_STATUS_ALERT_SEEN 0 1
    let s := if code ≤ 20 then wr s .PWR_ALERT_MAP 0 (rd s .PWR_ALERT_MAP ||| 2 ^ code) else s
    let s := settleGears s
    let s := if s.tt.run.running then updTt s fun t => { t with run := { t.run with alertSeen := true } } else s
    let s := stepCause s 2
    let s := each wings (raiseModule s .EVC_STATUS_POWER) fun t w => stormCheck t code w
    let s := powerTrail s code 0 false
    if bitAt (rd s .DBG_CTRL_FREEZE_ON) 4 then freezeAll s 5 else s

/-- An alert ends: ALERT_HOLD starts for its wings on which no other alert acts (R323). -/
def alertOff (s : State) (src : Nat) : State :=
  match s.pwr.alerts.find? (fun a => a.src == src && a.ended.isNone) with
  | none => s
  | some a =>
    let s := updPwr s fun p => { p with alerts := p.alerts.map (fun x => if x = a then { x with ended := some s.now } else x) }
    let hold := s.now + rd s .PWR_CONFIG_ALERT_HOLD * 1000
    let s := each a.wings s fun t w => updPwr t fun p => { p with holdEnd := storeInsert p.holdEnd w (max hold ((storeFind p.holdEnd w).getD 0)) }
    let on := s.pwr.alerts.filter (fun x => x.ended.isNone)
    let m := ((on.filter (fun x => decide (x.code ≤ 20))).map (·.code)).eraseDups
    wr (wrb s .PWR_STATUS_ALERT_ACTIVE 0 (!on.isEmpty)) .PWR_ALERT_MAP 0 ((m.map (fun c => 2 ^ c)).sum)

/-- PWR_ALERT_ASSERT: `delay` is when, after the slot boundary that follows, the wings are at G0; an assertion of less than
40 ns does not pass the filter of the line (R323). -/
def execPwrAlertAssert (t rail delay width : Nat) (s : State) : Host.Outcome State Fault Refusal :=
  let u := tick s t
  settle s (if rail ≤ 20 ∧ 40 ≤ width then alertOn u rail rail (railWings rail) delay else u)

def execPwrAlertDeassert (t rail : Nat) (s : State) : Host.Outcome State Fault Refusal :=
  let u := tick s t
  settle s (if rail ≤ 20 then alertOff u rail else u)

/-- STORM_EXPIRY (R326): the drop of a storm ends with its second. -/
def execStormExpiry (t wing : Nat) (s : State) : Host.Outcome State Fault Refusal :=
  let u := tick s t
  settle s (match storeFind u.pwr.stormEnd wing with
    | some e => if e ≤ u.now then setCeilings (updPwr u fun p => { p with stormEnd := storeErase p.stormEnd wing }) else u
    | none => u)

/-- ALERT_HOLD_EXPIRY (R323, R325): the wing returns to its planned gear, unless a locked segment runs on it, which
defers the return; after a long hold an upshift slew of 10 mV/µs comes first (R315), from the voltage to which VCORE has
come down, V_G0 + 30 mV at the lowest. -/
def execAlertHoldExpiry (t wing mv : Nat) (s : State) : Host.Outcome State Fault Refusal :=
  let u := tick s t
  settle s (match storeFind u.pwr.holdEnd wing with
    | none => u
    | some e =>
      if u.now < e ∨ alerted u wing = true then u
      else if lockedOn u wing then
        if rdb u .DRL_GEAR_DEFERRED wing then u else inc (wr u .DRL_GEAR_DEFERRED wing 1) .DRL_DEFERRED_COUNT wing
      else if wing ∈ u.pwr.slewed then
        let g := rd u .DRL_GEAR_PLANNED wing
        updPwr u fun p => { p with
          slewed := p.slewed.filter (· != wing), holdEnd := storeInsert p.holdEnd wing (u.now + (vcoreMv g - max mv (vcoreMv 0)) * 100) }
      else
        let u := updPwr u fun p => { p with holdEnd := storeErase p.holdEnd wing }
        finishAlerts (powerTrail (settleGear (wr u .DRL_GEAR_DEFERRED wing 0) wing) (0x40 + wing) (rd u .DRL_GEAR_PLANNED wing) (rdb u .DRL_GEAR_THROTTLED wing)))

/-- ALERT_LONG_HOLD (R323): an alert held for 100 µs slews VCORE of its wings down to V_G0 + 30 mV. -/
def execAlertLongHold (t rail : Nat) (s : State) : Host.Outcome State Fault Refusal :=
  let u := tick s t
  settle s (match u.pwr.alerts.find? (fun a => a.src == rail && a.ended.isNone && decide (a.start + 100000 ≤ u.now)) with
    | none => u
    | some a => settleGears (updPwr u fun p => { p with slewed := (p.slewed ++ a.wings).eraseDups }))

/-- ALERT_ONGOING (R333): the record of an assertion that has lasted 1 s carries the times so far. -/
def execAlertOngoing (t rail : Nat) (s : State) : Host.Outcome State Fault Refusal :=
  let u := tick s t
  settle s (match u.pwr.alerts.find? (fun a => a.src == rail && a.ended.isNone && decide (a.start + 1000000000 ≤ u.now) && decide (a.flags < 16)) with
    | none => u
    | some a =>
      let u := alertRecord u a.code a.wings a.gear (a.flags % 4 + 8) (u.now - a.start) (u.now - a.g0)
      updPwr u fun p => { p with alerts := p.alerts.map (fun x => if x = a then { x with flags := x.flags + 16 } else x) })

/-! Throttle -/

/-- THROTTLE_ASSERT (R323): every wing above THROTTLE_GEAR switches to it. -/
def execThrottleAssert (t : Nat) (s : State) : Host.Outcome State Fault Refusal :=
  let u := tick s t
  settle s (if u.pwr.throttleAt.isSome then u
    else
      let g := rd u .PWR_CONFIG_THROTTLE_GEAR
      let ws := (List.range 4).filter (fun w => decide (g < rd u .DRL_GEAR_PLANNED w))
      let u := updPwr u fun p => { p with throttleAt := some u.now }
      let u := wr (wr (wr u .PWR_STATUS_THROTTLE_ACTIVE 0 1) .PWR_STATUS_THROTTLE_SEEN 0 1) .EVC_INPUTS_THROTTLE 0 1
      let u := settleGears (wrAll u .DRL_GEAR_THROTTLED ws 1)
      let u := if ws = [] then u else stepCause u 64
      each ws (raiseModule u .EVC_STATUS_POWER) fun x w => powerTrail x (0x40 + w) (rd x .DRL_GEAR_CURRENT w) true)

/-- THROTTLE_DEASSERT (R323, R333): gears return at the next step boundary; the THROTTLE record is written. -/
def execThrottleDeassert (t : Nat) (s : State) : Host.Outcome State Fault Refusal :=
  let u := tick s t
  settle s (match u.pwr.throttleAt with
    | none => u
    | some t0 =>
      let u := updPwr u fun p => { p with throttleAt := none }
      let u := wr (wr u .PWR_STATUS_THROTTLE_ACTIVE 0 0) .EVC_INPUTS_THROTTLE 0 0
      wantBoundary (report u 0x11 0 [(1, rd u .PWR_CONFIG_THROTTLE_GEAR, false), (4, min (u.now - t0) (maxOf 32), false)]))

/-- A step boundary after THROTTLE_IN_N has deasserted returns the gears to the plan (R323). -/
def throttleReturn (s : State) : State :=
  if s.pwr.throttleAt.isSome then s
  else
    let ws := (List.range 4).filter (fun w => rdb s .DRL_GEAR_THROTTLED w)
    each ws s fun t w => powerTrail (settleGear (wr t .DRL_GEAR_THROTTLED w 0) w) (0x40 + w) (rd t .DRL_GEAR_PLANNED w) false

/-! The estimator -/

/-- Units of energy in a fJ, in which E_est is a whole number: the squared voltage of G7 in mV, by 1,024 (R314, R316). -/
def energyUnit : Nat := 860 ^ 2 * 1024

/-- E_est of a wing's window (R316), a TRIMMED hub's cores at V_g + 20 mV (R314). -/
def estEnergy (s : State) (a : WingActivity) : Nat :=
  (a.cores.map fun c =>
    (gearMv c.gear + (if rd s .INTEG_HUB_STATE c.hub = 1 then 20 else 0)) ^ 2 * (1024 * c.eCycle * c.cycles + c.eMac * c.macs)).sum
    + energyUnit * ((a.flits.map (fun e => e.1 * e.2)).sum + (a.hbm.map (fun e => e.1 * e.2)).sum + a.leak)

/-- E_meas, given in µJ, in the units of E_est. -/
def measEnergy (uj : Nat) : Nat := uj * 10 ^ 9 * energyUnit

/-- A quotient whose rounding the spec does not state: the integer part, and one more by a free bit when inexact. -/
def freeQuot (s : State) (a b : Nat) : Nat × State :=
  if a % b = 0 then (a / b, s)
  else
    let (f, s) := takeFree s 1
    (a / b + f, s)

/-- k_w after a window: k_w + (E_meas ÷ E_est − k_w) ÷ 8, clamped to 0.5 to 2.0 (R316), in units of 2^−16. With no estimated
energy the quotient is not defined and the value is free. -/
def nextK (s : State) (k meas est : Nat) : Nat × State :=
  let (v, s) := if est = 0 then takeFree s 18 else freeQuot s (7 * k * est + meas * 65536) (8 * est)
  (max 0x8000 (min 0x20000 v), s)

/-- An ESTIMATOR record (Table 11-6). -/
def estimatorRecord (s : State) (w event : Nat) : State :=
  report s 0x12 w [(1, w, false), (1, event, false), (2, rd s .DRL_DISAGREE w, false), (4, rd s .DRL_K w, false)]

/-- The estimator becomes UNTRUSTED (R317, R318). -/
def untrust (s : State) (w : Nat) : State :=
  setCeilings (updPwr (estimatorRecord (wr s .DRL_EST_STATE w 2) w 2) fun p => { p with estDrop := (p.estDrop ++ [w]).eraseDups })

/-- The estimator's states (Table 11-3): `miss` is d > θ, `k` the value k_w is updated to. -/
def estimate (s : State) (w k : Nat) (miss : Bool) : State :=
  let n := rd s .DRL_EST_MISSES w
  if rd s .DRL_EST_STATE w = 2 then s
  else if !miss then wr (wr (wr s .DRL_K w k) .DRL_EST_STATE w 0) .DRL_EST_MISSES w 0
  else if n + 1 ≥ rd s .PWR_CONFIG_DISAGREE_WINDOWS then untrust (wr s .DRL_EST_MISSES w (n + 1)) w
  else
    let s := wr (wr (wr s .DRL_K w k) .DRL_EST_STATE w 1) .DRL_EST_MISSES w (n + 1)
    if n = 0 then estimatorRecord s w 1 else s

/-- A context's attributed energy reaches the attribution counter and its meters (R331). -/
def attribute331 (s : State) (c uj : Nat) : State :=
  let add := fun (t : State) (f : Fld) (n : Nat) => wr t f n ((rd t f n + uj) % 2 ^ 64)
  let s := add s .ENERGY_ATTRIB 0
  if windowCtx s = some c then updPwr s fun p => { p with windowEnergy := p.windowEnergy + uj }
  else each (List.range 8) s fun t m => if rdb t .PWR_METER_CTX_EN m && rd t .PWR_METER_CTX_CTX m == c then add t .PWR_METER_ENERGY m else t

/-- At an exclusive window's close its context's meters advance once, by the window's total (R331). -/
def closeMeters (s : State) (c : Nat) : State :=
  let uj := s.pwr.windowEnergy
  let s := updPwr s fun p => { p with windowEnergy := 0 }
  each (List.range 8) s fun t m =>
    if rdb t .PWR_METER_CTX_EN m && rd t .PWR_METER_CTX_CTX m == c then wr t .PWR_METER_ENERGY m ((rd t .PWR_METER_ENERGY m + uj) % 2 ^ 64) else t

/-- DERAILLEUR_WINDOW (R316, R317, R330, R331): `meas` is E_meas of the wing's window and `est` the activity counted in it, `input`
the energy that entered the module in it (given with one wing's window), `attrib` the calibrated energy of each context, in µJ. -/
def execDerailleurWindow (t wing meas : Nat) (est : WingActivity) (input : Option Nat) (attrib : List (Nat × Nat)) (s : State) : Host.Outcome State Fault Refusal :=
  let u := tick s t
  settle s (if 4 ≤ wing then u
    else
      let u := match input with
        | some e => wr (wr u .ENERGY_MODULE 0 ((rd u .ENERGY_MODULE + e) % 2 ^ 64)) .PWR_INPUT_W 0 (min (e / 1000) (maxOf 16))
        | none => u
      let u := each attrib u fun x a => attribute331 x a.1 a.2
      let k := rd u .DRL_K wing
      let est := estEnergy u est
      let meas := measEnergy meas
      let diff := if meas * 65536 ≤ k * est then k * est - meas * 65536 else meas * 65536 - k * est
      let (d, u) := if meas = 0 then (if diff = 0 then takeFree u 10 else (1023, u)) else freeQuot u (1000 * diff) (meas * 65536)
      let u := wr u .DRL_DISAGREE wing (min d 1023)
      let (k', u) := nextK u k meas est
      estimate u wing k' (decide (rd u .PWR_CONFIG_DISAGREE_PCT * meas * 65536 < 100 * diff)))

/-- DRL_EST_CLEAR (Table 11-3): the ceiling rises at the next freeze. -/
def execDrlEstClear (src : Src) (t wing : Nat) (s : State) : Host.Outcome State Fault Refusal :=
  let u := tick s t
  settle s (if isMgmt s src = false ∨ 4 ≤ wing then s
    else if rd u .DRL_EST_STATE wing = 2 then
      let u := wr (wr (wr u .DRL_EST_STATE wing 0) .DRL_EST_MISSES wing 0) .DRL_K wing 0x10000
      estimatorRecord (updPwr u fun p => { p with noTelemetry := p.noTelemetry.filter (· != wing) }) wing 3
    else u)

/-! The limiter -/

/-- Whether the replays and charges of the running step have reached its reserve (R320). -/
def reserveGone (s : State) (w : Nat) : Bool :=
  s.tt.run.running && decide (s.tt.run.reserveNs * 4 ≤ s.tt.run.reserveUsed * 4 + storeGet 0 s.pwr.charge w)

/-- Charge a wing's step time in quarters of a ns; DRL_LIMIT_NS shows the whole ns. -/
def chargeLimiter (s : State) (w q : Nat) : State :=
  if s.tt.run.running then
    let c := storeGet 0 s.pwr.charge w
    let s := updPwr s fun p => { p with charge := storePut 0 p.charge w (c + q) }
    inc s .DRL_LIMIT_NS w ((c + q) / 4 - c / 4)
  else s

/-- A downshift request at a segment boundary (R321): it takes effect while the current is still above the cap and the
unused reserve covers the extra time of the step's remaining segments; else it lapses. -/
def segmentEnd (s : State) (w extra : Nat) (above : Bool) : State :=
  if w ∈ s.pwr.downReq then
    let left := s.tt.run.reserveNs * 4 - (s.tt.run.reserveUsed * 4 + storeGet 0 s.pwr.charge w)
    let s := updPwr s fun p => { p with downReq := p.downReq.filter (· != w) }
    let s := if forcedG0 s w then s else wr s .DRL_GEAR_DEFERRED w 0
    if above ∧ 4 * extra ≤ left ∧ 0 < rd s .DRL_GEAR_PLANNED w then
      settleGear (chargeLimiter (wr s .DRL_GEAR_PLANNED w (rd s .DRL_GEAR_PLANNED w - 1)) w (4 * extra)) w
    else s
  else s

/-- LIMITER_SAMPLE (R320, R321): currents in A; `ends` says that a segment of the step ends at this sample, and `extra` is the time the step's remaining segments would need more one gear lower. -/
def execLimiterSample (t wing predicted measured : Nat) (ends : Bool) (extra : Nat) (s : State) : Host.Outcome State Fault Refusal :=
  let u := tick s t
  settle s (if 4 ≤ wing then u
    else
      let cur := if wing ∈ u.pwr.noTelemetry then predicted
        else if rd u .DRL_EST_STATE wing = 2 then measured else max predicted measured
      let cap := rd u .DRL_RAIL_CAP_AMPS wing
      let u := wr u .DRL_VCORE_AMPS wing (min measured 1023)
      let duty := storeGet 0 u.pwr.duty wing
      let low := if cur * 10 < cap * 9 then storeGet 0 u.pwr.low wing + 1 else 0
      let next := if forcedG0 u wing then 0 else if reserveGone u wing then 0
        else if cap < cur then min 7 (duty + 1) else if low = 4 then duty - 1 else duty
      let high := if 2 ≤ next then storeGet 0 u.pwr.high wing + 1 else 0
      let u := updPwr u fun p => { p with
        duty := storePut 0 p.duty wing next, low := storePut 0 p.low wing (low % 4), high := storePut 0 p.high wing (min high 80) }
      let u := chargeLimiter u wing (125 * next)
      let u := if high = 80 ∧ wing ∉ u.pwr.downReq then updPwr u fun p => { p with downReq := p.downReq ++ [wing] } else u
      let u := if lockedOn u wing = true ∧ wing ∈ u.pwr.downReq ∧ rdb u .DRL_GEAR_DEFERRED wing = false
        then inc (wr u .DRL_GEAR_DEFERRED wing 1) .DRL_DEFERRED_COUNT wing else u
      if ends = true ∧ lockedOn u wing = false then segmentEnd u wing extra (decide (cap < cur)) else u)

/-! Cap and meters -/

/-- A write of CAP_W (R324, R335); a value outside 1,000 to 3,300 W is ignored. -/
def writeCap (u : State) (value : Nat) : State :=
  let w := value % 4096
  if w < 1000 ∨ 3300 < w then u
  else
    let old := rd u .PWR_CAP_CAP_W
    let u := wr u .PWR_CAP_CAP_W 0 w
    let u := if w < old ∧ u.serve.items ≠ [] then wr u .PWR_CAP_CAP_PENDING 0 1 else u
    if w = old then u
    else raiseModule (report u 0x14 0 [(2, w, false), (2, old, false), (1, rd u .PWR_CAP_CAP_PENDING, false)]) .EVC_STATUS_POWER

/-- PWR_CAP_WRITE (R324, R335). -/
def execPwrCapWrite (src : Src) (t value : Nat) (s : State) : Host.Outcome State Fault Refusal :=
  settle s (if isMgmt s src then writeCap (tick s t) value else s)

/-- PWR_METER_WRITE (R331): a write of CTX or EN resets the meter. -/
def execPwrMeterWrite (src : Src) (t m value : Nat) (s : State) : Host.Outcome State Fault Refusal :=
  let u := tick s t
  settle s (if isMgmt s src = false ∨ 8 ≤ m then s
    else wr (wr (wr u .PWR_METER_CTX_CTX m (value % 64)) .PWR_METER_CTX_EN m (bitsOf value 7 7)) .PWR_METER_ENERGY m 0)

/-! Thermal levels -/

/-- The level of a sensor (Table 11-5): 0 none, 1 WARN, 2 ALARM, 3 TRIP, from the level before; a TRIP ends by warm reset
only. -/
def thermalLevel (kind old r : Nat) : Nat :=
  let pick := fun (warn warnEnd alarm alarmEnd trip : Nat) =>
    if old = 3 ∨ trip ≤ r then 3
    else if alarm ≤ r ∨ (old = 2 ∧ alarmEnd ≤ r) then 2
    else if warn ≠ 0 ∧ (warn ≤ r ∨ (1 ≤ old ∧ warnEnd ≤ r)) then 1 else 0
  if kind = 1 then pick 950 900 1050 1000 1150 else if kind = 2 then pick 900 850 950 900 1000 else pick 0 0 1050 1000 1150

/-- A THERMAL record (Table 11-6); the MODULE interrupt reports the level. -/
def thermalRecord (s : State) (kind idx level r : Nat) : State :=
  raiseModule (report s 0x13 0 [(1, kind, false), (1, idx, false), (1, level, false), (2, r, false)]) .EVC_STATUS_POWER

/-- Whether an item needs one of some wings: its model has cards or weights on it, or its session's pages lie there. -/
def needsWings (s : State) (wings : List Nat) (x : Item) : Bool :=
  (match modelAt s x.model with
    | some m => wings.any (fun w => m.cards.any (fun c => decide (w ∈ cardWings m c.cardId)) || (m.weightRows.getD w (0, 0)).2 != 0)
    | none => false)
  || (match x.sess.bind (rootAt s) with | some r => decide (r.wing ∈ wings) | none => false)

/-- A TRIP (R329): the wings lose their supplies, every context with an open item that needs them is torn down, and such items of
context 0, which is never torn down, end ABORTED_CONTEXT. -/
def trip (s : State) (wings : List Nat) : State :=
  let needy := s.serve.items.filter (needsWings s wings)
  let cs := (needy.map (·.ctx)).eraseDups
  let s := updPwr s fun p => { p with tripped := (p.tripped ++ wings).eraseDups }
  let s := settleGears s
  each cs s fun t c => if c = 0 then endItems (stopCommands t 0) (fun i => i.ctx == 0 && needsWings s wings i) 0x24 0 else startTeardown t c 2

/-- A sensor's reading moves its level. -/
def setLevel (s : State) (kind idx r : Nat) (wings : List Nat) (code : Nat) : State :=
  let old := ((s.pwr.levels.find? (fun l => l.1 == kind && l.2.1 == idx)).map (·.2.2)).getD 0
  let new := thermalLevel kind old r
  if new = old then s
  else
    let keep := s.pwr.levels.filter (fun l => !(l.1 == kind && l.2.1 == idx))
    let s := updPwr s fun p => { p with levels := keep ++ (if new = 0 then [] else [(kind, idx, new)]) }
    let s := thermalRecord s kind idx (if new = 0 then 5 else new) r
    let src := 100 * kind + idx
    let s := if new = 2 then alertOn s src code wings 0 else if old = 2 then alertOff s src else s
    if new = 3 then trip s wings else s

/-- The hottest hub sensor of a wing (R328). -/
def wingReading (s : State) (w : Nat) : Nat := ((List.range 40).map (fun i => rd s .HUB_PWR_TEMP (w * 40 + i))).foldl max 0

/-- THERMAL_LEVEL (R328, Table 11-5), with a reading in 0.1 °C. -/
def execThermalLevel (t : Nat) (sensor : ThermalSensor) (reading : Nat) (s : State) : Host.Outcome State Fault Refusal :=
  let u := tick s t
  let r := min reading 4095
  settle s (match sensor with
    | .hub h =>
      if 160 ≤ h then u
      else
        let w := h / 40
        let u := wr u .HUB_PWR_TEMP h r
        let m := wingReading u w
        setLevel (wr u .DRL_TEMP w m) 1 w m [w] (0x40 + w)
    | .stack n =>
      if 12 ≤ n then u else setLevel (wr u .DRL_STACK_TEMP n r) 2 n r [n / 3] (0x40 + n / 3)
    | .inlet =>
      let before := u.pwr.levels.any (fun l => l.1 == 3)
      let high := decide (450 ≤ r)
      let u := wrb (wr u .PWR_INLET 0 r) .PWR_STATUS_INLET_HIGH 0 (decide (450 < r))
      let keep := u.pwr.levels.filter (fun l => l.1 != 3)
      let u := updPwr u fun p => { p with inletDrop := (r - 450) / 20, levels := keep ++ (if high then [(3, 0, 4)] else []) }
      setCeilings (if before = high then u else thermalRecord u 3 0 (if high then 4 else 5) r)
    | .vestibule => setLevel (updPwr u fun p => { p with vestTemp := r }) 4 0 r [0, 1, 2, 3] 19)

/-! Rails and the input -/

/-- The wing's hubs are handled as failed (R302, R334). -/
def wingFails (s : State) (w : Nat) : State :=
  let s := updPwr s fun p => { p with wingsOut := (p.wingsOut ++ [w]).eraseDups }
  let s := each (List.range 40) s fun t i => hubFailed t (w * 40 + i)
  if rd s .INTEG_LEAD_LEAD_WING = w then leadFails s else s

/-- RAIL_FAULT (R334): VCORE, VHALL and VSRAM take their wing out, VHBM fails its stacks (`room`: whether the wing can
lay out its models again), IBC_A, IBC_B, VVEST and VSPOKE force every wing to G0; lost telemetry makes a wing's estimator
UNTRUSTED. -/
def execRailFault (t rail kind : Nat) (room : Bool) (s : State) : Host.Outcome State Fault Refusal :=
  let u := tick s t
  settle s (if 20 < rail ∨ kind = 0 ∨ 4 < kind then u
    else
      let u := report u 0x15 0 [(1, rail, false), (1, kind, false)]
      let w := (rail - 3) % 4
      let wingRail := decide (3 ≤ rail ∧ rail ≤ 18)
      if kind = 4 then
        if wingRail then untrust (updPwr u fun p => { p with noTelemetry := (p.noTelemetry ++ [w]).eraseDups }) w else u
      else if rail = 0 then u
      else if 15 ≤ rail ∧ rail ≤ 18 then each [0, 1, 2] u fun x i => stackFails x (w * 3 + i) room
      else if wingRail then wingFails u w
      else settleGears (updPwr u fun p => { p with railForced := (p.railForced ++ [rail]).eraseDups }))

/-- An INPUT record (Table 11-6). -/
def inputRecord (s : State) (kind : Nat) : State :=
  report s 0x16 0 [(2, rd s .PWR_INPUT_VOLTS / 10, false), (2, rd s .PWR_INPUT_AMPS / 10, false), (1, kind, false)]

/-- The band of an input voltage in 10 mV units (Table 17-3), from the band before: a threshold passed away from normal
operation counts at its value, and on the way back 0.5 V beyond it. -/
def inputBand (old v : Nat) : Nat :=
  let above := fun (t b : Nat) => if b ≤ old then decide (t ≤ v) else decide (t + 50 ≤ v)
  let past := fun (t b : Nat) => if b ≤ old then decide (t - 50 ≤ v) else decide (t < v)
  if past 7000 5 then 5 else if past 6600 4 then 4 else if above 5400 3 then 3 else if above 4800 2 then 2 else if above 4600 1 then 1 else 0

/-- HOTSWAP turns off: every rail but the Porch's falls (R464, R465); the module runs again from the next cold start. -/
def hotswapOff (s : State) : State :=
  let s := updPwr s fun p => { p with hotswapOff := some s.now }
  wr (wr s .PCIE_LINK_UP 0 0) .BOOT_STATUS_PHASE 0 0

/-- INPUT_VOLTAGE_BAND (R464): volts in 10 mV and amps in 10 mA units. The power fail that the fall through 48 V starts is
POWER_FAIL. -/
def execInputVoltageBand (t volts amps : Nat) (s : State) : Host.Outcome State Fault Refusal :=
  let u := tick s t
  let old := u.pwr.band
  let new := inputBand old volts
  let u := wr (wr u .PWR_INPUT_VOLTS 0 (min volts (maxOf 16))) .PWR_INPUT_AMPS 0 (min amps (maxOf 16))
  let u := updPwr u fun p => { p with band := new }
  settle s (if new = old then u
    else if new = 2 ∧ 3 ≤ old then inputRecord u 1
    else if new = 4 ∧ old < 4 then inputRecord u 2
    else if new = 5 then hotswapOff (inputRecord u 2)
    else if new = 0 then hotswapOff u
    else u)

/-- POWER_FAIL (R445, R446, R466): in the hold-up the writer writes the records waiting (at least 64 of them) and a
POWER_FAIL record, and HOTSWAP turns off. -/
def execPowerFail (t volts flushed : Nat) (s : State) : Host.Outcome State Fault Refusal :=
  let u := tick s t
  settle s (if u.boot.failing then u
    else
      let n := min u.rep.toWrite.length (max 64 flushed)
      let u := wr (updBoot u fun b => { b with failing := true }) .PWR_INPUT_VOLTS 0 (min volts (maxOf 16))
      let done := u.rep.toWrite.take n
      let u := report u 0x23 0 [(2, volts / 10, false), (4, n, false)]
      let last := u.rep.toWrite.drop (u.rep.toWrite.length - 1)
      let ring := u.rep.ring ++ done ++ last
      let u := updRep u fun r => { r with toWrite := [], ring := ring.drop (ring.length - 30720) }
      hotswapOff (logEntry u 7 0 0 0))

/-- HOTSWAP_LIMIT_TIMEOUT (R465): the 58 A limit has held for 10 ms. -/
def execHotswapLimitTimeout (t : Nat) (s : State) : Host.Outcome State Fault Refusal :=
  let u := tick s t
  settle s (if u.pwr.hotswapOff.isSome then u else hotswapOff (inputRecord u 3))

/-- SHORT_CIRCUIT (R465). -/
def execShortCircuit (t : Nat) (s : State) : Host.Outcome State Fault Refusal :=
  let u := tick s t
  settle s (if u.pwr.hotswapOff.isSome then u else hotswapOff u)

end Sys2Proof.Machine
end

