-- ==== Sys2Proof/Machine/Boot.lean ====
section
/-! DEFINITION. Commands of the start-up and reset family (R422 to R435, R444 to R447, R465): cold start, READY, the
Porch watchdog, hub resets and warm resets. -/

namespace Sys2Proof.Machine

/-! The selection record (R423) -/

def liveSelection (s : State) : Selection := s.boot.selection.headD ⟨0, 0, 2, 2, 0, 0, 0, 0⟩

/-- The other copy takes the change and the next generation (R307, R423). -/
def saveSelection (s : State) (f : Selection → Selection) : State :=
  let o := liveSelection s
  updBoot s fun b => { b with selection := { f o with generation := o.generation + 1 } :: b.selection.take 1 }

/-- State of image i: 0 INVALID, 1 PENDING, 2 CONFIRMED. -/
def imageState (s : State) (i : Nat) : Nat := if i = 0 then (liveSelection s).stateA else (liveSelection s).stateB

def setImageState (s : State) (i v : Nat) : State :=
  saveSelection s fun r => if i = 0 then { r with stateA := v } else { r with stateB := v }

def flashImage (s : State) (i : Nat) : FlashImage := s.boot.images.getD i defaultImage

/-- An IMAGE record (Table 15-13). -/
def imageRecord (s : State) (event i svn : Nat) : State :=
  report s 0x24 0 [(1, event, false), (1, i, false), (4, svn, false)]

def markInvalid (s : State) (i : Nat) : State := imageRecord (setImageState s i 0) 3 i (flashImage s i).fwSvn

/-- The first check of Table 15-5 that an image fails, 0 if none: what its bytes fail, `seen` what reading it found, and
the checks against the selection record. -/
def firstCheck (s : State) (i seen : Nat) : Nat :=
  let m := flashImage s i
  let r := liveSelection s
  let bad := [m.failCheck, seen, if m.rootKey < r.rootKey then 2 else 0, if m.fwSvn < r.minFw ∨ m.bpSvn < r.minBp then 4 else 0]
  ((bad.filter (· != 0)).min?).getD 0

/-- One turn of the loop of R428: the image to run, or none with the failing check. -/
def tryImage (s : State) (i seen : Nat) : Bool × Nat × State :=
  let go := fun (t : State) =>
    let c := firstCheck t i seen
    if c = 0 then (true, 0, t) else (false, c, markInvalid t i)
  if imageState s i = 0 then (false, 0, s)
  else if imageState s i = 1 then
    (if (liveSelection s).tries = 0 then (false, 0, markInvalid s i)
     else go (saveSelection s fun r => { r with tries := r.tries - 1 }))
  else go s

/-! Settings (R426) -/

/-- Bits of a field under a mask over the 32 bits from byte o. -/
def maskBits (r : FieldRow) (reg o value mask old : Nat) : Nat :=
  ((List.range (r.hi + 1 - r.lo)).map (fun i =>
    let bit := reg * 8 + r.lo + i
    let at_ := bit - o * 8
    let b := if o * 8 ≤ bit ∧ at_ < 32 ∧ bitAt mask at_ = true then bitAt value at_ else bitAt old i
    b2n b * 2 ^ i)).sum

/-- The Blueprint loader applies an entry to the fields whose source it is. -/
def applySetting (s : State) (e : Nat × Nat × Nat) : State :=
  each (allFlds.filter (fun f => (fieldRow f).writers.contains .blueprint)) s fun t f =>
    match pfBlock (fieldRow f).block e.1 with
    | none => t
    | some (b, o) =>
      each (instancesAt t f b o 4) t fun u n =>
        let v := maskBits (fieldRow f) n.2 o e.2.1 e.2.2 (rd u f n.1)
        if inRange (fieldRow f) v then wr u f n.1 v else u

def applySettings (s : State) (m : FlashImage) : State := m.settings.foldl applySetting s

/-! Restoration from the Cellar (R308) -/

/-- What a cold start restores from the Cellar: what R308 names, with a channel that is not RETIRED left OFFLINE until the
runtime admits it (Table 9-5), the lifetime events, the hubs that Pantry errors took out of placement, and the lead. -/
def restoreCellar (s : State) : State :=
  let r := liveRetirement s
  let s := each ((List.range 384).filter (fun c => recordedChan s c == 2)) (restoreRetired s) fun t c => wr t .HBM_CH_STATE_STATE c 2
  let s := updCore s fun c => { c with
    lifetime := r.cores.foldl (fun m e => storePut 0 m e.1 (e.2 / 256)) c.lifetime
    pantryErrs := (r.hubs.filter (fun e => decide (4 ≤ e.2))).foldl (fun m e => storePut [] m e.1 [0, 0, 0, 0]) c.pantryErrs }
  wr (wr s .INTEG_LEAD_LEAD_WING 0 r.lead) .INTEG_LEAD_SHADOW_WING 0 r.shadow

/-- The runtime admits the OFFLINE channels to the plan (Table 9-5). DESIGN CHOICE (log 65): with the event that reports READY,
so that management can repair a row before it (R279). -/
def admitChans (s : State) : State :=
  each ((List.range 384).filter (fun c => rd s .HBM_CH_STATE_STATE c == 3)) s fun t c => wr t .HBM_CH_STATE_STATE c 0

/-! Cold start -/

/-- What a cold start keeps: the Cellar, the flash, and the model's own counters and outputs (R444). -/
def coldState (s : State) : State :=
  let z : State := { State.reset with freeNext := s.freeNext, pending := s.pending }
  let z := updRep z fun r => { r with
    ring := s.rep.ring, retirement := s.rep.retirement, retireLive := s.rep.retireLive, repairs := s.rep.repairs
    log := s.rep.log, outs := s.rep.outs }
  let z := updBoot z fun b => { b with images := s.boot.images, selection := s.boot.selection }
  let z := wr (wr z .CELLAR_NEXT_SEQ 0 (rd s .CELLAR_NEXT_SEQ)) .BOOT_COUNT 0 (satAdd 32 (rd s .BOOT_COUNT) 1)
  wr z .RESET_STATUS_LAST_KIND 0 (if s.boot.watchdog then 5 else 4)

/-- No image passes (R433). -/
def enterRecovery (s : State) (code : Nat) : State :=
  let s := wr (wr (wr s .BOOT_STATUS_PHASE 0 1) .BOOT_STATUS_RECOVERY 0 1) .BOOT_STATUS_FAIL_CHECK 0 code
  let (image, s) := takeFree s 8
  let (fw, s) := takeFree s 32
  let (bp, s) := takeFree s 32
  let (ms, s) := takeFree s 32
  let s := report (updBoot s fun b => { b with bootResult := 3 }) 0x20 0
    [(1, image, false), (1, 3, false), (1, code, false), (4, fw, false), (4, bp, false), (4, ms, false)]
  let (us, s) := takeFree s 32
  logEntry s (if rd s .RESET_STATUS_LAST_KIND = 5 then 8 else 1) 0 0 us

/-- The module starts from an image up to PHASE 7: settings and the Cellar's states are in force, cores that fail their
field tests and channels that fail training are handled (Table 15-6). -/
def startFrom (s : State) (i code : Nat) (fallback : Bool) (cores chans : List Nat) : State :=
  let m := flashImage s i
  let s := wr (wr (wr s .BOOT_STATUS_PHASE 0 7) .BOOT_STATUS_IMAGE 0 i) .BOOT_STATUS_ROOT_KEY 0 m.rootKey
  let s := wr (wrb s .BOOT_STATUS_FALLBACK 0 fallback) .BOOT_STATUS_FAIL_CHECK 0 code
  let s := updBoot s fun b => { b with shadow := some m, bootResult := if fallback then 2 else 1 }
  let s := restoreCellar (applySettings (wrb s .DBG_STATUS_TEST_MODE 0 m.testEnable) m)
  let s := each (chans.filter (fun c => decide (c < 384))) s fun t c => retireChan t c 1
  let s := each (cores.filter (fun k => decide (k < 10560))) s failedTest
  let s := settleGears (ceilingsAtFreeze s)
  if m.testEnable then debugRecord s 6 0 none none else s

/-- A cold start (R428, R431): the Cadence runs from 0. `seenA` and `seenB` are the first of the checks 0x01 to 0x09 that
reading each image makes fail. -/
def coldStart (s : State) (seenA seenB : Nat) (cores chans : List Nat) : State :=
  let before := if s.boot.watchdog then rd s .BOOT_STATUS_FAIL_CHECK else 0
  let s := coldState s
  let p := (liveSelection s).preferred
  let seen := fun (i : Nat) => if i = 0 then seenA else seenB
  let a := tryImage s p (seen p)
  if a.1 then startFrom a.2.2 p 0 false cores chans
  else
    let b := tryImage a.2.2 (1 - p) (seen (1 - p))
    if b.1 then startFrom b.2.2 (1 - p) (if a.2.1 = 0 then before else a.2.1) true cores chans
    else enterRecovery b.2.2 (if a.2.1 = 0 then b.2.1 else a.2.1)

/-- COLD_START: power goes and returns, or the Porch watchdog restarts the module (R431). -/
def execColdStart (seenA seenB : Nat) (cores chans : List Nat) (s : State) : Host.Outcome State Fault Refusal :=
  settle s (coldStart s seenA seenB cores chans)

/-- HOTSWAP_RESTART (R465): 1 s after HOTSWAP turned off by its current limit. -/
def execHotswapRestart (t seenA seenB : Nat) (cores chans : List Nat) (s : State) : Host.Outcome State Fault Refusal :=
  let u := tick s t
  settle s (match u.pwr.hotswapOff with
    | some a => if a + 1000000000 ≤ u.now then coldStart u seenA seenB cores chans else u
    | none => u)

/-- BOOT_READY (R429, R431, Table 15-13). -/
def execBootReady (t : Nat) (s : State) : Host.Outcome State Fault Refusal :=
  let u := tick s t
  settle s (if rd u .BOOT_STATUS_PHASE ≠ 7 then u
    else
      let i := rd u .BOOT_STATUS_IMAGE
      let m := flashImage u i
      let ns := u.now - u.boot.coldAt
      let u := wr (wr (admitChans u) .BOOT_STATUS_PHASE 0 8) .BOOT_MS 0 (min (ns / 1000000) (maxOf 16))
      let u := updBoot u fun b => { b with lastRecord := b.coldAt + ns }
      let u := report u 0x20 0 [(1, i, false), (1, u.boot.bootResult, false), (1, rd u .BOOT_STATUS_FAIL_CHECK, false),
        (4, m.fwSvn, false), (4, m.bpSvn, false), (4, ns / 1000000, false)]
      let u := logEntry u (if rd u .RESET_STATUS_LAST_KIND = 5 then 8 else 1) 0 0 (ns / 1000)
      if imageState u i = 1 then
        let r := liveSelection u
        let u := imageRecord (setImageState u i 2) 2 i m.fwSvn
        let u := saveSelection u fun r => { r with minFw := max r.minFw m.fwSvn, minBp := max r.minBp m.bpSvn }
        let u := if r.minFw < m.fwSvn then imageRecord u 4 i m.fwSvn else u
        if r.minBp < m.bpSvn then imageRecord u 4 i m.bpSvn else u
      else u)

/-- Waiting Cellar records are durable. -/
def flushCellar (s : State) : State :=
  let ring := s.rep.ring ++ s.rep.toWrite
  updRep s fun r => { r with toWrite := [], ring := ring.drop (ring.length - 30720) }

/-- BOOT_WATCHDOG (R428, R430, R431): check 0 says that READY was not reached within 10 s; 6 and 9 that a section read later
in the boot fails, which marks the image INVALID; 0x10 that both copies in the shadow fail. The Porch removes every rail,
and the next cold start is its watchdog restart. -/
def execBootWatchdog (t check : Nat) (s : State) : Host.Outcome State Fault Refusal :=
  let u := tick s t
  let booting := decide (1 ≤ rd u .BOOT_STATUS_PHASE ∧ rd u .BOOT_STATUS_PHASE < 8) && !rdb u .BOOT_STATUS_RECOVERY && u.boot.warm.isNone
  let due :=
    if check = 0 then booting && decide (u.boot.coldAt + 10000000000 ≤ u.now)
    else if check = 6 ∨ check = 9 then booting
    else decide (check = 0x10) && u.boot.shadow.isSome
  settle s (if due then
      let u := if check = 6 ∨ check = 9 then
          markInvalid (wr u .BOOT_STATUS_FAIL_CHECK 0 check) (rd u .BOOT_STATUS_IMAGE) else u
      let u := flushCellar u
      wr (wr (updBoot u fun b => { b with watchdog := true, warm := none, hubResets := [] }) .PCIE_LINK_UP 0 0) .BOOT_STATUS_PHASE 0 0
    else u)

/-! Hub resets -/

/-- RESET_CMD refused (R442). -/
def resetRejected (s : State) : State := wr s .RESET_STATUS_REJECTED 0 1

/-- HUB_RESET: RESET_CMD KIND 1 from the management context (R434, R442). -/
def execHubReset (src : Src) (t hub : Nat) (s : State) : Host.Outcome State Fault Refusal :=
  let u := tick s t
  settle s (if isMgmt s src = false then s
    else if rdb u .RESET_STATUS_BUSY ∨ 159 < hub then resetRejected u
    else beginHubReset u hub 2)

/-- Whether any reset is still in progress. -/
def settleBusy (s : State) : State :=
  wrb s .RESET_STATUS_BUSY 0 (s.boot.warm.isSome || !s.boot.hubResets.isEmpty)

/-- HUB_RESET_COMPLETE (R302, R434): 2 ms after the reset, once FT01 and FT07 have run on every core; `fails` are the
physical slots that failed one. The hub returns once every core that is not RETIRED passes. -/
def execHubResetComplete (t hub : Nat) (fails : List Nat) (s : State) : Host.Outcome State Fault Refusal :=
  settle s (match storeFind s.boot.hubResets hub with
    | none => tick s t
    | some v =>
      if v < 8 then tick s t
      else
        let start := v / 8 - 1
        let u := tick s (max t (start + 2000000))
        let ks := (fails.filter (fun p => decide (p < 66))).map (fun p => hub * 66 + p)
        let u := each ks u failedTest
        let pass := ks.all (fun k => coreState u k == 4)
        let u := if rd u .DBG_HUB_STATUS_STATE hub = 4 then wr u .DBG_HUB_STATUS_STATE hub (if pass then 0 else 2) else u
        let u := settleBusy (updBoot u fun b => { b with hubResets := storeErase b.hubResets hub })
        let u := if pass && !keptOut u hub then wr u .INTEG_HUB_OUT hub 0 else u
        logEntry u 2 (v % 8) hub ((u.now - start) / 1000))

/-! Warm resets -/

/-- The reading that a TRIP level's sensor had to fall below for its wings to return (R329, Table 11-5). -/
def tripOver (s : State) (l : Nat × Nat × Nat) : Bool :=
  if l.1 = 1 then decide (rd s .DRL_TEMP l.2.1 < 950) else if l.1 = 2 then decide (rd s .DRL_STACK_TEMP l.2.1 < 900) else true

/-- The wings a TRIP level holds down. -/
def tripWings (l : Nat × Nat × Nat) : List Nat :=
  if l.1 = 1 then [l.2.1] else if l.1 = 2 then [l.2.1 / 3] else [0, 1, 2, 3]

/-- TRIP levels whose reading has fallen end. -/
def endTrips (s : State) : State :=
  let keep := s.pwr.levels.filter (fun l => !(l.2.2 == 3 && tripOver s l))
  let down := (keep.filter (fun l => l.2.2 == 3)).flatMap tripWings
  updPwr s fun p => { p with levels := keep, tripped := p.tripped.filter (fun w => decide (w ∈ down)) }

/-- WARM_RESET: RESET_CMD KIND 2 from the management context (R434, R442); for the return of a tripped wing its trigger is
the one Table 15-7 lists fourth. -/
def execWarmReset (src : Src) (t : Nat) (s : State) : Host.Outcome State Fault Refusal :=
  let u := tick s t
  settle s (if isMgmt s src = false then s
    else if rdb u .RESET_STATUS_BUSY then resetRejected u
    else warmReset u (if (endTrips u).pwr.tripped.length < u.pwr.tripped.length then 4 else 1))

/-- WARM_RESET_COMPLETE (R435): every open item ends with detail 0x07, and intake resumes. `fails` are the cores that failed
FT01 or FT07. -/
def execWarmResetComplete (t : Nat) (fails : List Nat) (s : State) : Host.Outcome State Fault Refusal :=
  let u := tick s t
  settle s (match u.boot.warm with
    | none => u
    | some (trigger, start) =>
      let n := u.serve.items.length
      let u := restoreWings (endItems u (fun _ => true) 0x23 0x07)
      let u := each (fails.filter (fun k => decide (k < 10560))) u failedTest
      let u := endTrips (updPwr u fun p => { p with railForced := [], wingsOut := [] })
      let u := each (List.range 160) u fun v h =>
        let held := keptOut v h || decide (h ∈ v.core.halted) || decide (h / 40 ∈ v.pwr.tripped)
        wrb v .INTEG_HUB_OUT h held
      let u := settleBusy (updBoot u fun b => { b with warm := none, lastRecord := u.now })
      let u := wr (wr (updServe u fun v => { v with intakeStopped := false }) .BOOT_STATUS_PHASE 0 8) .LP_STATUS_STATE 0 1
      let u := resetRecord (settleGears (ceilingsAtFreeze u)) 2 trigger 0 n
      logEntry u 3 trigger 0 ((u.now - start) / 1000))

end Sys2Proof.Machine
end

