-- ==== Sys2Proof/Machine/LowPower.lean ====
section
/-! DEFINITION. Commands of the low-power family (R437 to R442): selection, entries, wake events and exits. -/

namespace Sys2Proof.Machine

/-! Selection (R438, R439) -/

/-- Entry and wake times of a state in ns, by its LP_STATUS.STATE code (Table 15-8). -/
def lpEntry (st : Nat) : Nat := if st = 2 then 20000 else if st = 3 then 1000000 else if st = 4 then 30000000 else 0
def lpWake (st : Nat) : Nat := if st = 2 then 150000 else if st = 3 then 6000000 else if st = 4 then 90000000 else 0

def lpMargin (s : State) : Nat := rd s .LP_CONFIG_MARGIN * 1000

/-- The known events: the expected resumes of IDLE sessions, less the unpark of a parked one, and LP_WAKE_REQ. -/
def knownEvents (s : State) : List Nat :=
  let ofSession := fun (e : Nat × Session) =>
    match e.2.st, e.2.resume, rootAt s e.1 with
    | .idle, some (some t), some r => some (if r.st = 3 then t - parkTime s r.layout r.form (committedPages r) else t)
    | .idle, some (some t), none => some t
    | _, _, _ => none
  s.serve.sessions.filterMap ofSession ++ (if rd s .LP_WAKE_REQ = 0 then [] else [rd s .LP_WAKE_REQ])

/-- What LP_NEXT_EVENT reads with no known event. -/
def noEvent : Nat := 2 ^ 64 - 1

/-- T_next; with no event it is unbounded. -/
def nextEvent (s : State) : Option Nat := (knownEvents s).min?

/-- Whether a park or unpark is planned or under way. -/
def parksMoving (s : State) : Bool := s.lard.roots.any (fun e => e.2.st == 2 || e.2.st == 4)

/-- Why R438 keeps the module in COAST, as LP_STATUS.BLOCKER; 0 if nothing does. `depends` is whether another module
depends on it under R360 or it holds a planned Spoke grant. -/
def lpBlocker (s : State) (depends : Bool) : Nat :=
  if !s.serve.items.isEmpty || s.tt.run.running || !s.tt.plan.isEmpty || parksMoving s || (windowCtx s).isSome then 1
  else if rdb s .LP_CTRL_HOLD then 2
  else if s.now < s.boot.lastRecord + rd s .LP_CONFIG_IDLE_MIN * 1000000 then 3
  else if depends then 5
  else 0

/-- The deepest state that the time to T_next allows. -/
def lpChoice (s : State) : Nat :=
  let fits := fun (st : Nat) => decide (st ≤ rd s .LP_CONFIG_CEILING + 1) &&
    (match nextEvent s with | some t => decide (s.now + lpEntry st + lpWake st + lpMargin s ≤ t) | none => true)
  ([4, 3, 2].find? fits).getD 1

/-- LP_IDLE_SELECT (R438, R439): the chosen state's entry starts, and LP_WAKE_AT takes the start of the planned exit. -/
def execLpIdleSelect (t : Nat) (depends : Bool) (s : State) : Host.Outcome State Fault Refusal :=
  let u := tick s t
  settle s (if rd u .LP_STATUS_STATE ≠ 1 ∨ rd u .BOOT_STATUS_PHASE ≠ 8 then u
    else
      let u := wr u .LP_NEXT_EVENT 0 ((nextEvent u).getD noEvent)
      let why := lpBlocker u depends
      let st := if why = 0 then lpChoice u else 1
      let u := wr (wr u .LP_STATUS_TARGET 0 st) .LP_STATUS_BLOCKER 0 (if why = 0 ∧ st = 1 then 4 else why)
      if st = 1 then u
      else
        let u := match nextEvent u with
          | some e => wr u .LP_WAKE_AT 0 (e - lpWake st - lpMargin u)
          | none => u
        updBoot (wr u .LP_STATUS_STATE 0 5) fun b => { b with lpTarget := st, lpReason := 1, lpSince := u.now, wakePending := false })

/-! Entries -/

/-- A LOWPOWER record (Table 15-13). -/
def lowPowerRecord (s : State) (from_ to_ reason us : Nat) : State :=
  report s 0x22 0 [(1, from_, false), (1, to_, false), (1, reason, false), (4, min us (maxOf 32), false), (8, rd s .LP_NEXT_EVENT, false)]

/-- A state has been entered from another; entry took since lpSince. -/
def entered (s : State) (from_ st : Nat) : State :=
  let us := (s.now - s.boot.lpSince) / 1000
  let s := inc (wr s .LP_STATUS_STATE 0 st) .LP_ENTRIES (st - 2)
  let s := trail (logEntry (lowPowerRecord s from_ st 1 us) 5 st 0 us) vestTrail 0x44 0 st 1
  updBoot s fun b => { b with lpSince := s.now }

/-- LP_ENTRY_COMPLETE (R437, R441, R442): DOZE loses the engines' working state; STOW powers the wings down, whose on-chip
contents and settings come back at the exit; KICKSTAND is entered through STOW. A wake event that came meanwhile starts the
exit at once. -/
def execLpEntryComplete (t : Nat) (s : State) : Host.Outcome State Fault Refusal :=
  let u := tick s t
  settle s (if rd u .LP_STATUS_STATE ≠ 5 then u
    else
      let target := u.boot.lpTarget
      let u := loseEngines u
      let u := if 3 ≤ target then
          settleDebug (updDbg (wingRegs u (keptRank .stow)) fun d => { d with trails := storeKeep (fun k => k == vestTrail) d.trails, trailNext := storeKeep (fun k => k == vestTrail) d.trailNext, prof := [], profCount := [], armed := [], haltAt := [], tests := [], dmi := [] })
        else u
      let u := entered u 1 (min target 3)
      let u := if target = 4 then raiseModule (wr (wr u .LP_STATUS_KICKSTAND_READY 0 1) .LP_STATUS_BLOCKER 0 6) .EVC_STATUS_POWER else u
      if u.boot.wakePending then startExit (updBoot u fun b => { b with wakePending := false }) u.boot.lpReason else u)

/-- Vestibule fields of class STOW that come back after KICKSTAND (Table 15-10) beside those of the shadow: from the runtime's
records in HBM the roots' base and layouts, the Pannier's active bank and use, the open jobs, the leads and the derating, and
the contexts' states; the number of the next record from the Cellar; and sensors and lines, which are read anew. -/
def kickstandKept : List Fld :=
  [.LARDER_ROOT_BASE, .LARDER_LAYOUT_LAYERS, .LARDER_LAYOUT_LATENT_UNITS, .LARDER_LAYOUT_LATENT_FMT, .LARDER_LAYOUT_ROPE_UNITS,
   .LARDER_LAYOUT_ROPE_FMT, .LARDER_LAYOUT_SLAB_UNITS, .LARDER_LAYOUT_VALID, .PANNIER_CTRL_ACTIVE_BANK,
   .PANNIER_SLOTS_USED, .TRAIN_JOBS_OPEN, .INTEG_LEAD_SHADOW_WING, .INTEG_DERATE_SERVING, .INTEG_DERATE_RATIO,
   .CELLAR_NEXT_SEQ, .CELLAR_STATUS_READY, .PWR_INPUT_VOLTS, .PWR_INPUT_AMPS, .PWR_INPUT_W, .PWR_INLET,
   .PWR_STATUS_ALERT_ACTIVE, .PWR_STATUS_THROTTLE_ACTIVE, .PWR_STATUS_INLET_HIGH, .PWR_ALERT_MAP, .CTX_STATE_STATE,
   .CTX_STATE_CLASS, .CTX_STATE_IDE_READY, .CTX_STATE_SLOT, .CTXWIN_INFO_CTX, .CTXWIN_INFO_CLASS, .CTXWIN_INFO_STATE,
   .CTXWIN_INFO_IDE_READY, .DBG_STATUS_TEST_MODE, .LP_NEXT_EVENT]

/-- Vestibule fields of class STOW that KICKSTAND returns to their reset values (R5, R443): all but those of the Blueprint,
which come back from the shadow, and those that are restored. -/
def kickstandLost (f : Fld) : Bool :=
  let r := fieldRow f
  (r.block == .vest || r.block == .win || r.block == .link) && !r.writers.contains .blueprint && !decide (f ∈ kickstandKept)

/-- KICKSTAND_ENTRY (R441): with every function in D3hot and the link in L2 the module leaves the fabric, and everything
but the Porch is powered down; without, it stays in STOW. -/
def execKickstandEntry (t : Nat) (l2 : Bool) (s : State) : Host.Outcome State Fault Refusal :=
  let u := tick s t
  settle s (if rd u .LP_STATUS_STATE ≠ 3 ∨ rdb u .LP_STATUS_KICKSTAND_READY = false then u
    else if l2 = false then lowPowerRecord u 3 3 7 ((u.now - u.boot.lpSince) / 1000)
    else
      let u := inc u .LP_RESIDENCY 1 ((u.now - u.boot.lpSince) / 1000)
      let u := if 2 ≤ rd u .SPOKE_FAB_STATUS_STATE ∧ rd u .SPOKE_FAB_STATUS_STATE ≤ 4 then leaveFabric u else u
      let u := if rdb u .PCIE_LINK_UP then leaveDlUp u else u
      let u := entered (wr u .LP_STATUS_BLOCKER 0 0) 3 4
      let u := resetRegs (resetEndpoint u) (keptRank .kickstand) (fun f _ => kickstandLost f)
      updDbg (updFab u fun _ => {}) fun d => { d with trails := [], trailNext := [] })

/-! Wake events and exits -/

/-- LP_WAKE_TIMER (R439, R441): at LP_WAKE_AT; in KICKSTAND early by 20 ppm of the interval. -/
def execLpWakeTimer (t : Nat) (s : State) : Host.Outcome State Fault Refusal :=
  let u := tick s t
  let at_ := rd u .LP_WAKE_AT
  let early := if rd u .LP_STATUS_STATE = 4 then (at_ - u.boot.lpSince) * 20 / 1000000 else 0
  settle s (if rd u .LP_NEXT_EVENT ≠ noEvent ∧ at_ - early ≤ u.now then startExit u 2 else u)

/-- LP_WAKE: a write of LP_CTRL.WAKE from the management context (R440). -/
def execLpWake (src : Src) (t : Nat) (s : State) : Host.Outcome State Fault Refusal :=
  settle s (if isMgmt s src then startExit (tick s t) 3 else s)

/-- LP_EXIT_COMPLETE (R437, R440, R442): the module can read intake records and run steps; a CTX_CMD and a warm reset that
waited follow. -/
def execLpExitComplete (t : Nat) (s : State) : Host.Outcome State Fault Refusal :=
  settle s (if rd s .LP_STATUS_STATE ≠ 6 then tick s t
    else
      let from_ := s.boot.lpFrom
      let u := tick s (max t (s.boot.lpSince + lpWake from_))
      let us := (u.now - u.boot.lpSince) / 1000
      let u := wr (wr (wr u .LP_STATUS_STATE 0 1) .LP_STATUS_TARGET 0 1) .BOOT_STATUS_PHASE 0 8
      let u := trail (logEntry (lowPowerRecord u from_ 1 u.boot.lpReason us) 6 from_ 0 us) vestTrail 0x44 0 from_ 2
      let u := settleGears (if from_ = 2 then u else ceilingsAtFreeze (restoreWings u))
      let u := match u.boot.heldCmd with
        | some (op, c, cls) =>
          runCtxCmd (wr (updBoot u fun b => { b with heldCmd := none }) .CTX_CMD_STATUS_BUSY 0 0) op c cls
        | none => u
      match u.boot.heldReset with
      | some k => warmReset (updBoot u fun b => { b with heldReset := none }) k
      | none => u)

end Sys2Proof.Machine
end

