-- ==== Sys2Proof/Machine/Debug.lean ====
section
/-! DEFINITION. Commands of the debug family (R449, R453 to R460): freezes and snapshots, halts and the debug module,
withdrawal of hubs and their self-tests. -/

namespace Sys2Proof.Machine

/-! Freezes and counters -/

/-- DBG_FREEZE (R453). -/
def execDbgFreeze (src : Src) (t : Nat) (s : State) : Host.Outcome State Fault Refusal :=
  settle s (if isMgmt s src then freezeAll (tick s t) 6 else s)

/-- DBG_UNFREEZE (R453). -/
def execDbgUnfreeze (src : Src) (t : Nat) (s : State) : Host.Outcome State Fault Refusal :=
  settle s (if isMgmt s src then
      let s := wrAll (tick s t) .DBG_TRAIL_STATUS_FROZEN (List.range 160) 0
      settleDebug (updDbg s fun d => { d with vFrozen := false })
    else s)

/-- DBG_SNAP (R449). -/
def execDbgSnap (src : Src) (t : Nat) (s : State) : Host.Outcome State Fault Refusal :=
  settle s (if isMgmt s src then
      let s := tick s t
      let s := each debugCounters.zipIdx s fun u e => wr u .DBG_SHADOW e.2 (rd u e.1)
      wr s .DBG_SNAP_TIME 0 s.now
    else s)

/-- COUNTER_CONTRIBUTION (R449): what the hubs have counted, and `counts` for what no other command says (PCI Express
errors, HBM transfers of its own controllers), by the counter's place in Table 16-7. -/
def execCounterContribution (t : Nat) (counts : List (Nat × Nat)) (s : State) : Host.Outcome State Fault Refusal :=
  settle s (addContributions (each counts (tick s t) fun u e => contribute u e.1 e.2))

/-! Halts (R454 to R456) -/

/-- Whether a hub holds the lead or the shadow control core. -/
def planner (s : State) (h : Nat) : Bool := h == leadHub s || h == shadowHub s

/-- Whether management may use a hub's debug module (R454). -/
def debugAllowed (s : State) (h : Nat) : Bool :=
  rdb s .DBG_CTRL_DEBUG_EN && (!planner s h || rdb s .DBG_CTRL_PLANNER_HALT_EN)

/-- A trail entry of a halt (Table 16-3). -/
def haltTrail (s : State) (h what : Nat) : State := trail s (hubTrail h) 0x26 0 what (rd s .DBG_HALT_NS h)

/-- A control core halts (R455): it issues nothing further, its hub leaves placement, and the items with rows in its tasks
end; with the lead every open item ends and planning stops. -/
def haltHub (s : State) (h : Nat) : State :=
  if h ∈ s.core.halted then s
  else
    let s := updCore s fun c => { c with halted := c.halted ++ [h] }
    let s := updDbg s fun d => { d with haltAt := storeInsert d.haltAt h s.now }
    let s := wr (wr (wr s .DBG_HALT_HALTED h 1) .DBG_HALT_DRAINED h 0) .INTEG_HUB_OUT h 1
    let s := debugRecord (haltTrail (settleDebug s) h 1) 2 h none none
    if h = leadHub s then endItems s (fun _ => true) 0x23 0x08 else abortHubTasks s h 0x08

/-- An access is refused with error 2 (R454). -/
def dmiRefused (s : State) (h : Nat) : State := wr s .DBG_DMI_ADDR_ERROR h 1

/-- DBG_HALT_REQ (R454, R455). -/
def execDbgHaltReq (src : Src) (t hub : Nat) (s : State) : Host.Outcome State Fault Refusal :=
  settle s (if isMgmt s src = false ∨ 160 ≤ hub then s
    else if debugAllowed s hub then haltHub (tick s t) hub else dmiRefused (tick s t) hub)

/-- BREAKPOINT_TRIGGER (R454): an armed trigger fires, but not while an exclusive window is open (R384). -/
def execBreakpointTrigger (t hub : Nat) (s : State) : Host.Outcome State Fault Refusal :=
  settle s (if hub < 160 ∧ hub ∈ s.dbg.armed ∧ (windowCtx s).isNone ∧ debugAllowed s hub then haltHub (tick s t) hub else tick s t)

/-- HALT_DRAINED (R455). -/
def execHaltDrained (t hub : Nat) (s : State) : Host.Outcome State Fault Refusal :=
  let u := tick s t
  settle s (if hub ∈ u.core.halted ∧ rdb u .DBG_HALT_DRAINED hub = false ∧ hubQueues u hub = [] then
      let ns := u.now - storeGet u.now u.dbg.haltAt hub
      haltTrail (wr (wr u .DBG_HALT_DRAINED hub 1) .DBG_HALT_NS hub (min ns (maxOf 32))) hub 2
    else u)

/-- RESUME (R456): the hub returns to placement from the next freeze. -/
def resumeHub (s : State) (h : Nat) : State :=
  if h ∈ s.core.halted then
    let s := updCore s fun c => { c with halted := c.halted.filter (· != h), beat := storeErase c.beat h }
    let s := wr (wr s .DBG_HALT_HALTED h 0) .DBG_HALT_DRAINED h 0
    let s := if keptOut s h then s else wr s .INTEG_HUB_OUT h 0
    debugRecord (haltTrail (settleDebug s) h 3) 3 h none none
  else s

/-- DBG_RESUME. -/
def execDbgResume (src : Src) (t hub : Nat) (s : State) : Host.Outcome State Fault Refusal :=
  settle s (if isMgmt s src = false ∨ 160 ≤ hub then s else resumeHub (tick s t) hub)

/-! The debug module (R454) -/

/-- An access of the management context to a hub's debug module. -/
def dmiAccess (s : State) (src : Src) (hub addr : Nat) (f : State → State) : State :=
  if isMgmt s src = false ∨ 160 ≤ hub then s
  else
    let s := wr s .DBG_DMI_ADDR_ADDR hub (addr % 128)
    if debugAllowed s hub then f (wr s .DBG_DMI_ADDR_ERROR hub 0) else dmiRefused s hub

/-- DMI_READ: what a register of the debug module holds is the RISC-V debug specification's, so the data is free. -/
def execDmiRead (src : Src) (hub addr : Nat) (s : State) : Host.Outcome State Fault Refusal :=
  settle s (dmiAccess s src hub addr fun u =>
    let (v, u) := takeFree u 32
    wr u .DBG_DMI_DATA hub v)

/-- What a write of DBG_DMI_DATA to a debug-module register does. As the RISC-V debug specification has them (PRESUMED):
dmcontrol (0x10) halts with bit 31 and resumes with bit 30; an abstract command (0x17) that transfers data0 (0x04) to
tdata1 (0x7A1) arms the trigger where one of its execute, store and load bits is set. Arming is refused while an
exclusive window is open (R384). -/
def dmiEffect (s : State) (hub addr v : Nat) : State :=
  let data0 := storeGet 0 s.dbg.dmi (hub * 128 + 4)
  if addr = 0x10 then
    (if bitAt v 31 then haltHub s hub else if bitAt v 30 then resumeHub s hub else s)
  else if addr = 0x17 ∧ bitsOf v 31 24 = 0 ∧ bitsOf v 17 16 = 3 ∧ v % 65536 = 0x7A1 then
    (if data0 % 8 = 0 then updDbg s fun d => { d with armed := d.armed.filter (· != hub) }
     else if (windowCtx s).isSome then dmiRefused s hub
     else updDbg s fun d => { d with armed := d.armed.filter (· != hub) ++ [hub] })
  else s

/-- DMI_WRITE. -/
def execDmiWrite (src : Src) (hub addr : Nat) (s : State) : Host.Outcome State Fault Refusal :=
  settle s (dmiAccess s src hub addr fun u =>
    let v := rd u .DBG_DMI_DATA hub
    dmiEffect (updDbg u fun d => { d with dmi := storeInsert d.dmi (hub * 128 + addr % 128) v }) hub (addr % 128) v)

/-! DBG_HUB_CMD (R457, R458) -/

def hubCmdRejected (s : State) (hub reason : Nat) : State :=
  wr (wr s .DBG_HUB_STATUS_RESULT hub 3) .DBG_HUB_STATUS_REASON hub reason

/-- Planned starts of exclusive windows. -/
def windowStarts (s : State) : List Nat :=
  let p := s.tt.plan
  ((p.zip (planSpans s (firstStart s) p)).filter (fun e => e.1.window.isSome)).map (·.2.1)

/-- Whether a run of a duration would meet an exclusive window or switch (R457). -/
def meetsWindow (s : State) (ns : Nat) : Bool :=
  (windowCtx s).isSome || (s.tt.run.running && s.tt.run.cur.window.isSome) || (windowStarts s).any (fun a => decide (a < s.now + ns))

/-- How long a self-test runs, in ns (Table 16-4). -/
def testNs (op patterns : Nat) : Nat :=
  if op = 3 then patterns * 5500000 else if op = 4 then 200000 else if op = 5 then 140000000 else 500000

/-- A withdrawing hub is WITHDRAWN once no started step uses it; called at a step boundary. -/
def hubsWithdrawn (s : State) : State :=
  let hs := (s.regs.filter (fun e => e.1 % 1024 == Fld.DBG_HUB_STATUS_STATE.ctorIdx && e.2 == 1)).map (·.1 / 1024)
  each (hs.filter (fun h => (hubQueues s h).isEmpty)) s fun t h => wr t .DBG_HUB_STATUS_STATE h 2

/-- A write of DBG_HUB_CMD with GO by the management context: the first reason in numerical order counts. -/
def hubCmd (s : State) (src : Src) (t hub op phys patterns : Nat) : State :=
  if isMgmt s src = false ∨ 160 ≤ hub then s
  else
    let s := tick s t
    let st := rd s .DBG_HUB_STATUS_STATE hub
    let test := decide (3 ≤ op ∧ op ≤ 5)
    let why :=
      if test && (st != 2 && st != 3) then 2
      else if 3 ≤ op ∧ op ≤ 6 ∧ meetsWindow s (testNs op patterns) = true then 3
      else if op = 0 ∨ 6 < op then 4
      else if st = 1 ∨ st = 3 ∨ st = 4 then 5
      else if op = 1 ∧ planner s hub = true then 6
      else if op = 3 ∧ (patterns = 0 ∨ 64 < patterns) then 7
      else 0
    if why ≠ 0 then hubCmdRejected s hub why
    else
      let s := wr (wr s .DBG_HUB_STATUS_RESULT hub 0) .DBG_HUB_STATUS_REASON hub 0
      let run := fun (u : State) (n : Nat) =>
        updDbg (wr u .DBG_HUB_STATUS_STATE hub 3) fun d => { d with tests := storeInsert d.tests hub ⟨op, phys, n, u.now⟩ }
      if op = 1 then
        (if st = 2 then s
         else
          let s := wr (wr s .DBG_HUB_STATUS_STATE hub 1) .INTEG_HUB_OUT hub 1
          if s.tt.run.running then s else hubsWithdrawn s)
      else if op = 2 then beginHubReset (wr s .DBG_HUB_STATUS_STATE hub 4) hub 2
      else if op = 6 then (if 66 ≤ phys then s else run s st)
      else run (loseHubMemory s hub) patterns

def execHubWithdraw (src : Src) (t hub : Nat) (s : State) : Host.Outcome State Fault Refusal := settle s (hubCmd s src t hub 1 0 0)
def execHubReturn (src : Src) (t hub : Nat) (s : State) : Host.Outcome State Fault Refusal := settle s (hubCmd s src t hub 2 0 0)
def execLbist (src : Src) (t hub patterns : Nat) (s : State) : Host.Outcome State Fault Refusal := settle s (hubCmd s src t hub 3 0 patterns)
def execMbist (src : Src) (t hub : Nat) (s : State) : Host.Outcome State Fault Refusal := settle s (hubCmd s src t hub 4 0 0)
def execMbistRet (src : Src) (t hub : Nat) (s : State) : Host.Outcome State Fault Refusal := settle s (hubCmd s src t hub 5 0 0)
def execHubSweep (src : Src) (t hub phys : Nat) (s : State) : Host.Outcome State Fault Refusal := settle s (hubCmd s src t hub 6 phys 0)

/-- The expected signatures of Table 16-5, by partition. -/
def expectedSig (patterns part : Nat) : Option Nat :=
  if patterns = 4 then
    some (if part = 0 then 0x5C3E91A02B7D44F6 else if part = 1 then 0x0E71D8C2936A1B05 else 0xA4B93F067D12E8C1)
  else if patterns = 64 then
    some (if part = 0 then 0x91D407EAC35B6F28 else if part = 1 then 0x3B60A27F18CD945E else 0x6E2FC915B0A83D77)
  else none

/-- LBIST's signatures are kept, and RESULT says whether all are as expected; 0 where no value is. -/
def lbistDone (s : State) (h patterns : Nat) (sigs : List Nat) : State :=
  let sig := fun (p : Nat) => sigs.getD p 0 % 2 ^ 64
  let s := updDbg s fun d => { d with sigs := (List.range 68).foldl (fun m p => storePut 0 m (h * 68 + p) (sig p)) d.sigs }
  let bad := (List.range 68).filter (fun p => match expectedSig patterns p with | some v => sig p != v | none => false)
  let result := if (expectedSig patterns 0).isNone then 0 else if bad.isEmpty then 1 else 2
  debugRecord (wr s .DBG_HUB_STATUS_RESULT h result) 4 h (some result) (some ((bad.head?.map sig).getD 0))

/-- A march or retention test's result. -/
def mbistDone (s : State) (h first word count : Nat) : State :=
  let fail := count != 0
  let s := wr (wr s .DBG_MBIST_FIRST_MEMORY h (if fail then first % 65536 else 0)) .DBG_MBIST_FIRST_COUNT h (min count (maxOf 16))
  let s := wr (wr s .DBG_MBIST_WORD h (if fail then word % 2 ^ 32 else 0)) .DBG_HUB_STATUS_RESULT h (if fail then 2 else 1)
  debugRecord s 5 h (some (if fail then 2 else 1)) (some (if fail then word % 2 ^ 32 else 0))

/-- A sweep's result: its tests count, and those that failed (test, observed, expected) are recorded (R296); the core keeps
its state (R457). R460 numbers no event for it. -/
def sweepDone (s : State) (h phys : Nat) (fails : List (Nat × Nat × Nat)) : State :=
  let k := h * 66 + phys
  let s := incX (incX s .INTEG_TEST_PASS h (testCount - fails.length)) .INTEG_TEST_FAIL h fails.length
  let s := each fails s fun t e => report t 0x06 (physIndex h phys)
    [(1, e.1, false), (1, testSkip t k, false), (1, 2, false), (8, e.2.1, false), (8, e.2.2, false)]
  let result := if fails.isEmpty then 1 else 2
  let (event, s) := takeFree (wr s .DBG_HUB_STATUS_RESULT h result) 8
  debugRecord s event h (some result) none

/-- BIST_COMPLETE (R457, R458): what the run of a hub found. -/
def execBistComplete (t hub : Nat) (sigs : List Nat) (fails : List (Nat × Nat × Nat)) (first word count : Nat) (s : State) :
    Host.Outcome State Fault Refusal :=
  settle s (match storeFind s.dbg.tests hub with
    | none => tick s t
    | some r =>
      let u := tick s (max t (r.start + testNs r.op r.patterns))
      let u := updDbg u fun d => { d with tests := storeErase d.tests hub }
      if r.op = 6 then sweepDone (wr u .DBG_HUB_STATUS_STATE hub r.patterns) hub r.phys fails
      else
        let u := wr u .DBG_HUB_STATUS_STATE hub 2
        if r.op = 3 then lbistDone u hub r.patterns sigs else mbistDone u hub first word count)

/-! Register writes -/

/-- INTEG_CORE_CMD with GO and a reserved OP is refused with reason 5, after the reasons that a source or a slot gives (Table
10-10). -/
def coreCmdReserved (s : State) (src : Src) (h word : Nat) : State :=
  if bitAt word 31 && (bitsOf word 11 8 == 0 || decide (6 < bitsOf word 11 8)) then
    coreCmd s src h (word % 128) false fun u _ => cmdRejected u h 5
  else s

/-- A write with GO of a command register whose OP is reserved: the command is refused (R309, R369, R361, R457). Commands
with a defined OP have rows of their own. -/
def reservedCmd (s : State) (src : Src) (tg : Target) (width v : Nat) : State :=
  let s := match targetAt tg .hub with
    | some (h, o) => if o ≤ 0x1008 ∧ 0x100C ≤ o + width then coreCmdReserved s src h (v / 256 ^ (0x1008 - o) % 2 ^ 32) else s
    | none => s
  match isMgmt s src, tg with
  | true, .pf a =>
    let word := fun (r : Nat) => if a ≤ r ∧ r + 4 ≤ a + width then v / 256 ^ (r - a) % 2 ^ 32 else 0
    let bad := fun (w top : Nat) => bitAt w 31 && (w % 16 == 0 || decide (top < w % 16))
    let ctx := word 0xFF01B40000
    let fab := word 0xFF01B0000C
    let s := if bad ctx 4 then ctxRejected s (if rdb s .CTX_CMD_STATUS_BUSY then 2 else 4) else s
    let s := if bad fab 3 then fabRejected s else s
    match targetAt tg .hub with
    | some (h, o) =>
      let hub := if o ≤ 0x1330 ∧ 0x1334 ≤ o + width then v / 256 ^ (0x1330 - o) % 2 ^ 32 else 0
      if bad hub 6 then hubCmd s src s.now h (hub % 16) 0 0 else s
    | none => s
  | _, _ => s

/-- REGISTER_WRITE (R4). -/
def execRegisterWrite (src : Src) (tg : Target) (width value : Nat) (s : State) : Host.Outcome State Fault Refusal :=
  settle s (if width = 4 ∨ width = 8 then reservedCmd (regWrite s src tg width value) src tg width value else s)

end Sys2Proof.Machine
end

