-- ==== Sys2Proof/Machine/FabricData.lean ====
section
/-! DEFINITION. Packets of the fabric: their checks, delivery, forwarding, retransmission, credits and barriers (R339 to
R346, R353 to R356), and the Spoke slot and routing tables (R340, R341). -/

namespace Sys2Proof.Machine

/-! Arrival -/

/-- A NAK for the first packet lost on a link (R343). -/
def sendNak (s : State) (l : Nat) : State :=
  sendPacket s l { ctlPacket s 4 (peerOf s l) [] with destAddr := (linkOf s l).rxSeq }

/-- The bank that was active at the start of a packet's source slot (R340). -/
def bankAt (s : State) (slot : Nat) : Nat :=
  let cur := s.now / slotNs
  let src := cur - (cur + 65536 - slot % 65536) % 65536
  let b := rd s .SPOKE_TT_CTRL_ACTIVE_BANK
  if src * slotNs < s.fab.flipAt then 1 - b else b

/-- A drop for a stale epoch: counted in a register and reported (R356). -/
def staleDrop (s : State) (f : Fld) (p : Packet) : State :=
  let s := inc s f
  report s 0x1D p.src [(2, p.src, false), (2, p.srcEpoch, false), (4, rd s f, false)]

/-- Whether a packet's SRC is LIVE at its epoch here. -/
def srcOk (s : State) (p : Packet) : Bool := entryState s (p.src % 4096) == 1 && entryEpoch s (p.src % 4096) == p.srcEpoch

/-- Whether a packet needs a credit on each link (R345, R346). -/
def credited (p : Packet) : Bool := p.cls == 2 || p.cls == 3

/-- Send a forwarded packet: one that needs a credit takes it from its context's pool or waits (R346). -/
def sendCredited (s : State) (l : Nat) (p : Packet) : State :=
  if !credited p then sendPacket s l p
  else
    let n := rd s .SPOKE_CREDIT_POOL (poolIdx p.ctx l)
    if n = 0 then updFab s fun f => { f with waiting := f.waiting ++ [(l, p)] }
    else sendPacket (wr s .SPOKE_CREDIT_POOL (poolIdx p.ctx l) (n - 1)) l p

/-- Send the packets that wait for credits on a link, in order, while there are credits. -/
def drainWaiting (s : State) (l : Nat) : State :=
  let ws := s.fab.waiting.filter (fun e => e.1 == l)
  each ws (updFab s fun f => { f with waiting := f.waiting.filter (fun e => e.1 != l) }) fun t e => sendCredited t l e.2

/-- Forward a packet by a routing entry: VC 0 on turning into another dimension, VC 1 across a dateline (R345). -/
def forward (s : State) (l : Nat) (p : Packet) (entry : Nat) : State :=
  let o := entry % 8
  let vc := if bitAt entry 3 then 1 else if o / 2 = l / 2 then p.vc else 0
  if entryState s (p.dst % 4096) = 1 then sendCredited s o { p with hops := p.hops + 1, vc := vc } else s

/-- A data-bearing packet arrives on a link (R343, R344, R349, R356). Uncorrectable codewords and packets out of order are
discarded with a NAK; a stale SRC is dropped at every module; then the packet is forwarded, or delivered here after the
checks of its DST epoch and its CRC. -/
def packetIn (s : State) (l : Nat) (p : Packet) (uncorr : Bool) (deliver : State → State) : State :=
  if ¬ (l < 6 ∧ linkUp s l) then s
  else if uncorr then
    let x := linkOf s l
    let keep := x.uncorr.filter (fun a => decide (s.now < a + 1000000))
    sendNak (contribute (inc (setLink s l { x with uncorr := keep ++ [s.now] }) .SPOKE_FEC_UNCORR l) 9 1) l
  else if p.seq ≠ (linkOf s l).rxSeq then sendNak s l
  else
    let release := fun (t : State) => if credited p then returnCredits t l p.ctx 1 else t
    let here := decide (p.dst = ownAddr s)
    let e := routeEntry s (bankAt s p.slot) (p.dst % 4096)
    if !srcOk s p then release (staleDrop (takeSeq s l) .SPOKE_DROP_STALE_SRC p)
    else if !here && e % 8 == 7 then release (inc (takeSeq s l) .SPOKE_DROP_ROUTE)
    else if !here && decide (e % 8 < 6) then release (forward (takeSeq s l) l p e)
    else if p.dstEpoch ≠ ownEpoch s then release (staleDrop (takeSeq s l) .SPOKE_DROP_STALE_DST p)
    else if packetCrc p ≠ p.crc then sendNak s l
    else release (deliver (takeSeq s l))

/-! Data -/

/-- The hub whose status shows a fault of an arriving packet: that of an on-chip address, hub 0 of the wing of an HBM
address. -/
def destHub (a : Nat) : Nat := if onChip a then granuleHub (a / 4096) else if isHbm a then hbmWing a * 40 else 0

/-- A packet that its context may not write is dropped (R344): counted, GRANULE_FAULT at the destination hub, and the
receiving task ends ABORTED_TASK with detail 0x02. -/
def ownerDrop (s : State) (p : Packet) (task : List (Nat × Nat)) (card : Nat) : State :=
  let h := destHub p.destAddr
  let s := wr (wr (inc s .SPOKE_DROP_OWNER) .MEM_FAULT_INFO_CTX h p.ctx) .MEM_STATUS_GRANULE_FAULT h 1
  let f := Fld.MEM_STATUS_GRANULE_FAULT
  endTask (hubError s h (fieldRow f).off (2 ^ (fieldRow f).lo) 0 (some p.ctx)) task card 0x23 0x02

/-- Whether a COPY stage of the packet's context could write n bytes at its address. -/
def ownerOk (s : State) (p : Packet) (a n : Nat) : Bool :=
  (isHbm a || onChip a) && rowCheck s p.ctx 0 true false a n == 0

/-- Whether a packet starts an exit from STOW, or from an entry into it: a BUFFERED one of context 0 (R440, R442). -/
def wakesStow (s : State) (p : Packet) : Bool :=
  p.cls == 3 && p.ctx == 0 && (rd s .LP_STATUS_STATE == 3 || (rd s .LP_STATUS_STATE == 5 && decide (3 ≤ s.boot.lpTarget)))

/-- SPOKE_DATA (R344); `task` and `card` are the receiving task. LENGTH 0 writes nothing. -/
def execSpokeData (t l : Nat) (p : Packet) (uncorr : Bool) (task : List (Nat × Nat)) (card : Nat) (s : State) : Host.Outcome State Fault Refusal :=
  let u := tick s t
  settle s (packetIn u l p uncorr fun y =>
    let x := if wakesStow y p then startExit y 6 else y
    let a := p.destAddr / 4 * 4
    if p.data = [] then x
    else if ownerOk x p a p.data.length then putBytes x p.ctx a p.data
    else ownerDrop x p task card)

/-- The 128-byte flits of a RED packet, each with its line's address ÷ 128 and its 32 elements. -/
def redFlits (p : Packet) : List (Nat × List Nat) :=
  (List.range (p.data.length / 128)).map fun i =>
    (p.destAddr / 128 + i, (List.range 32).map (fun j => leNum ((p.data.drop (i * 128 + 4 * j)).take 4)))

/-- SPOKE_RED (R353, R268): `fmt` and `count` are the format and the number of sources of the task's reduction. -/
def execSpokeRed (t l : Nat) (p : Packet) (uncorr : Bool) (task : List (Nat × Nat)) (card fmt count : Nat) (s : State) : Host.Outcome State Fault Refusal :=
  let u := tick s t
  settle s (packetIn u l p uncorr fun x =>
    let a := p.destAddr / 128 * 128
    if onChip a ∧ a < lsBase ∧ ownerOk x p a p.data.length then
      let h := (a - pantryBase) / 0x800000
      (redFlits p).foldl (fun y f => redArrive h y f.1 p.srcIndex count fmt f.2) x
    else ownerDrop x p task card)

/-! Acknowledgement and retransmission -/

/-- SPOKE_ACK (R343): packets up to the one it names leave the replay buffer. -/
def execSpokeAck (t l : Nat) (p : Packet) (s : State) : Host.Outcome State Fault Refusal :=
  let u := tick s t
  settle s (if l < 6 ∧ linkUp u l then
      let x := linkOf u l
      setLink u l { x with replay := x.replay.filter (fun e => serialAhead e.2.seq (p.destAddr % 65536)) }
    else u)

/-- SPOKE_NAK (R343): every packet from the lost one is sent again with RETX; a packet whose third transmission has failed
retrains the link instead. `tasks` are the tasks that need packets the link has not delivered. -/
def execSpokeNak (t l : Nat) (p : Packet) (tasks : List (List (Nat × Nat) × Nat)) (s : State) : Host.Outcome State Fault Refusal :=
  let u := tick s t
  settle s (if ¬ (l < 6 ∧ linkUp u l) then u
    else
      let n := p.destAddr % 65536
      let x := linkOf u l
      let again := fun (e : Nat × Packet) => e.2.seq == n || serialAhead e.2.seq n
      if x.replay.any (fun e => e.2.seq == n && decide (3 ≤ e.1)) then retrainLink u l tasks
      else
        let rs := (x.replay.filter again).map (fun e => (e.1 + 1, { e.2 with retx := true }))
        let u := inc (setLink u l { x with replay := x.replay.filter (fun e => !again e) ++ rs }) .SPOKE_RETX l rs.length
        each rs u fun y e => emit y (.packet l e.2))

/-! Control packets of contexts and segments -/

/-- CREDIT (R346): the credits return to their context's pool for the link; packets that waited for them go. -/
def execCredit (t l : Nat) (p : Packet) (s : State) : Host.Outcome State Fault Refusal :=
  let u := tick s t
  settle s (packetIn u l p false fun x =>
    let i := poolIdx (p.destAddr % 64) l
    drainWaiting (wr x .SPOKE_CREDIT_POOL i (min 512 (rd x .SPOKE_CREDIT_POOL i + bitsOf p.destAddr 25 16))) l)

/-- The tasks of an aborted segment end ABORTED_TASK with detail 0x02, with their commands (R354). -/
def endSegment (s : State) (g : Segment) : State :=
  let ts := ((s.core.queues.map (fun e => (e.2.filter (fun r => r.q.segStart == g.start && r.q.members == g.members)).map (fun r => (r.q.task, r.q.card.cardId)))).flatten).eraseDups
  endSegmentItems (each ts (dropSegment s g) fun t e => endTask t e.1 e.2 0x23 0x02) g

/-- BARRIER (R354): at the coordinator a member's arrival; at a member DONE, with ABORT or without. -/
def execBarrier (t l : Nat) (p : Packet) (b : BarrierBody) (s : State) : Host.Outcome State Fault Refusal :=
  let u := tick s t
  settle s (packetIn u l p false fun x =>
    match x.fab.segments.find? (fun g => g.start == b.start && decide (p.src ∈ g.members)) with
    | none => x
    | some g =>
      if b.done then
        if coordinator g ≠ p.src then x
        else if b.abort then endSegment x g else segmentDone x g b.arrival b.causes
      else if coordinator g ≠ ownAddr x ∨ g.arrived.any (fun a => a.1 == p.src) = true then x
      else
        match coordinate x { g with arrived := g.arrived ++ [(p.src, b.arrival, b.causes, b.abort)] } with
        | (x, some g) => endSegment x g
        | (x, none) => x)

/-! Tables (R340, R341) -/

/-- Units of a slot at a lane count (R339). -/
def laneUnits (n : Nat) : Nat := if n = 8 then 250 else if n = 6 then 187 else if n = 4 then 125 else 0

/-- A slot image passes the checks of R341, with the ranges of Table 12-3. -/
def slotImageOk (s : State) (l : Nat) (img : List Nat) : Bool :=
  let n := imgNum img 4 2
  let g := imgNum img 8 4
  let dir := (List.range n).map (fun i => imgNum img (0x40 + 4 * i) 4)
  let grants := (List.range g).map (fun i => imgNum img (0x40 + 4 * n + 8 * i) 8)
  let cap := laneUnits (rd s .SPOKE_LINK_STATE_LANES l)
  imgNum img 0 4 == 0x4B505354 && decide (25 ≤ n ∧ n ≤ 1000 ∧ n % 25 = 0)
    && ((img.drop 6).take 2 ++ (img.drop 12).take 52).all (· == 0)
    && dir.all (fun e => decide (bitsOf e 19 16 ≤ 8) && bitsOf e 31 20 == 0 && decide (bitsOf e 15 0 + bitsOf e 19 16 ≤ g))
    && dir.zipIdx.all (fun e => e.2 % 25 != 0 || bitsOf e.1 19 16 == 0)
    && grants.all (fun e => decide (1 ≤ bitsOf e 21 20) && decide (1 ≤ bitsOf e 35 28 ∧ bitsOf e 35 28 ≤ 250) && bitsOf e 63 36 == 0)
    && dir.all (fun e => decide ((((grants.drop (bitsOf e 15 0)).take (bitsOf e 19 16)).map (fun x => bitsOf x 35 28)).sum ≤ cap))

/-- A routing image passes: no entry names a RETIRED, MISCABLED or DOWN link, and no reserved bit is set. -/
def routeImageOk (s : State) (img : List Nat) : Bool :=
  imgNum img 0 4 == 0x4B505452 && ((img.drop 4).take 60).all (· == 0)
    && ((img.drop 0x40).take 4096).all (fun b =>
      let st := rd s .SPOKE_LINK_STATE_STATE (b % 8)
      decide (b < 16) && (decide (6 ≤ b % 8) || !decide (st = 4 ∨ st = 5 ∨ st = 0)))

/-- SPOKE_TT_LOAD (R226, R341): START loads an image from device memory into the inactive bank of a table. -/
def execSpokeTtLoad (src : Src) (s : State) : Host.Outcome State Fault Refusal :=
  let tb := rd s .SPOKE_TT_LOAD_TABLE
  let a := rd s .SPOKE_TT_LOAD_SRC * 64
  let b := 1 - rd s .SPOKE_TT_CTRL_ACTIVE_BANK
  let fail := wr s .SPOKE_TT_CTRL_LOAD_ERROR 0 1
  settle s (if mayWrite s src .SPOKE_TT_LOAD_SRC 0 = false then s
    else if rdb s .SPOKE_TT_CTRL_FLIP_REQ ∨ 6 < tb then fail
    else
      let img := if tb = 6 then readBytes s a (0x40 + 4096)
        else
          let hdr := readBytes s a 0x40
          readBytes s a (0x40 + 4 * imgNum hdr 4 2 + 8 * min 8000 (imgNum hdr 8 4))
      if (if tb = 6 then routeImageOk s img else slotImageOk s tb img) then
        let u := updFab s fun f => { f with banks := storePut [] f.banks (tb * 2 + b) (if tb = 6 then img.drop 0x40 else img) }
        wr u .SPOKE_TT_CTRL_LOADED 0 (rd u .SPOKE_TT_CTRL_LOADED ||| 2 ^ tb)
      else wr fail .SPOKE_TT_CTRL_LOADED 0 (rd s .SPOKE_TT_CTRL_LOADED &&& (127 ^^^ 2 ^ tb)))

/-- SPOKE_TT_FLIP_REQ (R340). -/
def execSpokeTtFlipReq (src : Src) (value : Nat) (s : State) : Host.Outcome State Fault Refusal :=
  settle s (setFlipReq s src .SPOKE_TT_CTRL_FLIP_REQ 0 value)

/-- SPOKE_TABLE_FLIP (R340, R226): at SPOKE_TT_FLIP_AT, a multiple of FLIP_PERIOD, all seven tables flip together. -/
def execSpokeTableFlip (t : Nat) (s : State) : Host.Outcome State Fault Refusal :=
  let u := tick s t
  let at_ := rd u .SPOKE_TT_FLIP_AT
  settle s (if rdb u .SPOKE_TT_CTRL_FLIP_REQ = false ∨ u.now < at_ then u
    else
      let u := wr u .SPOKE_TT_CTRL_FLIP_REQ 0 0
      if at_ % (rd u .SPOKE_FAB_CFG_FLIP_PERIOD * 100000) = 0 ∧ rd u .SPOKE_TT_CTRL_LOADED = 127 then
        let u := wr (wr u .SPOKE_TT_CTRL_ACTIVE_BANK 0 (1 - rd u .SPOKE_TT_CTRL_ACTIVE_BANK)) .SPOKE_TT_CTRL_ACTIVE_GEN 0 (nextGen (rd u .SPOKE_TT_CTRL_ACTIVE_GEN))
        updFab (wr u .SPOKE_TT_CTRL_LOADED 0 0) fun f => { f with flipAt := at_ }
      else hubError (wr u .SPOKE_TT_CTRL_FLIP_REJECTED 0 1) (leadHub u) 0x30 4 0)

end Sys2Proof.Machine
end

