-- ==== Sys2Proof/Machine/Flash.lean ====
section
/-! DEFINITION. A flash image from its bytes: header, directory and sections (R424, R425), its settings (R426), and the checks that
its bytes alone decide (R427). -/

namespace Sys2Proof.Machine

/-- A section of an image: its TYPE, OFFSET, BYTES and SECTION_DIGEST (Table 15-3). -/
structure Section where
  type : Nat
  off : Nat
  bytes : Nat
  digest : List Nat
  deriving DecidableEq, Repr

/-- The sections that an image's directory lists. -/
def sectionsOf (b : List Nat) : List Section :=
  (List.range (min 64 (fieldAt b 0xC 2))).map fun i =>
    let o := 0x100 + 48 * i
    ⟨fieldAt b o 2, fieldAt b (o + 4) 4, fieldAt b (o + 8) 4, (b.drop (o + 16)).take 32⟩

/-- The first section of a type. -/
def sectionAt (b : List Nat) (type : Nat) : Option Section := (sectionsOf b).find? (fun x => x.type == type)

/-- The bytes of a section; none where the image lacks it. -/
def sectionBytes (b : List Nat) (type : Nat) : List Nat :=
  match sectionAt b type with
  | some x => (b.drop x.off).take x.bytes
  | none => []

/-- Section types (Table 15-4, R459), and those that must appear. -/
def sectionTypes : List Nat := [0x01, 0x02, 0x03, 0x10, 0x11, 0x12, 0x13, 0x14, 0x15, 0x16, 0x17, 0x18]
def requiredTypes : List Nat := [0x01, 0x02, 0x03, 0x10, 0x11, 0x12, 0x13, 0x16]

/-- Check 0x01: header fields, offsets, overlaps and section types (R424). -/
def formOk (b : List Nat) : Bool :=
  let n := fieldAt b 0xC 2
  let size := fieldAt b 8 4
  let xs := sectionsOf b
  fieldAt b 0 4 == 0x50424C5A && fieldAt b 4 2 == 1 && decide (fieldAt b 6 1 ≤ 1) && decide (1 ≤ n ∧ n ≤ 64) && decide (size ≤ 0x4000000)
    && xs.all (fun x => decide (x.type ∈ sectionTypes) && decide (0x5000 ≤ x.off) && x.off % 4096 == 0 && decide (x.off + x.bytes ≤ size))
    && xs.zipIdx.all (fun x => xs.zipIdx.all (fun y =>
      x.2 == y.2 || x.1.bytes == 0 || y.1.bytes == 0 || decide (x.1.off + x.1.bytes ≤ y.1.off ∨ y.1.off + y.1.bytes ≤ x.1.off)))
    && xs.any (fun x => x.off + x.bytes == size)

/-- The SHA-256 of a root public key that the boot ROM holds (R388). -/
def rootHash (key : Nat) : List Nat := leBytes 32 (Config.secure 11 [key])

/-- Check 0x02, the part that the image decides: ROOT_PUB is the key that ROOT_KEY names. -/
def rootTrusted (b : List Nat) : Bool := decide (sha256 ((b.drop 0x80).take 48) = rootHash (fieldAt b 6 1))

/-- The SETTINGS entries: address, value and mask (R426). -/
def settingsOf (b : List Nat) : List (Nat × Nat × Nat) :=
  let x := sectionBytes b 0x10
  (List.range (x.length / 16)).map (fun i => (fieldAt x (16 * i) 8, fieldAt x (16 * i + 8) 4, fieldAt x (16 * i + 12) 4))

/-- Check 0x08 for an entry: every bit that it writes belongs to a field whose source is the Blueprint, and each field then holds a
value in its range (R426). -/
def settingOk (s : State) (e : Nat × Nat × Nat) : Bool :=
  let hits := (allFlds.filter (fun f => (fieldRow f).writers.contains .blueprint)).flatMap fun f =>
    match pfBlock (fieldRow f).block e.1 with
    | some (b, o) => (instancesAt s f b o 4).map (fun n => (fieldRow f, n.2, o))
    | none => []
  let holds := fun (h : FieldRow × Nat × Nat) (i : Nat) =>
    let bit := h.2.2 * 8 + i
    decide (h.2.1 * 8 + h.1.lo ≤ bit ∧ bit ≤ h.2.1 * 8 + h.1.hi)
  (List.range 32).all (fun i => !bitAt e.2.2 i || hits.any (fun h => holds h i)) && !hits.isEmpty
    && hits.all (fun h => inRange h.1 (maskBits h.1 h.2.1 h.2.2 e.2.1 e.2.2 h.1.reset))

/-- The checks of Table 15-5 that an image's bytes decide, in order: the code of the first that fails, 0 for none. Digests of
sections are compared as they are read (R428). -/
def imageCheck (s : State) (b : List Nat) (signed : Bool) : Nat :=
  let types := (sectionsOf b).map (·.type)
  if formOk b = false then 1
  else if rootTrusted b = false then 2
  else if signed = false then 3
  else if (b.drop 0x20).take 32 ≠ deviceId then 5
  else if ¬ (types.Nodup ∧ ∀ t ∈ requiredTypes, t ∈ types) then 7
  else if (settingsOf b).all (settingOk s) = false ∨ (sectionBytes b 0x10).length % 16 ≠ 0 then 8
  else 0

/-- What the module keeps of an image: its header's versions, key and digests, its settings, whether it carries TEST_ENABLE and
THERMAL, and its checks. -/
def flashOf (s : State) (w : FlashWrite) : FlashImage :=
  let b := w.bytes
  ⟨fieldAt b 6 1, fieldAt b 0x10 4, fieldAt b 0x14 4, fieldAt b 0x40 32, fieldAt b 0x60 32, settingsOf b, (sectionAt b 0x18).isSome,
    (sectionAt b 0x15).isSome, imageCheck s b w.signed⟩

/-- Whether the security core finds a section as its digest says (check 0x06). -/
def sectionGood (b : List Nat) (x : Section) : Bool := decide (sha256 ((b.drop x.off).take x.bytes) = x.digest)

end Sys2Proof.Machine
end

