-- ==== Sys2Proof/Machine/Management.lean ====
section
/-! DEFINITION. Commands of the management port (R413 to R419), of SPDM and IDE_KM over the DOE mailbox (R393, R399), and
of the test access port (R459). Where the spec does not give the bytes that an answer of another standard holds, they
are free. -/

namespace Sys2Proof.Machine

/-! The port (R414, R415) -/

/-- Whether requests reach the endpoint: the bus controller has given the port an address. -/
def portUp (s : State) : Bool := rdb s .MGMT_I3C_ADDR_VALID

/-- Answers of MCTP control (1), PLDM (2), SPDM and IDE_KM (3), DOE Discovery (4), I3C (5). A refusal carries a
completion code that the spec does not give. -/
def reply (s : State) (proto cmd : Nat) (fields : List Nat) : State := emit s (.answer proto cmd 0 fields)

def replyError (s : State) (proto cmd : Nat) : State :=
  let (code, s) := takeFree s 8
  emit s (.answer proto cmd code [])

/-- An answer with a field the spec does not give, after those it gives. -/
def replyFree (s : State) (proto cmd : Nat) (fields : List Nat) (width : Nat) : State :=
  let (v, s) := takeFree s width
  reply s proto cmd (fields ++ [v])

/-- The Provisioned ID (R414); the manufacturer's identifier is not given. -/
def provisionedId (s : State) : Nat :=
  Config.secure 20 [] % 2 ^ 15 * 2 ^ 33 + 0x4410 * 2 ^ 16 + rd s .EVC_INPUTS_SLOT_ID * 2 ^ 6

/-- ENTDAA: a port without an address takes part and gets one (R414). -/
def execEntdaa (addr : Nat) (s : State) : Host.Outcome State Fault Refusal :=
  settle s (if portUp s then s
    else wr (wr (reply s 5 7 [provisionedId s]) .MGMT_I3C_DYN_ADDR 0 (addr % 128)) .MGMT_I3C_ADDR_VALID 0 1)

/-- SET_ENDPOINT_ID; the null and broadcast IDs are refused. -/
def execSetEndpointId (eid : Nat) (s : State) : Host.Outcome State Fault Refusal :=
  settle s (if !portUp s then s
    else if eid % 256 = 0 ∨ eid % 256 = 255 then replyError s 1 1
    else reply (wr s .MGMT_I3C_EID 0 (eid % 256)) 1 1 [eid % 256])

def execGetEndpointId (s : State) : Host.Outcome State Fault Refusal :=
  settle s (if portUp s then reply s 1 2 [rd s .MGMT_I3C_EID] else s)

/-- The UUID: the first 16 bytes of DEVICE_ID with version 8 and the variant of RFC 9562 set (R415). -/
def endpointUuid : Nat :=
  let d := (deviceId.take 16).foldl (fun x b => x * 256 + b) 0
  d / 2 ^ 80 * 2 ^ 80 + 8 * 2 ^ 76 + d / 2 ^ 64 % 2 ^ 12 * 2 ^ 64 + 2 * 2 ^ 62 + d % 2 ^ 62

def execGetEndpointUuid (s : State) : Host.Outcome State Fault Refusal :=
  settle s (if portUp s then reply s 1 3 [endpointUuid] else s)

def execGetMctpVersionSupport (type : Nat) (s : State) : Host.Outcome State Fault Refusal :=
  settle s (if portUp s then replyFree s 1 4 [type] 32 else s)

/-- GET_MESSAGE_TYPE_SUPPORT: MCTP control (0) is not listed; PLDM is type 1, and no other is supported (R416). -/
def execGetMessageTypeSupport (s : State) : Host.Outcome State Fault Refusal :=
  settle s (if portUp s then reply s 1 5 [1, 1] else s)

/-! PLDM Type 0 (R416) -/

/-- Command codes of a PLDM type, as its DMTF specification numbers them (PRESUMED). -/
def pldmCommands (type : Nat) : List Nat :=
  if type = 0 then [1, 2, 3, 4, 5]
  else if type = 2 then [0x04, 0x0A, 0x0B, 0x11, 0x21, 0x31, 0x39, 0x50, 0x51]
  else if type = 5 then [0x01, 0x02, 0x10, 0x13, 0x14, 0x15, 0x16, 0x17, 0x18, 0x1A, 0x1B, 0x1C, 0x1D]
  else []

def execGetTid (s : State) : Host.Outcome State Fault Refusal :=
  settle s (if portUp s then reply s 2 2 [s.mgt.tid] else s)

/-- SET_TID; 0 and 255 are no terminus IDs. -/
def execSetTid (tid : Nat) (s : State) : Host.Outcome State Fault Refusal :=
  settle s (if !portUp s then s
    else if tid % 256 = 0 ∨ tid % 256 = 255 then replyError s 2 1
    else reply (updMgt s fun m => { m with tid := tid % 256 }) 2 1 [])

def execGetPldmVersion (type : Nat) (s : State) : Host.Outcome State Fault Refusal :=
  settle s (if !portUp s then s else if pldmCommands type = [] then replyError s 2 3 else replyFree s 2 3 [type] 32)

def execGetPldmTypes (s : State) : Host.Outcome State Fault Refusal :=
  settle s (if portUp s then reply s 2 4 [0, 2, 5] else s)

def execGetPldmCommands (type : Nat) (s : State) : Host.Outcome State Fault Refusal :=
  settle s (if !portUp s then s else if pldmCommands type = [] then replyError s 2 5 else reply s 2 5 (pldmCommands type))

/-! PLDM Type 2 (R416 to R418) -/

/-- Whether Type 2 is served: not in RECOVERY (R433). -/
def monitorUp (s : State) : Bool := portUp s && !rdb s .BOOT_STATUS_RECOVERY

/-- The records of Table 14-7 in order, by kind: 1 numeric sensor, 2 state sensor, 3 numeric effecter, 4 state effecter. -/
def pdrKinds : List Nat := List.replicate 22 1 ++ [2, 2, 3, 4, 4]

/-- GET_PDR: the record of a handle, numbered from 1 in the order of Table 14-7 (handle 0 asks for the first): its kind,
the next handle, and its content, which the spec does not give. -/
def execGetPdr (handle : Nat) (s : State) : Host.Outcome State Fault Refusal :=
  let h := max handle 1
  settle s (if !monitorUp s then s
    else match pdrKinds[h - 1]? with
      | some k => replyFree s 2 0x51 [h, (if h = 27 then 0 else h + 1), k] 64
      | none => replyError s 2 0x51)

def execGetPdrRepositoryInfo (s : State) : Host.Outcome State Fault Refusal :=
  settle s (if monitorUp s then replyFree s 2 0x50 [pdrKinds.length] 64 else s)

/-- The value of the numeric sensor of a record. -/
def sensorValue (s : State) (n : Nat) : Option Nat :=
  if n = 1 then some (rd s .PWR_INPUT_VOLTS) else if n = 2 then some (rd s .PWR_INPUT_AMPS)
  else if n = 3 then some (rd s .PWR_INPUT_W) else if n = 4 then some (rd s .ENERGY_MODULE)
  else if n = 5 then some (rd s .PWR_INLET)
  else if 6 ≤ n ∧ n ≤ 9 then some (rd s .DRL_TEMP (n - 6))
  else if 10 ≤ n ∧ n ≤ 21 then some (rd s .DRL_STACK_TEMP (n - 10))
  else if n = 22 then some s.pwr.vestTemp else none

def execGetSensorReading (sensor : Nat) (s : State) : Host.Outcome State Fault Refusal :=
  settle s (if !monitorUp s then s
    else match sensorValue s sensor with
      | some v => reply s 2 0x11 [v]
      | none => replyError s 2 0x11)

/-- The module state: 0 ACTIVE, 1 COAST, 2 DOZE, 3 STOW, 4 KICKSTAND; an entry shows the state it leaves, and so does an
exit. -/
def moduleState (s : State) : Nat :=
  let st := rd s .LP_STATUS_STATE
  if st = 5 then 1 else if st = 6 then s.boot.lpFrom else st

def execGetStateSensorReadings (sensor : Nat) (s : State) : Host.Outcome State Fault Refusal :=
  settle s (if !monitorUp s then s
    else if sensor = 23 then reply s 2 0x21 [moduleState s]
    else if sensor = 24 then reply s 2 0x21 [rd s .SPOKE_FAB_STATUS_STATE]
    else replyError s 2 0x21)

/-- MODULE_CAP_EFFECTER: exactly the effect of a write of PWR_CAP.CAP_W (R417). -/
def execModuleCapEffecter (t value : Nat) (s : State) : Host.Outcome State Fault Refusal :=
  settle s (if monitorUp s then reply (writeCap (tick s t) value) 2 0x31 [] else s)

/-- WAKE_EFFECTER: no effect in any state but KICKSTAND (Table 14-7). -/
def execWakeEffecter (t : Nat) (s : State) : Host.Outcome State Fault Refusal :=
  let u := tick s t
  settle s (if !monitorUp s then s
    else
      let u := if rd u .LP_STATUS_STATE = 4 ∨ (rd u .LP_STATUS_STATE = 5 ∧ u.boot.lpTarget = 4) then startExit u 4 else u
      reply u 2 0x39 [])

/-- RESET_EFFECTER: a warm reset, as RESET_CMD KIND 2 asks for it (Table 14-7). -/
def execResetEffecter (t : Nat) (s : State) : Host.Outcome State Fault Refusal :=
  let u := tick s t
  settle s (if !monitorUp s then s
    else reply (if rdb u .RESET_STATUS_BUSY then resetRejected u else warmReset u 2) 2 0x39 [])

/-- SET_EVENT_RECEIVER: names the receiver, or with none says that there is none (R418). -/
def execSetEventReceiver (t : Nat) (eid : Option Nat) (s : State) : Host.Outcome State Fault Refusal :=
  settle s (if !monitorUp s then s
    else
      let u := updRep (tick s t) fun r => { r with receiver := eid }
      reply (wrb u .MGMT_I3C_RECEIVER_SET 0 eid.isSome) 2 0x04 [])

/-- POLL_FOR_PLATFORM_EVENT_MESSAGE: collects the record that is held, or the first that waits where there is no receiver
(R418). -/
def execPollForPlatformEventMessage (s : State) : Host.Outcome State Fault Refusal :=
  settle s (if !monitorUp s then s
    else match s.rep.faultQueue with
      | c :: _ => if s.rep.eventHeld ∨ s.rep.receiver = none then popEvent (emit s (.platformEvent (cellarBytes c))) else reply s 2 0x0B []
      | [] => reply s 2 0x0B [])

/-! PLDM Type 5: firmware update (R419, R428) -/

/-- The image an update writes: the one that is not running. -/
def updateImage (s : State) : Nat := rd s .MGMT_UPDATE_IMAGE

def setUpdate (s : State) (st : Nat) : State := wr s .MGMT_UPDATE_STATE 0 st

/-- The image being written is INVALID from here on, until it is activated. -/
def spoilImage (s : State) : State := if imageState s (updateImage s) = 0 then s else markInvalid s (updateImage s)

def execQueryDeviceIdentifiers (s : State) : Host.Outcome State Fault Refusal :=
  settle s (if portUp s then replyFree s 2 0x01 [] 64 else s)

/-- GET_FIRMWARE_PARAMETERS: one component; the running versions. -/
def execGetFirmwareParameters (s : State) : Host.Outcome State Fault Refusal :=
  settle s (if portUp s then replyFree s 2 0x02 [1, (runningImage s).fwSvn, (runningImage s).bpSvn] 64 else s)

/-- REQUEST_UPDATE: an update starts unless one is under way. -/
def execRequestUpdate (s : State) : Host.Outcome State Fault Refusal :=
  settle s (if !portUp s then s
    else if s.mgt.requested then replyError s 2 0x10
    else
      let s := updMgt s fun m => { m with requested := true, passed := false, written := none }
      reply (setUpdate (wr s .MGMT_UPDATE_IMAGE 0 (1 - rd s .BOOT_STATUS_IMAGE)) 0) 2 0x10 [])

/-- PASS_COMPONENT_TABLE. -/
def execPassComponentTable (s : State) : Host.Outcome State Fault Refusal :=
  settle s (if !portUp s then s
    else if s.mgt.requested ∧ rd s .MGMT_UPDATE_STATE = 0 then reply (updMgt s fun m => { m with passed := true }) 2 0x13 []
    else replyError s 2 0x13)

/-- UPDATE_COMPONENT: the transfer starts; an interruption from here on leaves the image INVALID. -/
def execUpdateComponent (s : State) : Host.Outcome State Fault Refusal :=
  settle s (if !portUp s then s
    else if s.mgt.requested ∧ s.mgt.passed ∧ (rd s .MGMT_UPDATE_STATE = 0 ∨ rd s .MGMT_UPDATE_STATE = 4)
      then reply (setUpdate (spoilImage s) 1) 2 0x14 []
    else replyError s 2 0x14)

/-- FW_TRANSFER_COMPLETE: the image is in flash; its signature, root key and versions are checked, and VerifyComplete
reports the result. -/
def execFwTransferComplete (w : FlashWrite) (s : State) : Host.Outcome State Fault Refusal :=
  settle s (if rd s .MGMT_UPDATE_STATE ≠ 1 then s
    else
      let img := flashOf s w
      let s := updBoot s fun b => { b with images := b.images.set (updateImage s) img }
      let s := updMgt s fun m => { m with written := some img }
      let r := liveSelection s
      let bad := !w.signed || !rootTrusted w.bytes || decide (img.rootKey < r.rootKey) || decide (img.fwSvn < r.minFw) || decide (img.bpSvn < r.minBp)
      reply (setUpdate (if bad then spoilImage s else s) (if bad then 4 else 3)) 2 0x17 [b2n bad])

/-- ACTIVATE_FIRMWARE: the image is PENDING with three tries and PREFERRED (R428); self-contained activation is not
supported. -/
def execActivateFirmware (selfContained : Bool) (s : State) : Host.Outcome State Fault Refusal :=
  settle s (if !portUp s then s
    else if rd s .MGMT_UPDATE_STATE ≠ 3 ∨ selfContained = true then replyError s 2 0x1A
    else
      let i := updateImage s
      let s := saveSelection (setImageState s i 1) fun r => { r with tries := 3, preferred := i }
      let s := updMgt (imageRecord s 1 i (flashImage s i).fwSvn) fun m => { m with requested := false, passed := false, written := none }
      reply (setUpdate s 0) 2 0x1A [])

def execGetStatus (s : State) : Host.Outcome State Fault Refusal :=
  settle s (if portUp s then reply s 2 0x1B [rd s .MGMT_UPDATE_STATE] else s)

/-- CANCEL_UPDATE_COMPONENT: the transfer is cancelled and the image INVALID; the update goes on. -/
def execCancelUpdateComponent (s : State) : Host.Outcome State Fault Refusal :=
  settle s (if !portUp s then s
    else if rd s .MGMT_UPDATE_STATE = 0 then replyError s 2 0x1C
    else reply (updMgt (setUpdate (spoilImage s) 0) fun m => { m with written := none }) 2 0x1C [])

/-- CANCEL_UPDATE: the update ends and the image is INVALID. -/
def execCancelUpdate (s : State) : Host.Outcome State Fault Refusal :=
  settle s (if !portUp s then s
    else if !s.mgt.requested then replyError s 2 0x1D
    else reply (updMgt (setUpdate (spoilImage s) 0) fun m => { m with requested := false, passed := false, written := none }) 2 0x1D [])

/-! SPDM over the DOE mailbox (R399) -/

/-- A step of the exchange: from one of some states to the next, with the answer; anything out of order is refused. -/
def spdmStep (s : State) (cmd : Nat) (ok : Bool) (from_ : List Nat) (to_ : Nat) (fields : List Nat) : State :=
  if rdb s .PCIE_LINK_UP = false ∨ 0 ∈ s.ctxs.noMaster then s
  else if ok && decide (s.mgt.spdm ∈ from_) then reply (updMgt s fun m => { m with spdm := to_ }) 3 cmd fields
  else replyError s 3 cmd

/-- GET_VERSION starts the exchange anew; the version is 1.3. -/
def execGetVersion (s : State) : Host.Outcome State Fault Refusal :=
  settle s (spdmStep s 0x84 true [0, 1, 2, 3, 4, 5] 1 [0x13])

/-- GET_CAPABILITIES; the answer's flags are not given. -/
def execGetCapabilities (s : State) : Host.Outcome State Fault Refusal :=
  let (v, u) := takeFree s 32
  settle s (spdmStep u 0xE1 true [1] 2 [v])

/-- NEGOTIATE_ALGORITHMS: the requester must offer SHA-256 and AES-256-GCM, which are selected. -/
def execNegotiateAlgorithms (offered : Bool) (s : State) : Host.Outcome State Fault Refusal :=
  settle s (spdmStep s 0xE3 offered [2] 3 [])

/-- PSK_EXCHANGE: the pre-shared key is context 0's at KEY_INDEX 3, and no other key is accepted. -/
def execPskExchange (underKey : Bool) (s : State) : Host.Outcome State Fault Refusal :=
  settle s (spdmStep s 0xE6 (underKey && (storeFind s.ctxs.keys 3).isSome) [3] 4 [])

/-- PSK_FINISH; `verified` is whether the requester proves that it holds the key. -/
def execPskFinish (verified : Bool) (s : State) : Host.Outcome State Fault Refusal :=
  settle s (spdmStep s 0xE7 verified [4] 5 [])

def execEndSession (s : State) : Host.Outcome State Fault Refusal :=
  settle s (spdmStep s 0xEC true [5] 3 [])

/-! IDE_KM (R393, R399) -/

def ideStream (s : State) (n : Nat) : IdeStream := storeGet ⟨[], none⟩ s.mgt.ide n

def setStream (s : State) (n : Nat) (x : IdeStream) : State := updMgt s fun m => { m with ide := storePut ⟨[], none⟩ m.ide n x }

/-- An IDE_KM request on the stream of VF n inside the secured session. -/
def ideRequest (s : State) (cmd n set : Nat) (ok : Bool) (f : State → State) : State :=
  if rdb s .PCIE_LINK_UP = false ∨ 0 ∈ s.ctxs.noMaster then s
  else if s.mgt.spdm = 5 ∧ 1 ≤ n ∧ n < 64 ∧ set < 2 ∧ ok = true then reply (f s) 3 cmd []
  else replyError s 3 cmd

/-- KEY_PROG: a key of one direction of one of the three sub-streams, in the set that is not in use. -/
def execKeyProg (n set sub : Nat) (rx : Bool) (s : State) : Host.Outcome State Fault Refusal :=
  let x := ideStream s n
  settle s (ideRequest s 2 n set (decide (sub < 3) && x.active != some set) fun u =>
    let k := set * 8 + sub + 3 * b2n rx
    setStream u n { x with programmed := x.programmed.filter (· != k) ++ [k] })

/-- K_SET_GO: the stream switches to a set whose keys are all programmed; the other set is idle and must be programmed
again. The stream is keyed and enabled (R393). -/
def execKSetGo (n set : Nat) (s : State) : Host.Outcome State Fault Refusal :=
  let x := ideStream s n
  settle s (ideRequest s 4 n set ((List.range 6).all (fun i => decide (set * 8 + i ∈ x.programmed))) fun u =>
    let u := setStream u n ⟨x.programmed.filter (fun k => k / 8 == set), some set⟩
    wr (wr u .CTX_STATE_IDE_READY n 1) .CTXWIN_INFO_IDE_READY n 1)

/-- K_SET_STOP: a set's keys are gone; the stream of the set in use leaves the secure state (R394). -/
def execKSetStop (n set : Nat) (s : State) : Host.Outcome State Fault Refusal :=
  let x := ideStream s n
  settle s (ideRequest s 5 n set true fun u =>
    let u := setStream u n { x with programmed := x.programmed.filter (fun k => k / 8 != set) }
    if x.active = some set then ideDown u n else u)

/-! The test access port (R459) -/

/-- IDCODE: version 0x1, part number 0x4410 and the manufacturer's code, which is not given, with bit 0 set. -/
def idcode : Nat := 0x1 * 2 ^ 28 + 0x4410 * 2 ^ 12 + Config.secure 21 [] % 2 ^ 11 * 2 + 1

def execIdcode (s : State) : Host.Outcome State Fault Refusal :=
  settle s (emit (updMgt s fun m => { m with bypass := false }) (.tdo 32 idcode))

/-- BYPASS: n bits shifted in come out one bit later. -/
def execBypass (n value : Nat) (s : State) : Host.Outcome State Fault Refusal :=
  settle s (emit (updMgt s fun m => { m with bypass := true }) (.tdo n (value * 2 % 2 ^ n)))

end Sys2Proof.Machine
end

