-- ==== Sys2Proof/Machine/RootTables.lean ====
section
/-! DEFINITION. The root table, the directories and the leaf tables in HBM (R162 to R164): their bytes, and the runtime's writing of
them. -/

namespace Sys2Proof.Machine

/-- The words of a directory entry and of a page-table entry (Table 6-4). -/
def dirWord (e : Nat × Nat) : Nat := e.1 + e.2 * 2 ^ 28 + 2 ^ 34
def pteWord (e : Pte) : Nat := e.base + e.ctx * 2 ^ 32 + e.st * 2 ^ 38 + e.fill * 2 ^ 40 + e.gen * 2 ^ 48

/-- The 128 bytes of a root record (Table 6-3). -/
def rootBytes (r : Root) : List Nat :=
  leBytes 4 r.handle ++ [r.layout, r.st, r.form, r.split] ++ leBytes 4 r.committed ++ leBytes 4 r.reserved ++ leBytes 8 r.dirBase
    ++ leBytes 8 r.parkAddr ++ leBytes 2 r.splitCount ++ leBytes 2 r.splitIndex ++ leBytes 4 r.rangePages
    ++ ((List.range 16).map (fun i => leBytes 2 (r.members.getD i 0))).flatten ++ List.replicate 56 0

/-- The words of a root's directory and leaves, by address. -/
def rootWords (r : Root) : List (Nat × Nat) :=
  r.dir.map (fun e => (r.dirBase + 8 * e.1, dirWord e.2)) ++
    r.ptes.filterMap (fun e => (storeFind r.dir (e.1 / 512)).map (fun d => (d.1 * 4096 + 8 * (e.1 % 512), pteWord e.2)))

/-- The 4 KiB units of a root's directory and leaves. -/
def rootTables (r : Root) : List Nat := (if r.dir = [] then [] else [r.dirBase / 4096]) ++ r.dir.map (fun e => e.2.1)

/-- The runtime writes what changed of one root: pages that are new to it become zero, padding included (R161); new tables become
zero; each changed entry is written as one word of 8 bytes (R164), and then the record; the image of a session that is PARKED without
a committed page is its header alone (R183). -/
def publishRoot (s : State) (i : Nat) (old : Option Root) (r : Root) : State :=
  let had := fun (e : Nat × Pte) => old.any (fun o => o.ptes.any (fun p => p.1 == e.1 && p.2.base == e.2.base))
  let units := (old.map rootTables).getD []
  let words := (old.map rootWords).getD []
  let now := rootWords r
  let s := each (r.ptes.filter (fun e => e.2.st == 2 && !had e)) s fun t e => zeroUnits t e.2.base (pageUnits t r.layout)
  let s := each ((rootTables r).filter (fun u => decide (u ∉ units))) s fun t u => zeroUnits t u 1
  let s := each (words.filter (fun w => now.all (fun x => x.1 != w.1) && decide (w.1 / 4096 ∈ rootTables r))) s fun t w => storeHbm t w.1 (leBytes 8 0)
  let s := each (now.filter (fun w => decide (w ∉ words))) s fun t w => storeHbm t w.1 (leBytes 8 w.2)
  let s := storeHbm s (rootRecord s i) (rootBytes r)
  if r.st = 3 ∧ r.committed = 0 ∧ old.all (fun o => o.st != 3) = true then putBytes s (handleCtx r.handle) r.parkAddr (parkImage s r) else s

/-- The runtime brings its tables in HBM up to date (R164, R175): records of freed roots become FREE, and every root that changed is
written. DESIGN CHOICE (log 77): it does so at every step boundary and after the pages of the next step have their entries. -/
def publishTables (s : State) : State :=
  let gone := s.lard.tables.filter (fun e => (rootAt s e.1).isNone)
  let changed := s.lard.roots.filter (fun e => storeFind s.lard.tables e.1 != some e.2)
  let s := each gone s fun t e => storeHbm t (rootRecord t e.1) (List.replicate 128 0)
  let s := each changed s fun t e => publishRoot t e.1 (storeFind t.lard.tables e.1) e.2
  updLard s fun l => { l with tables := l.roots }

end Sys2Proof.Machine
end

