-- ==== Sys2Proof/Machine/Steps.lean ====
section
/-! DEFINITION. Steps: the freeze of a plan (R36), the end of a step with its deliveries (R201 to R206, R62), the switch
steps of exclusive windows (R382), what happens at every step boundary (R31), and the start of the next step (R32). -/

namespace Sys2Proof.Machine

/-! The freeze -/

/-- The code and detail with which a failed chunk ends its item (R197): a bad token ID, or a failed read. -/
def chunkEnd (bad : Bool) : Nat × Nat := if bad then (0x30, 0x44) else (0x23, 0x01)

/-- Whether a frozen step holds a chunk of an item. -/
def frozenChunk (s : State) (x : Item) : Bool :=
  (s.tt.plan.take (frozenCount s)).any (fun p => p.chunks.any (fun c => c.ctx == x.ctx && c.idx == x.idx))

/-- Whether the running step or a frozen one does. -/
def holdsChunk (s : State) (x : Item) : Bool :=
  frozenChunk s x || (s.tt.run.running && s.tt.run.cur.chunks.any (fun c => c.ctx == x.ctx && c.idx == x.idx))

/-- A chunk's read has failed: the item ends at once, or at the end of the steps in flight that hold an earlier chunk of it,
which is kept (R197). -/
def chunkFails (s : State) (x : Item) (bad : Bool) : State :=
  if holdsChunk s x then dropOpen (setItem s { x with stop := if bad then 0x44 else 0x41 }) x.ctx x.idx
  else endItem s x (chunkEnd bad).1 (chunkEnd bad).2

/-- What the reads of one chunk of the step that freezes gave (R197): a token at or beyond the model's vocabulary or a failed read
ends the item; the last token of a prompt that samples nothing is kept for the session (R201). -/
def chunkRead (s : State) (c : ChunkPlan) (e : Nat × Nat × ChunkRead) : State :=
  match itemAt s c.ctx c.idx with
  | none => s
  | some x =>
    match e.2.2 with
    | .read toks =>
      let vocab := ((modelAt s x.model).map (fun m => m.header.vocab)).getD 0
      if toks.any (fun t => decide (vocab ≤ t)) then chunkFails s x true
      else if c.last then setItem s { x with data := toks.getLast?.toList } else s
    | .readFailed => chunkFails s x false

/-- The planned steps that have not frozen. -/
def openSteps (s : State) : List PStep := s.tt.plan.drop (frozenCount s)

/-- The reads of the chunks of the step that is to freeze. -/
def freezeReads (s : State) (l : List (Nat × Nat × ChunkRead)) : State :=
  match openSteps s with
  | [] => s
  | p :: _ => each p.chunks s fun t c =>
      match l.find? (fun e => e.1 == c.ctx && e.2.1 == c.idx) with
      | some e => chunkRead t c e
      | none => t

/-- The steps of the window at the head of a plan, and the rest. -/
def splitWindow (c : Nat) : List PStep → List PStep × List PStep
  | [] => ([], [])
  | p :: r =>
    if p.window ≠ some c then ([], p :: r)
    else if p.switchOut then ([p], r)
    else ((p :: (splitWindow c r).1), (splitWindow c r).2)

/-- No window opens while any control core is halted (R384): a window that would freeze follows the other steps. -/
def holdWindow (s : State) : State :=
  match openSteps s with
  | p :: _ =>
    match p.switchIn, p.window with
    | true, some c =>
      if s.core.halted.isEmpty then s
      else
        let l := splitWindow c (openSteps s)
        updTt s fun t => { t with plan := t.plan.take (frozenCount s) ++ l.2 ++ l.1 }
    | _, _ => s
  | [] => s

/-- Whether the next step may freeze: it holds work, and it opens no window while a control core is halted. -/
def mayFreeze (s : State) : Bool :=
  match openSteps s with
  | p :: _ => hasWork p && (!p.switchIn || s.core.halted.isEmpty)
  | [] => false

/-- The freeze of a step with its planned start (R36): gear limits and ceilings (R319, R324), derating (R295), parks and unparks
(R180), the digests of lead and shadow (R301). -/
def freezeHead (s : State) (f : FreezeIn) (start : Nat) : State :=
  let s := ceilingsAtFreeze (updTt s fun t => { t with gearLimit := f.gearLimit })
  let s := wr s .PWR_CAP_CAP_PENDING 0 0
  let s := holdWindow (parkDue (unparkWaiting (derate s)))
  let s := if f.digestsAgree then s else controlRecord (inc s .INTEG_LEAD_DIVERGES) 3 3
  match openSteps s, mayFreeze s with
  | p :: _, true =>
    let n := (s.tt.frozen.getLast?.map (·.number)).getD (rd s .TT_STEP_NUMBER + s.tt.lapsed) + 1
    freezeStep (trail s vestTrail 0x41 0 (rd s .INTEG_LEAD_LEAD_WING) n) p n start
  | _, _ => s

/-- Whether the planner works: the module is READY, is not restarting, and the lead is not halted (R455). -/
def planning (s : State) : Bool :=
  rd s .BOOT_STATUS_PHASE == 8 && s.boot.warm.isNone && !decide (leadHub s ∈ s.core.halted)

/-- PLAN_FREEZE (R36, R197): the chunk reads come first; where they leave the step no work, nothing freezes and the next
step's freeze follows. -/
def execPlanFreeze (t : Nat) (f : FreezeIn) (s : State) : Host.Outcome State Fault Refusal :=
  settle s (if (openSteps s).isEmpty ∨ planning s = false then s
    else
      let head := ((openSteps s).head?.map (fun p => p.chunks)).getD []
      let start := openStart s
      let u := freezeReads (tick s (max t (start - planLead s))) f.chunks
      if head ≠ [] ∧ ((openSteps u).head?.map (fun p => p.chunks.isEmpty)).getD true = true then u else freezeHead u f start)

/-! Deliveries -/

/-- The stop condition that token number j of a request meets, as its detail code; 0 for none (R203). -/
def stopOf (r : GenerateRec) (eos tok j : Nat) : Nat :=
  if bitAt r.flags 2 && tok == eos then 3 else if tok ∈ r.stops then 2 else if j = r.maxNew then 1 else 0

/-- Tokens drawn in a step: the tokens, whether a nucleus was truncated, and the detail code of the stop condition met. -/
structure Drawn where
  toks : List Nat
  truncated : Bool
  stop : Nat
  deriving DecidableEq, Repr

/-- Draw tokens from number j on, position by position, while the drafts match and no stop condition is met (R203, R205,
R206). A position without a candidate list gives a free token. -/
def drawTokens (r : GenerateRec) (eos : Nat) : List Nat → List CandList → Nat → State → Drawn × State
  | drafts, ls, j, s =>
    let rec go : Nat → List Nat → List CandList → Nat → State → Drawn × State
      | 0, _, _, _, s => (⟨[], false, 0⟩, s)
      | n + 1, ds, ls, j, s =>
        let d := drawToken r j (ls.headD ⟨0, []⟩)
        let (tok, s) := match d.1 with
          | some k => (k, s)
          | none => takeFree s 32
        let stop := stopOf r eos tok j
        if stop = 0 ∧ ds.head? = some tok then
          let (rest, s) := go n ds.tail ls.tail (j + 1) s
          (⟨tok :: rest.toks, d.2 || rest.truncated, rest.stop⟩, s)
        else (⟨[tok], d.2, stop⟩, s)
    go (drafts.length + 1) drafts ls j s

/-- The drafts for the next step, drawn with the u that the target will use for each index (R205). -/
def draftTokens (r : GenerateRec) : List CandList → Nat → State → List Nat × State
  | [], _, s => ([], s)
  | l :: ls, j, s =>
    let (tok, s) := match (drawToken r j l).1 with
      | some k => (k, s)
      | none => takeFree s 32
    let (rest, s) := draftTokens r ls (j + 1) s
    (tok :: rest, s)

/-- What the planned steps still issue for a request that has issued n tokens: its rows are numbered anew, and rows beyond
MAX_NEW_TOKENS go, but not from a frozen step (R200, R206). -/
def renumberRows (s : State) (ctx idx n maxNew : Nat) : State :=
  let mine := fun (r : RowPlan) => r.ctx == ctx && r.idx == idx
  let k := frozenCount s
  let rec go : Nat → Nat → List PStep → List PStep
    | _, _, [] => []
    | keep, j, p :: r =>
      if p.rows.any mine then
        if j ≤ maxNew ∨ keep ≠ 0 then
          { p with rows := p.rows.map (fun x => if mine x then { x with j := j } else x) } :: go (keep - 1) (j + 1) r
        else { p with rows := p.rows.filter (fun x => !mine x) } :: go (keep - 1) (j + 1) r
      else p :: go (keep - 1) j r
  let l := go k (n + 1) s.tt.plan
  updTt s fun t => { t with plan := l.take k ++ (l.drop k).filter hasWork }

/-- Issue the tokens a step drew for a request in one TOKENS record, commit c appended tokens, keep the last token as the
pending one, and end the request where a stop condition was met (R175, R203, R206). A record that finds no room ends the
item and commits nothing (R209). -/
def issueTokens (s : State) (x : Item) (i : Nat) (r : GenerateRec) (e : StepIssue) (d : Drawn) (c accepted proposed : Nat)
    (next : List CandList) : State :=
  let j := x.issued + 1
  let s := itemEvent s x 0x08 0 (.tokens (decide (promise x j < e.time)) d.truncated (d.stop != 0) j d.toks)
  match itemAt s x.ctx x.idx with
  | none => s
  | some x =>
    let n := x.issued + d.toks.length
    let x := { markDelivery x j e with
      issued := n, draftsAccepted := x.draftsAccepted + accepted, draftsProposed := x.draftsProposed + proposed }
    let s := commitBoth (setItem s x) i c
    let (drafts, s) := draftTokens r next (n + 1) s
    let s := match sessAt s i with
      | some k => setSession s i { k with pendingTok := d.toks.getLast?, drafts := drafts }
      | none => s
    if d.stop ≠ 0 then endItem s x 0x01 d.stop else renumberRows s x.ctx x.idx n r.maxNew

/-- A prefill chunk of the step that ends (R200, R201). -/
def chunkDone (e : StepIssue) (rows : List RowResult) (s : State) (c : ChunkPlan) : State :=
  match itemAt s c.ctx c.idx with
  | none => s
  | some x =>
    match x.sess, x.gen with
    | some i, some r =>
      let first := decide (x.promptDone = 0)
      let x := { x with promptDone := x.promptDone + c.tokens }
      let s := setItem s x
      let s := match first, sessAt s i with
        | true, some k => setSession s i { k with pendingTok := none }
        | _, _ => s
      if c.last = false then commitBoth s i c.tokens
      else if c.samples then
        let res := (rows.find? (fun q => q.ctx == c.ctx && q.idx == c.idx)).getD ⟨c.ctx, c.idx, [], []⟩
        let eos := ((modelAt s x.model).map (fun m => m.header.eos)).getD 0
        let (d, s) := drawTokens r eos [] res.positions 1 s
        issueTokens s x i r e d c.tokens 0 0 res.drafts
      else
        let (tok, s) := match x.data with
          | t :: _ => (t, s)
          | [] => takeFree s 32
        let s := commitBoth s i (c.tokens - 1)
        let s := match sessAt s i with
          | some k => setSession s i { k with pendingTok := some tok }
          | none => s
        let x := markDelivery x 0 e
        endItem (setItem s x) x 0x01 0x06
    | _, _ => s

/-- A decode row of the step that ends (R205, R206). -/
def rowDone (e : StepIssue) (rows : List RowResult) (s : State) (p : RowPlan) : State :=
  match itemAt s p.ctx p.idx with
  | none => s
  | some x =>
    match x.sess, x.gen with
    | some i, some r =>
      let res := (rows.find? (fun q => q.ctx == p.ctx && q.idx == p.idx)).getD ⟨p.ctx, p.idx, [], []⟩
      let eos := ((modelAt s x.model).map (fun m => m.header.eos)).getD 0
      let drafts := (((sessAt s i).map (·.drafts)).getD []).take p.depth
      let (d, s) := drawTokens r eos drafts res.positions (x.issued + 1) s
      issueTokens s x i r e d d.toks.length (d.toks.length - 1) drafts.length res.drafts
    | _, _ => s

/-- Whether the plan still holds pieces of a micro-step. -/
def piecesLeft (s : State) (ctx idx : Nat) : Bool :=
  s.tt.plan.any (fun p => p.train.any (fun q => q.ctx == ctx && q.idx == idx && !q.opt))

/-- A piece of a training micro-step, or its optimizer card, in the step that ends (R242, R243). -/
def trainDone (e : StepIssue) (res : List TrainResult) (s : State) (p : TrainPlan) : State :=
  match itemAt s p.ctx p.idx with
  | none => s
  | some x =>
    let x := if p.last then markDelivery x 0 e else x
    let s := setItem s x
    match p.opt, res.find? (fun r => r.ctx == p.ctx && r.idx == p.idx) with
    | true, r => optimizerDone s x ((r.map (·.agree)).getD true)
    | false, some r => if r.outcome ≠ 0 ∨ piecesLeft s p.ctx p.idx = false then pieceDone s r else s
    | false, none => if piecesLeft s p.ctx p.idx then s else endItem s x 0x23 0x02

/-- All deliveries of the step that ends, in the plan's order. -/
def deliverStep (s : State) (e : StepIssue) (f : StepEndIn) : State :=
  let p := s.tt.run.cur
  let s := each p.chunks s (chunkDone e f.rows)
  let s := each p.rows s (rowDone e f.rows)
  each p.train s (trainDone e f.train)

/-! Switch steps (R382) -/

/-- The written granules of on-chip memory whose owner satisfies p: granule, owner and valid lines with their bytes. -/
def writtenGranules (s : State) (p : Nat → Bool) : List (Nat × Nat × List (Nat × List Nat)) :=
  (s.mem.granules.filter (fun g => onChip (g.1 * 4096) && p g.2)).filterMap (fun g =>
    let ls := (s.mem.valid.filter (fun e => e.1 / 32 == g.1)).map (fun e => (e.1, readBytes s (e.1 * 128) 128))
    if ls.isEmpty then none else some (g.1, g.2, ls))

/-- Save the written granules of owners into their save slots and clear the valid bits. -/
def saveGranules (s : State) (p : Nat → Bool) (shared : Bool) : State :=
  each (writtenGranules s p) s fun t g =>
    clearGranule (updMem t fun m => { m with saves := m.saves ++ [⟨granuleHub g.1, g.2.1, shared, g.1, g.2.2⟩] }) (g.1 * 4096)

/-- Reload granules from save slots and restore their valid bits; a granule that has changed hands stays as it is. -/
def reloadGranules (s : State) (p : SaveEntry → Bool) : State :=
  let s' := each (s.mem.saves.filter p) s fun t e =>
    if granuleOwner t (e.granule * 4096) = e.ctx then each e.lines t fun u l => writeBytes l.2 (l.1 * 128) u else t
  updMem s' fun m => { m with saves := m.saves.filter (fun e => !p e) }

/-- A switch also clears the Pantry cache parts and the engines' working state. -/
def clearEngines (s : State) : State :=
  let s := updMem s fun m => { m with cacheTags := [] }
  updCore s fun c => { c with
    arrays := [], wheels := [], vregs := [], reds := []
    queues := c.queues.map (fun e => (e.1, e.2.map (fun r => { r with hand := ⟨0, 0, []⟩ }))) }

/-- Whether a context is being torn down, so that its granules are not saved (R379). -/
def isTearing (s : State) (c : Nat) : Bool := rd s .CTX_STATE_STATE c == 3

/-- The end of a switch in: every other owner's written granules go to slot 0, the context's come back. -/
def switchedIn (s : State) (c : Nat) : State :=
  let s := clearEngines (saveGranules s (fun o => decide (o ≤ 0x40) && o != c && !isTearing s o) true)
  let s := reloadGranules s (fun e => e.ctx == c && !e.shared)
  let s := inc s .CTX_WINDOWS
  updDbg s fun d => { d with windowAt := s.now }

/-- The end of a switch out: the context's written granules go to its slot; the others come back unless the next window
follows directly. The window closes: its meters advance, and trails that skipped entries get a WINDOW_GAP (R331, R452). -/
def switchedOut (s : State) (c : Nat) : State :=
  let s := clearEngines (if isTearing s c then s else saveGranules s (fun o => o == c) false)
  let direct := !s.tt.frozen.isEmpty && (s.tt.plan.head?.map (fun p => p.switchIn)).getD false
  let s := if direct then s else reloadGranules s (fun e => e.shared)
  let s := closeMeters (wr (wr s .CTX_WINDOW_OPEN 0 0) .CTX_WINDOW_CTX 0 0) c
  let us := (s.now - s.dbg.windowAt) / 1000
  let ks := s.dbg.skipped
  each ks (updDbg s fun d => { d with skipped := [] }) fun t k => trail t k 0x7F 0 0 us

/-- What a switch step does at its end (R382). -/
def switchEnd (s : State) (len : Nat) : State :=
  let p := s.tt.run.cur
  match p.window with
  | none => s
  | some c =>
    if p.switchIn || p.switchOut then
      let s := wr s .CTX_SWITCH_NS_MAX 0 (max (rd s .CTX_SWITCH_NS_MAX) (min len (maxOf 32)))
      if p.switchIn then switchedIn s c else switchedOut s c
    else s

/-! Every step boundary -/

/-- Requests that were cancelled or closed, those with a failed chunk, and items that lost the host, end (R197, R213,
R401). -/
def endStopped (s : State) : State :=
  let lost := s.serve.aborting
  let s := endItems s (fun i => decide ((i.ctx, i.idx) ∈ lost)) 0x23 0x06
  let s := updServe s fun v => { v with aborting := [] }
  each (s.serve.items.filter (fun x => x.opcode == 0x01 && x.stop != 0 && (decide (x.stop < 0x40) || !frozenChunk s x))) s fun t x =>
    match itemAt t x.ctx x.idx with
    | some y =>
      if y.stop = 4 ∨ y.stop = 5 then endItem t y 0x01 y.stop
      else endItem t y (chunkEnd (y.stop == 0x44)).1 (chunkEnd (y.stop == 0x44)).2
    | none => t

/-- A CLOSE of an IDLE session ends, and the session is released (R188). -/
def endCloses (s : State) : State :=
  let cs := s.serve.items.filter (fun x => x.opcode == 0x03 && x.waits.isEmpty && x.stop != 9)
  let s := each (cs.filterMap (·.sess)) s fun t i =>
    match sessAt t i with
    | some k => if k.st = .closing then freeSession t i else t
    | none => t
  each cs s fun t x => endItem t (completed t x) 0x01 0x07

/-- Parks of sessions that have taken a request since are abandoned, with their companions' (Table 6-10). -/
def abandonParks (s : State) : State :=
  let busy := s.serve.sessions.filter (fun e => e.2.st == .busy && !e.2.isCompanion)
  let is_ := (busy.map (fun e => e.1 :: e.2.companion.toList)).flatten
  each is_ s fun t i =>
    match rootAt t i with
    | some r => if r.st = 2 then freeImage (setRoot t i { r with st := 1 }) i else t
    | none => t

/-- What takes effect at every step boundary: ends of items, abandoned parks, and flips of every double-banked table (R31);
slot changes of R308, withdrawn hubs, gears after THROTTLE_IN_N, the counts of the hubs (R449), and the runtime's tables in HBM. -/
def boundaryOps (s : State) : State :=
  let s := abandonParks (endCloses (endStopped s))
  let s := coresAtBoundary (tablesAtBoundary (pannierBoundary s))
  let s := dropsBind (addContributions (throttleReturn (hubsWithdrawn s)))
  let s := publishTables (if planning s then parkDue s else s)
  if s.pann.edits = [] then s else wantBoundary s

/-! The next step -/

/-- Rows and chunks of the step get their pages as TENTATIVE, the companion's too (R175, R204). -/
def mapNew (s : State) (ctx idx n : Nat) : State :=
  match (itemAt s ctx idx).bind (·.sess) with
  | none => s
  | some i =>
    each (i :: ((sessAt s i).bind (·.companion)).toList) s fun t k =>
      match rootAt t k with
      | none => t
      | some r =>
        let first := r.committed / 16
        mapPages t k ((List.range (pagesFor (heldHere r (r.committed + r.away + n)) - first)).map (· + first))

/-- The first planned step starts now, with its planned start (R32, R39). -/
def beginStep (s : State) (start : Nat) : State :=
  match s.tt.plan with
  | [] => s
  | p :: rest =>
    let now_ := s.now
    let gs := headGears s
    let chg := gearChanges s.tt.stepGears gs
    let len := stepSlots s gs chg p * slotNs
    let idle := if s.tt.run.running then 0 else now_ - max s.tt.run.lastEnd s.dbg.idleSince
    let n := (s.tt.frozen.head?.map (·.number)).getD (rd s .TT_STEP_NUMBER + 1)
    let s := wr s .TT_STEP_NUMBER 0 (n % 2 ^ 64)
    let s := wr (wr s .TT_STEP_START 0 now_) .TT_STEP_PLANNED_END 0 (start + len)
    let slowed := (s.tt.frozen.head?.map (·.throttled)).getD false
    let s := updTt (settleGears (each (List.range 4) s fun t w => wr t .DRL_GEAR_PLANNED w (gs.getD w 0))) fun t => { t with stepGears := some gs, lapsed := 0, throttleEnd := if slowed then start + len else t.throttleEnd }
    let alert := (List.range 4).any (forcedG0 s)
    let thr := (List.range 4).any (fun w => rdb s .DRL_GEAR_THROTTLED w)
    let s := updTt s fun t => { t with
      plan := rest
      frozen := t.frozen.tail
      run := { t.run with
        running := true, cur := p, causes := if thr then 64 else 0, alertSeen := alert, boundaryAt := none
        reserveNs := len - stepWork s gs chg p * slotNs, reserveUsed := 0 } }
    let s := updPwr s fun x => { x with charge := [] }
    let s := each p.rows s fun t r => mapNew t r.ctx r.idx (1 + r.depth)
    let s := publishTables (each p.chunks s fun t c => mapNew t c.ctx c.idx c.tokens)
    let s := match p.window with
      | some c => if p.switchIn then wr (wr s .CTX_WINDOW_OPEN 0 1) .CTX_WINDOW_CTX 0 c else s
      | none => s
    let s := wr (wr s .LP_STATUS_STATE 0 0) .LP_STATUS_TARGET 0 0
    let n := rd s .TT_STEP_NUMBER
    let s := each (List.range 160) s fun t h => trail t (hubTrail h) 0x20 (p.window.getD 0) (rd t .HUB_REMAP_CTRL_ACTIVE_GEN h) n
    contribute s 5 idle

/-- Whether a frozen step may start: the module plans and is not in or between low-power states (R438). -/
def mayBegin (s : State) : Bool := !s.tt.frozen.isEmpty && planning s && decide (rd s .LP_STATUS_STATE ≤ 1)

/-- No step follows: the module idles in COAST; planned steps keep a planned start (R475). -/
def goIdle (s : State) : State :=
  let keep := (s.tt.frozen.head?.map (fun f => decide (s.now < f.start))).getD false
  let s := updTt s fun t => { t with
    run := { t.run with running := false, lastEnd := s.now, cur := emptyStep, causes := 0, alertSeen := false }
    frozen := if keep then t.frozen else []
    planStart := if t.plan.isEmpty ∨ s.now < t.planStart ∨ keep = true then t.planStart else slotCeil (s.now + planLead s) }
  let s := updDbg (wr (wr s .LP_STATUS_STATE 0 1) .LP_STATUS_TARGET 0 1) fun d => { d with idleSince := s.now }
  if s.pann.edits = [] then s else wantBoundary s

/-- A step does not start, since a wing has not loaded its inactive banks (R37): items with a delivery planned in it end,
and the lead counts as failed. -/
def startLapses (s : State) : State :=
  match s.tt.plan with
  | [] => s
  | p :: _ =>
    let ds := (stepDeliveries p 0).map (fun d => (d.ctx, d.idx))
    let s := updTt s fun t => { t with frozen := [] }
    leadFails (endItems s (fun i => decide ((i.ctx, i.idx) ∈ ds)) 0x23 0x02)

/-- The step that runs ends on a slot boundary (R30, R32, R57, R62): late steps are counted and carry their causes on; the tasks of the step
that have no command left are over (R476). -/
def endStep (s : State) (f : StepEndIn) : State :=
  let r := s.tt.run
  let pend := rd s .TT_STEP_PLANNED_END
  let s := tick s (slotCeil (max s.now (max pend f.workDone)))
  let end_ := s.now
  let set := r.causes ||| f.causes ||| r.carried ||| (if r.alertSeen then 2 else 0)
  let late := decide (pend < end_)
  let used := r.reserveUsed + f.reserveUsed + ((List.range 4).map (fun w => storeGet 0 s.pwr.charge w / 4)).foldl max 0
  let peak := if r.reserveNs = 0 then 0 else min 1000 (used * 1000 / r.reserveNs)
  let s := wr s .TT_RESERVE_PEAK 0 (max (rd s .TT_RESERVE_PEAK) peak)
  let s := if late then inc s .TT_LATE_STEPS else s
  let s := updTt s fun t => { t with run := { t.run with carried := if late then (if set = 0 then 4 else set) else 0 } }
  let s := updCore s fun c => { c with tasks := c.tasks.filter (fun x => c.queues.any (fun e => e.2.any (fun r => r.q.card.cardId == x.card && r.q.task == x.items))) }
  let s := deliverStep s ⟨end_ + min f.issueDelay 2000, set, r.alertSeen, s.tt.throttleEnd⟩ f
  switchEnd (contribute s 4 1) (end_ - rd s .TT_STEP_START)

/-- Whether a wing whose flip the planner has requested lacks a load of one of its inactive banks (R37). -/
def loadsMissing (s : State) : Bool := (List.range 4).any (fun w => rdb s .WING_TT_CTRL_FLIP_REQ w && !wingLoaded s w)

/-- STEP_BOUNDARY (R30, R31, R32): the running step ends, what takes effect at a boundary does so, and the frozen step begins;
from idle the frozen step begins at its planned start. -/
def execStepBoundary (t : Nat) (e : StepEndIn) (s : State) : Host.Outcome State Fault Refusal :=
  let was := s.tt.run.running
  settle s (if was = false ∧ (s.tt.frozen = [] ∨ max s.now t < headStart s) then s
    else
      let u := if was then endStep (tick s t) e else tick s (slotCeil (max s.now t))
      let u := boundaryOps u
      let u := if u.tt.frozen ≠ [] ∧ loadsMissing s = true then startLapses u else u
      if mayBegin u = true ∧ headStart u ≤ u.now then beginStep u (headStart u)
      else if was then goIdle u
      else updTt u fun x => { x with frozen := [] })

/-- IDLE_BOUNDARY (R475). -/
def execIdleBoundary (t : Nat) (s : State) : Host.Outcome State Fault Refusal :=
  settle s
    (match s.tt.run.running, s.tt.run.boundaryAt with
    | false, some b =>
      if b ≤ max s.now t then
        boundaryOps (updTt (tick s t) fun x => { x with run := { x.run with boundaryAt := none } })
      else s
    | _, _ => s)

end Sys2Proof.Machine
end

