-- ==== Sys2Proof/Machine/Vector.lean ====
section
/-! DEFINITION. The rows of VECTOR, REDUCTION and SFU stages (R121 to R153), chunk by chunk: loading, programs, reductions,
outputs, soft maxima, lists, summaries, and the frame of such a stage. -/

namespace Sys2Proof.Machine

/-! Rows -/

def vFlag (d : VecDesc) (i : Nat) : Bool := bitAt d.flags i

/-- Elements of a chunk: the segment of the stage before with hand-over (R126). -/
def chunkOf (d : VecDesc) (hand : HandOver) : Nat := if vFlag d 0 then max 1 hand.segment else laneCount d.lane

/-- Input element bits of a row (R123). -/
def inBits (s : State) (base : Nat) (d : VecDesc) (hand : HandOver) (row col : Nat) : Nat :=
  if vFlag d 0 then (hand.rows.getD row []).getD col 0 else elemAt s base d.inD.fmt d.inOff (4 * d.inStride) row col

/-- Input lane of a row and column. -/
def inLane (s : State) (base : Nat) (d : VecDesc) (hand : HandOver) (row col : Nat) : Nat :=
  loadLane d.lane d.inD (inBits s base d hand row col) (scaleAt s base d.inD row col)

/-- AUX lane of a row and column, in the lane format. -/
def auxLane (s : State) (base : Nat) (d : VecDesc) (row col : Nat) : Nat :=
  readBits s (base + d.auxOff + row * 4 * d.auxStride) (col * laneBits d.lane) (laneBits d.lane)

def readWord (s : State) (base off i : Nat) : Nat := readLe s (base + off + 4 * i) 4

/-- A row's length (LEN_EN), clamped to COLS (Table 5-12). -/
def rowLen (s : State) (base : Nat) (d : VecDesc) (row : Nat) : Nat :=
  if vFlag d 3 then min d.cols (readWord s base d.lenOff row) else d.cols

/-- The registers of chunk ch of a row before the program (R123). -/
def loadChunk (s : State) (base : Nat) (d : VecDesc) (hand : HandOver) (c row len ch : Nat) : VecRegs :=
  let cols := (List.range c).map (ch * c + ·)
  let z := List.replicate c 0
  let v0 := cols.map (fun j => if j < d.cols then inLane s base d hand row j else 0)
  let v1 := if vFlag d 4 then cols.map (fun j => if j < d.cols then auxLane s base d row j else 0) else z
  let v2 := if vFlag d 5 then List.replicate c (lane32 d.lane (readWord s base d.paramOff row)) else z
  let v3 := if d.lane = 1 then cols.map (fun j => (j + 64 * d.indexBase) % 2 ^ 32) else z
  let p0 := cols.map (fun j => decide (j < d.cols ∧ j < len))
  ⟨[v0, v1, v2, v3] ++ List.replicate 12 z, [p0, p0, p0, p0]⟩

/-- Whether a reduction of a stage works on integers (R140). DESIGN CHOICE (log 73): the spec does not say which lanes of LANE 0x1 to
0x3 are integer lanes; the lanes of an INT32 IN_DESC in LANE 0x1 are, and no others. -/
def redInt (d : VecDesc) : Bool := laneInt d.lane || (d.lane == 1 && d.inD.fmt == 0xB)

/-- An INT32 lane value as FP32, rounded once (CVTF). -/
def intF32 (v : Nat) : Nat := toFmt fFP32 (intNum (signedOf 32 v))

/-- A lane value as the reduction unit takes it: integers as they are where the operation keeps them, and as FP32 where its output
is FP32 whatever the lanes (SUMSQ, SMSTAT, TOPK, ROUTE). -/
def redValue (lane : Nat) (int : Bool) (op v : Nat) : Nat :=
  if op = 9 ∨ int then
    let x := wrapTo 32 (signedOf (laneBits lane) v)
    if op ∈ [2, 6, 7, 8] then intF32 x else x
  else laneF32 lane v

/-- RED (Table 5-2): the operand's active and unguarded lanes enter the operation named by DST. -/
def redInstr (d : VecDesc) (ch c : Nat) (i : VInstr) (g : VecRegs) (reds : List RedState) : List RedState :=
  let taken := (preg g 0).zip (guardOf g i)
  let xs := ((vreg g i.a).zip taken).zipIdx.map fun e =>
    if e.1.2.1 && e.1.2.2 then some (redValue d.lane (redInt d) (redOf i) e.1.1, ch * c + e.2 + 64 * d.indexBase) else none
  reds.map (fun r => if r.op = redOf i then redFeed (redK i) (redInt d) r xs else r)

/-- The program over one chunk. -/
def runProgram (e : VEnv) (d : VecDesc) (ch c : Nat) (g : VecRegs) (reds : List RedState) : VecRegs × List RedState :=
  d.prog.foldl (fun x i => if i.op = 0x30 then (x.1, redInstr d ch c i x.1 x.2) else (vinstr e i x.1, x.2)) (g, reds)

/-! Outputs -/

/-- The scale byte of each block of a row and the elements under it (R76). -/
def quantRow (d : VecDesc) (vals : List (Option Nat)) : List (Nat × List (Option Nat)) :=
  (groupsOf (blockSize d.outD.block) vals.length vals).map fun b =>
    let sc := quantScale d.outD.fmt d.outD.kind ((b.filterMap id).map (outNum d.lane d.outD.fmt))
    (sc, b.map (fun x => x.map (fun v => quantElem d.outD.fmt d.outD.kind sc (outNum d.lane d.outD.fmt v))))

/-- The output patterns of a row's lanes, and its scale bytes with their blocks' numbers. -/
def convertRow (d : VecDesc) (vals : List (Option Nat)) : List (Option Nat) × List (Nat × Nat) :=
  if d.outD.kind = 1 ∨ d.outD.kind = 2 then
    let q := quantRow d vals
    ((q.map (·.2)).flatten, (q.zipIdx.filter (fun e => e.1.2.any (·.isSome))).map (fun e => (e.2, e.1.1)))
  else (vals.map (fun x => x.map (outElem d.lane d.outD)), [])

/-- Write elements at the columns that are present. -/
def writeCols (s : State) (addr fmt : Nat) (vals : List (Option Nat)) : State :=
  vals.zipIdx.foldl (fun t e => match e.1 with
    | some v => writeBits t addr (e.2 * elemBits fmt) (elemBits fmt) v
    | none => t) s

/-- The zero bits that pad an FP6 row of n elements to whole groups of three bytes (R67). -/
def padFp6 (s : State) (addr fmt n : Nat) : State :=
  if elemBits fmt = 6 then writeCols s addr fmt (List.replicate n none ++ List.replicate ((4 - n % 4) % 4) (some 0)) else s

/-- Of a row of outputs so far, the part that may leave: whole blocks where a scale covers several elements, all of it at the
row's end. -/
def readyCols (d : VecDesc) (n : Nat) (final : Bool) : Nat :=
  if (d.outD.kind = 1 ∨ d.outD.kind = 2) ∧ final = false then n / blockSize d.outD.block * blockSize d.outD.block else n

/-- The outputs of a row from column `from_` on that are ready leave for the local store or the hand-over buffer, with their scale
bytes (R123). -/
def putOut (s : State) (k n : Nat) (d : VecDesc) (row from_ : Nat) (vals : List (Option Nat)) (final : Bool) : State :=
  let base := lsAddr (k / 66) (k % 66) 0
  let lo := readyCols d from_ false
  let hi := readyCols d vals.length final
  let c := convertRow d (vals.take hi)
  let els := c.1.zipIdx.map (fun e => if lo ≤ e.2 then e.1 else none)
  let scs := c.2.filter (fun e => decide (lo ≤ e.1 * blockSize d.outD.block))
  let s := scs.foldl (fun t e => writeByte t (base + d.outD.off + row * d.outD.stride + e.1) e.2) s
  if vFlag d 1 then
    updCmd s k n fun r => { r with hand := { r.hand with rows := r.hand.rows.modify row (fun old =>
      (els.zipIdx.map (fun e => e.1.getD (old.getD e.2 0))) ++ old.drop els.length) } }
  else
    let s := writeCols s (base + d.outOff + row * 4 * d.outStride) d.outD.fmt els
    if final then padFp6 s (base + d.outOff + row * 4 * d.outStride) d.outD.fmt vals.length else s

/-- Write consecutive 32-bit words. -/
def writeWords (s : State) (addr : Nat) (ws : List Nat) : State := writeBytes ((ws.map (leBytes 4)).flatten) addr s

/-! Summaries (R142, R143) -/

/-- Bytes of a summary record (Table 5-11). -/
def summaryBytes (r : SummaryRec) : List Nat :=
  leBytes 1 r.kind ++ leBytes 1 r.flags ++ leBytes 1 r.slot ++ leBytes 1 r.ctx ++ leBytes 4 r.row ++ leBytes 2 r.seq
    ++ leBytes 2 0 ++ leBytes 4 r.value0 ++ leBytes 4 r.value1 ++ leBytes 4 r.index0 ++ leBytes 4 r.count ++ leBytes 4 0

/-- A summary record enters its core's buffer and leaves it on the summary bus (R143); beyond four, row ends wait, which a stage
that runs as one command of the block shows as records that wait with them (log 69). -/
def postRecord (s : State) (k : Nat) (x : SummaryRec) : State :=
  drainSums (updCore s fun c => { c with sumWait := storePut [] c.sumWait k (storeGet [] c.sumWait k ++ [x]) }) (k / 66)

/-- The summary of a row's reduction (Table 5-11). -/
def summaryOf (s : State) (k : Nat) (r : RunCmd) (op row : Nat) (nan empty replayed : Bool) (v0 v1 i0 n : Nat) : SummaryRec :=
  ⟨op, b2n nan + 2 * b2n empty + 4 * b2n replayed, r.q.slot, r.q.ctx, row, storeGet 0 s.core.started k % 65536, v0, v1, i0, n⟩

def postSummary (s : State) (k : Nat) (r : RunCmd) (row kk : Nat) (all replayed : Bool) (st : RedState) : State :=
  let v := redSummary kk all st
  postRecord s k (summaryOf s k r st.op row st.nan (redEmpty st) replayed v.1 v.2.1 v.2.2.1 v.2.2.2)

/-! Stage frames -/

/-- What a command's VECTOR stage copied when it started (R131, R152). -/
def scalarsOf (s : State) (h : Nat) (r : RunCmd) : List Nat := r.scalars.getD (scalarWindow s h)

/-- Whether a read of S[n] of a copy faults for a context (R132). -/
def scalarFaults (copy : List Nat) (ctx n : Nat) : Bool :=
  let w := copy.getD n 0
  !bitAt w 39 || (!bitAt w 38 && bitsOf w 37 32 != ctx)

/-- What a stage's program reads beside its registers: the values of a copy and a bank of the coefficient table (R154). -/
def vEnv (s : State) (h lane : Nat) (copy : List Nat) : VEnv :=
  ⟨lane, copy.map (· % 2 ^ 32), storeGet [] s.tt.coefBanks (h * 2 + copy.getD 32 0)⟩

/-- The scalar registers a stage reads. DESIGN CHOICE (log 73): an instruction without an operand b that has B_KIND 1 counts as one
that reads S[n]. -/
def scalarsRead (kind : Nat) (d : VecDesc) : List Nat :=
  (if kind = 3 ∧ d.mode = 3 then [d.scalar] else [])
    ++ ((d.prog.filter (fun i => i.op != 0x30 && i.bKind == 1)).map (fun i => i.imm % 32))

/-- Cycles of a program's columns in Table 5-3 and Table 5-8: vector and SFU passes of a function. -/
def fnCycles (c : Nat) : Nat := [0, 1, 1, 3, 4, 5, 7, 10, 8, 11, 10].getD c 0
def fnPasses (c : Nat) : Nat := [0, 1, 1, 1, 2, 2, 3, 4, 3, 3, 4].getD c 0
def redCycles (op : Nat) : Nat := [0, 2, 2, 1, 1, 2, 2, 4, 4, 2].getD op 0

/-- chunk_cycles of R126, and what a chunk of the other modes and stages costs (R129, R139, R147, R149). -/
def chunkCycles (kind : Nat) (d : VecDesc) (c : Nat) : Nat :=
  let q := if d.outD.kind = 1 ∨ d.outD.kind = 2 then 1 else 0
  let sm := ceilDiv (c + 1) 16
  if kind = 4 then (if d.mode = 6 then max 2 sm else redCycles d.mode)
  else if kind = 5 then max (fnCycles d.fn) (fnPasses d.fn * ceilDiv c 16) + q
  else if d.mode = 2 then max (fnCycles d.fn + 1) (fnPasses d.fn)
  else if d.mode = 3 then max sm (ceilDiv c 16 + q)
  else if d.mode = 6 then 1
  else if d.mode = 7 then 2
  else
    let v := (d.prog.map (fun i => if i.op = 0x20 then fnCycles (i.imm % 256) else if i.op = 0x29 then 4 else 1)).sum
    let r := (d.prog.map (fun i => if i.op = 0x30 then redCycles (redOf i) else 0)).sum
    let f := (d.prog.map (fun i => if i.op = 0x20 then fnPasses (i.imm % 256) * ceilDiv c 16
      else if i.op = 0x30 ∧ redOf i = 6 then sm else 0)).sum
    max v (max r f) + q + (if d.mode = 4 ∨ d.mode = 5 then 1 else 0)

/-- Live rows of a stage; a count above ROWS is clamped (R103, Table 5-12). -/
def vecLive (s : State) (k : Nat) (d : VecDesc) : Nat := liveRows s k (vFlag d 2) d.liveOff d.rows

/-- LEN_CLAMP: a row length or a list length above its limit (Table 5-12, R129). -/
def lenClamp (s : State) (k : Nat) (r : RunCmd) (bad : Bool) : State :=
  if bad then hubError (wr s .VEC_CORE_STATUS_LEN_CLAMP k 1) (k / 66) 0x904 128 r.q.slot (some r.q.ctx) else s

/-- Whether some live row's length exceeds COLS, or the list of a GATHER or SCATTER exceeds ROWS. -/
def lenOver (s : State) (base kind : Nat) (d : VecDesc) (live : Nat) : Bool :=
  (vFlag d 3 && (List.range live).any (fun i => decide (d.cols < readWord s base d.lenOff i)))
    || (kind == 3 && (d.mode == 6 || d.mode == 7) && decide (d.rows < readWord s base d.redOff 0))

/-- What a stage that may run does before its rows: clamps, its hand-over buffer and its counts. -/
def vecEntry (s : State) (k : Nat) (r : RunCmd) (d : VecDesc) (kind : Nat) (run : StageRun) : State :=
  let live := vecLive s k d
  let base := lsAddr (k / 66) (k % 66) 0
  let s := lenClamp (liveClamp s k r (vFlag d 2) d.liveOff d.rows) k r (lenOver s base kind d live)
  let w := if kind = 3 ∧ d.mode = 2 then d.cols / 2 else d.cols
  let s := if vFlag d 1 then freshHand s k r.num d.outD.fmt (laneCount d.lane) live w else s
  let s := useReserve (incX s .VEC_SUMMARY_STALL k run.stall) (coreNs s k run.stall)
  stall s k r.q.ctx 4 run.stall

/-! Rows by chunks -/

/-- How a stage runs its rows: the chunks of a row; what a row starts with (none: the row is passed over; an error: an entry outside
LS_BYTES, R129); the inputs of a chunk; its work; what leaves after a chunk; and the row's end. -/
structure RowWalk where
  chunks : Nat
  start : State → Nat → Except Unit (Option (List RedState))
  load : State → Nat → Nat → VecRegs
  work : State → Nat → Nat → VecRegs → RowOut → RowOut
  put : State → Nat → Nat → RowOut → RowOut → State
  close : State → Nat → RowOut → State × Bool

/-- What the rows of a stage run with: core, command, the stage's place, the stage, its descriptor, and the faults of its chunks. -/
structure VecRun where
  k : Nat
  r : RunCmd
  i : Nat
  st : Stage
  d : VecDesc
  cyc : Nat
  faults : List StageFault

/-- A list entry outside LS_BYTES stops a stage before its write (R129). -/
def indexFault (s : State) (k : Nat) (r : RunCmd) : State × Bool :=
  (taskFault s (k / 66) r .VEC_CORE_STATUS_INDEX_FAULT k, true)

/-- The faults of a chunk as one. -/
def chunkFault (e : VecRun) (row ch : Nat) : Option StageFault :=
  match e.faults.filter (fun f => f.tile == row && f.segment == ch) with
  | [] => none
  | f :: rest => some { f with residue := true, table := f.table || rest.any (·.table), replayOk := f.replayOk && rest.all (·.replayOk) }

/-- The chunks of a row from one on. A chunk with a fault is replayed from its inputs with the row states of its start; if that
fails too the engine is held with them, and nothing of the chunk is written (R150, R152). -/
def runChunks (e : VecRun) (p : RowWalk) (row : Nat) : Nat → Nat → RowOut → State → State × Option RowOut
  | 0, _, o, s => (s, some o)
  | n + 1, ch, o, s =>
    let g := p.load s row ch
    let done := p.work s row ch g o
    match chunkFault e row ch with
    | some f =>
      let s := stageFault s e.k e.r e.i e.st f false e.cyc { o with regs := g }
      if f.replayOk && (cmdAt s e.k e.r.num).isSome then runChunks e p row n (ch + 1) done (p.put s row (ch + 1) o done) else (s, none)
    | none => runChunks e p row n (ch + 1) done (p.put s row (ch + 1) o done)

/-- The row of a stage before its first chunk. -/
def rowStart (reds : List RedState) : RowOut := ⟨[], [], reds, ⟨[], []⟩⟩

/-- The end of a row's chunks. -/
def endRow (p : RowWalk) (row : Nat) (x : State × Option RowOut) : State × Bool :=
  match x.2 with
  | some o => p.close x.1 row o
  | none => (x.1, true)

/-- One row. -/
def runRow (e : VecRun) (p : RowWalk) (s : State) (row : Nat) : State × Bool :=
  match p.start s row with
  | .error _ => indexFault s e.k e.r
  | .ok none => (s, false)
  | .ok (some reds) => endRow p row (runChunks e p row p.chunks 0 (rowStart reds) s)

/-- The rows from one on, until one stops the stage. -/
def runRows (e : VecRun) (p : RowWalk) : Nat → Nat → State → State × Bool
  | 0, _, s => (s, false)
  | n + 1, row, s =>
    let x := runRow e p s row
    if x.2 then x else runRows e p n (row + 1) x.1

/-- The rest of the chunk a hold kept, from its retained inputs, and of its row (R152, R290). -/
def resumeRow (e : VecRun) (p : RowWalk) (h : Held) (s : State) : State × Bool :=
  let done := p.work s h.tile h.segment h.row.regs h.row
  endRow p h.tile (runChunks e p h.tile (p.chunks - h.segment - 1) (h.segment + 1) done (p.put s h.tile (h.segment + 1) h.row done))

/-! Row states that last -/

/-- The RED instructions of a program. -/
def redInstrs (d : VecDesc) : List VInstr := d.prog.filter (fun i => i.op == 0x30)

/-- Key of a row state that lasts beyond a row: HIST's counts, and those of single RED instructions. -/
def redKey (k op : Nat) : Nat := k * 65536 + op

def redAt (s : State) (k op : Nat) (int : Bool) : RedState := storeGet (redStart op int) s.core.reds (redKey k op)
def setRed (s : State) (k : Nat) (st : RedState) : State :=
  updCore s fun c => { c with reds := storeInsert c.reds (redKey k st.op) st }
def dropRed (s : State) (k op : Nat) : State := updCore s fun c => { c with reds := storeErase c.reds (redKey k op) }

/-- Row states for a row: fresh, but HIST's, which counts over the stage. -/
def rowReds (s : State) (k : Nat) (d : VecDesc) : List RedState :=
  (redInstrs d).map (fun i => if redOf i = 9 then redAt s k 9 (redInt d) else redStart (redOf i) (redInt d))

/-- A row's reductions write their outputs and summaries (R139, R142). -/
def closeReds (s : State) (k : Nat) (r : RunCmd) (d : VecDesc) (row : Nat) (replayed : Bool) (reds : List RedState) : State :=
  let base := lsAddr (k / 66) (k % 66) 0
  ((redInstrs d).zip reds).foldl (fun t e =>
    let i := e.1
    if redOf i = 9 then setRed t k e.2
    else
      let all := i.bKind == 1
      let t := writeWords t (base + i.imm + row * redOutBytes (redOf i) (redK i)) (redWords (redK i) all e.2)
      if i.c = 1 then postSummary t k r row (redK i) all replayed e.2 else t) s

/-- The stage's HIST is written and reported once at its end, over all its rows (Table 5-10). -/
def closeHist (s : State) (k : Nat) (r : RunCmd) (off rows : Nat) (summary : Bool) : State :=
  let st := { redAt s k 9 false with count := rows }
  let s := writeWords s (lsAddr (k / 66) (k % 66) off) (redWords 0 false st)
  let s := if summary then postSummary s k r (rows - 1) 0 false false st else s
  dropRed s k 9

/-- Keep the last chunk's registers. -/
def keepRegs (s : State) (k lane : Nat) (g : VecRegs) : State :=
  updCore s fun c => { c with vregs := storeInsert c.vregs k (lane, g) }

/-! Row plans -/

/-- The lanes of V0 that are active in P0. -/
def activeV0 (g : VecRegs) : List (Option Nat) := ((vreg g 0).zip (preg g 0)).map (fun y => if y.2 then some y.1 else none)

/-- The program over a chunk, onto what the row's chunks before it gave. -/
def progWork (k : Nat) (r : RunCmd) (d : VecDesc) (s : State) (_row ch : Nat) (g : VecRegs) (o : RowOut) : RowOut :=
  let x := runProgram (vEnv s (k / 66) d.lane (scalarsOf s (k / 66) r)) d ch (chunkOf d r.hand) g o.reds
  ⟨o.vals ++ activeV0 x.1, o.p1 ++ preg x.1 1, x.2, x.1⟩

/-- The plan of a stage that reads its rows in chunks; `work`, `put` and `close` differ. -/
def basePlan (k : Nat) (r : RunCmd) (d : VecDesc) (reds : State → List RedState) (work : State → Nat → Nat → VecRegs → RowOut → RowOut)
    (put : State → Nat → Nat → RowOut → RowOut → State) (close : State → Nat → RowOut → State × Bool) : RowWalk :=
  let base := lsAddr (k / 66) (k % 66) 0
  let c := chunkOf d r.hand
  { chunks := ceilDiv d.cols c
    start := fun s _ => .ok (some (reds s))
    load := fun s row ch => loadChunk s base d r.hand c row (rowLen s base d row) ch
    work := work, put := put, close := close }

/-- What leaves after a chunk of a stage whose output columns are its input columns, or their first n. -/
def putChunk (k : Nat) (r : RunCmd) (d : VecDesc) (n : Nat) (s : State) (row _ch : Nat) (before o : RowOut) : State :=
  putOut s k r.num d row (min n before.vals.length) (o.vals.take n) (decide (n ≤ o.vals.length))

/-- A MAP row (R123). -/
def mapPlan (k : Nat) (r : RunCmd) (d : VecDesc) (replayed : List Nat) : RowWalk :=
  basePlan k r d (rowReds · k d) (progWork k r d) (putChunk k r d d.cols)
    (fun s row o => (keepRegs (closeReds s k r d row (decide (row ∈ replayed)) o.reds) k d.lane o.regs, false))

/-- The elements that COMPRESS keeps: active with P1, with their columns. -/
def packed (o : RowOut) : List (Nat × Nat) :=
  ((o.vals.zip o.p1).zipIdx).filterMap (fun e => match e.1.1, e.1.2 with
    | some v, true => some (v, e.2)
    | _, _ => none)

/-- A COMPRESS row: the active elements with P1, packed, their columns and their count (R129). -/
def compressPlan (k : Nat) (r : RunCmd) (d : VecDesc) (replayed : List Nat) : RowWalk :=
  let base := lsAddr (k / 66) (k % 66) 0
  let vals := fun (o : RowOut) => (packed o).map (fun e => some e.1)
  basePlan k r d (rowReds · k d) (progWork k r d)
    (fun s row _ b o =>
      let n := (packed b).length
      writeWords (putOut s k r.num d row n (vals o) false) (base + d.auxOff + row * 4 * d.auxStride + 4 * n) (((packed o).drop n).map (·.2)))
    (fun s row o =>
      let s := putOut s k r.num d row (vals o).length (vals o) true
      let s := writeWords s (base + d.redOff + 4 * row) [(packed o).length]
      (keepRegs (closeReds s k r d row (decide (row ∈ replayed)) o.reds) k d.lane o.regs, false))

/-- The columns that an EXPAND row's elements go to (R129). -/
def expandList (s : State) (base : Nat) (d : VecDesc) (row : Nat) : List Nat :=
  (List.range (min (readWord s base d.redOff row) d.cols)).map (fun i => readWord s (base + d.auxOff + row * 4 * d.auxStride) 0 i)

/-- An EXPAND row: packed element i goes to the column that the list names; the row leaves at its end, up to an entry outside
LS_BYTES (R129). -/
def expandPlan (k : Nat) (r : RunCmd) (d : VecDesc) (replayed : List Nat) : RowWalk :=
  let base := lsAddr (k / 66) (k % 66) 0
  let c := chunkOf d r.hand
  { chunks := ceilDiv d.cols c
    start := fun s _ => .ok (some (rowReds s k d))
    load := fun s row ch => loadChunk s base d r.hand c row (min (expandList s base d row).length (rowLen s base d row)) ch
    work := progWork k r d
    put := fun s _ _ _ _ => s
    close := fun s row o =>
      let s := lenClamp s k r (decide (d.cols < readWord s base d.redOff row))
      let list := expandList s base d row
      let good := list.takeWhile (fun c => decide (d.outOff + row * 4 * d.outStride + rowBytes d.outD.fmt (c + 1) ≤ r.q.card.lsBytes))
      let w := ((good.map (· + 1)).max?).getD 0
      let vals := (List.range w).map fun c =>
        match (good.zipIdx.filter (fun e => e.1 == c)).getLast? with
        | some e => o.vals.getD e.2 none
        | none => none
      let s := putOut s k r.num d row 0 vals true
      if good.length < list.length then indexFault s k r
      else (keepRegs (closeReds s k r d row (decide (row ∈ replayed)) o.reds) k d.lane o.regs, false) }

/-- A chunk of the plain lane functions: no program, V0 through a function of the lane. -/
def laneWork (f : Nat → Nat) (_s : State) (_row _ch : Nat) (g : VecRegs) (o : RowOut) : RowOut :=
  { o with vals := o.vals ++ (activeV0 g).map (fun x => x.map f), regs := g }

/-- A GATE row: FN(g) × u for each segment of 16 gates and 16 ups, which is its chunk (R129, R149). -/
def gatePlan (k : Nat) (r : RunCmd) (d : VecDesc) : RowWalk :=
  let base := lsAddr (k / 66) (k % 66) 0
  { chunks := d.cols / 32
    start := fun _ _ => .ok (some [])
    load := fun s row ch => loadChunk s base d r.hand 32 row (rowLen s base d row) ch
    work := fun _ _ _ g o =>
      let x := activeV0 g
      let y := (x.take 16).zip (x.drop 16)
      { o with regs := g, vals := o.vals ++ y.map (fun p => match p.1, p.2 with
        | some a, some b => some (laneMul d.lane (laneFn d.fn d.lane a) b)
        | _, _ => none) }
    put := putChunk k r d (d.cols / 2)
    close := fun s _ _ => (s, false) }

/-- The elements x′ of a SOFTMAX chunk (R147). -/
def softIn (k : Nat) (r : RunCmd) (d : VecDesc) (s : State) (g : VecRegs) : List (Option Nat) :=
  let sc := lane32 d.lane ((scalarsOf s (k / 66) r).getD d.scalar 0 % 2 ^ 32)
  ((activeV0 g).zip (vreg g 1)).map fun x => x.1.map fun v =>
    let y := laneMul d.lane v sc
    laneF32 d.lane (if vFlag d 4 then laneAdd d.lane y x.2 else y)

/-- A SOFTMAX row (R147, R148): its chunks once for (m, l), and once more for the outputs. -/
def softmaxPlan (k : Nat) (r : RunCmd) (d : VecDesc) : RowWalk :=
  let base := lsAddr (k / 66) (k % 66) 0
  let c := laneCount d.lane
  let n := ceilDiv d.cols c
  { chunks := 2 * n
    start := fun _ _ => .ok (some [redStart 6 false])
    load := fun s row ch => loadChunk s base d r.hand c row (rowLen s base d row) (ch % n)
    work := fun s _ ch g o =>
      let st := o.reds.headD (redStart 6 false)
      let x := softIn k r d s g
      if ch < n then { o with reds := [smstat st x], regs := g }
      else
        let y := fun (v : Nat) =>
          if f32IsNan st.val then f32Nan else if st.val = f32NegInf then 0 else f32Mul (fnExp2 (f32Sub v st.val)) (fnRecip st.l)
        { o with vals := o.vals ++ x.map (fun v => v.map (fun v => lane32 d.lane (y v))), regs := g }
    put := fun s row ch b o =>
      if ch < n then s
      else if ch = n then
        let st := o.reds.headD (redStart 6 false)
        writeWords s (base + d.redOff + 8 * row) [st.val, st.l]
      else putChunk k r d d.cols s row ch b o
    close := fun s _ _ => (s, false) }

/-- The length of a list, clamped to ROWS (R129). -/
def listLen (s : State) (base : Nat) (d : VecDesc) : Nat := min d.rows (readWord s base d.redOff 0)

/-- The registers of a chunk whose V0 holds some lanes; only the `on` first are active. -/
def plainRegs (vals : List Nat) (on : List Bool) : VecRegs := ⟨[vals], [on, on, on, on]⟩

/-- A GATHER entry: the named source row goes to the output row of its place in the list, element patterns and scale bytes as they
are (R129). -/
def gatherPlan (k : Nat) (r : RunCmd) (d : VecDesc) : RowWalk :=
  let base := lsAddr (k / 66) (k % 66) 0
  let c := laneCount d.lane
  let src := fun (s : State) (row : Nat) => readWord s base d.auxOff row
  let out := fun (row : Nat) => base + d.outOff + row * 4 * d.outStride
  { chunks := ceilDiv d.cols c
    start := fun s row =>
      if listLen s base d ≤ row then .ok none
      else if r.q.card.lsBytes < d.inOff + src s row * 4 * d.inStride + rowBytes d.inD.fmt d.cols then .error ()
      else .ok (some [])
    load := fun s row ch =>
      let cols := (List.range (min c (d.cols - ch * c))).map (ch * c + ·)
      plainRegs (cols.map (elemAt s base d.inD.fmt d.inOff (4 * d.inStride) (src s row))) (cols.map (fun j => decide (j < rowLen s base d row)))
    work := laneWork id
    put := fun s row _ b o =>
      let els := o.vals.zipIdx.map (fun e => if b.vals.length ≤ e.2 then e.1 else none)
      if vFlag d 1 then
        updCmd s k r.num fun x => { x with hand := { x.hand with rows := x.hand.rows.modify row (fun old =>
          (els.zipIdx.map (fun e => e.1.getD (old.getD e.2 0))) ++ old.drop els.length) } }
      else writeCols s (out row) d.outD.fmt els
    close := fun s row o =>
      let nsc := if d.inD.kind = 1 ∨ d.inD.kind = 2 then ceilDiv d.cols (blockSize d.inD.block) else 0
      let s := (List.range nsc).foldl (fun t b =>
        writeByte t (base + d.outD.off + row * d.outD.stride + b) (readByte t (base + d.inD.off + src t row * d.inD.stride + b))) s
      (if vFlag d 1 then s else padFp6 s (out row) d.outD.fmt o.vals.length, false) }

/-- A SCATTER entry: fma(weight, input row, destination row) (R129). -/
def scatterPlan (k : Nat) (r : RunCmd) (d : VecDesc) : RowWalk :=
  let base := lsAddr (k / 66) (k % 66) 0
  let dest := fun (s : State) (row : Nat) => readWord s base d.auxOff (2 * row)
  let addr := fun (s : State) (row : Nat) => base + d.outOff + dest s row * 4 * d.outStride
  { chunks := ceilDiv d.cols (chunkOf d r.hand)
    start := fun s row =>
      if listLen s base d ≤ row then .ok none
      else if r.q.card.lsBytes < d.outOff + dest s row * 4 * d.outStride + 4 * d.cols then .error ()
      else .ok (some [])
    load := fun s row ch => loadChunk s base d r.hand (chunkOf d r.hand) row (rowLen s base d row) ch
    work := fun s row _ g o =>
      let n := o.vals.length
      let wt := readWord s base d.auxOff (2 * row + 1)
      { o with regs := g, vals := o.vals ++ (activeV0 g).zipIdx.map (fun e => e.1.map (fun v =>
        f32Fma wt (laneF32 d.lane v) (readLe s (addr s row + 4 * (n + e.2)) 4))) }
    put := fun s row _ b o => writeCols s (addr s row) 0xA (o.vals.zipIdx.map (fun e => if b.vals.length ≤ e.2 then e.1 else none))
    close := fun s _ _ => (s, false) }

/-- An SFU row: the function of FN over its elements (R127). -/
def sfuPlan (k : Nat) (r : RunCmd) (d : VecDesc) : RowWalk :=
  basePlan k r d (fun _ => []) (laneWork (laneFn d.fn d.lane)) (putChunk k r d d.cols) (fun s _ _ => (s, false))

/-- A REDUCTION row: an operation of Table 5-10 over its elements. DESIGN CHOICE (log 73): Table 5-4 gives a ROUTE stage no NORM_ALL,
which it runs without. -/
def reducePlan (k : Nat) (r : RunCmd) (d : VecDesc) (replayed : List Nat) : RowWalk :=
  let base := lsAddr (k / 66) (k % 66) 0
  let c := chunkOf d r.hand
  basePlan k r d (fun s => [if d.mode = 9 then redAt s k 9 (redInt d) else redStart d.mode (redInt d)])
    (fun _ _ ch g o =>
      let xs := (activeV0 g).zipIdx.map (fun e => e.1.map (fun v => (redValue d.lane (redInt d) d.mode v, ch * c + e.2 + 64 * d.indexBase)))
      { o with reds := o.reds.map (fun st => redFeed d.fn (redInt d) st xs), regs := g })
    (fun s _ _ _ _ => s)
    (fun s row o =>
      let st := o.reds.headD (redStart d.mode (redInt d))
      if d.mode = 9 then (setRed s k st, false)
      else
        let s := writeWords s (base + d.redOff + row * redOutBytes d.mode d.fn) (redWords d.fn false st)
        (if vFlag d 6 then postSummary s k r row d.fn false (decide (row ∈ replayed)) st else s, false))

/-- What a MERGE row gives from gathered stats pairs and candidates: the state, the best candidates, and the words it writes (R145). -/
def mergeWords (kk : Nat) (ms ls vs is : List Nat) : RedState × List (Nat × Nat) × List Nat :=
  let st := (ms.zip ls).foldl (fun st p => smMerge st p.1 p.2) { redStart 6 false with op := 0xA }
  let all := vs.zip is
  let real := all.filter (fun x => !f32IsNan x.1 && !(x.1 == f32NegInf && x.2 == 0xFFFFFFFF))
  let st := { st with nan := st.nan || all.any (fun x => f32IsNan x.1) }
  let best := bestOf kk real
  let ws := best.map (fun x => fnExp2 (f32Sub x.1 st.val))
  let run := ws.foldl (fun a w => a ++ [f32Add (a.getLastD 0) w]) ([] : List Nat)
  let ent := ((padCands kk best).zipIdx.map fun e => [e.1.1, e.1.2, ws.getD e.2 0, run.getD e.2 (run.getLastD 0)]).flatten
  (st, best, [st.val, st.l, best.length, b2n st.nan + 2 * b2n (st.val == f32NegInf)] ++ ent)

/-- A MERGE row: gathered stats pairs and lists become one candidate list (R145). -/
def mergePlan (k : Nat) (r : RunCmd) (d : VecDesc) (replayed : List Nat) : RowWalk :=
  let base := lsAddr (k / 66) (k % 66) 0
  let words := fun (s : State) (off row stride n odd : Nat) => (List.range n).map (fun i => readWord s (base + off + row * 4 * stride) 0 (2 * i + odd))
  { chunks := 1
    start := fun _ _ => .ok (some [])
    load := fun s row _ =>
      ⟨[words s d.inOff row d.inStride d.cols 0, words s d.inOff row d.inStride d.cols 1,
        words s d.auxOff row d.auxStride (d.cols * d.fn) 0, words s d.auxOff row d.auxStride (d.cols * d.fn) 1], []⟩
    work := fun _ _ _ g o => { o with regs := g }
    put := fun s _ _ _ _ => s
    close := fun s row o =>
      let x := mergeWords d.fn (vreg o.regs 0) (vreg o.regs 1) (vreg o.regs 2) (vreg o.regs 3)
      let s := writeWords s (base + d.redOff + row * (16 + 16 * d.fn)) x.2.2
      (if vFlag d 6 then
        postRecord s k (summaryOf s k r 0xA row x.1.nan (x.1.val == f32NegInf) (decide (row ∈ replayed)) x.1.val x.1.l
          ((padCands d.fn x.2.1).headD (0, 0)).2 x.2.1.length)
       else s, false) }

/-- The plan of a vector, reduction or SFU stage. -/
def rowPlan (k : Nat) (r : RunCmd) (kind : Nat) (d : VecDesc) (replayed : List Nat) : RowWalk :=
  if kind = 5 then sfuPlan k r d
  else if kind = 4 then (if d.mode = 0xA then mergePlan k r d replayed else reducePlan k r d replayed)
  else match d.mode with
    | 2 => gatePlan k r d
    | 3 => softmaxPlan k r d
    | 4 => compressPlan k r d replayed
    | 5 => expandPlan k r d replayed
    | 6 => gatherPlan k r d
    | 7 => scatterPlan k r d
    | _ => mapPlan k r d replayed

/-- What a stage does once after its rows: its HIST, unless no row is live (Table 5-12). -/
def rowsEnd (k : Nat) (r : RunCmd) (kind : Nat) (d : VecDesc) (live : Nat) (s : State) : State :=
  if live = 0 then s
  else if kind = 4 then (if d.mode = 9 then closeHist s k r d.redOff live (vFlag d 6) else s)
  else if kind = 3 ∧ (d.mode = 1 ∨ d.mode = 4 ∨ d.mode = 5) then
    match (redInstrs d).find? (fun i => redOf i == 9) with
    | some i => closeHist s k r i.imm live (i.c == 1)
    | none => s
  else s

/-- The descriptor of a stage of the vector engine, the reduction unit or the SFU. -/
def vecDescOf : Stage → Option VecDesc
  | .vector d => some d
  | .reduction d => some d
  | .sfu d => some d
  | _ => none

/-- The program that stands at PROG_OFF (R124), as the engine reads it when the stage runs. -/
def withProg (s : State) (k : Nat) (d : VecDesc) : VecDesc :=
  { d with prog := (List.range d.progLen).map (fun i => vinstrOf (readLe s (lsAddr (k / 66) (k % 66) (d.progOff + 8 * i)) 8)) }

/-- What every vector stage does around its rows: what stops any stage, scalar and table checks before anything is written (R132,
R156), its entry, its rows with the faults of their chunks, what it writes once at its end, and its end. -/
def vecStage (s : State) (k : Nat) (r : RunCmd) (i : Nat) (st : Stage) (d : VecDesc) (run : StageRun) : State :=
  let h := k / 66
  let kind := stageKind st
  enterStage s k r i st run fun s =>
    let live := vecLive s k d
    let d := withProg s k d
    if d.tableTag ≠ 0 ∧ d.tableTag ≠ rd s .VEC_COEF_TAG_ACTIVE_TAG h then taskFault s h r .VEC_CORE_STATUS_TABLE_MISMATCH k
    else if live ≠ 0 ∧ (scalarsRead kind d).any (scalarFaults (scalarsOf s h r) r.q.ctx) then taskFault s h r .VEC_CORE_STATUS_SCALAR_FAULT k
    else
      let s := vecEntry s k r d kind run
      let cyc := 4 + chunkCycles kind d (chunkOf d r.hand)
      let e : VecRun := ⟨k, r, i, st, d, cyc, run.faults⟩
      let x := runRows e (rowPlan k r kind d (run.faults.map (·.tile))) live 0 s
      let held := (storeFind x.1.core.held k).isSome
      let s := addStats x.1 k r.num 0 (run.faults.length * cyc) run (!run.faults.isEmpty) held
      if x.2 then s else stageDone (rowsEnd k r kind d live s) k r.num i

/-- Run the stage of a kind whose descriptor satisfies p on a core. -/
def vecEvent (s : State) (t hub phys kind : Nat) (p : VecDesc → Bool) (run : StageRun) : State :=
  let u := tick s t
  let k := coreKey hub phys
  match stageOf u k (fun st => stageKind st == kind && ((vecDescOf st).map p).getD false) with
  | some (r, i, st) =>
    match vecDescOf st with
    | some d => vecStage u k r i st d run
    | none => u
  | none => u

end Sys2Proof.Machine
end

