-- ==== Sys2Proof/Machine/VecCmds.lean ====
section
/-! DEFINITION. The commands of the vector engine, the SFU and the reduction unit: stages by mode (Tables 5-5 and
5-10), single instructions over the registers of a core's last chunk (Table 5-3), functions (Table 5-8), the
summary queue, the scalar window, and the rescue of a held engine (R290). -/

namespace Sys2Proof.Machine

/-! Stages -/

/-- MAP (R123). -/
def execMap (t hub phys : Nat) (run : StageRun) (s : State) : Host.Outcome State Fault Refusal :=
  settle s (vecEvent s t hub phys 3 (fun d => d.mode == 1) run)

/-- GATE (R149). -/
def execGate (t hub phys : Nat) (run : StageRun) (s : State) : Host.Outcome State Fault Refusal :=
  settle s (vecEvent s t hub phys 3 (fun d => d.mode == 2) run)

/-- SOFTMAX (R147). -/
def execSoftmax (t hub phys : Nat) (run : StageRun) (s : State) : Host.Outcome State Fault Refusal :=
  settle s (vecEvent s t hub phys 3 (fun d => d.mode == 3) run)

/-- COMPRESS (R129). -/
def execCompress (t hub phys : Nat) (run : StageRun) (s : State) : Host.Outcome State Fault Refusal :=
  settle s (vecEvent s t hub phys 3 (fun d => d.mode == 4) run)

/-- EXPAND (R129). -/
def execExpand (t hub phys : Nat) (run : StageRun) (s : State) : Host.Outcome State Fault Refusal :=
  settle s (vecEvent s t hub phys 3 (fun d => d.mode == 5) run)

/-- GATHER (R129). -/
def execGather (t hub phys : Nat) (run : StageRun) (s : State) : Host.Outcome State Fault Refusal :=
  settle s (vecEvent s t hub phys 3 (fun d => d.mode == 6) run)

/-- SCATTER (R129). -/
def execScatter (t hub phys : Nat) (run : StageRun) (s : State) : Host.Outcome State Fault Refusal :=
  settle s (vecEvent s t hub phys 3 (fun d => d.mode == 7) run)

/-- SFU_STAGE (R127). -/
def execSfuStage (t hub phys : Nat) (run : StageRun) (s : State) : Host.Outcome State Fault Refusal :=
  settle s (vecEvent s t hub phys 5 (fun _ => true) run)

/-- REDUCE_SUM (R140). -/
def execReduceSum (t hub phys : Nat) (run : StageRun) (s : State) : Host.Outcome State Fault Refusal :=
  settle s (vecEvent s t hub phys 4 (fun d => d.mode == 1) run)

/-- REDUCE_SUMSQ (R139). -/
def execReduceSumsq (t hub phys : Nat) (run : StageRun) (s : State) : Host.Outcome State Fault Refusal :=
  settle s (vecEvent s t hub phys 4 (fun d => d.mode == 2) run)

/-- REDUCE_MAX (R139). -/
def execReduceMax (t hub phys : Nat) (run : StageRun) (s : State) : Host.Outcome State Fault Refusal :=
  settle s (vecEvent s t hub phys 4 (fun d => d.mode == 3) run)

/-- REDUCE_MIN (R139). -/
def execReduceMin (t hub phys : Nat) (run : StageRun) (s : State) : Host.Outcome State Fault Refusal :=
  settle s (vecEvent s t hub phys 4 (fun d => d.mode == 4) run)

/-- ARGMAX (R139). -/
def execArgmax (t hub phys : Nat) (run : StageRun) (s : State) : Host.Outcome State Fault Refusal :=
  settle s (vecEvent s t hub phys 4 (fun d => d.mode == 5) run)

/-- SMSTAT (R141). -/
def execSmstat (t hub phys : Nat) (run : StageRun) (s : State) : Host.Outcome State Fault Refusal :=
  settle s (vecEvent s t hub phys 4 (fun d => d.mode == 6) run)

/-- TOPK (R139). -/
def execTopk (t hub phys : Nat) (run : StageRun) (s : State) : Host.Outcome State Fault Refusal :=
  settle s (vecEvent s t hub phys 4 (fun d => d.mode == 7) run)

/-- ROUTE (R139). -/
def execRoute (t hub phys : Nat) (run : StageRun) (s : State) : Host.Outcome State Fault Refusal :=
  settle s (vecEvent s t hub phys 4 (fun d => d.mode == 8) run)

/-- HIST (R139). -/
def execHist (t hub phys : Nat) (run : StageRun) (s : State) : Host.Outcome State Fault Refusal :=
  settle s (vecEvent s t hub phys 4 (fun d => d.mode == 9) run)

/-- MERGE (R145). -/
def execMerge (t hub phys : Nat) (run : StageRun) (s : State) : Host.Outcome State Fault Refusal :=
  settle s (vecEvent s t hub phys 4 (fun d => d.mode == 10) run)

/-! Instructions -/

/-- The registers of a core whose vector engine has run no chunk. -/
def restRegs : Nat × VecRegs := (1, ⟨List.replicate 16 (List.replicate 64 0), List.replicate 4 (List.replicate 64 false)⟩)

/-- The registers of a core's last chunk, with its lane width. -/
def regsOf (s : State) (k : Nat) : Nat × VecRegs := storeGet restRegs s.core.vregs k

/-- The scalars and the table bank that an instruction on a core reads: those that the command in progress copied (R131), or the
hub's own. -/
def opCopy (s : State) (hub phys : Nat) : List Nat := ((curCmd s (coreKey hub phys)).map (scalarsOf s hub)).getD (scalarWindow s hub)

/-- One instruction over the registers of a core's last chunk, with the scalars and the table bank of `opCopy`. A scalar that the command may not read faults before anything is written (R132). -/
def vecOp (s : State) (hub phys : Nat) (i : VInstr) (f : VEnv → VInstr → VecRegs → VecRegs) : State :=
  let k := coreKey hub phys
  let g := regsOf s k
  let copy := opCopy s hub phys
  match (curCmd s k).filter (fun r => i.bKind == 1 && scalarFaults copy r.q.ctx (i.imm % 32)) with
  | some r => taskFault s hub r .VEC_CORE_STATUS_SCALAR_FAULT k
  | none => keepRegs s k g.1 (f (vEnv s hub g.1 copy) i g.2)

/-- ADD (R125). -/
def execAdd (hub phys : Nat) (i : VInstr) (s : State) : Host.Outcome State Fault Refusal :=
  settle s (vecOp s hub phys i (vBin laneAdd))

/-- SUB (R125). -/
def execSub (hub phys : Nat) (i : VInstr) (s : State) : Host.Outcome State Fault Refusal :=
  settle s (vecOp s hub phys i (vBin laneSub))

/-- MUL (R125). -/
def execMul (hub phys : Nat) (i : VInstr) (s : State) : Host.Outcome State Fault Refusal :=
  settle s (vecOp s hub phys i (vBin laneMul))

/-- FMA (R125). -/
def execFma (hub phys : Nat) (i : VInstr) (s : State) : Host.Outcome State Fault Refusal :=
  settle s (vecOp s hub phys i (vFma))

/-- MAX (R125). -/
def execMax (hub phys : Nat) (i : VInstr) (s : State) : Host.Outcome State Fault Refusal :=
  settle s (vecOp s hub phys i (vBin laneMax))

/-- MIN (R125). -/
def execMin (hub phys : Nat) (i : VInstr) (s : State) : Host.Outcome State Fault Refusal :=
  settle s (vecOp s hub phys i (vBin laneMin))

/-- ABS (R125). -/
def execAbs (hub phys : Nat) (i : VInstr) (s : State) : Host.Outcome State Fault Refusal :=
  settle s (vecOp s hub phys i (vUn laneAbs))

/-- NEG (R125). -/
def execNeg (hub phys : Nat) (i : VInstr) (s : State) : Host.Outcome State Fault Refusal :=
  settle s (vecOp s hub phys i (vUn laneNeg))

/-- CMPLT (R125). -/
def execCmplt (hub phys : Nat) (i : VInstr) (s : State) : Host.Outcome State Fault Refusal :=
  settle s (vecOp s hub phys i (vCmp laneLt))

/-- CMPLE (R125). -/
def execCmple (hub phys : Nat) (i : VInstr) (s : State) : Host.Outcome State Fault Refusal :=
  settle s (vecOp s hub phys i (vCmp laneLe))

/-- CMPEQ (R125). -/
def execCmpeq (hub phys : Nat) (i : VInstr) (s : State) : Host.Outcome State Fault Refusal :=
  settle s (vecOp s hub phys i (vCmp laneEq))

/-- SEL (R125). -/
def execSel (hub phys : Nat) (i : VInstr) (s : State) : Host.Outcome State Fault Refusal :=
  settle s (vecOp s hub phys i (vSel))

/-- IADD (R125). -/
def execIadd (hub phys : Nat) (i : VInstr) (s : State) : Host.Outcome State Fault Refusal :=
  settle s (vecOp s hub phys i (vBin laneIadd))

/-- AND (R125). -/
def execAnd (hub phys : Nat) (i : VInstr) (s : State) : Host.Outcome State Fault Refusal :=
  settle s (vecOp s hub phys i (vBin laneAnd))

/-- OR (R125). -/
def execOr (hub phys : Nat) (i : VInstr) (s : State) : Host.Outcome State Fault Refusal :=
  settle s (vecOp s hub phys i (vBin laneOr))

/-- XOR (R125). -/
def execXor (hub phys : Nat) (i : VInstr) (s : State) : Host.Outcome State Fault Refusal :=
  settle s (vecOp s hub phys i (vBin laneXor))

/-- SHL (R125). -/
def execShl (hub phys : Nat) (i : VInstr) (s : State) : Host.Outcome State Fault Refusal :=
  settle s (vecOp s hub phys i (vBin laneShl))

/-- SHRA (R125). -/
def execShra (hub phys : Nat) (i : VInstr) (s : State) : Host.Outcome State Fault Refusal :=
  settle s (vecOp s hub phys i (vBin laneShra))

/-- CVTI (R125). -/
def execCvti (hub phys : Nat) (i : VInstr) (s : State) : Host.Outcome State Fault Refusal :=
  settle s (vecOp s hub phys i (vUn laneCvti))

/-- CVTF (R125). -/
def execCvtf (hub phys : Nat) (i : VInstr) (s : State) : Host.Outcome State Fault Refusal :=
  settle s (vecOp s hub phys i (vUn laneCvtf))

/-- FN (R137): the function of IMM[7:0]. -/
def execFn (hub phys : Nat) (i : VInstr) (s : State) : Host.Outcome State Fault Refusal :=
  settle s (vecOp s hub phys i (vFn (i.imm % 256)))

/-- LUT (R156). -/
def execLut (hub phys : Nat) (i : VInstr) (s : State) : Host.Outcome State Fault Refusal :=
  settle s (vecOp s hub phys i (fun e => vUn (laneLut e.coef) e))

/-- PWC (R156). -/
def execPwc (hub phys : Nat) (i : VInstr) (s : State) : Host.Outcome State Fault Refusal :=
  settle s (vecOp s hub phys i (fun e => vUn (lanePwc e.coef) e))

/-- RED (R139): the operand's active, unguarded lanes enter the row state of the operation that DST names. -/
def execRed (hub phys : Nat) (i : VInstr) (s : State) : Host.Outcome State Fault Refusal :=
  let k := coreKey hub phys
  let g := regsOf s k
  let int := laneInt g.1
  let xs := ((vreg g.2 i.a).zip ((preg g.2 0).zip (guardOf g.2 i))).zipIdx.map fun e =>
    if e.1.2.1 && e.1.2.2 then some (redValue g.1 int (redOf i) e.1.1, e.2) else none
  settle s (setRed s k (redFeed (redK i) int (redAt s k (redOf i) int) xs))

/-! Functions -/

/-- FN_EXP2 (R133). -/
def execFnExp2 (hub phys : Nat) (i : VInstr) (s : State) : Host.Outcome State Fault Refusal :=
  settle s (vecOp s hub phys i (vFn 1))

/-- FN_LOG2 (R134). -/
def execFnLog2 (hub phys : Nat) (i : VInstr) (s : State) : Host.Outcome State Fault Refusal :=
  settle s (vecOp s hub phys i (vFn 2))

/-- FN_EXP (R137). -/
def execFnExp (hub phys : Nat) (i : VInstr) (s : State) : Host.Outcome State Fault Refusal :=
  settle s (vecOp s hub phys i (vFn 3))

/-- FN_RECIP (R137). -/
def execFnRecip (hub phys : Nat) (i : VInstr) (s : State) : Host.Outcome State Fault Refusal :=
  settle s (vecOp s hub phys i (vFn 4))

/-- FN_RSQRT (R137). -/
def execFnRsqrt (hub phys : Nat) (i : VInstr) (s : State) : Host.Outcome State Fault Refusal :=
  settle s (vecOp s hub phys i (vFn 5))

/-- FN_SIGMOID (R137). -/
def execFnSigmoid (hub phys : Nat) (i : VInstr) (s : State) : Host.Outcome State Fault Refusal :=
  settle s (vecOp s hub phys i (vFn 6))

/-- FN_TANH (R137). -/
def execFnTanh (hub phys : Nat) (i : VInstr) (s : State) : Host.Outcome State Fault Refusal :=
  settle s (vecOp s hub phys i (vFn 7))

/-- FN_SILU (R137). -/
def execFnSilu (hub phys : Nat) (i : VInstr) (s : State) : Host.Outcome State Fault Refusal :=
  settle s (vecOp s hub phys i (vFn 8))

/-- FN_GELU (R137). -/
def execFnGelu (hub phys : Nat) (i : VInstr) (s : State) : Host.Outcome State Fault Refusal :=
  settle s (vecOp s hub phys i (vFn 9))

/-- FN_SOFTPLUS (R137). -/
def execFnSoftplus (hub phys : Nat) (i : VInstr) (s : State) : Host.Outcome State Fault Refusal :=
  settle s (vecOp s hub phys i (vFn 10))

/-! Summary queue and scalars -/

/-- SUMQ_POP (R143, R158): the control core reads the 32 bytes of VEC_SUMQ_HEAD, which hold the head record, and its read of
the last word pops it; a record that waits in a core's buffer may then enter. Any other reader is given zero and pops
nothing. -/
def execSumqPop (src : Src) (hub : Nat) (s : State) : Host.Outcome State Fault Refusal :=
  let l := storeGet [] s.core.sumq hub
  settle s (if src = .core hub then
      drainSums (setSumq (emit s (.readData (((l.head?).map (fun x => leNum (summaryBytes x))).getD 0))) hub (l.drop 1)) hub
    else emit s (.readData 0))

/-- SCALAR_CSR_WRITE (R130, R131): a register of the hub's scalar window, which every core of the hub copies. -/
def execScalarCsrWrite (hub n value : Nat) (s : State) : Host.Outcome State Fault Refusal :=
  let x := hub * 32 + n % 32
  settle s (wr (wr (wr (wr s .VEC_SCALAR_VALUE x (bitsOf value 31 0)) .VEC_SCALAR_CTX x (bitsOf value 37 32))
    .VEC_SCALAR_SHARED x (bitsOf value 38 38)) .VEC_SCALAR_VALID x (bitsOf value 39 39))

/-! Rescue -/

/-- The end of a held stage that ran to its end. -/
def endResumed (x : State × Bool) (after : State → State) (k n i : Nat) : State :=
  if x.2 then x.1 else stageDone (after x.1) k n i

/-- The rest of a held stage, from the tile or row it was held at: the arrays from CHECK or DRAIN, the Freewheel path with the
bytes that its replay buffer holds and those that arrive after them, the vector engine from the chunk's retained inputs and
the copies of the stage's start (R115, R152). -/
def resumeStage (s : State) (k : Nat) (r : RunCmd) (h : Held) (port : List Nat) : State :=
  let run := fun (st : Stage) (kind live : Nat) (joins stays : Bool) => (⟨k, r, h.stage, st, kind, live, joins, stays, []⟩ : ArrayRun)
  match r.q.cmd.stages[h.stage]? with
  | some (.matrix d) =>
    let live := liveRows s k (matFlag d 1) d.liveOff d.m
    endResumed (resumeTiles (run (.matrix d) 1 live (matFlag d 5) (matFlag d 4)) (matTileSet s k r.num d live) h s) (preloadNext k r.num) k r.num h.stage
  | some (.freewheel d) =>
    let live := liveRows s k (bitAt d.flags 1) d.liveOff d.rows
    let from_ := portStart d.b d.kseg (ceilDiv d.k 32) h.tile (h.segment * d.kseg)
    let bytes := List.replicate from_ 0 ++ (engineAt s k 2).port ++ port
    endResumed (resumeTiles (run (.freewheel d) 2 live false false) (fwTileSet k r.num d live bytes) h s) id k r.num h.stage
  | some st =>
    match vecDescOf st with
    | some d =>
      let kind := stageKind st
      let live := vecLive s k d
      let d := withProg s k d
      let e : VecRun := ⟨k, r, h.stage, st, d, 4 + chunkCycles kind d (chunkOf d r.hand), []⟩
      let p := rowPlan k r kind d [h.tile]
      let x := resumeRow e p h s
      endResumed (if x.2 then x else runRows e p (live - h.tile - 1) (h.tile + 1) x.1) (rowsEnd k r kind d live) k r.num h.stage
    | none => s
  | none => s

/-- RESCUE_REPLAY (R290): the held engine is released for one replay at SKIP 3/4. If it passes the command continues; if it
fails, or the command was rescued before, the core is RETIRED and the task ends FAILED_ARITH. `port` holds the weight bytes of
the segments after the one in the Freewheel replay buffer. -/
def execRescueReplay (t hub phys : Nat) (passed : Bool) (port : List Nat) (s : State) : Host.Outcome State Fault Refusal :=
  let u := tick s t
  let k := coreKey hub phys
  let held := (storeFind u.core.held k).bind (fun h => (cmdAt u k h.num).map (fun r => (h, r)))
  settle s (match held with
    | some (h, r) =>
      let pass := passed && !r.rescued
      let u := incX (saveCore (wr u .INTEG_CORE_INFO_SKIP k 2) k) .INTEG_RESCUES hub
      let u := checkRecord u 0x02 k r (if h.drain then 5 else h.engine) h.segment (!h.residue) h.injected (if pass then 1 else 2)
      let u := trail u k 0x06 r.q.ctx h.segment (b2n pass)
      let u := wr (wr u .MAT_CORE_STATUS_HELD k 0) .VEC_CORE_STATUS_HELD k 0
      let u := updCore u fun c => { c with held := storeErase c.held k }
      if pass then
        let r := { r with rescued := true }
        resumeStage (setCmd u k r) k r h port
      else markRetired (endTask u r.q.task r.q.card.cardId 0x22 0) k 0x08 true
    | none => u)

end Sys2Proof.Machine
end

