-- ==== Sys2Proof/Machine/Dispatch.lean ====
section
/-! DEFINITION. The meaning of each command: one arm for each constructor. -/

namespace Sys2Proof.Machine

def exec (i : Instr) (s : State) : Host.Outcome State Fault Refusal :=
  match i with
  | .intakeTick n ctls => Sys2Proof.Machine.execIntakeTick n ctls s
  | .generate h r => Sys2Proof.Machine.execGenerate h r s
  | .cancel h resv => Sys2Proof.Machine.execCancel h resv s
  | .close h resv => Sys2Proof.Machine.execClose h resv s
  | .hint h permit us resv => Sys2Proof.Machine.execHint h permit us resv s
  | .loadBundle h r hdr => Sys2Proof.Machine.execLoadBundle h r hdr s
  | .bundleSectionArrival t n part => Sys2Proof.Machine.execBundleSectionArrival t n part s
  | .unloadBundle h model resv => Sys2Proof.Machine.execUnloadBundle h model resv s
  | .adapterLoad h r => Sys2Proof.Machine.execAdapterLoad h r s
  | .adapterImageAuthenticated t ctx idx hdr tagOk img => Sys2Proof.Machine.execAdapterImageAuthenticated t ctx idx hdr tagOk img s
  | .adapterRelease h slotBits resv => Sys2Proof.Machine.execAdapterRelease h slotBits resv s
  | .releaseZeroingDone t slot => Sys2Proof.Machine.execReleaseZeroingDone t slot s
  | .trainOpen h r => Sys2Proof.Machine.execTrainOpen h r s
  | .trainStep h r => Sys2Proof.Machine.execTrainStep h r s
  | .trainCheckpoint h r => Sys2Proof.Machine.execTrainCheckpoint h r s
  | .checkpointWriteDone t ctx idx => Sys2Proof.Machine.execCheckpointWriteDone t ctx idx s
  | .trainClose h slotBits flags format resv => Sys2Proof.Machine.execTrainClose h slotBits flags format resv s
  | .attest h r => Sys2Proof.Machine.execAttest h r s
  | .attestReportSigned t => Sys2Proof.Machine.execAttestReportSigned t s
  | .keyBegin h r => Sys2Proof.Machine.execKeyBegin h r s
  | .keyFinish h r ct => Sys2Proof.Machine.execKeyFinish h r ct s
  | .keyErase h keyIndex resv => Sys2Proof.Machine.execKeyErase h keyIndex resv s
  | .pendingKeyExpiry t ctx keyIndex => Sys2Proof.Machine.execPendingKeyExpiry t ctx keyIndex s
  | .evqPoll t c v => Sys2Proof.Machine.execEvqPoll t c v s
  | .backlogTimeout t c => Sys2Proof.Machine.execBacklogTimeout t c s
  | .evqRearmPoll t c v => Sys2Proof.Machine.execEvqRearmPoll t c v s
  | .planFreeze t f => Sys2Proof.Machine.execPlanFreeze t f s
  | .stepBoundary t e => Sys2Proof.Machine.execStepBoundary t e s
  | .idleBoundary t => Sys2Proof.Machine.execIdleBoundary t s
  | .refreshWatchdog t chan slots => Sys2Proof.Machine.execRefreshWatchdog t chan slots s
  | .hubTtLoad src hub => Sys2Proof.Machine.execHubTtLoad src hub s
  | .hubTtLoadDone t hub => Sys2Proof.Machine.execHubTtLoadDone t hub s
  | .wingTtLoad src wing => Sys2Proof.Machine.execWingTtLoad src wing s
  | .wingTtLoadDone t wing => Sys2Proof.Machine.execWingTtLoadDone t wing s
  | .wingTtFlipReq src wing value => Sys2Proof.Machine.execWingTtFlipReq src wing value s
  | .remapFlipReq src hub value => Sys2Proof.Machine.execRemapFlipReq src hub value s
  | .remapSlotWrite src hub bank slot value => Sys2Proof.Machine.execRemapSlotWrite src hub bank slot value s
  | .vecCoefLoad src hub => Sys2Proof.Machine.execVecCoefLoad src hub s
  | .vecCoefLoadDone t hub => Sys2Proof.Machine.execVecCoefLoadDone t hub s
  | .vecCoefFlipReq src hub value => Sys2Proof.Machine.execVecCoefFlipReq src hub value s
  | .pannierCopyStart src => Sys2Proof.Machine.execPannierCopyStart src s
  | .pannierCopyDone t => Sys2Proof.Machine.execPannierCopyDone t s
  | .pannierFlipReq src value => Sys2Proof.Machine.execPannierFlipReq src value s
  | .pannierEntryWrite src wing bank slot e => Sys2Proof.Machine.execPannierEntryWrite src wing bank slot e s
  | .registerWrite src tg width value => Sys2Proof.Machine.execRegisterWrite src tg width value s
  | .fusedCommand t q => Sys2Proof.Machine.execFusedCommand t q s
  | .matrixStage t hub phys run => Sys2Proof.Machine.execMatrixStage t hub phys run s
  | .retentionRelease t hub phys cycles => Sys2Proof.Machine.execRetentionRelease t hub phys cycles s
  | .rescueReplay t hub phys passed port => Sys2Proof.Machine.execRescueReplay t hub phys passed port s
  | .freewheelStage t hub phys port run => Sys2Proof.Machine.execFreewheelStage t hub phys port run s
  | .map t hub phys run => Sys2Proof.Machine.execMap t hub phys run s
  | .gate t hub phys run => Sys2Proof.Machine.execGate t hub phys run s
  | .softmax t hub phys run => Sys2Proof.Machine.execSoftmax t hub phys run s
  | .compress t hub phys run => Sys2Proof.Machine.execCompress t hub phys run s
  | .expand t hub phys run => Sys2Proof.Machine.execExpand t hub phys run s
  | .gather t hub phys run => Sys2Proof.Machine.execGather t hub phys run s
  | .scatter t hub phys run => Sys2Proof.Machine.execScatter t hub phys run s
  | .sfuStage t hub phys run => Sys2Proof.Machine.execSfuStage t hub phys run s
  | .add hub phys vi => Sys2Proof.Machine.execAdd hub phys vi s
  | .sub hub phys vi => Sys2Proof.Machine.execSub hub phys vi s
  | .mul hub phys vi => Sys2Proof.Machine.execMul hub phys vi s
  | .fma hub phys vi => Sys2Proof.Machine.execFma hub phys vi s
  | .max hub phys vi => Sys2Proof.Machine.execMax hub phys vi s
  | .min hub phys vi => Sys2Proof.Machine.execMin hub phys vi s
  | .abs hub phys vi => Sys2Proof.Machine.execAbs hub phys vi s
  | .neg hub phys vi => Sys2Proof.Machine.execNeg hub phys vi s
  | .cmplt hub phys vi => Sys2Proof.Machine.execCmplt hub phys vi s
  | .cmple hub phys vi => Sys2Proof.Machine.execCmple hub phys vi s
  | .cmpeq hub phys vi => Sys2Proof.Machine.execCmpeq hub phys vi s
  | .sel hub phys vi => Sys2Proof.Machine.execSel hub phys vi s
  | .iadd hub phys vi => Sys2Proof.Machine.execIadd hub phys vi s
  | .and hub phys vi => Sys2Proof.Machine.execAnd hub phys vi s
  | .or hub phys vi => Sys2Proof.Machine.execOr hub phys vi s
  | .xor hub phys vi => Sys2Proof.Machine.execXor hub phys vi s
  | .shl hub phys vi => Sys2Proof.Machine.execShl hub phys vi s
  | .shra hub phys vi => Sys2Proof.Machine.execShra hub phys vi s
  | .cvti hub phys vi => Sys2Proof.Machine.execCvti hub phys vi s
  | .cvtf hub phys vi => Sys2Proof.Machine.execCvtf hub phys vi s
  | .fn hub phys vi => Sys2Proof.Machine.execFn hub phys vi s
  | .lut hub phys vi => Sys2Proof.Machine.execLut hub phys vi s
  | .pwc hub phys vi => Sys2Proof.Machine.execPwc hub phys vi s
  | .red hub phys vi => Sys2Proof.Machine.execRed hub phys vi s
  | .fnExp2 hub phys vi => Sys2Proof.Machine.execFnExp2 hub phys vi s
  | .fnLog2 hub phys vi => Sys2Proof.Machine.execFnLog2 hub phys vi s
  | .fnExp hub phys vi => Sys2Proof.Machine.execFnExp hub phys vi s
  | .fnRecip hub phys vi => Sys2Proof.Machine.execFnRecip hub phys vi s
  | .fnRsqrt hub phys vi => Sys2Proof.Machine.execFnRsqrt hub phys vi s
  | .fnSigmoid hub phys vi => Sys2Proof.Machine.execFnSigmoid hub phys vi s
  | .fnTanh hub phys vi => Sys2Proof.Machine.execFnTanh hub phys vi s
  | .fnSilu hub phys vi => Sys2Proof.Machine.execFnSilu hub phys vi s
  | .fnGelu hub phys vi => Sys2Proof.Machine.execFnGelu hub phys vi s
  | .fnSoftplus hub phys vi => Sys2Proof.Machine.execFnSoftplus hub phys vi s
  | .reduceSum t hub phys run => Sys2Proof.Machine.execReduceSum t hub phys run s
  | .reduceSumsq t hub phys run => Sys2Proof.Machine.execReduceSumsq t hub phys run s
  | .reduceMax t hub phys run => Sys2Proof.Machine.execReduceMax t hub phys run s
  | .reduceMin t hub phys run => Sys2Proof.Machine.execReduceMin t hub phys run s
  | .argmax t hub phys run => Sys2Proof.Machine.execArgmax t hub phys run s
  | .smstat t hub phys run => Sys2Proof.Machine.execSmstat t hub phys run s
  | .topk t hub phys run => Sys2Proof.Machine.execTopk t hub phys run s
  | .route t hub phys run => Sys2Proof.Machine.execRoute t hub phys run s
  | .hist t hub phys run => Sys2Proof.Machine.execHist t hub phys run s
  | .merge t hub phys run => Sys2Proof.Machine.execMerge t hub phys run s
  | .sumqPop src hub => Sys2Proof.Machine.execSumqPop src hub s
  | .scalarCsrWrite hub n value => Sys2Proof.Machine.execScalarCsrWrite hub n value s
  | .pageRead t hub phys run => Sys2Proof.Machine.execPageRead t hub phys run s
  | .pageWrite t hub phys run => Sys2Proof.Machine.execPageWrite t hub phys run s
  | .adapterRead t hub phys run => Sys2Proof.Machine.execAdapterRead t hub phys run s
  | .copy t hub phys host run => Sys2Proof.Machine.execCopy t hub phys host run s
  | .redAdd t hub phys host run => Sys2Proof.Machine.execRedAdd t hub phys host run s
  | .fill t hub phys run => Sys2Proof.Machine.execFill t hub phys run s
  | .pantryAmo hub addr double op value => Sys2Proof.Machine.execPantryAmo hub addr double op value s
  | .pantryLr hub addr double => Sys2Proof.Machine.execPantryLr hub addr double s
  | .pantrySc hub addr double value => Sys2Proof.Machine.execPantrySc hub addr double value s
  | .memGrant src hub granule space phys owner go => Sys2Proof.Machine.execMemGrant src hub granule space phys owner go s
  | .matInjectArm src hub slot target bit => Sys2Proof.Machine.execMatInjectArm src hub slot target bit s
  | .hangTimeout t hub phys reserve => Sys2Proof.Machine.execHangTimeout t hub phys reserve s
  | .trailDumpDone t scope => Sys2Proof.Machine.execTrailDumpDone t scope s
  | .fieldTest t hub phys test ft expected event => Sys2Proof.Machine.execFieldTest t hub phys test ft expected event s
  | .sweepRotation t hub => Sys2Proof.Machine.execSweepRotation t hub s
  | .heartbeatSample t hub value => Sys2Proof.Machine.execHeartbeatSample t hub value s
  | .shadowHeartbeatSample t value => Sys2Proof.Machine.execShadowHeartbeatSample t value s
  | .cellarWrite t => Sys2Proof.Machine.execCellarWrite t s
  | .coalesceWindowEnd t kind unit => Sys2Proof.Machine.execCoalesceWindowEnd t kind unit s
  | .platformEventMessage t answered => Sys2Proof.Machine.execPlatformEventMessage t answered s
  | .pldmEventRetry t answered => Sys2Proof.Machine.execPldmEventRetry t answered s
  | .markSuspect src hub slot => Sys2Proof.Machine.execMarkSuspect src hub slot s
  | .markRetired src hub slot => Sys2Proof.Machine.execMarkRetired src hub slot s
  | .setSkip src hub slot value => Sys2Proof.Machine.execSetSkip src hub slot value s
  | .readmit src hub slot => Sys2Proof.Machine.execReadmit src hub slot s
  | .clearLastEvent src hub slot => Sys2Proof.Machine.execClearLastEvent src hub slot s
  | .setHubNormal src hub => Sys2Proof.Machine.execSetHubNormal src hub s
  | .hbmBurstRetry t addr attempt write => Sys2Proof.Machine.execHbmBurstRetry t addr attempt write s
  | .hbmStoredError t addr correctable => Sys2Proof.Machine.execHbmStoredError t addr correctable s
  | .weightRebuildDone t block verified => Sys2Proof.Machine.execWeightRebuildDone t block verified s
  | .refetchDone t block source data => Sys2Proof.Machine.execRefetchDone t block source data s
  | .degradedDrainDone t chan => Sys2Proof.Machine.execDegradedDrainDone t chan s
  | .degradedTimeout t chan => Sys2Proof.Machine.execDegradedTimeout t chan s
  | .patrolScrub t chan => Sys2Proof.Machine.execPatrolScrub t chan s
  | .stackFailure t stack room => Sys2Proof.Machine.execStackFailure t stack room s
  | .regionClearDone t region => Sys2Proof.Machine.execRegionClearDone t region s
  | .hbmRepairGo src chan => Sys2Proof.Machine.execHbmRepairGo src chan s
  | .hbmRepairDone t chan ok spares block => Sys2Proof.Machine.execHbmRepairDone t chan ok spares block s
  | .parkImageComplete t session => Sys2Proof.Machine.execParkImageComplete t session s
  | .unparkDue t session => Sys2Proof.Machine.execUnparkDue t session s
  | .unparkComplete t session host => Sys2Proof.Machine.execUnparkComplete t session host s
  | .pwrAlertAssert t rail delay width => Sys2Proof.Machine.execPwrAlertAssert t rail delay width s
  | .stormExpiry t wing => Sys2Proof.Machine.execStormExpiry t wing s
  | .pwrAlertDeassert t rail => Sys2Proof.Machine.execPwrAlertDeassert t rail s
  | .alertHoldExpiry t wing mv => Sys2Proof.Machine.execAlertHoldExpiry t wing mv s
  | .alertLongHold t rail => Sys2Proof.Machine.execAlertLongHold t rail s
  | .throttleAssert t => Sys2Proof.Machine.execThrottleAssert t s
  | .throttleDeassert t => Sys2Proof.Machine.execThrottleDeassert t s
  | .derailleurWindow t wing meas est input attrib => Sys2Proof.Machine.execDerailleurWindow t wing meas est input attrib s
  | .limiterSample t wing predicted measured ends extra => Sys2Proof.Machine.execLimiterSample t wing predicted measured ends extra s
  | .drlEstClear src t wing => Sys2Proof.Machine.execDrlEstClear src t wing s
  | .pwrCapWrite src t value => Sys2Proof.Machine.execPwrCapWrite src t value s
  | .pwrMeterWrite src t m value => Sys2Proof.Machine.execPwrMeterWrite src t m value s
  | .thermalLevel t sensor reading => Sys2Proof.Machine.execThermalLevel t sensor reading s
  | .railFault t rail kind room => Sys2Proof.Machine.execRailFault t rail kind room s
  | .inputVoltageBand t volts amps => Sys2Proof.Machine.execInputVoltageBand t volts amps s
  | .powerFail t volts flushed => Sys2Proof.Machine.execPowerFail t volts flushed s
  | .hotswapLimitTimeout t => Sys2Proof.Machine.execHotswapLimitTimeout t s
  | .hotswapRestart t seenA seenB cores chans => Sys2Proof.Machine.execHotswapRestart t seenA seenB cores chans s
  | .linkSignalDetect t l => Sys2Proof.Machine.execLinkSignalDetect t l s
  | .linkTrainingDone t l mask delay => Sys2Proof.Machine.execLinkTrainingDone t l mask delay s
  | .linkTrainingTimeout t l => Sys2Proof.Machine.execLinkTrainingTimeout t l s
  | .linkErrorThreshold t l trouble tasks => Sys2Proof.Machine.execLinkErrorThreshold t l trouble tasks s
  | .linkRetrainDone t l mask => Sys2Proof.Machine.execLinkRetrainDone t l mask s
  | .linkRetrainTimeout t l tasks => Sys2Proof.Machine.execLinkRetrainTimeout t l tasks s
  | .linkLost t l => Sys2Proof.Machine.execLinkLost t l s
  | .spokeData t l p uncorr task card => Sys2Proof.Machine.execSpokeData t l p uncorr task card s
  | .spokeRed t l p uncorr task card fmt count => Sys2Proof.Machine.execSpokeRed t l p uncorr task card fmt count s
  | .spokeAck t l p => Sys2Proof.Machine.execSpokeAck t l p s
  | .spokeNak t l p tasks => Sys2Proof.Machine.execSpokeNak t l p tasks s
  | .spokeSync t l p => Sys2Proof.Machine.execSpokeSync t l p s
  | .syncSend t => Sys2Proof.Machine.execSyncSend t s
  | .upstreamTimeout t => Sys2Proof.Machine.execUpstreamTimeout t s
  | .holdoverTimeout t => Sys2Proof.Machine.execHoldoverTimeout t s
  | .hello t l b => Sys2Proof.Machine.execHello t l b s
  | .join t l b => Sys2Proof.Machine.execJoin t l b s
  | .joinRetry t => Sys2Proof.Machine.execJoinRetry t s
  | .settledTimer t => Sys2Proof.Machine.execSettledTimer t s
  | .epoch t l b => Sys2Proof.Machine.execEpoch t l b s
  | .selfDeadTimeout t => Sys2Proof.Machine.execSelfDeadTimeout t s
  | .credit t l p => Sys2Proof.Machine.execCredit t l p s
  | .linklost t l reporter lost rlink => Sys2Proof.Machine.execLinklost t l reporter lost rlink s
  | .declareTimeout t l heard => Sys2Proof.Machine.execDeclareTimeout t l heard s
  | .barrier t l p b => Sys2Proof.Machine.execBarrier t l p b s
  | .spokeTableFlip t => Sys2Proof.Machine.execSpokeTableFlip t s
  | .spokeTtLoad src => Sys2Proof.Machine.execSpokeTtLoad src s
  | .spokeTtFlipReq src value => Sys2Proof.Machine.execSpokeTtFlipReq src value s
  | .spokeFabAddrWrite src t addr => Sys2Proof.Machine.execSpokeFabAddrWrite src t addr s
  | .fabDrain src t successor => Sys2Proof.Machine.execFabDrain src t successor s
  | .drainComplete t moved => Sys2Proof.Machine.execDrainComplete t moved s
  | .fabCancelDrain src t => Sys2Proof.Machine.execFabCancelDrain src t s
  | .fabLeave src t => Sys2Proof.Machine.execFabLeave src t s
  | .linkRetire src t l tasks => Sys2Proof.Machine.execLinkRetire src t l tasks s
  | .linkRestore src t l => Sys2Proof.Machine.execLinkRestore src t l s
  | .ctxGrant src t c cls => Sys2Proof.Machine.execCtxGrant src t c cls s
  | .ctxSuspend src t c => Sys2Proof.Machine.execCtxSuspend src t c s
  | .suspendDone t c => Sys2Proof.Machine.execSuspendDone t c s
  | .ctxResume src t c => Sys2Proof.Machine.execCtxResume src t c s
  | .ctxTeardown src t c => Sys2Proof.Machine.execCtxTeardown src t c s
  | .teardownItemsEnded t c => Sys2Proof.Machine.execTeardownItemsEnded t c s
  | .teardownGranulesFreed t c => Sys2Proof.Machine.execTeardownGranulesFreed t c s
  | .serveEnableWrite src t c value => Sys2Proof.Machine.execServeEnableWrite src t c value s
  | .ideFailure t c integrity => Sys2Proof.Machine.execIdeFailure t c integrity s
  | .nonIdeRequest t c => Sys2Proof.Machine.execNonIdeRequest t c s
  | .pcieLinkDown t => Sys2Proof.Machine.execPcieLinkDown t s
  | .pcieLinkUp t width rate flit => Sys2Proof.Machine.execPcieLinkUp t width rate flit s
  | .hostReadFailure t what timeout => Sys2Proof.Machine.execHostReadFailure t what timeout s
  | .vfFlr t n => Sys2Proof.Machine.execVfFlr t n s
  | .pfFlr t => Sys2Proof.Machine.execPfFlr t s
  | .vfEnableCleared t => Sys2Proof.Machine.execVfEnableCleared t s
  | .busMasterDisable t f en => Sys2Proof.Machine.execBusMasterDisable t f en s
  | .memorySpaceDisable t f en => Sys2Proof.Machine.execMemorySpaceDisable t f en s
  | .perstAssert t => Sys2Proof.Machine.execPerstAssert t s
  | .perstDeassert t => Sys2Proof.Machine.execPerstDeassert t s
  | .ctxwinCadenceRead t c width high => Sys2Proof.Machine.execCtxwinCadenceRead t c width high s
  | .mbxSend src c pf => Sys2Proof.Machine.execMbxSend src c pf s
  | .mbxAck src c pf => Sys2Proof.Machine.execMbxAck src c pf s
  | .moderationExpiry t e => Sys2Proof.Machine.execModerationExpiry t e s
  | .msixMask fn entry => Sys2Proof.Machine.execMsixMask fn entry s
  | .msixUnmask fn entry => Sys2Proof.Machine.execMsixUnmask fn entry s
  | .slotIdSample t v => Sys2Proof.Machine.execSlotIdSample t v s
  | .coldStart seenA seenB cores chans => Sys2Proof.Machine.execColdStart seenA seenB cores chans s
  | .bootReady t => Sys2Proof.Machine.execBootReady t s
  | .bootWatchdog t check => Sys2Proof.Machine.execBootWatchdog t check s
  | .aliasCertSigned t => Sys2Proof.Machine.execAliasCertSigned t s
  | .hubReset src t hub => Sys2Proof.Machine.execHubReset src t hub s
  | .hubResetComplete t hub fails => Sys2Proof.Machine.execHubResetComplete t hub fails s
  | .warmReset src t => Sys2Proof.Machine.execWarmReset src t s
  | .warmResetComplete t fails => Sys2Proof.Machine.execWarmResetComplete t fails s
  | .lpIdleSelect t depends => Sys2Proof.Machine.execLpIdleSelect t depends s
  | .lpEntryComplete t => Sys2Proof.Machine.execLpEntryComplete t s
  | .kickstandEntry t l2 => Sys2Proof.Machine.execKickstandEntry t l2 s
  | .lpWakeTimer t => Sys2Proof.Machine.execLpWakeTimer t s
  | .lpWake src t => Sys2Proof.Machine.execLpWake src t s
  | .lpExitComplete t => Sys2Proof.Machine.execLpExitComplete t s
  | .dbgFreeze src t => Sys2Proof.Machine.execDbgFreeze src t s
  | .dbgUnfreeze src t => Sys2Proof.Machine.execDbgUnfreeze src t s
  | .dbgSnap src t => Sys2Proof.Machine.execDbgSnap src t s
  | .counterContribution t counts => Sys2Proof.Machine.execCounterContribution t counts s
  | .dbgHaltReq src t hub => Sys2Proof.Machine.execDbgHaltReq src t hub s
  | .breakpointTrigger t hub => Sys2Proof.Machine.execBreakpointTrigger t hub s
  | .haltDrained t hub => Sys2Proof.Machine.execHaltDrained t hub s
  | .dbgResume src t hub => Sys2Proof.Machine.execDbgResume src t hub s
  | .dmiRead src hub addr => Sys2Proof.Machine.execDmiRead src hub addr s
  | .dmiWrite src hub addr => Sys2Proof.Machine.execDmiWrite src hub addr s
  | .hubWithdraw src t hub => Sys2Proof.Machine.execHubWithdraw src t hub s
  | .hubReturn src t hub => Sys2Proof.Machine.execHubReturn src t hub s
  | .lbist src t hub patterns => Sys2Proof.Machine.execLbist src t hub patterns s
  | .mbist src t hub => Sys2Proof.Machine.execMbist src t hub s
  | .mbistRet src t hub => Sys2Proof.Machine.execMbistRet src t hub s
  | .hubSweep src t hub phys => Sys2Proof.Machine.execHubSweep src t hub phys s
  | .bistComplete t hub sigs fails first word count => Sys2Proof.Machine.execBistComplete t hub sigs fails first word count s
  | .entdaa addr => Sys2Proof.Machine.execEntdaa addr s
  | .setEndpointId eid => Sys2Proof.Machine.execSetEndpointId eid s
  | .getEndpointId => Sys2Proof.Machine.execGetEndpointId s
  | .getEndpointUuid => Sys2Proof.Machine.execGetEndpointUuid s
  | .getMctpVersionSupport type => Sys2Proof.Machine.execGetMctpVersionSupport type s
  | .getMessageTypeSupport => Sys2Proof.Machine.execGetMessageTypeSupport s
  | .getTid => Sys2Proof.Machine.execGetTid s
  | .setTid tid => Sys2Proof.Machine.execSetTid tid s
  | .getPldmVersion type => Sys2Proof.Machine.execGetPldmVersion type s
  | .getPldmTypes => Sys2Proof.Machine.execGetPldmTypes s
  | .getPldmCommands type => Sys2Proof.Machine.execGetPldmCommands type s
  | .getPdr handle => Sys2Proof.Machine.execGetPdr handle s
  | .getPdrRepositoryInfo => Sys2Proof.Machine.execGetPdrRepositoryInfo s
  | .getSensorReading sensor => Sys2Proof.Machine.execGetSensorReading sensor s
  | .getStateSensorReadings sensor => Sys2Proof.Machine.execGetStateSensorReadings sensor s
  | .moduleCapEffecter t value => Sys2Proof.Machine.execModuleCapEffecter t value s
  | .wakeEffecter t => Sys2Proof.Machine.execWakeEffecter t s
  | .resetEffecter t => Sys2Proof.Machine.execResetEffecter t s
  | .setEventReceiver t eid => Sys2Proof.Machine.execSetEventReceiver t eid s
  | .pollForPlatformEventMessage => Sys2Proof.Machine.execPollForPlatformEventMessage s
  | .queryDeviceIdentifiers => Sys2Proof.Machine.execQueryDeviceIdentifiers s
  | .getFirmwareParameters => Sys2Proof.Machine.execGetFirmwareParameters s
  | .requestUpdate => Sys2Proof.Machine.execRequestUpdate s
  | .passComponentTable => Sys2Proof.Machine.execPassComponentTable s
  | .updateComponent => Sys2Proof.Machine.execUpdateComponent s
  | .fwTransferComplete w => Sys2Proof.Machine.execFwTransferComplete w s
  | .activateFirmware selfContained => Sys2Proof.Machine.execActivateFirmware selfContained s
  | .getStatus => Sys2Proof.Machine.execGetStatus s
  | .cancelUpdateComponent => Sys2Proof.Machine.execCancelUpdateComponent s
  | .cancelUpdate => Sys2Proof.Machine.execCancelUpdate s
  | .getVersion => Sys2Proof.Machine.execGetVersion s
  | .getCapabilities => Sys2Proof.Machine.execGetCapabilities s
  | .negotiateAlgorithms offered => Sys2Proof.Machine.execNegotiateAlgorithms offered s
  | .pskExchange underKey => Sys2Proof.Machine.execPskExchange underKey s
  | .pskFinish verified => Sys2Proof.Machine.execPskFinish verified s
  | .endSession => Sys2Proof.Machine.execEndSession s
  | .keyProg n set sub rx => Sys2Proof.Machine.execKeyProg n set sub rx s
  | .kSetGo n set => Sys2Proof.Machine.execKSetGo n set s
  | .kSetStop n set => Sys2Proof.Machine.execKSetStop n set s
  | .ftStarved t hub => Sys2Proof.Machine.execFtStarved t hub s
  | .machineCheck t => Sys2Proof.Machine.execMachineCheck t s
  | .phyRetrainingFail t chan => Sys2Proof.Machine.execPhyRetrainingFail t chan s
  | .alertOngoing t rail => Sys2Proof.Machine.execAlertOngoing t rail s
  | .slotIdChange t v => Sys2Proof.Machine.execSlotIdChange t v s
  | .inputGlitch t => Sys2Proof.Machine.execInputGlitch t s
  | .pcieLinkRetrain t width rate => Sys2Proof.Machine.execPcieLinkRetrain t width rate s
  | .doeDiscovery index => Sys2Proof.Machine.execDoeDiscovery index s
  | .idcode => Sys2Proof.Machine.execIdcode s
  | .bypass n value => Sys2Proof.Machine.execBypass n value s
  | .shortCircuit t => Sys2Proof.Machine.execShortCircuit t s

end Sys2Proof.Machine
end

