-- ==== Sys2Proof/Safety.lean ====
section
/-! DEFINITION. What counts as a safe run, and the invariants the statements use. -/

namespace Sys2Proof.Machine

/-- The register fields that are views of lists. -/
def viewFlds : List Fld := [.SERVE_OPEN_ITEMS, .SERVE_SESSIONS_OPEN, .MGMT_EVENTS_PENDING]

/-- The registers that are views of the runtime's lists show them: open items of each context, sessions, and records in
the fault queue (Tables 7-14, 7-15, 14-9). -/
def ViewsAgree (s : State) : Prop :=
  (∀ c, c < 64 → rd s .SERVE_OPEN_ITEMS c = itemCount s c) ∧
  rd s .SERVE_SESSIONS_OPEN = s.serve.sessions.length ∧
  rd s .MGMT_EVENTS_PENDING = min 4096 s.rep.faultQueue.length

/-- What a command comes to: it answers a next state, of which p holds. -/
def Runs (c : Instr) (s : State) (p : State → Prop) : Prop := ∃ t, exec c s = .next t ∧ p t

/-- The parts of the state beside its registers and the queue. -/
inductive Part where
  | now | free | serve | tt | rep | lard | pann | mem | core | fab | pwr | ctxs | boot | dbg | mgt
  deriving DecidableEq, Repr

/-- Whether two states have the same part. -/
def Part.Same (s t : State) : Part → Prop
  | .now => t.now = s.now
  | .free => t.freeNext = s.freeNext
  | .serve => t.serve = s.serve
  | .tt => t.tt = s.tt
  | .rep => t.rep = s.rep
  | .lard => t.lard = s.lard
  | .pann => t.pann = s.pann
  | .mem => t.mem = s.mem
  | .core => t.core = s.core
  | .fab => t.fab = s.fab
  | .pwr => t.pwr = s.pwr
  | .ctxs => t.ctxs = s.ctxs
  | .boot => t.boot = s.boot
  | .dbg => t.dbg = s.dbg
  | .mgt => t.mgt = s.mgt

/-- Every part but those named is unchanged. With `mem` unchanged, every byte of memory reads as before. -/
def KeptBut (ps : List Part) (s t : State) : Prop := ∀ p, p ∉ ps → p.Same s t

/-- Every register field but those named reads as before, in all its instances. -/
def RegsBut (fs : List Fld) (s t : State) : Prop := ∀ f n, f ∉ fs → rd t f n = rd s f n

/-- Every register but the instances named, and the views of lists, reads as before. -/
def RegsKept (ex : List (Fld × Nat)) (s t : State) : Prop :=
  ∀ f n, (f, n) ∉ ex → f ∉ viewFlds → rd t f n = rd s f n

/-! The fields that shared operations change -/

/-- The register fields that a record's way into the path changes. -/
def reportFlds : List Fld := [.CELLAR_NEXT_SEQ, .CELLAR_DROPPED, .EVC_STATUS_CELLAR]

/-- The register fields that a freeze of trails changes. -/
def freezeFlds : List Fld :=
  [.DBG_TRAIL_STATUS_FROZEN, .DBG_TRAIL_STATUS_TRIGGER, .DBG_TRAIL_STATUS_DUMPED, .DBG_STATUS_FROZEN, .DBG_FREEZE_AT]

/-- The register fields that a hub error changes. -/
def errorFlds : List Fld := reportFlds ++ freezeFlds

/-- The register fields that an event record changes. -/
def eventFlds : List Fld := [.SERVE_EVQ_COUNT, .SERVE_SPILLED, .SERVE_CTRL_BACKLOG]

/-- The register fields that the end or the acceptance of an item changes. -/
def itemFlds : List Fld := eventFlds ++ [.TT_REFUSED, .SERVE_INVALID, .SERVE_ACCEPTED]

/-- Only the parts ps, the fields fs and the views of lists differ. -/
def Frame (ps : List Part) (fs : List Fld) (s t : State) : Prop := KeptBut ps s t ∧ RegsBut (fs ++ viewFlds) s t

/-! The vector engine's instructions -/

/-- The instructions whose result is a vector or a predicate register, with what each leaves in the registers (Tables 5-3
and 5-8). -/
def vectorOps : List ((Nat → Nat → VInstr → Instr) × (VInstr → VEnv → VInstr → VecRegs → VecRegs)) :=
  [(.add, fun _ => vBin laneAdd), (.sub, fun _ => vBin laneSub), (.mul, fun _ => vBin laneMul), (.fma, fun _ => vFma),
   (.max, fun _ => vBin laneMax), (.min, fun _ => vBin laneMin), (.abs, fun _ => vUn laneAbs), (.neg, fun _ => vUn laneNeg),
   (.cmplt, fun _ => vCmp laneLt), (.cmple, fun _ => vCmp laneLe), (.cmpeq, fun _ => vCmp laneEq), (.sel, fun _ => vSel),
   (.iadd, fun _ => vBin laneIadd), (.and, fun _ => vBin laneAnd), (.or, fun _ => vBin laneOr), (.xor, fun _ => vBin laneXor),
   (.shl, fun _ => vBin laneShl), (.shra, fun _ => vBin laneShra), (.cvti, fun _ => vUn laneCvti),
   (.cvtf, fun _ => vUn laneCvtf), (.fn, fun i => vFn (i.imm % 256)), (.lut, fun _ e => vUn (laneLut e.coef) e),
   (.pwc, fun _ e => vUn (lanePwc e.coef) e), (.fnExp2, fun _ => vFn 1), (.fnLog2, fun _ => vFn 2), (.fnExp, fun _ => vFn 3),
   (.fnRecip, fun _ => vFn 4), (.fnRsqrt, fun _ => vFn 5), (.fnSigmoid, fun _ => vFn 6), (.fnTanh, fun _ => vFn 7),
   (.fnSilu, fun _ => vFn 8), (.fnGelu, fun _ => vFn 9), (.fnSoftplus, fun _ => vFn 10)]

/-- Whether an instruction may read its scalar: it reads none, no command runs on the core, or the command's context may
read it (R132). -/
def scalarReadable (s : State) (hub phys : Nat) (i : VInstr) : Prop :=
  i.bKind = 1 → ∀ r, curCmd s (coreKey hub phys) = some r → scalarFaults (opCopy s hub phys) r.q.ctx (i.imm % 32) = false

/-! Register writes -/

/-- A write of registers that act by their fields alone: it covers no buffer of a mailbox, no owner of an HBM region, no
command register, no layout of the Larder, and PANNIER_CTRL only while no bank copy runs (Tables 6-12, 8-10, 9-8, 10-10, 12-10,
13-8, 14-7, 16-10). -/
def plainTarget (s : State) (tg : Target) (width : Nat) : Prop :=
  assigned s tg width = true ∧ mboxKey tg = none ∧
  (∀ w o, targetAt tg .wing = some (w, o) → ¬ (0x90000 ≤ o ∧ o < 0x90C00)) ∧
  (∀ h o, targetAt tg .hub = some (h, o) → ∀ r ∈ [0x1008, 0x1330], o + width ≤ r ∨ r + 4 ≤ o) ∧
  (∀ b a, targetAt tg .vest = some (b, a) → (∀ r ∈ [0xFF01B40000, 0xFF01B0000C], a + width ≤ r ∨ r + 4 ≤ a) ∧
    (a + width ≤ 0xFF01A20100 ∨ 0xFF01A20180 ≤ a) ∧
    (rd s .PANNIER_CTRL_COPY_BUSY = 0 ∨ a + width ≤ 0xFF01A80000 ∨ 0xFF01A80004 ≤ a))

/-- Whether a write covers an instance of a field, whose register is at an offset of its block. -/
def covers (s : State) (tg : Target) (width : Nat) (f : Fld) (n o reg : Nat) : Prop :=
  ∃ b, targetAt tg (fieldRow f).block = some (b, o) ∧ (n, reg) ∈ instancesAt s f b o width

/-- The value a field takes by a write that covers it: its own where it is RO, has a command of its own, its writer is another
or it is locked; else the bits written, unless they are outside the range its table states (R4, Table 0-3). -/
def writtenValue (s : State) (src : Src) (f : Fld) (n reg o width v : Nat) : Nat :=
  let r := fieldRow f
  let new_ := mergeBits r reg o width v (rd s f n)
  if r.acc = .ro ∨ r.own = true ∨ mayWrite s src f n = false ∨ writeLocked s src f n = true then rd s f n
  else if inRange r new_ then new_ else rd s f n

/-! Memory -/

/-- The canonical form of memory: addresses strictly rising, and no entry that an unlisted address would read as; the same
for valid lines and for owners of granules and regions. -/
abbrev Memory.wf (m : Memory) : Prop :=
  StoreWf (fun _ => (0 : Byte)) m.bytes ∧ StoreWf (fun _ => false) m.valid ∧ StoreWf (fun _ => 0x7F) m.granules ∧
  StoreWf (fun _ => 0x7F) m.regions

/-- Two states in which every byte outside n bytes from an address reads the same. -/
def BytesKept (a n : Nat) (s t : State) : Prop := ∀ b, b < a ∨ a + n ≤ b → readByte t b = readByte s b

/-! Items -/

/-- No item waits for an item, and none has been left without anything to wait for. -/
def unwaited (s : State) (k : Nat × Nat) : Prop := ∀ x ∈ s.serve.items, k ∉ x.waits ∧ (x.waits = [] → x.stop ≠ 9)

/-- Room for an item: a record that is not a final code finds room, no open item has the record's index, and none waits
for it. -/
def roomFor (s : State) (h : ReqHead) : Prop :=
  generalFull s h.ctx = false ∧ itemAt s h.ctx h.idx = none ∧ unwaited s (h.ctx, h.idx)

/-- An item of a record is open under an opcode, and was counted. -/
def Opened (s v : State) (h : ReqHead) (op : Nat) : Prop :=
  (∃ x, itemAt v h.ctx h.idx = some x ∧ x.opcode = op ∧ x.tag = h.tag) ∧
  rd v .SERVE_ACCEPTED = rd (inc s .SERVE_ACCEPTED) .SERVE_ACCEPTED

/-- An item of a record was accepted and has ended. -/
def Ended (s v : State) (h : ReqHead) : Prop :=
  itemAt v h.ctx h.idx = none ∧ rd v .SERVE_ACCEPTED = rd (inc s .SERVE_ACCEPTED) .SERVE_ACCEPTED

/-! Stages of fused commands -/

/-- The vector, reduction and SFU stage commands: each with its stage kind and the mode it runs (Tables 5-5 and 5-10). -/
def vectorStages : List ((Nat → Nat → Nat → StageRun → Instr) × Nat × (VecDesc → Bool)) :=
  [(.map, 3, fun d => d.mode == 1), (.gate, 3, fun d => d.mode == 2), (.softmax, 3, fun d => d.mode == 3),
   (.compress, 3, fun d => d.mode == 4), (.expand, 3, fun d => d.mode == 5), (.gather, 3, fun d => d.mode == 6),
   (.scatter, 3, fun d => d.mode == 7), (.reduceSum, 4, fun d => d.mode == 1), (.reduceSumsq, 4, fun d => d.mode == 2),
   (.reduceMax, 4, fun d => d.mode == 3), (.reduceMin, 4, fun d => d.mode == 4), (.argmax, 4, fun d => d.mode == 5),
   (.smstat, 4, fun d => d.mode == 6), (.topk, 4, fun d => d.mode == 7), (.route, 4, fun d => d.mode == 8),
   (.hist, 4, fun d => d.mode == 9), (.merge, 4, fun d => d.mode == 10), (.sfuStage, 5, fun _ => true)]

/-- A run of a stage without faults and without words in error. -/
def cleanRun (run : StageRun) : Prop := run.faults = [] ∧ run.uncorr = 0 ∧ run.corrected = 0

/-- Nothing keeps a stage of a command back: the command is the core's only one of its number, no other stage retains a range that
the stage writes, it does not wait, and its context owns what it touches (R102, R261). -/
def stageFree (s : State) (k : Nat) (r : RunCmd) (i : Nat) (st : Stage) : Prop :=
  cmdAt s k r.num = some r ∧ retainConflict s k r i st = false ∧ isWaiting s k r.num i = false ∧
  extentsOk s (k / 66) (k % 66) r.q.ctx (stageExtents st) = true

/-- What a vector stage needs beside that: its coefficient table is the active one, its context may read the scalars of its copy,
and none of its rows meets a list entry outside its memory (R132, R156, R129). -/
def vectorReady (s : State) (k : Nat) (r : RunCmd) (i : Nat) (st : Stage) (d : VecDesc) (run : StageRun) : Prop :=
  let w := runCounts s k run
  let p := withProg w k d
  let kind := stageKind st
  (d.tableTag = 0 ∨ d.tableTag = rd s .VEC_COEF_TAG_ACTIVE_TAG (k / 66)) ∧
  (∀ n ∈ scalarsRead kind p, scalarFaults (scalarsOf w (k / 66) r) r.q.ctx n = false) ∧
  (runRows ⟨k, r, i, st, p, 4 + chunkCycles kind p (chunkOf p r.hand), []⟩ (rowPlan k r kind p []) (vecLive w k d) 0
    (vecEntry w k r p kind run)).2 = false

/-- A stage of a command on a core has run to its end: while another of its stages has still to run, the stage counts as done; the
other commands of the queue are as they were when it ended; and the step's last act was the stage's end. -/
def StageEnds (s u v : State) (k i : Nat) (r : RunCmd) : Prop :=
  let others := fun (x : State) => (queueAt x k).filter (fun q => q.num != r.num)
  (∃ w r', settle s (stageDone w k r.num i) = .next v ∧ cmdAt w k r.num = some r' ∧ r'.q = r.q ∧ r'.done = r.done ∧ others w = others u) ∧
  ((∃ j, j ≠ i ∧ j < r.done.length ∧ r.done.getD j true = false) →
    ∃ r', cmdAt v k r.num = some r' ∧ r'.q = r.q ∧ r'.done = r.done.set i true)

/-! Links of the fabric -/

/-- The register fields that a change of a link's state changes. -/
def linkFlds : List Fld :=
  reportFlds ++ [.EVC_STATUS_LINK, .SPOKE_LINK_STATE_STATE, .SPOKE_LINK_STATE_LANES, .SPOKE_LINK_STATE_LANE_MASK]

/-- A link is RETIRED: no lane is in use and nothing is kept to be sent again (R343). -/
def LinkGone (v : State) (l : Nat) : Prop :=
  rd v .SPOKE_LINK_STATE_STATE l = 4 ∧ rd v .SPOKE_LINK_STATE_LANES l = 0 ∧ rd v .SPOKE_LINK_STATE_LANE_MASK l = 0 ∧
  (linkOf v l).replay = []

/-- A link has come UP on the lowest 8, 6 or 4 good lanes of a mask, or is RETIRED with fewer than 4 (R338). -/
def LinkCame (v : State) (l m : Nat) : Prop :=
  (evenLanes m = [] → LinkGone v l) ∧
  (evenLanes m ≠ [] → rd v .SPOKE_LINK_STATE_STATE l = 2 ∧ rd v .SPOKE_LINK_STATE_LANES l = (evenLanes m).length ∧
    rd v .SPOKE_LINK_STATE_LANES l ∈ [4, 6, 8] ∧ rd v .SPOKE_LINK_STATE_LANE_MASK l = ((evenLanes m).map (fun i => 2 ^ i)).sum)

/-- A link retrains, or is RETIRED at the third retrain within 1 s (Table 12-2). -/
def Retrained (s v : State) (l now : Nat) : Prop :=
  let n := ((linkOf s l).retrains.filter (fun r => decide (now < r + 1000000000))).length
  (n < 2 → rd v .SPOKE_LINK_STATE_STATE l = 3 ∧ rd v .SPOKE_RETRAINS l = rd (inc s .SPOKE_RETRAINS l) .SPOKE_RETRAINS l) ∧
  (2 ≤ n → LinkGone v l)

/-- The register fields of Cadence that a SYNC changes. -/
def cadenceFlds : List Fld :=
  [.SPOKE_CAD_OFFSET, .SPOKE_CAD_UPSTREAM_LINK, .SPOKE_CAD_UPSTREAM_HOPS, .SPOKE_CAD_UPSTREAM_GM, .SPOKE_FAB_STATUS_CAD_STATE,
   .SPOKE_FAB_STATUS_HOPS_EXCEEDED]

/-- A packet arrives in order at its destination, from a source that is LIVE at its epoch, and is delivered (R344, R356). -/
def Arrives (s : State) (l : Nat) (p : Packet) : Prop :=
  l < 6 ∧ linkUp s l = true ∧ p.seq = (linkOf s l).rxSeq ∧ srcOk s p = true ∧ p.dst = ownAddr s ∧ p.dstEpoch = ownEpoch s ∧
  packetCrc p = p.crc

/-! Resets and low power -/

/-- A warm reset has begun (R434, R435): intake stops, no core holds a command, the on-chip memories are lost, and every
other byte and every item stays. -/
def WarmBegins (s v : State) (trigger now : Nat) : Prop :=
  rd v .RESET_STATUS_BUSY = 1 ∧ rd v .RESET_STATUS_LAST_KIND = 2 ∧ rd v .BOOT_STATUS_PHASE = 3 ∧
  v.boot.warm = some (trigger, now) ∧ v.serve.intakeStopped = true ∧ v.serve.items = s.serve.items ∧
  (∀ k, queueAt v k = []) ∧ v.tt.plan = [] ∧ (∀ a, onChip a = true → readByte v a = 0) ∧
  (∀ a, onChip a = false → readByte v a = readByte s a) ∧
  v.pann = { s.pann with caches := [] } ∧ KeptBut [.boot, .core, .dbg, .lard, .mem, .now, .pann, .pwr, .rep, .serve, .tt] s v

/-- What every cold start does (R428, R431, R444): the Cadence runs from 0, no item is open, the durable Cellar is kept. -/
def ColdStarted (s v : State) : Prop :=
  v.now = 0 ∧ v.serve.items = [] ∧ v.rep.ring = s.rep.ring ∧ v.boot.images = s.boot.images ∧
  rd v .BOOT_COUNT = min (rd s .BOOT_COUNT + 1) (2 ^ 32 - 1) ∧
  rd v .RESET_STATUS_LAST_KIND = (if s.boot.watchdog then 5 else 4)

/-- The register fields that the start of an exit changes. -/
def exitFlds : List Fld := [.BOOT_STATUS_PHASE, .LP_RESIDENCY, .LP_STATUS_KICKSTAND_READY, .LP_STATUS_STATE]

/-- An exit from a low-power state has begun for a reason (R440). -/
def ExitBegins (s v : State) (reason : Nat) : Prop :=
  rd v .LP_STATUS_STATE = 6 ∧ rd v .LP_STATUS_KICKSTAND_READY = 0 ∧ v.boot.lpReason = reason ∧
  v.boot.lpFrom = rd s .LP_STATUS_STATE

end Sys2Proof.Machine
end

