-- ==== Sys2Proof/Certificates/Slice0/Obligations.lean ====
section
/-! DEFINITION. What is stated of the model for the provers: one definition for each obligation of OBLIGATIONS.json. -/

open Sys2Proof Sys2Proof.Machine

/-! ## The block's step -/

/-- The block's step: the command at the front of the queue runs on the state with the queue's rest. With nothing waiting
the Cadence advances by 1 ns and nothing else changes, which is the model's choice (assumption 2). -/
def Obligations.StepRunsTheFrontCommand : Prop :=
  (∀ (s : State) (c : Instr) (rest : List Instr), s.pending = c :: rest → step s = exec c { s with pending := rest }) ∧
  (∀ s : State, s.pending = [] → step s = .next { s with now := s.now + 1 })

/-- No command ever stops the block: each, on every state and with any operands, answers a next state, in which the queue
is as it was and the registers that are views of lists show them (Tables 7-14, 7-15, 14-9). -/
def Obligations.EveryCommandAnswersANextState : Prop :=
  ∀ (c : Instr) (s : State), Runs c s fun t => t.pending = s.pending ∧ ViewsAgree t

/-- The registers that are views of the runtime's lists (open items of each context, sessions, records in the fault queue)
show them after every step from a state in which they do. -/
def Obligations.ViewsAgreeAfterEveryStep : Prop :=
  ∀ s t : State, ViewsAgree s → step s = .next t → ViewsAgree t

/-- They do at reset. -/
def Obligations.ViewsAgreeAtReset : Prop := ViewsAgree State.reset
/-! ## Numbers -/

/-- R66: the value of an INT8 element is n × 2^−6 under E8M0 scales and n under any other kind; an INT4 element's is n. -/
def Obligations.IntegerElementValues : Prop :=
  ∀ kind bits : Nat,
    numDyad (elemNum 0x6 1 bits) = ⟨signedOf 8 bits, -6⟩ ∧
    (kind ≠ 1 → numDyad (elemNum 0x6 kind bits) = ⟨signedOf 8 bits, 0⟩) ∧
    numDyad (elemNum 0x7 kind bits) = ⟨signedOf 4 bits, 0⟩

/-- R70: the value of a scale byte, its NaN patterns, and the zero E4M3 scale, under which every product is zero. -/
def Obligations.ScaleByteValues : Prop :=
  (∀ v : Nat, v ≤ 0xFE → scaleDyad 1 v = some ⟨1, (v : Int) - 127⟩) ∧
  scaleDyad 1 0xFF = none ∧
  (∀ v : Nat, v < 256 → v % 128 ≠ 0x7F →
    ∃ neg m e, decodeF fE4M3 v = .fin neg m e ∧ scaleDyad 2 v = some ⟨(m : Int), e⟩) ∧
  (∀ v : Nat, v < 256 → v % 128 = 0x7F → scaleDyad 2 v = none) ∧
  (∀ v : Nat, v < 256 → v % 128 = 0 → ∃ z, scaleDyad 2 v = some z ∧ ∀ x : Dyad, (dyadMul x z).v = 0)

/-- R87: the canonical NaN of each format, and no other NaN pattern leaves the matrix drain, whatever the accumulator, the
tensor scale and the mode. Where two events meet: a NaN in the sum wins over overflow; an infinite tensor scale gives an
infinity, which saturates only by the overflow rule; zero accumulators give +0 under a finite scale of either sign. -/
def Obligations.DrainWritesOnlyCanonicalNaN : Prop :=
  (nanOf fFP32 = 0x7FC00000 ∧ nanOf fBF16 = 0x7FC0 ∧ nanOf fFP16 = 0x7E00 ∧ nanOf fE5M2 = 0x7E ∧ nanOf fE4M3 = 0x7F) ∧
  ∀ e ∈ [(0x1, fE4M3), (0x2, fE5M2), (0x8, fBF16), (0x9, fFP16), (0xA, fFP32)],
    ∀ (ovf special : Bool) (acc : Acc) (sc : Option Nat),
      (decodeF e.2 (drainElem e.1 ovf special acc sc) = .nan → drainElem e.1 ovf special acc sc = nanOf e.2) ∧
      drainElem e.1 ovf true acc sc = nanOf e.2 ∧
      (∀ w neg, sc = some w → decodeF fFP32 w = .inf neg → (accDyad acc).v ≠ 0 →
        drainElem e.1 ovf false acc sc = infOf e.2 ovf (decide ((accDyad acc).v < 0) != neg)) ∧
      (∀ w neg m x, sc = some w → decodeF fFP32 w = .fin neg m x → drainElem e.1 ovf false accZero sc = 0)

/-- R78: on the integer path the accumulator holds the exact sum of all groups at a fixed exponent, up to 2^32 INT8
products stay within 48 bits, and TRUNC and REF modes give the same. -/
def Obligations.IntegerPathIsExact : Prop :=
  (∀ (t : Tile) (w : Bank) (seg : Nat), intPath t.a t.b = true →
    runSegment { t with ref := true } seg w = runSegment { t with ref := false } seg w) ∧
  ∀ gs : List (List Int), gs ≠ [] →
    (gs.foldl accGroupInt accZero).a = (gs.map List.sum).sum ∧
    accDyad (gs.foldl accGroupInt accZero) = ⟨(gs.map List.sum).sum, 0⟩ ∧
    ((∀ g ∈ gs, ∀ p ∈ g, p.natAbs ≤ 16384) → (gs.map List.length).sum ≤ 2 ^ 32 →
      (gs.foldl accGroupInt accZero).a.natAbs < 2 ^ 47)

/-- R77: a group of at most 64 products leaves a column accumulator below 2^46 in magnitude again, in both modes, so that
the running sum always fits 48 bits. -/
def Obligations.AccumulatorStaysInRange : Prop :=
  ∀ (ref : Bool) (acc : Acc) (ps : List Dyad), ps.length ≤ 64 → acc.a.natAbs < 2 ^ 46 →
    (accGroup ref acc ps).a.natAbs < 2 ^ 46

/-- R76: an E8M0 scale byte is 0 to 254; an E4M3 scale byte is 0 exactly when every element that is not NaN is zero, and
is otherwise from the smallest to the largest finite magnitude. -/
def Obligations.QuantiserScaleRange : Prop :=
  ∀ (fmt : Nat) (xs : List Machine.Num), fmt ∈ [0x1, 0x2, 0x3, 0x4, 0x5, 0x6, 0x7] →
    quantScale fmt 1 xs ≤ 254 ∧
    ((∀ x ∈ xs, x = .nan ∨ ∃ neg e, x = .fin neg 0 e) → quantScale fmt 2 xs = 0) ∧
    ((∃ x ∈ xs, ∃ neg m e, x = .fin neg (m + 1) e ∨ x = .inf neg) →
      1 ≤ quantScale fmt 2 xs ∧ quantScale fmt 2 xs ≤ 0x7E)

/-- R122: in floating lanes a sum, difference, product or fused product that is a NaN is the canonical NaN; MAX and MIN
give it if either operand is a NaN; a comparison with a NaN is false. -/
def Obligations.VectorNaNRules : Prop :=
  ∀ lane ∈ [1, 2, 3], ∀ a b c : Nat,
    (laneIsNan lane (laneAdd lane a b) = true → laneAdd lane a b = nanOf (laneFmt lane)) ∧
    (laneIsNan lane (laneSub lane a b) = true → laneSub lane a b = nanOf (laneFmt lane)) ∧
    (laneIsNan lane (laneMul lane a b) = true → laneMul lane a b = nanOf (laneFmt lane)) ∧
    (laneIsNan lane (laneFma lane a b c) = true → laneFma lane a b c = nanOf (laneFmt lane)) ∧
    (laneIsNan lane a = true ∨ laneIsNan lane b = true →
      laneMax lane a b = nanOf (laneFmt lane) ∧ laneMin lane a b = nanOf (laneFmt lane) ∧
      laneLt lane a b = false ∧ laneLe lane a b = false ∧ laneEq lane a b = false)
/-! ## The engines of a core -/

/-- Each instruction of the vector engine but RED, and each function of the SFU, leaves in the registers of the core's last
chunk what Tables 5-3 and 5-8 say, and changes nothing else: no other core's registers, no memory, no register field. -/
def Obligations.VectorInstructionsRun : Prop :=
  ∀ o ∈ vectorOps, ∀ (s : State) (hub phys : Nat) (i : VInstr), scalarReadable s hub phys i →
    Runs (o.1 hub phys i) s fun t =>
      regsOf t (coreKey hub phys) =
        ((regsOf s (coreKey hub phys)).1,
          o.2 i (vEnv s hub (regsOf s (coreKey hub phys)).1 (opCopy s hub phys)) i (regsOf s (coreKey hub phys)).2) ∧
      (∀ k, k ≠ coreKey hub phys → regsOf t k = regsOf s k) ∧
      { t.core with vregs := s.core.vregs } = s.core ∧ KeptBut [.core] s t ∧ RegsKept [] s t

/-- A scalar that the command in progress may not read faults the instruction: its registers are unchanged and the core's
SCALAR_FAULT is set (R132). -/
def Obligations.ScalarFaultWritesNoRegister : Prop :=
  ∀ o ∈ vectorOps, ∀ (s : State) (hub phys : Nat) (i : VInstr) (r : RunCmd), i.bKind = 1 →
    curCmd s (coreKey hub phys) = some r → scalarFaults (opCopy s hub phys) r.q.ctx (i.imm % 32) = true →
    Runs (o.1 hub phys i) s fun t => t.core.vregs = s.core.vregs ∧ rd t .VEC_CORE_STATUS_SCALAR_FAULT (coreKey hub phys) = 1

/-- The GUARD field (Table 5-2): in every lane that the guard excludes the destination keeps its value, in every other it
takes the operation's result, and every other vector register and all predicates are unchanged. -/
def Obligations.GuardedLanesKeepTheirValue : Prop :=
  ∀ (f : Nat → Nat → Nat → Nat) (e : VEnv) (i : VInstr) (g : VecRegs) (n : Nat),
    g.v.length = 16 → g.p.length = 4 → (∀ l ∈ g.v, l.length = n) → (∀ l ∈ g.p, l.length = n) →
    i.dst < 16 → i.a < 16 → i.b < 16 → i.guard < 4 →
    (vBin f e i g).p = g.p ∧
    (∀ x, x ≠ i.dst → vreg (vBin f e i g) x = vreg g x) ∧
    (∀ j, j < n →
      (vreg (vBin f e i g) i.dst).getD j 0 =
        if i.guard = 0 ∨ (preg g i.guard).getD j false = true
        then f e.lane ((vreg g i.a).getD j 0) ((operandB e g i).getD j 0) else (vreg g i.dst).getD j 0)

/-- RED: the active lanes that its guard admits enter the row state of its operation; nothing else changes. -/
def Obligations.RedFeedsItsReduction : Prop :=
  ∀ (s : State) (hub phys : Nat) (i : VInstr), let k := coreKey hub phys
    let g := regsOf s k
    Runs (.red hub phys i) s fun t =>
      (∃ xs : List (Option (Nat × Nat)),
        (∀ j : Nat, (∃ x, xs[j]? = some (some x)) →
          (preg g.2 0).getD j false = true ∧ (guardOf g.2 i).getD j false = true) ∧
        (∀ (j : Nat) (x : Nat × Nat), xs[j]? = some (some x) → x.2 = j) ∧
        t.core = (setRed s k (redFeed (redK i) (laneInt g.1) (redAt s k (redOf i) (laneInt g.1)) xs)).core) ∧
      KeptBut [.core] s t ∧ RegsKept [] s t

/-- A VECTOR, REDUCTION or SFU stage that nothing keeps back and whose run is clean runs to its end, in every mode. -/
def Obligations.VectorStagesRunToTheirEnd : Prop :=
  ∀ e ∈ vectorStages, ∀ (s : State) (t hub phys : Nat) (run : StageRun) (r : RunCmd) (i : Nat) (st : Stage) (d : VecDesc),
    let u := tick s t
    let k := coreKey hub phys
    stageOf u k (fun x => stageKind x == e.2.1 && ((vecDescOf x).map e.2.2).getD false) = some (r, i, st) →
    vecDescOf st = some d → cleanRun run → stageFree u k r i st → vectorReady u k r i st d run →
    Runs (e.1 t hub phys run) s fun v => StageEnds s u v k i r

/-- A MATRIX stage and a Freewheel stage that nothing keeps back, whose run is clean and none of whose tiles is held at a
checkpoint or in its drain run to their end. -/
def Obligations.MatrixStagesRunToTheirEnd : Prop :=
  ∀ (s : State) (t hub phys : Nat) (run : StageRun) (r : RunCmd) (i : Nat),
    let u := tick s t
    let k := coreKey hub phys
    cleanRun run →
    (∀ d : MatrixDesc, stageOf u k (fun st => stageKind st == 1) = some (r, i, .matrix d) → stageFree u k r i (.matrix d) →
      (passTiles (arrayCounts (matSetup k r d (matLive u k d) (runCounts u k run)) k r.q.ctx 1 run) k r i (.matrix d) run 1
        (matLive u k d) (matFlag d 5) (matFlag d 4) (matTileSet u k r.num d (matLive u k d))).2.2 = false →
      Runs (.matrixStage t hub phys run) s fun v => StageEnds s u v k i r) ∧
    (∀ (d : FwDesc) (port : List Nat), stageOf u k (fun st => stageKind st == 2) = some (r, i, .freewheel d) →
      stageFree u k r i (.freewheel d) →
      (passTiles (arrayCounts (fwSetup k r d (fwLive u k d) (runCounts u k run)) k r.q.ctx 2 run) k r i (.freewheel d) run 2
        (fwLive u k d) false false (fwTileSet k r.num d (fwLive u k d) port)).2.2 = false →
      Runs (.freewheelStage t hub phys port run) s fun v => StageEnds s u v k i r)

/-- A STREAM stage that nothing keeps back, whose run is clean and whose walk or rows meet no fault runs to its end, in
each of its six modes. -/
def Obligations.StreamStagesRunToTheirEnd : Prop :=
  ∀ (s : State) (t hub phys : Nat) (run : StageRun) (r : RunCmd) (i : Nat) (d : StreamDesc),
    let u := tick s t
    let k := coreKey hub phys
    let w := runCounts u k run
    cleanRun run → stageFree u k r i (.stream d) →
    (∀ fl pa la co sh bu ly ix lo dt mo qs qd qb hd so rz, d = .page 8 fl pa la co sh bu ly ix lo dt mo qs qd qb hd so rz →
      stageOf u k (fun st => match st with | .stream (.page m ..) => m == 8 | _ => false) = some (r, i, .stream d) →
      (pageReadBody k r fl pa la co sh bu ly ix lo dt mo qs qd qb hd so w).2 = true →
      Runs (.pageRead t hub phys run) s fun v => StageEnds s u v k i r) ∧
    (∀ fl pa la co sh bu ly ix lo dt mo qs qd qb hd so rz, d = .page 9 fl pa la co sh bu ly ix lo dt mo qs qd qb hd so rz →
      stageOf u k (fun st => match st with | .stream (.page m ..) => m == 9 | _ => false) = some (r, i, .stream d) →
      (pageWriteBody k r pa la co sh ly lo dt w).2 = true →
      Runs (.pageWrite t hub phys run) s fun v => StageEnds s u v k i r) ∧
    (∀ mo tg co sh gr go ro dt gb so rz, d = .adapter mo tg co sh gr go ro dt gb so rz →
      stageOf u k (fun st => match st with | .stream (.adapter ..) => true | _ => false) = some (r, i, .stream d) →
      Runs (.adapterRead t hub phys run) s fun v => StageEnds s u v k i r) ∧
    (∀ m fl fm rows si rb sc src dst ss ds fv lo rz host, d = .transfer m fl fm rows si rb sc src dst ss ds fv lo rz →
      stageOf u k (fun st => match st with | .stream (.transfer x ..) => x == m | _ => false) = some (r, i, .stream d) →
      (rb = 0 ∨ (moveRows k r d host (liveRows u k (bitAt fl 5) lo rows) 0 (liveClamp w k r (bitAt fl 5) lo rows)).2 = true) →
      (m = 1 → Runs (.copy t hub phys host run) s fun v => StageEnds s u v k i r) ∧
      (m = 2 → Runs (.redAdd t hub phys host run) s fun v => StageEnds s u v k i r) ∧
      (m = 3 → host = none → Runs (.fill t hub phys run) s fun v => StageEnds s u v k i r))

/-- A fused command for a served slot of a hub without waiting commands enters the core's queue and starts at once, or with
its segment: the engines of its first stages are busy, every stage has still to run, and of memory only the tables that the
runtime places for it change (R98, R99, R166). -/
def Obligations.FusedCommandStarts : Prop :=
  ∀ (s : State) (t : Nat) (q : QueuedCmd) (p : Nat),
    let u := tick s t
    let k := coreKey q.hub p
    q.hub ∉ u.core.halted → physOf u q.hub q.slot = some p → p < 66 → rdb u .HUB_SLOT_STATE_FENCED k = false →
    hubQueues u q.hub = [] → storeFind u.core.held k = none → q.card.sems = [] → q.card.credits = [] →
    Runs (.fusedCommand t q) s fun v =>
      (∃ r, queueAt v k = [r] ∧ r.q = lockCmd u q ∧ r.started = true ∧ r.done = (q.cmd.stages.map fun _ => false) ∧
        r.start = if (lockCmd u q).members = [] then u.now else max u.now q.segStart) ∧
      rdb v .MAT_CORE_STATUS_BUSY k = (stagesOn v k).any (fun e => decide (stageKind e.2.2 ≤ 2)) ∧
      rdb v .VEC_CORE_STATUS_BUSY k = (stagesOn v k).any (fun e => decide (3 ≤ stageKind e.2.2 ∧ stageKind e.2.2 ≤ 5)) ∧
      v.mem = (placeTables u k (lockCmd u q)).mem

/-- The wait on a retained range ends, the rescue of a held core with its two outcomes, an armed injection, the summary
queue and the scalar window (R102, R290, R120, R158, R130). -/
def Obligations.CoreEventsRun : Prop :=
  (∀ (s : State) (t hub phys cycles : Nat) (w : RetainWait) (rest : List RetainWait) (r : RunCmd) (st : Stage), let u := tick s t
    let k := coreKey hub phys
    u.core.waiting = w :: rest → w.core = k → cmdAt u k w.num = some r → r.q.cmd.stages[w.stage]? = some st →
    retainConflict u k r w.stage st = false →
    Runs (.retentionRelease t hub phys cycles) s fun v =>
      v.core.waiting = rest ∧
      rd v .MAT_RETAIN_WAIT_CYCLES k = rd (incX u .MAT_RETAIN_WAIT_CYCLES k cycles) .MAT_RETAIN_WAIT_CYCLES k ∧ v.mem = s.mem) ∧
  (∀ (s : State) (t hub phys : Nat) (port : List Nat) (h : Held) (r : RunCmd), let u := tick s t
    let k := coreKey hub phys
    storeFind u.core.held k = some h → cmdAt u k h.num = some r → r.rescued = false →
    Runs (.rescueReplay t hub phys true port) s fun v =>
      ∃ w, settle s (resumeStage w k { r with rescued := true } h port) = .next v ∧ storeFind w.core.held k = none ∧
        cmdAt w k r.num = some { r with rescued := true } ∧ rd w .INTEG_CORE_INFO_SKIP k = 2 ∧
        rd w .INTEG_RESCUES hub = rd (incX u .INTEG_RESCUES hub) .INTEG_RESCUES hub ∧ w.mem = s.mem) ∧
  (∀ (s : State) (t hub phys : Nat) (passed : Bool) (port : List Nat) (h : Held) (r : RunCmd),
    let u := tick s t
    let k := coreKey hub phys
    storeFind u.core.held k = some h → cmdAt u k h.num = some r → (passed = false ∨ r.rescued = true) →
    Runs (.rescueReplay t hub phys passed port) s fun v => coreState v k = 4) ∧
  (∀ (s : State) (src : Src) (hub slot target bit : Nat), isMgmt s src = true → windowCtx s = none →
    Runs (.matInjectArm src hub slot target bit) s fun v =>
      storeFind v.core.inject hub = some (slot, target * 64 + bit) ∧ KeptBut [.core] s v ∧
      RegsKept [(.MAT_INJECT_SLOT, hub), (.MAT_INJECT_TARGET, hub), (.MAT_INJECT_BIT, hub)] s v) ∧
  (∀ (s : State) (hub : Nat),
    ((∀ e ∈ s.core.sumWait, e.1 / 66 ≠ hub) → Runs (.sumqPop (.core hub) hub) s fun v =>
      storeGet [] v.core.sumq hub = (storeGet [] s.core.sumq hub).drop 1 ∧
      v.rep.outs = s.rep.outs ++ [.readData (((storeGet [] s.core.sumq hub).head?.map (fun x => leNum (summaryBytes x))).getD 0)] ∧
      KeptBut [.core, .rep] s v ∧ RegsKept [(.VEC_SUMQ_STATUS_COUNT, hub)] s v) ∧
    (∀ src, src ≠ .core hub → Runs (.sumqPop src hub) s fun v =>
      v.rep.outs = s.rep.outs ++ [.readData 0] ∧ KeptBut [.rep] s v ∧ RegsKept [] s v)) ∧
  (∀ (s : State) (hub n value : Nat), n < 32 →
    Runs (.scalarCsrWrite hub n value) s fun v =>
      rd v .VEC_SCALAR_VALUE (hub * 32 + n) = bitsOf value 31 0 ∧ rd v .VEC_SCALAR_CTX (hub * 32 + n) = bitsOf value 37 32 ∧
      rd v .VEC_SCALAR_SHARED (hub * 32 + n) = bitsOf value 38 38 ∧ rd v .VEC_SCALAR_VALID (hub * 32 + n) = bitsOf value 39 39 ∧
      KeptBut [] s v ∧
      RegsKept [(.VEC_SCALAR_VALUE, hub * 32 + n), (.VEC_SCALAR_CTX, hub * 32 + n), (.VEC_SCALAR_SHARED, hub * 32 + n),
        (.VEC_SCALAR_VALID, hub * 32 + n)] s v)
/-! ## Memory -/

/-- A byte reads as it was written and every other byte reads as before, also where the write makes an invalid on-chip line
valid (R260). -/
def Obligations.MemoryReadsWhatWasWritten : Prop :=
  ∀ (s : State) (a v : Nat),
    readByte (writeByte s a v) a = v % 256 ∧ (∀ b, b ≠ a → readByte (writeByte s a v) b = readByte s b)

/-- Every write over memory keeps its canonical form, and reset memory has it. -/
def Obligations.MemoryKeepsItsCanonicalForm : Prop :=
  State.reset.mem.wf ∧
  ∀ s : State, s.mem.wf →
    (∀ a l, (writeBytes l a s).mem.wf) ∧ (∀ a l, (storeHbm s a l).mem.wf) ∧ (∀ ctx a l, (putBytes s ctx a l).mem.wf) ∧
    (∀ a bit w v, (writeBits s a bit w v).mem.wf) ∧ (∀ hub, (loseHubMemory s hub).mem.wf) ∧
    (∀ src dst n, (copyRange s src dst n).mem.wf) ∧ (∀ u n, (zeroUnits s u n).mem.wf) ∧ (publishTables s).mem.wf ∧
    (∀ src hub granule space phys owner go v, exec (.memGrant src hub granule space phys owner go) s = .next v → v.mem.wf) ∧
    (∀ hub addr double op value v, exec (.pantryAmo hub addr double op value) s = .next v → v.mem.wf)

/-- The Pantry's atomics on an aligned word of a scratch part (R267): an AMO leaves its result and returns the old word, and
every LR reservation of the word goes; LR returns the word and reserves it; SC stores and returns 0 while the reservation
holds, else stores nothing and returns 1. No byte outside the word changes. At any other address they change nothing and
answer nothing. -/
def Obligations.PantryAtomicsRun : Prop :=
  ∀ (s : State) (hub addr : Nat) (double : Bool), let n := if double then 8 else 4
    (hub < 160 → atomicOk s addr n = true →
    (∀ (op : AmoOp) (value : Nat), Runs (.pantryAmo hub addr double op value) s fun v =>
      readLe v addr n = amoResult op (8 * n) (readLe s addr n) (value % 2 ^ (8 * n)) ∧ BytesKept addr n s v ∧
      v.rep.outs = s.rep.outs ++ [.readData (readLe s addr n)] ∧ (∀ e ∈ v.mem.lr, e.2 ≠ addr / 8) ∧
      KeptBut [.mem, .rep] s v ∧ RegsKept [] s v) ∧
    (Runs (.pantryLr hub addr double) s fun v =>
      storeFind v.mem.lr hub = some (addr / 8) ∧ v.rep.outs = s.rep.outs ++ [.readData (readLe s addr n)] ∧
      (∀ b, readByte v b = readByte s b) ∧ KeptBut [.mem, .rep] s v ∧ RegsKept [] s v) ∧
    (∀ value : Nat, storeFind s.mem.lr hub = some (addr / 8) → Runs (.pantrySc hub addr double value) s fun v =>
      readLe v addr n = value % 2 ^ (8 * n) ∧ BytesKept addr n s v ∧ v.rep.outs = s.rep.outs ++ [.readData 0] ∧
      KeptBut [.mem, .rep] s v ∧ RegsKept [] s v) ∧
    (∀ value : Nat, storeFind s.mem.lr hub ≠ some (addr / 8) → Runs (.pantrySc hub addr double value) s fun v =>
      (∀ b, readByte v b = readByte s b) ∧ v.rep.outs = s.rep.outs ++ [.readData 1] ∧ KeptBut [.mem, .rep] s v ∧ RegsKept [] s v)) ∧
    (atomicOk s addr n = false → ∀ (op : AmoOp) (value : Nat),
      ∀ c ∈ [Instr.pantryAmo hub addr double op value, .pantryLr hub addr double, .pantrySc hub addr double value],
        Runs c s fun v => KeptBut [] s v ∧ RegsKept [] s v)

/-- A grant (R260): the granule takes its owner and every byte of it reads zero; every other granule keeps its owner and
every other byte its value. -/
def Obligations.GrantGivesAZeroedGranule : Prop :=
  ∀ (s : State) (src : Src) (hub granule space phys owner : Nat),
    let a := if space = 0 then pantryAddr hub (granule * 4096) else lsAddr hub phys (granule * 4096)
    hubWriter s src hub = true → hub < 160 → grantCode owner = true → (space = 0 → granule < 2048) →
    (space ≠ 0 → granule < 24 ∧ phys < 66) →
    Runs (.memGrant src hub granule space phys owner true) s fun v =>
      granuleOwner v a = owner ∧ (∀ i, i < 4096 → readByte v (a + i) = 0) ∧ granuleWritten v a = false ∧
      (∀ b, b / 4096 ≠ a / 4096 → granuleOwner v b = granuleOwner s b ∧ readByte v b = readByte s b) ∧
      KeptBut [.mem] s v ∧ RegsKept [] s v
/-! ## Integrity, spares and the report path -/

/-- READMIT of a CLEARED RETIRED core by the management context (R301): SPARE, with FENCED, SKIP and CLEARED clear and
READMITS advanced; it serves no slot it did not serve. On any other core, or from the hub's own control core, no core
changes. -/
def Obligations.ReadmissionMakesASpare : Prop :=
  ∀ (s : State) (src : Src) (hub slot : Nat), let k := hub * 66 + slot
    hub < 160 → slot < 66 →
    (isMgmt s src = true → coreState s k = 4 → rd s .INTEG_CORE_INFO_READMITS k < 2 → rd s .INTEG_CORE_INFO_CLEARED k ≠ 0 →
      Runs (.readmit src hub slot) s fun v =>
        coreState v k = 2 ∧ rd v .HUB_SLOT_STATE_FENCED k = 0 ∧ rd v .INTEG_CORE_INFO_SKIP k = 0 ∧
        rd v .INTEG_CORE_INFO_CLEARED k = 0 ∧ rd v .INTEG_CORE_INFO_READMITS k = rd s .INTEG_CORE_INFO_READMITS k + 1 ∧
        rd v .INTEG_CMD_STATUS_DONE hub = 1 ∧ (∀ l, physOf v hub l = physOf s hub l) ∧
        (∀ j, j ≠ k → coreState v j = coreState s j)) ∧
    ((isMgmt s src = false ∨ coreState s k ≠ 4 ∨ 2 ≤ rd s .INTEG_CORE_INFO_READMITS k ∨ rd s .INTEG_CORE_INFO_CLEARED k = 0) →
      Runs (.readmit src hub slot) s fun v => ∀ j, coreState v j = coreState s j)

/-- The other operations of INTEG_CORE_CMD (R309): by the management context, and operations 1 to 3 by the hub's own control core
too. MARK_SUSPECT and MARK_RETIRED act as Table 10-3 says, the first being refused for a RETIRED core; SET_SKIP takes a value
below 3. The operations of the management context alone answer reason 1 to the control core, a slot that does not exist
reason 3, and a write from any other source changes nothing. -/
def Obligations.CoreCommandsRun : Prop :=
  ∀ (s : State) (src : Src) (hub slot : Nat), let k := hub * 66 + slot
    hub < 160 →
    (isMgmt s src = true ∨ src = .core hub → slot < 66 →
      (coreState s k ≠ 3 → coreState s k ≠ 4 → Runs (.markSuspect src hub slot) s fun v =>
        (coreState v k = 3 ∨ rd s .INTEG_HUB_STATE hub = 1 ∧ coreState v k = 4) ∧ rd v .INTEG_CMD_STATUS_DONE hub = 1 ∧
        v.mem = s.mem) ∧
      (coreState s k = 3 → Runs (.markSuspect src hub slot) s fun v =>
        rd v .INTEG_CMD_STATUS_DONE hub = 1 ∧ KeptBut [] s v ∧ RegsKept [(.INTEG_CMD_STATUS_DONE, hub)] s v) ∧
      (coreState s k = 4 → Runs (.markSuspect src hub slot) s fun v =>
        rd v .INTEG_CMD_STATUS_REJECTED hub = 1 ∧ rd v .INTEG_CMD_STATUS_REASON hub = 2 ∧ KeptBut [] s v ∧
        RegsKept [(.INTEG_CMD_STATUS_REJECTED, hub), (.INTEG_CMD_STATUS_REASON, hub)] s v) ∧
      (serving s k = false ∨ coreState s k = 4 → Runs (.markRetired src hub slot) s fun v =>
        coreState v k = 4 ∧ rd v .INTEG_CMD_STATUS_DONE hub = 1 ∧ v.mem = s.mem) ∧
      (serving s k = true → coreState s k ≠ 4 → Runs (.markRetired src hub slot) s fun v =>
        coreState v k = coreState s k ∧ rd v .INTEG_CORE_INFO_RETIRE_PENDING k = 1 ∧ rd v .INTEG_CMD_STATUS_DONE hub = 1) ∧
      (∀ value, value < 3 → Runs (.setSkip src hub slot value) s fun v =>
        rd v .INTEG_CORE_INFO_SKIP k = value ∧ rd v .INTEG_CMD_STATUS_DONE hub = 1 ∧ KeptBut [.rep] s v ∧
        RegsKept [(.INTEG_CORE_INFO_SKIP, k), (.INTEG_CMD_STATUS_DONE, hub)] s v) ∧
      (∀ value, 3 ≤ value → Runs (.setSkip src hub slot value) s fun v =>
        rd v .INTEG_CMD_STATUS_REJECTED hub = 1 ∧ rd v .INTEG_CMD_STATUS_REASON hub = 2 ∧ KeptBut [] s v ∧
        RegsKept [(.INTEG_CMD_STATUS_REJECTED, hub), (.INTEG_CMD_STATUS_REASON, hub)] s v)) ∧
    (isMgmt s src = true → slot < 66 → Runs (.clearLastEvent src hub slot) s fun v =>
      storeFind v.core.events (eventKey k) = none ∧ rd v .INTEG_CMD_STATUS_DONE hub = 1 ∧ KeptBut [.core] s v ∧
      RegsKept [(.INTEG_CMD_STATUS_DONE, hub)] s v) ∧
    (isMgmt s src = true → Runs (.setHubNormal src hub) s fun v =>
      rd v .INTEG_HUB_STATE hub = 0 ∧ rd v .INTEG_HUB_OUT hub = 0 ∧ rd v .INTEG_CMD_STATUS_DONE hub = 1 ∧
      (∀ j, coreState v j = coreState s j)) ∧
    (∀ c ∈ [Instr.clearLastEvent (.core hub) hub slot, .setHubNormal (.core hub) hub], Runs c s fun v =>
      rd v .INTEG_CMD_STATUS_REJECTED hub = 1 ∧ rd v .INTEG_CMD_STATUS_REASON hub = 1 ∧ KeptBut [] s v ∧
      RegsKept [(.INTEG_CMD_STATUS_REJECTED, hub), (.INTEG_CMD_STATUS_REASON, hub)] s v) ∧
    (isMgmt s src = true ∨ src = .core hub → 66 ≤ slot → ∀ value, ∀ c ∈ [Instr.markSuspect src hub slot, .markRetired src hub slot,
        .setSkip src hub slot value], Runs c s fun v =>
      rd v .INTEG_CMD_STATUS_REJECTED hub = 1 ∧ rd v .INTEG_CMD_STATUS_REASON hub = 3 ∧ KeptBut [] s v ∧
      RegsKept [(.INTEG_CMD_STATUS_REJECTED, hub), (.INTEG_CMD_STATUS_REASON, hub)] s v) ∧
    (isMgmt s src = false → src ≠ .core hub → ∀ value, ∀ c ∈ [Instr.markSuspect src hub slot, .markRetired src hub slot,
        .setSkip src hub slot value, .clearLastEvent src hub slot, .setHubNormal src hub],
      Runs c s fun v => KeptBut [] s v ∧ RegsKept [] s v)

/-- A hang (R291): once a command has run longer than MAX_NS and the step's unused reserve (the event's figure for it, which is
no less than what was unused when the command started), its core is RETIRED and FENCED, no command of its card and task is
left in any queue, and the items of the task have ended. -/
def Obligations.HangRetiresTheCore : Prop :=
  ∀ (s : State) (t hub phys reserve : Nat) (r : RunCmd), let u := tick s t
    let k := coreKey hub phys
    curCmd u k = some r → r.unused ≤ reserve → r.start + r.q.card.maxNs + reserve < u.now → coreState u k ≠ 4 →
    Runs (.hangTimeout t hub phys reserve) s fun v =>
      coreState v k = 4 ∧ rd v .HUB_SLOT_STATE_FENCED k = 1 ∧
      (∀ e ∈ v.core.queues, ∀ x ∈ e.2, ¬ (x.q.card.cardId = r.q.card.cardId ∧ x.q.task = r.q.task)) ∧
      (∀ i ∈ r.q.task, itemAt v i.1 i.2 = none) ∧ v.mem = s.mem

/-- A field test that may start on a testable core (R57, R296, R298, Table 10-3): a test whose output has the expected CRC and
during which no event occurred is counted as passed and advances the core's sweep, of which the twelfth in order is the last;
any other is counted as failed, and an ACTIVE core leaves service for it. A rotation that is due, with two SPARE cores, takes the
next core, and the slot of an ACTIVE one is to move (R298). A hub whose sweeps have fallen behind is flagged. -/
def Obligations.FieldTestsRun : Prop :=
  (∀ (s : State) (t hub phys test expected : Nat) (ft : FtRun) (event : Bool), let u := tick s t
    let k := coreKey hub phys
    let done := storeGet [] u.core.sweep k
    1 ≤ test → test ≤ 12 → hub < 160 → phys < 66 → testable u k = true → testStarts u k test = true →
    (observedCrc test ft = expected → event = false → Runs (.fieldTest t hub phys test ft expected event) s fun v =>
        rd v .INTEG_TEST_PASS hub = rd (incX u .INTEG_TEST_PASS hub) .INTEG_TEST_PASS hub ∧
        storeFind v.core.sweep k =
          (if test = done.length + 1 then (if test = 12 then none else some (done ++ [test]))
           else if test = 1 then some [1] else storeFind u.core.sweep k) ∧
        (test = 12 → done.length = 11 → storeGet 0 v.core.sweepAt k = u.now ∧ storeFind v.core.lastSwept hub = some phys) ∧
        v.mem = s.mem) ∧
    (observedCrc test ft ≠ expected ∨ event = true → Runs (.fieldTest t hub phys test ft expected event) s fun v =>
        rd v .INTEG_TEST_FAIL hub = rd (incX u .INTEG_TEST_FAIL hub) .INTEG_TEST_FAIL hub ∧ storeFind v.core.sweep k = none ∧
        (coreState s k = 1 → coreState v k = 3 ∨ rd s .INTEG_HUB_STATE hub = 1 ∧ coreState v k = 4) ∧ v.mem = s.mem)) ∧
  (∀ (s : State) (t hub : Nat), let u := tick s t
    hub < 160 → rd s .INTEG_FT_ROTATE_EN 0 = 1 →
    2 ≤ ((List.range 66).filter fun p => coreState u (hub * 66 + p) == 2).length →
    (∀ x, storeFind u.core.lastRotate hub = some x → x + rd s .INTEG_FT_ROTATE_MIN * 1000000000 ≤ u.now) →
    Runs (.sweepRotation t hub) s fun v => storeFind v.core.lastRotate hub = some u.now ∧ v.mem = s.mem ∧
      (∀ p l, nextToSweep u hub = some p → logicalOf u hub p = some l → coreState u (hub * 66 + p) = 1 →
        rd v .HUB_REMAP_CTRL_FLIP_REQ hub = 1)) ∧
  (∀ (s : State) (t hub : Nat), let u := tick s t
    hub < 160 → starved u hub = true → rd s .INTEG_HUB_FT_STARVED hub = 0 →
    Runs (.ftStarved t hub) s fun v => rd v .INTEG_HUB_FT_STARVED hub = 1 ∧ KeptBut [.rep, .now] s v)

/-- Heartbeats (R302): one that has advanced is kept; one that has not advanced over 300 µs fails the hub, which leaves
placement; the shadow takes over from a lead that stands still for 30 µs or takes a machine check. -/
def Obligations.HeartbeatsRun : Prop :=
  (∀ (s : State) (t hub value : Nat), let u := tick s t
    hub < 160 → rd s .INTEG_HUB_STATE hub ≠ 2 → hub ∉ s.core.halted → storeFind s.boot.hubResets hub = none →
    (value ≠ (storeGet (0, 0) s.core.beat hub).1 → Runs (.heartbeatSample t hub value) s fun v =>
      rd v .INTEG_HEARTBEAT hub = value % 2 ^ 32 ∧ storeFind v.core.beat hub = some (value, u.now) ∧
      KeptBut [.core, .now] s v ∧ RegsKept [(.INTEG_HEARTBEAT, hub)] s v) ∧
    (value = (storeGet (0, 0) s.core.beat hub).1 → (storeGet (0, 0) s.core.beat hub).2 + 300000 ≤ u.now →
      Runs (.heartbeatSample t hub value) s fun v => rd v .INTEG_HUB_OUT hub = 1)) ∧
  (∀ (s : State) (t value : Nat), let u := tick s t
    (value ≠ s.core.shadowBeat.1 → Runs (.shadowHeartbeatSample t value) s fun v =>
      v.core.shadowBeat = (value, u.now) ∧ KeptBut [.core, .now] s v ∧ RegsKept [] s v) ∧
    (leadHub s ∉ s.core.halted → shadowHub s ∉ s.core.halted → rd s .INTEG_HUB_OUT (shadowHub s) = 0 →
      (value = s.core.shadowBeat.1 → s.core.shadowBeat.2 + 30000 ≤ u.now → Runs (.shadowHeartbeatSample t value) s fun v =>
        rd v .INTEG_LEAD_LEAD_WING 0 = rd s .INTEG_LEAD_SHADOW_WING 0) ∧
      Runs (.machineCheck t) s fun v => rd v .INTEG_LEAD_LEAD_WING 0 = rd s .INTEG_LEAD_SHADOW_WING 0))

/-- The report path (R304, R418): the oldest record that waits is made durable; what a coalescing window counted goes as
one record; the head of the fault queue is sent to the event receiver as its 64 bytes and leaves when answered, and after four
attempts it is held; a dump that completes is marked. -/
def Obligations.ReportPathRuns : Prop :=
  (∀ (s : State) (t : Nat) (c : CellarRec) (rest : List CellarRec), s.rep.toWrite = c :: rest →
    Runs (.cellarWrite t) s fun v =>
      v.rep.toWrite = rest ∧ v.rep.ring.getLast? = some c ∧ (s.rep.ring.length ≤ 30720 → v.rep.ring.length ≤ 30720) ∧
      KeptBut [.rep, .now] s v ∧ RegsKept [] s v) ∧
  (∀ (s : State) (t kind unit : Nat) (w : Coalesce), let u := tick s t
    s.rep.coalesce.find? (fun x => x.kind == kind && x.unit == unit) = some w → w.start + 1000000000 ≤ u.now → w.more ≠ 0 →
    Runs (.coalesceWindowEnd t kind unit) s fun v =>
      (∀ x ∈ v.rep.coalesce, ¬ (x.kind = kind ∧ x.unit = unit)) ∧
      v.rep.toWrite = s.rep.toWrite ++
        [{ w.last with flags := w.last.flags % 4 + 4, count := min w.more 65535, seq := rd s .CELLAR_NEXT_SEQ }] ∧
      KeptBut [.rep, .now] s v) ∧
  (∀ (s : State) (t : Nat) (c : CellarRec) (rest : List CellarRec), s.rep.faultQueue = c :: rest → s.rep.receiver ≠ none →
    (s.rep.eventTries = 0 → Runs (.platformEventMessage t true) s fun v =>
      v.rep.faultQueue = rest ∧ v.rep.outs = s.rep.outs ++ [.platformEvent (cellarBytes c)] ∧ KeptBut [.rep, .now] s v ∧ RegsKept [] s v) ∧
    (s.rep.eventTries = 0 → Runs (.platformEventMessage t false) s fun v =>
      v.rep.faultQueue = s.rep.faultQueue ∧ v.rep.eventTries = 1 ∧ v.rep.eventNext = some (max s.now t + 100000000)) ∧
    (∀ due, s.rep.eventNext = some due → due ≤ max s.now t → Runs (.pldmEventRetry t true) s fun v =>
      v.rep.faultQueue = rest ∧ v.rep.outs = s.rep.outs ++ [.platformEvent (cellarBytes c)] ∧ v.rep.eventTries = 0 ∧
      KeptBut [.rep, .now] s v ∧ RegsKept [] s v) ∧
    (∀ due, s.rep.eventNext = some due → due ≤ max s.now t → Runs (.pldmEventRetry t false) s fun v =>
      v.rep.faultQueue = s.rep.faultQueue ∧ v.rep.eventTries = s.rep.eventTries + 1 ∧
      (v.rep.eventHeld = true ↔ 4 ≤ s.rep.eventTries + 1))) ∧
  (∀ (s : State) (t scope time trigger : Nat), scope < 160 → s.dbg.dumps.find? (fun d => d.1 == scope) = some (scope, time, trigger) →
    storeFind s.boot.hubResets scope = none →
    Runs (.trailDumpDone t scope) s fun v =>
      rd v .DBG_TRAIL_STATUS_DUMPED scope = 1 ∧ (∀ d ∈ v.dbg.dumps, d.1 ≠ scope))
/-! ## HBM -/

/-- Errors of HBM (R269, R274, R275, Tables 9-4 and 9-5): a retried burst, a corrected word and an uncorrectable read are counted
and, below the thresholds, a retry changes nothing else; from 16 retries within 1 ms on the channel is not ACTIVE, and from 256 on
it is RETIRED; a write whose fifth attempt fails retires its channel; an uncorrectable word poisons its
block, and a weight block waits for a rebuild. The ways a channel leaves service: a DEGRADED channel that has been drained or
has waited 1 s, a channel whose PHY does not retrain, and the 32 channels of a failed stack are RETIRED. -/
def Obligations.HbmErrorsRun : Prop :=
  (∀ (s : State) (t addr : Nat), let c := chanOf addr
    let u := tick s t
    isHbm addr = true →
    (∀ attempt write, 1 ≤ attempt → attempt ≤ 4 → Runs (.hbmBurstRetry t addr attempt write) s fun v =>
      let n := ((((chanLog u c).retries ++ [u.now]).drop ((chanLog u c).retries.length + 1 - 256)).filter
        (fun x => decide (u.now < x + 1000000))).length
      rd v .HBM_CH_RETRIES c = satAdd 32 (rd s .HBM_CH_RETRIES c) 1 ∧
      (16 ≤ n → 1 ≤ rd v .HBM_CH_STATE_STATE c) ∧ (256 ≤ n → 2 ≤ rd v .HBM_CH_STATE_STATE c)) ∧
    (∀ attempt, 5 ≤ attempt → ∀ e ∈ [Instr.hbmBurstRetry t addr attempt false, .hbmStoredError t addr false], Runs e s fun v =>
      rd v .HBM_CH_UNCORR c = satAdd 32 (rd s .HBM_CH_UNCORR c) 1) ∧
    (∀ attempt write, 1 ≤ attempt → attempt ≤ 4 →
      ((chanLog u c).retries.filter (fun x => decide (u.now < x + 1000000))).length < 15 →
      ((chanLog u c).uncorr.filter (fun x => decide (u.now < x + 86400000000000))).length < 4 → chanPoison u c < 48 →
      Runs (.hbmBurstRetry t addr attempt write) s fun v =>
        rd v .HBM_CH_RETRIES c = satAdd 32 (rd s .HBM_CH_RETRIES c) 1 ∧ rd v .HBM_CH_STATE_STATE c = rd s .HBM_CH_STATE_STATE c ∧
        v.mem.bytes = s.mem.bytes ∧ v.mem.poison = s.mem.poison ∧ Frame [.mem, .now] [.HBM_CH_RETRIES] s v) ∧
    (∀ attempt, 5 ≤ attempt → Runs (.hbmBurstRetry t addr attempt true) s fun v =>
      rd v .HBM_CH_STATE_STATE c = 2 ∧ rd v .HBM_CH_UNCORR c = satAdd 32 (rd s .HBM_CH_UNCORR c) 1) ∧
    (Runs (.hbmStoredError t addr true) s fun v =>
      rd v .HBM_CH_CORRECTED c = satAdd 32 (rd s .HBM_CH_CORRECTED c) 1 ∧
      Frame [.dbg, .now] [.HBM_CH_CORRECTED] s v) ∧
    (∀ p, blockPos s addr = some p → addr / 4096 ∉ s.mem.poison → rd s .HBM_CH_STATE_STATE c = 0 →
      (chanLog s c).retries = [] → (chanLog s c).uncorr = [] → chanPoison s c = 0 →
      ∀ attempt, 5 ≤ attempt → ∀ e ∈ [Instr.hbmBurstRetry t addr attempt false, .hbmStoredError t addr false],
      Runs e s fun v =>
        v.mem.poison = s.mem.poison ++ [addr / 4096] ∧
        (∃ r ∈ v.mem.rebuilds, r.block = addr / 4096 ∧ r.wing = hbmWing addr ∧ r.start = u.now) ∧
        rd v .HBM_CH_UNCORR c = satAdd 32 (rd s .HBM_CH_UNCORR c) 1 ∧ rd v .HBM_CH_STATE_STATE c = 0 ∧
        v.mem.bytes = s.mem.bytes ∧
        Frame [.dbg, .mem, .now, .rep, .tt] (reportFlds ++ [.HBM_CH_UNCORR, .HBM_POISON_COUNT]) s v)) ∧
  (∀ (s : State) (t chan : Nat), chan < 384 → rd s .HBM_CH_STATE_STATE chan = 1 →
    (Runs (.degradedDrainDone t chan) s fun v => rd v .HBM_CH_STATE_STATE chan = 2) ∧
    ((chanLog s chan).degradedAt + 1000000000 ≤ max s.now t →
      Runs (.degradedTimeout t chan) s fun v => rd v .HBM_CH_STATE_STATE chan = 2)) ∧
  (∀ (s : State) (t chan : Nat), chan < 384 → rd s .HBM_CH_STATE_STATE chan < 2 →
    Runs (.phyRetrainingFail t chan) s fun v => rd v .HBM_CH_STATE_STATE chan = 2) ∧
  (∀ (s : State) (t stack : Nat) (room : Bool), stack < 12 → Runs (.stackFailure t stack room) s fun v =>
    ∀ i, i < 32 → rd v .HBM_CH_STATE_STATE (stack * 32 + i) = 2) ∧
  (∀ (s : State) (t chan : Nat), Runs (.patrolScrub t chan) s fun v => v.now = max s.now t ∧ Frame [.now] [] s v)

/-- A rebuild forms the block as the XOR of the other sixteen of its stripe and unpoisons it; where the verify read fails the block
takes a place of the spare area, and with all 64 in use its stripe is refetched instead (R275). A refetch from a peer or the host
writes the stripe and unpoisons its blocks; one from nowhere ends the rebuilds of the stripe (R276). -/
def Obligations.RebuildAndRefetchRun : Prop :=
  (∀ (s : State) (t block p : Nat) (r : Rebuild), s.mem.rebuilds.find? (fun x => x.block == block && !x.refetch) = some r →
    blockPos s (block * 4096) = some p → blockAt s r.wing (layoutAt s (block * 4096)) p = block * 4096 →
    Runs (.weightRebuildDone t block true) s fun v =>
      block ∉ v.mem.poison ∧ (∀ x ∈ v.mem.rebuilds, x.block ≠ block) ∧
      readBytes v (block * 4096) 4096 =
        xorBlocks (((List.range 17).filter (· != p % 17)).map fun j => readBytes s (stripeBlock s r.wing (layoutAt s (block * 4096)) (p / 17) j) 4096) ∧
      BytesKept (block * 4096) 4096 s v ∧ v.mem.spare = s.mem.spare ∧ rd v .HBM_REBUILDS r.wing = satAdd 32 (rd s .HBM_REBUILDS r.wing) 1 ∧
      rd v .HBM_REBUILD_MAX_NS r.wing =
        min (2 ^ 32 - 1) (max (rd s .HBM_REBUILD_MAX_NS r.wing) (max s.now t - r.start)) ∧
      Frame [.mem, .now, .rep] (reportFlds ++ [.HBM_POISON_COUNT, .HBM_REBUILDS, .HBM_REBUILD_MAX_NS]) s v) ∧
  (∀ (s : State) (t block p : Nat) (r : Rebuild), s.mem.rebuilds.find? (fun x => x.block == block && !x.refetch) = some r →
    blockPos s (block * 4096) = some p →
    let used := (s.mem.spare.filter (fun e => e.1 / 0x3000000 == r.wing)).length
    (used < 64 → Runs (.weightRebuildDone t block false) s fun v =>
      block ∉ v.mem.poison ∧ (∀ x ∈ v.mem.rebuilds, x.block ≠ block) ∧ storeFind v.mem.spare block = some used ∧
      rd v .HBM_REBUILDS r.wing = satAdd 32 (rd s .HBM_REBUILDS r.wing) 1 ∧
      Frame [.mem, .now, .rep] (reportFlds ++ [.HBM_POISON_COUNT, .HBM_REBUILDS, .HBM_REBUILD_MAX_NS]) s v) ∧
    (64 ≤ used → Runs (.weightRebuildDone t block false) s fun v =>
      (∀ x ∈ v.mem.rebuilds, x.block = block → x.refetch = true) ∧ v.mem.poison = s.mem.poison ∧ v.mem.bytes = s.mem.bytes ∧
      KeptBut [.mem, .now] s v ∧ RegsKept [] s v)) ∧
  (∀ (s : State) (t block source p : Nat) (data : List (List Nat)) (r : Rebuild), source ≠ 2 → source ≠ 3 →
    s.mem.rebuilds.find? (fun x => x.block == block && x.refetch) = some r → blockPos s (block * 4096) = some p →
    Runs (.refetchDone t block source data) s fun v =>
      (∀ j, j < 17 → ∀ x ∈ v.mem.rebuilds, x.block ≠ stripeBlock s r.wing (layoutAt s (block * 4096)) (p / 17) j / 4096) ∧ v.mem.bytes = s.mem.bytes) ∧
  (∀ (s : State) (t block source p : Nat) (data : List (List Nat)) (r : Rebuild), source = 2 ∨ source = 3 →
    s.mem.rebuilds.find? (fun x => x.block == block && x.refetch) = some r → blockPos s (block * 4096) = some p →
    Runs (.refetchDone t block source data) s fun v =>
      (∀ j, j < 17 → stripeBlock s r.wing (layoutAt s (block * 4096)) (p / 17) j / 4096 ∉ v.mem.poison) ∧
      rd v .HBM_REFETCHES r.wing = satAdd 32 (rd s .HBM_REFETCHES r.wing) 1 ∧
      Frame [.mem, .now, .rep] (reportFlds ++ [.HBM_POISON_COUNT, .HBM_REFETCHES, .HBM_REBUILD_MAX_NS]) s v)

/-- A cleared region reads as zero and has its next owner; every other byte and every other owner is as it was (R278).
Repair of a row (R279): GO starts it on an OFFLINE channel for management, and on any other channel fails; when it is done
the row reads as zero. -/
def Obligations.RegionsAndRepairsRun : Prop :=
  (∀ (s : State) (t region : Nat) (x : RegionClear), region < 12288 →
    s.mem.regionClears.find? (fun y => y.region == region) = some x →
    Runs (.regionClearDone t region) s fun v =>
      storeGet 0x7F v.mem.regions region = x.next ∧ (∀ n, n ≠ region → storeGet 0x7F v.mem.regions n = storeGet 0x7F s.mem.regions n) ∧
      (∀ i, i < 0x4000000 → readByte v (regionAddr region + i) = 0) ∧ BytesKept (regionAddr region) 0x4000000 s v ∧
      (∀ b ∈ v.mem.poison, b / 16384 ≠ regionAddr region / 0x4000000) ∧ x ∉ v.mem.regionClears ∧
      (x.ctx = 64 → Frame [.mem, .now] [.HBM_POISON_COUNT] s v) ∧
      (x.ctx < 64 → s.ctxs.tearing.any (fun e => e.1 == x.ctx) = true →
        (∀ y ∈ s.mem.regionClears, y ≠ x → y.ctx ≠ x.ctx) → rd v .CTX_STATE_STATE x.ctx = 0)) ∧
  (∀ (s : State) (src : Src) (chan : Nat), isMgmt s src = true → chan < 384 → rd s .HBM_REPAIR_STATUS_BUSY chan ≠ 1 →
    (rd s .HBM_CH_STATE_STATE chan = 3 → rd s .HBM_REPAIR_CTRL_KIND chan = 1 ∨ rd s .HBM_REPAIR_CTRL_KIND chan = 2 →
      Runs (.hbmRepairGo src chan) s fun v =>
        rd v .HBM_REPAIR_STATUS_BUSY chan = 1 ∧ KeptBut [] s v ∧ RegsKept [(.HBM_REPAIR_STATUS_BUSY, chan)] s v) ∧
    (rd s .HBM_CH_STATE_STATE chan ≠ 3 ∨ rd s .HBM_REPAIR_CTRL_KIND chan ≠ 1 ∧ rd s .HBM_REPAIR_CTRL_KIND chan ≠ 2 →
      Runs (.hbmRepairGo src chan) s fun v =>
        rd v .HBM_REPAIR_STATUS_FAIL chan = 1 ∧ KeptBut [] s v ∧ RegsKept [(.HBM_REPAIR_STATUS_FAIL, chan)] s v)) ∧
  (∀ (s : State) (t chan spares : Nat) (block : Option Nat), chan < 384 → rd s .HBM_REPAIR_STATUS_BUSY chan = 1 →
    (Runs (.hbmRepairDone t chan true spares block) s fun v =>
      rd v .HBM_REPAIR_STATUS_BUSY chan = 0 ∧ rd v .HBM_REPAIR_STATUS_DONE chan = 1 ∧
      rd v .HBM_REPAIR_STATUS_SPARES_LEFT chan = spares % 256 ∧
      (∀ b i, block = some b → chanOf (b * 4096) = chan → i < 4096 → readByte v (b * 4096 + i) = 0) ∧
      (∀ a, (∀ b, block = some b → a / 4096 ≠ b) → readByte v a = readByte s a) ∧ KeptBut [.mem, .now] s v) ∧
    (Runs (.hbmRepairDone t chan false spares block) s fun v =>
      rd v .HBM_REPAIR_STATUS_BUSY chan = 0 ∧ rd v .HBM_REPAIR_STATUS_FAIL chan = 1 ∧ KeptBut [.now] s v))
/-! ## Tables -/

/-- Loads of slot tables and coefficients (R44, R155): START makes a load busy; while a flip is requested it is refused with
reason 3 and loads nothing; a load that completes replaces the inactive bank where its image passes every check, and
otherwise says why and leaves both banks alone. -/
def Obligations.TableLoadsRun : Prop :=
  (∀ (s : State) (src : Src) (hub : Nat), hub < 160 → mayWrite s src .HUB_TT_LOAD_SRC_OFFSET hub = true →
    (rd s .WING_TT_CTRL_FLIP_REQ (hub / 40) ≠ 1 → Runs (.hubTtLoad src hub) s fun v =>
      rd v .HUB_TT_CTRL_LOAD_BUSY hub = 1 ∧ KeptBut [] s v ∧ RegsKept [(.HUB_TT_CTRL_LOAD_BUSY, hub)] s v) ∧
    (rd s .WING_TT_CTRL_FLIP_REQ (hub / 40) = 1 → Runs (.hubTtLoad src hub) s fun v =>
      rd v .HUB_TT_CTRL_LOAD_ERROR hub = 1 ∧ rd v .HUB_TT_CTRL_LOAD_REASON hub = 3 ∧
      KeptBut [.dbg] s v ∧ RegsKept [(.HUB_TT_CTRL_LOAD_ERROR, hub), (.HUB_TT_CTRL_LOAD_REASON, hub)] s v)) ∧
  (∀ (s : State) (t hub : Nat), rd s .HUB_TT_CTRL_LOAD_BUSY hub = 1 →
    let img := pantryImage s hub (rd s .HUB_TT_LOAD_SRC_OFFSET hub * 64) (0x140 + 72 * 1024)
    (hubImageReason (hub % 40) img = 0 → Runs (.hubTtLoadDone t hub) s fun v =>
      rd v .HUB_TT_CTRL_LOAD_BUSY hub = 0 ∧ rd v .HUB_TT_CTRL_LOAD_DONE hub = 1 ∧
      ttBank v hub (1 - rd s .WING_TT_CTRL_ACTIVE_BANK (hub / 40)) = img.take (0x140 + 72 * imgSlots img) ∧
      (∀ k, k ≠ hub * 2 + (1 - rd s .WING_TT_CTRL_ACTIVE_BANK (hub / 40)) →
        storeGet [] v.tt.ttBanks k = storeGet [] s.tt.ttBanks k) ∧ KeptBut [.now, .tt] s v) ∧
    (hubImageReason (hub % 40) img ≠ 0 → Runs (.hubTtLoadDone t hub) s fun v =>
      rd v .HUB_TT_CTRL_LOAD_BUSY hub = 0 ∧ rd v .HUB_TT_CTRL_LOAD_ERROR hub = 1 ∧
      rd v .HUB_TT_CTRL_LOAD_REASON hub = hubImageReason (hub % 40) img ∧ v.tt.ttBanks = s.tt.ttBanks ∧
      KeptBut [.dbg, .now, .tt] s v)) ∧
  (∀ (s : State) (src : Src) (wing : Nat), wing < 4 → mayWrite s src .WING_TT_LOAD_SRC_OFFSET wing = true →
    rd s .WING_TT_CTRL_FLIP_REQ wing ≠ 1 → Runs (.wingTtLoad src wing) s fun v =>
      storeGet false v.tt.wingBusy wing = true ∧ KeptBut [.tt] s v ∧ RegsKept [] s v) ∧
  (∀ (s : State) (t wing : Nat), storeGet false s.tt.wingBusy wing = true →
    let img := wingSource s wing
    wingImageReason img = 0 → Runs (.wingTtLoadDone t wing) s fun v =>
      storeGet false v.tt.wingBusy wing = false ∧ storeGet false v.tt.ttLoaded (wingTable wing) = true ∧
      ttBank v (wingTable wing) (1 - rd s .WING_TT_CTRL_ACTIVE_BANK wing) = img.take (0x8148 + 96 * imgSlots img) ∧
      KeptBut [.now, .tt] s v ∧ RegsKept [] s v) ∧
  (∀ (s : State) (src : Src) (hub : Nat), hub < 160 → mayWrite s src .VEC_COEF_LOAD_SRC_OFFSET hub = true →
    rd s .VEC_COEF_CTRL_FLIP_REQ hub ≠ 1 → Runs (.vecCoefLoad src hub) s fun v =>
      rd v .VEC_COEF_CTRL_LOAD_BUSY hub = 1 ∧ KeptBut [] s v ∧ RegsKept [(.VEC_COEF_CTRL_LOAD_BUSY, hub)] s v) ∧
  (∀ (s : State) (t hub : Nat), rd s .VEC_COEF_CTRL_LOAD_BUSY hub = 1 →
    let img := pantryImage s hub (rd s .VEC_COEF_LOAD_SRC_OFFSET hub * 64) 1040
    coefReason img = 0 → Runs (.vecCoefLoadDone t hub) s fun v =>
      rd v .VEC_COEF_CTRL_LOAD_DONE hub = 1 ∧ rd v .VEC_COEF_TAG_INACTIVE_TAG hub = imgNum img 4 2 ∧
      storeGet [] v.tt.coefBanks (hub * 2 + (1 - rd s .VEC_COEF_CTRL_ACTIVE_BANK hub)) =
        (List.range 256).map (fun i => imgNum img (16 + 4 * i) 4) ∧ KeptBut [.now, .tt] s v)

/-- Direct writes and flip requests (R20, R21, R45, R155, R226, R227, R228): a request by a writer of the field sets it and
places a boundary where no step runs or is planned (R475); a
write aimed at the active bank is dropped; one aimed at the inactive bank is stored; COPY_START begins a copy, which at its
end makes every inactive entry equal the active one; the refresh watchdog counts a forced refresh at its limit (R49). -/
def Obligations.TableWritesRun : Prop :=
  (∀ e ∈ [(Instr.wingTtFlipReq, Fld.WING_TT_CTRL_FLIP_REQ, 4), (.remapFlipReq, .HUB_REMAP_CTRL_FLIP_REQ, 160),
      (.vecCoefFlipReq, .VEC_COEF_CTRL_FLIP_REQ, 160)], ∀ (s : State) (src : Src) (n : Nat), n < e.2.2 →
    (mayWrite s src e.2.1 n = true → Runs (e.1 src n 1) s fun v =>
      rd v e.2.1 n = 1 ∧ v.tt = (wantBoundary s).tt ∧ KeptBut [.tt] s v ∧ RegsKept [(e.2.1, n)] s v) ∧
    Runs (e.1 src n 0) s fun v => KeptBut [] s v ∧ RegsKept [] s v) ∧
  (∀ (s : State) (src : Src),
    (mayWrite s src .PANNIER_CTRL_FLIP_REQ = true → Runs (.pannierFlipReq src 1) s fun v =>
      rd v .PANNIER_CTRL_FLIP_REQ = 1 ∧ v.tt = (wantBoundary s).tt ∧ KeptBut [.tt] s v ∧ RegsKept [(.PANNIER_CTRL_FLIP_REQ, 0)] s v) ∧
    (mayWrite s src .SPOKE_TT_CTRL_FLIP_REQ = true → Runs (.spokeTtFlipReq src 1) s fun v =>
      rd v .SPOKE_TT_CTRL_FLIP_REQ = 1 ∧ KeptBut [] s v ∧ RegsKept [(.SPOKE_TT_CTRL_FLIP_REQ, 0)] s v)) ∧
  (∀ (s : State) (src : Src) (hub bank slot value : Nat), let n := hub * 64 + slot
    hub < 160 → bank < 2 → slot < 64 → mayWrite s src .HUB_REMAP_B0_SLOT_VALID n = true →
    (bank = rd s .HUB_REMAP_CTRL_ACTIVE_BANK hub → Runs (.remapSlotWrite src hub bank slot value) s fun v =>
      rd v .HUB_REMAP_CTRL_WRITE_DROPPED hub = 1 ∧ KeptBut [] s v ∧ RegsKept [(.HUB_REMAP_CTRL_WRITE_DROPPED, hub)] s v) ∧
    (bank ≠ rd s .HUB_REMAP_CTRL_ACTIVE_BANK hub → rd s .HUB_REMAP_CTRL_FLIP_REQ hub ≠ 1 →
      Runs (.remapSlotWrite src hub bank slot value) s fun v =>
        bankEntry v bank n = value % 256 ∧ KeptBut [.tt] s v ∧
        RegsKept [(.HUB_REMAP_B0_SLOT_PHYS_SLOT, n), (.HUB_REMAP_B0_SLOT_VALID, n), (.HUB_REMAP_B1_SLOT_PHYS_SLOT, n),
          (.HUB_REMAP_B1_SLOT_VALID, n)] s v ∧ bankEntry v (1 - bank) n = bankEntry s (1 - bank) n)) ∧
  (∀ (s : State) (wing bank slot : Nat) (e : PEntry), wing < 4 → bank < 2 → slot < 16384 →
    let a := entryAddr s bank wing slot
    (bankGuard s (a / 4096) = true → Runs (.pannierEntryWrite (.core (leadHub s)) wing bank slot e) s fun v =>
      rd v .PANNIER_CTRL_WRITE_DROPPED = 1 ∧ KeptBut [] s v ∧ RegsKept [(.PANNIER_CTRL_WRITE_DROPPED, 0)] s v) ∧
    (bankGuard s (a / 4096) = false → a / 4096 ∉ s.mem.poison → Runs (.pannierEntryWrite (.core (leadHub s)) wing bank slot e) s fun v =>
      readBytes v a 64 = entryBytes e ∧ (entryOf (entryBytes e) = e → pannierEntry v bank wing slot = e) ∧
      (inBank s (a / 4096) (1 - rd s .PANNIER_CTRL_ACTIVE_BANK) = true → bitAt (rd v .PANNIER_CTRL_READY) (hbmWing a) = false) ∧
      BytesKept a 64 s v ∧ KeptBut [.mem] s v ∧ RegsKept [(.PANNIER_CTRL_READY, 0)] s v) ∧
    (∀ src, src ≠ .core (leadHub s) → Runs (.pannierEntryWrite src wing bank slot e) s fun v => KeptBut [] s v ∧ RegsKept [] s v)) ∧
  (∀ (s : State) (src : Src), pannierWriter s src = true → rd s .PANNIER_CTRL_FLIP_REQ ≠ 1 → rd s .PANNIER_CTRL_COPY_BUSY ≠ 1 →
    Runs (.pannierCopyStart src) s fun v =>
      rd v .PANNIER_CTRL_COPY_BUSY = 1 ∧ rd v .PANNIER_CTRL_READY = 0 ∧ (s.tt.run.running = true → v.tt = s.tt) ∧
      KeptBut [.tt] s v ∧ RegsKept [(.PANNIER_CTRL_COPY_BUSY, 0), (.PANNIER_CTRL_READY, 0)] s v) ∧
  (∀ (s : State) (t : Nat), rd s .PANNIER_CTRL_COPY_BUSY = 1 → rd s .PANNIER_CTRL_ACTIVE_BANK < 2 → s.mem.wf →
    (∀ b w, b < 2 → w < 4 → isHbm (bankBase s b w + 0xFFFFF) = true) →
    (∀ b w b' w', b < 2 → w < 4 → b' < 2 → w' < 4 → (b, w) ≠ (b', w') →
      bankBase s b w + 0x100000 ≤ bankBase s b' w' ∨ bankBase s b' w' + 0x100000 ≤ bankBase s b w) →
    Runs (.pannierCopyDone t) s fun v =>
      rd v .PANNIER_CTRL_COPY_BUSY = 0 ∧
      (∀ wing slot, wing < 4 → slot < 16384 → ∀ bank, bank < 2 →
        pannierEntry v bank wing slot = pannierEntry s (rd s .PANNIER_CTRL_ACTIVE_BANK) wing slot) ∧
      KeptBut [.mem, .now] s v ∧ RegsKept [(.PANNIER_CTRL_COPY_BUSY, 0)] s v) ∧
  (∀ (s : State) (t chan slots : Nat), chan < 384 →
    (40 ≤ slots → Runs (.refreshWatchdog t chan slots) s fun v =>
      rd v .WING_TT_REFRESH_FORCED (chan / 96) = rd (inc s .WING_TT_REFRESH_FORCED (chan / 96)) .WING_TT_REFRESH_FORCED (chan / 96) ∧
      storeGet 0 v.tt.refreshAge chan = 0 ∧ KeptBut [.now, .tt] s v ∧ RegsKept [(.WING_TT_REFRESH_FORCED, chan / 96)] s v) ∧
    (slots < 20 → Runs (.refreshWatchdog t chan slots) s fun v =>
      storeGet 0 v.tt.refreshAge chan = slots ∧ KeptBut [.now, .tt] s v ∧ RegsKept [] s v))

/-- A wing's tables flip together or not at all (R45): where every hub and the wing hold a load made since the last flip and
the HBM windows meet the refresh rules, every table of the wing changes bank and the generation advances; otherwise no bank
and no generation changes and FLIP_REJECTED is set. FLIP_REQ clears in both cases. -/
def Obligations.WingFlipsWholeOrNotAtAll : Prop :=
  ∀ (s : State) (w : Nat), w < 4 →
    let loaded := (∀ i, i < 40 → storeGet false s.tt.ttLoaded (w * 40 + i) = true) ∧
      storeGet false s.tt.ttLoaded (wingTable w) = true ∧
      windowFault (ttBank s (wingTable w) (1 - rd s .WING_TT_CTRL_ACTIVE_BANK w)) = none
    rd (flipWing s w) .WING_TT_CTRL_FLIP_REQ w = 0 ∧ (flipWing s w).tt.ttBanks = s.tt.ttBanks ∧
    (loaded → rd (flipWing s w) .WING_TT_CTRL_ACTIVE_BANK w = 1 - rd s .WING_TT_CTRL_ACTIVE_BANK w ∧
      rd (flipWing s w) .WING_TT_CTRL_ACTIVE_GEN w = nextGen (rd s .WING_TT_CTRL_ACTIVE_GEN w) ∧
      (∀ i, i < 40 → rd (flipWing s w) .HUB_TT_CTRL_ACTIVE_BANK (w * 40 + i) = 1 - rd s .WING_TT_CTRL_ACTIVE_BANK w ∧
        rd (flipWing s w) .HUB_TT_CTRL_ACTIVE_GEN (w * 40 + i) = nextGen (rd s .WING_TT_CTRL_ACTIVE_GEN w)) ∧
      Frame [.tt, .dbg] [.WING_TT_CTRL_FLIP_REQ, .WING_TT_CTRL_ACTIVE_BANK, .WING_TT_CTRL_ACTIVE_GEN, .WING_TT_CTRL_HOT_REFRESH,
        .HUB_TT_CTRL_ACTIVE_BANK, .HUB_TT_CTRL_ACTIVE_GEN, .HUB_TT_CTRL_LOAD_DONE] s (flipWing s w)) ∧
    (¬ loaded → rd (flipWing s w) .WING_TT_CTRL_FLIP_REJECTED w = 1 ∧
      Frame [.rep, .dbg] (errorFlds ++ [.WING_TT_CTRL_FLIP_REQ, .WING_TT_CTRL_FLIP_REJECTED, .WING_TT_REJECT_HUB,
        .WING_TT_REJECT_CHANNEL, .WING_TT_REJECT_REASON]) s (flipWing s w))
/-! ## Contexts -/

/-- CTX_CMD (R369, R375, R377, R378, Table 13-1): each operation in the state it needs, from management, with no command
busy and the module awake; in any other state the command is rejected, and in a low-power state it is held and wakes the
module (R440). -/
def Obligations.ContextCommandsRun : Prop :=
  ∀ (s : State) (src : Src) (t c : Nat), c < 64 → isMgmt s src = true → rd s .CTX_CMD_STATUS_BUSY ≠ 1 →
    rd s .LP_STATUS_STATE < 2 →
    (∀ cls : Bool, rd s .CTX_STATE_STATE c = 0 → rd s .BOOT_STATUS_PHASE = 8 → rd s .DBG_STATUS_TEST_MODE ≠ 1 →
      (cls = true → freeSaveSlot s ≠ none) → Runs (.ctxGrant src t c cls) s fun v =>
        rd v .CTX_STATE_STATE c = 1 ∧ rd v .CTX_STATE_CLASS c = (if cls then 1 else 0) ∧
        (cls = true → freeSaveSlot s = some (rd v .CTX_STATE_SLOT c)) ∧ (cls = false → rd v .CTX_STATE_SLOT c = 0) ∧
        rd v .CTX_CMD_STATUS_DONE = 1 ∧
        (∀ f n, servingFld f = true → f ∉ viewFlds → blockIdx f n = c → rd v f n = regReset f n) ∧
        (∀ d, d ≠ c → rd v .CTX_STATE_STATE d = rd s .CTX_STATE_STATE d) ∧ KeptBut [.ctxs, .now, .rep, .serve] s v) ∧
    (c ≠ 0 → rd s .CTX_STATE_STATE c = 1 → Runs (.ctxSuspend src t c) s fun v =>
        rd v .CTX_CMD_STATUS_BUSY = 1 ∧ (c, max s.now t) ∈ v.ctxs.suspending ∧ (∀ x ∈ v.serve.items, x.ctx ≠ c) ∧
        (∀ d, rd v .CTX_STATE_STATE d = rd s .CTX_STATE_STATE d) ∧ KeptBut [.core, .ctxs, .fab, .lard, .now, .rep, .serve, .tt] s v) ∧
    (rd s .CTX_STATE_STATE c = 2 → Runs (.ctxResume src t c) s fun v =>
        rd v .CTX_STATE_STATE c = 1 ∧ rd v .CTX_CMD_STATUS_DONE = 1 ∧
        Frame [.now, .rep] [.CTX_STATE_STATE, .CTXWIN_INFO_STATE, .EVC_STATUS_CTX, .CTX_CMD_STATUS_BUSY, .CTX_CMD_STATUS_DONE,
          .CTX_CMD_STATUS_CMD_REJECTED] s v) ∧
    (c ≠ 0 → rd s .CTX_STATE_STATE c = 1 ∨ rd s .CTX_STATE_STATE c = 2 → Runs (.ctxTeardown src t c) s fun v =>
        rd v .CTX_STATE_STATE c = 3 ∧ rd v .SERVE_CTRL_ENABLE c = 0 ∧ rd v .CTX_CMD_STATUS_DONE = 1 ∧
        (∀ e ∈ v.core.queues, ∀ r ∈ e.2, r.q.ctx ≠ c) ∧ (∃ x, (c, x) ∈ v.ctxs.tearing) ∧ v.mem = s.mem ∧
        (∀ d, d ≠ c → rd v .CTX_STATE_STATE d = rd s .CTX_STATE_STATE d)) ∧
    (∀ cls : Bool, rd s .CTX_STATE_STATE c ≠ 0 → Runs (.ctxGrant src t c cls) s fun v =>
        rd v .CTX_CMD_STATUS_CMD_REJECTED = 1 ∧ KeptBut [.now] s v ∧
        RegsKept [(.CTX_CMD_STATUS_DONE, 0), (.CTX_CMD_STATUS_CMD_REJECTED, 0), (.CTX_CMD_STATUS_REASON, 0)] s v) ∧
    (c = 0 → ∀ e ∈ [Instr.ctxSuspend src t c, .ctxTeardown src t c], Runs e s fun v =>
        rd v .CTX_CMD_STATUS_CMD_REJECTED = 1 ∧ rd v .CTX_CMD_STATUS_REASON = 3 ∧ KeptBut [.now] s v ∧
        RegsKept [(.CTX_CMD_STATUS_DONE, 0), (.CTX_CMD_STATUS_CMD_REJECTED, 0), (.CTX_CMD_STATUS_REASON, 0)] s v) ∧
    (∀ e, e = Instr.ctxSuspend src t c ∧ c ≠ 0 ∧ rd s .CTX_STATE_STATE c ≠ 1 ∨ e = Instr.ctxResume src t c ∧ rd s .CTX_STATE_STATE c ≠ 2 ∨
        e = Instr.ctxTeardown src t c ∧ c ≠ 0 ∧ rd s .CTX_STATE_STATE c ≠ 1 ∧ rd s .CTX_STATE_STATE c ≠ 2 → Runs e s fun v =>
      rd v .CTX_CMD_STATUS_CMD_REJECTED = 1 ∧ rd v .CTX_CMD_STATUS_REASON = 2 ∧ KeptBut [.now] s v ∧
      RegsKept [(.CTX_CMD_STATUS_DONE, 0), (.CTX_CMD_STATUS_CMD_REJECTED, 0), (.CTX_CMD_STATUS_REASON, 0)] s v) ∧
    (∀ (s : State), rd s .CTX_CMD_STATUS_BUSY ≠ 1 → isMgmt s src = true → rd s .LP_STATUS_STATE ∈ [2, 3, 4] →
      ∀ (cls : Bool) (e : Instr) (op : Nat), (e, op) ∈ [(Instr.ctxSuspend src t c, 2), (.ctxResume src t c, 3), (.ctxTeardown src t c, 4)] ++
          [(Instr.ctxGrant src t c cls, 1)] → Runs e s fun v =>
        v.boot.heldCmd = some (op, c, op = 1 && cls) ∧ rd v .CTX_CMD_STATUS_BUSY = 1 ∧ ExitBegins s v 3 ∧
        Frame [.boot, .now, .rep] (exitFlds ++ [.CTX_CMD_STATUS_BUSY, .CTX_CMD_STATUS_DONE, .CTX_CMD_STATUS_CMD_REJECTED]) s v)

/-- CTX_CMD from any other source changes nothing (R396). -/
def Obligations.OnlyManagementCommandsContexts : Prop :=
  ∀ (s : State) (src : Src) (t c : Nat) (cls : Bool), isMgmt s src = false →
    ∀ e ∈ [Instr.ctxGrant src t c cls, .ctxSuspend src t c, .ctxResume src t c, .ctxTeardown src t c],
      Runs e s fun v => KeptBut [] s v ∧ RegsKept [] s v

/-- The stages that follow (R375, R378, Table 13-2): a suspend is done once no core holds a command of the context; a
teardown ends its items, sessions, jobs and keys, then frees its granules and clears its regions. -/
def Obligations.ContextStagesRun : Prop :=
  ∀ (s : State) (t c : Nat), c < 64 →
    (∀ start, s.ctxs.suspending.find? (fun e => e.1 == c) = some (c, start) →
      s.core.queues.any (fun q => q.2.any (fun r => r.q.ctx == c)) = false → lockedCtx s c = false →
      Runs (.suspendDone t c) s fun v =>
        rd v .CTX_STATE_STATE c = 2 ∧ rd v .CTX_CMD_STATUS_DONE = 1 ∧ rd v .CTX_CMD_STATUS_BUSY = 0 ∧
        rd v .CTX_PREEMPT_WAIT_MAX = max (rd s .CTX_PREEMPT_WAIT_MAX) (min (max s.now t - start) (2 ^ 32 - 1)) ∧
        (∀ e ∈ v.ctxs.suspending, e.1 ≠ c) ∧
        Frame [.ctxs, .now, .rep] [.CTX_STATE_STATE, .CTXWIN_INFO_STATE, .EVC_STATUS_CTX, .CTX_CMD_STATUS_BUSY,
          .CTX_CMD_STATUS_DONE, .CTX_CMD_STATUS_CMD_REJECTED, .CTX_PREEMPT_WAIT_MAX] s v) ∧
    (s.ctxs.tearing.any (fun e => e.1 == c) = true → c ∉ s.ctxs.ended → Runs (.teardownItemsEnded t c) s fun v =>
        c ∈ v.ctxs.ended ∧ (∀ x ∈ v.serve.items, x.ctx ≠ c) ∧ (∀ e ∈ v.serve.sessions, e.2.ctx ≠ c) ∧
        (∀ e ∈ v.pann.jobs, e.2.ctx ≠ c) ∧ (∀ e ∈ v.ctxs.keys, e.1 / 4 ≠ c) ∧ (∀ e ∈ v.ctxs.pendingKeys, e.1 / 4 ≠ c) ∧
        (∀ d, rd v .CTX_STATE_STATE d = rd s .CTX_STATE_STATE d)) ∧
    (s.ctxs.tearing.any (fun e => e.1 == c) = true → c ∈ s.ctxs.ended → Runs (.teardownGranulesFreed t c) s fun v =>
        (∀ g, storeGet 0x7F s.mem.granules g = c → storeGet 0x7F v.mem.granules g = 0x7F ∧ granuleWritten v (g * 4096) = false) ∧
        (∀ e ∈ v.mem.saves, e.ctx ≠ c) ∧ (∀ r, storeGet 0x7F s.mem.regions r = c → storeGet 0x7F v.mem.regions r = 0x7E) ∧
        ((∀ e ∈ s.mem.regions, e.2 ≠ c) → rd v .CTX_STATE_STATE c = 0))

/-- ENABLE (R215, R410): as it changes to 1 the counts become 0, the module's half is written and records that waited go into
the queue; written 1 while it is 1 it clears FAULTED; where the block's fields are out of range it stays; a write of 0 clears
it. -/
def Obligations.EnableRuns : Prop :=
  ∀ (s : State) (src : Src) (t c : Nat), c < 64 → mayWrite s src .SERVE_CTRL_ENABLE c = true →
    (enableOk s c = true → rd s .SERVE_CTRL_ENABLE c ≠ 1 → (queueOf s c).spill = [] →
      Runs (.serveEnableWrite src t c 1) s fun v =>
        rd v .SERVE_CTRL_ENABLE c = 1 ∧ rd v .SERVE_CTRL_FAULTED c = 0 ∧ rd v .SERVE_INTAKE_COUNT c = 0 ∧
        rd v .SERVE_EVQ_COUNT c = 0 ∧ v.rep.outs = s.rep.outs ++
          [.hostWrite c ((rd s .SERVE_BLOCK_ADDR c * 128 + 0x40) % 2 ^ 48) (controlBytes 0 0 (rd s .SERVE_SPILLED c))] ∧
        KeptBut [.now, .rep, .serve] s v ∧
        RegsKept [(.SERVE_CTRL_ENABLE, c), (.SERVE_CTRL_FAULTED, c), (.SERVE_INTAKE_COUNT, c), (.SERVE_EVQ_COUNT, c)] s v) ∧
    (enableOk s c = true → rd s .SERVE_CTRL_ENABLE c ≠ 1 → Runs (.serveEnableWrite src t c 1) s fun v =>
        rd v .SERVE_CTRL_ENABLE c = 1 ∧ rd v .SERVE_CTRL_FAULTED c = 0 ∧ rd v .SERVE_INTAKE_COUNT c = 0 ∧
        (queueOf v c).spill = (queueOf s c).spill.drop (rd v .SERVE_EVQ_COUNT c) ∧ KeptBut [.now, .rep, .serve] s v ∧
        (∀ f n, f ∉ viewFlds → f ∉ [.SERVE_CTRL_ENABLE, .SERVE_CTRL_FAULTED, .SERVE_INTAKE_COUNT, .SERVE_EVQ_COUNT, .SERVE_SPILLED,
          .SERVE_CTRL_BACKLOG] ∨ n ≠ c → rd v f n = rd s f n)) ∧
    (enableOk s c = true → rd s .SERVE_CTRL_ENABLE c = 1 → Runs (.serveEnableWrite src t c 1) s fun v =>
        rd v .SERVE_CTRL_FAULTED c = 0 ∧ KeptBut [.now] s v ∧ RegsKept [(.SERVE_CTRL_FAULTED, c)] s v) ∧
    (enableOk s c = false → Runs (.serveEnableWrite src t c 1) s fun v => KeptBut [.now] s v ∧ RegsKept [] s v) ∧
    (Runs (.serveEnableWrite src t c 0) s fun v =>
      rd v .SERVE_CTRL_ENABLE c = 0 ∧ KeptBut [.now] s v ∧ RegsKept [(.SERVE_CTRL_ENABLE, c)] s v)

/-- IDE (R394, R398): a granted confidential-class context whose stream fails, or whose BAR is reached outside the stream,
is torn down; any other context loses its stream alone, and a failure without a stream changes nothing. -/
def Obligations.IdeFailuresTearDown : Prop :=
  (∀ (s : State) (t c : Nat), 1 ≤ c → c < 64 → confGranted s c = false → rd s .CTX_STATE_IDE_READY c = 1 → ∀ integrity : Bool,
    Runs (.ideFailure t c integrity) s fun v =>
      rd v .CTX_STATE_IDE_READY c = 0 ∧ rd v .CTXWIN_INFO_IDE_READY c = 0 ∧ (ideStream v c).active = none ∧
      rd v .PCIE_IDE_FAIL = (if integrity then rd (inc s .PCIE_IDE_FAIL) .PCIE_IDE_FAIL else rd s .PCIE_IDE_FAIL) ∧
      KeptBut [.mgt, .now] s v ∧ RegsKept [(.CTX_STATE_IDE_READY, c), (.CTXWIN_INFO_IDE_READY, c), (.PCIE_IDE_FAIL, 0)] s v) ∧
  (∀ (s : State) (t c : Nat), rd s .CTX_STATE_IDE_READY c ≠ 1 → ∀ integrity : Bool, Runs (.ideFailure t c integrity) s fun v =>
      KeptBut [.now] s v ∧ RegsKept [] s v) ∧
  (∀ (s : State) (t c : Nat), confGranted s c = false → Runs (.nonIdeRequest t c) s fun v => KeptBut [.now] s v ∧ RegsKept [] s v) ∧
  ∀ (s : State) (t c : Nat), confGranted s c = true →
    (rd s .CTX_STATE_IDE_READY c = 1 → ∀ integrity : Bool, Runs (.ideFailure t c integrity) s fun v =>
      rd v .CTX_STATE_STATE c = 3 ∧ rd v .CTX_STATE_IDE_READY c = 0 ∧ rd v .SERVE_CTRL_ENABLE c = 0 ∧
      rd v .PCIE_IDE_FAIL = (if integrity then rd (inc s .PCIE_IDE_FAIL) .PCIE_IDE_FAIL else rd s .PCIE_IDE_FAIL) ∧
      v.mem = s.mem ∧ (∀ d, d ≠ c → rd v .CTX_STATE_STATE d = rd s .CTX_STATE_STATE d)) ∧
    (Runs (.nonIdeRequest t c) s fun v =>
      rd v .CTX_STATE_STATE c = 3 ∧ rd v .SERVE_CTRL_ENABLE c = 0 ∧
      rd v .PCIE_IDE_FAIL = rd (inc s .PCIE_IDE_FAIL) .PCIE_IDE_FAIL ∧ v.mem = s.mem ∧
      (∀ d, d ≠ c → rd v .CTX_STATE_STATE d = rd s .CTX_STATE_STATE d))
/-! ## Requests -/

/-- A record that fails a check of Table 7-7, or a GENERATE that the planner turns down, is answered at once with the code
of the first failing check: no item is accepted, and TT_REFUSED or SERVE_INVALID counts it (R8, R54, R198). -/
def Obligations.FailingRecordsAreAnswered : Prop :=
  ∀ (s : State) (h : ReqHead) (resv : Bool) (a b c : Nat) (g : GenerateRec) (lb : LoadBundleRec) (hdr : Option (List Nat))
    (al : AdapterLoadRec) (op : TrainOpenRec) (st : TrainStepRec) (ck : TrainCkptRec) (sr : SecRec) (ct : Option (List Nat)),
    ∀ e ∈ [(match admitGenerate s h g with | .error x => some x | .ok _ => none, Instr.generate h g),
        (handleChecks s h resv, .cancel h resv), (handleChecks s h resv, .close h resv),
        (handleChecks s h (resv && decide (a < 8)), .hint h a b resv), (bundleChecks s h lb hdr, .loadBundle h lb hdr),
        (unloadChecks s h a resv, .unloadBundle h a resv), (loadChecks s h al, .adapterLoad h al),
        (releaseChecks s h a resv, .adapterRelease h a resv), (openChecks s h op, .trainOpen h op),
        (stepChecks s h st, .trainStep h st), (ckptChecks s h ck, .trainCheckpoint h ck),
        (closeChecks s h a b c resv, .trainClose h a b c resv), (reportChecks s h sr, .attest h sr),
        (beginChecks s h sr, .keyBegin h sr), (finishChecks s h sr, .keyFinish h sr ct), (eraseChecks s h a resv, .keyErase h a resv)],
      ∀ code detail, e.1 = some (code, detail) → Runs e.2 s fun v =>
        v.serve.items = s.serve.items ∧
        rd v .TT_REFUSED = (if code = 0x10 then rd (inc s .TT_REFUSED) .TT_REFUSED else rd s .TT_REFUSED) ∧
        rd v .SERVE_INVALID =
          (if code = 0x30 ∨ code = 0x31 then rd (inc s .SERVE_INVALID) .SERVE_INVALID else rd s .SERVE_INVALID) ∧
        Frame [.rep, .serve] (eventFlds ++ [.TT_REFUSED, .SERVE_INVALID]) s v

/-- A record that passes its checks and has work to wait for opens an item (R8, R54, R55), and what the item is for has
begun: the plan is adopted, the open request is marked to stop, the model is loading or unloading, the entry is planned, the
job exists, the report is queued, the pending key is held. -/
def Obligations.AcceptedRecordsOpenItems : Prop :=
  ∀ (s : State) (h : ReqHead), roomFor s h →
    (∀ (r : GenerateRec) (a : Admitted), admitGenerate s h r = .ok a → a.empty = none → roomFor a.st h →
      Runs (.generate h r) s fun v => Opened s v h 0x01 ∧ v.tt = a.st.tt ∧ v.lard = a.st.lard ∧ v.mem = s.mem) ∧
    (∀ (resv : Bool) (x : Item), handleChecks s h resv = none → openGen s (handleIdx h.handle) = some x →
      (Runs (.cancel h resv) s fun v =>
        Opened s v h 0x02 ∧ (∃ y, itemAt v x.ctx x.idx = some y ∧ y.opcode = 0x01 ∧ 4 ≤ y.stop) ∧
        Frame [.rep, .serve, .tt] (eventFlds ++ [.SERVE_ACCEPTED]) s v) ∧
      (Runs (.close h resv) s fun v =>
        Opened s v h 0x03 ∧ (∃ y, itemAt v x.ctx x.idx = some y ∧ y.opcode = 0x01 ∧ 5 ≤ y.stop) ∧
        (∃ z, sessAt v (handleIdx h.handle) = some z ∧ z.st = .closing) ∧
        Frame [.rep, .serve, .tt] (eventFlds ++ [.SERVE_ACCEPTED]) s v)) ∧
    (∀ resv : Bool, handleChecks s h resv = none → openGen s (handleIdx h.handle) = none → Runs (.close h resv) s fun v =>
      Opened s v h 0x03 ∧ (∃ z, sessAt v (handleIdx h.handle) = some z ∧ z.st = .closing) ∧
      Frame [.rep, .serve, .tt] (eventFlds ++ [.SERVE_ACCEPTED]) s v) ∧
    (∀ (r : LoadBundleRec) (x : List Nat), bundleChecks s h r (some x) = none → Runs (.loadBundle h r (some x)) s fun v =>
      Opened s v h 0x05 ∧ (∃ m, modelAt v r.model = some m ∧ m.st = .loading ∧ m.header = bundleHeaderOf x) ∧
      Frame [.rep, .serve, .tt] (eventFlds ++ [.SERVE_ACCEPTED]) s v) ∧
    (∀ (model : Nat) (resv : Bool), unloadChecks s h model resv = none → modelUsers s model ≠ [] →
      Runs (.unloadBundle h model resv) s fun v =>
        Opened s v h 0x06 ∧ (∃ m, modelAt v model = some m ∧ m.st = .unloading) ∧
        Frame [.rep, .serve] (eventFlds ++ [.SERVE_ACCEPTED]) s v) ∧
    (∀ r : AdapterLoadRec, loadChecks s h r = none → Runs (.adapterLoad h r) s fun v =>
      Opened s v h 0x10 ∧ (plannedEntry v r.slotBits).st = 1 ∧ (plannedEntry v r.slotBits).ctx = h.ctx ∧
      Frame [.pann, .rep, .serve, .tt] (eventFlds ++ [.SERVE_ACCEPTED]) s v) ∧
    (∀ (slot : Nat) (resv : Bool), releaseChecks s h slot resv = none → Runs (.adapterRelease h slot resv) s fun v =>
      Opened s v h 0x11 ∧ (plannedEntry v slot).st = 4 ∧ Frame [.pann, .rep, .serve, .tt] (eventFlds ++ [.SERVE_ACCEPTED]) s v) ∧
    (∀ r : TrainOpenRec, openChecks s h r = none → bitAt r.flags 0 = true → Runs (.trainOpen h r) s fun v =>
      Opened s v h 0x12 ∧ (∃ e ∈ v.pann.jobs, e.2.slot = r.slotBits ∧ e.2.ctx = h.ctx ∧ e.2.opened = false) ∧
      Frame [.pann, .rep, .serve, .tt] (eventFlds ++ [.SERVE_ACCEPTED, .TRAIN_JOBS_OPEN]) s v) ∧
    (∀ (r : TrainStepRec) (plan : List PStep) (d : Nat) (lens toks : List Nat), stepChecks s h r = none → r.tokenCount ≠ 0 →
      firstTrial s ⟨h.ctx, h.idx, r.model, 0, 0, 0, r.tokenCount, 0, rd s .CTX_STATE_CLASS h.ctx == 1⟩ s.serve.lastTick 0
        (trainTrials s ⟨h.ctx, h.idx, r.model, 0, 0, 0, r.tokenCount, 0, rd s .CTX_STATE_CLASS h.ctx == 1⟩
          (((jobOf s r.slotBits).map (fun e => decide (e.2.rc.accum ≤ e.2.counted + 1))).getD false)) 0 = .ok (plan, d) →
      r.data = some (lens, toks) →
      trainDataOk (((modelAt s r.model).map (fun m => m.header.vocab)).getD 0) r.tokenCount lens toks = true →
      toks.length = r.tokenCount → lens.length = r.seqCount → Runs (.trainStep h r) s fun v =>
        Opened s v h 0x13 ∧ v.tt.plan = plan ∧ Frame [.rep, .serve, .tt] (eventFlds ++ [.SERVE_ACCEPTED]) s v) ∧
    (∀ r : TrainCkptRec, ckptChecks s h r = none → Runs (.trainCheckpoint h r) s fun v =>
      Opened s v h 0x14 ∧ Frame [.rep, .serve, .tt] (eventFlds ++ [.SERVE_ACCEPTED]) s v) ∧
    (∀ (slot : Nat) (resv : Bool) (n : Nat) (j : Job), closeChecks s h slot 0 0 resv = none → jobOf s slot = some (n, j) →
      Runs (.trainClose h slot 0 0 resv) s fun v =>
        Opened s v h 0x15 ∧ (∀ e ∈ v.pann.jobs, e.1 ≠ n) ∧ (plannedEntry v slot).st = 4 ∧
        BytesKept ((rd s .TRAIN_WS_BASE j.ws.1 + j.ws.2.1) * 4096) (j.ws.2.2 * 4096) s v ∧
        Frame [.mem, .pann, .rep, .serve, .tt] (eventFlds ++ [.SERVE_ACCEPTED, .TRAIN_JOBS_OPEN]) s v) ∧
    (∀ r : SecRec, reportChecks s h r = none →
      (Runs (.attest h r) s fun v =>
        Opened s v h 0x20 ∧ (∃ j, v.ctxs.reports = s.ctxs.reports ++ [j] ∧ j.ctx = h.ctx ∧ j.idx = h.idx ∧ j.kind = 1) ∧
        Frame [.ctxs, .rep, .serve] (eventFlds ++ [.SERVE_ACCEPTED]) s v) ∧
      (r.flags = 0 → Runs (.keyBegin h r) s fun v =>
        Opened s v h 0x21 ∧ (∃ j, v.ctxs.reports = s.ctxs.reports ++ [j] ∧ j.ctx = h.ctx ∧ j.idx = h.idx ∧ j.kind = 2) ∧
        (∃ k, storeFind v.ctxs.pendingKeys (h.ctx * 4 + r.keyIndex) = some k ∧ k.time = s.now) ∧
        Frame [.ctxs, .free, .rep, .serve] (eventFlds ++ [.SERVE_ACCEPTED, .CTX_STATE_KEYS, .CTX_STATE_PENDING]) s v))

/-- A record whose work is done as it is accepted opens an item that ends in the same command (R55, R198, R207, R213, R391):
a GENERATE or micro-step without work, a CANCEL of no open request, a HINT, an unload that no item delays, and the end and
erasure of an adapter key. -/
def Obligations.ItemsThatEndAtOnce : Prop :=
  ∀ (s : State) (h : ReqHead), roomFor s h →
    (∀ (r : GenerateRec) (a : Admitted) (e : Nat × Nat), admitGenerate s h r = .ok a → a.empty = some e → roomFor a.st h →
      Runs (.generate h r) s fun v => Ended s v h) ∧
    (∀ resv : Bool, handleChecks s h resv = none → openGen s (handleIdx h.handle) = none → Runs (.cancel h resv) s fun v =>
      Ended s v h ∧ Frame [.lard, .rep, .serve, .tt] itemFlds s v) ∧
    (∀ (permit us : Nat) (resv : Bool), permit < 8 → handleChecks s h resv = none → Runs (.hint h permit us resv) s fun v =>
      Ended s v h ∧ (∃ x, sessAt v (handleIdx h.handle) = some x ∧ x.permit = permit ∧ x.resumeUs = us) ∧
      Frame [.lard, .rep, .serve, .tt] (itemFlds ++ [.LARDER_PARKS]) s v) ∧
    (∀ (model : Nat) (resv : Bool), unloadChecks s h model resv = none → modelUsers s model = [] →
      Runs (.unloadBundle h model resv) s fun v =>
        Ended s v h ∧ modelAt v model = none ∧ Frame [.lard, .rep, .serve, .tt] itemFlds s v) ∧
    (∀ r : TrainStepRec, stepChecks s h r = none → r.tokenCount = 0 → Runs (.trainStep h r) s fun v =>
      Ended s v h ∧ (∃ l, .hostWrite h.ctx (r.resultAddr % 2 ^ 48) l ∈ v.rep.outs) ∧ Frame [.lard, .rep, .serve, .tt] itemFlds s v) ∧
    (∀ (r : SecRec) (ct : List Nat) (p : PendingKey), finishChecks s h r = none →
      storeFind s.ctxs.pendingKeys (h.ctx * 4 + r.keyIndex) = some p → Runs (.keyFinish h r (some ct)) s fun v =>
        Ended s v h ∧ (∃ k, storeFind v.ctxs.keys (h.ctx * 4 + r.keyIndex) = some k ∧ k.counter = 1) ∧
        storeFind v.ctxs.pendingKeys (h.ctx * 4 + r.keyIndex) = none ∧
        Frame [.ctxs, .lard, .rep, .serve, .tt] (itemFlds ++ [.CTX_STATE_KEYS, .CTX_STATE_PENDING]) s v) ∧
    (∀ (key : Nat) (resv : Bool), eraseChecks s h key resv = none → Runs (.keyErase h key resv) s fun v =>
        Ended s v h ∧ storeFind v.ctxs.keys (h.ctx * 4 + key) = none ∧
        (∀ k, k ≠ h.ctx * 4 + key → storeFind v.ctxs.keys k = storeFind s.ctxs.keys k) ∧
        Frame [.ctxs, .lard, .rep, .serve, .tt] (itemFlds ++ [.CTX_STATE_KEYS, .CTX_STATE_PENDING]) s v)

/-- What a plan that is adopted promises (R54): no step of it is longer than its least interval allows, no delivery of an
accepted item comes later than the current plan has it, and the first token falls within the limit that the request asked
for. -/
def Obligations.AdoptedPlansKeepPromises : Prop :=
  ∀ (s : State) (a : Ask) (tA maxFirst e : Nat) (ts : List (Option (List PStep))) (plan : List PStep) (d : Nat),
    firstTrial s a tA maxFirst ts e = .ok (plan, d) →
    some plan ∈ ts ∧ (∀ x ∈ plan.zip (planSpans s (firstStart s) plan), stepFits s a.ctx a.idx a.ival (x.2.2 - x.2.1) x.1 = true) ∧ (maxFirst ≠ 0 → d ≤ tA + maxFirst * 1000) ∧
    (∀ x ∈ deliveries s plan, ∀ o i, (deliveries s s.tt.plan).find? (fun o => o.ctx == x.ctx && o.idx == x.idx && o.j == x.j) = some o →
      s.serve.items.find? (fun i => i.ctx == x.ctx && i.idx == x.idx) = some i → x.time ≤ o.time) ∧
    (∀ x ∈ deliveries s plan, x.ctx = a.ctx → x.idx = a.idx → x.j ≤ 1 → x.time ≤ d)
/-- The work of accepted items completes: the cards and sections of a bundle arrive in order, each is checked, the first that
fails its check ends the load, the last of them loads the model (R198, R400, R477, R478); the image of an adapter is found good or bad (R231, R232); the parts of a released slot are zero (R233); a checkpoint is written
under the key's next export IV (R245, R247); a report is signed (R390); a pending key expires (R391). -/
def Obligations.ItemWorkRuns : Prop :=
  (∀ (s : State) (t n : Nat) (m : Model), modelAt s n = some m → m.st = .loading →
    (let gone := fun v : State => modelAt v n = none ∧ itemAt v m.owner.1 m.owner.2 = none ∧ Frame [.lard, .now, .rep, .serve, .tt] itemFlds s v
    Runs (.bundleSectionArrival t n .readFailed) s gone ∧
    ∀ e, dueSection m = some e →
      let got := fun b : List Nat => { m with image := padTo e.1.2.1 m.image ++ b, arrived := m.arrived ++ [e.1.1] }
      let good := fun l : List Nat => l.length = e.1.2.1 + e.1.2.2 ∧ sha256 (l.drop e.1.2.1) = e.2
      (e.1.1 = 0x04 → ∀ (b : List Nat) (progs : List (List Nat)),
        let check := validateCard (layersOf s n m) m.cards (cardOfBytes b progs)
        (check = none → Runs (.bundleSectionArrival t n (.card b progs)) s fun v =>
          modelAt v n = some { m with
            cards := m.cards ++ [cardOfBytes b progs]
            image := padTo (max e.1.2.1 (ceilDiv m.image.length 64 * 64)) m.image ++ b } ∧ Frame [.now, .serve] [] s v) ∧
        (check ≠ none → Runs (.bundleSectionArrival t n (.card b progs)) s gone)) ∧
      (∀ b : List Nat, good (got b).image → (∃ x ∈ m.header.sections, x.1 ≠ e.1.1 ∧ x.1 ∉ m.arrived) →
        (∀ r : Recipe, e.1.1 = 0x03 → Runs (.bundleSectionArrival t n (.recipe b r)) s fun v =>
          modelAt v n = some { got b with recipe := r } ∧ Frame [.now, .serve] [] s v) ∧
        (∀ sets, e.1.1 = 0x01 → targetSetsOf b = some sets → Runs (.bundleSectionArrival t n (.whole 0x01 b)) s fun v =>
          modelAt v n = some { got b with targetSets := sets } ∧ Frame [.now, .serve] [] s v) ∧
        (∀ rows, e.1.1 = 0x02 → columnMapOf m.targetSets b = some rows → Runs (.bundleSectionArrival t n (.whole 0x02 b)) s fun v =>
          modelAt v n = some { got b with columnMap := rows } ∧ Frame [.now, .serve] [] s v) ∧
        (∀ w, w < 4 → e.1.1 = 0x10 + w → Runs (.bundleSectionArrival t n (.whole (0x10 + w) b)) s fun v =>
          modelAt v n = some (got b) ∧ v.mem = (storeImage w (modelChans m w) (m.weightRows.getD w (0, 0)).1 b s).mem ∧ Frame [.mem, .now, .serve] [] s v)) ∧
      (∀ b : List Nat, ¬ good (got b).image →
        (∀ r : Recipe, e.1.1 = 0x03 → Runs (.bundleSectionArrival t n (.recipe b r)) s gone) ∧
        (e.1.1 = 0x01 ∨ e.1.1 = 0x02 → Runs (.bundleSectionArrival t n (.whole e.1.1 b)) s gone)) ∧
      (∀ (x : Item) (l : List Nat), l = padTo (e.1.2.1 + e.1.2.2) m.image → e.1.1 = 0x04 → good l →
        (∀ y ∈ m.header.sections, y.1 ∈ m.arrived ++ [0x04]) → itemAt s m.owner.1 m.owner.2 = some x → unwaited s m.owner →
        Runs (.bundleSectionArrival t n .cardsEnd) s fun v =>
          (∃ y, modelAt v n = some y ∧ y.st = .loaded ∧ y.digest = leNum (sha256 l)) ∧
          itemAt v m.owner.1 m.owner.2 = none ∧ v.mem = s.mem))) ∧
  (∀ (s : State) (t ctx idx slot : Nat) (x : Item) (hdr : Option (List Nat)) (ok : Bool) (img : List Nat), let u := tick s t
    let y := imageOf img
    itemAt s ctx idx = some x → x.slot = some slot → x.stop = 0 → x.opcode = 0x10 →
    (∀ e, imageFault u true (x.data.getD 0 0) x.model hdr ok img = none →
      buildEntry (setItem u { x with stop := 1 }) 2 x.ctx y.rank x.model y.targetSet y.format y.alpha 0 = some e →
      Runs (.adapterImageAuthenticated t ctx idx hdr ok img) s fun v =>
        plannedEntry v slot = e ∧ rd v .PANNIER_LOADS = rd (inc s .PANNIER_LOADS) .PANNIER_LOADS ∧
        Frame [.mem, .now, .pann, .serve, .tt] [.PANNIER_LOADS] s v) ∧
    (imageFault u true (x.data.getD 0 0) x.model hdr ok img = some (0x30, 0x48) →
      Runs (.adapterImageAuthenticated t ctx idx hdr ok img) s fun v =>
        plannedEntry v slot = freeEntry ∧ rd v .PANNIER_AUTH_FAIL = rd (inc s .PANNIER_AUTH_FAIL) .PANNIER_AUTH_FAIL ∧
        Frame [.now, .pann, .serve, .tt] [.PANNIER_AUTH_FAIL] s v)) ∧
  (∀ (s : State) (t slot : Nat) (r : Release), s.pann.releases.find? (fun x => x.slot == slot) = some r →
    (activeEntry s slot).st = 4 → r.teardown = true ∨ slotNamed s slot r.items = false →
    Runs (.releaseZeroingDone t slot) s fun v =>
      plannedEntry v slot = freeEntry ∧ (∀ x ∈ v.pann.releases, x.slot ≠ slot) ∧
      (∀ w i, w < 4 → i < (activeEntry s slot).partUnits.getD w 0 * 4096 →
        readByte v (partAddr s w (activeEntry s slot) + i) = 0) ∧
      Frame [.mem, .now, .pann, .tt] [] s v) ∧
  (∀ (s : State) (t ctx idx n : Nat) (x : Item) (j : Job) (k : AdapterKey), itemAt s ctx idx = some x → x.opcode = 0x14 →
    x.slot.bind (jobOf s) = some (n, j) → keyAt s ctx (x.data.getD 1 0) = some k →
    Runs (.checkpointWriteDone t ctx idx) s fun v =>
      itemAt v ctx idx = none ∧ keyAt v ctx (x.data.getD 1 0) = some { k with counter := k.counter + 1 } ∧
      (∃ l, .hostWrite ctx (x.data.getD 0 0 % 2 ^ 48) l ∈ v.rep.outs) ∧ v.pann = s.pann ∧ v.mem = s.mem) ∧
  (∀ (s : State) (t : Nat) (j : ReportJob) (rest : List ReportJob) (x : Item), s.ctxs.reports = j :: rest →
    s.boot.aliasSigned = true → itemAt s j.ctx j.idx = some x → x.opcode = 0x1F + j.kind →
    Runs (.attestReportSigned t) s fun v =>
      v.ctxs.reports = rest ∧ itemAt v j.ctx j.idx = none ∧ (∃ l, .hostWrite j.ctx (j.req.addr % 2 ^ 48) l ∈ v.rep.outs) ∧
      v.mem = s.mem) ∧
  (∀ (s : State) (t ctx key : Nat) (p : PendingKey), storeFind s.ctxs.pendingKeys (ctx * 4 + key) = some p →
    p.time + 60000000000 ≤ max s.now t → Runs (.pendingKeyExpiry t ctx key) s fun v =>
      storeFind v.ctxs.pendingKeys (ctx * 4 + key) = none ∧ v.ctxs.keys = s.ctxs.keys ∧
      Frame [.ctxs, .now] [.CTX_STATE_KEYS, .CTX_STATE_PENDING] s v) ∧
  (∀ (s : State) (t : Nat), rd s .BOOT_STATUS_PHASE = 8 → Runs (.aliasCertSigned t) s fun v =>
      v.boot.aliasSigned = true ∧ Frame [.boot, .now] [] s v)

/-- The intake and the event queues (R191, R193, R209, R410, R411): a tick reads the records that a context's ring holds; a
read of EVQ_CONSUMER in range gives the queue its room; the third failed read in a row, or a value out of range, disables
the context; a backlog of 100 ms tears it down. -/
def Obligations.IntakeAndPollsRun : Prop :=
  (∀ (s : State) (n : Nat), Runs (.intakeTick n []) s fun v =>
    v.serve.lastTick = n * intakeTick s ∧ v.now = max s.now (n * intakeTick s) ∧
    rd v .SERVE_TICKS = rd (inc s .SERVE_TICKS) .SERVE_TICKS ∧ Frame [.dbg, .now, .serve] [.SERVE_TICKS] s v) ∧
  (∀ (s : State) (n : Nat) (r : CtlRead), let c := r.ctx
    let k := (r.producer + 2 ^ 32 - rd s .SERVE_INTAKE_COUNT c) % 2 ^ 32
    c < 64 → r.readable = true → intakeOn s c = true → rd s .LP_STATUS_STATE < 2 →
    (rd s .SERVE_EVQ_COUNT c + 2 ^ 32 - r.consumer) % 2 ^ 32 ≤ evqSize s c → (queueOf s c).spill = [] →
    1 ≤ k → k ≤ 256 → k ≤ 2 ^ rd s .SERVE_INTAKE_SIZE_LOG2 c → k ≤ 40 * rd s .TT_CONFIG_INTAKE_TICK → r.recs.length = k →
    (∀ x ∈ r.recs, x.readable = true ∧ opcodeDefined x.bytes = true) →
    Runs (.intakeTick n [r]) s fun v =>
      rd v .SERVE_INTAKE_COUNT c = (rd s .SERVE_INTAKE_COUNT c + k) % 2 ^ 32 ∧ v.serve.items = s.serve.items ∧
      (∀ d, d ≠ c → rd v .SERVE_INTAKE_COUNT d = rd s .SERVE_INTAKE_COUNT d) ∧ v.mem = s.mem) ∧
  (∀ (s : State) (n : Nat) (r : CtlRead), let c := r.ctx
    c < 64 → r.readable = false → intakeOn s c = true →
    ((queueOf s c).ringFails < 2 → Runs (.intakeTick n [r]) s fun v =>
      (queueOf v c).ringFails = (queueOf s c).ringFails + 1 ∧ Frame [.dbg, .now, .serve] [.SERVE_TICKS] s v) ∧
    (2 ≤ (queueOf s c).ringFails → Runs (.intakeTick n [r]) s fun v =>
      rd v .SERVE_CTRL_ENABLE c = 0 ∧ rd v .SERVE_CTRL_FAULTED c = 1 ∧ v.mem = s.mem ∧ v.serve.items = s.serve.items)) ∧
  (∀ (s : State) (t c x : Nat), hostReach s c = true → (rd s .SERVE_EVQ_COUNT c + 2 ^ 32 - x) % 2 ^ 32 ≤ evqSize s c →
    (Runs (.evqPoll t c (some x)) s fun v =>
      (queueOf v c).consumer = x ∧ (queueOf v c).noRoom = false ∧ Frame [.now, .rep, .serve] eventFlds s v) ∧
    ((queueOf s c).armed = false → Runs (.evqRearmPoll t c (some x)) s fun v =>
      (queueOf v c).consumer = x ∧ (queueOf v c).noRoom = false ∧ Frame [.now, .rep, .serve] eventFlds s v)) ∧
  (∀ (s : State) (t c : Nat), hostReach s c = true →
    (Runs (.evqPoll t c none) s fun v => KeptBut [.now] s v ∧ RegsKept [] s v) ∧
    (Runs (.evqRearmPoll t c none) s fun v => KeptBut [.now] s v ∧ RegsKept [] s v) ∧
    (∀ x, evqSize s c < (rd s .SERVE_EVQ_COUNT c + 2 ^ 32 - x) % 2 ^ 32 → rd s .SERVE_CTRL_FAULTED c ≠ 1 →
      Runs (.evqPoll t c (some x)) s fun v =>
        rd v .SERVE_CTRL_ENABLE c = 0 ∧ rd v .SERVE_CTRL_FAULTED c = 1 ∧ (queueOf v c).noRoom = true)) ∧
  (∀ (s : State) (t c since : Nat), c ≠ 0 → rd s .CTX_STATE_STATE c = 1 ∨ rd s .CTX_STATE_STATE c = 2 →
    (queueOf s c).backlogSince = some since → rd s .SERVE_CTRL_BACKLOG c = 1 → rd s .PCIE_LINK_UP = 1 →
    since + 100000000 ≤ max s.now t → Runs (.backlogTimeout t c) s fun v =>
      rd v .CTX_STATE_STATE c = 3 ∧ rd v .SERVE_CTRL_ENABLE c = 0 ∧
      rd v .SERVE_BACKLOG_TEARDOWNS = rd (inc s .SERVE_BACKLOG_TEARDOWNS) .SERVE_BACKLOG_TEARDOWNS ∧ v.mem = s.mem)

/-! ## Steps and parks -/

/-- Steps (R31, R32, R36, R475): a freeze fixes the next planned step; at a boundary the requested flips are over, and the
frozen step begins with its planned start, or the module idles in COAST; a boundary that a flip request placed while no step
ran carries the flips out. -/
def Obligations.StepsRun : Prop :=
  (∀ (s : State) (t : Nat) (f : FreezeIn) (p : PStep) (rest : List PStep), openSteps s = p :: rest →
    planning s = true → p.chunks = [] → hasWork p = true → p.switchIn = false →
    Runs (.planFreeze t f) s fun v =>
      v.tt.frozen.length = s.tt.frozen.length + 1 ∧ v.tt.gearLimit = f.gearLimit ∧ v.tt.run.running = s.tt.run.running ∧ v.mem = s.mem) ∧
  (∀ (s : State) (t : Nat) (e : StepEndIn),
    s.tt.run.running = true ∨ (s.tt.frozen ≠ [] ∧ headStart s ≤ max s.now t) → loadsMissing s = false →
    let u := boundaryOps (if s.tt.run.running then endStep (tick s t) e else tick s (slotCeil (max s.now t)))
    (∀ (p : PStep) (rest : List PStep), u.tt.plan = p :: rest → mayBegin u = true → headStart u ≤ u.now →
      Runs (.stepBoundary t e) s fun v =>
        v.tt.run.running = true ∧ v.tt.run.cur = p ∧ v.tt.plan = rest ∧ v.tt.frozen = u.tt.frozen.tail ∧
        rd v .TT_STEP_START = u.now ∧ headStart u ≤ rd v .TT_STEP_PLANNED_END ∧
        (∀ f, u.tt.frozen.head? = some f → rd v .TT_STEP_NUMBER = f.number % 2 ^ 64) ∧
        rd v .LP_STATUS_STATE = 0 ∧
        (p.rows = [] → p.chunks = [] → (∀ x ∈ u.lard.roots, storeFind u.lard.tables x.1 = some x.2) →
          (∀ x ∈ u.lard.tables, rootAt u x.1 ≠ none) → v.mem = u.mem)) ∧
    (mayBegin u = false ∨ u.now < headStart u →
      (s.tt.run.running = true → Runs (.stepBoundary t e) s fun v =>
        v.tt.run.running = false ∧ v.tt.run.lastEnd = u.now ∧ v.tt.plan = u.tt.plan ∧ rd v .LP_STATUS_STATE = 1 ∧
        Frame [.dbg, .tt] [.LP_STATUS_STATE, .LP_STATUS_TARGET] u v) ∧
      (s.tt.run.running = false → Runs (.stepBoundary t e) s fun v =>
        v.tt = { u.tt with frozen := [] } ∧ Frame [.tt] [] u v)) ∧
    (∀ w, rd u .WING_TT_CTRL_FLIP_REQ w ≠ 1 ∧ rd u .VEC_COEF_CTRL_FLIP_REQ w ≠ 1) ∧ rd u .PANNIER_CTRL_FLIP_REQ ≠ 1) ∧
  (∀ (s : State) (t b : Nat), s.tt.run.running = false → s.tt.run.boundaryAt = some b → b ≤ max s.now t →
    Runs (.idleBoundary t) s fun v =>
      v.now = max s.now t ∧ v.tt.run.running = false ∧
      (∀ w, rd v .WING_TT_CTRL_FLIP_REQ w ≠ 1 ∧ rd v .VEC_COEF_CTRL_FLIP_REQ w ≠ 1) ∧ rd v .PANNIER_CTRL_FLIP_REQ ≠ 1)

/-- Parks (R177, R179, R180, R204): a complete image parks the session and gives its pages back, and a companion parks with the
session it serves; an unpark that is due starts where the pages fit, the companion's with it; a complete and matching image, from
host memory or from the park area, makes the session resident again, and one that cannot be read or does not match counts. -/
def Obligations.ParksRun : Prop :=
  (∀ (s : State) (t i : Nat) (r : Root) (x : Session), rootAt s i = some r → sessAt s i = some x → r.st = 2 →
    (userOf s i x).st = .idle → (∀ p ∈ parkPages r, pagePoisoned s p.base (pageUnits s r.layout) = false) →
    Runs (.parkImageComplete t i) s fun v =>
      (∃ q, rootAt v i = some q ∧ q.st = 3 ∧ q.ptes = [] ∧ q.dir = [] ∧ q.committed = r.committed) ∧
      rd v .LARDER_PARKS = rd (inc s .LARDER_PARKS) .LARDER_PARKS ∧
      (∀ k, k ≠ i → rootAt v k = rootAt s k) ∧ v.serve = s.serve) ∧
  (∀ (s : State) (t i : Nat),
    (unparkIsDue (tick s t) i = true → unparkFits (tick s t) i = true → Runs (.unparkDue t i) s fun v =>
      (∃ q, rootAt v i = some q ∧ q.st = 4) ∧
      (∀ k r, (sessAt s i).bind (·.companion) = some k → rootAt s k = some r → r.st = 3 → ∃ q, rootAt v k = some q ∧ q.st = 4) ∧
      Frame [.lard, .now, .tt] [] s v) ∧
    (unparkIsDue (tick s t) i = false ∨ unparkFits (tick s t) i = false → Runs (.unparkDue t i) s fun v =>
      KeptBut [.now] s v ∧ RegsKept [] s v)) ∧
  (∀ (s : State) (t i : Nat) (r : Root) (host : Option (List Nat)), rootAt s i = some r → r.st = 4 →
    let n := committedPages r
    let bytes := imageBytes s r.layout r.form n
    let image := if r.form = 1 then host else if pagePoisoned s (r.parkAddr / 4096) (ceilDiv bytes 4096) = true then none
      else some (readBytes s r.parkAddr bytes)
    (∀ b, image = some b → n = 0 ∨ imageOk s r n b = true → Runs (.unparkComplete t i host) s fun v =>
      (∃ q, rootAt v i = some q ∧ q.st = 1 ∧ q.committed = r.committed) ∧
      rd v .LARDER_UNPARKS = rd (inc s .LARDER_UNPARKS) .LARDER_UNPARKS ∧ v.serve.items = s.serve.items) ∧
    ((∀ b, image = some b → n ≠ 0 ∧ imageOk s r n b = false) → Runs (.unparkComplete t i host) s fun v =>
      rd v .LARDER_PARK_CRC_FAIL = rd (inc s .LARDER_PARK_CRC_FAIL) .LARDER_PARK_CRC_FAIL))
/-! ## Register writes -/

/-- REGISTER_WRITE (R4, Table 0-3, R255): an RW field takes the value, within the range its table states; writing 1 to an
RW1C bit clears it and writing 0 has no effect; a write of an RO register, of a source that may not write, or of a width other
than 4 or 8 bytes changes nothing; a management write to a reserved register or to a hole sets ADDR_FAULT of its hub, or of hub
0; one to the storage of a local-store window stores the bytes, and elsewhere in such a window it sets ADDR_FAULT (R16). Generally, a
write of 4 or 8 bytes to registers that act by their fields alone gives every field that it covers the value of Table 0-3 and leaves
every other; a layout of the Larder takes its fields while VALID is 0 (R160); a mailbox's outbound buffer takes the bytes (R405); and
while a bank copy runs PANNIER_CTRL.READY keeps its value and WRITE_DROPPED is set (R228). -/
def Obligations.RegisterWritesRun : Prop :=
  ∀ (s : State) (src : Src) (v : Nat),
    (isMgmt s src = true →
      (Runs (.registerWrite src (.pf 0xFF01B80010) 4 v) s fun t =>
        rd t .EVC_ROUTE_MODULE = v % 2 ^ 32 ∧ KeptBut [.rep] s t ∧ RegsKept [(.EVC_ROUTE_MODULE, 0)] s t) ∧
      (Runs (.registerWrite src (.pf 0xFF01B80000) 4 v) s fun t =>
        (∀ e ∈ [(Fld.EVC_STATUS_CELLAR, 0), (.EVC_STATUS_CTX, 1), (.EVC_STATUS_LINK, 2), (.EVC_STATUS_POWER, 3)],
          rd t e.1 = if bitAt v e.2 then 0 else rd s e.1 % 2) ∧ KeptBut [.rep] s t ∧
        RegsKept [(.EVC_STATUS_CELLAR, 0), (.EVC_STATUS_CTX, 0), (.EVC_STATUS_LINK, 0), (.EVC_STATUS_POWER, 0)] s t) ∧
      (∀ c, c < 64 → v ≤ 65536 → Runs (.registerWrite src (.pf (0xFF01A60100 + 4 * c)) 4 v) s fun t =>
        rd t .SERVE_SESSION_LIMIT c = v ∧ KeptBut [] s t ∧ RegsKept [(.SERVE_SESSION_LIMIT, c)] s t) ∧
      (∀ c, c < 64 → 65536 < v → v < 2 ^ 17 → Runs (.registerWrite src (.pf (0xFF01A60100 + 4 * c)) 4 v) s fun t =>
        KeptBut [] s t ∧ RegsKept [] s t) ∧
      (∀ a, assigned s (.pf a) 4 = false → 0xFF00000000 ≤ a → a < 0xFF02000000 → Runs (.registerWrite .mgmt (.pf a) 4 v) s fun t =>
        let hub := if a < 0xFF00A00000 then (a - 0xFF00000000) / 0x10000 else 0
        rd t .MEM_STATUS_ADDR_FAULT hub = 1 ∧ KeptBut [] s t ∧ RegsKept [(.MEM_STATUS_ADDR_FAULT, hub)] s t) ∧
      (∀ a, assigned s (.pf a) 4 = false →
        (0xC050000000 ≤ a ∧ a < 0xC100000000) ∨ (0xC200000000 ≤ a ∧ a < 0xFF00000000) ∨ (0xFF02000000 ≤ a ∧ a < 2 ^ 48) →
        Runs (.registerWrite .mgmt (.pf a) 4 v) s fun t =>
          rd t .MEM_STATUS_ADDR_FAULT 0 = 1 ∧ KeptBut [] s t ∧ RegsKept [(.MEM_STATUS_ADDR_FAULT, 0)] s t) ∧
      (∀ wing hub phys off, wing < 4 → hub < 40 → phys < 128 → off < 0x20000 →
        let a := lsBase + (wing * 8192 + hub * 128 + phys) * 0x20000 + off
        assigned s (.pf a) 4 = false → Runs (.registerWrite .mgmt (.pf a) 4 v) s fun t =>
          if phys < 66 ∧ off + 4 ≤ 0x18000 then
            readLe t a 4 = v % 2 ^ 32 ∧ BytesKept a 4 s t ∧ KeptBut [.mem] s t ∧ RegsKept [] s t
          else rd t .MEM_STATUS_ADDR_FAULT (wing * 40 + hub) = 1 ∧ KeptBut [] s t ∧
            RegsKept [(.MEM_STATUS_ADDR_FAULT, wing * 40 + hub)] s t)) ∧
    (isMgmt s src = false → Runs (.registerWrite src (.pf 0xFF01B80010) 4 v) s fun t => KeptBut [] s t ∧ RegsKept [] s t) ∧
    (Runs (.registerWrite src (.pf 0xFF01BC0004) 4 v) s fun t => KeptBut [] s t ∧ RegsKept [] s t) ∧
    (∀ tg width, width ≠ 4 → width ≠ 8 → Runs (.registerWrite src tg width v) s fun t => KeptBut [] s t ∧ RegsKept [] s t) ∧
    (∀ tg width, width = 4 ∨ width = 8 → plainTarget s tg width → Runs (.registerWrite src tg width v) s fun t =>
      (∀ f n o reg, f ∉ viewFlds → covers s tg width f n o reg → f = .DBG_PROF_CARD → width = 4 →
        rd t f n = writtenValue s src f n reg o width v) ∧
      (∀ f n o reg, f ∉ viewFlds → covers s tg width f n o reg → f ≠ .DBG_PROF_CARD →
        rd t f n = writtenValue s src f n reg o width v) ∧
      (∀ f n, f ∉ viewFlds → (∀ o reg, ¬ covers s tg width f n o reg) → rd t f n = rd s f n) ∧ KeptBut [.rep] s t) ∧
    (∀ n, 1 ≤ n → n < 16 → mayWrite s src .LARDER_LAYOUT_VALID n = true →
      (rd s .LARDER_LAYOUT_VALID n = 1 → bitAt v 63 = true → Runs (.registerWrite src (.pf (0xFF01A20100 + 8 * n)) 8 v) s fun t =>
        KeptBut [] s t ∧ RegsKept [] s t) ∧
      (rd s .LARDER_LAYOUT_VALID n ≠ 1 ∨ bitAt v 63 = false → Runs (.registerWrite src (.pf (0xFF01A20100 + 8 * n)) 8 v) s fun t =>
        (∀ f ∈ [Fld.LARDER_LAYOUT_LAYERS, .LARDER_LAYOUT_LATENT_UNITS, .LARDER_LAYOUT_LATENT_FMT, .LARDER_LAYOUT_ROPE_UNITS,
          .LARDER_LAYOUT_ROPE_FMT], rd t f n = bitsOf v (fieldRow f).hi (fieldRow f).lo) ∧
        rd t .LARDER_LAYOUT_VALID n = (if layoutValid t n then bitsOf v 63 63 else 0) ∧
        rd t .LARDER_LAYOUT_SLAB_UNITS n = slabBytes t n / 256 ∧ KeptBut [] s t ∧
        (∀ f x, f ∉ viewFlds → (fieldRow f).off ≠ 0xFF01A20100 ∨ x ≠ n → rd t f x = rd s f x))) ∧
    (∀ tg width k, width = 4 ∨ width = 8 → mboxKey tg = some k → k % 256 + width ≤ 256 →
      Runs (.registerWrite src tg width v) s fun t => KeptBut [.ctxs] s t ∧ RegsKept [] s t ∧
        (isMgmt s src = true ∧ k % 1024 ≥ 0x300 ∨ src = .driver (k / 1024) ∧ k % 1024 < 0x200 →
          ∀ i, i < width → storeGet 0 t.ctxs.mbox (k + i) = v / 256 ^ i % 256) ∧
        (¬ (isMgmt s src = true ∧ k % 1024 ≥ 0x300 ∨ src = .driver (k / 1024) ∧ k % 1024 < 0x200) → t.ctxs = s.ctxs)) ∧
    (mayWrite s src .PANNIER_CTRL_READY = true → rd s .PANNIER_CTRL_COPY_BUSY = 1 →
      Runs (.registerWrite src (.pf 0xFF01A80000) 4 v) s fun t =>
        rd t .PANNIER_CTRL_WRITE_DROPPED = 1 ∧ rd t .PANNIER_CTRL_READY = rd s .PANNIER_CTRL_READY ∧ KeptBut [] s t)
/-! ## Power -/

/-- Alerts and the throttle (R323, R325, R326, R333, Table 11-1): an alert takes its wings to G0; its end starts their hold,
after which they return to the plan unless a locked segment defers it; a long hold slews VCORE to V_G0 + 30 mV; the throttle
caps every wing at THROTTLE_GEAR. -/
def Obligations.AlertsAndThrottleRun : Prop :=
  (∀ (s : State) (t rail delay width : Nat), rail ≤ 20 →
    (width < 40 → Runs (.pwrAlertAssert t rail delay width) s fun v => KeptBut [.now] s v ∧ RegsKept [] s v) ∧
    (40 ≤ width → s.pwr.alerts.any (fun a => a.src == rail && a.ended.isNone) = false →
    Runs (.pwrAlertAssert t rail delay width) s fun v =>
      (∀ w ∈ railWings rail, rd v .DRL_GEAR_CURRENT w = 0 ∧ rd v .DRL_GEAR_FORCED w = 1) ∧ rd v .PWR_STATUS_ALERT_ACTIVE = 1 ∧
      rd v .PWR_STATUS_ALERT_SEEN = 1 ∧ bitAt (rd v .PWR_ALERT_MAP) rail = true ∧
      rd v .PWR_ALERT_COUNT = rd (inc s .PWR_ALERT_COUNT) .PWR_ALERT_COUNT ∧ KeptBut [.dbg, .now, .pwr, .rep, .tt] s v)) ∧
  (∀ (s : State) (t rail : Nat) (a : AlertRun), rail ≤ 20 → s.pwr.alerts.find? (fun a => a.src == rail && a.ended.isNone) = some a →
    Runs (.pwrAlertDeassert t rail) s fun v =>
      (∀ w ∈ a.wings, ∃ e, storeFind v.pwr.holdEnd w = some e ∧ max s.now t + rd s .PWR_CONFIG_ALERT_HOLD * 1000 ≤ e) ∧
      ((∀ x ∈ s.pwr.alerts, x.ended = none → x = a) → rd v .PWR_STATUS_ALERT_ACTIVE = 0 ∧ rd v .PWR_ALERT_MAP = 0) ∧
      KeptBut [.now, .pwr] s v ∧ RegsKept [(.PWR_STATUS_ALERT_ACTIVE, 0), (.PWR_ALERT_MAP, 0)] s v) ∧
  (∀ (s : State) (t w e : Nat), storeFind s.pwr.stormEnd w = some e → e ≤ max s.now t → Runs (.stormExpiry t w) s fun v =>
      storeFind v.pwr.stormEnd w = none ∧ (∀ x, x < 4 → rd v .DRL_GEAR_CEILING x = ceilingNow v x) ∧
      Frame [.now, .pwr] [.DRL_GEAR_CEILING, .DRL_GEAR_CEILING_PENDING] s v) ∧
  (∀ (s : State) (t w mv e : Nat), storeFind s.pwr.holdEnd w = some e → e ≤ max s.now t → alerted s w = false →
    (lockedOn (tick s t) w = false → w ∉ s.pwr.slewed →
      Runs (.alertHoldExpiry t w mv) s fun v =>
        storeFind v.pwr.holdEnd w = none ∧ rd v .DRL_GEAR_FORCED w = 0 ∧ rd v .DRL_GEAR_DEFERRED w = 0 ∧
        rd v .DRL_GEAR_CURRENT w = (if s.pwr.railForced ≠ [] ∨ w ∈ s.pwr.tripped then 0
          else if rd s .DRL_GEAR_THROTTLED w = 1 then min (rd s .DRL_GEAR_PLANNED w) (rd s .PWR_CONFIG_THROTTLE_GEAR)
          else rd s .DRL_GEAR_PLANNED w) ∧ KeptBut [.dbg, .now, .pwr, .rep] s v ∧
        (∀ x, x ≠ w → rd v .DRL_GEAR_CURRENT x = rd s .DRL_GEAR_CURRENT x)) ∧
    (lockedOn (tick s t) w = false → w ∈ s.pwr.slewed → Runs (.alertHoldExpiry t w mv) s fun v =>
        w ∉ v.pwr.slewed ∧ storeFind v.pwr.holdEnd w = some (max s.now t + (vcoreMv (rd s .DRL_GEAR_PLANNED w) - max mv (vcoreMv 0)) * 100) ∧
        KeptBut [.now, .pwr] s v ∧ RegsKept [] s v) ∧
    (lockedOn (tick s t) w = true → rd s .DRL_GEAR_DEFERRED w ≠ 1 → Runs (.alertHoldExpiry t w mv) s fun v =>
        rd v .DRL_GEAR_DEFERRED w = 1 ∧ rd v .DRL_DEFERRED_COUNT w = rd (inc s .DRL_DEFERRED_COUNT w) .DRL_DEFERRED_COUNT w ∧
        KeptBut [.now] s v ∧ RegsKept [(.DRL_GEAR_DEFERRED, w), (.DRL_DEFERRED_COUNT, w)] s v)) ∧
  (∀ (s : State) (t rail : Nat) (a : AlertRun),
    s.pwr.alerts.find? (fun a => a.src == rail && a.ended.isNone && decide (a.start + 100000 ≤ max s.now t)) = some a →
    Runs (.alertLongHold t rail) s fun v =>
      (∀ w ∈ a.wings, w ∈ v.pwr.slewed ∧ (w < 4 → rd v .DRL_VCORE_MILLIVOLTS w = 590 ∧ rd v .DRL_GEAR_CURRENT w = 0)) ∧
      Frame [.now, .pwr] [.DRL_GEAR_CURRENT, .DRL_GEAR_FORCED, .DRL_VCORE_MILLIVOLTS] s v) ∧
  (∀ (s : State) (t rail : Nat) (a : AlertRun),
    s.pwr.alerts.find? (fun a => a.src == rail && a.ended.isNone && decide (a.start + 1000000000 ≤ max s.now t) &&
      decide (a.flags < 16)) = some a →
    Runs (.alertOngoing t rail) s fun v =>
      (∃ b ∈ v.pwr.alerts, b.src = rail ∧ 16 ≤ b.flags) ∧ Frame [.now, .pwr, .rep] reportFlds s v) ∧
  (∀ (s : State) (t : Nat), s.pwr.throttleAt = none → Runs (.throttleAssert t) s fun v =>
      v.pwr.throttleAt = some (max s.now t) ∧ rd v .PWR_STATUS_THROTTLE_ACTIVE = 1 ∧ rd v .PWR_STATUS_THROTTLE_SEEN = 1 ∧
      rd v .EVC_INPUTS_THROTTLE = 1 ∧
      (∀ w, w < 4 → rd s .PWR_CONFIG_THROTTLE_GEAR < rd s .DRL_GEAR_PLANNED w →
        rd v .DRL_GEAR_THROTTLED w = 1 ∧ rd v .DRL_GEAR_CURRENT w ≤ rd s .PWR_CONFIG_THROTTLE_GEAR) ∧
      KeptBut [.dbg, .now, .pwr, .rep, .tt] s v) ∧
  (∀ (s : State) (t t0 : Nat), s.pwr.throttleAt = some t0 → Runs (.throttleDeassert t) s fun v =>
      v.pwr.throttleAt = none ∧ rd v .PWR_STATUS_THROTTLE_ACTIVE = 0 ∧ rd v .EVC_INPUTS_THROTTLE = 0 ∧
      Frame [.now, .pwr, .rep, .tt] (reportFlds ++ [.PWR_STATUS_THROTTLE_ACTIVE, .EVC_INPUTS_THROTTLE]) s v)

/-- The Derailleur's other inputs (R316, R317, R320, R324, R328 to R331, R334, R335, R464 to R466, Table 11-3): a window's
measured energy beside the estimate formed from the wing's activity, and the state the comparison leads to; a limiter sample;
the estimator's clearing, caps and meters; temperatures and their levels; rail faults and the input. -/
def Obligations.PowerInputsRun : Prop :=
  (∀ (s : State) (t w meas e c uj : Nat) (est : WingActivity), w < 4 →
    (Runs (.derailleurWindow t w meas est (some e) [(c, uj)]) s fun v =>
      rd v .ENERGY_MODULE = (rd s .ENERGY_MODULE + e) % 2 ^ 64 ∧ rd v .ENERGY_ATTRIB = (rd s .ENERGY_ATTRIB + uj) % 2 ^ 64 ∧
      rd v .DRL_DISAGREE w ≤ 1023 ∧ v.mem = s.mem) ∧
    (100 * ((rd s .DRL_K w * estEnergy s est - measEnergy meas * 65536) + (measEnergy meas * 65536 - rd s .DRL_K w * estEnergy s est)) ≤
        rd s .PWR_CONFIG_DISAGREE_PCT * measEnergy meas * 65536 →
      rd s .DRL_EST_STATE w ≠ 2 → Runs (.derailleurWindow t w meas est none []) s fun v =>
        rd v .DRL_EST_STATE w = 0 ∧ rd v .DRL_EST_MISSES w = 0 ∧ 0x8000 ≤ rd v .DRL_K w ∧ rd v .DRL_K w ≤ 0x20000 ∧
        KeptBut [.free, .now] s v ∧
        RegsKept [(.DRL_DISAGREE, w), (.DRL_K, w), (.DRL_EST_STATE, w), (.DRL_EST_MISSES, w)] s v)) ∧
  (∀ (s : State) (t w meas : Nat) (est : WingActivity) (input : Option Nat) (attrib : List (Nat × Nat)), w < 4 →
    ∀ n miss, n = rd s .DRL_EST_MISSES w →
    miss = decide (rd s .PWR_CONFIG_DISAGREE_PCT * measEnergy meas * 65536 <
      100 * ((rd s .DRL_K w * estEnergy s est - measEnergy meas * 65536) + (measEnergy meas * 65536 - rd s .DRL_K w * estEnergy s est))) →
    Runs (.derailleurWindow t w meas est input attrib) s fun v =>
      rd v .DRL_DISAGREE w ≤ 1023 ∧
      rd v .ENERGY_MODULE = (match input with | some e => (rd s .ENERGY_MODULE + e) % 2 ^ 64 | none => rd s .ENERGY_MODULE) ∧
      (rd s .ENERGY_ATTRIB < 2 ^ 64 → rd v .ENERGY_ATTRIB = (rd s .ENERGY_ATTRIB + (attrib.map (·.2)).sum) % 2 ^ 64) ∧
      (rd s .DRL_EST_STATE w = 2 → rd v .DRL_EST_STATE w = 2 ∧ rd v .DRL_K w = rd s .DRL_K w) ∧
      (rd s .DRL_EST_STATE w ≠ 2 → miss = false → rd v .DRL_EST_STATE w = 0 ∧ rd v .DRL_EST_MISSES w = 0 ∧
        0x8000 ≤ rd v .DRL_K w ∧ rd v .DRL_K w ≤ 0x20000) ∧
      (rd s .DRL_EST_STATE w ≠ 2 → miss = true → rd v .DRL_EST_MISSES w = n + 1 ∧
        (n + 1 < rd s .PWR_CONFIG_DISAGREE_WINDOWS → rd v .DRL_EST_STATE w = 1 ∧ 0x8000 ≤ rd v .DRL_K w ∧ rd v .DRL_K w ≤ 0x20000) ∧
        (rd s .PWR_CONFIG_DISAGREE_WINDOWS ≤ n + 1 → rd v .DRL_EST_STATE w = 2 ∧ rd v .DRL_K w = rd s .DRL_K w ∧ w ∈ v.pwr.estDrop)) ∧
      v.mem = s.mem) ∧
  (∀ (s : State) (t w predicted measured extra : Nat) (ends : Bool), w < 4 →
    let cap := rd s .DRL_RAIL_CAP_AMPS w
    let cur := if w ∈ s.pwr.noTelemetry then predicted
      else if rd s .DRL_EST_STATE w = 2 then measured else max predicted measured
    let duty := storeGet 0 s.pwr.duty w
    Runs (.limiterSample t w predicted measured ends extra) s fun v =>
      storeGet 0 v.pwr.duty w = (if forcedG0 s w = true ∨ reserveGone s w = true then 0
        else if cap < cur then min 7 (duty + 1)
        else if cur * 10 < cap * 9 ∧ storeGet 0 s.pwr.low w = 3 then duty - 1 else duty) ∧
      rd v .DRL_VCORE_AMPS w = min measured 1023 ∧
      (ends = false → rd v .DRL_GEAR_PLANNED w = rd s .DRL_GEAR_PLANNED w ∧ rd v .DRL_GEAR_CURRENT w = rd s .DRL_GEAR_CURRENT w) ∧
      KeptBut [.now, .pwr] s v ∧
      RegsKept [(.DRL_VCORE_AMPS, w), (.DRL_LIMIT_NS, w), (.DRL_GEAR_DEFERRED, w), (.DRL_DEFERRED_COUNT, w), (.DRL_GEAR_PLANNED, w),
        (.DRL_GEAR_CURRENT, w), (.DRL_GEAR_FORCED, w), (.DRL_VCORE_MILLIVOLTS, w)] s v) ∧
  (∀ (s : State) (src : Src) (t : Nat), isMgmt s src = true →
    (∀ w, w < 4 → rd s .DRL_EST_STATE w = 2 → Runs (.drlEstClear src t w) s fun v =>
      rd v .DRL_EST_STATE w = 0 ∧ rd v .DRL_EST_MISSES w = 0 ∧ rd v .DRL_K w = 0x10000 ∧
      Frame [.now, .pwr, .rep] (reportFlds ++ [.DRL_EST_STATE, .DRL_EST_MISSES, .DRL_K]) s v) ∧
    (∀ w, w < 4 → rd s .DRL_EST_STATE w ≠ 2 → Runs (.drlEstClear src t w) s fun v => KeptBut [.now] s v ∧ RegsKept [] s v) ∧
    (∀ x, 1000 ≤ x → x ≤ 3300 → Runs (.pwrCapWrite src t x) s fun v =>
      rd v .PWR_CAP_CAP_W = x ∧ (x < rd s .PWR_CAP_CAP_W → s.serve.items ≠ [] → rd v .PWR_CAP_CAP_PENDING = 1) ∧
      Frame [.now, .rep] (reportFlds ++ [.PWR_CAP_CAP_W, .PWR_CAP_CAP_PENDING, .EVC_STATUS_POWER]) s v) ∧
    (∀ x, x < 1000 ∨ (3300 < x ∧ x < 4096) → Runs (.pwrCapWrite src t x) s fun v => KeptBut [.now] s v ∧ RegsKept [] s v) ∧
    (∀ m x, m < 8 → Runs (.pwrMeterWrite src t m x) s fun v =>
      rd v .PWR_METER_CTX_CTX m = x % 64 ∧ rd v .PWR_METER_CTX_EN m = bitsOf x 7 7 ∧ rd v .PWR_METER_ENERGY m = 0 ∧
      KeptBut [.now] s v ∧ RegsKept [(.PWR_METER_CTX_CTX, m), (.PWR_METER_CTX_EN, m), (.PWR_METER_ENERGY, m)] s v)) ∧
  (∀ (s : State) (t r : Nat),
    (∀ h, h < 160 → 1050 ≤ r → (∀ l ∈ s.pwr.levels, ¬ (l.1 = 1 ∧ l.2.1 = h / 40)) →
      (∀ a ∈ s.pwr.alerts, a.src = 100 + h / 40 → a.ended ≠ none) → Runs (.thermalLevel t (.hub h) r) s fun v =>
        rd v .HUB_PWR_TEMP h = min r 4095 ∧ rd v .DRL_GEAR_CURRENT (h / 40) = 0 ∧ v.mem = s.mem) ∧
    (∀ n, n < 12 → r < 850 → (∀ l ∈ s.pwr.levels, ¬ (l.1 = 2 ∧ l.2.1 = n)) → Runs (.thermalLevel t (.stack n) r) s fun v =>
        rd v .DRL_STACK_TEMP n = r ∧ KeptBut [.now] s v ∧ RegsKept [(.DRL_STACK_TEMP, n)] s v) ∧
    (let level := fun (x : State) (kind i : Nat) => ((x.pwr.levels.find? (fun l => l.1 == kind && l.2.1 == i)).map (·.2.2)).getD 0
      let m := min r 4095
      (∀ h, h < 160 → Runs (.thermalLevel t (.hub h) r) s fun v =>
        rd v .HUB_PWR_TEMP h = m ∧ rd v .DRL_TEMP (h / 40) = wingReading v (h / 40) ∧
        level v 1 (h / 40) = thermalLevel 1 (level s 1 (h / 40)) (wingReading v (h / 40))) ∧
      (∀ n, n < 12 → Runs (.thermalLevel t (.stack n) r) s fun v =>
        rd v .DRL_STACK_TEMP n = m ∧ level v 2 n = thermalLevel 2 (level s 2 n) m) ∧
      (Runs (.thermalLevel t .vestibule r) s fun v => v.pwr.vestTemp = m ∧ level v 4 0 = thermalLevel 4 (level s 4 0) m) ∧
      (Runs (.thermalLevel t .inlet r) s fun v =>
        rd v .PWR_INLET = m ∧ rd v .PWR_STATUS_INLET_HIGH = (if 450 < m then 1 else 0) ∧ v.pwr.inletDrop = (m - 450) / 20 ∧
        (∀ x, x < 4 → rd v .DRL_GEAR_CEILING x = ceilingNow v x) ∧
        Frame [.now, .pwr, .rep] (reportFlds ++ [.PWR_INLET, .PWR_STATUS_INLET_HIGH, .EVC_STATUS_POWER, .DRL_GEAR_CEILING,
          .DRL_GEAR_CEILING_PENDING]) s v))) ∧
  (∀ (s : State) (t rail kind : Nat) (room : Bool),
    (rail ∈ [1, 2, 19, 20] → 1 ≤ kind → kind ≤ 3 → Runs (.railFault t rail kind room) s fun v =>
      rail ∈ v.pwr.railForced ∧ (∀ w, w < 4 → rd v .DRL_GEAR_CURRENT w = 0) ∧ KeptBut [.now, .pwr, .rep] s v) ∧
    (3 ≤ rail → rail ≤ 18 → Runs (.railFault t rail 4 room) s fun v =>
      rd v .DRL_EST_STATE ((rail - 3) % 4) = 2 ∧ (rail - 3) % 4 ∈ v.pwr.noTelemetry ∧ KeptBut [.now, .pwr, .rep] s v) ∧
    (rail = 0 ∧ 1 ≤ kind ∧ kind ≤ 4 ∨ rail ∈ [1, 2, 19, 20] ∧ kind = 4 → Runs (.railFault t rail kind room) s fun v =>
      Frame [.now, .rep] reportFlds s v) ∧
    (15 ≤ rail → rail ≤ 18 → 1 ≤ kind → kind ≤ 3 → Runs (.railFault t rail kind room) s fun v =>
      ∀ i, i < 96 → rd v .HBM_CH_STATE_STATE ((rail - 15) * 96 + i) = 2) ∧
    (3 ≤ rail → rail ≤ 14 → 1 ≤ kind → kind ≤ 3 → Runs (.railFault t rail kind room) s fun v =>
      rd v .RESET_STATUS_BUSY = 1 ∧
      (rd s .INTEG_LEAD_LEAD_WING ≠ (rail - 3) % 4 → (rail - 3) % 4 ∈ v.pwr.wingsOut ∧
        ∀ i, i < 40 → rd v .INTEG_HUB_OUT ((rail - 3) % 4 * 40 + i) = 1))) ∧
  (∀ (s : State) (t volts amps : Nat),
    (Runs (.inputVoltageBand t volts amps) s fun v =>
      rd v .PWR_INPUT_VOLTS = min volts 65535 ∧ rd v .PWR_INPUT_AMPS = min amps 65535 ∧
      v.pwr.band = inputBand s.pwr.band volts ∧ KeptBut [.now, .pwr, .rep] s v) ∧
    (s.pwr.band = 3 → volts < 4550 → Runs (.inputVoltageBand t volts amps) s fun v =>
      v.pwr.hotswapOff = some (max s.now t) ∧ rd v .BOOT_STATUS_PHASE = 0 ∧ rd v .PCIE_LINK_UP = 0)) ∧
  (∀ (s : State) (t volts flushed : Nat), s.boot.failing = false → Runs (.powerFail t volts flushed) s fun v =>
      v.boot.failing = true ∧ v.pwr.hotswapOff = some (max s.now t) ∧ rd v .BOOT_STATUS_PHASE = 0 ∧ v.rep.toWrite = [] ∧
      v.rep.ring.length ≤ 30720 ∧ KeptBut [.boot, .now, .pwr, .rep] s v) ∧
  (∀ (s : State) (t : Nat), s.pwr.hotswapOff = none →
    (Runs (.hotswapLimitTimeout t) s fun v =>
      v.pwr.hotswapOff = some (max s.now t) ∧ rd v .BOOT_STATUS_PHASE = 0 ∧ rd v .PCIE_LINK_UP = 0 ∧
      Frame [.now, .pwr, .rep] (reportFlds ++ [.BOOT_STATUS_PHASE, .PCIE_LINK_UP]) s v) ∧
    (Runs (.shortCircuit t) s fun v =>
      v.pwr.hotswapOff = some (max s.now t) ∧ rd v .BOOT_STATUS_PHASE = 0 ∧ rd v .PCIE_LINK_UP = 0 ∧
      KeptBut [.now, .pwr] s v ∧ RegsKept [(.BOOT_STATUS_PHASE, 0), (.PCIE_LINK_UP, 0)] s v))
/-! ## The fabric -/

/-- The links (R336 to R338, R343, R357, Tables 12-1 and 12-2): each event in the state it needs. A link that is lost is
reported where a HELLO has named its neighbour; once every LIVE neighbour of that module has reported it, the declarer
declares it dead. -/
def Obligations.LinksRun : Prop :=
  ∀ (s : State) (src : Src) (t l : Nat) (tasks : List (List (Nat × Nat) × Nat)), l < 6 →
    (rd s .SPOKE_LINK_STATE_STATE l = 0 → Runs (.linkSignalDetect t l) s fun v =>
      rd v .SPOKE_LINK_STATE_STATE l = 1 ∧ rd v .EVC_STATUS_LINK = 1 ∧ KeptBut [.now, .rep] s v ∧
      RegsKept [(.SPOKE_LINK_STATE_STATE, l), (.EVC_STATUS_LINK, 0)] s v) ∧
    (rd s .SPOKE_LINK_STATE_STATE l = 1 → ∀ mask delay,
      Runs (.linkTrainingDone t l mask delay) s fun v =>
        rd v .SPOKE_LINK_DELAY l = min delay (maxOf 16) ∧
        LinkCame v l (mask % 256 &&& (0xFF ^^^ (linkOf s l).badLanes)) ∧
        (rd v .SPOKE_LINK_STATE_STATE l = 2 → (linkOf v l).txSeq = 1 ∧ ∃ p, (linkOf v l).replay = [(1, p)] ∧ p.type = 6 ∧ p.seq = 0) ∧
        Frame [.fab, .now, .rep] (linkFlds ++ [.SPOKE_LINK_DELAY, .SPOKE_FAB_STATUS_STATE]) s v) ∧
    (rd s .SPOKE_LINK_STATE_STATE l = 1 → Runs (.linkTrainingTimeout t l) s fun v =>
      LinkGone v l ∧ Frame [.fab, .now, .rep] linkFlds s v) ∧
    (rd s .SPOKE_LINK_STATE_STATE l = 2 →
      (∀ n, n ≤ 64 → Runs (.linkErrorThreshold t l (.codewords n) tasks) s fun v => KeptBut [.now] s v ∧ RegsKept [] s v) ∧
      (∀ e : LinkTrouble, (e = .thirdFailure ∨ ∃ n, 64 < n ∧ e = .codewords n) →
        Runs (.linkErrorThreshold t l e tasks) s fun v => Retrained s v l (max s.now t) ∧
          ((linkOf s l).retrains = [] → Frame [.fab, .now, .rep] (linkFlds ++ [.SPOKE_RETRAINS]) s v)) ∧
      (∀ m, Runs (.linkErrorThreshold t l (.lanes m) tasks) s fun v =>
        (linkOf v l).badLanes = (linkOf s l).badLanes ||| m % 256 ∧ KeptBut [.core, .fab, .lard, .now, .rep, .serve, .tt] s v ∧
        (evenLanes (0xFF ^^^ (linkOf v l).badLanes) = [] → LinkGone v l) ∧
        (evenLanes (0xFF ^^^ (linkOf v l).badLanes) ≠ [] → Retrained s v l (max s.now t)))) ∧
    (rd s .SPOKE_LINK_STATE_STATE l = 3 →
      (∀ mask, Runs (.linkRetrainDone t l mask) s fun v =>
        LinkCame v l (mask % 256 &&& (0xFF ^^^ (linkOf s l).badLanes)) ∧ Frame [.fab, .now, .rep] linkFlds s v) ∧
      (Runs (.linkRetrainTimeout t l tasks) s fun v =>
        LinkGone v l ∧ KeptBut [.core, .fab, .lard, .now, .rep, .serve, .tt] s v)) ∧
    (isMgmt s src = true →
      (rd s .SPOKE_LINK_STATE_STATE l ≠ 4 → Runs (.linkRetire src t l tasks) s fun v =>
        LinkGone v l ∧ KeptBut [.core, .fab, .lard, .now, .rep, .serve, .tt] s v) ∧
      (rd s .SPOKE_LINK_STATE_STATE l = 4 ∨ rd s .SPOKE_LINK_STATE_STATE l = 5 → Runs (.linkRestore src t l) s fun v =>
        rd v .SPOKE_LINK_STATE_STATE l = 1 ∧ (linkOf v l).badLanes = 0 ∧ (linkOf v l).retrains = [] ∧
        Frame [.fab, .now, .rep] linkFlds s v)) ∧
    (rd s .SPOKE_LINK_STATE_STATE l ∉ [0, 4, 6] →
      ((linkOf s l).peer = none ∨ rd s .EPOCH_ENTRY_STATE (peerOf s l) ≠ 1 ∨ declarer s (peerOf s l) = false ∨
          (∃ a ∈ liveNeighbours s (peerOf s l), a ≠ ownAddr s ∧ (a, peerOf s l) ∉ s.fab.reports) → Runs (.linkLost t l) s fun v =>
        rd v .SPOKE_LINK_STATE_STATE l = 6 ∧ (linkOf v l).lostAt = some (max s.now t) ∧
        ((linkOf s l).peer ≠ none → (ownAddr s, peerOf s l) ∈ v.fab.reports) ∧ Frame [.fab, .now, .rep] linkFlds s v) ∧
      ((linkOf s l).peer ≠ none → rd s .EPOCH_ENTRY_STATE (peerOf s l) = 1 → declarer s (peerOf s l) = true →
        (∀ a ∈ liveNeighbours s (peerOf s l), a = ownAddr s ∨ (a, peerOf s l) ∈ s.fab.reports) →
        Runs (.linkLost t l) s fun v =>
          rd v .SPOKE_LINK_STATE_STATE l = 0 ∧ rd v .EPOCH_ENTRY_STATE (peerOf s l) = 2 ∧
          rd v .EPOCH_ENTRY_EPOCH (peerOf s l) = nextEpoch (rd s .EPOCH_ENTRY_EPOCH (peerOf s l)) ∧ v.mem = s.mem))

/-- What arrives on a link, in order and with a right CRC: data and reductions (R268, R344, R353), a buffered packet of context 0
that wakes the module from STOW (R440), credits (R346), barriers (R354), acknowledgement and retransmission (R343); and the
Spoke tables (R226, R340, R341). -/
def Obligations.SpokePacketsRun : Prop :=
  ∀ (s : State) (src : Src) (t l : Nat) (p : Packet) (tasks : List (List (Nat × Nat) × Nat)),
    (Arrives s l p → ∀ (task : List (Nat × Nat)) (card : Nat),
      (∀ a, a = p.destAddr / 4 * 4 → onChip a = true → isHbm a = false → p.data ≠ [] → ownerOk s p a p.data.length = true →
        wakesStow s p = false → Runs (.spokeData t l p false task card) s fun v =>
          (∀ i, i < p.data.length → readByte v (a + i) = p.data.getD i 0 % 256) ∧ BytesKept a p.data.length s v ∧
          (linkOf v l).rxSeq = (p.seq + 1) % 65536 ∧ KeptBut [.fab, .mem, .now, .rep] s v ∧ RegsKept [] s v) ∧
      (∀ a, a = p.destAddr / 4 * 4 → p.data ≠ [] →
        (ownerOk s p a p.data.length = true → wakesStow s p = false → ∀ w, w = putBytes s p.ctx a p.data → Runs (.spokeData t l p false task card) s fun v =>
          v.mem = w.mem ∧ (linkOf v l).rxSeq = (p.seq + 1) % 65536 ∧ KeptBut [.fab, .mem, .now, .rep] s v ∧ RegsKept [] w v) ∧
        (ownerOk s p a p.data.length = false → Runs (.spokeData t l p false task card) s fun v =>
          rd v .SPOKE_DROP_OWNER = rd (inc s .SPOKE_DROP_OWNER) .SPOKE_DROP_OWNER ∧
          rd v .MEM_STATUS_GRANULE_FAULT (destHub p.destAddr) = 1 ∧ (∀ k ∈ task, itemAt v k.1 k.2 = none))) ∧
      (p.data = [] → wakesStow s p = false → Runs (.spokeData t l p false task card) s fun v =>
          (linkOf v l).rxSeq = (p.seq + 1) % 65536 ∧ KeptBut [.fab, .now, .rep] s v ∧ RegsKept [] s v) ∧
      (p.data = [] → p.cls = 3 → p.ctx = 0 → rd s .LP_STATUS_STATE = 3 → Runs (.spokeData t l p false task card) s fun v =>
          rd v .LP_STATUS_STATE = 6 ∧ v.boot.lpReason = 6 ∧ v.mem = s.mem) ∧
      (∀ a fmt count, a = p.destAddr / 128 * 128 → onChip a = true → a < lsBase → p.data.length = 128 → p.srcIndex = 0 →
        ownerOk s p a 128 = true → (∀ x ∈ s.mem.redLines, x.line ≠ p.destAddr / 128) →
        Runs (.spokeRed t l p false task card fmt count) s fun v =>
          (∀ j, j < 32 → ∀ x old, x = leNum ((p.data.drop (4 * j)).take 4) → old = readLe s (a + 4 * j) 4 →
            readLe v (a + 4 * j) 4 = (if fmt = 0xA then f32Add old x else old + x) % 2 ^ 32) ∧
          BytesKept a 128 s v ∧ KeptBut [.fab, .mem, .now, .rep] s v ∧ RegsKept [] s v) ∧
      (∀ a fmt count, a = p.destAddr / 128 * 128 → onChip a = true → a < lsBase → ownerOk s p a p.data.length = true →
        ∀ w, w = (redFlits p).foldl (fun y f => redArrive ((a - pantryBase) / 0x800000) y f.1 p.srcIndex count fmt f.2) s →
        Runs (.spokeRed t l p false task card fmt count) s fun v =>
          v.mem = w.mem ∧ (linkOf v l).rxSeq = (p.seq + 1) % 65536 ∧ KeptBut [.fab, .mem, .now, .rep] s v ∧ RegsKept [] w v) ∧
      (∀ c, c = poolIdx (p.destAddr % 64) l → Runs (.credit t l p) s fun v =>
          rd v .SPOKE_CREDIT_POOL c = min 512 (rd s .SPOKE_CREDIT_POOL c + bitsOf p.destAddr 25 16) -
            (s.fab.waiting.filter (fun e => e.1 == l && credited e.2 && poolIdx e.2.ctx l == c)).length ∧
          Frame [.fab, .now, .rep] [.SPOKE_CREDIT_POOL] s v) ∧
      (∀ c, c = poolIdx (p.destAddr % 64) l → (∀ e ∈ s.fab.waiting, e.1 ≠ l) → Runs (.credit t l p) s fun v =>
          rd v .SPOKE_CREDIT_POOL c = min 512 (rd s .SPOKE_CREDIT_POOL c + bitsOf p.destAddr 25 16) ∧
          KeptBut [.fab, .now, .rep] s v ∧ RegsKept [(.SPOKE_CREDIT_POOL, c)] s v) ∧
      (∀ (b : BarrierBody) (g : Segment),
        s.fab.segments.find? (fun g => g.start == b.start && decide (p.src ∈ g.members)) = some g →
        (b.done = true → b.abort = false → coordinator g = p.src → Runs (.barrier t l p b) s fun v =>
          (∀ x ∈ v.fab.segments, x.start = g.start → x.members ≠ g.members) ∧
          (bitAt b.causes 1 = true → v.tt.run.alertSeen = true) ∧
          KeptBut [.fab, .now, .rep, .tt] s v ∧ RegsKept [] s v) ∧
        (b.done = false → b.abort = false → coordinator g = ownAddr s → (∀ a ∈ g.arrived, a.1 ≠ p.src ∧ a.2.2.2 = false) →
          (∃ m ∈ g.members, m ≠ p.src ∧ ∀ a ∈ g.arrived, a.1 ≠ m) → Runs (.barrier t l p b) s fun v =>
          { g with arrived := g.arrived ++ [(p.src, b.arrival, b.causes, false)] } ∈ v.fab.segments ∧
          KeptBut [.fab, .now, .rep] s v ∧ RegsKept [] s v) ∧
        (b.done = false → b.abort = false → coordinator g = ownAddr s → (∀ a ∈ g.arrived, a.1 ≠ p.src ∧ a.2.2.2 = false) →
          (∀ m ∈ g.members, m = p.src ∨ ∃ a ∈ g.arrived, a.1 = m) → Runs (.barrier t l p b) s fun v =>
          (∀ x ∈ v.fab.segments, x.start = g.start → x.members ≠ g.members) ∧
          KeptBut [.fab, .now, .rep, .tt] s v ∧ RegsKept [] s v) ∧
        (b.abort = true → b.done = true ∧ coordinator g = p.src ∨
            b.done = false ∧ coordinator g = ownAddr s ∧ (∀ a ∈ g.arrived, a.1 ≠ p.src) → Runs (.barrier t l p b) s fun v =>
          (∀ x ∈ v.fab.segments, x.start = g.start → x.members ≠ g.members) ∧ (∀ k ∈ g.task, itemAt v k.1 k.2 = none)))) ∧
    (∀ (c : Instr), c ∈ [.credit t l p] ++ [false, true].flatMap (fun x =>
        [.spokeData t l p x [] 0, .spokeRed t l p x [] 0 0 0, .barrier t l p ⟨0, 0, 0, x, x⟩]) →
      l < 6 → rd s .SPOKE_LINK_STATE_STATE l = 2 → p.seq ≠ (linkOf s l).rxSeq → (∀ n k, c ≠ .spokeData t l p true n k) →
      (∀ n k f m, c ≠ .spokeRed t l p true n k f m) → Runs c s fun v =>
        KeptBut [.now, .rep] s v ∧ RegsKept [] s v ∧ ∃ q, .packet l q ∈ v.rep.outs ∧ q.type = 4 ∧ q.destAddr = (linkOf s l).rxSeq) ∧
    (l < 6 → rd s .SPOKE_LINK_STATE_STATE l = 2 →
      (∀ (task : List (Nat × Nat)) (card fmt count : Nat),
        ∀ c ∈ [Instr.spokeData t l p true task card, .spokeRed t l p true task card fmt count], Runs c s fun v =>
        rd v .SPOKE_FEC_UNCORR l = rd (inc s .SPOKE_FEC_UNCORR l) .SPOKE_FEC_UNCORR l ∧
        (linkOf v l).rxSeq = (linkOf s l).rxSeq ∧ KeptBut [.dbg, .fab, .now, .rep] s v ∧ RegsKept [(.SPOKE_FEC_UNCORR, l)] s v) ∧
      (Runs (.spokeAck t l p) s fun v =>
        (linkOf v l).replay = (linkOf s l).replay.filter (fun e => serialAhead e.2.seq (p.destAddr % 65536)) ∧
        (∀ m, m ≠ l → linkOf v m = linkOf s m) ∧ KeptBut [.fab, .now] s v ∧ RegsKept [] s v) ∧
      ((∀ e ∈ (linkOf s l).replay, e.2.seq = p.destAddr % 65536 → e.1 < 3) → Runs (.spokeNak t l p tasks) s fun v =>
        (∀ e ∈ (linkOf s l).replay, e.2.seq = p.destAddr % 65536 ∨ serialAhead e.2.seq (p.destAddr % 65536) = true →
          (e.1 + 1, { e.2 with retx := true }) ∈ (linkOf v l).replay ∧ .packet l { e.2 with retx := true } ∈ v.rep.outs) ∧
        (∀ m, m ≠ l → linkOf v m = linkOf s m) ∧ KeptBut [.fab, .now, .rep] s v ∧ RegsKept [(.SPOKE_RETX, l)] s v) ∧
      ((∃ e ∈ (linkOf s l).replay, e.2.seq = p.destAddr % 65536 ∧ 3 ≤ e.1) → Runs (.spokeNak t l p tasks) s fun v =>
        Retrained s v l (max s.now t))) ∧
    (mayWrite s src .SPOKE_TT_LOAD_SRC 0 = true →
      (rd s .SPOKE_TT_CTRL_FLIP_REQ = 1 ∨ 6 < rd s .SPOKE_TT_LOAD_TABLE → Runs (.spokeTtLoad src) s fun v =>
        rd v .SPOKE_TT_CTRL_LOAD_ERROR = 1 ∧ KeptBut [] s v ∧ RegsKept [(.SPOKE_TT_CTRL_LOAD_ERROR, 0)] s v) ∧
      (rd s .SPOKE_TT_CTRL_FLIP_REQ ≠ 1 → ∀ tb, tb = rd s .SPOKE_TT_LOAD_TABLE → tb < 6 → ∀ a, a = rd s .SPOKE_TT_LOAD_SRC * 64 →
        ∀ img, img = readBytes s a (0x40 + 4 * imgNum (readBytes s a 0x40) 4 2 + 8 * min 8000 (imgNum (readBytes s a 0x40) 8 4)) →
        (slotImageOk s tb img = true → Runs (.spokeTtLoad src) s fun v =>
          storeGet [] v.fab.banks (tb * 2 + (1 - rd s .SPOKE_TT_CTRL_ACTIVE_BANK)) = img ∧
          rd v .SPOKE_TT_CTRL_LOADED = rd s .SPOKE_TT_CTRL_LOADED ||| 2 ^ tb ∧ KeptBut [.fab] s v ∧
          RegsKept [(.SPOKE_TT_CTRL_LOADED, 0)] s v) ∧
        (slotImageOk s tb img = false → Runs (.spokeTtLoad src) s fun v =>
          rd v .SPOKE_TT_CTRL_LOAD_ERROR = 1 ∧ rd v .SPOKE_TT_CTRL_LOADED = rd s .SPOKE_TT_CTRL_LOADED &&& (127 ^^^ 2 ^ tb) ∧
          KeptBut [] s v ∧ RegsKept [(.SPOKE_TT_CTRL_LOAD_ERROR, 0), (.SPOKE_TT_CTRL_LOADED, 0)] s v)) ∧
      (rd s .SPOKE_TT_CTRL_FLIP_REQ ≠ 1 → rd s .SPOKE_TT_LOAD_TABLE = 6 →
        ∀ img, img = readBytes s (rd s .SPOKE_TT_LOAD_SRC * 64) 4160 →
        (routeImageOk s img = true → Runs (.spokeTtLoad src) s fun v =>
          storeGet [] v.fab.banks (12 + (1 - rd s .SPOKE_TT_CTRL_ACTIVE_BANK)) = img.drop 64 ∧
          rd v .SPOKE_TT_CTRL_LOADED = rd s .SPOKE_TT_CTRL_LOADED ||| 64 ∧ KeptBut [.fab] s v ∧
          RegsKept [(.SPOKE_TT_CTRL_LOADED, 0)] s v) ∧
        (routeImageOk s img = false → Runs (.spokeTtLoad src) s fun v =>
          rd v .SPOKE_TT_CTRL_LOAD_ERROR = 1 ∧ rd v .SPOKE_TT_CTRL_LOADED = rd s .SPOKE_TT_CTRL_LOADED &&& 63 ∧
          KeptBut [] s v ∧ RegsKept [(.SPOKE_TT_CTRL_LOAD_ERROR, 0), (.SPOKE_TT_CTRL_LOADED, 0)] s v))) ∧
    (rd s .SPOKE_TT_CTRL_FLIP_REQ = 1 → rd s .SPOKE_TT_FLIP_AT ≤ max s.now t →
      (rd s .SPOKE_TT_FLIP_AT % (rd s .SPOKE_FAB_CFG_FLIP_PERIOD * 100000) = 0 → rd s .SPOKE_TT_CTRL_LOADED = 127 →
        Runs (.spokeTableFlip t) s fun v =>
          rd v .SPOKE_TT_CTRL_ACTIVE_BANK = 1 - rd s .SPOKE_TT_CTRL_ACTIVE_BANK ∧
          rd v .SPOKE_TT_CTRL_ACTIVE_GEN = nextGen (rd s .SPOKE_TT_CTRL_ACTIVE_GEN) ∧ rd v .SPOKE_TT_CTRL_FLIP_REQ = 0 ∧
          rd v .SPOKE_TT_CTRL_LOADED = 0 ∧ v.fab.flipAt = rd s .SPOKE_TT_FLIP_AT ∧ KeptBut [.fab, .now] s v ∧
          RegsKept [(.SPOKE_TT_CTRL_ACTIVE_BANK, 0), (.SPOKE_TT_CTRL_ACTIVE_GEN, 0), (.SPOKE_TT_CTRL_FLIP_REQ, 0),
            (.SPOKE_TT_CTRL_LOADED, 0)] s v) ∧
      (rd s .SPOKE_TT_FLIP_AT % (rd s .SPOKE_FAB_CFG_FLIP_PERIOD * 100000) ≠ 0 ∨ rd s .SPOKE_TT_CTRL_LOADED ≠ 127 →
        Runs (.spokeTableFlip t) s fun v =>
          rd v .SPOKE_TT_CTRL_FLIP_REJECTED = 1 ∧ rd v .SPOKE_TT_CTRL_FLIP_REQ = 0 ∧
          Frame [.dbg, .now, .rep] (errorFlds ++ [.SPOKE_TT_CTRL_FLIP_REJECTED, .SPOKE_TT_CTRL_FLIP_REQ]) s v))

/-- Cadence and membership (R348, R350 to R352, R355 to R362, Table 12-9): SYNC and the choice of the upstream, HELLO and the
address it implies, JOIN, EPOCH and LINK_LOST with the declaration of death, and the management commands of the fabric, each
in the states it needs and in those where it is refused. -/
def Obligations.FabricRuns : Prop :=
  (∀ (s : State) (t l : Nat) (p : Packet), l < 6 → rd s .SPOKE_LINK_STATE_STATE l = 2 →
    (Runs (.spokeSync t l p) s fun v =>
      (linkOf v l).syncAt = some (max s.now t) ∧ (linkOf v l).syncHops = p.flow % 64 ∧ (linkOf v l).syncGm = p.flow / 256 % 4096 ∧
      s.now ≤ v.now ∧ Frame [.fab, .now, .rep] (reportFlds ++ cadenceFlds) s v) ∧
    (p.flow / 256 % 4096 ≠ ownAddr s → (∀ m, m < 6 → m ≠ l → rd s .SPOKE_LINK_STATE_STATE m ≠ 2) →
      Runs (.spokeSync t l p) s fun v =>
        rd v .SPOKE_CAD_UPSTREAM_LINK = l ∧ rd v .SPOKE_CAD_UPSTREAM_HOPS = min 63 (p.flow % 64 + 1) ∧
        rd v .SPOKE_CAD_UPSTREAM_GM = p.flow / 256 % 4096 ∧
        rd v .SPOKE_CAD_OFFSET = ((4 * (p.destAddr : Int) + rd s .SPOKE_LINK_DELAY l - 4 * (max s.now t : Nat)) / 4 % 4294967296).toNat)) ∧
  (∀ (s : State) (t : Nat), max s.now t / slotNs % 250 = 0 → Runs (.syncSend t) s fun v =>
      (∀ l, l < 6 → rd s .SPOKE_LINK_STATE_STATE l = 2 → ∃ p, .packet l p ∈ v.rep.outs ∧ p.type = 5 ∧ p.destAddr = max s.now t) ∧
      KeptBut [.now, .rep] s v ∧ RegsKept [] s v) ∧
  (∀ (s : State) (t : Nat), rd s .SPOKE_CAD_UPSTREAM_LINK < 6 →
    (∀ m, m < 6 → rd s .SPOKE_LINK_STATE_STATE m ≠ 2 ∨ ∀ a, (linkOf s m).syncAt = some a → a + 100000 ≤ max s.now t) →
    Runs (.upstreamTimeout t) s fun v =>
      rd v .SPOKE_CAD_UPSTREAM_LINK = 7 ∧ rd v .SPOKE_FAB_STATUS_CAD_STATE = 3 ∧ v.fab.holdSince = some (max s.now t) ∧
      Frame [.fab, .now, .rep] (reportFlds ++ [.SPOKE_CAD_UPSTREAM_LINK, .SPOKE_FAB_STATUS_CAD_STATE]) s v) ∧
  (∀ (s : State) (t l b : Nat), l = rd s .SPOKE_CAD_UPSTREAM_LINK → l < 6 →
    rd s .SPOKE_LINK_STATE_STATE l ≠ 2 ∨ (∀ a, (linkOf s l).syncAt = some a → a + 100000 ≤ max s.now t) →
    bestUpstream (tick s t) = some b → Runs (.upstreamTimeout t) s fun v =>
      rd v .SPOKE_CAD_UPSTREAM_LINK = b ∧ rd v .SPOKE_CAD_UPSTREAM_HOPS = min 63 ((linkOf s b).syncHops + 1) ∧
      rd v .SPOKE_CAD_UPSTREAM_GM = (linkOf s b).syncGm ∧ v.now = max s.now t ∧
      Frame [.fab, .now, .rep] (reportFlds ++ cadenceFlds) s v) ∧
  (∀ (s : State) (t : Nat), max s.now t / slotNs % 250 ≠ 0 → Runs (.syncSend t) s fun v => KeptBut [.now] s v ∧ RegsKept [] s v) ∧
  (∀ (s : State) (t h : Nat), s.fab.holdSince = some h → h + 20000000 ≤ max s.now t → rd s .SPOKE_FAB_STATUS_CAD_STATE = 3 →
    Runs (.holdoverTimeout t) s fun v =>
      rd v .SPOKE_FAB_STATUS_CAD_STATE = 4 ∧ Frame [.now, .rep] (reportFlds ++ [.SPOKE_FAB_STATUS_CAD_STATE]) s v) ∧
  (∀ (s : State) (t l : Nat) (b : HelloBody), l < 6 → rd s .SPOKE_LINK_STATE_STATE l = 1 ∨ rd s .SPOKE_LINK_STATE_STATE l = 2 →
    (b.link ≠ opposite l ∨ b.sizeX ≠ rd s .SPOKE_FAB_CFG_SIZE_X ∨ b.sizeY ≠ rd s .SPOKE_FAB_CFG_SIZE_Y ∨
        b.sizeZ ≠ rd s .SPOKE_FAB_CFG_SIZE_Z ∨ b.wrap ≠ rd s .SPOKE_FAB_CFG_WRAP ∨
        (helloLive s b = true ∧ ∀ a, implied s l b = some a →
          a ≠ ownAddr s ∧ (rd s .SPOKE_FAB_ADDR_ASSIGNED = 1 ∨ s.fab.addrWritten = true)) → Runs (.hello t l b) s fun v =>
      rd v .SPOKE_LINK_STATE_STATE l = 5 ∧ rd v .SPOKE_LINK_STATE_PEER l = b.addr % 4096 ∧ ownAddr v = ownAddr s ∧
      Frame [.fab, .now, .rep] (linkFlds ++ [.SPOKE_LINK_STATE_PEER]) s v) ∧
    (∀ a, b.link = opposite l → b.sizeX = rd s .SPOKE_FAB_CFG_SIZE_X → b.sizeY = rd s .SPOKE_FAB_CFG_SIZE_Y →
      b.sizeZ = rd s .SPOKE_FAB_CFG_SIZE_Z → b.wrap = rd s .SPOKE_FAB_CFG_WRAP → helloLive s b = true → implied s l b = some a →
      rd s .SPOKE_FAB_ADDR_ASSIGNED ≠ 1 ∨ a = ownAddr s → s.fab.addrWritten = false ∨ a = ownAddr s →
      Runs (.hello t l b) s fun v =>
        rd v .SPOKE_FAB_ADDR_ADDR = a ∧ rd v .SPOKE_FAB_ADDR_ASSIGNED = 1 ∧ rd v .SPOKE_LINK_STATE_STATE l = rd s .SPOKE_LINK_STATE_STATE l ∧
        Frame [.fab, .now, .rep] [.SPOKE_LINK_STATE_PEER, .EPOCH_ENTRY_EPOCH, .EPOCH_ENTRY_STATE, .SPOKE_FAB_ADDR_ADDR,
          .SPOKE_FAB_ADDR_ASSIGNED, .SPOKE_FAB_STATUS_STATE] s v) ∧
    (b.link = opposite l → b.sizeX = rd s .SPOKE_FAB_CFG_SIZE_X → b.sizeY = rd s .SPOKE_FAB_CFG_SIZE_Y →
      b.sizeZ = rd s .SPOKE_FAB_CFG_SIZE_Z → b.wrap = rd s .SPOKE_FAB_CFG_WRAP → helloLive s b = false → Runs (.hello t l b) s fun v =>
        rd v .SPOKE_LINK_STATE_PEER l = b.addr % 4096 ∧ KeptBut [.fab, .now, .rep] s v ∧ RegsKept [(.SPOKE_LINK_STATE_PEER, l)] s v)) ∧
  (∀ (s : State) (t l : Nat) (b : JoinBody), l < 6 → rd s .SPOKE_LINK_STATE_STATE l = 2 → ∀ a, a = b.addr % 4096 →
    (b.kind = 1 → rd s .EPOCH_ENTRY_STATE a ≠ 1 → Runs (.join t l b) s fun v =>
      rd v .EPOCH_ENTRY_STATE a = 1 ∧ rd v .EPOCH_ENTRY_EPOCH a = nextEpoch (rd s .EPOCH_ENTRY_EPOCH a) ∧
      (∃ p, .packet l p ∈ v.rep.outs ∧ p.type = 7 ∧ p.data = [a, 2, nextEpoch (rd s .EPOCH_ENTRY_EPOCH a), 0]) ∧
      Frame [.fab, .now, .rep] (reportFlds ++ [.EPOCH_ENTRY_EPOCH, .EPOCH_ENTRY_STATE]) s v) ∧
    (b.kind = 1 → rd s .EPOCH_ENTRY_STATE a = 1 → Runs (.join t l b) s fun v =>
      (∃ p, .packet l p ∈ v.rep.outs ∧ p.type = 7 ∧ p.data = [a, 3, 0, 1]) ∧ KeptBut [.fab, .now, .rep] s v ∧ RegsKept [] s v) ∧
    (b.kind = 2 → a = ownAddr s → wantsJoin s = true → (cadOffset s).natAbs ≤ 1000 ∨ steppable s = true →
      Runs (.join t l b) s fun v =>
        rd v .SPOKE_FAB_STATUS_STATE = 2 ∧ rd v .SPOKE_FAB_ADDR_EPOCH = b.epoch ∧ rd v .SPOKE_FAB_STATUS_SETTLED = 0 ∧
        rd v .EPOCH_ENTRY_STATE a = 1 ∧ v.fab.grantAt = some (max s.now t) ∧
        Frame [.fab, .now, .rep] (reportFlds ++ [.EPOCH_ENTRY_EPOCH, .EPOCH_ENTRY_STATE, .SPOKE_FAB_ADDR_EPOCH,
          .SPOKE_FAB_STATUS_STATE, .SPOKE_FAB_STATUS_SETTLED]) s v) ∧
    (b.kind = 3 → b.reason = 1 → a = ownAddr s → wantsJoin s = true → Runs (.join t l b) s fun v =>
      v.fab.joinRetry = some (max s.now t + 10000000) ∧ Frame [.fab, .now, .rep] reportFlds s v) ∧
    (b.kind = 3 → b.reason ≠ 1 → a = ownAddr s → wantsJoin s = true → Runs (.join t l b) s fun v =>
      v.fab.joinRetry = s.fab.joinRetry ∧ Frame [.fab, .now, .rep] reportFlds s v) ∧
    (b.kind = 2 → a = ownAddr s → wantsJoin s = true → 1000 < (cadOffset s).natAbs → steppable s = false →
      Runs (.join t l b) s fun v => rd v .SPOKE_FAB_STATUS_STATE = rd s .SPOKE_FAB_STATUS_STATE ∧
        Frame [.fab, .now, .rep] reportFlds s v) ∧
    (b.kind ≠ 1 → a ≠ ownAddr s ∨ wantsJoin s = false → Runs (.join t l b) s fun v =>
      KeptBut [.fab, .now, .rep] s v ∧ RegsKept [] s v)) ∧
  (∀ (s : State) (t r l : Nat) (b : HelloBody) (ls : List (Nat × HelloBody)), s.fab.joinRetry = some r → r ≤ max s.now t →
    wantsJoin s = true → liveLinks s = (l, b) :: ls → Runs (.joinRetry t) s fun v =>
      v.fab.joinRetry = none ∧ (∃ p, .packet l p ∈ v.rep.outs ∧ p.type = 7 ∧ p.dst = b.addr ∧ p.data = [ownAddr s, 1, 0, 0]) ∧
      KeptBut [.fab, .now, .rep] s v ∧ RegsKept [] s v) ∧
  (∀ (s : State) (t g : Nat), s.fab.grantAt = some g → g + 1000000 ≤ max s.now t → Runs (.settledTimer t) s fun v =>
      rd v .SPOKE_FAB_STATUS_SETTLED = 1 ∧ v.fab.grantAt = none ∧ KeptBut [.fab, .now] s v ∧
      RegsKept [(.SPOKE_FAB_STATUS_SETTLED, 0)] s v) ∧
  (∀ (s : State) (t l : Nat) (b : EpochBody), l < 6 → rd s .SPOKE_LINK_STATE_STATE l = 2 → ∀ a, a = b.addr % 4096 →
    (∀ taken : Prop, (taken ↔ serialAhead b.epoch (rd s .EPOCH_ENTRY_EPOCH a) = true ∨
        (b.epoch = rd s .EPOCH_ENTRY_EPOCH a ∧ b.st = 2 ∧ rd s .EPOCH_ENTRY_STATE a = 1)) →
      (b.st = 2 ∨ b.st = 3 → taken → a = ownAddr s → rd s .SPOKE_FAB_ADDR_ASSIGNED = 1 → Runs (.epoch t l b) s fun v =>
        rd v .SPOKE_FAB_STATUS_STATE = 5 ∧ rd v .SPOKE_FAB_STATUS_SETTLED = 0 ∧ (∀ d, rd v .EPOCH_ENTRY_STATE d = 0) ∧ v.mem = s.mem) ∧
      (b.st = 1 ∨ b.st = 2 ∨ b.st = 3 → taken → a ≠ ownAddr s ∨ b.st = 1 ∨ rd s .SPOKE_FAB_ADDR_ASSIGNED ≠ 1 → Runs (.epoch t l b) s fun v =>
      rd v .EPOCH_ENTRY_EPOCH a = b.epoch ∧ rd v .EPOCH_ENTRY_STATE a = b.st ∧ v.mem = s.mem ∧
      (∀ d, d ≠ a → rd v .EPOCH_ENTRY_STATE d = rd s .EPOCH_ENTRY_STATE d ∧ rd v .EPOCH_ENTRY_EPOCH d = rd s .EPOCH_ENTRY_EPOCH d) ∧
      (b.st ≠ 2 → Frame [.fab, .now, .rep] (reportFlds ++ [.EPOCH_ENTRY_EPOCH, .EPOCH_ENTRY_STATE]) s v))) ∧
    (serialAhead b.epoch (rd s .EPOCH_ENTRY_EPOCH a) = false →
      b.epoch ≠ rd s .EPOCH_ENTRY_EPOCH a ∨ b.st ≠ 2 ∨ rd s .EPOCH_ENTRY_STATE a ≠ 1 →
      Runs (.epoch t l b) s fun v => KeptBut [.fab, .now, .rep] s v ∧ RegsKept [] s v)) ∧
  (∀ (s : State) (t x : Nat), s.fab.allLostAt = some x → x + 200000 ≤ max s.now t → allLost s = true →
    rd s .SPOKE_FAB_STATUS_STATE ∈ [2, 3, 4] → Runs (.selfDeadTimeout t) s fun v =>
      rd v .SPOKE_FAB_STATUS_STATE = 5 ∧ rd v .SPOKE_FAB_STATUS_SETTLED = 0 ∧ (∀ a, rd v .EPOCH_ENTRY_STATE a = 0) ∧
      (∀ a, rd v .EPOCH_ENTRY_EPOCH a = rd s .EPOCH_ENTRY_EPOCH a) ∧ v.mem = s.mem) ∧
  (∀ (s : State) (t l reporter lost rlink : Nat), l < 6 → rd s .SPOKE_LINK_STATE_STATE l = 2 →
    ∀ declared : Prop, (declared ↔ (∃ m, m < 6 ∧ rd s .SPOKE_LINK_STATE_STATE m = 6 ∧ peerOf s m = lost) ∧
      declarer s lost = true ∧ rd s .EPOCH_ENTRY_STATE lost = 1 ∧
      ∀ a ∈ liveNeighbours s lost, a = reporter ∨ (a, lost) ∈ s.fab.reports) →
    (¬ declared → Runs (.linklost t l reporter lost rlink) s fun v =>
      (reporter, lost) ∈ v.fab.reports ∧ KeptBut [.fab, .now, .rep] s v ∧ RegsKept [] s v) ∧
    (declared → Runs (.linklost t l reporter lost rlink) s fun v =>
      rd v .EPOCH_ENTRY_STATE lost = 2 ∧ rd v .EPOCH_ENTRY_EPOCH lost = nextEpoch (rd s .EPOCH_ENTRY_EPOCH lost) ∧ v.mem = s.mem)) ∧
  (∀ (s : State) (t l x : Nat), l < 6 → rd s .SPOKE_LINK_STATE_STATE l = 6 → (linkOf s l).lostAt = some x →
    x + 100000 ≤ max s.now t →
    (Runs (.declareTimeout t l true) s fun v => LinkGone v l ∧ Frame [.fab, .now, .rep] linkFlds s v) ∧
    (∀ m, m = peerOf s l → declarer s m = true → rd s .EPOCH_ENTRY_STATE m = 1 → Runs (.declareTimeout t l false) s fun v =>
      rd v .EPOCH_ENTRY_STATE m = 2 ∧ rd v .EPOCH_ENTRY_EPOCH m = nextEpoch (rd s .EPOCH_ENTRY_EPOCH m) ∧
      rd v .SPOKE_LINK_STATE_STATE l = 0 ∧ v.mem = s.mem) ∧
    (declarer s (peerOf s l) = false → rd s .EPOCH_ENTRY_STATE (peerOf s l) = 1 → Runs (.declareTimeout t l false) s fun v =>
      KeptBut [.now] s v ∧ RegsKept [] s v) ∧
    (rd s .EPOCH_ENTRY_STATE (peerOf s l) ≠ 1 → Runs (.declareTimeout t l false) s fun v =>
      rd v .SPOKE_LINK_STATE_STATE l = 0 ∧ Frame [.fab, .now, .rep] linkFlds s v)) ∧
  (∀ (s : State) (src : Src) (t addr : Nat), isMgmt s src = true → ∀ a, a = addr % 4096 →
    (rd s .SPOKE_FAB_ADDR_ASSIGNED ≠ 1 → inFabric s a = true → liveLinks s = [] → Runs (.spokeFabAddrWrite src t addr) s fun v =>
      rd v .SPOKE_FAB_ADDR_ADDR = a ∧ rd v .SPOKE_FAB_ADDR_ASSIGNED = 1 ∧ rd v .SPOKE_FAB_ADDR_EPOCH = 1 ∧
      rd v .SPOKE_FAB_STATUS_STATE = 2 ∧ rd v .EPOCH_ENTRY_STATE a = 1 ∧ rd v .EPOCH_ENTRY_EPOCH a = 1 ∧
      Frame [.fab, .now, .rep] (reportFlds ++ [.EPOCH_ENTRY_EPOCH, .EPOCH_ENTRY_STATE, .SPOKE_FAB_ADDR_ADDR,
        .SPOKE_FAB_ADDR_ASSIGNED, .SPOKE_FAB_ADDR_EPOCH, .SPOKE_FAB_STATUS_STATE]) s v) ∧
    (rd s .SPOKE_FAB_ADDR_ASSIGNED = 1 ∨ inFabric s a = false → Runs (.spokeFabAddrWrite src t addr) s fun v =>
      KeptBut [.now] s v ∧ RegsKept [] s v) ∧
    (rd s .SPOKE_FAB_ADDR_ASSIGNED ≠ 1 → inFabric s a = true → liveLinks s ≠ [] → Runs (.spokeFabAddrWrite src t addr) s fun v =>
      rd v .SPOKE_FAB_ADDR_ADDR = a ∧ v.fab.addrWritten = true ∧
      (∀ e ∈ liveLinks s, implied s e.1 e.2 ≠ some a → rd v .SPOKE_LINK_STATE_STATE e.1 = 5) ∧
      ((∃ e ∈ liveLinks s, implied s e.1 e.2 = some a) → rd v .SPOKE_FAB_ADDR_ASSIGNED = 1 ∧ rd v .SPOKE_FAB_STATUS_STATE = 1 ∧
        ∃ m p, .packet m p ∈ v.rep.outs ∧ p.type = 7 ∧ p.data = [a, 1, 0, 0]) ∧
      Frame [.fab, .now, .rep] (linkFlds ++ [.SPOKE_FAB_ADDR_ADDR, .SPOKE_FAB_ADDR_ASSIGNED, .SPOKE_FAB_STATUS_STATE]) s v)) ∧
  (∀ (s : State) (src : Src) (t m : Nat), isMgmt s src = true → m < 4096 →
    (rd s .SPOKE_FAB_STATUS_STATE = 2 → m ≠ ownAddr s → rd s .EPOCH_ENTRY_STATE m = 1 → Runs (.fabDrain src t m) s fun v =>
      rd v .SPOKE_FAB_STATUS_STATE = 3 ∧ v.fab.successor = m ∧ v.serve.draining = true ∧
      Frame [.fab, .now, .rep, .serve] (reportFlds ++ [.SPOKE_FAB_STATUS_STATE]) s v) ∧
    (rd s .SPOKE_FAB_STATUS_STATE ≠ 2 ∨ m = ownAddr s ∨ rd s .EPOCH_ENTRY_STATE m ≠ 1 → Runs (.fabDrain src t m) s fun v =>
      rd v .SPOKE_FAB_STATUS_CMD_REJECTED = 1 ∧ KeptBut [.now] s v ∧ RegsKept [(.SPOKE_FAB_STATUS_CMD_REJECTED, 0)] s v) ∧
    (rd s .SPOKE_FAB_STATUS_STATE = 3 ∨ rd s .SPOKE_FAB_STATUS_STATE = 4 → Runs (.fabCancelDrain src t) s fun v =>
      rd v .SPOKE_FAB_STATUS_STATE = 2 ∧ v.serve.draining = false ∧
      Frame [.now, .rep, .serve] (reportFlds ++ [.SPOKE_FAB_STATUS_STATE]) s v) ∧
    (rd s .SPOKE_FAB_STATUS_STATE = 4 → Runs (.fabLeave src t) s fun v =>
      rd v .SPOKE_FAB_STATUS_STATE = 0 ∧ rd v .SPOKE_FAB_STATUS_SETTLED = 0 ∧ rd v .EPOCH_ENTRY_STATE (ownAddr s) = 3 ∧
      rd v .EPOCH_ENTRY_EPOCH (ownAddr s) = nextEpoch (rd s .EPOCH_ENTRY_EPOCH (ownAddr s)) ∧ v.serve.draining = false ∧
      Frame [.fab, .now, .rep, .serve] (reportFlds ++ [.EPOCH_ENTRY_EPOCH, .EPOCH_ENTRY_STATE, .SPOKE_FAB_STATUS_STATE,
        .SPOKE_FAB_STATUS_SETTLED]) s v)) ∧
  (∀ (s : State) (t moved : Nat), rd s .SPOKE_FAB_STATUS_STATE = 3 → (∀ e ∈ s.lard.roots, e.2.members = []) →
    s.fab.segments = [] → Runs (.drainComplete t moved) s fun v =>
      rd v .SPOKE_FAB_STATUS_STATE = 4 ∧ Frame [.now, .rep] (reportFlds ++ [.SPOKE_FAB_STATUS_STATE]) s v)
/-! ## Host interface -/

/-- The PCI Express link, its functions and their resets, the context windows, mailboxes, interrupts and filtered signals
(R397 to R412, R432, R434 to R436, Table 14-2). -/
def Obligations.HostInterfaceRuns : Prop :=
  (∀ (s : State) (t width rate : Nat),
    (rd s .PCIE_LINK_UP = 1 → Runs (.pcieLinkDown t) s fun v =>
      rd v .PCIE_LINK_UP = 0 ∧ rd v .PCIE_LINK_DOWNS = rd (inc s .PCIE_LINK_DOWNS) .PCIE_LINK_DOWNS ∧
      (∀ x ∈ s.serve.items, (x.ctx, x.idx) ∈ v.serve.aborting) ∧ v.serve.items = s.serve.items ∧
      KeptBut [.dbg, .now, .rep, .serve, .tt] s v ∧
      RegsKept [(.PCIE_LINK_UP, 0), (.PCIE_LINK_DOWNS, 0), (.EVC_STATUS_LINK, 0)] s v) ∧
    (rd s .PCIE_LINK_UP ≠ 1 → rd s .EVC_INPUTS_PERST ≠ 1 → rd s .BOOT_STATUS_RECOVERY ≠ 1 → 3 ≤ rd s .BOOT_STATUS_PHASE →
      rd s .LP_STATUS_STATE ≠ 4 → ∀ flit : Bool, Runs (.pcieLinkUp t width rate flit) s fun v =>
        rd v .PCIE_LINK_UP = 1 ∧ rd v .PCIE_LINK_WIDTH = width % 32 ∧ rd v .PCIE_LINK_RATE = rate % 8 ∧
        rd v .PCIE_LINK_FLIT = (if flit then 1 else 0) ∧
        rd v .PCIE_LINK_DEGRADED = (if width < 16 ∨ rate < 7 then 1 else 0) ∧ v.boot.wakeN = false ∧
        Frame [.boot, .dbg, .free, .now, .rep, .serve] (reportFlds ++ eventFlds ++ [.EVC_STATUS_LINK, .PCIE_LINK_UP,
          .PCIE_LINK_WIDTH, .PCIE_LINK_RATE, .PCIE_LINK_FLIT, .PCIE_LINK_DEGRADED]) s v) ∧
    (rd s .PCIE_LINK_UP = 1 → Runs (.pcieLinkRetrain t width rate) s fun v =>
        rd v .PCIE_LINK_WIDTH = width % 32 ∧ rd v .PCIE_LINK_RATE = rate % 8 ∧ rd v .EVC_STATUS_LINK = 1 ∧
        rd v .PCIE_LINK_DEGRADED = (if width < 16 ∨ rate < 7 then 1 else 0) ∧
        Frame [.free, .now, .rep] (reportFlds ++ [.EVC_STATUS_LINK, .PCIE_LINK_WIDTH, .PCIE_LINK_RATE, .PCIE_LINK_DEGRADED]) s v)) ∧
  (∀ (s : State) (t c i : Nat) (x : Item), itemAt s c i = some x → x.opcode ∉ [5, 0x10, 0x12] → unwaited s (c, i) →
    ∀ late : Bool, Runs (.hostReadFailure t (.item c i) late) s fun v =>
      itemAt v c i = none ∧
      rd v .PCIE_CPL_TIMEOUT = (if late then rd (inc s .PCIE_CPL_TIMEOUT) .PCIE_CPL_TIMEOUT else rd s .PCIE_CPL_TIMEOUT) ∧
      Frame [.lard, .now, .rep, .serve, .tt] (itemFlds ++ [.PCIE_CPL_TIMEOUT]) s v) ∧
  (∀ (s : State) (t c i : Nat) (x : Item), itemAt s c i = some x → unwaited s (c, i) →
    (x.opcode = 5 → (∀ m, modelAt s x.model = some m → m.owner = (c, i)) → Runs (.hostReadFailure t (.item c i) false) s fun v =>
      itemAt v c i = none ∧ modelAt v x.model = none ∧ Frame [.lard, .now, .rep, .serve, .tt] itemFlds s v) ∧
    (x.opcode = 0x10 → x.stop = 0 → ∀ k, x.slot = some k → Runs (.hostReadFailure t (.item c i) false) s fun v =>
      v.pann.edits = s.pann.edits ++ [⟨k, freeEntry, some (c, i, 0x23, 0x05)⟩] ∧ KeptBut [.now, .pann, .serve, .tt] s v ∧
      RegsKept [] s v) ∧
    (x.opcode = 0x12 → x.stop = 0 → ∀ k n j, x.slot = some k → jobOf s k = some (n, j) →
      Runs (.hostReadFailure t (.item c i) false) s fun v =>
        itemAt v c i = none ∧ storeFind v.pann.jobs n = none ∧ rd v .TRAIN_JOBS_OPEN = v.pann.jobs.length ∧
        Frame [.lard, .now, .pann, .rep, .serve, .tt] (itemFlds ++ [.TRAIN_JOBS_OPEN]) s v)) ∧
  (∀ (s : State) (t c : Nat),
    ((queueOf s c).ringFails < 2 → Runs (.hostReadFailure t (.control c) false) s fun v =>
      (queueOf v c).ringFails = (queueOf s c).ringFails + 1 ∧ KeptBut [.now, .serve] s v ∧ RegsKept [] s v) ∧
    (2 ≤ (queueOf s c).ringFails → Runs (.hostReadFailure t (.control c) false) s fun v =>
      rd v .SERVE_CTRL_ENABLE c = 0 ∧ rd v .SERVE_CTRL_FAULTED c = 1 ∧
      Frame [.now, .rep, .serve] (eventFlds ++ [.SERVE_CTRL_ENABLE, .SERVE_CTRL_FAULTED]) s v)) ∧
  (∀ (s : State) (t c : Nat), 1 ≤ c → c < 64 → rd s .CTX_STATE_STATE c = 1 ∨ rd s .CTX_STATE_STATE c = 2 →
    (Runs (.vfFlr t c) s fun v =>
      rd v .CTX_STATE_STATE c = 3 ∧ rd v .SERVE_CTRL_ENABLE c = 0 ∧ (∃ x, (c, x) ∈ v.ctxs.tearing) ∧ v.mem = s.mem ∧
      (∀ d, d ≠ c → rd v .CTX_STATE_STATE d = rd s .CTX_STATE_STATE d)) ∧
    (Runs (.vfEnableCleared t) s fun v =>
      rd v .CTX_STATE_STATE c = 3 ∧ rd v .SERVE_CTRL_ENABLE c = 0 ∧ (∃ x, (c, x) ∈ v.ctxs.tearing) ∧ v.mem = s.mem ∧
      rd v .CTX_STATE_STATE 0 = rd s .CTX_STATE_STATE 0)) ∧
  (∀ (s : State) (t : Nat), Runs (.vfEnableCleared t) s fun v =>
      (∀ c, 1 ≤ c → c < 64 → rd v .CTX_STATE_STATE c = if rd s .CTX_STATE_STATE c = 0 then 0 else 3) ∧ v.mem = s.mem) ∧
  (∀ (s : State) (t : Nat), s.boot.warm = none →
    (rd s .LP_STATUS_STATE < 2 → Runs (.pfFlr t) s fun v => WarmBegins s v 3 (max s.now t)) ∧
    (rd s .LP_STATUS_STATE ∈ [2, 3, 4] → Runs (.pfFlr t) s fun v =>
      v.boot.heldReset = some 3 ∧ ExitBegins s v 3 ∧ Frame [.boot, .now, .rep] exitFlds s v)) ∧
  (∀ (s : State) (t f : Nat), f < 64 →
    (Runs (.busMasterDisable t f false) s fun v => f ∈ v.ctxs.noMaster ∧ KeptBut [.ctxs, .now] s v ∧ RegsKept [] s v) ∧
    (Runs (.busMasterDisable t f true) s fun v => f ∉ v.ctxs.noMaster ∧ Frame [.ctxs, .now, .rep, .serve] eventFlds s v) ∧
    (∀ en : Bool, Runs (.memorySpaceDisable t f en) s fun v =>
      (f ∈ v.ctxs.noMemory ↔ en = false) ∧ KeptBut [.ctxs, .now] s v ∧ RegsKept [] s v)) ∧
  (∀ (s : State) (t : Nat),
    (rd s .EVC_INPUTS_PERST ≠ 1 → rd s .LP_STATUS_STATE = 4 → Runs (.perstAssert t) s fun v =>
      rd v .EVC_INPUTS_PERST = 1 ∧ KeptBut [.now] s v ∧ RegsKept [(.EVC_INPUTS_PERST, 0)] s v) ∧
    (rd s .EVC_INPUTS_PERST ≠ 1 → rd s .LP_STATUS_STATE ≠ 4 → s.boot.failing = false → Runs (.perstAssert t) s fun v =>
      rd v .EVC_INPUTS_PERST = 1 ∧ rd v .PCIE_LINK_UP ≠ 1 ∧ rd v .RESET_STATUS_LAST_KIND = 3 ∧ v.mem = s.mem ∧
      (∀ c, 1 ≤ c → c < 64 → rd s .CTX_STATE_STATE c = 1 ∨ rd s .CTX_STATE_STATE c = 2 → rd v .CTX_STATE_STATE c = 3) ∧
      (∀ x ∈ s.serve.items, x.ctx = 0 → (0, x.idx) ∈ v.serve.aborting)) ∧
    (rd s .EVC_INPUTS_PERST = 1 ∨ s.boot.failing = true → Runs (.perstAssert t) s fun v =>
      rd v .EVC_INPUTS_PERST = 1 ∧ KeptBut [.now] s v ∧ RegsKept [(.EVC_INPUTS_PERST, 0)] s v) ∧
    (rd s .EVC_INPUTS_PERST = 1 → rd s .LP_STATUS_STATE ≠ 4 → Runs (.perstDeassert t) s fun v =>
      rd v .EVC_INPUTS_PERST = 0 ∧ s.boot.coldAt + 100000000 ≤ v.now ∧ KeptBut [.now] s v ∧ RegsKept [(.EVC_INPUTS_PERST, 0)] s v) ∧
    (rd s .EVC_INPUTS_PERST = 1 → rd s .LP_STATUS_STATE = 4 → Runs (.perstDeassert t) s fun v =>
      rd v .EVC_INPUTS_PERST = 0 ∧ ExitBegins s v 5 ∧ Frame [.boot, .now, .rep] (.EVC_INPUTS_PERST :: exitFlds) s v)) ∧
  (∀ (s : State) (t c : Nat), c < 64 → c ∉ s.ctxs.noMemory → ∀ now, now = max s.now t →
    (∀ high : Bool, Runs (.ctxwinCadenceRead t c 8 high) s fun v =>
      v.rep.outs = s.rep.outs ++ [.readData (now % 2 ^ 64)] ∧ KeptBut [.now, .rep] s v ∧ RegsKept [] s v) ∧
    (Runs (.ctxwinCadenceRead t c 4 false) s fun v =>
      v.rep.outs = s.rep.outs ++ [.readData (now % 2 ^ 32)] ∧ storeFind v.ctxs.latched c = some (now / 2 ^ 32 % 2 ^ 32) ∧
      KeptBut [.ctxs, .now, .rep] s v ∧ RegsKept [] s v) ∧
    (∀ x, storeFind s.ctxs.latched c = some x → Runs (.ctxwinCadenceRead t c 4 true) s fun v =>
      v.rep.outs = s.rep.outs ++ [.readData x] ∧ storeFind v.ctxs.latched c = none ∧ KeptBut [.ctxs, .now, .rep] s v ∧
      RegsKept [] s v) ∧
    (storeFind s.ctxs.latched c = none → Runs (.ctxwinCadenceRead t c 4 true) s fun v =>
      v.rep.outs = s.rep.outs ++ [.readData (now / 2 ^ 32 % 2 ^ 32)] ∧ KeptBut [.ctxs, .now, .rep] s v ∧ RegsKept [] s v)) ∧
  (∀ (s : State) (src : Src) (c : Nat) (pf : Bool), 1 ≤ c → c < 64 → mayWrite s src .MBX_CTRL_OVERRUN (mbxSide c pf) = true →
    (rd s .MBX_CTRL_OUT_BUSY (mbxSide c pf) ≠ 1 → Runs (.mbxSend src c pf) s fun v =>
      rd v .MBX_CTRL_OUT_BUSY (mbxSide c pf) = 1 ∧ rd v .MBX_CTRL_IN_FULL (mbxSide c (!pf)) = 1 ∧
      (∀ i, i < 256 → pf = true → storeGet 0 v.ctxs.mbox (c * 1024 + i) = storeGet 0 s.ctxs.mbox (c * 1024 + 0x300 + i)) ∧
      (∀ i, i < 256 → pf = false → storeGet 0 v.ctxs.mbox (c * 1024 + 0x200 + i) = storeGet 0 s.ctxs.mbox (c * 1024 + 0x100 + i)) ∧
      (pf = false → bitAt (rd v .EVC_MBX_PENDING) (c - 1) = true) ∧ KeptBut [.ctxs, .rep] s v ∧
      RegsKept [(.MBX_CTRL_OUT_BUSY, mbxSide c pf), (.MBX_CTRL_IN_FULL, mbxSide c (!pf)), (.EVC_MBX_PENDING, 0)] s v) ∧
    (rd s .MBX_CTRL_OUT_BUSY (mbxSide c pf) = 1 → Runs (.mbxSend src c pf) s fun v =>
      rd v .MBX_CTRL_OVERRUN (mbxSide c pf) = 1 ∧ KeptBut [] s v ∧ RegsKept [(.MBX_CTRL_OVERRUN, mbxSide c pf)] s v) ∧
    (Runs (.mbxAck src c pf) s fun v =>
      rd v .MBX_CTRL_IN_FULL (mbxSide c pf) = 0 ∧ rd v .MBX_CTRL_OUT_BUSY (mbxSide c (!pf)) = 0 ∧ KeptBut [] s v ∧
      RegsKept [(.MBX_CTRL_IN_FULL, mbxSide c pf), (.MBX_CTRL_OUT_BUSY, mbxSide c (!pf))] s v)) ∧
  (∀ (s : State) (t e : Nat) (w : IrqSource) (ws : List IrqSource), (pfTarget s e).waiting = w :: ws →
    (∀ l, (pfTarget s e).lastSent = some l → l + rd s .EVC_MOD e * 1000 ≤ max s.now t) → Runs (.moderationExpiry t e) s fun v =>
      (pfTarget v e).lastSent = some (max s.now t) ∧ w ∉ (pfTarget v e).waiting ∧ KeptBut [.now, .rep] s v ∧ RegsKept [] s v) ∧
  (∀ (s : State) (fn e : Nat), fn < 64 → e < msixEntries fn →
    (Runs (.msixMask fn (some e)) s fun v => msixMasked v fn e = true ∧ KeptBut [.rep] s v ∧ RegsKept [] s v) ∧
    (Runs (.msixMask fn none) s fun v => (∀ x, msixMasked v fn x = true) ∧ KeptBut [.rep] s v ∧ RegsKept [] s v) ∧
    (s.rep.pendingSrc = [] → storeGet false s.rep.msixPending (msixKey fn e) = false ∨ storeGet false s.rep.fnMask fn = true →
      (∀ x, x < msixEntries fn → x ≠ e → storeGet false s.rep.msixPending (msixKey fn x) = false ∨ msixMasked s fn x = true) →
      Runs (.msixUnmask fn (some e)) s fun v =>
        storeGet true v.rep.msixMask (msixKey fn e) = false ∧ v.rep.outs = s.rep.outs ∧ KeptBut [.rep] s v ∧ RegsKept [] s v) ∧
    (Runs (.msixUnmask fn (some e)) s fun v =>
      storeGet true v.rep.msixMask (msixKey fn e) = false ∧ (∀ x, x < msixEntries fn → x ≠ e → msixMasked v fn x = msixMasked s fn x) ∧
      KeptBut [.rep] s v ∧ RegsKept [] s v) ∧
    (Runs (.msixUnmask fn none) s fun v =>
      (∀ x, msixMasked v fn x = storeGet true s.rep.msixMask (msixKey fn x)) ∧
      (∀ x, x < msixEntries fn → storeGet true s.rep.msixMask (msixKey fn x) = false →
        storeGet false s.rep.msixPending (msixKey fn x) = true → .msix ⟨fn, x⟩ ∈ v.rep.outs) ∧
      KeptBut [.rep] s v ∧ RegsKept [] s v) ∧
    (s.rep.pendingSrc = [] → storeGet false s.rep.msixPending (msixKey fn e) = true → storeGet false s.rep.fnMask fn = false →
      Runs (.msixUnmask fn (some e)) s fun v =>
        msixMasked v fn e = false ∧ storeGet false v.rep.msixPending (msixKey fn e) = false ∧ .msix ⟨fn, e⟩ ∈ v.rep.outs ∧
        KeptBut [.rep] s v ∧ RegsKept [] s v)) ∧
  (∀ (s : State) (t x : Nat),
    (s.boot.slotSampled = false → Runs (.slotIdSample t x) s fun v =>
      rd v .EVC_INPUTS_SLOT_ID = x % 64 ∧ v.boot.slotSampled = true ∧ KeptBut [.boot, .now] s v ∧ RegsKept [(.EVC_INPUTS_SLOT_ID, 0)] s v) ∧
    (s.boot.slotSampled = true → x % 64 ≠ rd s .EVC_INPUTS_SLOT_ID → Runs (.slotIdChange t x) s fun v =>
      rd v .EVC_INPUTS_SLOT_ID = rd s .EVC_INPUTS_SLOT_ID ∧ v.freeNext = s.freeNext + 1 ∧ Frame [.free, .now, .rep] reportFlds s v) ∧
    (Runs (.inputGlitch t) s fun v =>
      rd v .EVC_GLITCHES = rd (inc s .EVC_GLITCHES) .EVC_GLITCHES ∧ KeptBut [.now] s v ∧ RegsKept [(.EVC_GLITCHES, 0)] s v) ∧
    (rd s .PCIE_LINK_UP = 1 → x < 3 → Runs (.doeDiscovery x) s fun v =>
      v.rep.outs = s.rep.outs ++ [.answer 4 x 0 [1, x, (x + 1) % 3]] ∧ KeptBut [.rep] s v ∧ RegsKept [] s v))
/-! ## Start-up, resets and low power -/

/-- Start-up (R428 to R433, R444, R465, Table 15-6), hub resets and warm resets (R302, R434, R435, R442). -/
def Obligations.StartUpAndResetsRun : Prop :=
  (∀ (s : State) (seenA seenB : Nat) (cores chans : List Nat), let p := (liveSelection s).preferred;
    (Runs (.coldStart seenA seenB cores chans) s fun v => ColdStarted s v) ∧
    (imageState s p = 2 → firstCheck s p (if p = 0 then seenA else seenB) = 0 → Runs (.coldStart seenA seenB cores chans) s fun v =>
      rd v .BOOT_STATUS_PHASE = 7 ∧ rd v .BOOT_STATUS_IMAGE = p ∧ rd v .BOOT_STATUS_FALLBACK = 0 ∧
      rd v .BOOT_STATUS_RECOVERY = 0 ∧ rd v .BOOT_STATUS_FAIL_CHECK = 0) ∧
    (imageState s 0 = 0 → imageState s 1 = 0 → p < 2 → Runs (.coldStart seenA seenB cores chans) s fun v =>
      rd v .BOOT_STATUS_PHASE = 1 ∧ rd v .BOOT_STATUS_RECOVERY = 1) ∧
    (∀ t a, s.pwr.hotswapOff = some a → a + 1000000000 ≤ max s.now t → Runs (.hotswapRestart t seenA seenB cores chans) s fun v =>
      ColdStarted s v ∧ v.pwr.hotswapOff = none)) ∧
  (∀ (s : State) (t : Nat), rd s .BOOT_STATUS_PHASE = 7 → Runs (.bootReady t) s fun v =>
      rd v .BOOT_STATUS_PHASE = 8 ∧ rd v .BOOT_MS = min ((max s.now t - s.boot.coldAt) / 1000000) 65535 ∧
      (rd s .BOOT_STATUS_IMAGE < 2 → imageState s (rd s .BOOT_STATUS_IMAGE) = 1 → imageState v (rd s .BOOT_STATUS_IMAGE) = 2) ∧
      (∀ c, c < 384 → rd v .HBM_CH_STATE_STATE c = if rd s .HBM_CH_STATE_STATE c = 3 then 0 else rd s .HBM_CH_STATE_STATE c) ∧
      Frame [.boot, .now, .rep] (reportFlds ++ [.BOOT_STATUS_PHASE, .BOOT_MS, .HBM_CH_STATE_STATE]) s v) ∧
  (∀ (s : State) (t : Nat), 1 ≤ rd s .BOOT_STATUS_PHASE → rd s .BOOT_STATUS_PHASE < 8 → rd s .BOOT_STATUS_RECOVERY ≠ 1 →
    s.boot.warm = none →
    (s.boot.coldAt + 10000000000 ≤ max s.now t → Runs (.bootWatchdog t 0) s fun v =>
      rd v .BOOT_STATUS_PHASE = 0 ∧ rd v .PCIE_LINK_UP = 0 ∧ v.boot.watchdog = true ∧ v.rep.toWrite = [] ∧
      KeptBut [.boot, .now, .rep] s v ∧ RegsKept [(.BOOT_STATUS_PHASE, 0), (.PCIE_LINK_UP, 0)] s v) ∧
    (∀ check, check = 6 ∨ check = 9 → Runs (.bootWatchdog t check) s fun v =>
      rd v .BOOT_STATUS_PHASE = 0 ∧ rd v .BOOT_STATUS_FAIL_CHECK = check ∧ imageState v (rd s .BOOT_STATUS_IMAGE) = 0 ∧
      v.boot.watchdog = true ∧
      Frame [.boot, .now, .rep] (reportFlds ++ [.BOOT_STATUS_PHASE, .PCIE_LINK_UP, .BOOT_STATUS_FAIL_CHECK]) s v)) ∧
  (∀ (s : State) (t : Nat), s.boot.shadow.isSome = true → Runs (.bootWatchdog t 0x10) s fun v =>
      rd v .BOOT_STATUS_PHASE = 0 ∧ rd v .PCIE_LINK_UP = 0 ∧ v.boot.watchdog = true ∧ v.rep.toWrite = [] ∧
      KeptBut [.boot, .now, .rep] s v ∧ RegsKept [(.BOOT_STATUS_PHASE, 0), (.PCIE_LINK_UP, 0)] s v) ∧
  (∀ (s : State) (src : Src) (t hub : Nat), isMgmt s src = true →
    (rd s .RESET_STATUS_BUSY = 1 ∨ 159 < hub → Runs (.hubReset src t hub) s fun v =>
      rd v .RESET_STATUS_REJECTED = 1 ∧ KeptBut [.now] s v ∧ RegsKept [(.RESET_STATUS_REJECTED, 0)] s v) ∧
    (rd s .RESET_STATUS_BUSY ≠ 1 → hub < 160 → (∀ d ∈ s.dbg.dumps, d.1 ≠ hub) → Runs (.hubReset src t hub) s fun v =>
      rd v .RESET_STATUS_BUSY = 1 ∧ rd v .RESET_STATUS_LAST_KIND = 1 ∧ rd v .INTEG_HUB_OUT hub = 1 ∧
      storeFind v.boot.hubResets hub = some (2 + 8 * (max s.now t + 1)) ∧ (∀ p, p < 66 → queueAt v (hub * 66 + p) = []) ∧
      (∀ a, a / 4096 < 0xC000000 ∨ 0xC200000 ≤ a / 4096 ∨ granuleHub (a / 4096) ≠ hub → readByte v a = readByte s a)) ∧
    (rd s .RESET_STATUS_BUSY ≠ 1 → hub < 160 → (∃ d ∈ s.dbg.dumps, d.1 = hub) → Runs (.hubReset src t hub) s fun v =>
      rd v .RESET_STATUS_BUSY = 1 ∧ rd v .RESET_STATUS_LAST_KIND = 1 ∧ rd v .INTEG_HUB_OUT hub = 1 ∧
      storeFind v.boot.hubResets hub = some 2 ∧ v.mem = s.mem) ∧
    (rd s .RESET_STATUS_BUSY = 1 → Runs (.warmReset src t) s fun v =>
      rd v .RESET_STATUS_REJECTED = 1 ∧ KeptBut [.now] s v ∧ RegsKept [(.RESET_STATUS_REJECTED, 0)] s v) ∧
    (rd s .RESET_STATUS_BUSY ≠ 1 → s.boot.warm = none → rd s .LP_STATUS_STATE < 2 → s.pwr.tripped = [] →
      Runs (.warmReset src t) s fun v => WarmBegins s v 1 (max s.now t)) ∧
    (∀ k, k = (if (endTrips (tick s t)).pwr.tripped.length < s.pwr.tripped.length then 4 else 1) → rd s .RESET_STATUS_BUSY ≠ 1 →
      s.boot.warm = none →
      (rd s .LP_STATUS_STATE < 2 → Runs (.warmReset src t) s fun v => WarmBegins s v k (max s.now t)) ∧
      (rd s .LP_STATUS_STATE ∈ [2, 3, 4] → Runs (.warmReset src t) s fun v =>
        v.boot.heldReset = some k ∧ ExitBegins s v 3 ∧ Frame [.boot, .now, .rep] exitFlds s v) ∧
      (rd s .LP_STATUS_STATE = 5 → Runs (.warmReset src t) s fun v =>
        v.boot.heldReset = some k ∧ v.boot.wakePending = true ∧ KeptBut [.boot, .now] s v ∧ RegsKept [] s v))) ∧
  (∀ (s : State) (t hub x : Nat), storeFind s.boot.hubResets hub = some x → 8 ≤ x → Runs (.hubResetComplete t hub []) s fun v =>
      storeFind v.boot.hubResets hub = none ∧ x / 8 - 1 + 2000000 ≤ v.now ∧
      (keptOut v hub = false → rd v .INTEG_HUB_OUT hub = 0) ∧
      (rd v .RESET_STATUS_BUSY = 0 ↔ v.boot.warm = none ∧ v.boot.hubResets = []) ∧ KeptBut [.boot, .now, .rep] s v ∧
      RegsKept [(.RESET_STATUS_BUSY, 0), (.INTEG_HUB_OUT, hub), (.DBG_HUB_STATUS_STATE, hub)] s v) ∧
  (∀ (s : State) (t hub x : Nat) (fails : List Nat), storeFind s.boot.hubResets hub = some x → 8 ≤ x →
    Runs (.hubResetComplete t hub fails) s fun v =>
      storeFind v.boot.hubResets hub = none ∧ x / 8 - 1 + 2000000 ≤ v.now ∧
      (rd v .RESET_STATUS_BUSY = 0 ↔ v.boot.warm = none ∧ v.boot.hubResets = []) ∧
      (∀ p ∈ fails, p < 66 → coreState s (hub * 66 + p) = 1 → coreState v (hub * 66 + p) = 3 ∨ coreState v (hub * 66 + p) = 4) ∧
      ((∀ p ∈ fails, p < 66 → coreState v (hub * 66 + p) = 4) → keptOut v hub = false → rd v .INTEG_HUB_OUT hub = 0)) ∧
  (∀ (s : State) (t k b : Nat), s.boot.warm = some (k, b) → Runs (.warmResetComplete t []) s fun v =>
      v.serve.items = [] ∧ rd v .BOOT_STATUS_PHASE = 8 ∧ rd v .LP_STATUS_STATE = 1 ∧ v.serve.intakeStopped = false ∧
      v.boot.warm = none ∧ (∀ c, c < 384 → rd v .HBM_CH_STATE_STATE c = recordedChan s c) ∧
      v.mem = s.mem ∧ KeptBut [.boot, .lard, .now, .pwr, .rep, .serve, .tt] s v) ∧
  (∀ (s : State) (t k b : Nat) (fails : List Nat), s.boot.warm = some (k, b) → Runs (.warmResetComplete t fails) s fun v =>
      v.serve.items = [] ∧ rd v .BOOT_STATUS_PHASE = 8 ∧ rd v .LP_STATUS_STATE = 1 ∧ v.serve.intakeStopped = false ∧
      v.boot.warm = none ∧ (∀ h, h < 160 → rd v .INTEG_HUB_STATE h = 2 → rd v .INTEG_HUB_OUT h = 1))

/-- Low power (R437 to R442, Tables 15-8 and 15-9). -/
def Obligations.LowPowerRuns : Prop :=
  (∀ (s : State) (t : Nat) (depends : Bool), rd s .LP_STATUS_STATE = 1 → rd s .BOOT_STATUS_PHASE = 8 →
    (∀ st, lpBlocker (tick s t) depends = 0 → lpChoice (tick s t) = st → 2 ≤ st → Runs (.lpIdleSelect t depends) s fun v =>
      rd v .LP_STATUS_STATE = 5 ∧ rd v .LP_STATUS_TARGET = st ∧ v.boot.lpTarget = st ∧ rd v .LP_STATUS_BLOCKER = 0 ∧
      (∀ e, nextEvent s = some e → rd v .LP_NEXT_EVENT = e ∧ rd v .LP_WAKE_AT = e - lpWake st - lpMargin s) ∧
      KeptBut [.boot, .now] s v ∧ RegsKept [(.LP_STATUS_STATE, 0), (.LP_STATUS_TARGET, 0), (.LP_STATUS_BLOCKER, 0),
        (.LP_NEXT_EVENT, 0), (.LP_WAKE_AT, 0)] s v) ∧
    (∀ why, lpBlocker (tick s t) depends = why → why ≠ 0 → Runs (.lpIdleSelect t depends) s fun v =>
      rd v .LP_STATUS_STATE = 1 ∧ rd v .LP_STATUS_TARGET = 1 ∧ rd v .LP_STATUS_BLOCKER = why ∧ KeptBut [.now] s v ∧
      RegsKept [(.LP_STATUS_TARGET, 0), (.LP_STATUS_BLOCKER, 0), (.LP_NEXT_EVENT, 0)] s v)) ∧
  (∀ (s : State) (t : Nat), rd s .LP_STATUS_STATE = 5 → s.boot.wakePending = false → s.boot.lpTarget ∈ [2, 3, 4] →
    Runs (.lpEntryComplete t) s fun v =>
      rd v .LP_STATUS_STATE = min s.boot.lpTarget 3 ∧ (∀ k, queueAt v k = []) ∧
      (s.boot.lpTarget = 4 → rd v .LP_STATUS_KICKSTAND_READY = 1 ∧ rd v .LP_STATUS_BLOCKER = 6) ∧
      (s.boot.lpTarget = 2 → v.tt = s.tt ∧ v.core.sumq = s.core.sumq) ∧ v.pann = { s.pann with caches := [] } ∧
      (∀ a, onChip a = false → readByte v a = readByte s a) ∧ KeptBut [.boot, .core, .dbg, .mem, .now, .pann, .rep, .tt] s v) ∧
  (∀ (s : State) (t : Nat), rd s .LP_STATUS_STATE = 5 → s.boot.wakePending = true → s.boot.lpTarget ∈ [2, 3, 4] →
    Runs (.lpEntryComplete t) s fun v =>
      rd v .LP_STATUS_STATE = 6 ∧ v.boot.wakePending = false ∧ v.boot.lpFrom = min s.boot.lpTarget 3 ∧
      v.boot.lpReason = s.boot.lpReason ∧ (∀ k, queueAt v k = []) ∧
      (∀ a, onChip a = false → readByte v a = readByte s a) ∧ KeptBut [.boot, .core, .dbg, .mem, .now, .pann, .rep, .tt] s v) ∧
  (∀ (s : State) (t : Nat), rd s .LP_STATUS_STATE = 3 → rd s .LP_STATUS_KICKSTAND_READY = 1 →
    (Runs (.kickstandEntry t false) s fun v => rd v .LP_STATUS_STATE = 3 ∧ Frame [.now, .rep] reportFlds s v) ∧
    (Runs (.kickstandEntry t true) s fun v =>
      rd v .LP_STATUS_STATE = 4 ∧ rd v .PCIE_LINK_UP = 0 ∧ v.fab.links = [] ∧ v.mem = s.mem ∧
      KeptBut [.boot, .ctxs, .dbg, .fab, .mgt, .now, .rep, .serve] s v)) ∧
  (∀ (s : State) (src : Src) (t : Nat), rd s .LP_STATUS_STATE ∈ [2, 3, 4] →
    (rd s .LP_NEXT_EVENT ≠ noEvent →
      rd s .LP_WAKE_AT - (if rd s .LP_STATUS_STATE = 4 then (rd s .LP_WAKE_AT - s.boot.lpSince) * 20 / 1000000 else 0) ≤ max s.now t →
      Runs (.lpWakeTimer t) s fun v =>
      ExitBegins s v 2 ∧ Frame [.boot, .now, .rep] exitFlds s v) ∧
    (isMgmt s src = true → Runs (.lpWake src t) s fun v => ExitBegins s v 3 ∧ Frame [.boot, .now, .rep] exitFlds s v)) ∧
  (∀ (s : State) (src : Src) (t : Nat), isMgmt s src = true →
    (rd s .LP_STATUS_STATE = 5 → Runs (.lpWake src t) s fun v =>
      v.boot.wakePending = true ∧ v.boot.lpReason = 3 ∧ KeptBut [.boot, .now] s v ∧ RegsKept [] s v) ∧
    (rd s .LP_STATUS_STATE ∈ [0, 1, 6] → Runs (.lpWake src t) s fun v => KeptBut [.now] s v ∧ RegsKept [] s v)) ∧
  (∀ (s : State) (t : Nat), rd s .LP_STATUS_STATE = 6 →
    (∀ k, s.boot.heldCmd = none → s.boot.heldReset = some k → s.boot.warm = none → Runs (.lpExitComplete t) s fun v =>
      v.boot.heldReset = none ∧ v.boot.warm = some (k, v.now) ∧ rd v .RESET_STATUS_BUSY = 1 ∧ rd v .RESET_STATUS_LAST_KIND = 2 ∧
      rd v .BOOT_STATUS_PHASE = 3 ∧ v.serve.items = s.serve.items) ∧
    (∀ x, s.boot.heldCmd = some x → s.boot.heldReset = none → Runs (.lpExitComplete t) s fun v =>
      ∃ w, settle s (runCtxCmd w x.1 x.2.1 x.2.2) = .next v ∧ rd w .LP_STATUS_STATE = 1 ∧ rd w .BOOT_STATUS_PHASE = 8 ∧
        w.boot.heldCmd = none ∧ rd w .CTX_CMD_STATUS_BUSY = 0 ∧ w.serve.items = s.serve.items ∧
        s.boot.lpSince + lpWake s.boot.lpFrom ≤ w.now)) ∧
  (∀ (s : State) (t : Nat), rd s .LP_STATUS_STATE = 6 → s.boot.heldCmd = none → s.boot.heldReset = none →
    Runs (.lpExitComplete t) s fun v =>
      rd v .LP_STATUS_STATE = 1 ∧ rd v .LP_STATUS_TARGET = 1 ∧ rd v .BOOT_STATUS_PHASE = 8 ∧
      s.boot.lpSince + lpWake s.boot.lpFrom ≤ v.now ∧
      (s.boot.lpFrom = 2 → v.tt = s.tt) ∧
      (s.boot.lpFrom ≠ 2 → ∀ c, c < 384 → rd v .HBM_CH_STATE_STATE c = recordedChan s c) ∧
      Frame [.boot, .dbg, .now, .pwr, .rep, .tt] (reportFlds ++ [.LP_STATUS_STATE, .LP_STATUS_TARGET, .BOOT_STATUS_PHASE,
        .DRL_GEAR_CEILING, .DRL_GEAR_CEILING_PENDING, .DRL_GEAR_CURRENT, .DRL_GEAR_FORCED, .DRL_VCORE_MILLIVOLTS] ++
        (if s.boot.lpFrom = 2 then [] else [.HUB_SLOT_STATE_STATE, .HUB_SLOT_STATE_FENCED, .INTEG_CORE_INFO_SKIP,
          .INTEG_CORE_INFO_READMITS, .INTEG_CORE_INFO_CLEARED, .HUB_REMAP_B0_SLOT_PHYS_SLOT, .HUB_REMAP_B0_SLOT_VALID,
          .HUB_REMAP_B1_SLOT_PHYS_SLOT, .HUB_REMAP_B1_SLOT_VALID, .INTEG_HUB_STATE, .INTEG_HUB_OUT, .INTEG_HUB_SERVING,
          .HBM_CH_STATE_STATE, .HUB_TT_CTRL_LOAD_DONE])) s v)
/-! ## Debug and test -/

/-- Freezes, counters, halts, the debug module, withdrawal and self-tests of hubs (R449, R453 to R459), each where it is allowed
and where it is refused. What the debug module's own registers do is the published RISC-V debug specification's (assumption
22). -/
def Obligations.DebugRuns : Prop :=
  (∀ (s : State) (src : Src) (t : Nat), isMgmt s src = true →
    (Runs (.dbgFreeze src t) s fun v =>
      v.dbg.vFrozen = true ∧ (∀ h, h < 160 → rd v .DBG_TRAIL_STATUS_FROZEN h = 1) ∧ Frame [.dbg, .now] freezeFlds s v) ∧
    (Runs (.dbgUnfreeze src t) s fun v =>
      v.dbg.vFrozen = false ∧ (∀ h, h < 160 → rd v .DBG_TRAIL_STATUS_FROZEN h = 0) ∧
      Frame [.dbg, .now] [.DBG_TRAIL_STATUS_FROZEN, .DBG_STATUS_FROZEN, .DBG_STATUS_HALTED] s v) ∧
    (Runs (.dbgSnap src t) s fun v =>
      (∀ i f, debugCounters[i]? = some f → rd v .DBG_SHADOW i = rd s f) ∧ rd v .DBG_SNAP_TIME = max s.now t ∧
      Frame [.now] [.DBG_SHADOW, .DBG_SNAP_TIME] s v)) ∧
  (∀ (s : State) (t i n : Nat) (f : Fld), debugCounters[i]? = some f → s.dbg.contrib = [] → 0 < n →
    Runs (.counterContribution t [(i, n)]) s fun v =>
      rd v f = (rd s f + n) % 2 ^ 64 ∧ v.dbg.contrib = [] ∧ KeptBut [.dbg, .now] s v ∧ RegsKept [(f, 0)] s v) ∧
  (∀ (s : State) (t : Nat) (counts : List (Nat × Nat)), StoreWf (fun _ => 0) s.dbg.contrib →
    Runs (.counterContribution t counts) s fun v =>
      (∀ i f, debugCounters[i]? = some f → ∀ n, n = storeGet 0 s.dbg.contrib i + ((counts.filter (fun e => e.1 == i)).map (·.2)).sum →
        rd v f = if n = 0 then rd s f else (rd s f + n) % 2 ^ 64) ∧
      v.dbg.contrib = [] ∧ KeptBut [.dbg, .now] s v ∧ RegsKept (debugCounters.map (fun f => (f, 0))) s v) ∧
  (∀ (s : State) (src : Src) (t hub : Nat), isMgmt s src = true → hub < 160 →
    (debugAllowed s hub = true → hub ∉ s.core.halted →
      (∀ c, c = .dbgHaltReq src t hub ∨ (c = .breakpointTrigger t hub ∧ hub ∈ s.dbg.armed ∧ windowCtx s = none) → Runs c s fun v =>
        hub ∈ v.core.halted ∧ rd v .DBG_HALT_HALTED hub = 1 ∧ rd v .DBG_HALT_DRAINED hub = 0 ∧ rd v .INTEG_HUB_OUT hub = 1 ∧
        rd v .DBG_STATUS_HALTED = 1 ∧ (hub = leadHub s → v.serve.items = []) ∧ v.mem = s.mem) ∧
      (bitAt (rd s .DBG_DMI_DATA hub) 31 = true → Runs (.dmiWrite src hub 0x10) s fun v =>
        hub ∈ v.core.halted ∧ rd v .DBG_HALT_HALTED hub = 1 ∧ rd v .INTEG_HUB_OUT hub = 1 ∧ v.mem = s.mem)) ∧
    (debugAllowed s hub = false → Runs (.dbgHaltReq src t hub) s fun v =>
      rd v .DBG_DMI_ADDR_ERROR hub = 1 ∧ KeptBut [.now] s v ∧ RegsKept [(.DBG_DMI_ADDR_ERROR, hub)] s v) ∧
    (debugAllowed s hub = true → hub ∈ s.core.halted → Runs (.dbgHaltReq src t hub) s fun v => KeptBut [.now] s v ∧ RegsKept [] s v) ∧
    (hub ∈ s.core.halted → keptOut s hub = true → Runs (.dbgResume src t hub) s fun v =>
      hub ∉ v.core.halted ∧ rd v .DBG_HALT_HALTED hub = 0 ∧ rd v .DBG_HALT_DRAINED hub = 0 ∧
      Frame [.core, .dbg, .free, .now, .rep] (reportFlds ++ [.DBG_HALT_HALTED, .DBG_HALT_DRAINED, .DBG_STATUS_FROZEN,
        .DBG_STATUS_HALTED]) s v) ∧
    (hub ∉ s.core.halted → Runs (.dbgResume src t hub) s fun v => KeptBut [.now] s v ∧ RegsKept [] s v) ∧
    (∀ a, debugAllowed s hub = false → ∀ c ∈ [Instr.dmiRead src hub a, .dmiWrite src hub a], Runs c s fun v =>
      rd v .DBG_DMI_ADDR_ADDR hub = a % 128 ∧ rd v .DBG_DMI_ADDR_ERROR hub = 1 ∧ KeptBut [] s v ∧
      RegsKept [(.DBG_DMI_ADDR_ADDR, hub), (.DBG_DMI_ADDR_ERROR, hub)] s v) ∧
    (debugAllowed s hub = true → bitAt (rd s .DBG_DMI_DATA hub) 31 = false → bitAt (rd s .DBG_DMI_DATA hub) 30 = true →
      hub ∈ s.core.halted → Runs (.dmiWrite src hub 0x10) s fun v =>
        hub ∉ v.core.halted ∧ rd v .DBG_HALT_HALTED hub = 0 ∧ rd v .DBG_HALT_DRAINED hub = 0 ∧ v.mem = s.mem) ∧
    (debugAllowed s hub = true → ∀ w d, w = rd s .DBG_DMI_DATA hub → bitsOf w 31 24 = 0 → bitsOf w 17 16 = 3 → w % 65536 = 0x7A1 →
      d = storeGet 0 s.dbg.dmi (hub * 128 + 4) → Runs (.dmiWrite src hub 0x17) s fun v =>
        (d % 8 ≠ 0 → windowCtx s = none → hub ∈ v.dbg.armed) ∧ (d % 8 = 0 → hub ∉ v.dbg.armed) ∧
        (d % 8 ≠ 0 → windowCtx s ≠ none → rd v .DBG_DMI_ADDR_ERROR hub = 1 ∧ v.dbg.armed = s.dbg.armed) ∧ KeptBut [.dbg] s v ∧
        RegsKept [(.DBG_DMI_ADDR_ADDR, hub), (.DBG_DMI_ADDR_ERROR, hub)] s v) ∧
    (hub ∈ s.core.halted → keptOut s hub = false → Runs (.dbgResume src t hub) s fun v =>
      hub ∉ v.core.halted ∧ rd v .DBG_HALT_HALTED hub = 0 ∧ rd v .DBG_HALT_DRAINED hub = 0 ∧ rd v .INTEG_HUB_OUT hub = 0 ∧
      Frame [.core, .dbg, .free, .now, .rep] (reportFlds ++ [.DBG_HALT_HALTED, .DBG_HALT_DRAINED, .INTEG_HUB_OUT,
        .DBG_STATUS_FROZEN, .DBG_STATUS_HALTED]) s v) ∧
    (∀ a, debugAllowed s hub = true →
      (Runs (.dmiRead src hub a) s fun v =>
        rd v .DBG_DMI_ADDR_ADDR hub = a % 128 ∧ rd v .DBG_DMI_ADDR_ERROR hub = 0 ∧ rd v .DBG_DMI_DATA hub < 2 ^ 32 ∧
        KeptBut [.free] s v ∧ RegsKept [(.DBG_DMI_ADDR_ADDR, hub), (.DBG_DMI_ADDR_ERROR, hub), (.DBG_DMI_DATA, hub)] s v) ∧
      (a % 128 ≠ 0x10 → a % 128 ≠ 0x17 → Runs (.dmiWrite src hub a) s fun v =>
        rd v .DBG_DMI_ADDR_ADDR hub = a % 128 ∧ storeFind v.dbg.dmi (hub * 128 + a % 128) = some (rd s .DBG_DMI_DATA hub) ∧
        KeptBut [.dbg] s v ∧ RegsKept [(.DBG_DMI_ADDR_ADDR, hub), (.DBG_DMI_ADDR_ERROR, hub)] s v))) ∧
  (∀ (s : State) (t hub a : Nat), hub ∈ s.core.halted → rd s .DBG_HALT_DRAINED hub ≠ 1 → hubQueues s hub = [] →
    storeFind s.dbg.haltAt hub = some a → Runs (.haltDrained t hub) s fun v =>
      rd v .DBG_HALT_DRAINED hub = 1 ∧ rd v .DBG_HALT_NS hub = min (max s.now t - a) (2 ^ 32 - 1) ∧
      KeptBut [.dbg, .now] s v ∧ RegsKept [(.DBG_HALT_DRAINED, hub), (.DBG_HALT_NS, hub)] s v) ∧
  (∀ (s : State) (src : Src) (t hub : Nat), isMgmt s src = true → hub < 160 → ∀ st, st = rd s .DBG_HUB_STATUS_STATE hub →
    (st = 0 → planner s hub = false → s.tt.run.running = true → Runs (.hubWithdraw src t hub) s fun v =>
      rd v .DBG_HUB_STATUS_STATE hub = 1 ∧ rd v .INTEG_HUB_OUT hub = 1 ∧ KeptBut [.now] s v ∧
      RegsKept [(.DBG_HUB_STATUS_STATE, hub), (.INTEG_HUB_OUT, hub), (.DBG_HUB_STATUS_RESULT, hub), (.DBG_HUB_STATUS_REASON, hub)] s v) ∧
    (st = 0 → planner s hub = false → s.tt.run.running = false → hubQueues s hub = [] → Runs (.hubWithdraw src t hub) s fun v =>
      rd v .DBG_HUB_STATUS_STATE hub = 2 ∧ rd v .INTEG_HUB_OUT hub = 1 ∧ KeptBut [.now] s v) ∧
    (st = 0 → planner s hub = false → s.tt.run.running = false → hubQueues s hub ≠ [] → Runs (.hubWithdraw src t hub) s fun v =>
      rd v .DBG_HUB_STATUS_STATE hub = 1 ∧ rd v .INTEG_HUB_OUT hub = 1 ∧ KeptBut [.now] s v) ∧
    (st = 0 → planner s hub = true → Runs (.hubWithdraw src t hub) s fun v =>
      rd v .DBG_HUB_STATUS_RESULT hub = 3 ∧ rd v .DBG_HUB_STATUS_REASON hub = 6 ∧ KeptBut [.now] s v ∧
      RegsKept [(.DBG_HUB_STATUS_RESULT, hub), (.DBG_HUB_STATUS_REASON, hub)] s v) ∧
    (st = 2 → (∃ d ∈ s.dbg.dumps, d.1 = hub) → Runs (.hubReturn src t hub) s fun v =>
      rd v .DBG_HUB_STATUS_STATE hub = 4 ∧ rd v .RESET_STATUS_BUSY = 1 ∧ storeFind v.boot.hubResets hub = some 2) ∧
    (st = 2 → (∀ d ∈ s.dbg.dumps, d.1 ≠ hub) → Runs (.hubReturn src t hub) s fun v =>
      rd v .DBG_HUB_STATUS_STATE hub = 4 ∧ rd v .RESET_STATUS_BUSY = 1 ∧ (storeFind v.boot.hubResets hub).isSome = true) ∧
    (∀ (c : Instr) (op n : Nat), (c, op, n) ∈ [(Instr.lbist src t hub n, 3, n), (.mbist src t hub, 4, 0), (.mbistRet src t hub, 5, 0)] →
      (st = 2 → (op = 3 → 1 ≤ n ∧ n ≤ 64) → meetsWindow (tick s t) (testNs op n) = false → Runs c s fun v =>
        rd v .DBG_HUB_STATUS_STATE hub = 3 ∧ rd v .DBG_HUB_STATUS_RESULT hub = 0 ∧
        storeFind v.dbg.tests hub = some ⟨op, 0, n, max s.now t⟩ ∧ KeptBut [.dbg, .mem, .now] s v ∧
        RegsKept [(.DBG_HUB_STATUS_STATE, hub), (.DBG_HUB_STATUS_RESULT, hub), (.DBG_HUB_STATUS_REASON, hub)] s v) ∧
      (st ≠ 2 → st ≠ 3 → Runs c s fun v =>
        rd v .DBG_HUB_STATUS_RESULT hub = 3 ∧ rd v .DBG_HUB_STATUS_REASON hub = 2 ∧ KeptBut [.now] s v ∧
        RegsKept [(.DBG_HUB_STATUS_RESULT, hub), (.DBG_HUB_STATUS_REASON, hub)] s v) ∧
      (∀ why, why = (if meetsWindow (tick s t) (testNs op n) = true then 3 else if st = 3 then 5 else if op = 3 ∧ (n = 0 ∨ 64 < n) then 7
          else 0) → st = 2 ∨ st = 3 → why ≠ 0 → Runs c s fun v =>
        rd v .DBG_HUB_STATUS_RESULT hub = 3 ∧ rd v .DBG_HUB_STATUS_REASON hub = why ∧ KeptBut [.now] s v ∧
        RegsKept [(.DBG_HUB_STATUS_RESULT, hub), (.DBG_HUB_STATUS_REASON, hub)] s v)) ∧
    (∀ phys, phys < 66 → st = 0 ∨ st = 2 → meetsWindow (tick s t) 500000 = false → Runs (.hubSweep src t hub phys) s fun v =>
      rd v .DBG_HUB_STATUS_STATE hub = 3 ∧ storeFind v.dbg.tests hub = some ⟨6, phys, st, max s.now t⟩ ∧
      KeptBut [.dbg, .now] s v ∧
      RegsKept [(.DBG_HUB_STATUS_STATE, hub), (.DBG_HUB_STATUS_RESULT, hub), (.DBG_HUB_STATUS_REASON, hub)] s v)) ∧
  (∀ (s : State) (t hub : Nat) (r : BistRun) (sigs : List Nat) (fails : List (Nat × Nat × Nat)) (first word count : Nat),
    storeFind s.dbg.tests hub = some r → 3 ≤ r.op → r.op ≤ 6 → Runs (.bistComplete t hub sigs fails first word count) s fun v =>
      rd v .DBG_HUB_STATUS_STATE hub = (if r.op = 6 then r.patterns else 2) ∧ storeFind v.dbg.tests hub = none ∧
      (r.op = 4 ∨ r.op = 5 → rd v .DBG_HUB_STATUS_RESULT hub = (if count = 0 then 1 else 2) ∧
        rd v .DBG_MBIST_FIRST_COUNT hub = min count 65535) ∧
      (r.op = 6 → rd v .DBG_HUB_STATUS_RESULT hub = (if fails = [] then 1 else 2)) ∧
      (r.op = 3 → ∀ p, p < 68 → storeGet 0 v.dbg.sigs (hub * 68 + p) = sigs.getD p 0 % 2 ^ 64) ∧
      r.start + testNs r.op r.patterns ≤ v.now ∧
      Frame [.dbg, .free, .now, .rep] (reportFlds ++ [.DBG_HUB_STATUS_STATE, .DBG_HUB_STATUS_RESULT, .DBG_MBIST_FIRST_MEMORY,
        .DBG_MBIST_FIRST_COUNT, .DBG_MBIST_WORD, .INTEG_TEST_PASS, .INTEG_TEST_FAIL]) s v) ∧
  (∀ (s : State) (n x : Nat),
    (Runs .idcode s fun v => v.rep.outs = s.rep.outs ++ [.tdo 32 idcode] ∧ v.mgt.bypass = false ∧ KeptBut [.mgt, .rep] s v ∧
      RegsKept [] s v) ∧
    (Runs (.bypass n x) s fun v => v.rep.outs = s.rep.outs ++ [.tdo n (x * 2 % 2 ^ n)] ∧ v.mgt.bypass = true ∧
      KeptBut [.mgt, .rep] s v ∧ RegsKept [] s v))
/-! ## Management -/

/-- The management port, SPDM and IDE_KM (R393, R394, R399, R413 to R419, R428): each request in the state that allows it,
with its answer. A transferred image is held against its signature, its root key and the minimum security version numbers
(R419, R428). The numbers of the commands are those of the DMTF standards (assumption 21). -/
def Obligations.ManagementRuns : Prop :=
  (∀ (s : State) (addr : Nat), rd s .MGMT_I3C_ADDR_VALID ≠ 1 → Runs (.entdaa addr) s fun v =>
      rd v .MGMT_I3C_DYN_ADDR = addr % 128 ∧ rd v .MGMT_I3C_ADDR_VALID = 1 ∧
      v.rep.outs = s.rep.outs ++ [.answer 5 7 0 [provisionedId s]] ∧ KeptBut [.rep] s v ∧
      RegsKept [(.MGMT_I3C_DYN_ADDR, 0), (.MGMT_I3C_ADDR_VALID, 0)] s v) ∧
  (∀ s : State, rd s .MGMT_I3C_ADDR_VALID = 1 →
    (∀ (c : Instr) (proto cmd : Nat) (fs : List Nat), (c, proto, cmd, fs) ∈
        [(Instr.getEndpointId, 1, 2, [rd s .MGMT_I3C_EID]), (.getEndpointUuid, 1, 3, [endpointUuid]),
         (.getMessageTypeSupport, 1, 5, [1, 1]), (.getTid, 2, 2, [s.mgt.tid]), (.getPldmTypes, 2, 4, [0, 2, 5]),
         (.getPldmCommands 0, 2, 5, pldmCommands 0), (.getPldmCommands 2, 2, 5, pldmCommands 2),
         (.getPldmCommands 5, 2, 5, pldmCommands 5), (.getStatus, 2, 0x1B, [rd s .MGMT_UPDATE_STATE])] →
      Runs c s fun v => v.rep.outs = s.rep.outs ++ [.answer proto cmd 0 fs] ∧ KeptBut [.rep] s v ∧ RegsKept [] s v) ∧
    (∀ (type : Nat) (c : Instr) (proto cmd : Nat) (fs : List Nat), (c, proto, cmd, fs) ∈
        [(Instr.getMctpVersionSupport type, 1, 4, [type]), (.queryDeviceIdentifiers, 2, 1, []),
         (.getFirmwareParameters, 2, 2, [1, (runningImage s).fwSvn, (runningImage s).bpSvn])] ++
        (if type ∈ [0, 2, 5] then [(Instr.getPldmVersion type, 2, 3, [type])] else []) →
      Runs c s fun v => (∃ x, v.rep.outs = s.rep.outs ++ [.answer proto cmd 0 (fs ++ [x])]) ∧ KeptBut [.free, .rep] s v ∧
        RegsKept [] s v) ∧
    (∀ x, x % 256 ≠ 0 → x % 256 ≠ 255 →
      (Runs (.setEndpointId x) s fun v => rd v .MGMT_I3C_EID = x % 256 ∧ v.rep.outs = s.rep.outs ++ [.answer 1 1 0 [x % 256]] ∧
        KeptBut [.rep] s v ∧ RegsKept [(.MGMT_I3C_EID, 0)] s v) ∧
      (Runs (.setTid x) s fun v => v.mgt.tid = x % 256 ∧ v.rep.outs = s.rep.outs ++ [.answer 2 1 0 []] ∧
        KeptBut [.mgt, .rep] s v ∧ RegsKept [] s v)) ∧
    (rd s .BOOT_STATUS_RECOVERY ≠ 1 →
      (∀ h, 1 ≤ h → h ≤ 27 → Runs (.getPdr h) s fun v =>
        (∃ k x, v.rep.outs = s.rep.outs ++ [.answer 2 0x51 0 [h, (if h = 27 then 0 else h + 1), k, x]]) ∧ KeptBut [.free, .rep] s v ∧
        RegsKept [] s v) ∧
      (Runs .getPdrRepositoryInfo s fun v =>
        (∃ x, v.rep.outs = s.rep.outs ++ [.answer 2 0x50 0 [27, x]]) ∧ KeptBut [.free, .rep] s v ∧ RegsKept [] s v) ∧
      (∀ n x, sensorValue s n = some x → Runs (.getSensorReading n) s fun v =>
        v.rep.outs = s.rep.outs ++ [.answer 2 0x11 0 [x]] ∧ KeptBut [.rep] s v ∧ RegsKept [] s v) ∧
      (∀ n, n = 23 ∨ n = 24 → Runs (.getStateSensorReadings n) s fun v =>
        v.rep.outs = s.rep.outs ++ [.answer 2 0x21 0 [if n = 23 then moduleState s else rd s .SPOKE_FAB_STATUS_STATE]] ∧
        KeptBut [.rep] s v ∧ RegsKept [] s v) ∧
      (∀ t x, 1000 ≤ x → x ≤ 3300 → Runs (.moduleCapEffecter t x) s fun v =>
        rd v .PWR_CAP_CAP_W = x ∧ Frame [.now, .rep] (reportFlds ++ [.PWR_CAP_CAP_W, .PWR_CAP_CAP_PENDING, .EVC_STATUS_POWER]) s v) ∧
      (∀ t, rd s .LP_STATUS_STATE = 4 → Runs (.wakeEffecter t) s fun v => ExitBegins s v 4 ∧ Frame [.boot, .now, .rep] exitFlds s v) ∧
      (∀ t, rd s .LP_STATUS_STATE = 5 → s.boot.lpTarget = 4 → Runs (.wakeEffecter t) s fun v =>
        v.boot.wakePending = true ∧ v.boot.lpReason = 4 ∧ v.rep.outs = s.rep.outs ++ [.answer 2 0x39 0 []] ∧
        KeptBut [.boot, .now, .rep] s v ∧ RegsKept [] s v) ∧
      (∀ t, rd s .LP_STATUS_STATE ≠ 4 → rd s .LP_STATUS_STATE ≠ 5 ∨ s.boot.lpTarget ≠ 4 → Runs (.wakeEffecter t) s fun v =>
        v.rep.outs = s.rep.outs ++ [.answer 2 0x39 0 []] ∧ KeptBut [.now, .rep] s v ∧ RegsKept [] s v) ∧
      (∀ t, rd s .RESET_STATUS_BUSY = 1 → Runs (.resetEffecter t) s fun v =>
        rd v .RESET_STATUS_REJECTED = 1 ∧ KeptBut [.now, .rep] s v ∧ RegsKept [(.RESET_STATUS_REJECTED, 0)] s v) ∧
      (∀ t, rd s .RESET_STATUS_BUSY ≠ 1 → s.boot.warm = none → rd s .LP_STATUS_STATE ∈ [2, 3, 4] → Runs (.resetEffecter t) s fun v =>
        v.boot.heldReset = some 2 ∧ ExitBegins s v 3 ∧ Frame [.boot, .now, .rep] exitFlds s v) ∧
      (∀ t x, x % 4096 < 1000 ∨ 3300 < x % 4096 → Runs (.moduleCapEffecter t x) s fun v =>
        v.rep.outs = s.rep.outs ++ [.answer 2 0x31 0 []] ∧ KeptBut [.now, .rep] s v ∧ RegsKept [] s v) ∧
      (s.rep.faultQueue = [] → Runs .pollForPlatformEventMessage s fun v =>
        v.rep.outs = s.rep.outs ++ [.answer 2 0x0B 0 []] ∧ KeptBut [.rep] s v ∧ RegsKept [] s v) ∧
      (∀ c q, s.rep.faultQueue = c :: q → s.rep.eventHeld = true → Runs .pollForPlatformEventMessage s fun v =>
        v.rep.faultQueue = q ∧ v.rep.eventHeld = false ∧ v.rep.outs = s.rep.outs ++ [.platformEvent (cellarBytes c)] ∧ KeptBut [.rep] s v ∧
        RegsKept [] s v) ∧
      (∀ c q e, s.rep.faultQueue = c :: q → s.rep.eventHeld = false → s.rep.receiver = some e →
        Runs .pollForPlatformEventMessage s fun v =>
          v.rep.faultQueue = c :: q ∧ v.rep.outs = s.rep.outs ++ [.answer 2 0x0B 0 []] ∧ KeptBut [.rep] s v ∧ RegsKept [] s v) ∧
      (∀ t, rd s .RESET_STATUS_BUSY ≠ 1 → s.boot.warm = none → rd s .LP_STATUS_STATE < 2 → Runs (.resetEffecter t) s fun v =>
        WarmBegins s v 2 (max s.now t)) ∧
      (∀ t (eid : Option Nat), Runs (.setEventReceiver t eid) s fun v =>
        v.rep.receiver = eid ∧ rd v .MGMT_I3C_RECEIVER_SET = (if eid.isSome then 1 else 0) ∧ KeptBut [.now, .rep] s v ∧
        RegsKept [(.MGMT_I3C_RECEIVER_SET, 0)] s v) ∧
      (∀ c q, s.rep.faultQueue = c :: q → s.rep.receiver = none → Runs .pollForPlatformEventMessage s fun v =>
        v.rep.faultQueue = q ∧ v.rep.outs = s.rep.outs ++ [.platformEvent (cellarBytes c)] ∧ KeptBut [.rep] s v ∧ RegsKept [] s v))) ∧
  (∀ s : State, rd s .MGMT_I3C_ADDR_VALID = 1 → ∀ i, i = rd s .MGMT_UPDATE_IMAGE →
    (s.mgt.requested = false → Runs .requestUpdate s fun v =>
      v.mgt.requested = true ∧ rd v .MGMT_UPDATE_STATE = 0 ∧ rd v .MGMT_UPDATE_IMAGE = 1 - rd s .BOOT_STATUS_IMAGE ∧
      KeptBut [.mgt, .rep] s v ∧ RegsKept [(.MGMT_UPDATE_STATE, 0), (.MGMT_UPDATE_IMAGE, 0)] s v) ∧
    (s.mgt.requested = true → rd s .MGMT_UPDATE_STATE = 0 → Runs .passComponentTable s fun v =>
      v.mgt.passed = true ∧ KeptBut [.mgt, .rep] s v ∧ RegsKept [] s v) ∧
    (s.mgt.requested = true → s.mgt.passed = true → rd s .MGMT_UPDATE_STATE = 0 ∨ rd s .MGMT_UPDATE_STATE = 4 → i < 2 →
      Runs .updateComponent s fun v =>
        rd v .MGMT_UPDATE_STATE = 1 ∧ imageState v i = 0 ∧ Frame [.boot, .rep] (reportFlds ++ [.MGMT_UPDATE_STATE]) s v) ∧
    (∀ (w : FlashWrite) (img : FlashImage), img = flashOf s w → rd s .MGMT_UPDATE_STATE = 1 → i < s.boot.images.length →
      ∀ sel, sel = liveSelection s →
      (w.signed = true → rootTrusted w.bytes = true → sel.rootKey ≤ img.rootKey → sel.minFw ≤ img.fwSvn → sel.minBp ≤ img.bpSvn →
        Runs (.fwTransferComplete w) s fun v =>
          flashImage v i = img ∧ rd v .MGMT_UPDATE_STATE = 3 ∧ v.rep.outs = s.rep.outs ++ [.answer 2 0x17 0 [0]] ∧
          KeptBut [.boot, .mgt, .rep] s v ∧ RegsKept [(.MGMT_UPDATE_STATE, 0)] s v) ∧
      (w.signed = false ∨ rootTrusted w.bytes = false ∨ img.rootKey < sel.rootKey ∨ img.fwSvn < sel.minFw ∨ img.bpSvn < sel.minBp → i < 2 →
        Runs (.fwTransferComplete w) s fun v =>
          imageState v i = 0 ∧ rd v .MGMT_UPDATE_STATE = 4 ∧ Frame [.boot, .mgt, .rep] (reportFlds ++ [.MGMT_UPDATE_STATE]) s v)) ∧
    (rd s .MGMT_UPDATE_STATE = 3 → i < 2 → Runs (.activateFirmware false) s fun v =>
      imageState v i = 1 ∧ (liveSelection v).tries = 3 ∧ (liveSelection v).preferred = i ∧ rd v .MGMT_UPDATE_STATE = 0 ∧
      v.mgt.requested = false ∧ Frame [.boot, .mgt, .rep] (reportFlds ++ [.MGMT_UPDATE_STATE]) s v) ∧
    (rd s .MGMT_UPDATE_STATE ≠ 0 → i < 2 → Runs .cancelUpdateComponent s fun v =>
      imageState v i = 0 ∧ rd v .MGMT_UPDATE_STATE = 0 ∧ v.mgt.requested = s.mgt.requested ∧
      Frame [.boot, .mgt, .rep] (reportFlds ++ [.MGMT_UPDATE_STATE]) s v) ∧
    (s.mgt.requested = true → i < 2 → Runs .cancelUpdate s fun v =>
      imageState v i = 0 ∧ rd v .MGMT_UPDATE_STATE = 0 ∧ v.mgt.requested = false ∧
      Frame [.boot, .mgt, .rep] (reportFlds ++ [.MGMT_UPDATE_STATE]) s v)) ∧
  (∀ s : State, rd s .PCIE_LINK_UP = 1 → 0 ∉ s.ctxs.noMaster →
    (∀ (c : Instr) (from_ to_ cmd : Nat) (fs : List Nat), (c, from_, to_, cmd, fs) ∈
        (List.range 6).map (fun i => (Instr.getVersion, i, 1, 0x84, [0x13])) ++ [(.negotiateAlgorithms true, 2, 3, 0xE3, []),
         (.pskFinish true, 4, 5, 0xE7, []), (.endSession, 5, 3, 0xEC, [])] ++
        (if (storeFind s.ctxs.keys 3).isSome then [(Instr.pskExchange true, 3, 4, 0xE6, [])] else []) →
      s.mgt.spdm = from_ → Runs c s fun v =>
        v.mgt.spdm = to_ ∧ v.rep.outs = s.rep.outs ++ [.answer 3 cmd 0 fs] ∧ KeptBut [.mgt, .rep] s v ∧ RegsKept [] s v) ∧
    (s.mgt.spdm = 1 → Runs .getCapabilities s fun v =>
      v.mgt.spdm = 2 ∧ (∃ x, v.rep.outs = s.rep.outs ++ [.answer 3 0xE1 0 [x]]) ∧ KeptBut [.free, .mgt, .rep] s v ∧ RegsKept [] s v) ∧
    (s.mgt.spdm = 5 → ∀ n set, 1 ≤ n → n < 64 → set < 2 →
      (∀ (sub : Nat) (rx : Bool), sub < 3 → (ideStream s n).active ≠ some set → Runs (.keyProg n set sub rx) s fun v =>
        set * 8 + sub + (if rx then 3 else 0) ∈ (ideStream v n).programmed ∧ (∀ m, m ≠ n → ideStream v m = ideStream s m) ∧
        v.rep.outs = s.rep.outs ++ [.answer 3 2 0 []] ∧ KeptBut [.mgt, .rep] s v ∧ RegsKept [] s v) ∧
      ((∀ i, i < 6 → set * 8 + i ∈ (ideStream s n).programmed) → Runs (.kSetGo n set) s fun v =>
        (ideStream v n).active = some set ∧ rd v .CTX_STATE_IDE_READY n = 1 ∧ rd v .CTXWIN_INFO_IDE_READY n = 1 ∧
        KeptBut [.mgt, .rep] s v ∧ RegsKept [(.CTX_STATE_IDE_READY, n), (.CTXWIN_INFO_IDE_READY, n)] s v) ∧
      ((ideStream s n).active ≠ some set → Runs (.kSetStop n set) s fun v =>
        (∀ k ∈ (ideStream v n).programmed, k / 8 ≠ set) ∧ KeptBut [.mgt, .rep] s v ∧ RegsKept [] s v) ∧
      ((ideStream s n).active = some set → Runs (.kSetStop n set) s fun v =>
        rd v .CTX_STATE_IDE_READY n = 0 ∧ v.mem = s.mem ∧ (confGranted s n = true → rd v .CTX_STATE_STATE n = 3))))
end

