-- ==== Sys2Proof/Laws/Store.lean ====
section
/-! SUPPORT. What a table does: a read after a write, a read elsewhere, and that writing keeps the
canonical form. -/

namespace Sys2Proof.Machine

variable {α : Type}

@[simp] theorem storeFind_insert_same (m : Store α) (k : Nat) (v : α) :
    storeFind (storeInsert m k v) k = some v := by
  induction m with
  | nil => simp [storeInsert, storeFind]
  | cons e r ih =>
    obtain ⟨k', v'⟩ := e
    unfold storeInsert
    split
    · simp [storeFind]
    · split
      · simp [storeFind]
      · simp [storeFind, *]

theorem storeFind_insert_other (m : Store α) {k j : Nat} (v : α) (h : j ≠ k) :
    storeFind (storeInsert m k v) j = storeFind m j := by
  induction m with
  | nil => simp [storeInsert, storeFind, h]
  | cons e r ih =>
    obtain ⟨k', v'⟩ := e
    unfold storeInsert
    split
    · simp [storeFind, h]
    · split
      · subst_vars; simp [storeFind, h]
      · simp [storeFind, ih]

@[simp] theorem storeFind_erase_same (m : Store α) (k : Nat) :
    storeFind (storeErase m k) k = none := by
  induction m with
  | nil => rfl
  | cons e r ih =>
    obtain ⟨k', v'⟩ := e
    unfold storeErase at *
    by_cases h : k' = k
    · simpa [h] using ih
    · simp [h, storeFind, ih, Ne.symm h]

theorem storeFind_erase_other (m : Store α) {k j : Nat} (h : j ≠ k) :
    storeFind (storeErase m k) j = storeFind m j := by
  induction m with
  | nil => rfl
  | cons e r ih =>
    obtain ⟨k', v'⟩ := e
    unfold storeErase at *
    by_cases h' : k' = k
    · subst h'; simpa [storeFind, h] using ih
    · simp [h', storeFind, ih]

@[simp] theorem storeGet_put_same [DecidableEq α] (d : α) (m : Store α) (k : Nat) (v : α) :
    storeGet d (storePut d m k v) k = v := by
  unfold storeGet storePut; split <;> simp [*]

theorem storeGet_put_other [DecidableEq α] (d d' : α) (m : Store α) {k j : Nat} (v : α) (h : j ≠ k) :
    storeGet d' (storePut d m k v) j = storeGet d' m j := by
  unfold storeGet storePut; split
  · rw [storeFind_erase_other m h]
  · rw [storeFind_insert_other m v h]

theorem storeInsert_mem (m : Store α) (k : Nat) (v : α) (e : Nat × α)
    (h : e ∈ storeInsert m k v) : e = (k, v) ∨ e ∈ m := by
  induction m with
  | nil => simpa [storeInsert] using h
  | cons c r ih =>
    obtain ⟨k', v'⟩ := c
    unfold storeInsert at h
    split at h
    · simpa using h
    · split at h
      · simp at h ⊢; tauto
      · simp at h ⊢; rcases h with h | h
        · tauto
        · rcases ih h with h | h <;> tauto

theorem storeInsert_sorted (m : Store α) (k : Nat) (v : α)
    (h : m.Pairwise (fun a b => a.1 < b.1)) :
    (storeInsert m k v).Pairwise (fun a b => a.1 < b.1) := by
  induction m with
  | nil => simp [storeInsert]
  | cons c r ih =>
    obtain ⟨k', v'⟩ := c
    rw [List.pairwise_cons] at h
    unfold storeInsert
    split
    · rename_i hk
      refine List.pairwise_cons.2 ⟨?_, List.pairwise_cons.2 h⟩
      intro e he
      rcases List.mem_cons.1 he with rfl | he
      · exact hk
      · exact lt_trans hk (h.1 e he)
    · split
      · rename_i hk hk'
        subst hk'
        exact List.pairwise_cons.2 h
      · rename_i hk hk'
        refine List.pairwise_cons.2 ⟨?_, ih h.2⟩
        intro e he
        rcases storeInsert_mem r k v e he with rfl | he
        · show k' < k; omega
        · exact h.1 e he

/-- Writing keeps the canonical form. -/
theorem storePut_wf [DecidableEq α] (d : Nat → α) (m : Store α) (k : Nat) (v : α)
    (h : StoreWf d m) : StoreWf d (storePut (d k) m k v) := by
  unfold storePut; split
  · exact ⟨h.1.sublist List.filter_sublist, fun e he => h.2 e (List.mem_filter.1 he).1⟩
  · refine ⟨storeInsert_sorted m k v h.1, fun e he => ?_⟩
    rcases storeInsert_mem m k v e he with rfl | he
    · simpa
    · exact h.2 e he

/-- Leaving entries out keeps the canonical form. -/
theorem storeKeep_wf (d : Nat → α) (p : Nat → Bool) (m : Store α) (h : StoreWf d m) :
    StoreWf d (storeKeep p m) :=
  ⟨h.1.sublist List.filter_sublist, fun e he => h.2 e (List.mem_filter.1 he).1⟩

theorem storeFind_keep (p : Nat → Bool) (m : Store α) (k : Nat) :
    storeFind (storeKeep p m) k = if p k then storeFind m k else none := by
  unfold storeKeep
  induction m with
  | nil => simp [storeFind]
  | cons e r ih =>
    obtain ⟨k', v'⟩ := e
    by_cases h : p k' = true
    · by_cases hk : k = k'
      · subst hk; simp [h, storeFind]
      · simp [h, storeFind, hk, ih]
    · by_cases hk : k = k'
      · subst hk; simp [h, ih]
      · simp [h, storeFind, hk, ih]

end Sys2Proof.Machine
end

