-- ==== Sys2Proof/Laws/State.lean ====
section
/-! SUPPORT. What each update of the state changes: one lemma for each field and each named update, and what a register
field reads after a write. -/

namespace Sys2Proof.Machine

/-! Keys of register fields -/

theorem ctorIdx_lt (f : Fld) : f.ctorIdx < 1024 := by cases f <;> decide

theorem ctorIdx_inj {f g : Fld} (h : f.ctorIdx = g.ctorIdx) : f = g := by
  have e := congrArg Fld.ofNat h
  simpa [Fld.ofNat_ctorIdx] using e

theorem regKey_inj {f g : Fld} {n m : Nat} : regKey f n = regKey g m ↔ f = g ∧ n = m := by
  constructor
  · intro h
    have hf := ctorIdx_lt f
    have hg := ctorIdx_lt g
    unfold regKey at h
    have hi : f.ctorIdx = g.ctorIdx := by omega
    exact ⟨ctorIdx_inj hi, by omega⟩
  · rintro ⟨rfl, rfl⟩
    rfl

/-! Fields of State after each update -/

@[simp] theorem updServe_serve (s : State) (f : Serving → Serving) : (updServe s f).serve = f s.serve := rfl
@[simp] theorem updServe_regs (s : State) (f : Serving → Serving) : (updServe s f).regs = s.regs := rfl
@[simp] theorem updServe_now (s : State) (f : Serving → Serving) : (updServe s f).now = s.now := rfl
@[simp] theorem updServe_freeNext (s : State) (f : Serving → Serving) : (updServe s f).freeNext = s.freeNext := rfl
@[simp] theorem updServe_tt (s : State) (f : Serving → Serving) : (updServe s f).tt = s.tt := rfl
@[simp] theorem updServe_rep (s : State) (f : Serving → Serving) : (updServe s f).rep = s.rep := rfl
@[simp] theorem updServe_lard (s : State) (f : Serving → Serving) : (updServe s f).lard = s.lard := rfl
@[simp] theorem updServe_pann (s : State) (f : Serving → Serving) : (updServe s f).pann = s.pann := rfl
@[simp] theorem updServe_mem (s : State) (f : Serving → Serving) : (updServe s f).mem = s.mem := rfl
@[simp] theorem updServe_core (s : State) (f : Serving → Serving) : (updServe s f).core = s.core := rfl
@[simp] theorem updServe_fab (s : State) (f : Serving → Serving) : (updServe s f).fab = s.fab := rfl
@[simp] theorem updServe_pwr (s : State) (f : Serving → Serving) : (updServe s f).pwr = s.pwr := rfl
@[simp] theorem updServe_ctxs (s : State) (f : Serving → Serving) : (updServe s f).ctxs = s.ctxs := rfl
@[simp] theorem updServe_boot (s : State) (f : Serving → Serving) : (updServe s f).boot = s.boot := rfl
@[simp] theorem updServe_dbg (s : State) (f : Serving → Serving) : (updServe s f).dbg = s.dbg := rfl
@[simp] theorem updServe_mgt (s : State) (f : Serving → Serving) : (updServe s f).mgt = s.mgt := rfl
@[simp] theorem updServe_pending (s : State) (f : Serving → Serving) : (updServe s f).pending = s.pending := rfl

@[simp] theorem updTt_tt (s : State) (f : Timetable → Timetable) : (updTt s f).tt = f s.tt := rfl
@[simp] theorem updTt_regs (s : State) (f : Timetable → Timetable) : (updTt s f).regs = s.regs := rfl
@[simp] theorem updTt_now (s : State) (f : Timetable → Timetable) : (updTt s f).now = s.now := rfl
@[simp] theorem updTt_freeNext (s : State) (f : Timetable → Timetable) : (updTt s f).freeNext = s.freeNext := rfl
@[simp] theorem updTt_serve (s : State) (f : Timetable → Timetable) : (updTt s f).serve = s.serve := rfl
@[simp] theorem updTt_rep (s : State) (f : Timetable → Timetable) : (updTt s f).rep = s.rep := rfl
@[simp] theorem updTt_lard (s : State) (f : Timetable → Timetable) : (updTt s f).lard = s.lard := rfl
@[simp] theorem updTt_pann (s : State) (f : Timetable → Timetable) : (updTt s f).pann = s.pann := rfl
@[simp] theorem updTt_mem (s : State) (f : Timetable → Timetable) : (updTt s f).mem = s.mem := rfl
@[simp] theorem updTt_core (s : State) (f : Timetable → Timetable) : (updTt s f).core = s.core := rfl
@[simp] theorem updTt_fab (s : State) (f : Timetable → Timetable) : (updTt s f).fab = s.fab := rfl
@[simp] theorem updTt_pwr (s : State) (f : Timetable → Timetable) : (updTt s f).pwr = s.pwr := rfl
@[simp] theorem updTt_ctxs (s : State) (f : Timetable → Timetable) : (updTt s f).ctxs = s.ctxs := rfl
@[simp] theorem updTt_boot (s : State) (f : Timetable → Timetable) : (updTt s f).boot = s.boot := rfl
@[simp] theorem updTt_dbg (s : State) (f : Timetable → Timetable) : (updTt s f).dbg = s.dbg := rfl
@[simp] theorem updTt_mgt (s : State) (f : Timetable → Timetable) : (updTt s f).mgt = s.mgt := rfl
@[simp] theorem updTt_pending (s : State) (f : Timetable → Timetable) : (updTt s f).pending = s.pending := rfl

@[simp] theorem updRep_rep (s : State) (f : Reporting → Reporting) : (updRep s f).rep = f s.rep := rfl
@[simp] theorem updRep_regs (s : State) (f : Reporting → Reporting) : (updRep s f).regs = s.regs := rfl
@[simp] theorem updRep_now (s : State) (f : Reporting → Reporting) : (updRep s f).now = s.now := rfl
@[simp] theorem updRep_freeNext (s : State) (f : Reporting → Reporting) : (updRep s f).freeNext = s.freeNext := rfl
@[simp] theorem updRep_serve (s : State) (f : Reporting → Reporting) : (updRep s f).serve = s.serve := rfl
@[simp] theorem updRep_tt (s : State) (f : Reporting → Reporting) : (updRep s f).tt = s.tt := rfl
@[simp] theorem updRep_lard (s : State) (f : Reporting → Reporting) : (updRep s f).lard = s.lard := rfl
@[simp] theorem updRep_pann (s : State) (f : Reporting → Reporting) : (updRep s f).pann = s.pann := rfl
@[simp] theorem updRep_mem (s : State) (f : Reporting → Reporting) : (updRep s f).mem = s.mem := rfl
@[simp] theorem updRep_core (s : State) (f : Reporting → Reporting) : (updRep s f).core = s.core := rfl
@[simp] theorem updRep_fab (s : State) (f : Reporting → Reporting) : (updRep s f).fab = s.fab := rfl
@[simp] theorem updRep_pwr (s : State) (f : Reporting → Reporting) : (updRep s f).pwr = s.pwr := rfl
@[simp] theorem updRep_ctxs (s : State) (f : Reporting → Reporting) : (updRep s f).ctxs = s.ctxs := rfl
@[simp] theorem updRep_boot (s : State) (f : Reporting → Reporting) : (updRep s f).boot = s.boot := rfl
@[simp] theorem updRep_dbg (s : State) (f : Reporting → Reporting) : (updRep s f).dbg = s.dbg := rfl
@[simp] theorem updRep_mgt (s : State) (f : Reporting → Reporting) : (updRep s f).mgt = s.mgt := rfl
@[simp] theorem updRep_pending (s : State) (f : Reporting → Reporting) : (updRep s f).pending = s.pending := rfl

@[simp] theorem updLard_lard (s : State) (f : Larder → Larder) : (updLard s f).lard = f s.lard := rfl
@[simp] theorem updLard_regs (s : State) (f : Larder → Larder) : (updLard s f).regs = s.regs := rfl
@[simp] theorem updLard_now (s : State) (f : Larder → Larder) : (updLard s f).now = s.now := rfl
@[simp] theorem updLard_freeNext (s : State) (f : Larder → Larder) : (updLard s f).freeNext = s.freeNext := rfl
@[simp] theorem updLard_serve (s : State) (f : Larder → Larder) : (updLard s f).serve = s.serve := rfl
@[simp] theorem updLard_tt (s : State) (f : Larder → Larder) : (updLard s f).tt = s.tt := rfl
@[simp] theorem updLard_rep (s : State) (f : Larder → Larder) : (updLard s f).rep = s.rep := rfl
@[simp] theorem updLard_pann (s : State) (f : Larder → Larder) : (updLard s f).pann = s.pann := rfl
@[simp] theorem updLard_mem (s : State) (f : Larder → Larder) : (updLard s f).mem = s.mem := rfl
@[simp] theorem updLard_core (s : State) (f : Larder → Larder) : (updLard s f).core = s.core := rfl
@[simp] theorem updLard_fab (s : State) (f : Larder → Larder) : (updLard s f).fab = s.fab := rfl
@[simp] theorem updLard_pwr (s : State) (f : Larder → Larder) : (updLard s f).pwr = s.pwr := rfl
@[simp] theorem updLard_ctxs (s : State) (f : Larder → Larder) : (updLard s f).ctxs = s.ctxs := rfl
@[simp] theorem updLard_boot (s : State) (f : Larder → Larder) : (updLard s f).boot = s.boot := rfl
@[simp] theorem updLard_dbg (s : State) (f : Larder → Larder) : (updLard s f).dbg = s.dbg := rfl
@[simp] theorem updLard_mgt (s : State) (f : Larder → Larder) : (updLard s f).mgt = s.mgt := rfl
@[simp] theorem updLard_pending (s : State) (f : Larder → Larder) : (updLard s f).pending = s.pending := rfl

@[simp] theorem updPann_pann (s : State) (f : Pannier → Pannier) : (updPann s f).pann = f s.pann := rfl
@[simp] theorem updPann_regs (s : State) (f : Pannier → Pannier) : (updPann s f).regs = s.regs := rfl
@[simp] theorem updPann_now (s : State) (f : Pannier → Pannier) : (updPann s f).now = s.now := rfl
@[simp] theorem updPann_freeNext (s : State) (f : Pannier → Pannier) : (updPann s f).freeNext = s.freeNext := rfl
@[simp] theorem updPann_serve (s : State) (f : Pannier → Pannier) : (updPann s f).serve = s.serve := rfl
@[simp] theorem updPann_tt (s : State) (f : Pannier → Pannier) : (updPann s f).tt = s.tt := rfl
@[simp] theorem updPann_rep (s : State) (f : Pannier → Pannier) : (updPann s f).rep = s.rep := rfl
@[simp] theorem updPann_lard (s : State) (f : Pannier → Pannier) : (updPann s f).lard = s.lard := rfl
@[simp] theorem updPann_mem (s : State) (f : Pannier → Pannier) : (updPann s f).mem = s.mem := rfl
@[simp] theorem updPann_core (s : State) (f : Pannier → Pannier) : (updPann s f).core = s.core := rfl
@[simp] theorem updPann_fab (s : State) (f : Pannier → Pannier) : (updPann s f).fab = s.fab := rfl
@[simp] theorem updPann_pwr (s : State) (f : Pannier → Pannier) : (updPann s f).pwr = s.pwr := rfl
@[simp] theorem updPann_ctxs (s : State) (f : Pannier → Pannier) : (updPann s f).ctxs = s.ctxs := rfl
@[simp] theorem updPann_boot (s : State) (f : Pannier → Pannier) : (updPann s f).boot = s.boot := rfl
@[simp] theorem updPann_dbg (s : State) (f : Pannier → Pannier) : (updPann s f).dbg = s.dbg := rfl
@[simp] theorem updPann_mgt (s : State) (f : Pannier → Pannier) : (updPann s f).mgt = s.mgt := rfl
@[simp] theorem updPann_pending (s : State) (f : Pannier → Pannier) : (updPann s f).pending = s.pending := rfl

@[simp] theorem updMem_mem (s : State) (f : Memory → Memory) : (updMem s f).mem = f s.mem := rfl
@[simp] theorem updMem_regs (s : State) (f : Memory → Memory) : (updMem s f).regs = s.regs := rfl
@[simp] theorem updMem_now (s : State) (f : Memory → Memory) : (updMem s f).now = s.now := rfl
@[simp] theorem updMem_freeNext (s : State) (f : Memory → Memory) : (updMem s f).freeNext = s.freeNext := rfl
@[simp] theorem updMem_serve (s : State) (f : Memory → Memory) : (updMem s f).serve = s.serve := rfl
@[simp] theorem updMem_tt (s : State) (f : Memory → Memory) : (updMem s f).tt = s.tt := rfl
@[simp] theorem updMem_rep (s : State) (f : Memory → Memory) : (updMem s f).rep = s.rep := rfl
@[simp] theorem updMem_lard (s : State) (f : Memory → Memory) : (updMem s f).lard = s.lard := rfl
@[simp] theorem updMem_pann (s : State) (f : Memory → Memory) : (updMem s f).pann = s.pann := rfl
@[simp] theorem updMem_core (s : State) (f : Memory → Memory) : (updMem s f).core = s.core := rfl
@[simp] theorem updMem_fab (s : State) (f : Memory → Memory) : (updMem s f).fab = s.fab := rfl
@[simp] theorem updMem_pwr (s : State) (f : Memory → Memory) : (updMem s f).pwr = s.pwr := rfl
@[simp] theorem updMem_ctxs (s : State) (f : Memory → Memory) : (updMem s f).ctxs = s.ctxs := rfl
@[simp] theorem updMem_boot (s : State) (f : Memory → Memory) : (updMem s f).boot = s.boot := rfl
@[simp] theorem updMem_dbg (s : State) (f : Memory → Memory) : (updMem s f).dbg = s.dbg := rfl
@[simp] theorem updMem_mgt (s : State) (f : Memory → Memory) : (updMem s f).mgt = s.mgt := rfl
@[simp] theorem updMem_pending (s : State) (f : Memory → Memory) : (updMem s f).pending = s.pending := rfl

@[simp] theorem updCore_core (s : State) (f : Cores → Cores) : (updCore s f).core = f s.core := rfl
@[simp] theorem updCore_regs (s : State) (f : Cores → Cores) : (updCore s f).regs = s.regs := rfl
@[simp] theorem updCore_now (s : State) (f : Cores → Cores) : (updCore s f).now = s.now := rfl
@[simp] theorem updCore_freeNext (s : State) (f : Cores → Cores) : (updCore s f).freeNext = s.freeNext := rfl
@[simp] theorem updCore_serve (s : State) (f : Cores → Cores) : (updCore s f).serve = s.serve := rfl
@[simp] theorem updCore_tt (s : State) (f : Cores → Cores) : (updCore s f).tt = s.tt := rfl
@[simp] theorem updCore_rep (s : State) (f : Cores → Cores) : (updCore s f).rep = s.rep := rfl
@[simp] theorem updCore_lard (s : State) (f : Cores → Cores) : (updCore s f).lard = s.lard := rfl
@[simp] theorem updCore_pann (s : State) (f : Cores → Cores) : (updCore s f).pann = s.pann := rfl
@[simp] theorem updCore_mem (s : State) (f : Cores → Cores) : (updCore s f).mem = s.mem := rfl
@[simp] theorem updCore_fab (s : State) (f : Cores → Cores) : (updCore s f).fab = s.fab := rfl
@[simp] theorem updCore_pwr (s : State) (f : Cores → Cores) : (updCore s f).pwr = s.pwr := rfl
@[simp] theorem updCore_ctxs (s : State) (f : Cores → Cores) : (updCore s f).ctxs = s.ctxs := rfl
@[simp] theorem updCore_boot (s : State) (f : Cores → Cores) : (updCore s f).boot = s.boot := rfl
@[simp] theorem updCore_dbg (s : State) (f : Cores → Cores) : (updCore s f).dbg = s.dbg := rfl
@[simp] theorem updCore_mgt (s : State) (f : Cores → Cores) : (updCore s f).mgt = s.mgt := rfl
@[simp] theorem updCore_pending (s : State) (f : Cores → Cores) : (updCore s f).pending = s.pending := rfl

@[simp] theorem updFab_fab (s : State) (f : Fabric → Fabric) : (updFab s f).fab = f s.fab := rfl
@[simp] theorem updFab_regs (s : State) (f : Fabric → Fabric) : (updFab s f).regs = s.regs := rfl
@[simp] theorem updFab_now (s : State) (f : Fabric → Fabric) : (updFab s f).now = s.now := rfl
@[simp] theorem updFab_freeNext (s : State) (f : Fabric → Fabric) : (updFab s f).freeNext = s.freeNext := rfl
@[simp] theorem updFab_serve (s : State) (f : Fabric → Fabric) : (updFab s f).serve = s.serve := rfl
@[simp] theorem updFab_tt (s : State) (f : Fabric → Fabric) : (updFab s f).tt = s.tt := rfl
@[simp] theorem updFab_rep (s : State) (f : Fabric → Fabric) : (updFab s f).rep = s.rep := rfl
@[simp] theorem updFab_lard (s : State) (f : Fabric → Fabric) : (updFab s f).lard = s.lard := rfl
@[simp] theorem updFab_pann (s : State) (f : Fabric → Fabric) : (updFab s f).pann = s.pann := rfl
@[simp] theorem updFab_mem (s : State) (f : Fabric → Fabric) : (updFab s f).mem = s.mem := rfl
@[simp] theorem updFab_core (s : State) (f : Fabric → Fabric) : (updFab s f).core = s.core := rfl
@[simp] theorem updFab_pwr (s : State) (f : Fabric → Fabric) : (updFab s f).pwr = s.pwr := rfl
@[simp] theorem updFab_ctxs (s : State) (f : Fabric → Fabric) : (updFab s f).ctxs = s.ctxs := rfl
@[simp] theorem updFab_boot (s : State) (f : Fabric → Fabric) : (updFab s f).boot = s.boot := rfl
@[simp] theorem updFab_dbg (s : State) (f : Fabric → Fabric) : (updFab s f).dbg = s.dbg := rfl
@[simp] theorem updFab_mgt (s : State) (f : Fabric → Fabric) : (updFab s f).mgt = s.mgt := rfl
@[simp] theorem updFab_pending (s : State) (f : Fabric → Fabric) : (updFab s f).pending = s.pending := rfl

@[simp] theorem updPwr_pwr (s : State) (f : Power → Power) : (updPwr s f).pwr = f s.pwr := rfl
@[simp] theorem updPwr_regs (s : State) (f : Power → Power) : (updPwr s f).regs = s.regs := rfl
@[simp] theorem updPwr_now (s : State) (f : Power → Power) : (updPwr s f).now = s.now := rfl
@[simp] theorem updPwr_freeNext (s : State) (f : Power → Power) : (updPwr s f).freeNext = s.freeNext := rfl
@[simp] theorem updPwr_serve (s : State) (f : Power → Power) : (updPwr s f).serve = s.serve := rfl
@[simp] theorem updPwr_tt (s : State) (f : Power → Power) : (updPwr s f).tt = s.tt := rfl
@[simp] theorem updPwr_rep (s : State) (f : Power → Power) : (updPwr s f).rep = s.rep := rfl
@[simp] theorem updPwr_lard (s : State) (f : Power → Power) : (updPwr s f).lard = s.lard := rfl
@[simp] theorem updPwr_pann (s : State) (f : Power → Power) : (updPwr s f).pann = s.pann := rfl
@[simp] theorem updPwr_mem (s : State) (f : Power → Power) : (updPwr s f).mem = s.mem := rfl
@[simp] theorem updPwr_core (s : State) (f : Power → Power) : (updPwr s f).core = s.core := rfl
@[simp] theorem updPwr_fab (s : State) (f : Power → Power) : (updPwr s f).fab = s.fab := rfl
@[simp] theorem updPwr_ctxs (s : State) (f : Power → Power) : (updPwr s f).ctxs = s.ctxs := rfl
@[simp] theorem updPwr_boot (s : State) (f : Power → Power) : (updPwr s f).boot = s.boot := rfl
@[simp] theorem updPwr_dbg (s : State) (f : Power → Power) : (updPwr s f).dbg = s.dbg := rfl
@[simp] theorem updPwr_mgt (s : State) (f : Power → Power) : (updPwr s f).mgt = s.mgt := rfl
@[simp] theorem updPwr_pending (s : State) (f : Power → Power) : (updPwr s f).pending = s.pending := rfl

@[simp] theorem updCtxs_ctxs (s : State) (f : Contexts → Contexts) : (updCtxs s f).ctxs = f s.ctxs := rfl
@[simp] theorem updCtxs_regs (s : State) (f : Contexts → Contexts) : (updCtxs s f).regs = s.regs := rfl
@[simp] theorem updCtxs_now (s : State) (f : Contexts → Contexts) : (updCtxs s f).now = s.now := rfl
@[simp] theorem updCtxs_freeNext (s : State) (f : Contexts → Contexts) : (updCtxs s f).freeNext = s.freeNext := rfl
@[simp] theorem updCtxs_serve (s : State) (f : Contexts → Contexts) : (updCtxs s f).serve = s.serve := rfl
@[simp] theorem updCtxs_tt (s : State) (f : Contexts → Contexts) : (updCtxs s f).tt = s.tt := rfl
@[simp] theorem updCtxs_rep (s : State) (f : Contexts → Contexts) : (updCtxs s f).rep = s.rep := rfl
@[simp] theorem updCtxs_lard (s : State) (f : Contexts → Contexts) : (updCtxs s f).lard = s.lard := rfl
@[simp] theorem updCtxs_pann (s : State) (f : Contexts → Contexts) : (updCtxs s f).pann = s.pann := rfl
@[simp] theorem updCtxs_mem (s : State) (f : Contexts → Contexts) : (updCtxs s f).mem = s.mem := rfl
@[simp] theorem updCtxs_core (s : State) (f : Contexts → Contexts) : (updCtxs s f).core = s.core := rfl
@[simp] theorem updCtxs_fab (s : State) (f : Contexts → Contexts) : (updCtxs s f).fab = s.fab := rfl
@[simp] theorem updCtxs_pwr (s : State) (f : Contexts → Contexts) : (updCtxs s f).pwr = s.pwr := rfl
@[simp] theorem updCtxs_boot (s : State) (f : Contexts → Contexts) : (updCtxs s f).boot = s.boot := rfl
@[simp] theorem updCtxs_dbg (s : State) (f : Contexts → Contexts) : (updCtxs s f).dbg = s.dbg := rfl
@[simp] theorem updCtxs_mgt (s : State) (f : Contexts → Contexts) : (updCtxs s f).mgt = s.mgt := rfl
@[simp] theorem updCtxs_pending (s : State) (f : Contexts → Contexts) : (updCtxs s f).pending = s.pending := rfl

@[simp] theorem updBoot_boot (s : State) (f : Boot → Boot) : (updBoot s f).boot = f s.boot := rfl
@[simp] theorem updBoot_regs (s : State) (f : Boot → Boot) : (updBoot s f).regs = s.regs := rfl
@[simp] theorem updBoot_now (s : State) (f : Boot → Boot) : (updBoot s f).now = s.now := rfl
@[simp] theorem updBoot_freeNext (s : State) (f : Boot → Boot) : (updBoot s f).freeNext = s.freeNext := rfl
@[simp] theorem updBoot_serve (s : State) (f : Boot → Boot) : (updBoot s f).serve = s.serve := rfl
@[simp] theorem updBoot_tt (s : State) (f : Boot → Boot) : (updBoot s f).tt = s.tt := rfl
@[simp] theorem updBoot_rep (s : State) (f : Boot → Boot) : (updBoot s f).rep = s.rep := rfl
@[simp] theorem updBoot_lard (s : State) (f : Boot → Boot) : (updBoot s f).lard = s.lard := rfl
@[simp] theorem updBoot_pann (s : State) (f : Boot → Boot) : (updBoot s f).pann = s.pann := rfl
@[simp] theorem updBoot_mem (s : State) (f : Boot → Boot) : (updBoot s f).mem = s.mem := rfl
@[simp] theorem updBoot_core (s : State) (f : Boot → Boot) : (updBoot s f).core = s.core := rfl
@[simp] theorem updBoot_fab (s : State) (f : Boot → Boot) : (updBoot s f).fab = s.fab := rfl
@[simp] theorem updBoot_pwr (s : State) (f : Boot → Boot) : (updBoot s f).pwr = s.pwr := rfl
@[simp] theorem updBoot_ctxs (s : State) (f : Boot → Boot) : (updBoot s f).ctxs = s.ctxs := rfl
@[simp] theorem updBoot_dbg (s : State) (f : Boot → Boot) : (updBoot s f).dbg = s.dbg := rfl
@[simp] theorem updBoot_mgt (s : State) (f : Boot → Boot) : (updBoot s f).mgt = s.mgt := rfl
@[simp] theorem updBoot_pending (s : State) (f : Boot → Boot) : (updBoot s f).pending = s.pending := rfl

@[simp] theorem updDbg_dbg (s : State) (f : DebugState → DebugState) : (updDbg s f).dbg = f s.dbg := rfl
@[simp] theorem updDbg_regs (s : State) (f : DebugState → DebugState) : (updDbg s f).regs = s.regs := rfl
@[simp] theorem updDbg_now (s : State) (f : DebugState → DebugState) : (updDbg s f).now = s.now := rfl
@[simp] theorem updDbg_freeNext (s : State) (f : DebugState → DebugState) : (updDbg s f).freeNext = s.freeNext := rfl
@[simp] theorem updDbg_serve (s : State) (f : DebugState → DebugState) : (updDbg s f).serve = s.serve := rfl
@[simp] theorem updDbg_tt (s : State) (f : DebugState → DebugState) : (updDbg s f).tt = s.tt := rfl
@[simp] theorem updDbg_rep (s : State) (f : DebugState → DebugState) : (updDbg s f).rep = s.rep := rfl
@[simp] theorem updDbg_lard (s : State) (f : DebugState → DebugState) : (updDbg s f).lard = s.lard := rfl
@[simp] theorem updDbg_pann (s : State) (f : DebugState → DebugState) : (updDbg s f).pann = s.pann := rfl
@[simp] theorem updDbg_mem (s : State) (f : DebugState → DebugState) : (updDbg s f).mem = s.mem := rfl
@[simp] theorem updDbg_core (s : State) (f : DebugState → DebugState) : (updDbg s f).core = s.core := rfl
@[simp] theorem updDbg_fab (s : State) (f : DebugState → DebugState) : (updDbg s f).fab = s.fab := rfl
@[simp] theorem updDbg_pwr (s : State) (f : DebugState → DebugState) : (updDbg s f).pwr = s.pwr := rfl
@[simp] theorem updDbg_ctxs (s : State) (f : DebugState → DebugState) : (updDbg s f).ctxs = s.ctxs := rfl
@[simp] theorem updDbg_boot (s : State) (f : DebugState → DebugState) : (updDbg s f).boot = s.boot := rfl
@[simp] theorem updDbg_mgt (s : State) (f : DebugState → DebugState) : (updDbg s f).mgt = s.mgt := rfl
@[simp] theorem updDbg_pending (s : State) (f : DebugState → DebugState) : (updDbg s f).pending = s.pending := rfl

@[simp] theorem updMgt_mgt (s : State) (f : Management → Management) : (updMgt s f).mgt = f s.mgt := rfl
@[simp] theorem updMgt_regs (s : State) (f : Management → Management) : (updMgt s f).regs = s.regs := rfl
@[simp] theorem updMgt_now (s : State) (f : Management → Management) : (updMgt s f).now = s.now := rfl
@[simp] theorem updMgt_freeNext (s : State) (f : Management → Management) : (updMgt s f).freeNext = s.freeNext := rfl
@[simp] theorem updMgt_serve (s : State) (f : Management → Management) : (updMgt s f).serve = s.serve := rfl
@[simp] theorem updMgt_tt (s : State) (f : Management → Management) : (updMgt s f).tt = s.tt := rfl
@[simp] theorem updMgt_rep (s : State) (f : Management → Management) : (updMgt s f).rep = s.rep := rfl
@[simp] theorem updMgt_lard (s : State) (f : Management → Management) : (updMgt s f).lard = s.lard := rfl
@[simp] theorem updMgt_pann (s : State) (f : Management → Management) : (updMgt s f).pann = s.pann := rfl
@[simp] theorem updMgt_mem (s : State) (f : Management → Management) : (updMgt s f).mem = s.mem := rfl
@[simp] theorem updMgt_core (s : State) (f : Management → Management) : (updMgt s f).core = s.core := rfl
@[simp] theorem updMgt_fab (s : State) (f : Management → Management) : (updMgt s f).fab = s.fab := rfl
@[simp] theorem updMgt_pwr (s : State) (f : Management → Management) : (updMgt s f).pwr = s.pwr := rfl
@[simp] theorem updMgt_ctxs (s : State) (f : Management → Management) : (updMgt s f).ctxs = s.ctxs := rfl
@[simp] theorem updMgt_boot (s : State) (f : Management → Management) : (updMgt s f).boot = s.boot := rfl
@[simp] theorem updMgt_dbg (s : State) (f : Management → Management) : (updMgt s f).dbg = s.dbg := rfl
@[simp] theorem updMgt_pending (s : State) (f : Management → Management) : (updMgt s f).pending = s.pending := rfl

@[simp] theorem wr_now (s : State) (f : Fld) (n v : Nat) : (wr s f n v).now = s.now := rfl
@[simp] theorem wr_freeNext (s : State) (f : Fld) (n v : Nat) : (wr s f n v).freeNext = s.freeNext := rfl
@[simp] theorem wr_serve (s : State) (f : Fld) (n v : Nat) : (wr s f n v).serve = s.serve := rfl
@[simp] theorem wr_tt (s : State) (f : Fld) (n v : Nat) : (wr s f n v).tt = s.tt := rfl
@[simp] theorem wr_rep (s : State) (f : Fld) (n v : Nat) : (wr s f n v).rep = s.rep := rfl
@[simp] theorem wr_lard (s : State) (f : Fld) (n v : Nat) : (wr s f n v).lard = s.lard := rfl
@[simp] theorem wr_pann (s : State) (f : Fld) (n v : Nat) : (wr s f n v).pann = s.pann := rfl
@[simp] theorem wr_mem (s : State) (f : Fld) (n v : Nat) : (wr s f n v).mem = s.mem := rfl
@[simp] theorem wr_core (s : State) (f : Fld) (n v : Nat) : (wr s f n v).core = s.core := rfl
@[simp] theorem wr_fab (s : State) (f : Fld) (n v : Nat) : (wr s f n v).fab = s.fab := rfl
@[simp] theorem wr_pwr (s : State) (f : Fld) (n v : Nat) : (wr s f n v).pwr = s.pwr := rfl
@[simp] theorem wr_ctxs (s : State) (f : Fld) (n v : Nat) : (wr s f n v).ctxs = s.ctxs := rfl
@[simp] theorem wr_boot (s : State) (f : Fld) (n v : Nat) : (wr s f n v).boot = s.boot := rfl
@[simp] theorem wr_dbg (s : State) (f : Fld) (n v : Nat) : (wr s f n v).dbg = s.dbg := rfl
@[simp] theorem wr_mgt (s : State) (f : Fld) (n v : Nat) : (wr s f n v).mgt = s.mgt := rfl
@[simp] theorem wr_pending (s : State) (f : Fld) (n v : Nat) : (wr s f n v).pending = s.pending := rfl

@[simp] theorem wrb_now (s : State) (f : Fld) (n : Nat) (b : Bool) : (wrb s f n b).now = s.now := rfl
@[simp] theorem wrb_freeNext (s : State) (f : Fld) (n : Nat) (b : Bool) : (wrb s f n b).freeNext = s.freeNext := rfl
@[simp] theorem wrb_serve (s : State) (f : Fld) (n : Nat) (b : Bool) : (wrb s f n b).serve = s.serve := rfl
@[simp] theorem wrb_tt (s : State) (f : Fld) (n : Nat) (b : Bool) : (wrb s f n b).tt = s.tt := rfl
@[simp] theorem wrb_rep (s : State) (f : Fld) (n : Nat) (b : Bool) : (wrb s f n b).rep = s.rep := rfl
@[simp] theorem wrb_lard (s : State) (f : Fld) (n : Nat) (b : Bool) : (wrb s f n b).lard = s.lard := rfl
@[simp] theorem wrb_pann (s : State) (f : Fld) (n : Nat) (b : Bool) : (wrb s f n b).pann = s.pann := rfl
@[simp] theorem wrb_mem (s : State) (f : Fld) (n : Nat) (b : Bool) : (wrb s f n b).mem = s.mem := rfl
@[simp] theorem wrb_core (s : State) (f : Fld) (n : Nat) (b : Bool) : (wrb s f n b).core = s.core := rfl
@[simp] theorem wrb_fab (s : State) (f : Fld) (n : Nat) (b : Bool) : (wrb s f n b).fab = s.fab := rfl
@[simp] theorem wrb_pwr (s : State) (f : Fld) (n : Nat) (b : Bool) : (wrb s f n b).pwr = s.pwr := rfl
@[simp] theorem wrb_ctxs (s : State) (f : Fld) (n : Nat) (b : Bool) : (wrb s f n b).ctxs = s.ctxs := rfl
@[simp] theorem wrb_boot (s : State) (f : Fld) (n : Nat) (b : Bool) : (wrb s f n b).boot = s.boot := rfl
@[simp] theorem wrb_dbg (s : State) (f : Fld) (n : Nat) (b : Bool) : (wrb s f n b).dbg = s.dbg := rfl
@[simp] theorem wrb_mgt (s : State) (f : Fld) (n : Nat) (b : Bool) : (wrb s f n b).mgt = s.mgt := rfl
@[simp] theorem wrb_pending (s : State) (f : Fld) (n : Nat) (b : Bool) : (wrb s f n b).pending = s.pending := rfl

@[simp] theorem inc_now (s : State) (f : Fld) (n k : Nat) : (inc s f n k).now = s.now := rfl
@[simp] theorem inc_freeNext (s : State) (f : Fld) (n k : Nat) : (inc s f n k).freeNext = s.freeNext := rfl
@[simp] theorem inc_serve (s : State) (f : Fld) (n k : Nat) : (inc s f n k).serve = s.serve := rfl
@[simp] theorem inc_tt (s : State) (f : Fld) (n k : Nat) : (inc s f n k).tt = s.tt := rfl
@[simp] theorem inc_rep (s : State) (f : Fld) (n k : Nat) : (inc s f n k).rep = s.rep := rfl
@[simp] theorem inc_lard (s : State) (f : Fld) (n k : Nat) : (inc s f n k).lard = s.lard := rfl
@[simp] theorem inc_pann (s : State) (f : Fld) (n k : Nat) : (inc s f n k).pann = s.pann := rfl
@[simp] theorem inc_mem (s : State) (f : Fld) (n k : Nat) : (inc s f n k).mem = s.mem := rfl
@[simp] theorem inc_core (s : State) (f : Fld) (n k : Nat) : (inc s f n k).core = s.core := rfl
@[simp] theorem inc_fab (s : State) (f : Fld) (n k : Nat) : (inc s f n k).fab = s.fab := rfl
@[simp] theorem inc_pwr (s : State) (f : Fld) (n k : Nat) : (inc s f n k).pwr = s.pwr := rfl
@[simp] theorem inc_ctxs (s : State) (f : Fld) (n k : Nat) : (inc s f n k).ctxs = s.ctxs := rfl
@[simp] theorem inc_boot (s : State) (f : Fld) (n k : Nat) : (inc s f n k).boot = s.boot := rfl
@[simp] theorem inc_dbg (s : State) (f : Fld) (n k : Nat) : (inc s f n k).dbg = s.dbg := rfl
@[simp] theorem inc_mgt (s : State) (f : Fld) (n k : Nat) : (inc s f n k).mgt = s.mgt := rfl
@[simp] theorem inc_pending (s : State) (f : Fld) (n k : Nat) : (inc s f n k).pending = s.pending := rfl

@[simp] theorem incWrap_now (s : State) (f : Fld) (n : Nat) : (incWrap s f n).now = s.now := rfl
@[simp] theorem incWrap_freeNext (s : State) (f : Fld) (n : Nat) : (incWrap s f n).freeNext = s.freeNext := rfl
@[simp] theorem incWrap_serve (s : State) (f : Fld) (n : Nat) : (incWrap s f n).serve = s.serve := rfl
@[simp] theorem incWrap_tt (s : State) (f : Fld) (n : Nat) : (incWrap s f n).tt = s.tt := rfl
@[simp] theorem incWrap_rep (s : State) (f : Fld) (n : Nat) : (incWrap s f n).rep = s.rep := rfl
@[simp] theorem incWrap_lard (s : State) (f : Fld) (n : Nat) : (incWrap s f n).lard = s.lard := rfl
@[simp] theorem incWrap_pann (s : State) (f : Fld) (n : Nat) : (incWrap s f n).pann = s.pann := rfl
@[simp] theorem incWrap_mem (s : State) (f : Fld) (n : Nat) : (incWrap s f n).mem = s.mem := rfl
@[simp] theorem incWrap_core (s : State) (f : Fld) (n : Nat) : (incWrap s f n).core = s.core := rfl
@[simp] theorem incWrap_fab (s : State) (f : Fld) (n : Nat) : (incWrap s f n).fab = s.fab := rfl
@[simp] theorem incWrap_pwr (s : State) (f : Fld) (n : Nat) : (incWrap s f n).pwr = s.pwr := rfl
@[simp] theorem incWrap_ctxs (s : State) (f : Fld) (n : Nat) : (incWrap s f n).ctxs = s.ctxs := rfl
@[simp] theorem incWrap_boot (s : State) (f : Fld) (n : Nat) : (incWrap s f n).boot = s.boot := rfl
@[simp] theorem incWrap_dbg (s : State) (f : Fld) (n : Nat) : (incWrap s f n).dbg = s.dbg := rfl
@[simp] theorem incWrap_mgt (s : State) (f : Fld) (n : Nat) : (incWrap s f n).mgt = s.mgt := rfl
@[simp] theorem incWrap_pending (s : State) (f : Fld) (n : Nat) : (incWrap s f n).pending = s.pending := rfl

@[simp] theorem tick_now (s : State) (t : Nat) : (tick s t).now = max s.now t := rfl
@[simp] theorem tick_regs (s : State) (t : Nat) : (tick s t).regs = s.regs := rfl
@[simp] theorem tick_freeNext (s : State) (t : Nat) : (tick s t).freeNext = s.freeNext := rfl
@[simp] theorem tick_serve (s : State) (t : Nat) : (tick s t).serve = s.serve := rfl
@[simp] theorem tick_tt (s : State) (t : Nat) : (tick s t).tt = s.tt := rfl
@[simp] theorem tick_rep (s : State) (t : Nat) : (tick s t).rep = s.rep := rfl
@[simp] theorem tick_lard (s : State) (t : Nat) : (tick s t).lard = s.lard := rfl
@[simp] theorem tick_pann (s : State) (t : Nat) : (tick s t).pann = s.pann := rfl
@[simp] theorem tick_mem (s : State) (t : Nat) : (tick s t).mem = s.mem := rfl
@[simp] theorem tick_core (s : State) (t : Nat) : (tick s t).core = s.core := rfl
@[simp] theorem tick_fab (s : State) (t : Nat) : (tick s t).fab = s.fab := rfl
@[simp] theorem tick_pwr (s : State) (t : Nat) : (tick s t).pwr = s.pwr := rfl
@[simp] theorem tick_ctxs (s : State) (t : Nat) : (tick s t).ctxs = s.ctxs := rfl
@[simp] theorem tick_boot (s : State) (t : Nat) : (tick s t).boot = s.boot := rfl
@[simp] theorem tick_dbg (s : State) (t : Nat) : (tick s t).dbg = s.dbg := rfl
@[simp] theorem tick_mgt (s : State) (t : Nat) : (tick s t).mgt = s.mgt := rfl
@[simp] theorem tick_pending (s : State) (t : Nat) : (tick s t).pending = s.pending := rfl

@[simp] theorem emit_regs (s : State) (x : Out) : (emit s x).regs = s.regs := rfl
@[simp] theorem emit_now (s : State) (x : Out) : (emit s x).now = s.now := rfl
@[simp] theorem emit_freeNext (s : State) (x : Out) : (emit s x).freeNext = s.freeNext := rfl
@[simp] theorem emit_serve (s : State) (x : Out) : (emit s x).serve = s.serve := rfl
@[simp] theorem emit_tt (s : State) (x : Out) : (emit s x).tt = s.tt := rfl
@[simp] theorem emit_lard (s : State) (x : Out) : (emit s x).lard = s.lard := rfl
@[simp] theorem emit_pann (s : State) (x : Out) : (emit s x).pann = s.pann := rfl
@[simp] theorem emit_mem (s : State) (x : Out) : (emit s x).mem = s.mem := rfl
@[simp] theorem emit_core (s : State) (x : Out) : (emit s x).core = s.core := rfl
@[simp] theorem emit_fab (s : State) (x : Out) : (emit s x).fab = s.fab := rfl
@[simp] theorem emit_pwr (s : State) (x : Out) : (emit s x).pwr = s.pwr := rfl
@[simp] theorem emit_ctxs (s : State) (x : Out) : (emit s x).ctxs = s.ctxs := rfl
@[simp] theorem emit_boot (s : State) (x : Out) : (emit s x).boot = s.boot := rfl
@[simp] theorem emit_dbg (s : State) (x : Out) : (emit s x).dbg = s.dbg := rfl
@[simp] theorem emit_mgt (s : State) (x : Out) : (emit s x).mgt = s.mgt := rfl
@[simp] theorem emit_pending (s : State) (x : Out) : (emit s x).pending = s.pending := rfl

@[simp] theorem takeFree_snd (s : State) (w : Nat) : (takeFree s w).2 = { s with freeNext := s.freeNext + 1 } := rfl

/-! Registers -/

/-- A register read looks only at the registers. -/
theorem rd_congr {s t : State} (h : t.regs = s.regs) (f : Fld) (n : Nat) : rd t f n = rd s f n := by
  unfold rd
  rw [h]

@[simp] theorem rd_wr_same (s : State) (f : Fld) (n v : Nat) : rd (wr s f n v) f n = v := by
  simp [rd, wr]

theorem rd_wr_ne (s : State) (f g : Fld) (n m v : Nat) (h : ¬ (g = f ∧ m = n)) : rd (wr s f n v) g m = rd s g m := by
  have hk : regKey g m ≠ regKey f n := fun e => h (regKey_inj.mp e)
  simp [rd, wr, storeGet_put_other _ _ _ _ hk]

/-- A register field after a write of a field. -/
theorem rd_wr (s : State) (f g : Fld) (n m v : Nat) : rd (wr s f n v) g m = if g = f ∧ m = n then v else rd s g m := by
  split
  · next h => obtain ⟨rfl, rfl⟩ := h; simp
  · next h => exact rd_wr_ne s f g n m v h

theorem rd_wrb (s : State) (f g : Fld) (n m : Nat) (b : Bool) :
    rd (wrb s f n b) g m = if g = f ∧ m = n then b2n b else rd s g m := rd_wr s f g n m (b2n b)

theorem rd_inc (s : State) (f g : Fld) (n m k : Nat) :
    rd (inc s f n k) g m = if g = f ∧ m = n then satAdd (fieldWidth f) (rd s f n) k else rd s g m :=
  rd_wr s f g n m _

theorem rd_incWrap (s : State) (f g : Fld) (n m : Nat) :
    rd (incWrap s f n) g m = if g = f ∧ m = n then (rd s f n + 1) % 2 ^ fieldWidth f else rd s g m :=
  rd_wr s f g n m _

/-- Writing one field of a list of instances leaves every other field. -/
theorem rd_wrAll_ne (f g : Fld) (v m : Nat) (h : g ≠ f) (ns : List Nat) (s : State) :
    rd (wrAll s f ns v) g m = rd s g m := by
  induction ns generalizing s with
  | nil => rfl
  | cons n r ih =>
    have e : wrAll s f (n :: r) v = wrAll (wr s f n v) f r v := rfl
    rw [e, ih, rd_wr_ne _ _ _ _ _ _ (fun x => h x.1)]

@[simp] theorem rd_updServe (s : State) (f : Serving → Serving) (g : Fld) (n : Nat) : rd (updServe s f) g n = rd s g n := rfl
@[simp] theorem rd_updTt (s : State) (f : Timetable → Timetable) (g : Fld) (n : Nat) : rd (updTt s f) g n = rd s g n := rfl
@[simp] theorem rd_updRep (s : State) (f : Reporting → Reporting) (g : Fld) (n : Nat) : rd (updRep s f) g n = rd s g n := rfl
@[simp] theorem rd_updLard (s : State) (f : Larder → Larder) (g : Fld) (n : Nat) : rd (updLard s f) g n = rd s g n := rfl
@[simp] theorem rd_updPann (s : State) (f : Pannier → Pannier) (g : Fld) (n : Nat) : rd (updPann s f) g n = rd s g n := rfl
@[simp] theorem rd_updMem (s : State) (f : Memory → Memory) (g : Fld) (n : Nat) : rd (updMem s f) g n = rd s g n := rfl
@[simp] theorem rd_updCore (s : State) (f : Cores → Cores) (g : Fld) (n : Nat) : rd (updCore s f) g n = rd s g n := rfl
@[simp] theorem rd_updFab (s : State) (f : Fabric → Fabric) (g : Fld) (n : Nat) : rd (updFab s f) g n = rd s g n := rfl
@[simp] theorem rd_updPwr (s : State) (f : Power → Power) (g : Fld) (n : Nat) : rd (updPwr s f) g n = rd s g n := rfl
@[simp] theorem rd_updCtxs (s : State) (f : Contexts → Contexts) (g : Fld) (n : Nat) : rd (updCtxs s f) g n = rd s g n := rfl
@[simp] theorem rd_updBoot (s : State) (f : Boot → Boot) (g : Fld) (n : Nat) : rd (updBoot s f) g n = rd s g n := rfl
@[simp] theorem rd_updDbg (s : State) (f : DebugState → DebugState) (g : Fld) (n : Nat) : rd (updDbg s f) g n = rd s g n := rfl
@[simp] theorem rd_updMgt (s : State) (f : Management → Management) (g : Fld) (n : Nat) : rd (updMgt s f) g n = rd s g n := rfl
@[simp] theorem rd_tick (s : State) (t : Nat) (g : Fld) (n : Nat) : rd (tick s t) g n = rd s g n := rfl
@[simp] theorem rd_emit (s : State) (x : Out) (g : Fld) (n : Nat) : rd (emit s x) g n = rd s g n := rfl

theorem rdb_eq (s : State) (f : Fld) (n : Nat) : rdb s f n = (rd s f n == 1) := rfl

/-! Folds -/

/-- What every step of a fold keeps, the fold keeps. -/
theorem each_keep {α : Type} {p : State → Prop} (f : State → α → State) (hf : ∀ s a, p s → p (f s a)) (l : List α) (s : State)
    (h : p s) : p (each l s f) := by
  induction l generalizing s with
  | nil => exact h
  | cons a r ih => exact ih (f s a) (hf s a h)

/-- A view of the state that no step of a fold changes, the fold does not change. -/
theorem each_view {α β : Type} (v : State → β) (f : State → α → State) (hf : ∀ s a, v (f s a) = v s) (l : List α) (s : State) :
    v (each l s f) = v s := by
  induction l generalizing s with
  | nil => rfl
  | cons a r ih => exact (ih (f s a)).trans (hf s a)

end Sys2Proof.Machine
end

