-- ==== Sys2Proof/Laws/Settle.lean ====
section
/-! SUPPORT. What every command ends with: the registers that are views of lists show them, every other register and every
other part of the state is as the command left it, and the queue is as it was. -/

namespace Sys2Proof.Machine

/-- What a field reads in a register store. -/
def getReg (m : Store Nat) (f : Fld) (n : Nat) : Nat := storeGet (regReset f n) m (regKey f n)

theorem rd_getReg (s : State) (f : Fld) (n : Nat) : rd s f n = getReg s.regs f n := rfl

theorem getReg_put (m : Store Nat) (f g : Fld) (n k v : Nat) :
    getReg (putReg m f n v) g k = if g = f ∧ k = n then v else getReg m g k := by
  unfold getReg putReg
  split
  · next h => obtain ⟨rfl, rfl⟩ := h; simp
  · next h =>
    have hk : regKey g k ≠ regKey f n := fun e => h (regKey_inj.mp e)
    simp [storeGet_put_other _ _ _ _ hk]

theorem getReg_open (s : State) (l : List Nat) (m : Store Nat) (g : Fld) (n : Nat) :
    getReg (l.foldl (fun m c => putReg m .SERVE_OPEN_ITEMS c (itemCount s c)) m) g n =
      if g = .SERVE_OPEN_ITEMS ∧ n ∈ l then itemCount s n else getReg m g n := by
  induction l generalizing m with
  | nil => simp
  | cons c r ih =>
    rw [List.foldl_cons, ih, getReg_put]
    by_cases hg : g = .SERVE_OPEN_ITEMS <;> by_cases hn : n ∈ r <;> by_cases hc : n = c <;> simp [hg, hn, hc]

/-- What any field reads once the views show their lists. -/
theorem rd_mirror (s : State) (g : Fld) (n : Nat) :
    rd (mirror s) g n =
      if g = .MGMT_EVENTS_PENDING ∧ n = 0 then min 4096 s.rep.faultQueue.length
      else if g = .SERVE_SESSIONS_OPEN ∧ n = 0 then s.serve.sessions.length
      else if g = .SERVE_OPEN_ITEMS ∧ n < 64 then itemCount s n
      else rd s g n := by
  have e : rd (mirror s) g n = getReg (viewRegs s) g n := rfl
  rw [e]
  unfold viewRegs
  simp only [getReg_put, getReg_open, List.mem_range]
  rfl

/-- A field that is no view reads as before. -/
theorem rd_mirror_other (s : State) (g : Fld) (n : Nat) (h : g ∉ viewFlds) : rd (mirror s) g n = rd s g n := by
  rw [rd_mirror]
  simp only [viewFlds, List.mem_cons, List.not_mem_nil, or_false, not_or] at h
  simp [h.1, h.2.1, h.2.2]

/-- The next state of a command that ends with `settle`. -/
def settled (s t : State) : State := { mirror t with pending := s.pending }

theorem settle_eq (s t : State) : settle s t = .next (settled s t) := rfl

theorem rd_settled (s t : State) (g : Fld) (n : Nat) : rd (settled s t) g n = rd (mirror t) g n := rfl

theorem rd_settled_other (s t : State) (g : Fld) (n : Nat) (h : g ∉ viewFlds) : rd (settled s t) g n = rd t g n :=
  rd_mirror_other t g n h

/-- After every command the views agree. -/
theorem settled_views (s t : State) : ViewsAgree (settled s t) := by
  refine ⟨fun c hc => ?_, ?_, ?_⟩ <;> rw [rd_settled, rd_mirror]
  · have h : ¬ (Fld.SERVE_OPEN_ITEMS = Fld.MGMT_EVENTS_PENDING ∧ c = 0) := by simp
    have h' : ¬ (Fld.SERVE_OPEN_ITEMS = Fld.SERVE_SESSIONS_OPEN ∧ c = 0) := by simp
    rw [if_neg h, if_neg h', if_pos ⟨rfl, hc⟩]
    rfl
  · rfl
  · rfl

@[simp] theorem settled_now (s t : State) : (settled s t).now = t.now := rfl
@[simp] theorem settled_freeNext (s t : State) : (settled s t).freeNext = t.freeNext := rfl
@[simp] theorem settled_serve (s t : State) : (settled s t).serve = t.serve := rfl
@[simp] theorem settled_tt (s t : State) : (settled s t).tt = t.tt := rfl
@[simp] theorem settled_rep (s t : State) : (settled s t).rep = t.rep := rfl
@[simp] theorem settled_lard (s t : State) : (settled s t).lard = t.lard := rfl
@[simp] theorem settled_pann (s t : State) : (settled s t).pann = t.pann := rfl
@[simp] theorem settled_mem (s t : State) : (settled s t).mem = t.mem := rfl
@[simp] theorem settled_core (s t : State) : (settled s t).core = t.core := rfl
@[simp] theorem settled_fab (s t : State) : (settled s t).fab = t.fab := rfl
@[simp] theorem settled_pwr (s t : State) : (settled s t).pwr = t.pwr := rfl
@[simp] theorem settled_ctxs (s t : State) : (settled s t).ctxs = t.ctxs := rfl
@[simp] theorem settled_boot (s t : State) : (settled s t).boot = t.boot := rfl
@[simp] theorem settled_dbg (s t : State) : (settled s t).dbg = t.dbg := rfl
@[simp] theorem settled_mgt (s t : State) : (settled s t).mgt = t.mgt := rfl
@[simp] theorem settled_pending (s t : State) : (settled s t).pending = s.pending := rfl

end Sys2Proof.Machine
end

