-- ==== Sys2Proof/Laws/Frames.lean ====
section
/-! SUPPORT. What the shared operations can change: the parts of the state and the register fields, one lemma for each
operation of the report path, of interrupts, of trails and of event queues. -/

namespace Sys2Proof.Machine

/-- At most the parts ps and the fields fs differ. -/
structure Within (ps : List Part) (fs : List Fld) (s t : State) : Prop where
  parts : KeptBut ps s t
  regs : RegsBut fs s t

theorem Part.Same.trans {p : Part} {s t u : State} (h : p.Same s t) (k : p.Same t u) : p.Same s u := by
  cases p <;> exact Eq.trans k h

theorem Within.refl (ps : List Part) (fs : List Fld) (s : State) : Within ps fs s s :=
  ⟨fun p _ => by cases p <;> rfl, fun _ _ _ => rfl⟩

theorem Within.trans {ps : List Part} {fs : List Fld} {s t u : State} (h : Within ps fs s t) (k : Within ps fs t u) :
    Within ps fs s u :=
  ⟨fun p hp => (h.parts p hp).trans (k.parts p hp), fun f n hf => (k.regs f n hf).trans (h.regs f n hf)⟩

theorem Within.mono {ps qs : List Part} {fs gs : List Fld} {s t : State} (h : Within ps fs s t) (hp : ps ⊆ qs)
    (hf : fs ⊆ gs) : Within qs gs s t :=
  ⟨fun p k => h.parts p fun e => k (hp e), fun f n k => h.regs f n fun e => k (hf e)⟩

/-- A chain of updates, one at a time. -/
theorem within_let {ps : List Part} {fs : List Fld} {s u : State} {b : State → State} (h : Within ps fs s u)
    (k : Within ps fs u (b u)) : Within ps fs s (have x := u; b x) := h.trans k

theorem within_wr (s : State) (f : Fld) (n v : Nat) : Within [] [f] s (wr s f n v) :=
  ⟨fun p _ => by cases p <;> rfl, fun g m hg => rd_wr_ne s f g n m v fun e => hg (by simp [e.1])⟩

theorem within_wrb (s : State) (f : Fld) (n : Nat) (b : Bool) : Within [] [f] s (wrb s f n b) := within_wr s f n _
theorem within_inc (s : State) (f : Fld) (n k : Nat) : Within [] [f] s (inc s f n k) := within_wr s f n _
theorem within_incWrap (s : State) (f : Fld) (n : Nat) : Within [] [f] s (incWrap s f n) := within_wr s f n _

theorem within_incX (s : State) (f : Fld) (n k : Nat) : Within [] [f] s (incX s f n k) := by
  unfold incX
  split
  · exact Within.refl _ _ _
  · exact within_inc s f n k

theorem within_rep (s : State) (f : Reporting → Reporting) : Within [.rep] [] s (updRep s f) :=
  ⟨fun p hp => by cases p <;> first | rfl | exact absurd (by simp) hp, fun _ _ _ => rfl⟩

theorem within_serve (s : State) (f : Serving → Serving) : Within [.serve] [] s (updServe s f) :=
  ⟨fun p hp => by cases p <;> first | rfl | exact absurd (by simp) hp, fun _ _ _ => rfl⟩

theorem within_dbg (s : State) (f : DebugState → DebugState) : Within [.dbg] [] s (updDbg s f) :=
  ⟨fun p hp => by cases p <;> first | rfl | exact absurd (by simp) hp, fun _ _ _ => rfl⟩

theorem within_core (s : State) (f : Cores → Cores) : Within [.core] [] s (updCore s f) :=
  ⟨fun p hp => by cases p <;> first | rfl | exact absurd (by simp) hp, fun _ _ _ => rfl⟩

theorem within_mem (s : State) (f : Memory → Memory) : Within [.mem] [] s (updMem s f) :=
  ⟨fun p hp => by cases p <;> first | rfl | exact absurd (by simp) hp, fun _ _ _ => rfl⟩

theorem within_boot (s : State) (f : Boot → Boot) : Within [.boot] [] s (updBoot s f) :=
  ⟨fun p hp => by cases p <;> first | rfl | exact absurd (by simp) hp, fun _ _ _ => rfl⟩

theorem within_ctxs (s : State) (f : Contexts → Contexts) : Within [.ctxs] [] s (updCtxs s f) :=
  ⟨fun p hp => by cases p <;> first | rfl | exact absurd (by simp) hp, fun _ _ _ => rfl⟩

theorem within_mgt (s : State) (f : Management → Management) : Within [.mgt] [] s (updMgt s f) :=
  ⟨fun p hp => by cases p <;> first | rfl | exact absurd (by simp) hp, fun _ _ _ => rfl⟩

theorem within_pann (s : State) (f : Pannier → Pannier) : Within [.pann] [] s (updPann s f) :=
  ⟨fun p hp => by cases p <;> first | rfl | exact absurd (by simp) hp, fun _ _ _ => rfl⟩

theorem within_fab (s : State) (f : Fabric → Fabric) : Within [.fab] [] s (updFab s f) :=
  ⟨fun p hp => by cases p <;> first | rfl | exact absurd (by simp) hp, fun _ _ _ => rfl⟩

theorem within_pwr (s : State) (f : Power → Power) : Within [.pwr] [] s (updPwr s f) :=
  ⟨fun p hp => by cases p <;> first | rfl | exact absurd (by simp) hp, fun _ _ _ => rfl⟩

theorem within_tt (s : State) (f : Timetable → Timetable) : Within [.tt] [] s (updTt s f) :=
  ⟨fun p hp => by cases p <;> first | rfl | exact absurd (by simp) hp, fun _ _ _ => rfl⟩

theorem within_tick (s : State) (t : Nat) : Within [.now] [] s (tick s t) :=
  ⟨fun p hp => by cases p <;> first | rfl | exact absurd (by simp) hp, fun _ _ _ => rfl⟩

theorem within_emit (s : State) (o : Out) : Within [.rep] [] s (emit s o) := within_rep s _

theorem within_each {α : Type} {ps : List Part} {fs : List Fld} (f : State → α → State) (h : ∀ s a, Within ps fs s (f s a)) :
    ∀ (l : List α) (s : State), Within ps fs s (each l s f)
  | [], s => Within.refl ps fs s
  | a :: r, s => (h s a).trans (within_each f h r (f s a))

/-! Interrupts and records -/

theorem within_sendMsix (s : State) (fn entry : Nat) : Within [.rep] [] s (sendMsix s fn entry) := by
  unfold sendMsix
  split
  · exact within_rep _ _
  · exact within_emit _ _

theorem within_setPfTarget (s : State) (e : Nat) (t : PfTarget) : Within [.rep] [] s (setPfTarget s e t) := within_rep s _

theorem within_sendPf (s : State) (e : Nat) (src : IrqSource) : Within [.rep] [] s (sendPf s e src) :=
  (within_setPfTarget _ _ _).trans (within_sendMsix _ _ _)

theorem within_deliver (s : State) (src : IrqSource) : Within [.rep] [] s (deliver s src) := by
  unfold deliver
  split
  · split
    · exact Within.refl _ _ _
    · exact within_rep _ _
  · extract_lets u t
    refine Within.trans (t := u) (within_rep s _) ?_
    split
    · exact within_sendPf _ _ _
    · split
      · exact Within.refl _ _ _
      · exact within_setPfTarget _ _ _

theorem within_deliverPending (s : State) : Within [.rep] [] s (deliverPending s) := by
  unfold deliverPending
  refine within_each _ (fun t src => ?_) _ _
  split
  · exact (within_rep t _).trans (within_deliver _ _)
  · exact Within.refl _ _ _

theorem within_raiseModule (s : State) (bit : Fld) : Within [.rep] [bit] s (raiseModule s bit) :=
  ((within_wr s bit 0 1).mono (by simp) (by simp)).trans ((within_deliver _ _).mono (by simp) (by simp))

theorem within_acceptRecord (s : State) (c : CellarRec) : Within [.rep] reportFlds s (acceptRecord s c) := by
  unfold acceptRecord
  extract_lets c' u v
  refine Within.trans (t := v) (Within.trans (t := u) ((within_incWrap s .CELLAR_NEXT_SEQ 0).mono (by simp) (by simp [reportFlds]))
    ((within_rep _ _).mono (by simp) (by simp))) ?_
  split
  · exact ((within_rep _ _).mono (by simp) (by simp)).trans ((within_raiseModule _ _).mono (by simp) (by simp [reportFlds]))
  · exact (within_inc _ _ _ _).mono (by simp) (by simp [reportFlds])

theorem within_queueRecord (s : State) (c : CellarRec) : Within [.rep] reportFlds s (queueRecord s c) := by
  unfold queueRecord
  split
  · exact within_acceptRecord s c
  · split
    · exact (within_rep _ _).mono (by simp) (by simp)
    · exact ((within_rep _ _).mono (by simp) (by simp)).trans (within_acceptRecord _ _)

/-- A Cellar record touches only the report path. -/
theorem within_report (s : State) (kind unit : Nat) (data : List (Nat × Nat × Bool)) (cause : Option Nat) (st : Nat)
    (injected : Bool) : Within [.rep] reportFlds s (report s kind unit data cause st injected) := within_queueRecord _ _

theorem within_logEntry (s : State) (kind detail unit duration : Nat) :
    Within [.rep] [] s (logEntry s kind detail unit duration) := by
  unfold logEntry
  exact within_rep s _

/-! Trails -/

theorem within_trail (s : State) (k code ctx arg16 arg32 : Nat) : Within [.dbg] [] s (trail s k code ctx arg16 arg32) := by
  unfold trail
  split
  · exact within_dbg _ _
  · split
    · exact Within.refl _ _ _
    · exact within_dbg _ _

theorem within_contribute (s : State) (i n : Nat) : Within [.dbg] [] s (contribute s i n) := within_dbg s _

theorem within_freezeScope (s : State) (h trigger : Nat) : Within [.dbg] freezeFlds s (freezeScope s h trigger) := by
  unfold freezeScope
  have w : ∀ (u : State) (f : Fld) (n v : Nat), f ∈ freezeFlds → Within [.dbg] freezeFlds u (wr u f n v) :=
    fun u f n v hf => (within_wr u f n v).mono (by simp) (by simpa using hf)
  have d : ∀ (u : State) (g : DebugState → DebugState), Within [.dbg] freezeFlds u (updDbg u g) :=
    fun u g => (within_dbg u g).mono (by simp) (by simp)
  have two : ∀ u : State, Within [.dbg] freezeFlds u (wr (wr u .DBG_STATUS_FROZEN 0 1) .DBG_FREEZE_AT 0 u.now) :=
    fun u => (w u _ _ _ (by simp [freezeFlds])).trans (w _ _ _ _ (by simp [freezeFlds]))
  dsimp only
  generalize (if h = 160 then s.dbg.vFrozen else rdb s .DBG_TRAIL_STATUS_FROZEN h) = frozen
  have first : Within [.dbg] freezeFlds s (if h = 160 then updDbg s fun d => { d with vFrozen := true }
      else wr (wr (wr s .DBG_TRAIL_STATUS_FROZEN h 1) .DBG_TRAIL_STATUS_TRIGGER h trigger) .DBG_TRAIL_STATUS_DUMPED h 0) := by
    split
    · exact d s _
    · exact (w s _ _ _ (by simp [freezeFlds])).trans ((w _ _ _ _ (by simp [freezeFlds])).trans
        (w _ _ _ _ (by simp [freezeFlds])))
  revert first
  generalize (if h = 160 then updDbg s fun d => { d with vFrozen := true }
      else wr (wr (wr s .DBG_TRAIL_STATUS_FROZEN h 1) .DBG_TRAIL_STATUS_TRIGGER h trigger) .DBG_TRAIL_STATUS_DUMPED h 0) = x
  intro first
  cases frozen
  · simp only [Bool.false_eq_true, if_false]
    refine first.trans ((two _).trans ?_)
    split
    · exact Within.refl _ _ _
    · exact d _ _
  · exact Within.refl _ _ _

theorem within_freezeHub (s : State) (h bit : Nat) : Within [.dbg] freezeFlds s (freezeHub s h bit) := by
  unfold freezeHub
  split
  · exact (within_freezeScope _ _ _).trans (within_freezeScope _ _ _)
  · exact Within.refl _ _ _

/-- A hub error touches only the report path and the trails. -/
theorem within_hubError (s : State) (hub off value slot : Nat) (cause : Option Nat) :
    Within [.rep, .dbg] errorFlds s (hubError s hub off value slot cause) := by
  unfold hubError
  exact ((within_report _ _ _ _ _ _ _).mono (by simp) (by simp [errorFlds])).trans
    (((within_trail _ _ _ _ _ _).mono (by simp) (by simp)).trans ((within_freezeHub _ _ _).mono (by simp) (by simp [errorFlds])))

/-! Event queues -/

/-- An event touches only serving, the report path and these fields. -/
abbrev EventFrame (s t : State) : Prop := Within [.serve, .rep] eventFlds s t

theorem frame_setQueue (s : State) (c : Nat) (q : CtxQueue) : EventFrame s (setQueue s c q) :=
  (within_serve s _).mono (by simp) (by simp)

theorem frame_fireEvq (s : State) (c : Nat) : EventFrame s (fireEvq s c) := by
  unfold fireEvq
  dsimp only
  split
  · exact (frame_setQueue _ _ _).trans ((within_sendMsix _ _ _).mono (by simp) (by simp))
  · exact Within.refl _ _ _

theorem frame_writeControl (s : State) (c : Nat) : EventFrame s (writeControl s c) :=
  (within_emit s _).mono (by simp) (by simp)

theorem frame_spillStatus (s : State) (c : Nat) : EventFrame s (spillStatus s c) :=
  Within.trans ((within_wr s _ _ _).mono (by simp) (by simp [eventFlds]))
    (Within.trans ((within_wrb _ _ _ _).mono (by simp) (by simp [eventFlds])) (frame_setQueue _ _ _))

theorem frame_writeEvq (s : State) (c : Nat) (r : EventRec) : EventFrame s (writeEvq s c r) :=
  Within.trans ((within_emit s _).mono (by simp) (by simp)) ((within_incWrap _ _ _).mono (by simp) (by simp [eventFlds]))

theorem frame_drainLoop (c : Nat) : ∀ (n : Nat) (s : State), EventFrame s (drainLoop c n s)
  | 0, s => Within.refl _ _ s
  | n + 1, s => by
    unfold drainLoop
    split
    · exact Within.refl _ _ _
    · split
      · exact ((frame_setQueue _ _ _).trans (frame_writeEvq _ _ _)).trans (frame_drainLoop c n _)
      · exact Within.refl _ _ _

theorem frame_drainSpill (s : State) (c : Nat) : EventFrame s (drainSpill s c) := by
  unfold drainSpill
  split
  · exact Within.refl _ _ _
  · exact (frame_drainLoop c _ s).trans ((frame_spillStatus _ _).trans ((frame_writeControl _ _).trans (frame_fireEvq _ _)))

theorem frame_putEvent (s : State) (c : Nat) (final : Bool) (r : EventRec) : EventFrame s (putEvent s c final r) := by
  unfold putEvent
  split
  · exact (frame_writeEvq _ _ _).trans ((frame_writeControl _ _).trans (frame_fireEvq _ _))
  · dsimp only
    split
    · exact ((frame_setQueue _ _ _).trans (frame_spillStatus _ _)).trans (frame_writeControl _ _)
    · exact (frame_setQueue _ _ _).trans (frame_spillStatus _ _)

theorem frame_setSession (s : State) (i : Nat) (x : Session) : EventFrame s (setSession s i x) :=
  (within_serve s _).mono (by simp) (by simp)

/-- An event record touches only serving, the report path and the queue's registers. -/
theorem frame_sendEvent (s : State) (ctx handle tag idx status cause detail : Nat) (final : Bool) (body : EventBody) :
    EventFrame s (sendEvent s ctx handle tag idx status cause detail final body) := by
  unfold sendEvent
  split
  · split
    · exact (frame_setSession _ _ _).trans (frame_putEvent _ _ _ _)
    · exact Within.refl _ _ _
  · exact frame_putEvent _ _ _ _

theorem frame_ringEvent (s : State) (c detail : Nat) : EventFrame s (ringEvent s c detail) := by
  unfold ringEvent
  split
  · exact Within.refl _ _ _
  · exact frame_putEvent _ _ _ _

end Sys2Proof.Machine
end

