-- ==== Sys2Proof/Laws/Items.lean ====
section
/-! SUPPORT. What answering, accepting and ending items can change. -/

namespace Sys2Proof.Machine

/-- Items touch serving, the report path, the plan, the roots of their sessions, and these fields. -/
abbrev ItemFrame (s t : State) : Prop := Within [.serve, .rep, .lard, .tt] itemFlds s t

theorem frame_lard (s : State) (f : Larder → Larder) : ItemFrame s (updLard s f) :=
  ⟨fun p hp => by cases p <;> first | rfl | exact absurd (by simp) hp, fun _ _ _ => rfl⟩

theorem frame_serve (s : State) (f : Serving → Serving) : ItemFrame s (updServe s f) :=
  (within_serve s f).mono (by simp) (by simp)

theorem frame_rep (s : State) (f : Reporting → Reporting) : ItemFrame s (updRep s f) :=
  (within_rep s f).mono (by simp) (by simp)

theorem frame_hostOut (s : State) (ctx a : Nat) (l : List Nat) : ItemFrame s (hostOut s ctx a l) :=
  (within_emit s (.hostWrite ctx (a % 2 ^ 48) l)).mono (by simp) (by simp)

theorem EventFrame.item {s t : State} (h : EventFrame s t) : ItemFrame s t := h.mono (by simp) (by simp [itemFlds])

theorem frame_freeImage (s : State) (i : Nat) : ItemFrame s (freeImage s i) :=
  (frame_lard s _).trans (frame_serve _ _)

theorem frame_freeRoot (s : State) (i : Nat) : ItemFrame s (freeRoot s i) := (frame_lard s _).trans (frame_freeImage _ i)

theorem frame_freeIndex (s : State) (i : Nat) : ItemFrame s (freeIndex s i) := by
  unfold freeIndex
  split
  · exact Within.refl _ _ _
  · exact (frame_freeRoot s i).trans (frame_serve _ _)

theorem frame_freeSession (s : State) (i : Nat) : ItemFrame s (freeSession s i) := by
  unfold freeSession
  split
  · exact Within.refl _ _ _
  · split
    · exact (frame_freeIndex _ _).trans (frame_freeIndex _ _)
    · exact frame_freeIndex _ _

theorem frame_setRoot (s : State) (i : Nat) (r : Root) : ItemFrame s (setRoot s i r) := frame_lard s _

theorem frame_releaseReserve (s : State) (i : Nat) : ItemFrame s (releaseReserve s i) := by
  have clear : ∀ (t : State) (k : Nat), ItemFrame t (match rootAt t k with
      | some r => setRoot t k { r with reserved := if r.st = 4 then committedPages r else 0 }
      | none => t) := by
    intro t k
    split
    · exact frame_setRoot _ _ _
    · exact Within.refl _ _ _
  unfold releaseReserve
  dsimp only
  split
  · exact (clear s i).trans (clear _ _)
  · exact clear s i

theorem frame_sessionAtFinal (s : State) (x : Item) : ItemFrame s (sessionAtFinal s x) := by
  unfold sessionAtFinal
  split
  · exact Within.refl _ _ _
  · split
    · extract_lets u
      refine Within.trans (t := u) (frame_releaseReserve s _) ?_
      split
      · exact Within.refl _ _ _
      · split
        · exact frame_freeSession _ _
        · exact (frame_setSession _ _ _).item
    · exact Within.refl _ _ _

theorem frame_tt (s : State) (f : Timetable → Timetable) : ItemFrame s (updTt s f) :=
  (within_tt s f).mono (by simp) (by simp)

theorem frame_keepBoundary (b : Nat) (s : State) : ItemFrame s (keepBoundary b s) := by
  unfold keepBoundary
  split
  · exact frame_tt _ _
  · exact Within.refl _ _ _

theorem frame_dropOpen (s : State) (ctx idx : Nat) : ItemFrame s (dropOpen s ctx idx) := by
  unfold dropOpen
  split
  · exact Within.refl _ _ _
  · exact (frame_tt _ _).trans (frame_keepBoundary _ _)

theorem frame_dropItem (s : State) (ctx idx : Nat) : ItemFrame s (dropItem s ctx idx) := by
  unfold dropItem
  refine (frame_dropOpen s ctx idx).trans ?_
  extract_lets u old kept last
  split
  · exact Within.refl _ _ _
  · exact (frame_tt _ _).trans (frame_keepBoundary _ _)

theorem frame_lastBlock (s : State) (x : Item) : ItemFrame s (lastBlock s x) := by
  unfold lastBlock
  split <;> first | exact frame_hostOut _ _ _ _ | exact Within.refl _ _ _

/-- The end of one item. -/
theorem frame_finishItem (s : State) (x : Item) (code detail cardId : Nat) : ItemFrame s (finishItem s x code detail cardId) := by
  unfold finishItem
  refine (frame_lastBlock s x).trans ?_
  exact (frame_sendEvent _ _ _ _ _ _ _ _ _ _).item.trans
    (((frame_serve _ _).trans (frame_sessionAtFinal _ _)).trans (frame_dropItem _ _ _))

theorem frame_each {α : Type} (f : State → α → State) (h : ∀ s a, ItemFrame s (f s a)) (l : List α) (s : State) :
    ItemFrame s (each l s f) := within_each f h l s

theorem frame_releaseModel (s : State) (m : Nat) : ItemFrame s (releaseModel s m) := by
  unfold releaseModel
  exact (frame_each _ (fun t (e : Nat × Session) => frame_freeSession t e.1) _ s).trans (frame_serve _ _)

theorem frame_settleWaiters (s : State) (x : Item) : ItemFrame s (settleWaiters s x) := by
  unfold settleWaiters
  refine (frame_serve s _).trans (frame_each _ (fun t i => ?_) _ _)
  dsimp only
  split
  · exact (frame_finishItem _ _ _ _ _).trans (frame_releaseModel _ _)
  · exact frame_finishItem _ _ _ _ _

/-- The end of an item and of what waited for it. -/
theorem frame_endItem (s : State) (x : Item) (code detail cardId : Nat) : ItemFrame s (endItem s x code detail cardId) :=
  (frame_finishItem s x code detail cardId).trans (frame_settleWaiters _ x)

theorem frame_endItems (s : State) (p : Item → Bool) (code detail : Nat) : ItemFrame s (endItems s p code detail) := by
  refine frame_each _ (fun t x => ?_) _ _
  split
  · exact frame_endItem _ _ _ _ _
  · exact Within.refl _ _ _

/-- A record of an item. -/
theorem frame_itemEvent (s : State) (x : Item) (status detail : Nat) (body : EventBody) :
    ItemFrame s (itemEvent s x status detail body) := by
  unfold itemEvent
  split
  · exact frame_endItem _ _ _ _ _
  · exact (frame_sendEvent _ _ _ _ _ _ _ _ _ _).item

/-- A direct answer. -/
theorem frame_answer (s : State) (h : ReqHead) (code detail cardId : Nat) : ItemFrame s (answer s h code detail cardId) := by
  unfold answer
  refine Within.trans (t := if code = 0x10 then inc s .TT_REFUSED
    else if code = 0x30 ∨ code = 0x31 then inc s .SERVE_INVALID else s) ?_ (frame_sendEvent _ _ _ _ _ _ _ _ _ _).item
  split
  · exact (within_inc _ _ _ _).mono (by simp) (by simp [itemFlds])
  · split
    · exact (within_inc _ _ _ _).mono (by simp) (by simp [itemFlds])
    · exact Within.refl _ _ _

/-- An acceptance. -/
theorem frame_accept (s : State) (x : Item) : ItemFrame s (accept s x) :=
  ((frame_serve s _).trans ((within_inc _ _ _ _).mono (by simp) (by simp [itemFlds]))).trans (frame_itemEvent _ _ _ _ _)

theorem frame_acceptDone (s : State) (x : Item) (code detail : Nat) : ItemFrame s (acceptDone s x code detail) := by
  unfold acceptDone
  extract_lets u
  refine Within.trans (t := u) (frame_accept s _) ?_
  split
  · exact frame_endItem _ _ _ _ _
  · exact Within.refl _ _ _

end Sys2Proof.Machine
end

