-- ==== Sys2Proof/Laws/Memory.lean ====
section
/-! SUPPORT. Memory: a byte reads as it was written, other bytes as before, and every operation over memory keeps its
canonical form. -/

namespace Sys2Proof.Machine

/-! Frames -/

theorem within_writeByte (s : State) (a v : Nat) : Within [.mem] [] s (writeByte s a v) := by
  unfold writeByte
  split <;> exact within_mem _ _

theorem within_writeBytes : ∀ (l : List Nat) (a : Nat) (s : State), Within [.mem] [] s (writeBytes l a s)
  | [], _, s => Within.refl _ _ s
  | v :: r, a, s => (within_writeByte s a v).trans (within_writeBytes r (a + 1) _)

theorem within_writeLe (s : State) (a n v : Nat) : Within [.mem] [] s (writeLe s a n v) := within_writeBytes _ _ _
theorem within_writeBits (s : State) (a bit w v : Nat) : Within [.mem] [] s (writeBits s a bit w v) := within_writeLe _ _ _ _
theorem within_clearGranule (s : State) (a : Nat) : Within [.mem] [] s (clearGranule s a) := within_mem s _
theorem within_clearLr (s : State) (a n : Nat) : Within [.mem] [] s (clearLr s a n) := within_mem s _

/-! Reads after writes -/

theorem storeGet_keep {α : Type} (d : α) (p : Nat → Bool) (m : Store α) (k : Nat) :
    storeGet d (storeKeep p m) k = if p k then storeGet d m k else d := by
  unfold storeGet
  rw [storeFind_keep]
  split <;> simp_all

/-- A byte reads as it was written. -/
theorem readByte_writeByte_same (s : State) (a v : Nat) : readByte (writeByte s a v) a = v % 256 := by
  unfold writeByte
  split
  · simp [readByte, lineValid]
  · next h =>
    have hv : (onChip a && !lineValid s a) = false := by simpa using h
    show (if (onChip a && !lineValid s a) = true then 0 else _) = _
    simp [hv]

theorem onChip_line {a b : Nat} (h : b / 128 = a / 128) : onChip b = onChip a := by
  unfold onChip pantryBase
  by_cases k : 0xC000000000 ≤ a ∧ a < 0xC200000000
  · rw [decide_eq_true k, decide_eq_true (by omega)]
  · rw [decide_eq_false k, decide_eq_false (by omega)]

/-- Every other byte reads as before. -/
theorem readByte_writeByte_other (s : State) (a v b : Nat) (h : b ≠ a) : readByte (writeByte s a v) b = readByte s b := by
  unfold writeByte
  split
  · next hc =>
    simp only [Bool.and_eq_true, Bool.not_eq_true'] at hc
    by_cases hl : b / 128 = a / 128
    · have h1 : onChip b = true := (onChip_line hl).trans hc.1
      have h2 : storeGet false s.mem.valid (a / 128) = false := hc.2
      simp [readByte, lineValid, hl, h1, h2, storeGet_put_other _ _ _ _ h, storeGet_keep]
    · simp [readByte, lineValid, storeGet_put_other _ _ _ _ hl, storeGet_put_other _ _ _ _ h, storeGet_keep, hl]
  · simp [readByte, lineValid, storeGet_put_other _ _ _ _ h]

/-- A write of several bytes leaves every byte outside them. -/
theorem bytesKept_writeBytes : ∀ (l : List Nat) (a : Nat) (s : State), BytesKept a l.length s (writeBytes l a s)
  | [], _, _ => fun _ _ => rfl
  | v :: r, a, s => fun b hb => by
    have h := bytesKept_writeBytes r (a + 1) (writeByte s a v) b (by simp only [List.length_cons] at hb; omega)
    unfold writeBytes
    rw [h]
    exact readByte_writeByte_other s a v b (by simp only [List.length_cons] at hb; omega)

/-- Each of several bytes reads as it was written. -/
theorem readByte_writeBytes : ∀ (l : List Nat) (a : Nat) (s : State) (i : Nat), i < l.length →
    readByte (writeBytes l a s) (a + i) = l.getD i 0 % 256
  | [], _, _, _, h => absurd h (by simp)
  | v :: r, a, s, 0, _ => by
    unfold writeBytes
    rw [bytesKept_writeBytes r (a + 1) (writeByte s a v) (a + 0) (by omega)]
    exact readByte_writeByte_same s a v
  | v :: r, a, s, i + 1, h => by
    unfold writeBytes
    have := readByte_writeBytes r (a + 1) (writeByte s a v) i (by simpa using h)
    rw [show a + (i + 1) = a + 1 + i by omega, this]
    rfl

/-! The canonical form -/

theorem storeErase_wf {α : Type} (d : Nat → α) (m : Store α) (k : Nat) (h : StoreWf d m) : StoreWf d (storeErase m k) :=
  storeKeep_wf d (fun x => x != k) m h

/-- A write keeps the canonical form. -/
theorem writeByte_wf (s : State) (a v : Nat) (h : s.mem.wf) : (writeByte s a v).mem.wf := by
  unfold writeByte
  split
  · simp only [updMem_mem]
    exact ⟨storePut_wf (fun _ => 0) _ _ _ (storeKeep_wf _ _ _ h.1), storePut_wf (fun _ => false) s.mem.valid (a / 128) true h.2.1, h.2.2⟩
  · exact ⟨storePut_wf (fun _ => 0) _ _ _ h.1, h.2⟩

theorem writeBytes_wf : ∀ (l : List Nat) (a : Nat) (s : State), s.mem.wf → (writeBytes l a s).mem.wf
  | [], _, _, h => h
  | v :: r, a, s, h => writeBytes_wf r (a + 1) _ (writeByte_wf s a v h)

theorem writeLe_wf (s : State) (a n v : Nat) (h : s.mem.wf) : (writeLe s a n v).mem.wf := writeBytes_wf _ _ _ h
theorem writeBits_wf (s : State) (a bit w v : Nat) (h : s.mem.wf) : (writeBits s a bit w v).mem.wf := writeLe_wf _ _ _ _ h
theorem clearLr_wf (s : State) (a n : Nat) (h : s.mem.wf) : (clearLr s a n).mem.wf := h

theorem clearGranule_wf (s : State) (a : Nat) (h : s.mem.wf) : (clearGranule s a).mem.wf := by
  simp only [clearGranule, updMem_mem]
  exact ⟨h.1, storeKeep_wf (fun _ => false) (fun k => k / 32 != a / 4096) _ h.2.1, h.2.2⟩

theorem each_wf {α : Type} (f : State → α → State) (hf : ∀ t a, t.mem.wf → (f t a).mem.wf) :
    ∀ (l : List α) (s : State), s.mem.wf → (each l s f).mem.wf
  | [], _, h => h
  | a :: r, s, h => each_wf f hf r (f s a) (hf s a h)

theorem bankTouched_wf (s : State) (u : Nat) (h : s.mem.wf) : (bankTouched s u).mem.wf := by
  unfold bankTouched
  dsimp only
  split <;> exact h

/-- A run of bytes that is zeroed. -/
theorem zeroRange_wf (s : State) (a n : Nat) (h : s.mem.wf) : (zeroRange s a n).mem.wf :=
  ⟨storeKeep_wf (fun _ => 0) (fun k => !(decide (a ≤ k) && decide (k < a + n))) _ h.1, h.2⟩

theorem zeroUnits_wf (s : State) (u n : Nat) (h : s.mem.wf) : (zeroUnits s u n).mem.wf :=
  ⟨storeKeep_wf (fun _ => 0) (fun k => decide (k / 4096 < u) || decide (u + n ≤ k / 4096)) _ h.1, h.2⟩

/-- A copy of a run of bytes, and of the active Pannier bank into the inactive one. -/
theorem copyRange_wf (s : State) (src dst n : Nat) (h : s.mem.wf) : (copyRange s src dst n).mem.wf := by
  refine ⟨?_, h.2⟩
  have puts : ∀ (l m : Store Byte), StoreWf (fun _ => (0 : Byte)) m →
      StoreWf (fun _ => (0 : Byte)) (l.foldl (fun m e => storePut (0 : Byte) m (dst + (e.1 - src)) e.2) m) := by
    intro l
    induction l with
    | nil => exact fun m hm => hm
    | cons e l ih => exact fun m hm => ih _ (storePut_wf (fun _ => 0) _ _ _ hm)
  exact puts _ _ (storeKeep_wf _ (fun k => decide (k < dst) || decide (dst + n ≤ k)) _ h.1)

theorem copyBank_wf (s : State) (h : s.mem.wf) : (copyBank s).mem.wf :=
  each_wf _ (fun t _ ht => copyRange_wf t _ _ _ ht) _ _ h

/-- Bytes that a stream unit stores, to HBM with its poisoned blocks, to a Pantry or a local store, or to the host. -/
theorem storeHbm_wf (s : State) (a : Nat) (l : List Nat) (h : s.mem.wf) : (storeHbm s a l).mem.wf := by
  refine each_wf _ (fun t g ht => ?_) _ _ h
  dsimp only
  split
  · exact ht
  · have hb : (bankTouched t (g / 4096)).mem.wf := bankTouched_wf t _ ht
    split
    · split
      · exact writeBytes_wf _ _ _ hb
      · exact hb
    · exact writeBytes_wf _ _ _ hb

theorem putBytes_wf (s : State) (ctx a : Nat) (l : List Nat) (h : s.mem.wf) : (putBytes s ctx a l).mem.wf := by
  unfold putBytes
  split
  · exact h
  · split
    · exact storeHbm_wf _ _ _ h
    · split
      · exact clearLr_wf _ _ _ (writeBytes_wf _ _ _ h)
      · exact h

/-- A granule's owner changes. -/
theorem grant_wf (s : State) (k v : Nat) (h : s.mem.wf) :
    (updMem s fun m => { m with granules := storePut 0x7F m.granules k v }).mem.wf :=
  ⟨h.1, h.2.1, storePut_wf (fun _ => 0x7F) _ _ _ h.2.2.1, h.2.2.2⟩

/-- The loss of a hub's memory. -/
theorem loseHubMemory_wf (s : State) (hub : Nat) (h : s.mem.wf) : (loseHubMemory s hub).mem.wf := by
  let mine := fun (g : Nat) => decide (0xC000000 ≤ g) && decide (g < 0xC200000) && granuleHub g == hub
  exact ⟨storeKeep_wf _ (fun a => !mine (a / 4096)) _ h.1, storeKeep_wf (fun _ => false) (fun l => !mine (l / 32)) _ h.2.1,
    storeKeep_wf (fun _ => 0x7F) (fun g => !mine g) _ h.2.2.1, h.2.2.2⟩

theorem reset_wf : State.reset.mem.wf := by decide

end Sys2Proof.Machine
end

