-- ==== Sys2Proof/Machine/Reads.lean ====
section
/-! DEFINITION. What a read of a register address returns (R3, R4, R25, R255, R403, R431): the fields at the address, zero for
reserved bits and for WO fields, and the windows of bytes. No row of the table reads an address, so that no command calls
`regRead`; the reads that change state (SUMQ_POP, CTXWIN_CADENCE, DMI_READ) have rows of their own. -/

namespace Sys2Proof.Machine

/-- Bytes of a command record (Table 16-1). -/
def profBytes (r : ProfRec) : List Nat :=
  leBytes 1 r.flags ++ leBytes 1 r.ctx ++ leBytes 1 r.phys ++ leBytes 1 r.slot ++ leBytes 4 r.card ++ leBytes 4 r.index
    ++ leBytes 1 r.gear ++ leBytes 1 r.skip ++ leBytes 2 0 ++ leBytes 8 r.start ++ leBytes 8 r.finish ++ leBytes 4 r.cycles
    ++ leBytes 4 r.rows ++ leBytes 4 r.feed ++ leBytes 4 r.drain ++ leBytes 4 r.limit ++ leBytes 4 r.replay
    ++ leBytes 4 r.flits ++ leBytes 4 r.number

/-- The entry at place j of a trail's ring: while it is not full the entries stand in order, after that the oldest stands at
NEXT. -/
def trailEntry (s : State) (k j : Nat) : Option TrailEntry :=
  let l := storeGet [] s.dbg.trails k
  let n := trailSize k
  if n ≤ j then none
  else if l.length < n then l[j]? else l[(j + n - storeGet 0 s.dbg.trailNext k) % n]?

/-- A byte of a trail window: entries of 16 bytes, zero where there is none. -/
def trailByte (s : State) (k o : Nat) : Nat :=
  match trailEntry s k (o / 16) with
  | some e => (trailBytes e).getD (o % 16) 0
  | none => 0

/-- A byte at an offset of a hub's register block that lies in one of its windows: the head of the summary queue, which only
the hub's control core reads (R158), the trail and the profile window (R461). -/
def hubWindow (s : State) (src : Src) (h o : Nat) : Option Nat :=
  if 0xC00 ≤ o ∧ o < 0xC20 then
    some (if src = .core h then (((storeGet [] s.core.sumq h).head?.map summaryBytes).getD []).getD (o - 0xC00) 0 else 0)
  else if 0x2000 ≤ o ∧ o < 0x2400 then some (trailByte s (shownTrail s h) (o - 0x2000))
  else if 0x4000 ≤ o ∧ o < 0xC000 then
    some (((storeFind s.dbg.prof (h * 512 + (o - 0x4000) / 64)).map profBytes).getD [] |>.getD (o % 64) 0)
  else none

/-- A byte of a mailbox buffer (R405): a window at 0x200 to 0x3FF, or the PF side of VF n. -/
def mboxByte (s : State) (tg : Target) : Option Nat :=
  match tg with
  | .pf a =>
    if 0xFF01B70400 ≤ a ∧ a < 0xFF01B80000 ∧ a % 0x400 < 0x200 then
      some (storeGet 0 s.ctxs.mbox ((a - 0xFF01B70000) / 0x400 * 1024 + 0x200 + a % 0x400))
    else none
  | .vf fn off =>
    if 1 ≤ fn ∧ fn < 64 ∧ 0x200 ≤ off ∧ off < 0x400 then some (storeGet 0 s.ctxs.mbox (fn * 1024 + (off - 0x200))) else none

/-- A byte of an MSI-X table or pending-bit array (R403): of an entry, its mask bit. -/
def msixByte (s : State) (fn tbl pba o : Nat) : Option Nat :=
  let n := if fn = 0 then 32 else 2
  if tbl ≤ o ∧ o < tbl + 16 * n then
    some (if (o - tbl) % 16 = 12 then b2n (storeGet true s.rep.msixMask (msixKey fn ((o - tbl) / 16))) else 0)
  else if pba ≤ o ∧ o < pba + 8 then
    some (((List.range 8).map (fun i => b2n (decide ((o - pba) * 8 + i < n) && storeGet false s.rep.msixPending (msixKey fn ((o - pba) * 8 + i))) * 2 ^ i)).sum)
  else none

/-- A byte of a window, if the target lies in one. -/
def windowByte (s : State) (src : Src) (tg : Target) : Option Nat :=
  match tg with
  | .vf fn off => (mboxByte s tg).orElse (fun _ => msixByte s fn 0x1000 0x1800 off)
  | .pf a =>
    match targetAt tg .hub, targetAt tg .wing with
    | some (h, o), _ => hubWindow s src h o
    | none, some (w, o) => if 0x90000 ≤ o ∧ o < 0x90C00 then some (storeGet 0x7F s.mem.regions (w * 3072 + (o - 0x90000))) else none
    | none, none =>
      if 0xFF01BE1000 ≤ a ∧ a < 0xFF01BE2000 then some (trailByte s vestTrail (a - 0xFF01BE1000))
      else (mboxByte s tg).orElse (fun _ => msixByte s 0 0xFF01B68000 0xFF01B69000 a)

/-- The target i bytes on. -/
def targetPlus : Target → Nat → Target
  | .pf a, i => .pf (a + i)
  | .vf fn off, i => .vf fn (off + i)

/-- The fields' part of a read of `width` bytes. -/
def fieldsRead (s : State) (tg : Target) (width : Nat) : Nat :=
  (allFlds.map (fun f =>
    let r := fieldRow f
    match targetAt tg r.block with
    | some (b, o) => ((instancesAt s f b o width).map (fun e =>
        (readField s f e.1 * 2 ^ (e.2 * 8 + r.lo)) / 2 ^ (o * 8) % 2 ^ (8 * width))).sum
    | none => 0)).sum

/-- Before READY a read of PF BAR0 outside the Vestibule blocks returns zero (R431). -/
def readHidden (s : State) (src : Src) (tg : Target) : Bool :=
  src == .mgmt && rd s .BOOT_STATUS_PHASE != 8 && (targetAt tg .vest).isNone && (targetAt tg .win).isNone

/-- What a read of `width` bytes returns (R4): bytes of a window, bytes of a physical core's storage for management (R255),
and otherwise the fields at the address; bits that belong to none return zero. -/
def regRead (s : State) (src : Src) (tg : Target) (width : Nat) : Nat :=
  let storage := match tg with
    | .pf a =>
      let (_, h, p) := lsWindow a
      isMgmt s src && decide (lsBase ≤ a ∧ a < 0xC200000000 ∧ h < 40 ∧ p < 66 ∧ (a - lsBase) % 0x20000 + width ≤ 0x18000)
    | .vf _ _ => false
  if readHidden s src tg then 0
  else if storage then readLe s (match tg with | .pf a => a | .vf _ _ => 0) width
  else if (windowByte s src tg).isSome then
    leNum ((List.range width).map (fun i => (windowByte s src (targetPlus tg i)).getD 0))
  else fieldsRead s tg width

end Sys2Proof.Machine
end

