-- ==== Sys2Proof/Tests/Slice0.lean ====
section
/-! SUPPORT. Tests. Each `test_<statement>_hypotheses` shows, for every clause of the obligation it names that has hypotheses,
a small state and operands that meet all of them together; the other tests hold the model against worked examples of the spec,
and the smoke test shows for every check of WellFormed an ill-formed command that it refuses. -/

namespace Sys2Proof.Tests

open Sys2Proof Sys2Proof.Machine

/-! ## Small states -/

/-- The reset state with some register fields written: field, instance, value. -/
def mk (l : List (Fld × Nat × Nat)) : State := l.foldl (fun s e => wr s e.1 e.2.1 e.2.2) State.reset

/-- The reset state once the module has reached READY. -/
def ready (l : List (Fld × Nat × Nat) := []) : State := mk ((.BOOT_STATUS_PHASE, 0, 8) :: l)

/-- The state after a command. -/
def ran (c : Instr) (s : State) : State := match exec c s with
  | .next t => t
  | .fault _ => s
  | .refused _ => s

/-! ## Hypotheses that can be met -/

theorem test_StepRunsTheFrontCommand_hypotheses :
    (∀ s ∈ [{ ready with pending := [.patrolScrub 5 383, .machineCheck 7] }], s.pending = .patrolScrub 5 383 :: [.machineCheck 7]) ∧
    State.reset.pending = [] := by decide +kernel

theorem test_ViewsAgreeAfterEveryStep_hypotheses :
    (∀ s ∈ [updRep (ready [(.MGMT_EVENTS_PENDING, 0, 1)]) fun r => { r with faultQueue := [⟨3, 1, 2, 4, 5, 6, 7, 8, 9, 10, []⟩] }],
      (∀ c, c < 64 → rd s .SERVE_OPEN_ITEMS c = itemCount s c) ∧ rd s .SERVE_SESSIONS_OPEN = s.serve.sessions.length ∧
      rd s .MGMT_EVENTS_PENDING = min 4096 s.rep.faultQueue.length) ∧
    step State.reset = .next { State.reset with now := 1 } := ⟨by decide +kernel, rfl⟩

theorem test_QuantiserScaleRange_hypotheses :
    (∀ x ∈ [Machine.Num.nan, .fin true 0 3], x = .nan ∨ x ∈ [Machine.Num.fin true 0 3, .fin false 0 3]) ∧
    (∃ x ∈ [Machine.Num.nan, .inf true], x = .inf true) ∧ quantScale 0x7 2 [.nan, .inf true] = 0x7E ∧
    quantScale 0x1 2 [.fin false 1 (-2000)] = 1 := by decide +kernel

theorem test_IntegerPathIsExact_hypotheses :
    intPath ⟨6, 0, 0, 0, 0, 0, 0, true⟩ ⟨7, 0, 0, 0, 0, 0, 0, true⟩ = true ∧
    [[16384, -16384], [5]] ≠ ([] : List (List Int)) ∧ (∀ g ∈ [[16384, -16384], [5]], ∀ p ∈ g, (p : Int).natAbs ≤ 16384) ∧
    ([[16384, -16384], [5]].map (List.length (α := Int))).sum ≤ 2 ^ 32 := by decide +kernel

theorem test_AccumulatorStaysInRange_hypotheses :
    (List.replicate 64 (⟨-(2 ^ 40 - 1), 1⟩ : Dyad)).length ≤ 64 ∧ (-(2 ^ 46 - 1) : Int).natAbs < 2 ^ 46 ∧
    (accGroup true ⟨-(2 ^ 46 - 1), some 39⟩ (List.replicate 64 ⟨-(2 ^ 40 - 1), 1⟩)).a.natAbs < 2 ^ 46 := by decide +kernel

theorem test_DrainWritesOnlyCanonicalNaN_hypotheses :
    decodeF fBF16 (drainElem 0x8 false true ⟨0, none⟩ none) = .nan ∧
    decodeF fE4M3 (drainElem 0x1 false false ⟨3, some 5⟩ (some 0x7FC00000)) = .nan ∧
    decodeF fFP32 0xFF800000 = .inf true ∧ (accDyad ⟨3, some 5⟩).v ≠ 0 ∧ drainElem 0x1 false false ⟨3, some 5⟩ (some 0xFF800000) = 0xFE ∧
    (∃ m ∈ [2 ^ 23], ∃ x ∈ [(-22 : Int)], decodeF fFP32 0xC0000000 = .fin true m x) := by decide +kernel

theorem test_ScaleByteValues_hypotheses :
    (0xFE ≤ (0xFE : Nat)) ∧ (255 < 256 ∧ 255 % 128 = 0x7F) ∧ (128 < 256 ∧ 128 % 128 = 0 ∧ 128 % 128 ≠ 0x7F) := by decide

theorem test_VectorNaNRules_hypotheses :
    laneIsNan 1 (laneAdd 1 0x7F800000 0xFF800000) = true ∧ laneIsNan 2 (laneSub 2 0x7F80 0x7F80) = true ∧
    laneIsNan 3 (laneMul 3 0x7C00 0) = true ∧ laneIsNan 1 (laneFma 1 0x7F800000 0 5) = true ∧ laneIsNan 1 0xFFFFFFFF = true := by
  decide +kernel

/-! Engines -/

/-- A card of one core. -/
def card0 : CardImage :=
  ⟨0x4B434E5A, 1, 0x100, 0x100, 7, 1, 0, 1, 1, 0, 0, 0, 64, 64, 1, 100, [100], [], [], 0, 0, 0, 0, 0, 0, 0, 0, 0, true, true, [], [], [], []⟩
/-- An operand of a format, unscaled. -/
def opOf (f : Nat) : OpDesc := ⟨f, 0, 0, 0, 0, 0, 0, true⟩
/-- A vector, reduction or SFU stage of two rows of two FP32 elements. -/
def vecOf (mode : Nat) : VecDesc :=
  ⟨mode, 0, 1, 0, 2, 1, 0, 2, 0, 0, opOf 10, opOf 10, 0, 2, 4096, 2, 8192, 2, 0, 0, 0, 0, 12288, [], true⟩
/-- A matrix stage of BF16 operands with an FP32 output. -/
def matOf : MatrixDesc := ⟨1, 0, 2, 2, 2, 2, 2, ⟨10, false, false, true⟩, opOf 8, opOf 8, 0, 4096, 8192, 0, 64, 64, 64, true⟩
/-- One that touches nothing below 64 KiB. -/
def matHigh : MatrixDesc := { matOf with aOff := 65536, bOff := 69632, cOff := 73728 }
/-- A Freewheel stage. -/
def fwOf : FwDesc := ⟨2, 0, 2, 2, 2, ⟨10, false, false, true⟩, opOf 8, opOf 8, 0, 4096, 8192, 0, 64, 64, 64, true⟩
/-- A run without faults. -/
def run0 : StageRun := ⟨[], 1, 0, 0, 0, 0, 0, 0, 9, 3, 0, 0⟩
/-- A command of some stages on hub 2, slot 5, for a context. -/
def cmdOf (l : List Stage) (ctx : Nat) : QueuedCmd := ⟨2, 5, ctx, card0, 0, ⟨l.length, 0, 64, 0, true, l⟩, [(ctx, 1)], 1, [2], 0⟩
/-- The same command started. -/
def runOf (l : List Stage) (ctx : Nat) : RunCmd :=
  ⟨4, cmdOf l ctx, 0, 0, true, l.map (fun _ => false), ⟨0, 0, []⟩, none, [0, 0, 0, 0, 0, 0, 0], false, false, false⟩
/-- Hub 2, physical slot 65 runs a command whose context owns the local store; scalar 0 is readable. -/
def busy (l : List Stage) (ctx : Nat) : State :=
  let s := updCore (mk [(.VEC_SCALAR_VALID, 64, 1), (.VEC_SCALAR_CTX, 64, ctx)]) fun c => { c with queues := [(197, [runOf l ctx])] }
  updMem s fun m => { m with granules := (List.range 32).map (fun i => (lsAddr 2 65 0 / 4096 + i, ctx)) }

theorem test_VectorInstructionsRun_hypotheses :
    ∀ s ∈ [busy [.vector (vecOf 1)] 3], vectorOps.length = 33 ∧ curCmd s (coreKey 2 65) = some (runOf [.vector (vecOf 1)] 3) ∧
      scalarFaults (opCopy s 2 65) 3 0 = false := by decide +kernel

theorem test_ScalarFaultWritesNoRegister_hypotheses :
    ∀ s ∈ [busy [.vector (vecOf 1)] 3], (⟨0, 3, 4, 5, 6, 1, 1, 63, 0⟩ : VInstr).bKind = 1 ∧
      curCmd s (coreKey 2 65) = some (runOf [.vector (vecOf 1)] 3) ∧ scalarFaults (opCopy s 2 65) 3 (63 % 32) = true := by decide +kernel

theorem test_GuardedLanesKeepTheirValue_hypotheses :
    ∀ g ∈ [(⟨List.replicate 16 [1, 2], List.replicate 4 [true, false]⟩ : VecRegs)],
      g.v.length = 16 ∧ g.p.length = 4 ∧ (∀ l ∈ g.v, l.length = 2) ∧ (∀ l ∈ g.p, l.length = 2) ∧
      (preg g 3).getD 0 false = true ∧ (preg g 3).getD 1 false = false ∧ (15 : Nat) < 16 ∧ (3 : Nat) < 4 := by decide +kernel

/-- The stage descriptor a test of a vector stage uses: its kind and mode. -/
def stageOfKind (kind : Nat) (d : VecDesc) : Stage := if kind = 3 then .vector d else if kind = 4 then .reduction d else .sfu d

/-- Nothing keeps the first stage of the command on core 197 back. -/
def freeStage (s : State) (r : RunCmd) (st : Stage) : Bool :=
  decide (cmdAt s 197 r.num = some r) && !retainConflict s 197 r 0 st && !isWaiting s 197 r.num 0 &&
    extentsOk s 2 65 r.q.ctx (stageExtents st)

/-- What VectorStagesRunToTheirEnd asks of a stage. -/
def vecHyps (kind mode : Nat) (any : Bool) : Bool :=
  let d := vecOf mode
  let st := stageOfKind kind d
  let r := runOf [st, .matrix matHigh] 3
  let s := tick (busy [st, .matrix matHigh] 3) 9
  decide (stageOf s 197 (fun x => stageKind x == kind && ((vecDescOf x).map (fun y => any || y.mode == mode)).getD false) =
      some (r, 0, st)) && decide (vecDescOf st = some d) && decide (run0.faults = [] ∧ run0.uncorr = 0 ∧ run0.corrected = 0) &&
    freeStage s r st && decide (d.tableTag = 0) &&
    (scalarsRead kind (withProg (runCounts s 197 run0) 197 d)).all (fun n => !scalarFaults (scalarsOf (runCounts s 197 run0) 2 r) 3 n) &&
    (let p := withProg (runCounts s 197 run0) 197 d
     !(runRows ⟨197, r, 0, st, p, 4 + chunkCycles kind p (chunkOf p r.hand), []⟩ (rowPlan 197 r kind p [])
        (vecLive (runCounts s 197 run0) 197 d) 0 (vecEntry (runCounts s 197 run0) 197 r p kind run0)).2)

theorem test_VectorStagesRunToTheirEnd_hypotheses :
    (∀ m ∈ [1, 2, 3, 4, 5, 6, 7], vecHyps 3 m false = true) ∧ (∀ m ∈ [1, 2, 3, 4, 5, 6, 7, 8, 9, 10], vecHyps 4 m false = true) ∧
    vecHyps 5 0 true = true := by decide +kernel

theorem test_MatrixStagesRunToTheirEnd_hypotheses :
    (∀ s ∈ [tick (busy [.matrix matOf] 3) 9], ∀ r ∈ [runOf [.matrix matOf] 3], (run0.faults = [] ∧ run0.uncorr = 0 ∧ run0.corrected = 0) ∧
      stageOf s 197 (fun x => stageKind x == 1) = some (r, 0, .matrix matOf) ∧ freeStage s r (.matrix matOf) = true ∧
      (passTiles (arrayCounts (matSetup 197 r matOf (matLive s 197 matOf) (runCounts s 197 run0)) 197 3 1 run0) 197 r 0
        (.matrix matOf) run0 1 (matLive s 197 matOf) (matFlag matOf 5) (matFlag matOf 4)
        (matTileSet s 197 r.num matOf (matLive s 197 matOf))).2.2 = false) ∧
    (∀ s ∈ [tick (busy [.freewheel fwOf] 3) 9], ∀ r ∈ [runOf [.freewheel fwOf] 3],
      stageOf s 197 (fun x => stageKind x == 2) = some (r, 0, .freewheel fwOf) ∧ freeStage s r (.freewheel fwOf) = true ∧
      (passTiles (arrayCounts (fwSetup 197 r fwOf (fwLive s 197 fwOf) (runCounts s 197 run0)) 197 3 2 run0) 197 r 0
        (.freewheel fwOf) run0 2 (fwLive s 197 fwOf) false false (fwTileSet 197 r.num fwOf (fwLive s 197 fwOf) [0x80, 0x3F])).2.2 =
        false) := by decide +kernel

/-- What StreamStagesRunToTheirEnd asks of every stream stage. -/
def streamFree (d : StreamDesc) (p : StreamDesc → Bool) : Bool :=
  let s := tick (busy [.stream d] 3) 9
  let r := runOf [.stream d] 3
  decide (stageOf s 197 (fun st => match st with | .stream x => p x | _ => false) = some (r, 0, .stream d)) &&
    freeStage s r (.stream d)

/-- A transfer of rows of 8 bytes within the local store. -/
def moveOf (m flags : Nat) : StreamDesc := .transfer m flags 10 2 0 8 1 0 (4096 * 2 ^ 32) 64 64 0xAB 0 true

theorem test_StreamStagesRunToTheirEnd_hypotheses :
    streamFree (.page 8 0 1 0 1 0 1 0 0 0 4096 8192 0 0 0 0 0 true) (fun x => match x with | .page m .. => m == 8 | _ => false) = true ∧
    streamFree (.page 9 0 1 0 1 0 1 0 0 0 4096 8192 0 0 0 0 0 true) (fun x => match x with | .page m .. => m == 9 | _ => false) = true ∧
    streamFree (.adapter 1 1 1 0 2 0 0 4096 64 8192 true) (fun x => match x with | .adapter .. => true | _ => false) = true ∧
    (∀ m ∈ [1, 2, 3], streamFree (moveOf m 5) (fun x => match x with | .transfer y .. => y == m | _ => false) = true ∧
      ∀ u ∈ [tick (busy [.stream (moveOf m 5)] 3) 9], ∀ r ∈ [runOf [.stream (moveOf m 5)] 3],
        (moveRows 197 r (moveOf m 5) none (liveRows u 197 false 0 2) 0 (liveClamp (runCounts u 197 run0) 197 r false 0 2)).2 = true) ∧
    (pageReadBody 197 (runOf [] 3) 0 1 0 1 0 1 0 0 0 4096 8192 0 0 0 0 0 (runCounts (tick (busy [] 3) 9) 197 run0)).2 = true ∧
    (pageWriteBody 197 (runOf [] 3) 1 0 1 0 0 0 4096 (runCounts (tick (busy [] 3) 9) 197 run0)).2 = true := by decide +kernel

theorem test_FusedCommandStarts_hypotheses :
    ∀ s ∈ [tick (mk [(.HUB_REMAP_B0_SLOT_VALID, 133, 1), (.HUB_REMAP_B0_SLOT_PHYS_SLOT, 133, 65)]) 9],
      2 ∉ s.core.halted ∧ physOf s 2 5 = some 65 ∧ (65 : Nat) < 66 ∧ rdb s .HUB_SLOT_STATE_FENCED 197 = false ∧ hubQueues s 2 = [] ∧
      storeFind s.core.held 197 = none ∧ card0.sems = [] ∧ card0.credits = [] := by decide +kernel

/-- A core whose matrix engine is held in tile 0. -/
def heldS (rescued : Bool) : State :=
  updCore (busy [.matrix matOf] 3) fun c => { c with
    queues := [(197, [{ runOf [.matrix matOf] 3 with rescued := rescued }])]
    held := [(197, ⟨4, 1, 0, 0, 0, false, false, false, ⟨[], [], [], ⟨[], []⟩⟩⟩)] }

theorem test_CoreEventsRun_hypotheses :
    (∀ s ∈ [updCore (busy [.matrix matOf] 3) fun c => { c with waiting := [⟨197, 4, 0, 5⟩] }],
      s.core.waiting = ⟨197, 4, 0, 5⟩ :: [] ∧ cmdAt s 197 4 = some (runOf [.matrix matOf] 3) ∧
      (runOf [.matrix matOf] 3).q.cmd.stages[0]? = some (.matrix matOf) ∧
      retainConflict s 197 (runOf [.matrix matOf] 3) 0 (.matrix matOf) = false) ∧
    (∀ b ∈ [false, true], (storeFind (heldS b).core.held 197).map (·.num) = some 4 ∧
      (cmdAt (heldS b) 197 4).map (·.rescued) = some b) ∧
    (isMgmt State.reset .mgmt = true ∧ windowCtx State.reset = none ∧ (31 : Nat) < 32) ∧
    (∀ e ∈ State.reset.core.sumWait, e.1 / 66 ≠ 2) ∧ Src.mgmt ≠ .core 2 := by decide +kernel

/-! Memory -/

/-- A word of hub 159's Pantry scratch part, and a state in which that hub holds a reservation of it. -/
def pantryWord : Nat := 0xC000000000 + 159 * 0x800000 + 0x100
def reservedS : State := updMem ready fun m => { m with lr := [(159, pantryWord / 8)] }

theorem test_MemoryKeepsItsCanonicalForm_hypotheses : State.reset.mem.bytes = [] ∧ State.reset.mem.valid = [] ∧
    State.reset.mem.granules = [] ∧ State.reset.mem.regions = [] := by decide

theorem test_PantryAtomicsRun_hypotheses :
    (∀ n ∈ [4, 8], (159 : Nat) < 160 ∧ atomicOk reservedS pantryWord n = true ∧ atomicOk reservedS (pantryWord + 2) n = false ∧
      atomicOk reservedS 0xC050000000 n = false) ∧
    storeFind reservedS.mem.lr 159 = some (pantryWord / 8) ∧ storeFind reservedS.mem.lr 4 ≠ some (pantryWord / 8) := by decide +kernel

theorem test_GrantGivesAZeroedGranule_hypotheses :
    hubWriter ready .mgmt 159 = true ∧ hubWriter ready (.core 159) 159 = true ∧ (159 : Nat) < 160 ∧ grantCode 0x41 = true ∧
    grantCode 0x7F = true ∧ (2047 : Nat) < 2048 ∧ ((23 : Nat) < 24 ∧ (65 : Nat) < 66) := by decide +kernel

/-! Integrity and the report path -/

/-- Hub 159's physical slot 65 in a state, with its readmissions and whether it is cleared. -/
def coreIn (st readmits cleared : Nat) : State :=
  ready [(.HUB_SLOT_STATE_STATE, 10559, st), (.INTEG_CORE_INFO_READMITS, 10559, readmits), (.INTEG_CORE_INFO_CLEARED, 10559, cleared),
    (.DRL_GEAR_CURRENT, 3, 2)]
/-- The same core serving logical slot 63. -/
def coreServing : State :=
  ready [(.HUB_SLOT_STATE_STATE, 10559, 1), (.HUB_REMAP_B0_SLOT_VALID, 10239, 1), (.HUB_REMAP_B0_SLOT_PHYS_SLOT, 10239, 65),
    (.INTEG_FT_FT_PERIOD, 0, 1)]

theorem test_ReadmissionMakesASpare_hypotheses :
    (∀ s ∈ [coreIn 4 0 1, coreIn 4 1 1], (159 : Nat) < 160 ∧ (65 : Nat) < 66 ∧ isMgmt s .mgmt = true ∧ coreState s 10559 = 4 ∧
      rd s .INTEG_CORE_INFO_READMITS 10559 < 2 ∧ rd s .INTEG_CORE_INFO_CLEARED 10559 ≠ 0) ∧
    isMgmt (coreIn 4 0 1) (.core 159) = false ∧ coreState (coreIn 3 0 1) 10559 ≠ 4 ∧
    2 ≤ rd (coreIn 4 2 1) .INTEG_CORE_INFO_READMITS 10559 ∧ rd (coreIn 4 0 0) .INTEG_CORE_INFO_CLEARED 10559 = 0 := by decide +kernel

theorem test_CoreCommandsRun_hypotheses :
    (∀ s ∈ [coreIn 0 0 0, coreIn 1 0 0, coreIn 2 0 0], isMgmt s .mgmt = true ∧ coreState s 10559 ≠ 3 ∧ coreState s 10559 ≠ 4 ∧
      rd s .INTEG_HUB_STATE 159 ≠ 1 ∧ serving s 10559 = false) ∧
    (serving coreServing 10559 = true ∧ coreState coreServing 10559 ≠ 4 ∧ isMgmt coreServing .mgmt = true) ∧ (2 : Nat) < 3 := by
  decide +kernel

theorem test_HangRetiresTheCore_hypotheses :
    ∀ s ∈ [tick (busy [.matrix matOf] 3) 1102], curCmd s 197 = some (runOf [.matrix matOf] 3) ∧
      (runOf [.matrix matOf] 3).start + card0.maxNs + 1001 < s.now ∧ coreState s 197 ≠ 4 := by decide +kernel

theorem test_FieldTestsRun_hypotheses :
    (∀ s ∈ [updCore (coreIn 1 0 0) fun c => { c with sweep := [(10559, (List.range 11).map (· + 1))] }], (159 : Nat) < 160 ∧
      (65 : Nat) < 66 ∧ ∀ test ∈ [1, 12], testable s 10559 = true ∧ testStarts s 10559 test = true ∧
      (test = 12 → (storeGet [] s.core.sweep 10559).length = 11) ∧ coreState s 10559 = 1) ∧
    (observedCrc 2 ⟨0, [0x31, 0x32, 0x33, 0x34, 0x35, 0x36, 0x37, 0x38, 0x39], []⟩ = 0x995DC9BBDF1939FA ∧
      observedCrc 2 ⟨0, [0x31], [(0, 1)]⟩ ≠ observedCrc 2 ⟨0, [0x31], []⟩) ∧
    (∀ s ∈ [mk [(.INTEG_FT_ROTATE_EN, 0, 1), (.HUB_SLOT_STATE_STATE, 5, 2), (.HUB_SLOT_STATE_STATE, 9, 2)]],
      rd s .INTEG_FT_ROTATE_EN 0 = 1 ∧ 2 ≤ ((List.range 66).filter fun p => coreState s (0 * 66 + p) == 2).length ∧
      storeFind s.core.lastRotate 0 = none) ∧
    (∀ s ∈ [mk [(.INTEG_FT_ROTATE_EN, 0, 1), (.HUB_SLOT_STATE_STATE, 0, 1), (.HUB_SLOT_STATE_STATE, 5, 2), (.HUB_SLOT_STATE_STATE, 9, 2),
        (.HUB_REMAP_B0_SLOT_VALID, 0, 1)]],
      nextToSweep s 0 = some 0 ∧ logicalOf s 0 0 = some 0 ∧ coreState s 0 = 1) ∧
    (starved (tick coreServing 3600000000001) 159 = true ∧ rd coreServing .INTEG_HUB_FT_STARVED 159 = 0) := by decide +kernel

theorem test_HeartbeatsRun_hypotheses :
    ∀ s ∈ [updCore ready fun c => { c with beat := [(159, (5, 100))], shadowBeat := (7, 200) }],
      rd s .INTEG_HUB_STATE 159 ≠ 2 ∧ 159 ∉ s.core.halted ∧ storeFind s.boot.hubResets 159 = none ∧
      6 ≠ (storeGet (0, 0) s.core.beat 159).1 ∧ 5 = (storeGet (0, 0) s.core.beat 159).1 ∧
      (storeGet (0, 0) s.core.beat 159).2 + 300000 ≤ (tick s 300100).now ∧ 8 ≠ s.core.shadowBeat.1 ∧ 7 = s.core.shadowBeat.1 ∧
      s.core.shadowBeat.2 + 30000 ≤ (tick s 30200).now ∧ leadHub s ∉ s.core.halted ∧ shadowHub s ∉ s.core.halted ∧
      rd s .INTEG_HUB_OUT (shadowHub s) = 0 := by decide +kernel

/-- A Cellar record of a KIND and UNIT. -/
def recOf (kind unit : Nat) : CellarRec := ⟨kind, 1, unit, 4, 5, 6, 7, 8, 9, 10, []⟩

theorem test_ReportPathRuns_hypotheses :
    (∀ s ∈ [updRep ready fun r => { r with
        toWrite := [recOf 3 2, recOf 3 3], coalesce := [⟨1, 2, 0, 3, recOf 1 2⟩, ⟨3, 2, 5, 70000, recOf 3 2⟩],
        faultQueue := [recOf 3 2], receiver := some 9 }],
      s.rep.toWrite = recOf 3 2 :: [recOf 3 3] ∧ s.rep.ring.length ≤ 30720 ∧
      s.rep.coalesce.find? (fun x => x.kind == 3 && x.unit == 2) = some ⟨3, 2, 5, 70000, recOf 3 2⟩ ∧
      5 + 1000000000 ≤ (tick s 1000000005).now ∧ (70000 : Nat) ≠ 0 ∧ s.rep.faultQueue = recOf 3 2 :: [] ∧ s.rep.receiver ≠ none ∧
      s.rep.eventTries = 0) ∧
    (∀ s ∈ [updRep ready fun r => { r with faultQueue := [recOf 3 2], receiver := some 9, eventTries := 2, eventNext := some 50 }],
      s.rep.eventNext = some 50 ∧ 50 ≤ max s.now 50 ∧ s.rep.receiver ≠ none) ∧
    (∀ s ∈ [updDbg ready fun d => { d with dumps := [(159, 5, 2)] }],
      s.dbg.dumps.find? (fun d => d.1 == 159) = some (159, 5, 2) ∧ storeFind s.boot.hubResets 159 = none) := by decide +kernel

/-! HBM -/

/-- A byte of a weight block of wing 3, on channel 383. -/
def weightByte : Nat := 3 * 0x3000000000 + 95 * 0x80000000 + 17 * 4096 + 40
/-- Wing 3 has a weight area of 64 rows over all its channels, which are in service. -/
def weightS : State :=
  ready ([(.HBM_WEIGHT_OFF, 3, 16), (.HBM_WEIGHT_ROWS, 3, 64), (.HBM_WEIGHT_CHMASK, 3, 2 ^ 96 - 1)] ++
    (List.range 96).map fun i => (.HBM_CH_STATE_STATE, 383 - i, 0))
/-- The same with a rebuild or a refetch of that block under way. -/
def rebuildS (refetch : Bool) : State := updMem weightS fun m => { m with rebuilds := [⟨3, weightByte / 4096, 5, refetch⟩] }

theorem test_HbmErrorsRun_hypotheses :
    (∀ s ∈ [updMem weightS fun m => { m with chanLogs := [⟨383, List.replicate 14 9, [9, 9, 9], 0, []⟩] }],
      chanOf weightByte = 383 ∧ isHbm weightByte = true ∧
      ((chanLog s 383).retries.filter (fun x => decide (9 < x + 1000000))).length < 15 ∧
      ((chanLog s 383).uncorr.filter (fun x => decide (9 < x + 86400000000000))).length < 4 ∧ chanPoison s 383 < 48) ∧
    ((blockPos weightS weightByte).isSome = true ∧ weightByte / 4096 ∉ weightS.mem.poison ∧
      rd weightS .HBM_CH_STATE_STATE 383 = 0 ∧ rd weightS .HBM_CH_STATE_STATE 383 < 2 ∧ (chanLog weightS 383).retries = [] ∧ (chanLog weightS 383).uncorr = [] ∧
      chanPoison weightS 383 = 0) ∧
    (∀ s ∈ [updMem (ready [(.HBM_CH_STATE_STATE, 383, 1)]) fun m => { m with chanLogs := [⟨383, [], [], 5, []⟩] }],
      rd s .HBM_CH_STATE_STATE 383 = 1 ∧ (chanLog s 383).degradedAt + 1000000000 ≤ max s.now 1000000005) := by decide +kernel

theorem test_RebuildAndRefetchRun_hypotheses :
    ((rebuildS false).mem.rebuilds.find? (fun x => x.block == weightByte / 4096 && !x.refetch) = some ⟨3, weightByte / 4096, 5, false⟩ ∧
      (blockPos (rebuildS false) (weightByte / 4096 * 4096)).map (blockAt (rebuildS false) 3 (layoutAt (rebuildS false) (weightByte / 4096 * 4096))) = some (weightByte / 4096 * 4096)) ∧
    ((rebuildS true).mem.rebuilds.find? (fun x => x.block == weightByte / 4096 && x.refetch) = some ⟨3, weightByte / 4096, 5, true⟩ ∧
      (blockPos (rebuildS true) (weightByte / 4096 * 4096)).isSome = true) ∧
    ((rebuildS false).mem.spare.filter (fun e => e.1 / 0x3000000 == 3)).length < 64 ∧
    (∀ s ∈ [updMem (rebuildS false) fun m => { m with spare := (List.range 64).map (fun i => (3 * 0x3000000 + i, i)) }],
      64 ≤ (s.mem.spare.filter (fun e => e.1 / 0x3000000 == 3)).length) := by decide +kernel

theorem test_RegionsAndRepairsRun_hypotheses :
    (∀ s ∈ [updMem ready fun m => { m with regionClears := [⟨12287, 0x41, 64⟩] }], (12287 : Nat) < 12288 ∧
      s.mem.regionClears.find? (fun y => y.region == 12287) = some ⟨12287, 0x41, 64⟩) ∧
    (∀ s ∈ [updCtxs (updMem ready fun m => { m with regionClears := [⟨12287, 0x41, 63⟩] }) fun x => { x with tearing := [(63, 4)] }],
      s.mem.regionClears.find? (fun y => y.region == 12287) = some ⟨12287, 0x41, 63⟩ ∧
      s.ctxs.tearing.any (fun e => e.1 == 63) = true ∧ ∀ y ∈ s.mem.regionClears, y ≠ ⟨12287, 0x41, 63⟩ → y.ctx ≠ 63) ∧
    (∀ s ∈ [ready [(.HBM_CH_STATE_STATE, 383, 3), (.HBM_REPAIR_CTRL_KIND, 383, 1)],
        ready [(.HBM_CH_STATE_STATE, 383, 3), (.HBM_REPAIR_CTRL_KIND, 383, 2)]], isMgmt s .mgmt = true ∧
      rd s .HBM_REPAIR_STATUS_BUSY 383 ≠ 1 ∧ rd s .HBM_CH_STATE_STATE 383 = 3 ∧
      (rd s .HBM_REPAIR_CTRL_KIND 383 = 1 ∨ rd s .HBM_REPAIR_CTRL_KIND 383 = 2)) ∧
    (rd (ready [(.HBM_CH_STATE_STATE, 383, 2)]) .HBM_CH_STATE_STATE 383 ≠ 3) ∧
    (rd (ready [(.HBM_REPAIR_STATUS_BUSY, 383, 1)]) .HBM_REPAIR_STATUS_BUSY 383 = 1 ∧ chanOf (weightByte / 4096 * 4096) = 383) := by
  decide +kernel

/-! Tables -/

/-- A hub image of 8 slots with zero routes and crossbars; its reserved bytes hold `resv`. -/
def hubImage (resv : Nat) : List Nat :=
  [0x54, 0x53, 0x48, 0x4C, 1, 0, 8, 0] ++ List.replicate 56 resv ++ [0, 0, 8, 0] ++ List.replicate 252 0 ++ List.replicate 576 0
/-- The start of a wing image of one segment; the rest of it is zeros. -/
def wingImage : List Nat :=
  [0x54, 0x53, 0x48, 0x4C, 1, 0, 8, 0] ++ List.replicate 56 0 ++ [0, 0, 8, 0] ++ List.replicate 252 0 ++ [1, 0, 0, 0]
/-- A state whose memory holds bytes at an on-chip address and nothing else. -/
def holding (a : Nat) (l : List Nat) (s : State) : State :=
  updMem s fun m => { m with
    bytes := (l.zipIdx.filter (fun e => e.1 != 0)).map (fun e => (a + e.2, BitVec.ofNat 8 e.1))
    valid := (List.range (l.length / 128 + 2)).map (fun i => (a / 128 + i, true)) }

theorem test_TableLoadsRun_hypotheses :
    (mayWrite ready .mgmt .HUB_TT_LOAD_SRC_OFFSET 159 = true ∧ rd ready .WING_TT_CTRL_FLIP_REQ 3 ≠ 1 ∧
      rd (ready [(.WING_TT_CTRL_FLIP_REQ, 3, 1)]) .WING_TT_CTRL_FLIP_REQ (159 / 40) = 1) ∧
    (∀ s ∈ [holding (pantryAddr 159 0x7FFC00) (hubImage 0)
        (ready [(.HUB_TT_CTRL_LOAD_BUSY, 159, 1), (.HUB_TT_LOAD_SRC_OFFSET, 159, 131056),
          (.MEM_PANTRY_MODE_CACHE_MIB, 159, 0)])],
      rd s .HUB_TT_CTRL_LOAD_BUSY 159 = 1 ∧
      hubImageReason (159 % 40) (pantryImage s 159 (rd s .HUB_TT_LOAD_SRC_OFFSET 159 * 64) (0x140 + 72 * 1024)) = 0) ∧
    hubImageReason (159 % 40) (hubImage 1) = 6 ∧
    (mayWrite ready .mgmt .WING_TT_LOAD_SRC_OFFSET 3 = true ∧
      ∀ s ∈ [holding (pantryAddr 120 0x7F7B80) wingImage (updTt (ready [(.MEM_PANTRY_MODE_CACHE_MIB, 120, 0),
          (.WING_TT_LOAD_SRC_OFFSET, 3, 130542)]) fun t => { t with wingBusy := [(3, true)] })],
        storeGet false s.tt.wingBusy 3 = true ∧ wingImageReason (wingSource s 3) = 0) ∧
    (mayWrite ready .mgmt .VEC_COEF_LOAD_SRC_OFFSET 159 = true ∧ rd ready .VEC_COEF_CTRL_FLIP_REQ 159 ≠ 1 ∧
      ∀ s ∈ [holding (pantryAddr 159 0) [0x43, 0x45, 0x46, 0x42, 7, 1] (ready [(.VEC_COEF_CTRL_LOAD_BUSY, 159, 1)])],
        rd s .VEC_COEF_CTRL_LOAD_BUSY 159 = 1 ∧ coefReason (pantryImage s 159 0 1040) = 0) := by decide +kernel

/-- Every wing has its two Pannier banks; a copy runs or not. -/
def banked (busy : Nat) : State :=
  ready ([(.PANNIER_CTRL_COPY_BUSY, 0, busy)] ++ (List.range 4).map (fun w => (.PANNIER_BANK0_BASE, w, w * 0x3000000 + 0x100)) ++
    (List.range 4).map (fun w => (.PANNIER_BANK1_BASE, w, w * 0x3000000 + 0x200)))

theorem test_TableWritesRun_hypotheses :
    (mayWrite ready .mgmt .WING_TT_CTRL_FLIP_REQ 3 = true ∧ mayWrite ready .mgmt .HUB_REMAP_CTRL_FLIP_REQ 159 = true ∧
      mayWrite ready .mgmt .VEC_COEF_CTRL_FLIP_REQ 159 = true ∧ mayWrite ready (.core 0) .PANNIER_CTRL_FLIP_REQ = true ∧
      mayWrite ready (.core 0) .SPOKE_TT_CTRL_FLIP_REQ = true) ∧
    (mayWrite ready .mgmt .HUB_REMAP_B0_SLOT_VALID (159 * 64 + 63) = true ∧ 0 = rd ready .HUB_REMAP_CTRL_ACTIVE_BANK 159 ∧
      1 ≠ rd ready .HUB_REMAP_CTRL_ACTIVE_BANK 159 ∧ rd ready .HUB_REMAP_CTRL_FLIP_REQ 159 ≠ 1) ∧
    (bankGuard (banked 0) (entryAddr (banked 0) 0 3 16383 / 4096) = true ∧
      bankGuard (banked 0) (entryAddr (banked 0) 1 3 16383 / 4096) = false ∧ (banked 0).mem.poison = [] ∧ Src.mgmt ≠ .core (leadHub ready) ∧
      entryOf (entryBytes { freeEntry with st := 2, partUnits := [1, 2, 3, 4] }) = { freeEntry with st := 2, partUnits := [1, 2, 3, 4] }) ∧
    (pannierWriter ready .mgmt = true ∧ rd ready .PANNIER_CTRL_FLIP_REQ ≠ 1 ∧ rd ready .PANNIER_CTRL_COPY_BUSY ≠ 1) ∧
    (rd (banked 1) .PANNIER_CTRL_COPY_BUSY = 1 ∧ rd (banked 1) .PANNIER_CTRL_ACTIVE_BANK < 2 ∧
      (∀ x ∈ List.range 8, isHbm (bankBase (banked 1) (x / 4) (x % 4) + 0xFFFFF) = true) ∧
      (∀ x ∈ List.range 8, ∀ y ∈ List.range 8, x ≠ y →
        bankBase (banked 1) (x / 4) (x % 4) + 0x100000 ≤ bankBase (banked 1) (y / 4) (y % 4) ∨
        bankBase (banked 1) (y / 4) (y % 4) + 0x100000 ≤ bankBase (banked 1) (x / 4) (x % 4))) ∧
    ((383 : Nat) < 384 ∧ (40 : Nat) ≤ 40 ∧ (19 : Nat) < 20) := by decide +kernel

theorem test_WingFlipsWholeOrNotAtAll_hypotheses :
    (∀ s ∈ [updTt (ready [(.WING_TT_CTRL_FLIP_REQ, 3, 1)]) fun t => { t with
        ttLoaded := (List.range 40).map (fun i => (120 + i, true)) ++ [(163, true)] }],
      (∀ i, i < 40 → storeGet false s.tt.ttLoaded (3 * 40 + i) = true) ∧ storeGet false s.tt.ttLoaded (wingTable 3) = true ∧
      windowFault (ttBank s (wingTable 3) (1 - rd s .WING_TT_CTRL_ACTIVE_BANK 3)) = none) ∧
    storeGet false ready.tt.ttLoaded (wingTable 3) ≠ true := by decide +kernel

/-! Contexts -/

/-- Context c in a state. -/
def ctxIn (c st : Nat) : State := ready [(.LP_STATUS_STATE, 0, 1), (.CTX_STATE_STATE, c, st)]

theorem test_ContextCommandsRun_hypotheses :
    (∀ s ∈ [ctxIn 63 0, ctxIn 63 1, ctxIn 63 2], isMgmt s .mgmt = true ∧ rd s .CTX_CMD_STATUS_BUSY ≠ 1 ∧ rd s .LP_STATUS_STATE < 2 ∧
      rd s .BOOT_STATUS_PHASE = 8 ∧ rd s .DBG_STATUS_TEST_MODE ≠ 1 ∧ freeSaveSlot s ≠ none ∧ (63 : Nat) ≠ 0) ∧
    (∀ s ∈ [ready [(.LP_STATUS_STATE, 0, 3)]], rd s .CTX_CMD_STATUS_BUSY ≠ 1 ∧ isMgmt s .mgmt = true ∧ rd s .LP_STATUS_STATE ∈ [2, 3, 4]) ∧
    rd (ctxIn 63 0) .CTX_STATE_STATE 63 = 0 ∧ rd (ctxIn 63 1) .CTX_STATE_STATE 63 = 1 ∧ rd (ctxIn 63 2) .CTX_STATE_STATE 63 = 2 := by
  decide +kernel

theorem test_OnlyManagementCommandsContexts_hypotheses : isMgmt ready (.core 7) = false ∧ isMgmt ready (.driver 5) = false := by
  decide +kernel

theorem test_ContextStagesRun_hypotheses :
    (∀ s ∈ [updCtxs (ctxIn 63 1) fun x => { x with suspending := [(63, 4)] }],
      s.ctxs.suspending.find? (fun e => e.1 == 63) = some (63, 4) ∧
      s.core.queues.any (fun q => q.2.any (fun r => r.q.ctx == 63)) = false ∧ lockedCtx s 63 = false) ∧
    (∀ s ∈ [updCtxs (ctxIn 63 3) fun x => { x with tearing := [(63, 4)] }],
      s.ctxs.tearing.any (fun e => e.1 == 63) = true ∧ 63 ∉ s.ctxs.ended) ∧
    (∀ s ∈ [updCtxs (ctxIn 63 3) fun x => { x with tearing := [(63, 4)], ended := [63] }],
      s.ctxs.tearing.any (fun e => e.1 == 63) = true ∧ 63 ∈ s.ctxs.ended ∧ ∀ e ∈ s.mem.regions, e.2 ≠ 63) := by decide +kernel

theorem test_EnableRuns_hypotheses :
    (∀ s ∈ [ready [(.SERVE_INTAKE_SIZE_LOG2, 63, 6), (.SERVE_EVQ_SIZE_LOG2, 63, 20)],
        ready [(.SERVE_INTAKE_SIZE_LOG2, 63, 16), (.SERVE_EVQ_SIZE_LOG2, 63, 6)]],
      mayWrite s (.driver 63) .SERVE_CTRL_ENABLE 63 = true ∧ enableOk s 63 = true ∧ rd s .SERVE_CTRL_ENABLE 63 ≠ 1 ∧
      (queueOf s 63).spill = []) ∧
    (∀ s ∈ [ready [(.SERVE_INTAKE_SIZE_LOG2, 63, 6), (.SERVE_EVQ_SIZE_LOG2, 63, 20), (.SERVE_CTRL_ENABLE, 63, 1)]],
      mayWrite s (.driver 63) .SERVE_CTRL_ENABLE 63 = true ∧ enableOk s 63 = true ∧ rd s .SERVE_CTRL_ENABLE 63 = 1) ∧
    (∀ s ∈ [ready, ready [(.SERVE_INTAKE_SIZE_LOG2, 63, 17), (.SERVE_EVQ_SIZE_LOG2, 63, 6)],
        ready [(.SERVE_INTAKE_SIZE_LOG2, 63, 6), (.SERVE_EVQ_SIZE_LOG2, 63, 6), (.SERVE_EVQ_SIZE_VECTOR, 63, 1)]],
      enableOk s 63 = false) := by decide +kernel

theorem test_IdeFailuresTearDown_hypotheses :
    ∀ s ∈ [ready [(.CTX_STATE_STATE, 63, 1), (.CTX_STATE_CLASS, 63, 1), (.CTX_STATE_IDE_READY, 63, 1)]],
      confGranted s 63 = true ∧ rd s .CTX_STATE_IDE_READY 63 = 1 ∧ rd s .CTX_STATE_IDE_READY 62 ≠ 1 ∧
      ∀ u ∈ [ready [(.CTX_STATE_IDE_READY, 63, 1)]], confGranted u 63 = false ∧ rd u .CTX_STATE_IDE_READY 63 = 1 := by decide +kernel

/-! Requests -/

def card1 : CardImage := { card0 with cycles := List.replicate 8 40, maxNs := 1000 }
/-- A recipe that runs card 7 for everything. -/
def recipe0 : Recipe :=
  let l := fun (ns : List Nat) => ns.map (fun n => (n, [[7]]))
  ⟨l [1, 16, 1024], l [1, 1024], l [1, 2, 4, 8, 16, 32], l [1, 2, 4, 8, 16, 32, 64], [[7]], [], [], ⟨0, 0, []⟩, []⟩
/-- The SHA-256 digest of the three bytes of "abc" (FIPS 180-4's example). -/
def abcDigest : List Nat :=
  [0xBA, 0x78, 0x16, 0xBF, 0x8F, 1, 0xCF, 0xEA, 0x41, 0x41, 0x40, 0xDE, 0x5D, 0xAE, 0x22, 0x23, 0xB0, 3, 0x61, 0xA3, 0x96, 0x17, 0x7A,
    0x9C, 0xB4, 0x10, 0xFF, 0x61, 0xF2, 0, 0x15, 0xAD]
/-- The 4,096 header bytes of a bundle whose recipe and cards sections hold "abc" each (Table 7-9). -/
def headerBytes : List Nat :=
  [0x4B, 0x42, 0x4E, 0x44, 1, 0, 2, 0, 3, 0x20, 0, 0, 0, 0, 0, 0, 0xE8, 3, 0, 0, 2] ++ List.replicate 43 0 ++
    [3] ++ List.replicate 8 0 ++ [0x10, 0, 0, 0, 0, 0, 0, 3] ++ List.replicate 15 0 ++ abcDigest ++
    [4] ++ List.replicate 8 0 ++ [0x20, 0, 0, 0, 0, 0, 0, 3] ++ List.replicate 15 0 ++ abcDigest ++ List.replicate 3904 0
def header0 : BundleHeader :=
  ⟨true, 0x2003, 1000, 2, 0, [0, 0, 0, 0], [(3, 0x1000, 3), (4, 0x2000, 3)], [abcDigest, abcDigest]⟩
def model0 : Model :=
  ⟨.loaded, (0, 99), header0, [], [card1], recipe0, [(1, [⟨0, 0, 4, 4⟩])], [], 0, [(0, 0), (0, 0), (0, 0), (0, 0)], [0, 0, 0, 0], 3, []⟩
def session0 (c : Nat) : Session := ⟨.idle, c, 1, 1, 0, none, false, some 7, 1, none, 0, 1, []⟩
def root0 (c : Nat) : Root := ⟨mkHandle c 5 1, 0, 1, 0, 0, 0, 0, 0, 0, 1, 0, 0, [], 0, 0, [], []⟩
/-- Context c is served: model 1 is loaded, session 5 is idle, pools, store and workspace lie on wing 0. -/
def serving0 (c : Nat) : State :=
  let s := ready ((List.range 96).map (fun i => (.HBM_CH_STATE_STATE, 95 - i, 0)) ++ [(.PANNIER_QUOTA, c, 8),
    (.SERVE_SESSION_LIMIT, c, 8), (.SERVE_EVQ_SIZE_LOG2, c, 20), (.SERVE_INTAKE_SIZE_LOG2, c, 6), (.SERVE_CTRL_ENABLE, c, 1),
    (.CTX_STATE_STATE, c, 1), (.LP_STATUS_STATE, 0, 1), (.PCIE_LINK_UP, 0, 1), (.TRAIN_WS_LIMIT, 0, 0xE000),
    (.TRAIN_WS_BASE, 0, 0xC000), (.PANNIER_STORE_LIMIT, 0, 0xB000), (.PANNIER_STORE_BASE, 0, 0xA000), (.LARDER_POOL_LIMIT, 0, 0x9000),
    (.LARDER_POOL_BASE, 0, 0x1000), (.LARDER_LAYOUT_VALID, 0, 1), (.LARDER_LAYOUT_ROPE_FMT, 0, 8), (.LARDER_LAYOUT_ROPE_UNITS, 0, 1),
    (.LARDER_LAYOUT_LATENT_FMT, 0, 8), (.LARDER_LAYOUT_LATENT_UNITS, 0, 2), (.LARDER_LAYOUT_LAYERS, 0, 2)])
  let s := updServe s fun v => { v with models := [(1, model0)], sessions := [(5, session0 c)], idxUsed := [(5, (1, 0))] }
  updLard s fun l => { l with roots := [(5, root0 c)] }
/-- The common bytes of a record of context c. -/
def head0 (c : Nat) (handle : Nat := 0) : ReqHead := ⟨c, 100, handle, 0xAB⟩
def handle0 : Nat := mkHandle 3 5 1
def generate0 : GenerateRec := ⟨3, 0, 0, 2 ^ 48, 1, 4, 0, 0, 1, 0, 0, 0, 0, 0, 0, [], 0, true⟩
def open0 : TrainOpenRec := ⟨0, 9, 0, 0, 0, 8, 2, 1, 1, 0, 0, 0, 0, 0, 0, 0x3F800000, 0, 5, 1, true⟩
def openImage : TrainOpenRec := { open0 with flags := 1, addr := 2 ^ 48, bytes := 4096, rank := 0, targetSet := 0 }
def job0 : Job := ⟨3, 9, open0, 8, 0x3F800000, 1, [], [], 0, 0, 0, true, (0, 0, 256)⟩
def step0 : TrainStepRec := ⟨9, 0, 1, 4, 0, 1, true, some ([4], [1, 2, 3, 4])⟩
def security0 : SecRec := ⟨0, 2 ^ 48, 65536, 5, 3, true⟩
def finish0 : SecRec := ⟨0, 2 ^ 48, 1568, 5, 3, true⟩
/-- Pannier slot 9 of context 3 in a state, in bank 0 of wing 0 at address 0. -/
def slotIn (st : Nat) (s : State) : State :=
  updMem s fun m => { m with
    bytes := ((entryBytes { freeEntry with st := st, ctx := 3, rank := 8, model := 1, targetSet := 1, format := 8 }).zipIdx.filter
      (fun e => e.1 != 0)).map (fun e => (64 * 9 + e.2, BitVec.ofNat 8 e.1)) }
/-- Context 3 trains in slot 9. -/
def trainS : State := updPann (slotIn 3 (serving0 3)) fun p => { p with jobs := [(1, job0)] }
/-- Context 3 holds an adapter key at index 0. -/
def keyedS (s : State) : State := updCtxs s fun x => { x with keys := [(12, ⟨7, 1⟩)] }
/-- A pending key at index 3. -/
def pendingS : State := updCtxs (serving0 3) fun x => { x with pendingKeys := [(15, ⟨0, 7⟩)] }
/-- An open item of a context. -/
def itemOf (ctx idx opcode : Nat) : Item :=
  ⟨ctx, idx, opcode, 0, 1, none, 1, 0, none, 0, 0, 0, none, 0, 0, 0, 0, 0, 0, 0, 0, [], 0, []⟩
/-- An open GENERATE on session 5. -/
def busyS : State :=
  updServe (serving0 3) fun v => { v with
    items := [{ itemOf 3 50 1 with sess := some 5, handle := handle0 }], sessions := [(5, { session0 3 with st := .busy })] }
/-- What AcceptedRecordsOpenItems and ItemsThatEndAtOnce ask of every record. -/
def roomy (s : State) (h : ReqHead) : Bool :=
  !generalFull s h.ctx && (itemAt s h.ctx h.idx).isNone &&
    s.serve.items.all (fun x => decide ((h.ctx, h.idx) ∉ x.waits ∧ (x.waits = [] → x.stop ≠ 9)))
/-- A GENERATE that is admitted with room left for its item; with what it ends at once, if so. -/
def admitted (s : State) (h : ReqHead) (r : GenerateRec) (empty : Option (Nat × Nat)) : Bool :=
  match admitGenerate s h r with
  | .ok a => decide (a.empty = empty) && roomy a.st h
  | .error _ => false

theorem test_FailingRecordsAreAnswered_hypotheses :
    ∀ s ∈ [serving0 3], generateChecks s (head0 3) { generate0 with permit := 8 } = some (0x30, 0x41) ∧
      (match admitGenerate s (head0 3) { generate0 with maxFirstUs := 1 } with | .error e => e.1 | .ok _ => 0) = 0x10 ∧
      handleChecks s (head0 3 handle0) false = some (0x30, 0x41) ∧ handleChecks s (head0 3 0) true = some (0x31, 0x01) ∧
      handleChecks s (head0 3 (mkHandle 3 6 1)) true = some (0x31, 0x03) ∧
      handleChecks s (head0 3 handle0) (true && decide (8 < 8)) = some (0x30, 0x41) ∧
      bundleChecks s (head0 3) ⟨2 ^ 48, 0x2003, 2, true⟩ (some headerBytes) = some (0x30, 0x43) ∧
      unloadChecks s (head0 3) 1 true = some (0x30, 0x43) ∧ loadChecks s (head0 3) ⟨9, 2 ^ 48, 4096, 0, 1, true⟩ = some (0x30, 0x4A) ∧
      releaseChecks s (head0 3) 9 true = some (0x31, 0x04) ∧ openChecks s (head0 3) { open0 with accum := 0 } = some (0x30, 0x42) ∧
      stepChecks s (head0 3) step0 = some (0x31, 0x04) ∧ ckptChecks s (head0 3) ⟨9, 0, 4096, 0, 0, true⟩ = some (0x30, 0x4A) ∧
      closeChecks s (head0 3) 9 0 0 true = some (0x31, 0x04) ∧ reportChecks s (head0 3) { security0 with bytes := 0 } = some (0x30, 0x42) ∧
      finishChecks s (head0 3) finish0 = some (0x30, 0x4D) ∧ eraseChecks s (head0 3) 4 true = some (0x30, 0x42) := by decide +kernel

theorem test_AcceptedRecordsOpenItems_hypotheses :
    (roomy (serving0 3) (head0 3) = true ∧ admitted (serving0 3) (head0 3) generate0 none = true) ∧
    (roomy busyS (head0 3 handle0) = true ∧ handleChecks busyS (head0 3 handle0) true = none ∧
      (openGen busyS (handleIdx handle0)).isSome = true ∧ openGen (serving0 3) (handleIdx handle0) = none ∧
      handleChecks (serving0 3) (head0 3 handle0) true = none) ∧
    bundleChecks (updMem (serving0 0) fun m => { m with regions := [(5, 0x40)] }) (head0 0) ⟨2 ^ 48, 0x2003, 2, true⟩
      (some headerBytes) = none ∧ bundleHeaderOf headerBytes = header0 ∧
    (∀ s ∈ [updServe (serving0 0) fun v => { v with items := [itemOf 0 50 1] }],
      unloadChecks s (head0 0) 1 true = none ∧ modelUsers s 1 ≠ [] ∧ roomy s (head0 0) = true) ∧
    loadChecks (keyedS (serving0 3)) (head0 3) ⟨9, 2 ^ 48, 4096, 0, 1, true⟩ = none ∧
    releaseChecks (slotIn 2 (serving0 3)) (head0 3) 9 true = none ∧
    (openChecks (keyedS (serving0 3)) (head0 3) openImage = none ∧ bitAt openImage.flags 0 = true) ∧
    (stepChecks trainS (head0 3) step0 = none ∧ (jobOf trainS 9).map (·.1) = some 1 ∧
      (firstTrial trainS ⟨3, 100, 1, 0, 0, 0, 4, 0, false⟩ trainS.serve.lastTick 0
        (trainTrials trainS ⟨3, 100, 1, 0, 0, 0, 4, 0, false⟩ false) 0).toOption.isSome = true ∧ step0.data = some ([4], [1, 2, 3, 4]) ∧
      (1000, rd trainS .CTX_STATE_CLASS 3) = (header0.vocab, 0) ∧ trainDataOk 1000 4 [4] [1, 2, 3, 4] = true) ∧
    ckptChecks (keyedS trainS) (head0 3) ⟨9, 0, 1048576, 0, 0, true⟩ = none ∧ closeChecks trainS (head0 3) 9 0 0 true = none ∧
    jobOf trainS 9 = some (1, job0) ∧ reportChecks (serving0 3) (head0 3) security0 = none ∧ roomy trainS (head0 3) = true := by decide +kernel

theorem test_ItemsThatEndAtOnce_hypotheses :
    admitted (serving0 3) (head0 3) { generate0 with promptLen := 0 } (some (3, 8)) = true ∧
    (handleChecks (serving0 3) (head0 3 handle0) true = none ∧ openGen (serving0 3) (handleIdx handle0) = none ∧
      roomy (serving0 3) (head0 3 handle0) = true ∧ (7 : Nat) < 8) ∧
    (unloadChecks (serving0 0) (head0 0) 1 true = none ∧ modelUsers (serving0 0) 1 = [] ∧ roomy (serving0 0) (head0 0) = true) ∧
    stepChecks trainS (head0 3) { step0 with seqCount := 0, tokenCount := 0 } = none ∧
    (finishChecks pendingS (head0 3) finish0 = none ∧ storeFind pendingS.ctxs.pendingKeys (3 * 4 + 3) = some ⟨0, 7⟩ ∧
      roomy pendingS (head0 3) = true) ∧
    eraseChecks pendingS (head0 3) 3 true = none := by decide +kernel

theorem test_AdoptedPlansKeepPromises_hypotheses :
    (firstTrial trainS ⟨3, 100, 1, 0, 0, 0, 4, 0, false⟩ 0 0 (trainTrials trainS ⟨3, 100, 1, 0, 0, 0, 4, 0, false⟩ false) 0).toOption.isSome =
      true := by decide +kernel

/-! Work of items, intake, steps, parks -/

/-- A KIND 1 image of rank 8 for target set 1 in BF16, every element byte 1, and its clear header (Tables 8-1, 8-5); the digest was
computed with another implementation of SHA-256. -/
def image0 : List Nat :=
  [0x50, 0x41, 0x4E, 0x4E, 1, 0, 1, 8, 1, 0, 1, 0, 8, 0, 1, 0, 0, 0, 0x80, 0x3F] ++ List.replicate 12 0 ++
    [0x6B, 0xFB, 0x9A, 0x89, 0xB9, 0xE6, 0xCA, 0x7F, 0xDA, 0x0E, 0x46, 0x88, 0x43, 0x47, 0x89, 0x60, 0xCC, 0x39, 0x0E, 0xD3, 0x5E, 0x46,
     1, 0x0C, 0xB1, 0xA8, 0x80, 0x8C, 0xDF, 0x60, 0x1C, 0xF5] ++ [0, 0, 0, 0, 4, 0, 0, 0, 4, 0, 0, 0, 0, 0, 0, 0] ++ List.replicate 128 1
def clear0 : List Nat := [0x50, 0x41, 0x4E, 0x43, 1, 0, 0, 0, 0xD0, 0, 0, 0, 0, 0, 0, 0, 5] ++ List.replicate 47 0
def loadItem : Item := { itemOf 3 50 0x10 with slot := some 9, model := 1, data := [288, 0] }
/-- An ADAPTER_LOAD of slot 9 in progress. -/
def loadingS : State := updServe (slotIn 1 (serving0 3)) fun v => { v with items := [loadItem] }
/-- A bundle for model 2 that is arriving; the section that is due has a type and a digest, another is still to come. -/
def dueS (type len : Nat) (digest : List Nat) : Model :=
  { model0 with st := .loading, owner := (0, 50), cards := [], image := [],
                header := { header0 with sections := [(type, 0x40, len), (if type = 4 then 3 else 4, 0x80, 3)], digests := [digest, abcDigest] } }
def bundleS (m : Model) : State := updServe (serving0 0) fun v => { v with models := [(2, m)], items := [itemOf 0 50 5] }
/-- The last section of the bundle is due, and its card bytes have arrived. -/
def cardsDue : Model :=
  { dueS 4 3 abcDigest with header := { header0 with sections := [(3, 0x40, 3), (4, 0x80, 3)], digests := [abcDigest, abcDigest] }, arrived := [3],
                            image := List.replicate 0x80 0 ++ [97, 98, 99] }
/-- A card of one MATRIX stage (Tables 2-2, 4-1, 4-2), its digest computed with another implementation of SHA-256. -/
def cardBytes : List Nat :=
  [0x5A, 0x4E, 0x43, 0x4B, 1, 0, 0, 1, 0x80, 1, 0, 0, 7, 0, 0, 0, 1, 0, 1, 0, 1, 7, 0, 0, 0, 0x80, 1, 0, 0x40, 0, 0, 0, 1, 0, 0, 0, 0x64] ++
    List.replicate 31 0 ++ [0x28] ++ List.replicate 44 0 ++ [1] ++ List.replicate 110 0 ++
    [0xDC, 0x2E, 0xEE, 0xAA, 0x2E, 0x27, 0x19, 0x93, 0x71, 0xEE, 0xE3, 0x10, 0x90, 0xB5, 0x3D, 0xFB, 0x7C, 0xA2, 0xBB, 0xAB, 0x58, 0x99,
     0x7D, 0x27, 0xBE, 0xAF, 0x77, 0x28, 0x12, 0x1C, 0xA1, 0xCD] ++ [1, 0, 0x50, 0, 1] ++ List.replicate 11 0 ++
    [1, 0, 2, 0, 2, 0, 0, 0, 2, 0, 0, 0, 2, 0, 0, 0, 2, 0, 0, 0, 0x0A, 0, 0, 0, 8, 0, 0, 0, 0, 0, 0, 0, 8] ++ List.replicate 12 0 ++
    [0x10, 0, 0, 0, 0x20, 0, 0, 0, 0, 0, 0, 0x40, 0, 0x40, 0, 0x40] ++ List.replicate 51 0
def goodCard : CardImage :=
  ⟨0x4B434E5A, 1, 0x100, 0x180, 7, 1, 0, 1, 1, 7, 0, 0, 0x18000, 64, 1, 100, [0, 0, 0, 0, 0, 0, 0, 40], [0, 0, 0, 0, 0, 0],
    [0, 0, 0, 0, 0, 0], 0, 0, 0, 0, 0x100, 0, 0, 0, 0, true, true, [], [], [],
    [⟨1, 0, 80, 1, true, [.matrix { matOf with k := 2, m := 2, n := 2 }]⟩]⟩
/-- A TARGET_SETS section of set 1, which adds to one target, and a COLUMN_MAP section for it. -/
def setsBytes : List Nat := [1, 0, 0, 0, 0, 0, 0, 0] ++ [1, 0, 1, 0, 0, 0, 0, 0] ++ [0, 0, 0, 0, 4, 0, 0, 0, 4, 0, 0, 0, 0, 0, 0, 0]
def mapBytes : List Nat := List.replicate 64 0
/-- A section that is due and arrives with these bytes is as long as it must be and has its digest. -/
def goodSection (m : Model) (b : List Nat) : Bool :=
  match dueSection m with
  | some e =>
    let l := padTo e.1.2.1 m.image ++ b
    decide (l.length = e.1.2.1 + e.1.2.2 ∧ sha256 (l.drop e.1.2.1) = e.2)
  | none => false

theorem test_BundlesArrive_hypotheses :
    (∀ type ∈ [1, 2, 3, 4, 0x13], ∀ s ∈ [bundleS (dueS type 3 abcDigest)], (modelAt s 2).map (·.st) = some .loading ∧
      (dueSection (dueS type 3 abcDigest)).map (·.1.1) = some type) ∧
    (goodSection (dueS 3 3 abcDigest) [97, 98, 99] = true ∧ goodSection (dueS 0x13 3 abcDigest) [97, 98, 99] = true ∧
      goodSection (dueS 1 32 (sha256 setsBytes)) setsBytes = true ∧ (targetSetsOf setsBytes).isSome = true ∧
      goodSection (dueS 2 64 (sha256 mapBytes)) mapBytes = true ∧ (columnMapOf model0.targetSets mapBytes).isSome = true) ∧
    (∀ type ∈ [1, 2, 3], goodSection (dueS type 3 abcDigest) [97, 98, 98] = false) ∧
    (cardOfBytes cardBytes [] = goodCard ∧ validateCard (layersOf (bundleS (dueS 4 3 [])) 2 (dueS 4 3 [])) [] goodCard = none ∧
      validateCard (layersOf (bundleS (dueS 4 3 [])) 2 (dueS 4 3 [])) [] (cardOfBytes (cardBytes.set 0x101 1) []) ≠ none) ∧
    ((dueSection cardsDue).map (·.1) = some (4, 0x80, 3) ∧ padTo 0x83 cardsDue.image = cardsDue.image ∧
      sha256 (cardsDue.image.drop 0x80) = abcDigest ∧ (∀ y ∈ cardsDue.header.sections, y.1 ∈ cardsDue.arrived ++ [0x04]) ∧
      (itemAt (bundleS cardsDue) 0 50).isSome = true ∧
      ∀ x ∈ (bundleS cardsDue).serve.items, (0, 50) ∉ x.waits ∧ (x.waits = [] → x.stop ≠ 9)) := by
  refine ⟨?_, ?_, ?_, ?_, ?_⟩ <;> decide +kernel

theorem test_ItemWorkRuns_hypotheses :
    (itemAt loadingS 3 50 = some loadItem ∧ loadItem.stop = 0 ∧
      imageFault (tick loadingS 9) true 288 1 (some clear0) true image0 = none ∧
      (buildEntry (setItem (tick loadingS 9) { loadItem with stop := 1 }) 2 3 8 1 1 8 0x3F800000 0).isSome = true ∧
      imageFault (tick loadingS 9) true 288 1 (some clear0) false image0 = some (0x30, 0x48)) ∧
    (∀ s ∈ [updPann (slotIn 4 (serving0 3)) fun p => { p with releases := [⟨9, [(3, 50)], true⟩] },
        updPann (slotIn 4 (serving0 3)) fun p => { p with releases := [⟨9, [], false⟩] }],
      (s.pann.releases.find? (fun x => x.slot == 9)).isSome = true ∧ (activeEntry s 9).st = 4 ∧ slotNamed s 9 [] = false) ∧
    (∀ s ∈ [updCtxs (updServe trainS fun v => { v with items := [{ loadItem with opcode := 0x14, data := [2 ^ 48, 1, 0] }] }) fun x =>
        { x with keys := [(13, ⟨7, 1⟩)] }],
      (itemAt s 3 50).map (fun x => (x.opcode, (x.slot.bind (jobOf s)).map (·.1))) = some (0x14, some 1) ∧ keyAt s 3 1 = some ⟨7, 1⟩) ∧
    (∀ s ∈ [updBoot (updCtxs (updServe (serving0 3) fun v => { v with items := [itemOf 3 50 0x21] }) fun x =>
        { x with reports := [⟨3, 50, 2, security0, 7⟩], pendingKeys := [(12, ⟨5, 7⟩)] }) fun b => { b with aliasSigned := true }],
      s.ctxs.reports = [⟨3, 50, 2, security0, 7⟩] ∧ s.boot.aliasSigned = true ∧ (itemAt s 3 50).map (·.opcode) = some (0x1F + 2) ∧
      storeFind s.ctxs.pendingKeys (3 * 4 + 0) = some ⟨5, 7⟩ ∧ 5 + 60000000000 ≤ max s.now 60000000005 ∧ rd s .BOOT_STATUS_PHASE = 8) := by
  decide +kernel

theorem test_IntakeAndPollsRun_hypotheses :
    (∀ k ∈ [1, 40], ∀ s ∈ [wr (serving0 3) .SERVE_INTAKE_COUNT 3 (2 ^ 32 - 1)], intakeOn s 3 = true ∧ rd s .LP_STATUS_STATE < 2 ∧
      (rd s .SERVE_EVQ_COUNT 3 + 2 ^ 32 - 0) % 2 ^ 32 ≤ evqSize s 3 ∧ (queueOf s 3).spill = [] ∧
      ((2 ^ 32 - 1 + k) % 2 ^ 32 + 2 ^ 32 - rd s .SERVE_INTAKE_COUNT 3) % 2 ^ 32 = k ∧ k ≤ 2 ^ rd s .SERVE_INTAKE_SIZE_LOG2 3 ∧
      k ≤ 40 * rd s .TT_CONFIG_INTAKE_TICK ∧ opcodeDefined (1 :: List.replicate 127 0) = true) ∧
    (∀ s ∈ [wr (serving0 3) .SERVE_EVQ_COUNT 3 5], hostReach s 3 = true ∧ (rd s .SERVE_EVQ_COUNT 3 + 2 ^ 32 - 5) % 2 ^ 32 ≤ evqSize s 3 ∧
      evqSize s 3 < (rd s .SERVE_EVQ_COUNT 3 + 2 ^ 32 - 6) % 2 ^ 32 ∧ rd s .SERVE_CTRL_FAULTED 3 ≠ 1 ∧ (queueOf s 3).ringFails < 2) ∧
    (∀ s ∈ [setQueue (wr (serving0 3) .SERVE_CTRL_BACKLOG 3 1) 3 { queueOf (serving0 3) 3 with
        armed := false, ringFails := 2, backlogSince := some 5 }],
      (queueOf s 3).armed = false ∧ 2 ≤ (queueOf s 3).ringFails ∧ (queueOf s 3).backlogSince = some 5 ∧ rd s .CTX_STATE_STATE 3 = 1 ∧
      rd s .SERVE_CTRL_BACKLOG 3 = 1 ∧ rd s .PCIE_LINK_UP = 1 ∧ 5 + 100000000 ≤ max s.now 100000005) := by decide +kernel

def planned0 : PStep := ⟨none, false, false, 0, [⟨3, 100, 1, 0, 0, 1⟩], [], [], 0, []⟩
def freeze0 : FreezeIn := ⟨[], true, [7, 7, 7, 7]⟩
def end0 : StepEndIn := ⟨0, 0, [], [], 0, 0⟩
/-- A planned step for an open request; frozen or not, with or without a step that runs. -/
def planS (frozen running : Bool) : State :=
  updTt (updServe (serving0 3) fun v => { v with
      items := [{ itemOf 3 100 1 with sess := some 5, gen := some generate0, deadline := 10 ^ 9, interval := 5000000, promptDone := 2 }]
      sessions := [(5, { session0 3 with st := .busy })] }) fun t => { t with
    plan := [planned0], planStart := 103000, frozen := if frozen then [⟨1, [7, 7, 7, 7], 103000, false, []⟩] else [], run := { t.run with running := running } }

theorem test_StepsRun_hypotheses :
    (openSteps (planS false false) = planned0 :: [] ∧ planning (planS false false) = true ∧
      planned0.chunks = [] ∧ hasWork planned0 = true ∧ planned0.switchIn = false) ∧
    (∀ s ∈ [planS true false], s.tt.frozen ≠ [] ∧ headStart s ≤ max s.now 103000 ∧ loadsMissing s = false ∧ slotCeil (max s.now 103000) = 103000 ∧
      (boundaryOps (tick s 103000)).tt.plan = planned0 :: [] ∧ mayBegin (boundaryOps (tick s 103000)) = true ∧
      headStart (boundaryOps (tick s 103000)) ≤ (boundaryOps (tick s 103000)).now) ∧
    (∀ s ∈ [planS false true], s.tt.run.running = true ∧ loadsMissing s = false ∧ mayBegin (boundaryOps (endStep (tick s 103000) end0)) = false) ∧
    (∀ s ∈ [updTt (serving0 3) fun t => { t with run := { t.run with boundaryAt := some 5000 } }],
      s.tt.run.running = false ∧ s.tt.run.boundaryAt = some 5000 ∧ 5000 ≤ max s.now 5000) := by decide +kernel

/-- Session 5 in a park state. -/
def parkS (st form committed : Nat) (ptes : List (Nat × Pte)) : State :=
  updServe (updLard (serving0 3) fun l => { l with
    roots := [(5, { root0 3 with st := st, form := form, committed := committed, ptes := ptes, parkAddr := 0xE8000 })] }) fun v =>
    { v with sessions := [(5, { session0 3 with resume := some (some 10) })] }

theorem test_ParksRun_hypotheses :
    (∀ s ∈ [parkS 2 2 4 [(0, ⟨0x1000, 3, 1, 4, 0⟩)]], (rootAt s 5).map (·.st) = some 2 ∧
      (sessAt s 5).map (fun x => (userOf s 5 x).st) = some .idle ∧
      ∀ p ∈ ((rootAt s 5).map parkPages).getD [], pagePoisoned s p.base (pageUnits s 0) = false) ∧
    (∀ s ∈ [parkS 3 2 4 []], unparkIsDue (tick s 9) 5 = true ∧ unparkFits (tick s 9) 5 = true ∧
      (sessAt s 5).bind (·.companion) = none) ∧
    unparkIsDue (tick (serving0 3) 9) 5 = false ∧
    (∀ form ∈ [1, 2], ∀ s ∈ [parkS 4 form 0 []], ∀ r ∈ [{ root0 3 with st := 4, form := form, parkAddr := 0xE8000 }],
      rootAt s 5 = some r ∧ committedPages r = 0 ∧
      pagePoisoned s (r.parkAddr / 4096) (ceilDiv (imageBytes s r.layout r.form 0) 4096) = false) ∧
    (∀ s ∈ [parkS 4 1 4 []], ∀ r ∈ [{ root0 3 with st := 4, form := 1, parkAddr := 0xE8000, committed := 4 }],
      rootAt s 5 = some r ∧ committedPages r = 1 ∧ imageOk s r 1 [1] = false) := by
  decide +kernel

theorem test_RegisterWritesRun_clauses :
    (∀ n ∈ [1, 15], mayWrite ready .mgmt .LARDER_LAYOUT_VALID n = true ∧ rd ready .LARDER_LAYOUT_VALID n ≠ 1 ∧
      rd (wr ready .LARDER_LAYOUT_VALID n 1) .LARDER_LAYOUT_VALID n = 1) ∧
    (mboxKey (.vf 63 0x3FC)).isSome = true ∧
    (mayWrite ready .mgmt .PANNIER_CTRL_READY = true ∧ rd (banked 1) .PANNIER_CTRL_COPY_BUSY = 1) ∧
    ((3 : Nat) < 4 ∧ (39 : Nat) < 40 ∧ (127 : Nat) < 128 ∧ (0x1FFFC : Nat) < 0x20000 ∧
      assigned ready (.pf (lsBase + (3 * 8192 + 39 * 128 + 65) * 0x20000 + 0x100)) 4 = false) ∧
    (targetAt (.pf 0xFF01B80010) .wing = none ∧ targetAt (.pf 0xFF01B80010) .hub = none ∧ mboxKey (.pf 0xFF01B80010) = none ∧
      assigned ready (.pf 0xFF01B80010) 4 = true) := by decide +kernel

/-- The event router's module word is a register that acts by its fields alone. -/
theorem test_plain_target : plainTarget ready (.pf 0xFF01B80010) 4 := by
  obtain ⟨-, -, -, -, hw, hh, hm, ha⟩ := test_RegisterWritesRun_clauses
  refine ⟨ha, hm, fun w o h => by simp [hw] at h, fun w o h => by simp [hh] at h, fun b a h => ?_⟩
  have : (b, a) = (0, 0xFF01B80010) := by
    have hv : targetAt (.pf 0xFF01B80010) .vest = some (0, 0xFF01B80010) := by decide +kernel
    rw [hv] at h
    exact (Option.some.inj h).symm
  cases this
  refine ⟨by decide, by decide, by omega⟩

theorem test_RegisterWritesRun_hypotheses :
    isMgmt ready .mgmt = true ∧ isMgmt ready (.driver 5) = false ∧ ((63 : Nat) < 64 ∧ (65536 : Nat) ≤ 65536 ∧ (65537 : Nat) < 2 ^ 17) ∧
    (∀ a ∈ [0xFF0000FFF8, 0xFF009FFFFC, 0xFF01FFFFFC, 0xC050000000, 0xFE00000000, 0xC1430A0000, 0xC1430B8000], assigned ready (.pf a) 4 = false) := by decide +kernel

/-! Power -/

/-- Every wing runs and is planned at G5. -/
def poweredS : State :=
  ready ((List.range 4).map (fun w => (.DRL_GEAR_CURRENT, w, 5)) ++ (List.range 4).map (fun w => (.DRL_GEAR_PLANNED, w, 5)))
/-- A rail's alert in progress on wings 0 and 2 since 100 ns. -/
def alertS (flags : Nat) : State := updPwr poweredS fun p => { p with alerts := [⟨3, 1, [0, 2], 100, 0, none, 5, flags⟩] }

theorem test_AlertsAndThrottleRun_hypotheses :
    (∀ r ∈ [0, 3, 18, 20], r ≤ 20 ∧ poweredS.pwr.alerts.any (fun a => a.src == r && a.ended.isNone) = false) ∧
    (∀ s ∈ [alertS 15], s.pwr.alerts.find? (fun a => a.src == 3 && a.ended.isNone) = some ⟨3, 1, [0, 2], 100, 0, none, 5, 15⟩ ∧
      (∀ x ∈ s.pwr.alerts, x.ended = none → x.src = 3) ∧ 100 + 100000 ≤ max s.now 100100 ∧
      100 + 1000000000 ≤ max s.now 1000000100 ∧ (15 : Nat) < 16) ∧
    (∀ s ∈ [updPwr poweredS fun p => { p with stormEnd := [(3, 77)], holdEnd := [(3, 77)] }], storeFind s.pwr.stormEnd 3 = some 77 ∧
      storeFind s.pwr.holdEnd 3 = some 77 ∧ 77 ≤ max s.now 77 ∧ alerted s 3 = false ∧ 3 ∉ s.pwr.slewed ∧ s.pwr.railForced = [] ∧
      3 ∉ s.pwr.tripped ∧ rd s .DRL_GEAR_THROTTLED 3 ≠ 1 ∧ rd s .DRL_GEAR_DEFERRED 3 ≠ 1) ∧
    (∀ s ∈ [updFab (updPwr poweredS fun p => { p with slewed := [3], holdEnd := [(3, 77)] }) fun f =>
        { f with segments := [⟨0, [0], [], [(5, 3)], []⟩] }],
      storeFind s.pwr.holdEnd 3 = some 77 ∧ alerted s 3 = false ∧ lockedOn (tick s 77) 3 = true ∧ rd s .DRL_GEAR_DEFERRED 3 ≠ 1 ∧
      3 ∈ s.pwr.slewed ∧ lockedOn (tick poweredS 77) 3 = false) ∧
    (poweredS.pwr.throttleAt = none ∧ rd poweredS .PWR_CONFIG_THROTTLE_GEAR < rd poweredS .DRL_GEAR_PLANNED 3) ∧
    (updPwr poweredS fun p => { p with throttleAt := some 5 }).pwr.throttleAt = some 5 := by decide +kernel

/-- A window of n µJ: half in a core's cycles at G7, half in leakage. -/
def activity (n : Nat) : WingActivity := ⟨[⟨120, 7, 500, n * 1000000, 4, 0⟩], [], [], n * 500000000⟩

theorem test_PowerInputsRun_hypotheses :
    (∀ s ∈ [poweredS], 100 * ((rd s .DRL_K 3 * estEnergy s (activity 480) - measEnergy 500 * 65536) + (measEnergy 500 * 65536 - rd s .DRL_K 3 * estEnergy s (activity 480))) ≤
        rd s .PWR_CONFIG_DISAGREE_PCT * measEnergy 500 * 65536 ∧ rd s .DRL_EST_STATE 3 ≠ 2 ∧ 3 ∉ s.pwr.noTelemetry ∧ forcedG0 s 3 = false ∧
      reserveGone s 3 = false ∧ rd s .DRL_RAIL_CAP_AMPS 3 < max 10 541 ∧ isMgmt s .mgmt = true ∧
      (∀ l ∈ s.pwr.levels, ¬ (l.1 = 1 ∧ l.2.1 = 159 / 40)) ∧ (∀ a ∈ s.pwr.alerts, a.src = 100 + 159 / 40 → a.ended ≠ none) ∧
      (∀ l ∈ s.pwr.levels, ¬ (l.1 = 2 ∧ l.2.1 = 11)) ∧ s.pwr.band = 3 ∧ s.boot.failing = false ∧ s.pwr.hotswapOff = none) ∧
    rd (ready [(.DRL_EST_STATE, 3, 2)]) .DRL_EST_STATE 3 = 2 ∧
    ((1000 : Nat) ≤ 1000 ∧ (3300 : Nat) ≤ 3300 ∧ (999 : Nat) < 1000 ∧ (3300 < 3301 ∧ 4095 < 4096) ∧ (7 : Nat) < 8) ∧
    ((1050 : Nat) ≤ 1050 ∧ (849 : Nat) < 850 ∧ (4549 : Nat) < 4550 ∧ (3 : Nat) ≤ 18) := by decide +kernel

theorem test_power_clauses :
    (∀ s ∈ [updPwr poweredS fun p => { p with slewed := [3], holdEnd := [(3, 77)] }],
      storeFind s.pwr.holdEnd 3 = some 77 ∧ alerted s 3 = false ∧ lockedOn (tick s 77) 3 = false ∧ 3 ∈ s.pwr.slewed) ∧
    (∀ s ∈ [poweredS], ∀ m ∈ [480, 900], decide (rd s .PWR_CONFIG_DISAGREE_PCT * measEnergy 500 * 65536 <
        100 * ((rd s .DRL_K 3 * estEnergy s (activity m) - measEnergy 500 * 65536) + (measEnergy 500 * 65536 - rd s .DRL_K 3 * estEnergy s (activity m)))) = decide (m = 900) ∧ rd s .DRL_EST_STATE 3 ≠ 2 ∧
      rd s .DRL_EST_MISSES 3 + 1 < rd s .PWR_CONFIG_DISAGREE_WINDOWS) ∧
    (∀ s ∈ [wr poweredS .DRL_EST_MISSES 3 9], rd s .PWR_CONFIG_DISAGREE_WINDOWS ≤ rd s .DRL_EST_MISSES 3 + 1) ∧
    (rd poweredS .INTEG_LEAD_LEAD_WING ≠ (14 - 3) % 4) := by decide +kernel

/-- A packet from module 0x100 at epoch 5 to module 0x000 at epoch 3, its CRC good. -/
def arrived (type cls seq addr : Nat) (data : List Nat) (src idx : Nat) : Packet :=
  let p : Packet := ⟨type, cls, 0, false, src, 0, 5, 3, 1, true, 0, seq, 0, 0, idx, addr, data, 0⟩
  { p with crc := packetCrc p }
/-- A SYNC or FOLLOW_UP packet from module 0x100. -/
def syncPkt (flow t : Nat) : Packet := ⟨5, 0, 0, false, 0x100, 7, 5, 3, 0, true, 0, 0, 0, flow, 0, t, [], 0⟩

/-- A link whose neighbour, module 0x100, has announced itself. -/
def withPeer : LinkSt := { emptyLink with peer := some ⟨256, true, 1, 1, 0, 0, 0, 3, 5⟩ }

/-- An open work item: context, intake index, opcode, the mark of what ends it, the items it waits for. -/
def openItem (ctx idx opcode stop : Nat) (waits : List (Nat × Nat)) : Item :=
  ⟨ctx, idx, opcode, 0, 0, none, 0, 0, none, 0, 0, 0, none, 0, 0, 0, 0, 0, 0, 0, stop, waits, 0, []⟩

/-! Links and packets -/

theorem test_LinksRun_hypotheses :
    (∀ s ∈ [(mk [(.SPOKE_LINK_STATE_STATE,1,0)] : State)],
      1 < 6 ∧ rd s .SPOKE_LINK_STATE_STATE 1 = 0) ∧
    (∀ s ∈ [(mk [(.SPOKE_LINK_STATE_STATE,5,1)] : State)],
      rd s .SPOKE_LINK_STATE_STATE 5 = 1) ∧
    (∀ s ∈ [(mk [(.SPOKE_LINK_STATE_STATE,0,1)] : State)],
      rd s .SPOKE_LINK_STATE_STATE 0 = 1) ∧
    (∀ s ∈ [(mk [(.SPOKE_LINK_STATE_STATE,2,2)] : State)],
      rd s .SPOKE_LINK_STATE_STATE 2 = 2) ∧
    (∀ s ∈ [(mk [(.SPOKE_LINK_STATE_STATE,2,2)] : State)],
      rd s .SPOKE_LINK_STATE_STATE 2 = 2 ∧ (linkOf s 2).retrains = []) ∧
    (∀ s ∈ [(setLink (mk [(.SPOKE_LINK_STATE_STATE,2,2)]) 2 { emptyLink with retrains := [1,2], replay := [(1,
      ⟨1,2,0,false,5,6,1,1,0,true,0,9,0,0,0,0, [],0⟩)] } : State)],
      rd s .SPOKE_LINK_STATE_STATE 2 = 2 ∧ 2 ≤ ((linkOf s 2).retrains.filter (fun r => decide (7 < r + 1000000000))).length) ∧
    (∀ s ∈ [(mk [(.SPOKE_LINK_STATE_STATE,3,3)] : State)],
      rd s .SPOKE_LINK_STATE_STATE 3 = 3) ∧
    (∀ s ∈ [(mk [(.SPOKE_LINK_STATE_STATE,2,2)] : State)],
      rd s .SPOKE_LINK_STATE_STATE 2 ≠ 4 ∧ isMgmt s .mgmt = true) ∧
    (∀ s ∈ [(mk [(.SPOKE_LINK_STATE_STATE,3,5)] : State)],
      (rd s .SPOKE_LINK_STATE_STATE 3 = 4 ∨ rd s .SPOKE_LINK_STATE_STATE 3 = 5) ∧ isMgmt s .mgmt = true) ∧
    (∀ s ∈ [(mk [(.SPOKE_LINK_STATE_STATE,2,2), (.SPOKE_LINK_STATE_PEER,2,0x100)] : State)],
      rd s .SPOKE_LINK_STATE_STATE 2 ∉ [0,4,6] ∧ rd s .EPOCH_ENTRY_STATE (peerOf s 2) ≠ 1) ∧
    (∀ s ∈ [(setLink (mk [(.SPOKE_LINK_STATE_STATE,0,2), (.SPOKE_LINK_STATE_PEER,0,0x100), (.EPOCH_ENTRY_STATE,0x100,1),
      (.EPOCH_ENTRY_EPOCH,0x100,0xFFFF), (.EPOCH_ENTRY_STATE,0,1), (.SPOKE_FAB_CFG_SIZE_X,0,1)]) 0 withPeer : State)],
      (linkOf s 0).peer ≠ none ∧ rd s .EPOCH_ENTRY_STATE (peerOf s 0) = 1 ∧ declarer s (peerOf s 0) = true ∧ liveNeighbours s (peerOf s 0) = [ownAddr s]) := by
  refine ⟨?_, ?_, ?_, ?_, ?_, ?_, ?_, ?_, ?_, ?_, ?_⟩ <;> decide +kernel

/-- A link lost whose peer is LIVE, with another LIVE neighbour of the peer that has not reported it, and one lost before any
HELLO, which is not reported. -/
theorem test_links_clauses :
    (∀ s ∈ [mk [(.SPOKE_LINK_STATE_STATE, 0, 2)]], ∀ v ∈ [ran (.linkLost 9 0) s],
      (linkOf s 0).peer = none ∧ rd v .SPOKE_LINK_STATE_STATE 0 = 6 ∧ v.fab.reports = [] ∧ v.rep.outs = s.rep.outs) ∧
    (∀ s ∈ [mk [(.SPOKE_LINK_STATE_STATE, 0, 2), (.SPOKE_LINK_STATE_PEER, 0, 0x100), (.EPOCH_ENTRY_STATE, 0x100, 1),
        (.EPOCH_ENTRY_STATE, 0, 1), (.EPOCH_ENTRY_STATE, 0x200, 1), (.SPOKE_FAB_CFG_SIZE_X, 0, 2)]],
      rd s .EPOCH_ENTRY_STATE (peerOf s 0) = 1 ∧ ∃ a ∈ liveNeighbours s (peerOf s 0), a ≠ ownAddr s ∧ (a, peerOf s 0) ∉ s.fab.reports) := by
  decide +kernel

theorem test_SpokePacketsRun_hypotheses :
    (∀ s ∈ [(updMem (mk [(.SPOKE_LINK_STATE_STATE,0,2), (.SPOKE_LINK_STATE_PEER,0,0x100), (.EPOCH_ENTRY_STATE,0x100,1),
      (.EPOCH_ENTRY_EPOCH,0x100,5), (.SPOKE_FAB_ADDR_EPOCH,0,3)]) fun m => { m with granules := [(0xC000000, 1)] } : State)],
      linkUp s 0 = true ∧ (arrived 1 2 0 824633720835 [1,2,3,4,300] 256 0).seq = (linkOf s 0).rxSeq ∧ srcOk s (arrived 1 2 0
      824633720835 [1,2,3,4,300] 256 0) = true ∧ (arrived 1 2 0 824633720835 [1,2,3,4,300] 256 0).dst = ownAddr s ∧ (arrived 1 2
      0 824633720835 [1,2,3,4,300] 256 0).dstEpoch = ownEpoch s ∧ packetCrc (arrived 1 2 0 824633720835 [1,2,3,4,300] 256 0) = (arrived 1 2 0 824633720835 [1,2,3,4,300] 256 0).crc
      ∧ onChip 824633720832 = true ∧ isHbm 824633720832 = false ∧ ownerOk s (arrived 1 2 0 824633720835 [1,2,3,4,300] 256 0)
      824633720832 5 = true) ∧
    (∀ s ∈ [(updMem (mk [(.SPOKE_LINK_STATE_STATE,0,2), (.SPOKE_LINK_STATE_PEER,0,0x100), (.EPOCH_ENTRY_STATE,0x100,1),
      (.EPOCH_ENTRY_EPOCH,0x100,5), (.SPOKE_FAB_ADDR_EPOCH,0,3)]) fun m => { m with granules := [(0xC000000, 1)] } : State)],
      linkUp s 0 = true ∧ (arrived 1 2 0 824633720832 [] 256 0).seq = (linkOf s 0).rxSeq ∧ srcOk s (arrived 1 2 0 824633720832
      [] 256 0) = true ∧ (arrived 1 2 0 824633720832 [] 256 0).dst = ownAddr s ∧ (arrived 1 2 0 824633720832 [] 256 0).dstEpoch
      = ownEpoch s ∧ packetCrc (arrived 1 2 0 824633720832 [] 256 0) = (arrived 1 2 0 824633720832 [] 256 0).crc) ∧
    (∀ s ∈ [(writeLe (updMem (mk [(.SPOKE_LINK_STATE_STATE,0,2), (.SPOKE_LINK_STATE_PEER,0,0x100), (.EPOCH_ENTRY_STATE,0x100,1),
      (.EPOCH_ENTRY_EPOCH,0x100,5), (.SPOKE_FAB_ADDR_EPOCH,0,3)]) fun m => { m with granules := [(0xC000000, 1)] }) 824633720836
      4 7 : State)],
      linkUp s 0 = true ∧ ((arrived 2 2 0 824633720837 ((List.range 128).map (fun i => if i % 4 = 0 then i + 1 else 0)) 256
      0)).seq = (linkOf s 0).rxSeq ∧ srcOk s (arrived 2 2 0 824633720837 ((List.range 128).map (fun i => if i % 4 = 0 then i + 1
      else 0)) 256 0) = true ∧ ((arrived 2 2 0 824633720837 ((List.range 128).map (fun i => if i % 4 = 0 then i + 1 else 0)) 256
      0)).dst = ownAddr s ∧ ((arrived 2 2 0 824633720837 ((List.range 128).map (fun i => if i % 4 = 0 then i + 1 else 0)) 256
      0)).dstEpoch = ownEpoch s ∧ packetCrc ((arrived 2 2 0 824633720837 ((List.range 128).map (fun i => if i % 4 = 0 then i + 1 else 0))
      256 0)) = ((arrived 2 2 0 824633720837 ((List.range 128).map (fun i => if i % 4 = 0 then i + 1 else 0))
      256 0)).crc ∧ 824633720832 < lsBase ∧ ownerOk s (arrived 2 2 0 824633720837 ((List.range 128).map (fun i => if i
      % 4 = 0 then i + 1 else 0)) 256 0) 824633720832 128 = true ∧ s.mem.redLines = []) ∧
    (∀ s ∈ [(mk [(.SPOKE_LINK_STATE_STATE,0,2), (.SPOKE_LINK_STATE_PEER,0,0x100), (.EPOCH_ENTRY_STATE,0x100,1),
      (.EPOCH_ENTRY_EPOCH,0x100,5), (.SPOKE_FAB_ADDR_EPOCH,0,3)] : State)],
      linkUp s 0 = true ∧ (arrived 9 0 0 458757 [] 256 0).seq = (linkOf s 0).rxSeq ∧ srcOk s (arrived 9 0 0 458757 [] 256 0) =
      true ∧ (arrived 9 0 0 458757 [] 256 0).dst = ownAddr s ∧ (arrived 9 0 0 458757 [] 256 0).dstEpoch = ownEpoch s ∧ packetCrc (arrived
      9 0 0 458757 [] 256 0) = (arrived
      9 0 0 458757 [] 256 0).crc ∧ s.fab.waiting = []) ∧
    (∀ s ∈ [(updFab (mk [(.SPOKE_LINK_STATE_STATE,0,2), (.SPOKE_LINK_STATE_PEER,0,0x100), (.EPOCH_ENTRY_STATE,0x100,1),
      (.EPOCH_ENTRY_EPOCH,0x100,5), (.SPOKE_FAB_ADDR_EPOCH,0,3)]) fun f =>
      { f with segments := [⟨500, [0,0x100], [(1,2)], [], []⟩] } : State)],
      linkUp s 0 = true ∧ (arrived 11 0 0 0 [] 256 0).seq = (linkOf s 0).rxSeq ∧ srcOk s (arrived 11 0 0 0 [] 256 0) = true ∧
      (arrived 11 0 0 0 [] 256 0).dst = ownAddr s ∧ (arrived 11 0 0 0 [] 256 0).dstEpoch = ownEpoch s ∧ packetCrc (arrived 11 0 0 0 [] 256
      0) = (arrived 11 0 0 0 [] 256
      0).crc ∧ s.fab.segments.find? (fun g => g.start == 500 && decide (0x100 ∈ g.members)) = s.fab.segments.head? ∧
      coordinator ⟨500, [0,0x100], [], [], []⟩ = ownAddr s) ∧
    (∀ s ∈ [(updFab (mk [(.SPOKE_LINK_STATE_STATE,0,2), (.SPOKE_LINK_STATE_PEER,0,0x100), (.EPOCH_ENTRY_STATE,0x100,1),
      (.EPOCH_ENTRY_EPOCH,0x100,5), (.SPOKE_FAB_ADDR_EPOCH,0,3)]) fun f =>
      { f with segments := [⟨500, [0x200,0x100], [(1,2)], [], []⟩] } : State)],
      linkUp s 0 = true ∧ (arrived 11 0 0 0 [] 256 0).seq = (linkOf s 0).rxSeq ∧ srcOk s (arrived 11 0 0 0 [] 256 0) = true ∧
      (arrived 11 0 0 0 [] 256 0).dst = ownAddr s ∧ (arrived 11 0 0 0 [] 256 0).dstEpoch = ownEpoch s ∧ packetCrc (arrived 11 0 0 0 [] 256
      0) = (arrived 11 0 0 0 [] 256
      0).crc ∧ coordinator ⟨500, [0x200,0x100], [], [], []⟩ = 0x100) ∧
    (∀ s ∈ [(updMem (mk [(.SPOKE_LINK_STATE_STATE,0,2), (.SPOKE_LINK_STATE_PEER,0,0x100), (.EPOCH_ENTRY_STATE,0x100,1),
      (.EPOCH_ENTRY_EPOCH,0x100,5), (.SPOKE_FAB_ADDR_EPOCH,0,3)]) fun m => { m with granules := [(0xC000000, 1)] } : State)],
      rd s .SPOKE_LINK_STATE_STATE 0 = 2) ∧
    (∀ s ∈ [(setLink (mk [(.SPOKE_LINK_STATE_STATE,0,2), (.SPOKE_LINK_STATE_PEER,0,0x100), (.EPOCH_ENTRY_STATE,0x100,1),
      (.EPOCH_ENTRY_EPOCH,0x100,5), (.SPOKE_FAB_ADDR_EPOCH,0,3)]) 0
      { emptyLink with replay := [(1,(arrived 1 2 65535 0 [] 256 0)), (2,(arrived 1 2 0 0 [] 256 0)),
      (1,(arrived 1 2 1 0 [] 256 0))] } : State)],
      rd s .SPOKE_LINK_STATE_STATE 0 = 2) ∧
    (∀ s ∈ [(setLink (mk [(.SPOKE_LINK_STATE_STATE,0,2), (.SPOKE_LINK_STATE_PEER,0,0x100), (.EPOCH_ENTRY_STATE,0x100,1),
      (.EPOCH_ENTRY_EPOCH,0x100,5), (.SPOKE_FAB_ADDR_EPOCH,0,3)]) 0
      { emptyLink with replay := [(1,(arrived 1 2 65535 0 [] 256 0)), (2,(arrived 1 2 0 0 [] 256 0)),
      (1,(arrived 1 2 1 0 [] 256 0))] } : State)],
      rd s .SPOKE_LINK_STATE_STATE 0 = 2 ∧ (∀ e ∈ (linkOf s 0).replay, e.2.seq = 0 → e.1 < 3)) ∧
    (∀ s ∈ [(mk [(.BOOT_STATUS_PHASE,0,8), (.SPOKE_TT_CTRL_FLIP_REQ,0,1)] : State)],
      mayWrite s (.core 0) .SPOKE_TT_LOAD_SRC 0 = true ∧ rd s .SPOKE_TT_CTRL_FLIP_REQ = 1) ∧
    (∀ s ∈ [(writeLe (mk [(.BOOT_STATUS_PHASE,0,8), (.SPOKE_LINK_STATE_STATE,0,2), (.SPOKE_TT_LOAD_TABLE,0,6)]) 0 4 0x4B505452 :
      State)],
      mayWrite s (.core 0) .SPOKE_TT_LOAD_SRC 0 = true ∧ rd s .SPOKE_TT_CTRL_FLIP_REQ ≠ 1 ∧ rd s .SPOKE_TT_LOAD_TABLE = 6 ∧
      routeImageOk s (readBytes s 0 4160) = true) ∧
    (∀ s ∈ [(mk [(.BOOT_STATUS_PHASE,0,8), (.SPOKE_TT_LOAD_TABLE,0,6)] : State)],
      routeImageOk s (readBytes s 0 4160) = false) ∧
    (∀ s ∈ [(mk [(.SPOKE_TT_CTRL_FLIP_REQ,0,1), (.SPOKE_TT_CTRL_LOADED,0,127), (.SPOKE_TT_FLIP_AT,0,200000),
      (.SPOKE_FAB_CFG_FLIP_PERIOD,0,2)] : State)],
      rd s .SPOKE_TT_FLIP_AT % (rd s .SPOKE_FAB_CFG_FLIP_PERIOD * 100000) = 0 ∧ rd s .SPOKE_TT_CTRL_LOADED = 127 ∧ rd s
      .SPOKE_TT_FLIP_AT ≤ max s.now 200001) ∧
    (∀ s ∈ [(mk [(.SPOKE_TT_CTRL_FLIP_REQ,0,1), (.SPOKE_TT_CTRL_LOADED,0,127), (.SPOKE_TT_FLIP_AT,0,200001),
      (.SPOKE_FAB_CFG_FLIP_PERIOD,0,2)] : State)],
      rd s .SPOKE_TT_FLIP_AT % (rd s .SPOKE_FAB_CFG_FLIP_PERIOD * 100000) ≠ 0) := by
  refine ⟨?_, ?_, ?_, ?_, ?_, ?_, ?_, ?_, ?_, ?_, ?_, ?_, ?_, ?_⟩ <;> decide +kernel

/-- A link up to module 0x100 of epoch 5, this module being 0 of epoch 3. -/
def upS (l : List (Fld × Nat × Nat) := []) : State :=
  mk ([(.SPOKE_LINK_STATE_STATE, 0, 2), (.SPOKE_LINK_STATE_PEER, 0, 0x100), (.EPOCH_ENTRY_STATE, 0x100, 1), (.EPOCH_ENTRY_EPOCH, 0x100, 5),
    (.SPOKE_FAB_ADDR_EPOCH, 0, 3)] ++ l)

/-- A packet that has no data, of class BUFFERED and of context 0, its CRC good. -/
def buffered : Packet :=
  let p := { arrived 1 3 0 0 [] 256 0 with ctx := 0 }
  { p with crc := packetCrc p }

/-- It wakes a module in STOW (R440), and a packet whose CRC is wrong does not arrive. -/
theorem test_buffered_packet_wakes :
    (∀ s ∈ [upS [(.LP_STATUS_STATE, 0, 3)]], ∀ v ∈ [ran (.spokeData 9 0 buffered false [] 0) s],
      packetCrc buffered = buffered.crc ∧ srcOk s buffered = true ∧ rd v .LP_STATUS_STATE = 6 ∧ v.boot.lpReason = 6) ∧
    (∀ s ∈ [upS [(.LP_STATUS_STATE, 0, 3)]], ∀ v ∈ [ran (.spokeData 9 0 { buffered with crc := buffered.crc + 1 } false [] 0) s],
      rd v .LP_STATUS_STATE = 3) := by decide +kernel

/-- The check values that are published for CRC-64/XZ, CRC-32C and SHA-256. -/
theorem test_check_values :
    crc64 [0x31, 0x32, 0x33, 0x34, 0x35, 0x36, 0x37, 0x38, 0x39] = 0x995DC9BBDF1939FA ∧
    crc32c [0x31, 0x32, 0x33, 0x34, 0x35, 0x36, 0x37, 0x38, 0x39] = 0xE3069283 ∧
    leNum (sha256 [0x61, 0x62, 0x63]).reverse = 0xBA7816BF8F01CFEA414140DE5DAE2223B00361A396177A9CB410FF61F20015AD := by decide +kernel

theorem test_spoke_clauses :
    (ownerOk (upS) (arrived 1 2 0 0xC000000000 [1] 256 0) 0xC000000000 1 = false ∧ linkUp (upS) 0 = true) ∧
    (∀ m ∈ [[0, 0x100, 0x200], [0, 0x100]], ∀ g ∈ [(⟨500, m, [(1, 2)], [], [(0, 5, 0, false)]⟩ : Segment)],
      ∀ s ∈ [updFab (upS) fun f => { f with segments := [g] }],
      s.fab.segments.find? (fun g => g.start == 500 && decide (0x100 ∈ g.members)) = some g ∧ coordinator g = ownAddr s ∧
      (∀ a ∈ g.arrived, a.1 ≠ 0x100 ∧ a.2.2.2 = false) ∧
      decide (∃ x ∈ g.members, x ≠ 0x100 ∧ ∀ a ∈ g.arrived, a.1 ≠ x) = decide (m.length = 3)) ∧
    (∀ s ∈ [updFab (upS) fun f => { f with waiting := [(0, arrived 1 2 0 0 [1] 0 0)] }], ∃ e ∈ s.fab.waiting, e.1 = 0) ∧
    (∀ s ∈ [setLink (upS) 0 { emptyLink with replay := [(3, arrived 1 2 7 0 [] 256 0)] }],
      ∃ e ∈ (linkOf s 0).replay, e.2.seq = 7 ∧ 3 ≤ e.1) ∧
    (6 < rd (upS [(.SPOKE_TT_LOAD_TABLE, 0, 7)]) .SPOKE_TT_LOAD_TABLE ∧
      (∀ s ∈ [updMem (upS [(.SPOKE_TT_LOAD_TABLE, 0, 5), (.BOOT_STATUS_PHASE, 0, 8)]) fun m => { m with
          bytes := [(0, 0x54), (1, 0x53), (2, 0x50), (3, 0x4B), (4, 25)] }],
        mayWrite s (.core 0) .SPOKE_TT_LOAD_SRC 0 = true ∧ rd s .SPOKE_TT_CTRL_FLIP_REQ ≠ 1 ∧ rd s .SPOKE_TT_LOAD_TABLE = 5 ∧
        slotImageOk s 5 (readBytes s 0 (0x40 + 4 * imgNum (readBytes s 0 0x40) 4 2 + 8 * min 8000 (imgNum (readBytes s 0 0x40) 8 4))) =
          true ∧ slotImageOk s 5 [] = false) ∧
      (∀ s ∈ [upS [(.SPOKE_TT_CTRL_FLIP_REQ, 0, 1), (.SPOKE_TT_CTRL_LOADED, 0, 63)]], rd s .SPOKE_TT_CTRL_LOADED ≠ 127)) := by
  refine ⟨?_, ?_, ?_, ?_, ?_⟩ <;> decide +kernel

/-! Fabric -/

theorem test_FabricRuns_hypotheses :
    (∀ s ∈ [(mk [(.SPOKE_LINK_STATE_STATE,2,2), (.SPOKE_FAB_ADDR_ADDR,0,7), (.SPOKE_LINK_DELAY,2,40)] : State)],
      rd s .SPOKE_LINK_STATE_STATE 2 = 2 ∧ (3+256*0x100) / 256 % 4096 ≠ ownAddr s ∧ (∀ m ∈ List.range 6, m ≠ 2 → rd s
      .SPOKE_LINK_STATE_STATE m ≠ 2)) ∧
    (∀ s ∈ [(mk [(.SPOKE_LINK_STATE_STATE,2,2), (.SPOKE_FAB_ADDR_ADDR,0,7), (.SPOKE_LINK_DELAY,2,40)] : State)],
      10000 / slotNs % 250 = 0) ∧
    (∀ s ∈ [(updFab (mk [(.SPOKE_CAD_UPSTREAM_LINK,0,2), (.SPOKE_LINK_STATE_STATE,2,2)]) fun f =>
      { f with links := [(2, {emptyLink with syncAt := some 100})] } : State)],
      rd s .SPOKE_CAD_UPSTREAM_LINK < 6 ∧ (∀ m ∈ List.range 6, rd s .SPOKE_LINK_STATE_STATE m ≠ 2 ∨ ((linkOf s m).syncAt.all
      (fun a => decide (a + 100000 ≤ max s.now 100100))) = true)) ∧
    (∀ s ∈ [(updFab (mk [(.SPOKE_FAB_STATUS_CAD_STATE,0,3)]) fun f => {f with holdSince := some 5} : State)],
      s.fab.holdSince = some 5 ∧ 5 + 20000000 ≤ max s.now 20000005 ∧ rd s .SPOKE_FAB_STATUS_CAD_STATE = 3) ∧
    (∀ s ∈ [(mk [(.SPOKE_LINK_STATE_STATE,0,2), (.SPOKE_FAB_CFG_SIZE_X,0,1)] : State)],
      rd s .SPOKE_LINK_STATE_STATE 0 = 2 ∧ 2 ≠ opposite 0) ∧
    (∀ s ∈ [(mk [(.SPOKE_LINK_STATE_STATE,0,2), (.SPOKE_FAB_CFG_SIZE_X,0,1), (.SPOKE_FAB_ADDR_ADDR,0,0x200)] : State)],
      1 = opposite 0 ∧ 1 = rd s .SPOKE_FAB_CFG_SIZE_X ∧ 0 = rd s .SPOKE_FAB_CFG_SIZE_Y ∧ 0 = rd s .SPOKE_FAB_CFG_SIZE_Z ∧ 0 = rd
      s .SPOKE_FAB_CFG_WRAP ∧ helloLive s (⟨256,true,1,1,0,0,0,3,5⟩ : HelloBody) = true ∧ implied s 0 (⟨256,true,1,1,0,0,0,3,5⟩
      : HelloBody) = some 0 ∧ (rd s .SPOKE_FAB_ADDR_ASSIGNED ≠ 1 ∨ 0 = ownAddr s) ∧ (s.fab.addrWritten = false ∨ 0 = ownAddr s))
      ∧
    (∀ s ∈ [(mk [(.SPOKE_LINK_STATE_STATE,0,2), (.SPOKE_FAB_CFG_SIZE_X,0,1)] : State)],
      rd s .EPOCH_ENTRY_STATE 0x100 ≠ 1) ∧
    (∀ s ∈ [(mk [(.SPOKE_LINK_STATE_STATE,0,2), (.SPOKE_FAB_CFG_SIZE_X,0,1), (.EPOCH_ENTRY_STATE,0x100,1)] : State)],
      rd s .EPOCH_ENTRY_STATE 0x100 = 1) ∧
    (∀ s ∈ [(mk [(.SPOKE_LINK_STATE_STATE,0,2), (.SPOKE_FAB_CFG_SIZE_X,0,1), (.SPOKE_FAB_ADDR_ASSIGNED,0,1),
      (.SPOKE_FAB_STATUS_STATE,0,1)] : State)],
      0 = ownAddr s ∧ wantsJoin s = true ∧ ((cadOffset s).natAbs ≤ 1000 ∨ steppable s = true)) ∧
    (∀ s ∈ [(mk [(.SPOKE_LINK_STATE_STATE,0,2), (.SPOKE_FAB_CFG_SIZE_X,0,1), (.SPOKE_FAB_ADDR_ASSIGNED,0,1),
      (.SPOKE_FAB_STATUS_STATE,0,1)] : State)],
      wantsJoin s = true) ∧
    (∀ s ∈ [(updFab (mk [(.SPOKE_LINK_STATE_STATE,0,2), (.SPOKE_FAB_CFG_SIZE_X,0,1), (.SPOKE_FAB_ADDR_ASSIGNED,0,1),
      (.SPOKE_FAB_STATUS_STATE,0,1)]) fun f =>
      {f with joinRetry := some 5, links := [(0, {emptyLink with peer := some (⟨256,true,1,1,0,0,0,3,5⟩ : HelloBody)})]} :
      State)],
      s.fab.joinRetry = some 5 ∧ 5 ≤ max s.now 9 ∧ wantsJoin s = true ∧ liveLinks s = [(0,(⟨256,true,1,1,0,0,0,3,5⟩ :
      HelloBody))]) ∧
    (∀ s ∈ [(updFab (mk []) fun f => {f with grantAt := some 5} : State)],
      s.fab.grantAt = some 5 ∧ 5 + 1000000 ≤ max s.now 1000005) ∧
    (∀ s ∈ [(mk [(.SPOKE_LINK_STATE_STATE,0,2), (.SPOKE_FAB_CFG_SIZE_X,0,1), (.EPOCH_ENTRY_STATE,0x300,1),
      (.EPOCH_ENTRY_EPOCH,0x300,4)] : State)],
      serialAhead 5 (rd s .EPOCH_ENTRY_EPOCH 0x300) = true ∧ (0x300 ≠ ownAddr s ∨ 1 = 1)) ∧
    (∀ s ∈ [(mk [(.SPOKE_LINK_STATE_STATE,0,2), (.SPOKE_FAB_CFG_SIZE_X,0,1), (.EPOCH_ENTRY_STATE,0x300,1),
      (.EPOCH_ENTRY_EPOCH,0x300,4)] : State)],
      serialAhead 5 (rd s .EPOCH_ENTRY_EPOCH 0x300) = true ∧ (0x300 ≠ ownAddr s ∨ 2 = 1)) ∧
    (∀ s ∈ [(mk [(.SPOKE_LINK_STATE_STATE,0,2), (.SPOKE_FAB_CFG_SIZE_X,0,1), (.EPOCH_ENTRY_STATE,0x300,1),
      (.EPOCH_ENTRY_EPOCH,0x300,4)] : State)],
      serialAhead 5 (rd s .EPOCH_ENTRY_EPOCH 0x300) = true ∧ (0x300 ≠ ownAddr s ∨ 3 = 1)) ∧
    (∀ s ∈ [(mk [(.SPOKE_LINK_STATE_STATE,0,2), (.SPOKE_FAB_CFG_SIZE_X,0,1), (.EPOCH_ENTRY_EPOCH,0x300,4)] : State)],
      serialAhead 3 (rd s .EPOCH_ENTRY_EPOCH 0x300) = false ∧ 3 ≠ rd s .EPOCH_ENTRY_EPOCH 0x300) ∧
    (∀ s ∈ [(updFab (mk [(.SPOKE_LINK_STATE_STATE,0,6), (.SPOKE_FAB_STATUS_STATE,0,2), (.EPOCH_ENTRY_STATE,0x300,1),
      (.EPOCH_ENTRY_EPOCH,0x300,4)]) fun f => {f with allLostAt := some 5} : State)],
      s.fab.allLostAt = some 5 ∧ allLost s = true ∧ rd s .SPOKE_FAB_STATUS_STATE ∈ [2,3,4] ∧ 5 + 200000 ≤ max s.now 200005) ∧
    (∀ s ∈ [(mk [(.SPOKE_LINK_STATE_STATE,0,2), (.SPOKE_FAB_CFG_SIZE_X,0,1)] : State)],
      rd s .EPOCH_ENTRY_STATE 0x300 ≠ 1) ∧
    (∀ s ∈ [(updFab (mk [(.SPOKE_LINK_STATE_STATE,0,6), (.SPOKE_LINK_STATE_PEER,0,0x100), (.EPOCH_ENTRY_STATE,0x100,1),
      (.EPOCH_ENTRY_STATE,0,1), (.SPOKE_FAB_CFG_SIZE_X,0,1)]) fun f =>
      {f with links := [(0, {emptyLink with lostAt := some 5})]} : State)],
      rd s .SPOKE_LINK_STATE_STATE 0 = 6 ∧ (linkOf s 0).lostAt = some 5 ∧ 5 + 100000 ≤ max s.now 100005) ∧
    (∀ s ∈ [(updFab (mk [(.SPOKE_LINK_STATE_STATE,0,6), (.SPOKE_LINK_STATE_PEER,0,0x100), (.EPOCH_ENTRY_STATE,0x100,1),
      (.EPOCH_ENTRY_STATE,0,1), (.SPOKE_FAB_CFG_SIZE_X,0,1)]) fun f =>
      {f with links := [(0, {emptyLink with lostAt := some 5})]} : State)],
      declarer s (peerOf s 0) = true ∧ rd s .EPOCH_ENTRY_STATE (peerOf s 0) = 1) ∧
    (∀ s ∈ [(mk [(.SPOKE_FAB_CFG_SIZE_X,0,1)] : State)],
      rd s .SPOKE_FAB_ADDR_ASSIGNED ≠ 1 ∧ inFabric s 0x100 = true ∧ liveLinks s = [] ∧ isMgmt s .mgmt = true) ∧
    (∀ s ∈ [(mk [(.SPOKE_FAB_ADDR_ASSIGNED,0,1)] : State)],
      rd s .SPOKE_FAB_ADDR_ASSIGNED = 1) ∧
    (∀ s ∈ [(mk [(.SPOKE_FAB_STATUS_STATE,0,2), (.EPOCH_ENTRY_STATE,0x100,1)] : State)],
      rd s .SPOKE_FAB_STATUS_STATE = 2 ∧ 0x100 ≠ ownAddr s ∧ rd s .EPOCH_ENTRY_STATE 0x100 = 1) ∧
    (∀ s ∈ [(mk [] : State)],
      rd s .SPOKE_FAB_STATUS_STATE ≠ 2) ∧
    (∀ s ∈ [(mk [(.SPOKE_FAB_STATUS_STATE,0,4)] : State)],
      (rd s .SPOKE_FAB_STATUS_STATE = 3 ∨ rd s .SPOKE_FAB_STATUS_STATE = 4)) ∧
    (∀ s ∈ [(mk [(.SPOKE_FAB_STATUS_STATE,0,4), (.SPOKE_FAB_ADDR_ADDR,0,0x100), (.EPOCH_ENTRY_EPOCH,0x100,9)] : State)],
      rd s .SPOKE_FAB_STATUS_STATE = 4) ∧
    (∀ s ∈ [(mk [(.SPOKE_FAB_STATUS_STATE,0,3)] : State)],
      rd s .SPOKE_FAB_STATUS_STATE = 3 ∧ s.lard.roots = [] ∧ s.fab.segments = []) := by
  refine ⟨?_, ?_, ?_, ?_, ?_, ?_, ?_, ?_, ?_, ?_, ?_, ?_, ?_, ?_, ?_, ?_, ?_, ?_, ?_, ?_, ?_, ?_, ?_, ?_, ?_, ?_, ?_⟩ <;> decide
      +kernel

theorem test_fabric_clauses :
    (∀ s ∈ [updFab (mk [(.SPOKE_CAD_UPSTREAM_LINK, 0, 2), (.SPOKE_LINK_STATE_STATE, 2, 6), (.SPOKE_LINK_STATE_STATE, 3, 2),
        (.SPOKE_FAB_ADDR_ADDR, 0, 7)]) fun f => { f with links := [(3, { emptyLink with syncAt := some 100, syncHops := 1, syncGm := 0x100 })] }],
      rd s .SPOKE_CAD_UPSTREAM_LINK = 2 ∧ rd s .SPOKE_LINK_STATE_STATE 2 ≠ 2 ∧ bestUpstream (tick s 200) = some 3) ∧
    (40 / slotNs % 250 ≠ 0 ∧ helloLive (upS) ⟨256, false, 1, 1, 0, 0, 0, 3, 5⟩ = false) ∧
    (∀ s ∈ [upS [(.SPOKE_FAB_ADDR_ASSIGNED, 0, 1), (.SPOKE_FAB_ADDR_ADDR, 0, 0x300)]],
      helloLive s ⟨256, true, 1, 1, 0, 0, 0, 3, 5⟩ = true ∧ rd s .SPOKE_FAB_ADDR_ASSIGNED = 1 ∧
      ∀ a, implied s 0 ⟨256, true, 1, 1, 0, 0, 0, 3, 5⟩ = some a → a ≠ ownAddr s) ∧
    (∀ s ∈ [upS [(.SPOKE_FAB_ADDR_ASSIGNED, 0, 1), (.SPOKE_FAB_STATUS_STATE, 0, 1)]],
      wantsJoin s = true ∧ (0 : Nat) = ownAddr s ∧ wantsJoin (upS) = false) ∧
    (∀ s ∈ [updServe (updFab (upS [(.SPOKE_FAB_ADDR_ASSIGNED, 0, 1), (.SPOKE_FAB_STATUS_STATE, 0, 1), (.SPOKE_CAD_OFFSET, 0, 4000)]) fun f =>
        { f with segments := [⟨0, [0], [], [], []⟩] }) fun v => { v with items := [openItem 1 2 1 0 []] }],
      wantsJoin s = true ∧ 1000 < (cadOffset s).natAbs ∧ steppable s = false) ∧
    (∀ s ∈ [upS [(.EPOCH_ENTRY_EPOCH, 0, 4), (.SPOKE_FAB_ADDR_ASSIGNED, 0, 1)]], serialAhead 5 (rd s .EPOCH_ENTRY_EPOCH (ownAddr s)) = true ∧
      rd s .SPOKE_FAB_ADDR_ASSIGNED = 1) ∧
    (rd (upS) .EPOCH_ENTRY_EPOCH 0x100 = 5 ∧ rd (upS) .EPOCH_ENTRY_STATE 0x100 = 1) ∧
    (∀ s ∈ [setLink (mk [(.SPOKE_LINK_STATE_STATE, 0, 6), (.SPOKE_LINK_STATE_PEER, 0, 0x100), (.EPOCH_ENTRY_STATE, 0x100, 3)]) 0
        { withPeer with lostAt := some 5 }], ∀ v ∈ [ran (.declareTimeout 100005 0 false) s],
      rd s .EPOCH_ENTRY_STATE (peerOf s 0) ≠ 1 ∧ rd v .SPOKE_LINK_STATE_STATE 0 = 0 ∧ rd v .EPOCH_ENTRY_STATE 0x100 = 3) ∧
    (∀ s ∈ [mk [(.SPOKE_LINK_STATE_STATE, 0, 6), (.SPOKE_LINK_STATE_STATE, 1, 2), (.SPOKE_LINK_STATE_PEER, 0, 0x100),
        (.EPOCH_ENTRY_STATE, 0x100, 1), (.EPOCH_ENTRY_STATE, 0, 1), (.SPOKE_FAB_CFG_SIZE_X, 0, 1)]],
      (rd s .SPOKE_LINK_STATE_STATE 1 = 2 ∧ rd s .SPOKE_LINK_STATE_STATE 0 = 6 ∧ peerOf s 0 = 0x100) ∧ declarer s 0x100 = true ∧
      rd s .EPOCH_ENTRY_STATE 0x100 = 1 ∧ (∀ a ∈ liveNeighbours s 0x100, a = 0) ∧ declarer s 0x200 = false) ∧
    (∀ s ∈ [updFab (upS [(.SPOKE_FAB_CFG_SIZE_X, 0, 1)]) fun f => { f with links := [(0, withPeer)] }],
      rd s .SPOKE_FAB_ADDR_ASSIGNED ≠ 1 ∧ inFabric s 0 = true ∧ (liveLinks s).map (·.1) = [0] ∧
      (∃ e ∈ liveLinks s, implied s e.1 e.2 = some 0) ∧ ∃ e ∈ liveLinks s, implied s e.1 e.2 ≠ some 0x100) ∧
    (inFabric (upS) 0xFFF = false ∧ rd (upS) .SPOKE_FAB_STATUS_STATE ≠ 2) := by
  refine ⟨?_, ?_, ?_, ?_, ?_, ?_, ?_, ?_, ?_, ?_, ?_⟩ <;> decide +kernel

/-! The host interface -/

theorem test_HostInterfaceRuns_hypotheses :
    (∀ s ∈ [(updServe (mk [(.PCIE_LINK_UP,0,1)]) fun v => { v with items := [openItem 1 2 1 0 [],openItem 0 3 4 0 []] } : State)],
      rd s .PCIE_LINK_UP = 1) ∧
    (∀ s ∈ [(mk [(.BOOT_STATUS_PHASE,0,3)] : State)],
      rd s .PCIE_LINK_UP ≠ 1 ∧ rd s .EVC_INPUTS_PERST ≠ 1 ∧ rd s .BOOT_STATUS_RECOVERY ≠ 1 ∧ 3 ≤ rd s .BOOT_STATUS_PHASE ∧ rd s
      .LP_STATUS_STATE ≠ 4) ∧
    (∀ s ∈ [(mk [(.PCIE_LINK_UP,0,1)] : State)],
      rd s .PCIE_LINK_UP = 1) ∧
    (∀ s ∈ [(updServe (mk []) fun v => { v with items := [openItem 1 2 1 0 []] } : State)],
      (itemAt s 1 2).isSome = true ∧ (∀ x ∈ s.serve.items, (1,2) ∉ x.waits ∧ (x.waits = [] → x.stop ≠ 9))) ∧
    (∀ s ∈ [(mk [] : State)],
      (queueOf s 5).ringFails < 2) ∧
    (∀ s ∈ [(mk [(.CTX_STATE_STATE,63,1), (.SERVE_CTRL_ENABLE,63,1)] : State)],
      (rd s .CTX_STATE_STATE 63 = 1 ∨ rd s .CTX_STATE_STATE 63 = 2)) ∧
    (∀ s ∈ [(mk [(.CTX_STATE_STATE,1,2), (.SERVE_CTRL_ENABLE,1,1)] : State)],
      (rd s .CTX_STATE_STATE 1 = 1 ∨ rd s .CTX_STATE_STATE 1 = 2)) ∧
    (∀ s ∈ [(writeByte (writeByte (mk [(.BOOT_STATUS_PHASE,0,8)]) 0xC000000000 9) 5 7 : State)],
      s.boot.warm = none ∧ rd s .LP_STATUS_STATE < 2) ∧
    (∀ s ∈ [(mk [(.LP_STATUS_STATE,0,4)] : State)],
      rd s .EVC_INPUTS_PERST ≠ 1 ∧ rd s .LP_STATUS_STATE = 4) ∧
    (∀ s ∈ [(updServe (mk [(.PCIE_LINK_UP,0,1), (.CTX_STATE_STATE,5,1)]) fun v => { v with items := [openItem 0 3 4 0 []] } :
      State)],
      rd s .EVC_INPUTS_PERST ≠ 1 ∧ rd s .LP_STATUS_STATE ≠ 4 ∧ s.boot.failing = false) ∧
    (∀ s ∈ [(mk [(.EVC_INPUTS_PERST,0,1)] : State)],
      rd s .EVC_INPUTS_PERST = 1 ∧ rd s .LP_STATUS_STATE ≠ 4) ∧
    (∀ s ∈ [(mk [(.EVC_INPUTS_PERST,0,1), (.LP_STATUS_STATE,0,4)] : State)],
      rd s .EVC_INPUTS_PERST = 1 ∧ rd s .LP_STATUS_STATE = 4) ∧
    (∀ s ∈ [(mk [] : State)],
      63 ∉ s.ctxs.noMemory) ∧
    (∀ s ∈ [(updCtxs (mk []) fun x => {x with latched := [(63,77)]} : State)],
      storeFind s.ctxs.latched 63 = some 77) ∧
    (∀ s ∈ [(updCtxs (mk [(.BOOT_STATUS_PHASE,0,8), (.CTX_STATE_STATE,63,1)]) fun x => {x with mbox := [(63*1024+0x100,5),
      (63*1024+0x3FF,6)]} : State)],
      mayWrite s .mgmt .MBX_CTRL_OVERRUN (mbxSide 63 true) = true ∧ rd s .MBX_CTRL_OUT_BUSY (mbxSide 63 true) ≠ 1) ∧
    (∀ s ∈ [(updCtxs (mk [(.BOOT_STATUS_PHASE,0,8), (.CTX_STATE_STATE,63,1)]) fun x => {x with mbox := [(63*1024+0x100,5),
      (63*1024+0x3FF,6)]} : State)],
      mayWrite s (.driver 63) .MBX_CTRL_OVERRUN (mbxSide 63 false) = true ∧ rd s .MBX_CTRL_OUT_BUSY (mbxSide 63 false) ≠ 1) ∧
    (∀ s ∈ [(updCtxs (mk [(.BOOT_STATUS_PHASE,0,8), (.CTX_STATE_STATE,63,1), (.MBX_CTRL_OUT_BUSY,127,1)]) fun x =>
      {x with mbox := [(63*1024+0x100,5), (63*1024+0x3FF,6)]} : State)],
      rd s .MBX_CTRL_OUT_BUSY (mbxSide 63 true) = 1) ∧
    (∀ s ∈ [(updCtxs (mk [(.BOOT_STATUS_PHASE,0,8), (.CTX_STATE_STATE,63,1), (.MBX_CTRL_IN_FULL,126,1),
      (.MBX_CTRL_OUT_BUSY,127,1)]) fun x => {x with mbox := [(63*1024+0x100,5), (63*1024+0x3FF,6)]} : State)],
      mayWrite s (.driver 63) .MBX_CTRL_OVERRUN (mbxSide 63 false) = true) ∧
    (∀ s ∈ [(updRep (mk [(.EVC_MOD,3,2)]) fun r => {r with pfTargets := [(3, ⟨some 5,1,0, [.module]⟩)]} : State)],
      (pfTarget s 3).waiting = [.module] ∧ (pfTarget s 3).lastSent.all (fun l => decide (l + rd s .EVC_MOD 3 * 1000 ≤ max s.now
      2005)) = true) ∧
    (∀ s ∈ [(mk [] : State)],
      31 < msixEntries 0) ∧
    (∀ s ∈ [(mk [] : State)],
      1 < msixEntries 63) ∧
    (∀ s ∈ [(updRep (mk []) fun r => {r with msixPending := [(msixKey 0 31, true)]} : State)],
      s.rep.pendingSrc = [] ∧ storeGet false s.rep.msixPending (msixKey 0 31) = true ∧ storeGet false s.rep.fnMask 0 = false) ∧
    (∀ s ∈ [(mk [] : State)],
      s.boot.slotSampled = false) ∧
    (∀ s ∈ [(updBoot (mk [(.EVC_INPUTS_SLOT_ID,0,3)]) fun b => {b with slotSampled := true} : State)],
      s.boot.slotSampled = true ∧ 4 % 64 ≠ rd s .EVC_INPUTS_SLOT_ID) := by
  refine ⟨?_, ?_, ?_, ?_, ?_, ?_, ?_, ?_, ?_, ?_, ?_, ?_, ?_, ?_, ?_, ?_, ?_, ?_, ?_, ?_, ?_, ?_, ?_, ?_⟩ <;> decide +kernel

/-- An item of an opcode that works on host memory: a bundle for model 2, or a slot with its job. -/
def readItem (op : Nat) : Item := { itemOf 3 50 op with slot := some 9, model := 2 }
def readS (op : Nat) : State :=
  updPann (updServe (slotIn 3 (serving0 3)) fun v => { v with
    models := [(2, { model0 with st := .loading, owner := (3, 50) })], items := [readItem op] }) fun p => { p with jobs := [(1, job0)] }

theorem test_host_clauses :
    (∀ op ∈ [5, 0x10, 0x12], itemAt (readS op) 3 50 = some (readItem op) ∧
      (∀ x ∈ (readS op).serve.items, (3, 50) ∉ x.waits ∧ (x.waits = [] → x.stop ≠ 9)) ∧
      (modelAt (readS op) 2).map (·.owner) = some (3, 50) ∧ jobOf (readS op) 9 = some (1, job0)) ∧
    (∀ s ∈ [setQueue State.reset 3 { queueOf State.reset 3 with ringFails := 2 }], 2 ≤ (queueOf s 3).ringFails) ∧
    (∀ s ∈ [mk [(.LP_STATUS_STATE, 0, 3)]], s.boot.warm = none ∧ rd s .LP_STATUS_STATE ∈ [2, 3, 4]) ∧
    ((updBoot State.reset fun b => { b with failing := true }).boot.failing = true ∧ storeFind State.reset.ctxs.latched 63 = none) ∧
    (∀ s ∈ [updRep State.reset fun r => { r with fnMask := [(0, true)], msixPending := [(msixKey 0 31, true)], msixMask := [(msixKey 0 31, false)] }],
      s.rep.pendingSrc = [] ∧ storeGet false s.rep.fnMask 0 = true ∧ storeGet true s.rep.msixMask (msixKey 0 31) = false ∧
      storeGet false s.rep.msixPending (msixKey 0 31) = true ∧
      ∀ x ∈ List.range 31, storeGet false s.rep.msixPending (msixKey 0 x) = false ∨ msixMasked s 0 x = true) := by
  refine ⟨?_, ?_, ?_, ?_, ?_⟩ <;> decide +kernel

/-! Start-up, resets and low power -/

theorem test_StartUpAndResetsRun_hypotheses :
    (∀ s ∈ [(mk [] : State)],
      (liveSelection s).preferred = 0 ∧ imageState s 0 = 2 ∧ firstCheck s 0 0 = 0) ∧
    (∀ s ∈ [(updBoot (mk []) fun b => {b with selection := [⟨0,1,0,0,0,0,0,0⟩]} : State)],
      imageState s 0 = 0 ∧ imageState s 1 = 0 ∧ (liveSelection s).preferred < 2) ∧
    (∀ s ∈ [(updPwr (mk []) fun p => {p with hotswapOff := some 5} : State)],
      s.pwr.hotswapOff = some 5 ∧ 5 + 1000000000 ≤ max s.now 1000000005) ∧
    (∀ s ∈ [(updBoot (mk [(.BOOT_STATUS_PHASE,0,7), (.BOOT_STATUS_IMAGE,0,1)]) fun b =>
      {b with selection := [⟨0,1,2,1,2,0,0,0⟩]} : State)],
      rd s .BOOT_STATUS_PHASE = 7 ∧ rd s .BOOT_STATUS_IMAGE < 2 ∧ imageState s (rd s .BOOT_STATUS_IMAGE) = 1) ∧
    (∀ s ∈ [(mk [(.BOOT_STATUS_PHASE,0,7), (.PCIE_LINK_UP,0,1)] : State)],
      1 ≤ rd s .BOOT_STATUS_PHASE ∧ rd s .BOOT_STATUS_PHASE < 8 ∧ rd s .BOOT_STATUS_RECOVERY ≠ 1 ∧ s.boot.warm = none ∧
      s.boot.coldAt + 10000000000 ≤ max s.now 10000000000) ∧
    (∀ s ∈ [(mk [(.BOOT_STATUS_PHASE,0,1), (.BOOT_STATUS_IMAGE,0,1)] : State)],
      1 ≤ rd s .BOOT_STATUS_PHASE) ∧
    (∀ s ∈ [(mk [(.RESET_STATUS_BUSY,0,1)] : State)],
      isMgmt s .mgmt = true ∧ (rd s .RESET_STATUS_BUSY = 1 ∨ 159 < 5)) ∧
    (∀ s ∈ [(writeByte (writeByte (mk []) (0xC000000*4096 + 159*0x800000) 9) 5 7 : State)],
      rd s .RESET_STATUS_BUSY ≠ 1 ∧ s.dbg.dumps = [] ∧ granuleHub (0xC000000 + 159*2048) = 159) ∧
    (∀ s ∈ [(mk [(.RESET_STATUS_BUSY,0,1)] : State)],
      rd s .RESET_STATUS_BUSY = 1) ∧
    (∀ s ∈ [(writeByte (writeByte (mk [(.BOOT_STATUS_PHASE,0,8)]) 0xC000000000 9) 5 7 : State)],
      rd s .RESET_STATUS_BUSY ≠ 1 ∧ s.boot.warm = none ∧ rd s .LP_STATUS_STATE < 2 ∧ s.pwr.tripped = []) ∧
    (∀ s ∈ [(updBoot (mk [(.RESET_STATUS_BUSY,0,1), (.INTEG_HUB_OUT,7,1)]) fun b => {b with hubResets := [(7,82)]} : State)],
      storeFind s.boot.hubResets 7 = some 82 ∧ 8 ≤ 82 ∧ rd s .INTEG_HUB_STATE 7 ≠ 2) ∧
    (∀ s ∈ [(updBoot (updServe (mk []) fun v => { v with items := [openItem 1 2 1 0 [],openItem 1 3 2 0 [(1,2)]] }) fun b =>
      {b with warm := some (1,5)} : State)],
      s.boot.warm = some (1,5)) := by
  refine ⟨?_, ?_, ?_, ?_, ?_, ?_, ?_, ?_, ?_, ?_, ?_, ?_⟩ <;> decide +kernel

theorem test_LowPowerRuns_hypotheses :
    (∀ s ∈ [(mk [(.LP_STATUS_STATE,0,1), (.BOOT_STATUS_PHASE,0,8), (.LP_CONFIG_CEILING,0,3), (.LP_WAKE_REQ,0,30000000000)] :
      State)],
      rd s .LP_STATUS_STATE = 1 ∧ rd s .BOOT_STATUS_PHASE = 8 ∧ lpBlocker (tick s 20000000000) false = 0 ∧ lpChoice (tick s
      20000000000) = 4 ∧ nextEvent s = some 30000000000) ∧
    (∀ s ∈ [(mk [(.LP_STATUS_STATE,0,1), (.BOOT_STATUS_PHASE,0,8), (.LP_CONFIG_CEILING,0,3), (.LP_CTRL_HOLD,0,1)] : State)],
      lpBlocker (tick s 20000000000) false = 2) ∧
    (∀ s ∈ [(updBoot (writeByte (mk [(.LP_STATUS_STATE,0,5)]) 5 7) fun b => {b with lpTarget := 2} : State)],
      rd s .LP_STATUS_STATE = 5 ∧ s.boot.wakePending = false ∧ s.boot.lpTarget ∈ [2,3,4]) ∧
    (∀ s ∈ [(updBoot (writeByte (mk [(.LP_STATUS_STATE,0,5)]) 5 7) fun b => {b with lpTarget := 3} : State)],
      rd s .LP_STATUS_STATE = 5 ∧ s.boot.wakePending = false ∧ s.boot.lpTarget ∈ [2,3,4]) ∧
    (∀ s ∈ [(updBoot (writeByte (mk [(.LP_STATUS_STATE,0,5)]) 5 7) fun b => {b with lpTarget := 4} : State)],
      rd s .LP_STATUS_STATE = 5 ∧ s.boot.wakePending = false ∧ s.boot.lpTarget ∈ [2,3,4]) ∧
    (∀ s ∈ [(mk [(.LP_STATUS_STATE,0,3), (.LP_STATUS_KICKSTAND_READY,0,1), (.PCIE_LINK_UP,0,1), (.SPOKE_FAB_STATUS_STATE,0,2)] :
      State)],
      rd s .LP_STATUS_STATE = 3 ∧ rd s .LP_STATUS_KICKSTAND_READY = 1) ∧
    (∀ s ∈ [(mk [(.LP_STATUS_STATE,0,2), (.LP_NEXT_EVENT,0,50), (.LP_WAKE_AT,0,9)] : State)],
      rd s .LP_STATUS_STATE ∈ [2,3,4] ∧ rd s .LP_NEXT_EVENT ≠ noEvent ∧ rd s .LP_WAKE_AT ≤ max s.now 9) ∧
    (∀ s ∈ [(mk [(.LP_STATUS_STATE,0,3)] : State)],
      isMgmt s .mgmt = true) ∧
    (∀ s ∈ [(updBoot (mk [(.LP_STATUS_STATE,0,6)]) fun b => {b with lpFrom := 3} : State)],
      rd s .LP_STATUS_STATE = 6 ∧ s.boot.heldCmd = none ∧ s.boot.heldReset = none) := by
  refine ⟨?_, ?_, ?_, ?_, ?_, ?_, ?_, ?_, ?_⟩ <;> decide +kernel

theorem test_start_and_low_power_clauses :
    (∀ s ∈ [updBoot (mk [(.BOOT_STATUS_PHASE, 0, 5)]) fun b => { b with shadow := some defaultImage }], s.boot.shadow.isSome = true ∧
      1 ≤ rd s .BOOT_STATUS_PHASE ∧ rd s .BOOT_STATUS_PHASE < 8 ∧ rd s .BOOT_STATUS_RECOVERY ≠ 1 ∧ s.boot.warm = none) ∧
    (∀ s ∈ [updDbg ready fun d => { d with dumps := [(159, 5, 2)] }], rd s .RESET_STATUS_BUSY ≠ 1 ∧ ∃ d ∈ s.dbg.dumps, d.1 = 159) ∧
    (∀ st ∈ [3, 5], ∀ s ∈ [mk [(.LP_STATUS_STATE, 0, st)]], rd s .RESET_STATUS_BUSY ≠ 1 ∧ s.boot.warm = none ∧ rd s .LP_STATUS_STATE = st) ∧
    (∀ tg ∈ [2, 3, 4], ∀ s ∈ [updBoot (mk [(.LP_STATUS_STATE, 0, 5)]) fun b => { b with lpTarget := tg, wakePending := true }],
      rd s .LP_STATUS_STATE = 5 ∧ s.boot.wakePending = true ∧ s.boot.lpTarget ∈ [2, 3, 4]) ∧
    (∀ s ∈ [updBoot (mk [(.LP_STATUS_STATE, 0, 4), (.LP_NEXT_EVENT, 0, 10 ^ 9), (.LP_WAKE_AT, 0, 10 ^ 9)]) fun b => { b with lpSince := 10 ^ 6 }],
      rd s .LP_WAKE_AT - (if rd s .LP_STATUS_STATE = 4 then (rd s .LP_WAKE_AT - s.boot.lpSince) * 20 / 1000000 else 0) ≤ 999980020 ∧
      rd s .LP_NEXT_EVENT ≠ noEvent) ∧
    (∀ s ∈ [updBoot (mk [(.LP_STATUS_STATE, 0, 6)]) fun b => { b with heldReset := some 3 }],
      rd s .LP_STATUS_STATE = 6 ∧ s.boot.heldCmd = none ∧ s.boot.heldReset = some 3 ∧ s.boot.warm = none) ∧
    (∀ s ∈ [updBoot (mk [(.LP_STATUS_STATE, 0, 6)]) fun b => { b with heldCmd := some (2, 5, false) }],
      rd s .LP_STATUS_STATE = 6 ∧ s.boot.heldCmd = some (2, 5, false) ∧ s.boot.heldReset = none) := by
  refine ⟨?_, ?_, ?_, ?_, ?_, ?_, ?_⟩ <;> decide +kernel

/-! Debug -/

theorem test_DebugRuns_hypotheses :
    (∀ s ∈ [(mk [] : State)],
      isMgmt s .mgmt = true) ∧
    (∀ s ∈ [(mk [(.DBG_ERR_LINK,0,7)] : State)],
      debugCounters[9]? = some .DBG_ERR_LINK) ∧
    (∀ s ∈ [(mk [(.DBG_ERR_LINK,0,2^64-1)] : State)],
      s.dbg.contrib = []) ∧
    (∀ s ∈ [(mk [(.DBG_CTRL_DEBUG_EN,0,1), (.DBG_CTRL_PLANNER_HALT_EN,0,1)] : State)],
      debugAllowed s 0 = true ∧ 0 ∉ s.core.halted ∧ 0 = leadHub s) ∧
    (∀ s ∈ [(updDbg (mk [(.DBG_CTRL_DEBUG_EN,0,1), (.DBG_CTRL_PLANNER_HALT_EN,0,1)]) fun d => {d with armed := [159]} : State)],
      debugAllowed s 159 = true ∧ 159 ∉ s.core.halted ∧ 159 ∈ s.dbg.armed ∧ windowCtx s = none) ∧
    (∀ s ∈ [(mk [(.DBG_CTRL_DEBUG_EN,0,1), (.DBG_CTRL_PLANNER_HALT_EN,0,1), (.DBG_DMI_DATA,5,2^31)] : State)],
      debugAllowed s 5 = true ∧ rd s .DBG_DMI_DATA 5 = 2 ^ 31) ∧
    (∀ s ∈ [(mk [] : State)],
      debugAllowed s 5 = false) ∧
    (∀ s ∈ [(updDbg (updCore (mk [(.DBG_HALT_HALTED,5,1), (.INTEG_HUB_OUT,5,1)]) fun c => {c with halted := [5]}) fun d =>
      {d with haltAt := [(5,3)]} : State)],
      5 ∈ s.core.halted ∧ keptOut s 5 = false) ∧
    (∀ s ∈ [(mk [(.DBG_CTRL_DEBUG_EN,0,1), (.DBG_CTRL_PLANNER_HALT_EN,0,1)] : State)],
      debugAllowed s 5 = true) ∧
    (∀ s ∈ [(mk [(.DBG_CTRL_DEBUG_EN,0,1), (.DBG_CTRL_PLANNER_HALT_EN,0,1), (.DBG_DMI_DATA,5,77)] : State)],
      4 % 128 ≠ 0x10 ∧ 4 % 128 ≠ 0x17) ∧
    (∀ s ∈ [(updDbg (updCore (mk [(.DBG_HALT_HALTED,5,1), (.INTEG_HUB_OUT,5,1)]) fun c => {c with halted := [5]}) fun d =>
      {d with haltAt := [(5,3)]} : State)],
      5 ∈ s.core.halted ∧ rd s .DBG_HALT_DRAINED 5 ≠ 1 ∧ hubQueues s 5 = [] ∧ storeFind s.dbg.haltAt 5 = some 3) ∧
    (∀ s ∈ [(updTt (mk []) fun t => {t with run := {t.run with running := true}} : State)],
      rd s .DBG_HUB_STATUS_STATE 5 = 0 ∧ planner s 5 = false ∧ s.tt.run.running = true) ∧
    (∀ s ∈ [(mk [] : State)],
      s.tt.run.running = false ∧ hubQueues s 5 = []) ∧
    (∀ s ∈ [(mk [(.DBG_HUB_STATUS_STATE,5,2)] : State)],
      rd s .DBG_HUB_STATUS_STATE 5 = 2 ∧ s.dbg.dumps = []) ∧
    (∀ s ∈ [(mk [(.DBG_HUB_STATUS_STATE,5,2)] : State)],
      rd s .DBG_HUB_STATUS_STATE 5 = 2 ∧ meetsWindow (tick s 9) (testNs 3 64) = false) ∧
    (∀ s ∈ [(mk [] : State)],
      rd s .DBG_HUB_STATUS_STATE 5 ≠ 2 ∧ rd s .DBG_HUB_STATUS_STATE 5 ≠ 3) ∧
    (∀ s ∈ [(mk [(.DBG_HUB_STATUS_STATE,5,2)] : State)],
      rd s .DBG_HUB_STATUS_STATE 5 = 2 ∧ meetsWindow (tick s 9) (testNs 4 0) = false) ∧
    (∀ s ∈ [(mk [(.DBG_HUB_STATUS_STATE,5,2)] : State)],
      rd s .DBG_HUB_STATUS_STATE 5 = 2 ∧ meetsWindow (tick s 9) (testNs 5 0) = false) ∧
    (∀ s ∈ [(mk [] : State)],
      (rd s .DBG_HUB_STATUS_STATE 5 = 0 ∨ rd s .DBG_HUB_STATUS_STATE 5 = 2) ∧ meetsWindow (tick s 9) 500000 = false) ∧
    (∀ s ∈ [(updDbg (mk [(.DBG_HUB_STATUS_STATE,5,3)]) fun d => {d with tests := [(5, ⟨3,7,4,100⟩)]} : State)],
      storeFind s.dbg.tests 5 = some ⟨3,7,4,100⟩) ∧
    (∀ s ∈ [(updDbg (mk [(.DBG_HUB_STATUS_STATE,5,3)]) fun d => {d with tests := [(5, ⟨5,7,0,100⟩)]} : State)],
      storeFind s.dbg.tests 5 = some ⟨5,7,0,100⟩) ∧
    (∀ s ∈ [(updDbg (mk [(.DBG_HUB_STATUS_STATE,5,3)]) fun d => {d with tests := [(5, ⟨6,7,2,100⟩)]} : State)],
      storeFind s.dbg.tests 5 = some ⟨6,7,2,100⟩) := by
  refine ⟨?_, ?_, ?_, ?_, ?_, ?_, ?_, ?_, ?_, ?_, ?_, ?_, ?_, ?_, ?_, ?_, ?_, ?_, ?_, ?_, ?_, ?_⟩ <;> decide +kernel

theorem test_debug_clauses :
    StoreWf (fun _ => 0) State.reset.dbg.contrib ∧
    (∀ s ∈ [updCore (mk [(.DBG_CTRL_DEBUG_EN, 0, 1), (.INTEG_HUB_STATE, 5, 2), (.DBG_DMI_DATA, 5, 2 ^ 30)]) fun c => { c with halted := [5] }],
      debugAllowed s 5 = true ∧ 5 ∈ s.core.halted ∧ keptOut s 5 = true ∧ bitAt (rd s .DBG_DMI_DATA 5) 31 = false ∧
      bitAt (rd s .DBG_DMI_DATA 5) 30 = true) ∧
    (∀ d ∈ [0, 4], ∀ s ∈ [updDbg (mk [(.DBG_CTRL_DEBUG_EN, 0, 1), (.DBG_DMI_DATA, 5, 3 * 65536 + 0x7A1)]) fun x =>
        { x with dmi := [(5 * 128 + 4, d)] }],
      debugAllowed s 5 = true ∧ bitsOf (rd s .DBG_DMI_DATA 5) 31 24 = 0 ∧ bitsOf (rd s .DBG_DMI_DATA 5) 17 16 = 3 ∧
      rd s .DBG_DMI_DATA 5 % 65536 = 0x7A1 ∧ storeGet 0 s.dbg.dmi (5 * 128 + 4) % 8 = d ∧ windowCtx s = none) ∧
    windowCtx (mk [(.CTX_WINDOW_OPEN, 0, 1), (.CTX_WINDOW_CTX, 0, 3)]) = some 3 ∧
    (hubQueues (busy [.matrix matOf] 3) 2 ≠ [] ∧ (busy [.matrix matOf] 3).tt.run.running = false ∧ planner State.reset 2 = false ∧
      planner State.reset 0 = true) ∧
    (∀ s ∈ [updDbg (mk [(.DBG_HUB_STATUS_STATE, 5, 2)]) fun d => { d with dumps := [(5, 1, 2)] }],
      rd s .DBG_HUB_STATUS_STATE 5 = 2 ∧ ∃ d ∈ s.dbg.dumps, d.1 = 5) ∧
    (∀ s ∈ [updTt (mk [(.DBG_HUB_STATUS_STATE, 5, 2)]) fun t => { t with run := { t.run with running := true, cur := { t.run.cur with window := some 3 } } }],
      meetsWindow (tick s 9) (testNs 4 0) = true) := by
  refine ⟨?_, ?_, ?_, ?_, ?_, ?_, ?_⟩ <;> decide +kernel

/-! Management -/

theorem test_ManagementRuns_hypotheses :
    (∀ s ∈ [(mk [(.EVC_INPUTS_SLOT_ID,0,3)] : State)],
      rd s .MGMT_I3C_ADDR_VALID ≠ 1) ∧
    (∀ s ∈ [(mk [(.MGMT_I3C_ADDR_VALID,0,1)] : State)],
      rd s .MGMT_I3C_ADDR_VALID = 1) ∧
    (∀ s ∈ [(mk [(.MGMT_I3C_ADDR_VALID,0,1)] : State)],
      511 % 256 ≠ 0 ∧ 510 % 256 ≠ 255) ∧
    (∀ s ∈ [(mk [(.MGMT_I3C_ADDR_VALID,0,1)] : State)],
      rd s .BOOT_STATUS_RECOVERY ≠ 1) ∧
    (∀ s ∈ [(mk [(.MGMT_I3C_ADDR_VALID,0,1), (.DRL_STACK_TEMP,11,500)] : State)],
      sensorValue s 21 = some 500) ∧
    (∀ s ∈ [(mk [(.MGMT_I3C_ADDR_VALID,0,1), (.LP_STATUS_STATE,0,4)] : State)],
      rd s .LP_STATUS_STATE = 4) ∧
    (∀ s ∈ [(writeByte (writeByte (mk [(.MGMT_I3C_ADDR_VALID,0,1), (.BOOT_STATUS_PHASE,0,8)]) 0xC000000000 9) 5 7 : State)],
      rd s .RESET_STATUS_BUSY ≠ 1 ∧ s.boot.warm = none ∧ rd s .LP_STATUS_STATE < 2) ∧
    (∀ s ∈ [((report (mk [(.MGMT_I3C_ADDR_VALID,0,1)]) 0x21 0 []) : State)],
      s.rep.faultQueue.length = 1 ∧ s.rep.receiver = none) ∧
    (∀ s ∈ [(mk [(.MGMT_I3C_ADDR_VALID,0,1)] : State)],
      s.mgt.requested = false) ∧
    (∀ s ∈ [(updMgt (mk [(.MGMT_I3C_ADDR_VALID,0,1)]) fun m => {m with requested := true} : State)],
      s.mgt.requested = true ∧ rd s .MGMT_UPDATE_STATE = 0) ∧
    (∀ s ∈ [(updMgt (mk [(.MGMT_I3C_ADDR_VALID,0,1), (.MGMT_UPDATE_STATE,0,4), (.MGMT_UPDATE_IMAGE,0,1)]) fun m =>
      {m with requested := true, passed := true} : State)],
      s.mgt.passed = true ∧ (rd s .MGMT_UPDATE_STATE = 0 ∨ rd s .MGMT_UPDATE_STATE = 4) ∧ rd s .MGMT_UPDATE_IMAGE < 2) ∧
    (∀ s ∈ [(updMgt (mk [(.MGMT_I3C_ADDR_VALID,0,1), (.MGMT_UPDATE_STATE,0,1), (.MGMT_UPDATE_IMAGE,0,1)]) fun m =>
      {m with requested := true} : State)],
      rd s .MGMT_UPDATE_STATE = 1 ∧ rd s .MGMT_UPDATE_IMAGE < s.boot.images.length ∧ (liveSelection s).rootKey ≤ 1 ∧
      (liveSelection s).minFw ≤ 2 ∧ (liveSelection s).minBp ≤ 3) ∧
    (∀ s ∈ [(updMgt (mk [(.MGMT_I3C_ADDR_VALID,0,1), (.MGMT_UPDATE_STATE,0,3), (.MGMT_UPDATE_IMAGE,0,1)]) fun m =>
      {m with requested := true} : State)],
      rd s .MGMT_UPDATE_STATE = 3) ∧
    (∀ s ∈ [(updMgt (mk [(.MGMT_I3C_ADDR_VALID,0,1), (.MGMT_UPDATE_STATE,0,2), (.MGMT_UPDATE_IMAGE,0,1)]) fun m =>
      {m with requested := true} : State)],
      rd s .MGMT_UPDATE_STATE ≠ 0) ∧
    (∀ s ∈ [(updMgt (mk [(.MGMT_I3C_ADDR_VALID,0,1), (.MGMT_UPDATE_STATE,0,2), (.MGMT_UPDATE_IMAGE,0,1)]) fun m =>
      {m with requested := true} : State)],
      s.mgt.requested = true) ∧
    (∀ s ∈ [(updCtxs (updMgt (mk [(.PCIE_LINK_UP,0,1)]) fun m => {m with spdm := 0, ide := []}) fun x => {x with keys := [(3,
      ⟨9,0⟩)]} : State)],
      s.mgt.spdm = 0) ∧
    (∀ s ∈ [(updCtxs (updMgt (mk [(.PCIE_LINK_UP,0,1)]) fun m => {m with spdm := 5, ide := []}) fun x => {x with keys := [(3,
      ⟨9,0⟩)]} : State)],
      s.mgt.spdm = 5) ∧
    (∀ s ∈ [(updCtxs (updMgt (mk [(.PCIE_LINK_UP,0,1)]) fun m => {m with spdm := 2, ide := []}) fun x => {x with keys := [(3,
      ⟨9,0⟩)]} : State)],
      s.mgt.spdm = 2) ∧
    (∀ s ∈ [(updCtxs (updMgt (mk [(.PCIE_LINK_UP,0,1)]) fun m => {m with spdm := 4, ide := []}) fun x => {x with keys := [(3,
      ⟨9,0⟩)]} : State)],
      s.mgt.spdm = 4) ∧
    (∀ s ∈ [(updCtxs (updMgt (mk [(.PCIE_LINK_UP,0,1)]) fun m => {m with spdm := 3, ide := []}) fun x => {x with keys := [(3,
      ⟨9,0⟩)]} : State)],
      rd s .PCIE_LINK_UP = 1 ∧ 0 ∉ s.ctxs.noMaster ∧ (storeFind s.ctxs.keys 3).isSome = true) ∧
    (∀ s ∈ [(updCtxs (updMgt (mk [(.PCIE_LINK_UP,0,1)]) fun m => {m with spdm := 1, ide := []}) fun x => {x with keys := [(3,
      ⟨9,0⟩)]} : State)],
      s.mgt.spdm = 1) ∧
    (∀ s ∈ [(updCtxs (updMgt (mk [(.PCIE_LINK_UP,0,1)]) fun m => {m with spdm := 5, ide := []}) fun x => {x with keys := [(3,
      ⟨9,0⟩)]} : State)],
      s.mgt.spdm = 5 ∧ (ideStream s 63).active ≠ some 1) ∧
    (∀ s ∈ [(updCtxs (updMgt (mk [(.PCIE_LINK_UP,0,1)]) fun m => {m with spdm := 5, ide := [(63, ⟨[8,9,10,11,12,13],none⟩)]})
      fun x => {x with keys := [(3, ⟨9,0⟩)]} : State)],
      (∀ i ∈ List.range 6, 1 * 8 + i ∈ (ideStream s 63).programmed)) ∧
    (∀ s ∈ [(updCtxs (updMgt (mk [(.PCIE_LINK_UP,0,1)]) fun m => {m with spdm := 5, ide := [(63, ⟨[8,9,10,11,12,0],some 0⟩)]})
      fun x => {x with keys := [(3, ⟨9,0⟩)]} : State)],
      (ideStream s 63).active ≠ some 1) ∧
    (∀ s ∈ [(updCtxs (updMgt (mk [(.PCIE_LINK_UP,0,1), (.CTX_STATE_STATE,63,1), (.CTX_STATE_CLASS,63,1),
      (.CTX_STATE_IDE_READY,63,1)]) fun m => {m with spdm := 5, ide := [(63, ⟨[8,9,10,11,12,0],some 1⟩)]}) fun x =>
      {x with keys := [(3, ⟨9,0⟩)]} : State)],
      (ideStream s 63).active = some 1 ∧ confGranted s 63 = true) := by
  refine ⟨?_, ?_, ?_, ?_, ?_, ?_, ?_, ?_, ?_, ?_, ?_, ?_, ?_, ?_, ?_, ?_, ?_, ?_, ?_, ?_, ?_, ?_, ?_, ?_, ?_⟩ <;> decide +kernel

theorem test_management_clauses :
    (∀ tg ∈ [3, 4], ∀ s ∈ [updBoot (mk [(.MGMT_I3C_ADDR_VALID, 0, 1), (.LP_STATUS_STATE, 0, 5)]) fun b => { b with lpTarget := tg }],
      rd s .LP_STATUS_STATE = 5 ∧ s.boot.lpTarget = tg ∧ rd s .BOOT_STATUS_RECOVERY ≠ 1) ∧
    rd (mk [(.RESET_STATUS_BUSY, 0, 1)]) .RESET_STATUS_BUSY = 1 ∧
    (∀ s ∈ [mk [(.LP_STATUS_STATE, 0, 3)]], rd s .RESET_STATUS_BUSY ≠ 1 ∧ s.boot.warm = none ∧ rd s .LP_STATUS_STATE ∈ [2, 3, 4]) ∧
    (State.reset.rep.faultQueue = [] ∧
      ∀ held ∈ [true, false], ∀ s ∈ [updRep State.reset fun r => { r with faultQueue := [recOf 3 2], eventHeld := held, receiver := some 9 }],
        s.rep.faultQueue = recOf 3 2 :: [] ∧ s.rep.eventHeld = held ∧ s.rep.receiver = some 9) := by
  refine ⟨?_, ?_, ?_, ?_⟩ <;> decide +kernel

/-! ## Worked examples of the spec -/

/-- R276's example: wing 1, all 96 channels in the mask, weights from row 0x1_0000. -/
theorem test_weight_block_address :
    (let s := mk [(.HBM_WEIGHT_OFF, 1, 0x10000), (.HBM_WEIGHT_CHMASK, 1, 2 ^ 96 - 1)]
     stripeBlock s 1 (List.range 96) 18838 8 + 64 = 0x5F10D07040 ∧ chanOf (stripeBlock s 1 (List.range 96) 18838 8) = 96 + 94) := by decide +kernel

/-- The examples after R88: 55,504 LSB for MX.256 and 166,480 for split BF16, at K = 3,072. -/
theorem test_checksum_tolerance : toleranceUnits 16 (lossyBound 1 3072 32) = 55504 ∧ toleranceUnits 16 (lossyBound 3 3072 32) = 166480 := by decide +kernel

/-- The layout of Table 6-2 as layout 1. -/
def layoutS : State :=
  mk [(.LARDER_LAYOUT_LAYERS, 1, 60), (.LARDER_LAYOUT_LATENT_UNITS, 1, 16), (.LARDER_LAYOUT_LATENT_FMT, 1, 1),
    (.LARDER_LAYOUT_ROPE_UNITS, 1, 4), (.LARDER_LAYOUT_ROPE_FMT, 1, 8)]

/-- Table 6-2's sizes, and the park images of the example after R180. -/
theorem test_layout_and_park_sizes :
    layoutValid layoutS 1 = true ∧ layLat layoutS 1 = 8192 ∧ layScale layoutS 1 = 256 ∧ layRopeOff layoutS 1 = 8448 ∧
    slabBytes layoutS 1 = 10496 ∧ pageBytes layoutS 1 = 630784 ∧ pageUnits layoutS 1 = 154 ∧
    imageBytes layoutS 1 1 314 = 197747216 ∧ parkSlab layoutS 1 3 = 6400 ∧ imageBytes layoutS 1 3 314 = 120578576 := by
  decide +kernel

/-- The example after R21: slot 9 of hub 62 is written 65 in the inactive bank 1, and serves core 65 once the bank is active. -/
theorem test_remap_lookup :
    (∀ u ∈ [ran (.remapSlotWrite (.core 62) 62 1 9 (0x80 + 65)) (mk [(.BOOT_STATUS_PHASE, 0, 8)])],
      physOf u 62 9 = some 9 ∧ physOf (wr u .HUB_REMAP_CTRL_ACTIVE_BANK 62 1) 62 9 = some 65) := by decide +kernel

/-- That entry stands at 0xFF_003E_0324, and the hub's Pantry window and core 65's local store where the example says. -/
theorem test_places_in_the_address_map :
    ((targetAt (.pf 0xFF003E0324) .hub).map (fun p => instancesAt State.reset .HUB_REMAP_B1_SLOT_PHYS_SLOT p.1 p.2 4)) =
      some [(62 * 64 + 9, 0x324)] ∧
    pantryAddr 62 0 = 0xC01F000000 ∧ lsAddr 62 65 0 = 0xC156820000 := by decide +kernel

/-- The worked example after R299: over the first 32 values of k, FT01's products of row 0 and column 0 sum to -99. -/
theorem test_ft01_example : ((List.range 32).map (fun k => ft01A 0 k * ft01B k 0)).sum = -99 := by decide

/-- Words of Table 5-2 written out field by field: ADD V2, V3 and the immediate 7 under P1; RED of operation 7 over V1 with K 64 and
SUMMARY. -/
theorem test_instruction_words :
    vinstrOf (0x01 + 2 * 2 ^ 8 + 3 * 2 ^ 12 + 4 * 2 ^ 16 + 5 * 2 ^ 20 + 2 * 2 ^ 24 + 1 * 2 ^ 26 + 7 * 2 ^ 32) = ⟨1, 2, 3, 4, 5, 2, 1, 7, 0⟩ ∧
    vinstrOf (0x30 + 7 * 2 ^ 8 + 1 * 2 ^ 12 + 64 * 2 ^ 16 + 1 * 2 ^ 23 + 0x17000 * 2 ^ 32) = ⟨0x30, 7, 1, 64, 1, 0, 0, 0x17000, 0⟩ := by
  decide +kernel

/-- Descriptor words of Tables 3-4 and 3-8: E4M3 with E8M0 scales over 32 elements of K, BF16 with the tensor scale 1.0, and an FP32
output in REF mode; a reserved bit is seen. -/
theorem test_descriptor_words :
    opDescOf (1 + 1 * 2 ^ 4 + 3 * 2 ^ 6 + 0x40 * 2 ^ 16 + 0x17FFF * 2 ^ 32) = ⟨1, 1, 3, 0, 0x40, 0x17FFF, 0, true⟩ ∧
    opDescOf (8 + 3 * 2 ^ 4 + 0x3F800000 * 2 ^ 32) = ⟨8, 3, 0, 0, 0, 0, 0x3F800000, true⟩ ∧
    (opDescOf (1 + 1 * 2 ^ 4 + 3 * 2 ^ 6 + 1 * 2 ^ 11)).resvZero = false ∧
    outDescOf (0xA + 1 * 2 ^ 4) = ⟨0xA, true, false, true⟩ := by decide +kernel

/-- A CANCEL record of Tables 7-4 and 7-6: opcode 2, HANDLE 0x00030005, USER_TAG 0xAB; opcode 0 is reserved. -/
theorem test_record_bytes :
    recordCommand 3 7 ([2, 0, 0, 0, 5, 0, 3, 0, 0xAB] ++ List.replicate 119 0) = some (.cancel ⟨3, 7, 0x30005, 0xAB⟩ true) ∧
    recordCommand 3 7 (List.replicate 128 0) = none := by decide +kernel

/-- No row of the table gives bits, so no word spells a command. -/
theorem test_no_word_spells_a_command : decodeTableWord 16 0x1234 = none ∧ (State.reset.withFetchWord 16 0x1234).pending = [] := by
  decide +kernel
/-! ## Smoke test of WellFormed -/

/-- A record head, a GENERATE record, a vector instruction and a packet that are well formed. -/
def goodHead : ReqHead := ⟨1, 2, 3, 4⟩
def goodGenerate : GenerateRec := ⟨0, 0, 0, 4096, 16, 32, 1000, 1000, 1, 0, 0, 1, 0, 0, 7, [1, 2], 0, true⟩
def goodVInstr : VInstr := ⟨0x10, 1, 2, 3, 4, 0, 0, 0, 0⟩

theorem test_well_formed_commands :
    ∀ c ∈ ([.generate goodHead goodGenerate, .cancel goodHead true, .add 159 65 goodVInstr, .wingTtLoad (.driver 63) 3,
      .refreshWatchdog 0 383 0, .linkLost 0 5, .spokeData 0 5 (arrived 1 2 0 0 [255] 0xFFF 0) false [] 0, .unparkDue 0 65535,
      .regionClearDone 0 12287, .stackFailure 0 11 true, .alertLongHold 0 20, .registerWrite .mgmt (.vf 63 0xFFFC) 8 (2 ^ 64 - 1),
      .registerWrite (.core 159) (.pf 0xFFFFFFFFFF) 4 0, .bypass 4 15, .dmiRead .mgmt 0 127] : List Instr),
      c.wellFormed = true := by decide +kernel

/-- One ill-formed command, at the first value out of range, for each check. -/
theorem test_ill_formed_commands_are_refused :
    ∀ c ∈ ([.cancel ⟨64, 0, 0, 0⟩ true, .cancel ⟨0, 2 ^ 32, 0, 0⟩ true, .cancel ⟨0, 0, 2 ^ 32, 0⟩ true,
      .cancel ⟨0, 0, 0, 2 ^ 64⟩ true, .generate goodHead { goodGenerate with model := 65536 },
      .generate goodHead { goodGenerate with promptAddr := 2 ^ 64 }, .generate goodHead { goodGenerate with adapter := 65536 },
      .generate goodHead { goodGenerate with stops := [2 ^ 32] }, .add 160 0 goodVInstr, .add 0 66 goodVInstr,
      .add 0 0 { goodVInstr with dst := 16 }, .add 0 0 { goodVInstr with op := 256 }, .add 0 0 { goodVInstr with guard := 4 },
      .add 0 0 { goodVInstr with imm := 2 ^ 32 }, .wingTtLoad .mgmt 4, .wingTtLoad (.core 160) 0, .wingTtLoad (.driver 64) 0,
      .refreshWatchdog 0 384 0, .linkLost 0 6, .spokeData 0 0 (arrived 16 2 0 0 [] 0 0) false [] 0,
      .spokeData 0 0 (arrived 1 2 0 0 [] 4096 0) false [] 0, .spokeData 0 0 (arrived 1 2 0 0 [256] 0 0) false [] 0,
      .unparkDue 0 65536, .regionClearDone 0 12288, .stackFailure 0 12 true, .alertLongHold 0 21,
      .registerWrite .mgmt (.pf (2 ^ 40)) 4 0, .registerWrite .mgmt (.vf 0 0) 4 0, .registerWrite .mgmt (.vf 1 65536) 4 0,
      .registerWrite .mgmt (.pf 0) 2 0, .registerWrite .mgmt (.pf 0) 4 (2 ^ 32), .releaseZeroingDone 0 16384,
      .pendingKeyExpiry 0 1 4, .trailDumpDone 0 161, .remapSlotWrite .mgmt 0 2 0 0, .remapSlotWrite .mgmt 0 0 64 0,
      .pwrMeterWrite .mgmt 0 8 0, .vfFlr 0 0, .bypass 4 16, .lbist .mgmt 0 0 128, .entdaa 128] : List Instr),
      c.wellFormed = false := by decide +kernel
end Sys2Proof.Tests
end

section
/-! What opening an item comes to: the shared rules of acceptance. -/

namespace Sys2Proof.Machine

/-! Decision lists -/

/-- A decision list passes exactly when each of its checks does. -/
theorem firstFail_eq_none_iff (l : List (Bool × Nat × Nat)) : firstFail l = none ↔ ∀ e ∈ l, e.1 = true := by
  induction l with
  | nil => simp [firstFail]
  | cons e r ih =>
    obtain ⟨ok, c, d⟩ := e
    cases ok <;> simp [firstFail, ih]

/-- A record that passes the checks of a handle names a session that is not FREE. -/
theorem sessAt_of_handleChecks {s : State} {h : ReqHead} {resv : Bool} (hc : handleChecks s h resv = none) :
    ∃ z, sessAt s (handleIdx h.handle) = some z := by
  simp only [handleChecks, firstFail_eq_none_iff, List.forall_mem_cons, bne_iff_ne] at hc
  obtain ⟨-, h1, h2, h3, -⟩ := hc
  cases hs : sessAt s (handleIdx h.handle) with
  | some z => exact ⟨z, rfl⟩
  | none =>
    exfalso
    unfold handleCheck at h1 h2 h3
    rw [hs] at h1 h2 h3
    dsimp only at h1 h2 h3
    split_ifs at h1 h2 h3 <;> simp_all

/-- An UNLOAD_BUNDLE that passes its checks names a loaded model. -/
theorem modelAt_of_unloadChecks {s : State} {h : ReqHead} {n : Nat} {resv : Bool} (hc : unloadChecks s h n resv = none) :
    ∃ m, modelAt s n = some m := by
  simp only [unloadChecks, firstFail_eq_none_iff, List.forall_mem_cons] at hc
  obtain ⟨-, -, -, hm, -⟩ := hc
  unfold modelUsable at hm
  split at hm
  · exact ⟨_, ‹_›⟩
  · cases hm

/-! Frames of the parts that Laws/Frames does not name -/

theorem within_lard (s : State) (f : Larder → Larder) : Within [.lard] [] s (updLard s f) :=
  ⟨fun p hp => by cases p <;> first | rfl | exact absurd (by simp) hp, fun _ _ _ => rfl⟩

theorem within_setRoot (s : State) (i : Nat) (r : Root) : Within [.lard] [] s (setRoot s i r) := within_lard s _

theorem within_setItem (s : State) (x : Item) : Within [.serve] [] s (setItem s x) := within_serve s _

theorem within_takeFree (s : State) (w : Nat) : Within [.free] [] s (takeFree s w).2 :=
  ⟨fun p hp => by cases p <;> first | rfl | exact absurd (by simp) hp, fun _ _ _ => rfl⟩

theorem within_planMove (s : State) (n : Nat) : Within [.tt] [] s (planMove s n) := within_tt s _

theorem within_planLoad (s : State) (n ns : Nat) : Within [.tt] [] s (planLoad s n ns) := by
  unfold planLoad
  exact (within_planMove s ns).trans (within_tt _ _)

theorem within_adopt (s : State) (plan : List PStep) : Within [.tt] [] s (adopt s plan) := within_tt s _

theorem within_wantBoundary (s : State) : Within [.tt] [] s (wantBoundary s) := by
  unfold wantBoundary
  split
  · exact Within.refl _ _ _
  · exact within_tt s _

theorem within_keepBoundary (b : Nat) (s : State) : Within [.tt] [] s (keepBoundary b s) := by
  unfold keepBoundary
  split
  · exact within_tt s _
  · exact Within.refl _ _ _

theorem within_dropOpen (s : State) (ctx idx : Nat) : Within [.tt] [] s (dropOpen s ctx idx) := by
  unfold dropOpen
  split
  · exact Within.refl _ _ _
  · exact (within_tt s _).trans (within_keepBoundary _ _)

theorem within_queueEdit (s : State) (slot : Nat) (e : PEntry) (final : Option (Nat × Nat × Nat × Nat)) :
    Within [.pann, .tt] [] s (queueEdit s slot e final) :=
  ((within_pann s _).mono (by simp) (by simp)).trans ((within_wantBoundary _).mono (by simp) (by simp))

theorem within_startRelease (s : State) (slot : Nat) (item : Option (Nat × Nat)) (teardown : Bool) :
    Within [.pann, .tt] [] s (startRelease s slot item teardown) := by
  unfold startRelease
  exact (within_queueEdit s slot _ none).trans ((within_pann _ _).mono (by simp) (by simp))

theorem within_setJob (s : State) (n : Nat) (j : Job) : Within [.pann] [.TRAIN_JOBS_OPEN] s (setJob s n j) :=
  ((within_pann s _).mono (by simp) (by simp)).trans ((within_wr _ _ _ _).mono (by simp) (by simp))

theorem within_zeroRange (s : State) (a n : Nat) : Within [.mem] [] s (zeroRange s a n) := within_mem s _

theorem within_eraseJob (s : State) (n : Nat) (j : Job) : Within [.mem, .pann] [.TRAIN_JOBS_OPEN] s (eraseJob s n j) :=
  ((within_pann s _).mono (by simp) (by simp)).trans
    (((within_zeroRange _ _ _).mono (by simp) (by simp)).trans
      (((within_mem _ _).mono (by simp) (by simp)).trans ((within_wr _ _ _ _).mono (by simp) (by simp))))

theorem within_mirrorKeys (s : State) (c : Nat) :
    Within [] [.CTX_STATE_KEYS, .CTX_STATE_PENDING] s (mirrorKeys s c) :=
  ((within_wr s _ _ _).mono (by simp) (by simp)).trans ((within_wr _ _ _ _).mono (by simp) (by simp))

/-- What a command with a frame leaves once the views are settled. -/
theorem Within.settled {ps : List Part} {fs : List Fld} {s t : State} (h : Within ps fs s t) : Frame ps fs s (settled s t) := by
  refine ⟨fun p hp => ?_, fun f n hf => ?_⟩
  · have := h.parts p hp
    cases p <;> exact this
  · simp only [List.mem_append, not_or] at hf
    rw [rd_settled_other s t f n hf.2]
    exact h.regs f n hf.1

/-! Event records and lists -/

/-- The items and the models are the same, and each session too but for its record count. -/
structure ListsKept (s t : State) : Prop where
  items : t.serve.items = s.serve.items
  models : t.serve.models = s.serve.models
  sessions : ∀ i z, sessAt s i = some z → ∃ q, sessAt t i = some { z with seq := q }

theorem ListsKept.trans {s t u : State} (h : ListsKept s t) (k : ListsKept t u) : ListsKept s u :=
  ⟨k.items.trans h.items, k.models.trans h.models, fun i z hz => by
    obtain ⟨q, hq⟩ := h.sessions i z hz
    obtain ⟨q', hq'⟩ := k.sessions i _ hq
    exact ⟨q', hq'⟩⟩

theorem listsKept_of_serve {s t : State} (h : t.serve = s.serve) : ListsKept s t :=
  ⟨by rw [h], by rw [h], fun i z hz => ⟨z.seq, by simpa [sessAt, h] using hz⟩⟩

theorem Within.listsKept {ps : List Part} {fs : List Fld} {s t : State} (h : Within ps fs s t) (hp : Part.serve ∉ ps) :
    ListsKept s t := listsKept_of_serve (h.parts .serve hp)

theorem listsKept_setQueue (s : State) (c : Nat) (q : CtxQueue) : ListsKept s (setQueue s c q) :=
  ⟨rfl, rfl, fun _ z hz => ⟨z.seq, hz⟩⟩

theorem sessAt_setSession (s : State) (i j : Nat) (x : Session) :
    sessAt (setSession s i x) j = if j = i then some x else sessAt s j := by
  split
  · next h => subst h; exact storeFind_insert_same _ _ _
  · next h => exact storeFind_insert_other _ _ h

theorem listsKept_setSeq (s : State) (i q : Nat) (x : Session) (hx : sessAt s i = some x) :
    ListsKept s (setSession s i { x with seq := q }) :=
  ⟨rfl, rfl, fun j z hz => by
    rw [sessAt_setSession]
    split
    · next h =>
      subst h
      obtain rfl : x = z := Option.some.inj (hx.symm.trans hz)
      exact ⟨q, rfl⟩
    · exact ⟨z.seq, hz⟩⟩

theorem listsKept_fireEvq (s : State) (c : Nat) : ListsKept s (fireEvq s c) := by
  unfold fireEvq
  dsimp only
  split
  · exact (listsKept_setQueue s c _).trans ((within_sendMsix _ _ _).listsKept (by simp))
  · exact listsKept_of_serve rfl

theorem listsKept_spillStatus (s : State) (c : Nat) : ListsKept s (spillStatus s c) :=
  (listsKept_setQueue s c _).trans (listsKept_of_serve rfl)

theorem listsKept_putEvent (s : State) (c : Nat) (final : Bool) (r : EventRec) : ListsKept s (putEvent s c final r) := by
  unfold putEvent
  split
  · exact (listsKept_of_serve (s := s) (t := writeControl (writeEvq s c r) c) rfl).trans (listsKept_fireEvq _ c)
  · dsimp only
    have h := (listsKept_setQueue s c { queueOf s c with spill := (queueOf s c).spill ++ [(!final, r)] }).trans
      (listsKept_spillStatus _ c)
    split
    · exact h.trans (listsKept_of_serve rfl)
    · exact h

/-- An event record changes no item, no model and of a session its record count alone. -/
theorem listsKept_sendEvent (s : State) (ctx handle tag idx status cause detail : Nat) (final : Bool) (body : EventBody) :
    ListsKept s (sendEvent s ctx handle tag idx status cause detail final body) := by
  unfold sendEvent
  split
  · split
    · next x hx => exact (listsKept_setSeq s _ _ x hx).trans (listsKept_putEvent _ _ _ _)
    · exact listsKept_of_serve rfl
  · exact listsKept_putEvent _ _ _ _

/-! Room -/

/-- The fields that say whether a record finds room. -/
def roomFlds : List Fld := [.PCIE_LINK_UP, .SERVE_EVQ_COUNT, .SERVE_EVQ_SIZE_LOG2]

theorem generalFull_congr {s t : State} (hq : t.serve.queues = s.serve.queues) (hb : t.ctxs.noMaster = s.ctxs.noMaster)
    (hr : ∀ f ∈ roomFlds, ∀ n, rd t f n = rd s f n) (c : Nat) : generalFull t c = generalFull s c := by
  have hup := hr .PCIE_LINK_UP (by simp [roomFlds])
  have hcount := hr .SERVE_EVQ_COUNT (by simp [roomFlds])
  have hsize := hr .SERVE_EVQ_SIZE_LOG2 (by simp [roomFlds])
  have hreach : hostReach t c = hostReach s c := by simp [hostReach, rdb, hup, hb]
  have hqueue : queueOf t c = queueOf s c := by rw [queueOf, hq, queueOf]
  have hroom : evqRoom t c = evqRoom s c := by
    rw [evqRoom, evqUsed, evqSize, hqueue, hreach, hcount, hsize, ← evqSize, ← evqUsed, ← evqRoom]
  rw [generalFull, hqueue, hroom, ← generalFull]

/-! Acceptance -/

/-- An item is listed and counted. -/
def listed (s : State) (x : Item) : State :=
  inc (updServe s fun v => { v with items := v.items ++ [x] }) .SERVE_ACCEPTED

theorem within_listed (s : State) (x : Item) : Within [.serve] [.SERVE_ACCEPTED] s (listed s x) :=
  ((within_serve s _).mono (by simp) (by simp)).trans ((within_inc _ _ _ _).mono (by simp) (by simp))

theorem generalFull_listed (s : State) (x : Item) (c : Nat) : generalFull (listed s x) c = generalFull s c :=
  generalFull_congr (s := s) (t := listed s x) rfl rfl
    (fun f hf n => (within_listed s x).regs f n fun h => by simp_all [roomFlds]) c

section Accept
variable {s : State} {x : Item} (hroom : generalFull s x.ctx = false)
include hroom

/-- With room for its record, an item that is accepted is listed, counted and its ACCEPTED record sent (R55). -/
theorem accept_eq_sendEvent : accept s x = sendEvent (listed s x) x.ctx x.handle x.tag x.idx 0x08 0 0 false
    (.accepted x.deadline x.interval x.opcode x.tA) := by
  have h : generalFull (listed s x) x.ctx = false := (generalFull_listed s x _).trans hroom
  unfold accept
  show itemEvent (listed s x) x 0x08 0 _ = _
  unfold itemEvent
  rw [if_neg (by simp [h])]

theorem listsKept_accept : ListsKept (listed s x) (accept s x) := by
  rw [accept_eq_sendEvent hroom]
  exact listsKept_sendEvent _ _ _ _ _ _ _ _ _ _

theorem within_accept : Within [.serve, .rep] (eventFlds ++ [.SERVE_ACCEPTED]) s (accept s x) := by
  rw [accept_eq_sendEvent hroom]
  exact ((within_listed s x).mono (by simp) (by simp)).trans
    ((frame_sendEvent _ _ _ _ _ _ _ _ _ _).mono (by simp) (by simp))

/-- It was counted once. -/
theorem rd_accept_accepted : rd (accept s x) .SERVE_ACCEPTED = rd (inc s .SERVE_ACCEPTED) .SERVE_ACCEPTED := by
  rw [accept_eq_sendEvent hroom]
  exact (frame_sendEvent _ _ _ _ _ _ _ _ _ _).regs _ _ (by simp [eventFlds])

theorem accept_items : (accept s x).serve.items = s.serve.items ++ [x] := (listsKept_accept hroom).items

theorem modelAt_accept (n : Nat) : modelAt (accept s x) n = modelAt s n := by
  have h : (accept s x).serve.models = s.serve.models := (listsKept_accept hroom).models
  simp only [modelAt, h]

theorem sessAt_accept {i : Nat} {z : Session} (hz : sessAt s i = some z) :
    ∃ q, sessAt (accept s x) i = some { z with seq := q } := (listsKept_accept hroom).sessions i z hz

/-- The item is open under its context and index where no item was. -/
theorem itemAt_accept_same (hnone : itemAt s x.ctx x.idx = none) : itemAt (accept s x) x.ctx x.idx = some x := by
  unfold itemAt at hnone ⊢
  rw [accept_items hroom, List.find?_append, hnone]
  simp

/-- Every item that was open still is. -/
theorem itemAt_accept_of_some {ctx idx : Nat} {y : Item} (hy : itemAt s ctx idx = some y) : itemAt (accept s x) ctx idx = some y := by
  unfold itemAt at hy ⊢
  rw [accept_items hroom, List.find?_append, hy]
  rfl

end Accept

/-! Items that change in place -/

theorem itemAt_eq_none_iff (s : State) (ctx idx : Nat) :
    itemAt s ctx idx = none ↔ ∀ z ∈ s.serve.items, ¬ (z.ctx = ctx ∧ z.idx = idx) := by
  simp [itemAt, List.find?_eq_none]

theorem itemAt_setItem_none {s : State} {ctx idx : Nat} (y : Item) (h : itemAt s ctx idx = none) :
    itemAt (setItem s y) ctx idx = none := by
  rw [itemAt_eq_none_iff] at h ⊢
  intro w hw
  simp only [setItem, updServe_serve, List.mem_map] at hw
  obtain ⟨z, hz, rfl⟩ := hw
  split
  · next hk => rw [← hk.1, ← hk.2]; exact h z hz
  · exact h z hz

theorem itemAt_setItem_same {s : State} {y z : Item} (hz : z ∈ s.serve.items) (hk : z.ctx = y.ctx ∧ z.idx = y.idx) :
    itemAt (setItem s y) y.ctx y.idx = some y := by
  have hp : (fun i : Item => i.ctx == y.ctx && i.idx == y.idx) ∘ (fun i => if i.ctx = y.ctx ∧ i.idx = y.idx then y else i) =
      fun i => i.ctx == y.ctx && i.idx == y.idx := by
    funext i
    by_cases h : i.ctx = y.ctx ∧ i.idx = y.idx <;> simp [h]
  have hsome : (s.serve.items.find? (fun i => i.ctx == y.ctx && i.idx == y.idx)).isSome = true := by
    rw [List.find?_isSome]
    exact ⟨z, hz, by simp [hk]⟩
  obtain ⟨w, hw⟩ := Option.isSome_iff_exists.mp hsome
  have hwk := List.find?_some hw
  simp only [Bool.and_eq_true, beq_iff_eq] at hwk
  show (s.serve.items.map _).find? _ = some y
  rw [List.find?_map, hp, hw]
  simp [hwk]

end Sys2Proof.Machine
end

section
/-! A record's state made ready for its item, and what the item then leaves. -/

namespace Sys2Proof.Machine

/-- A state in which an item of a record can be accepted as in another: at most the parts ps and the fields fs differ, a record
finds room in it as in the other, no item more is open, and as many were counted. -/
structure Prepared (ps : List Part) (fs : List Fld) (s u : State) : Prop where
  within : Within ps fs s u
  room : ∀ c, generalFull u c = generalFull s c
  closed : ∀ ctx idx, itemAt s ctx idx = none → itemAt u ctx idx = none
  counted : rd u .SERVE_ACCEPTED = rd s .SERVE_ACCEPTED

theorem Prepared.trans {ps qs : List Part} {fs gs : List Fld} {s t u : State} (h : Prepared ps fs s t) (k : Prepared qs gs t u) :
    Prepared (ps ++ qs) (fs ++ gs) s u :=
  ⟨(h.within.mono (by simp) (by simp)).trans (k.within.mono (by simp) (by simp)), fun c => (k.room c).trans (h.room c),
    fun c i hn => k.closed c i (h.closed c i hn), k.counted.trans h.counted⟩

/-- A change of the serving part that keeps the queues and opens no item. -/
theorem prepared_updServe {s : State} (f : Serving → Serving) (hq : (f s.serve).queues = s.serve.queues)
    (hi : ∀ ctx idx, itemAt s ctx idx = none → itemAt (updServe s f) ctx idx = none) : Prepared [.serve] [] s (updServe s f) :=
  ⟨within_serve s f, generalFull_congr hq rfl fun _ _ _ => rfl, hi, rfl⟩

theorem prepared_setItem (s : State) (x : Item) : Prepared [.serve] [] s (setItem s x) :=
  prepared_updServe _ rfl fun _ _ => itemAt_setItem_none x

theorem prepared_setSession (s : State) (i : Nat) (x : Session) : Prepared [.serve] [] s (setSession s i x) :=
  prepared_updServe _ rfl fun _ _ h => h

/-- A change of the contexts' part that keeps who may master the bus. -/
theorem prepared_updCtxs {s : State} (f : Contexts → Contexts) (hb : (f s.ctxs).noMaster = s.ctxs.noMaster) :
    Prepared [.ctxs] [] s (updCtxs s f) :=
  ⟨within_ctxs s f, generalFull_congr rfl hb fun _ _ _ => rfl, fun _ _ h => h, rfl⟩

/-- A change that touches neither serving nor the contexts' part nor a field that an acceptance looks at. -/
theorem Within.prepared {ps : List Part} {fs : List Fld} {s u : State} (h : Within ps fs s u) (hs : Part.serve ∉ ps)
    (hc : Part.ctxs ∉ ps) (hf : ∀ f ∈ fs, f ∉ roomFlds ∧ f ≠ .SERVE_ACCEPTED) : Prepared ps fs s u := by
  have hserve : u.serve = s.serve := h.parts .serve hs
  have hctxs : u.ctxs = s.ctxs := h.parts .ctxs hc
  refine ⟨h, generalFull_congr (by rw [hserve]) (by rw [hctxs]) fun f hr n => h.regs f n fun hm => (hf f hm).1 hr,
    fun c i hn => ?_, h.regs _ _ fun hm => (hf _ hm).2 rfl⟩
  rw [itemAt_eq_none_iff] at hn ⊢
  rwa [hserve]

theorem prepared_tt {s u : State} (h : Within [.tt] [] s u) : Prepared [.tt] [] s u := h.prepared (by simp) (by simp) (by simp)

theorem prepared_pann {s u : State} (h : Within [.pann, .tt] [] s u) : Prepared [.pann, .tt] [] s u :=
  h.prepared (by simp) (by simp) (by simp)

theorem Prepared.refl (s : State) : Prepared [] [] s s := (Within.refl [] [] s).prepared (by simp) (by simp) (by simp)

/-! The item of a record -/

/-- An item is that of a record, under an opcode. -/
structure ItemOf (h : ReqHead) (op : Nat) (x : Item) : Prop where
  ctx : x.ctx = h.ctx
  idx : x.idx = h.idx
  tag : x.tag = h.tag
  opcode : x.opcode = op

/-- A command that ends with the views settled runs to what holds then. -/
theorem runs_of_settle {c : Instr} {s t : State} {p : State → Prop} (h : exec c s = settle s t) (hp : p (settled s t)) :
    Runs c s p := ⟨_, h, hp⟩

section Opening
variable {ps qs : List Part} {fs gs : List Fld} {s u : State} {h : ReqHead} {op : Nat} {x : Item}
  (hp : Prepared ps fs s u) (hr : roomFor s h) (hx : ItemOf h op x)
include hp hr hx

theorem Prepared.hasRoom : generalFull u x.ctx = false := by
  rw [hp.room, hx.ctx]
  exact hr.1

/-- The accepted item is that of its record. -/
theorem Prepared.itemAt_accept : itemAt (accept u x) h.ctx h.idx = some x := by
  rw [← hx.ctx, ← hx.idx]
  refine itemAt_accept_same (hp.hasRoom hr hx) ?_
  rw [hx.ctx, hx.idx]
  exact hp.closed _ _ hr.2.1

theorem Prepared.within_accept (hps : ps ++ [.serve, .rep] ⊆ qs) (hfs : fs ++ (eventFlds ++ [.SERVE_ACCEPTED]) ⊆ gs) :
    Within qs gs s (accept u x) :=
  (hp.within.mono (fun _ m => hps (List.mem_append_left _ m)) (fun _ m => hfs (List.mem_append_left _ m))).trans
    ((Machine.within_accept (hp.hasRoom hr hx)).mono (fun _ m => hps (List.mem_append_right _ m))
      (fun _ m => hfs (List.mem_append_right _ m)))

/-- The state that an acceptance leaves differs from the one before the record in what made it ready and in what an
acceptance changes. -/
theorem Prepared.frame_accept (hps : ps ++ [.serve, .rep] ⊆ qs) (hfs : fs ++ (eventFlds ++ [.SERVE_ACCEPTED]) ⊆ gs) :
    Frame qs gs s (settled s (accept u x)) := (hp.within_accept hr hx hps hfs).settled

theorem Prepared.counted_accept : rd (accept u x) .SERVE_ACCEPTED = rd (inc s .SERVE_ACCEPTED) .SERVE_ACCEPTED := by
  rw [rd_accept_accepted (hp.hasRoom hr hx)]
  simp only [rd_inc, hp.counted]

/-- The record's item is open (R8, R55). -/
theorem Prepared.opened : Opened s (settled s (accept u x)) h op :=
  ⟨⟨x, hp.itemAt_accept hr hx, hx.opcode, hx.tag⟩,
    (rd_settled_other _ _ _ _ (by simp [viewFlds])).trans (hp.counted_accept hr hx)⟩

end Opening

end Sys2Proof.Machine
end

section
/-! What the checks of a GENERATE can change before its item is accepted. -/

namespace Sys2Proof.Machine

/-- Parks, unparks and reservations touch serving, the Larder, the plan and LARDER_PARKS. -/
abbrev ParkFrame (s t : State) : Prop := Within [.serve, .lard, .tt] [.LARDER_PARKS] s t

theorem park_setRoot (s : State) (i : Nat) (r : Root) : ParkFrame s (setRoot s i r) := (within_setRoot s i r).mono (by simp) (by simp)

theorem park_serve (s : State) (f : Serving → Serving) : ParkFrame s (updServe s f) := (within_serve s f).mono (by simp) (by simp)

theorem park_setSession (s : State) (i : Nat) (x : Session) : ParkFrame s (setSession s i x) := park_serve s _

theorem park_planMove (s : State) (n : Nat) : ParkFrame s (planMove s n) := (within_planMove s n).mono (by simp) (by simp)

theorem park_startPark (s : State) (form i : Nat) : ParkFrame s (startPark s form i) := by
  have finish : ∀ (u : State) (p : Prop) [Decidable p] (ns : Nat), ParkFrame u (if p then inc u .LARDER_PARKS else planMove u ns) := by
    intro u p _ ns
    split
    · exact (within_inc _ _ _ _).mono (by simp) (by simp)
    · exact park_planMove u ns
  unfold startPark
  split
  · dsimp only
    refine Within.trans ?_ (finish _ _ _)
    split
    · split
      · exact (park_setRoot _ _ _).trans (park_serve _ _)
      · exact Within.refl _ _ _
    · split
      · exact (park_setRoot _ _ _).trans ((within_lard _ _).mono (by simp) (by simp))
      · exact Within.refl _ _ _
  · exact Within.refl _ _ _

theorem park_parkSession (s : State) (form i : Nat) : ParkFrame s (parkSession s form i) := by
  unfold parkSession
  dsimp only
  split
  · exact (park_startPark s form i).trans (park_startPark _ form _)
  · exact park_startPark s form i

theorem park_pressureParks (w n : Nat) : ∀ (l : List Nat) (s : State) (gained : Nat) (t : State),
    pressureParks w n l s gained = some t → ParkFrame s t
  | [], s, gained, t, h => by
    unfold pressureParks at h
    split at h
    · cases h; exact Within.refl _ _ _
    · cases h
  | i :: r, s, gained, t, h => by
    unfold pressureParks at h
    split at h
    · cases h; exact Within.refl _ _ _
    · split at h
      · dsimp only at h
        split at h
        · exact (park_parkSession s _ i).trans (park_pressureParks w n r _ _ t h)
        · exact park_pressureParks w n r s _ t h
      · exact park_pressureParks w n r s _ t h

theorem park_reservePages {s t : State} {i n : Nat} (h : reservePages s i n = some t) : ParkFrame s t := by
  unfold reservePages at h
  split at h
  · cases h
  · dsimp only at h
    split at h
    · cases h
    · next hp =>
      cases h
      exact ((park_setRoot s _ _).trans (park_pressureParks _ _ _ _ _ _ hp)).trans (park_setRoot _ _ _)

theorem park_startUnpark1 (s : State) (i : Nat) : ParkFrame s (startUnpark1 s i) := by
  unfold startUnpark1
  split
  · split
    · exact (park_setRoot _ _ _).trans (park_planMove _ _)
    · exact Within.refl _ _ _
  · exact Within.refl _ _ _

theorem park_startUnpark (s : State) (i : Nat) : ParkFrame s (startUnpark s i) := by
  unfold startUnpark
  dsimp only
  split
  · exact (park_startUnpark1 s i).trans (park_startUnpark1 _ _)
  · exact park_startUnpark1 s i

theorem park_takeRequest (s : State) (i : Nat) (r : GenerateRec) : ParkFrame s (takeRequest s i r) := by
  unfold takeRequest
  split
  · exact Within.refl _ _ _
  · exact (park_setSession _ _ _).trans (park_startUnpark _ _)

theorem park_openSession (s : State) (i ctx model draft permit wing : Nat) (companion : Option Nat) (isComp : Bool) :
    ParkFrame s (openSession s i ctx model draft permit wing companion isComp) :=
  (park_serve s _).trans (park_setRoot _ _ _)

theorem park_openFor {s t : State} {ctx i tokens : Nat} {r : GenerateRec} (h : openFor s ctx r tokens = some (i, t)) :
    ParkFrame s t := by
  unfold openFor at h
  dsimp only at h
  split at h
  · cases h
  · split at h
    · cases h; exact park_openSession _ _ _ _ _ _ _ _ _
    · split at h
      · cases h
      · split at h
        · cases h
          exact ((park_openSession _ _ _ _ _ _ _ _ _).trans (park_openSession _ _ _ _ _ _ _ _ _)).trans (park_setSession _ _ _)
        · cases h

theorem itemOf_genItem (s : State) (h : ReqHead) (r : GenerateRec) (i deadline ival : Nat) :
    ItemOf h 0x01 (genItem s h r i deadline ival) := ⟨rfl, rfl, rfl, rfl⟩

/-- The pages of a session and of its companion. -/
theorem park_reserveBoth {s t : State} {i n : Nat} (h : ((reservePages s i n).bind fun t =>
    match (sessAt t i).bind (·.companion) with
    | some k => reservePages t k n
    | none => some t) = some t) : ParkFrame s t := by
  obtain ⟨u, hu, ht⟩ := Option.bind_eq_some_iff.mp h
  refine (park_reservePages hu).trans ?_
  split at ht
  · exact park_reservePages ht
  · cases ht; exact Within.refl _ _ _

theorem trialGenerate_admits {back s : State} {h : ReqHead} {r : GenerateRec} {i : Nat} {a : Admitted}
    (ha : trialGenerate back s h r i = .ok a) : ParkFrame s a.st ∧ ItemOf h 0x01 a.item := by
  unfold trialGenerate at ha
  split at ha
  · cases ha
  · split at ha
    · cases ha
    · next t ht =>
      have hpark := (park_reserveBoth ht).trans (park_takeRequest t i r)
      dsimp only at ha
      split at ha
      · cases ha
        exact ⟨hpark, itemOf_genItem _ _ _ _ _ _⟩
      · split at ha
        · cases ha
        · split at ha
          · cases ha
            exact ⟨hpark.trans ((within_adopt _ _).mono (by simp) (by simp)), itemOf_genItem _ _ _ _ _ _⟩
          · cases ha

/-- A GENERATE that is admitted has an item of its record, in a state in which its session and pages are set (R54, R198). -/
theorem admitGenerate_admits {s : State} {h : ReqHead} {r : GenerateRec} {a : Admitted} (ha : admitGenerate s h r = .ok a) :
    ParkFrame s a.st ∧ ItemOf h 0x01 a.item := by
  unfold admitGenerate at ha
  split at ha
  · cases ha
  · split at ha
    · split at ha
      · cases ha
      · next ht =>
        obtain ⟨hpark, hitem⟩ := trialGenerate_admits ha
        exact ⟨(park_openFor ht).trans hpark, hitem⟩
    · exact trialGenerate_admits ha

end Sys2Proof.Machine
end

section
/-! O43, clause by clause: each record that passes its checks opens its item, and what the item is for has begun. -/

namespace Sys2Proof.Machine

variable {s : State} {h : ReqHead}

/-! GENERATE -/

theorem generate_opens (r : GenerateRec) (a : Admitted) (ha : admitGenerate s h r = .ok a) (he : a.empty = none)
    (hr : roomFor a.st h) : Runs (.generate h r) s fun v =>
      Opened s v h 0x01 ∧ v.tt = a.st.tt ∧ v.lard = a.st.lard ∧ v.mem = s.mem := by
  obtain ⟨hpark, hitem⟩ := admitGenerate_admits ha
  have hp := Prepared.refl a.st
  have hexec : exec (.generate h r) s = settle s (accept a.st a.item) := by
    show execGenerate h r s = _
    simp only [execGenerate, ha, he]
  have hacc := within_accept (hp.hasRoom hr hitem)
  have hcount : rd a.st .SERVE_ACCEPTED = rd s .SERVE_ACCEPTED := hpark.regs _ _ (by simp)
  refine runs_of_settle hexec ⟨⟨⟨a.item, hp.itemAt_accept hr hitem, hitem.opcode, hitem.tag⟩, ?_⟩, ?_, ?_, ?_⟩
  · rw [rd_settled_other _ _ _ _ (by simp [viewFlds]), hp.counted_accept hr hitem]
    simp only [rd_inc, hcount]
  · exact hacc.parts .tt (by simp)
  · exact hacc.parts .lard (by simp)
  · have hkept : (accept a.st a.item).mem = a.st.mem := hacc.parts .mem (by simp)
    have hmem : a.st.mem = s.mem := hpark.parts .mem (by simp)
    exact hkept.trans hmem

/-! CANCEL and CLOSE -/

/-- The state in which a CANCEL or CLOSE of an open request is accepted: the request is marked to stop and its work has left
the steps that have not frozen (R213). -/
def stopped (s : State) (x : Item) (detail : Nat) : State := dropOpen (stopOpen (wantBoundary s) x detail) x.ctx x.idx

theorem prepared_stopped (s : State) (x : Item) (detail : Nat) : Prepared ([.tt] ++ [.serve] ++ [.tt]) [] s (stopped s x detail) :=
  ((prepared_tt (within_wantBoundary s)).trans (prepared_setItem _ _)).trans (prepared_tt (within_dropOpen _ _ _))

theorem stopped_serve (s : State) (x : Item) (detail : Nat) :
    (stopped s x detail).serve = (setItem s { x with stop := max x.stop detail }).serve := by
  have hdrop : (stopped s x detail).serve = (stopOpen (wantBoundary s) x detail).serve :=
    (within_dropOpen _ x.ctx x.idx).parts .serve (by simp)
  have hwant : (wantBoundary s).serve = s.serve := (within_wantBoundary s).parts .serve (by simp)
  rw [hdrop]
  simp only [stopOpen, setItem, updServe_serve, hwant]

/-- A CANCEL or CLOSE of an open request is an acceptance in that state. -/
theorem stopAndWait_eq (s : State) (h : ReqHead) (op detail : Nat) (x : Item) :
    ∃ y, ItemOf h op y ∧ stopAndWait s h op detail x = accept (stopped s x detail) y := ⟨_, ⟨rfl, rfl, rfl, rfl⟩, rfl⟩

theorem mem_of_openGen {i : Nat} {x : Item} (hx : openGen s i = some x) : x ∈ s.serve.items ∧ x.opcode = 0x01 := by
  have hk := List.find?_some hx
  simp only [Bool.and_eq_true, beq_iff_eq] at hk
  exact ⟨List.mem_of_find?_eq_some hx, hk.1⟩

/-- The request that a CANCEL or CLOSE names is marked to stop with its detail or a higher one. -/
theorem itemAt_stopAndWait {i op detail : Nat} {x : Item} (hr : roomFor s h) (hx : openGen s i = some x) :
    ∃ y, itemAt (stopAndWait s h op detail x) x.ctx x.idx = some y ∧ y.opcode = 0x01 ∧ detail ≤ y.stop := by
  obtain ⟨hmem, hop⟩ := mem_of_openGen hx
  obtain ⟨w, hw, heq⟩ := stopAndWait_eq s h op detail x
  refine ⟨{ x with stop := max x.stop detail }, ?_, hop, le_max_right _ _⟩
  rw [heq]
  refine itemAt_accept_of_some ((prepared_stopped s x detail).hasRoom hr hw) ?_
  unfold itemAt
  rw [stopped_serve]
  exact itemAt_setItem_same (y := { x with stop := max x.stop detail }) hmem ⟨rfl, rfl⟩

theorem cancel_opens (hr : roomFor s h) (resv : Bool) (x : Item) (hc : handleChecks s h resv = none)
    (hx : openGen s (handleIdx h.handle) = some x) : Runs (.cancel h resv) s fun v =>
      Opened s v h 0x02 ∧ (∃ y, itemAt v x.ctx x.idx = some y ∧ y.opcode = 0x01 ∧ 4 ≤ y.stop) ∧
      Frame [.rep, .serve, .tt] (eventFlds ++ [.SERVE_ACCEPTED]) s v := by
  have hexec : exec (.cancel h resv) s = settle s (stopAndWait s h 0x02 0x04 x) := by
    show execCancel h resv s = _
    simp only [execCancel, hc, hx]
  obtain ⟨y, hy, heq⟩ := stopAndWait_eq s h 0x02 0x04 x
  have hp := prepared_stopped s x 0x04
  refine runs_of_settle hexec ⟨?_, itemAt_stopAndWait hr hx, ?_⟩ <;> rw [heq]
  · exact hp.opened hr hy
  · exact hp.frame_accept hr hy (by simp) (by simp)

/-- The state in which a CLOSE goes on: its session is CLOSING. -/
def closing (s : State) (i : Nat) (z : Session) : State := setSession s i { z with st := .closing }

theorem prepared_closing (s : State) (i : Nat) (z : Session) : Prepared [.serve] [] s (closing s i z) := prepared_setSession s i _

theorem sessAt_closing (s : State) (i : Nat) (z : Session) : sessAt (closing s i z) i = some { z with st := .closing } :=
  (sessAt_setSession s i i _).trans (if_pos rfl)

/-- A CLOSING session is CLOSING still after an acceptance in a state with the same sessions. -/
theorem closing_accept {i : Nat} {z : Session} {u : State} {y : Item} (hroom : generalFull u y.ctx = false)
    (hs : u.serve.sessions = (closing s i z).serve.sessions) : ∃ w, sessAt (accept u y) i = some w ∧ w.st = .closing := by
  have hz : sessAt u i = some { z with st := .closing } := by
    unfold sessAt
    rw [hs]
    exact sessAt_closing s i z
  obtain ⟨q, hq⟩ := sessAt_accept hroom hz
  exact ⟨_, hq, rfl⟩

theorem roomFor_closing {i : Nat} {z : Session} (hr : roomFor s h) : roomFor (closing s i z) h :=
  ⟨((prepared_closing s i z).room _).trans hr.1, (prepared_closing s i z).closed _ _ hr.2.1, hr.2.2⟩

/-- A CLOSE that passes its checks goes on with its session CLOSING. -/
theorem exec_close_open {resv : Bool} {x : Item} {z : Session} (hc : handleChecks s h resv = none)
    (hz : sessAt s (handleIdx h.handle) = some z) (hx : openGen s (handleIdx h.handle) = some x) :
    exec (.close h resv) s = settle s (stopAndWait (closing s (handleIdx h.handle) z) h 0x03 0x05 x) := by
  have hx' : openGen (setSession s (handleIdx h.handle) { z with st := .closing }) (handleIdx h.handle) = some x := hx
  show execClose h resv s = _
  simp only [execClose, hc, hz, hx']
  rfl

/-- The item of a CLOSE of a session without an open request. -/
def closeItem (u : State) (h : ReqHead) : Item :=
  { newItem u h 0x03 with sess := some (handleIdx h.handle), deadline := nextBoundary u + 2000 }

theorem exec_close_idle {resv : Bool} {z : Session} (hc : handleChecks s h resv = none)
    (hz : sessAt s (handleIdx h.handle) = some z) (hx : openGen s (handleIdx h.handle) = none) :
    exec (.close h resv) s = settle s
      (accept (wantBoundary (closing s (handleIdx h.handle) z)) (closeItem (wantBoundary (closing s (handleIdx h.handle) z)) h)) := by
  have hx' : openGen (setSession s (handleIdx h.handle) { z with st := .closing }) (handleIdx h.handle) = none := hx
  show execClose h resv s = _
  simp only [execClose, hc, hz, hx']
  rfl

theorem close_open_opens (hr : roomFor s h) (resv : Bool) (x : Item) (hc : handleChecks s h resv = none)
    (hx : openGen s (handleIdx h.handle) = some x) : Runs (.close h resv) s fun v =>
      Opened s v h 0x03 ∧ (∃ y, itemAt v x.ctx x.idx = some y ∧ y.opcode = 0x01 ∧ 5 ≤ y.stop) ∧
      (∃ z, sessAt v (handleIdx h.handle) = some z ∧ z.st = .closing) ∧
      Frame [.rep, .serve, .tt] (eventFlds ++ [.SERVE_ACCEPTED]) s v := by
  obtain ⟨z, hz⟩ := sessAt_of_handleChecks hc
  obtain ⟨y, hy, heq⟩ := stopAndWait_eq (closing s (handleIdx h.handle) z) h 0x03 0x05 x
  have hp := (prepared_closing s (handleIdx h.handle) z).trans (prepared_stopped _ x 0x05)
  refine runs_of_settle (exec_close_open hc hz hx)
    ⟨?_, itemAt_stopAndWait (s := closing s (handleIdx h.handle) z) (roomFor_closing hr) hx, ?_, ?_⟩ <;> rw [heq]
  · exact hp.opened hr hy
  · exact closing_accept (s := s) (z := z) (hp.hasRoom hr hy) (by rw [stopped_serve]; rfl)
  · exact hp.frame_accept hr hy (by simp) (by simp)

theorem close_idle_opens (hr : roomFor s h) (resv : Bool) (hc : handleChecks s h resv = none)
    (hx : openGen s (handleIdx h.handle) = none) : Runs (.close h resv) s fun v =>
      Opened s v h 0x03 ∧ (∃ z, sessAt v (handleIdx h.handle) = some z ∧ z.st = .closing) ∧
      Frame [.rep, .serve, .tt] (eventFlds ++ [.SERVE_ACCEPTED]) s v := by
  obtain ⟨z, hz⟩ := sessAt_of_handleChecks hc
  have hy : ItemOf h 0x03 (closeItem (wantBoundary (closing s (handleIdx h.handle) z)) h) := ⟨rfl, rfl, rfl, rfl⟩
  have hp := (prepared_closing s (handleIdx h.handle) z).trans (prepared_tt (within_wantBoundary _))
  have hserve : (wantBoundary (closing s (handleIdx h.handle) z)).serve = (closing s (handleIdx h.handle) z).serve :=
    (within_wantBoundary _).parts .serve (by simp)
  exact runs_of_settle (exec_close_idle hc hz hx) ⟨hp.opened hr hy,
    closing_accept (s := s) (z := z) (hp.hasRoom hr hy) (by rw [hserve]), hp.frame_accept hr hy (by simp) (by simp)⟩

end Sys2Proof.Machine
end

section
/-! O43: model bundles, adapters, training and security records. -/

namespace Sys2Proof.Machine

variable {s : State} {h : ReqHead}

/-- A command accepts an item of a record, under an opcode, in a state. -/
def Accepts (c : Instr) (s u : State) (h : ReqHead) (op : Nat) : Prop := ∃ y, ItemOf h op y ∧ exec c s = settle s (accept u y)

theorem accepts_of {c : Instr} {u : State} {op : Nat} {y : Item} (hexec : exec c s = settle s (accept u y)) (hy : ItemOf h op y) :
    Accepts c s u h op := ⟨y, hy, hexec⟩

/-! Model bundles -/

/-- A change of the list of models. -/
theorem prepared_models (s : State) (f : Store Model → Store Model) :
    Prepared [.serve] [] s (updServe s fun v => { v with models := f v.models }) :=
  prepared_updServe _ rfl fun _ _ hn => hn

/-- The state in which a LOAD_BUNDLE is accepted: its model is loading and its transfer is planned. -/
abbrev loadStarted (s : State) (h : ReqHead) (r : LoadBundleRec) (b : List Nat) : State :=
  planLoad (updServe s fun v => { v with models := storeInsert v.models r.model (newModel s h b) }) r.model (ceilDiv r.bytes bundleRate)

theorem modelAt_loadStarted (s : State) (h : ReqHead) (r : LoadBundleRec) (b : List Nat) :
    modelAt (loadStarted s h r b) r.model = some (newModel s h b) := storeFind_insert_same _ _ _

theorem loadBundle_opens (hr : roomFor s h) (r : LoadBundleRec) (x : List Nat) (hc : bundleChecks s h r (some x) = none) :
    Runs (.loadBundle h r (some x)) s fun v =>
      Opened s v h 0x05 ∧ (∃ m, modelAt v r.model = some m ∧ m.st = .loading ∧ m.header = bundleHeaderOf x) ∧
      Frame [.rep, .serve, .tt] (eventFlds ++ [.SERVE_ACCEPTED]) s v := by
  obtain ⟨y, hy, hexec⟩ : Accepts (.loadBundle h r (some x)) s (loadStarted s h r x) h 0x05 := by
    refine ⟨{ newItem (loadStarted s h r x) h 0x05 with
      model := r.model, deadline := moveEnd s (loadStarted s h r x) + 2000, pages := r.addr, data := [r.bytes] },
      ⟨rfl, rfl, rfl, rfl⟩, ?_⟩
    show execLoadBundle h r (some x) s = _
    unfold execLoadBundle
    -- the checks taken as a value, so that the match does not evaluate them
    generalize bundleChecks s h r (some x) = checks at hc ⊢
    subst hc
    rfl
  have hp : Prepared ([.serve] ++ [.tt]) [] s (loadStarted s h r x) :=
    (prepared_models s fun l => storeInsert l r.model (newModel s h x)).trans (prepared_tt (within_planLoad _ _ _))
  refine runs_of_settle hexec ⟨hp.opened hr hy, ⟨newModel s h x, ?_, rfl, rfl⟩, hp.frame_accept hr hy (by simp) (by simp)⟩
  exact (modelAt_accept (hp.hasRoom hr hy) _).trans (modelAt_loadStarted s h r x)

/-- The state in which an UNLOAD_BUNDLE is accepted: its model is unloading. -/
abbrev unloadStarted (s : State) (n : Nat) (m : Model) : State :=
  updServe s fun v => { v with models := storeInsert v.models n { m with st := .unloading } }

theorem exec_unloadBundle_users {n : Nat} {resv : Bool} {m : Model} (hc : unloadChecks s h n resv = none)
    (hm : modelAt s n = some m) (hu : modelUsers s n ≠ []) :
    Accepts (.unloadBundle h n resv) s (unloadStarted s n m) h 0x06 := by
  have hm' : storeFind s.serve.models n = some m := hm
  have hu' : (modelUsers s n).isEmpty = false := by simpa using hu
  have hstart : (updServe s fun v => { v with models := match storeFind v.models n with
      | some m => storeInsert v.models n { m with st := .unloading }
      | none => v.models }) = unloadStarted s n m := by
    simp only [updServe, unloadStarted, hm']
  apply accepts_of
  · show execUnloadBundle h n resv s = _
    rw [← hstart]
    simp only [execUnloadBundle, hc, hu', Bool.false_eq_true, if_false]
    rfl
  · exact ⟨rfl, rfl, rfl, rfl⟩

theorem unloadBundle_opens (hr : roomFor s h) (n : Nat) (resv : Bool) (hc : unloadChecks s h n resv = none)
    (hu : modelUsers s n ≠ []) : Runs (.unloadBundle h n resv) s fun v =>
      Opened s v h 0x06 ∧ (∃ m, modelAt v n = some m ∧ m.st = .unloading) ∧
      Frame [.rep, .serve] (eventFlds ++ [.SERVE_ACCEPTED]) s v := by
  obtain ⟨m, hm⟩ := modelAt_of_unloadChecks hc
  obtain ⟨y, hy, hexec⟩ := exec_unloadBundle_users hc hm hu
  have hp : Prepared [.serve] [] s (unloadStarted s n m) := prepared_models s fun l => storeInsert l n { m with st := .unloading }
  refine runs_of_settle hexec ⟨hp.opened hr hy, ⟨{ m with st := .unloading }, ?_, rfl⟩, hp.frame_accept hr hy (by simp) (by simp)⟩
  exact (modelAt_accept (hp.hasRoom hr hy) _).trans (storeFind_insert_same _ _ _)

/-! Adapters -/

/-- The last change that waits for a slot's flip is the entry that is planned for it. -/
theorem plannedEntry_of_last {v : State} {l : List PannierEdit} {slot : Nat} {e : PEntry} {f : Option (Nat × Nat × Nat × Nat)}
    (hv : v.pann.edits = l ++ [⟨slot, e, f⟩]) : plannedEntry v slot = e := by
  simp [plannedEntry, hv, List.filter_append]

theorem queueEdit_pann (s : State) (slot : Nat) (e : PEntry) (f : Option (Nat × Nat × Nat × Nat)) :
    (queueEdit s slot e f).pann = { s.pann with edits := s.pann.edits ++ [⟨slot, e, f⟩] } :=
  (within_wantBoundary (updPann s fun p => { p with edits := p.edits ++ [⟨slot, e, f⟩] })).parts .pann (by simp)

/-- After an acceptance the Pannier's changes that wait are those from before it. -/
theorem accept_pann {u : State} {x : Item} (hroom : generalFull u x.ctx = false) : (accept u x).pann = u.pann :=
  (within_accept hroom).parts .pann (by simp)

/-- The state in which an ADAPTER_LOAD is accepted: its entry is LOADING at the next flip and its transfer is planned. -/
abbrev adapterStarted (s : State) (h : ReqHead) (r : AdapterLoadRec) : State :=
  planMove (queueEdit s r.slotBits { freeEntry with st := 1, ctx := h.ctx, model := r.model } none) (transferNs r.bytes)

theorem adapterLoad_opens (hr : roomFor s h) (r : AdapterLoadRec) (hc : loadChecks s h r = none) :
    Runs (.adapterLoad h r) s fun v =>
      Opened s v h 0x10 ∧ (plannedEntry v r.slotBits).st = 1 ∧ (plannedEntry v r.slotBits).ctx = h.ctx ∧
      Frame [.pann, .rep, .serve, .tt] (eventFlds ++ [.SERVE_ACCEPTED]) s v := by
  obtain ⟨y, hy, hexec⟩ : Accepts (.adapterLoad h r) s (adapterStarted s h r) h 0x10 := by
    apply accepts_of
    · show execAdapterLoad h r s = _
      simp only [execAdapterLoad, hc]
      rfl
    · exact ⟨rfl, rfl, rfl, rfl⟩
  have hp : Prepared ([.pann, .tt] ++ [.tt]) [] s (adapterStarted s h r) :=
    (prepared_pann (within_queueEdit _ _ _ _)).trans (prepared_tt (within_planMove _ _))
  have hentry : plannedEntry (settled s (accept (adapterStarted s h r) y)) r.slotBits =
      { freeEntry with st := 1, ctx := h.ctx, model := r.model } :=
    plannedEntry_of_last (congrArg Pannier.edits ((accept_pann (hp.hasRoom hr hy)).trans (queueEdit_pann _ _ _ _)))
  exact runs_of_settle hexec ⟨hp.opened hr hy, by rw [hentry], by rw [hentry], hp.frame_accept hr hy (by simp) (by simp)⟩

theorem plannedEntry_startRelease {s v : State} {slot : Nat} {item : Option (Nat × Nat)} {teardown : Bool}
    (hv : v.pann = (startRelease s slot item teardown).pann) : (plannedEntry v slot).st = 4 := by
  have hedits : v.pann.edits = s.pann.edits ++ [⟨slot, { plannedEntry s slot with st := 4, job := 0 }, none⟩] := by
    rw [hv]
    exact congrArg Pannier.edits (queueEdit_pann s slot _ none)
  rw [plannedEntry_of_last hedits]

theorem adapterRelease_opens (hr : roomFor s h) (slot : Nat) (resv : Bool) (hc : releaseChecks s h slot resv = none) :
    Runs (.adapterRelease h slot resv) s fun v =>
      Opened s v h 0x11 ∧ (plannedEntry v slot).st = 4 ∧ Frame [.pann, .rep, .serve, .tt] (eventFlds ++ [.SERVE_ACCEPTED]) s v := by
  obtain ⟨y, hy, hexec⟩ : Accepts (.adapterRelease h slot resv) s (startRelease s slot (some (h.ctx, h.idx)) false) h 0x11 := by
    apply accepts_of
    · show execAdapterRelease h slot resv s = _
      simp only [execAdapterRelease, hc]
      rfl
    · exact ⟨rfl, rfl, rfl, rfl⟩
  have hp : Prepared [.pann, .tt] [] s (startRelease s slot (some (h.ctx, h.idx)) false) := prepared_pann (within_startRelease _ _ _ _)
  exact runs_of_settle hexec ⟨hp.opened hr hy, plannedEntry_startRelease (accept_pann (hp.hasRoom hr hy)),
    hp.frame_accept hr hy (by simp) (by simp)⟩

/-! Training -/

/-- A change of jobs leaves what an acceptance looks at. -/
theorem Within.preparedJob {ps : List Part} {s u : State} (hw : Within ps [.TRAIN_JOBS_OPEN] s u) (hs : Part.serve ∉ ps)
    (hc : Part.ctxs ∉ ps) : Prepared ps [.TRAIN_JOBS_OPEN] s u := hw.prepared hs hc (by simp [roomFlds])

theorem self_mem_storeInsert {α : Type} (m : Store α) (k : Nat) (v : α) : (k, v) ∈ storeInsert m k v := by
  induction m with
  | nil => simp [storeInsert]
  | cons e r ih =>
    unfold storeInsert
    split
    · simp
    · split
      · simp
      · exact List.mem_cons_of_mem _ ih

/-- The job that a TRAIN_OPEN begins. -/
def openedJob (s : State) (h : ReqHead) (r : TrainOpenRec) : Job :=
  let ws := (allocWorkspace s (r.workspaceMib * 256)).getD (0, 0)
  ⟨h.ctx, r.slotBits, r, r.rank, r.alpha, r.targetSet, [], [], 0, 0, 0, false, (ws.1, ws.2, r.workspaceMib * 256)⟩

theorem trainOpen_opens (hr : roomFor s h) (r : TrainOpenRec) (hc : openChecks s h r = none) (himg : bitAt r.flags 0 = true) :
    Runs (.trainOpen h r) s fun v =>
      Opened s v h 0x12 ∧ (∃ e ∈ v.pann.jobs, e.2.slot = r.slotBits ∧ e.2.ctx = h.ctx ∧ e.2.opened = false) ∧
      Frame [.pann, .rep, .serve, .tt] (eventFlds ++ [.SERVE_ACCEPTED, .TRAIN_JOBS_OPEN]) s v := by
  obtain ⟨y, hy, hexec⟩ : Accepts (.trainOpen h r) s
      (planMove (setJob s ((freeJob s).getD 1) (openedJob s h r)) (transferNs r.bytes)) h 0x12 := by
    apply accepts_of
    · show execTrainOpen h r s = _
      simp only [execTrainOpen, hc, himg, if_true]
      rfl
    · exact ⟨rfl, rfl, rfl, rfl⟩
  have hp := ((within_setJob s ((freeJob s).getD 1) (openedJob s h r)).preparedJob (by simp) (by simp)).trans
    (prepared_tt (within_planMove _ (transferNs r.bytes)))
  refine runs_of_settle hexec ⟨hp.opened hr hy, ⟨((freeJob s).getD 1, openedJob s h r), ?_, rfl, rfl, rfl⟩,
    hp.frame_accept hr hy (by simp) (by simp)⟩
  rw [settled_pann, accept_pann (hp.hasRoom hr hy)]
  exact self_mem_storeInsert _ _ _

theorem trainCheckpoint_opens (hr : roomFor s h) (r : TrainCkptRec) (hc : ckptChecks s h r = none) :
    Runs (.trainCheckpoint h r) s fun v =>
      Opened s v h 0x14 ∧ Frame [.rep, .serve, .tt] (eventFlds ++ [.SERVE_ACCEPTED]) s v := by
  obtain ⟨n, y, hy, hexec⟩ : ∃ n, Accepts (.trainCheckpoint h r) s (planMove s n) h 0x14 := by
    refine ⟨transferNs (80 + ((jobOf s r.slotBits).map (fun e => ckptBytes s e.2)).getD 0), ?_⟩
    apply accepts_of
    · show execTrainCheckpoint h r s = _
      simp only [execTrainCheckpoint, hc]
      rfl
    · exact ⟨rfl, rfl, rfl, rfl⟩
  have hp : Prepared [.tt] [] s (planMove s n) := prepared_tt (within_planMove s n)
  exact runs_of_settle hexec ⟨hp.opened hr hy, hp.frame_accept hr hy (by simp) (by simp)⟩

end Sys2Proof.Machine
end

section
/-! O43: micro-steps, the end of a job, reports and key pairs; and the obligation. -/

namespace Sys2Proof.Machine

variable {s : State} {h : ReqHead}

/-! TRAIN_STEP -/

/-- What a micro-step asks of the timetable (R241). -/
abbrev stepAsk (s : State) (h : ReqHead) (r : TrainStepRec) : Ask :=
  ⟨h.ctx, h.idx, r.model, 0, 0, 0, r.tokenCount, 0, rd s .CTX_STATE_CLASS h.ctx == 1⟩

/-- Whether a micro-step closes its job's cycle. -/
abbrev stepCloses (s : State) (r : TrainStepRec) : Bool :=
  ((jobOf s r.slotBits).map (fun e => decide (e.2.rc.accum ≤ e.2.counted + 1))).getD false

/-- The item of a micro-step with a plan. -/
def stepItem (s : State) (h : ReqHead) (r : TrainStepRec) (d : Nat) : Item :=
  { newItem s h 0x13 with
    slot := some r.slotBits, model := r.model, data := [0, 0, r.resultAddr], deadline := d, promptDone := r.tokenCount }

theorem itemOf_stepItem (s : State) (h : ReqHead) (r : TrainStepRec) (d : Nat) : ItemOf h 0x13 (stepItem s h r d) :=
  ⟨rfl, rfl, rfl, rfl⟩

/-- The state in which a micro-step's item is open, its data read and found good (R240). -/
def stepOpened (s : State) (h : ReqHead) (r : TrainStepRec) (plan : List PStep) (d : Nat) (lens toks : List Nat) : State :=
  setItem (accept (adopt s plan) (stepItem s h r d)) { stepItem s h r d with data := [0, countedOf lens toks, r.resultAddr] }

theorem exec_trainStep_planned {r : TrainStepRec} {plan : List PStep} {d : Nat} {lens toks : List Nat} (hr : roomFor s h)
    (hc : stepChecks s h r = none) (htok : r.tokenCount ≠ 0)
    (hplan : firstTrial s (stepAsk s h r) s.serve.lastTick 0 (trainTrials s (stepAsk s h r) (stepCloses s r)) 0 = .ok (plan, d))
    (hdata : r.data = some (lens, toks))
    (hok : trainDataOk (((modelAt s r.model).map (fun m => m.header.vocab)).getD 0) r.tokenCount lens toks = true)
    (ht : toks.length = r.tokenCount) (hl : lens.length = r.seqCount) :
    exec (.trainStep h r) s = settle s (stepOpened s h r plan d lens toks) := by
  have hp : Prepared [.tt] [] s (adopt s plan) := prepared_tt (within_adopt s plan)
  have hy := itemOf_stepItem s h r d
  have hitem : itemAt (accept (adopt s plan) (stepItem s h r d)) h.ctx h.idx = some (stepItem s h r d) := hp.itemAt_accept hr hy
  have hmodel : modelAt (accept (adopt s plan) (stepItem s h r d)) r.model = modelAt s r.model :=
    modelAt_accept (hp.hasRoom hr hy) r.model
  have hgood : (trainDataOk (((modelAt (accept (adopt s plan) (stepItem s h r d)) r.model).map (fun m => m.header.vocab)).getD 0)
      r.tokenCount lens toks && toks.length == r.tokenCount && lens.length == r.seqCount) = true := by
    rw [hmodel, hok]
    simp [ht, hl]
  show execTrainStep h r s = _
  unfold execTrainStep
  rw [hc]
  dsimp only
  rw [if_neg htok, hplan]
  dsimp only
  rw [← stepItem, hitem, hdata]
  dsimp only
  rw [if_pos hgood]
  rfl

theorem trainStep_opens (hr : roomFor s h) (r : TrainStepRec) (plan : List PStep) (d : Nat) (lens toks : List Nat)
    (hc : stepChecks s h r = none) (htok : r.tokenCount ≠ 0)
    (hplan : firstTrial s (stepAsk s h r) s.serve.lastTick 0 (trainTrials s (stepAsk s h r) (stepCloses s r)) 0 = .ok (plan, d))
    (hdata : r.data = some (lens, toks))
    (hok : trainDataOk (((modelAt s r.model).map (fun m => m.header.vocab)).getD 0) r.tokenCount lens toks = true)
    (ht : toks.length = r.tokenCount) (hl : lens.length = r.seqCount) : Runs (.trainStep h r) s fun v =>
      Opened s v h 0x13 ∧ v.tt.plan = plan ∧ Frame [.rep, .serve, .tt] (eventFlds ++ [.SERVE_ACCEPTED]) s v := by
  have hp : Prepared [.tt] [] s (adopt s plan) := prepared_tt (within_adopt s plan)
  have hy := itemOf_stepItem s h r d
  have hacc : Within [.rep, .serve, .tt] (eventFlds ++ [.SERVE_ACCEPTED]) s (accept (adopt s plan) (stepItem s h r d)) :=
    hp.within_accept hr hy (by simp) (by simp)
  have htt : (accept (adopt s plan) (stepItem s h r d)).tt = (adopt s plan).tt :=
    (within_accept (hp.hasRoom hr hy)).parts .tt (by simp)
  have hitem : itemAt (stepOpened s h r plan d lens toks) h.ctx h.idx =
      some { stepItem s h r d with data := [0, countedOf lens toks, r.resultAddr] } :=
    itemAt_setItem_same (y := { stepItem s h r d with data := [0, countedOf lens toks, r.resultAddr] })
      (List.mem_of_find?_eq_some (hp.itemAt_accept hr hy)) ⟨rfl, rfl⟩
  refine runs_of_settle (exec_trainStep_planned hr hc htok hplan hdata hok ht hl) ⟨⟨⟨_, hitem, rfl, rfl⟩, ?_⟩, ?_, ?_⟩
  · rw [rd_settled_other _ _ _ _ (by simp [viewFlds])]
    exact hp.counted_accept hr hy
  · exact congrArg Timetable.plan htt
  · exact (hacc.trans ((within_setItem _ _).mono (by simp) (by simp))).settled

/-! TRAIN_CLOSE -/

theorem readByte_congr {s t : State} (hm : t.mem = s.mem) (a : Nat) : readByte t a = readByte s a := by
  rw [readByte, lineValid, hm, ← lineValid, ← readByte]

/-- A run of bytes that is zeroed leaves every byte outside it. -/
theorem bytesKept_zeroRange (s : State) (a n : Nat) : BytesKept a n s (zeroRange s a n) := by
  intro b hb
  have hout : (!(decide (a ≤ b) && decide (b < a + n))) = true := by
    simp only [Bool.not_eq_true', Bool.and_eq_false_iff, decide_eq_false_iff_not]
    omega
  have hbyte : storeGet (0 : Byte) (zeroRange s a n).mem.bytes b = storeGet 0 s.mem.bytes b := by
    simp only [zeroRange, updMem_mem, storeGet_keep, hout, if_true]
  unfold readByte
  rw [hbyte]
  rfl

/-- The end of a job zeroes its workspace and no byte outside it (R246). -/
theorem bytesKept_eraseJob (s : State) (n : Nat) (j : Job) :
    BytesKept ((rd s .TRAIN_WS_BASE j.ws.1 + j.ws.2.1) * 4096) (j.ws.2.2 * 4096) s (eraseJob s n j) :=
  bytesKept_zeroRange s _ _

theorem eraseJob_jobs (s : State) (n : Nat) (j : Job) : ∀ e ∈ (eraseJob s n j).pann.jobs, e.1 ≠ n := by
  intro e he
  have he' : e ∈ storeErase s.pann.jobs n := he
  simp only [storeErase, List.mem_filter, bne_iff_ne] at he'
  exact he'.2

/-- The state in which a TRAIN_CLOSE without PUBLISH is accepted: the job is gone and its slot is being released. -/
abbrev jobClosed (s : State) (h : ReqHead) (slot n : Nat) (j : Job) : State :=
  startRelease (eraseJob s n j) slot (some (h.ctx, h.idx)) false

theorem jobClosed_jobs (s : State) (h : ReqHead) (slot n : Nat) (j : Job) :
    (jobClosed s h slot n j).pann.jobs = (eraseJob s n j).pann.jobs := by
  have hjobs := congrArg Pannier.jobs
    (queueEdit_pann (eraseJob s n j) slot { plannedEntry (eraseJob s n j) slot with st := 4, job := 0 } none)
  exact hjobs

theorem exec_trainClose_release {slot n : Nat} {j : Job} {resv : Bool} (hc : closeChecks s h slot 0 0 resv = none)
    (hj : jobOf s slot = some (n, j)) : Accepts (.trainClose h slot 0 0 resv) s (jobClosed s h slot n j) h 0x15 := by
  have hpub : bitAt 0 0 = false := by decide
  apply accepts_of
  · show execTrainClose h slot 0 0 resv s = _
    simp only [execTrainClose, hc, hj, hpub, Bool.false_eq_true, if_false]
    rfl
  · exact ⟨rfl, rfl, rfl, rfl⟩

theorem trainClose_opens (hr : roomFor s h) (slot : Nat) (resv : Bool) (n : Nat) (j : Job)
    (hc : closeChecks s h slot 0 0 resv = none) (hj : jobOf s slot = some (n, j)) :
    Runs (.trainClose h slot 0 0 resv) s fun v =>
      Opened s v h 0x15 ∧ (∀ e ∈ v.pann.jobs, e.1 ≠ n) ∧ (plannedEntry v slot).st = 4 ∧
      BytesKept ((rd s .TRAIN_WS_BASE j.ws.1 + j.ws.2.1) * 4096) (j.ws.2.2 * 4096) s v ∧
      Frame [.mem, .pann, .rep, .serve, .tt] (eventFlds ++ [.SERVE_ACCEPTED, .TRAIN_JOBS_OPEN]) s v := by
  obtain ⟨y, hy, hexec⟩ := exec_trainClose_release hc hj
  have hrelease := within_startRelease (eraseJob s n j) slot (some (h.ctx, h.idx)) false
  have hp := ((within_eraseJob s n j).preparedJob (by simp) (by simp)).trans (prepared_pann hrelease)
  have hpann := accept_pann (hp.hasRoom hr hy)
  have hkept : (accept (jobClosed s h slot n j) y).mem = (jobClosed s h slot n j).mem :=
    (within_accept (hp.hasRoom hr hy)).parts .mem (by simp)
  have hmem : (jobClosed s h slot n j).mem = (eraseJob s n j).mem := hrelease.parts .mem (by simp)
  refine runs_of_settle hexec ⟨hp.opened hr hy, ?_, plannedEntry_startRelease hpann, fun b hb => ?_,
    hp.frame_accept hr hy (by simp) (by simp)⟩
  · rw [settled_pann, hpann, jobClosed_jobs]
    exact eraseJob_jobs s n j
  · rw [readByte_congr (s := eraseJob s n j) (by rw [settled_mem, hkept, hmem])]
    exact bytesKept_eraseJob s n j b hb

/-! Reports and key pairs -/

/-- A report that is queued opens its item; what made the state ready and the list of reports are all else that differs. -/
theorem queueReport_opens {ps qs : List Part} {fs gs : List Fld} {u : State} {r : SecRec} {op kind key : Nat} {c : Instr}
    (hr : roomFor s h) (hp : Prepared ps fs s u) (hexec : exec c s = settle s (queueReport u h r op kind key))
    (hps : ps ++ [.ctxs, .serve, .rep] ⊆ qs) (hfs : fs ++ (eventFlds ++ [.SERVE_ACCEPTED]) ⊆ gs) : Runs c s fun v =>
      Opened s v h op ∧ v.ctxs = { u.ctxs with reports := u.ctxs.reports ++ [⟨h.ctx, h.idx, kind, r, key⟩] } ∧ Frame qs gs s v := by
  have hy : ItemOf h op { newItem u h op with deadline := reportDeadline u } := ⟨rfl, rfl, rfl, rfl⟩
  have hctxs : (accept u { newItem u h op with deadline := reportDeadline u }).ctxs = u.ctxs :=
    (within_accept (hp.hasRoom hr hy)).parts .ctxs (by simp)
  have hacc : Within qs gs s (accept u { newItem u h op with deadline := reportDeadline u }) :=
    hp.within_accept hr hy (fun _ m => hps (by simp only [List.mem_append, List.mem_cons] at m ⊢; tauto)) hfs
  refine runs_of_settle hexec ⟨⟨⟨_, hp.itemAt_accept hr hy, rfl, rfl⟩, ?_⟩, ?_, ?_⟩
  · rw [rd_settled_other _ _ _ _ (by simp [viewFlds])]
    exact hp.counted_accept hr hy
  · rw [settled_ctxs, queueReport, updCtxs_ctxs, hctxs]
  · exact (hacc.trans ((within_ctxs _ _).mono (fun _ m => hps (by simp_all)) (by simp))).settled

theorem attest_opens (hr : roomFor s h) (r : SecRec) (hc : reportChecks s h r = none) : Runs (.attest h r) s fun v =>
    Opened s v h 0x20 ∧ (∃ j, v.ctxs.reports = s.ctxs.reports ++ [j] ∧ j.ctx = h.ctx ∧ j.idx = h.idx ∧ j.kind = 1) ∧
    Frame [.ctxs, .rep, .serve] (eventFlds ++ [.SERVE_ACCEPTED]) s v := by
  have hexec : exec (.attest h r) s = settle s (queueReport s h r 0x20 1 0) := by
    show execAttest h r s = _
    simp only [execAttest, hc]
  obtain ⟨v, hv, hopen, hctxs, hframe⟩ := queueReport_opens hr (Prepared.refl s) hexec
    (qs := [.ctxs, .rep, .serve]) (gs := eventFlds ++ [.SERVE_ACCEPTED]) (by simp) (by simp)
  exact ⟨v, hv, hopen, ⟨_, congrArg Contexts.reports hctxs, rfl, rfl, rfl⟩, hframe⟩

/-- The state in which a KEY_BEGIN's report is queued: its decapsulation key is pending (R391). -/
abbrev keyHeld (s : State) (h : ReqHead) (r : SecRec) : State :=
  mirrorKeys (updCtxs (takeFree s 256).2 fun x => { x with
    pendingKeys := storeInsert x.pendingKeys (h.ctx * 4 + r.keyIndex) ⟨s.now, (takeFree s 256).1⟩ }) h.ctx

theorem prepared_keyHeld (s : State) (h : ReqHead) (r : SecRec) :
    Prepared ([.free] ++ [.ctxs] ++ []) ([] ++ [] ++ [.CTX_STATE_KEYS, .CTX_STATE_PENDING]) s (keyHeld s h r) :=
  (((within_takeFree s 256).prepared (by simp) (by simp) (by simp)).trans (prepared_updCtxs _ rfl)).trans
    ((within_mirrorKeys _ _).prepared (by simp) (by simp) (by simp [roomFlds]))

theorem keyBegin_opens (hr : roomFor s h) (r : SecRec) (hc : reportChecks s h r = none) (hflags : r.flags = 0) :
    Runs (.keyBegin h r) s fun v =>
      Opened s v h 0x21 ∧ (∃ j, v.ctxs.reports = s.ctxs.reports ++ [j] ∧ j.ctx = h.ctx ∧ j.idx = h.idx ∧ j.kind = 2) ∧
      (∃ k, storeFind v.ctxs.pendingKeys (h.ctx * 4 + r.keyIndex) = some k ∧ k.time = s.now) ∧
      Frame [.ctxs, .free, .rep, .serve] (eventFlds ++ [.SERVE_ACCEPTED, .CTX_STATE_KEYS, .CTX_STATE_PENDING]) s v := by
  have hexec : exec (.keyBegin h r) s = settle s (queueReport (keyHeld s h r) h r 0x21 2 (takeFree s 256).1) := by
    show execKeyBegin h r s = _
    simp only [execKeyBegin, beginChecks, hflags, if_true, hc]
    rfl
  obtain ⟨v, hv, hopen, hctxs, hframe⟩ := queueReport_opens hr (prepared_keyHeld s h r) hexec
    (qs := [.ctxs, .free, .rep, .serve])
    (gs := eventFlds ++ [.SERVE_ACCEPTED, .CTX_STATE_KEYS, .CTX_STATE_PENDING]) (by simp) (by simp)
  refine ⟨v, hv, hopen, ⟨_, congrArg Contexts.reports hctxs, rfl, rfl, rfl⟩, ⟨⟨s.now, (takeFree s 256).1⟩, ?_, rfl⟩, hframe⟩
  rw [hctxs]
  exact storeFind_insert_same _ _ _

/-- Settles O43: the checks of each record give the state in which its item is accepted (`Accepts`); with room for the ACCEPTED
record (R209) the acceptance lists and counts the item and touches the event queue alone (`Prepared.opened`,
`Prepared.frame_accept`), so that what was begun before it stands. -/
theorem acceptedRecordsOpenItems : Obligations.AcceptedRecordsOpenItems := by
  intro s h hr
  exact ⟨generate_opens, fun resv x hc hx => ⟨cancel_opens hr resv x hc hx, close_open_opens hr resv x hc hx⟩, close_idle_opens hr,
    loadBundle_opens hr, unloadBundle_opens hr, adapterLoad_opens hr, adapterRelease_opens hr, trainOpen_opens hr,
    trainStep_opens hr, trainCheckpoint_opens hr, trainClose_opens hr,
    fun r hc => ⟨attest_opens hr r hc, keyBegin_opens hr r hc⟩⟩

end Sys2Proof.Machine
end

section
/-! O50 fails, at a write of 4 bytes across two registers. -/

namespace Sys2Proof.Machine

theorem exec_registerWrite (s : State) (src : Src) (tg : Target) (width v : Nat) (hw : width = 4 ∨ width = 8) :
    exec (.registerWrite src tg width v) s =
      .next (settled s (reservedCmd (regWrite s src tg width v) src tg width v)) := by
  show execRegisterWrite src tg width v s = _
  rw [execRegisterWrite, if_pos hw]
  rfl

/-- After reset, with context 1 of the confidential class; the profile of hub 0 is of context 0, which is not. -/
def confidentialCtx1 : State := wr State.reset .CTX_STATE_CLASS 1 1

/-- The four bytes from the byte of DBG_PROF_CTRL.CTX of hub 0 to the first byte of DBG_PROF_CARD. -/
def ctxToCard : Target := .pf 0xFF00001301

/-- 1 for CTX, 0xAB for the first byte of CARD. -/
def ctx1AndCard : Nat := 0xAB000001

/-- What the write of the hub's own control core leaves, before the views are settled. -/
def afterCtxToCard : State :=
  reservedCmd (regWrite confidentialCtx1 (.core 0) ctxToCard 4 ctx1AndCard) (.core 0) ctxToCard 4 ctx1AndCard

theorem plainTarget_ctxToCard : plainTarget confidentialCtx1 ctxToCard 4 := by
  have hwing : targetAt ctxToCard .wing = none := by decide
  have hhub : targetAt ctxToCard .hub = some (0, 0x1301) := by decide
  have hvest : targetAt ctxToCard .vest = none := by decide
  refine ⟨by decide +kernel, by decide, fun w o h => ?_, fun k o h => ?_, fun b a h => ?_⟩
  · rw [hwing] at h; cases h
  · rw [hhub] at h; cases h; decide
  · rw [hvest] at h; cases h

theorem covers_card : covers confidentialCtx1 ctxToCard 4 .DBG_PROF_CARD 0 0x1301 0x1304 := ⟨0, by decide, by decide +kernel⟩

/-- By the state before the write nothing locks CARD, and Table 0-3 gives it the byte written. -/
theorem writtenValue_card : writtenValue confidentialCtx1 (.core 0) .DBG_PROF_CARD 0 0x1304 0x1301 4 ctx1AndCard = 0xAB := by
  decide +kernel

/-- The write reaches CTX first, and a confidential context's profile is then locked against the hub's core (R461). -/
theorem rd_card_afterCtxToCard : rd afterCtxToCard .DBG_PROF_CARD 0 = 0 := by decide +kernel

/-- Refutes O50: the general clause says that a 4-byte write gives DBG_PROF_CARD the value that the state before it gives. The
clause leaves out the 8-byte write that covers DBG_PROF_CTRL.CTX too, but a 4-byte write at offset 0x1301, which is not aligned
and acts on the bytes it overlaps (assumption 5), covers both as well: hub 0's control core names the confidential context 1 in
CTX, which locks CARD before its byte is written, so that CARD keeps 0 where the clause has 0xAB. -/
theorem not_registerWritesRun : ¬ Obligations.RegisterWritesRun := by
  intro h
  obtain ⟨-, -, -, -, hplain, -⟩ := h confidentialCtx1 (.core 0) ctx1AndCard
  obtain ⟨t, hexec, hcard, -⟩ := hplain ctxToCard 4 (Or.inl rfl) plainTarget_ctxToCard
  have hwritten := hcard .DBG_PROF_CARD 0 0x1301 0x1304 (by decide) covers_card rfl rfl
  have hrun := exec_registerWrite confidentialCtx1 (.core 0) ctxToCard 4 ctx1AndCard (Or.inl rfl)
  obtain rfl := Host.Outcome.next.inj (hrun.symm.trans hexec)
  rw [rd_settled_other _ _ _ _ (by decide), ← afterCtxToCard, rd_card_afterCtxToCard, writtenValue_card] at hwritten
  exact absurd hwritten (by decide)

end Sys2Proof.Machine
end

section
/-! Frames that name single registers: which parts of the state and which fields, each at its index, an update changes. -/

namespace Sys2Proof.Machine

/-- At most the parts ps and the registers ex, each a field at an index, differ. -/
structure WithinAt (ps : List Part) (ex : List (Fld × Nat)) (s t : State) : Prop where
  parts : KeptBut ps s t
  regs : ∀ f n, (f, n) ∉ ex → rd t f n = rd s f n

/-- A frame that names no field names no register. -/
theorem Within.toWithinAt {ps : List Part} {s t : State} (h : Within ps [] s t) : WithinAt ps [] s t :=
  ⟨h.parts, fun f n _ => h.regs f n List.not_mem_nil⟩

theorem WithinAt.refl (s : State) : WithinAt [] [] s s := (Within.refl [] [] s).toWithinAt

theorem WithinAt.trans {ps qs : List Part} {ex ey : List (Fld × Nat)} {s t u : State} (h : WithinAt ps ex s t)
    (k : WithinAt qs ey t u) : WithinAt (ps ++ qs) (ex ++ ey) s u :=
  ⟨fun p hp => (h.parts p fun e => hp (List.mem_append_left _ e)).trans (k.parts p fun e => hp (List.mem_append_right _ e)),
    fun f n hf => (k.regs f n fun e => hf (List.mem_append_right _ e)).trans (h.regs f n fun e => hf (List.mem_append_left _ e))⟩

theorem WithinAt.mono {ps qs : List Part} {ex ey : List (Fld × Nat)} {s t : State} (h : WithinAt ps ex s t) (hp : ps ⊆ qs)
    (he : ex ⊆ ey) : WithinAt qs ey s t := ⟨fun p k => h.parts p fun e => k (hp e), fun f n k => h.regs f n fun e => k (he e)⟩

theorem withinAt_wr (s : State) (f : Fld) (n v : Nat) : WithinAt [] [(f, n)] s (wr s f n v) :=
  ⟨(within_wr s f n v).parts, fun g m hg => rd_wr_ne s f g n m v fun e => hg (by simp [e])⟩

/-- What a command leaves as it was, once the views are settled. -/
theorem WithinAt.settled {ps : List Part} {ex : List (Fld × Nat)} {s t : State} (h : WithinAt ps ex s t) :
    KeptBut ps s (settled s t) ∧ RegsKept ex s (settled s t) :=
  ⟨fun p hp => by
    have := h.parts p hp
    cases p <;> exact this,
   fun f n hf hv => (rd_settled_other s t f n hv).trans (h.regs f n hf)⟩

end Sys2Proof.Machine
end

section
/-! O35: flip requests, direct writes of remap slots, the start of a copy and the refresh watchdog. -/

namespace Sys2Proof.Machine

variable {s : State} {src : Src} {c : Instr} {f : Fld} {n : Nat}

/-! Flip requests -/

/-- The boundary that is placed does not depend on a field that is not PLAN_LEAD. -/
theorem wantBoundary_wr_tt (hf : f ≠ .TT_CONFIG_PLAN_LEAD) (v : Nat) : (wantBoundary (wr s f n v)).tt = (wantBoundary s).tt := by
  have hlead : planLead (wr s f n v) = planLead s := by
    unfold planLead
    rw [rd_wr_ne _ _ _ _ _ _ fun e => hf e.1.symm]
  unfold wantBoundary
  rw [hlead]
  show (if (s.tt.run.running || !s.tt.plan.isEmpty) = true then _ else _ : State).tt = _
  split <;> rfl

theorem requestFlip_one (hm : mayWrite s src f n = true) : requestFlip s src f n 1 = wantBoundary (wr s f n 1) := by
  simp [requestFlip, hm]

theorem requestFlip_zero (s : State) (src : Src) (f : Fld) (n : Nat) : requestFlip s src f n 0 = s := by
  simp [requestFlip]

/-- A request by a writer of the field sets it and places a boundary where none is planned (R45, R475). -/
theorem flipReq_runs (hexec : exec c s = settle s (requestFlip s src f n 1)) (hf : f ≠ .TT_CONFIG_PLAN_LEAD) (hv : f ∉ viewFlds)
    (hm : mayWrite s src f n = true) : Runs c s fun v =>
      rd v f n = 1 ∧ v.tt = (wantBoundary s).tt ∧ KeptBut [.tt] s v ∧ RegsKept [(f, n)] s v := by
  rw [requestFlip_one hm] at hexec
  have hw := (within_wantBoundary (wr s f n 1)).toWithinAt
  refine runs_of_settle hexec ⟨?_, wantBoundary_wr_tt hf 1, ((withinAt_wr s f n 1).trans hw).settled⟩
  rw [rd_settled_other _ _ _ _ hv, hw.regs _ _ List.not_mem_nil, rd_wr_same]

/-- A write that nothing comes of. -/
theorem unchanged_runs (hexec : exec c s = settle s s) : Runs c s fun v => KeptBut [] s v ∧ RegsKept [] s v :=
  runs_of_settle hexec (WithinAt.refl s).settled

/-- Writing 0 to a FLIP_REQ has no effect (R45). -/
theorem flipReq_zero_runs (hexec : exec c s = settle s (requestFlip s src f n 0)) :
    Runs c s fun v => KeptBut [] s v ∧ RegsKept [] s v :=
  unchanged_runs (hexec.trans (by rw [requestFlip_zero]))

theorem exec_wingTtFlipReq (hn : n < 4) (v : Nat) :
    exec (.wingTtFlipReq src n v) s = settle s (requestFlip s src .WING_TT_CTRL_FLIP_REQ n v) := by
  show execWingTtFlipReq src n v s = _
  rw [execWingTtFlipReq, if_pos hn]

theorem exec_remapFlipReq (hn : n < 160) (v : Nat) :
    exec (.remapFlipReq src n v) s = settle s (requestFlip s src .HUB_REMAP_CTRL_FLIP_REQ n v) := by
  show execRemapFlipReq src n v s = _
  rw [execRemapFlipReq, if_pos hn]

theorem exec_vecCoefFlipReq (hn : n < 160) (v : Nat) :
    exec (.vecCoefFlipReq src n v) s = settle s (requestFlip s src .VEC_COEF_CTRL_FLIP_REQ n v) := by
  show execVecCoefFlipReq src n v s = _
  rw [execVecCoefFlipReq, if_pos hn]

/-- A write that sets one register, and nothing else. -/
theorem wr_runs {v : Nat} (hexec : exec c s = settle s (wr s f n v)) (hv : f ∉ viewFlds) : Runs c s fun w =>
    rd w f n = v ∧ KeptBut [] s w ∧ RegsKept [(f, n)] s w :=
  runs_of_settle hexec ⟨by rw [rd_settled_other _ _ _ _ hv, rd_wr_same], (withinAt_wr s f n v).settled⟩

/-- A request for the flip of the Spokes' tables is held for their own boundary, not the step's (R340). -/
theorem spokeTtFlipReq_runs (hm : mayWrite s src .SPOKE_TT_CTRL_FLIP_REQ = true) : Runs (.spokeTtFlipReq src 1) s fun v =>
    rd v .SPOKE_TT_CTRL_FLIP_REQ = 1 ∧ KeptBut [] s v ∧ RegsKept [(.SPOKE_TT_CTRL_FLIP_REQ, 0)] s v := by
  refine wr_runs ?_ (by decide)
  show execSpokeTtFlipReq src 1 s = _
  simp [execSpokeTtFlipReq, setFlipReq, hm]

/-! Remap slots -/

theorem bankEntry_settled (s t : State) (bank n : Nat) : bankEntry (settled s t) bank n = bankEntry t bank n := by
  unfold bankEntry
  rw [rd_settled_other _ _ _ _ (by decide), rd_settled_other _ _ _ _ (by decide), rd_settled_other _ _ _ _ (by decide),
    rd_settled_other _ _ _ _ (by decide)]

/-- The registers of a slot in both banks. -/
abbrev slotRegs (n : Nat) : List (Fld × Nat) :=
  [(.HUB_REMAP_B0_SLOT_PHYS_SLOT, n), (.HUB_REMAP_B0_SLOT_VALID, n), (.HUB_REMAP_B1_SLOT_PHYS_SLOT, n), (.HUB_REMAP_B1_SLOT_VALID, n)]

theorem withinAt_setBankEntry (s : State) (bank n v : Nat) : WithinAt [] (slotRegs n) s (setBankEntry s bank n v) := by
  unfold setBankEntry
  split
  · exact ((withinAt_wr s _ _ _).trans (withinAt_wr _ _ _ _)).mono (by simp) (by simp)
  · exact ((withinAt_wr s _ _ _).trans (withinAt_wr _ _ _ _)).mono (by simp) (by simp)

/-- An entry of eight bits reads as it was written. -/
theorem bankEntry_setBankEntry_same (s : State) (bank n : Nat) {v : Nat} (hv : v < 256) :
    bankEntry (setBankEntry s bank n v) bank n = v := by
  have hsplit : v % 128 + 128 * (v / 128 % 2) = v := by omega
  unfold bankEntry setBankEntry
  split <;> simp [rd_wr, hsplit]

theorem bankEntry_setBankEntry_other (s : State) {bank : Nat} (n v : Nat) (hb : bank < 2) :
    bankEntry (setBankEntry s bank n v) (1 - bank) n = bankEntry s (1 - bank) n := by
  obtain rfl | rfl : bank = 0 ∨ bank = 1 := by omega
  · simp [bankEntry, setBankEntry, rd_wr]
  · simp [bankEntry, setBankEntry, rd_wr]

section RemapSlot
variable {hub bank slot value : Nat} (hh : hub < 160) (hb : bank < 2) (hs : slot < 64)
  (hm : mayWrite s src .HUB_REMAP_B0_SLOT_VALID (hub * 64 + slot) = true)
include hh hb hs hm

/-- A writer's write whose operands are in range is dropped, or stored and counted as a load of the bank (R21). -/
theorem exec_remapSlotWrite : exec (.remapSlotWrite src hub bank slot value) s =
    settle s (if bank = rd s .HUB_REMAP_CTRL_ACTIVE_BANK hub ∨ rdb s .HUB_REMAP_CTRL_FLIP_REQ hub then
        wr s .HUB_REMAP_CTRL_WRITE_DROPPED hub 1
      else updTt (setBankEntry s bank (hub * 64 + slot) (value % 256)) fun x =>
        { x with remapWritten := storePut false x.remapWritten (hub * 64 + slot) true }) := by
  have hin : ¬ (160 ≤ hub ∨ 64 ≤ slot ∨ 2 ≤ bank ∨ mayWrite s src .HUB_REMAP_B0_SLOT_VALID (hub * 64 + slot) = false) := by
    rintro (h | h | h | h)
    · omega
    · omega
    · omega
    · exact absurd (hm.symm.trans h) (by decide)
  show execRemapSlotWrite src hub bank slot value s = _
  rw [execRemapSlotWrite, if_neg hin]

theorem remapSlotWrite_dropped (ha : bank = rd s .HUB_REMAP_CTRL_ACTIVE_BANK hub) :
    Runs (.remapSlotWrite src hub bank slot value) s fun v =>
      rd v .HUB_REMAP_CTRL_WRITE_DROPPED hub = 1 ∧ KeptBut [] s v ∧ RegsKept [(.HUB_REMAP_CTRL_WRITE_DROPPED, hub)] s v :=
  wr_runs ((exec_remapSlotWrite hh hb hs hm).trans (by rw [if_pos (Or.inl ha)])) (by decide)

theorem remapSlotWrite_stored (ha : bank ≠ rd s .HUB_REMAP_CTRL_ACTIVE_BANK hub) (hf : rd s .HUB_REMAP_CTRL_FLIP_REQ hub ≠ 1) :
    Runs (.remapSlotWrite src hub bank slot value) s fun v =>
      bankEntry v bank (hub * 64 + slot) = value % 256 ∧ KeptBut [.tt] s v ∧ RegsKept (slotRegs (hub * 64 + slot)) s v ∧
      bankEntry v (1 - bank) (hub * 64 + slot) = bankEntry s (1 - bank) (hub * 64 + slot) := by
  have hopen : ¬ (bank = rd s .HUB_REMAP_CTRL_ACTIVE_BANK hub ∨ rdb s .HUB_REMAP_CTRL_FLIP_REQ hub = true) := by
    simp [rdb_eq, ha, hf]
  have hw := withinAt_setBankEntry s bank (hub * 64 + slot) (value % 256)
  obtain ⟨hparts, hregs⟩ := (hw.trans (within_tt _ _).toWithinAt).settled
  refine runs_of_settle ((exec_remapSlotWrite hh hb hs hm).trans (by rw [if_neg hopen])) ⟨?_, hparts, hregs, ?_⟩
  · rw [bankEntry_settled]
    exact bankEntry_setBankEntry_same s bank _ (Nat.mod_lt _ (by decide))
  · rw [bankEntry_settled]
    exact bankEntry_setBankEntry_other s _ _ hb

end RemapSlot

/-! The start of a copy -/

/-- The state in which a copy runs and no wing's inactive bank is READY. -/
abbrev copyBegun (s : State) : State := wr (wr s .PANNIER_CTRL_COPY_BUSY 0 1) .PANNIER_CTRL_READY 0 0

/-- What the start of a copy leaves: windows of the running step serve it, or a step is planned for it. -/
abbrev copyPlanned (s : State) : State := if s.tt.run.running then copyBegun s else planMove (copyBegun s) 2000

theorem within_copyPlanned (s : State) : Within [.tt] [] (copyBegun s) (copyPlanned s) := by
  unfold copyPlanned
  split
  · exact Within.refl _ _ _
  · exact within_planMove _ _

theorem exec_pannierCopyStart (hw : pannierWriter s src = true) (hf : rd s .PANNIER_CTRL_FLIP_REQ ≠ 1)
    (hb : rd s .PANNIER_CTRL_COPY_BUSY ≠ 1) : exec (.pannierCopyStart src) s = settle s (copyPlanned s) := by
  show execPannierCopyStart src s = _
  rw [execPannierCopyStart, if_pos hw, if_neg (by simp [rdb_eq, hf, hb])]
  rfl

theorem pannierCopyStart_runs (hw : pannierWriter s src = true) (hf : rd s .PANNIER_CTRL_FLIP_REQ ≠ 1)
    (hb : rd s .PANNIER_CTRL_COPY_BUSY ≠ 1) : Runs (.pannierCopyStart src) s fun v =>
      rd v .PANNIER_CTRL_COPY_BUSY = 1 ∧ rd v .PANNIER_CTRL_READY = 0 ∧ (s.tt.run.running = true → v.tt = s.tt) ∧
      KeptBut [.tt] s v ∧ RegsKept [(.PANNIER_CTRL_COPY_BUSY, 0), (.PANNIER_CTRL_READY, 0)] s v := by
  have hplan := (within_copyPlanned s).toWithinAt
  have hall := ((withinAt_wr s .PANNIER_CTRL_COPY_BUSY 0 1).trans (withinAt_wr _ .PANNIER_CTRL_READY 0 0)).trans hplan
  refine runs_of_settle (exec_pannierCopyStart hw hf hb) ⟨?_, ?_, fun hrun => ?_, hall.settled⟩
  · rw [rd_settled_other _ _ _ _ (by decide), hplan.regs _ _ List.not_mem_nil]
    simp [rd_wr]
  · rw [rd_settled_other _ _ _ _ (by decide), hplan.regs _ _ List.not_mem_nil, rd_wr_same]
  · rw [settled_tt, copyPlanned, if_pos hrun]
    rfl

/-! The refresh watchdog -/

/-- The watchdog of a channel reads `slots`. -/
abbrev aged (s : State) (chan slots : Nat) : State :=
  updTt s fun x => { x with refreshAge := storePut 0 x.refreshAge chan slots }

theorem withinAt_tick_aged (s : State) (t chan slots : Nat) : WithinAt [.now, .tt] [] s (aged (tick s t) chan slots) :=
  (within_tick s t).toWithinAt.trans (within_tt _ _).toWithinAt

/-- The limit is 20 slots in a hot wing and 40 else (R49). -/
theorem refreshLimit_bounds (b : Bool) : 20 ≤ (if b then 20 else 40) ∧ (if b then 20 else 40) ≤ 40 := by
  cases b <;> decide

theorem refreshWatchdog_forced {t chan slots : Nat} (hc : chan < 384) (hl : 40 ≤ slots) : Runs (.refreshWatchdog t chan slots) s fun v =>
    rd v .WING_TT_REFRESH_FORCED (chan / 96) = rd (inc s .WING_TT_REFRESH_FORCED (chan / 96)) .WING_TT_REFRESH_FORCED (chan / 96) ∧
    storeGet 0 v.tt.refreshAge chan = 0 ∧ KeptBut [.now, .tt] s v ∧ RegsKept [(.WING_TT_REFRESH_FORCED, chan / 96)] s v := by
  have hexec : exec (.refreshWatchdog t chan slots) s =
      settle s (inc (aged (tick s t) chan 0) .WING_TT_REFRESH_FORCED (chan / 96)) := by
    have hlim := refreshLimit_bounds (rdb (tick s t) .WING_TT_CTRL_HOT_REFRESH (chan / 96))
    show execRefreshWatchdog t chan slots s = _
    rw [execRefreshWatchdog, if_neg (by omega), if_pos (by omega)]
  refine runs_of_settle hexec ⟨?_, ?_, ((withinAt_tick_aged s t chan 0).trans (withinAt_wr _ _ _ _)).settled⟩
  · rw [rd_settled_other _ _ _ _ (by decide)]
    simp [rd_inc]
  · exact storeGet_put_same 0 s.tt.refreshAge chan 0

theorem refreshWatchdog_waits {t chan slots : Nat} (hc : chan < 384) (hl : slots < 20) : Runs (.refreshWatchdog t chan slots) s fun v =>
    storeGet 0 v.tt.refreshAge chan = slots ∧ KeptBut [.now, .tt] s v ∧ RegsKept [] s v := by
  have hexec : exec (.refreshWatchdog t chan slots) s = settle s (aged (tick s t) chan slots) := by
    have hlim := refreshLimit_bounds (rdb (tick s t) .WING_TT_CTRL_HOT_REFRESH (chan / 96))
    show execRefreshWatchdog t chan slots s = _
    rw [execRefreshWatchdog, if_neg (by omega), if_neg (by omega)]
  exact runs_of_settle hexec ⟨storeGet_put_same 0 s.tt.refreshAge chan slots, (withinAt_tick_aged s t chan slots).settled⟩

end Sys2Proof.Machine
end

section
/-! O35: what a copy of HBM ranges leaves, and the Pannier's copy of the active bank into the inactive one. -/

namespace Sys2Proof.Machine

/-! Bytes outside on-chip storage -/

theorem readByte_of_offChip {a : Nat} (h : a < pantryBase) (s : State) :
    readByte s a = (storeGet (0 : Byte) s.mem.bytes a).toNat := by
  have hoff : onChip a = false := decide_eq_false fun e => absurd e.1 (by omega)
  simp [readByte, hoff]

theorem readByte_of_bytes {s t : State} {a : Nat} (hvalid : t.mem.valid = s.mem.valid)
    (hbyte : storeGet (0 : Byte) t.mem.bytes a = storeGet 0 s.mem.bytes a) : readByte t a = readByte s a := by
  unfold readByte lineValid
  rw [hvalid, hbyte]

/-! Entries laid down elsewhere -/

/-- The entries of l, at keys from src on, laid over m at the same places from dst on. -/
abbrev layAt (src dst : Nat) (l m : Store Byte) : Store Byte :=
  l.foldl (fun m e => storePut (0 : Byte) m (dst + (e.1 - src)) e.2) m

theorem storeGet_layAt_outside {src dst k : Nat} (l m : Store Byte) (h : ∀ e ∈ l, dst + (e.1 - src) ≠ k) :
    storeGet 0 (layAt src dst l m) k = storeGet 0 m k := by
  induction l generalizing m with
  | nil => rfl
  | cons e r ih =>
    obtain ⟨he, hr⟩ := List.forall_mem_cons.mp h
    calc storeGet 0 (layAt src dst r (storePut 0 m (dst + (e.1 - src)) e.2)) k
        = storeGet 0 (storePut 0 m (dst + (e.1 - src)) e.2) k := ih _ hr
      _ = storeGet 0 m k := storeGet_put_other _ _ _ _ he.symm

theorem storeFind_eq_none {α : Type} {m : Store α} {k : Nat} (h : ∀ e ∈ m, e.1 ≠ k) : storeFind m k = none := by
  induction m with
  | nil => rfl
  | cons e r ih =>
    obtain ⟨he, hr⟩ := List.forall_mem_cons.mp h
    simp [storeFind, he.symm, ih hr]

/-- Keys that rise stay apart, so that each place holds what its own entry says. -/
theorem storeGet_layAt_inside {src dst i : Nat} (l m : Store Byte) (hsort : l.Pairwise fun a b => a.1 < b.1)
    (hsrc : ∀ e ∈ l, src ≤ e.1) :
    storeGet 0 (layAt src dst l m) (dst + i) = (storeFind l (src + i)).getD (storeGet 0 m (dst + i)) := by
  induction l generalizing m with
  | nil => rfl
  | cons e r ih =>
    obtain ⟨k, v⟩ := e
    obtain ⟨hk, hr⟩ := List.forall_mem_cons.mp hsrc
    obtain ⟨hlt, hsort⟩ := List.pairwise_cons.mp hsort
    have hstep : storeGet 0 (layAt src dst ((k, v) :: r) m) (dst + i) =
        (storeFind r (src + i)).getD (storeGet 0 (storePut 0 m (dst + (k - src)) v) (dst + i)) := ih _ hsort hr
    rw [hstep]
    by_cases hki : src + i = k
    · subst hki
      have hnone : storeFind r (src + i) = none := storeFind_eq_none fun e he => by have := hlt e he; dsimp only at this; omega
      simp [hnone, storeFind]
    · have hplace : dst + i ≠ dst + (k - src) := by dsimp only at hk; omega
      simp [storeFind, hki, storeGet_put_other _ _ _ _ hplace]

/-! Copies of ranges -/

theorem copyRange_bytes (s : State) (src dst n : Nat) : (copyRange s src dst n).mem.bytes =
    layAt src dst (storeKeep (fun k => decide (src ≤ k ∧ k < src + n)) s.mem.bytes)
      (storeKeep (fun k => decide (k < dst) || decide (dst + n ≤ k)) s.mem.bytes) := rfl

/-- A copy leaves every byte outside its destination. -/
theorem bytesKept_copyRange (s : State) (src dst n : Nat) : BytesKept dst n s (copyRange s src dst n) := by
  intro b hb
  refine readByte_of_bytes rfl ?_
  rw [copyRange_bytes, storeGet_layAt_outside _ _ fun e he => ?_, storeGet_keep, if_pos (by simpa using hb)]
  have hin := (List.mem_filter.mp he).2
  simp only [decide_eq_true_eq] at hin
  omega

/-- A copy of HBM gives each byte of its destination the one at its place in the source. -/
theorem readByte_copyRange {s : State} {src dst n i : Nat} (hwf : s.mem.wf) (hi : i < n) (hsrc : src + n ≤ pantryBase)
    (hdst : dst + n ≤ pantryBase) : readByte (copyRange s src dst n) (dst + i) = readByte s (src + i) := by
  have hsort := (storeKeep_wf (fun _ => (0 : Byte)) (fun k => decide (src ≤ k ∧ k < src + n)) s.mem.bytes hwf.1).1
  have hkeys : ∀ e ∈ storeKeep (fun k => decide (src ≤ k ∧ k < src + n)) s.mem.bytes, src ≤ e.1 := fun e he =>
    (of_decide_eq_true (List.mem_filter.mp he).2).1
  have hfrom : decide (src ≤ src + i ∧ src + i < src + n) = true := decide_eq_true ⟨by omega, by omega⟩
  have hcleared : (decide (dst + i < dst) || decide (dst + n ≤ dst + i)) = false :=
    Bool.or_eq_false_iff.mpr ⟨decide_eq_false (by omega), decide_eq_false (by omega)⟩
  rw [readByte_of_offChip (by omega), readByte_of_offChip (by omega), copyRange_bytes, storeGet_layAt_inside _ _ hsort hkeys,
    storeFind_keep, if_pos hfrom, storeGet_keep, hcleared]
  rfl

section Ranges
variable (src dst : Nat → Nat) (n : Nat)

/-- Copies one after the other, each from its own source to its own destination. -/
abbrev copyRanges (l : List Nat) (s : State) : State := each l s fun t w => copyRange t (src w) (dst w) n

theorem readByte_copyRanges_outside (l : List Nat) (s : State) {b : Nat} (h : ∀ w ∈ l, b < dst w ∨ dst w + n ≤ b) :
    readByte (copyRanges src dst n l s) b = readByte s b := by
  induction l generalizing s with
  | nil => rfl
  | cons w r ih =>
    obtain ⟨hw, hr⟩ := List.forall_mem_cons.mp h
    exact (ih _ hr).trans (bytesKept_copyRange s _ _ _ b hw)

/-- Ranges of HBM of which no destination meets a source or another destination. -/
structure RangesApart (l : List Nat) : Prop where
  hbm : ∀ w ∈ l, src w + n ≤ pantryBase ∧ dst w + n ≤ pantryBase
  sources : ∀ w ∈ l, ∀ x ∈ l, src w + n ≤ dst x ∨ dst x + n ≤ src w
  dests : l.Pairwise fun w x => dst w + n ≤ dst x ∨ dst x + n ≤ dst w

theorem readByte_copyRanges {l : List Nat} {s : State} {w i : Nat} (hwf : s.mem.wf) (ha : RangesApart src dst n l) (hw : w ∈ l)
    (hi : i < n) : readByte (copyRanges src dst n l s) (dst w + i) = readByte s (src w + i) := by
  induction l generalizing s with
  | nil => cases hw
  | cons x r ih =>
    obtain ⟨hhbm, hsources, hdests⟩ := ha
    obtain ⟨hapart, hdests⟩ := List.pairwise_cons.mp hdests
    have hhead : x ∈ x :: r := List.mem_cons_self
    show readByte (copyRanges src dst n r (copyRange s (src x) (dst x) n)) (dst w + i) = _
    rcases List.mem_cons.mp hw with rfl | hr
    · rw [readByte_copyRanges_outside _ _ _ _ _ fun y hy => by have := hapart y hy; omega]
      exact readByte_copyRange hwf hi (hhbm w hhead).1 (hhbm w hhead).2
    · have htail : RangesApart src dst n r := ⟨fun y hy => hhbm y (List.mem_cons_of_mem x hy),
        fun y hy z hz => hsources y (List.mem_cons_of_mem x hy) z (List.mem_cons_of_mem x hz), hdests⟩
      rw [ih (copyRange_wf s _ _ _ hwf) htail hr]
      exact bytesKept_copyRange s _ _ _ _ (by have := hsources w hw x hhead; omega)

end Ranges

/-! The Pannier's copy -/

theorem within_copyRange (s : State) (src dst n : Nat) : Within [.mem] [] s (copyRange s src dst n) := by
  unfold copyRange
  exact within_mem s _

theorem within_copyBank (s : State) : Within [.mem] [] s (copyBank s) := within_each _ (fun t _ => within_copyRange t _ _ _) _ s

/-- The fields that say where the banks lie. -/
abbrev bankFlds : List Fld := [.PANNIER_BANK0_BASE, .PANNIER_BANK1_BASE]

theorem bankBase_congr {s t : State} (h : ∀ f ∈ bankFlds, ∀ n, rd t f n = rd s f n) : bankBase t = bankBase s := by
  funext bank wing
  unfold bankBase
  split
  · rw [h _ (by simp)]
  · rw [h _ (by simp)]

theorem WithinAt.bankBase {ps : List Part} {ex : List (Fld × Nat)} {s t : State} (h : WithinAt ps ex s t)
    (hex : ∀ e ∈ ex, e.1 ∉ bankFlds) : bankBase t = bankBase s :=
  bankBase_congr fun f hf n => h.regs f n fun he => hex _ he hf

theorem bankBase_settled (s t : State) : bankBase (settled s t) = bankBase t :=
  bankBase_congr fun f hf n => rd_settled_other s t f n (by revert f; decide)

theorem readBytes_congr {s t : State} (hmem : t.mem = s.mem) (a n : Nat) : readBytes t a n = readBytes s a n := by
  simp only [readBytes, readByte_congr hmem]

theorem pannierEntry_congr {s t : State} (hbase : bankBase t = bankBase s) (hmem : t.mem = s.mem) (bank wing slot : Nat) :
    pannierEntry t bank wing slot = pannierEntry s bank wing slot := by
  simp only [pannierEntry, entryAddr, hbase, readBytes_congr hmem]

/-- The copies move no bank register, so that they are from and to where the banks lay at first. -/
theorem each_copyRange_banks {s : State} (a n : Nat) (l : List Nat) (t : State) (h : bankBase t = bankBase s) :
    each l t (fun t w => copyRange t (bankBase t a w) (bankBase t (1 - a) w) n) =
      copyRanges (bankBase s a) (bankBase s (1 - a)) n l t := by
  induction l generalizing t with
  | nil => simp only [copyRanges, each, List.foldl_nil]
  | cons w r ih =>
    have hstep := ih _ ((within_copyRange t (bankBase t a w) (bankBase t (1 - a) w) n).toWithinAt.bankBase (by simp) |>.trans h)
    rw [h] at hstep
    show each r (copyRange t (bankBase t a w) (bankBase t (1 - a) w) n) _ = _
    rw [h]
    exact hstep

theorem copyBank_eq_copyRanges (s : State) : copyBank s =
    copyRanges (bankBase s (rd s .PANNIER_CTRL_ACTIVE_BANK)) (bankBase s (1 - rd s .PANNIER_CTRL_ACTIVE_BANK)) 0x100000 (List.range 4) s := by
  unfold copyBank
  exact each_copyRange_banks _ _ _ s rfl

/-- The eight banks lie in HBM, apart from each other. -/
structure BanksApart (s : State) : Prop where
  hbm : ∀ b w, b < 2 → w < 4 → bankBase s b w + 0x100000 ≤ pantryBase
  apart : ∀ b w b' w', b < 2 → w < 4 → b' < 2 → w' < 4 → (b, w) ≠ (b', w') →
    bankBase s b w + 0x100000 ≤ bankBase s b' w' ∨ bankBase s b' w' + 0x100000 ≤ bankBase s b w

theorem bankInHbm {a : Nat} (h : isHbm (a + 0xFFFFF) = true) : a + 0x100000 ≤ pantryBase := by
  have hlt : a + 0xFFFFF < pantryBase := of_decide_eq_true h
  omega

section Copy
variable {s : State} (ha : rd s .PANNIER_CTRL_ACTIVE_BANK < 2) (hwf : s.mem.wf) (hb : BanksApart s)
include ha hb

theorem BanksApart.rangesApart : RangesApart (bankBase s (rd s .PANNIER_CTRL_ACTIVE_BANK))
    (bankBase s (1 - rd s .PANNIER_CTRL_ACTIVE_BANK)) 0x100000 (List.range 4) where
  hbm w hw := ⟨hb.hbm _ w ha (List.mem_range.mp hw), hb.hbm _ w (by omega) (List.mem_range.mp hw)⟩
  sources w hw x hx := hb.apart _ w _ x ha (List.mem_range.mp hw) (by omega) (List.mem_range.mp hx) fun e => by
    have := congrArg Prod.fst e
    dsimp only at this
    omega
  dests := (List.pairwise_lt_range (n := 4)).imp_of_mem fun {w x} hw hx hlt =>
    hb.apart _ w _ x (by omega) (List.mem_range.mp hw) (by omega) (List.mem_range.mp hx) fun e => by
      have := congrArg Prod.snd e
      dsimp only at this
      omega

/-- The active bank of every wing is as it was. -/
theorem readByte_copyBank_active {w i : Nat} (hw : w < 4) (hi : i < 0x100000) :
    readByte (copyBank s) (bankBase s (rd s .PANNIER_CTRL_ACTIVE_BANK) w + i) =
      readByte s (bankBase s (rd s .PANNIER_CTRL_ACTIVE_BANK) w + i) := by
  rw [copyBank_eq_copyRanges]
  refine readByte_copyRanges_outside _ _ _ _ _ fun x hx => ?_
  have := (hb.rangesApart ha).sources w (List.mem_range.mpr hw) x hx
  omega

include hwf

/-- The inactive bank of every wing holds what the active one held (R228). -/
theorem readByte_copyBank_inactive {w i : Nat} (hw : w < 4) (hi : i < 0x100000) :
    readByte (copyBank s) (bankBase s (1 - rd s .PANNIER_CTRL_ACTIVE_BANK) w + i) =
      readByte s (bankBase s (rd s .PANNIER_CTRL_ACTIVE_BANK) w + i) := by
  rw [copyBank_eq_copyRanges]
  exact readByte_copyRanges _ _ _ hwf (hb.rangesApart ha) (List.mem_range.mpr hw) hi

theorem readByte_copyBank {bank w i : Nat} (hbank : bank < 2) (hw : w < 4) (hi : i < 0x100000) :
    readByte (copyBank s) (bankBase s bank w + i) = readByte s (bankBase s (rd s .PANNIER_CTRL_ACTIVE_BANK) w + i) := by
  obtain rfl | rfl : bank = rd s .PANNIER_CTRL_ACTIVE_BANK ∨ bank = 1 - rd s .PANNIER_CTRL_ACTIVE_BANK := by omega
  · exact readByte_copyBank_active ha hb hw hi
  · exact readByte_copyBank_inactive ha hwf hb hw hi

/-- After a copy both banks of a wing have the entries of the active one. -/
theorem pannierEntry_copyBank {bank wing slot : Nat} (hbank : bank < 2) (hw : wing < 4) (hslot : slot < 16384) :
    pannierEntry (copyBank s) bank wing slot = pannierEntry s (rd s .PANNIER_CTRL_ACTIVE_BANK) wing slot := by
  unfold pannierEntry entryAddr readBytes
  rw [(within_copyBank s).toWithinAt.bankBase (by simp)]
  refine congrArg entryOf (List.map_congr_left fun i hi => ?_)
  have hi := List.mem_range.mp hi
  rw [Nat.add_assoc, Nat.add_assoc]
  exact readByte_copyBank ha hwf hb hbank hw (by omega)

end Copy

theorem exec_pannierCopyDone {s : State} (t : Nat) (hbusy : rd s .PANNIER_CTRL_COPY_BUSY = 1) :
    exec (.pannierCopyDone t) s = settle s (wr (copyBank (tick s t)) .PANNIER_CTRL_COPY_BUSY 0 0) := by
  have hrdb : rdb (tick s t) .PANNIER_CTRL_COPY_BUSY = true := by simp [rdb_eq, hbusy]
  show execPannierCopyDone t s = _
  rw [execPannierCopyDone, if_pos hrdb]

theorem pannierCopyDone_runs {s : State} (t : Nat) (hbusy : rd s .PANNIER_CTRL_COPY_BUSY = 1)
    (ha : rd s .PANNIER_CTRL_ACTIVE_BANK < 2) (hwf : s.mem.wf) (hb : BanksApart s) : Runs (.pannierCopyDone t) s fun v =>
      rd v .PANNIER_CTRL_COPY_BUSY = 0 ∧
      (∀ wing slot, wing < 4 → slot < 16384 → ∀ bank, bank < 2 →
        pannierEntry v bank wing slot = pannierEntry s (rd s .PANNIER_CTRL_ACTIVE_BANK) wing slot) ∧
      KeptBut [.mem, .now] s v ∧ RegsKept [(.PANNIER_CTRL_COPY_BUSY, 0)] s v := by
  have hcopy : Within [.mem, .now] [] s (copyBank (tick s t)) :=
    ((within_tick s t).mono (by simp) (by simp)).trans ((within_copyBank _).mono (by simp) (by simp))
  have hbase : bankBase (settled s (wr (copyBank (tick s t)) .PANNIER_CTRL_COPY_BUSY 0 0)) = bankBase (copyBank (tick s t)) :=
    (bankBase_settled _ _).trans ((withinAt_wr _ _ 0 0).bankBase (by simp))
  refine runs_of_settle (exec_pannierCopyDone t hbusy) ⟨?_, fun wing slot hwing hslot bank hbank => ?_,
    (hcopy.toWithinAt.trans (withinAt_wr _ _ 0 0)).settled⟩
  · rw [rd_settled_other _ _ _ _ (by decide), rd_wr_same]
  · rw [pannierEntry_congr hbase rfl]
    exact pannierEntry_copyBank (s := tick s t) ha hwf ⟨hb.hbm, hb.apart⟩ hbank hwing hslot

end Sys2Proof.Machine
end

section
/-! O35: the write of an entry, which lies within one 4 KiB unit; and the obligation. -/

namespace Sys2Proof.Machine

/-! Writes within one unit -/

theorem granulesOf_unit {a n : Nat} (hn : 0 < n) (hu : (a + n - 1) / 4096 = a / 4096) : granulesOf a n = [a / 4096 * 4096] := by
  simp [granulesOf, hn.ne', hu]

theorem withinAt_bankTouched (s : State) (u : Nat) : WithinAt [] [(.PANNIER_CTRL_READY, 0)] s (bankTouched s u) := by
  unfold bankTouched
  dsimp only
  split
  · exact withinAt_wr s _ _ _
  · exact (WithinAt.refl s).mono (List.nil_subset _) (List.nil_subset _)

theorem bankTouched_mem (s : State) (u : Nat) : (bankTouched s u).mem = s.mem := (withinAt_bankTouched s u).parts .mem (by simp)

/-- What a write leaves that lies in one unit and that nothing drops. -/
abbrev storedInUnit (s : State) (a : Nat) (l : List Nat) : State := writeBytes l a (bankTouched s (a / 4096))

theorem withinAt_storedInUnit (s : State) (a : Nat) (l : List Nat) : WithinAt [.mem] [(.PANNIER_CTRL_READY, 0)] s (storedInUnit s a l) :=
  (withinAt_bankTouched s _).trans (within_writeBytes _ _ _).toWithinAt

section OneUnit
variable {s : State} {a : Nat} {l : List Nat} (hl : 0 < l.length) (hu : (a + l.length - 1) / 4096 = a / 4096)
include hl hu

theorem storeHbm_guarded (hg : bankGuard s (a / 4096) = true) : storeHbm s a l = wr s .PANNIER_CTRL_WRITE_DROPPED 0 1 := by
  simp [storeHbm, granulesOf_unit hl hu, each, hg]

/-- A write within one unit that no bank guards and that holds no poison goes through whole. -/
theorem storeHbm_open (hg : bankGuard s (a / 4096) = false) (hp : a / 4096 ∉ s.mem.poison) :
    storeHbm s a l = storedInUnit s a l := by
  have hclean : poisoned (bankTouched s (a / 4096)) (a / 4096 * 4096) = false := by
    simp [poisoned, bankTouched_mem, hp]
  have hlo : max a (a / 4096 * 4096) = a := by omega
  have hhi : min (a + l.length) (a / 4096 * 4096 + 4096) = a + l.length := by omega
  simp [storeHbm, granulesOf_unit hl hu, each, hg, hclean, hlo, hhi]

end OneUnit

/-- A bit that is set and taken away is clear. -/
theorem bitAt_sub_two_pow {v n : Nat} (h : bitAt v n = true) : bitAt (v - 2 ^ n) n = false := by
  have hodd : v / 2 ^ n % 2 = 1 := by simpa [bitAt] using h
  have hdiv : (v - 2 ^ n) / 2 ^ n = v / 2 ^ n - 1 := by simpa using Nat.sub_mul_div v (2 ^ n) 1
  have heven : (v / 2 ^ n - 1) % 2 = 0 := by omega
  simp [bitAt, hdiv, heven]

theorem hbmWing_unit (a : Nat) : hbmWing (a / 4096 * 4096) = hbmWing a := by
  unfold hbmWing
  omega

/-- A write to a wing's inactive bank clears the wing's READY bit (R227). -/
theorem bankTouched_notReady {s : State} {a : Nat} (hin : inBank s (a / 4096) (1 - rd s .PANNIER_CTRL_ACTIVE_BANK) = true) :
    bitAt (rd (bankTouched s (a / 4096)) .PANNIER_CTRL_READY) (hbmWing a) = false := by
  unfold bankTouched
  dsimp only
  rw [hbmWing_unit, hin, Bool.true_and]
  cases hbit : bitAt (rd s .PANNIER_CTRL_READY) (hbmWing a) with
  | true => simpa using bitAt_sub_two_pow hbit
  | false => simpa using hbit

theorem storedInUnit_notReady {s : State} {a : Nat} (l : List Nat)
    (hin : inBank s (a / 4096) (1 - rd s .PANNIER_CTRL_ACTIVE_BANK) = true) :
    bitAt (rd (storedInUnit s a l) .PANNIER_CTRL_READY) (hbmWing a) = false := by
  rw [(within_writeBytes _ _ _).regs _ _ List.not_mem_nil]
  exact bankTouched_notReady hin

/-! Bytes of an entry -/

theorem leBytes_length (n v : Nat) : (leBytes n v).length = n := by simp [leBytes]

theorem entryBytes_length (e : PEntry) : (entryBytes e).length = 64 := by
  simp [entryBytes, leBytes_length, List.range_succ]

theorem entryBytes_lt (e : PEntry) : ∀ b ∈ entryBytes e, b < 256 := by
  have hmod : ∀ x : Nat, x % 256 < 256 := fun x => Nat.mod_lt x (by decide)
  simp only [entryBytes, leBytes, List.forall_mem_append, List.forall_mem_cons, List.forall_mem_flatten, List.forall_mem_map, hmod,
    implies_true, true_and, and_true]
  decide

theorem entryBytes_pos (e : PEntry) : 0 < (entryBytes e).length := by simp [entryBytes_length]

/-- An entry lies within one unit, since a bank begins with one. -/
theorem entry_unit (s : State) (bank wing slot : Nat) (e : PEntry) :
    (entryAddr s bank wing slot + (entryBytes e).length - 1) / 4096 = entryAddr s bank wing slot / 4096 := by
  rw [entryBytes_length]
  unfold entryAddr bankBase
  omega

/-- Bytes read together as they were written. -/
theorem readBytes_writeBytes (l : List Nat) (a : Nat) (s : State) (hl : ∀ b ∈ l, b < 256) :
    readBytes (writeBytes l a s) a l.length = l := by
  refine List.ext_getElem (by simp [readBytes]) fun i h _ => ?_
  have hi : i < l.length := by simpa [readBytes] using h
  have hbyte := readByte_writeBytes l a s i hi
  rw [List.getD_eq_getElem _ _ hi, Nat.mod_eq_of_lt (hl _ (List.getElem_mem hi))] at hbyte
  simpa [readBytes] using hbyte

theorem pannierEntry_of_readBytes {s v : State} {bank wing slot : Nat} {l : List Nat} (hbase : bankBase v = bankBase s)
    (hread : readBytes v (entryAddr s bank wing slot) 64 = l) : pannierEntry v bank wing slot = entryOf l := by
  rw [pannierEntry, entryAddr, hbase, ← entryAddr, hread]

section EntryWrite
variable {s : State} {wing bank slot : Nat} (e : PEntry) (hw : wing < 4) (hb : bank < 2) (hs : slot < 16384)
include hw hb hs

theorem exec_pannierEntryWrite : exec (.pannierEntryWrite (.core (leadHub s)) wing bank slot e) s =
    settle s (storeHbm s (entryAddr s bank wing slot) (entryBytes e)) := by
  show execPannierEntryWrite (.core (leadHub s)) wing bank slot e s = _
  rw [execPannierEntryWrite, if_neg]
  rintro (h | h | h | h)
  · omega
  · omega
  · omega
  · exact h rfl

/-- What would change a guarded bank is dropped (R226 to R228). -/
theorem pannierEntryWrite_dropped (hg : bankGuard s (entryAddr s bank wing slot / 4096) = true) :
    Runs (.pannierEntryWrite (.core (leadHub s)) wing bank slot e) s fun v =>
      rd v .PANNIER_CTRL_WRITE_DROPPED = 1 ∧ KeptBut [] s v ∧ RegsKept [(.PANNIER_CTRL_WRITE_DROPPED, 0)] s v :=
  wr_runs ((exec_pannierEntryWrite e hw hb hs).trans
    (by rw [storeHbm_guarded (entryBytes_pos e) (entry_unit s bank wing slot e) hg])) (by decide)

theorem pannierEntryWrite_stored (hg : bankGuard s (entryAddr s bank wing slot / 4096) = false)
    (hp : entryAddr s bank wing slot / 4096 ∉ s.mem.poison) :
    Runs (.pannierEntryWrite (.core (leadHub s)) wing bank slot e) s fun v =>
      readBytes v (entryAddr s bank wing slot) 64 = entryBytes e ∧
      (entryOf (entryBytes e) = e → pannierEntry v bank wing slot = e) ∧
      (inBank s (entryAddr s bank wing slot / 4096) (1 - rd s .PANNIER_CTRL_ACTIVE_BANK) = true →
        bitAt (rd v .PANNIER_CTRL_READY) (hbmWing (entryAddr s bank wing slot)) = false) ∧
      BytesKept (entryAddr s bank wing slot) 64 s v ∧ KeptBut [.mem] s v ∧ RegsKept [(.PANNIER_CTRL_READY, 0)] s v := by
  have hexec := exec_pannierEntryWrite (s := s) e hw hb hs
  rw [storeHbm_open (entryBytes_pos e) (entry_unit s bank wing slot e) hg hp] at hexec
  have hwithin := withinAt_storedInUnit s (entryAddr s bank wing slot) (entryBytes e)
  have hbase := (bankBase_settled s _).trans (hwithin.bankBase (by simp))
  have hread := readBytes_writeBytes (entryBytes e) (entryAddr s bank wing slot)
    (bankTouched s (entryAddr s bank wing slot / 4096)) (entryBytes_lt e)
  have hkept := bytesKept_writeBytes (entryBytes e) (entryAddr s bank wing slot) (bankTouched s (entryAddr s bank wing slot / 4096))
  rw [entryBytes_length] at hread hkept
  rw [← readBytes_congr (settled_mem s _)] at hread
  refine runs_of_settle hexec ⟨hread, fun he => ?_, fun hin => ?_, fun b hout => ?_, hwithin.settled⟩
  · rw [pannierEntry_of_readBytes hbase hread, he]
  · rw [rd_settled_other _ _ _ _ (by decide)]
    exact storedInUnit_notReady _ hin
  · rw [readByte_congr (settled_mem s _), hkept b hout, readByte_congr (bankTouched_mem s _)]

end EntryWrite

/-- Only the lead's control core writes entries (R227). -/
theorem pannierEntryWrite_ignored {s : State} {src : Src} (wing bank slot : Nat) (e : PEntry) (h : src ≠ .core (leadHub s)) :
    Runs (.pannierEntryWrite src wing bank slot e) s fun v => KeptBut [] s v ∧ RegsKept [] s v := by
  refine unchanged_runs ?_
  show execPannierEntryWrite src wing bank slot e s = _
  rw [execPannierEntryWrite, if_pos (Or.inr (Or.inr (Or.inr h)))]

/-! The obligation -/

/-- Settles O35: each write by its own lemma; after a copy both banks of a wing hold the active one's entries, since no range that is
written meets one that is read (`pannierEntry_copyBank`). -/
theorem tableWritesRun : Obligations.TableWritesRun := by
  unfold Obligations.TableWritesRun
  refine ⟨?_, fun s src => ⟨?_, spokeTtFlipReq_runs⟩, ?_, ?_, fun s src => pannierCopyStart_runs, ?_, fun s t chan slots hc =>
    ⟨refreshWatchdog_forced hc, refreshWatchdog_waits hc⟩⟩
  · simp only [List.forall_mem_cons, List.not_mem_nil, false_imp_iff, implies_true, and_true]
    refine ⟨fun s src n hn => ⟨?_, ?_⟩, fun s src n hn => ⟨?_, ?_⟩, fun s src n hn => ⟨?_, ?_⟩⟩
    · exact flipReq_runs (exec_wingTtFlipReq hn 1) (by decide) (by decide)
    · exact flipReq_zero_runs (exec_wingTtFlipReq hn 0)
    · exact flipReq_runs (exec_remapFlipReq hn 1) (by decide) (by decide)
    · exact flipReq_zero_runs (exec_remapFlipReq hn 0)
    · exact flipReq_runs (exec_vecCoefFlipReq hn 1) (by decide) (by decide)
    · exact flipReq_zero_runs (exec_vecCoefFlipReq hn 0)
  · exact flipReq_runs rfl (by decide) (by decide)
  · intro s src hub bank slot value n hh hb hs hm
    exact ⟨remapSlotWrite_dropped hh hb hs hm, remapSlotWrite_stored hh hb hs hm⟩
  · intro s wing bank slot e hw hb hs a
    exact ⟨pannierEntryWrite_dropped e hw hb hs, pannierEntryWrite_stored e hw hb hs, fun src =>
      pannierEntryWrite_ignored wing bank slot e⟩
  · intro s t hbusy ha hwf hhbm hapart
    exact pannierCopyDone_runs t hbusy ha hwf ⟨fun b w hb hw => bankInHbm (hhbm b w hb hw), hapart⟩

end Sys2Proof.Machine
end

section
/-! O45: what a plan that a trial adopts has passed (R54). -/

namespace Sys2Proof.Machine

/-- An adopted plan is the one of some trial, and has passed the trial's tests. -/
theorem firstTrial_passes {s : State} {a : Ask} {tA maxFirst : Nat} {x : List PStep × Nat} :
    ∀ {ts : List (Option (List PStep))} {e : Nat}, firstTrial s a tA maxFirst ts e = .ok x →
      ∃ t ∈ ts, trialTest s a tA maxFirst t = .ok x
  | [], _, h => nomatch h
  | t :: r, e, h => by
    unfold firstTrial at h
    split at h
    · next hpass => cases h; exact ⟨t, List.mem_cons_self, hpass⟩
    · obtain ⟨u, hu, hpass⟩ := firstTrial_passes h
      exact ⟨u, List.mem_cons_of_mem _ hu, hpass⟩

/-- The latest of an item's first deliveries in a plan: its first token, or its completion where it has none. -/
def firstDelivery (s : State) (a : Ask) (plan : List PStep) : Nat :=
  (((deliveries s plan).filter fun d => d.ctx == a.ctx && d.idx == a.idx && decide (d.j ≤ 1)).map (·.time)).foldl max 0

/-- A trial that passes has a plan whose steps fit, that harms no delivery and whose first delivery is within the limit. -/
theorem trialTest_passes {s : State} {a : Ask} {tA maxFirst d : Nat} {t : Option (List PStep)} {plan : List PStep}
    (h : trialTest s a tA maxFirst t = .ok (plan, d)) :
    t = some plan ∧ (plan.zip (planSpans s (firstStart s) plan)).any
        (fun e => !stepFits s a.ctx a.idx a.ival (e.2.2 - e.2.1) e.1) = false ∧
      harmed s plan = false ∧ d = firstDelivery s a plan ∧ ¬ (maxFirst ≠ 0 ∧ tA + maxFirst * 1000 < d) := by
  cases t with
  | none => cases h
  | some p =>
    simp only [trialTest] at h
    split at h
    · cases h
    · split at h
      · cases h
      · next hfits =>
        split at h
        · cases h
        · next hharm =>
          split at h
          · cases h
          · next hlimit =>
            cases h
            exact ⟨rfl, Bool.eq_false_iff.mpr hfits, Bool.eq_false_iff.mpr hharm, rfl, hlimit⟩

/-- A plan that harms nothing delivers to an accepted item no later than the current plan does. -/
theorem time_le_of_not_harmed {s : State} {plan : List PStep} (h : harmed s plan = false) {x o : Delivery} {i : Item}
    (hx : x ∈ deliveries s plan)
    (ho : (deliveries s s.tt.plan).find? (fun o => o.ctx == x.ctx && o.idx == x.idx && o.j == x.j) = some o)
    (hi : s.serve.items.find? (fun i => i.ctx == x.ctx && i.idx == x.idx) = some i) : x.time ≤ o.time := by
  have hx' := List.any_eq_false.mp h x hx
  simp only [ho, hi, Bool.or_eq_true, decide_eq_true_eq, not_or, not_lt] at hx'
  exact hx'.1

theorem le_foldl_max_iff {l : List Nat} {b m : Nat} : b ≤ l.foldl max m ↔ b ≤ m ∨ ∃ x ∈ l, b ≤ x := by
  induction l generalizing m with
  | nil => simp
  | cons a r ih => simp [ih, or_assoc]

/-- Settles O45: the plan of an adopted trial has passed every test of the trial (`trialTest_passes`). -/
theorem adoptedPlansKeepPromises : Obligations.AdoptedPlansKeepPromises := by
  intro s a tA maxFirst e ts plan d h
  obtain ⟨t, ht, hpass⟩ := firstTrial_passes h
  obtain ⟨rfl, hfits, hharm, rfl, hlimit⟩ := trialTest_passes hpass
  refine ⟨ht, fun x hx => ?_, fun hmax => ?_, fun x hx o i ho hi => time_le_of_not_harmed hharm hx ho hi,
    fun x hx hctx hidx hj => ?_⟩
  · simpa using List.any_eq_false.mp hfits x hx
  · exact not_lt.mp fun hlt => hlimit ⟨hmax, hlt⟩
  · refine le_foldl_max_iff.mpr (Or.inr ⟨x.time, List.mem_map_of_mem (List.mem_filter.mpr ⟨hx, ?_⟩), le_rfl⟩)
    simp [hctx, hidx, hj]

end Sys2Proof.Machine
end

section
/-! O36: the flip of a wing's tables (R45). -/

namespace Sys2Proof.Machine

/-- What one step of a fold brings about and every step keeps, the fold brings about. -/
theorem each_reach {α : Type} {p : State → Prop} {f : State → α → State} {a : α} (hset : ∀ s, p (f s a))
    (hkeep : ∀ s c, p s → p (f s c)) {l : List α} (ha : a ∈ l) (s : State) : p (each l s f) := by
  induction l generalizing s with
  | nil => cases ha
  | cons c r ih =>
    obtain rfl | hr := List.mem_cons.mp ha
    · exact each_keep f hkeep r _ (hset s)
    · exact ih hr (f s c)

/-- A wing's tables may flip: every hub and the wing hold a load, whose windows meet the refresh rules (R45). -/
def mayFlip (s : State) (w : Nat) : Prop :=
  (∀ i, i < 40 → storeGet false s.tt.ttLoaded (w * 40 + i) = true) ∧
  storeGet false s.tt.ttLoaded (wingTable w) = true ∧
  windowFault (ttBank s (wingTable w) (1 - rd s .WING_TT_CTRL_ACTIVE_BANK w)) = none

/-- A hub's table changes to bank b at generation g. -/
def flipHub (b g : Nat) (s : State) (h : Nat) : State :=
  wr (wr (wr s .HUB_TT_CTRL_ACTIVE_BANK h b) .HUB_TT_CTRL_ACTIVE_GEN h g) .HUB_TT_CTRL_LOAD_DONE h 0

/-- The wing's own registers change to bank b at generation g. -/
def flipWingRegs (s : State) (w b g hot : Nat) : State :=
  wr (wr (wr s .WING_TT_CTRL_ACTIVE_BANK w b) .WING_TT_CTRL_ACTIVE_GEN w g) .WING_TT_CTRL_HOT_REFRESH w hot

/-- The tables of the hubs of a wing change. -/
def flipHubs (s : State) (w b g : Nat) : State := each (List.range 40) s fun t i => flipHub b g t (w * 40 + i)

/-- The loads of a wing's tables are used up, and the flip shows in the trail of its first hub. -/
def endFlip (s : State) (w g : Nat) : State :=
  trail (updTt s fun x => { x with
    ttLoaded := storeKeep (fun t => !(t / 40 == w && decide (t < 160)) && t != wingTable w) x.ttLoaded })
    (hubTrail (w * 40)) 0x21 0 2 g

/-- The state after a flip that every table follows. -/
def flippedWing (s : State) (w : Nat) : State :=
  let b := 1 - rd s .WING_TT_CTRL_ACTIVE_BANK w
  let g := nextGen (rd s .WING_TT_CTRL_ACTIVE_GEN w)
  endFlip (flipHubs (flipWingRegs s w b g (imgByte (ttBank s (wingTable w) b) 5 % 2)) w b g) w g

/-! The two outcomes -/

theorem flipWing_of_mayFlip {s : State} {w : Nat} (h : mayFlip s w) :
    flipWing s w = flippedWing (wr s .WING_TT_CTRL_FLIP_REQ w 0) w := by
  obtain ⟨hhubs, hwing, hwindows⟩ := h
  have hbank : rd (wr s .WING_TT_CTRL_FLIP_REQ w 0) .WING_TT_CTRL_ACTIVE_BANK w = rd s .WING_TT_CTRL_ACTIVE_BANK w :=
    rd_wr_ne _ _ _ _ _ _ (by simp)
  have hnone : (List.range 40).find? (fun i => !storeGet false (wr s .WING_TT_CTRL_FLIP_REQ w 0).tt.ttLoaded (w * 40 + i)) =
      none := by
    refine List.find?_eq_none.mpr fun i hi => ?_
    have := hhubs i (List.mem_range.mp hi)
    simpa using this
  have hwing' : storeGet false (wr s .WING_TT_CTRL_FLIP_REQ w 0).tt.ttLoaded (wingTable w) = true := hwing
  have hwindows' : windowFault (ttBank (wr s .WING_TT_CTRL_FLIP_REQ w 0) (wingTable w)
      (1 - rd (wr s .WING_TT_CTRL_FLIP_REQ w 0) .WING_TT_CTRL_ACTIVE_BANK w)) = none := by rw [hbank]; exact hwindows
  unfold flipWing
  dsimp only
  rw [hnone]
  dsimp only
  rw [if_neg (by simpa using hwing'), hwindows']
  rfl

theorem flipWing_of_not_mayFlip {s : State} {w : Nat} (h : ¬ mayFlip s w) :
    ∃ hub chan why, flipWing s w = rejectWing (wr s .WING_TT_CTRL_FLIP_REQ w 0) w hub chan why := by
  have hbank : rd (wr s .WING_TT_CTRL_FLIP_REQ w 0) .WING_TT_CTRL_ACTIVE_BANK w = rd s .WING_TT_CTRL_ACTIVE_BANK w :=
    rd_wr_ne _ _ _ _ _ _ (by simp)
  unfold flipWing
  dsimp only
  split
  · exact ⟨_, _, _, rfl⟩
  · next hnone =>
    split
    · exact ⟨_, _, _, rfl⟩
    · next hwing =>
      split
      · exact ⟨_, _, _, rfl⟩
      · next hwindows =>
        refine absurd ⟨fun i hi => ?_, by simpa using hwing, by rwa [hbank] at hwindows⟩ h
        simpa using List.find?_eq_none.mp hnone i (List.mem_range.mpr hi)

/-! What each outcome leaves -/

theorem within_flipHub (b g : Nat) (s : State) (h : Nat) :
    Within [] [.HUB_TT_CTRL_ACTIVE_BANK, .HUB_TT_CTRL_ACTIVE_GEN, .HUB_TT_CTRL_LOAD_DONE] s (flipHub b g s h) :=
  ((within_wr s _ _ _).mono (by simp) (by simp)).trans
    (((within_wr _ _ _ _).mono (by simp) (by simp)).trans ((within_wr _ _ _ _).mono (by simp) (by simp)))

theorem within_flipHubs (s : State) (w b g : Nat) :
    Within [] [.HUB_TT_CTRL_ACTIVE_BANK, .HUB_TT_CTRL_ACTIVE_GEN, .HUB_TT_CTRL_LOAD_DONE] s (flipHubs s w b g) :=
  within_each _ (fun t i => within_flipHub b g t (w * 40 + i)) _ _

theorem within_flipWingRegs (s : State) (w b g hot : Nat) :
    Within [] [.WING_TT_CTRL_ACTIVE_BANK, .WING_TT_CTRL_ACTIVE_GEN, .WING_TT_CTRL_HOT_REFRESH] s (flipWingRegs s w b g hot) :=
  ((within_wr s _ _ _).mono (by simp) (by simp)).trans
    (((within_wr _ _ _ _).mono (by simp) (by simp)).trans ((within_wr _ _ _ _).mono (by simp) (by simp)))

theorem within_endFlip (s : State) (w g : Nat) : Within [.tt, .dbg] [] s (endFlip s w g) :=
  ((within_tt s _).mono (by simp) (by simp)).trans ((within_trail _ _ _ _ _ _).mono (by simp) (by simp))

theorem rd_flipHubs {i : Nat} (hi : i < 40) (s : State) (w b g : Nat) :
    rd (flipHubs s w b g) .HUB_TT_CTRL_ACTIVE_BANK (w * 40 + i) = b ∧
    rd (flipHubs s w b g) .HUB_TT_CTRL_ACTIVE_GEN (w * 40 + i) = g := by
  refine each_reach (p := fun t => rd t .HUB_TT_CTRL_ACTIVE_BANK (w * 40 + i) = b ∧ rd t .HUB_TT_CTRL_ACTIVE_GEN (w * 40 + i) = g)
    (a := i) (fun t => by simp [flipHub, rd_wr]) (fun t c ⟨hb, hg⟩ => ?_) (List.mem_range.mpr hi) s
  simp [flipHub, rd_wr, hb, hg]

/-- The fields that a flip of a wing's tables changes. -/
def wingFlipFlds : List Fld :=
  [.WING_TT_CTRL_ACTIVE_BANK, .WING_TT_CTRL_ACTIVE_GEN, .WING_TT_CTRL_HOT_REFRESH, .HUB_TT_CTRL_ACTIVE_BANK, .HUB_TT_CTRL_ACTIVE_GEN,
    .HUB_TT_CTRL_LOAD_DONE]

theorem within_flippedWing (s : State) (w : Nat) : Within [.tt, .dbg] wingFlipFlds s (flippedWing s w) :=
  ((within_flipWingRegs s w _ _ _).mono (by simp) (by simp [wingFlipFlds])).trans
    (((within_flipHubs _ w _ _).mono (by simp) (by simp [wingFlipFlds])).trans ((within_endFlip _ w _).mono (by simp) (by simp)))

theorem trail_tt (s : State) (k code ctx arg16 arg32 : Nat) : (trail s k code ctx arg16 arg32).tt = s.tt :=
  (within_trail s k code ctx arg16 arg32).parts .tt (by simp)

theorem endFlip_ttBanks (s : State) (w g : Nat) : (endFlip s w g).tt.ttBanks = s.tt.ttBanks := by
  rw [endFlip, trail_tt]
  rfl

theorem flippedWing_ttBanks (s : State) (w : Nat) : (flippedWing s w).tt.ttBanks = s.tt.ttBanks :=
  (endFlip_ttBanks _ w _).trans (congrArg Timetable.ttBanks ((within_flipHubs _ w _ _).parts .tt (by simp)))

/-- Every table of the wing is in the other bank at the next generation. -/
theorem rd_flippedWing (s : State) (w : Nat) :
    rd (flippedWing s w) .WING_TT_CTRL_ACTIVE_BANK w = 1 - rd s .WING_TT_CTRL_ACTIVE_BANK w ∧
    rd (flippedWing s w) .WING_TT_CTRL_ACTIVE_GEN w = nextGen (rd s .WING_TT_CTRL_ACTIVE_GEN w) ∧
    ∀ i, i < 40 → rd (flippedWing s w) .HUB_TT_CTRL_ACTIVE_BANK (w * 40 + i) = 1 - rd s .WING_TT_CTRL_ACTIVE_BANK w ∧
      rd (flippedWing s w) .HUB_TT_CTRL_ACTIVE_GEN (w * 40 + i) = nextGen (rd s .WING_TT_CTRL_ACTIVE_GEN w) := by
  unfold flippedWing
  refine ⟨?_, ?_, fun i hi => ?_⟩
  · rw [(within_endFlip _ _ _).regs _ _ (by simp), (within_flipHubs _ _ _ _).regs _ _ (by simp)]
    simp [flipWingRegs, rd_wr]
  · rw [(within_endFlip _ _ _).regs _ _ (by simp), (within_flipHubs _ _ _ _).regs _ _ (by simp)]
    simp [flipWingRegs, rd_wr]
  · rw [(within_endFlip _ _ _).regs _ _ (by simp), (within_endFlip _ _ _).regs _ _ (by simp)]
    exact rd_flipHubs hi _ _ _ _

/-- The fields that a rejected flip changes. -/
def wingRejectFlds : List Fld :=
  errorFlds ++ [.WING_TT_CTRL_FLIP_REJECTED, .WING_TT_REJECT_HUB, .WING_TT_REJECT_CHANNEL, .WING_TT_REJECT_REASON]

theorem within_rejectWing (s : State) (w hub chan why : Nat) : Within [.rep, .dbg] wingRejectFlds s (rejectWing s w hub chan why) := by
  have w1 : ∀ (u : State) (f : Fld) (v : Nat), f ∈ wingRejectFlds → Within [.rep, .dbg] wingRejectFlds u (wr u f w v) :=
    fun u f v hf => (within_wr u f w v).mono (by simp) (by simpa using hf)
  exact ((((w1 s _ _ (by simp [wingRejectFlds])).trans (w1 _ _ _ (by simp [wingRejectFlds]))).trans
    (w1 _ _ _ (by simp [wingRejectFlds]))).trans (w1 _ _ _ (by simp [wingRejectFlds]))).trans
    ((within_hubError _ _ _ _ _ _).mono (by simp) (by simp [wingRejectFlds]))

theorem rd_rejectWing_rejected (s : State) (w hub chan why : Nat) :
    rd (rejectWing s w hub chan why) .WING_TT_CTRL_FLIP_REJECTED w = 1 :=
  ((within_hubError _ _ _ _ _ _).regs _ _ (by decide)).trans (rd_wr_same _ _ _ _)

/-! The obligation -/

theorem Within.frame {ps qs : List Part} {fs gs : List Fld} {s t : State} (h : Within ps fs s t) (hp : ps ⊆ qs)
    (hf : fs ⊆ gs) : Frame qs gs s t :=
  ⟨(h.mono hp hf).parts, fun f n hn => (h.mono hp hf).regs f n fun hm => hn (List.mem_append_left _ hm)⟩

/-- Settles O36: the flip of a wing either changes every table (`flipWing_of_mayFlip`) or is rejected and changes none
(`flipWing_of_not_mayFlip`). -/
theorem wingFlipsWholeOrNotAtAll : Obligations.WingFlipsWholeOrNotAtAll := by
  intro s w hw loaded
  have hreq := within_wr s .WING_TT_CTRL_FLIP_REQ w 0
  by_cases h : mayFlip s w
  · have hflip := within_flippedWing (wr s .WING_TT_CTRL_FLIP_REQ w 0) w
    obtain ⟨hbank, hgen, hhubs⟩ := rd_flippedWing (wr s .WING_TT_CTRL_FLIP_REQ w 0) w
    rw [rd_wr_ne _ _ _ _ _ _ (by simp)] at hbank hgen
    rw [flipWing_of_mayFlip h]
    refine ⟨?_, flippedWing_ttBanks _ w, fun _ => ⟨hbank, hgen, fun i hi => ?_, ?_⟩, fun hn => absurd h hn⟩
    · rw [hflip.regs _ _ (by decide), rd_wr_same]
    · have := hhubs i hi
      rwa [rd_wr_ne _ _ _ _ _ _ (by simp), rd_wr_ne _ _ _ _ _ _ (by simp)] at this
    · exact ((hreq.mono (by simp) (by simp)).trans (hflip.mono (by simp) (by simp [wingFlipFlds]))).frame
        (List.Subset.refl _) (List.Subset.refl _)
  · obtain ⟨hub, chan, why, heq⟩ := flipWing_of_not_mayFlip h
    have hrej := within_rejectWing (wr s .WING_TT_CTRL_FLIP_REQ w 0) w hub chan why
    have htt : (rejectWing (wr s .WING_TT_CTRL_FLIP_REQ w 0) w hub chan why).tt = s.tt := hrej.parts .tt (by simp)
    rw [heq]
    refine ⟨?_, congrArg Timetable.ttBanks htt, fun hl => absurd hl h, fun _ => ⟨rd_rejectWing_rejected _ _ _ _ _, ?_⟩⟩
    · rw [hrej.regs _ _ (by decide), rd_wr_same]
    · exact ((hreq.mono (by simp) (by simp)).trans (hrej.mono (by simp) (by simp [wingRejectFlds]))).frame
        (List.Subset.refl _) (List.Subset.refl _)

end Sys2Proof.Machine
end

section
/-! What the end of an item leaves: the item is gone, no other item and no count of acceptances changes. -/

namespace Sys2Proof.Machine

/-! Sessions that are released -/

/-- Only sessions with their roots and images were released or changed. -/
structure Released (s t : State) : Prop where
  within : Within [.serve, .lard] [] s t
  items : t.serve.items = s.serve.items

theorem Released.refl (s : State) : Released s s := ⟨Within.refl _ _ _, rfl⟩

theorem Released.trans {s t u : State} (h : Released s t) (k : Released t u) : Released s u :=
  ⟨h.within.trans k.within, k.items.trans h.items⟩

theorem released_lard (s : State) (f : Larder → Larder) : Released s (updLard s f) :=
  ⟨(within_lard s f).mono (by simp) (by simp), rfl⟩

theorem released_serve (s : State) (f : Serving → Serving) (hf : (f s.serve).items = s.serve.items) : Released s (updServe s f) :=
  ⟨(within_serve s f).mono (by simp) (by simp), hf⟩

theorem released_freeRoot (s : State) (i : Nat) : Released s (freeRoot s i) := by
  unfold freeRoot freeImage
  exact (released_lard s _).trans ((released_lard _ _).trans (released_serve _ _ rfl))

theorem released_freeIndex (s : State) (i : Nat) : Released s (freeIndex s i) := by
  unfold freeIndex
  split
  · exact Released.refl s
  · exact (released_freeRoot s i).trans (released_serve _ _ rfl)

theorem released_freeSession (s : State) (i : Nat) : Released s (freeSession s i) := by
  unfold freeSession
  split
  · exact Released.refl s
  · split
    · exact (released_freeIndex _ _).trans (released_freeIndex _ _)
    · exact released_freeIndex _ _

theorem released_releaseReserve (s : State) (i : Nat) : Released s (releaseReserve s i) := by
  have clear : ∀ (t : State) (k : Nat), Released t (match rootAt t k with
      | some r => setRoot t k { r with reserved := if r.st = 4 then committedPages r else 0 }
      | none => t) := by
    intro t k
    split
    · exact released_lard _ _
    · exact Released.refl t
  unfold releaseReserve
  dsimp only
  split
  · exact (clear s i).trans (clear _ _)
  · exact clear s i

theorem released_sessionAtFinal (s : State) (x : Item) : Released s (sessionAtFinal s x) := by
  unfold sessionAtFinal
  split
  · exact Released.refl s
  · split
    · extract_lets u
      refine Released.trans (t := u) (released_releaseReserve s _) ?_
      split
      · exact Released.refl u
      · split
        · exact released_freeSession _ _
        · exact released_serve _ _ rfl
    · exact Released.refl s

/-- The final code of an item that is no GENERATE leaves its session (Table 7-1). -/
theorem sessionAtFinal_of_ne {x : Item} (hx : x.opcode ≠ 1) (s : State) : sessionAtFinal s x = s := by
  unfold sessionAtFinal
  split
  · rfl
  · rw [if_neg hx]

theorem released_each {α : Type} {f : State → α → State} (hf : ∀ t a, Released t (f t a)) :
    ∀ (l : List α) (s : State), Released s (each l s f)
  | [], s => Released.refl s
  | a :: r, s => (hf s a).trans (released_each hf r (f s a))

/-- With its sessions a model goes (R213). -/
theorem released_releaseModel (s : State) (n : Nat) : Released s (releaseModel s n) := by
  unfold releaseModel
  exact (released_each (fun t (e : Nat × Session) => released_freeSession t e.1) _ s).trans (released_serve _ _ rfl)

theorem modelAt_releaseModel (s : State) (n : Nat) : modelAt (releaseModel s n) n = none := storeFind_erase_same _ n

/-! What left the module -/

/-- What left the module before has still left it. -/
def OutsKept (s t : State) : Prop := s.rep.outs ⊆ t.rep.outs

theorem OutsKept.trans {s t u : State} (h : OutsKept s t) (k : OutsKept t u) : OutsKept s u := List.Subset.trans h k

theorem Within.outsKept {ps : List Part} {fs : List Fld} {s t : State} (h : Within ps fs s t) (hp : Part.rep ∉ ps) :
    OutsKept s t := by
  have hrep : t.rep = s.rep := h.parts .rep hp
  exact fun o ho => by rwa [hrep]

theorem outsKept_emit (s : State) (o : Out) : OutsKept s (emit s o) := List.subset_append_left _ _

theorem outsKept_sendMsix (s : State) (fn entry : Nat) : OutsKept s (sendMsix s fn entry) := by
  unfold sendMsix
  split
  · exact List.Subset.refl _
  · exact outsKept_emit _ _

theorem outsKept_fireEvq (s : State) (c : Nat) : OutsKept s (fireEvq s c) := by
  unfold fireEvq
  dsimp only
  split
  · exact outsKept_sendMsix (setQueue s c _) _ _
  · exact List.Subset.refl _

theorem outsKept_putEvent (s : State) (c : Nat) (final : Bool) (r : EventRec) : OutsKept s (putEvent s c final r) := by
  unfold putEvent
  split
  · have hwrite : OutsKept s (writeEvq s c r) := outsKept_emit s _
    exact hwrite.trans ((outsKept_emit _ _).trans (outsKept_fireEvq _ c))
  · extract_lets q u
    have hspill : OutsKept s u := List.Subset.refl _
    split
    · exact hspill.trans (outsKept_emit u _)
    · exact hspill

theorem outsKept_sendEvent (s : State) (ctx handle tag idx status cause detail : Nat) (final : Bool) (body : EventBody) :
    OutsKept s (sendEvent s ctx handle tag idx status cause detail final body) := by
  unfold sendEvent
  split
  · split
    · next x _ => exact outsKept_putEvent (setSession s _ { x with seq := nextSeq x.seq }) ctx final _
    · exact List.Subset.refl _
  · exact outsKept_putEvent _ _ _ _

/-! The end of an item -/

theorem within_dropItem (s : State) (ctx idx : Nat) : Within [.tt] [] s (dropItem s ctx idx) := by
  unfold dropItem
  refine (within_dropOpen s ctx idx).trans ?_
  extract_lets u old kept last
  split
  · exact Within.refl _ _ _
  · exact (within_tt u _).trans (within_keepBoundary _ _)

theorem within_lastBlock (s : State) (x : Item) : Within [.rep] [] s (lastBlock s x) := by
  unfold lastBlock
  split
  · exact within_emit _ _
  · exact within_emit _ _
  · exact Within.refl _ _ _

/-- The state in which the FINAL record of an item has been sent. -/
def finalSent (s : State) (x : Item) (code detail cardId : Nat) : State :=
  let u := lastBlock s x
  let late := code = 0x01 ∧ x.causes ≠ 0
  sendEvent u x.ctx x.handle x.tag x.idx (if late then 0x02 else code) (if late then lowestCause x.causes else 0) detail true
    (.final x.issued x.promptDone (committedOf u x.ctx x.handle) cardId
      (if x.issued = 0 then max u.now x.lastIssue else x.lastIssue) x.lateNs x.draftsAccepted x.draftsProposed)

theorem finishItem_eq (s : State) (x : Item) (code detail cardId : Nat) : finishItem s x code detail cardId =
    dropItem (sessionAtFinal (removeItem (finalSent s x code detail cardId) x) x) x.ctx x.idx := rfl

theorem within_finalSent (s : State) (x : Item) (code detail cardId : Nat) :
    Within [.serve, .rep] eventFlds s (finalSent s x code detail cardId) :=
  ((within_lastBlock s x).mono (by simp) (by simp)).trans (frame_sendEvent _ _ _ _ _ _ _ _ _ _)

theorem listsKept_finalSent (s : State) (x : Item) (code detail cardId : Nat) : ListsKept s (finalSent s x code detail cardId) :=
  ((within_lastBlock s x).listsKept (by simp)).trans (listsKept_sendEvent _ _ _ _ _ _ _ _ _ _)

theorem within_finishItem (s : State) (x : Item) (code detail cardId : Nat) :
    Within [.serve, .rep, .lard, .tt] eventFlds s (finishItem s x code detail cardId) := by
  rw [finishItem_eq]
  exact (((within_finalSent s x code detail cardId).mono (by simp) (by simp)).trans
    ((within_serve _ _).mono (by simp) (by simp))).trans
    (((released_sessionAtFinal _ x).within.mono (by simp) (by simp)).trans ((within_dropItem _ _ _).mono (by simp) (by simp)))

/-- Of the open items the one that ends is gone. -/
theorem finishItem_items (s : State) (x : Item) (code detail cardId : Nat) :
    (finishItem s x code detail cardId).serve.items = s.serve.items.filter fun i => !(i.ctx == x.ctx && i.idx == x.idx) := by
  have hdrop : ∀ u : State, (dropItem u x.ctx x.idx).serve = u.serve := fun u => (within_dropItem u x.ctx x.idx).parts .serve (by simp)
  rw [finishItem_eq, hdrop, (released_sessionAtFinal _ x).items, ← (listsKept_finalSent s x code detail cardId).items]
  rfl

/-- A result block that precedes the FINAL record has left the module (R244). -/
theorem outsKept_finishItem (s : State) (x : Item) (code detail cardId : Nat) :
    OutsKept (lastBlock s x) (finishItem s x code detail cardId) := by
  have hsent : OutsKept (lastBlock s x) (finalSent s x code detail cardId) := outsKept_sendEvent _ _ _ _ _ _ _ _ _ _
  rw [finishItem_eq]
  exact ((hsent.trans ((within_serve _ _).outsKept (by simp))).trans ((released_sessionAtFinal _ x).within.outsKept (by simp))).trans
    ((within_dropItem _ _ _).outsKept (by simp))

theorem lastBlock_outs {x : Item} {a b addr : Nat} (hx : x.opcode = 0x13) (hd : x.data = [a, b, addr]) (s : State) :
    ∃ l, .hostWrite x.ctx (addr % 2 ^ 48) l ∈ (lastBlock s x).rep.outs := by
  unfold lastBlock
  rw [hx, hd]
  exact ⟨_, List.mem_append_right _ (List.mem_singleton.mpr rfl)⟩

/-- A session is as it was but for its record count when an item that is no GENERATE ends. -/
theorem sessAt_finishItem {s : State} {x : Item} (hx : x.opcode ≠ 1) (code detail cardId : Nat) {i : Nat} {z : Session}
    (hz : sessAt s i = some z) : ∃ q, sessAt (finishItem s x code detail cardId) i = some { z with seq := q } := by
  have hdrop : ∀ u : State, (dropItem u x.ctx x.idx).serve = u.serve := fun u => (within_dropItem u x.ctx x.idx).parts .serve (by simp)
  obtain ⟨q, hq⟩ := (listsKept_finalSent s x code detail cardId).sessions i z hz
  refine ⟨q, ?_⟩
  rw [finishItem_eq, sessionAtFinal_of_ne hx, sessAt, hdrop]
  exact hq

/-- An item that waits for another drops it when that ends (R213). -/
def unmarked (s : State) (x i : Item) : Item :=
  if (x.ctx, x.idx) ∈ i.waits then
    { i with waits := i.waits.filter (· ≠ (x.ctx, x.idx)), causes := i.causes ||| x.causes, stop := 9,
             lateNs := if i.causes ||| x.causes = 0 then 0 else min (maxOf 32) (s.now - i.deadline) }
  else i

/-- Whether an item has nothing left to wait for. -/
def waitOver (i : Item) : Bool := i.waits.isEmpty && i.stop == 9 && (i.opcode == 2 || i.opcode == 3 || i.opcode == 6)

/-- Where no item waits for an item, nothing follows from its end. -/
theorem settleWaiters_of_unwaited {s : State} {x : Item} (h : unwaited s (x.ctx, x.idx)) : settleWaiters s x = s := by
  have hmap : s.serve.items.map (unmarked s x) = s.serve.items :=
    (List.map_congr_left fun i hi => if_neg (h i hi).1).trans (List.map_id' _)
  have hsame : (updServe s fun v => { v with items := v.items.map (unmarked s x) }) = s := by simp only [updServe, hmap]
  have hnone : s.serve.items.filter waitOver = [] := by
    refine List.filter_eq_nil_iff.mpr fun i hi => ?_
    simp only [waitOver, Bool.and_eq_true, List.isEmpty_iff, beq_iff_eq]
    exact fun hw => (h i hi).2 hw.1.1 hw.1.2
  show each ((updServe s fun v => { v with items := v.items.map (unmarked s x) }).serve.items.filter waitOver)
    (updServe s fun v => { v with items := v.items.map (unmarked s x) }) _ = s
  rw [hsame, hnone]
  rfl

theorem unwaited_finishItem {s : State} {x : Item} {k : Nat × Nat} (code detail cardId : Nat)
    (h : ∀ i ∈ s.serve.items, ¬ (i.ctx = x.ctx ∧ i.idx = x.idx) → k ∉ i.waits ∧ (i.waits = [] → i.stop ≠ 9)) :
    unwaited (finishItem s x code detail cardId) k := by
  intro i hi
  rw [finishItem_items, List.mem_filter] at hi
  exact h i hi.1 (by simpa [← not_and_or] using hi.2)

/-! An item that ends as it is accepted -/

section EndAtOnce
variable {ps : List Part} {fs : List Fld} {s u : State} {h : ReqHead} {op : Nat} {x : Item}
  (hp : Prepared ps fs s u) (hr : roomFor s h) (hx : ItemOf h op x)
include hp hr hx

/-- A record that no item waits for ends without a further one. -/
theorem Prepared.endItem_accept (hfree : unwaited u (h.ctx, h.idx)) (code detail : Nat) :
    endItem (accept u x) x code detail = finishItem (accept u x) x code detail 0 := by
  refine settleWaiters_of_unwaited (unwaited_finishItem code detail 0 fun i hi hne => ?_)
  rw [accept_items (hp.hasRoom hr hx), List.mem_append, List.mem_singleton] at hi
  obtain hi | rfl := hi
  · rw [hx.ctx, hx.idx]
    exact hfree i hi
  · exact absurd ⟨rfl, rfl⟩ hne

/-- The item is gone, and was counted once. -/
theorem Prepared.ended_endItem (hfree : unwaited u (h.ctx, h.idx)) (code detail : Nat) :
    Ended s (endItem (accept u x) x code detail) h := by
  rw [hp.endItem_accept hr hx hfree]
  constructor
  · rw [itemAt_eq_none_iff, finishItem_items, hx.ctx, hx.idx]
    intro z hz
    simpa [← not_and_or] using (List.mem_filter.mp hz).2
  · rw [(within_finishItem _ _ _ _ _).regs _ _ (by simp [eventFlds])]
    exact hp.counted_accept hr hx

end EndAtOnce

/-- Settling the views neither opens an item nor counts one. -/
theorem Ended.settled {s t : State} {h : ReqHead} (e : Ended s t h) : Ended s (settled s t) h :=
  ⟨e.1, (rd_settled_other s t _ _ (by simp [viewFlds])).trans e.2⟩

/-- What changes no item and no count leaves an item ended. -/
theorem Ended.congr {s t u : State} {h : ReqHead} (e : Ended s t h) (hi : u.serve.items = t.serve.items)
    (hc : rd u .SERVE_ACCEPTED = rd t .SERVE_ACCEPTED) : Ended s u h :=
  ⟨by have hnone := e.1; rw [itemAt_eq_none_iff] at hnone ⊢; rwa [hi], hc.trans e.2⟩

/-- An item that is due at the next tick. -/
abbrev promptItem (s : State) (x : Item) : Item := { x with deadline := promptDeadline s }

/-- An item that completes at once is accepted and ends (R55). -/
theorem acceptDone_eq {u : State} {x : Item} (hroom : generalFull u x.ctx = false) (hnone : itemAt u x.ctx x.idx = none)
    (code detail : Nat) : acceptDone u x code detail = endItem (accept u (promptItem u x)) (promptItem u x) code detail := by
  have hat : itemAt (accept u (promptItem u x)) x.ctx x.idx = some (promptItem u x) :=
    itemAt_accept_same (x := promptItem u x) hroom hnone
  unfold acceptDone
  dsimp only
  rw [hat]

theorem ItemOf.prompt {h : ReqHead} {op : Nat} {x : Item} (hx : ItemOf h op x) (s : State) : ItemOf h op (promptItem s x) :=
  ⟨hx.ctx, hx.idx, hx.tag, hx.opcode⟩

section AcceptDone
variable {ps qs : List Part} {fs gs : List Fld} {s u : State} {h : ReqHead} {op : Nat} {x : Item}
  (hp : Prepared ps fs s u)
include hp

theorem Prepared.within_acceptDone (x : Item) (code detail : Nat) (hps : ps ++ [.lard, .rep, .serve, .tt] ⊆ qs)
    (hfs : fs ++ itemFlds ⊆ gs) : Within qs gs s (acceptDone u x code detail) := by
  refine (hp.within.mono (fun _ m => hps (List.mem_append_left _ m)) (fun _ m => hfs (List.mem_append_left _ m))).trans
    ((frame_acceptDone u x code detail).mono (fun p m => hps (List.mem_append_right _ ?_)) (fun _ m => hfs (List.mem_append_right _ m)))
  simp only [List.mem_cons, List.not_mem_nil, or_false] at m ⊢
  tauto

variable (hr : roomFor s h) (hx : ItemOf h op x) (hfree : unwaited u (h.ctx, h.idx))
include hr hx hfree

theorem Prepared.acceptDone_eq_finishItem (code detail : Nat) :
    acceptDone u x code detail = finishItem (accept u (promptItem u x)) (promptItem u x) code detail 0 := by
  rw [acceptDone_eq (hp.hasRoom hr hx) (by rw [hx.ctx, hx.idx]; exact hp.closed _ _ hr.2.1)]
  exact hp.endItem_accept hr (hx.prompt u) hfree code detail

theorem Prepared.ended_acceptDone (code detail : Nat) : Ended s (acceptDone u x code detail) h := by
  rw [acceptDone_eq (hp.hasRoom hr hx) (by rw [hx.ctx, hx.idx]; exact hp.closed _ _ hr.2.1)]
  exact hp.ended_endItem hr (hx.prompt u) hfree code detail

end AcceptDone

end Sys2Proof.Machine
end

section
/-! O44: the records whose work is done as they are accepted. -/

namespace Sys2Proof.Machine

/-! Parks that a HINT may start -/

/-- Of serving, only where park images lie changed. -/
def ImagesOnly (s t : State) : Prop := ∃ l, t.serve = { s.serve with hostParks := l }

theorem ImagesOnly.refl (s : State) : ImagesOnly s s := ⟨s.serve.hostParks, rfl⟩

theorem ImagesOnly.trans {s t u : State} (h : ImagesOnly s t) (k : ImagesOnly t u) : ImagesOnly s u := by
  obtain ⟨l, hl⟩ := h
  obtain ⟨m, hm⟩ := k
  exact ⟨m, by rw [hm, hl]⟩

theorem imagesOnly_startPark (s : State) (form i : Nat) : ImagesOnly s (startPark s form i) := by
  have finish : ∀ (u : State) (p : Prop) [Decidable p] (ns : Nat), ImagesOnly s u →
      ImagesOnly s (if p then inc u .LARDER_PARKS else planMove u ns) := by
    intro u p _ ns hu
    split <;> exact hu
  unfold startPark
  split
  · dsimp only
    refine finish _ _ _ ?_
    split
    · split
      · exact ⟨_, rfl⟩
      · exact ImagesOnly.refl s
    · split
      · exact ImagesOnly.refl s
      · exact ImagesOnly.refl s
  · exact ImagesOnly.refl s

theorem imagesOnly_parkSession (s : State) (form i : Nat) : ImagesOnly s (parkSession s form i) := by
  unfold parkSession
  dsimp only
  split
  · exact (imagesOnly_startPark s form i).trans (imagesOnly_startPark _ form _)
  · exact imagesOnly_startPark s form i

/-- What each step of a fold does to a state, the fold does. -/
theorem each_rel {α : Type} {r : State → State → Prop} (hrefl : ∀ s, r s s) (htrans : ∀ {s t u}, r s t → r t u → r s u)
    {f : State → α → State} (hf : ∀ s a, r s (f s a)) (l : List α) (s : State) : r s (each l s f) :=
  each_keep (p := r s) f (fun t a h => htrans h (hf t a)) l s (hrefl s)

theorem parkDue_frames (s : State) : ImagesOnly s (parkDue s) ∧ ParkFrame s (parkDue s) := by
  refine each_rel (r := fun s t => ImagesOnly s t ∧ ParkFrame s t) (fun s => ⟨ImagesOnly.refl s, Within.refl _ _ s⟩)
    (fun h k => ⟨h.1.trans k.1, h.2.trans k.2⟩) (fun t i => ?_) _ s
  split
  · exact ⟨imagesOnly_parkSession _ _ _, park_parkSession _ _ _⟩
  · exact ⟨ImagesOnly.refl t, Within.refl _ _ t⟩

theorem prepared_park {s u : State} (hi : ImagesOnly s u) (hp : ParkFrame s u) :
    Prepared [.serve, .lard, .tt] [.LARDER_PARKS] s u := by
  obtain ⟨l, hl⟩ := hi
  have hctxs : u.ctxs = s.ctxs := hp.parts .ctxs (by simp)
  refine ⟨hp, generalFull_congr (by rw [hl]) (by rw [hctxs]) fun f hf n => hp.regs f n ?_, fun c i hn => ?_, hp.regs _ _ (by simp)⟩
  · intro hm
    obtain rfl := List.mem_singleton.mp hm
    exact absurd hf (by decide)
  · rw [itemAt_eq_none_iff] at hn ⊢
    rwa [hl]

/-! One lemma for the records that end at once -/

section Records
variable {s : State} {h : ReqHead} {c : Instr}

/-- A command whose record is accepted and ends at once. -/
theorem acceptDone_runs {ps qs : List Part} {fs gs : List Fld} {u : State} {op code detail : Nat} {x : Item}
    (hexec : exec c s = settle s (acceptDone u x code detail)) (hp : Prepared ps fs s u) (hr : roomFor s h) (hx : ItemOf h op x)
    (hfree : unwaited u (h.ctx, h.idx)) (hps : ps ++ [.lard, .rep, .serve, .tt] ⊆ qs) (hfs : fs ++ itemFlds ⊆ gs) :
    Runs c s fun v => Ended s v h ∧ Frame qs gs s v ∧ v = settled s (acceptDone u x code detail) :=
  runs_of_settle hexec
    ⟨(hp.ended_acceptDone hr hx hfree code detail).settled, (hp.within_acceptDone x code detail hps hfs).settled, rfl⟩

theorem unwaited_congr {u : State} {k : Nat × Nat} (h : unwaited s k) (hi : u.serve.items = s.serve.items) : unwaited u k := by
  unfold unwaited
  rwa [hi]

theorem generate_ends (r : GenerateRec) (a : Admitted) (e : Nat × Nat) (ha : admitGenerate s h r = .ok a) (he : a.empty = some e)
    (hr : roomFor a.st h) : Runs (.generate h r) s fun v => Ended s v h := by
  obtain ⟨hpark, hitem⟩ := admitGenerate_admits ha
  have hp := Prepared.refl a.st
  have hexec : exec (.generate h r) s = settle s (acceptDone a.st a.item e.1 e.2) := by
    show execGenerate h r s = _
    simp only [execGenerate, ha, he]
  obtain ⟨hgone, hcount⟩ := hp.ended_acceptDone hr hitem hr.2.2 e.1 e.2
  have hsame : rd a.st .SERVE_ACCEPTED = rd s .SERVE_ACCEPTED := hpark.regs _ _ (by simp)
  refine runs_of_settle hexec (Ended.settled ⟨hgone, hcount.trans ?_⟩)
  simp only [rd_inc, hsame]

/-- The item of a record that names a session. -/
def sessionItem (s : State) (h : ReqHead) (op : Nat) : Item := { newItem s h op with sess := some (handleIdx h.handle) }

theorem itemOf_sessionItem (s : State) (h : ReqHead) (op : Nat) : ItemOf h op (sessionItem s h op) := ⟨rfl, rfl, rfl, rfl⟩

theorem cancel_ends (hr : roomFor s h) (resv : Bool) (hc : handleChecks s h resv = none)
    (ho : openGen s (handleIdx h.handle) = none) : Runs (.cancel h resv) s fun v =>
      Ended s v h ∧ Frame [.lard, .rep, .serve, .tt] itemFlds s v := by
  have hexec : exec (.cancel h resv) s = settle s (acceptDone s (sessionItem s h 0x02) 0x03 0x08) := by
    show execCancel h resv s = _
    simp only [execCancel, hc, ho]
    rfl
  obtain ⟨v, hv, hend, hframe, -⟩ := acceptDone_runs hexec (Prepared.refl s) hr (itemOf_sessionItem s h 0x02) hr.2.2
    (List.Subset.refl _) (List.Subset.refl _)
  exact ⟨v, hv, hend, hframe⟩

/-! HINT -/

theorem sessAt_settled (s t : State) (i : Nat) : sessAt (settled s t) i = sessAt t i := rfl

/-- A session with the hint that it gives. -/
def hinted (s : State) (permit us : Nat) (z : Session) : Session :=
  if z.st = .idle then { z with permit := permit, resumeUs := us, resume := resumeOf s.now us }
  else { z with permit := permit, resumeUs := us }

theorem hinted_permit (s : State) (permit us : Nat) (z : Session) :
    (hinted s permit us z).permit = permit ∧ (hinted s permit us z).resumeUs = us := by
  unfold hinted
  split <;> exact ⟨rfl, rfl⟩

/-- The session of a HINT has its hint. -/
def hintSet (s : State) (h : ReqHead) (permit us : Nat) (z : Session) : State :=
  if z.st = .idle then
    setSession s (handleIdx h.handle) { z with permit := permit, resumeUs := us, resume := resumeOf s.now us }
  else setSession s (handleIdx h.handle) { z with permit := permit, resumeUs := us }

theorem hintSet_eq (s : State) (h : ReqHead) (permit us : Nat) (z : Session) :
    hintSet s h permit us z = setSession s (handleIdx h.handle) (hinted s permit us z) := by
  unfold hintSet hinted
  split <;> rfl

/-- With no step, the sessions that qualify then park at once (R180). -/
def parkIdle (s : State) : State := if s.tt.run.running ∨ s.tt.plan ≠ [] then s else parkDue s

theorem parkIdle_frames (s : State) : ImagesOnly s (parkIdle s) ∧ ParkFrame s (parkIdle s) := by
  unfold parkIdle
  split
  · exact ⟨ImagesOnly.refl _, Within.refl _ _ _⟩
  · exact parkDue_frames _

theorem exec_hint {permit us : Nat} {resv : Bool} {z : Session} (hperm : permit < 8) (hc : handleChecks s h resv = none)
    (hz : sessAt s (handleIdx h.handle) = some z) : exec (.hint h permit us resv) s =
      settle s (acceptDone (parkIdle (hintSet s h permit us z)) (sessionItem (hintSet s h permit us z) h 0x04) 0x01 0x07) := by
  have hc' : handleChecks s h (resv && decide (permit < 8)) = none := by simpa [hperm] using hc
  show execHint h permit us resv s = _
  unfold execHint
  rw [hc']
  dsimp only
  rw [hz]
  rfl

theorem hint_ends (hr : roomFor s h) (permit us : Nat) (resv : Bool) (hperm : permit < 8) (hc : handleChecks s h resv = none) :
    Runs (.hint h permit us resv) s fun v =>
      Ended s v h ∧ (∃ x, sessAt v (handleIdx h.handle) = some x ∧ x.permit = permit ∧ x.resumeUs = us) ∧
      Frame [.lard, .rep, .serve, .tt] (itemFlds ++ [.LARDER_PARKS]) s v := by
  obtain ⟨z, hz⟩ := sessAt_of_handleChecks hc
  have hexec := exec_hint (us := us) hperm hc hz
  rw [hintSet_eq] at hexec
  generalize hu : setSession s (handleIdx h.handle) (hinted s permit us z) = u at hexec
  obtain ⟨himages, hpark⟩ := parkIdle_frames u
  have hset : Prepared [.serve] [] s u := hu ▸ prepared_setSession s _ _
  have hp := hset.trans (prepared_park himages hpark)
  have hx := itemOf_sessionItem u h 0x04
  obtain ⟨l, hl⟩ := himages
  have hsess : sessAt (parkIdle u) (handleIdx h.handle) = some (hinted s permit us z) := by
    unfold sessAt
    rw [hl, ← hu]
    exact storeFind_insert_same _ _ _
  have hfree : unwaited (parkIdle u) (h.ctx, h.idx) := unwaited_congr hr.2.2 (by rw [hl, ← hu]; rfl)
  obtain ⟨v, hv, hend, hframe, heq⟩ := acceptDone_runs hexec hp hr hx hfree
    (qs := [.lard, .rep, .serve, .tt]) (gs := itemFlds ++ [.LARDER_PARKS]) (by simp) (by simp)
  refine ⟨v, hv, hend, ?_, hframe⟩
  obtain ⟨q, hq⟩ := sessAt_accept (hp.hasRoom hr (hx.prompt (parkIdle u))) hsess
  obtain ⟨q', hq'⟩ := sessAt_finishItem (x := promptItem _ _) (by rw [(hx.prompt (parkIdle u)).opcode]; decide) 0x01 0x07 0 hq
  obtain ⟨hperm', hus⟩ := hinted_permit s permit us z
  rw [heq, sessAt_settled, hp.acceptDone_eq_finishItem hr hx hfree]
  exact ⟨_, hq', hperm', hus⟩

/-! UNLOAD_BUNDLE -/

/-- The item of an UNLOAD_BUNDLE. -/
def unloadItem (s : State) (h : ReqHead) (n : Nat) : Item := { newItem s h 0x06 with model := n }

theorem exec_unloadBundle_idle {n : Nat} {resv : Bool} {m : Model} (hc : unloadChecks s h n resv = none)
    (hm : modelAt s n = some m) (hu : modelUsers s n = []) : exec (.unloadBundle h n resv) s =
      settle s (releaseModel (acceptDone (unloadStarted s n m) (unloadItem (unloadStarted s n m) h n) 0x01 0x07) n) := by
  have hm' : storeFind s.serve.models n = some m := hm
  have hstart : (updServe s fun v => { v with models := match storeFind v.models n with
      | some m => storeInsert v.models n { m with st := .unloading }
      | none => v.models }) = unloadStarted s n m := by
    simp only [updServe, unloadStarted, hm']
  show execUnloadBundle h n resv s = _
  unfold execUnloadBundle
  rw [hc, hu, ← hstart]
  rfl

theorem unloadBundle_ends (hr : roomFor s h) (n : Nat) (resv : Bool) (hc : unloadChecks s h n resv = none)
    (hu : modelUsers s n = []) : Runs (.unloadBundle h n resv) s fun v =>
      Ended s v h ∧ modelAt v n = none ∧ Frame [.lard, .rep, .serve, .tt] itemFlds s v := by
  obtain ⟨m, hm⟩ := modelAt_of_unloadChecks hc
  have hp : Prepared [.serve] [] s (unloadStarted s n m) := prepared_models s fun l => storeInsert l n { m with st := .unloading }
  have hx : ItemOf h 0x06 (unloadItem (unloadStarted s n m) h n) := ⟨rfl, rfl, rfl, rfl⟩
  have hexec := exec_unloadBundle_idle hc hm hu
  have hend := hp.ended_acceptDone hr hx (unwaited_congr hr.2.2 rfl) 0x01 0x07
  have hframe := hp.within_acceptDone (unloadItem (unloadStarted s n m) h n) 0x01 0x07
    (qs := [.lard, .rep, .serve, .tt]) (gs := itemFlds) (by simp) (by simp)
  generalize acceptDone (unloadStarted s n m) _ _ _ = u at hexec hend hframe
  have hgone := released_releaseModel u n
  refine runs_of_settle hexec ⟨(hend.congr hgone.items (hgone.within.regs _ _ (by simp))).settled, modelAt_releaseModel u n, ?_⟩
  exact (hframe.trans (hgone.within.mono (by simp) (by simp))).settled

/-! TRAIN_STEP -/

/-- The item of a micro-step without tokens. -/
def emptyStepItem (s : State) (h : ReqHead) (r : TrainStepRec) : Item :=
  { newItem s h 0x13 with
    slot := some r.slotBits, model := r.model, data := [0, 0, r.resultAddr], deadline := promptDeadline s }

theorem exec_trainStep_empty {r : TrainStepRec} (hr : roomFor s h) (hc : stepChecks s h r = none) (htok : r.tokenCount = 0) :
    exec (.trainStep h r) s = settle s (endItem (accept s (emptyStepItem s h r)) (emptyStepItem s h r) 0x03 0x08) := by
  have hat : itemAt (accept s (emptyStepItem s h r)) h.ctx h.idx = some (emptyStepItem s h r) :=
    (Prepared.refl s).itemAt_accept (op := 0x13) hr ⟨rfl, rfl, rfl, rfl⟩
  show execTrainStep h r s = _
  unfold execTrainStep
  rw [hc]
  dsimp only
  rw [if_pos htok, ← emptyStepItem, hat]

theorem trainStep_ends (hr : roomFor s h) (r : TrainStepRec) (hc : stepChecks s h r = none) (htok : r.tokenCount = 0) :
    Runs (.trainStep h r) s fun v => Ended s v h ∧ (∃ l, .hostWrite h.ctx (r.resultAddr % 2 ^ 48) l ∈ v.rep.outs) ∧
      Frame [.lard, .rep, .serve, .tt] itemFlds s v := by
  have hp := Prepared.refl s
  have hx : ItemOf h 0x13 (emptyStepItem s h r) := ⟨rfl, rfl, rfl, rfl⟩
  have hitem := (frame_accept s (emptyStepItem s h r)).trans (frame_endItem _ (emptyStepItem s h r) 0x03 0x08 0)
  refine runs_of_settle (exec_trainStep_empty hr hc htok)
    ⟨(hp.ended_endItem hr hx hr.2.2 0x03 0x08).settled, ?_, ((hitem.mono (by simp) (by simp)).settled)⟩
  obtain ⟨l, hl⟩ := lastBlock_outs (x := emptyStepItem s h r) rfl rfl (accept s (emptyStepItem s h r))
  rw [settled_rep, hp.endItem_accept hr hx hr.2.2]
  exact ⟨l, outsKept_finishItem _ _ _ _ _ hl⟩

/-! Adapter keys -/

/-- The state in which a context's adapter keys have changed. -/
def keysChanged (s : State) (h : ReqHead) (f : Contexts → Contexts) : State := mirrorKeys (updCtxs s f) h.ctx

theorem prepared_keysChanged (s : State) (h : ReqHead) (f : Contexts → Contexts) (hf : (f s.ctxs).noMaster = s.ctxs.noMaster) :
    Prepared ([.ctxs] ++ []) ([] ++ [.CTX_STATE_KEYS, .CTX_STATE_PENDING]) s (keysChanged s h f) :=
  (prepared_updCtxs f hf).trans ((within_mirrorKeys _ _).prepared (by simp) (by simp) (by simp [roomFlds]))

/-- A record whose work is a change of a context's keys ends as it is accepted. -/
theorem keysChanged_runs {f : Contexts → Contexts} {op code detail : Nat} (hr : roomFor s h)
    (hf : (f s.ctxs).noMaster = s.ctxs.noMaster)
    (hexec : exec c s = settle s (acceptDone (keysChanged s h f) (newItem s h op) code detail)) : Runs c s fun v =>
      Ended s v h ∧ v.ctxs = f s.ctxs ∧
      Frame [.ctxs, .lard, .rep, .serve, .tt] (itemFlds ++ [.CTX_STATE_KEYS, .CTX_STATE_PENDING]) s v := by
  have hp := prepared_keysChanged s h f hf
  obtain ⟨v, hv, hend, hframe, heq⟩ := acceptDone_runs hexec hp hr (op := op) ⟨rfl, rfl, rfl, rfl⟩ (unwaited_congr hr.2.2 rfl)
    (qs := [.ctxs, .lard, .rep, .serve, .tt]) (gs := itemFlds ++ [.CTX_STATE_KEYS, .CTX_STATE_PENDING]) (by simp) (by simp)
  refine ⟨v, hv, hend, ?_, hframe⟩
  rw [heq, settled_ctxs]
  exact (frame_acceptDone (keysChanged s h f) (newItem s h op) code detail).parts .ctxs (by simp)

theorem keyFinish_ends (hr : roomFor s h) (r : SecRec) (ct : List Nat) (p : PendingKey) (hc : finishChecks s h r = none)
    (hp : storeFind s.ctxs.pendingKeys (h.ctx * 4 + r.keyIndex) = some p) : Runs (.keyFinish h r (some ct)) s fun v =>
      Ended s v h ∧ (∃ k, storeFind v.ctxs.keys (h.ctx * 4 + r.keyIndex) = some k ∧ k.counter = 1) ∧
      storeFind v.ctxs.pendingKeys (h.ctx * 4 + r.keyIndex) = none ∧
      Frame [.ctxs, .lard, .rep, .serve, .tt] (itemFlds ++ [.CTX_STATE_KEYS, .CTX_STATE_PENDING]) s v := by
  have hexec : exec (.keyFinish h r (some ct)) s = settle s (acceptDone (keysChanged s h fun x => { x with
      keys := storeInsert x.keys (h.ctx * 4 + r.keyIndex) ⟨adapterKey p.value h.ctx r.keyIndex ct, 1⟩
      pendingKeys := storeErase x.pendingKeys (h.ctx * 4 + r.keyIndex) }) (newItem s h 0x22) 0x01 0x07) := by
    show execKeyFinish h r (some ct) s = _
    unfold execKeyFinish
    dsimp only
    rw [hc, hp]
    rfl
  obtain ⟨v, hv, hend, hctxs, hframe⟩ := keysChanged_runs hr rfl hexec
  exact ⟨v, hv, hend, ⟨_, by rw [hctxs]; exact storeFind_insert_same _ _ _, rfl⟩,
    by rw [hctxs]; exact storeFind_erase_same _ _, hframe⟩

theorem keyErase_ends (hr : roomFor s h) (key : Nat) (resv : Bool) (hc : eraseChecks s h key resv = none) :
    Runs (.keyErase h key resv) s fun v => Ended s v h ∧ storeFind v.ctxs.keys (h.ctx * 4 + key) = none ∧
      (∀ k, k ≠ h.ctx * 4 + key → storeFind v.ctxs.keys k = storeFind s.ctxs.keys k) ∧
      Frame [.ctxs, .lard, .rep, .serve, .tt] (itemFlds ++ [.CTX_STATE_KEYS, .CTX_STATE_PENDING]) s v := by
  cases hk : storeFind s.ctxs.keys (h.ctx * 4 + key) with
  | some k =>
    have hexec : exec (.keyErase h key resv) s = settle s (acceptDone (keysChanged s h fun x => { x with
        keys := storeErase x.keys (h.ctx * 4 + key) }) (newItem s h 0x23) 0x01 0x07) := by
      show execKeyErase h key resv s = _
      unfold execKeyErase
      dsimp only
      rw [hc, hk]
      rfl
    obtain ⟨v, hv, hend, hctxs, hframe⟩ := keysChanged_runs hr rfl hexec
    exact ⟨v, hv, hend, by rw [hctxs]; exact storeFind_erase_same _ _,
      fun j hj => by rw [hctxs]; exact storeFind_erase_other _ hj, hframe⟩
  | none =>
    have hexec : exec (.keyErase h key resv) s = settle s (acceptDone s (newItem s h 0x23) 0x03 0x08) := by
      show execKeyErase h key resv s = _
      unfold execKeyErase
      dsimp only
      rw [hc, hk]
      rfl
    obtain ⟨v, hv, hend, hframe, heq⟩ := acceptDone_runs hexec (Prepared.refl s) hr (op := 0x23) ⟨rfl, rfl, rfl, rfl⟩ hr.2.2
      (qs := [.lard, .rep, .serve, .tt]) (gs := itemFlds) (by simp) (by simp)
    have hctxs : v.ctxs = s.ctxs := hframe.1 .ctxs (by simp)
    exact ⟨v, hv, hend, by rw [hctxs]; exact hk, fun j _ => by rw [hctxs],
      fun q hq => hframe.1 q (by simp_all), fun f n hf => hframe.2 f n (by simp_all)⟩

end Records

/-- Settles O44: each record is accepted in a state made ready for it (`Prepared`) and ends there (`acceptDone_runs`); no item
waits for it, so that nothing else follows from its end (`settleWaiters_of_unwaited`). -/
theorem itemsThatEndAtOnce : Obligations.ItemsThatEndAtOnce := by
  intro s h hr
  exact ⟨generate_ends, cancel_ends hr, hint_ends hr, unloadBundle_ends hr, trainStep_ends hr, keyFinish_ends hr, keyErase_ends hr⟩

end Sys2Proof.Machine
end

section
/-! What changes of core and hub states leave: memory, the counts of tests and the sweeps of every core. -/

namespace Sys2Proof.Machine

/-- The fields that the states of cores and hubs are shown in. -/
def stateFlds : List Fld :=
  reportFlds ++ [.HUB_SLOT_STATE_STATE, .HUB_SLOT_STATE_FENCED, .INTEG_CORE_INFO_RETIRE_PENDING, .INTEG_CORE_INFO_PASS_RUN,
    .INTEG_CORE_INFO_SKIP, .INTEG_CORE_INFO_CLEARED, .INTEG_HUB_STATE, .INTEG_HUB_OUT, .INTEG_HUB_SUSPECTS, .INTEG_HUB_FT_STARVED]

/-- Only the records and states of cores and hubs changed; no core's sweep did. -/
structure StateFrame (s t : State) : Prop where
  within : Within [.rep, .core] stateFlds s t
  sweep : t.core.sweep = s.core.sweep
  sweepAt : t.core.sweepAt = s.core.sweepAt
  lastSwept : t.core.lastSwept = s.core.lastSwept

theorem StateFrame.refl (s : State) : StateFrame s s := ⟨Within.refl _ _ _, rfl, rfl, rfl⟩

theorem StateFrame.trans {s t u : State} (h : StateFrame s t) (k : StateFrame t u) : StateFrame s u :=
  ⟨h.within.trans k.within, k.sweep.trans h.sweep, k.sweepAt.trans h.sweepAt, k.lastSwept.trans h.lastSwept⟩

theorem StateFrame.mem {s t : State} (h : StateFrame s t) : t.mem = s.mem := h.within.parts .mem (by simp)

theorem StateFrame.now {s t : State} (h : StateFrame s t) : t.now = s.now := h.within.parts .now (by simp)

/-- What changes the records alone. -/
theorem Within.stateFrame {fs : List Fld} {s t : State} (h : Within [.rep] fs s t) (hf : fs ⊆ stateFlds) : StateFrame s t := by
  have hcore : t.core = s.core := h.parts .core (by simp)
  exact ⟨h.mono (by simp) hf, by rw [hcore], by rw [hcore], by rw [hcore]⟩

theorem stateFrame_wr {f : Fld} (hf : f ∈ stateFlds) (s : State) (n v : Nat) : StateFrame s (wr s f n v) :=
  ((within_wr s f n v).mono (by simp) (List.Subset.refl _)).stateFrame (by simpa using hf)

theorem stateFrame_updCore {s : State} (f : Cores → Cores) (h1 : (f s.core).sweep = s.core.sweep)
    (h2 : (f s.core).sweepAt = s.core.sweepAt) (h3 : (f s.core).lastSwept = s.core.lastSwept) : StateFrame s (updCore s f) :=
  ⟨(within_core s f).mono (by simp) (by simp), h1, h2, h3⟩

theorem stateFrame_report (s : State) (kind unit : Nat) (data : List (Nat × Nat × Bool)) (cause : Option Nat) (st : Nat)
    (injected : Bool) : StateFrame s (report s kind unit data cause st injected) :=
  (within_report s kind unit data cause st injected).stateFrame (by simp [stateFlds])

theorem stateFrame_each {α : Type} {f : State → α → State} (hf : ∀ s a, StateFrame s (f s a)) (l : List α) (s : State) :
    StateFrame s (each l s f) := each_rel StateFrame.refl StateFrame.trans hf l s

/-! Cores -/

theorem within_saveRetirement (s : State) (f : Retirement → Retirement) : Within [.rep] [] s (saveRetirement s f) := by
  unfold saveRetirement
  exact within_rep s _

theorem within_saveCore (s : State) (k : Nat) : Within [.rep] [] s (saveCore s k) := by
  unfold saveCore
  exact within_saveRetirement s _

theorem within_saveHub (s : State) (h : Nat) : Within [.rep] [] s (saveHub s h) := by
  unfold saveHub
  exact within_saveRetirement s _

theorem stateFrame_saveCore (s : State) (k : Nat) : StateFrame s (saveCore s k) := (within_saveCore s k).stateFrame (by simp)

/-- The state of a core changes; a RETIRED one is FENCED and its queue is empty. -/
def coreMarked (s : State) (k v : Nat) : State :=
  if v = 4 then
    updCore (wr (wr (wr s .HUB_SLOT_STATE_STATE k v) .HUB_SLOT_STATE_FENCED k 1) .INTEG_CORE_INFO_RETIRE_PENDING k 0) fun c => { c with
      queues := storeErase c.queues k, held := storeErase c.held k, arrays := storeErase c.arrays k,
      wheels := storeErase c.wheels k, waiting := c.waiting.filter (fun w => w.core != k), marks := storeErase c.marks k }
  else wr s .HUB_SLOT_STATE_STATE k v

theorem setCoreState_eq (s : State) (k v reason : Nat) :
    setCoreState s k v reason = coreRecord (saveCore (coreMarked s k v) k) k (coreState s k) reason := rfl

theorem stateFrame_coreMarked (s : State) (k v : Nat) : StateFrame s (coreMarked s k v) := by
  unfold coreMarked
  split
  · exact (((stateFrame_wr (by simp [stateFlds]) s _ _).trans (stateFrame_wr (by simp [stateFlds]) _ _ _)).trans
      (stateFrame_wr (by simp [stateFlds]) _ _ _)).trans (stateFrame_updCore _ rfl rfl rfl)
  · exact stateFrame_wr (by simp [stateFlds]) s _ _

theorem coreState_coreMarked (s : State) (k j v : Nat) : coreState (coreMarked s k v) j = if j = k then v else coreState s j := by
  unfold coreMarked coreState
  split <;> simp [rd_wr]

/-- A record of a core follows what its state became. -/
theorem within_coreRecord_saveCore (s : State) (k before reason : Nat) :
    Within [.rep] reportFlds s (coreRecord (saveCore s k) k before reason) :=
  ((within_saveCore s k).mono (by simp) (by simp)).trans (within_report _ _ _ _ _ _ _)

theorem stateFrame_setCoreState (s : State) (k v reason : Nat) : StateFrame s (setCoreState s k v reason) := by
  rw [setCoreState_eq]
  exact (stateFrame_coreMarked s k v).trans ((within_coreRecord_saveCore _ _ _ _).stateFrame (by simp [stateFlds]))

theorem coreState_setCoreState (s : State) (k j v reason : Nat) :
    coreState (setCoreState s k v reason) j = if j = k then v else coreState s j := by
  rw [setCoreState_eq, coreState, (within_coreRecord_saveCore _ _ _ _).regs _ _ (by decide)]
  exact coreState_coreMarked s k j v

theorem stateFrame_markRetired (s : State) (k reason : Nat) (atOnce : Bool) : StateFrame s (markRetired s k reason atOnce) := by
  unfold markRetired
  split
  · exact StateFrame.refl s
  · split
    · exact stateFrame_setCoreState _ _ _ _
    · exact (stateFrame_wr (by simp [stateFlds]) s _ _).trans (stateFrame_updCore _ rfl rfl rfl)

/-- A core that is marked RETIRED at once is RETIRED, and so stays every core that was. -/
theorem coreState_markRetired_atOnce (s : State) (k j reason : Nat) (h : j = k ∨ coreState s j = 4) :
    coreState (markRetired s k reason true) j = 4 := by
  unfold markRetired
  split
  · next hk => exact h.elim (fun e => e ▸ hk) id
  · rw [if_pos (Or.inl rfl), coreState_setCoreState]
    split
    · rfl
    · next hj => exact h.resolve_left hj

/-! Hubs -/

theorem stateFrame_hubRecord_saveHub (s : State) (h before trigger : Nat) : StateFrame s (hubRecord (saveHub s h) h before trigger) :=
  ((within_saveHub s h).stateFrame (by simp)).trans (stateFrame_report _ _ _ _ _ _ _)

theorem coreState_hubRecord_saveHub (s : State) (h before trigger k : Nat) :
    coreState (hubRecord (saveHub s h) h before trigger) k = coreState s k :=
  (((within_saveHub s h).mono (by simp) (by simp)).trans (within_report _ 0x05 h _ _ _ _)).regs _ _ (by decide)

theorem stateFrame_setHubState (s : State) (h v trigger : Nat) : StateFrame s (setHubState s h v trigger) := by
  unfold setHubState
  extract_lets before u l
  have hu : StateFrame s u := (stateFrame_wr (by simp [stateFlds]) s _ _).trans (stateFrame_hubRecord_saveHub _ _ _ _)
  refine hu.trans ?_
  split
  · exact (stateFrame_wr (by simp [stateFlds]) u _ _).trans (stateFrame_each (fun t p => stateFrame_markRetired t _ _ _) _ _)
  · split
    · exact stateFrame_updCore _ rfl rfl rfl
    · exact StateFrame.refl u

/-- A hub that is TRIMMED keeps the states of its cores. -/
theorem coreState_setHubState_trimmed (s : State) (h trigger k : Nat) : coreState (setHubState s h 1 trigger) k = coreState s k := by
  have hset : coreState (setHubState s h 1 trigger) k =
      coreState (hubRecord (saveHub (wr s .INTEG_HUB_STATE h 1) h) h (rd s .INTEG_HUB_STATE h) trigger) k := rfl
  rw [hset, coreState_hubRecord_saveHub]
  exact rd_wr_ne _ _ _ _ _ _ (by simp)

/-- A hub that is RETIRED is so with all its cores (R293). -/
theorem coreState_setHubState_retired (s : State) {h p : Nat} (hp : p < 66) (trigger : Nat) :
    coreState (setHubState s h 2 trigger) (h * 66 + p) = 4 := by
  unfold setHubState
  dsimp only
  rw [if_pos rfl]
  exact each_reach (p := fun t => coreState t (h * 66 + p) = 4) (a := p)
    (fun t => coreState_markRetired_atOnce t _ _ _ (Or.inl rfl))
    (fun t c ht => coreState_markRetired_atOnce t _ _ _ (Or.inr ht)) (List.mem_range.mpr hp) _

theorem stateFrame_hubSuspect (s : State) (h : Nat) : StateFrame s (hubSuspect s h) := by
  unfold hubSuspect
  extract_lets u
  refine (stateFrame_wr (by simp [stateFlds]) s _ _ : StateFrame s u).trans ?_
  split
  · exact StateFrame.refl u
  · split
    · exact stateFrame_setHubState _ _ _ _
    · split
      · exact stateFrame_setHubState _ _ _ _
      · exact StateFrame.refl u

/-- A hub with a further SUSPECT core keeps the states of its cores, or retires where it is TRIMMED already (R293). -/
theorem coreState_hubSuspect (s : State) {h p : Nat} (hp : p < 66) :
    coreState (hubSuspect s h) (h * 66 + p) = coreState s (h * 66 + p) ∨
      rd s .INTEG_HUB_STATE h = 1 ∧ coreState (hubSuspect s h) (h * 66 + p) = 4 := by
  unfold hubSuspect
  extract_lets u
  have hcore : coreState u (h * 66 + p) = coreState s (h * 66 + p) := rd_wr_ne _ _ _ _ _ _ (by simp)
  have hhub : rd u .INTEG_HUB_STATE h = rd s .INTEG_HUB_STATE h := rd_wr_ne _ _ _ _ _ _ (by simp)
  split
  · exact Or.inl hcore
  · split
    · exact Or.inl ((coreState_setHubState_trimmed u h 1 _).trans hcore)
    · split
      · next h1 => exact Or.inr ⟨hhub ▸ h1, coreState_setHubState_retired u hp 1⟩
      · exact Or.inl hcore

/-- A SUSPECT core's sweeps start again at full rate. -/
def suspectMarked (s : State) (k reason : Nat) : State :=
  updCore (wr (setCoreState s k 3 reason) .INTEG_CORE_INFO_PASS_RUN k 0) fun c => { c with
    testRate := storePut 0 c.testRate k 0
    clearRun := storeErase c.clearRun k
    hubSuspects := storePut [] c.hubSuspects (k / 66)
      (storeGet [] c.hubSuspects (k / 66) ++ [(k % 66, (setCoreState s k 3 reason).now, false)]) }

theorem markSuspect_eq (s : State) (k reason : Nat) : markSuspect s k reason = hubSuspect (suspectMarked s k reason) (k / 66) := rfl

theorem rd_suspectMarked {f : Fld} (hf : f ≠ .INTEG_CORE_INFO_PASS_RUN) (s : State) (k reason n : Nat) :
    rd (suspectMarked s k reason) f n = rd (setCoreState s k 3 reason) f n := by
  unfold suspectMarked
  rw [rd_updCore, rd_wr_ne _ _ _ _ _ _ fun e => hf e.1]

theorem stateFrame_suspectMarked (s : State) (k reason : Nat) : StateFrame s (suspectMarked s k reason) :=
  ((stateFrame_setCoreState s k 3 reason).trans (stateFrame_wr (by simp [stateFlds]) _ _ _)).trans (stateFrame_updCore _ rfl rfl rfl)

theorem stateFrame_markSuspect (s : State) (k reason : Nat) : StateFrame s (markSuspect s k reason) := by
  rw [markSuspect_eq]
  exact (stateFrame_suspectMarked s k reason).trans (stateFrame_hubSuspect _ _)

/-- A core that is marked SUSPECT is SUSPECT, unless its TRIMMED hub retires with it (R288, R293). -/
theorem coreState_markSuspect (s : State) (k reason : Nat) :
    coreState (markSuspect s k reason) k = 3 ∨ rd s .INTEG_HUB_STATE (k / 66) = 1 ∧ coreState (markSuspect s k reason) k = 4 := by
  have hk : k / 66 * 66 + k % 66 = k := by omega
  have hmarked : coreState (suspectMarked s k reason) k = 3 := by
    rw [coreState, rd_suspectMarked (by decide), ← coreState, coreState_setCoreState, if_pos rfl]
  have hhub : rd (suspectMarked s k reason) .INTEG_HUB_STATE (k / 66) = rd s .INTEG_HUB_STATE (k / 66) := by
    rw [rd_suspectMarked (by decide), setCoreState_eq, (within_coreRecord_saveCore _ _ _ _).regs _ _ (by decide)]
    exact rd_wr_ne _ _ _ _ _ _ (by simp)
  have h := coreState_hubSuspect (suspectMarked s k reason) (h := k / 66) (Nat.mod_lt k (by decide : 66 > 0))
  rw [hk, hmarked, hhub] at h
  rw [markSuspect_eq]
  exact h

end Sys2Proof.Machine
end

section
/-! O28: field tests, sweep rotations and hubs whose sweeps have fallen behind. -/

namespace Sys2Proof.Machine

/-! Runs of passing sweeps -/

theorem storeErase_idem {α : Type} (m : Store α) (k : Nat) : storeErase (storeErase m k) k = storeErase m k := by
  simp [storeErase, List.filter_filter]

/-- The end of a run of passing sweeps changes no field but PASS_RUN, and of sweeps the core's own. -/
theorem within_dropRun (s : State) (k : Nat) : Within [.core] [.INTEG_CORE_INFO_PASS_RUN] s (dropRun s k) :=
  ((within_wr s _ _ _).mono (by simp) (by simp)).trans ((within_core _ _).mono (by simp) (by simp))

/-- Where a core has no sweep under way the end of its run changes no sweep. -/
theorem stateFrame_dropRun {s : State} {k : Nat} (h : storeErase s.core.sweep k = s.core.sweep) : StateFrame s (dropRun s k) :=
  (stateFrame_wr (by simp [stateFlds]) s _ _).trans (stateFrame_updCore _ h rfl rfl)

theorem stateFrame_failedTest (s : State) (k : Nat) : StateFrame (dropRun s k) (failedTest s k) := by
  unfold failedTest
  dsimp only
  split
  · exact stateFrame_markSuspect _ _ _
  · exact stateFrame_markRetired _ _ _ _
  · split
    · exact StateFrame.refl _
    · split
      · exact stateFrame_markRetired _ _ _ _
      · exact stateFrame_updCore _ rfl rfl rfl
  · split
    · exact (stateFrame_wr (by simp [stateFlds]) _ _ _).trans (stateFrame_saveCore _ _)
    · exact StateFrame.refl _

/-- An ACTIVE core that fails a test leaves service (Table 10-3). -/
theorem coreState_failedTest {s : State} {k : Nat} (h : coreState s k = 1) :
    coreState (failedTest s k) k = 3 ∨ rd s .INTEG_HUB_STATE (k / 66) = 1 ∧ coreState (failedTest s k) k = 4 := by
  have hdrop : coreState (dropRun s k) k = 1 := ((within_dropRun s k).regs _ _ (by simp)).trans h
  have hhub : rd (dropRun s k) .INTEG_HUB_STATE (k / 66) = rd s .INTEG_HUB_STATE (k / 66) := (within_dropRun s k).regs _ _ (by simp)
  have hfail : failedTest s k = markSuspect (dropRun s k) k 0x03 := by
    unfold failedTest
    dsimp only
    rw [hdrop]
    rfl
  rw [hfail, ← hhub]
  exact coreState_markSuspect _ _ _

/-- A core has passed the whole library: its sweep is complete and counted. -/
def libraryPassed (s : State) (k : Nat) : State :=
  updCore (inc s .INTEG_CORE_INFO_PASS_RUN k) fun c => { c with
    sweepAt := storePut 0 c.sweepAt k s.now
    sweep := storeErase c.sweep k
    lastSwept := storeInsert c.lastSwept (k / 66) (k % 66)
    clearRun := storeInsert c.clearRun k ((storeGet (0, s.now) s.core.clearRun k).1 + 1, (storeGet (0, s.now) s.core.clearRun k).2) }

theorem within_libraryPassed (s : State) (k : Nat) : Within [.core] [.INTEG_CORE_INFO_PASS_RUN] s (libraryPassed s k) :=
  ((within_inc s _ _ _).mono (by simp) (by simp)).trans ((within_core _ _).mono (by simp) (by simp))

/-- What a complete sweep leads to leaves the sweeps. -/
theorem stateFrame_passedSweep (s : State) (k : Nat) : StateFrame (libraryPassed s k) (passedSweep s k) := by
  unfold passedSweep
  extract_lets h run u n u' v rate
  have hv : StateFrame (libraryPassed s k) v := by
    show StateFrame u' v
    unfold v
    split
    · exact stateFrame_wr (by simp [stateFlds]) _ _ _
    · exact StateFrame.refl _
  refine hv.trans ?_
  have hset : ∀ n x reason, StateFrame v (setCoreState (wr v .INTEG_CORE_INFO_SKIP k n) k x reason) := fun n x reason =>
    (stateFrame_wr (by simp [stateFlds]) v _ _).trans (stateFrame_setCoreState _ _ _ _)
  split
  · split
    · split
      · refine (hset _ _ _).trans (stateFrame_dropRun ?_)
        rw [(hset 0 2 9).sweep, hv.sweep]
        exact storeErase_idem _ k
      · exact StateFrame.refl v
    · split
      · exact StateFrame.refl v
      · exact hset _ _ _
  · split
    · exact (stateFrame_wr (by simp [stateFlds]) v _ _).trans (stateFrame_saveCore _ _)
    · exact StateFrame.refl v

/-! FIELD_TEST -/

/-- What a test that passes leaves: the core's sweep goes on, begins or is complete (R298). -/
def sweepNext (s : State) (k test : Nat) : State :=
  let done := storeGet [] s.core.sweep k
  if test = done.length + 1 then
    if test = testCount then passedSweep s k
    else updCore s fun c => { c with sweep := storeInsert c.sweep k (done ++ [test]) }
  else if test = 1 then updCore s fun c => { c with sweep := storeInsert c.sweep k [1] }
  else s

theorem sweepNext_counts (s : State) (k test hub : Nat) :
    rd (sweepNext s k test) .INTEG_TEST_PASS hub = rd s .INTEG_TEST_PASS hub ∧ (sweepNext s k test).mem = s.mem := by
  unfold sweepNext
  dsimp only
  split
  · split
    · have hdone := within_libraryPassed s k
      have hpass := stateFrame_passedSweep s k
      exact ⟨(hpass.within.regs _ _ (by decide)).trans (hdone.regs _ _ (by decide)), hpass.mem.trans (hdone.parts .mem (by simp))⟩
    · exact ⟨rfl, rfl⟩
  · split <;> exact ⟨rfl, rfl⟩

/-- The tests of a core's sweep that have passed. -/
theorem sweepNext_sweep (s : State) (k test : Nat) : storeFind (sweepNext s k test).core.sweep k =
    (if test = (storeGet [] s.core.sweep k).length + 1 then
      (if test = 12 then none else some (storeGet [] s.core.sweep k ++ [test]))
    else if test = 1 then some [1] else storeFind s.core.sweep k) := by
  unfold sweepNext testCount
  dsimp only
  split
  · split
    · rw [(stateFrame_passedSweep s k).sweep]
      exact storeFind_erase_same _ k
    · exact storeFind_insert_same _ k _
  · split
    · exact storeFind_insert_same _ k _
    · rfl

theorem sweepNext_complete (s : State) (k : Nat) (h : (storeGet [] s.core.sweep k).length = 11) :
    storeGet 0 (sweepNext s k 12).core.sweepAt k = s.now ∧ storeFind (sweepNext s k 12).core.lastSwept (k / 66) = some (k % 66) := by
  have hnext : sweepNext s k 12 = passedSweep s k := by
    unfold sweepNext
    dsimp only
    rw [h]
    rfl
  rw [hnext, (stateFrame_passedSweep s k).sweepAt, (stateFrame_passedSweep s k).lastSwept]
  exact ⟨storeGet_put_same 0 _ k s.now, storeFind_insert_same _ (k / 66) _⟩

section FieldTest
variable {s : State} {t hub phys test expected : Nat} {ft : FtRun} {event : Bool}

/-- The record of a test that failed (R296). -/
def failReported (s : State) (hub phys test expected : Nat) (ft : FtRun) (event : Bool) : State :=
  report (incX s .INTEG_TEST_FAIL hub) 0x06 (physIndex hub phys)
    [(1, test, false), (1, testSkip (incX s .INTEG_TEST_FAIL hub) (coreKey hub phys), false), (1, if event then 3 else 2, false),
      (8, observedCrc test ft, false), (8, expected, false)]

theorem exec_fieldTest (h1 : 1 ≤ test) (h12 : test ≤ 12) (hh : hub < 160) (hp : phys < 66)
    (ht : testable (tick s t) (coreKey hub phys) = true) (hs : testStarts (tick s t) (coreKey hub phys) test = true) :
    exec (.fieldTest t hub phys test ft expected event) s =
      settle s (if observedCrc test ft = expected ∧ event = false then
          sweepNext (incX (tick s t) .INTEG_TEST_PASS hub) (coreKey hub phys) test
        else failedTest (failReported (tick s t) hub phys test expected ft event) (coreKey hub phys)) := by
  show execFieldTest t hub phys test ft expected event s = _
  unfold execFieldTest
  dsimp only
  rw [if_pos (by simp [testCount, h1, h12, hh, hp, ht, hs])]
  rfl

theorem incX_core (s : State) (f : Fld) (n : Nat) : (incX s f n).core = s.core := (within_incX s f n 1).parts .core (by simp)

theorem incX_mem (s : State) (f : Fld) (n : Nat) : (incX s f n).mem = s.mem := (within_incX s f n 1).parts .mem (by simp)

theorem incX_now (s : State) (f : Fld) (n : Nat) : (incX s f n).now = s.now := (within_incX s f n 1).parts .now (by simp)

theorem coreKey_hub {hub phys : Nat} (hp : phys < 66) : coreKey hub phys / 66 = hub ∧ coreKey hub phys % 66 = phys := by
  unfold coreKey
  omega

variable (h1 : 1 ≤ test) (h12 : test ≤ 12) (hh : hub < 160) (hp : phys < 66)
  (ht : testable (tick s t) (coreKey hub phys) = true) (hs : testStarts (tick s t) (coreKey hub phys) test = true)
include h1 h12 hh hp ht hs

theorem fieldTest_passes (hcrc : observedCrc test ft = expected) (hev : event = false) :
    Runs (.fieldTest t hub phys test ft expected event) s fun v =>
      rd v .INTEG_TEST_PASS hub = rd (incX (tick s t) .INTEG_TEST_PASS hub) .INTEG_TEST_PASS hub ∧
      storeFind v.core.sweep (coreKey hub phys) =
        (if test = (storeGet [] (tick s t).core.sweep (coreKey hub phys)).length + 1 then
          (if test = 12 then none else some (storeGet [] (tick s t).core.sweep (coreKey hub phys) ++ [test]))
        else if test = 1 then some [1] else storeFind (tick s t).core.sweep (coreKey hub phys)) ∧
      (test = 12 → (storeGet [] (tick s t).core.sweep (coreKey hub phys)).length = 11 →
        storeGet 0 v.core.sweepAt (coreKey hub phys) = (tick s t).now ∧ storeFind v.core.lastSwept hub = some phys) ∧
      v.mem = s.mem := by
  have hexec := exec_fieldTest (ft := ft) (expected := expected) (event := event) h1 h12 hh hp ht hs
  rw [if_pos ⟨hcrc, hev⟩] at hexec
  obtain ⟨hpass, hmem⟩ := sweepNext_counts (incX (tick s t) .INTEG_TEST_PASS hub) (coreKey hub phys) test hub
  have hsweep := sweepNext_sweep (incX (tick s t) .INTEG_TEST_PASS hub) (coreKey hub phys) test
  rw [incX_core] at hsweep
  refine runs_of_settle hexec ⟨?_, hsweep, fun htest hlen => ?_, hmem.trans (incX_mem _ _ _)⟩
  · rw [rd_settled_other _ _ _ _ (by decide), hpass]
  · have hdone := sweepNext_complete (incX (tick s t) .INTEG_TEST_PASS hub) (coreKey hub phys) (by rw [incX_core]; exact hlen)
    rw [incX_now, (coreKey_hub hp).1, (coreKey_hub hp).2] at hdone
    rw [settled_core, htest]
    exact hdone

theorem fieldTest_fails (hbad : observedCrc test ft ≠ expected ∨ event = true) :
    Runs (.fieldTest t hub phys test ft expected event) s fun v =>
      rd v .INTEG_TEST_FAIL hub = rd (incX (tick s t) .INTEG_TEST_FAIL hub) .INTEG_TEST_FAIL hub ∧
      storeFind v.core.sweep (coreKey hub phys) = none ∧
      (coreState s (coreKey hub phys) = 1 →
        coreState v (coreKey hub phys) = 3 ∨ rd s .INTEG_HUB_STATE hub = 1 ∧ coreState v (coreKey hub phys) = 4) ∧
      v.mem = s.mem := by
  have hexec := exec_fieldTest (ft := ft) (expected := expected) (event := event) h1 h12 hh hp ht hs
  rw [if_neg (by rintro ⟨hcrc, hev⟩; simp [hcrc, hev] at hbad)] at hexec
  have hrep : Within [.rep] reportFlds (incX (tick s t) .INTEG_TEST_FAIL hub) (failReported (tick s t) hub phys test expected ft event) :=
    within_report _ _ _ _ _ _ _
  have hinc := within_incX (tick s t) .INTEG_TEST_FAIL hub 1
  generalize failReported (tick s t) hub phys test expected ft event = u at hexec hrep
  have hdrop := within_dropRun u (coreKey hub phys)
  have hfail := stateFrame_failedTest u (coreKey hub phys)
  refine runs_of_settle hexec ⟨?_, ?_, fun hactive => ?_, ?_⟩
  · rw [rd_settled_other _ _ _ _ (by decide), hfail.within.regs _ _ (by decide), hdrop.regs _ _ (by decide), hrep.regs _ _ (by decide)]
  · rw [settled_core, hfail.sweep]
    exact storeFind_erase_same _ _
  · have hsame : ∀ f n, f ∉ reportFlds → f ≠ .INTEG_TEST_FAIL → rd u f n = rd s f n := fun f n hf hne =>
      (hrep.regs f n hf).trans (hinc.regs f n (by simpa using hne))
    have hstate := coreState_failedTest (s := u) (k := coreKey hub phys) ((hsame _ _ (by decide) (by decide)).trans hactive)
    rw [(coreKey_hub hp).1, hsame _ _ (by decide) (by decide)] at hstate
    rw [coreState, rd_settled_other _ _ _ _ (by decide)]
    exact hstate
  · have hrepMem : u.mem = (incX (tick s t) .INTEG_TEST_FAIL hub).mem := hrep.parts .mem (by simp)
    have hdropMem : (dropRun u (coreKey hub phys)).mem = u.mem := hdrop.parts .mem (by simp)
    rw [settled_mem, hfail.mem, hdropMem, hrepMem, incX_mem, tick_mem]

end FieldTest

/-! SWEEP_ROTATION -/

/-- Of cores that may be swept one has the oldest last sweep. -/
theorem exists_oldest (age : Nat → Nat) {l : List Nat} (hl : l ≠ []) :
    ∃ p, l.find? (fun p => l.all fun q => decide (age p ≤ age q)) = some p := by
  rw [← Option.isSome_iff_exists, List.find?_isSome]
  obtain ⟨p, hp, hmin⟩ := l.toFinset.exists_min_image age (List.toFinset_nonempty_iff l |>.mpr hl)
  exact ⟨p, List.mem_toFinset.mp hp, by simpa using hmin⟩

/-- Where a hub has a SPARE core, some core is next to be swept (R298). -/
theorem exists_nextToSweep {s : State} {h q : Nat} (hq : q < 66) (hspare : coreState s (h * 66 + q) = 2) :
    ∃ p, nextToSweep s h = some p := by
  unfold nextToSweep
  dsimp only
  split
  · exact ⟨_, rfl⟩
  · split
    · exact ⟨_, rfl⟩
    · exact exists_oldest _ (List.ne_nil_of_mem (List.mem_filter.mpr ⟨List.mem_range.mpr hq, by simp [hspare]⟩))

/-- The fields of the remap banks' entries. -/
def remapFlds : List Fld :=
  [.HUB_REMAP_B0_SLOT_PHYS_SLOT, .HUB_REMAP_B0_SLOT_VALID, .HUB_REMAP_B1_SLOT_PHYS_SLOT, .HUB_REMAP_B1_SLOT_VALID]

theorem within_setBankEntry (s : State) (bank n v : Nat) : Within [] remapFlds s (setBankEntry s bank n v) := by
  unfold setBankEntry
  split
  · exact ((within_wr s _ _ _).mono (by simp) (by simp [remapFlds])).trans ((within_wr _ _ _ _).mono (by simp) (by simp [remapFlds]))
  · exact ((within_wr s _ _ _).mono (by simp) (by simp [remapFlds])).trans ((within_wr _ _ _ _).mono (by simp) (by simp [remapFlds]))

/-- A move of a slot changes the plan's boundary and the hub's remap table alone. -/
theorem within_requestMove (s : State) (h slot phys : Nat) :
    Within [.tt] ([.HUB_REMAP_CTRL_WRITE_DROPPED, .HUB_REMAP_CTRL_FLIP_REQ] ++ remapFlds) s (requestMove s h slot phys) := by
  unfold requestMove
  split
  · exact (within_wr s _ _ _).mono (by simp) (by simp)
  · dsimp only
    refine Within.trans ?_ (((within_wr _ _ _ _).mono (by simp) (by simp)).trans ((within_wantBoundary _).mono (by simp) (by simp)))
    exact within_each _ (fun t l => ((within_setBankEntry t _ _ _).mono (by simp) (by simp)).trans
      ((within_tt _ _).mono (by simp) (by simp))) _ _

/-- The move of a slot waits for its flip (R20). -/
theorem rd_requestMove_flipReq (s : State) (h slot phys : Nat) : rd (requestMove s h slot phys) .HUB_REMAP_CTRL_FLIP_REQ h = 1 := by
  unfold requestMove
  split
  · next hreq =>
    rw [rd_wr_ne _ _ _ _ _ _ (by simp)]
    simpa [rdb_eq] using hreq
  · exact ((within_wantBoundary _).regs _ _ (by simp)).trans (rd_wr_same _ _ _ _)

/-- The cores of a hub that are SPARE. -/
abbrev sparesOf (s : State) (hub : Nat) : List Nat := (List.range 66).filter fun p => coreState s (hub * 66 + p) == 2

/-- The state in which a hub's cores have rotated. -/
def rotatedAt (s : State) (hub : Nat) : State := updCore s fun c => { c with lastRotate := storeInsert c.lastRotate hub s.now }

/-- What a rotation of a core leaves: the slot of an ACTIVE one is to move to a SPARE (R298). -/
def rotated (s : State) (hub p : Nat) : State :=
  match logicalOf (rotatedAt s hub) hub p,
    ((storeFind (rotatedAt s hub).core.lastSwept hub).filter (fun q => decide (q ∈ sparesOf s hub))).or (sparesOf s hub).head? with
  | some l, some q => if coreState (rotatedAt s hub) (hub * 66 + p) = 1 ∧ q ≠ p then requestMove (rotatedAt s hub) hub l q else rotatedAt s hub
  | _, _ => rotatedAt s hub

theorem exec_sweepRotation {s : State} {t hub p : Nat} (hh : hub < 160) (hen : rd s .INTEG_FT_ROTATE_EN 0 = 1)
    (hsp : 2 ≤ (sparesOf (tick s t) hub).length)
    (hdue : ∀ x, storeFind (tick s t).core.lastRotate hub = some x → x + rd s .INTEG_FT_ROTATE_MIN * 1000000000 ≤ (tick s t).now)
    (hnext : nextToSweep (tick s t) hub = some p) : exec (.sweepRotation t hub) s = settle s (rotated (tick s t) hub p) := by
  have hen' : rdb (tick s t) .INTEG_FT_ROTATE_EN = true := by rw [rdb_eq, rd_tick, hen]; rfl
  have hdue' : (match storeFind (tick s t).core.lastRotate hub with
      | some x => decide (x + rd (tick s t) .INTEG_FT_ROTATE_MIN * 1000000000 ≤ (tick s t).now)
      | none => true) = true := by
    split
    · next x hx => exact decide_eq_true (hdue x hx)
    · rfl
  show execSweepRotation t hub s = _
  unfold execSweepRotation
  dsimp only
  rw [if_pos (by simp only [Bool.and_eq_true, decide_eq_true_eq]; exact ⟨⟨⟨hh, hen'⟩, hsp⟩, hdue'⟩), hnext]
  rfl

theorem rotated_frames (s : State) (hub p : Nat) :
    storeFind (rotated s hub p).core.lastRotate hub = some s.now ∧ (rotated s hub p).mem = s.mem := by
  have hat : storeFind (rotatedAt s hub).core.lastRotate hub = some s.now := storeFind_insert_same _ hub _
  unfold rotated
  split
  · split
    · next l q _ _ _ =>
      have hmove := within_requestMove (rotatedAt s hub) hub l q
      have hcore : (requestMove (rotatedAt s hub) hub l q).core = (rotatedAt s hub).core := hmove.parts .core (by simp)
      exact ⟨by rw [hcore]; exact hat, hmove.parts .mem (by simp)⟩
    · exact ⟨hat, rfl⟩
  · exact ⟨hat, rfl⟩

/-- A SPARE core takes over the slot of an ACTIVE one. -/
theorem rotated_moves {s : State} {hub p l : Nat} (hsp : sparesOf s hub ≠ []) (hl : logicalOf s hub p = some l)
    (hactive : coreState s (hub * 66 + p) = 1) : rd (rotated s hub p) .HUB_REMAP_CTRL_FLIP_REQ hub = 1 := by
  obtain ⟨q, hq, hmem⟩ : ∃ q, ((storeFind (rotatedAt s hub).core.lastSwept hub).filter
      (fun q => decide (q ∈ sparesOf s hub))).or (sparesOf s hub).head? = some q ∧ q ∈ sparesOf s hub := by
    cases hf : (storeFind (rotatedAt s hub).core.lastSwept hub).filter (fun q => decide (q ∈ sparesOf s hub)) with
    | some q => exact ⟨q, rfl, of_decide_eq_true (Option.filter_eq_some_iff.mp hf).2⟩
    | none => exact ⟨_, List.head?_eq_some_head hsp, List.head_mem hsp⟩
  have hne : q ≠ p := by
    rintro rfl
    have := (List.mem_filter.mp hmem).2
    simp [hactive] at this
  have hl' : logicalOf (rotatedAt s hub) hub p = some l := hl
  have hactive' : coreState (rotatedAt s hub) (hub * 66 + p) = 1 := hactive
  unfold rotated
  rw [hl', hq]
  dsimp only
  rw [if_pos ⟨hactive', hne⟩]
  exact rd_requestMove_flipReq _ _ _ _

theorem sweepRotation_runs (s : State) (t hub : Nat) (hh : hub < 160) (hen : rd s .INTEG_FT_ROTATE_EN 0 = 1)
    (hsp : 2 ≤ (sparesOf (tick s t) hub).length)
    (hdue : ∀ x, storeFind (tick s t).core.lastRotate hub = some x → x + rd s .INTEG_FT_ROTATE_MIN * 1000000000 ≤ (tick s t).now) :
    Runs (.sweepRotation t hub) s fun v => storeFind v.core.lastRotate hub = some (tick s t).now ∧ v.mem = s.mem ∧
      (∀ p l, nextToSweep (tick s t) hub = some p → logicalOf (tick s t) hub p = some l →
        coreState (tick s t) (hub * 66 + p) = 1 → rd v .HUB_REMAP_CTRL_FLIP_REQ hub = 1) := by
  have hne : sparesOf (tick s t) hub ≠ [] := List.ne_nil_of_length_pos (by omega)
  obtain ⟨q, hq⟩ := List.exists_mem_of_ne_nil _ hne
  obtain ⟨hrange, hspare⟩ := List.mem_filter.mp hq
  obtain ⟨p, hnext⟩ := exists_nextToSweep (List.mem_range.mp hrange) (by simpa using hspare)
  obtain ⟨hlast, hmem⟩ := rotated_frames (tick s t) hub p
  refine runs_of_settle (exec_sweepRotation hh hen hsp hdue hnext) ⟨hlast, hmem, fun p' l hp hl hactive => ?_⟩
  obtain rfl : p = p' := Option.some.inj (hnext.symm.trans hp)
  rw [rd_settled_other _ _ _ _ (by decide)]
  exact rotated_moves hne hl hactive

/-! FT_STARVED -/

/-- The data of a DERATE record that carries a hub's flag (Table 10-7). -/
def derateData (s : State) : List (Nat × Nat × Bool) :=
  [(2, rd s .INTEG_DERATE_SERVING, false), (1, ((List.range 160).filter (fun h => !inPlacement s h)).length, false),
    (2, rd s .INTEG_DERATE_RATIO, false), (1, 1, false)]

theorem ftStarved_runs (s : State) (t hub : Nat) (hh : hub < 160) (hst : starved (tick s t) hub = true)
    (hflag : rd s .INTEG_HUB_FT_STARVED hub = 0) : Runs (.ftStarved t hub) s fun v =>
      rd v .INTEG_HUB_FT_STARVED hub = 1 ∧ KeptBut [.rep, .now] s v := by
  have hflag' : rdb (tick s t) .INTEG_HUB_FT_STARVED hub = false := by rw [rdb_eq, rd_tick, hflag]; rfl
  have hexec : exec (.ftStarved t hub) s = settle s (report (wr (tick s t) .INTEG_HUB_FT_STARVED hub 1) 0x0D hub
      (derateData (wr (tick s t) .INTEG_HUB_FT_STARVED hub 1))) := by
    show execFtStarved t hub s = _
    unfold execFtStarved
    dsimp only
    rw [if_pos (by simp [hh, hst, hflag'])]
    rfl
  generalize derateData _ = data at hexec
  have hrep := within_report (wr (tick s t) .INTEG_HUB_FT_STARVED hub 1) 0x0D hub data none 0 false
  have hall : Within [.rep, .now] (reportFlds ++ [.INTEG_HUB_FT_STARVED]) s
      (report (wr (tick s t) .INTEG_HUB_FT_STARVED hub 1) 0x0D hub data) :=
    (((within_tick s t).mono (by simp) (by simp)).trans ((within_wr _ _ _ _).mono (by simp) (by simp))).trans
      (hrep.mono (by simp) (by simp))
  refine runs_of_settle hexec ⟨?_, hall.settled.1⟩
  rw [rd_settled_other _ _ _ _ (by decide), hrep.regs _ _ (by decide), rd_wr_same]

/-- Settles O28: a test that passes moves its core's sweep on (`sweepNext_sweep`), one that fails takes an ACTIVE core out of service
(`coreState_failedTest`); with a SPARE core some core is always next (`exists_nextToSweep`). -/
theorem fieldTestsRun : Obligations.FieldTestsRun :=
  ⟨fun _ _ _ _ _ _ _ _ h1 h12 hh hp ht hs =>
    ⟨fieldTest_passes h1 h12 hh hp ht hs, fieldTest_fails h1 h12 hh hp ht hs⟩, sweepRotation_runs, ftStarved_runs⟩

end Sys2Proof.Machine
end

section
/-! What a step boundary leaves and brings about: the time, whether a step runs, and the flips it carries out. -/

namespace Sys2Proof.Machine

/-- The fields in which flips at the next boundary are requested. -/
def flipFlds : List Fld := [.WING_TT_CTRL_FLIP_REQ, .VEC_COEF_CTRL_FLIP_REQ, .PANNIER_CTRL_FLIP_REQ]

/-- The time, whether a step runs, and the fields fs are as they were. -/
structure Steady (fs : List Fld) (s t : State) : Prop where
  now : t.now = s.now
  running : t.tt.run.running = s.tt.run.running
  regs : ∀ f ∈ fs, ∀ n, rd t f n = rd s f n

theorem Steady.refl (fs : List Fld) (s : State) : Steady fs s s := ⟨rfl, rfl, fun _ _ _ => rfl⟩

theorem Steady.trans {fs : List Fld} {s t u : State} (h : Steady fs s t) (k : Steady fs t u) : Steady fs s u :=
  ⟨k.now.trans h.now, k.running.trans h.running, fun f hf n => (k.regs f hf n).trans (h.regs f hf n)⟩

theorem Steady.mono {fs gs : List Fld} {s t : State} (h : Steady fs s t) (hg : gs ⊆ fs) : Steady gs s t :=
  ⟨h.now, h.running, fun f hf => h.regs f (hg hf)⟩

/-- What changes neither the time nor the timetable leaves the fields that it does not name. -/
theorem Within.steady {ps : List Part} {fs gs : List Fld} {s t : State} (h : Within ps gs s t)
    (hnow : Part.now ∉ ps := by simp) (htt : Part.tt ∉ ps := by simp) (hf : ∀ f ∈ fs, f ∉ gs := by decide) : Steady fs s t := by
  have he : t.tt = s.tt := h.parts .tt htt
  exact ⟨h.parts .now hnow, by rw [he], fun f m n => h.regs f n (hf f m)⟩

theorem steady_updTt (fs : List Fld) {s : State} (f : Timetable → Timetable) (h : (f s.tt).run.running = s.tt.run.running) :
    Steady fs s (updTt s f) := ⟨rfl, h, fun _ _ _ => rfl⟩

theorem steady_wr {fs : List Fld} (s : State) (f : Fld) (n v : Nat) (hf : ∀ g ∈ fs, g ∉ [f] := by decide) :
    Steady fs s (wr s f n v) :=
  (within_wr s f n v).steady (hf := hf)

theorem steady_each {α : Type} {fs : List Fld} {f : State → α → State} (hf : ∀ s a, Steady fs s (f s a)) (l : List α) (s : State) :
    Steady fs s (each l s f) := each_rel (Steady.refl fs) Steady.trans hf l s

/-! Items that end -/

theorem steady_keepBoundary (fs : List Fld) (b : Nat) (s : State) : Steady fs s (keepBoundary b s) := by
  unfold keepBoundary
  split
  · exact steady_updTt fs _ rfl
  · exact Steady.refl fs s

theorem steady_dropItem (fs : List Fld) (s : State) (ctx idx : Nat) : Steady fs s (dropItem s ctx idx) := by
  have hopen : Steady fs s (dropOpen s ctx idx) := by
    unfold dropOpen
    split
    · exact Steady.refl fs s
    · exact (steady_updTt fs _ rfl).trans (steady_keepBoundary fs _ _)
  unfold dropItem
  extract_lets u old kept last
  refine Steady.trans (t := u) hopen ?_
  split
  · exact Steady.refl fs u
  · exact (steady_updTt fs _ rfl).trans (steady_keepBoundary fs _ _)

theorem steady_finishItem (s : State) (x : Item) (code detail cardId : Nat) :
    Steady flipFlds s (finishItem s x code detail cardId) := by
  rw [finishItem_eq]
  exact (((within_finalSent s x code detail cardId).steady).trans (within_serve _ _).steady).trans
    ((released_sessionAtFinal _ x).within.steady.trans (steady_dropItem _ _ _ _))

theorem steady_endItem (s : State) (x : Item) (code detail cardId : Nat) : Steady flipFlds s (endItem s x code detail cardId) := by
  refine (steady_finishItem s x code detail cardId).trans ?_
  refine Steady.trans (within_serve _ _).steady (steady_each (fun t i => ?_) _ _)
  dsimp only
  split
  · exact (steady_finishItem t i _ _ _).trans (released_releaseModel _ _).within.steady
  · exact steady_finishItem t i _ _ _

theorem steady_endItems (s : State) (p : Item → Bool) (code detail : Nat) : Steady flipFlds s (endItems s p code detail) := by
  refine steady_each (fun t x => ?_) _ _
  split
  · exact steady_endItem _ _ _ _ _
  · exact Steady.refl _ t

theorem steady_endStopped (s : State) : Steady flipFlds s (endStopped s) := by
  refine ((steady_endItems s _ _ _).trans (within_serve _ _).steady).trans (steady_each (fun t x => ?_) _ _)
  split
  · split
    · exact steady_endItem _ _ _ _ _
    · exact steady_endItem _ _ _ _ _
  · exact Steady.refl _ t

theorem steady_endCloses (s : State) : Steady flipFlds s (endCloses s) := by
  refine Steady.trans (steady_each (fun t i => ?_) _ s) (steady_each (fun t x => steady_endItem _ _ _ _ _) _ _)
  split
  · split
    · exact (released_freeSession t i).within.steady
    · exact Steady.refl _ t
  · exact Steady.refl _ t

theorem steady_abandonParks (s : State) : Steady flipFlds s (abandonParks s) := by
  refine steady_each (fun t i => ?_) _ s
  split
  · split
    · exact (within_setRoot _ _ _).steady.trans ((within_lard _ _).steady.trans (within_serve _ _).steady)
    · exact Steady.refl _ t
  · exact Steady.refl _ t

theorem steady_endPannier (s : State) (k : Nat × Nat × Nat × Nat) : Steady flipFlds s (endPannier s k) := by
  have hdone : ∀ k detail, Steady flipFlds s (endDone s k detail) := by
    intro k detail
    unfold endDone
    split
    · exact steady_endItem _ _ _ _ _
    · exact Steady.refl _ s
  unfold endPannier
  split
  · exact hdone _ _
  · split
    · exact steady_endItem _ _ _ _ _
    · exact Steady.refl _ s


/-! Tables of cores -/

theorem steady_hubError (s : State) (hub off value slot : Nat) (cause : Option Nat) :
    Steady flipFlds s (hubError s hub off value slot cause) := (within_hubError s hub off value slot cause).steady

theorem steady_trail (fs : List Fld) (s : State) (k code ctx arg16 arg32 : Nat) : Steady fs s (trail s k code ctx arg16 arg32) :=
  (within_trail s k code ctx arg16 arg32).steady (hf := by simp)

theorem StateFrame.steady {s t : State} (h : StateFrame s t) : Steady flipFlds s t := h.within.steady

theorem steady_activateBank (s : State) (h : Nat) : Steady flipFlds s (activateBank s h) := by
  have slot : ∀ (t : State) (k v : Nat), Steady flipFlds t (saveCore (wr t .HUB_SLOT_STATE_STATE k v) k) := fun t k v =>
    (steady_wr t _ _ _).trans (within_saveCore _ k).steady
  unfold activateBank
  extract_lets named0 s1 s2 s3 s4 s5 a s6 put
  have h3 : Steady flipFlds s s3 := ((steady_wr s _ _ _).trans (steady_wr s1 _ _ _)).trans (steady_updTt _ _ rfl)
  have h4 : Steady flipFlds s3 s4 := by
    refine steady_each (fun t p => ?_) _ s3
    dsimp only
    split
    · exact slot _ _ _
    · split
      · split
        · exact (stateFrame_setCoreState _ _ _ _).steady
        · split
          · exact slot _ _ _
          · exact Steady.refl _ t
      · exact Steady.refl _ t
  have h6 : Steady flipFlds s4 s6 := (steady_trail _ s4 _ _ _ _ _).trans (steady_wr s5 _ _ _)
  exact (h3.trans h4).trans (h6.trans (within_saveRetirement s6 _).steady)

theorem steady_flipRemap (s : State) (h : Nat) : Steady flipFlds s (flipRemap s h) := by
  unfold flipRemap
  extract_lets full u
  refine Steady.trans (t := u) (steady_wr s _ _ _) ?_
  split
  · exact steady_activateBank u h
  · exact (steady_wr u _ _ _).trans (steady_hubError _ _ _ _ _ _)

theorem steady_moveSlots (s : State) (h : Nat) : Steady flipFlds s (moveSlots s h) := by
  unfold moveSlots
  extract_lets bad spares out take stays slow left moves u a v
  have hu : Steady flipFlds s u := by
    refine steady_each (fun t e => ?_) _ s
    split
    · dsimp only
      split
      · exact (steady_wr t _ _ _).trans (within_saveCore _ _).steady
      · exact Steady.refl _ t
    · exact Steady.refl _ t
  refine hu.trans ?_
  split
  · exact Steady.refl _ u
  · have hv : Steady flipFlds u v := steady_each (fun t l => (within_setBankEntry t _ _ _).steady) _ u
    exact hv.trans (steady_activateBank v h)

theorem steady_coresAtBoundary (s : State) : Steady flipFlds s (coresAtBoundary s) := by
  refine (steady_each steady_flipRemap _ s).trans ((steady_each steady_moveSlots _ _).trans (steady_each (fun t h => ?_) _ _))
  split
  · exact steady_wr t _ _ _
  · exact Steady.refl _ t

/-! Hubs, gears and counts -/

theorem steady_hubsWithdrawn (s : State) : Steady flipFlds s (hubsWithdrawn s) :=
  steady_each (fun t _ => steady_wr t _ _ _) _ s

/-- The fields that the gears of the wings are shown in. -/
def gearFlds : List Fld := [.DRL_GEAR_FORCED, .DRL_GEAR_CURRENT, .DRL_VCORE_MILLIVOLTS]

theorem within_settleGear (s : State) (w : Nat) : Within [] gearFlds s (settleGear s w) :=
  (((within_wrb s _ _ _).mono (by simp) (by simp [gearFlds])).trans ((within_wr _ _ _ _).mono (by simp) (by simp [gearFlds]))).trans
    ((within_wr _ _ _ _).mono (by simp) (by simp [gearFlds]))

theorem steady_throttleReturn (s : State) : Steady flipFlds s (throttleReturn s) := by
  unfold throttleReturn
  split
  · exact Steady.refl _ s
  · exact steady_each (fun t w => ((steady_wr t _ _ _).trans (within_settleGear _ w).steady).trans (steady_trail _ _ _ _ _ _ _)) _ s

theorem steady_addContributions (s : State) : Steady flipFlds s (addContributions s) := by
  have hcounts : ∀ f ∈ debugCounters, ∀ g ∈ flipFlds, g ∉ [f] := by decide
  unfold addContributions
  refine Steady.trans (steady_each (fun t e => ?_) _ s) (within_dbg _ _).steady
  split
  · next f hf => exact steady_wr t f _ _ (hcounts f (List.mem_of_getElem? hf))
  · exact Steady.refl _ t

theorem within_wrAll (f : Fld) (v : Nat) : ∀ (ns : List Nat) (s : State), Within [] [f] s (wrAll s f ns v)
  | [], s => Within.refl _ _ s
  | n :: ns, s => (within_wr s f n v).trans (within_wrAll f v ns (wr s f n v))

theorem steady_dropsBind (s : State) : Steady flipFlds s (dropsBind s) := by
  unfold dropsBind
  dsimp only
  split
  · exact Steady.refl _ s
  · exact (within_pwr s _).steady.trans (within_wrAll _ _ _ _).steady

theorem steady_wantBoundary (s : State) : Steady flipFlds s (wantBoundary s) := by
  unfold wantBoundary
  split
  · exact Steady.refl _ s
  · exact steady_updTt _ _ rfl

/-! The plan -/

/-- The plan's next open step at most moves more; memory and what the timetable has frozen or runs are as they were. -/
structure PlanMoved (s t : State) : Prop where
  mem : t.mem = s.mem
  frozen : t.tt.frozen = s.tt.frozen
  gearLimit : t.tt.gearLimit = s.tt.gearLimit
  run : t.tt.run = s.tt.run
  head : ∀ p rest, openSteps s = p :: rest → ∃ m rest', p.moveNs ≤ m ∧ openSteps t = { p with moveNs := m } :: rest'

theorem PlanMoved.refl (s : State) : PlanMoved s s := ⟨rfl, rfl, rfl, rfl, fun _ rest h => ⟨_, rest, le_rfl, h⟩⟩

theorem PlanMoved.trans {s t u : State} (h : PlanMoved s t) (k : PlanMoved t u) : PlanMoved s u := by
  refine ⟨k.mem.trans h.mem, k.frozen.trans h.frozen, k.gearLimit.trans h.gearLimit, k.run.trans h.run, fun p rest hp => ?_⟩
  obtain ⟨m, rest', hm, ht⟩ := h.head p rest hp
  obtain ⟨n, rest'', hn, hu⟩ := k.head _ _ ht
  exact ⟨n, rest'', hm.trans hn, hu⟩

theorem planMoved_of_tt {s t : State} (hmem : t.mem = s.mem) (hplan : t.tt.plan = s.tt.plan) (hfrozen : t.tt.frozen = s.tt.frozen)
    (hgear : t.tt.gearLimit = s.tt.gearLimit) (hrun : t.tt.run = s.tt.run) : PlanMoved s t := by
  refine ⟨hmem, hfrozen, hgear, hrun, fun p rest hp => ⟨p.moveNs, rest, le_rfl, ?_⟩⟩
  have : openSteps t = openSteps s := by simp only [openSteps, frozenCount, hplan, hfrozen]
  exact this.trans hp

/-- What leaves memory and the timetable leaves the plan. -/
theorem Within.planMoved {ps : List Part} {fs : List Fld} {s t : State} (h : Within ps fs s t) (hmem : Part.mem ∉ ps := by simp)
    (htt : Part.tt ∉ ps := by simp) : PlanMoved s t := by
  have he : t.tt = s.tt := h.parts .tt htt
  exact planMoved_of_tt (h.parts .mem hmem) (by rw [he]) (by rw [he]) (by rw [he]) (by rw [he])

theorem planMoved_each {α : Type} {f : State → α → State} (hf : ∀ s a, PlanMoved s (f s a)) (l : List α) (s : State) :
    PlanMoved s (each l s f) := each_rel PlanMoved.refl PlanMoved.trans hf l s

theorem planMoved_planMove (s : State) (n : Nat) : PlanMoved s (planMove s n) := by
  refine ⟨rfl, rfl, rfl, rfl, fun p rest hp => ?_⟩
  have hlen : (s.tt.plan.take (frozenCount s)).length = frozenCount s := by
    have : frozenCount s < s.tt.plan.length := by
      by_contra hle
      rw [openSteps, List.drop_of_length_le (Nat.le_of_not_lt hle)] at hp
      cases hp
    rw [List.length_take]
    omega
  have hopen : openSteps (planMove s n) = planMove.go s (openSteps s) n := by
    show List.drop (frozenCount s) (s.tt.plan.take (frozenCount s) ++ planMove.go s (openSteps s) n) = _
    rw [List.drop_append_of_le_length (by omega), List.drop_of_length_le (by omega), List.nil_append]
  rw [hopen, hp, planMove.go]
  split
  · exact ⟨p.moveNs, _, le_rfl, rfl⟩
  · exact ⟨_, _, Nat.le_add_right _ _, rfl⟩

theorem planMoved_startPark (s : State) (form i : Nat) : PlanMoved s (startPark s form i) := by
  have finish : ∀ (u : State) (p : Prop) [Decidable p] (ns : Nat), PlanMoved s u →
      PlanMoved s (if p then inc u .LARDER_PARKS else planMove u ns) := by
    intro u p _ ns hu
    split
    · exact hu.trans (within_inc u _ _ _).planMoved
    · exact hu.trans (planMoved_planMove u ns)
  unfold startPark
  split
  · dsimp only
    refine finish _ _ _ ?_
    split
    · split
      · exact (within_setRoot _ _ _).planMoved.trans (within_serve _ _).planMoved
      · exact PlanMoved.refl s
    · split
      · exact (within_setRoot _ _ _).planMoved.trans (within_lard _ _).planMoved
      · exact PlanMoved.refl s
  · exact PlanMoved.refl s

theorem planMoved_parkSession (s : State) (form i : Nat) : PlanMoved s (parkSession s form i) := by
  unfold parkSession
  dsimp only
  split
  · exact (planMoved_startPark s form i).trans (planMoved_startPark _ form _)
  · exact planMoved_startPark s form i

theorem planMoved_parkDue (s : State) : PlanMoved s (parkDue s) := by
  refine planMoved_each (fun t i => ?_) _ s
  split
  · exact planMoved_parkSession _ _ _
  · exact PlanMoved.refl t

theorem steady_parkDue (s : State) : Steady flipFlds s (parkDue s) := by
  obtain ⟨_, hpark⟩ := parkDue_frames s
  have hkept : ∀ f ∈ flipFlds, f ∉ [Fld.LARDER_PARKS] := by decide
  exact ⟨hpark.parts .now (by simp), congrArg StepRun.running (planMoved_parkDue s).run, fun f hf n => hpark.regs f n (hkept f hf)⟩


/-! Flips -/

theorem steady_flipWing (s : State) (w : Nat) : Steady flipFlds (wr s .WING_TT_CTRL_FLIP_REQ w 0) (flipWing s w) := by
  by_cases h : mayFlip s w
  · rw [flipWing_of_mayFlip h]
    generalize wr s .WING_TT_CTRL_FLIP_REQ w 0 = u
    exact (((within_flipWingRegs u w _ _ _).steady).trans (within_flipHubs _ w _ _).steady).trans
      ((steady_updTt _ _ rfl).trans (steady_trail _ _ _ _ _ _ _))
  · obtain ⟨hub, chan, why, heq⟩ := flipWing_of_not_mayFlip h
    rw [heq]
    exact (within_rejectWing _ w hub chan why).steady

theorem steady_flipCoefs (s : State) (h : Nat) : Steady flipFlds (wr s .VEC_COEF_CTRL_FLIP_REQ h 0) (flipCoefs s h) := by
  unfold flipCoefs
  extract_lets u a g u1 u2 u3
  split
  · have h1 : Steady flipFlds u u1 := steady_wr u _ _ _
    have h2 : Steady flipFlds u1 u2 := (steady_wr u1 _ _ _).trans (steady_wr _ _ _ _)
    have h3 : Steady flipFlds u2 u3 := (steady_wr u2 _ _ _).trans (steady_wr _ _ _ _)
    exact (h1.trans h2).trans (h3.trans ((steady_updTt _ _ rfl).trans (steady_trail _ _ _ _ _ _ _)))
  · exact (steady_wr u _ _ _).trans (steady_hubError _ _ _ _ _ _)

theorem steady_pannierFlip (s : State) : Steady flipFlds (wr s .PANNIER_CTRL_FLIP_REQ 0 0) (pannierFlip s) := by
  have hbank : ∀ u : State, Steady flipFlds u (flipBank u) := fun u =>
    (((steady_wr u _ _ _).trans (steady_wr _ _ _ _)).trans (steady_wr _ _ _ _)).trans (steady_wr _ _ _ _)
  unfold pannierFlip
  extract_lets u
  split
  · exact hbank u
  · exact (steady_wr u _ _ _).trans (steady_hubError _ _ _ _ _ _)

theorem mem_of_storeFind {α : Type} {m : Store α} {k : Nat} {v : α} (h : storeFind m k = some v) : (k, v) ∈ m := by
  induction m with
  | nil => cases h
  | cons e r ih =>
    obtain ⟨j, w⟩ := e
    rw [storeFind] at h
    split at h
    · next hk =>
      obtain rfl := Option.some.inj h
      exact hk ▸ List.mem_cons_self
    · exact List.mem_cons_of_mem _ (ih h)

/-- A register that holds 1 where its reset value is another is listed. -/
theorem mem_instancesSet {s : State} {f : Fld} {n : Nat} (hreset : regReset f n ≠ 1) (h : rd s f n = 1) : n ∈ instancesSet s f := by
  have hlt := ctorIdx_lt f
  have hmem : (regKey f n, 1) ∈ s.regs := by
    unfold rd storeGet at h
    by_contra hno
    have hnone : storeFind s.regs (regKey f n) ≠ some 1 := fun hs => hno (mem_of_storeFind hs)
    cases hf : storeFind s.regs (regKey f n) with
    | none => rw [hf] at h; exact hreset h
    | some v => rw [hf] at h; exact hnone (hf.trans (congrArg some h))
  refine List.mem_map.mpr ⟨_, List.mem_filter.mpr ⟨hmem, ?_⟩, ?_⟩
  · simp [regKey, Nat.add_mod, Nat.mod_eq_of_lt hlt]
  · simp only [regKey]
    omega

/-- Where each step clears its own register of a field, none is set after them all. -/
theorem rd_each_instancesSet {f : Fld} {g : State → Nat → State} (hreset : ∀ n, regReset f n ≠ 1)
    (hg : ∀ t c n, rd (g t c) f n = if n = c then 0 else rd t f n) (s : State) (n : Nat) :
    rd (each (instancesSet s f) s g) f n ≠ 1 := by
  have hkeep : ∀ t c, rd t f n ≠ 1 → rd (g t c) f n ≠ 1 := fun t c ht => by
    rw [hg]
    split
    · decide
    · exact ht
  by_cases h : rd s f n = 1
  · exact each_reach (p := fun t => rd t f n ≠ 1) (a := n) (fun t => by rw [hg, if_pos rfl]; decide) hkeep
      (mem_instancesSet (hreset n) h) s
  · exact each_keep (p := fun t => rd t f n ≠ 1) g hkeep _ s h

theorem steady_tablesAtBoundary (s : State) : Steady [.PANNIER_CTRL_FLIP_REQ] s (tablesAtBoundary s) :=
  (steady_each (fun t w => (steady_wr t _ _ _).trans ((steady_flipWing t w).mono (by decide))) _ s).trans
    (steady_each (fun t h => (steady_wr t _ _ _).trans ((steady_flipCoefs t h).mono (by decide))) _ _)

/-- The flips of tables that were requested are over. -/
theorem tablesAtBoundary_flips (s : State) (n : Nat) :
    rd (tablesAtBoundary s) .WING_TT_CTRL_FLIP_REQ n ≠ 1 ∧ rd (tablesAtBoundary s) .VEC_COEF_CTRL_FLIP_REQ n ≠ 1 := by
  have hwing : ∀ t c m, rd (flipWing t c) .WING_TT_CTRL_FLIP_REQ m = if m = c then 0 else rd t .WING_TT_CTRL_FLIP_REQ m := by
    intro t c m
    rw [(steady_flipWing t c).regs _ (by simp [flipFlds]), rd_wr]
    simp
  have hcoef : ∀ t c m, rd (flipCoefs t c) .VEC_COEF_CTRL_FLIP_REQ m = if m = c then 0 else rd t .VEC_COEF_CTRL_FLIP_REQ m := by
    intro t c m
    rw [(steady_flipCoefs t c).regs _ (by simp [flipFlds]), rd_wr]
    simp
  have hkeep : ∀ (l : List Nat) (t : State), Steady [.WING_TT_CTRL_FLIP_REQ] t (each l t flipCoefs) :=
    steady_each fun t h => (steady_wr t _ _ _).trans ((steady_flipCoefs t h).mono (by decide))
  refine ⟨?_, rd_each_instancesSet (fun n => by rw [show regReset .VEC_COEF_CTRL_FLIP_REQ n = 0 from rfl]; decide) hcoef _ n⟩
  unfold tablesAtBoundary
  rw [(hkeep _ _).regs _ (by simp)]
  exact rd_each_instancesSet (fun n => by rw [show regReset .WING_TT_CTRL_FLIP_REQ n = 0 from rfl]; decide) hwing s n

theorem steady_composeBank (fs : List Fld) (hf : ∀ f ∈ fs, f ∉ [.PANNIER_CTRL_READY, .PANNIER_CTRL_FLIP_REQ]) (s : State) :
    Steady fs s (composeBank s) := by
  have hmem : Within [.mem] [] s (each s.pann.edits (copyBank s) fun t e => each (List.range 4) t fun u w =>
      writeBytes (entryBytes (stampEntry u e.entry)) (entryAddr u (1 - rd s .PANNIER_CTRL_ACTIVE_BANK) w e.slot) u) :=
    (within_copyBank s).trans (within_each _ (fun t e => within_each _ (fun u w => within_writeBytes _ _ _) _ _) _ _)
  have hregs : ∀ u : State, Within [] [.PANNIER_CTRL_READY, .PANNIER_CTRL_FLIP_REQ] u
      (wr (wr u .PANNIER_CTRL_READY 0 15) .PANNIER_CTRL_FLIP_REQ 0 1) := fun u =>
    ((within_wr u _ _ _).mono (by simp) (by simp)).trans ((within_wr _ _ _ _).mono (by simp) (by simp))
  exact (hmem.steady (hf := by simp)).trans ((hregs _).steady (hf := hf))

theorem pannierBoundary_steady_flip (s : State) :
    Steady [] s (pannierBoundary s) ∧ rd (pannierBoundary s) .PANNIER_CTRL_FLIP_REQ ≠ 1 := by
  have hflip : ∀ u : State, Steady [] u (pannierFlip u) ∧ rd (pannierFlip u) .PANNIER_CTRL_FLIP_REQ ≠ 1 := fun u => by
    refine ⟨(steady_wr u _ _ _).trans ((steady_pannierFlip u).mono (by simp)), ?_⟩
    rw [(steady_pannierFlip u).regs _ (by simp [flipFlds]), rd_wr_same]
    decide
  unfold pannierBoundary
  split
  · exact hflip s
  · next hno =>
    split
    · exact ⟨Steady.refl _ s, by simpa [rdb] using hno⟩
    · extract_lets finals u
      obtain ⟨hsteady, hclear⟩ := hflip (composeBank s)
      have hu : Steady [] s u := (steady_composeBank [] (by simp) s).trans (hsteady.trans (within_pann _ _).steady)
      have hend : Steady flipFlds u (each finals u fun t k => endPannier t k) := steady_each steady_endPannier _ u
      refine ⟨hu.trans (hend.mono (by simp)), ?_⟩
      rw [hend.regs _ (by simp [flipFlds])]
      exact hclear

/-! The runtime's tables in HBM -/

/-- The fields that writes of the runtime's tables may change. -/
def publishFlds : List Fld := [.PANNIER_CTRL_READY, .PANNIER_CTRL_WRITE_DROPPED, .HBM_POISON_COUNT, .HBM_CH_UNCORR]

/-- A write of the runtime's tables, to HBM or to host memory. -/
abbrev PublishFrame (s t : State) : Prop := Within [.mem, .rep] publishFlds s t

theorem Within.publish {ps : List Part} {fs : List Fld} {s t : State} (h : Within ps fs s t) (hp : ps ⊆ [.mem, .rep] := by simp)
    (hf : fs ⊆ publishFlds := by simp [publishFlds]) : PublishFrame s t := h.mono hp hf

theorem publish_countPoison (s : State) (w : Nat) : PublishFrame s (countPoison s w) := (within_wr s _ _ _).publish

theorem publish_bankTouched (s : State) (u : Nat) : PublishFrame s (bankTouched s u) := by
  unfold bankTouched
  dsimp only
  split
  · exact (within_wr s _ _ _).publish
  · exact Within.refl _ _ s

theorem publish_zeroUnits (s : State) (u n : Nat) : PublishFrame s (zeroUnits s u n) :=
  (within_mem s _).publish.trans (publish_countPoison _ _)

theorem publish_storeHbm (s : State) (a : Nat) (l : List Nat) : PublishFrame s (storeHbm s a l) := by
  refine within_each _ (fun t g => ?_) _ s
  extract_lets lo hi part u
  split
  · exact (within_wr t _ _ _).publish
  · refine Within.trans (u := _) (publish_bankTouched t _ : PublishFrame t u) ?_
    split
    · split
      · exact ((within_mem u _).publish.trans (within_writeBytes _ _ _).publish).trans (publish_countPoison _ _)
      · exact (within_inc u _ _ _).publish
    · exact (within_writeBytes _ _ _).publish

theorem publish_putBytes (s : State) (ctx a : Nat) (l : List Nat) : PublishFrame s (putBytes s ctx a l) := by
  unfold putBytes
  split
  · exact Within.refl _ _ s
  · split
    · exact publish_storeHbm s a l
    · split
      · exact (within_writeBytes l a s).publish.trans (within_clearLr _ _ _).publish
      · exact (within_emit s _).publish

theorem publish_publishRoot (s : State) (i : Nat) (old : Option Root) (r : Root) : PublishFrame s (publishRoot s i old r) := by
  have hstore : ∀ (l : List (Nat × Nat)) (v : Nat × Nat → List Nat) (t : State),
      PublishFrame t (each l t fun u w => storeHbm u w.1 (v w)) := fun l v t => within_each _ (fun u w => publish_storeHbm u _ _) l t
  unfold publishRoot
  extract_lets had units words now s1 s2 s3 s4 s5
  have h1 : PublishFrame s s1 := within_each _ (fun t e => publish_zeroUnits t _ _) _ s
  have h2 : PublishFrame s1 s2 := within_each _ (fun t u => publish_zeroUnits t u 1) _ s1
  have h5 : PublishFrame s2 s5 := ((hstore _ _ s2).trans (hstore _ _ s3)).trans (publish_storeHbm s4 _ _)
  refine (h1.trans h2).trans (h5.trans ?_)
  split
  · exact publish_putBytes s5 _ _ _
  · exact Within.refl _ _ s5

theorem within_publishTables (s : State) : Within [.mem, .rep, .lard] publishFlds s (publishTables s) := by
  have hwrites : PublishFrame s _ := (within_each _ (fun t (e : Nat × Root) => publish_storeHbm t (rootRecord t e.1) (List.replicate 128 0))
    (s.lard.tables.filter (fun e => (rootAt s e.1).isNone)) s).trans
    (within_each _ (fun t (e : Nat × Root) => publish_publishRoot t e.1 (storeFind t.lard.tables e.1) e.2)
      (s.lard.roots.filter (fun e => storeFind s.lard.tables e.1 != some e.2)) _)
  unfold publishTables
  exact Within.trans (hwrites.mono (by simp) (List.Subset.refl _)) ((within_lard _ _).mono (by simp) (by simp))

/-! The boundary -/

/-- No flip is requested. -/
def flipsOver (u : State) : Prop :=
  (∀ w, rd u .WING_TT_CTRL_FLIP_REQ w ≠ 1 ∧ rd u .VEC_COEF_CTRL_FLIP_REQ w ≠ 1) ∧ rd u .PANNIER_CTRL_FLIP_REQ ≠ 1

theorem flipsOver_congr {s t : State} (h : ∀ f ∈ flipFlds, ∀ n, rd t f n = rd s f n) (hs : flipsOver s) : flipsOver t := by
  unfold flipsOver
  simp only [h _ (show Fld.WING_TT_CTRL_FLIP_REQ ∈ flipFlds by decide), h _ (show Fld.VEC_COEF_CTRL_FLIP_REQ ∈ flipFlds by decide),
    h _ (show Fld.PANNIER_CTRL_FLIP_REQ ∈ flipFlds by decide)]
  exact hs

/-- The flips of every double-banked table, after items have ended and parks are abandoned. -/
def flipsDone (s : State) : State := tablesAtBoundary (pannierBoundary (abandonParks (endCloses (endStopped s))))

theorem flipsDone_steady (s : State) : Steady [] s (flipsDone s) := by
  have hends := ((steady_endStopped s).trans (steady_endCloses _)).trans (steady_abandonParks _)
  exact (hends.mono (by simp)).trans ((pannierBoundary_steady_flip _).1.trans ((steady_tablesAtBoundary _).mono (by simp)))

theorem flipsDone_flipsOver (s : State) : flipsOver (flipsDone s) := by
  refine ⟨tablesAtBoundary_flips _, ?_⟩
  unfold flipsDone
  rw [(steady_tablesAtBoundary _).regs _ (by simp)]
  exact (pannierBoundary_steady_flip _).2

theorem steady_boundaryOps_flipsDone (s : State) : Steady flipFlds (flipsDone s) (boundaryOps s) := by
  unfold boundaryOps
  extract_lets s1 s2 s3 s4
  have h2 : Steady flipFlds (flipsDone s) s2 := steady_coresAtBoundary _
  have h3 : Steady flipFlds s2 s3 :=
    (((steady_hubsWithdrawn s2).trans (steady_throttleReturn _)).trans (steady_addContributions _)).trans (steady_dropsBind _)
  have h4 : Steady flipFlds s3 s4 := by
    refine Steady.trans ?_ (within_publishTables _).steady
    split
    · exact steady_parkDue s3
    · exact Steady.refl _ s3
  refine (h2.trans h3).trans (h4.trans ?_)
  split
  · exact Steady.refl _ s4
  · exact steady_wantBoundary s4

/-- A boundary takes no time, and neither begins nor ends a step. -/
theorem steady_boundaryOps (s : State) : Steady [] s (boundaryOps s) :=
  (flipsDone_steady s).trans ((steady_boundaryOps_flipsDone s).mono (by simp))

/-- At a boundary the flips that were requested are over (R31). -/
theorem flipsOver_boundaryOps (s : State) : flipsOver (boundaryOps s) :=
  flipsOver_congr (steady_boundaryOps_flipsDone s).regs (flipsDone_flipsOver s)

end Sys2Proof.Machine
end

section
/-! O48: the freeze of the next planned step (R36). -/

namespace Sys2Proof.Machine

/-! What precedes the freeze leaves the plan -/

theorem planMoved_setCeilings (s : State) : PlanMoved s (setCeilings s) := by
  unfold setCeilings
  extract_lets owed t
  have ht : PlanMoved s t := by
    refine planMoved_each (fun u w => ?_) _ s
    extract_lets c
    refine PlanMoved.trans ?_ (within_wr _ _ _ _).planMoved
    split
    · exact (within_wr u _ _ _).planMoved
    · exact PlanMoved.refl u
  refine ht.trans ?_
  split
  · exact (within_pwr t _).planMoved
  · exact PlanMoved.refl t

theorem planMoved_ceilingsAtFreeze (s : State) : PlanMoved s (ceilingsAtFreeze s) :=
  ((within_pwr s _).planMoved.trans (planMoved_each (fun t _ => (within_pwr t _).planMoved) _ _)).trans (planMoved_setCeilings _)

theorem planMoved_thinHub (s : State) (h : Nat) : PlanMoved s (thinHub s h) := by
  unfold thinHub
  extract_lets put others u
  have hput : ∀ (t : State) (l : List Nat), PlanMoved t (put t l) := fun t l => (within_core t _).planMoved
  split
  · split
    · exact PlanMoved.refl s
    · exact (within_wr s _ _ _).planMoved.trans (hput _ _)
  · split
    · have hu : PlanMoved s u := hput _ _
      refine hu.trans ?_
      split
      · exact PlanMoved.refl u
      · exact (within_wr u _ _ _).planMoved
    · exact PlanMoved.refl s

theorem planMoved_derate (s : State) : PlanMoved s (derate s) := by
  unfold derate
  extract_lets s1 s2 hs v ratio sv s3
  have h1 : PlanMoved s s1 := planMoved_each planMoved_thinHub _ s
  have h2 : PlanMoved s1 s2 := planMoved_of_tt rfl rfl rfl rfl rfl
  refine (h1.trans h2).trans ?_
  split
  · exact PlanMoved.refl s2
  · exact ((within_wr s2 _ _ _).planMoved.trans (within_wr _ _ _ _).planMoved).trans (within_report s3 _ _ _ _ _ _).planMoved

theorem planMoved_startUnpark1 (s : State) (i : Nat) : PlanMoved s (startUnpark1 s i) := by
  unfold startUnpark1
  split
  · split
    · exact (within_setRoot s _ _).planMoved.trans (planMoved_planMove _ _)
    · exact PlanMoved.refl s
  · exact PlanMoved.refl s

theorem planMoved_unparkWaiting (s : State) : PlanMoved s (unparkWaiting s) := by
  refine planMoved_each (fun t i => ?_) _ s
  split
  · unfold startUnpark
    dsimp only
    split
    · exact (planMoved_startUnpark1 t i).trans (planMoved_startUnpark1 _ _)
    · exact planMoved_startUnpark1 t i
  · exact PlanMoved.refl t

/-- A window is held back only where it would open. -/
theorem holdWindow_of_head {s : State} {p : PStep} {rest : List PStep} (h : openSteps s = p :: rest) (hp : p.switchIn = false) :
    holdWindow s = s := by
  unfold holdWindow
  rw [h]
  dsimp only
  rw [hp]

/-- A step with work that opens no window may freeze. -/
theorem mayFreeze_of_head {s : State} {p : PStep} {rest : List PStep} (h : openSteps s = p :: rest) (hp : p.switchIn = false)
    (hw : hasWork p = true) : mayFreeze s = true := by
  unfold mayFreeze
  rw [h]
  simp [hp, hw]

/-- Further moves leave a step its work. -/
theorem hasWork_moveNs {p : PStep} {m : Nat} (h : hasWork p = true) (hm : p.moveNs ≤ m) : hasWork { p with moveNs := m } = true := by
  simp only [hasWork, Bool.or_eq_true, bne_iff_ne] at h ⊢
  have : p.moveNs ≠ 0 → m ≠ 0 := by omega
  tauto

/-! The freeze -/

/-- One step joins those that are frozen. -/
structure StepFrozen (s t : State) : Prop where
  frozen : t.tt.frozen.length = s.tt.frozen.length + 1
  gearLimit : t.tt.gearLimit = s.tt.gearLimit
  run : t.tt.run = s.tt.run
  mem : t.mem = s.mem

theorem stepFrozen_freezeStep (s : State) (p : PStep) (number start : Nat) : StepFrozen s (freezeStep s p number start) := by
  unfold freezeStep
  extract_lets base owed gs u v slowed hot
  have hu : PlanMoved s u := by
    show PlanMoved s (if owed = true then s else _)
    split
    · exact PlanMoved.refl s
    · exact (within_pwr s _).planMoved
  have hv : PlanMoved s v := hu.trans (planMoved_each (fun t w => (within_wrb t _ _ _).planMoved) _ u)
  refine ⟨?_, hv.gearLimit, hv.run, hv.mem⟩
  show (v.tt.frozen ++ [_]).length = _
  rw [List.length_append, hv.frozen]
  rfl

/-- What the freeze finds after ceilings, derating, parks and the digests. -/
def freezeReady (s : State) (f : FreezeIn) : State :=
  let s := wr (ceilingsAtFreeze (updTt s fun t => { t with gearLimit := f.gearLimit })) .PWR_CAP_CAP_PENDING 0 0
  let s := holdWindow (parkDue (unparkWaiting (derate s)))
  if f.digestsAgree then s else controlRecord (inc s .INTEG_LEAD_DIVERGES) 3 3

theorem freezeHead_eq (s : State) (f : FreezeIn) (start : Nat) {p : PStep} {rest : List PStep}
    (h : openSteps (freezeReady s f) = p :: rest) (hm : mayFreeze (freezeReady s f) = true) :
    ∃ k a n, freezeHead s f start = freezeStep (trail (freezeReady s f) k 0x41 0 a n) p n start := by
  have heq : freezeHead s f start = (match openSteps (freezeReady s f), mayFreeze (freezeReady s f) with
    | p :: _, true =>
      let n := ((freezeReady s f).tt.frozen.getLast?.map (·.number)).getD
        (rd (freezeReady s f) .TT_STEP_NUMBER + (freezeReady s f).tt.lapsed) + 1
      freezeStep (trail (freezeReady s f) vestTrail 0x41 0 (rd (freezeReady s f) .INTEG_LEAD_LEAD_WING) n) p n start
    | _, _ => freezeReady s f) := rfl
  rw [heq, h, hm]
  exact ⟨_, _, _, rfl⟩

/-- A step with work that opens no window and has no chunk freezes. -/
theorem freezeHead_freezes {s : State} {p : PStep} {rest : List PStep} (h : openSteps s = p :: rest) (hw : hasWork p = true)
    (hp : p.switchIn = false) (f : FreezeIn) (start : Nat) :
    StepFrozen (updTt s fun t => { t with gearLimit := f.gearLimit }) (freezeHead s f start) := by
  set u := updTt s fun t => { t with gearLimit := f.gearLimit } with hu
  have hmoved : PlanMoved u (parkDue (unparkWaiting (derate (wr (ceilingsAtFreeze u) .PWR_CAP_CAP_PENDING 0 0)))) :=
    ((planMoved_ceilingsAtFreeze u).trans (within_wr _ _ _ _).planMoved).trans
      (((planMoved_derate _).trans (planMoved_unparkWaiting _)).trans (planMoved_parkDue _))
  obtain ⟨m, rest', hm, hopen⟩ := hmoved.head p rest h
  have hready : PlanMoved u (freezeReady s f) := by
    unfold freezeReady
    dsimp only
    rw [← hu, holdWindow_of_head hopen hp]
    refine hmoved.trans ?_
    split
    · exact PlanMoved.refl _
    · exact (within_inc _ _ _ _).planMoved.trans (within_report _ _ _ _ _ _ _).planMoved
  obtain ⟨n, rest'', hn, hhead⟩ := hready.head p rest h
  obtain ⟨k, a, j, heq⟩ := freezeHead_eq s f start hhead (mayFreeze_of_head hhead hp (hasWork_moveNs hw hn))
  have htrail := hready.trans (within_trail (freezeReady s f) k 0x41 0 a j).planMoved
  have hstep := stepFrozen_freezeStep (trail (freezeReady s f) k 0x41 0 a j) { p with moveNs := n } j start
  rw [heq]
  exact ⟨by rw [hstep.frozen, htrail.frozen], hstep.gearLimit.trans htrail.gearLimit, hstep.run.trans htrail.run,
    hstep.mem.trans htrail.mem⟩

/-- A freeze of a step without chunks has no reads to wait for. -/
theorem exec_planFreeze {s : State} {p : PStep} {rest : List PStep} (h : openSteps s = p :: rest) (hs : planning s = true)
    (hc : p.chunks = []) (t : Nat) (f : FreezeIn) :
    exec (.planFreeze t f) s = settle s (freezeHead (tick s (max t (openStart s - planLead s))) f (openStart s)) := by
  show execPlanFreeze t f s = _
  have hreads : ∀ at_, freezeReads (tick s at_) f.chunks = tick s at_ := fun at_ => by
    have htick : openSteps (tick s at_) = p :: rest := h
    unfold freezeReads
    rw [htick]
    dsimp only
    rw [hc]
    rfl
  unfold execPlanFreeze
  dsimp only
  rw [hreads, h, if_neg (by simp [hs]), if_neg (by simp [hc])]

theorem planFreeze_runs {s : State} {p : PStep} {rest : List PStep} (h : openSteps s = p :: rest) (hs : planning s = true)
    (hc : p.chunks = []) (hw : hasWork p = true) (hp : p.switchIn = false) (t : Nat) (f : FreezeIn) :
    Runs (.planFreeze t f) s fun v => v.tt.frozen.length = s.tt.frozen.length + 1 ∧ v.tt.gearLimit = f.gearLimit ∧
      v.tt.run.running = s.tt.run.running ∧ v.mem = s.mem := by
  have hfrozen := freezeHead_freezes (s := tick s (max t (openStart s - planLead s))) h hw hp f (openStart s)
  exact runs_of_settle (exec_planFreeze h hs hc t f)
    ⟨hfrozen.frozen, hfrozen.gearLimit, congrArg StepRun.running hfrozen.run, hfrozen.mem⟩

end Sys2Proof.Machine
end

section
/-! O48: step boundaries, the next step and the idle module (R31, R32, R475). -/

namespace Sys2Proof.Machine

/-! What the beginning of a step writes -/

theorem within_mapPages (s : State) (i : Nat) (pages : List Nat) : Within [.lard] [] s (mapPages s i pages) := by
  refine within_each _ (fun t p => ?_) _ s
  split
  · exact Within.refl _ _ t
  · split
    · exact Within.refl _ _ t
    · dsimp only
      split
      · exact within_setRoot t i _
      · exact Within.refl _ _ t

theorem within_mapNew (s : State) (ctx idx n : Nat) : Within [.lard] [] s (mapNew s ctx idx n) := by
  unfold mapNew
  split
  · exact Within.refl _ _ s
  · refine within_each _ (fun t k => ?_) _ s
    split
    · exact Within.refl _ _ t
    · exact within_mapPages t k _

/-- Where the tables in HBM agree with the roots nothing is written. -/
theorem publishTables_mem {s : State} (hroots : ∀ x ∈ s.lard.roots, storeFind s.lard.tables x.1 = some x.2)
    (htables : ∀ x ∈ s.lard.tables, rootAt s x.1 ≠ none) : (publishTables s).mem = s.mem := by
  have hgone : s.lard.tables.filter (fun e => (rootAt s e.1).isNone) = [] :=
    List.filter_eq_nil_iff.mpr fun x hx => by simpa using htables x hx
  have hchanged : s.lard.roots.filter (fun e => storeFind s.lard.tables e.1 != some e.2) = [] :=
    List.filter_eq_nil_iff.mpr fun x hx => by simpa using hroots x hx
  unfold publishTables
  dsimp only
  rw [hgone, hchanged]
  rfl

/-- Pages for the rows and chunks of a step, and the runtime's tables in HBM. -/
def stepMapped (s : State) (p : PStep) : State :=
  publishTables (each p.chunks (each p.rows s fun t r => mapNew t r.ctx r.idx (1 + r.depth)) fun t c => mapNew t c.ctx c.idx c.tokens)

theorem within_stepMapped (s : State) (p : PStep) : Within [.mem, .rep, .lard] publishFlds s (stepMapped s p) :=
  (((within_each _ (fun t r => within_mapNew t _ _ _) p.rows s).trans (within_each _ (fun t c => within_mapNew t _ _ _) p.chunks _)).mono
    (by simp) (by simp)).trans (within_publishTables _)

theorem stepMapped_mem {s : State} {p : PStep} (hrows : p.rows = []) (hchunks : p.chunks = [])
    (hroots : ∀ x ∈ s.lard.roots, storeFind s.lard.tables x.1 = some x.2) (htables : ∀ x ∈ s.lard.tables, rootAt s x.1 ≠ none) :
    (stepMapped s p).mem = s.mem := by
  unfold stepMapped
  rw [hrows, hchunks]
  exact publishTables_mem hroots htables

/-- The step shows: its window opens, the module is not in a low-power state, and every hub's trail has an entry. -/
def stepShown (s : State) (p : PStep) (idle : Nat) : State :=
  let s := match p.window with
    | some c => if p.switchIn then wr (wr s .CTX_WINDOW_OPEN 0 1) .CTX_WINDOW_CTX 0 c else s
    | none => s
  let s := wr (wr s .LP_STATUS_STATE 0 0) .LP_STATUS_TARGET 0 0
  let n := rd s .TT_STEP_NUMBER
  let s := each (List.range 160) s fun t h => trail t (hubTrail h) 0x20 (p.window.getD 0) (rd t .HUB_REMAP_CTRL_ACTIVE_GEN h) n
  contribute s 5 idle

/-- The fields that a step shows in. -/
def shownFlds : List Fld := [.CTX_WINDOW_OPEN, .CTX_WINDOW_CTX, .LP_STATUS_STATE, .LP_STATUS_TARGET]

theorem stepShown_within_lp (s : State) (p : PStep) (idle : Nat) :
    Within [.dbg] shownFlds s (stepShown s p idle) ∧ rd (stepShown s p idle) .LP_STATUS_STATE = 0 := by
  unfold stepShown
  extract_lets s1 s2 n s3
  have hwr : ∀ (u : State) (f : Fld) (v : Nat), f ∈ shownFlds → Within [.dbg] shownFlds u (wr u f 0 v) := fun u f v hf =>
    (within_wr u f 0 v).mono (by simp) (by simpa using hf)
  have h1 : Within [.dbg] shownFlds s s1 := by
    unfold s1
    split
    · split
      · exact (hwr _ _ _ (by simp [shownFlds])).trans (hwr _ _ _ (by simp [shownFlds]))
      · exact Within.refl _ _ s
    · exact Within.refl _ _ s
  have h2 : Within [.dbg] shownFlds s1 s2 := (hwr _ _ _ (by simp [shownFlds])).trans (hwr _ _ _ (by simp [shownFlds]))
  have h3 : Within [.dbg] [] s2 (contribute s3 5 idle) :=
    (within_each _ (fun t h => within_trail t _ _ _ _ _) _ s2).trans (within_contribute s3 5 idle)
  refine ⟨(h1.trans h2).trans (h3.mono (by simp) (by simp)), ?_⟩
  rw [h3.regs _ _ (by simp), rd_wr_ne _ _ _ _ _ _ (by simp), rd_wr_same]

/-- What is so of a state in which a step has begun. -/
structure StepBegun (u : State) (start : Nat) (p : PStep) (rest : List PStep) (v : State) : Prop where
  running : v.tt.run.running = true
  cur : v.tt.run.cur = p
  plan : v.tt.plan = rest
  frozen : v.tt.frozen = u.tt.frozen.tail
  startAt : rd v .TT_STEP_START = u.now
  plannedEnd : start ≤ rd v .TT_STEP_PLANNED_END
  number : ∀ f, u.tt.frozen.head? = some f → rd v .TT_STEP_NUMBER = f.number % 2 ^ 64

theorem StepBegun.within {ps : List Part} {fs : List Fld} {u v w : State} {start : Nat} {p : PStep} {rest : List PStep}
    (h : StepBegun u start p rest v) (k : Within ps fs v w) (htt : Part.tt ∉ ps)
    (hf : ∀ f ∈ [Fld.TT_STEP_START, .TT_STEP_PLANNED_END, .TT_STEP_NUMBER], f ∉ fs) : StepBegun u start p rest w := by
  have he : w.tt = v.tt := k.parts .tt htt
  have hregs : ∀ f ∈ [Fld.TT_STEP_START, .TT_STEP_PLANNED_END, .TT_STEP_NUMBER], rd w f = rd v f := fun f m => k.regs f 0 (hf f m)
  constructor
  · rw [he]; exact h.running
  · rw [he]; exact h.cur
  · rw [he]; exact h.plan
  · rw [he]; exact h.frozen
  · rw [hregs _ (by simp)]; exact h.startAt
  · rw [hregs _ (by simp)]; exact h.plannedEnd
  · rw [hregs _ (by simp)]; exact h.number

/-- The wings take the gears of a step. -/
def gearsSet (s : State) (gs : List Nat) : State :=
  settleGears (each (List.range 4) s fun t w => wr t .DRL_GEAR_PLANNED w (gs.getD w 0))

theorem within_gearsSet (s : State) (gs : List Nat) : Within [] (.DRL_GEAR_PLANNED :: gearFlds) s (gearsSet s gs) := by
  have hplanned : Within [] (.DRL_GEAR_PLANNED :: gearFlds) s (each (List.range 4) s fun t w => wr t .DRL_GEAR_PLANNED w (gs.getD w 0)) :=
    within_each _ (fun t w => (within_wr t _ _ _).mono (by simp) (by simp)) _ s
  exact hplanned.trans ((within_each _ within_settleGear _ _).mono (by simp) (List.subset_cons_self _ _))

/-- The first planned step begins, and before its pages are mapped nothing but the timetable and the charge of the reserve changed. -/
theorem beginStep_begins {s : State} {p : PStep} {rest : List PStep} (hplan : s.tt.plan = p :: rest) (start : Nat) :
    ∃ u idle, beginStep s start = stepShown (stepMapped u p) p idle ∧ StepBegun s start p rest u ∧
      u.mem = s.mem ∧ u.lard = s.lard := by
  unfold beginStep
  rw [hplan]
  dsimp -zeta only
  extract_lets now_ gs chg len idle n s1 s2 slowed s3 alert thr s4 s5
  have hgears := within_gearsSet s2 gs
  have htime : Within [] [.TT_STEP_NUMBER, .TT_STEP_START, .TT_STEP_PLANNED_END] s s2 :=
    ((within_wr s _ _ _).mono (by simp) (by simp)).trans
      (((within_wr s1 _ _ _).mono (by simp) (by simp)).trans ((within_wr _ _ _ _).mono (by simp) (by simp)))
  have htt : (gearsSet s2 gs).tt = s.tt := (hgears.parts .tt (by simp)).trans (htime.parts .tt (by simp))
  have hmem : (gearsSet s2 gs).mem = s.mem := (hgears.parts .mem (by simp)).trans (htime.parts .mem (by simp))
  have hlard : (gearsSet s2 gs).lard = s.lard := (hgears.parts .lard (by simp)).trans (htime.parts .lard (by simp))
  have hregs : ∀ f, f ∉ Fld.DRL_GEAR_PLANNED :: gearFlds → rd s5 f = rd s2 f := fun f hf => hgears.regs f 0 hf
  refine ⟨s5, idle, rfl, ⟨rfl, rfl, rfl, ?_, ?_, ?_, fun f hf => ?_⟩, hmem, hlard⟩
  · show (gearsSet s2 gs).tt.frozen.tail = _
    rw [htt]
  · rw [hregs _ (by decide), rd_wr_ne _ _ _ _ _ _ (by simp), rd_wr_same]
  · rw [hregs _ (by decide), rd_wr_same]
    exact Nat.le_add_right _ _
  · have hn : n = f.number := by simp only [n, hf, Option.map_some, Option.getD_some]
    rw [hregs _ (by decide), rd_wr_ne _ _ _ _ _ _ (by simp), rd_wr_ne _ _ _ _ _ _ (by simp), rd_wr_same, hn]

/-! The boundary's two outcomes -/

theorem flipsOver_settled {s u : State} (h : flipsOver u) : flipsOver (settled s u) :=
  flipsOver_congr (fun f hf n => rd_settled_other s u f n (by revert f; decide)) h

/-- What STEP_BOUNDARY finds once what takes effect at the boundary has done so. -/
def atBoundary (s : State) (t : Nat) (e : StepEndIn) : State :=
  boundaryOps (if s.tt.run.running then endStep (tick s t) e else tick s (slotCeil (max s.now t)))

/-- Where every wing that is to flip has its loads, the frozen step begins, or none follows. -/
theorem exec_stepBoundary {s : State} {t : Nat} {e : StepEndIn}
    (hdue : s.tt.run.running = true ∨ (s.tt.frozen ≠ [] ∧ headStart s ≤ max s.now t)) (hloads : loadsMissing s = false) :
    exec (.stepBoundary t e) s = settle s
      (if mayBegin (atBoundary s t e) = true ∧ headStart (atBoundary s t e) ≤ (atBoundary s t e).now then
        beginStep (atBoundary s t e) (headStart (atBoundary s t e))
      else if s.tt.run.running then goIdle (atBoundary s t e)
      else updTt (atBoundary s t e) fun x => { x with frozen := [] }) := by
  have hgo : ¬ (s.tt.run.running = false ∧ (s.tt.frozen = [] ∨ max s.now t < headStart s)) := by
    rintro ⟨hrun, hno⟩
    rw [hrun] at hdue
    obtain h | ⟨hfrozen, hstart⟩ := hdue
    · cases h
    · exact hno.elim hfrozen (Nat.not_lt.mpr hstart)
  have hstarts : ¬ ((atBoundary s t e).tt.frozen ≠ [] ∧ loadsMissing s = true) := by simp [hloads]
  show execStepBoundary t e s = _
  unfold execStepBoundary
  dsimp only
  rw [if_neg hgo]
  unfold atBoundary at hstarts ⊢
  rw [if_neg hstarts]

/-- The frozen step begins (R32). -/
theorem stepBoundary_begins {s u : State} {c : Instr} {p : PStep} {rest : List PStep} (hplan : u.tt.plan = p :: rest)
    (hexec : exec c s = settle s (beginStep u (headStart u))) :
    Runs c s fun v => v.tt.run.running = true ∧ v.tt.run.cur = p ∧ v.tt.plan = rest ∧ v.tt.frozen = u.tt.frozen.tail ∧
      rd v .TT_STEP_START = u.now ∧ headStart u ≤ rd v .TT_STEP_PLANNED_END ∧
      (∀ f, u.tt.frozen.head? = some f → rd v .TT_STEP_NUMBER = f.number % 2 ^ 64) ∧ rd v .LP_STATUS_STATE = 0 ∧
      (p.rows = [] → p.chunks = [] → (∀ x ∈ u.lard.roots, storeFind u.lard.tables x.1 = some x.2) →
        (∀ x ∈ u.lard.tables, rootAt u x.1 ≠ none) → v.mem = u.mem) := by
  obtain ⟨w, idle, heq, hbegun, hmem, hlard⟩ := beginStep_begins hplan (headStart u)
  obtain ⟨hshown, hlp⟩ := stepShown_within_lp (stepMapped w p) p idle
  have hb := (hbegun.within (within_stepMapped w p) (by simp) (by decide)).within hshown (by simp) (by decide)
  rw [← heq] at hb
  have hview : ∀ f ∈ [Fld.TT_STEP_START, .TT_STEP_PLANNED_END, .TT_STEP_NUMBER, .LP_STATUS_STATE], ∀ x,
      rd (settled s x) f = rd x f := fun f hf x => rd_settled_other s x f 0 (by revert f; decide)
  refine runs_of_settle hexec ⟨hb.running, hb.cur, hb.plan, hb.frozen, ?_, ?_, ?_, ?_, fun hrows hchunks hroots htables => ?_⟩
  · rw [hview _ (by simp)]; exact hb.startAt
  · rw [hview _ (by simp)]; exact hb.plannedEnd
  · rw [hview _ (by simp)]; exact hb.number
  · rw [hview _ (by simp), heq]; exact hlp
  · have hwritten : (beginStep u (headStart u)).mem = (stepMapped w p).mem := by rw [heq]; exact hshown.parts .mem (by simp)
    have hroot : ∀ x, rootAt w x = rootAt u x := fun x => by simp only [rootAt, hlard]
    refine hwritten.trans ((stepMapped_mem hrows hchunks ?_ ?_).trans hmem)
    · rw [hlard]; exact hroots
    · rw [hlard]; simpa only [hroot] using htables

/-- No step follows and the module idles (R475). -/
theorem goIdle_idles (u : State) : (goIdle u).tt.run.running = false ∧ (goIdle u).tt.run.lastEnd = u.now ∧
    (goIdle u).tt.plan = u.tt.plan ∧ rd (goIdle u) .LP_STATUS_STATE = 1 ∧
    Within [.dbg, .tt] [.LP_STATUS_STATE, .LP_STATUS_TARGET] u (goIdle u) := by
  unfold goIdle
  extract_lets keep s1 s2
  have h2 : Within [.dbg, .tt] [.LP_STATUS_STATE, .LP_STATUS_TARGET] u s2 :=
    (((within_tt u _).mono (by simp) (by simp)).trans
      (((within_wr s1 _ _ _).mono (by simp) (by simp)).trans ((within_wr _ _ _ _).mono (by simp) (by simp)))).trans
      ((within_dbg _ _).mono (by simp) (by simp))
  have hlp : rd s2 .LP_STATUS_STATE = 1 := by
    show rd (wr (wr s1 .LP_STATUS_STATE 0 1) .LP_STATUS_TARGET 0 1) .LP_STATUS_STATE = 1
    rw [rd_wr_ne _ _ _ _ _ _ (by simp), rd_wr_same]
  split
  · exact ⟨rfl, rfl, rfl, hlp, h2⟩
  · have hwant := within_wantBoundary s2
    have hkept : (wantBoundary s2).tt.run.running = s2.tt.run.running ∧ (wantBoundary s2).tt.run.lastEnd = s2.tt.run.lastEnd ∧
        (wantBoundary s2).tt.plan = s2.tt.plan := by
      unfold wantBoundary
      split <;> exact ⟨rfl, rfl, rfl⟩
    obtain ⟨hrun, hend, hplan⟩ := hkept
    exact ⟨hrun, hend, hplan, (hwant.regs _ _ (by simp)).trans hlp, h2.trans (hwant.mono (by simp) (by simp))⟩

/-! IDLE_BOUNDARY -/

theorem idleBoundary_runs {s : State} {t b : Nat} (hrun : s.tt.run.running = false) (hb : s.tt.run.boundaryAt = some b)
    (ht : b ≤ max s.now t) : Runs (.idleBoundary t) s fun v => v.now = max s.now t ∧ v.tt.run.running = false ∧ flipsOver v := by
  set u := updTt (tick s t) fun x => { x with run := { x.run with boundaryAt := none } } with hu
  have hexec : exec (.idleBoundary t) s = settle s (boundaryOps u) := by
    show execIdleBoundary t s = _
    unfold execIdleBoundary
    rw [hrun, hb]
    dsimp only
    rw [if_pos ht]
  obtain ⟨hnow, hidle, -⟩ := steady_boundaryOps u
  have hover := flipsOver_boundaryOps u
  generalize boundaryOps u = v at hexec hnow hidle hover
  exact runs_of_settle hexec ⟨hnow, hidle.trans hrun, flipsOver_settled hover⟩

/-! The obligation -/

/-- Settles O48: a freeze adds one step (`planFreeze_runs`), a boundary ends the requested flips (`flipsOver_boundaryOps`) and
begins the frozen step (`stepBoundary_begins`) or idles (`goIdle_idles`). -/
theorem stepsRun : Obligations.StepsRun := by
  refine ⟨fun s t f p rest h hs hc hw hp => planFreeze_runs h hs hc hw hp t f, fun s t e hdue hloads => ?_,
    fun s t b => idleBoundary_runs⟩
  intro u
  have hexec : exec (.stepBoundary t e) s = settle s (if mayBegin u = true ∧ headStart u ≤ u.now then beginStep u (headStart u)
    else if s.tt.run.running then goIdle u else updTt u fun x => { x with frozen := [] }) := exec_stepBoundary hdue hloads
  have hover : flipsOver u := flipsOver_boundaryOps _
  clear_value u
  refine ⟨fun p rest hplan hmay hstart => ?_, fun hno => ?_, hover⟩
  · rw [if_pos ⟨hmay, hstart⟩] at hexec
    exact stepBoundary_begins hplan hexec
  · have hstays : ¬ (mayBegin u = true ∧ headStart u ≤ u.now) := by
      rintro ⟨hmay, hstart⟩
      exact hno.elim (fun h => absurd (hmay.symm.trans h) (by decide)) (Nat.not_lt.mpr hstart)
    rw [if_neg hstays] at hexec
    refine ⟨fun hrun => ?_, fun hrun => ?_⟩
    · rw [if_pos hrun] at hexec
      obtain ⟨hidle, hend, hplan, hlp, hframe⟩ := goIdle_idles u
      generalize goIdle u = v at hexec hidle hend hplan hlp hframe
      exact runs_of_settle hexec ⟨hidle, hend, hplan, (rd_settled_other _ _ _ _ (by simp [viewFlds])).trans hlp, hframe.settled⟩
    · rw [if_neg (by simp [hrun])] at hexec
      exact runs_of_settle hexec ⟨rfl, (within_tt u _).settled⟩

end Sys2Proof.Machine
end

section
/-! The element and scale values of R66 and R70. -/

namespace Sys2Proof.Machine

/-! Elements and scale bytes -/

/-- A sign and a magnitude give back the integer they were taken from. -/
theorem numDyad_fin_natAbs (n e : Int) : numDyad (.fin (decide (n < 0)) n.natAbs e) = ⟨n, e⟩ := by
  have hn : (if decide (n < 0) = true then -(n.natAbs : Int) else n.natAbs) = n := by
    by_cases h : n < 0 <;> simp only [h, decide_true, decide_false, if_true, Bool.false_eq_true, if_false] <;> omega
  simp only [numDyad, hn]

theorem numDyad_elemNum_int8 (kind bits : Nat) :
    numDyad (elemNum 0x6 kind bits) = ⟨signedOf 8 bits, if kind = 1 then -6 else 0⟩ := numDyad_fin_natAbs _ _

theorem numDyad_elemNum_int4 (kind bits : Nat) : numDyad (elemNum 0x7 kind bits) = ⟨signedOf 4 bits, 0⟩ :=
  numDyad_fin_natAbs _ _

/-- A pattern is read as a NaN exactly when its magnitude is a NaN pattern. -/
theorem decodeF_eq_nan_iff {f : FFmt} {w : Nat} : decodeF f w = .nan ↔ isNanPat f (w % 2 ^ (f.eb + f.mb)) = true := by
  unfold decodeF
  dsimp only
  split_ifs <;> simp_all

/-- Without its sign bit a finite pattern has the same significand and exponent. -/
theorem decodeF_mod_of_fin {f : FFmt} {w m : Nat} {neg : Bool} {e : Int} (h : decodeF f w = .fin neg m e) :
    decodeF f (w % 2 ^ (f.eb + f.mb)) = .fin false m e := by
  have hsign : bitAt (w % 2 ^ (f.eb + f.mb)) (f.eb + f.mb) = false := by
    simp [bitAt, Nat.div_eq_of_lt (Nat.mod_lt w (Nat.two_pow_pos _))]
  unfold decodeF at h ⊢
  simp only [Nat.mod_mod, hsign] at h ⊢
  split_ifs at h ⊢ <;> simp_all

/-- E4M3 has no infinity (Table 3-2). -/
theorem decodeF_e4m3_ne_inf (w : Nat) (neg : Bool) : decodeF fE4M3 w ≠ .inf neg := by
  unfold decodeF
  dsimp only [fE4M3]
  split_ifs <;> simp_all

theorem decodeF_e4m3_eq_nan_iff {w : Nat} : decodeF fE4M3 w = .nan ↔ w % 128 = 0x7F := by
  rw [decodeF_eq_nan_iff]
  exact beq_iff_eq

/-- A byte that is not a NaN has as an E4M3 scale the magnitude of the element of its pattern. -/
theorem scaleDyad_e4m3_of_fin {v m : Nat} {neg : Bool} {e : Int} (h : decodeF fE4M3 v = .fin neg m e) :
    scaleDyad 2 v = some ⟨m, e⟩ := by
  have hmag : decodeF fE4M3 (v % 128) = .fin false m e := decodeF_mod_of_fin h
  simp [scaleDyad, hmag]

theorem scaleDyad_e4m3_eq_none {v : Nat} (h : v % 128 = 0x7F) : scaleDyad 2 v = none := by
  simp [scaleDyad, decodeF_e4m3_eq_nan_iff.mpr ((Nat.mod_mod v 128).trans h)]

/-- Settles O5, by the value of an element made of the sign and the magnitude of an integer (`numDyad_fin_natAbs`). -/
theorem integerElementValues : Obligations.IntegerElementValues := by
  intro kind bits
  refine ⟨numDyad_elemNum_int8 1 bits, fun hkind => ?_, numDyad_elemNum_int4 kind bits⟩
  rw [numDyad_elemNum_int8, if_neg hkind]

/-- Settles O6: an E4M3 scale byte is the magnitude of the element of its pattern, so its NaN and its zero are the
format's own. -/
theorem scaleByteValues : Obligations.ScaleByteValues := by
  refine ⟨fun v hv => ?_, rfl, fun v _ hfin => ?_, fun v _ hnan => scaleDyad_e4m3_eq_none hnan, fun v _ hzero => ?_⟩
  · simp [scaleDyad, show v ≠ 0xFF by omega]
  · cases h : decodeF fE4M3 v with
    | nan => exact absurd (decodeF_e4m3_eq_nan_iff.mp h) hfin
    | inf neg => exact absurd h (decodeF_e4m3_ne_inf v neg)
    | fin neg m e => exact ⟨neg, m, e, rfl, scaleDyad_e4m3_of_fin h⟩
  · have hmag : decodeF fE4M3 (v % 128) = .fin false 0 (-9) := by rw [hzero]; rfl
    refine ⟨⟨0, -9⟩, ?_, fun x => Int.mul_zero x.v⟩
    simp [scaleDyad, hmag]

end Sys2Proof.Machine
end

section
/-! The matrix drain (R84, R86, R87): which NaN patterns it can write. -/

namespace Sys2Proof.Machine

/-- The patterns of a format in the order of Table 3-2: the finite magnitudes, above them infinity and the canonical NaN
where there are such, infinity leaving the sign bit free. -/
structure FFmt.Ordered (f : FFmt) : Prop where
  max_lt_sign : f.maxPat < 2 ^ (f.eb + f.mb)
  max_lt_inf : ∀ i ∈ f.infPat, f.maxPat < i ∧ i < 2 ^ (f.eb + f.mb)
  max_lt_nan : ∀ n ∈ f.nanPat, f.maxPat < n

/-- A pattern that is the canonical NaN of its format if it is a NaN at all. -/
def OnlyCanonicalNan (f : FFmt) (w : Nat) : Prop := decodeF f w = .nan → w = nanOf f

theorem drainF_special (f : FFmt) (ovf : Bool) (acc : Acc) (sc : Option Nat) : drainF f ovf true acc sc = nanOf f := rfl

section
variable (f : FFmt) (ovf : Bool) (acc : Acc) {w : Nat}

theorem drainF_of_nan_scale (hw : decodeF fFP32 w = .nan) : drainF f ovf false acc (some w) = nanOf f := by
  simp [drainF, hw]

theorem drainF_of_inf_scale {neg : Bool} (hw : decodeF fFP32 w = .inf neg) :
    drainF f ovf false acc (some w) =
      if (accDyad acc).v = 0 then nanOf f else infOf f ovf (decide ((accDyad acc).v < 0) != neg) := by
  simp [drainF, hw]

theorem drainF_of_fin_scale {neg : Bool} {m : Nat} {x : Int} (hw : decodeF fFP32 w = .fin neg m x) :
    drainF f ovf false acc (some w) =
      if (accDyad acc).v = 0 then 0
      else roundF f ovf (decide ((accDyad acc).v < 0) != neg) ((accDyad acc).v.natAbs * m) 1 ((accDyad acc).e + x) := by
  simp [drainF, hw]

end

/-- A sign in front of a magnitude that is no NaN pattern makes no NaN. -/
theorem onlyCanonicalNan_signed {f : FFmt} {p : Nat} (neg : Bool) (hp : p < 2 ^ (f.eb + f.mb)) (hnan : isNanPat f p = false) :
    OnlyCanonicalNan f (b2n neg * 2 ^ (f.eb + f.mb) + p) := by
  intro h
  rw [decodeF_eq_nan_iff, Nat.mul_add_mod_self_right, Nat.mod_eq_of_lt hp, hnan] at h
  cases h

section
variable {f : FFmt} (hf : f.Ordered)
include hf

/-- No finite magnitude is a NaN pattern. -/
theorem isNanPat_of_le_maxPat {u : Nat} (hu : u ≤ f.maxPat) : isNanPat f u = false := by
  cases hi : f.infPat with
  | some i =>
    have := hf.max_lt_inf i hi
    simp only [isNanPat, hi, decide_eq_false_iff_not]
    omega
  | none =>
    cases hn : f.nanPat with
    | some n =>
      have := hf.max_lt_nan n hn
      simp only [isNanPat, hi, hn, beq_eq_false_iff_ne]
      omega
    | none => simp [isNanPat, hi, hn]

theorem onlyCanonicalNan_finite {p : Nat} (neg : Bool) (hp : p ≤ f.maxPat) :
    OnlyCanonicalNan f (b2n neg * 2 ^ (f.eb + f.mb) + p) :=
  onlyCanonicalNan_signed neg (hp.trans_lt hf.max_lt_sign) (isNanPat_of_le_maxPat hf hp)

theorem onlyCanonicalNan_zero : OnlyCanonicalNan f 0 := by
  simpa [b2n] using onlyCanonicalNan_finite hf false (Nat.zero_le f.maxPat)

/-- A converted infinity is an infinity, the canonical NaN or the largest finite magnitude. -/
theorem onlyCanonicalNan_infOf (toInf neg : Bool) : OnlyCanonicalNan f (infOf f toInf neg) := by
  cases toInf with
  | false => exact onlyCanonicalNan_finite hf neg le_rfl
  | true =>
    cases hi : f.infPat with
    | some i =>
      have hinf : infOf f true neg = b2n neg * 2 ^ (f.eb + f.mb) + i := by simp [infOf, hi]
      rw [hinf]
      exact onlyCanonicalNan_signed neg (hf.max_lt_inf i hi).2 (by simp [isNanPat, hi])
    | none =>
      cases hn : f.nanPat with
      | some n =>
        have hinf : infOf f true neg = nanOf f := by simp [infOf, nanOf, hi, hn]
        exact fun _ => hinf
      | none =>
        have hinf : infOf f true neg = b2n neg * 2 ^ (f.eb + f.mb) + f.maxPat := by simp [infOf, hi, hn]
        rw [hinf]
        exact onlyCanonicalNan_finite hf neg le_rfl

theorem onlyCanonicalNan_roundF (toInf neg : Bool) (n d : Nat) (e : Int) :
    OnlyCanonicalNan f (roundF f toInf neg n d e) := by
  unfold roundF
  dsimp only
  split_ifs with hover
  · exact onlyCanonicalNan_infOf hf toInf neg
  · exact onlyCanonicalNan_finite hf neg (not_lt.mp hover)

theorem onlyCanonicalNan_drainF (ovf special : Bool) (acc : Acc) (sc : Option Nat) :
    OnlyCanonicalNan f (drainF f ovf special acc sc) := by
  cases special with
  | true => exact fun _ => rfl
  | false =>
    cases sc with
    | none => exact onlyCanonicalNan_roundF hf _ _ _ _ _
    | some w =>
      cases hw : decodeF fFP32 w with
      | nan => exact fun _ => drainF_of_nan_scale f ovf acc hw
      | inf neg =>
        rw [drainF_of_inf_scale f ovf acc hw]
        split_ifs
        · exact fun _ => rfl
        · exact onlyCanonicalNan_infOf hf _ _
      | fin neg m x =>
        rw [drainF_of_fin_scale f ovf acc hw]
        split_ifs
        · exact onlyCanonicalNan_zero hf
        · exact onlyCanonicalNan_roundF hf _ _ _ _ _

end

/-- A floating output code drains in its format: the integer codes name none. -/
theorem drainElem_of_ffmtOf {c : Nat} {f : FFmt} (h : ffmtOf c = some f) (ovf special : Bool) (acc : Acc) (sc : Option Nat) :
    drainElem c ovf special acc sc = drainF f ovf special acc sc := by
  have h6 : c ≠ 0x6 := by rintro rfl; cases h
  have hB : c ≠ 0xB := by rintro rfl; cases h
  simp only [drainElem, if_neg h6, if_neg hB, h]

theorem drainFormats_ordered : ∀ e ∈ [(0x1, fE4M3), (0x2, fE5M2), (0x8, fBF16), (0x9, fFP16), (0xA, fFP32)],
    ffmtOf e.1 = some e.2 ∧ e.2.Ordered := by
  intro e he
  simp only [List.mem_cons, List.not_mem_nil, or_false] at he
  rcases he with rfl | rfl | rfl | rfl | rfl <;> exact ⟨rfl, by decide, by decide, by decide⟩

/-- Settles O7: what the drain writes is a rounded value, a converted infinity, a zero or the canonical NaN, and of these
only the last is a NaN (`onlyCanonicalNan_drainF`). -/
theorem drainWritesOnlyCanonicalNaN : Obligations.DrainWritesOnlyCanonicalNaN := by
  refine ⟨by decide, fun e he ovf special acc sc => ?_⟩
  obtain ⟨hfmt, hord⟩ := drainFormats_ordered e he
  simp only [drainElem_of_ffmtOf hfmt]
  refine ⟨onlyCanonicalNan_drainF hord ovf special acc sc, drainF_special _ _ _ _, ?_, ?_⟩
  · rintro w neg rfl hw hacc
    rw [drainF_of_inf_scale e.2 ovf acc hw, if_neg hacc]
  · rintro w neg m x rfl hw
    rw [drainF_of_fin_scale e.2 ovf accZero hw]
    exact if_pos rfl

end Sys2Proof.Machine
end

section
/-! The column accumulator: the integer path of R78 and the range of R77. -/

namespace Sys2Proof.Machine

/-! The integer path -/

/-- On the integer path a group is added the same way in both modes. -/
theorem addGroup_ref_of_intPath {t : Tile} (h : intPath t.a t.b = true) :
    addGroup { t with ref := true } = addGroup { t with ref := false } := by
  funext c xs ys
  simp only [addGroup, h, if_true]

theorem blockInto_ref_of_intPath {t : Tile} (h : intPath t.a t.b = true) :
    blockInto { t with ref := true } = blockInto { t with ref := false } := by
  funext w blk
  simp only [blockInto, addGroup_ref_of_intPath h]
  rfl

theorem runSegment_ref_of_intPath {t : Tile} (h : intPath t.a t.b = true) (w : Bank) (seg : Nat) :
    runSegment { t with ref := true } seg w = runSegment { t with ref := false } seg w := by
  unfold runSegment
  rw [blockInto_ref_of_intPath h]
  rfl

theorem foldl_add_eq_sum (l : List Int) (a : Int) : l.foldl (· + ·) a = a + l.sum := by
  rw [← List.sum_cons, List.sum_eq_foldl, List.foldl_cons, zero_add]

@[simp] theorem accGroupInt_a (acc : Acc) (ps : List Int) : (accGroupInt acc ps).a = acc.a + ps.sum :=
  foldl_add_eq_sum ps acc.a

/-- The accumulator after some groups is what it was and all that they sum to. -/
theorem foldl_accGroupInt_a (gs : List (List Int)) (acc : Acc) :
    (gs.foldl accGroupInt acc).a = acc.a + (gs.map List.sum).sum := by
  induction gs generalizing acc with
  | nil => simp
  | cons g gs ih => rw [List.foldl_cons, ih, accGroupInt_a, List.map_cons, List.sum_cons, add_assoc]

theorem foldl_accGroupInt_run {gs : List (List Int)} (h : gs ≠ []) (acc : Acc) :
    (gs.foldl accGroupInt acc).run = some 39 := by
  induction gs generalizing acc with
  | nil => exact absurd rfl h
  | cons g gs ih =>
    cases gs with
    | nil => rfl
    | cons g' gs => exact ih (List.cons_ne_nil g' gs) _

/-- Integers bounded by b sum to at most b times as many. -/
theorem natAbs_sum_le {b : Nat} {l : List Int} (h : ∀ p ∈ l, p.natAbs ≤ b) : l.sum.natAbs ≤ l.length * b := by
  induction l with
  | nil => simp
  | cons p l ih =>
    obtain ⟨hp, hl⟩ := List.forall_mem_cons.mp h
    have := ih hl
    have := Int.natAbs_add_le p l.sum
    rw [List.sum_cons, List.length_cons, Nat.succ_mul]
    omega

theorem natAbs_sum_groups_le {b : Nat} {gs : List (List Int)} (h : ∀ g ∈ gs, ∀ p ∈ g, p.natAbs ≤ b) :
    (gs.map List.sum).sum.natAbs ≤ (gs.map List.length).sum * b := by
  have hflat := natAbs_sum_le (b := b) (l := gs.flatten) fun p hp => by
    obtain ⟨g, hg, hpg⟩ := List.mem_flatten.mp hp
    exact h g hg p hpg
  rwa [List.sum_flatten, List.length_flatten] at hflat

/-- Settles O8: neither the mode nor an exponent enters an integer group, so the accumulator is the plain sum, and 2^32
products of at most 2^14 keep it below 2^47. -/
theorem integerPathIsExact : Obligations.IntegerPathIsExact := by
  refine ⟨fun t w seg h => runSegment_ref_of_intPath h w seg, fun gs hgs => ?_⟩
  have hsum : (gs.foldl accGroupInt accZero).a = (gs.map List.sum).sum := by
    rw [foldl_accGroupInt_a]; exact zero_add _
  refine ⟨hsum, ?_, fun hbound hcount => ?_⟩
  · simp only [accDyad, foldl_accGroupInt_run hgs, hsum, sub_self]
  · have := natAbs_sum_groups_le hbound
    rw [hsum]
    omega

/-! The floating path -/

/-- Division to nearest even does not pass a whole number of divisors. -/
theorem rneDiv_le {n d b : Nat} (hd : 0 < d) (h : n ≤ b * d) : rneDiv n d ≤ b := by
  rcases h.lt_or_eq with hlt | rfl
  · have : n / d < b := Nat.div_lt_of_lt_mul (by rwa [Nat.mul_comm])
    unfold rneDiv
    dsimp only
    split_ifs <;> omega
  · simp [rneDiv, Nat.mul_div_cancel b hd, hd.ne]

/-- Both roundings of a shift keep a bound that is a whole number of units. -/
theorem natAbs_shiftBy_le {a : Int} {d b : Nat} (ref : Bool) (h : a.natAbs ≤ b * 2 ^ d) :
    (shiftBy ref a d).natAbs ≤ b := by
  have hpos : 0 < 2 ^ d := Nat.two_pow_pos d
  cases ref with
  | true =>
    have := rneDiv_le hpos h
    simp only [shiftBy, if_true]
    split_ifs <;> omega
  | false =>
    have hint : (a.natAbs : Int) ≤ b * (2 ^ d : Nat) := by exact_mod_cast h
    have hlo : -(b : Int) ≤ a / (2 ^ d : Nat) :=
      Int.le_ediv_of_mul_le (by exact_mod_cast hpos) (by rw [Int.neg_mul]; omega)
    have hhi : a / (2 ^ d : Nat) ≤ b := Int.ediv_le_of_le_mul (by exact_mod_cast hpos) (by omega)
    simp only [shiftBy, Bool.false_eq_true, if_false, ipow2, Int.fdiv_eq_ediv_of_nonneg a (Int.natCast_nonneg _)]
    omega

/-- A shift does not make an accumulator larger. -/
theorem natAbs_shiftBy_le_self (ref : Bool) (a : Int) (d : Nat) : (shiftBy ref a d).natAbs ≤ a.natAbs :=
  natAbs_shiftBy_le ref (Nat.le_mul_of_pos_right _ (Nat.two_pow_pos d))

/-- An addend aligned to a running exponent that is not below its own is at most 2^40 (R77). -/
theorem natAbs_alignTo_le (ref : Bool) {p : Dyad} {r : Int} (h : dyadExp p ≤ r) :
    (alignTo ref p (r - 39)).natAbs ≤ 2 ^ 40 := by
  have hlog : p.v.natAbs < 2 ^ (p.v.natAbs.log2 + 1) := Nat.lt_log2_self
  unfold dyadExp at h
  unfold alignTo
  split_ifs with hl
  · calc (p.v * ipow2 (p.e - (r - 39)).toNat).natAbs
        = p.v.natAbs * 2 ^ (p.e - (r - 39)).toNat := Int.natAbs_mul ..
      _ ≤ 2 ^ (p.v.natAbs.log2 + 1) * 2 ^ (p.e - (r - 39)).toNat := Nat.mul_le_mul_right _ hlog.le
      _ = 2 ^ (p.v.natAbs.log2 + 1 + (p.e - (r - 39)).toNat) := (Nat.pow_add ..).symm
      _ ≤ 2 ^ 40 := Nat.pow_le_pow_right (by decide) (by omega)
  · apply natAbs_shiftBy_le
    calc p.v.natAbs ≤ 2 ^ (p.v.natAbs.log2 + 1) := hlog.le
      _ ≤ 2 ^ (40 + (r - 39 - p.e).toNat) := Nat.pow_le_pow_right (by decide) (by omega)
      _ = 2 ^ 40 * 2 ^ (r - 39 - p.e).toNat := Nat.pow_add ..

/-- Addends of at most b move a sum by at most b each. -/
theorem natAbs_foldl_add_le {α : Type} {f : α → Int} {b : Nat} {l : List α} (h : ∀ q ∈ l, (f q).natAbs ≤ b) (a : Int) :
    (l.foldl (fun s q => s + f q) a).natAbs ≤ a.natAbs + l.length * b := by
  have hsum := natAbs_sum_le (b := b) (l := l.map f) (by simpa using h)
  have hfold : l.foldl (fun s q => s + f q) a = a + (l.map f).sum := by
    rw [← List.foldl_map (f := f) (g := (· + ·)), foldl_add_eq_sum]
  rw [List.length_map] at hsum
  have := Int.natAbs_add_le a (l.map f).sum
  omega

/-- The renormalising loop ends below 2^46 within one round more than the bits by which it starts above. -/
theorem natAbs_accNorm_lt (ref : Bool) (n : Nat) {a : Int} (h : a.natAbs ≤ 2 ^ (46 + n)) (r : Int) :
    (accNorm ref (n + 1) a r).a.natAbs < 2 ^ 46 := by
  induction n generalizing a r with
  | zero =>
    unfold accNorm
    split_ifs with hbig
    · have : (shiftBy ref a 1).natAbs ≤ 2 ^ 45 := natAbs_shiftBy_le ref (by omega)
      show (shiftBy ref a 1).natAbs < 2 ^ 46
      omega
    · exact not_le.mp hbig
  | succ n ih =>
    unfold accNorm
    split_ifs with hbig
    · exact ih (natAbs_shiftBy_le ref (by rwa [Nat.pow_one, ← Nat.pow_succ])) (r + 1)
    · exact not_le.mp hbig

theorem foldl_max_le_iff {α : Type} {f : α → Int} {l : List α} {b c : Int} :
    l.foldl (fun m q => max m (f q)) b ≤ c ↔ b ≤ c ∧ ∀ q ∈ l, f q ≤ c := by
  induction l generalizing b with
  | nil => simp
  | cons p l ih => simp [ih, and_assoc]

/-- The products of a group that are not zero (R77). -/
def nonzeros (ps : List Dyad) : List Dyad := ps.filter (fun p => p.v != 0)

/-- What a group comes to: nothing where all its products are zero, else the loop on the accumulator, shifted at most to a
running exponent that no product's exceeds, with the products aligned to it (R77). -/
theorem accGroup_cases (ref : Bool) (acc : Acc) (ps : List Dyad) :
    accGroup ref acc ps = acc ∨
    ∃ (a eg : Int), a.natAbs ≤ acc.a.natAbs ∧ (∀ q ∈ nonzeros ps, dyadExp q ≤ eg) ∧
      accGroup ref acc ps = accNorm ref 64 ((nonzeros ps).foldl (fun s q => s + alignTo ref q (eg - 39)) a) eg := by
  have hnz : ps.filter (fun p => p.v != 0) = nonzeros ps := rfl
  unfold accGroup
  rw [hnz]
  cases nonzeros ps with
  | nil => exact .inl rfl
  | cons p r =>
    obtain ⟨hp, hr⟩ := foldl_max_le_iff.mp (le_refl (r.foldl (fun m q => max m (dyadExp q)) (dyadExp p)))
    cases acc.run with
    | none => exact .inr ⟨acc.a, _, le_rfl, List.forall_mem_cons.mpr ⟨hp, hr⟩, rfl⟩
    | some x =>
      refine .inr ⟨_, _, ?_, List.forall_mem_cons.mpr
        ⟨le_max_of_le_left hp, fun q hq => le_max_of_le_left (hr q hq)⟩, rfl⟩
      dsimp only
      split_ifs
      · exact natAbs_shiftBy_le_self ref acc.a _
      · exact le_rfl

/-- Settles O9: 64 addends of at most 2^40 (`natAbs_alignTo_le`) and the accumulator before them sum to less than 2^47, and the
loop ends below 2^46 (`natAbs_accNorm_lt`). -/
theorem accumulatorStaysInRange : Obligations.AccumulatorStaysInRange := by
  intro ref acc ps hlen hacc
  rcases accGroup_cases ref acc ps with hsame | ⟨a, eg, ha, hexp, hgroup⟩
  · rwa [hsame]
  · have hsum := natAbs_foldl_add_le (fun q hq => natAbs_alignTo_le ref (hexp q hq)) a
    have hnz : (nonzeros ps).length ≤ 64 := (List.length_filter_le _ ps).trans hlen
    rw [hgroup]
    exact natAbs_accNorm_lt ref 63 (by omega) eg

end Sys2Proof.Machine
end

section
/-! The quantiser's choice of a scale (R76). -/

namespace Sys2Proof.Machine

/-- The magnitude that amax takes of an element: a NaN counts as zero (R76). -/
def magOf : Num → Num
  | .fin _ m e => .fin false m e
  | .inf _ => .inf false
  | .nan => .fin false 0 0

/-- An element of which amax takes nothing: a zero or a NaN. -/
def vanishes (x : Num) : Bool := numIsZero (magOf x)

theorem magMax_eq (x y : Num) : magMax x y = if numLt (magOf x) (magOf y) then magOf y else magOf x := by
  cases x <;> cases y <;> rfl

@[simp] theorem vanishes_magOf (x : Num) : vanishes (magOf x) = vanishes x := by cases x <;> rfl

@[simp] theorem vanishes_fin (neg : Bool) (m : Nat) (e : Int) : vanishes (.fin neg m e) = (m == 0) := by
  cases m <;> rfl

theorem ipow2_pos (n : Nat) : 0 < ipow2 n := Int.natCast_pos.mpr (Nat.two_pow_pos n)

/-- A zero is below a number that is not negative exactly when that number is not zero. -/
theorem dyadLt_zero_left (m : Nat) (e g : Int) : dyadLt ⟨0, e⟩ ⟨m, g⟩ = (m != 0) := by
  have := ipow2_pos (g - min e g).toNat
  rw [Bool.eq_iff_iff]
  simp only [dyadLt, dyadAdd, dyadNeg, decide_eq_true_eq, bne_iff_ne, zero_mul, zero_add, neg_mul]
  rw [Int.neg_lt_zero_iff, mul_pos_iff_of_pos_right this]
  omega

/-- A number that is not negative is not below zero. -/
theorem dyadLt_zero_right (m : Nat) (e g : Int) : dyadLt ⟨m, e⟩ ⟨0, g⟩ = false := by
  have := mul_nonneg (Int.natCast_nonneg m) (ipow2_pos (e - min e g).toNat).le
  simpa [dyadLt, dyadAdd, dyadNeg] using this

theorem magOf_of_vanishes {x : Num} (h : vanishes x = true) : ∃ e, magOf x = .fin false 0 e := by
  cases x with
  | nan => exact ⟨0, rfl⟩
  | inf neg => cases h
  | fin neg m e =>
    rw [vanishes_fin, beq_iff_eq] at h
    exact ⟨e, by rw [h]; rfl⟩

/-- A magnitude that vanishes is below exactly those that do not. -/
theorem numLt_magOf_of_vanishes_left {x : Num} (h : vanishes x = true) (y : Num) :
    numLt (magOf x) (magOf y) = !vanishes y := by
  obtain ⟨e, hx⟩ := magOf_of_vanishes h
  rw [hx]
  cases y with
  | nan => exact dyadLt_zero_left 0 e 0
  | inf neg => rfl
  | fin neg m g => rw [vanishes_fin]; exact dyadLt_zero_left m e g

theorem numLt_magOf_of_vanishes_right {y : Num} (h : vanishes y = true) (x : Num) :
    numLt (magOf x) (magOf y) = false := by
  obtain ⟨g, hy⟩ := magOf_of_vanishes h
  rw [hy]
  cases x with
  | nan => exact dyadLt_zero_right 0 0 g
  | inf neg => rfl
  | fin neg m e => exact dyadLt_zero_right m e g

/-- The larger of two magnitudes vanishes when both do. -/
@[simp] theorem vanishes_magMax (x y : Num) : vanishes (magMax x y) = (vanishes x && vanishes y) := by
  rw [magMax_eq]
  cases hx : vanishes x with
  | true => cases hy : vanishes y <;> simp [numLt_magOf_of_vanishes_left hx, hx, hy]
  | false =>
    cases hy : vanishes y with
    | true => simp [numLt_magOf_of_vanishes_right hy, hx]
    | false => split_ifs <;> simp [hx, hy]

theorem vanishes_foldl_magMax (xs : List Num) (b : Num) : vanishes (xs.foldl magMax b) = (vanishes b && xs.all vanishes) := by
  induction xs generalizing b with
  | nil => simp
  | cons x xs ih => rw [List.foldl_cons, ih, vanishes_magMax, List.all_cons, Bool.and_assoc]

/-- The amax of a block vanishes exactly when each of its elements is a zero or a NaN. -/
theorem vanishes_blockAmax (xs : List Num) : vanishes (blockAmax xs) = xs.all vanishes := vanishes_foldl_magMax xs _

theorem quantScale_e8m0_le (fmt : Nat) (xs : List Num) : quantScale fmt 1 xs ≤ 254 := by
  unfold quantScale
  cases blockAmax xs with
  | nan => exact Nat.zero_le _
  | inf neg => exact le_rfl
  | fin neg m e =>
    simp only [if_true]
    split_ifs
    · exact Nat.zero_le _
    · omega

theorem quantScale_e4m3_of_vanishes {fmt : Nat} {xs : List Num} (h : vanishes (blockAmax xs) = true) :
    quantScale fmt 2 xs = 0 := by
  unfold quantScale
  cases hb : blockAmax xs with
  | nan => rfl
  | inf neg => rw [hb] at h; cases h
  | fin neg m e =>
    rw [hb, vanishes_fin, beq_iff_eq] at h
    simp [h]

theorem quantScale_e4m3_of_not_vanishes {fmt : Nat} {xs : List Num} (h : vanishes (blockAmax xs) = false) :
    1 ≤ quantScale fmt 2 xs ∧ quantScale fmt 2 xs ≤ 0x7E := by
  unfold quantScale
  cases hb : blockAmax xs with
  | nan => rw [hb] at h; cases h
  | inf neg => simp
  | fin neg m e =>
    rw [hb, vanishes_fin, beq_eq_false_iff_ne] at h
    dsimp only
    rw [if_neg h, if_neg (by decide)]
    exact ⟨le_max_left _ _, max_le (by decide) (min_le_left _ _)⟩

/-- Settles O10: the amax of a block is zero exactly when all that its elements bring is (`vanishes_blockAmax`), and any other
amax gives a scale clamped to the format's magnitudes. -/
theorem quantiserScaleRange : Obligations.QuantiserScaleRange := by
  intro fmt xs _
  refine ⟨quantScale_e8m0_le fmt xs, fun hall => ?_, fun hsome => ?_⟩
  · refine quantScale_e4m3_of_vanishes ((vanishes_blockAmax xs).trans (List.all_eq_true.mpr fun x hx => ?_))
    rcases hall x hx with rfl | ⟨neg, e, rfl⟩ <;> rfl
  · refine quantScale_e4m3_of_not_vanishes ((vanishes_blockAmax xs).trans (List.all_eq_false.mpr ?_))
    obtain ⟨x, hx, neg, m, e, rfl | rfl⟩ := hsome
    · exact ⟨_, hx, by simp⟩
    · exact ⟨_, hx, Bool.false_ne_true⟩

end Sys2Proof.Machine
end

section
/-! The queues of the cores (R98, R99): what stands in them, and how a command that waits alone on its hub starts. -/

namespace Sys2Proof.Machine

/-! Queues and their cores -/

theorem storeInsert_storeInsert {α : Type} (m : Store α) (k : Nat) (v w : α) :
    storeInsert (storeInsert m k v) k w = storeInsert m k w := by
  induction m with
  | nil => simp [storeInsert]
  | cons e r ih =>
    obtain ⟨j, x⟩ := e
    by_cases hlt : k < j
    · simp [storeInsert, hlt]
    · by_cases heq : k = j
      · simp [storeInsert, heq]
      · simp [storeInsert, hlt, heq, ih]

/-- An inserted key with a property that no other key of its table has is the only one there with it. -/
theorem filter_keys_storeInsert {α : Type} {p : Nat → Bool} {m : Store α} {k : Nat} (v : α) (hm : ∀ e ∈ m, ¬ p e.1 = true)
    (hk : p k = true) : ((storeInsert m k v).map (·.1)).filter p = [k] := by
  induction m with
  | nil => simp [storeInsert, hk]
  | cons e r ih =>
    obtain ⟨j, x⟩ := e
    obtain ⟨hj, hr⟩ := List.forall_mem_cons.mp hm
    have hne : k ≠ j := fun e => hj (e ▸ hk)
    have hrest : (r.map (·.1)).filter p = [] := by simpa using hr
    by_cases hlt : k < j
    · simp [storeInsert, hlt, hk, hj, hrest]
    · rw [storeInsert, if_neg hlt, if_neg hne, List.map_cons, List.filter_cons_of_neg hj, ih hr]

@[simp] theorem queueAt_setQueueAt (s : State) (k : Nat) (l : List RunCmd) : queueAt (setQueueAt s k l) k = l :=
  storeGet_put_same _ _ _ _

@[simp] theorem setCmd_held (s : State) (k : Nat) (r : RunCmd) : (setCmd s k r).core.held = s.core.held := rfl
@[simp] theorem setCmd_mem (s : State) (k : Nat) (r : RunCmd) : (setCmd s k r).mem = s.mem := rfl
@[simp] theorem rd_setCmd (s : State) (k : Nat) (r : RunCmd) (f : Fld) (n : Nat) : rd (setCmd s k r) f n = rd s f n := rfl

/-- A command put back into its place is the one of its number. -/
theorem cmdAt_setCmd {s : State} {k n : Nat} {r r' : RunCmd} (h : cmdAt s k n = some r) (hn : r'.num = n) :
    cmdAt (setCmd s k r') k n = some r' := by
  have hr : r.num = n := by simpa using List.find?_some h
  have hsame : (fun x : RunCmd => x.num == n) ∘ (fun x => if x.num = r'.num then r' else x) = fun x => x.num == n := by
    funext x
    by_cases hx : x.num = r'.num
    · simp [hx]
    · simp [hx]
  rw [cmdAt] at h
  rw [cmdAt, setCmd, queueAt_setQueueAt, List.find?_map, hsame, h, Option.map_some, if_pos (hr.trans hn.symm)]

/-- A core of a hub without commands has none. -/
theorem queueAt_of_hubQueues_eq_nil {s : State} {k : Nat} (h : hubQueues s (k / 66) = []) : queueAt s k = [] := by
  rw [queueAt, storeGet]
  cases hf : storeFind s.core.queues k with
  | none => rfl
  | some l =>
    have hmem : k ∈ hubQueues s (k / 66) :=
      List.mem_filter.mpr ⟨List.mem_map.mpr ⟨_, mem_of_storeFind hf, rfl⟩, by simp⟩
    rw [h] at hmem
    cases hmem

/-! A command alone on its hub -/

/-- The commands of a state are those of a table, which has none of the core's hub, and one command on the core, where no engine is
held. -/
structure AloneOn (qs : Store (List RunCmd)) (k : Nat) (r : RunCmd) (s : State) : Prop where
  none_else : ∀ e ∈ qs, e.1 / 66 ≠ k / 66
  queues : s.core.queues = storeInsert qs k [r]
  unheld : storeFind s.core.held k = none

section Alone
variable {qs : Store (List RunCmd)} {k : Nat} {r : RunCmd} {s : State} (h : AloneOn qs k r s)
include h

theorem AloneOn.queueAt_eq : queueAt s k = [r] := by
  rw [queueAt, storeGet, h.queues, storeFind_insert_same]
  rfl

theorem AloneOn.hubQueues_eq : hubQueues s (k / 66) = [k] := by
  rw [hubQueues, h.queues]
  exact filter_keys_storeInsert _ (fun e he => by simpa using h.none_else e he) (by simp)

/-- The command may start until it has started. -/
theorem AloneOn.nextCmd_eq (hfence : rdb s .HUB_SLOT_STATE_FENCED k = false) :
    nextCmd s k = if r.started then none else some r := by
  cases hr : r.started <;> simp [nextCmd, h.unheld, hfence, h.queueAt_eq, hr]

theorem AloneOn.nextCmd_of_started (hr : r.started = true) : nextCmd s k = none := by
  simp [nextCmd, h.queueAt_eq, hr]

/-- The command in its place, changed, is alone there too. -/
theorem AloneOn.after_setCmd {r' : RunCmd} (hn : r'.num = r.num) : AloneOn qs k r' (setCmd s k r') := by
  refine ⟨h.none_else, ?_, h.unheld⟩
  have hput : (setCmd s k r').core.queues = storeInsert s.core.queues k [r'] := by
    simp [setCmd, setQueueAt, storePut, h.queueAt_eq, hn]
  rw [hput, h.queues, storeInsert_storeInsert]

theorem AloneOn.congr {t : State} (hc : t.core.queues = s.core.queues) (hh : t.core.held = s.core.held) : AloneOn qs k r t :=
  ⟨h.none_else, hc.trans h.queues, by rw [hh]; exact h.unheld⟩

/-- A VECTOR stage that starts takes its copy of the scalars; else the command stays as it is. -/
theorem AloneOn.after_noteStarts : ∃ copy, AloneOn qs k { r with scalars := copy } (noteStarts s k r.num) := by
  have hcmd : cmdAt s k r.num = some r := by simp [cmdAt, h.queueAt_eq]
  simp only [noteStarts, hcmd]
  split
  · exact ⟨_, h.after_setCmd rfl⟩
  · exact ⟨_, h⟩

end Alone

/-! The BUSY bits -/

def busyFlds : List Fld := [.MAT_CORE_STATUS_BUSY, .VEC_CORE_STATUS_BUSY, .LARDER_STATUS_BUSY]

theorem within_showBusy (s : State) (k : Nat) : Within [] busyFlds s (showBusy s k) :=
  ((within_wrb s _ _ _).mono (by simp) (by simp [busyFlds])).trans
    (((within_wrb _ _ _ _).mono (by simp) (by simp [busyFlds])).trans ((within_wrb _ _ _ _).mono (by simp) (by simp [busyFlds])))

@[simp] theorem showBusy_core (s : State) (k : Nat) : (showBusy s k).core = s.core := rfl

theorem stagesOn_showBusy (s : State) (k j : Nat) : stagesOn (showBusy s k) j = stagesOn s j := rfl

theorem b2n_beq_one (b : Bool) : (b2n b == 1) = b := by cases b <;> rfl

theorem rdb_showBusy_mat (s : State) (k : Nat) : rdb (showBusy s k) .MAT_CORE_STATUS_BUSY k =
    (stagesOn (showBusy s k) k).any (fun e => decide (stageKind e.2.2 ≤ 2)) := by
  rw [stagesOn_showBusy, rdb, showBusy, rd_wrb, if_neg (by simp), rd_wrb, if_neg (by simp), rd_wrb, if_pos ⟨rfl, rfl⟩, b2n_beq_one]

theorem rdb_showBusy_vec (s : State) (k : Nat) : rdb (showBusy s k) .VEC_CORE_STATUS_BUSY k =
    (stagesOn (showBusy s k) k).any (fun e => decide (3 ≤ stageKind e.2.2 ∧ stageKind e.2.2 ≤ 5)) := by
  rw [stagesOn_showBusy, rdb, showBusy, rd_wrb, if_neg (by simp), rd_wrb, if_pos ⟨rfl, rfl⟩, b2n_beq_one]
  rfl

/-! The start of a command that asks for no semaphore and no credit -/

theorem semsAt_of_no_sems {q : QueuedCmd} (h : q.card.sems = []) (acq : Bool) : semsAt q acq = [] := by simp [semsAt, h]

theorem creditsWanted_of_no_credits {q : QueuedCmd} (h : q.card.credits = []) (s : State) : creditsWanted s q = [] := by
  simp [creditsWanted, h]

theorem drawCredits_of_no_credits {q : QueuedCmd} (h : q.card.credits = []) (s : State) : drawCredits s q = s := by
  rw [drawCredits, creditsWanted_of_no_credits h]
  rfl

@[simp] theorem trail_core (s : State) (k code ctx arg16 arg32 : Nat) : (trail s k code ctx arg16 arg32).core = s.core :=
  (within_trail s k code ctx arg16 arg32).parts .core (by simp)

@[simp] theorem trail_now (s : State) (k code ctx arg16 arg32 : Nat) : (trail s k code ctx arg16 arg32).now = s.now :=
  (within_trail s k code ctx arg16 arg32).parts .now (by simp)

/-- A core counts a command that starts, and its trail notes it. -/
def startCounted (s : State) (k : Nat) (r : RunCmd) : State :=
  trail (updCore s fun c => { c with started := storePut 0 c.started k (storeGet 0 c.started k + 1) }) k 0x01 r.q.ctx r.q.index
    r.q.card.cardId

/-- A command as it has started at a state's time. -/
def startedCmd (s : State) (r : RunCmd) : RunCmd :=
  { r with started := true, start := if r.q.members = [] then s.now else max s.now r.q.segStart, unused := reserveLeft s }

theorem beginCmd_of_no_credits {r : RunCmd} (h : r.q.card.credits = []) (s : State) (k : Nat) :
    beginCmd s k r = showBusy (noteStarts (setCmd (startCounted s k r) k (startedCmd s r)) k r.num) k := by
  rw [beginCmd, drawCredits_of_no_credits h, startedCmd]
  simp only [startCounted, trail_now, updCore_now, reserveLeft, trail_tt, updCore_tt]

theorem within_startCounted (s : State) (k : Nat) (r : RunCmd) : Within [.core, .dbg] [] s (startCounted s k r) :=
  ((within_core s _).mono (by simp) (by simp)).trans ((within_trail _ _ _ _ _ _).mono (by simp) (by simp))

theorem within_setQueueAt (s : State) (k : Nat) (l : List RunCmd) : Within [.core] [] s (setQueueAt s k l) := within_core s _

theorem within_setCmd (s : State) (k : Nat) (r : RunCmd) : Within [.core] [] s (setCmd s k r) := within_setQueueAt s k _

theorem within_noteStarts (s : State) (k n : Nat) : Within [.core] [] s (noteStarts s k n) := by
  unfold noteStarts
  split
  · exact Within.refl _ _ _
  · dsimp only
    split
    · exact within_setCmd s k _
    · exact Within.refl _ _ _

theorem within_beginCmd {r : RunCmd} (h : r.q.card.credits = []) (s : State) (k : Nat) :
    Within [.core, .dbg] busyFlds s (beginCmd s k r) := by
  rw [beginCmd_of_no_credits h]
  exact ((within_startCounted s k r).mono (by simp) (by simp)).trans (((within_setCmd _ _ _).mono (by simp) (by simp)).trans
    (((within_noteStarts _ _ _).mono (by simp) (by simp)).trans ((within_showBusy _ _).mono (by simp) (by simp))))

theorem beginCmd_mem {r : RunCmd} (h : r.q.card.credits = []) (s : State) (k : Nat) : (beginCmd s k r).mem = s.mem :=
  (within_beginCmd h s k).parts .mem (by simp)

theorem reachSems_of_none_next {s : State} {k : Nat} (h : nextCmd s k = none) : reachSems s k = s := by simp only [reachSems, h]

theorem reachSems_of_no_sems {s : State} {k : Nat} {r : RunCmd} (h : nextCmd s k = some r) (hsems : r.q.card.sems = []) :
    reachSems s k = s := by
  simp only [reachSems, h, semsAt_of_no_sems hsems]
  rfl

theorem startHead_of_none_next {s : State} {k : Nat} (h : nextCmd s k = none) (n : Nat) : startHead n s k = s := by
  cases n <;> simp only [startHead, h]

section Start
variable {qs : Store (List RunCmd)} {k : Nat} {r : RunCmd} {s : State} (h : AloneOn qs k r s)
include h

/-- A command alone on its hub that starts is alone there as it has started, and the BUSY bits show its stages. -/
theorem AloneOn.begins (hcred : r.q.card.credits = []) : ∃ copy,
    AloneOn qs k { startedCmd s r with scalars := copy } (beginCmd s k r) ∧
    rdb (beginCmd s k r) .MAT_CORE_STATUS_BUSY k = (stagesOn (beginCmd s k r) k).any (fun e => decide (stageKind e.2.2 ≤ 2)) ∧
    rdb (beginCmd s k r) .VEC_CORE_STATUS_BUSY k =
      (stagesOn (beginCmd s k r) k).any (fun e => decide (3 ≤ stageKind e.2.2 ∧ stageKind e.2.2 ≤ 5)) := by
  rw [beginCmd_of_no_credits hcred]
  have hcount : AloneOn qs k r (startCounted s k r) := h.congr (by rw [startCounted, trail_core]; rfl)
    (by rw [startCounted, trail_core]; rfl)
  obtain ⟨copy, hcopy⟩ : ∃ copy, AloneOn qs k { startedCmd s r with scalars := copy }
      (noteStarts (setCmd (startCounted s k r) k (startedCmd s r)) k r.num) :=
    (hcount.after_setCmd (r' := startedCmd s r) rfl).after_noteStarts
  exact ⟨copy, hcopy.congr (by rw [showBusy_core]) (by rw [showBusy_core]), rdb_showBusy_mat _ _, rdb_showBusy_vec _ _⟩

/-- A started command that is alone on its hub leaves the hub's turn nothing to do. -/
theorem AloneOn.pumpOnce_of_started (hr : r.started = true) : pumpOnce s (k / 66) = s := by
  have hnone := h.nextCmd_of_started hr
  simp only [pumpOnce, h.hubQueues_eq, each, List.foldl_cons, List.foldl_nil, reachSems_of_none_next hnone]
  exact startHead_of_none_next hnone 16

/-- A command alone on its hub that asks for no semaphore and no credit starts at once. -/
theorem AloneOn.pump_eq (hr : r.started = false) (hfence : rdb s .HUB_SLOT_STATE_FENCED k = false) (hsems : r.q.card.sems = [])
    (hcred : r.q.card.credits = []) : pump s (k / 66) = beginCmd s k r := by
  obtain ⟨copy, hbegun, -, -⟩ := h.begins hcred
  have hnext : nextCmd s k = some r := by simp [h.nextCmd_eq hfence, hr]
  have hnone : nextCmd (beginCmd s k r) k = none := hbegun.nextCmd_of_started rfl
  have hready : semsReady s k r = true := by simp [semsReady, semsAt_of_no_sems hsems]
  have hthere : creditsThere s r.q = true := by simp [creditsThere, creditsWanted_of_no_credits hcred]
  have hstart : startHead 16 s k = beginCmd s k r := by
    simp only [startHead, hnext, hready, hthere, Bool.and_self, if_true, reachSems_of_none_next hnone, hnone]
  have honce : pumpOnce s (k / 66) = beginCmd s k r := by
    simp only [pumpOnce, h.hubQueues_eq, each, List.foldl_cons, List.foldl_nil, reachSems_of_no_sems hnext hsems, hstart]
  rw [pump, honce, hbegun.pumpOnce_of_started rfl]

end Start

end Sys2Proof.Machine
end

section
/-! O19: a fused command for a hub without commands enters its core's queue and starts (R98, R99, R166). -/

namespace Sys2Proof.Machine

/-! What the queue of a core takes in -/

theorem within_placeTables (s : State) (k : Nat) (q : QueuedCmd) : Within [.mem] [] s (placeTables s k q) := by
  unfold placeTables
  refine within_each _ (fun t st => ?_) _ s
  split
  · exact within_writeBytes _ _ _
  · exact (within_writeBytes _ _ _).trans (within_writeBytes _ _ _)
  · split
    · exact within_writeBytes _ _ _
    · exact Within.refl _ _ _
  · exact Within.refl _ _ _

theorem within_putSegment (s : State) (g : Segment) : Within [.fab] [] s (putSegment s g) :=
  (within_fab s _).trans (within_fab _ _)

theorem within_openSegment (s : State) (q : QueuedCmd) : Within [.fab] [] s (openSegment s q) := by
  unfold openSegment
  split
  · exact Within.refl _ _ _
  · split
    · exact within_putSegment s _
    · exact within_putSegment s _

theorem within_noteTask (s : State) (k : Nat) (q : QueuedCmd) : Within [.core] [] s (noteTask s k q) := by
  unfold noteTask
  exact within_core s _

/-- A command that enters an empty queue. -/
def freshCmd (q : QueuedCmd) : RunCmd :=
  ⟨1, q, 0, 0, false, q.cmd.stages.map (fun _ => false), ⟨0, 0, []⟩, none, List.replicate 7 0, false, false, false⟩

/-- A command has entered the empty queue of a core: its tables are placed, its segment is open and its task has the core. -/
def queued (s : State) (k : Nat) (q : QueuedCmd) : State :=
  setQueueAt (noteTask (openSegment (placeTables s k q) q) k q) k [freshCmd q]

theorem within_enter (s : State) (k : Nat) (q : QueuedCmd) (l : List RunCmd) :
    Within [.fab, .core] [] s (setQueueAt (noteTask (openSegment s q) k q) k l) :=
  ((within_openSegment s q).mono (by simp) (by simp)).trans
    (((within_noteTask _ k q).mono (by simp) (by simp)).trans ((within_setQueueAt _ k l).mono (by simp) (by simp)))

theorem within_queued (s : State) (k : Nat) (q : QueuedCmd) : Within [.mem, .fab, .core] [] s (queued s k q) :=
  ((within_placeTables s k q).mono (by simp) (by simp)).trans ((within_enter _ k q _).mono (by simp) (by simp))

theorem queued_mem (s : State) (k : Nat) (q : QueuedCmd) : (queued s k q).mem = (placeTables s k q).mem :=
  (within_enter _ k q _).parts .mem (by simp)

/-- A command that enters a core's queue on a hub without commands is alone there. -/
theorem aloneOn_queued {s : State} {k : Nat} (q : QueuedCmd) (hq : hubQueues s (k / 66) = [])
    (hheld : storeFind s.core.held k = none) : AloneOn s.core.queues k (freshCmd q) (queued s k q) := by
  have hcore : (openSegment (placeTables s k q) q).core = s.core :=
    ((within_placeTables s k q).parts .core (by simp)).trans ((within_openSegment _ q).parts .core (by simp))
  refine ⟨fun e he => ?_, ?_, ?_⟩
  · simpa using List.filter_eq_nil_iff.mp hq e.1 (List.mem_map_of_mem he)
  · show storePut [] (openSegment (placeTables s k q) q).core.queues k [freshCmd q] = _
    rw [hcore]
    rfl
  · show storeFind (openSegment (placeTables s k q) q).core.held k = none
    rw [hcore, hheld]

/-! FUSED_COMMAND -/

/-- A command as its queue holds it is that of the record but for the members of its segment. -/
theorem lockCmd_same (s : State) (q : QueuedCmd) :
    (lockCmd s q).hub = q.hub ∧ (lockCmd s q).card = q.card ∧ (lockCmd s q).cmd = q.cmd ∧ (lockCmd s q).segStart = q.segStart := by
  unfold lockCmd
  split <;> exact ⟨rfl, rfl, rfl, rfl⟩

section Fused
variable {s : State} {t p : Nat} {q : QueuedCmd} (hhalt : q.hub ∉ (tick s t).core.halted)
  (hphys : physOf (tick s t) q.hub q.slot = some p) (hp : p < 66)
  (hfence : rdb (tick s t) .HUB_SLOT_STATE_FENCED (coreKey q.hub p) = false) (hempty : hubQueues (tick s t) q.hub = [])
  (hheld : storeFind (tick s t).core.held (coreKey q.hub p) = none) (hsems : q.card.sems = []) (hcred : q.card.credits = [])
include hhalt hphys hp hfence hempty

/-- A command for a served slot of a hub without commands enters its core's queue, which then goes on. -/
theorem exec_fusedCommand : exec (.fusedCommand t q) s =
    settle s (pump (queued (tick s t) (coreKey q.hub p) (lockCmd (tick s t) q)) (coreKey q.hub p / 66)) := by
  obtain ⟨hhub, -⟩ := lockCmd_same (tick s t) q
  have hnone : queueAt (tick s t) (coreKey q.hub p) = [] :=
    queueAt_of_hubQueues_eq_nil (by rw [(coreKey_hub hp).1]; exact hempty)
  show execFusedCommand t q s = _
  rw [(coreKey_hub hp).1]
  simp only [execFusedCommand, if_neg hhalt, hphys, hfence, hnone, hhub]
  rfl

include hheld hsems hcred

theorem exec_fusedCommand_starts : exec (.fusedCommand t q) s =
    settle s (beginCmd (queued (tick s t) (coreKey q.hub p) (lockCmd (tick s t) q)) (coreKey q.hub p)
      (freshCmd (lockCmd (tick s t) q))) := by
  obtain ⟨-, hcard, -⟩ := lockCmd_same (tick s t) q
  have halone := aloneOn_queued (lockCmd (tick s t) q) ((congrArg _ (coreKey_hub hp).1).trans hempty) hheld
  have hfence' : rdb (queued (tick s t) (coreKey q.hub p) (lockCmd (tick s t) q)) .HUB_SLOT_STATE_FENCED (coreKey q.hub p) = false := by
    rwa [rdb, (within_queued _ _ _).regs _ _ List.not_mem_nil, ← rdb]
  rw [exec_fusedCommand hhalt hphys hp hfence hempty,
    halone.pump_eq rfl hfence' (by rw [freshCmd, hcard, hsems]) (by rw [freshCmd, hcard, hcred])]

end Fused

theorem queueAt_settled (s t : State) (k : Nat) : queueAt (settled s t) k = queueAt t k := rfl

theorem stagesOn_settled (s t : State) (k : Nat) : stagesOn (settled s t) k = stagesOn t k := rfl

/-- Settles O19: the command is alone on its hub as it enters its queue (`aloneOn_queued`), and so starts (`AloneOn.pump_eq`). -/
theorem fusedCommandStarts : Obligations.FusedCommandStarts := by
  intro s t q p u k hhalt hphys hp hfence hempty hheld hsems hcred
  have hexec := exec_fusedCommand_starts hhalt hphys hp hfence hempty hheld hsems hcred
  obtain ⟨-, hcard, hcmd, hseg⟩ := lockCmd_same u q
  have halone := aloneOn_queued (lockCmd u q) ((congrArg _ (coreKey_hub hp).1).trans hempty) hheld
  have hcred' : (freshCmd (lockCmd u q)).q.card.credits = [] := by rw [freshCmd, hcard, hcred]
  have hnow : (queued u k (lockCmd u q)).now = u.now := (within_queued u k _).parts .now (by simp)
  obtain ⟨copy, hbegun, hmat, hvec⟩ := halone.begins hcred'
  refine runs_of_settle hexec ⟨⟨_, (queueAt_settled _ _ _).trans hbegun.queueAt_eq, rfl, rfl, ?_, ?_⟩, ?_, ?_, ?_⟩
  · rw [← hcmd]
    rfl
  · rw [← hnow, ← hseg]
    rfl
  · rw [rdb, rd_settled_other _ _ _ _ (by decide), ← rdb, hmat, stagesOn_settled]
  · rw [rdb, rd_settled_other _ _ _ _ (by decide), ← rdb, hvec, stagesOn_settled]
  · rw [settled_mem, beginCmd_mem hcred', queued_mem]

end Sys2Proof.Machine
end

section
/-! O20: the events of a core: the wait on a retained range, the rescue of a held engine, armed injections, the summary queue and
the scalar window. -/

namespace Sys2Proof.Machine

/-! The wait on a retained range (R102) -/

theorem within_useReserve (s : State) (ns : Nat) : Within [.tt] [] s (useReserve s ns) := by
  unfold useReserve
  split
  · exact within_tt s _
  · exact Within.refl _ _ _

theorem within_stall (s : State) (k ctx kind n : Nat) : Within [.dbg] [] s (stall s k ctx kind n) := by
  unfold stall
  split
  · exact within_each _ (fun t _ => within_trail t _ _ _ _ _) _ s
  · exact Within.refl _ _ _

/-- A wait that ends: its cycles are counted, take reserve (R57) and stand in the core's trail. -/
def waitCounted (s : State) (k ctx cycles : Nat) : State :=
  stall (useReserve (incX s .MAT_RETAIN_WAIT_CYCLES k cycles) (coreNs s k cycles)) k ctx 3 cycles

theorem within_waitCounted (s : State) (k ctx cycles : Nat) :
    Within [.tt, .dbg] [] (incX s .MAT_RETAIN_WAIT_CYCLES k cycles) (waitCounted s k ctx cycles) :=
  ((within_useReserve _ _).mono (by simp) (by simp)).trans ((within_stall _ _ _ _ _).mono (by simp) (by simp))

section Release
variable {s : State} {t hub phys cycles : Nat} {w : RetainWait} {rest : List RetainWait} {r : RunCmd} {st : Stage}
  (hwait : (tick s t).core.waiting = w :: rest) (hcore : w.core = coreKey hub phys)
  (hcmd : cmdAt (tick s t) (coreKey hub phys) w.num = some r) (hst : r.q.cmd.stages[w.stage]? = some st)
  (hfree : retainConflict (tick s t) (coreKey hub phys) r w.stage st = false)
include hwait hcore hcmd hst hfree

/-- The first of the waits is the one that ends, where its stage's writes meet no retained range any more. -/
theorem exec_retentionRelease : exec (.retentionRelease t hub phys cycles) s = settle s
    (updCore (waitCounted (tick s t) (coreKey hub phys) r.q.ctx cycles) fun c => { c with waiting := c.waiting.erase w }) := by
  show execRetentionRelease t hub phys cycles s = _
  simp only [execRetentionRelease, hwait, List.find?_cons, hcmd, hst, hcore, hfree, beq_self_eq_true, Bool.not_false, Bool.and_self,
    Option.map_some, Option.getD_some]
  rfl

theorem retentionRelease_runs : Runs (.retentionRelease t hub phys cycles) s fun v =>
    v.core.waiting = rest ∧ rd v .MAT_RETAIN_WAIT_CYCLES (coreKey hub phys) =
      rd (incX (tick s t) .MAT_RETAIN_WAIT_CYCLES (coreKey hub phys) cycles) .MAT_RETAIN_WAIT_CYCLES (coreKey hub phys) ∧
    v.mem = s.mem := by
  have hinc := within_incX (tick s t) .MAT_RETAIN_WAIT_CYCLES (coreKey hub phys) cycles
  have hcount := within_waitCounted (tick s t) (coreKey hub phys) r.q.ctx cycles
  have hkept : (waitCounted (tick s t) (coreKey hub phys) r.q.ctx cycles).core = (tick s t).core :=
    (hinc.parts .core (by simp)).trans (hcount.parts .core (by simp))
  have hmem : (waitCounted (tick s t) (coreKey hub phys) r.q.ctx cycles).mem = s.mem :=
    (hinc.parts .mem (by simp)).trans (hcount.parts .mem (by simp))
  refine runs_of_settle (exec_retentionRelease hwait hcore hcmd hst hfree) ⟨?_, ?_, hmem⟩
  · rw [settled_core, updCore_core, hkept, hwait, List.erase_cons_head]
  · rw [rd_settled_other _ _ _ _ (by decide), rd_updCore, hcount.regs _ _ List.not_mem_nil]

end Release

/-! The rescue of a held engine (R290) -/

/-- A counter reads the same after an increment in two states that agree on it and on the exclusive window. -/
theorem rd_incX_congr {s t : State} {f : Fld} {n : Nat} (hw : windowCtx t = windowCtx s) (h : rd t f n = rd s f n) (k : Nat) :
    rd (incX t f n k) f n = rd (incX s f n k) f n := by
  unfold incX
  rw [hw]
  split
  · exact h
  · rw [inc, inc, rd_wr_same, rd_wr_same, h]

/-- A rescue is counted, and its core runs at SKIP 3/4 from then on. -/
def rescueCounted (s : State) (hub k : Nat) : State := incX (saveCore (wr s .INTEG_CORE_INFO_SKIP k 2) k) .INTEG_RESCUES hub

theorem within_rescueCounted (s : State) (hub k : Nat) :
    Within [.rep] [.INTEG_CORE_INFO_SKIP, .INTEG_RESCUES] s (rescueCounted s hub k) :=
  ((within_wr s _ _ _).mono (by simp) (by simp)).trans
    (((within_saveCore _ _).mono (by simp) (by simp)).trans ((within_incX _ _ _ _).mono (by simp) (by simp)))

theorem rd_rescueCounted_skip (s : State) (hub k : Nat) : rd (rescueCounted s hub k) .INTEG_CORE_INFO_SKIP k = 2 := by
  rw [rescueCounted, (within_incX _ _ _ _).regs _ _ (by decide), (within_saveCore _ _).regs _ _ List.not_mem_nil, rd_wr_same]

theorem rd_rescueCounted_rescues (s : State) (hub k : Nat) :
    rd (rescueCounted s hub k) .INTEG_RESCUES hub = rd (incX s .INTEG_RESCUES hub) .INTEG_RESCUES hub := by
  have hsame : ∀ f n, f ≠ .INTEG_CORE_INFO_SKIP → rd (saveCore (wr s .INTEG_CORE_INFO_SKIP k 2) k) f n = rd s f n := fun f n hf =>
    ((within_saveCore _ _).regs _ _ List.not_mem_nil).trans (rd_wr_ne _ _ _ _ _ _ fun e => hf e.1)
  refine rd_incX_congr ?_ (hsame _ _ (by decide)) 1
  rw [windowCtx, windowCtx, rdb, rdb, hsame _ _ (by decide), hsame _ _ (by decide)]

/-- The outcome of a rescue is reported and the engine's status shows no hold. -/
def rescueReported (s : State) (k : Nat) (h : Held) (r : RunCmd) (pass : Bool) : State :=
  let u := checkRecord s 0x02 k r (if h.drain then 5 else h.engine) h.segment (!h.residue) h.injected (if pass then 1 else 2)
  let u := trail u k 0x06 r.q.ctx h.segment (b2n pass)
  wr (wr u .MAT_CORE_STATUS_HELD k 0) .VEC_CORE_STATUS_HELD k 0

theorem within_rescueReported (s : State) (k : Nat) (h : Held) (r : RunCmd) (pass : Bool) :
    Within [.rep, .dbg] (reportFlds ++ [.MAT_CORE_STATUS_HELD, .VEC_CORE_STATUS_HELD]) s (rescueReported s k h r pass) :=
  ((within_report _ _ _ _ _ _ _).mono (by simp) (by simp)).trans
    (((within_trail _ _ _ _ _ _).mono (by simp) (by simp)).trans
    (((within_wr _ _ _ _).mono (by simp) (by simp)).trans ((within_wr _ _ _ _).mono (by simp) (by simp))))

/-- A core whose held engine is released, with the rescue counted and reported. -/
def afterRescue (s : State) (hub k : Nat) (h : Held) (r : RunCmd) (pass : Bool) : State :=
  updCore (rescueReported (rescueCounted s hub k) k h r pass) fun c => { c with held := storeErase c.held k }

section Rescued
variable (s : State) (hub k : Nat) (h : Held) (r : RunCmd) (pass : Bool)

theorem rd_afterRescue {f : Fld} (hf : f ∉ reportFlds ++ [.MAT_CORE_STATUS_HELD, .VEC_CORE_STATUS_HELD]) (n : Nat) :
    rd (afterRescue s hub k h r pass) f n = rd (rescueCounted s hub k) f n := by
  rw [afterRescue, rd_updCore, (within_rescueReported _ k h r pass).regs f n hf]

theorem afterRescue_mem : (afterRescue s hub k h r pass).mem = s.mem := by
  rw [afterRescue, updCore_mem]
  exact ((within_rescueCounted s hub k).parts .mem (by simp)).trans ((within_rescueReported _ k h r pass).parts .mem (by simp))

theorem afterRescue_core : (afterRescue s hub k h r pass).core = { s.core with held := storeErase s.core.held k } := by
  have hcore : (rescueReported (rescueCounted s hub k) k h r pass).core = s.core :=
    ((within_rescueCounted s hub k).parts .core (by simp)).trans ((within_rescueReported _ k h r pass).parts .core (by simp))
  rw [afterRescue, updCore_core, hcore]

end Rescued

section Rescue
variable {s : State} {t hub phys : Nat} {passed : Bool} {port : List Nat} {h : Held} {r : RunCmd}
  (hheld : storeFind (tick s t).core.held (coreKey hub phys) = some h) (hcmd : cmdAt (tick s t) (coreKey hub phys) h.num = some r)
include hheld hcmd

/-- A rescue passes where the replay passes and the command was not rescued before. -/
theorem exec_rescueReplay {pass : Bool} (hpass : (passed && !r.rescued) = pass) :
    exec (.rescueReplay t hub phys passed port) s = settle s
      (if pass then resumeStage
        (setCmd (afterRescue (tick s t) hub (coreKey hub phys) h r pass) (coreKey hub phys) { r with rescued := true })
        (coreKey hub phys) { r with rescued := true } h port
      else markRetired (endTask (afterRescue (tick s t) hub (coreKey hub phys) h r pass) r.q.task r.q.card.cardId 0x22 0)
        (coreKey hub phys) 0x08 true) := by
  show execRescueReplay t hub phys passed port s = _
  simp only [execRescueReplay, hheld, Option.bind_some, hcmd, Option.map_some, hpass]
  rfl

theorem rescue_resumes (hfirst : r.rescued = false) : Runs (.rescueReplay t hub phys true port) s fun v =>
    let k := coreKey hub phys
    ∃ w, settle s (resumeStage w k { r with rescued := true } h port) = .next v ∧ storeFind w.core.held k = none ∧
      cmdAt w k r.num = some { r with rescued := true } ∧ rd w .INTEG_CORE_INFO_SKIP k = 2 ∧
      rd w .INTEG_RESCUES hub = rd (incX (tick s t) .INTEG_RESCUES hub) .INTEG_RESCUES hub ∧ w.mem = s.mem := by
  have hexec := exec_rescueReplay (port := port) (passed := true) (pass := true) hheld hcmd (by simp [hfirst])
  have hcore := afterRescue_core (tick s t) hub (coreKey hub phys) h r true
  have hnum : r.num = h.num := by simpa using List.find?_some hcmd
  refine ⟨_, hexec, _, rfl, ?_, ?_, ?_, ?_, ?_⟩
  · rw [setCmd_held, hcore]
    exact storeFind_erase_same _ _
  · refine cmdAt_setCmd (r := r) ?_ rfl
    rw [cmdAt, queueAt, hcore, hnum]
    exact hcmd
  · rw [rd_setCmd, rd_afterRescue _ _ _ _ _ _ (by decide), rd_rescueCounted_skip]
  · rw [rd_setCmd, rd_afterRescue _ _ _ _ _ _ (by decide), rd_rescueCounted_rescues]
  · rw [setCmd_mem, afterRescue_mem, tick_mem]

theorem rescue_retires (hfail : passed = false ∨ r.rescued = true) :
    Runs (.rescueReplay t hub phys passed port) s fun v => coreState v (coreKey hub phys) = 4 := by
  have hpass : (passed && !r.rescued) = false := by rcases hfail with h | h <;> simp [h]
  refine runs_of_settle (exec_rescueReplay hheld hcmd hpass) ?_
  rw [if_neg Bool.false_ne_true, coreState, rd_settled_other _ _ _ _ (by decide)]
  exact coreState_markRetired_atOnce _ _ _ _ (.inl rfl)

end Rescue

/-! Armed injections (R120) -/

theorem WithinAt.updCore {ps : List Part} {ex : List (Fld × Nat)} {s t : State} (h : WithinAt ps ex s t) (f : Cores → Cores) :
    WithinAt (ps ++ [.core]) ex s (updCore t f) := (h.trans (within_core t f).toWithinAt).mono (by simp) (by simp)

/-- The management context arms an injection, while no exclusive window is open. -/
theorem matInjectArm_runs {s : State} {src : Src} (hub slot target bit : Nat) (hm : isMgmt s src = true)
    (hwin : windowCtx s = none) : Runs (.matInjectArm src hub slot target bit) s fun v =>
      storeFind v.core.inject hub = some (slot, target * 64 + bit) ∧ KeptBut [.core] s v ∧
      RegsKept [(.MAT_INJECT_SLOT, hub), (.MAT_INJECT_TARGET, hub), (.MAT_INJECT_BIT, hub)] s v := by
  have hexec : exec (.matInjectArm src hub slot target bit) s = settle s
      (updCore (wr (wr (wr s .MAT_INJECT_SLOT hub slot) .MAT_INJECT_TARGET hub target) .MAT_INJECT_BIT hub bit) fun c =>
        { c with inject := storeInsert c.inject hub (slot, target * 64 + bit) }) := by
    show execMatInjectArm src hub slot target bit s = _
    simp [execMatInjectArm, hm, hwin]
  have hwr := ((withinAt_wr s .MAT_INJECT_SLOT hub slot).trans (withinAt_wr _ .MAT_INJECT_TARGET hub target)).trans
    (withinAt_wr _ .MAT_INJECT_BIT hub bit)
  exact runs_of_settle hexec ⟨storeFind_insert_same _ _ _, (hwr.updCore _).settled⟩

/-! The summary queue (R158) -/

/-- With no record waiting in a buffer of its cores, a hub's queue takes none. -/
theorem drainSums_of_none_waiting {s : State} {hub : Nat} (h : ∀ e ∈ s.core.sumWait, e.1 / 66 ≠ hub) : drainSums s hub = s := by
  have hnone : s.core.sumWait.filter (fun e => e.1 / 66 == hub) = [] := List.filter_eq_nil_iff.mpr fun e he => by simpa using h e he
  rw [drainSums, hnone]
  rfl

theorem withinAt_setSumq (s : State) (hub : Nat) (l : List SummaryRec) :
    WithinAt [.core] [(.VEC_SUMQ_STATUS_COUNT, hub)] s (setSumq s hub l) := (withinAt_wr s _ _ _).updCore _

/-- The hub's control core reads the head record and takes it off. -/
theorem sumqPop_runs {s : State} {hub : Nat} (hwait : ∀ e ∈ s.core.sumWait, e.1 / 66 ≠ hub) :
    Runs (.sumqPop (.core hub) hub) s fun v =>
      storeGet [] v.core.sumq hub = (storeGet [] s.core.sumq hub).drop 1 ∧
      v.rep.outs = s.rep.outs ++ [.readData (((storeGet [] s.core.sumq hub).head?.map (fun x => leNum (summaryBytes x))).getD 0)] ∧
      KeptBut [.core, .rep] s v ∧ RegsKept [(.VEC_SUMQ_STATUS_COUNT, hub)] s v := by
  have hexec : exec (.sumqPop (.core hub) hub) s = settle s (setSumq (emit s (.readData
      (((storeGet [] s.core.sumq hub).head?.map (fun x => leNum (summaryBytes x))).getD 0))) hub ((storeGet [] s.core.sumq hub).drop 1)) := by
    show execSumqPop (.core hub) hub s = _
    rw [execSumqPop, if_pos rfl, drainSums_of_none_waiting]
    exact hwait
  refine runs_of_settle hexec ⟨storeGet_put_same _ _ _ _, rfl, ?_⟩
  exact (((within_emit s _).toWithinAt.trans (withinAt_setSumq _ _ _)).mono (by simp) (by simp)).settled

/-- Any other reader is given zero and pops nothing. -/
theorem sumqPop_other_runs {s : State} {src : Src} {hub : Nat} (hsrc : src ≠ .core hub) :
    Runs (.sumqPop src hub) s fun v => v.rep.outs = s.rep.outs ++ [.readData 0] ∧ KeptBut [.rep] s v ∧ RegsKept [] s v := by
  have hexec : exec (.sumqPop src hub) s = settle s (emit s (.readData 0)) := by
    show execSumqPop src hub s = _
    rw [execSumqPop, if_neg hsrc]
  exact runs_of_settle hexec ⟨rfl, (within_emit s _).toWithinAt.settled⟩

/-! The scalar window (R130) -/

theorem scalarCsrWrite_runs (s : State) {hub n : Nat} (value : Nat) (hn : n < 32) : Runs (.scalarCsrWrite hub n value) s fun v =>
    rd v .VEC_SCALAR_VALUE (hub * 32 + n) = bitsOf value 31 0 ∧ rd v .VEC_SCALAR_CTX (hub * 32 + n) = bitsOf value 37 32 ∧
    rd v .VEC_SCALAR_SHARED (hub * 32 + n) = bitsOf value 38 38 ∧ rd v .VEC_SCALAR_VALID (hub * 32 + n) = bitsOf value 39 39 ∧
    KeptBut [] s v ∧ RegsKept [(.VEC_SCALAR_VALUE, hub * 32 + n), (.VEC_SCALAR_CTX, hub * 32 + n),
      (.VEC_SCALAR_SHARED, hub * 32 + n), (.VEC_SCALAR_VALID, hub * 32 + n)] s v := by
  have hexec : exec (.scalarCsrWrite hub n value) s = settle s
      (wr (wr (wr (wr s .VEC_SCALAR_VALUE (hub * 32 + n) (bitsOf value 31 0)) .VEC_SCALAR_CTX (hub * 32 + n) (bitsOf value 37 32))
        .VEC_SCALAR_SHARED (hub * 32 + n) (bitsOf value 38 38)) .VEC_SCALAR_VALID (hub * 32 + n) (bitsOf value 39 39)) := by
    show execScalarCsrWrite hub n value s = _
    rw [execScalarCsrWrite, Nat.mod_eq_of_lt hn]
  have hwr := (((withinAt_wr s .VEC_SCALAR_VALUE (hub * 32 + n) (bitsOf value 31 0)).trans 
    (withinAt_wr _ .VEC_SCALAR_CTX (hub * 32 + n) (bitsOf value 37 32))).trans
    (withinAt_wr _ .VEC_SCALAR_SHARED (hub * 32 + n) (bitsOf value 38 38))).trans
    (withinAt_wr _ .VEC_SCALAR_VALID (hub * 32 + n) (bitsOf value 39 39))
  refine runs_of_settle hexec ⟨?_, ?_, ?_, ?_, hwr.settled⟩ <;> rw [rd_settled_other _ _ _ _ (by decide)] <;> simp [rd_wr]

/-! The obligation -/

/-- Settles O20, event by event: nothing else that an event does reaches the registers and the parts that it is said to leave. -/
theorem coreEventsRun : Obligations.CoreEventsRun :=
  ⟨fun _ _ _ _ _ _ _ _ _ => retentionRelease_runs,
    fun _ _ _ _ _ _ _ hheld hcmd hfirst => rescue_resumes hheld hcmd hfirst,
    fun _ _ _ _ _ _ _ _ => rescue_retires,
    fun _ _ hub slot target bit => matInjectArm_runs hub slot target bit,
    fun _ _ => ⟨sumqPop_runs, fun _ => sumqPop_other_runs⟩,
    fun s _ _ value => scalarCsrWrite_runs s value⟩

end Sys2Proof.Machine
end

section
/-! NaN in the lanes of the vector engine (R122). -/

namespace Sys2Proof.Machine

/-! Operations of a format -/

theorem onlyCanonicalNan_nanOf (f : FFmt) : OnlyCanonicalNan f (nanOf f) := fun _ => rfl

theorem onlyCanonicalNan_ite {f : FFmt} {p : Prop} [Decidable p] {v w : Nat} (hv : OnlyCanonicalNan f v)
    (hw : OnlyCanonicalNan f w) : OnlyCanonicalNan f (if p then v else w) := by
  split
  · exact hv
  · exact hw

section
variable {f : FFmt} (hf : f.Ordered)
include hf

theorem onlyCanonicalNan_negZero : OnlyCanonicalNan f (2 ^ (f.eb + f.mb)) := by
  simpa [b2n] using onlyCanonicalNan_finite hf true (Nat.zero_le f.maxPat)

/-- An exact result rounded once, or what a format gives for an exact zero. -/
theorem onlyCanonicalNan_exact (x : Dyad) {z : Nat} (hz : OnlyCanonicalNan f z) :
    OnlyCanonicalNan f (if x.v = 0 then z else roundDyad f true x) :=
  onlyCanonicalNan_ite hz (onlyCanonicalNan_roundF hf _ _ _ _ _)

theorem onlyCanonicalNan_signedZero {p : Prop} [Decidable p] : OnlyCanonicalNan f (if p then 2 ^ (f.eb + f.mb) else 0) :=
  onlyCanonicalNan_ite (onlyCanonicalNan_negZero hf) (onlyCanonicalNan_zero hf)

theorem onlyCanonicalNan_addF (a b : Nat) : OnlyCanonicalNan f (addF f a b) := by
  have hinf := onlyCanonicalNan_infOf hf true
  have hnan := onlyCanonicalNan_nanOf f
  unfold addF
  split
  · exact hnan
  · exact hnan
  · exact onlyCanonicalNan_ite (hinf _) hnan
  · exact hinf _
  · exact hinf _
  · exact onlyCanonicalNan_exact hf _ (onlyCanonicalNan_signedZero hf)

theorem onlyCanonicalNan_mulF (a b : Nat) : OnlyCanonicalNan f (mulF f a b) := by
  have hinf := onlyCanonicalNan_infOf hf true
  have hnan := onlyCanonicalNan_nanOf f
  unfold mulF
  split
  · exact hnan
  · exact hnan
  · exact onlyCanonicalNan_ite hnan (hinf _)
  · exact onlyCanonicalNan_ite hnan (hinf _)
  · exact onlyCanonicalNan_roundF hf _ _ _ _ _

/-- An infinite product of the given sign, or NaN, and what is added to it. -/
theorem onlyCanonicalNan_infProduct (isZero neg : Bool) (z : Num) :
    OnlyCanonicalNan f (if isZero then nanOf f else
      match z with
      | .nan => nanOf f
      | .inf r => if r = neg then infOf f true r else nanOf f
      | .fin .. => infOf f true neg) := by
  have hnan := onlyCanonicalNan_nanOf f
  refine onlyCanonicalNan_ite hnan ?_
  cases z with
  | nan => exact hnan
  | inf r => exact onlyCanonicalNan_ite (onlyCanonicalNan_infOf hf true r) hnan
  | fin q m e => exact onlyCanonicalNan_infOf hf true neg

theorem onlyCanonicalNan_fmaF (a b c : Nat) : OnlyCanonicalNan f (fmaF f a b c) := by
  have hnan := onlyCanonicalNan_nanOf f
  unfold fmaF
  split
  · exact hnan
  · exact hnan
  · exact onlyCanonicalNan_infProduct hf _ _ _
  · exact onlyCanonicalNan_infProduct hf _ _ _
  · exact hnan
  · exact onlyCanonicalNan_infOf hf true _
  · exact onlyCanonicalNan_exact hf _ (onlyCanonicalNan_ite (onlyCanonicalNan_signedZero hf) (onlyCanonicalNan_zero hf))

end

/-! Lanes -/

theorem laneFmt_ordered (lane : Nat) : (laneFmt lane).Ordered := by
  unfold laneFmt
  split_ifs
  · exact (drainFormats_ordered (0x8, fBF16) (by simp)).2
  · exact (drainFormats_ordered (0x9, fFP16) (by simp)).2
  · exact (drainFormats_ordered (0xA, fFP32) (by simp)).2

/-- A floating lane holds a NaN where its format reads one. -/
theorem laneIsNan_iff {lane : Nat} (h : laneInt lane = false) (v : Nat) :
    laneIsNan lane v = true ↔ decodeF (laneFmt lane) v = .nan := by
  simp [laneIsNan, laneNum, h]

theorem numLt_of_nan {x y : Num} (h : x = .nan ∨ y = .nan) : numLt x y = false := by
  obtain rfl | rfl := h
  · rfl
  · cases x <;> rfl

theorem numEq_of_nan {x y : Num} (h : x = .nan ∨ y = .nan) : numEq x y = false := by
  obtain rfl | rfl := h
  · rfl
  · cases x <;> rfl

section
variable {lane a b : Nat} (h : laneIsNan lane a = true ∨ laneIsNan lane b = true)
include h

theorem laneMax_of_nan : laneMax lane a b = nanOf (laneFmt lane) := by
  rw [laneMax, if_pos ((Bool.or_eq_true _ _).mpr h)]

theorem laneMin_of_nan : laneMin lane a b = nanOf (laneFmt lane) := by
  rw [laneMin, if_pos ((Bool.or_eq_true _ _).mpr h)]

theorem laneLt_of_nan : laneLt lane a b = false := by
  simp only [laneIsNan, beq_iff_eq] at h
  simp [laneLt, laneBelow, numLt_of_nan h]

theorem laneEq_of_nan : laneEq lane a b = false := by
  simp only [laneIsNan, beq_iff_eq] at h
  exact numEq_of_nan h

theorem laneLe_of_nan : laneLe lane a b = false := by
  rw [laneLe, laneLt_of_nan h, laneEq_of_nan h, Bool.or_self]

end

/-- Settles O11: of the results of each operation only the canonical NaN is a NaN (`onlyCanonicalNan_fmaF` and its like), and a
NaN operand decides MAX, MIN and the comparisons at once. -/
theorem vectorNaNRules : Obligations.VectorNaNRules := by
  intro lane hlane a b c
  have hfloat : laneInt lane = false := by
    simp only [List.mem_cons, List.not_mem_nil, or_false] at hlane
    obtain rfl | rfl | rfl := hlane <;> rfl
  have hf := laneFmt_ordered lane
  simp only [laneIsNan_iff hfloat (laneAdd _ _ _), laneIsNan_iff hfloat (laneSub _ _ _), laneIsNan_iff hfloat (laneMul _ _ _),
    laneIsNan_iff hfloat (laneFma _ _ _ _)]
  exact ⟨onlyCanonicalNan_addF hf _ _, onlyCanonicalNan_addF hf _ _, onlyCanonicalNan_mulF hf _ _, onlyCanonicalNan_fmaF hf _ _ _,
    fun h => ⟨laneMax_of_nan h, laneMin_of_nan h, laneLt_of_nan h, laneLe_of_nan h, laneEq_of_nan h⟩⟩

end Sys2Proof.Machine
end

section
/-! What the end of a task leaves as the queues of the cores move on (R476): memory, the vector registers of every core, and every
register field but those of items, reports, stages, semaphores and credits. -/

namespace Sys2Proof.Machine

/-- The fields that change as items end and the queues of the cores move on. -/
def queueFlds : List Fld :=
  itemFlds ++ errorFlds ++ busyFlds ++ [.MAT_CORE_STATUS_HELD, .VEC_CORE_STATUS_HELD, .HUB_SEM_HELD, .HUB_SEM_CTX, .HUB_SEM_CORES,
    .HUB_SEM_ARRIVED, .HUB_SEM_STATUS_SEM_FAULT, .HUB_SEM_STATUS_SEM, .SPOKE_CREDIT_POOL]

/-- At most items, reports, queues and packets differ, and these fields; no core's vector registers do. -/
structure QueueFrame (s t : State) : Prop where
  within : Within [.core, .serve, .rep, .lard, .tt, .fab, .dbg] queueFlds s t
  vregs : t.core.vregs = s.core.vregs

theorem QueueFrame.refl (s : State) : QueueFrame s s := ⟨Within.refl _ _ s, rfl⟩

theorem QueueFrame.trans {s t u : State} (h : QueueFrame s t) (k : QueueFrame t u) : QueueFrame s u :=
  ⟨h.within.trans k.within, k.vregs.trans h.vregs⟩

/-- What does not touch the part of the cores. -/
theorem Within.queueFrame {ps : List Part} {fs : List Fld} {s t : State} (h : Within ps fs s t)
    (hp : ps ⊆ [.serve, .rep, .lard, .tt, .fab, .dbg] := by simp) (hf : fs ⊆ queueFlds := by decide) : QueueFrame s t := by
  have hcore : t.core = s.core := h.parts .core fun hm => by simpa using hp hm
  exact ⟨h.mono (List.subset_cons_of_subset _ hp) hf, by rw [hcore]⟩

theorem queueFrame_updCore {s : State} (f : Cores → Cores) (h : (f s.core).vregs = s.core.vregs) : QueueFrame s (updCore s f) :=
  ⟨(within_core s f).mono (by simp) (by simp), h⟩

theorem queueFrame_wr (s : State) (f : Fld) (n v : Nat) (hf : f ∈ queueFlds := by decide) : QueueFrame s (wr s f n v) :=
  (within_wr s f n v).queueFrame (hf := by simpa using hf)

theorem queueFrame_each {α : Type} {f : State → α → State} (hf : ∀ s a, QueueFrame s (f s a)) (l : List α) (s : State) :
    QueueFrame s (each l s f) := each_rel QueueFrame.refl QueueFrame.trans hf l s

theorem queueFrame_trail (s : State) (k code ctx arg16 arg32 : Nat) : QueueFrame s (trail s k code ctx arg16 arg32) :=
  (within_trail s k code ctx arg16 arg32).queueFrame

theorem queueFrame_hubError (s : State) (hub off value slot : Nat) (cause : Option Nat) :
    QueueFrame s (hubError s hub off value slot cause) := (within_hubError s hub off value slot cause).queueFrame

theorem queueFrame_showBusy (s : State) (k : Nat) : QueueFrame s (showBusy s k) := (within_showBusy s k).queueFrame

/-! Segments (R354) -/

theorem within_sendPacket (s : State) (l : Nat) (p : Packet) : Within [.rep, .fab] [] s (sendPacket s l p) := by
  unfold sendPacket
  dsimp only
  split
  · split
    · exact (within_emit s _).mono (by simp) (by simp)
    · exact ((within_fab s _).mono (by simp) (by simp)).trans ((within_emit _ _).mono (by simp) (by simp))
  · exact Within.refl _ _ s

theorem within_sendBarrier (s : State) (dst : Nat) (b : BarrierBody) : Within [.rep, .fab] [] s (sendBarrier s dst b) := by
  unfold sendBarrier routePacket
  dsimp only
  split
  · exact within_sendPacket s _ _
  · exact Within.refl _ _ s

theorem within_dropSegment (s : State) (g : Segment) : Within [.fab] [] s (dropSegment s g) := within_fab s _

theorem within_segmentDone (s : State) (g : Segment) (latest causes : Nat) :
    Within [.fab, .tt] [] s (segmentDone s g latest causes) := by
  unfold segmentDone
  exact ((within_dropSegment s g).mono (by simp) (by simp)).trans ((within_tt _ _).mono (by simp) (by simp))

theorem within_coordinate (s : State) (g : Segment) : Within [.rep, .fab, .tt] [] s (coordinate s g).1 := by
  have htell : ∀ (l : List Nat) (b : BarrierBody), Within [.rep, .fab, .tt] [] s (each l s fun t m => sendBarrier t m b) :=
    fun l b => within_each _ (fun t m => (within_sendBarrier t m b).mono (by simp) (by simp)) l s
  unfold coordinate
  dsimp only
  split
  · exact (htell _ _).trans ((within_dropSegment _ g).mono (by simp) (by simp))
  · split
    · exact (htell _ _).trans ((within_segmentDone _ _ _ _).mono (by simp) (by simp))
    · exact (within_putSegment s g).mono (by simp) (by simp)

theorem within_arriveBarrier (s : State) (g : Segment) (abort : Bool) :
    Within [.rep, .fab, .tt] [] s (arriveBarrier s g abort).1 := by
  unfold arriveBarrier
  dsimp only
  split
  · exact Within.refl _ _ s
  · split
    · exact within_coordinate s _
    · exact ((within_sendBarrier s _ _).mono (by simp) (by simp)).trans ((within_putSegment _ _).mono (by simp) (by simp))

theorem queueFrame_abortSegments (s : State) (p : Segment → Bool) : QueueFrame s (abortSegments s p) := by
  refine queueFrame_each (fun t g => ?_) _ s
  have harrive := (within_arriveBarrier t g true).queueFrame
  split
  · next u g' hu =>
    rw [hu] at harrive
    exact harrive.trans (frame_endItems u _ _ _).queueFrame
  · next u hu =>
    rw [hu] at harrive
    exact harrive

/-! Tasks that stop -/

/-- A card's semaphores and credits are freed. -/
theorem queueFrame_freeCard (s : State) (card : Nat) : QueueFrame s (freeCard s card) := by
  unfold freeCard
  split
  · exact QueueFrame.refl s
  · have hsem : ∀ (t : State) (n : Nat), QueueFrame t
        (wr (wr (wr (wr t .HUB_SEM_HELD n 0) .HUB_SEM_CTX n 0) .HUB_SEM_CORES n 0) .HUB_SEM_ARRIVED n 0) := fun t n =>
      (((queueFrame_wr t _ _ _).trans (queueFrame_wr _ _ _ _)).trans
        (queueFrame_wr _ _ _ _)).trans (queueFrame_wr _ _ _ _)
    exact ((queueFrame_each (fun t (e : Nat × Nat × List Nat × List Nat) => hsem t e.1) _ s).trans
      (queueFrame_each (fun t e => queueFrame_wr t .SPOKE_CREDIT_POOL _ _) _ _)).trans
      ((queueFrame_updCore _ rfl).trans (within_fab _ _).queueFrame)

/-- A core that ran a command of the task is idle. -/
theorem queueFrame_idled (s : State) (k : Nat) :
    QueueFrame s (wr (wr (showBusy s k) .MAT_CORE_STATUS_HELD k 0) .VEC_CORE_STATUS_HELD k 0) :=
  ((queueFrame_showBusy s k).trans (queueFrame_wr _ _ _ _)).trans (queueFrame_wr _ _ _ _)

theorem queueFrame_stopTask (s : State) (task : List (Nat × Nat)) (card code detail : Nat) :
    QueueFrame s (stopTask s task card code detail) := by
  unfold stopTask
  extract_lets mine ran opened u v w
  have hu : QueueFrame s u := queueFrame_updCore _ rfl
  have hv : QueueFrame u v := queueFrame_each queueFrame_idled _ u
  have hw : QueueFrame v w := by
    refine (queueFrame_freeCard v card).trans (queueFrame_each (fun t k => ?_) _ _)
    split
    · exact (frame_endItem t _ _ _ _).queueFrame
    · exact QueueFrame.refl t
  exact ((hu.trans hv).trans hw).trans (queueFrame_abortSegments w _)

/-! Queues that move on -/

/-- A core reaches a barrier of semaphores, or meets a semaphore of another card (R373, R374). -/
theorem queueFrame_arriveSem (s : State) (k : Nat) (r : RunCmd) (n : Nat) : QueueFrame s (arriveSem s k r n) := by
  unfold arriveSem
  dsimp only
  split
  · exact (((queueFrame_wr s _ _ _).trans (queueFrame_wr _ _ _ _)).trans (queueFrame_hubError _ _ _ _ _ _)).trans
      (queueFrame_stopTask _ _ _ _ _)
  · split
    · exact QueueFrame.refl s
    · refine QueueFrame.trans ?_ (((queueFrame_wr _ _ _ _).trans (queueFrame_trail _ _ _ _ _ _)).trans (queueFrame_updCore _ rfl))
      split
      · exact QueueFrame.refl s
      · exact ((queueFrame_wr s _ _ _).trans (queueFrame_wr _ _ _ _)).trans (queueFrame_wr _ _ _ _)

theorem queueFrame_drawCredits (s : State) (q : QueuedCmd) : QueueFrame s (drawCredits s q) :=
  queueFrame_each (fun t _ => (queueFrame_wr t _ _ _).trans (within_fab _ _).queueFrame) _ s

theorem queueFrame_setCmd (s : State) (k : Nat) (r : RunCmd) : QueueFrame s (setCmd s k r) :=
  ⟨(within_setCmd s k r).mono (by simp) (by simp), rfl⟩

theorem queueFrame_noteStarts (s : State) (k n : Nat) : QueueFrame s (noteStarts s k n) := by
  unfold noteStarts
  split
  · exact QueueFrame.refl s
  · dsimp only
    split
    · exact queueFrame_setCmd s k _
    · exact QueueFrame.refl s

theorem queueFrame_beginCmd (s : State) (k : Nat) (r : RunCmd) : QueueFrame s (beginCmd s k r) := by
  unfold beginCmd
  extract_lets u v w at_
  have hu : QueueFrame s u := queueFrame_drawCredits s r.q
  have hw : QueueFrame u w := (queueFrame_updCore _ rfl : QueueFrame u v).trans (queueFrame_trail v _ _ _ _ _)
  exact (hu.trans hw).trans ((queueFrame_setCmd _ _ _).trans ((queueFrame_noteStarts _ _ _).trans (queueFrame_showBusy _ _)))

theorem queueFrame_reachSems (s : State) (k : Nat) : QueueFrame s (reachSems s k) := by
  unfold reachSems
  split
  · exact queueFrame_each (fun t n => queueFrame_arriveSem t k _ n) _ s
  · exact QueueFrame.refl s

theorem queueFrame_startHead (n : Nat) (s : State) (k : Nat) : QueueFrame s (startHead n s k) := by
  induction n generalizing s with
  | zero => exact QueueFrame.refl s
  | succ n ih =>
    unfold startHead
    split
    · split
      · exact ((queueFrame_beginCmd s k _).trans (queueFrame_reachSems _ k)).trans (ih _)
      · exact QueueFrame.refl s
    · exact QueueFrame.refl s

theorem queueFrame_pump (s : State) (h : Nat) : QueueFrame s (pump s h) := by
  have honce : ∀ t, QueueFrame t (pumpOnce t h) := fun t =>
    (queueFrame_each queueFrame_reachSems _ t).trans (queueFrame_each (queueFrame_startHead 16) _ _)
  exact (honce s).trans (honce _)

/-- A task ends, and the queues of its hubs move on. -/
theorem queueFrame_endTask (s : State) (task : List (Nat × Nat)) (card code detail : Nat) :
    QueueFrame s (endTask s task card code detail) :=
  (queueFrame_stopTask s task card code detail).trans (queueFrame_each queueFrame_pump _ _)

/-! Faults of a command -/

/-- All that a fault of a command does beside its status bit. -/
theorem queueFrame_taskFault (s : State) (hub : Nat) (r : RunCmd) (f : Fld) (n : Nat) :
    QueueFrame (wr s f n 1) (taskFault s hub r f n) :=
  (queueFrame_hubError _ _ _ _ _ _).trans (queueFrame_endTask _ _ _ _ _)

theorem taskFault_vregs (s : State) (hub : Nat) (r : RunCmd) (f : Fld) (n : Nat) :
    (taskFault s hub r f n).core.vregs = s.core.vregs := (queueFrame_taskFault s hub r f n).vregs

theorem rd_taskFault_same {f : Fld} (hf : f ∉ queueFlds) (s : State) (hub : Nat) (r : RunCmd) (n : Nat) :
    rd (taskFault s hub r f n) f n = 1 := by
  rw [(queueFrame_taskFault s hub r f n).within.regs f n hf, rd_wr_same]

end Sys2Proof.Machine
end

section
/-! O13: an instruction whose scalar the command in progress may not read (R132). -/

namespace Sys2Proof.Machine

/-- The instructions of the list do what stands beside them. -/
theorem exec_vectorOps : ∀ o ∈ vectorOps, ∀ (hub phys : Nat) (i : VInstr) (s : State),
    exec (o.1 hub phys i) s = settle s (vecOp s hub phys i (o.2 i)) := by
  simp only [vectorOps, List.forall_mem_cons, List.not_mem_nil, IsEmpty.forall_iff, implies_true, and_true]
  and_intros <;> intros <;> rfl

/-- A scalar that the command may not read faults the command instead. -/
theorem vecOp_of_scalarFaults {s : State} {hub phys : Nat} {i : VInstr} {r : RunCmd} (hkind : i.bKind = 1)
    (hcmd : curCmd s (coreKey hub phys) = some r) (hfault : scalarFaults (opCopy s hub phys) r.q.ctx (i.imm % 32) = true)
    (f : VEnv → VInstr → VecRegs → VecRegs) :
    vecOp s hub phys i f = taskFault s hub r .VEC_CORE_STATUS_SCALAR_FAULT (coreKey hub phys) := by
  simp [vecOp, hcmd, hkind, hfault, Option.filter]

/-- Settles O13: the instruction becomes a fault of its command (`vecOp_of_scalarFaults`), whose end reaches no vector register
(`taskFault_vregs`) and does not clear the bit that it latched (`rd_taskFault_same`). -/
theorem scalarFaultWritesNoRegister : Obligations.ScalarFaultWritesNoRegister := by
  intro o ho s hub phys i r hkind hcmd hfault
  refine runs_of_settle (exec_vectorOps o ho hub phys i s) ?_
  rw [vecOp_of_scalarFaults hkind hcmd hfault]
  refine ⟨taskFault_vregs _ _ _ _ _, ?_⟩
  rw [rd_settled_other _ _ _ _ (by decide)]
  exact rd_taskFault_same (by decide) _ _ _ _

end Sys2Proof.Machine
end

section
/-! What event records leave of a context: its queue's consumer, the items and every register but three of its own. -/

namespace Sys2Proof.Machine

/-! Frames and queues -/

/-- Two changes within one frame. -/
theorem WithinAt.chain {ps : List Part} {ex : List (Fld × Nat)} {s t u : State} (h : WithinAt ps ex s t) (k : WithinAt ps ex t u) :
    WithinAt ps ex s u := (h.trans k).mono (by simp) (by simp)

/-- A frame that names registers is one of their fields. -/
theorem WithinAt.toWithin {ps : List Part} {ex : List (Fld × Nat)} {fs : List Fld} {s t : State} (h : WithinAt ps ex s t)
    (hf : ∀ e ∈ ex, e.1 ∈ fs) : Within ps fs s t :=
  ⟨h.parts, fun f n hn => h.regs f n fun hm => hn (hf _ hm)⟩

@[simp] theorem queueOf_setQueue (s : State) (c : Nat) (q : CtxQueue) : queueOf (setQueue s c q) c = q := storeGet_put_same _ _ _ _

@[simp] theorem rd_setQueue (s : State) (c : Nat) (q : CtxQueue) (f : Fld) (n : Nat) : rd (setQueue s c q) f n = rd s f n := rfl

theorem within_setQueue (s : State) (c : Nat) (q : CtxQueue) : Within [.serve] [] s (setQueue s c q) := within_serve s _

theorem queueOf_settled (s t : State) (c : Nat) : queueOf (settled s t) c = queueOf t c := rfl

theorem queueOf_writeControl (s : State) (c d : Nat) : queueOf (writeControl s c) d = queueOf s d := rfl

theorem rd_writeControl (s : State) (c : Nat) (f : Fld) (n : Nat) : rd (writeControl s c) f n = rd s f n := rfl

theorem queueOf_congr {s t : State} (h : t.serve = s.serve) (c : Nat) : queueOf t c = queueOf s c := by rw [queueOf, h, queueOf]

theorem evqSize_congr {s t : State} {c : Nat} (h : rd t .SERVE_EVQ_SIZE_LOG2 c = rd s .SERVE_EVQ_SIZE_LOG2 c) :
    evqSize t c = evqSize s c := by rw [evqSize, h, evqSize]

/-- The registers of a context that its event records change. -/
abbrev eventRegs (c : Nat) : List (Fld × Nat) := [(.SERVE_EVQ_COUNT, c), (.SERVE_SPILLED, c), (.SERVE_CTRL_BACKLOG, c)]

theorem eventRegs_flds (c : Nat) : ∀ e ∈ eventRegs c, e.1 ∈ eventFlds := by simp [eventFlds]

/-- At most event records of context c were written, spilled or announced: no item changes, nor what the host has consumed. -/
structure EventsOnly (c : Nat) (s t : State) : Prop where
  within : WithinAt [.serve, .rep] (eventRegs c) s t
  items : t.serve.items = s.serve.items
  consumer : (queueOf t c).consumer = (queueOf s c).consumer
  noRoom : (queueOf t c).noRoom = (queueOf s c).noRoom

section EventsOnly
variable {c : Nat} {s t u : State}

theorem EventsOnly.trans (h : EventsOnly c s t) (k : EventsOnly c t u) : EventsOnly c s u :=
  ⟨h.within.chain k.within, k.items.trans h.items, k.consumer.trans h.consumer, k.noRoom.trans h.noRoom⟩

theorem eventsOnly_of_rep (h : Within [.rep] [] s t) : EventsOnly c s t :=
  have hserve : t.serve = s.serve := h.parts .serve (by simp)
  ⟨h.toWithinAt.mono (by simp) (by simp), by rw [hserve], by rw [queueOf_congr hserve], by rw [queueOf_congr hserve]⟩

theorem EventsOnly.refl (c : Nat) (s : State) : EventsOnly c s s := eventsOnly_of_rep (Within.refl _ _ s)

theorem eventsOnly_wr {f : Fld} (hf : (f, c) ∈ eventRegs c) (s : State) (v : Nat) : EventsOnly c s (wr s f c v) :=
  ⟨(withinAt_wr s f c v).mono (by simp) (by simpa using hf), rfl, rfl, rfl⟩

theorem eventsOnly_setQueue (s : State) {q : CtxQueue} (hc : q.consumer = (queueOf s c).consumer)
    (hr : q.noRoom = (queueOf s c).noRoom) : EventsOnly c s (setQueue s c q) :=
  ⟨(within_setQueue s c q).toWithinAt.mono (by simp) (by simp), rfl, by rw [queueOf_setQueue, hc], by rw [queueOf_setQueue, hr]⟩

theorem EventsOnly.mem (h : EventsOnly c s t) : t.mem = s.mem := h.within.parts .mem (by simp)

theorem EventsOnly.rd_eq (h : EventsOnly c s t) {f : Fld} (hf : f ∉ eventFlds) (n : Nat) : rd t f n = rd s f n :=
  (h.within.toWithin (eventRegs_flds c)).regs f n hf

variable (s)

theorem eventsOnly_writeControl : EventsOnly c s (writeControl s c) := eventsOnly_of_rep (within_emit _ _)

theorem eventsOnly_fireEvq : EventsOnly c s (fireEvq s c) := by
  unfold fireEvq
  dsimp only
  split
  · exact (eventsOnly_setQueue s (q := { queueOf s c with armed := false, noted := (queueOf s c).consumer }) rfl rfl).trans
      (eventsOnly_of_rep (within_sendMsix _ _ _))
  · exact EventsOnly.refl c s

theorem eventsOnly_spillStatus : EventsOnly c s (spillStatus s c) := by
  unfold spillStatus
  exact ((eventsOnly_wr (by simp) s _).trans (eventsOnly_wr (f := .SERVE_CTRL_BACKLOG) (by simp) _ _)).trans
    (eventsOnly_setQueue _ rfl rfl)

theorem eventsOnly_writeEvq (r : EventRec) : EventsOnly c s (writeEvq s c r) :=
  (eventsOnly_of_rep (within_emit s _)).trans (eventsOnly_wr (by simp) _ _)

/-- A spilled record goes to the host's queue. -/
theorem eventsOnly_unspill (q : List (Bool × EventRec)) (r : EventRec) :
    EventsOnly c s (writeEvq (setQueue s c { queueOf s c with spill := q }) c r) :=
  (eventsOnly_setQueue s (q := { queueOf s c with spill := q }) rfl rfl).trans (eventsOnly_writeEvq _ r)

theorem eventsOnly_drainLoop (n : Nat) : EventsOnly c s (drainLoop c n s) := by
  induction n generalizing s with
  | zero => exact EventsOnly.refl c s
  | succ n ih =>
    unfold drainLoop
    split
    · exact EventsOnly.refl c s
    · split
      · exact (eventsOnly_unspill s _ _).trans (ih _)
      · exact EventsOnly.refl c s

theorem eventsOnly_drainSpill : EventsOnly c s (drainSpill s c) := by
  unfold drainSpill
  split
  · exact EventsOnly.refl c s
  · exact (((eventsOnly_drainLoop s _).trans (eventsOnly_spillStatus _)).trans (eventsOnly_writeControl _)).trans
      (eventsOnly_fireEvq _)

theorem eventsOnly_putEvent (final : Bool) (r : EventRec) : EventsOnly c s (putEvent s c final r) := by
  unfold putEvent
  split
  · exact ((eventsOnly_writeEvq s r).trans (eventsOnly_writeControl _)).trans (eventsOnly_fireEvq _)
  · extract_lets q u
    have hspill : EventsOnly c s u := (eventsOnly_setQueue s (q := { q with spill := q.spill ++ [(!final, r)] }) rfl rfl).trans
      (eventsOnly_spillStatus _)
    split
    · exact hspill.trans (eventsOnly_writeControl u)
    · exact hspill

theorem eventsOnly_ringEvent (detail : Nat) : EventsOnly c s (ringEvent s c detail) := by
  unfold ringEvent
  split
  · exact EventsOnly.refl c s
  · exact eventsOnly_putEvent s _ _

end EventsOnly

/-! What drains -/

section Drain
variable {s : State} {c : Nat}

/-- While the host has consumed nothing, the records that leave the spill are those that the queue counts (R209). -/
theorem drainLoop_spill (n : Nat) (hcons : (queueOf s c).consumer = 0) (hcount : rd s .SERVE_EVQ_COUNT c ≤ evqSize s c)
    (hsize : evqSize s c < 2 ^ 32) : ∃ k, rd (drainLoop c n s) .SERVE_EVQ_COUNT c = rd s .SERVE_EVQ_COUNT c + k ∧
      (queueOf (drainLoop c n s) c).spill = (queueOf s c).spill.drop k := by
  induction n generalizing s with
  | zero => exact ⟨0, rfl, rfl⟩
  | succ n ih =>
    unfold drainLoop
    split
    · exact ⟨0, rfl, rfl⟩
    · next e r hspill =>
      split
      · next hroom =>
        have hu := eventsOnly_unspill (c := c) s r e.2
        have hus : evqSize (writeEvq (setQueue s c { queueOf s c with spill := r }) c e.2) c = evqSize s c :=
          evqSize_congr (hu.rd_eq (by simp [eventFlds]) c)
        have hlt : rd s .SERVE_EVQ_COUNT c < evqSize s c := by
          simp only [evqRoom, evqUsed, hcons, Bool.and_eq_true, decide_eq_true_eq] at hroom
          omega
        have hone : rd (writeEvq (setQueue s c { queueOf s c with spill := r }) c e.2) .SERVE_EVQ_COUNT c =
            rd s .SERVE_EVQ_COUNT c + 1 := by
          unfold writeEvq
          rw [rd_incWrap, if_pos ⟨rfl, rfl⟩]
          exact Nat.mod_eq_of_lt (show rd s .SERVE_EVQ_COUNT c + 1 < 2 ^ 32 by omega)
        obtain ⟨k, hk, hdrop⟩ := ih (hu.consumer.trans hcons) (by omega) (by omega)
        refine ⟨k + 1, by omega, hdrop.trans ?_⟩
        have hrest : (queueOf (writeEvq (setQueue s c { queueOf s c with spill := r }) c e.2) c).spill = r :=
          congrArg CtxQueue.spill (queueOf_setQueue s c _)
        rw [hrest, hspill, List.drop_succ_cons]
      · exact ⟨0, rfl, rfl⟩

theorem fireEvq_spill (s : State) (c : Nat) : (queueOf (fireEvq s c) c).spill = (queueOf s c).spill := by
  unfold fireEvq
  dsimp only
  split
  · rw [queueOf_congr ((within_sendMsix _ _ _).parts .serve (by simp)), queueOf_setQueue]
  · rfl

theorem rd_fireEvq (s : State) (c : Nat) (f : Fld) (n : Nat) : rd (fireEvq s c) f n = rd s f n := by
  unfold fireEvq
  dsimp only
  split
  · rw [(within_sendMsix _ _ _).regs f n (by simp), rd_setQueue]
  · rfl

theorem spillStatus_spill (s : State) (c : Nat) : (queueOf (spillStatus s c) c).spill = (queueOf s c).spill := by
  unfold spillStatus
  rw [queueOf_setQueue]

theorem rd_spillStatus_count (s : State) (c : Nat) : rd (spillStatus s c) .SERVE_EVQ_COUNT c = rd s .SERVE_EVQ_COUNT c := by
  unfold spillStatus
  rw [rd_setQueue, rd_wrb, if_neg (by simp), rd_wr_ne _ _ _ _ _ _ (by simp)]

theorem drainSpill_spill (hcons : (queueOf s c).consumer = 0) (hcount : rd s .SERVE_EVQ_COUNT c = 0)
    (hsize : evqSize s c < 2 ^ 32) :
    (queueOf (drainSpill s c) c).spill = (queueOf s c).spill.drop (rd (drainSpill s c) .SERVE_EVQ_COUNT c) := by
  unfold drainSpill
  split
  · rw [hcount]
    rfl
  · obtain ⟨k, hk, hdrop⟩ := drainLoop_spill (queueOf s c).spill.length hcons (by omega) hsize
    rw [fireEvq_spill, rd_fireEvq, queueOf_writeControl, rd_writeControl, spillStatus_spill, rd_spillStatus_count, hdrop, hk, hcount,
      Nat.zero_add]

end Drain

end Sys2Proof.Machine
end

section
/-! O40: writes of ENABLE (R215, R410). -/

namespace Sys2Proof.Machine

variable {s : State} {src : Src} {c : Nat}

theorem exec_serveEnableWrite (hc : c < 64) (hm : mayWrite s src .SERVE_CTRL_ENABLE c = true) (t value : Nat) :
    exec (.serveEnableWrite src t c value) s = settle s
      (if value % 2 = 0 then wr (tick s t) .SERVE_CTRL_ENABLE c 0
      else if enableOk s c = false then tick s t
      else if rdb (wr (tick s t) .SERVE_CTRL_FAULTED c 0) .SERVE_CTRL_ENABLE c then wr (tick s t) .SERVE_CTRL_FAULTED c 0
      else
        let u := wr (wr (wr (wr (tick s t) .SERVE_CTRL_FAULTED c 0) .SERVE_CTRL_ENABLE c 1) .SERVE_INTAKE_COUNT c 0) .SERVE_EVQ_COUNT c 0
        drainSpill (writeControl (setQueue u c { queueOf u c with
          consumer := 0, ringFails := 0, recFails := 0, noRoom := false, armed := true, noted := 0 }) c) c) := by
  have hskip : ¬ (c ≥ 64 ∨ mayWrite (tick s t) src .SERVE_CTRL_ENABLE c = false) := by
    have htick : mayWrite (tick s t) src .SERVE_CTRL_ENABLE c = true := hm
    simp [htick, hc]
  show execServeEnableWrite src t c value s = _
  simp only [execServeEnableWrite, if_neg hskip]
  rfl

/-- The registers that ENABLE's change to 1 sets. -/
abbrev enableRegs (c : Nat) : List (Fld × Nat) :=
  [(.SERVE_CTRL_ENABLE, c), (.SERVE_CTRL_FAULTED, c), (.SERVE_INTAKE_COUNT, c), (.SERVE_EVQ_COUNT, c)]

/-- The registers that ENABLE's change to 1 sets, at a time. -/
def enabledRegs (s : State) (t c : Nat) : State :=
  wr (wr (wr (wr (tick s t) .SERVE_CTRL_FAULTED c 0) .SERVE_CTRL_ENABLE c 1) .SERVE_INTAKE_COUNT c 0) .SERVE_EVQ_COUNT c 0

/-- The context's queue as it starts again. -/
def enabledQueue (s : State) (t c : Nat) : State :=
  setQueue (enabledRegs s t c) c { queueOf s c with
    consumer := 0, ringFails := 0, recFails := 0, noRoom := false, armed := true, noted := 0 }

theorem withinAt_enabledQueue (s : State) (t c : Nat) : WithinAt [.now, .serve] (enableRegs c) s (enabledQueue s t c) := by
  have hregs : WithinAt [.now] (enableRegs c) s (enabledRegs s t c) :=
    ((((within_tick s t).toWithinAt.trans (withinAt_wr _ _ _ _)).trans (withinAt_wr _ _ _ _)).trans (withinAt_wr _ _ _ _)).trans
      (withinAt_wr _ _ _ _) |>.mono (by simp) (by simp)
  exact (hregs.trans (within_setQueue (enabledRegs s t c) c _).toWithinAt).mono (by simp) (by simp)

theorem rd_enabledQueue (s : State) (t c : Nat) :
    rd (enabledQueue s t c) .SERVE_CTRL_ENABLE c = 1 ∧ rd (enabledQueue s t c) .SERVE_CTRL_FAULTED c = 0 ∧
    rd (enabledQueue s t c) .SERVE_INTAKE_COUNT c = 0 ∧ rd (enabledQueue s t c) .SERVE_EVQ_COUNT c = 0 := by
  simp [enabledQueue, enabledRegs, rd_wr]

theorem exec_serveEnableWrite_starts (hc : c < 64) (hm : mayWrite s src .SERVE_CTRL_ENABLE c = true) (hok : enableOk s c = true)
    (hoff : rd s .SERVE_CTRL_ENABLE c ≠ 1) (t : Nat) :
    exec (.serveEnableWrite src t c 1) s = settle s (drainSpill (writeControl (enabledQueue s t c) c) c) := by
  have hrd : rdb (wr (tick s t) .SERVE_CTRL_FAULTED c 0) .SERVE_CTRL_ENABLE c = false := by
    rw [rdb_eq, rd_wr_ne _ _ _ _ _ _ (by simp)]
    simpa using hoff
  rw [exec_serveEnableWrite hc hm]
  simp only [hok, hrd, Bool.true_eq_false, Bool.false_eq_true, if_false, Nat.reduceMod, Nat.one_ne_zero]
  rfl

/-- As ENABLE changes to 1 the counts become 0 and the module's half is written; without records in spill that is all. -/
theorem enable_starts_without_spill (hc : c < 64) (hm : mayWrite s src .SERVE_CTRL_ENABLE c = true) (hok : enableOk s c = true)
    (hoff : rd s .SERVE_CTRL_ENABLE c ≠ 1) (hspill : (queueOf s c).spill = []) (t : Nat) :
    Runs (.serveEnableWrite src t c 1) s fun v =>
      rd v .SERVE_CTRL_ENABLE c = 1 ∧ rd v .SERVE_CTRL_FAULTED c = 0 ∧ rd v .SERVE_INTAKE_COUNT c = 0 ∧
      rd v .SERVE_EVQ_COUNT c = 0 ∧ v.rep.outs = s.rep.outs ++
        [.hostWrite c ((rd s .SERVE_BLOCK_ADDR c * 128 + 0x40) % 2 ^ 48) (controlBytes 0 0 (rd s .SERVE_SPILLED c))] ∧
      KeptBut [.now, .rep, .serve] s v ∧ RegsKept (enableRegs c) s v := by
  have hq := withinAt_enabledQueue s t c
  obtain ⟨hen, hfault, hintake, hevq⟩ := rd_enabledQueue s t c
  have hnone : (queueOf (writeControl (enabledQueue s t c) c) c).spill = [] := by
    rw [queueOf_writeControl, enabledQueue, queueOf_setQueue]
    exact hspill
  have hexec := exec_serveEnableWrite_starts hc hm hok hoff t
  rw [drainSpill, if_pos (Or.inl hnone)] at hexec
  have hw : WithinAt [.now, .rep, .serve] (enableRegs c) s (writeControl (enabledQueue s t c) c) :=
    (hq.trans (within_emit _ _).toWithinAt).mono (by simp) (by simp)
  refine runs_of_settle hexec ⟨?_, ?_, ?_, ?_, ?_, hw.settled⟩
  · exact (rd_settled_other _ _ _ _ (by decide)).trans hen
  · exact (rd_settled_other _ _ _ _ (by decide)).trans hfault
  · exact (rd_settled_other _ _ _ _ (by decide)).trans hintake
  · exact (rd_settled_other _ _ _ _ (by decide)).trans hevq
  · have haddr := hq.regs .SERVE_BLOCK_ADDR c (by simp)
    have hspilled := hq.regs .SERVE_SPILLED c (by simp)
    show (enabledQueue s t c).rep.outs ++ [.hostWrite c ((rd _ .SERVE_BLOCK_ADDR c * 128 + 0x40) % 2 ^ 48)
      (controlBytes (rd _ .SERVE_INTAKE_COUNT c) (rd _ .SERVE_EVQ_COUNT c) (rd _ .SERVE_SPILLED c))] = _
    rw [haddr, hspilled, hintake, hevq]
    rfl

/-- Records that waited in spill go into the queue, as many as it then counts. -/
theorem enable_starts (hc : c < 64) (hm : mayWrite s src .SERVE_CTRL_ENABLE c = true) (hok : enableOk s c = true)
    (hoff : rd s .SERVE_CTRL_ENABLE c ≠ 1) (t : Nat) : Runs (.serveEnableWrite src t c 1) s fun v =>
      rd v .SERVE_CTRL_ENABLE c = 1 ∧ rd v .SERVE_CTRL_FAULTED c = 0 ∧ rd v .SERVE_INTAKE_COUNT c = 0 ∧
      (queueOf v c).spill = (queueOf s c).spill.drop (rd v .SERVE_EVQ_COUNT c) ∧ KeptBut [.now, .rep, .serve] s v ∧
      (∀ f n, f ∉ viewFlds → f ∉ [.SERVE_CTRL_ENABLE, .SERVE_CTRL_FAULTED, .SERVE_INTAKE_COUNT, .SERVE_EVQ_COUNT, .SERVE_SPILLED,
        .SERVE_CTRL_BACKLOG] ∨ n ≠ c → rd v f n = rd s f n) := by
  have hq := withinAt_enabledQueue s t c
  obtain ⟨hen, hfault, hintake, hevq⟩ := rd_enabledQueue s t c
  have hdrain : EventsOnly c (enabledQueue s t c) (drainSpill (writeControl (enabledQueue s t c) c) c) :=
    (eventsOnly_writeControl _).trans (eventsOnly_drainSpill _)
  have hrd : ∀ f : Fld, f ∉ viewFlds → f ∉ eventFlds →
      rd (settled s (drainSpill (writeControl (enabledQueue s t c) c) c)) f c = rd (enabledQueue s t c) f c := fun f hv hf =>
    (rd_settled_other _ _ _ _ hv).trans (hdrain.rd_eq hf c)
  have hsize : evqSize (writeControl (enabledQueue s t c) c) c < 2 ^ 32 := by
    have hlog : rd s .SERVE_EVQ_SIZE_LOG2 c ≤ 20 := by
      simp only [enableOk, Bool.and_eq_true, decide_eq_true_eq] at hok
      omega
    have hsame : evqSize (writeControl (enabledQueue s t c) c) c = evqSize s c := evqSize_congr (hq.regs _ _ (by simp))
    rw [hsame, evqSize]
    exact Nat.pow_lt_pow_right (by decide) (by omega)
  have hqueue : queueOf (writeControl (enabledQueue s t c) c) c = { queueOf s c with
      consumer := 0, ringFails := 0, recFails := 0, noRoom := false, armed := true, noted := 0 } := queueOf_setQueue _ _ _
  have hcons : (queueOf (writeControl (enabledQueue s t c) c) c).consumer = 0 := by rw [hqueue]
  obtain ⟨hparts, hregs⟩ := ((hq.trans hdrain.within).mono (qs := [.now, .rep, .serve]) (by simp) (List.Subset.refl _)).settled
  refine runs_of_settle (exec_serveEnableWrite_starts hc hm hok hoff t) ⟨?_, ?_, ?_, ?_, hparts, fun f n hv hne => ?_⟩
  · rw [hrd _ (by decide) (by decide), hen]
  · rw [hrd _ (by decide) (by decide), hfault]
  · rw [hrd _ (by decide) (by decide), hintake]
  · rw [rd_settled_other _ _ _ _ (by decide), queueOf_settled, drainSpill_spill hcons hevq hsize, hqueue]
  · have hnamed : ∀ e ∈ enableRegs c ++ eventRegs c, e.1 ∈ [Fld.SERVE_CTRL_ENABLE, .SERVE_CTRL_FAULTED, .SERVE_INTAKE_COUNT,
        .SERVE_EVQ_COUNT, .SERVE_SPILLED, .SERVE_CTRL_BACKLOG] ∧ e.2 = c := by simp
    exact hregs f n (fun hm => hne.elim (absurd (hnamed _ hm).1) (absurd (hnamed _ hm).2)) hv

/-- Settles O40: each case of the write in turn; a start by what its drain moves (`drainSpill_spill`). -/
theorem enableRuns : Obligations.EnableRuns := by
  intro s src t c hc hm
  have hexec := exec_serveEnableWrite hc hm t
  refine ⟨fun hok hoff hspill => enable_starts_without_spill hc hm hok hoff hspill t, fun hok hoff => enable_starts hc hm hok hoff t,
    fun hok hon => ?_, fun hbad => ?_, ?_⟩
  · have hrd : rdb (wr (tick s t) .SERVE_CTRL_FAULTED c 0) .SERVE_CTRL_ENABLE c = true := by
      rw [rdb_eq, rd_wr_ne _ _ _ _ _ _ (by simp)]
      simpa using hon
    have hclear := hexec 1
    simp only [hok, hrd, Bool.true_eq_false, if_false, if_true, Nat.reduceMod, Nat.one_ne_zero] at hclear
    refine runs_of_settle hclear ⟨?_, ((within_tick s t).toWithinAt.trans (withinAt_wr _ _ _ _)).settled⟩
    rw [rd_settled_other _ _ _ _ (by decide), rd_wr_same]
  · have hstays := hexec 1
    simp only [hbad, if_true, if_false, Nat.reduceMod, Nat.one_ne_zero] at hstays
    exact runs_of_settle hstays (within_tick s t).toWithinAt.settled
  · have hzero := hexec 0
    simp only [if_true, Nat.zero_mod] at hzero
    refine runs_of_settle hzero ⟨?_, ((within_tick s t).toWithinAt.trans (withinAt_wr _ _ _ _)).settled⟩
    rw [rd_settled_other _ _ _ _ (by decide), rd_wr_same]

end Sys2Proof.Machine
end

section
/-! What the start of a context's teardown leaves (R378): memory, and every register but those of its commands, its semaphores and
credits, its records and its heartbeats. -/

namespace Sys2Proof.Machine

/-! Registers that a reset clears -/

theorem allFlds_ctorIdx : allFlds.map Fld.ctorIdx = List.range allFlds.length := by decide +kernel

/-- The field of a number has that number. -/
theorem eq_of_fldOf_ctorIdx {f g : Fld} (h : fldOf f.ctorIdx = some g) : g = f := by
  have hmap : (allFlds.map Fld.ctorIdx)[f.ctorIdx]? = some g.ctorIdx := by rw [List.getElem?_map, ← fldOf, h]; rfl
  rw [allFlds_ctorIdx, List.getElem?_range (List.getElem?_eq_some_iff.mp h).1, Option.some.injEq] at hmap
  exact ctorIdx_inj hmap.symm

/-- Whether a reset keeps the register of a key. -/
def resetKeeps (rank : Nat) (p : Fld → Nat → Bool) (k : Nat) : Bool :=
  match fldOf (k % 1024) with
  | some f => !(decide (keptRank (fieldRow f).kept < rank) && p f (k / 1024))
  | none => true

theorem resetRegs_regs (s : State) (rank : Nat) (p : Fld → Nat → Bool) :
    (resetRegs s rank p).regs = storeKeep (resetKeeps rank p) s.regs := rfl

theorem resetKeeps_regKey {p : Fld → Nat → Bool} {f : Fld} (hp : ∀ n, p f n = false) (rank n : Nat) :
    resetKeeps rank p (regKey f n) = true := by
  have hmod : regKey f n % 1024 = f.ctorIdx := by
    have := ctorIdx_lt f
    rw [regKey]
    omega
  unfold resetKeeps
  rw [hmod]
  split
  · next g hg =>
    obtain rfl := eq_of_fldOf_ctorIdx hg
    rw [hp, Bool.and_false, Bool.not_false]
  · rfl

/-- A reset leaves every field that is not asked for. -/
theorem rd_resetRegs_of_not {p : Fld → Nat → Bool} {f : Fld} (hp : ∀ n, p f n = false) (s : State) (rank n : Nat) :
    rd (resetRegs s rank p) f n = rd s f n := by
  unfold rd
  rw [resetRegs_regs, storeGet_keep, if_pos (resetKeeps_regKey hp rank n)]

theorem within_resetRegs {p : Fld → Nat → Bool} {fs : List Fld} (hp : ∀ f, f ∉ fs → ∀ n, p f n = false) (s : State) (rank : Nat) :
    Within [] fs s (resetRegs s rank p) :=
  ⟨fun q _ => by cases q <;> rfl, fun f n hf => rd_resetRegs_of_not (hp f hf) s rank n⟩

/-! Commands that stop -/

/-- The fields that the start of a teardown changes beside STATE and ENABLE. -/
def teardownFlds : List Fld :=
  queueFlds ++ [.DBG_PROF_LOST, .DBG_PROF_PTR_HEAD, .DBG_PROF_PTR_TAIL, .VEC_SUMQ_STATUS_COUNT, .DBG_HALT_SUMQ_DISCARDED,
    .VEC_SCALAR_VALID, .VEC_SCALAR_CTX, .VEC_SCALAR_SHARED, .VEC_SCALAR_VALUE, .CTX_CMD_STATUS_BUSY, .INTEG_HEARTBEAT, .CTX_TEARDOWNS]

/-- What the start of a teardown can change beside STATE and ENABLE. -/
abbrev TeardownFrame (s t : State) : Prop := Within [.core, .serve, .rep, .lard, .tt, .fab, .dbg, .ctxs] teardownFlds s t

theorem Within.teardown {ps : List Part} {fs : List Fld} {s t : State} (h : Within ps fs s t)
    (hp : ps ⊆ [.core, .serve, .rep, .lard, .tt, .fab, .dbg, .ctxs] := by simp) (hf : fs ⊆ teardownFlds := by decide) :
    TeardownFrame s t := h.mono hp hf

theorem QueueFrame.teardown {s t : State} (h : QueueFrame s t) : TeardownFrame s t :=
  h.within.mono (by simp) (List.subset_append_left _ _)

theorem teardown_wr (s : State) (f : Fld) (n v : Nat) (hf : f ∈ teardownFlds := by decide) : TeardownFrame s (wr s f n v) :=
  (within_wr s f n v).teardown (hf := by simpa using hf)

theorem teardown_updCore (s : State) (f : Cores → Cores) : TeardownFrame s (updCore s f) := (within_core s f).teardown

theorem teardown_profile (s : State) (k : Nat) (r : RunCmd) (stopped : Bool) : TeardownFrame s (profile s k r stopped) := by
  unfold profile
  extract_lets h sel n head full u g row v w
  have hu : TeardownFrame s u := by
    unfold u
    split
    · exact (within_inc s _ _ _).teardown
    · exact Within.refl _ _ s
  have hw : TeardownFrame u w := (within_dbg u _).teardown.trans (teardown_wr v _ _ _)
  split
  · exact Within.refl _ _ s
  · split
    · exact hu
    · split
      · exact (hu.trans hw).trans (teardown_wr w _ _ _)
      · exact hu.trans hw

theorem teardown_stopOnCore (c : Nat) (s : State) (k : Nat) : TeardownFrame s (stopOnCore c s k) := by
  unfold stopOnCore
  extract_lets mine u hold v w x
  have hu : TeardownFrame s u :=
    within_each _ (fun t r => (within_trail t _ _ _ _ _).teardown.trans (teardown_profile _ _ _ _)) _ s
  have hw : TeardownFrame u w := (within_setQueueAt u k _).teardown.trans (teardown_updCore v _)
  have hx : TeardownFrame w x := by
    unfold x
    split
    · exact (teardown_wr w _ _ _).trans (teardown_wr _ _ _ _)
    · exact Within.refl _ _ w
  exact ((hu.trans hw).trans hx).trans (queueFrame_showBusy x k).teardown

theorem teardown_setSumq (s : State) (h : Nat) (l : List SummaryRec) : TeardownFrame s (setSumq s h l) :=
  (teardown_wr s _ _ _).trans (teardown_updCore _ _)

theorem teardown_sumTurn (s : State) (h : Nat) : TeardownFrame s (sumTurn s h) := by
  refine within_each _ (fun t e => ?_) _ s
  split
  · exact Within.refl _ _ t
  · extract_lets l gone
    have hgone : TeardownFrame t gone := teardown_updCore t _
    split
    · exact hgone.trans (teardown_setSumq _ _ _)
    · split
      · exact hgone.trans (within_inc _ _ _ _).teardown
      · exact Within.refl _ _ t

theorem teardown_drainSums (s : State) (h : Nat) : TeardownFrame s (drainSums s h) :=
  within_each _ (fun t (_ : Nat) => teardown_sumTurn t h) _ s

theorem teardown_clearScalar (s : State) (n : Nat) : TeardownFrame s
    (wr (wr (wr (wr s .VEC_SCALAR_VALID n 0) .VEC_SCALAR_CTX n 0) .VEC_SCALAR_SHARED n 0) .VEC_SCALAR_VALUE n 0) :=
  ((teardown_wr s _ _ _).trans (teardown_wr _ _ _ _)).trans ((teardown_wr _ _ _ _).trans (teardown_wr _ _ _ _))

/-- A context's commands stop and the hubs that they leave go on (R116). -/
theorem teardown_stopCommands (s : State) (c : Nat) : TeardownFrame s (stopCommands s c) := by
  unfold stopCommands
  extract_lets ks hubs u v w x named y
  have hu : TeardownFrame s u := within_each _ (teardown_stopOnCore c) _ s
  have hv : TeardownFrame u v := teardown_updCore u _
  have hw : TeardownFrame v w := within_each _ (fun t _ => teardown_setSumq t _ _) _ v
  have hx : TeardownFrame w x := within_each _ teardown_drainSums _ w
  have hy : TeardownFrame x y := within_each _ teardown_clearScalar _ x
  exact ((((hu.trans hv).trans hw).trans hx).trans hy).trans (queueFrame_each queueFrame_pump _ y).teardown

/-! Windows, semaphores and credits -/

theorem within_dropWindows (s : State) (c : Nat) : Within [.tt] [] s (dropWindows s c) := by
  unfold dropWindows
  exact within_tt s _

theorem teardown_freeSems (s : State) (c : Nat) : TeardownFrame s (freeSems s c) := by
  refine within_each _ (fun t n => ?_) _ s
  split
  · exact (((teardown_wr t _ _ _).trans (teardown_wr _ _ _ _)).trans ((teardown_wr _ _ _ _).trans (teardown_wr _ _ _ _))).trans
      (teardown_updCore _ _)
  · exact Within.refl _ _ t

theorem within_returnCredits (s : State) (l c n : Nat) : Within [.rep, .fab] [] s (returnCredits s l c n) := by
  unfold returnCredits
  split
  · exact Within.refl _ _ s
  · exact within_sendPacket s l _

theorem teardown_dropCredits (s : State) (c : Nat) : TeardownFrame s (dropCredits s c) := by
  unfold dropCredits
  refine Within.trans (within_each _ (fun t l => ?_) _ s) (within_fab _ _).teardown
  extract_lets x n u
  have hu : TeardownFrame t u := (within_fab t _).teardown
  exact (hu.trans (within_returnCredits u l c n).teardown).trans (teardown_wr _ _ _ _)

/-! The start of a teardown -/

/-- A context that is torn down has its state and its ENABLE cleared first. -/
def tornDown (s : State) (c : Nat) : State := wr (setCtxState s c 3) .SERVE_CTRL_ENABLE c 0

theorem within_setCtxState (s : State) (c v : Nat) :
    Within [.rep] [.CTX_STATE_STATE, .CTXWIN_INFO_STATE, .EVC_STATUS_CTX] s (setCtxState s c v) := by
  unfold setCtxState
  exact (((within_wr s _ _ _).mono (by simp) (by simp)).trans ((within_wr _ _ _ _).mono (by simp) (by simp))).trans
    ((within_raiseModule _ _).mono (by simp) (by simp))

theorem rd_setCtxState (s : State) (c v : Nat) : rd (setCtxState s c v) .CTX_STATE_STATE c = v := by
  unfold setCtxState
  rw [(within_raiseModule _ _).regs _ _ (by simp), rd_wr_ne _ _ _ _ _ _ (by simp), rd_wr_same]

theorem startTeardown_frame {s : State} {c : Nat} (hc : c ≠ 0)
    (hst : rd s .CTX_STATE_STATE c = 1 ∨ rd s .CTX_STATE_STATE c = 2) (cause : Nat) :
    TeardownFrame (tornDown s c) (startTeardown s c cause) := by
  have hgo : ¬ (c = 0 ∨ rd s .CTX_STATE_STATE c = 0 ∨ rd s .CTX_STATE_STATE c = 3) := by omega
  unfold startTeardown
  dsimp only
  rw [if_neg hgo]
  have hbusy : TeardownFrame (tornDown s c) (if (tornDown s c).ctxs.suspending.any (fun e => e.1 == c) then
      wr (tornDown s c) .CTX_CMD_STATUS_BUSY 0 0 else tornDown s c) := by
    split
    · exact teardown_wr _ _ _ _
    · exact Within.refl _ _ _
  have hstop : ∀ (u : State) (p : Segment → Bool),
      TeardownFrame u (abortSegments (dropCredits (freeSems (stopCommands (dropWindows u c) c) c) c) p) := fun u p =>
    (((within_dropWindows u c).teardown.trans (teardown_stopCommands _ c)).trans (teardown_freeSems _ c)).trans
      ((teardown_dropCredits _ c).trans (queueFrame_abortSegments _ p).teardown)
  have hbeats : ∀ u : State, TeardownFrame u (resetRegs u (keptRank .ctx) (fun f _ => f == .INTEG_HEARTBEAT)) := fun u =>
    (within_resetRegs (fs := [.INTEG_HEARTBEAT]) (fun f hf _ => by simpa using hf) u _).teardown
  exact ((hbusy.trans (within_ctxs _ _).teardown).trans (hstop _ _)).trans
    ((hbeats _).trans ((within_inc _ _ _ _).teardown.trans (within_report _ _ _ _ _ _ _).teardown))

/-- The context is TEARING, reads no ring, and memory is as it was (R378). -/
theorem startTeardown_starts {s : State} {c : Nat} (hc : c ≠ 0)
    (hst : rd s .CTX_STATE_STATE c = 1 ∨ rd s .CTX_STATE_STATE c = 2) (cause : Nat) :
    rd (startTeardown s c cause) .CTX_STATE_STATE c = 3 ∧ rd (startTeardown s c cause) .SERVE_CTRL_ENABLE c = 0 ∧
    (startTeardown s c cause).mem = s.mem := by
  have h := startTeardown_frame hc hst cause
  refine ⟨?_, ?_, Eq.trans (h.parts .mem (by simp)) ((within_setCtxState s c 3).parts .mem (by simp))⟩
  · rw [h.regs _ _ (by decide), tornDown, rd_wr_ne _ _ _ _ _ _ (by simp), rd_setCtxState]
  · rw [h.regs _ _ (by decide), tornDown, rd_wr_same]

/-- A register that no part of a teardown's start names. -/
theorem rd_startTeardown {s : State} {c : Nat} (hc : c ≠ 0)
    (hst : rd s .CTX_STATE_STATE c = 1 ∨ rd s .CTX_STATE_STATE c = 2) (cause : Nat) {f : Fld}
    (hf : f ∉ [.CTX_STATE_STATE, .CTXWIN_INFO_STATE, .EVC_STATUS_CTX, .SERVE_CTRL_ENABLE] ++ teardownFlds) (n : Nat) :
    rd (startTeardown s c cause) f n = rd s f n := by
  simp only [List.mem_append, List.mem_cons, List.not_mem_nil, or_false, not_or] at hf
  rw [(startTeardown_frame hc hst cause).regs f n hf.2, tornDown, rd_wr_ne _ _ _ _ _ _ fun e => hf.1.2.2.2 e.1,
    (within_setCtxState s c 3).regs f n (by simp [hf.1])]

end Sys2Proof.Machine
end

section
/-! O47: intake ticks (R191 to R193). -/

namespace Sys2Proof.Machine

variable {s : State} {c : Nat}

/-! Reads of EVQ_CONSUMER -/

/-- The queue of a context once the host has been found to have consumed up to x (R410). -/
def consumedQueue (q : CtxQueue) (x : Nat) : CtxQueue :=
  { q with consumer := x, noRoom := false, armed := q.armed || (!q.armed && x != q.noted) }

theorem readConsumer_inRange {x : Nat} (h : (rd s .SERVE_EVQ_COUNT c + 2 ^ 32 - x) % 2 ^ 32 ≤ evqSize s c) :
    readConsumer s c x = fireEvq (drainSpill (setQueue s c (consumedQueue (queueOf s c) x)) c) c := by
  unfold readConsumer
  rw [if_neg (by omega)]
  rfl

/-- What a value in range brings about is the context's event records alone. -/
theorem eventsOnly_readConsumer {x : Nat} (h : (rd s .SERVE_EVQ_COUNT c + 2 ^ 32 - x) % 2 ^ 32 ≤ evqSize s c) :
    EventsOnly c (setQueue s c (consumedQueue (queueOf s c) x)) (readConsumer s c x) := by
  rw [readConsumer_inRange h]
  exact (eventsOnly_drainSpill _).trans (eventsOnly_fireEvq _)

/-- A queue takes no record until a value in range is read. -/
def roomClosed (s : State) (c : Nat) : State := setQueue s c { queueOf s c with noRoom := true }

theorem queueOf_roomClosed (s : State) (c : Nat) : (queueOf (roomClosed s c) c).noRoom = true :=
  congrArg CtxQueue.noRoom (queueOf_setQueue s c _)

theorem readConsumer_outOfRange {x : Nat} (h : evqSize s c < (rd s .SERVE_EVQ_COUNT c + 2 ^ 32 - x) % 2 ^ 32)
    (hf : rd s .SERVE_CTRL_FAULTED c ≠ 1) : readConsumer s c x = ringFault (roomClosed s c) c 0x03 := by
  have hrd : ¬ rdb (roomClosed s c) .SERVE_CTRL_FAULTED c = true := fun e => hf (beq_iff_eq.mp e)
  exact (if_pos h).trans (if_neg hrd)

/-! Failed reads of a control block -/

/-- A context's count of failed reads in a row is set. -/
def failsSet (s : State) (c k : Nat) : State := setQueue s c { queueOf s c with ringFails := k }

theorem within_failsSet (s : State) (c k : Nat) : Within [.serve] [] s (failsSet s c k) := within_setQueue s c _

theorem queueOf_failsSet (s : State) (c k : Nat) : (queueOf (failsSet s c k) c).ringFails = k :=
  congrArg CtxQueue.ringFails (queueOf_setQueue s c _)

theorem readFailed_counts (h : (queueOf s c).ringFails < 2) : readFailed s c = failsSet s c ((queueOf s c).ringFails + 1) :=
  if_neg (show ¬ (queueOf s c).ringFails ≥ 2 by omega)

theorem readFailed_faults (h : 2 ≤ (queueOf s c).ringFails) : readFailed s c = ringFault (failsSet s c 0) c 0x02 :=
  if_pos (show (queueOf s c).ringFails ≥ 2 from h)

theorem visitContext_fails {r : CtlRead} (hr : r.readable = false) (s : State) (left : Nat) : visitContext s r left = readFailed s r.ctx :=
  if_pos hr

/-! Ring faults -/

/-- A ring fault disables the context (R193, R411) and tells the host. -/
theorem ringFault_disables (s : State) (c detail : Nat) :
    rd (ringFault s c detail) .SERVE_CTRL_ENABLE c = 0 ∧ rd (ringFault s c detail) .SERVE_CTRL_FAULTED c = 1 ∧
    (queueOf (ringFault s c detail) c).noRoom = (queueOf s c).noRoom ∧ (ringFault s c detail).mem = s.mem ∧
    (ringFault s c detail).serve.items = s.serve.items := by
  have h := eventsOnly_ringEvent (c := c) s detail
  unfold ringFault
  refine ⟨?_, rd_wr_same _ _ _ _, h.noRoom, h.mem, h.items⟩
  rw [rd_wr_ne _ _ _ _ _ _ (by simp), rd_wr_same]

/-! Visits -/

theorem visitAll_of_not_mem {r : CtlRead} : ∀ {l : List Nat} (left : Nat) (s : State), r.ctx ∉ l → visitAll [r] l left s = s
  | [], _, _, _ => rfl
  | d :: rest, left, s, h => by
    have hne : ¬ r.ctx = d := fun e => h (e ▸ List.mem_cons_self)
    have hfind : [r].find? (fun x => x.ctx == d) = none := by simp [hne]
    unfold visitAll
    rw [hfind]
    exact visitAll_of_not_mem left s fun hm => h (List.mem_cons_of_mem _ hm)

/-- Of one control block that was read, its context alone is visited, once. -/
theorem visitAll_of_mem {r : CtlRead} (hon : intakeOn s r.ctx = true) (left : Nat) : ∀ {l : List Nat}, l.Nodup → r.ctx ∈ l →
    visitAll [r] l left s = visitContext s r left
  | [], _, h => absurd h List.not_mem_nil
  | d :: rest, hd, h => by
    obtain ⟨hrest, hd⟩ := List.nodup_cons.mp hd
    unfold visitAll
    by_cases he : r.ctx = d
    · subst he
      have hfind : [r].find? (fun x => x.ctx == r.ctx) = some r := by simp
      rw [hfind]
      dsimp only
      rw [if_pos hon]
      exact visitAll_of_not_mem _ _ hrest
    · have hfind : [r].find? (fun x => x.ctx == d) = none := by simp [he]
      rw [hfind]
      exact visitAll_of_mem hon left hd ((List.mem_cons.mp h).resolve_left he)

/-- The order in which a tick visits the contexts (R192). -/
abbrev visitOrder (n : Nat) : List Nat := (List.range 64).map fun i => (n + i) % 64

theorem visitOrder_nodup (n : Nat) : (visitOrder n).Nodup := by
  refine List.Nodup.map_on (fun i hi j hj h => ?_) List.nodup_range
  rw [List.mem_range] at hi hj
  omega

theorem mem_visitOrder (n : Nat) (hc : c < 64) : c ∈ visitOrder n :=
  List.mem_map.mpr ⟨(c + 64 - n % 64) % 64, List.mem_range.mpr (by omega), by omega⟩

/-! The tick -/

/-- A tick has begun: its time and its count. -/
def tickBegun (s : State) (n : Nat) : State :=
  inc (updServe (tick s (n * intakeTick s)) fun v => { v with lastTick := n * intakeTick s }) .SERVE_TICKS

theorem withinAt_tickBegun (s : State) (n : Nat) : WithinAt [.now, .serve] [(.SERVE_TICKS, 0)] s (tickBegun s n) :=
  (((within_tick s (n * intakeTick s)).toWithinAt.trans (within_serve _ _).toWithinAt).trans (withinAt_wr _ _ _ _)).mono
    (by simp) (by simp)

theorem withinAt_failsSet_tickBegun (s : State) (n c k : Nat) :
    WithinAt [.now, .serve] [(.SERVE_TICKS, 0)] s (failsSet (tickBegun s n) c k) :=
  ((withinAt_tickBegun s n).trans (within_failsSet _ c k).toWithinAt).mono (by simp) (by simp)

theorem queueOf_tickBegun (s : State) (n c : Nat) : queueOf (tickBegun s n) c = queueOf s c := rfl

/-- What a tick's visits leave is traced. -/
def tickTraced (s u : State) (ctls : List CtlRead) : State :=
  let moved := fun (c : Nat) => (rd u .SERVE_INTAKE_COUNT c + 2 ^ 32 - rd s .SERVE_INTAKE_COUNT c) % 2 ^ 32
  trail u vestTrail 0x40 0 ((List.range 64).filter fun c => intakeOn s c && ctls.any fun r => r.ctx == c).length
    ((List.range 64).map moved).sum

theorem within_tickTraced (s u : State) (ctls : List CtlRead) : Within [.dbg] [] u (tickTraced s u ctls) := within_trail _ _ _ _ _ _

theorem exec_intakeTick (s : State) (n : Nat) (ctls : List CtlRead) : exec (.intakeTick n ctls) s = settle s
    (tickTraced (tickBegun s n) (visitAll ctls (visitOrder n) (40 * rd (tickBegun s n) .TT_CONFIG_INTAKE_TICK) (tickBegun s n)) ctls) :=
  rfl

/-- A tick at which one context's control block was read is that context's visit. -/
theorem exec_intakeTick_one {r : CtlRead} (hc : r.ctx < 64) (hon : intakeOn s r.ctx = true) (n : Nat) :
    exec (.intakeTick n [r]) s = settle s
      (tickTraced (tickBegun s n) (visitContext (tickBegun s n) r (40 * rd s .TT_CONFIG_INTAKE_TICK)) [r]) := by
  have hsame : ∀ f, f ≠ .SERVE_TICKS → ∀ k, rd (tickBegun s n) f k = rd s f k := fun f hf k =>
    (withinAt_tickBegun s n).regs f k (by simp [hf])
  have hbegun : intakeOn (tickBegun s n) r.ctx = true := by
    rw [← hon]
    simp only [intakeOn, hostReach, leadHub, rdb_eq, ne_eq, reduceCtorEq, not_false_eq_true, hsame]
    rfl
  rw [exec_intakeTick, visitAll_of_mem hbegun _ (visitOrder_nodup n) (mem_visitOrder n hc), hsame _ (by simp)]

/-- A tick without control blocks moves the time on and counts. -/
theorem intakeTick_idle (s : State) (n : Nat) : Runs (.intakeTick n []) s fun v =>
    v.serve.lastTick = n * intakeTick s ∧ v.now = max s.now (n * intakeTick s) ∧
    rd v .SERVE_TICKS = rd (inc s .SERVE_TICKS) .SERVE_TICKS ∧ Frame [.dbg, .now, .serve] [.SERVE_TICKS] s v := by
  have hnone : ∀ (l : List Nat) (left : Nat) (u : State), visitAll [] l left u = u := by
    intro l
    induction l with
    | nil => intros; rfl
    | cons d rest ih => exact fun left u => ih left u
  have ht := within_tickTraced (tickBegun s n) (tickBegun s n) []
  refine runs_of_settle ((exec_intakeTick s n []).trans (by rw [hnone])) ⟨?_, ?_, ?_, ?_⟩
  · have htraced : _ = _ := ht.parts .serve (by simp)
    rw [settled_serve, htraced]
    rfl
  · have htraced : _ = _ := ht.parts .now (by simp)
    rw [settled_now, htraced]
    rfl
  · rw [rd_settled_other _ _ _ _ (by decide), ht.regs _ _ (by simp)]
    simp [tickBegun, rd_inc]
  · exact (((withinAt_tickBegun s n).toWithin (by simp)).mono (by simp) (List.Subset.refl _)).trans (ht.mono (by simp) (by simp))
      |>.settled

/-! Records of the ring -/

/-- A record that was read is counted. -/
def recordTaken (s : State) (c : Nat) : State :=
  let u := incWrap (inc s .SERVE_RECORDS_READ) .SERVE_INTAKE_COUNT c
  updBoot (setQueue u c { queueOf u c with recFails := 0 }) fun b => { b with lastRecord := s.now }

/-- The registers that count a record of a context. -/
abbrev recordRegs (c : Nat) : List (Fld × Nat) := [(.SERVE_RECORDS_READ, 0), (.SERVE_INTAKE_COUNT, c)]

theorem withinAt_recordTaken (s : State) (c : Nat) : WithinAt [.boot, .serve] (recordRegs c) s (recordTaken s c) := by
  unfold recordTaken
  extract_lets u
  have hu : WithinAt [] (recordRegs c) s u := ((withinAt_wr s _ _ _).trans (withinAt_wr _ _ _ _)).mono (by simp) (by simp)
  exact ((hu.trans (within_setQueue u c _).toWithinAt).trans (within_boot _ _).toWithinAt).mono (by simp) (by simp)

theorem rd_recordTaken (s : State) (c : Nat) :
    rd (recordTaken s c) .SERVE_INTAKE_COUNT c = (rd s .SERVE_INTAKE_COUNT c + 1) % 2 ^ 32 := by
  show rd (incWrap (inc s .SERVE_RECORDS_READ) .SERVE_INTAKE_COUNT c) .SERVE_INTAKE_COUNT c = _
  rw [rd_incWrap, if_pos ⟨rfl, rfl⟩, rd_inc, if_neg (by simp)]
  rfl

/-- A record of a defined opcode is counted, and its own command decides it (R191, R194). -/
theorem readRecords_cons {x : RecRead} (hr : x.readable = true) (ho : opcodeDefined x.bytes = true) (rest : List RecRead) (s : State) :
    readRecords c (x :: rest) s = readRecords c rest (recordTaken s c) := by
  rw [readRecords, if_neg (by simp [hr])]
  simp only [ho, if_true]
  rfl

/-- Records that were read are counted, and no item changes. -/
theorem readRecords_keeps (c : Nat) : ∀ (l : List RecRead) (s : State), (∀ x ∈ l, x.readable = true ∧ opcodeDefined x.bytes = true) →
    WithinAt [.boot, .serve] (recordRegs c) s (readRecords c l s) ∧ (readRecords c l s).serve.items = s.serve.items
  | [], s, _ => ⟨(WithinAt.refl s).mono (by simp) (by simp), rfl⟩
  | x :: rest, s, h => by
    obtain ⟨⟨hr, ho⟩, hrest⟩ := List.forall_mem_cons.mp h
    obtain ⟨hw, hitems⟩ := readRecords_keeps c rest (recordTaken s c) hrest
    rw [readRecords_cons hr ho]
    exact ⟨(withinAt_recordTaken s c).chain hw, hitems⟩

/-- The count wraps. -/
theorem rd_readRecords (c : Nat) : ∀ (l : List RecRead) (s : State), l ≠ [] →
    (∀ x ∈ l, x.readable = true ∧ opcodeDefined x.bytes = true) →
    rd (readRecords c l s) .SERVE_INTAKE_COUNT c = (rd s .SERVE_INTAKE_COUNT c + l.length) % 2 ^ 32
  | [], _, h, _ => absurd rfl h
  | [x], s, _, h => by
    obtain ⟨⟨hr, ho⟩, -⟩ := List.forall_mem_cons.mp h
    rw [readRecords_cons hr ho]
    exact rd_recordTaken s c
  | x :: y :: rest, s, _, h => by
    obtain ⟨⟨hr, ho⟩, hrest⟩ := List.forall_mem_cons.mp h
    rw [readRecords_cons hr ho, rd_readRecords c (y :: rest) _ (by simp) hrest, rd_recordTaken, Nat.mod_add_mod]
    simp only [List.length_cons]
    congr 1
    omega

/-! Visits that find the block readable -/

/-- The state in which the ring of a context whose control block was read is looked at. -/
def blockRead (s : State) (r : CtlRead) : State :=
  readConsumer (failsSet s r.ctx 0) r.ctx r.consumer

/-- The records that a ring holds by its producer. -/
abbrev recordsWaiting (s : State) (r : CtlRead) : Nat := (r.producer + 2 ^ 32 - rd s .SERVE_INTAKE_COUNT r.ctx) % 2 ^ 32

/-- A visit to a ring whose records are within every limit reads them all. -/
theorem visitContext_reads {r : CtlRead} {left : Nat} (hr : r.readable = true) (hlp : rd (blockRead s r) .LP_STATUS_STATE < 2)
    (havail : recordsWaiting (blockRead s r) r = r.recs.length) (hpos : r.recs ≠ [])
    (hlen : r.recs.length ≤ 256) (hsize : r.recs.length ≤ 2 ^ rd (blockRead s r) .SERVE_INTAKE_SIZE_LOG2 r.ctx)
    (hleft : r.recs.length ≤ left) :
    visitContext s r left = writeControl (readRecords r.ctx r.recs (blockRead s r)) r.ctx := by
  have hpos : 0 < r.recs.length := List.length_pos_iff.mpr hpos
  unfold visitContext
  rw [if_neg (by simp [hr])]
  show (if rd (blockRead s r) .LP_STATUS_STATE = 2 ∨ rd (blockRead s r) .LP_STATUS_STATE = 3 then _
    else if 5 ≤ rd (blockRead s r) .LP_STATUS_STATE then _
    else if recordsWaiting (blockRead s r) r > 2 ^ rd (blockRead s r) .SERVE_INTAKE_SIZE_LOG2 r.ctx then _
    else if recordsWaiting (blockRead s r) r = 0 then _
    else writeControl (readRecords r.ctx (r.recs.take (min (min (recordsWaiting (blockRead s r) r) 256) left)) (blockRead s r)) r.ctx) = _
  rw [havail, if_neg (by omega), if_neg (by omega), if_neg (by omega), if_neg (by omega), List.take_of_length_le (by omega)]

/-- A tick reads the records that a context's ring holds. -/
theorem intakeTick_reads {r : CtlRead} (n : Nat) (hc : r.ctx < 64) (hr : r.readable = true) (hon : intakeOn s r.ctx = true)
    (hlp : rd s .LP_STATUS_STATE < 2)
    (hevq : (rd s .SERVE_EVQ_COUNT r.ctx + 2 ^ 32 - r.consumer) % 2 ^ 32 ≤ evqSize s r.ctx)
    (havail : recordsWaiting s r = r.recs.length) (hpos : r.recs ≠ [])
    (hlen : r.recs.length ≤ 256) (hsize : r.recs.length ≤ 2 ^ rd s .SERVE_INTAKE_SIZE_LOG2 r.ctx)
    (htick : r.recs.length ≤ 40 * rd s .TT_CONFIG_INTAKE_TICK) (hrecs : ∀ x ∈ r.recs, x.readable = true ∧ opcodeDefined x.bytes = true) :
    Runs (.intakeTick n [r]) s fun v =>
      rd v .SERVE_INTAKE_COUNT r.ctx = (rd s .SERVE_INTAKE_COUNT r.ctx + r.recs.length) % 2 ^ 32 ∧ v.serve.items = s.serve.items ∧
      (∀ d, d ≠ r.ctx → rd v .SERVE_INTAKE_COUNT d = rd s .SERVE_INTAKE_COUNT d) ∧ v.mem = s.mem := by
  let u := failsSet (tickBegun s n) r.ctx 0
  have hu : WithinAt [.now, .serve] [(.SERVE_TICKS, 0)] s u := withinAt_failsSet_tickBegun s n r.ctx 0
  have hin : (rd u .SERVE_EVQ_COUNT r.ctx + 2 ^ 32 - r.consumer) % 2 ^ 32 ≤ evqSize u r.ctx := by
    rwa [hu.regs _ _ (by simp), evqSize_congr (hu.regs _ _ (by simp))]
  have hread := eventsOnly_readConsumer hin
  have hblock : ∀ f, f ∉ [Fld.SERVE_TICKS] → f ∉ eventFlds → ∀ k, rd (blockRead (tickBegun s n) r) f k = rd s f k := fun f ht he k =>
    (hread.rd_eq he k).trans (hu.regs f k (by simpa using fun h => absurd h (by simpa using ht)))
  have hvisit := visitContext_reads (s := tickBegun s n) (left := 40 * rd s .TT_CONFIG_INTAKE_TICK) hr
    (by rwa [hblock _ (by decide) (by decide)]) (by rwa [recordsWaiting, hblock _ (by decide) (by decide)]) hpos hlen
    (by rwa [hblock _ (by decide) (by decide)]) htick
  obtain ⟨hw, hitems⟩ := readRecords_keeps r.ctx r.recs (blockRead (tickBegun s n) r) hrecs
  have hcount := rd_readRecords r.ctx r.recs (blockRead (tickBegun s n) r) hpos hrecs
  rw [hblock _ (by decide) (by decide)] at hcount
  have ht := within_tickTraced (tickBegun s n) (writeControl (readRecords r.ctx r.recs (blockRead (tickBegun s n) r)) r.ctx) [r]
  have hexec := exec_intakeTick_one hc hon n
  rw [hvisit] at hexec
  refine runs_of_settle hexec ⟨?_, ?_, fun d hd => ?_, ?_⟩
  · rw [rd_settled_other _ _ _ _ (by decide), ht.regs _ _ (by simp)]
    exact hcount
  · have htraced : _ = _ := ht.parts .serve (by simp)
    rw [settled_serve, htraced]
    exact hitems.trans hread.items
  · rw [rd_settled_other _ _ _ _ (by decide), ht.regs _ _ (by simp)]
    exact (hw.regs _ _ (by simpa using hd)).trans (hblock _ (by decide) (by decide) d)
  · have htraced : _ = _ := ht.parts .mem (by simp)
    have htaken : _ = _ := hw.parts .mem (by simp)
    have hbegun : _ = _ := hu.parts .mem (by simp)
    rw [settled_mem, htraced]
    exact htaken.trans (hread.mem.trans hbegun)

/-- A control block that cannot be read is counted. -/
theorem intakeTick_fails {r : CtlRead} (n : Nat) (hc : r.ctx < 64) (hr : r.readable = false) (hon : intakeOn s r.ctx = true)
    (hf : (queueOf s r.ctx).ringFails < 2) : Runs (.intakeTick n [r]) s fun v =>
      (queueOf v r.ctx).ringFails = (queueOf s r.ctx).ringFails + 1 ∧ Frame [.dbg, .now, .serve] [.SERVE_TICKS] s v := by
  have hexec := exec_intakeTick_one hc hon n
  rw [visitContext_fails hr, readFailed_counts (by rwa [queueOf_tickBegun]), queueOf_tickBegun] at hexec
  have ht := within_tickTraced (tickBegun s n) (failsSet (tickBegun s n) r.ctx ((queueOf s r.ctx).ringFails + 1)) [r]
  have hb := (withinAt_failsSet_tickBegun s n r.ctx ((queueOf s r.ctx).ringFails + 1)).toWithin (fs := [.SERVE_TICKS]) (by simp)
  refine runs_of_settle hexec ⟨?_, ?_⟩
  · rw [queueOf_settled, queueOf_congr (ht.parts .serve (by simp)), queueOf_failsSet]
  · exact ((hb.mono (by simp) (by simp)).trans (ht.mono (by simp) (by simp))).settled

/-- The third failed read in a row disables the context. -/
theorem intakeTick_faults {r : CtlRead} (n : Nat) (hc : r.ctx < 64) (hr : r.readable = false) (hon : intakeOn s r.ctx = true)
    (hf : 2 ≤ (queueOf s r.ctx).ringFails) : Runs (.intakeTick n [r]) s fun v =>
      rd v .SERVE_CTRL_ENABLE r.ctx = 0 ∧ rd v .SERVE_CTRL_FAULTED r.ctx = 1 ∧ v.mem = s.mem ∧ v.serve.items = s.serve.items := by
  obtain ⟨hen, hfault, -, hmem, hitems⟩ := ringFault_disables (failsSet (tickBegun s n) r.ctx 0) r.ctx 0x02
  have hexec := exec_intakeTick_one hc hon n
  rw [visitContext_fails hr, readFailed_faults (by rwa [queueOf_tickBegun])] at hexec
  have ht := within_tickTraced (tickBegun s n) (ringFault (failsSet (tickBegun s n) r.ctx 0) r.ctx 0x02) [r]
  refine runs_of_settle hexec ⟨?_, ?_, ?_, ?_⟩
  · rw [rd_settled_other _ _ _ _ (by decide), ht.regs _ _ (by simp), hen]
  · rw [rd_settled_other _ _ _ _ (by decide), ht.regs _ _ (by simp), hfault]
  · have htraced : _ = _ := ht.parts .mem (by simp)
    have hbegun : _ = _ := (withinAt_failsSet_tickBegun s n r.ctx 0).parts .mem (by simp)
    rw [settled_mem, htraced, hmem, hbegun]
  · have htraced : _ = _ := ht.parts .serve (by simp)
    rw [settled_serve, htraced, hitems]
    rfl

end Sys2Proof.Machine
end

section
/-! O47: polls of the event queue and backlogs (R209, R410, R411); and the obligation. -/

namespace Sys2Proof.Machine

variable {s : State} {c : Nat}

/-! Polls -/

theorem exec_evqPoll_some (hreach : hostReach s c = true) (t x : Nat) : exec (.evqPoll t c (some x)) s = settle s (readConsumer (tick s t) c x) := by
  have htick : hostReach (tick s t) c = true := hreach
  show execEvqPoll t c (some x) s = _
  simp only [execEvqPoll, htick, Bool.true_eq_false, if_false]

theorem exec_evqPoll_none (s : State) (t c : Nat) : exec (.evqPoll t c none) s = settle s (tick s t) := by
  show execEvqPoll t c none s = _
  simp only [execEvqPoll, ite_self]

theorem exec_evqRearmPoll_some (hreach : hostReach s c = true) (harm : (queueOf s c).armed = false) (t x : Nat) :
    exec (.evqRearmPoll t c (some x)) s = settle s (readConsumer (tick s t) c x) := by
  have htick : hostReach (tick s t) c = true := hreach
  have hqueue : (queueOf (tick s t) c).armed = false := harm
  show execEvqRearmPoll t c (some x) s = _
  simp only [execEvqRearmPoll, htick, hqueue, Bool.not_true, Bool.or_self, Bool.false_eq_true, if_false]

theorem exec_evqRearmPoll_none (s : State) (t c : Nat) : exec (.evqRearmPoll t c none) s = settle s (tick s t) := by
  show execEvqRearmPoll t c none s = _
  simp only [execEvqRearmPoll, ite_self]

/-- A read of EVQ_CONSUMER in range gives the queue its room. -/
theorem readConsumer_runs {i : Instr} {t x : Nat} (hexec : exec i s = settle s (readConsumer (tick s t) c x))
    (h : (rd s .SERVE_EVQ_COUNT c + 2 ^ 32 - x) % 2 ^ 32 ≤ evqSize s c) : Runs i s fun v =>
      (queueOf v c).consumer = x ∧ (queueOf v c).noRoom = false ∧ Frame [.now, .rep, .serve] eventFlds s v := by
  have hread := eventsOnly_readConsumer (s := tick s t) h
  refine runs_of_settle hexec ⟨?_, ?_, ?_⟩
  · rw [queueOf_settled, hread.consumer, queueOf_setQueue, consumedQueue]
  · rw [queueOf_settled, hread.noRoom, queueOf_setQueue, consumedQueue]
  · exact (((within_tick s t).mono (by simp) (by simp)).trans (((within_setQueue _ c _).mono (by simp) (by simp)).trans
      ((hread.within.toWithin (eventRegs_flds c)).mono (by simp) (List.Subset.refl _)))).settled

/-- A value out of range disables the context. -/
theorem evqPoll_faults (hreach : hostReach s c = true) {x : Nat}
    (h : evqSize s c < (rd s .SERVE_EVQ_COUNT c + 2 ^ 32 - x) % 2 ^ 32) (hf : rd s .SERVE_CTRL_FAULTED c ≠ 1) (t : Nat) :
    Runs (.evqPoll t c (some x)) s fun v =>
      rd v .SERVE_CTRL_ENABLE c = 0 ∧ rd v .SERVE_CTRL_FAULTED c = 1 ∧ (queueOf v c).noRoom = true := by
  obtain ⟨hen, hfault, hroom, -, -⟩ := ringFault_disables (roomClosed (tick s t) c) c 0x03
  refine runs_of_settle ((exec_evqPoll_some hreach t x).trans (congrArg _ (readConsumer_outOfRange (s := tick s t) h hf))) ⟨?_, ?_, ?_⟩
  · rw [rd_settled_other _ _ _ _ (by decide), hen]
  · rw [rd_settled_other _ _ _ _ (by decide), hfault]
  · rw [queueOf_settled, hroom, queueOf_roomClosed]

/-! Backlogs -/

/-- BACKLOG set for 100 ms tears the context down (R209). -/
theorem backlogTimeout_tears {t since : Nat} (hc : c ≠ 0) (hst : rd s .CTX_STATE_STATE c = 1 ∨ rd s .CTX_STATE_STATE c = 2)
    (hsince : (queueOf s c).backlogSince = some since) (hback : rd s .SERVE_CTRL_BACKLOG c = 1) (hup : rd s .PCIE_LINK_UP = 1)
    (hdue : since + 100000000 ≤ max s.now t) : Runs (.backlogTimeout t c) s fun v =>
      rd v .CTX_STATE_STATE c = 3 ∧ rd v .SERVE_CTRL_ENABLE c = 0 ∧
      rd v .SERVE_BACKLOG_TEARDOWNS = rd (inc s .SERVE_BACKLOG_TEARDOWNS) .SERVE_BACKLOG_TEARDOWNS ∧ v.mem = s.mem := by
  have hexec : exec (.backlogTimeout t c) s = settle s (startTeardown (inc (tick s t) .SERVE_BACKLOG_TEARDOWNS) c 1) := by
    have hqueue : (queueOf (tick s t) c).backlogSince = some since := hsince
    have hset : rdb (tick s t) .SERVE_CTRL_BACKLOG c = true := beq_iff_eq.mpr hback
    have hlink : rdb (tick s t) .PCIE_LINK_UP = true := beq_iff_eq.mpr hup
    have hopen : ¬ (c = 0 ∨ rd (tick s t) .CTX_STATE_STATE c = 0 ∨ rd (tick s t) .CTX_STATE_STATE c = 3) := by
      rw [rd_tick]
      omega
    show execBacklogTimeout t c s = _
    simp only [execBacklogTimeout, hqueue, hset, hlink, tick_now, hdue, if_neg hopen, decide_true, Bool.and_self, if_true]
  have hst' : rd (inc (tick s t) .SERVE_BACKLOG_TEARDOWNS) .CTX_STATE_STATE c = 1 ∨
      rd (inc (tick s t) .SERVE_BACKLOG_TEARDOWNS) .CTX_STATE_STATE c = 2 := by simpa [rd_inc] using hst
  obtain ⟨hstate, hen, hmem⟩ := startTeardown_starts hc hst' 1
  refine runs_of_settle hexec ⟨?_, ?_, ?_, by rw [settled_mem, hmem]; rfl⟩
  · rw [rd_settled_other _ _ _ _ (by decide), hstate]
  · rw [rd_settled_other _ _ _ _ (by decide), hen]
  · rw [rd_settled_other _ _ _ _ (by decide), rd_startTeardown hc hst' 1 (by decide)]
    simp only [rd_inc, rd_tick]

/-! The obligation -/

/-- Settles O47: a tick that reads one control block is the visit of its context (`exec_intakeTick_one`); a read of EVQ_CONSUMER
moves event records alone (`eventsOnly_readConsumer`) or disables the context (`ringFault_disables`). -/
theorem intakeAndPollsRun : Obligations.IntakeAndPollsRun := by
  refine ⟨intakeTick_idle, fun s n r => ?_, fun s n r => ?_, fun s t c x hreach h => ⟨?_, fun harm => ?_⟩,
    fun s t c hreach => ⟨?_, ?_, fun x h hf => evqPoll_faults hreach h hf t⟩, fun s t c since => ?_⟩
  · intro c k hc hr hon hlp hevq _ hpos h256 hsize htick hlen hrecs
    have hne : r.recs ≠ [] := List.length_pos_iff.mp (by omega)
    have hruns := intakeTick_reads n hc hr hon hlp hevq hlen.symm hne (hlen.trans_le h256) (hlen.trans_le hsize) (hlen.trans_le htick) hrecs
    rwa [hlen] at hruns
  · intro c hc hr hon
    exact ⟨intakeTick_fails n hc hr hon, intakeTick_faults n hc hr hon⟩
  · exact readConsumer_runs (exec_evqPoll_some hreach t x) h
  · exact readConsumer_runs (exec_evqRearmPoll_some hreach harm t x) h
  · exact runs_of_settle (exec_evqPoll_none s t c) (within_tick s t).toWithinAt.settled
  · exact runs_of_settle (exec_evqRearmPoll_none s t c) (within_tick s t).toWithinAt.settled
  · exact fun hc hst hsince hback hup hdue => backlogTimeout_tears hc hst hsince hback hup hdue

end Sys2Proof.Machine
end

section
/-! What the end of an item, with those that waited for it, leaves: no item opens, no model appears, and what left the module has. -/

namespace Sys2Proof.Machine

/-! Models -/

theorem freeIndex_models (s : State) (i : Nat) : (freeIndex s i).serve.models = s.serve.models := by
  unfold freeIndex
  split <;> rfl

theorem freeSession_models (s : State) (i : Nat) : (freeSession s i).serve.models = s.serve.models := by
  unfold freeSession
  split
  · rfl
  · split
    · rw [freeIndex_models, freeIndex_models]
    · rw [freeIndex_models]

theorem releaseReserve_serve (s : State) (i : Nat) : (releaseReserve s i).serve = s.serve := by
  have clear : ∀ (t : State) (k : Nat), (match rootAt t k with
      | some r => setRoot t k { r with reserved := if r.st = 4 then committedPages r else 0 }
      | none => t).serve = t.serve := by
    intro t k
    split <;> rfl
  unfold releaseReserve
  dsimp only
  split
  · exact (clear _ _).trans (clear s i)
  · exact clear s i

/-- The final code of a request releases a session at most. -/
theorem sessionAtFinal_models (s : State) (x : Item) : (sessionAtFinal s x).serve.models = s.serve.models := by
  unfold sessionAtFinal
  split
  · rfl
  · next i _ =>
    split
    · extract_lets u
      have hu : u.serve.models = s.serve.models := by rw [releaseReserve_serve]
      split
      · exact hu
      · split
        · exact (freeSession_models u i).trans hu
        · exact hu
    · rfl

/-- The end of one item changes no model. -/
theorem finishItem_models (s : State) (x : Item) (code detail cardId : Nat) :
    (finishItem s x code detail cardId).serve.models = s.serve.models := by
  have hdrop : ∀ u : State, (dropItem u x.ctx x.idx).serve = u.serve := fun u => (within_dropItem u x.ctx x.idx).parts .serve (by simp)
  rw [finishItem_eq, hdrop, sessionAtFinal_models]
  exact (listsKept_finalSent s x code detail cardId).models

/-- A model that goes leaves the others. -/
theorem modelAt_releaseModel_of_ne {n k : Nat} (h : n ≠ k) (s : State) : modelAt (releaseModel s k) n = modelAt s n := by
  have hsess := each_view (fun t : State => t.serve.models) (fun t (e : Nat × Session) => freeSession t e.1)
    (fun t e => freeSession_models t e.1) (s.serve.sessions.filter fun e => !e.2.isCompanion && (e.2.model == k || e.2.draft == k)) s
  refine (storeFind_erase_other _ h).trans ?_
  exact congrArg (fun l => storeFind l n) hsess

/-! Items that end -/

theorem outsKept_lastBlock (s : State) (x : Item) : OutsKept s (lastBlock s x) := by
  unfold lastBlock
  split
  · exact outsKept_emit _ _
  · exact outsKept_emit _ _
  · exact List.Subset.refl _

/-- Items end: nothing but that. -/
structure ItemsEnd (s t : State) : Prop where
  within : ItemFrame s t
  closed : ∀ ctx idx, itemAt s ctx idx = none → itemAt t ctx idx = none
  unloaded : ∀ n, modelAt s n = none → modelAt t n = none
  outs : OutsKept s t

theorem ItemsEnd.refl (s : State) : ItemsEnd s s := ⟨Within.refl _ _ s, fun _ _ h => h, fun _ h => h, List.Subset.refl _⟩

theorem ItemsEnd.trans {s t u : State} (h : ItemsEnd s t) (k : ItemsEnd t u) : ItemsEnd s u :=
  ⟨h.within.trans k.within, fun c i hn => k.closed c i (h.closed c i hn), fun n hn => k.unloaded n (h.unloaded n hn),
    h.outs.trans k.outs⟩

theorem itemAt_finishItem (s : State) (x : Item) (code detail cardId : Nat) :
    itemAt (finishItem s x code detail cardId) x.ctx x.idx = none := by
  rw [itemAt_eq_none_iff, finishItem_items]
  intro z hz
  simpa [← not_and_or] using (List.mem_filter.mp hz).2

theorem itemsEnd_finishItem (s : State) (x : Item) (code detail cardId : Nat) : ItemsEnd s (finishItem s x code detail cardId) := by
  refine ⟨frame_finishItem s x code detail cardId, fun c i hn => ?_, fun n hn => ?_,
    (outsKept_lastBlock s x).trans (outsKept_finishItem s x code detail cardId)⟩
  · rw [itemAt_eq_none_iff] at hn ⊢
    rw [finishItem_items]
    exact fun z hz => hn z (List.mem_filter.mp hz).1
  · rw [modelAt, finishItem_models]
    exact hn

theorem itemsEnd_releaseModel (s : State) (k : Nat) : ItemsEnd s (releaseModel s k) := by
  have hr := released_releaseModel s k
  refine ⟨frame_releaseModel s k, fun c i hn => ?_, fun n hn => ?_, hr.within.outsKept (by simp)⟩
  · rw [itemAt_eq_none_iff] at hn ⊢
    rwa [hr.items]
  · by_cases h : n = k
    · rw [h, modelAt_releaseModel]
    · rw [modelAt_releaseModel_of_ne h, hn]

theorem unmarked_key (s : State) (x i : Item) : (unmarked s x i).ctx = i.ctx ∧ (unmarked s x i).idx = i.idx := by
  unfold unmarked
  split <;> exact ⟨rfl, rfl⟩

/-- Items that waited drop the one that ended. -/
theorem itemsEnd_unmarked (s : State) (x : Item) : ItemsEnd s (updServe s fun v => { v with items := v.items.map (unmarked s x) }) := by
  refine ⟨frame_serve s _, fun c i hn => ?_, fun _ hn => hn, List.Subset.refl _⟩
  rw [itemAt_eq_none_iff] at hn ⊢
  intro z hz
  obtain ⟨y, hy, rfl⟩ := List.mem_map.mp hz
  obtain ⟨hctx, hidx⟩ := unmarked_key s x y
  rw [hctx, hidx]
  exact hn y hy

theorem itemsEnd_settleWaiters (s : State) (x : Item) : ItemsEnd s (settleWaiters s x) := by
  refine (itemsEnd_unmarked s x).trans (each_rel ItemsEnd.refl ItemsEnd.trans (fun t i => ?_) _ _)
  dsimp only
  split
  · exact (itemsEnd_finishItem t i _ _ _).trans (itemsEnd_releaseModel _ _)
  · exact itemsEnd_finishItem t i _ _ _

theorem itemsEnd_endItem (s : State) (x : Item) (code detail cardId : Nat) : ItemsEnd s (endItem s x code detail cardId) :=
  (itemsEnd_finishItem s x code detail cardId).trans (itemsEnd_settleWaiters _ x)

/-- The item that ended is gone. -/
theorem itemAt_endItem (s : State) (x : Item) (code detail cardId : Nat) : itemAt (endItem s x code detail cardId) x.ctx x.idx = none :=
  (itemsEnd_settleWaiters _ x).closed _ _ (itemAt_finishItem s x code detail cardId)

/-- An item that nothing waits for ends alone. -/
theorem endItem_of_unwaited {s : State} {x : Item} (h : unwaited s (x.ctx, x.idx)) (code detail cardId : Nat) :
    endItem s x code detail cardId = finishItem s x code detail cardId :=
  settleWaiters_of_unwaited (unwaited_finishItem code detail cardId fun i hi _ => h i hi)

theorem key_of_itemAt {s : State} {ctx idx : Nat} {x : Item} (h : itemAt s ctx idx = some x) : x.ctx = ctx ∧ x.idx = idx := by
  have hkey := List.find?_some h
  simpa using hkey

theorem itemAt_settled (s t : State) (ctx idx : Nat) : itemAt (settled s t) ctx idx = itemAt t ctx idx := rfl

theorem modelAt_settled (s t : State) (n : Nat) : modelAt (settled s t) n = modelAt t n := rfl

end Sys2Proof.Machine
end

section
/-! O46: the cards and sections of a bundle (R198, R400, R477, R478). -/

namespace Sys2Proof.Machine

variable {s : State} {n : Nat} {m : Model} {e : (Nat × Nat × Nat) × List Nat}

/-! Loads that fail -/

theorem within_dropLoad (s : State) (n : Nat) : Within [.tt] [] s (dropLoad s n) := by
  unfold dropLoad
  dsimp only
  split
  · exact Within.refl _ _ s
  · exact (within_tt s _).trans (within_keepBoundary _ _)

/-- The load of a model has ended: the model and the item are gone (R198). -/
def LoadFailed (n : Nat) (k : Nat × Nat) (s v : State) : Prop :=
  modelAt v n = none ∧ itemAt v k.1 k.2 = none ∧ Within [.lard, .rep, .serve, .tt] itemFlds s v

theorem failLoad_fails (s : State) (n : Nat) (m : Model) (code detail cardId : Nat) :
    LoadFailed n m.owner s (failLoad s n m code detail cardId) := by
  let u := dropLoad (updServe s fun v => { v with models := storeErase v.models n }) n
  have hserve : u.serve = { s.serve with models := storeErase s.serve.models n } := (within_dropLoad _ n).parts .serve (by simp)
  have hmodel : modelAt u n = none := by
    rw [modelAt, hserve]
    exact storeFind_erase_same _ _
  have hu : Within [.lard, .rep, .serve, .tt] itemFlds s u :=
    ((within_serve s _).mono (by simp) (by simp)).trans ((within_dropLoad _ n).mono (by simp) (by simp))
  have hfail : failLoad s n m code detail cardId = match itemAt u m.owner.1 m.owner.2 with
      | some x => endItem u x code detail cardId
      | none => u := rfl
  rw [hfail]
  split
  · next x hx =>
    obtain ⟨hctx, hidx⟩ := key_of_itemAt hx
    have hend := itemsEnd_endItem u x code detail cardId
    refine ⟨hend.unloaded n hmodel, ?_, hu.trans (hend.within.mono (by simp) (List.Subset.refl _))⟩
    rw [← hctx, ← hidx]
    exact itemAt_endItem u x code detail cardId
  · next hx => exact ⟨hmodel, hx, hu⟩

/-- A command whose load fails. -/
theorem loadFailed_runs {c : Instr} {t : Nat} {v : State} {k : Nat × Nat} (hexec : exec c s = settle s v)
    (h : LoadFailed n k (tick s t) v) : Runs c s fun v =>
      modelAt v n = none ∧ itemAt v k.1 k.2 = none ∧ Frame [.lard, .now, .rep, .serve, .tt] itemFlds s v := by
  obtain ⟨hmodel, hitem, hw⟩ := h
  refine runs_of_settle hexec ⟨hmodel, hitem, ?_⟩
  exact (((within_tick s t).mono (by simp) (by simp)).trans (hw.mono (by simp) (List.Subset.refl _))).settled

/-! Models that are stored -/

/-- The state with a model as a part of its bundle leaves it. -/
def modelStored (s : State) (n : Nat) (m : Model) : State := updServe s fun v => { v with models := storeInsert v.models n m }

theorem within_modelStored (s : State) (n : Nat) (m : Model) : Within [.serve] [] s (modelStored s n m) := within_serve s _

theorem modelAt_modelStored (s : State) (n : Nat) (m : Model) : modelAt (modelStored s n m) n = some m := storeFind_insert_same _ _ _

/-- A part that is stored. -/
theorem modelStored_runs {c : Instr} {t : Nat} (hexec : exec c s = settle s (modelStored (tick s t) n m)) : Runs c s fun v =>
    modelAt v n = some m ∧ Frame [.now, .serve] [] s v :=
  runs_of_settle hexec ⟨modelAt_modelStored _ n m,
    (((within_tick s t).mono (by simp) (by simp)).trans ((within_modelStored _ n m).mono (by simp) (by simp))).settled⟩

/-- A part that is stored once memory has been written. -/
theorem storedAfter_runs {c : Instr} {u : State} {k : Memory} (hexec : exec c s = settle s (modelStored u n m))
    (hu : Within [.mem, .now] [] s u) (hmem : u.mem = k) : Runs c s fun v =>
      modelAt v n = some m ∧ v.mem = k ∧ Frame [.mem, .now, .serve] [] s v := by
  have hstored := within_modelStored u n m
  refine runs_of_settle hexec ⟨modelAt_modelStored u n m, ?_, ?_⟩
  · rw [settled_mem, ← hmem]
    exact hstored.parts .mem (by simp)
  · exact ((hu.mono (by simp) (by simp)).trans (hstored.mono (by simp) (by simp))).settled

/-! Sections that end -/

/-- The bytes of a bundle up to a section's end have its length, and the section its digest. -/
abbrev sectionIntact (e : (Nat × Nat × Nat) × List Nat) (l : List Nat) : Prop :=
  l.length = e.1.2.1 + e.1.2.2 ∧ sha256 (l.drop e.1.2.1) = e.2

/-- A model with a section more. -/
abbrev withSection (m : Model) (e : (Nat × Nat × Nat) × List Nat) : Model := { m with arrived := m.arrived ++ [e.1.1] }

theorem sectionEnds_of_bad (h : ¬ sectionIntact e m.image) : sectionEnds s n m e = failLoad s n m 0x30 0x4F 0 := if_neg h

theorem sectionEnds_fails {x : Model} (howner : x.owner = m.owner) (h : ¬ sectionIntact e x.image) :
    LoadFailed n m.owner s (sectionEnds s n x e) := by
  rw [sectionEnds_of_bad h, ← howner]
  exact failLoad_fails s n x _ _ _

/-- A good section that is not the last. -/
theorem sectionEnds_of_more (h : sectionIntact e m.image)
    (hmore : ∃ x ∈ m.header.sections, x.1 ≠ e.1.1 ∧ x.1 ∉ m.arrived) : sectionEnds s n m e = modelStored s n (withSection m e) := by
  obtain ⟨x, hx, hne, hnot⟩ := hmore
  have hall : ¬ m.header.sections.all (fun y => decide (y.1 ∈ m.arrived ++ [e.1.1])) = true := by
    rw [List.all_eq_true]
    intro hall
    have := hall x hx
    simp_all
  exact (if_pos h).trans (if_neg hall)

/-- The fields of a model's layout. -/
def layoutFlds : List Fld :=
  [.LARDER_LAYOUT_LAYERS, .LARDER_LAYOUT_LATENT_UNITS, .LARDER_LAYOUT_LATENT_FMT, .LARDER_LAYOUT_ROPE_UNITS, .LARDER_LAYOUT_ROPE_FMT,
    .LARDER_LAYOUT_SLAB_UNITS, .LARDER_LAYOUT_VALID]

theorem within_setLayout (s : State) (n v : Nat) : Within [] layoutFlds s (setLayout s n v) := by
  have put : ∀ (u : State) (f : Fld) (k : Nat), f ∈ layoutFlds → Within [] layoutFlds u (wr u f n k) := fun u f k hf =>
    (within_wr u f n k).mono (by simp) (by simpa using hf)
  exact ((put _ _ _ (by decide)).trans ((put _ _ _ (by decide)).trans ((put _ _ _ (by decide)).trans ((put _ _ _ (by decide)).trans
    ((put _ _ _ (by decide)).trans ((put _ _ _ (by decide)).trans (put _ _ _ (by decide))))))))

/-- A model whose bundle has arrived whole. -/
def loadedModel (m : Model) : Model := { m with st := .loaded, digest := leNum (sha256 m.image), image := [] }

/-- The state in which the load of a model ends. -/
def modelLoaded (s : State) (n : Nat) (m : Model) : State := modelStored (setLayout s n m.header.layout) n (loadedModel m)

theorem within_modelLoaded (s : State) (n : Nat) (m : Model) : Within [.serve] layoutFlds s (modelLoaded s n m) :=
  ((within_setLayout s n _).mono (by simp) (List.Subset.refl _)).trans ((within_modelStored _ n _).mono (by simp) (by simp))

/-- The last section of a bundle loads its model and ends its item. -/
theorem sectionEnds_of_last {x : Item} (h : sectionIntact e m.image) (hall : ∀ y ∈ m.header.sections, y.1 ∈ m.arrived ++ [e.1.1])
    (hx : itemAt s m.owner.1 m.owner.2 = some x) : sectionEnds s n m e =
      endItem (modelLoaded s n (withSection m e)) (completed (modelLoaded s n (withSection m e)) x) 0x01 0x07 := by
  have hsome : itemAt (modelLoaded s n (withSection m e)) m.owner.1 m.owner.2 = some x := hx
  have hgo : m.header.sections.all (fun y => decide (y.1 ∈ m.arrived ++ [e.1.1])) = true := by
    rw [List.all_eq_true]
    exact fun y hy => decide_eq_true (hall y hy)
  refine ((if_pos h).trans (if_pos hgo)).trans ?_
  show (match itemAt (modelLoaded s n (withSection m e)) m.owner.1 m.owner.2 with
    | some x => endItem (modelLoaded s n (withSection m e)) (completed (modelLoaded s n (withSection m e)) x) 0x01 0x07
    | none => modelLoaded s n (withSection m e)) = _
  rw [hsome]

/-! Parts that arrive -/

theorem exec_bundleSectionArrival_readFailed (hm : modelAt s n = some m) (hst : m.st = .loading) (t : Nat) :
    exec (.bundleSectionArrival t n .readFailed) s = settle s (failLoad (tick s t) n m 0x23 0x05 0) := by
  have htick : modelAt (tick s t) n = some m := hm
  show execBundleSectionArrival t n .readFailed s = _
  simp only [execBundleSectionArrival, htick, hst, ne_eq, not_true_eq_false, if_false, if_true]

theorem exec_bundleSectionArrival (hm : modelAt s n = some m) (hst : m.st = .loading) (he : dueSection m = some e) {part : BundlePart}
    (hpart : part ≠ .readFailed) (t : Nat) :
    exec (.bundleSectionArrival t n part) s = settle s (partArrives (tick s t) n m e part) := by
  have htick : modelAt (tick s t) n = some m := hm
  show execBundleSectionArrival t n part s = _
  simp only [execBundleSectionArrival, htick, hst, he, ne_eq, not_true_eq_false, if_false, if_neg hpart]

/-- A model with the bytes of a section that has arrived whole. -/
abbrev withBytes (m : Model) (e : (Nat × Nat × Nat) × List Nat) (b : List Nat) : Model := { m with image := padTo e.1.2.1 m.image ++ b }

/-- A model with the recipe of its bundle. -/
abbrev withRecipe (m : Model) (r : Recipe) : Model := { m with recipe := r }

/-- A model with the target sets of its bundle. -/
abbrev withTargetSets (m : Model) (sets : List (Nat × List Target478)) : Model := { m with targetSets := sets }

/-- A model with the columns of its bundle. -/
abbrev withColumnMap (m : Model) (rows : List (List Nat)) : Model := { m with columnMap := rows }

/-- A model with a card more. -/
abbrev withCard (m : Model) (e : (Nat × Nat × Nat) × List Nat) (b : List Nat) (progs : List (List Nat)) : Model :=
  { m with
    cards := m.cards ++ [cardOfBytes b progs]
    image := padTo (max e.1.2.1 (ceilDiv m.image.length 64 * 64)) m.image ++ b }

theorem partArrives_goodCard (he : e.1.1 = 0x04) {b : List Nat} {progs : List (List Nat)}
    (hc : validateCard (layersOf s n m) m.cards (cardOfBytes b progs) = none) :
    partArrives s n m e (.card b progs) = modelStored s n (withCard m e b progs) := by
  simp only [partArrives, he, hc]
  rfl

theorem partArrives_badCard (he : e.1.1 = 0x04) {b : List Nat} {progs : List (List Nat)}
    (hc : validateCard (layersOf s n m) m.cards (cardOfBytes b progs) ≠ none) :
    LoadFailed n m.owner s (partArrives s n m e (.card b progs)) := by
  obtain ⟨reason, hreason⟩ := Option.ne_none_iff_exists'.mp hc
  simp only [partArrives, he, hreason]
  exact failLoad_fails s n m _ _ _

theorem partArrives_cardsEnd (he : e.1.1 = 0x04) : partArrives s n m e .cardsEnd =
    sectionEnds s n { m with image := padTo (e.1.2.1 + e.1.2.2) m.image } e := by
  simp only [partArrives, he]

theorem partArrives_recipe (he : e.1.1 = 0x03) (b : List Nat) (r : Recipe) :
    partArrives s n m e (.recipe b r) = sectionEnds s n (withRecipe (withBytes m e b) r) e := by
  simp only [partArrives, he]

theorem partArrives_targetSets (he : e.1.1 = 0x01) (b : List Nat) : partArrives s n m e (.whole 0x01 b) =
    match targetSetsOf b with
    | some sets => sectionEnds s n (withTargetSets (withBytes m e b) sets) e
    | none => failLoad s n m 0x30 0x4F 0 := by
  simp only [partArrives, he]
  rfl

theorem partArrives_columnMap (he : e.1.1 = 0x02) (b : List Nat) : partArrives s n m e (.whole 0x02 b) =
    match columnMapOf m.targetSets b with
    | some rows => sectionEnds s n (withColumnMap (withBytes m e b) rows) e
    | none => failLoad s n m 0x30 0x4F 0 := by
  simp only [partArrives, he]
  rfl

theorem partArrives_weights {w : Nat} (hw : w < 4) (he : e.1.1 = 0x10 + w) (b : List Nat) :
    partArrives s n m e (.whole (0x10 + w) b) =
      sectionEnds (storeImage w (modelChans m w) (m.weightRows.getD w (0, 0)).1 b s) n (withBytes m e b) e := by
  obtain rfl | rfl | rfl | rfl : w = 0 ∨ w = 1 ∨ w = 2 ∨ w = 3 := by omega
  all_goals simp [partArrives, he]

/-! Weights -/

theorem within_storeStripe (w : Nat) (l : List Nat) (k : Nat) (data : List Nat) (s : State) :
    Within [.mem] [] s (storeStripe w l k data s) :=
  (within_writeBytes _ _ s).trans (within_each _ (fun t (e : List Nat × Nat) => within_writeBytes e.1 _ t) _ _)

theorem within_storeImage (w : Nat) (l : List Nat) (k : Nat) (b : List Nat) (s : State) :
    Within [.mem] [] s (storeImage w l k b s) := within_each _ (fun t (_ : Nat) => within_storeStripe w l _ _ t) _ s

theorem writeByte_tick (s : State) (t a v : Nat) : writeByte (tick s t) a v = tick (writeByte s a v) t := by
  have hvalid : lineValid (tick s t) a = lineValid s a := rfl
  unfold writeByte
  rw [hvalid]
  split <;> rfl

theorem writeBytes_tick (t : Nat) : ∀ (l : List Nat) (a : Nat) (s : State), writeBytes l a (tick s t) = tick (writeBytes l a s) t
  | [], _, _ => rfl
  | v :: r, a, s => by
    unfold writeBytes
    rw [writeByte_tick, writeBytes_tick t r]

theorem storeStripe_tick (w : Nat) (l : List Nat) (k : Nat) (data : List Nat) (s : State) (t : Nat) :
    storeStripe w l k data (tick s t) = tick (storeStripe w l k data s) t := by
  unfold storeStripe
  extract_lets d u v
  have hu : u = tick v t := writeBytes_tick t _ _ s
  rw [hu]
  exact List.foldl_hom (fun x => tick x t) fun x y => writeBytes_tick t _ _ x

/-- The time does not enter what a weight image's stripes hold. -/
theorem storeImage_tick (w : Nat) (l : List Nat) (k : Nat) (b : List Nat) (s : State) (t : Nat) :
    storeImage w l k b (tick s t) = tick (storeImage w l k b s) t :=
  List.foldl_hom (fun x => tick x t) fun x _ => storeStripe_tick w l _ _ x t

/-! The commands -/

section Arrivals
variable (hm : modelAt s n = some m) (hst : m.st = .loading) (he : dueSection m = some e) (t : Nat)
include hm hst he

theorem card_arrives (h4 : e.1.1 = 0x04) {b : List Nat} {progs : List (List Nat)}
    (hc : validateCard (layersOf s n m) m.cards (cardOfBytes b progs) = none) :
    Runs (.bundleSectionArrival t n (.card b progs)) s fun v =>
      modelAt v n = some (withCard m e b progs) ∧ Frame [.now, .serve] [] s v :=
  modelStored_runs ((exec_bundleSectionArrival hm hst he (by simp) t).trans (by rw [partArrives_goodCard (s := tick s t) h4 hc]))

theorem card_fails (h4 : e.1.1 = 0x04) {b : List Nat} {progs : List (List Nat)}
    (hc : validateCard (layersOf s n m) m.cards (cardOfBytes b progs) ≠ none) :
    Runs (.bundleSectionArrival t n (.card b progs)) s fun v =>
      modelAt v n = none ∧ itemAt v m.owner.1 m.owner.2 = none ∧ Frame [.lard, .now, .rep, .serve, .tt] itemFlds s v :=
  loadFailed_runs (exec_bundleSectionArrival hm hst he (by simp) t) (partArrives_badCard (s := tick s t) h4 hc)

/-- A section that arrives whole and good, before others. -/
theorem section_arrives {part : BundlePart} (hpart : part ≠ .readFailed) {x : Model}
    (hp : partArrives (tick s t) n m e part = sectionEnds (tick s t) n x e) (hgood : sectionIntact e x.image)
    (hmore : ∃ y ∈ x.header.sections, y.1 ≠ e.1.1 ∧ y.1 ∉ x.arrived) : Runs (.bundleSectionArrival t n part) s fun v =>
      modelAt v n = some (withSection x e) ∧ Frame [.now, .serve] [] s v :=
  modelStored_runs ((exec_bundleSectionArrival hm hst he hpart t).trans (by rw [hp, sectionEnds_of_more hgood hmore]))

/-- A section that fails its check. -/
theorem section_fails {part : BundlePart} (hpart : part ≠ .readFailed) (hp : LoadFailed n m.owner (tick s t)
    (partArrives (tick s t) n m e part)) : Runs (.bundleSectionArrival t n part) s fun v =>
      modelAt v n = none ∧ itemAt v m.owner.1 m.owner.2 = none ∧ Frame [.lard, .now, .rep, .serve, .tt] itemFlds s v :=
  loadFailed_runs (exec_bundleSectionArrival hm hst he hpart t) hp

theorem weights_arrive {w : Nat} (hw : w < 4) (h10 : e.1.1 = 0x10 + w) {b : List Nat} (hgood : sectionIntact e (withBytes m e b).image)
    (hmore : ∃ y ∈ m.header.sections, y.1 ≠ e.1.1 ∧ y.1 ∉ m.arrived) :
    Runs (.bundleSectionArrival t n (.whole (0x10 + w) b)) s fun v =>
      modelAt v n = some (withSection (withBytes m e b) e) ∧
      v.mem = (storeImage w (modelChans m w) (m.weightRows.getD w (0, 0)).1 b s).mem ∧ Frame [.mem, .now, .serve] [] s v := by
  have hexec := exec_bundleSectionArrival hm hst he (part := .whole (0x10 + w) b) (by simp) t
  rw [partArrives_weights hw h10, sectionEnds_of_more hgood hmore, storeImage_tick] at hexec
  exact storedAfter_runs hexec (((within_storeImage w _ _ b s).mono (by simp) (by simp)).trans
    ((within_tick _ t).mono (by simp) (by simp))) (tick_mem _ t)

/-- The last of a bundle's cards loads its model. -/
theorem cards_end {x : Item} (h4 : e.1.1 = 0x04) (hgood : sectionIntact e (padTo (e.1.2.1 + e.1.2.2) m.image))
    (hall : ∀ y ∈ m.header.sections, y.1 ∈ m.arrived ++ [0x04]) (hx : itemAt s m.owner.1 m.owner.2 = some x)
    (hfree : unwaited s m.owner) : Runs (.bundleSectionArrival t n .cardsEnd) s fun v =>
      (∃ y, modelAt v n = some y ∧ y.st = .loaded ∧ y.digest = leNum (sha256 (padTo (e.1.2.1 + e.1.2.2) m.image))) ∧
      itemAt v m.owner.1 m.owner.2 = none ∧ v.mem = s.mem := by
  let y : Model := { m with image := padTo (e.1.2.1 + e.1.2.2) m.image }
  let u := modelLoaded (tick s t) n (withSection y e)
  obtain ⟨hctx, hidx⟩ := key_of_itemAt hx
  have hexec := exec_bundleSectionArrival hm hst he (part := .cardsEnd) (by simp) t
  rw [partArrives_cardsEnd h4, sectionEnds_of_last (m := y) (s := tick s t) hgood (by rwa [h4]) hx] at hexec
  have hkey : ((completed u x).ctx, (completed u x).idx) = m.owner := Prod.ext hctx hidx
  have hwait : unwaited u ((completed u x).ctx, (completed u x).idx) := by
    rw [hkey]
    exact unwaited_congr hfree rfl
  have hgone := itemAt_endItem u (completed u x) 0x01 0x07 0
  have hmem := (itemsEnd_endItem u (completed u x) 0x01 0x07 0).within.parts .mem (by simp)
  have hloaded := (within_modelLoaded (tick s t) n (withSection y e)).parts .mem (by simp)
  refine runs_of_settle hexec ⟨⟨loadedModel (withSection y e), ?_, rfl, rfl⟩, ?_, ?_⟩
  · rw [modelAt_settled, endItem_of_unwaited hwait, modelAt, finishItem_models]
    exact modelAt_modelStored _ n _
  · rw [itemAt_settled, ← hctx, ← hidx]
    exact hgone
  · rw [settled_mem]
    exact Eq.trans hmem hloaded

end Arrivals

end Sys2Proof.Machine
end

section
/-! O46: images of adapters, releases, checkpoints, reports and keys; and the obligation. -/

namespace Sys2Proof.Machine

variable {s : State}

/-! Images of adapters (R231, R232) -/

theorem exec_adapterImageAuthenticated {ctx idx slot : Nat} {x : Item} (hx : itemAt s ctx idx = some x) (hslot : x.slot = some slot)
    (hstop : x.stop = 0) (hop : x.opcode = 0x10) (t : Nat) (hdr : Option (List Nat)) (ok : Bool) (img : List Nat) :
    exec (.adapterImageAuthenticated t ctx idx hdr ok img) s = settle s (finishLoad (tick s t) x slot hdr ok img) := by
  have htick : itemAt (tick s t) ctx idx = some x := hx
  show execAdapterImageAuthenticated t ctx idx hdr ok img s = _
  simp only [execAdapterImageAuthenticated, htick, hslot, hstop, hop, ne_eq, not_true_eq_false, if_false, if_true]

theorem within_zeroPart (s : State) (a n : Nat) (f : Memory → Memory) : Within [.mem] [] s (updMem (zeroRange s a n) f) :=
  (within_zeroRange s a n).trans (within_mem _ f)

theorem within_zeroParts (s : State) (e : PEntry) : Within [.mem] [] s (zeroParts s e) :=
  within_each _ (fun t (_ : Nat) => within_zeroPart t _ _ _) _ s

theorem within_writeParts (s : State) (e : PEntry) (body : List Nat) : Within [.mem] [] s (writeParts s e body) := by
  unfold writeParts
  split
  · exact Within.refl _ _ s
  · refine (within_zeroParts s e).trans (within_each _ (fun t w => ?_) _ _)
    split
    · exact Within.refl _ _ t
    · exact within_writeBytes _ _ t

theorem imageFault_setItem (s : State) (x : Item) (load : Bool) (bytes model : Nat) (hdr : Option (List Nat)) (ok : Bool)
    (img : List Nat) : imageFault (setItem s x) load bytes model hdr ok img = imageFault s load bytes model hdr ok img := rfl

/-- The item of a load whose image has been looked at. -/
abbrev imageSeen (s : State) (x : Item) : State := setItem s { x with stop := 1 }

theorem finishLoad_of_good {x : Item} {slot : Nat} {hdr : Option (List Nat)} {ok : Bool} {img : List Nat} {e : PEntry}
    (hgood : imageFault s true (x.data.getD 0 0) x.model hdr ok img = none)
    (he : buildEntry (imageSeen s x) 2 x.ctx (imageOf img).rank x.model (imageOf img).targetSet (imageOf img).format
      (imageOf img).alpha 0 = some e) :
    finishLoad s x slot hdr ok img = queueEdit (inc (writeParts (imageSeen s x) e (bodyInSetOrder (imageSeen s x) x.model (imageOf img)))
      .PANNIER_LOADS) slot e (some (x.ctx, x.idx, 1, 0x07)) := by
  unfold finishLoad
  dsimp only
  rw [imageFault_setItem, hgood]
  dsimp only
  rw [he]

theorem finishLoad_of_bad {x : Item} {slot : Nat} {hdr : Option (List Nat)} {ok : Bool} {img : List Nat}
    (hbad : imageFault s true (x.data.getD 0 0) x.model hdr ok img = some (0x30, 0x48)) : finishLoad s x slot hdr ok img =
      queueEdit (inc (imageSeen s x) .PANNIER_AUTH_FAIL) slot freeEntry (some (x.ctx, x.idx, 0x30, 0x48)) := by
  unfold finishLoad
  dsimp only
  rw [imageFault_setItem, hbad]
  rfl

/-- An entry that waits for the flip, once a load's outcome has been counted. -/
theorem plannedEntry_queueEdit (s u : State) (slot : Nat) (e : PEntry) (f : Option (Nat × Nat × Nat × Nat)) :
    plannedEntry (settled s (queueEdit u slot e f)) slot = e := by
  refine plannedEntry_of_last (l := u.pann.edits) (f := f) ?_
  rw [settled_pann, queueEdit_pann]

/-- A good image is written, and its entry is READY at the next flip. -/
theorem adapterImage_good {ctx idx slot : Nat} {x : Item} (hx : itemAt s ctx idx = some x) (hslot : x.slot = some slot)
    (hstop : x.stop = 0) (hop : x.opcode = 0x10) (t : Nat) {hdr : Option (List Nat)} {ok : Bool} {img : List Nat} {e : PEntry}
    (hgood : imageFault (tick s t) true (x.data.getD 0 0) x.model hdr ok img = none)
    (he : buildEntry (imageSeen (tick s t) x) 2 x.ctx (imageOf img).rank x.model (imageOf img).targetSet (imageOf img).format
      (imageOf img).alpha 0 = some e) :
    Runs (.adapterImageAuthenticated t ctx idx hdr ok img) s fun v =>
      plannedEntry v slot = e ∧ rd v .PANNIER_LOADS = rd (inc s .PANNIER_LOADS) .PANNIER_LOADS ∧
      Frame [.mem, .now, .pann, .serve, .tt] [.PANNIER_LOADS] s v := by
  let u := writeParts (imageSeen (tick s t) x) e (bodyInSetOrder (imageSeen (tick s t) x) x.model (imageOf img))
  have hu : Within [.mem, .now, .serve] [] s u :=
    ((within_tick s t).mono (by simp) (by simp)).trans (((within_setItem _ _).mono (by simp) (by simp)).trans
      ((within_writeParts _ _ _).mono (by simp) (by simp)))
  have hq := within_queueEdit (inc u .PANNIER_LOADS) slot e (some (x.ctx, x.idx, 1, 0x07))
  have hexec := exec_adapterImageAuthenticated hx hslot hstop hop t hdr ok img
  rw [finishLoad_of_good hgood he] at hexec
  refine runs_of_settle hexec ⟨plannedEntry_queueEdit _ _ _ _ _, ?_, ?_⟩
  · rw [rd_settled_other _ _ _ _ (by decide), hq.regs _ _ (by simp)]
    simp only [rd_inc, hu.regs _ _ List.not_mem_nil]
  · exact ((hu.mono (by simp) (by simp)).trans (((within_inc u _ _ _).mono (by simp) (by simp)).trans
      (hq.mono (by simp) (by simp)))).settled

/-- An image whose tag is wrong leaves its entry FREE at the next flip. -/
theorem adapterImage_bad {ctx idx slot : Nat} {x : Item} (hx : itemAt s ctx idx = some x) (hslot : x.slot = some slot)
    (hstop : x.stop = 0) (hop : x.opcode = 0x10) (t : Nat) {hdr : Option (List Nat)} {ok : Bool} {img : List Nat}
    (hbad : imageFault (tick s t) true (x.data.getD 0 0) x.model hdr ok img = some (0x30, 0x48)) :
    Runs (.adapterImageAuthenticated t ctx idx hdr ok img) s fun v =>
      plannedEntry v slot = freeEntry ∧ rd v .PANNIER_AUTH_FAIL = rd (inc s .PANNIER_AUTH_FAIL) .PANNIER_AUTH_FAIL ∧
      Frame [.now, .pann, .serve, .tt] [.PANNIER_AUTH_FAIL] s v := by
  let u := imageSeen (tick s t) x
  have hu : Within [.now, .serve] [] s u :=
    ((within_tick s t).mono (by simp) (by simp)).trans ((within_setItem _ _).mono (by simp) (by simp))
  have hq := within_queueEdit (inc u .PANNIER_AUTH_FAIL) slot freeEntry (some (x.ctx, x.idx, 0x30, 0x48))
  have hexec := exec_adapterImageAuthenticated hx hslot hstop hop t hdr ok img
  rw [finishLoad_of_bad hbad] at hexec
  refine runs_of_settle hexec ⟨plannedEntry_queueEdit _ _ _ _ _, ?_, ?_⟩
  · rw [rd_settled_other _ _ _ _ (by decide), hq.regs _ _ (by simp)]
    simp only [rd_inc, hu.regs _ _ List.not_mem_nil]
  · exact ((hu.mono (by simp) (by simp)).trans (((within_inc u _ _ _).mono (by simp) (by simp)).trans
      (hq.mono (by simp) (by simp)))).settled

/-! Releases (R233) -/

theorem readByte_zeroRange_inside {a n b : Nat} (h : a ≤ b ∧ b < a + n) (s : State) : readByte (zeroRange s a n) b = 0 := by
  have hzero : storeGet (0 : Byte) (zeroRange s a n).mem.bytes b = 0 := by
    show storeGet (0 : Byte) (storeKeep (fun k => !(decide (a ≤ k) && decide (k < a + n))) s.mem.bytes) b = 0
    rw [storeGet_keep]
    simp [h]
  unfold readByte
  rw [hzero]
  split <;> rfl

theorem readByte_zeroRange_of_zero {b : Nat} (s : State) (a n : Nat) (h : readByte s b = 0) : readByte (zeroRange s a n) b = 0 := by
  by_cases hin : a ≤ b ∧ b < a + n
  · exact readByte_zeroRange_inside hin s
  · rw [bytesKept_zeroRange s a n b (by omega), h]

/-- A wing's part of an entry is zeroed, and its poison cleared. -/
def zeroPart (s : State) (e : PEntry) (w : Nat) : State :=
  updMem (zeroRange s (partAddr s w e) (e.partUnits.getD w 0 * 4096)) fun m => { m with
    poison := m.poison.filter fun b => !(decide (partAddr s w e / 4096 ≤ b) && decide (b < partAddr s w e / 4096 + e.partUnits.getD w 0)) }

theorem zeroParts_eq (s : State) (e : PEntry) : zeroParts s e = each (List.range 4) s fun t w => zeroPart t e w := rfl

theorem readByte_zeroPart (s : State) (e : PEntry) (w b : Nat) :
    readByte (zeroPart s e w) b = readByte (zeroRange s (partAddr s w e) (e.partUnits.getD w 0 * 4096)) b := rfl

theorem partAddr_zeroPart (s : State) (e e' : PEntry) (w v : Nat) : partAddr (zeroPart s e v) w e' = partAddr s w e' := rfl

/-- Every byte of an entry's parts on the wings of a list reads zero once they were zeroed. -/
theorem readByte_each_zeroPart (e : PEntry) : ∀ (l : List Nat) (s : State) (w i : Nat),
    w ∈ l ∧ i < e.partUnits.getD w 0 * 4096 ∨ readByte s (partAddr s w e + i) = 0 →
    readByte (each l s fun t w => zeroPart t e w) (partAddr s w e + i) = 0
  | [], _, _, _, h => h.resolve_left fun hm => List.not_mem_nil hm.1
  | v :: rest, s, w, i, h => by
    refine readByte_each_zeroPart e rest (zeroPart s e v) w i ?_
    rw [partAddr_zeroPart, readByte_zeroPart]
    obtain ⟨hm, hi⟩ | hz := h
    · obtain rfl | hm := List.mem_cons.mp hm
      · exact Or.inr (readByte_zeroRange_inside ⟨by omega, by omega⟩ s)
      · exact Or.inl ⟨hm, hi⟩
    · exact Or.inr (readByte_zeroRange_of_zero s _ _ hz)

/-- The entry changes that free a slot: one, and one more for each item whose FINAL follows. -/
def slotFreed (u : State) (slot : Nat) (ks : List (Nat × Nat × Nat × Nat)) : State :=
  each ks (queueEdit u slot freeEntry none) fun v k => queueEdit v slot freeEntry (some k)

theorem within_slotFreed (u : State) (slot : Nat) (ks : List (Nat × Nat × Nat × Nat)) :
    Within [.pann, .tt] [] u (slotFreed u slot ks) :=
  (within_queueEdit u slot freeEntry none).trans (within_each _ (fun v k => within_queueEdit v slot freeEntry (some k)) ks _)

/-- After them the slot is planned to be FREE, and no release more is under way. -/
theorem slotFreed_pann (u : State) (slot : Nat) (ks : List (Nat × Nat × Nat × Nat)) :
    (∃ l f, (slotFreed u slot ks).pann.edits = l ++ [⟨slot, freeEntry, f⟩]) ∧
      (slotFreed u slot ks).pann.releases = u.pann.releases := by
  refine each_keep (p := fun v : State => (∃ l f, v.pann.edits = l ++ [⟨slot, freeEntry, f⟩]) ∧ v.pann.releases = u.pann.releases)
    (fun v k => queueEdit v slot freeEntry (some k)) (fun v k h => ?_) ks _ ?_
  · rw [queueEdit_pann]
    exact ⟨⟨_, _, rfl⟩, h.2⟩
  · rw [queueEdit_pann]
    exact ⟨⟨_, _, rfl⟩, rfl⟩

/-- The release of a slot that held an entry is over. -/
def releaseOver (s : State) (slot : Nat) (e : PEntry) : State :=
  updPann (zeroParts s e) fun p => { p with releases := p.releases.filter fun x => x.slot != slot }

theorem exec_releaseZeroingDone {slot : Nat} {r : Release} (hr : s.pann.releases.find? (fun x => x.slot == slot) = some r)
    (hst : (activeEntry s slot).st = 4) (hfree : r.teardown = true ∨ slotNamed s slot r.items = false) (t : Nat) :
    exec (.releaseZeroingDone t slot) s =
      settle s (slotFreed (releaseOver (tick s t) slot (activeEntry s slot)) slot (r.items.map fun k => (k.1, k.2, 1, 0x07))) := by
  have hgo : ¬ ((activeEntry (tick s t) slot).st ≠ 4 ∨ (r.teardown = false ∧ slotNamed (tick s t) slot r.items = true)) := by
    have hst' : (activeEntry (tick s t) slot).st = 4 := hst
    have hnamed : slotNamed (tick s t) slot r.items = slotNamed s slot r.items := rfl
    rw [hnamed]
    rcases hfree with h | h <;> simp [hst', h]
  show execReleaseZeroingDone t slot s = _
  simp only [execReleaseZeroingDone, tick_pann, hr, if_neg hgo]
  rfl

theorem releaseZeroingDone_runs {slot : Nat} {r : Release} (hr : s.pann.releases.find? (fun x => x.slot == slot) = some r)
    (hst : (activeEntry s slot).st = 4) (hfree : r.teardown = true ∨ slotNamed s slot r.items = false) (t : Nat) :
    Runs (.releaseZeroingDone t slot) s fun v =>
      plannedEntry v slot = freeEntry ∧ (∀ x ∈ v.pann.releases, x.slot ≠ slot) ∧
      (∀ w i, w < 4 → i < (activeEntry s slot).partUnits.getD w 0 * 4096 →
        readByte v (partAddr s w (activeEntry s slot) + i) = 0) ∧
      Frame [.mem, .now, .pann, .tt] [] s v := by
  let ks := r.items.map fun k => (k.1, k.2, 1, 0x07)
  let u := releaseOver (tick s t) slot (activeEntry s slot)
  have hfreed := within_slotFreed u slot ks
  obtain ⟨⟨l, f, hedits⟩, hreleases⟩ := slotFreed_pann u slot ks
  refine runs_of_settle (exec_releaseZeroingDone hr hst hfree t) ⟨plannedEntry_of_last hedits, fun x hx => ?_, fun w i hw hi => ?_, ?_⟩
  · rw [settled_pann, hreleases] at hx
    simpa using (List.mem_filter.mp hx).2
  · have hmem : (slotFreed u slot ks).mem = (zeroParts (tick s t) (activeEntry s slot)).mem := hfreed.parts .mem (by simp)
    have hpart : partAddr (tick s t) w (activeEntry s slot) = partAddr s w (activeEntry s slot) := rfl
    have hzero := readByte_each_zeroPart (activeEntry s slot) (List.range 4) (tick s t) w i (Or.inl ⟨List.mem_range.mpr hw, hi⟩)
    rw [← zeroParts_eq, hpart] at hzero
    exact (readByte_congr ((settled_mem _ _).trans hmem) _).trans hzero
  · have hu : Within [.mem, .now, .pann] [] s u :=
      ((within_tick s t).mono (by simp) (by simp)).trans (((within_zeroParts _ _).mono (by simp) (by simp)).trans
        ((within_pann _ _).mono (by simp) (by simp)))
    exact ((hu.mono (by simp) (by simp)).trans (hfreed.mono (by simp) (by simp))).settled

/-! Checkpoints (R245, R247) -/

/-- An item with its lateness at its end. -/
def lateItem (s : State) (x : Item) : Item :=
  { x with
    causes := if (decide (x.deadline < s.now) && x.causes == 0) = true then 4 else x.causes
    lateNs := s.now - x.deadline
    lastIssue := s.now }

theorem endDone_eq {k : Nat × Nat} {x : Item} (hx : itemAt s k.1 k.2 = some x) (detail : Nat) :
    endDone s k detail = endItem s (lateItem s x) 0x01 detail := by
  unfold endDone
  rw [hx]
  rfl

/-- An item of the trainer at its end: its block has been written, and none waits. -/
def microItem (s : State) (x : Item) : Item :=
  { x with
    causes := if (decide (x.deadline < s.now) && x.causes == 0) = true then 4 else x.causes
    lateNs := s.now - x.deadline
    lastIssue := s.now
    data := [] }

theorem endMicro_eq (s : State) (x : Item) (code detail : Nat) (block : List Nat) : endMicro s x code detail block =
    endItem (hostOut s x.ctx (x.data.getD 2 0) block) (microItem (hostOut s x.ctx (x.data.getD 2 0) block) x) code detail := rfl

/-- A checkpoint's image has gone to the host under the key's next export IV. -/
def ckptSent (s : State) (ctx : Nat) (x : Item) (j : Job) (k : AdapterKey) : State :=
  hostOut (updCtxs s fun c => { c with
      keys := storeInsert c.keys (ctx * 4 + x.data.getD 1 0) { k with counter := k.counter + 1 } })
    ctx (x.data.getD 0 0) (encrypted k.value (0xFFFFFFFF * 2 ^ 64 + k.counter) (ckptPlain s j))

theorem within_ckptSent (s : State) (ctx : Nat) (x : Item) (j : Job) (k : AdapterKey) :
    Within [.ctxs, .rep] [] s (ckptSent s ctx x j k) :=
  ((within_ctxs s _).mono (by simp) (by simp)).trans ((within_emit _ _).mono (by simp) (by simp))

theorem exec_checkpointWriteDone {ctx idx n : Nat} {x : Item} {j : Job} {k : AdapterKey} (hx : itemAt s ctx idx = some x)
    (hop : x.opcode = 0x14) (hj : x.slot.bind (jobOf s) = some (n, j)) (hk : keyAt s ctx (x.data.getD 1 0) = some k) (t : Nat) :
    ∃ block, exec (.checkpointWriteDone t ctx idx) s =
      settle s (endMicro (ckptSent (tick s t) ctx x j k) x 1 0x07 block) := by
  have hitem : itemAt (tick s t) ctx idx = some x := hx
  have hjob : x.slot.bind (jobOf (tick s t)) = some (n, j) := hj
  have hkey : keyAt (tick s t) ctx (x.data.getD 1 0) = some k := hk
  refine ⟨resultBlock 0 0 j.t 0 0 0 (ckptSent (tick s t) ctx x j k).now (fieldAt (ckptPlain (tick s t) j) 0x20 32), ?_⟩
  show execCheckpointWriteDone t ctx idx s = _
  simp only [execCheckpointWriteDone, hitem, hop, hjob, hkey, ne_eq, not_true_eq_false, if_false]
  rfl

theorem checkpointWriteDone_runs {ctx idx n : Nat} {x : Item} {j : Job} {k : AdapterKey} (hx : itemAt s ctx idx = some x)
    (hop : x.opcode = 0x14) (hj : x.slot.bind (jobOf s) = some (n, j)) (hk : keyAt s ctx (x.data.getD 1 0) = some k) (t : Nat) :
    Runs (.checkpointWriteDone t ctx idx) s fun v =>
      itemAt v ctx idx = none ∧ keyAt v ctx (x.data.getD 1 0) = some { k with counter := k.counter + 1 } ∧
      (∃ l, .hostWrite ctx (x.data.getD 0 0 % 2 ^ 48) l ∈ v.rep.outs) ∧ v.pann = s.pann ∧ v.mem = s.mem := by
  obtain ⟨rfl, rfl⟩ := key_of_itemAt hx
  obtain ⟨block, hexec⟩ := exec_checkpointWriteDone hx hop hj hk t
  let u := ckptSent (tick s t) x.ctx x j k
  let w := hostOut u x.ctx (x.data.getD 2 0) block
  let y := microItem w x
  have hw : Within [.ctxs, .now, .rep] [] s w :=
    ((within_tick s t).mono (by simp) (by simp)).trans (((within_ckptSent _ x.ctx x j k).mono (by simp) (by simp)).trans
      ((within_emit u _).mono (by simp) (by simp)))
  have hend := itemsEnd_endItem w y 1 0x07 0
  have hgone : itemAt (endItem w y 1 0x07) x.ctx x.idx = none := itemAt_endItem w y 1 0x07 0
  have hkeys : (endItem w y 1 0x07).ctxs = w.ctxs := hend.within.parts .ctxs (by simp)
  have hpann : (endItem w y 1 0x07).pann = w.pann := hend.within.parts .pann (by simp)
  have hmem : (endItem w y 1 0x07).mem = w.mem := hend.within.parts .mem (by simp)
  have hsent : OutsKept u (endItem w y 1 0x07) := (outsKept_emit u _).trans hend.outs
  rw [endMicro_eq] at hexec
  refine runs_of_settle hexec ⟨?_, ?_, ⟨_, hsent (List.mem_append_right _ (List.mem_singleton.mpr rfl))⟩, ?_, ?_⟩
  · rw [itemAt_settled]
    exact hgone
  · rw [keyAt, settled_ctxs, hkeys]
    exact storeFind_insert_same _ _ _
  · rw [settled_pann, hpann]
    exact hw.parts .pann (by simp)
  · rw [settled_mem, hmem]
    exact hw.parts .mem (by simp)

/-! Reports (R390) -/

/-- The security core has signed its oldest report, which has gone to the host. -/
def reportSent (s : State) (j : ReportJob) (rest : List ReportJob) : State :=
  hostOut (updCtxs s fun x => { x with reports := rest }) j.ctx j.req.addr (reportOf s j)

theorem exec_attestReportSigned {j : ReportJob} {rest : List ReportJob} {x : Item} (hj : s.ctxs.reports = j :: rest)
    (hsigned : s.boot.aliasSigned = true) (hx : itemAt s j.ctx j.idx = some x) (hop : x.opcode = 0x1F + j.kind) (t : Nat) :
    exec (.attestReportSigned t) s = settle s (endDone (reportSent (tick s t) j rest) (j.ctx, j.idx) 0x07) := by
  have hreports : (tick s t).ctxs.reports = j :: rest := hj
  have halias : ¬ (tick s t).boot.aliasSigned = false := by
    rw [tick_boot, hsigned]
    simp
  have hitem : itemAt (updCtxs (tick s t) fun x => { x with reports := rest }) j.ctx j.idx = some x := hx
  show execAttestReportSigned t s = _
  simp only [execAttestReportSigned, hreports, if_neg halias, hitem, hop, ne_eq, not_true_eq_false, if_false]
  rfl

theorem attestReportSigned_runs {j : ReportJob} {rest : List ReportJob} {x : Item} (hj : s.ctxs.reports = j :: rest)
    (hsigned : s.boot.aliasSigned = true) (hx : itemAt s j.ctx j.idx = some x) (hop : x.opcode = 0x1F + j.kind) (t : Nat) :
    Runs (.attestReportSigned t) s fun v =>
      v.ctxs.reports = rest ∧ itemAt v j.ctx j.idx = none ∧ (∃ l, .hostWrite j.ctx (j.req.addr % 2 ^ 48) l ∈ v.rep.outs) ∧
      v.mem = s.mem := by
  obtain ⟨hctx, hidx⟩ := key_of_itemAt hx
  let u := reportSent (tick s t) j rest
  have hitem : itemAt u j.ctx j.idx = some x := hx
  have hend := itemsEnd_endItem u (lateItem u x) 0x01 0x07 0
  have hgone : itemAt (endItem u (lateItem u x) 0x01 0x07) x.ctx x.idx = none := itemAt_endItem u (lateItem u x) 0x01 0x07 0
  have hctxs : (endItem u (lateItem u x) 0x01 0x07).ctxs = u.ctxs := hend.within.parts .ctxs (by simp)
  have hmem : (endItem u (lateItem u x) 0x01 0x07).mem = u.mem := hend.within.parts .mem (by simp)
  have hexec := exec_attestReportSigned hj hsigned hx hop t
  rw [endDone_eq (k := (j.ctx, j.idx)) hitem] at hexec
  refine runs_of_settle hexec ⟨?_, ?_, ⟨_, hend.outs (List.mem_append_right _ (List.mem_singleton.mpr rfl))⟩, ?_⟩
  · rw [settled_ctxs, hctxs]
    rfl
  · rw [itemAt_settled, ← hctx, ← hidx]
    exact hgone
  · rw [settled_mem, hmem]
    rfl

/-! Keys (R386, R391) -/

/-- A pending key is gone 60 s after its KEY_BEGIN. -/
theorem pendingKeyExpiry_runs {t ctx key : Nat} {p : PendingKey} (hp : storeFind s.ctxs.pendingKeys (ctx * 4 + key) = some p)
    (hdue : p.time + 60000000000 ≤ max s.now t) : Runs (.pendingKeyExpiry t ctx key) s fun v =>
      storeFind v.ctxs.pendingKeys (ctx * 4 + key) = none ∧ v.ctxs.keys = s.ctxs.keys ∧
      Frame [.ctxs, .now] [.CTX_STATE_KEYS, .CTX_STATE_PENDING] s v := by
  let u := updCtxs (tick s t) fun x => { x with pendingKeys := storeErase x.pendingKeys (ctx * 4 + key) }
  have hdue' : p.time + 60000000000 ≤ (tick s t).now := hdue
  have hexec : exec (.pendingKeyExpiry t ctx key) s = settle s (mirrorKeys u ctx) := by
    show execPendingKeyExpiry t ctx key s = _
    simp only [execPendingKeyExpiry, tick_ctxs, hp, if_pos hdue']
    rfl
  have hkeys : (mirrorKeys u ctx).ctxs = u.ctxs := (within_mirrorKeys u ctx).parts .ctxs (by simp)
  refine runs_of_settle hexec ⟨?_, ?_, ?_⟩
  · rw [settled_ctxs, hkeys]
    exact storeFind_erase_same _ _
  · rw [settled_ctxs, hkeys]
    rfl
  · exact (((within_tick s t).mono (by simp) (by simp)).trans (((within_ctxs _ _).mono (by simp) (by simp)).trans
      ((within_mirrorKeys u ctx).mono (by simp) (List.Subset.refl _)))).settled

theorem aliasCertSigned_runs (hready : rd s .BOOT_STATUS_PHASE = 8) (t : Nat) : Runs (.aliasCertSigned t) s fun v =>
    v.boot.aliasSigned = true ∧ Frame [.boot, .now] [] s v := by
  have hexec : exec (.aliasCertSigned t) s = settle s (updBoot (tick s t) fun b => { b with aliasSigned := true }) := by
    show execAliasCertSigned t s = _
    simp only [execAliasCertSigned, rd_tick, hready, if_true]
  exact runs_of_settle hexec ⟨rfl, (((within_tick s t).mono (by simp) (by simp)).trans ((within_boot _ _).mono (by simp) (by simp))).settled⟩

/-! The obligation -/

/-- Settles O46: a part of a bundle is stored or fails its load (`section_arrives`, `failLoad_fails`), the last loads the model
(`cards_end`); every other item ends with what its work has brought about, and nothing that ends with it brings one back
(`itemsEnd_endItem`). -/
theorem itemWorkRuns : Obligations.ItemWorkRuns := by
  refine ⟨fun s t n m hm hst => ⟨loadFailed_runs (exec_bundleSectionArrival_readFailed hm hst t) (failLoad_fails _ n m _ _ _),
      fun e he => ⟨fun h4 b progs => ⟨fun hc => card_arrives hm hst he t h4 hc, fun hc => card_fails hm hst he t h4 hc⟩,
        fun b hgood hmore => ⟨fun r h3 => ?_, fun sets h1 hsets => ?_, fun rows h2 hrows => ?_, fun w hw h10 => ?_⟩,
        fun b hbad => ⟨fun r h3 => ?_, fun h12 => ?_⟩,
        fun x l hl h4 hgood hall hx hfree => ?_⟩⟩,
    fun s t ctx idx slot x hdr ok img => ?_,
    fun s t slot r hr hst hfree => releaseZeroingDone_runs hr hst hfree t,
    fun s t ctx idx n x j k hx hop hj hk => checkpointWriteDone_runs hx hop hj hk t,
    fun s t j rest x hj hsigned hx hop => attestReportSigned_runs hj hsigned hx hop t,
    fun s t ctx key p hp hdue => pendingKeyExpiry_runs hp hdue,
    fun s t hready => aliasCertSigned_runs hready t⟩
  · exact section_arrives hm hst he t (by simp) (x := withRecipe (withBytes m e b) r) (partArrives_recipe h3 b r) hgood hmore
  · exact section_arrives hm hst he t (by simp) (x := withTargetSets (withBytes m e b) sets)
      ((partArrives_targetSets h1 b).trans (by rw [hsets])) hgood hmore
  · exact section_arrives hm hst he t (by simp) (x := withColumnMap (withBytes m e b) rows)
      ((partArrives_columnMap h2 b).trans (by rw [hrows])) hgood hmore
  · exact weights_arrive hm hst he t hw h10 hgood hmore
  · refine section_fails hm hst he t (by simp) ?_
    rw [partArrives_recipe h3]
    exact sectionEnds_fails rfl hbad
  · refine section_fails hm hst he t (by simp) ?_
    obtain h1 | h2 := h12
    · rw [h1, partArrives_targetSets h1]
      split
      · exact sectionEnds_fails rfl hbad
      · exact failLoad_fails _ n m _ _ _
    · rw [h2, partArrives_columnMap h2]
      split
      · exact sectionEnds_fails rfl hbad
      · exact failLoad_fails _ n m _ _ _
  · subst hl
    exact cards_end hm hst he t h4 hgood hall hx hfree
  · intro u y hx hslot hstop hop
    exact ⟨fun e hgood he => adapterImage_good hx hslot hstop hop t hgood he, fun hbad => adapterImage_bad hx hslot hstop hop t hbad⟩

end Sys2Proof.Machine
end

section
/-! Packets that leave on the links (R343, R346): what a sent packet changes of a link, and the delivery of one that has arrived in
order. -/

namespace Sys2Proof.Machine

/-! Links -/

@[simp] theorem linkOf_setLink_same (s : State) (l : Nat) (x : LinkSt) : linkOf (setLink s l x) l = x :=
  storeGet_put_same _ _ _ _

theorem linkOf_setLink_other {s : State} {l m : Nat} (x : LinkSt) (h : m ≠ l) : linkOf (setLink s l x) m = linkOf s m :=
  storeGet_put_other _ _ _ _ h

theorem linkOf_congr {s t : State} (h : t.fab = s.fab) (m : Nat) : linkOf t m = linkOf s m := by rw [linkOf, h, linkOf]

theorem linkOf_settled (s t : State) (m : Nat) : linkOf (settled s t) m = linkOf t m := rfl

theorem within_setLink (s : State) (l : Nat) (x : LinkSt) : Within [.fab] [] s (setLink s l x) := within_fab s _

theorem linkUp_congr {s t : State} {m : Nat} (h : rd t .SPOKE_LINK_STATE_STATE m = rd s .SPOKE_LINK_STATE_STATE m) :
    linkUp t m = linkUp s m := by rw [linkUp, h, linkUp]

theorem linkUp_of_state {s : State} {l : Nat} (h : rd s .SPOKE_LINK_STATE_STATE l = 2) : linkUp s l = true := by simp [linkUp, h]

/-! Packets that are sent -/

/-- Packets leave on links that are UP: nothing else changes, and no link awaits another packet than before. -/
structure Sends (s t : State) : Prop where
  within : Within [.rep, .fab] [] s t
  links : ∃ ls, t.fab = { s.fab with links := ls }
  rxSeq : ∀ m, (linkOf t m).rxSeq = (linkOf s m).rxSeq
  down : ∀ m, linkUp s m = false → linkOf t m = linkOf s m

theorem Sends.refl (s : State) : Sends s s := ⟨Within.refl _ _ s, ⟨s.fab.links, rfl⟩, fun _ => rfl, fun _ _ => rfl⟩

theorem Sends.linkUp_eq {s t : State} (h : Sends s t) (m : Nat) : linkUp t m = linkUp s m :=
  linkUp_congr (h.within.regs _ m (by simp))

theorem Sends.trans {s t u : State} (h : Sends s t) (k : Sends t u) : Sends s u := by
  refine ⟨h.within.trans k.within, ?_, fun m => (k.rxSeq m).trans (h.rxSeq m), fun m hm =>
    (k.down m ((h.linkUp_eq m).trans hm)).trans (h.down m hm)⟩
  obtain ⟨ls, hls⟩ := k.links
  obtain ⟨ls', hls'⟩ := h.links
  exact ⟨ls, by rw [hls, hls']⟩

theorem Sends.segments {s t : State} (h : Sends s t) : t.fab.segments = s.fab.segments := by
  obtain ⟨ls, hls⟩ := h.links
  rw [hls]

theorem sendPacket_of_down {s : State} {l : Nat} (h : linkUp s l = false) (p : Packet) : sendPacket s l p = s := by
  simp [sendPacket, h]

/-- A packet as it leaves on a link: with the link's next LINK_SEQ, and its CRC where this module is its source. -/
def stamped (s : State) (l : Nat) (p : Packet) : Packet :=
  { p with seq := (linkOf s l).txSeq, crc := if p.src = ownAddr s then packetCrc p else p.crc }

/-- A link that keeps a packet for retransmission. -/
def keeping (s : State) (l : Nat) (p : Packet) : LinkSt :=
  { linkOf s l with txSeq := ((linkOf s l).txSeq + 1) % 65536, replay := (linkOf s l).replay ++ [(1, stamped s l p)] }

theorem sendPacket_exempt {s : State} {l : Nat} {p : Packet} (h : linkUp s l = true) (he : exemptType p.type = true) :
    sendPacket s l p = emit s (.packet l (stamped s l p)) := by
  simp [sendPacket, h, he, stamped]

theorem sendPacket_kept {s : State} {l : Nat} {p : Packet} (h : linkUp s l = true) (he : exemptType p.type = false) :
    sendPacket s l p = emit (setLink s l (keeping s l p)) (.packet l (stamped s l p)) := by
  simp [sendPacket, h, he, stamped, keeping]

theorem sends_emit (s : State) (o : Out) : Sends s (emit s o) :=
  ⟨(within_emit s o).mono (by simp) (by simp), ⟨s.fab.links, rfl⟩, fun _ => rfl, fun _ _ => rfl⟩

theorem sends_keeping {s : State} {l : Nat} (h : linkUp s l = true) (p : Packet) : Sends s (setLink s l (keeping s l p)) := by
  refine ⟨(within_setLink s l _).mono (by simp) (by simp), ⟨_, rfl⟩, fun m => ?_, fun m hm => ?_⟩
  · by_cases hml : m = l
    · rw [hml, linkOf_setLink_same]
      rfl
    · rw [linkOf_setLink_other _ hml]
  · refine linkOf_setLink_other _ fun hml => ?_
    rw [hml, h] at hm
    cases hm

theorem sends_sendPacket (s : State) (l : Nat) (p : Packet) : Sends s (sendPacket s l p) := by
  cases hup : linkUp s l with
  | false =>
    rw [sendPacket_of_down hup]
    exact Sends.refl s
  | true =>
    cases he : exemptType p.type with
    | true =>
      rw [sendPacket_exempt hup he]
      exact sends_emit s _
    | false =>
      rw [sendPacket_kept hup he]
      exact (sends_keeping hup p).trans (sends_emit _ _)

theorem sends_returnCredits (s : State) (l c n : Nat) : Sends s (returnCredits s l c n) := by
  unfold returnCredits
  split
  · exact Sends.refl s
  · exact sends_sendPacket s l _

theorem sends_sendBarrier (s : State) (dst : Nat) (b : BarrierBody) : Sends s (sendBarrier s dst b) := by
  unfold sendBarrier routePacket
  dsimp only
  split
  · exact sends_sendPacket s _ _
  · exact Sends.refl s

/-! Packets that arrive -/

/-- A credit goes back for a packet of a class that needs one (R346). -/
def creditReturned (s : State) (l : Nat) (p : Packet) : State := if credited p then returnCredits s l p.ctx 1 else s

theorem sends_creditReturned (s : State) (l : Nat) (p : Packet) : Sends s (creditReturned s l p) := by
  unfold creditReturned
  split
  · exact sends_returnCredits s l _ _
  · exact Sends.refl s

/-- A packet that arrives in order is acknowledged and delivered. -/
theorem packetIn_of_arrives {s : State} {l : Nat} {p : Packet} (h : Arrives s l p) (t : Nat) (deliver : State → State) :
    packetIn (tick s t) l p false deliver = creditReturned (deliver (takeSeq (tick s t) l)) l p := by
  obtain ⟨hl, hup, hseq, hsrc, hdst, hepoch, hcrc⟩ := h
  have hin : l < 6 ∧ linkUp (tick s t) l = true := ⟨hl, hup⟩
  have hseq' : p.seq = (linkOf (tick s t) l).rxSeq := hseq
  have hsrc' : srcOk (tick s t) p = true := hsrc
  have hdst' : p.dst = ownAddr (tick s t) := hdst
  have hepoch' : p.dstEpoch = ownEpoch (tick s t) := hepoch
  simp [packetIn, hin, hseq', hsrc', ← hdst', hepoch', hcrc, creditReturned]

/-- What an arrival leaves of the state before it is delivered. -/
theorem within_takeSeq (s : State) (t l : Nat) : Within [.fab, .now, .rep] [] s (takeSeq (tick s t) l) := by
  unfold takeSeq
  exact ((within_tick s t).mono (by simp) (by simp)).trans (((within_setLink _ l _).mono (by simp) (by simp)).trans
    ((within_sendPacket _ l _).mono (by simp) (by simp)))

theorem takeSeq_links (s : State) (t l : Nat) : ∃ ls, (takeSeq (tick s t) l).fab = { s.fab with links := ls } :=
  (sends_sendPacket (setLink (tick s t) l _) l _).links

theorem rxSeq_takeSeq (s : State) (t l : Nat) : (linkOf (takeSeq (tick s t) l) l).rxSeq = ((linkOf s l).rxSeq + 1) % 65536 :=
  ((sends_sendPacket _ l _).rxSeq l).trans (congrArg LinkSt.rxSeq (linkOf_setLink_same (tick s t) l _))

theorem rd_takeSeq (s : State) (t l : Nat) (f : Fld) (n : Nat) : rd (takeSeq (tick s t) l) f n = rd s f n :=
  (within_takeSeq s t l).regs f n (by simp)

theorem takeSeq_mem (s : State) (t l : Nat) : (takeSeq (tick s t) l).mem = s.mem := (within_takeSeq s t l).parts .mem (by simp)

end Sys2Proof.Machine
end

section
/-! O54: bytes and reductions that arrive (R268, R344, R353) go to memory as they would from any other state with the same memory and
registers. -/

namespace Sys2Proof.Machine

/-! Stores of bytes take no part in the time, the fabric and the reports -/

/-- A state with the time, the fabric and the reports of another. -/
def withOuter (s u : State) : State := { s with now := u.now, fab := u.fab, rep := u.rep }

theorem each_withOuter {α : Type} {f : State → α → State} (u : State) (hf : ∀ s a, f (withOuter s u) a = withOuter (f s a) u)
    (l : List α) (s : State) : each l (withOuter s u) f = withOuter (each l s f) u := by
  induction l generalizing s with
  | nil => rfl
  | cons a r ih => exact (congrArg (each r · f) (hf s a)).trans (ih (f s a))

theorem writeByte_withOuter (s u : State) (a v : Nat) : writeByte (withOuter s u) a v = withOuter (writeByte s a v) u := by
  unfold writeByte
  rw [apply_ite (withOuter · u)]
  rfl

theorem writeBytes_withOuter (u : State) : ∀ (l : List Nat) (a : Nat) (s : State),
    writeBytes l a (withOuter s u) = withOuter (writeBytes l a s) u
  | [], _, _ => rfl
  | v :: r, a, s => by
    rw [writeBytes, writeByte_withOuter]
    exact writeBytes_withOuter u r (a + 1) _

theorem bankTouched_withOuter (s u : State) (x : Nat) : bankTouched (withOuter s u) x = withOuter (bankTouched s x) u := by
  unfold bankTouched
  dsimp only
  rw [apply_ite (withOuter · u)]
  rfl

theorem storeHbm_withOuter (s u : State) (a : Nat) (l : List Nat) : storeHbm (withOuter s u) a l = withOuter (storeHbm s a l) u := by
  refine each_withOuter u (fun t g => ?_) _ s
  dsimp only
  rw [bankTouched_withOuter, apply_ite (withOuter · u), apply_ite (withOuter · u), apply_ite (withOuter · u)]
  rw [writeBytes_withOuter]
  have hpoison : ∀ (x : State) (f : Memory → Memory), updMem (withOuter x u) f = withOuter (updMem x f) u := fun _ _ => rfl
  rw [hpoison, writeBytes_withOuter]
  rfl

/-- Bytes for the device's own memory. -/
theorem putBytes_withOuter {a : Nat} (h : (isHbm a || onChip a) = true) (s u : State) (ctx : Nat) (l : List Nat) :
    putBytes (withOuter s u) ctx a l = withOuter (putBytes s ctx a l) u := by
  unfold putBytes
  rw [storeHbm_withOuter, writeBytes_withOuter]
  split
  · rfl
  · split
    · rfl
    · next hb =>
      rw [if_pos (by simpa [hb] using h), if_pos (by simpa [hb] using h)]
      rfl

/-! Reductions -/

theorem addFlit_withOuter (s u : State) (line fmt : Nat) (v : List Nat) :
    addFlit (withOuter s u) line fmt v = withOuter (addFlit s line fmt v) u := by
  unfold addFlit
  dsimp only
  rw [writeBytes_withOuter]
  rfl

theorem drainRed_withOuter (u : State) (line : Nat) : ∀ (n : Nat) (s : State),
    drainRed (withOuter s u) line n = withOuter (drainRed s line n) u
  | 0, _ => rfl
  | n + 1, s => by
    unfold drainRed
    have hlines : (withOuter s u).mem.redLines = s.mem.redLines := rfl
    rw [hlines]
    cases s.mem.redLines.find? (fun l => l.line == line) with
    | none => rfl
    | some x =>
      dsimp only
      cases x.held.find? (fun e => e.1 == x.expected) with
      | none => rfl
      | some e =>
        dsimp only
        rw [addFlit_withOuter, ← drainRed_withOuter u line n, apply_ite (withOuter · u)]
        rfl

theorem redArrive_withOuter (h : Nat) (s u : State) (line idx count fmt : Nat) (v : List Nat) :
    redArrive h (withOuter s u) line idx count fmt v = withOuter (redArrive h s line idx count fmt v) u := by
  have hinc : ∀ n, incX (withOuter s u) .MEM_RED_REORDER_WAIT n = withOuter (incX s .MEM_RED_REORDER_WAIT n) u := fun n => by
    unfold incX
    rw [apply_ite (withOuter · u)]
    rfl
  unfold redArrive
  dsimp only
  rw [hinc, ← drainRed_withOuter]
  exact congrArg (fun x => drainRed (setRedLine x _) line _) (apply_ite (withOuter · u) _ _ _).symm

/-- What the source flits of a packet do to their target lines. -/
def redsArrive (h : Nat) (p : Packet) (count fmt : Nat) (s : State) : State :=
  (redFlits p).foldl (fun y f => redArrive h y f.1 p.srcIndex count fmt f.2) s

theorem redsArrive_withOuter (h : Nat) (p : Packet) (count fmt : Nat) (s u : State) :
    redsArrive h p count fmt (withOuter s u) = withOuter (redsArrive h p count fmt s) u :=
  each_withOuter u (fun t f => redArrive_withOuter h t u f.1 p.srcIndex count fmt f.2) (redFlits p) s

theorem within_addFlit (s : State) (line fmt : Nat) (v : List Nat) : Within [.mem] [] s (addFlit s line fmt v) := by
  unfold addFlit
  exact (within_writeBytes _ _ s).trans (within_clearLr _ _ _)

theorem within_setRedLine (s : State) (x : RedLine) : Within [.mem] [] s (setRedLine s x) := within_mem s _

theorem within_drainRed (line : Nat) : ∀ (n : Nat) (s : State), Within [.mem] [] s (drainRed s line n)
  | 0, s => Within.refl _ _ s
  | n + 1, s => by
    unfold drainRed
    split
    · exact Within.refl _ _ s
    · split
      · exact Within.refl _ _ s
      · extract_lets u y z
        refine Within.trans (t := u) (within_addFlit s _ _ _) (Within.trans ?_ (within_drainRed line n _))
        split
        · exact within_mem _ _
        · exact within_setRedLine _ _

theorem within_redArrive (h : Nat) (s : State) (line idx count fmt : Nat) (v : List Nat) :
    Within [.mem] [.MEM_RED_REORDER_WAIT] s (redArrive h s line idx count fmt v) := by
  unfold redArrive
  dsimp only
  refine Within.trans ?_ (((within_setRedLine _ _).trans (within_drainRed line _ _)).mono (by simp) (by simp))
  split
  · exact (within_incX s _ _ _).mono (by simp) (by simp)
  · exact Within.refl _ _ s

theorem within_redsArrive (h : Nat) (p : Packet) (count fmt : Nat) (s : State) :
    Within [.mem] [.MEM_RED_REORDER_WAIT] s (redsArrive h p count fmt s) :=
  within_each _ (fun t _ => within_redArrive h t _ _ _ _ _) (redFlits p) s

/-! One flit -/

theorem leNum_leBytes (n v : Nat) : leNum (leBytes n v) = v % 256 ^ n := by
  induction n generalizing v with
  | zero => simp [leBytes, leNum, Nat.mod_one]
  | succ n ih =>
    have hsplit : leBytes (n + 1) v = v % 256 :: leBytes n (v / 256) := by
      simp [leBytes, List.range_succ_eq_map, Function.comp_def, Nat.div_div_eq_div_mul, Nat.pow_succ, Nat.mul_comm]
    rw [hsplit, leNum, List.foldr_cons, ← leNum, ih, Nat.mod_mod, Nat.pow_succ, Nat.mul_comm (256 ^ n), Nat.mod_mul]

/-- A byte of numbers laid down one after another. -/
theorem getD_flatten_leBytes (n : Nat) : ∀ (l : List Nat) (j i : Nat), j < l.length → i < n →
    (l.map (leBytes n)).flatten.getD (n * j + i) 0 = (leBytes n (l.getD j 0)).getD i 0
  | x :: r, 0, i, _, hi => by
    have hlen : n * 0 + i < (leBytes n x).length := by rw [leBytes_length]; omega
    rw [List.map_cons, List.flatten_cons, List.getD_append _ _ _ _ hlen, Nat.mul_zero, Nat.zero_add]
    rfl
  | x :: r, j + 1, i, hj, hi => by
    have hlen : (leBytes n x).length ≤ n * (j + 1) + i := by rw [leBytes_length]; nlinarith
    rw [List.map_cons, List.flatten_cons, List.getD_append_right _ _ _ _ hlen, leBytes_length,
      show n * (j + 1) + i - n = n * j + i by rw [Nat.mul_succ]; omega, getD_flatten_leBytes n r j i (by simpa using hj) hi]
    rfl

theorem length_flatten_leBytes (n : Nat) (l : List Nat) : (l.map (leBytes n)).flatten.length = l.length * n := by
  simp [List.length_flatten, Function.comp_def, leBytes_length]

/-- A number read where it was laid down among others. -/
theorem readLe_writeBytes_flatten {l : List Nat} {j : Nat} (hj : j < l.length) (a : Nat) (s : State) :
    readLe (writeBytes ((l.map (leBytes 4)).flatten) a s) (a + 4 * j) 4 = l.getD j 0 % 2 ^ 32 := by
  have hbytes : readBytes (writeBytes ((l.map (leBytes 4)).flatten) a s) (a + 4 * j) 4 = leBytes 4 (l.getD j 0) := by
    refine List.ext_getElem (by simp [readBytes, leBytes]) fun i hi _ => ?_
    have hi4 : i < 4 := by simpa [readBytes] using hi
    have hin : 4 * j + i < (l.map (leBytes 4)).flatten.length := by rw [length_flatten_leBytes]; omega
    have hread := readByte_writeBytes _ a s _ hin
    rw [getD_flatten_leBytes 4 l j i hj hi4] at hread
    simp only [readBytes, List.getElem_map, List.getElem_range, Nat.add_assoc, hread]
    simp [leBytes, hi4]
  rw [readLe, hbytes, leNum_leBytes, show 256 ^ 4 = 2 ^ 32 by norm_num]

/-- An element of a sum in FP32, or in INT32 wrapping (R268). -/
def redSum (fmt old x : Nat) : Nat := if fmt = 0xA then f32Add old x else old + x

theorem readLe_addFlit {v : List Nat} {j : Nat} (hj : j < v.length) (s : State) (line fmt : Nat) :
    readLe (addFlit s line fmt v) (line * 128 + 4 * j) 4 = redSum fmt (readLe s (line * 128 + 4 * j) 4) (v.getD j 0) % 2 ^ 32 := by
  have hread := readLe_writeBytes_flatten (l := v.zipIdx.map fun e =>
    if fmt = 0xA then f32Add (readLe s (line * 128 + 4 * e.2) 4) e.1 else (readLe s (line * 128 + 4 * e.2) 4 + e.1) % 2 ^ 32)
    (j := j) (by simpa using hj) (line * 128) s
  refine Eq.trans hread ?_
  simp only [redSum, List.getD_eq_getElem?_getD, List.getElem?_map, List.getElem?_zipIdx, List.getElem?_eq_getElem hj, Option.map_some,
    Option.getD_some, Nat.zero_add]
  split
  · rfl
  · rw [Nat.mod_mod]

theorem bytesKept_addFlit {v : List Nat} (hv : v.length = 32) (s : State) (line fmt : Nat) :
    BytesKept (line * 128) 128 s (addFlit s line fmt v) := by
  have hkept := bytesKept_writeBytes (((v.zipIdx.map fun e =>
    if fmt = 0xA then f32Add (readLe s (line * 128 + 4 * e.2) 4) e.1 else (readLe s (line * 128 + 4 * e.2) 4 + e.1) % 2 ^ 32).map
      (leBytes 4)).flatten) (line * 128) s
  rw [length_flatten_leBytes, List.length_map, List.length_zipIdx, hv] at hkept
  exact hkept

/-- A line takes in the addend that is due. -/
theorem drainRed_one {s : State} {line : Nat} {x : RedLine} {e : Nat × List Nat}
    (hx : s.mem.redLines.find? (fun l => l.line == line) = some x) (he : x.held.find? (fun e => e.1 == x.expected) = some e) :
    ∃ f : Memory → List RedLine, drainRed s line 1 = updMem (addFlit s line x.fmt e.2) fun m => { m with redLines := f m } := by
  unfold drainRed
  rw [hx]
  dsimp only
  rw [he]
  dsimp only
  rw [drainRed]
  split <;> split <;> exact ⟨_, rfl⟩

/-- The flit of index 0 at a line that waits for none is added at once. -/
theorem redArrive_first {s : State} {line : Nat} (hnone : ∀ x ∈ s.mem.redLines, x.line ≠ line) (h count fmt : Nat) (v : List Nat) :
    ∃ f : Memory → List RedLine, redArrive h s line 0 count fmt v =
      updMem (addFlit (setRedLine s ⟨line, 0, count, fmt, [(0, v)]⟩) line fmt v) fun m => { m with redLines := f m } := by
  have hfind : s.mem.redLines.find? (fun l => l.line == line) = none := by simpa using hnone
  have hline : redLineAt s line count fmt = ⟨line, 0, count, fmt, []⟩ := by rw [redLineAt, hfind]; rfl
  have hput : (setRedLine s ⟨line, 0, count, fmt, [(0, v)]⟩).mem.redLines.find? (fun l => l.line == line) =
      some ⟨line, 0, count, fmt, [(0, v)]⟩ := by
    have hrest : (s.mem.redLines.filter fun x => x.line != line).find? (fun l => l.line == line) = none := by
      simp [List.find?_eq_none]
    exact (List.find?_append).trans (by rw [hrest]; simp)
  unfold redArrive
  rw [hline]
  exact drainRed_one hput rfl

/-- It adds its elements to the line and leaves every other byte. -/
theorem redArrive_first_adds {s : State} {line : Nat} (hnone : ∀ x ∈ s.mem.redLines, x.line ≠ line) (h count fmt : Nat) {v : List Nat}
    (hv : v.length = 32) :
    (∀ j, j < 32 → readLe (redArrive h s line 0 count fmt v) (line * 128 + 4 * j) 4 =
      redSum fmt (readLe s (line * 128 + 4 * j) 4) (v.getD j 0) % 2 ^ 32) ∧
    BytesKept (line * 128) 128 s (redArrive h s line 0 count fmt v) ∧
    ∀ f n, rd (redArrive h s line 0 count fmt v) f n = rd s f n := by
  obtain ⟨g, hfirst⟩ := redArrive_first hnone h count fmt v
  rw [hfirst]
  exact ⟨fun j hj => readLe_addFlit (by omega) (setRedLine s _) line fmt, bytesKept_addFlit hv (setRedLine s _) line fmt,
    fun f n => (within_addFlit (setRedLine s _) line fmt v).regs f n (by simp)⟩

end Sys2Proof.Machine
end

section
/-! What the end of a task leaves beside its frame (R476, R354): no item opens, no segment appears, and a link that is not UP keeps what it
holds. -/

namespace Sys2Proof.Machine

/-- No segment on this module has this start and these members. -/
def NoSegment (s : State) (start : Nat) (members : List Nat) : Prop := ∀ x ∈ s.fab.segments, x.start = start → x.members ≠ members

theorem NoSegment.congr {s t : State} {start : Nat} {ms : List Nat} (h : NoSegment s start ms) (hs : t.fab.segments = s.fab.segments) :
    NoSegment t start ms := fun x hx => h x (by rwa [← hs])

/-! Segments (R354) -/

theorem noSegment_dropSegment (s : State) (g : Segment) : NoSegment (dropSegment s g) g.start g.members := fun x hx => by
  have hkey := (List.mem_filter.mp hx).2
  rw [Bool.not_eq_true', Bool.and_eq_false_imp] at hkey
  simpa using hkey

theorem noSegment_dropSegment_of {s : State} {start : Nat} {ms : List Nat} (h : NoSegment s start ms) (g : Segment) :
    NoSegment (dropSegment s g) start ms := fun x hx => h x (List.mem_filter.mp hx).1

theorem mem_putSegment (s : State) (g : Segment) : g ∈ (putSegment s g).fab.segments :=
  List.mem_append_right (dropSegment s g).fab.segments (List.mem_singleton_self g)

/-- A step of the barrier of a segment g: no segment of another start or other members appears. -/
structure BarrierStep (g : Segment) (s t : State) : Prop where
  within : Within [.rep, .fab, .tt] [] s t
  absent : ∀ start ms, (g.start = start → g.members ≠ ms) → NoSegment s start ms → NoSegment t start ms
  down : ∀ m, linkUp s m = false → linkOf t m = linkOf s m

theorem BarrierStep.refl (g : Segment) (s : State) : BarrierStep g s s := ⟨Within.refl _ _ s, fun _ _ _ h => h, fun _ _ => rfl⟩

theorem BarrierStep.trans {g : Segment} {s t u : State} (h : BarrierStep g s t) (k : BarrierStep g t u) : BarrierStep g s u :=
  ⟨h.within.trans k.within, fun st ms hg hs => k.absent st ms hg (h.absent st ms hg hs), fun m hm =>
    (k.down m ((linkUp_congr (h.within.regs _ m (by simp))).trans hm)).trans (h.down m hm)⟩

theorem Sends.barrierStep {s t : State} (h : Sends s t) (g : Segment) : BarrierStep g s t :=
  ⟨h.within.mono (by simp) (by simp), fun _ _ _ hs => hs.congr h.segments, h.down⟩

theorem barrierStep_dropSegment (s : State) (g : Segment) : BarrierStep g s (dropSegment s g) :=
  ⟨(within_dropSegment s g).mono (by simp) (by simp), fun _ _ _ hs => noSegment_dropSegment_of hs g, fun _ _ => rfl⟩

theorem barrierStep_putSegment (s : State) (g : Segment) : BarrierStep g s (putSegment s g) := by
  refine ⟨(within_putSegment s g).mono (by simp) (by simp), fun st ms hg hs x hx => ?_, fun _ _ => rfl⟩
  obtain hold | hnew := List.mem_append.mp hx
  · exact noSegment_dropSegment_of hs g x hold
  · obtain rfl := List.mem_singleton.mp hnew
    exact hg

theorem barrierStep_segmentDone (s : State) (g : Segment) (latest causes : Nat) : BarrierStep g s (segmentDone s g latest causes) :=
  ⟨(within_segmentDone s g latest causes).mono (by simp) (by simp), fun _ _ _ hs => noSegment_dropSegment_of hs g, fun _ _ => rfl⟩

/-- What the coordinator of a segment tells its other members. -/
def toldMembers (s : State) (g : Segment) (abort : Bool) : State :=
  each (g.members.filter (· != ownAddr s)) s fun x m => sendBarrier x m ⟨g.start, (g.arrived.map (·.2.1)).foldl max 0,
    (g.arrived.map (·.2.2.1)).foldl (fun a b => a ||| b) 0, abort, true⟩

theorem sends_toldMembers (s : State) (g : Segment) (abort : Bool) : Sends s (toldMembers s g abort) :=
  each_rel Sends.refl Sends.trans (fun t m => sends_sendBarrier t m _) _ s

/-- The coordinator ends the segment at an ABORT, completes it once all its members have arrived, and keeps it till then. -/
theorem coordinate_eq (s : State) (g : Segment) : coordinate s g =
    if g.arrived.any (·.2.2.2) then (dropSegment (toldMembers s g true) g, some g)
    else if g.members.all (fun m => g.arrived.any (fun a => a.1 == m)) then
      (segmentDone (toldMembers s g false) g ((g.arrived.map (·.2.1)).foldl max 0)
        ((g.arrived.map (·.2.2.1)).foldl (fun a b => a ||| b) 0), none)
    else (putSegment s g, none) := rfl

theorem barrierStep_coordinate (s : State) (g : Segment) : BarrierStep g s (coordinate s g).1 := by
  have htold := fun abort => (sends_toldMembers s g abort).barrierStep g
  rw [coordinate_eq]
  split
  · exact (htold true).trans (barrierStep_dropSegment _ g)
  · split
    · exact (htold false).trans (barrierStep_segmentDone _ g _ _)
    · exact barrierStep_putSegment s g

theorem BarrierStep.of_key {g g' : Segment} {s t : State} (h : BarrierStep g' s t) (hs : g'.start = g.start) (hm : g'.members = g.members) :
    BarrierStep g s t := ⟨h.within, fun st ms hg => h.absent st ms (by rwa [hs, hm]), h.down⟩

theorem barrierStep_arriveBarrier (s : State) (g : Segment) (abort : Bool) : BarrierStep g s (arriveBarrier s g abort).1 := by
  unfold arriveBarrier
  split
  · exact BarrierStep.refl g s
  · dsimp only
    split
    · exact (barrierStep_coordinate s _).of_key rfl rfl
    · exact ((sends_sendBarrier s _ _).barrierStep g).trans ((barrierStep_putSegment _ _).of_key rfl rfl)

/-! Tasks that stop -/

/-- Tasks end: no item opens, no segment appears, and links that are not UP keep what they hold. -/
structure TasksEnd (s t : State) : Prop where
  frame : QueueFrame s t
  closed : ∀ ctx idx, itemAt s ctx idx = none → itemAt t ctx idx = none
  absent : ∀ start ms, NoSegment s start ms → NoSegment t start ms
  down : ∀ m, linkUp s m = false → linkOf t m = linkOf s m

theorem TasksEnd.refl (s : State) : TasksEnd s s := ⟨QueueFrame.refl s, fun _ _ h => h, fun _ _ h => h, fun _ _ => rfl⟩

theorem TasksEnd.trans {s t u : State} (h : TasksEnd s t) (k : TasksEnd t u) : TasksEnd s u :=
  ⟨h.frame.trans k.frame, fun c i hs => k.closed c i (h.closed c i hs), fun st ms hs => k.absent st ms (h.absent st ms hs), fun m hm =>
    (k.down m ((linkUp_congr (h.frame.within.regs _ m (by decide))).trans hm)).trans (h.down m hm)⟩

theorem tasksEnd_each {α : Type} {f : State → α → State} (hf : ∀ s a, TasksEnd s (f s a)) (l : List α) (s : State) :
    TasksEnd s (each l s f) := each_rel TasksEnd.refl TasksEnd.trans hf l s

theorem itemAt_congr {s t : State} (h : t.serve.items = s.serve.items) (ctx idx : Nat) : itemAt t ctx idx = itemAt s ctx idx := by
  rw [itemAt, h, itemAt]

/-- What touches neither serving nor the fabric. -/
theorem QueueFrame.tasksEnd {ps : List Part} {fs : List Fld} {s t : State} (h : QueueFrame s t) (w : Within ps fs s t)
    (hp : ps ⊆ [.core, .rep, .lard, .tt, .dbg] := by simp) : TasksEnd s t := by
  have hserve : t.serve = s.serve := w.parts .serve fun hm => by simpa using hp hm
  have hfab : t.fab = s.fab := w.parts .fab fun hm => by simpa using hp hm
  exact ⟨h, fun c i hn => (itemAt_congr (by rw [hserve]) c i).trans hn, fun _ _ hn => hn.congr (by rw [hfab]),
    fun m _ => linkOf_congr hfab m⟩

theorem tasksEnd_wr (s : State) (f : Fld) (n v : Nat) (hf : f ∈ queueFlds := by decide) : TasksEnd s (wr s f n v) :=
  (queueFrame_wr s f n v hf).tasksEnd (within_wr s f n v)

theorem tasksEnd_updCore {s : State} (f : Cores → Cores) (h : (f s.core).vregs = s.core.vregs) : TasksEnd s (updCore s f) :=
  (queueFrame_updCore f h).tasksEnd (within_core s f)

theorem tasksEnd_updFab {s : State} (f : Fabric → Fabric) (hs : (f s.fab).segments = s.fab.segments)
    (hl : (f s.fab).links = s.fab.links) : TasksEnd s (updFab s f) :=
  ⟨(within_fab s f).queueFrame, fun _ _ hn => hn, fun _ _ hn => hn.congr hs, fun _ _ => by rw [linkOf, updFab_fab, hl, linkOf]⟩

theorem tasksEnd_trail (s : State) (k code ctx arg16 arg32 : Nat) : TasksEnd s (trail s k code ctx arg16 arg32) :=
  (queueFrame_trail s k code ctx arg16 arg32).tasksEnd (within_trail s k code ctx arg16 arg32)

theorem tasksEnd_showBusy (s : State) (k : Nat) : TasksEnd s (showBusy s k) := (queueFrame_showBusy s k).tasksEnd (within_showBusy s k)

theorem ItemsEnd.tasksEnd {s t : State} (h : ItemsEnd s t) : TasksEnd s t := by
  have hfab : t.fab = s.fab := h.within.parts .fab (by simp)
  exact ⟨h.within.queueFrame, h.closed, fun _ _ hn => hn.congr (by rw [hfab]), fun m _ => linkOf_congr hfab m⟩

/-! Items that end -/

/-- An item ends, if it is open. -/
def endOne (s : State) (k : Nat × Nat) (code detail : Nat) : State :=
  match itemAt s k.1 k.2 with
  | some x => endItem s x code detail
  | none => s

theorem itemsEnd_endOne (s : State) (k : Nat × Nat) (code detail : Nat) : ItemsEnd s (endOne s k code detail) := by
  unfold endOne
  split
  · exact itemsEnd_endItem s _ _ _ _
  · exact ItemsEnd.refl s

theorem itemAt_endOne (s : State) (k : Nat × Nat) (code detail : Nat) : itemAt (endOne s k code detail) k.1 k.2 = none := by
  unfold endOne
  split
  · next x hx =>
    obtain ⟨hctx, hidx⟩ := key_of_itemAt hx
    rw [← hctx, ← hidx]
    exact itemAt_endItem s x code detail 0
  · next hx => exact hx

/-- The items of a list end. -/
def endEach (task : List (Nat × Nat)) (code detail : Nat) (s : State) : State := each task s fun t k => endOne t k code detail

theorem itemsEnd_endEach (task : List (Nat × Nat)) (code detail : Nat) (s : State) : ItemsEnd s (endEach task code detail s) :=
  each_rel ItemsEnd.refl ItemsEnd.trans (fun t k => itemsEnd_endOne t k code detail) task s

theorem itemAt_endEach {task : List (Nat × Nat)} {k : Nat × Nat} (hk : k ∈ task) (code detail : Nat) (s : State) :
    itemAt (endEach task code detail s) k.1 k.2 = none :=
  each_reach (p := fun t => itemAt t k.1 k.2 = none) (f := fun t j => endOne t j code detail) (fun t => itemAt_endOne t k code detail)
    (fun t j ht => (itemsEnd_endOne t j code detail).closed _ _ ht) hk s

theorem endItems_eq (s : State) (P : Item → Bool) (code detail : Nat) :
    endItems s P code detail = each (s.serve.items.filter P) s fun t x => endOne t (x.ctx, x.idx) code detail := rfl

theorem itemsEnd_endItems (s : State) (P : Item → Bool) (code detail : Nat) : ItemsEnd s (endItems s P code detail) := by
  rw [endItems_eq]
  exact each_rel ItemsEnd.refl ItemsEnd.trans (fun t (x : Item) => itemsEnd_endOne t (x.ctx, x.idx) code detail) _ s

theorem itemAt_endItems {P : Item → Bool} {ctx idx : Nat} (hP : ∀ x : Item, x.ctx = ctx → x.idx = idx → P x = true) (s : State)
    (code detail : Nat) : itemAt (endItems s P code detail) ctx idx = none := by
  cases hx : itemAt s ctx idx with
  | none => exact (itemsEnd_endItems s P code detail).closed _ _ hx
  | some x =>
    obtain ⟨rfl, rfl⟩ := key_of_itemAt hx
    rw [endItems_eq]
    exact each_reach (p := fun u => itemAt u x.ctx x.idx = none) (f := fun u (y : Item) => endOne u (y.ctx, y.idx) code detail)
      (fun u => itemAt_endOne u (x.ctx, x.idx) code detail)
      (fun u y hu => (itemsEnd_endOne u (y.ctx, y.idx) code detail).closed _ _ hu)
      (List.mem_filter.mpr ⟨List.mem_of_find?_eq_some hx, hP x rfl rfl⟩) s

/-! Segments that abort -/

/-- The barrier of a segment that is on this module already. -/
theorem BarrierStep.tasksEnd {g : Segment} {s t u : State} (h : BarrierStep g t u) (k : TasksEnd s t) (hg : g ∈ s.fab.segments) :
    TasksEnd s u := by
  have hserve : u.serve = t.serve := h.within.parts .serve (by simp)
  exact ⟨k.frame.trans h.within.queueFrame, fun c i hn => (itemAt_congr (by rw [hserve]) c i).trans (k.closed c i hn),
    fun st ms hn => h.absent st ms (hn g hg) (k.absent st ms hn),
    fun m hm => (h.down m ((linkUp_congr (k.frame.within.regs _ m (by decide))).trans hm)).trans (k.down m hm)⟩

theorem tasksEnd_abortSegments (s : State) (p : Segment → Bool) : TasksEnd s (abortSegments s p) := by
  refine List.foldlRecOn _ _ (TasksEnd.refl s) fun t ht g hg => ?_
  have harrive := (barrierStep_arriveBarrier t g true).tasksEnd ht (List.mem_filter.mp hg).1
  split
  · next u g' hu =>
    rw [hu] at harrive
    exact harrive.trans (itemsEnd_endItems u _ _ _).tasksEnd
  · next u hu =>
    rw [hu] at harrive
    exact harrive

theorem tasksEnd_freeCard (s : State) (card : Nat) : TasksEnd s (freeCard s card) := by
  unfold freeCard
  split
  · exact TasksEnd.refl s
  · have hsem : ∀ (t : State) (n : Nat), TasksEnd t
        (wr (wr (wr (wr t .HUB_SEM_HELD n 0) .HUB_SEM_CTX n 0) .HUB_SEM_CORES n 0) .HUB_SEM_ARRIVED n 0) := fun t n =>
      (((tasksEnd_wr t _ _ _).trans (tasksEnd_wr _ _ _ _)).trans (tasksEnd_wr _ _ _ _)).trans (tasksEnd_wr _ _ _ _)
    exact ((tasksEnd_each (fun t (e : Nat × Nat × List Nat × List Nat) => hsem t e.1) _ s).trans
      (tasksEnd_each (fun t e => tasksEnd_wr t .SPOKE_CREDIT_POOL _ _) _ _)).trans
      ((tasksEnd_updCore _ rfl).trans (tasksEnd_updFab _ rfl rfl))

/-- A task that stops has ended its items and then aborts its segments. -/
theorem stopTask_eq (s : State) (task : List (Nat × Nat)) (card code detail : Nat) : ∃ u, TasksEnd s u ∧
    stopTask s task card code detail =
      abortSegments (endEach task code detail (freeCard u card)) (fun g => task.any fun k => decide (k ∈ g.task)) := by
  unfold stopTask
  extract_lets mine ran opened u v w
  refine ⟨v, (tasksEnd_updCore _ rfl : TasksEnd s u).trans (tasksEnd_each (fun t k => ?_) _ u), rfl⟩
  exact ((tasksEnd_showBusy t k).trans (tasksEnd_wr _ _ _ _)).trans (tasksEnd_wr _ _ _ _)

theorem tasksEnd_stopTask (s : State) (task : List (Nat × Nat)) (card code detail : Nat) : TasksEnd s (stopTask s task card code detail) := by
  obtain ⟨u, hu, heq⟩ := stopTask_eq s task card code detail
  rw [heq]
  exact ((hu.trans (tasksEnd_freeCard u card)).trans (itemsEnd_endEach _ _ _ _).tasksEnd).trans (tasksEnd_abortSegments _ _)

theorem itemAt_stopTask {task : List (Nat × Nat)} {k : Nat × Nat} (hk : k ∈ task) (s : State) (card code detail : Nat) :
    itemAt (stopTask s task card code detail) k.1 k.2 = none := by
  obtain ⟨u, -, heq⟩ := stopTask_eq s task card code detail
  rw [heq]
  exact (tasksEnd_abortSegments _ _).closed _ _ (itemAt_endEach hk code detail _)

/-! Queues that move on -/

theorem tasksEnd_arriveSem (s : State) (k : Nat) (r : RunCmd) (n : Nat) : TasksEnd s (arriveSem s k r n) := by
  unfold arriveSem
  dsimp only
  split
  · exact (((tasksEnd_wr s _ _ _).trans (tasksEnd_wr _ _ _ _)).trans
      ((queueFrame_hubError _ _ _ _ _ _).tasksEnd (within_hubError _ _ _ _ _ _))).trans (tasksEnd_stopTask _ _ _ _ _)
  · split
    · exact TasksEnd.refl s
    · refine TasksEnd.trans ?_ (((tasksEnd_wr _ _ _ _).trans (tasksEnd_trail _ _ _ _ _ _)).trans (tasksEnd_updCore _ rfl))
      split
      · exact TasksEnd.refl s
      · exact ((tasksEnd_wr s _ _ _).trans (tasksEnd_wr _ _ _ _)).trans (tasksEnd_wr _ _ _ _)

theorem tasksEnd_drawCredits (s : State) (q : QueuedCmd) : TasksEnd s (drawCredits s q) :=
  tasksEnd_each (fun t _ => (tasksEnd_wr t _ _ _).trans (tasksEnd_updFab _ rfl rfl)) _ s

theorem tasksEnd_beginCmd (s : State) (k : Nat) (r : RunCmd) : TasksEnd s (beginCmd s k r) := by
  unfold beginCmd
  extract_lets u v w at_
  have hu : TasksEnd s u := tasksEnd_drawCredits s r.q
  have hw : TasksEnd u w := (tasksEnd_updCore _ rfl : TasksEnd u v).trans (tasksEnd_trail v _ _ _ _ _)
  exact (hu.trans hw).trans (((queueFrame_setCmd _ _ _).tasksEnd (within_setCmd _ _ _)).trans
    (((queueFrame_noteStarts _ _ _).tasksEnd (within_noteStarts _ _ _)).trans (tasksEnd_showBusy _ _)))

theorem tasksEnd_reachSems (s : State) (k : Nat) : TasksEnd s (reachSems s k) := by
  unfold reachSems
  split
  · exact tasksEnd_each (fun t n => tasksEnd_arriveSem t k _ n) _ s
  · exact TasksEnd.refl s

theorem tasksEnd_startHead (n : Nat) (s : State) (k : Nat) : TasksEnd s (startHead n s k) := by
  induction n generalizing s with
  | zero => exact TasksEnd.refl s
  | succ n ih =>
    unfold startHead
    split
    · split
      · exact ((tasksEnd_beginCmd s k _).trans (tasksEnd_reachSems _ k)).trans (ih _)
      · exact TasksEnd.refl s
    · exact TasksEnd.refl s

theorem tasksEnd_pump (s : State) (h : Nat) : TasksEnd s (pump s h) := by
  have honce : ∀ t, TasksEnd t (pumpOnce t h) := fun t =>
    (tasksEnd_each tasksEnd_reachSems _ t).trans (tasksEnd_each (tasksEnd_startHead 16) _ _)
  exact (honce s).trans (honce _)

theorem tasksEnd_pumpAll (s : State) (hs : List Nat) : TasksEnd s (pumpAll s hs) := tasksEnd_each tasksEnd_pump hs s

theorem tasksEnd_endTask (s : State) (task : List (Nat × Nat)) (card code detail : Nat) : TasksEnd s (endTask s task card code detail) :=
  (tasksEnd_stopTask s task card code detail).trans (tasksEnd_pumpAll _ _)

/-- The items of a task that has ended are gone. -/
theorem itemAt_endTask {task : List (Nat × Nat)} {k : Nat × Nat} (hk : k ∈ task) (s : State) (card code detail : Nat) :
    itemAt (endTask s task card code detail) k.1 k.2 = none := (tasksEnd_pumpAll _ _).closed _ _ (itemAt_stopTask hk s card code detail)

end Sys2Proof.Machine
end

section
/-! O54: data, reductions and buffered packets that arrive (R268, R344, R353, R440). -/

namespace Sys2Proof.Machine

/-! What memory takes in -/

theorem takeSeq_eq_withOuter (s : State) (t l : Nat) : takeSeq (tick s t) l = withOuter s (takeSeq (tick s t) l) := by
  have hsend : ∀ (u : State) (x : LinkSt) (p : Packet), sendPacket (setLink u l x) l p = withOuter u (sendPacket (setLink u l x) l p) := by
    intro u x p
    unfold sendPacket
    dsimp only
    split
    · split <;> rfl
    · rfl
  exact hsend (tick s t) _ _

theorem within_withOuter (s u : State) : Within [.fab, .now, .rep] [] s (withOuter s u) :=
  ⟨fun p hp => by cases p <;> first | rfl | exact absurd (by simp) hp, fun _ _ _ => rfl⟩

theorem ownerOk_congr {s x : State} (hmem : x.mem = s.mem)
    (hmode : ∀ n, rd x .MEM_PANTRY_MODE_CACHE_MIB n = rd s .MEM_PANTRY_MODE_CACHE_MIB n) (p : Packet) (a n : Nat) :
    ownerOk x p a n = ownerOk s p a n := by
  have hregion : ∀ g, regionOk x p.ctx true false g = regionOk s p.ctx true false g := fun g => by rw [regionOk, regionOwner, hmem]; rfl
  have hgranule : granuleOk x p.ctx true = granuleOk s p.ctx true := funext fun g => by rw [granuleOk, granuleOwner, hmem]; rfl
  have hfaulty : ∀ g, addrFaulty x g = addrFaulty s g := fun g => by rw [addrFaulty, hmode, addrFaulty]
  simp only [ownerOk, rowCheck, rangeExists, hregion, hgranule, hfaulty]
  rfl

theorem ownerOk_takeSeq (s : State) (t l : Nat) (p : Packet) (a n : Nat) : ownerOk (takeSeq (tick s t) l) p a n = ownerOk s p a n :=
  ownerOk_congr (takeSeq_mem s t l) (fun _ => rd_takeSeq s t l _ _) p a n

theorem isDevice_of_ownerOk {s : State} {p : Packet} {a n : Nat} (h : ownerOk s p a n = true) : (isHbm a || onChip a) = true := by
  rw [ownerOk, Bool.and_eq_true] at h
  exact h.1

section Delivery
variable {s w : State} {t l : Nat} {p : Packet} {c : Instr} {deliver : State → State}

theorem delivered_runs {q : State → Prop} (h : Arrives s l p) (hexec : exec c s = settle s (packetIn (tick s t) l p false deliver))
    (hq : q (settled s (creditReturned (deliver (takeSeq (tick s t) l)) l p))) : Runs c s q :=
  runs_of_settle (hexec.trans (congrArg (settle s) (packetIn_of_arrives h t deliver))) hq

/-- A delivery that memory and registers alone take part in. -/
theorem stored_runs {fs : List Fld} (h : Arrives s l p) (hexec : exec c s = settle s (packetIn (tick s t) l p false deliver))
    (hw : Within [.mem, .rep] fs s w) (hdel : deliver (takeSeq (tick s t) l) = withOuter w (takeSeq (tick s t) l)) :
    Runs c s fun v => v.mem = w.mem ∧ (linkOf v l).rxSeq = (p.seq + 1) % 65536 ∧ KeptBut [.fab, .mem, .now, .rep] s v ∧ RegsKept [] w v := by
  refine delivered_runs h hexec ?_
  rw [hdel]
  have hcredit := sends_creditReturned (withOuter w (takeSeq (tick s t) l)) l p
  have hframe : Within [.fab, .mem, .now, .rep] fs s (creditReturned (withOuter w (takeSeq (tick s t) l)) l p) :=
    ((hw.mono (by simp) (by simp)).trans ((within_withOuter w _).mono (by simp) (by simp))).trans (hcredit.within.mono (by simp) (by simp))
  refine ⟨hcredit.within.parts .mem (by simp), ?_, hframe.settled.1, fun f n _ hv => ?_⟩
  · obtain ⟨-, -, hseq, -⟩ := h
    rw [hseq, linkOf_settled, hcredit.rxSeq]
    exact rxSeq_takeSeq s t l
  · exact (rd_settled_other _ _ f n hv).trans (hcredit.within.regs f n (by simp))

end Delivery

/-! SPOKE_DATA -/

/-- What the data of a packet do. -/
def dataArrives (p : Packet) (task : List (Nat × Nat)) (card : Nat) (y : State) : State :=
  let x := if wakesStow y p then startExit y 6 else y
  let a := p.destAddr / 4 * 4
  if p.data = [] then x
  else if ownerOk x p a p.data.length then putBytes x p.ctx a p.data
  else ownerDrop x p task card

theorem exec_spokeData (s : State) (t l : Nat) (p : Packet) (uncorr : Bool) (task : List (Nat × Nat)) (card : Nat) :
    exec (.spokeData t l p uncorr task card) s = settle s (packetIn (tick s t) l p uncorr (dataArrives p task card)) := rfl

section Data
variable {s : State} {t l : Nat} {p : Packet}

theorem wakesStow_takeSeq : wakesStow (takeSeq (tick s t) l) p = wakesStow s p := by
  rw [takeSeq_eq_withOuter]
  rfl

theorem dataArrives_stored {y : State} (hw : wakesStow y p = false) (hd : p.data ≠ [])
    (ho : ownerOk y p (p.destAddr / 4 * 4) p.data.length = true) (task : List (Nat × Nat)) (card : Nat) :
    dataArrives p task card y = putBytes y p.ctx (p.destAddr / 4 * 4) p.data := by
  simp [dataArrives, hw, hd, ho]

theorem spokeData_stored (h : Arrives s l p) (hd : p.data ≠ []) (ho : ownerOk s p (p.destAddr / 4 * 4) p.data.length = true)
    (hw : wakesStow s p = false) (task : List (Nat × Nat)) (card : Nat) : Runs (.spokeData t l p false task card) s fun v =>
      v.mem = (putBytes s p.ctx (p.destAddr / 4 * 4) p.data).mem ∧ (linkOf v l).rxSeq = (p.seq + 1) % 65536 ∧
      KeptBut [.fab, .mem, .now, .rep] s v ∧ RegsKept [] (putBytes s p.ctx (p.destAddr / 4 * 4) p.data) v := by
  refine stored_runs h (exec_spokeData s t l p false task card) (publish_putBytes s _ _ _) ?_
  rw [dataArrives_stored (wakesStow_takeSeq.trans hw) hd ((ownerOk_takeSeq s t l p _ _).trans ho), ← putBytes_withOuter (isDevice_of_ownerOk ho),
    ← takeSeq_eq_withOuter]

theorem spokeData_onChip (h : Arrives s l p) {a : Nat} (ha : a = p.destAddr / 4 * 4) (hchip : onChip a = true) (hhbm : isHbm a = false)
    (hd : p.data ≠ []) (ho : ownerOk s p a p.data.length = true) (hw : wakesStow s p = false) (task : List (Nat × Nat)) (card : Nat) :
    Runs (.spokeData t l p false task card) s fun v =>
      (∀ i, i < p.data.length → readByte v (a + i) = p.data.getD i 0 % 256) ∧ BytesKept a p.data.length s v ∧
      (linkOf v l).rxSeq = (p.seq + 1) % 65536 ∧ KeptBut [.fab, .mem, .now, .rep] s v ∧ RegsKept [] s v := by
  subst ha
  obtain ⟨v, hv, hmem, hseq, hkept, hregs⟩ := spokeData_stored (t := t) h hd ho hw task card
  have hput : putBytes s p.ctx (p.destAddr / 4 * 4) p.data =
      clearLr (writeBytes p.data (p.destAddr / 4 * 4) s) (p.destAddr / 4 * 4) p.data.length := by
    rw [putBytes, if_neg hd, if_neg (by simp [hhbm]), if_pos hchip]
  rw [hput] at hmem hregs
  refine ⟨v, hv, fun i hi => ?_, fun b hb => ?_, hseq, hkept, fun f n hf hview => (hregs f n hf hview).trans ?_⟩
  · rw [readByte_congr hmem]
    exact readByte_writeBytes p.data _ s i hi
  · rw [readByte_congr hmem]
    exact bytesKept_writeBytes p.data _ s b hb
  · exact ((within_writeBytes p.data _ s).trans (within_clearLr _ _ _)).regs f n (by simp)

/-- A packet of LENGTH 0 writes nothing. -/
theorem spokeData_empty (h : Arrives s l p) (hd : p.data = []) (hw : wakesStow s p = false) (task : List (Nat × Nat)) (card : Nat) :
    Runs (.spokeData t l p false task card) s fun v =>
      (linkOf v l).rxSeq = (p.seq + 1) % 65536 ∧ KeptBut [.fab, .now, .rep] s v ∧ RegsKept [] s v := by
  refine delivered_runs h (exec_spokeData s t l p false task card) ?_
  have hdel : dataArrives p task card (takeSeq (tick s t) l) = takeSeq (tick s t) l := by
    simp [dataArrives, hd, wakesStow_takeSeq, hw]
  rw [hdel]
  have hcredit := sends_creditReturned (takeSeq (tick s t) l) l p
  obtain ⟨-, -, hseq, -⟩ := h
  refine ⟨?_, ((within_takeSeq s t l).trans (hcredit.within.mono (by simp) (by simp))).toWithinAt.settled⟩
  rw [hseq, linkOf_settled, hcredit.rxSeq, rxSeq_takeSeq]

/-! Exits from STOW (R440) -/

theorem within_startExit (s : State) (reason : Nat) : Within [.boot, .rep] exitFlds s (startExit s reason) := by
  have hw : ∀ (u : State) (f : Fld) (n v : Nat), f ∈ exitFlds → Within [.boot, .rep] exitFlds u (wr u f n v) :=
    fun u f n v hf => (within_wr u f n v).mono (by simp) (by simpa using hf)
  unfold startExit
  extract_lets st u1 u2 u3 u4
  split
  · exact (within_boot s _).mono (by simp) (by simp)
  · split
    · have h1 : Within [.boot, .rep] exitFlds s u1 := hw s _ _ _ (by simp [exitFlds])
      have h2 : Within [.boot, .rep] exitFlds u1 u2 := (within_boot u1 _).mono (by simp) (by simp)
      have h3 : Within [.boot, .rep] exitFlds u2 u3 := by
        unfold u3
        split
        · exact (within_emit u2 _).mono (by simp) (by simp)
        · exact Within.refl _ _ u2
      have h4 : Within [.boot, .rep] exitFlds u3 u4 := by
        unfold u4
        split
        · exact hw u3 _ _ _ (by simp [exitFlds])
        · exact Within.refl _ _ u3
      exact (((h1.trans h2).trans h3).trans h4).trans ((hw u4 _ _ _ (by simp [exitFlds])).trans (hw _ _ _ _ (by simp [exitFlds])))
    · exact Within.refl _ _ s

theorem startExit_of_stow {s : State} (h : rd s .LP_STATUS_STATE = 3) (reason : Nat) :
    rd (startExit s reason) .LP_STATUS_STATE = 6 ∧ (startExit s reason).boot.lpReason = reason := by
  have hcases : startExit s reason = wr (wr (wr (updBoot (inc s .LP_RESIDENCY 1 ((s.now - s.boot.lpSince) / 1000)) fun b =>
      { b with lpFrom := 3, lpReason := reason, lpSince := s.now, wakeN := b.wakeN || false }) .BOOT_STATUS_PHASE 0 3)
      .LP_STATUS_STATE 0 6) .LP_STATUS_KICKSTAND_READY 0 0 := by
    simp [startExit, h]
  rw [hcases]
  exact ⟨by rw [rd_wr_ne _ _ _ _ _ _ (by simp), rd_wr_same], rfl⟩

/-- A BUFFERED packet of context 0 wakes the module from STOW. -/
theorem spokeData_wakes (h : Arrives s l p) (hd : p.data = []) (hcls : p.cls = 3) (hctx : p.ctx = 0) (hst : rd s .LP_STATUS_STATE = 3)
    (task : List (Nat × Nat)) (card : Nat) : Runs (.spokeData t l p false task card) s fun v =>
      rd v .LP_STATUS_STATE = 6 ∧ v.boot.lpReason = 6 ∧ v.mem = s.mem := by
  have hst' : rd (takeSeq (tick s t) l) .LP_STATUS_STATE = 3 := (rd_takeSeq s t l _ _).trans hst
  have hdel : dataArrives p task card (takeSeq (tick s t) l) = startExit (takeSeq (tick s t) l) 6 := by
    simp [dataArrives, hd, wakesStow, hcls, hctx, hst']
  refine delivered_runs h (exec_spokeData s t l p false task card) ?_
  rw [hdel]
  obtain ⟨hstate, hreason⟩ := startExit_of_stow hst' 6
  have hcredit := (sends_creditReturned (startExit (takeSeq (tick s t) l) 6) l p).within
  have hmem : (startExit (takeSeq (tick s t) l) 6).mem = s.mem :=
    Eq.trans ((within_startExit _ 6).parts .mem (by simp)) (takeSeq_mem s t l)
  refine ⟨?_, Eq.trans (congrArg Boot.lpReason (hcredit.parts .boot (by simp))) hreason, Eq.trans (hcredit.parts .mem (by simp)) hmem⟩
  rw [rd_settled_other _ _ _ _ (by decide), hcredit.regs _ _ (by simp), hstate]

/-! Packets that their context may not write (R344) -/

theorem ownerDrop_facts (s : State) (p : Packet) (task : List (Nat × Nat)) (card : Nat) :
    rd (ownerDrop s p task card) .SPOKE_DROP_OWNER = rd (inc s .SPOKE_DROP_OWNER) .SPOKE_DROP_OWNER ∧
    rd (ownerDrop s p task card) .MEM_STATUS_GRANULE_FAULT (destHub p.destAddr) = 1 ∧
    ∀ k ∈ task, itemAt (ownerDrop s p task card) k.1 k.2 = none := by
  unfold ownerDrop
  extract_lets h u f
  have hend : QueueFrame u (endTask (hubError u h (fieldRow f).off (2 ^ (fieldRow f).lo) 0 (some p.ctx)) task card 0x23 0x02) :=
    (queueFrame_hubError u _ _ _ _ _).trans (queueFrame_endTask _ _ _ _ _)
  refine ⟨(hend.within.regs _ _ (by decide)).trans ?_, (hend.within.regs _ _ (by decide)).trans (rd_wr_same _ _ _ _),
    fun k hk => itemAt_endTask hk _ _ _ _⟩
  exact (rd_wr_ne _ _ _ _ _ _ (by simp)).trans (rd_wr_ne _ _ _ _ _ _ (by simp))

theorem spokeData_dropped (h : Arrives s l p) (hd : p.data ≠ []) (ho : ownerOk s p (p.destAddr / 4 * 4) p.data.length = false)
    (task : List (Nat × Nat)) (card : Nat) : Runs (.spokeData t l p false task card) s fun v =>
      rd v .SPOKE_DROP_OWNER = rd (inc s .SPOKE_DROP_OWNER) .SPOKE_DROP_OWNER ∧
      rd v .MEM_STATUS_GRANULE_FAULT (destHub p.destAddr) = 1 ∧ (∀ k ∈ task, itemAt v k.1 k.2 = none) := by
  have hx : ∃ x, Within [.boot, .fab, .now, .rep] exitFlds s x ∧ dataArrives p task card (takeSeq (tick s t) l) = ownerDrop x p task card := by
    have hwake : Within [.boot, .fab, .now, .rep] exitFlds s
        (if wakesStow (takeSeq (tick s t) l) p then startExit (takeSeq (tick s t) l) 6 else takeSeq (tick s t) l) := by
      refine ((within_takeSeq s t l).mono (by simp) (by simp)).trans ?_
      split
      · exact (within_startExit _ 6).mono (by simp) (by simp)
      · exact Within.refl _ _ _
    refine ⟨_, hwake, ?_⟩
    have howner := (ownerOk_congr (hwake.parts .mem (by simp)) (fun n => hwake.regs _ n (by decide)) p _ _).trans ho
    unfold dataArrives
    dsimp only
    rw [if_neg hd, if_neg (by simp [howner])]
  obtain ⟨x, hframe, hdel⟩ := hx
  refine delivered_runs h (exec_spokeData s t l p false task card) ?_
  rw [hdel]
  obtain ⟨hcount, hfault, hitems⟩ := ownerDrop_facts x p task card
  have hcredit := (sends_creditReturned (ownerDrop x p task card) l p).within
  refine ⟨?_, ?_, fun k hk => ?_⟩
  · rw [rd_settled_other _ _ _ _ (by decide), hcredit.regs _ _ (by simp), hcount, inc, inc, rd_wr_same, rd_wr_same,
      hframe.regs _ _ (by decide)]
  · rw [rd_settled_other _ _ _ _ (by decide), hcredit.regs _ _ (by simp), hfault]
  · rw [itemAt_settled, itemAt_congr (congrArg Serving.items (hcredit.parts .serve (by simp)))]
    exact hitems k hk

end Data

/-! SPOKE_RED -/

section Red
variable {s : State} {t l : Nat} {p : Packet} {a : Nat}

theorem exec_spokeRed (s : State) (t l : Nat) (p : Packet) (uncorr : Bool) (task : List (Nat × Nat)) (card fmt count : Nat) :
    exec (.spokeRed t l p uncorr task card fmt count) s = settle s (packetIn (tick s t) l p uncorr fun x =>
      if onChip (p.destAddr / 128 * 128) ∧ p.destAddr / 128 * 128 < lsBase ∧ ownerOk x p (p.destAddr / 128 * 128) p.data.length then
        redsArrive ((p.destAddr / 128 * 128 - pantryBase) / 0x800000) p count fmt x
      else ownerDrop x p task card) := rfl

theorem spokeRed_added (h : Arrives s l p) (ha : a = p.destAddr / 128 * 128) (hchip : onChip a = true) (hls : a < lsBase)
    (ho : ownerOk s p a p.data.length = true) (task : List (Nat × Nat)) (card fmt count : Nat) :
    Runs (.spokeRed t l p false task card fmt count) s fun v =>
      v.mem = (redsArrive ((a - pantryBase) / 0x800000) p count fmt s).mem ∧ (linkOf v l).rxSeq = (p.seq + 1) % 65536 ∧
      KeptBut [.fab, .mem, .now, .rep] s v ∧ RegsKept [] (redsArrive ((a - pantryBase) / 0x800000) p count fmt s) v := by
  subst ha
  refine stored_runs h (exec_spokeRed s t l p false task card fmt count) ((within_redsArrive _ p count fmt s).mono (by simp) (List.Subset.refl _)) ?_
  rw [if_pos ⟨hchip, hls, (ownerOk_takeSeq s t l p _ _).trans ho⟩, ← redsArrive_withOuter, ← takeSeq_eq_withOuter]

/-- The elements of the one flit of a packet. -/
def flitElems (p : Packet) : List Nat := (List.range 32).map fun j => leNum ((p.data.drop (4 * j)).take 4)

theorem redFlits_one (hlen : p.data.length = 128) : redFlits p = [(p.destAddr / 128, flitElems p)] := by
  simp [redFlits, hlen, flitElems]

theorem spokeRed_first (h : Arrives s l p) (ha : a = p.destAddr / 128 * 128) (hchip : onChip a = true) (hls : a < lsBase)
    (hlen : p.data.length = 128) (hidx : p.srcIndex = 0) (ho : ownerOk s p a 128 = true)
    (hnone : ∀ x ∈ s.mem.redLines, x.line ≠ p.destAddr / 128) (task : List (Nat × Nat)) (card fmt count : Nat) :
    Runs (.spokeRed t l p false task card fmt count) s fun v =>
      (∀ j, j < 32 → ∀ x old, x = leNum ((p.data.drop (4 * j)).take 4) → old = readLe s (a + 4 * j) 4 →
        readLe v (a + 4 * j) 4 = (if fmt = 0xA then f32Add old x else old + x) % 2 ^ 32) ∧
      BytesKept a 128 s v ∧ KeptBut [.fab, .mem, .now, .rep] s v ∧ RegsKept [] s v := by
  obtain ⟨v, hv, hmem, -, hkept, hregs⟩ := spokeRed_added (t := t) h ha hchip hls (by rwa [hlen]) task card fmt count
  have hone : redsArrive ((a - pantryBase) / 0x800000) p count fmt s =
      redArrive ((a - pantryBase) / 0x800000) s (p.destAddr / 128) 0 count fmt (flitElems p) := by
    rw [redsArrive, redFlits_one hlen, hidx]
    rfl
  rw [hone] at hmem hregs
  obtain ⟨hadd, hkeep, hsame⟩ := redArrive_first_adds hnone ((a - pantryBase) / 0x800000) count fmt (v := flitElems p) (by simp [flitElems])
  rw [← ha] at hadd hkeep
  refine ⟨v, hv, fun j hj x old hx hold => ?_, fun b hb => (readByte_congr hmem b).trans (hkeep b hb), hkept,
    fun g n hg hview => (hregs g n hg hview).trans (hsame g n)⟩
  rw [readLe, readBytes_congr hmem, ← readLe, hadd j hj, ← hold, hx]
  simp [flitElems, hj, redSum]

end Red

end Sys2Proof.Machine
end

section
/-! O54: credits and barriers that arrive (R346, R354). -/

namespace Sys2Proof.Machine

/-! CREDIT -/

section Credit
variable {s : State} {t l : Nat} {p : Packet}

/-- Whether a packet takes its credit from a pool. -/
def drawsFrom (l i : Nat) (p : Packet) : Bool := credited p && poolIdx p.ctx l == i

theorem within_sendCredited (s : State) (l : Nat) (p : Packet) : Within [.fab, .rep] [.SPOKE_CREDIT_POOL] s (sendCredited s l p) := by
  unfold sendCredited
  split
  · exact (within_sendPacket s l p).mono (by simp) (by simp)
  · dsimp only
    split
    · exact (within_fab s _).mono (by simp) (by simp)
    · exact ((within_wr s _ _ _).mono (by simp) (by simp)).trans ((within_sendPacket _ l p).mono (by simp) (by simp))

/-- A packet that is sent takes one credit of its pool, if there is one. -/
theorem rd_sendCredited (s : State) (l i : Nat) (p : Packet) :
    rd (sendCredited s l p) .SPOKE_CREDIT_POOL i = rd s .SPOKE_CREDIT_POOL i - b2n (drawsFrom l i p) := by
  have hsend : ∀ u : State, rd (sendPacket u l p) .SPOKE_CREDIT_POOL i = rd u .SPOKE_CREDIT_POOL i :=
    fun u => (within_sendPacket u l p).regs _ i (by simp)
  unfold sendCredited drawsFrom
  cases credited p with
  | false => simpa [b2n] using hsend s
  | true =>
    by_cases hi : poolIdx p.ctx l = i
    · subst hi
      by_cases hn : rd s .SPOKE_CREDIT_POOL (poolIdx p.ctx l) = 0
      · simp [hn]
      · simp [hn, hsend, b2n]
    · have hother : rd (wr s .SPOKE_CREDIT_POOL (poolIdx p.ctx l) (rd s .SPOKE_CREDIT_POOL (poolIdx p.ctx l) - 1)) .SPOKE_CREDIT_POOL i =
          rd s .SPOKE_CREDIT_POOL i := rd_wr_ne _ _ _ _ _ _ fun e => hi e.2.symm
      by_cases hn : rd s .SPOKE_CREDIT_POOL (poolIdx p.ctx l) = 0
      · simp [hn, hi, b2n]
      · simp [hn, hsend, hi, hother, b2n]

theorem rd_each_sendCredited (l i : Nat) : ∀ (ws : List (Nat × Packet)) (s : State),
    rd (each ws s fun t e => sendCredited t l e.2) .SPOKE_CREDIT_POOL i =
      rd s .SPOKE_CREDIT_POOL i - (ws.filter fun e => drawsFrom l i e.2).length
  | [], _ => rfl
  | e :: ws, s => by
    have hrest := rd_each_sendCredited l i ws (sendCredited s l e.2)
    rw [rd_sendCredited] at hrest
    refine hrest.trans ?_
    rw [List.filter_cons]
    cases drawsFrom l i e.2
    · simp [b2n]
    · simp only [b2n, if_true, List.length_cons]
      omega

theorem within_drainWaiting (s : State) (l : Nat) : Within [.fab, .rep] [.SPOKE_CREDIT_POOL] s (drainWaiting s l) := by
  unfold drainWaiting
  exact ((within_fab s _).mono (by simp) (by simp)).trans (within_each _ (fun u (e : Nat × Packet) => within_sendCredited u l e.2) _ _)

theorem rd_drainWaiting (s : State) (l i : Nat) : rd (drainWaiting s l) .SPOKE_CREDIT_POOL i =
    rd s .SPOKE_CREDIT_POOL i - (s.fab.waiting.filter fun e => e.1 == l && credited e.2 && poolIdx e.2.ctx l == i).length := by
  unfold drainWaiting
  dsimp only
  rw [rd_each_sendCredited, rd_updFab, List.filter_filter]
  refine congrArg (fun q => _ - (List.filter q _).length) (funext fun e => ?_)
  simp [drawsFrom, Bool.and_comm, Bool.and_assoc]

/-- The credits that a CREDIT packet names return to a pool. -/
def creditsBack (p : Packet) (l : Nat) (x : State) : State :=
  wr x .SPOKE_CREDIT_POOL (poolIdx (p.destAddr % 64) l)
    (min 512 (rd x .SPOKE_CREDIT_POOL (poolIdx (p.destAddr % 64) l) + bitsOf p.destAddr 25 16))

theorem exec_credit (s : State) (t l : Nat) (p : Packet) :
    exec (.credit t l p) s = settle s (packetIn (tick s t) l p false fun x => drainWaiting (creditsBack p l x) l) := rfl

theorem waiting_takeSeq (s : State) (t l : Nat) : (takeSeq (tick s t) l).fab.waiting = s.fab.waiting := by
  obtain ⟨ls, hls⟩ := takeSeq_links s t l
  rw [hls]

theorem credit_runs (h : Arrives s l p) {i : Nat} (hi : i = poolIdx (p.destAddr % 64) l) : Runs (.credit t l p) s fun v =>
    rd v .SPOKE_CREDIT_POOL i = min 512 (rd s .SPOKE_CREDIT_POOL i + bitsOf p.destAddr 25 16) -
      (s.fab.waiting.filter (fun e => e.1 == l && credited e.2 && poolIdx e.2.ctx l == i)).length ∧
    Frame [.fab, .now, .rep] [.SPOKE_CREDIT_POOL] s v := by
  subst hi
  refine delivered_runs h (exec_credit s t l p) ?_
  have hback : Within [.fab, .now, .rep] [.SPOKE_CREDIT_POOL] s (creditsBack p l (takeSeq (tick s t) l)) :=
    ((within_takeSeq s t l).mono (by simp) (by simp)).trans ((within_wr _ _ _ _).mono (by simp) (by simp))
  have hcredit := (sends_creditReturned (drainWaiting (creditsBack p l (takeSeq (tick s t) l)) l) l p).within
  refine ⟨?_, ((hback.trans ((within_drainWaiting _ l).mono (by simp) (by simp))).trans (hcredit.mono (by simp) (by simp))).settled⟩
  rw [rd_settled_other _ _ _ _ (by decide), hcredit.regs _ _ (by simp), rd_drainWaiting, creditsBack, rd_wr_same, rd_takeSeq]
  exact congrArg (fun ws => _ - (List.filter _ ws).length) (waiting_takeSeq s t l)

/-- No packet waits for credits on a link. -/
theorem drainWaiting_of_none {s : State} {l : Nat} (h : ∀ e ∈ s.fab.waiting, e.1 ≠ l) :
    drainWaiting s l = updFab s fun f => { f with waiting := f.waiting.filter (fun e => e.1 != l) } := by
  have hnone : s.fab.waiting.filter (fun e => e.1 == l) = [] := by simpa using h
  rw [drainWaiting, hnone]
  rfl

theorem credit_unawaited (h : Arrives s l p) {i : Nat} (hi : i = poolIdx (p.destAddr % 64) l) (hnone : ∀ e ∈ s.fab.waiting, e.1 ≠ l) :
    Runs (.credit t l p) s fun v =>
      rd v .SPOKE_CREDIT_POOL i = min 512 (rd s .SPOKE_CREDIT_POOL i + bitsOf p.destAddr 25 16) ∧
      KeptBut [.fab, .now, .rep] s v ∧ RegsKept [(.SPOKE_CREDIT_POOL, i)] s v := by
  subst hi
  refine delivered_runs h (exec_credit s t l p) ?_
  have hnone' : ∀ e ∈ (creditsBack p l (takeSeq (tick s t) l)).fab.waiting, e.1 ≠ l := fun e he =>
    hnone e (waiting_takeSeq s t l ▸ he)
  rw [drainWaiting_of_none hnone']
  have hcredit := (sends_creditReturned (updFab (creditsBack p l (takeSeq (tick s t) l)) fun f =>
    { f with waiting := f.waiting.filter (fun e => e.1 != l) }) l p).within
  refine ⟨?_, WithinAt.settled (WithinAt.mono ((((within_takeSeq s t l).toWithinAt.trans (withinAt_wr _ _ _ _)).trans
    (within_fab _ _).toWithinAt).trans hcredit.toWithinAt) (by simp) (by simp))⟩
  rw [rd_settled_other _ _ _ _ (by decide), hcredit.regs _ _ (by simp), rd_updFab, creditsBack, rd_wr_same, rd_takeSeq]

end Credit

/-! BARRIER -/

section Barrier
variable {s : State} {t l : Nat} {p : Packet} {b : BarrierBody} {g : Segment}

/-- The segment with the arrival that a BARRIER names. -/
def withArrival (g : Segment) (p : Packet) (b : BarrierBody) : Segment :=
  { g with arrived := g.arrived ++ [(p.src, b.arrival, b.causes, b.abort)] }

/-- What the coordinator's decision comes to. -/
def coordinated (e : State × Option Segment) : State :=
  match e with
  | (x, some g) => endSegment x g
  | (x, none) => x

/-- What a BARRIER does to its segment. -/
def barrierAt (p : Packet) (b : BarrierBody) (g : Segment) (x : State) : State :=
  if b.done then
    if coordinator g ≠ p.src then x
    else if b.abort then endSegment x g else segmentDone x g b.arrival b.causes
  else if coordinator g ≠ ownAddr x ∨ g.arrived.any (fun a => a.1 == p.src) = true then x
  else coordinated (coordinate x (withArrival g p b))

/-- The segment that a BARRIER from a member names. -/
def segmentOf (s : State) (p : Packet) (b : BarrierBody) : Option Segment :=
  s.fab.segments.find? (fun g => g.start == b.start && decide (p.src ∈ g.members))

/-- What a BARRIER does. -/
def barrierArrives (p : Packet) (b : BarrierBody) (x : State) : State :=
  match segmentOf x p b with
  | none => x
  | some g => barrierAt p b g x

theorem exec_barrier (s : State) (t l : Nat) (p : Packet) (b : BarrierBody) :
    exec (.barrier t l p b) s = settle s (packetIn (tick s t) l p false (barrierArrives p b)) := rfl

theorem segments_takeSeq (s : State) (t l : Nat) : (takeSeq (tick s t) l).fab.segments = s.fab.segments := by
  obtain ⟨ls, hls⟩ := takeSeq_links s t l
  rw [hls]

theorem barrier_runs {q : State → Prop} (h : Arrives s l p) (hg : segmentOf s p b = some g)
    (hq : q (settled s (creditReturned (barrierAt p b g (takeSeq (tick s t) l)) l p))) : Runs (.barrier t l p b) s q := by
  refine delivered_runs h (exec_barrier s t l p b) ?_
  have hfind : segmentOf (takeSeq (tick s t) l) p b = some g := by rwa [segmentOf, segments_takeSeq, ← segmentOf]
  rwa [barrierArrives, hfind]

/-- The segment completes on this module. -/
theorem barrier_done (h : Arrives s l p) (hg : segmentOf s p b = some g) (hd : b.done = true) (ha : b.abort = false)
    (hc : coordinator g = p.src) : Runs (.barrier t l p b) s fun v =>
      (∀ x ∈ v.fab.segments, x.start = g.start → x.members ≠ g.members) ∧ (bitAt b.causes 1 = true → v.tt.run.alertSeen = true) ∧
      KeptBut [.fab, .now, .rep, .tt] s v ∧ RegsKept [] s v := by
  refine barrier_runs h hg ?_
  have hdel : barrierAt p b g (takeSeq (tick s t) l) = segmentDone (takeSeq (tick s t) l) g b.arrival b.causes := by
    simp [barrierAt, hd, ha, hc]
  rw [hdel]
  have hcredit := sends_creditReturned (segmentDone (takeSeq (tick s t) l) g b.arrival b.causes) l p
  refine ⟨?_, fun halert => ?_, ((((within_takeSeq s t l).mono (by simp) (by simp)).trans
    ((within_segmentDone _ g _ _).mono (by simp) (by simp))).trans (hcredit.within.mono (by simp) (by simp))).toWithinAt.settled⟩
  · exact (noSegment_dropSegment (takeSeq (tick s t) l) g).congr hcredit.segments
  · rw [settled_tt, show (creditReturned _ l p).tt = _ from hcredit.within.parts .tt (by simp)]
    simp [segmentDone, halert]

/-- At the coordinator a member that has not arrived yet arrives. -/
theorem barrierAt_coordinator (hd : b.done = false) (hc : coordinator g = ownAddr s) (hnew : ∀ a ∈ g.arrived, a.1 ≠ p.src) :
    barrierAt p b g (takeSeq (tick s t) l) = coordinated (coordinate (takeSeq (tick s t) l) (withArrival g p b)) := by
  have hown : coordinator g = ownAddr (takeSeq (tick s t) l) := hc.trans (rd_takeSeq s t l _ _).symm
  have hnone : g.arrived.any (fun a => a.1 == p.src) = false := by simpa using hnew
  simp [barrierAt, hd, hown, hnone]

theorem withArrival_any_abort (hab : ∀ a ∈ g.arrived, a.2.2.2 = false) (ha : b.abort = false) :
    (withArrival g p b).arrived.any (·.2.2.2) = false := by
  simpa [withArrival, ha] using hab

/-- A member arrives while another has still to. -/
theorem barrier_waits (h : Arrives s l p) (hg : segmentOf s p b = some g) (hd : b.done = false) (ha : b.abort = false)
    (hc : coordinator g = ownAddr s) (hnew : ∀ a ∈ g.arrived, a.1 ≠ p.src ∧ a.2.2.2 = false)
    (hmiss : ∃ m ∈ g.members, m ≠ p.src ∧ ∀ a ∈ g.arrived, a.1 ≠ m) : Runs (.barrier t l p b) s fun v =>
      withArrival g p b ∈ v.fab.segments ∧ KeptBut [.fab, .now, .rep] s v ∧ RegsKept [] s v := by
  refine barrier_runs h hg ?_
  have hall : (withArrival g p b).members.all (fun m => (withArrival g p b).arrived.any (fun a => a.1 == m)) = false := by
    obtain ⟨m, hm, hsrc, hnone⟩ := hmiss
    refine List.all_eq_false.mpr ⟨m, hm, fun hany => ?_⟩
    obtain ⟨a, harr, ham⟩ := List.any_eq_true.mp hany
    obtain hold | hlast := List.mem_append.mp harr
    · exact hnone a hold (by simpa using ham)
    · obtain rfl := List.mem_singleton.mp hlast
      exact hsrc (Eq.symm (by simpa using ham))
  have hdel : barrierAt p b g (takeSeq (tick s t) l) = putSegment (takeSeq (tick s t) l) (withArrival g p b) := by
    rw [barrierAt_coordinator hd hc fun a hx => (hnew a hx).1, coordinate_eq,
      if_neg (by simp [withArrival_any_abort (fun a hx => (hnew a hx).2) ha]), if_neg (by simp [hall]), coordinated]
  rw [hdel]
  have hcredit := sends_creditReturned (putSegment (takeSeq (tick s t) l) (withArrival g p b)) l p
  refine ⟨?_, (((within_takeSeq s t l).trans ((within_putSegment _ _).mono (by simp) (by simp))).trans
    (hcredit.within.mono (by simp) (by simp))).toWithinAt.settled⟩
  rw [settled_fab, hcredit.segments]
  exact mem_putSegment _ _

/-- The last member arrives. -/
theorem barrier_completes (h : Arrives s l p) (hg : segmentOf s p b = some g) (hd : b.done = false) (ha : b.abort = false)
    (hc : coordinator g = ownAddr s) (hnew : ∀ a ∈ g.arrived, a.1 ≠ p.src ∧ a.2.2.2 = false)
    (hall : ∀ m ∈ g.members, m = p.src ∨ ∃ a ∈ g.arrived, a.1 = m) : Runs (.barrier t l p b) s fun v =>
      (∀ x ∈ v.fab.segments, x.start = g.start → x.members ≠ g.members) ∧ KeptBut [.fab, .now, .rep, .tt] s v ∧ RegsKept [] s v := by
  refine barrier_runs h hg ?_
  have hall' : (withArrival g p b).members.all (fun m => (withArrival g p b).arrived.any (fun a => a.1 == m)) = true := by
    refine List.all_eq_true.mpr fun m hm => ?_
    obtain rfl | ⟨a, harr, rfl⟩ := hall m hm
    · simp [withArrival]
    · exact List.any_eq_true.mpr ⟨a, List.mem_append_left _ harr, by simp⟩
  have hany := withArrival_any_abort (p := p) (fun a hx => (hnew a hx).2) ha
  have hdel : barrierAt p b g (takeSeq (tick s t) l) = (coordinate (takeSeq (tick s t) l) (withArrival g p b)).1 ∧
      NoSegment (coordinate (takeSeq (tick s t) l) (withArrival g p b)).1 g.start g.members := by
    rw [barrierAt_coordinator hd hc fun a hx => (hnew a hx).1, coordinate_eq, if_neg (by simp [hany]), if_pos hall']
    exact ⟨rfl, noSegment_dropSegment _ (withArrival g p b)⟩
  obtain ⟨hdel, hgone⟩ := hdel
  rw [hdel]
  have hcredit := sends_creditReturned (coordinate (takeSeq (tick s t) l) (withArrival g p b)).1 l p
  exact ⟨hgone.congr hcredit.segments, ((((within_takeSeq s t l).mono (by simp) (by simp)).trans
    ((within_coordinate _ _).mono (by simp) (by simp))).trans (hcredit.within.mono (by simp) (by simp))).toWithinAt.settled⟩

/-! Segments that abort -/

theorem itemsEnd_endSegmentItems (s : State) (g : Segment) : ItemsEnd s (endSegmentItems s g) := itemsEnd_endItems s _ _ _

theorem itemAt_endSegmentItems {k : Nat × Nat} (hk : k ∈ g.task) (s : State) : itemAt (endSegmentItems s g) k.1 k.2 = none := by
  unfold endSegmentItems
  refine itemAt_endItems (fun x hctx hidx => List.any_eq_true.mpr ⟨k, hk, ?_⟩) s _ _
  simp [hctx, hidx]

/-- An aborted segment is gone, and so are the items of its tasks. -/
theorem endSegment_ends (s : State) (g : Segment) : NoSegment (endSegment s g) g.start g.members ∧
    ∀ k ∈ g.task, itemAt (endSegment s g) k.1 k.2 = none := by
  unfold endSegment
  extract_lets ts
  have hend : TasksEnd (dropSegment s g) (each ts (dropSegment s g) fun t e => endTask t e.1 e.2 0x23 0x02) :=
    tasksEnd_each (fun t (e : List (Nat × Nat) × Nat) => tasksEnd_endTask t e.1 e.2 0x23 0x02) ts _
  exact ⟨(itemsEnd_endSegmentItems _ g).tasksEnd.absent _ _ (hend.absent _ _ (noSegment_dropSegment s g)),
    fun k hk => itemAt_endSegmentItems hk _⟩

theorem barrier_aborts (h : Arrives s l p) (hg : segmentOf s p b = some g) (ha : b.abort = true)
    (hcase : b.done = true ∧ coordinator g = p.src ∨ b.done = false ∧ coordinator g = ownAddr s ∧ ∀ a ∈ g.arrived, a.1 ≠ p.src) :
    Runs (.barrier t l p b) s fun v =>
      (∀ x ∈ v.fab.segments, x.start = g.start → x.members ≠ g.members) ∧ (∀ k ∈ g.task, itemAt v k.1 k.2 = none) := by
  refine barrier_runs h hg ?_
  have hdel : ∃ x g', g'.start = g.start ∧ g'.members = g.members ∧ g'.task = g.task ∧
      barrierAt p b g (takeSeq (tick s t) l) = endSegment x g' := by
    obtain ⟨hd, hc⟩ | ⟨hd, hc, hnew⟩ := hcase
    · exact ⟨takeSeq (tick s t) l, g, rfl, rfl, rfl, by simp [barrierAt, hd, ha, hc]⟩
    · refine ⟨dropSegment (toldMembers (takeSeq (tick s t) l) (withArrival g p b) true) (withArrival g p b), withArrival g p b,
        rfl, rfl, rfl, ?_⟩
      rw [barrierAt_coordinator hd hc hnew, coordinate_eq, if_pos (by simp [withArrival, ha]), coordinated]
  obtain ⟨x, g', hstart, hmembers, htask, hdel⟩ := hdel
  obtain ⟨hgone, hitems⟩ := endSegment_ends x g'
  rw [hstart, hmembers] at hgone
  rw [hdel]
  have hcredit := sends_creditReturned (endSegment x g') l p
  refine ⟨hgone.congr hcredit.segments, fun k hk => ?_⟩
  rw [itemAt_settled, itemAt_congr (congrArg Serving.items (hcredit.within.parts .serve (by simp)))]
  exact hitems k (htask ▸ hk)

end Barrier

end Sys2Proof.Machine
end

section
/-! O54: packets that are lost, acknowledgement and retransmission, and links that retrain or retire (R343, Table 12-2). -/

namespace Sys2Proof.Machine

section Link
variable {s : State} {t l : Nat} {p : Packet}

/-! Packets that are lost -/

theorem sendNak_eq {s : State} {l : Nat} (h : linkUp s l = true) : ∃ q : Packet, q.type = 4 ∧ q.destAddr = (linkOf s l).rxSeq ∧
    sendNak s l = emit s (.packet l q) :=
  ⟨stamped s l _, rfl, rfl, sendPacket_exempt h rfl⟩

theorem within_sendNak (s : State) (l : Nat) : Within [.fab, .rep] [] s (sendNak s l) :=
  (within_sendPacket s l _).mono (by simp) (by simp)

/-- A packet that is not the next of its link is discarded with a NAK. -/
theorem packetIn_outOfOrder (hl : l < 6) (hst : rd s .SPOKE_LINK_STATE_STATE l = 2) (hseq : p.seq ≠ (linkOf s l).rxSeq)
    (deliver : State → State) : packetIn (tick s t) l p false deliver = sendNak (tick s t) l := by
  have hin : l < 6 ∧ linkUp (tick s t) l = true := ⟨hl, linkUp_of_state hst⟩
  have hseq' : p.seq ≠ (linkOf (tick s t) l).rxSeq := hseq
  simp [packetIn, hin, hseq']

theorem outOfOrder_runs {c : Instr} {deliver : State → State} (hexec : exec c s = settle s (packetIn (tick s t) l p false deliver))
    (hl : l < 6) (hst : rd s .SPOKE_LINK_STATE_STATE l = 2) (hseq : p.seq ≠ (linkOf s l).rxSeq) : Runs c s fun v =>
      KeptBut [.now, .rep] s v ∧ RegsKept [] s v ∧ ∃ q, .packet l q ∈ v.rep.outs ∧ q.type = 4 ∧ q.destAddr = (linkOf s l).rxSeq := by
  obtain ⟨q, htype, hdest, hnak⟩ := sendNak_eq (s := tick s t) (l := l) (linkUp_of_state hst)
  refine runs_of_settle (hexec.trans (by rw [packetIn_outOfOrder hl hst hseq, hnak])) ?_
  obtain ⟨hkept, hregs⟩ := (((within_tick s t).mono (by simp) (by simp)).trans ((within_emit _ (.packet l q)).mono (by simp) (by simp)) :
    Within [.now, .rep] [] s _).toWithinAt.settled
  exact ⟨hkept, hregs, q, List.mem_append_right s.rep.outs (List.mem_singleton_self _), htype, hdest⟩

/-- Uncorrectable codewords are counted and a NAK goes back. -/
theorem uncorrectable_runs {c : Instr} {deliver : State → State} (hexec : exec c s = settle s (packetIn (tick s t) l p true deliver))
    (hl : l < 6) (hst : rd s .SPOKE_LINK_STATE_STATE l = 2) : Runs c s fun v =>
      rd v .SPOKE_FEC_UNCORR l = rd (inc s .SPOKE_FEC_UNCORR l) .SPOKE_FEC_UNCORR l ∧ (linkOf v l).rxSeq = (linkOf s l).rxSeq ∧
      KeptBut [.dbg, .fab, .now, .rep] s v ∧ RegsKept [(.SPOKE_FEC_UNCORR, l)] s v := by
  have hup : linkUp (tick s t) l = true := linkUp_of_state hst
  have hin : l < 6 ∧ linkUp (tick s t) l = true := ⟨hl, hup⟩
  have hpacket : ∃ x : LinkSt, x.rxSeq = (linkOf s l).rxSeq ∧ packetIn (tick s t) l p true deliver =
      sendNak (contribute (inc (setLink (tick s t) l x) .SPOKE_FEC_UNCORR l) 9 1) l := by
    refine ⟨_, ?_, by simp only [packetIn, hin, and_self, not_true_eq_false, if_false, if_true]; rfl⟩
    rfl
  obtain ⟨x, hx, hpacket⟩ := hpacket
  refine runs_of_settle (hexec.trans (by rw [hpacket])) ?_
  have hnak : Sends (contribute (inc (setLink (tick s t) l x) .SPOKE_FEC_UNCORR l) 9 1)
    (sendNak (contribute (inc (setLink (tick s t) l x) .SPOKE_FEC_UNCORR l) 9 1) l) := sends_sendPacket _ l _
  refine ⟨?_, ?_, WithinAt.settled (WithinAt.mono ((((within_tick s t).toWithinAt.trans (within_setLink _ l x).toWithinAt).trans
    (withinAt_wr _ _ _ _)).trans ((within_contribute _ 9 1).toWithinAt.trans (within_sendNak _ l).toWithinAt)) (by simp) (by simp))⟩
  · rw [rd_settled_other _ _ _ _ (by decide), (within_sendNak _ l).regs _ _ (by simp), (within_contribute _ 9 1).regs _ _ (by simp),
      inc, inc, rd_wr_same, rd_wr_same]
    rfl
  · have hlink : linkOf (contribute (inc (setLink (tick s t) l x) .SPOKE_FEC_UNCORR l) 9 1) l = x :=
      (linkOf_congr rfl l).trans (linkOf_setLink_same (tick s t) l x)
    rw [linkOf_settled, hnak.rxSeq, hlink, hx]

/-! Acknowledgement and retransmission -/

theorem spokeAck_runs (hl : l < 6) (hst : rd s .SPOKE_LINK_STATE_STATE l = 2) : Runs (.spokeAck t l p) s fun v =>
    (linkOf v l).replay = (linkOf s l).replay.filter (fun e => serialAhead e.2.seq (p.destAddr % 65536)) ∧
    (∀ m, m ≠ l → linkOf v m = linkOf s m) ∧ KeptBut [.fab, .now] s v ∧ RegsKept [] s v := by
  have hup : linkUp (tick s t) l = true := linkUp_of_state hst
  have hexec : exec (.spokeAck t l p) s = settle s (setLink (tick s t) l { linkOf s l with
      replay := (linkOf s l).replay.filter (fun e => serialAhead e.2.seq (p.destAddr % 65536)) }) :=
    congrArg (settle s) (if_pos ⟨hl, hup⟩)
  refine runs_of_settle hexec ⟨congrArg LinkSt.replay (linkOf_setLink_same (tick s t) l _),
    fun m hm => linkOf_setLink_other (s := tick s t) _ hm, ?_⟩
  exact WithinAt.settled (WithinAt.mono ((within_tick s t).toWithinAt.trans (within_setLink _ l _).toWithinAt) (by simp) (by simp))

/-- Whether a packet of the replay buffer is sent again at a NAK for LINK_SEQ n. -/
def resent (n : Nat) (e : Nat × Packet) : Bool := e.2.seq == n || serialAhead e.2.seq n

/-- The packets that go again, each with its count of transmissions. -/
def resends (x : LinkSt) (n : Nat) : List (Nat × Packet) := (x.replay.filter (resent n)).map fun e => (e.1 + 1, { e.2 with retx := true })

/-- The packets from the lost one on have been sent again. -/
def replayed (s : State) (l n : Nat) : State :=
  inc (setLink s l { linkOf s l with replay := (linkOf s l).replay.filter (fun e => !resent n e) ++ resends (linkOf s l) n })
    .SPOKE_RETX l (resends (linkOf s l) n).length

theorem exec_spokeNak (hl : l < 6) (hst : rd s .SPOKE_LINK_STATE_STATE l = 2) (tasks : List (List (Nat × Nat) × Nat)) :
    exec (.spokeNak t l p tasks) s = settle s
      (if (linkOf s l).replay.any (fun e => e.2.seq == p.destAddr % 65536 && decide (3 ≤ e.1)) then retrainLink (tick s t) l tasks
      else each (resends (linkOf s l) (p.destAddr % 65536)) (replayed (tick s t) l (p.destAddr % 65536)) fun y e => emit y (.packet l e.2)) := by
  have hup : linkUp (tick s t) l = true := linkUp_of_state hst
  exact congrArg (settle s) (if_neg (not_not.mpr ⟨hl, hup⟩))

theorem outs_each_emit (l : Nat) : ∀ (rs : List (Nat × Packet)) (s : State),
    (each rs s fun y e => emit y (.packet l e.2)).rep.outs = s.rep.outs ++ rs.map fun e => .packet l e.2
  | [], s => (List.append_nil _).symm
  | e :: rs, s => by
    refine (outs_each_emit l rs (emit s (.packet l e.2))).trans ?_
    simp [emit]

theorem spokeNak_resends (hl : l < 6) (hst : rd s .SPOKE_LINK_STATE_STATE l = 2)
    (hfew : ∀ e ∈ (linkOf s l).replay, e.2.seq = p.destAddr % 65536 → e.1 < 3) (tasks : List (List (Nat × Nat) × Nat)) :
    Runs (.spokeNak t l p tasks) s fun v =>
      (∀ e ∈ (linkOf s l).replay, e.2.seq = p.destAddr % 65536 ∨ serialAhead e.2.seq (p.destAddr % 65536) = true →
        (e.1 + 1, { e.2 with retx := true }) ∈ (linkOf v l).replay ∧ .packet l { e.2 with retx := true } ∈ v.rep.outs) ∧
      (∀ m, m ≠ l → linkOf v m = linkOf s m) ∧ KeptBut [.fab, .now, .rep] s v ∧ RegsKept [(.SPOKE_RETX, l)] s v := by
  have hnone : ¬ (linkOf s l).replay.any (fun e => e.2.seq == p.destAddr % 65536 && decide (3 ≤ e.1)) = true := by
    rw [List.any_eq_true]
    rintro ⟨e, he, hthree⟩
    simp only [Bool.and_eq_true, beq_iff_eq, decide_eq_true_eq] at hthree
    exact absurd (hfew e he hthree.1) (not_lt.mpr hthree.2)
  refine runs_of_settle ((exec_spokeNak hl hst tasks).trans (by rw [if_neg hnone])) ?_
  have hemit := fun u => within_each (fun (y : State) (e : Nat × Packet) => emit y (.packet l e.2)) (fun y e => within_emit y _)
    (resends (linkOf s l) (p.destAddr % 65536)) u
  have hlink : ∀ m, linkOf (settled s (each (resends (linkOf s l) (p.destAddr % 65536)) (replayed (tick s t) l (p.destAddr % 65536))
      fun y e => emit y (.packet l e.2))) m = linkOf (replayed (tick s t) l (p.destAddr % 65536)) m :=
    fun m => linkOf_congr ((hemit _).parts .fab (by simp)) m
  refine ⟨fun e he hagain => ?_, fun m hm => ?_, WithinAt.settled (WithinAt.mono (((within_tick s t).toWithinAt.trans
    (within_setLink _ l _).toWithinAt).trans ((withinAt_wr _ _ _ _).trans (hemit _).toWithinAt)) (by simp) (by simp))⟩
  · have hsent : (e.1 + 1, { e.2 with retx := true }) ∈ resends (linkOf s l) (p.destAddr % 65536) :=
      List.mem_map.mpr ⟨e, List.mem_filter.mpr ⟨he, by simpa [resent] using hagain⟩, rfl⟩
    refine ⟨?_, ?_⟩
    · rw [hlink]
      exact (congrArg LinkSt.replay (linkOf_setLink_same (tick s t) l _)).symm ▸ List.mem_append_right _ hsent
    · rw [settled_rep, outs_each_emit]
      exact List.mem_append_right _ (List.mem_map.mpr ⟨_, hsent, rfl⟩)
  · rw [hlink]
    exact linkOf_setLink_other (s := tick s t) _ hm

/-! Links that retrain or retire -/

theorem within_linkRecord (s : State) (l event : Nat) : Within [.rep] (reportFlds ++ [.EVC_STATUS_LINK]) s (linkRecord s l event) :=
  ((within_report s _ _ _ _ _ _).mono (by simp) (by simp)).trans ((within_raiseModule _ _).mono (by simp) (by simp))

theorem linkGone_congr {s v : State} {l : Nat} (h : LinkGone s l)
    (hregs : ∀ f ∈ [Fld.SPOKE_LINK_STATE_STATE, .SPOKE_LINK_STATE_LANES, .SPOKE_LINK_STATE_LANE_MASK], rd v f l = rd s f l)
    (hlink : linkOf v l = linkOf s l) : LinkGone v l := by
  unfold LinkGone at *
  rw [hregs _ (by simp), hregs _ (by simp), hregs _ (by simp), hlink]
  exact h

/-- A link as it retires, before the tasks end that needed what it has not delivered. -/
def linkRetired (s : State) (l : Nat) : State :=
  linkRecord (setLanes (wr (setLink s l { linkOf s l with replay := [] }) .SPOKE_LINK_STATE_STATE l 4) l []) l 4

theorem retireLink_eq (s : State) (l : Nat) (tasks : List (List (Nat × Nat) × Nat)) : retireLink s l tasks =
    if !(linkOf s l).replay.isEmpty then each tasks (linkRetired s l) (fun t e => endTask t e.1 e.2 0x23 0x03) else linkRetired s l := rfl

theorem linkGone_linkRetired (s : State) (l : Nat) : LinkGone (linkRetired s l) l := by
  have hrecord := within_linkRecord (setLanes (wr (setLink s l { linkOf s l with replay := [] }) .SPOKE_LINK_STATE_STATE l 4) l []) l 4
  refine linkGone_congr ⟨?_, ?_, ?_, ?_⟩ (fun f hf => hrecord.regs f l ?_) (linkOf_congr (hrecord.parts .fab (by simp)) l)
  · rw [setLanes, rd_wr_ne _ _ _ _ _ _ (by simp), rd_wr_ne _ _ _ _ _ _ (by simp), rd_wr_same]
  · rw [setLanes, rd_wr_ne _ _ _ _ _ _ (by simp), rd_wr_same]
    rfl
  · rw [setLanes, rd_wr_same]
    rfl
  · exact congrArg LinkSt.replay (linkOf_setLink_same s l _)
  · revert f
    decide

/-- The tasks that end with a link do not bring it back. -/
theorem linkGone_retireLink (s : State) (l : Nat) (tasks : List (List (Nat × Nat) × Nat)) : LinkGone (retireLink s l tasks) l := by
  have hgone := linkGone_linkRetired s l
  have hend : TasksEnd (linkRetired s l) (each tasks (linkRetired s l) fun t e => endTask t e.1 e.2 0x23 0x03) :=
    tasksEnd_each (fun t (e : List (Nat × Nat) × Nat) => tasksEnd_endTask t e.1 e.2 0x23 0x03) tasks _
  rw [retireLink_eq]
  split
  · have hdown : linkUp (linkRetired s l) l = false := by
      obtain ⟨hstate, -⟩ := hgone
      simp [linkUp, hstate]
    refine linkGone_congr hgone (fun f hf => hend.frame.within.regs f l ?_) (hend.down l hdown)
    revert f
    decide
  · exact hgone

theorem retrainLink_retrains (s : State) (l : Nat) (tasks : List (List (Nat × Nat) × Nat)) : Retrained s (retrainLink s l tasks) l s.now := by
  unfold Retrained retrainLink
  extract_lets n x ts u
  have hlen : ts.length = n + 1 := by simp [ts, n, x]
  refine ⟨fun hn => ?_, fun hn => ?_⟩
  · rw [if_neg (by omega), setLinkState, if_neg (by simp)]
    have hrecord := within_linkRecord (wr u .SPOKE_LINK_STATE_STATE l 3) l 3
    rw [hrecord.regs _ _ (by decide), hrecord.regs _ _ (by decide), rd_wr_same, rd_wr_ne _ _ _ _ _ _ (by simp)]
    refine ⟨rfl, ?_⟩
    rw [show u = inc _ _ _ from rfl, inc, inc, rd_wr_same, rd_wr_same]
    rfl
  · rw [if_pos (by omega)]
    exact linkGone_retireLink u l tasks

theorem spokeNak_retrains (hl : l < 6) (hst : rd s .SPOKE_LINK_STATE_STATE l = 2)
    (hthird : ∃ e ∈ (linkOf s l).replay, e.2.seq = p.destAddr % 65536 ∧ 3 ≤ e.1) (tasks : List (List (Nat × Nat) × Nat)) :
    Runs (.spokeNak t l p tasks) s fun v => Retrained s v l (max s.now t) := by
  have hany : (linkOf s l).replay.any (fun e => e.2.seq == p.destAddr % 65536 && decide (3 ≤ e.1)) = true := by
    obtain ⟨e, he, hseq, hthree⟩ := hthird
    exact List.any_eq_true.mpr ⟨e, he, by simp [hseq, hthree]⟩
  refine runs_of_settle ((exec_spokeNak hl hst tasks).trans (by rw [if_pos hany])) ?_
  obtain ⟨hfew, hmany⟩ := retrainLink_retrains (tick s t) l tasks
  have hregs : ∀ f, f ∉ viewFlds → rd (settled s (retrainLink (tick s t) l tasks)) f l = rd (retrainLink (tick s t) l tasks) f l :=
    fun f hf => rd_settled_other _ _ _ _ hf
  refine ⟨fun hn => ?_, fun hn => linkGone_congr (hmany hn) (fun f hf => hregs f ?_) rfl⟩
  · obtain ⟨hstate, hcount⟩ := hfew hn
    exact ⟨(hregs _ (by decide)).trans hstate, (hregs _ (by decide)).trans hcount⟩
  · revert f
    decide

end Link

end Sys2Proof.Machine
end

section
/-! O54: the Spoke tables (R226, R340, R341); and the obligation. -/

namespace Sys2Proof.Machine

/-! SPOKE_TT_LOAD -/

section Load
variable {s : State} {src : Src}

/-- The image that a load of a table reads: a routing image, or a slot image with the lengths of its header. -/
def tableImage (s : State) (tb : Nat) : List Nat :=
  let a := rd s .SPOKE_TT_LOAD_SRC * 64
  if tb = 6 then readBytes s a (0x40 + 4096)
  else readBytes s a (0x40 + 4 * imgNum (readBytes s a 0x40) 4 2 + 8 * min 8000 (imgNum (readBytes s a 0x40) 8 4))

def tableImageOk (s : State) (tb : Nat) (img : List Nat) : Bool := if tb = 6 then routeImageOk s img else slotImageOk s tb img

/-- What a bank keeps of an image: of a routing image its entries. -/
def keptImage (tb : Nat) (img : List Nat) : List Nat := if tb = 6 then img.drop 0x40 else img

/-- A table's image is in its inactive bank. -/
def tableStored (s : State) (tb : Nat) (img : List Nat) : State :=
  let k := tb * 2 + (1 - rd s .SPOKE_TT_CTRL_ACTIVE_BANK)
  wr (updFab s fun f => { f with banks := storePut [] f.banks k (keptImage tb img) }) .SPOKE_TT_CTRL_LOADED 0
    (rd s .SPOKE_TT_CTRL_LOADED ||| 2 ^ tb)

/-- A table's image has failed its checks. -/
def tableFailed (s : State) (tb : Nat) : State :=
  wr (wr s .SPOKE_TT_CTRL_LOAD_ERROR 0 1) .SPOKE_TT_CTRL_LOADED 0 (rd s .SPOKE_TT_CTRL_LOADED &&& (127 ^^^ 2 ^ tb))

theorem exec_spokeTtLoad (hm : mayWrite s src .SPOKE_TT_LOAD_SRC 0 = true) : exec (.spokeTtLoad src) s = settle s
    (if rdb s .SPOKE_TT_CTRL_FLIP_REQ ∨ 6 < rd s .SPOKE_TT_LOAD_TABLE then wr s .SPOKE_TT_CTRL_LOAD_ERROR 0 1
    else if tableImageOk s (rd s .SPOKE_TT_LOAD_TABLE) (tableImage s (rd s .SPOKE_TT_LOAD_TABLE)) then
      tableStored s (rd s .SPOKE_TT_LOAD_TABLE) (tableImage s (rd s .SPOKE_TT_LOAD_TABLE))
    else tableFailed s (rd s .SPOKE_TT_LOAD_TABLE)) := by
  have hmay : ¬ mayWrite s src .SPOKE_TT_LOAD_SRC 0 = false := by simp [hm]
  exact congrArg (settle s) (if_neg hmay)

/-- A load is refused while a flip is requested, and for a table that is none. -/
theorem spokeTtLoad_refused (hm : mayWrite s src .SPOKE_TT_LOAD_SRC 0 = true)
    (h : rd s .SPOKE_TT_CTRL_FLIP_REQ = 1 ∨ 6 < rd s .SPOKE_TT_LOAD_TABLE) : Runs (.spokeTtLoad src) s fun v =>
      rd v .SPOKE_TT_CTRL_LOAD_ERROR = 1 ∧ KeptBut [] s v ∧ RegsKept [(.SPOKE_TT_CTRL_LOAD_ERROR, 0)] s v := by
  refine wr_runs ((exec_spokeTtLoad hm).trans (by rw [if_pos (by simpa [rdb_eq] using h)])) (by decide)

variable {tb : Nat} (hm : mayWrite s src .SPOKE_TT_LOAD_SRC 0 = true) (hf : rd s .SPOKE_TT_CTRL_FLIP_REQ ≠ 1)
  (ht : rd s .SPOKE_TT_LOAD_TABLE = tb) (h6 : tb ≤ 6)
include hm hf ht h6

theorem exec_spokeTtLoad_read : exec (.spokeTtLoad src) s = settle s
    (if tableImageOk s tb (tableImage s tb) then tableStored s tb (tableImage s tb) else tableFailed s tb) := by
  rw [exec_spokeTtLoad hm, ht, if_neg (by simp [rdb_eq, hf]; omega)]

theorem spokeTtLoad_stores (hok : tableImageOk s tb (tableImage s tb) = true) : Runs (.spokeTtLoad src) s fun v =>
    storeGet [] v.fab.banks (tb * 2 + (1 - rd s .SPOKE_TT_CTRL_ACTIVE_BANK)) = keptImage tb (tableImage s tb) ∧
    rd v .SPOKE_TT_CTRL_LOADED = rd s .SPOKE_TT_CTRL_LOADED ||| 2 ^ tb ∧ KeptBut [.fab] s v ∧
    RegsKept [(.SPOKE_TT_CTRL_LOADED, 0)] s v := by
  refine runs_of_settle ((exec_spokeTtLoad_read hm hf ht h6).trans (by rw [if_pos hok])) ⟨storeGet_put_same _ _ _ _, ?_, ?_⟩
  · exact (rd_settled_other _ _ _ _ (by decide)).trans (rd_wr_same _ _ _ _)
  · exact WithinAt.settled ((within_fab s _).toWithinAt.trans (withinAt_wr _ _ _ _))

theorem spokeTtLoad_fails (hbad : tableImageOk s tb (tableImage s tb) = false) : Runs (.spokeTtLoad src) s fun v =>
    rd v .SPOKE_TT_CTRL_LOAD_ERROR = 1 ∧ rd v .SPOKE_TT_CTRL_LOADED = rd s .SPOKE_TT_CTRL_LOADED &&& (127 ^^^ 2 ^ tb) ∧
    KeptBut [] s v ∧ RegsKept [(.SPOKE_TT_CTRL_LOAD_ERROR, 0), (.SPOKE_TT_CTRL_LOADED, 0)] s v := by
  refine runs_of_settle ((exec_spokeTtLoad_read hm hf ht h6).trans (by rw [if_neg (by simp [hbad])])) ⟨?_, ?_, ?_⟩
  · rw [rd_settled_other _ _ _ _ (by decide), tableFailed, rd_wr_ne _ _ _ _ _ _ (by simp), rd_wr_same]
  · exact (rd_settled_other _ _ _ _ (by decide)).trans (rd_wr_same _ _ _ _)
  · exact WithinAt.settled ((withinAt_wr s _ _ _).trans (withinAt_wr _ _ _ _))

end Load

/-! SPOKE_TABLE_FLIP -/

section Flip
variable {s : State} {t : Nat}

/-- The seven tables have flipped. -/
def tablesFlipped (s : State) (at_ : Nat) : State :=
  updFab (wr (wr (wr s .SPOKE_TT_CTRL_ACTIVE_BANK 0 (1 - rd s .SPOKE_TT_CTRL_ACTIVE_BANK)) .SPOKE_TT_CTRL_ACTIVE_GEN 0
    (nextGen (rd s .SPOKE_TT_CTRL_ACTIVE_GEN))) .SPOKE_TT_CTRL_LOADED 0 0) fun f => { f with flipAt := at_ }

/-- Whether a requested flip of the Spoke tables may take place: its time is a multiple of the period and all seven are loaded. -/
def spokeMayFlip (s : State) : Prop :=
  rd s .SPOKE_TT_FLIP_AT % (rd s .SPOKE_FAB_CFG_FLIP_PERIOD * 100000) = 0 ∧ rd s .SPOKE_TT_CTRL_LOADED = 127

theorem exec_spokeTableFlip (hr : rd s .SPOKE_TT_CTRL_FLIP_REQ = 1) (hat : rd s .SPOKE_TT_FLIP_AT ≤ max s.now t) :
    (spokeMayFlip s → exec (.spokeTableFlip t) s =
      settle s (tablesFlipped (wr (tick s t) .SPOKE_TT_CTRL_FLIP_REQ 0 0) (rd s .SPOKE_TT_FLIP_AT))) ∧
    (¬ spokeMayFlip s → exec (.spokeTableFlip t) s = settle s (hubError (wr (wr (tick s t) .SPOKE_TT_CTRL_FLIP_REQ 0 0)
      .SPOKE_TT_CTRL_FLIP_REJECTED 0 1) (leadHub (wr (tick s t) .SPOKE_TT_CTRL_FLIP_REQ 0 0)) 0x30 4 0)) := by
  have hdue : ¬ (rdb (tick s t) .SPOKE_TT_CTRL_FLIP_REQ = false ∨ (tick s t).now < rd (tick s t) .SPOKE_TT_FLIP_AT) := by
    simp only [rdb_eq, rd_tick, hr, tick_now, not_or, not_lt]
    exact ⟨by simp, hat⟩
  have hcond : rd s .SPOKE_TT_FLIP_AT % (rd (wr (tick s t) .SPOKE_TT_CTRL_FLIP_REQ 0 0) .SPOKE_FAB_CFG_FLIP_PERIOD * 100000) = 0 ∧
      rd (wr (tick s t) .SPOKE_TT_CTRL_FLIP_REQ 0 0) .SPOKE_TT_CTRL_LOADED = 127 ↔ spokeMayFlip s := by
    rw [rd_wr_ne _ _ _ _ _ _ (by simp), rd_wr_ne _ _ _ _ _ _ (by simp), rd_tick, rd_tick, spokeMayFlip]
  exact ⟨fun h => congrArg (settle s) ((if_neg hdue).trans (if_pos (hcond.mpr h))),
    fun h => congrArg (settle s) ((if_neg hdue).trans (if_neg (hcond.not.mpr h)))⟩

theorem spokeTableFlip_flips (hr : rd s .SPOKE_TT_CTRL_FLIP_REQ = 1) (hat : rd s .SPOKE_TT_FLIP_AT ≤ max s.now t) (h : spokeMayFlip s) :
    Runs (.spokeTableFlip t) s fun v =>
      rd v .SPOKE_TT_CTRL_ACTIVE_BANK = 1 - rd s .SPOKE_TT_CTRL_ACTIVE_BANK ∧
      rd v .SPOKE_TT_CTRL_ACTIVE_GEN = nextGen (rd s .SPOKE_TT_CTRL_ACTIVE_GEN) ∧ rd v .SPOKE_TT_CTRL_FLIP_REQ = 0 ∧
      rd v .SPOKE_TT_CTRL_LOADED = 0 ∧ v.fab.flipAt = rd s .SPOKE_TT_FLIP_AT ∧ KeptBut [.fab, .now] s v ∧
      RegsKept [(.SPOKE_TT_CTRL_ACTIVE_BANK, 0), (.SPOKE_TT_CTRL_ACTIVE_GEN, 0), (.SPOKE_TT_CTRL_FLIP_REQ, 0),
        (.SPOKE_TT_CTRL_LOADED, 0)] s v := by
  have hframe : WithinAt [.fab, .now] [(.SPOKE_TT_CTRL_ACTIVE_BANK, 0), (.SPOKE_TT_CTRL_ACTIVE_GEN, 0), (.SPOKE_TT_CTRL_FLIP_REQ, 0),
      (.SPOKE_TT_CTRL_LOADED, 0)] s (tablesFlipped (wr (tick s t) .SPOKE_TT_CTRL_FLIP_REQ 0 0) (rd s .SPOKE_TT_FLIP_AT)) :=
    WithinAt.mono (((((within_tick s t).toWithinAt.trans (withinAt_wr _ .SPOKE_TT_CTRL_FLIP_REQ 0 0)).trans (withinAt_wr _ _ _ _)).trans
      ((withinAt_wr _ _ _ _).trans (withinAt_wr _ _ _ _))).trans (within_fab _ _).toWithinAt) (by simp) (by simp)
  refine runs_of_settle ((exec_spokeTableFlip hr hat).1 h) ⟨?_, ?_, ?_, ?_, rfl, hframe.settled⟩ <;>
    rw [rd_settled_other _ _ _ _ (by decide)] <;> simp [tablesFlipped, rd_wr]

/-- A flip that may not take place is rejected with a hub error. -/
theorem spokeTableFlip_rejected (hr : rd s .SPOKE_TT_CTRL_FLIP_REQ = 1) (hat : rd s .SPOKE_TT_FLIP_AT ≤ max s.now t)
    (h : ¬ spokeMayFlip s) : Runs (.spokeTableFlip t) s fun v =>
      rd v .SPOKE_TT_CTRL_FLIP_REJECTED = 1 ∧ rd v .SPOKE_TT_CTRL_FLIP_REQ = 0 ∧
      Frame [.dbg, .now, .rep] (errorFlds ++ [.SPOKE_TT_CTRL_FLIP_REJECTED, .SPOKE_TT_CTRL_FLIP_REQ]) s v := by
  have hwrites : Within [.dbg, .now, .rep] (errorFlds ++ [.SPOKE_TT_CTRL_FLIP_REJECTED, .SPOKE_TT_CTRL_FLIP_REQ]) s
      (wr (wr (tick s t) .SPOKE_TT_CTRL_FLIP_REQ 0 0) .SPOKE_TT_CTRL_FLIP_REJECTED 0 1) :=
    (((within_tick s t).mono (by simp) (by simp)).trans ((within_wr _ _ _ _).mono (by simp) (by simp))).trans
      ((within_wr _ _ _ _).mono (by simp) (by simp))
  have herror := within_hubError (wr (wr (tick s t) .SPOKE_TT_CTRL_FLIP_REQ 0 0) .SPOKE_TT_CTRL_FLIP_REJECTED 0 1)
    (leadHub (wr (tick s t) .SPOKE_TT_CTRL_FLIP_REQ 0 0)) 0x30 4 0 none
  refine runs_of_settle ((exec_spokeTableFlip hr hat).2 h) ⟨?_, ?_, (hwrites.trans (herror.mono (by simp) (by simp))).settled⟩
  · rw [rd_settled_other _ _ _ _ (by decide), herror.regs _ _ (by decide), rd_wr_same]
  · rw [rd_settled_other _ _ _ _ (by decide), herror.regs _ _ (by decide), rd_wr_ne _ _ _ _ _ _ (by simp), rd_wr_same]

end Flip

/-! The obligation -/

/-- Settles O54. A packet that arrives is acknowledged, delivered and its credit returned (`packetIn_of_arrives`), and what its delivery
writes does not depend on that (`putBytes_withOuter`, `redArrive_withOuter`); a task that ends brings back no item, no segment and no link
(`tasksEnd_endTask`); the other clauses are each one branch of their command. -/
theorem spokePacketsRun : Obligations.SpokePacketsRun := by
  intro s src t l p tasks
  refine ⟨fun h task card => ⟨?_, ?_, ?_, ?_, ?_, ?_, ?_, ?_, ?_⟩, ?_, fun hl hst => ⟨?_, ?_, ?_, ?_⟩, fun hm => ⟨?_, ?_, ?_⟩,
    fun hr hat => ⟨?_, ?_⟩⟩
  · exact fun a ha hchip hhbm hd ho hw => spokeData_onChip h ha hchip hhbm hd ho hw task card
  · rintro a rfl hd
    exact ⟨fun ho hw w hw' => hw' ▸ spokeData_stored h hd ho hw task card, fun ho => spokeData_dropped h hd ho task card⟩
  · exact fun hd hw => spokeData_empty h hd hw task card
  · exact fun hd hcls hctx hlp => spokeData_wakes h hd hcls hctx hlp task card
  · exact fun a fmt count ha hchip hls hlen hidx ho hnone => spokeRed_first h ha hchip hls hlen hidx ho hnone task card fmt count
  · exact fun a fmt count ha hchip hls ho w hw => hw ▸ spokeRed_added h ha hchip hls ho task card fmt count
  · exact fun c hc => credit_runs h hc
  · exact fun c hc hnone => credit_unawaited h hc hnone
  · intro b g hg
    refine ⟨fun hd ha hc => barrier_done h hg hd ha hc, fun hd ha hc hnew hmiss => ?_,
      fun hd ha hc hnew hall => barrier_completes h hg hd ha hc hnew hall, fun ha hcase => barrier_aborts h hg ha hcase⟩
    have hwaits := barrier_waits (t := t) h hg hd ha hc hnew hmiss
    rwa [withArrival, ha] at hwaits
  · intro c hc hl hst hseq hdata hred
    simp only [List.flatMap_cons, List.flatMap_nil, List.mem_append, List.mem_cons, List.not_mem_nil, or_false] at hc
    obtain rfl | (rfl | rfl | rfl) | rfl | rfl | rfl := hc
    · exact outOfOrder_runs (exec_credit s t l p) hl hst hseq
    · exact outOfOrder_runs (exec_spokeData s t l p false [] 0) hl hst hseq
    · exact outOfOrder_runs (exec_spokeRed s t l p false [] 0 0 0) hl hst hseq
    · exact outOfOrder_runs (exec_barrier s t l p _) hl hst hseq
    · exact absurd rfl (hdata [] 0)
    · exact absurd rfl (hred [] 0 0 0)
    · exact outOfOrder_runs (exec_barrier s t l p _) hl hst hseq
  · intro task card fmt count c hc
    obtain rfl | hc := List.mem_cons.mp hc
    · exact uncorrectable_runs (exec_spokeData s t l p true task card) hl hst
    · obtain rfl := List.mem_singleton.mp hc
      exact uncorrectable_runs (exec_spokeRed s t l p true task card fmt count) hl hst
  · exact spokeAck_runs hl hst
  · exact fun hfew => spokeNak_resends hl hst hfew tasks
  · exact fun hthird => spokeNak_retrains hl hst hthird tasks
  · exact spokeTtLoad_refused hm
  · rintro hf tb rfl h6 a rfl img himg
    have hne : rd s .SPOKE_TT_LOAD_TABLE ≠ 6 := by omega
    have himage : tableImage s (rd s .SPOKE_TT_LOAD_TABLE) = img := by rw [tableImage, if_neg hne, himg]
    have hcheck : tableImageOk s (rd s .SPOKE_TT_LOAD_TABLE) img = slotImageOk s (rd s .SPOKE_TT_LOAD_TABLE) img := if_neg hne
    refine ⟨fun hok => ?_, fun hbad => ?_⟩
    · have hstores := spokeTtLoad_stores hm hf rfl (by omega) (by rw [himage, hcheck, hok])
      rwa [himage, keptImage, if_neg hne] at hstores
    · exact spokeTtLoad_fails hm hf rfl (by omega) (by rw [himage, hcheck, hbad])
  · rintro hf ht img himg
    have himage : tableImage s 6 = img := by rw [tableImage, if_pos rfl, himg]
    have hcheck : tableImageOk s 6 img = routeImageOk s img := if_pos rfl
    refine ⟨fun hok => ?_, fun hbad => ?_⟩
    · have hstores := spokeTtLoad_stores hm hf ht (by omega) (by rw [himage, hcheck, hok])
      rwa [himage] at hstores
    · exact spokeTtLoad_fails hm hf ht (by omega) (by rw [himage, hcheck, hbad])
  · exact fun hmod hloaded => spokeTableFlip_flips hr hat ⟨hmod, hloaded⟩
  · exact fun hnot => spokeTableFlip_rejected hr hat fun hmay => hnot.elim (· hmay.1) (· hmay.2)

end Sys2Proof.Machine
end

section
/-! O21 and O23: bytes and little-endian words as they are written and read; the Pantry's atomics; and the obligations. -/

namespace Sys2Proof.Machine

/-! A byte -/

/-- Settles O21: the byte written is in a valid line, and a line made valid holds zeros in its other bytes, which is what they
read as before. -/
theorem memoryReadsWhatWasWritten : Obligations.MemoryReadsWhatWasWritten := fun s a v =>
  ⟨readByte_writeByte_same s a v, fun b hb => readByte_writeByte_other s a v b hb⟩

theorem readByte_settled (s t : State) (a : Nat) : readByte (settled s t) a = readByte t a := readByte_congr rfl a

theorem BytesKept.settled {a n : Nat} {s t : State} (h : BytesKept a n s t) (u : State) : BytesKept a n s (settled u t) :=
  fun b hb => (readByte_settled u t b).trans (h b hb)

/-! A word -/

theorem readLe_writeLe (s : State) (a n v : Nat) : readLe (writeLe s a n v) a n = v % 256 ^ n := by
  have hlt : ∀ b ∈ leBytes n v, b < 256 := by
    simp only [leBytes, List.forall_mem_map]
    exact fun i _ => Nat.mod_lt _ (by decide)
  have hbytes := readBytes_writeBytes (leBytes n v) a s hlt
  rw [leBytes_length] at hbytes
  rw [readLe, writeLe, hbytes, leNum_leBytes]

theorem bytesKept_writeLe (s : State) (a n v : Nat) : BytesKept a n s (writeLe s a n v) := by
  have hkept := bytesKept_writeBytes (leBytes n v) a s
  rwa [leBytes_length] at hkept

theorem leNum_lt (l : List Nat) : leNum l < 256 ^ l.length := by
  induction l with
  | nil => simp [leNum]
  | cons b r ih =>
    have hb : b % 256 < 256 := Nat.mod_lt b (by decide)
    show b % 256 + 256 * leNum r < 256 ^ (r.length + 1)
    rw [Nat.pow_succ]
    omega

theorem two_pow_eight_mul (n : Nat) : 2 ^ (8 * n) = 256 ^ n := by rw [Nat.pow_mul]

theorem readLe_lt (s : State) (a n : Nat) : readLe s a n < 2 ^ (8 * n) := by
  have h := leNum_lt (readBytes s a n)
  rw [two_pow_eight_mul]
  simpa [readLe, readBytes] using h

theorem readLe_congr {s t : State} {a n : Nat} (h : ∀ b, readByte t b = readByte s b) : readLe t a n = readLe s a n := by
  simp only [readLe, readBytes, h]

theorem readLe_settled (s t : State) (a n : Nat) : readLe (settled s t) a n = readLe t a n := readLe_congr (readByte_settled s t)

/-- An AMO's result fits the word when its operands do. -/
theorem amoResult_lt (op : AmoOp) {w old v : Nat} (ho : old < 2 ^ w) (hv : v < 2 ^ w) : amoResult op w old v < 2 ^ w := by
  cases op with
  | swap => exact hv
  | add => exact Nat.mod_lt _ (Nat.two_pow_pos w)
  | xor => exact Nat.xor_lt_two_pow ho hv
  | and => exact Nat.and_lt_two_pow _ hv
  | or => exact Nat.or_lt_two_pow ho hv
  | min => simp only [amoResult]; split <;> assumption
  | max => simp only [amoResult]; split <;> assumption
  | minu => exact (Nat.min_le_left old v).trans_lt ho
  | maxu => exact Nat.max_lt.mpr ⟨ho, hv⟩

/-! Reservations -/

/-- No reservation of an address's aligned 8 bytes outlives a store there. -/
theorem clearLr_lr (s : State) (a : Nat) {n : Nat} (hn : 0 < n) : ∀ e ∈ (clearLr s a n).mem.lr, e.2 ≠ a / 8 := by
  intro e he heq
  have hout := (List.mem_filter.mp he).2
  simp only [Bool.not_eq_true', Bool.and_eq_false_iff, decide_eq_false_iff_not] at hout
  omega

/-- The state in which an SC has taken the hub's reservation. -/
def lrTaken (s : State) (hub : Nat) : State := updMem s fun m => { m with lr := storeErase m.lr hub }

theorem within_lrTaken (s : State) (hub : Nat) : Within [.mem] [] s (lrTaken s hub) := within_mem s _

theorem readByte_lrTaken (s : State) (hub b : Nat) : readByte (lrTaken s hub) b = readByte s b := readByte_of_bytes rfl rfl

/-! A store of an atomic, and what it answers -/

/-- The word is stored, its reservations go, and a value is answered. -/
def wordStored (s : State) (a n v out : Nat) : State := emit (clearLr (writeLe s a n v) a n) (.readData out)

theorem within_wordStored (s : State) (a n v out : Nat) : Within [.mem, .rep] [] s (wordStored s a n v out) :=
  ((within_writeLe s a n v).mono (by simp) (by simp)).trans
    (((within_clearLr _ a n).mono (by simp) (by simp)).trans ((within_emit _ _).mono (by simp) (by simp)))

theorem readByte_wordStored (s : State) (a n v out b : Nat) :
    readByte (wordStored s a n v out) b = readByte (writeLe s a n v) b := readByte_of_bytes rfl rfl

theorem readLe_wordStored (s : State) (a n v out : Nat) : readLe (wordStored s a n v out) a n = v % 2 ^ (8 * n) := by
  rw [readLe_congr (readByte_wordStored s a n v out), readLe_writeLe, two_pow_eight_mul]

theorem bytesKept_wordStored (s : State) (a n v out : Nat) : BytesKept a n s (wordStored s a n v out) :=
  fun b hb => (readByte_wordStored s a n v out b).trans (bytesKept_writeLe s a n v b hb)

theorem wordStored_lr (s : State) (a v out : Nat) {n : Nat} (hn : 0 < n) : ∀ e ∈ (wordStored s a n v out).mem.lr, e.2 ≠ a / 8 :=
  clearLr_lr (writeLe s a n v) a hn

theorem wordStored_outs (s : State) (a n v out : Nat) : (wordStored s a n v out).rep.outs = s.rep.outs ++ [.readData out] := by
  have hrep : (writeLe s a n v).rep = s.rep := (within_writeLe s a n v).parts .rep (by simp)
  exact congrArg (fun r : Reporting => r.outs ++ [Out.readData out]) hrep

/-! The commands -/

/-- The bytes of the word that an atomic works on. -/
abbrev wordSize (double : Bool) : Nat := if double then 8 else 4

theorem wordSize_pos (double : Bool) : 0 < wordSize double := by cases double <;> decide

section Atomic
variable {s : State} {hub addr : Nat} {double : Bool}

section Runs
variable (hh : hub < 160) (hok : atomicOk s addr (wordSize double) = true)
include hh hok

theorem exec_pantryAmo (op : AmoOp) (value : Nat) : exec (.pantryAmo hub addr double op value) s =
    settle s (wordStored s addr (wordSize double) (amoResult op (8 * wordSize double) (readLe s addr (wordSize double))
      (value % 2 ^ (8 * wordSize double))) (readLe s addr (wordSize double))) := by
  show execPantryAmo hub addr double op value s = _
  rw [execPantryAmo, if_pos ⟨hh, hok⟩]
  rfl

/-- An AMO leaves its result and answers the old word (R267). -/
theorem pantryAmo_runs (op : AmoOp) (value : Nat) : Runs (.pantryAmo hub addr double op value) s fun v =>
    readLe v addr (wordSize double) = amoResult op (8 * wordSize double) (readLe s addr (wordSize double))
      (value % 2 ^ (8 * wordSize double)) ∧ BytesKept addr (wordSize double) s v ∧
    v.rep.outs = s.rep.outs ++ [.readData (readLe s addr (wordSize double))] ∧ (∀ e ∈ v.mem.lr, e.2 ≠ addr / 8) ∧
    KeptBut [.mem, .rep] s v ∧ RegsKept [] s v := by
  have hfits := amoResult_lt op (readLe_lt s addr (wordSize double))
    (Nat.mod_lt value (Nat.two_pow_pos (8 * wordSize double)))
  refine runs_of_settle (exec_pantryAmo hh hok op value) ⟨?_, (bytesKept_wordStored _ _ _ _ _).settled s, wordStored_outs _ _ _ _ _,
    wordStored_lr s addr _ (readLe s addr (wordSize double)) (wordSize_pos double), (within_wordStored _ _ _ _ _).toWithinAt.settled⟩
  rw [readLe_settled, readLe_wordStored, Nat.mod_eq_of_lt hfits]

theorem exec_pantryLr : exec (.pantryLr hub addr double) s =
    settle s (emit (updMem s fun m => { m with lr := storeInsert m.lr hub (addr / 8) })
      (.readData (readLe s addr (wordSize double)))) := by
  show execPantryLr hub addr double s = _
  rw [execPantryLr, if_pos ⟨hh, hok⟩]

/-- LR answers the word and reserves it (R267). -/
theorem pantryLr_runs : Runs (.pantryLr hub addr double) s fun v =>
    storeFind v.mem.lr hub = some (addr / 8) ∧ v.rep.outs = s.rep.outs ++ [.readData (readLe s addr (wordSize double))] ∧
    (∀ b, readByte v b = readByte s b) ∧ KeptBut [.mem, .rep] s v ∧ RegsKept [] s v :=
  runs_of_settle (exec_pantryLr hh hok) ⟨storeFind_insert_same s.mem.lr hub (addr / 8), rfl,
    fun b => (readByte_settled s _ b).trans (readByte_of_bytes rfl rfl),
    ((within_mem s _).toWithinAt.trans (within_emit _ _).toWithinAt).settled⟩

theorem exec_pantrySc_held (value : Nat) (hheld : storeFind s.mem.lr hub = some (addr / 8)) :
    exec (.pantrySc hub addr double value) s =
      settle s (wordStored (lrTaken s hub) addr (wordSize double) (value % 2 ^ (8 * wordSize double)) 0) := by
  show execPantrySc hub addr double value s = _
  rw [execPantrySc, if_pos ⟨hh, hok⟩, hheld, if_pos (beq_self_eq_true _)]
  rfl

theorem exec_pantrySc_lost (value : Nat) (hlost : storeFind s.mem.lr hub ≠ some (addr / 8)) :
    exec (.pantrySc hub addr double value) s = settle s (emit (lrTaken s hub) (.readData 1)) := by
  show execPantrySc hub addr double value s = _
  rw [execPantrySc, if_pos ⟨hh, hok⟩, if_neg (by simpa using hlost)]
  rfl

/-- SC stores and answers 0 while the reservation holds (R267). -/
theorem pantrySc_stores (value : Nat) (hheld : storeFind s.mem.lr hub = some (addr / 8)) :
    Runs (.pantrySc hub addr double value) s fun v =>
      readLe v addr (wordSize double) = value % 2 ^ (8 * wordSize double) ∧ BytesKept addr (wordSize double) s v ∧
      v.rep.outs = s.rep.outs ++ [.readData 0] ∧ KeptBut [.mem, .rep] s v ∧ RegsKept [] s v := by
  have hbytes : BytesKept addr (wordSize double) s
      (wordStored (lrTaken s hub) addr (wordSize double) (value % 2 ^ (8 * wordSize double)) 0) := fun b hb =>
    (bytesKept_wordStored (lrTaken s hub) _ _ _ _ b hb).trans (readByte_lrTaken s hub b)
  have hwithin := ((within_lrTaken s hub).mono (by simp) (by simp)).trans
    (within_wordStored (lrTaken s hub) addr (wordSize double) (value % 2 ^ (8 * wordSize double)) 0)
  refine runs_of_settle (exec_pantrySc_held hh hok value hheld) ⟨?_, hbytes.settled s, wordStored_outs _ _ _ _ _,
    hwithin.toWithinAt.settled⟩
  rw [readLe_settled, readLe_wordStored, Nat.mod_mod]

/-- Without the reservation SC stores nothing and answers 1 (R267). -/
theorem pantrySc_fails (value : Nat) (hlost : storeFind s.mem.lr hub ≠ some (addr / 8)) :
    Runs (.pantrySc hub addr double value) s fun v =>
      (∀ b, readByte v b = readByte s b) ∧ v.rep.outs = s.rep.outs ++ [.readData 1] ∧ KeptBut [.mem, .rep] s v ∧ RegsKept [] s v :=
  runs_of_settle (exec_pantrySc_lost hh hok value hlost) ⟨fun b => (readByte_settled s _ b).trans (readByte_lrTaken s hub b), rfl,
    ((within_lrTaken s hub).toWithinAt.trans (within_emit _ _).toWithinAt).settled⟩

end Runs

section Faulty
variable (hbad : atomicOk s addr (wordSize double) = false)
include hbad

theorem not_atomic : ¬ (hub < 160 ∧ atomicOk s addr (wordSize double) = true) := fun h => by simp [hbad] at h

theorem exec_pantryAmo_faulty (op : AmoOp) (value : Nat) : exec (.pantryAmo hub addr double op value) s = settle s s := by
  show execPantryAmo hub addr double op value s = _
  rw [execPantryAmo, if_neg (not_atomic hbad)]

theorem exec_pantryLr_faulty : exec (.pantryLr hub addr double) s = settle s s := by
  show execPantryLr hub addr double s = _
  rw [execPantryLr, if_neg (not_atomic hbad)]

theorem exec_pantrySc_faulty (value : Nat) : exec (.pantrySc hub addr double value) s = settle s s := by
  show execPantrySc hub addr double value s = _
  rw [execPantrySc, if_neg (not_atomic hbad)]

end Faulty

end Atomic

/-- Settles O23: an AMO and an SC that holds its reservation are one store of a word (`wordStored`), LR and a failing SC touch
reservations only, and at any other address each command leaves the state it began with. -/
theorem pantryAtomicsRun : Obligations.PantryAtomicsRun := by
  intro s hub addr double
  refine ⟨fun hh hok => ⟨pantryAmo_runs hh hok, pantryLr_runs hh hok, pantrySc_stores hh hok, pantrySc_fails hh hok⟩,
    fun hbad op value => ?_⟩
  simp only [List.forall_mem_cons, List.not_mem_nil, false_imp_iff, implies_true, and_true]
  exact ⟨unchanged_runs (exec_pantryAmo_faulty hbad op value), unchanged_runs (exec_pantryLr_faulty hbad),
    unchanged_runs (exec_pantrySc_faulty hbad value)⟩

end Sys2Proof.Machine
end

section
/-! O24: a grant clears the valid bits of its granule and of no other; and the obligation. -/

namespace Sys2Proof.Machine

/-! A granule without its valid bits -/

theorem lineValid_clearGranule (s : State) (a b : Nat) :
    lineValid (clearGranule s a) b = if b / 4096 = a / 4096 then false else lineValid s b := by
  have hline : b / 128 / 32 = b / 4096 := Nat.div_div_eq_div_mul b 128 32
  simp only [lineValid, clearGranule, updMem_mem, storeGet_keep, hline, bne_iff_ne, ite_not]

/-- An on-chip byte of the granule reads zero (R260). -/
theorem readByte_clearGranule_inside {s : State} {a b : Nat} (hb : b / 4096 = a / 4096) (hchip : onChip b = true) :
    readByte (clearGranule s a) b = 0 := by
  rw [readByte, lineValid_clearGranule, if_pos hb, hchip]
  rfl

/-- A byte of any other granule reads as before. -/
theorem readByte_clearGranule_outside {s : State} {a b : Nat} (hb : b / 4096 ≠ a / 4096) :
    readByte (clearGranule s a) b = readByte s b := by
  rw [readByte, lineValid_clearGranule, if_neg hb]
  rfl

theorem granuleWritten_clearGranule (s : State) (a : Nat) : granuleWritten (clearGranule s a) a = false := by
  refine List.any_eq_false.mpr fun e he => ?_
  have hout := (List.mem_filter.mp he).2
  simpa using hout

/-! The granules of a hub -/

/-- Address of a granule of a hub's Pantry window (space 0) or of a core's local store. -/
abbrev granuleAddr (hub granule space phys : Nat) : Nat :=
  if space = 0 then pantryAddr hub (granule * 4096) else lsAddr hub phys (granule * 4096)

section Address
variable {hub granule space phys : Nat}

/-- A granule's bytes lie in the 4 KiB of its address. -/
theorem granuleAddr_add_div {i : Nat} (hi : i < 4096) :
    (granuleAddr hub granule space phys + i) / 4096 = granuleAddr hub granule space phys / 4096 := by
  unfold granuleAddr
  split
  · unfold pantryAddr pantryBase
    omega
  · unfold lsAddr lsBase
    omega

theorem onChip_granule (hh : hub < 160) (hp : space = 0 → granule < 2048) (hl : space ≠ 0 → granule < 24 ∧ phys < 66) {i : Nat}
    (hi : i < 4096) : onChip (granuleAddr hub granule space phys + i) = true := by
  refine decide_eq_true ?_
  unfold granuleAddr pantryBase
  split
  · next hs =>
    have hg := hp hs
    unfold pantryAddr pantryBase
    omega
  · next hs =>
    obtain ⟨hg, hphys⟩ := hl hs
    unfold lsAddr lsBase physIndex
    omega

end Address

/-! The grant -/

/-- A granule has been granted: it has its owner and no valid bit. -/
def granted (s : State) (a owner : Nat) : State :=
  updMem (clearGranule s a) fun m => { m with granules := storePut 0x7F m.granules (a / 4096) owner }

theorem within_granted (s : State) (a owner : Nat) : Within [.mem] [] s (granted s a owner) :=
  (within_clearGranule s a).trans (within_mem _ _)

theorem granuleOwner_granted_same (s : State) (a owner : Nat) : granuleOwner (granted s a owner) a = owner :=
  storeGet_put_same 0x7F s.mem.granules (a / 4096) owner

theorem granuleOwner_granted_other (s : State) {a b : Nat} (owner : Nat) (hb : b / 4096 ≠ a / 4096) :
    granuleOwner (granted s a owner) b = granuleOwner s b := storeGet_put_other 0x7F 0x7F s.mem.granules owner hb

theorem readByte_granted (s : State) (a owner b : Nat) : readByte (granted s a owner) b = readByte (clearGranule s a) b :=
  readByte_of_bytes rfl rfl

theorem exec_memGrant {s : State} {src : Src} {hub granule space phys owner : Nat} (hw : hubWriter s src hub = true) (hh : hub < 160)
    (hcode : grantCode owner = true) (hp : space = 0 → granule < 2048) (hl : space ≠ 0 → granule < 24 ∧ phys < 66) :
    exec (.memGrant src hub granule space phys owner true) s = settle s (granted s (granuleAddr hub granule space phys) owner) := by
  have hrange : (if space = 0 then decide (granule < 2048) else decide (granule < 24) && decide (phys < 66)) = true := by
    split
    · next hs => exact decide_eq_true (hp hs)
    · next hs => simp [hl hs]
  show execMemGrant src hub granule space phys owner true s = _
  rw [execMemGrant, if_pos (by simp only [hw, hh, hcode, hrange, decide_true, Bool.and_self])]
  rfl

/-- Settles O24: the granule's address is on-chip, so that without valid bits its bytes read zero (R260). -/
theorem grantGivesAZeroedGranule : Obligations.GrantGivesAZeroedGranule := by
  intro s src hub granule space phys owner a hw hh hcode hp hl
  refine runs_of_settle (exec_memGrant hw hh hcode hp hl) ⟨granuleOwner_granted_same s a owner, fun i hi => ?_,
    granuleWritten_clearGranule s a, fun b hb => ⟨granuleOwner_granted_other s owner hb, ?_⟩,
    (within_granted s a owner).toWithinAt.settled⟩
  · rw [readByte_settled, readByte_granted]
    exact readByte_clearGranule_inside (granuleAddr_add_div hi) (onChip_granule hh hp hl hi)
  · rw [readByte_settled, readByte_granted]
    exact readByte_clearGranule_outside hb

end Sys2Proof.Machine
end

section
/-! O33: the end of a region's clearing, and repairs of rows; and the obligation. -/

namespace Sys2Proof.Machine

/-! A cleared region (R278) -/

/-- A region that has been zeroed, with its next owner and without its poison, before the poison is counted. -/
def regionCleared (s : State) (x : RegionClear) : State :=
  updMem (zeroRange s (regionAddr x.region) 0x4000000) fun m => { m with
    regions := storePut 0x7F m.regions x.region x.next
    regionClears := m.regionClears.filter (· ≠ x)
    poison := m.poison.filter (fun b => b / 16384 != regionAddr x.region / 0x4000000) }

theorem finishClear_eq (s : State) (x : RegionClear) :
    finishClear s x = countPoison (regionCleared s x) (hbmWing (regionAddr x.region)) := rfl

theorem finishClear_mem (s : State) (x : RegionClear) : (finishClear s x).mem = (regionCleared s x).mem := rfl

theorem within_finishClear (s : State) (x : RegionClear) : Within [.mem] [.HBM_POISON_COUNT] s (finishClear s x) := by
  rw [finishClear_eq]
  exact (((within_zeroRange s _ _).trans (within_mem _ _)).mono (by simp) (by simp)).trans
    ((within_wr _ _ _ _).mono (by simp) (by simp))

theorem readByte_regionCleared (s : State) (x : RegionClear) (b : Nat) :
    readByte (regionCleared s x) b = readByte (zeroRange s (regionAddr x.region) 0x4000000) b := readByte_of_bytes rfl rfl

theorem regionCleared_poison (s : State) (x : RegionClear) :
    ∀ b ∈ (regionCleared s x).mem.poison, b / 16384 ≠ regionAddr x.region / 0x4000000 := fun _ hb => by
  simpa using (List.mem_filter.mp hb).2

theorem not_mem_regionCleared (s : State) (x : RegionClear) : x ∉ (regionCleared s x).mem.regionClears := fun h => by
  simpa using (List.mem_filter.mp h).2

/-! A context without further regions -/

/-- A TEARING context has no region left to be cleared. -/
abbrev lastRegion (u : State) (c : Nat) : Prop :=
  c < 64 ∧ u.ctxs.tearing.any (fun e => e.1 == c) = true ∧ u.mem.regionClears.any (fun y => y.ctx == c) = false

theorem contextFree_mem (s : State) (c : Nat) : (contextFree s c).mem = s.mem := by
  unfold contextFree
  exact (within_setCtxState _ c 0).parts .mem (by simp)

theorem rd_contextFree (s : State) (c : Nat) : rd (contextFree s c) .CTX_STATE_STATE c = 0 := by
  unfold contextFree
  exact rd_setCtxState _ c 0

/-- The context's other regions are cleared already. -/
theorem lastRegion_finishClear {u : State} {x : RegionClear} (hctx : x.ctx < 64)
    (htear : u.ctxs.tearing.any (fun e => e.1 == x.ctx) = true) (hothers : ∀ y ∈ u.mem.regionClears, y ≠ x → y.ctx ≠ x.ctx) :
    lastRegion (finishClear u x) x.ctx := by
  refine ⟨hctx, htear, List.any_eq_false.mpr fun y hy => ?_⟩
  obtain ⟨hmem, hne⟩ := List.mem_filter.mp hy
  simpa using hothers y hmem (by simpa using hne)

section Clear
variable {s : State} {region : Nat} {x : RegionClear} (hx : s.mem.regionClears.find? (fun y => y.region == region) = some x) (t : Nat)
include hx

theorem exec_regionClearDone : exec (.regionClearDone t region) s =
    settle s (if lastRegion (finishClear (tick s t) x) x.ctx then contextFree (finishClear (tick s t) x) x.ctx
      else finishClear (tick s t) x) := by
  have htick : (tick s t).mem.regionClears.find? (fun y => y.region == region) = some x := hx
  show execRegionClearDone t region s = _
  unfold execRegionClearDone
  dsimp only
  rw [htick]

/-- What the end of a clearing runs to: in either case the memory of the cleared region. -/
theorem regionClearDone_runs : Runs (.regionClearDone t region) s fun v =>
    v.mem = (regionCleared (tick s t) x).mem ∧ (x.ctx = 64 → Frame [.mem, .now] [.HBM_POISON_COUNT] s v) ∧
    (x.ctx < 64 → s.ctxs.tearing.any (fun e => e.1 == x.ctx) = true →
      (∀ y ∈ s.mem.regionClears, y ≠ x → y.ctx ≠ x.ctx) → rd v .CTX_STATE_STATE x.ctx = 0) := by
  have hwithin : Within [.mem, .now] [.HBM_POISON_COUNT] s (finishClear (tick s t) x) :=
    ((within_tick s t).mono (by simp) (by simp)).trans ((within_finishClear _ x).mono (by simp) (by simp))
  have hexec := exec_regionClearDone hx t
  by_cases hlast : lastRegion (finishClear (tick s t) x) x.ctx
  · rw [if_pos hlast] at hexec
    refine runs_of_settle hexec ⟨contextFree_mem _ _, fun h64 => absurd hlast.1 (by omega), fun _ _ _ => ?_⟩
    rw [rd_settled_other _ _ _ _ (by decide), rd_contextFree]
  · rw [if_neg hlast] at hexec
    exact runs_of_settle hexec ⟨finishClear_mem _ _, fun _ => hwithin.settled, fun hctx htear hothers =>
      absurd (lastRegion_finishClear (u := tick s t) hctx htear hothers) hlast⟩

end Clear

/-! Repairs (R279) -/

section Repair
variable {s : State} {chan : Nat}

theorem rdb_of_ne_one {f : Fld} {n : Nat} (h : rd s f n ≠ 1) : rdb s f n = false := by simpa [rdb] using h

theorem rdb_of_one {f : Fld} {n : Nat} (h : rd s f n = 1) : rdb s f n = true := by simp [rdb, h]

/-- GO by management, with no repair under way. -/
theorem exec_hbmRepairGo {src : Src} (hm : isMgmt s src = true) (hc : chan < 384) (hidle : rd s .HBM_REPAIR_STATUS_BUSY chan ≠ 1) :
    exec (.hbmRepairGo src chan) s = settle s (if rd s .HBM_CH_STATE_STATE chan = 3 ∧
      (rd s .HBM_REPAIR_CTRL_KIND chan = 1 ∨ rd s .HBM_REPAIR_CTRL_KIND chan = 2) then wr s .HBM_REPAIR_STATUS_BUSY chan 1
      else wr s .HBM_REPAIR_STATUS_FAIL chan 1) := by
  show execHbmRepairGo src chan s = _
  rw [execHbmRepairGo, if_neg]
  simp [hm, rdb_of_ne_one hidle, hc]

/-- The repair's end shows in the channel's registers: no longer busy, the spares that are left, and how it ended. -/
def repairOver (s : State) (chan spares : Nat) (f : Fld) : State :=
  wr (wr (wr s .HBM_REPAIR_STATUS_BUSY chan 0) .HBM_REPAIR_STATUS_SPARES_LEFT chan (spares % 256)) f chan 1

theorem within_repairOver (s : State) (chan spares : Nat) (f : Fld) :
    Within [] [.HBM_REPAIR_STATUS_BUSY, .HBM_REPAIR_STATUS_SPARES_LEFT, f] s (repairOver s chan spares f) :=
  ((within_wr s _ _ _).mono (by simp) (by simp)).trans
    (((within_wr _ _ _ _).mono (by simp) (by simp)).trans ((within_wr _ _ _ _).mono (by simp) (by simp)))

theorem repairOver_fields (s : State) (chan spares : Nat) {f : Fld} (hf : f ∈ [Fld.HBM_REPAIR_STATUS_DONE, .HBM_REPAIR_STATUS_FAIL]) :
    rd (repairOver s chan spares f) .HBM_REPAIR_STATUS_BUSY chan = 0 ∧ rd (repairOver s chan spares f) f chan = 1 ∧
    rd (repairOver s chan spares f) .HBM_REPAIR_STATUS_SPARES_LEFT chan = spares % 256 := by
  obtain rfl | rfl : f = .HBM_REPAIR_STATUS_DONE ∨ f = .HBM_REPAIR_STATUS_FAIL := by simpa using hf
  all_goals simp [repairOver, rd_wr]

/-- The row of a block that was replaced reads as zero. -/
def rowReplaced (s : State) (chan : Nat) (block : Option Nat) : State :=
  match block with
  | some b => if chanOf (b * 4096) = chan then zeroRange s (b * 4096) 4096 else s
  | none => s

theorem within_rowReplaced (s : State) (chan : Nat) (block : Option Nat) : Within [.mem] [] s (rowReplaced s chan block) := by
  unfold rowReplaced
  split
  · split
    · exact within_zeroRange s _ _
    · exact Within.refl _ _ s
  · exact Within.refl _ _ s

theorem readByte_rowReplaced_inside {b i : Nat} (hb : chanOf (b * 4096) = chan) (hi : i < 4096) :
    readByte (rowReplaced s chan (some b)) (b * 4096 + i) = 0 := by
  rw [rowReplaced, if_pos hb]
  exact readByte_zeroRange_inside ⟨by omega, by omega⟩ s

theorem readByte_rowReplaced_outside {block : Option Nat} {a : Nat} (ha : ∀ b, block = some b → a / 4096 ≠ b) :
    readByte (rowReplaced s chan block) a = readByte s a := by
  unfold rowReplaced
  split
  · next b =>
    have hne := ha b rfl
    split
    · exact bytesKept_zeroRange s _ _ a (by omega)
    · rfl
  · rfl

theorem exec_hbmRepairDone_ok (hc : chan < 384) (hbusy : rd s .HBM_REPAIR_STATUS_BUSY chan = 1) (t spares : Nat) (block : Option Nat) :
    exec (.hbmRepairDone t chan true spares block) s =
      settle s (rowReplaced (repairOver (tick s t) chan spares .HBM_REPAIR_STATUS_DONE) chan block) := by
  show execHbmRepairDone t chan true spares block s = _
  rw [execHbmRepairDone, if_pos ⟨hc, rdb_of_one hbusy⟩, if_pos rfl]
  rfl

theorem exec_hbmRepairDone_failed (hc : chan < 384) (hbusy : rd s .HBM_REPAIR_STATUS_BUSY chan = 1) (t spares : Nat)
    (block : Option Nat) : exec (.hbmRepairDone t chan false spares block) s =
      settle s (repairOver (tick s t) chan spares .HBM_REPAIR_STATUS_FAIL) := by
  show execHbmRepairDone t chan false spares block s = _
  rw [execHbmRepairDone, if_pos ⟨hc, rdb_of_one hbusy⟩, if_neg Bool.false_ne_true]
  rfl

section Done
variable (hc : chan < 384) (hbusy : rd s .HBM_REPAIR_STATUS_BUSY chan = 1) (t spares : Nat) (block : Option Nat)
include hc hbusy

/-- A repair is done: the replaced row reads as zero, and no other byte changes. -/
theorem hbmRepairDone_replaces : Runs (.hbmRepairDone t chan true spares block) s fun v =>
    rd v .HBM_REPAIR_STATUS_BUSY chan = 0 ∧ rd v .HBM_REPAIR_STATUS_DONE chan = 1 ∧
    rd v .HBM_REPAIR_STATUS_SPARES_LEFT chan = spares % 256 ∧
    (∀ b i, block = some b → chanOf (b * 4096) = chan → i < 4096 → readByte v (b * 4096 + i) = 0) ∧
    (∀ a, (∀ b, block = some b → a / 4096 ≠ b) → readByte v a = readByte s a) ∧ KeptBut [.mem, .now] s v := by
  let u := repairOver (tick s t) chan spares .HBM_REPAIR_STATUS_DONE
  have hrow : Within [.mem] [] u (rowReplaced u chan block) := within_rowReplaced u chan block
  have hrd : ∀ f, f ∉ viewFlds → rd (settled s (rowReplaced u chan block)) f chan = rd u f chan := fun f hf => by
    rw [rd_settled_other _ _ _ _ hf, hrow.regs _ _ List.not_mem_nil]
  obtain ⟨hbusy0, hdone, hspares⟩ := repairOver_fields (tick s t) chan spares (f := .HBM_REPAIR_STATUS_DONE) (by simp)
  have hframe := ((within_tick s t).mono (by simp) (by simp)).trans
    (((within_repairOver (tick s t) chan spares .HBM_REPAIR_STATUS_DONE).mono (by simp) (List.Subset.refl _)).trans
      (hrow.mono (qs := [.mem, .now]) (by simp) (by simp)))
  refine runs_of_settle (exec_hbmRepairDone_ok hc hbusy t spares block) ⟨(hrd _ (by decide)).trans hbusy0,
    (hrd _ (by decide)).trans hdone, (hrd _ (by decide)).trans hspares, ?_, fun a ha => ?_, hframe.settled.1⟩
  · rintro b i rfl hb hi
    rw [readByte_settled]
    exact readByte_rowReplaced_inside hb hi
  · rw [readByte_settled, readByte_rowReplaced_outside ha]
    exact readByte_congr rfl a

/-- A repair that fails changes no memory. -/
theorem hbmRepairDone_fails : Runs (.hbmRepairDone t chan false spares block) s fun v =>
    rd v .HBM_REPAIR_STATUS_BUSY chan = 0 ∧ rd v .HBM_REPAIR_STATUS_FAIL chan = 1 ∧ KeptBut [.now] s v := by
  obtain ⟨hbusy0, hfail, -⟩ := repairOver_fields (tick s t) chan spares (f := .HBM_REPAIR_STATUS_FAIL) (by simp)
  have hframe := ((within_tick s t).mono (List.Subset.refl _) (by simp)).trans
    ((within_repairOver (tick s t) chan spares .HBM_REPAIR_STATUS_FAIL).mono (by simp) (List.Subset.refl _))
  refine runs_of_settle (exec_hbmRepairDone_failed hc hbusy t spares block) ⟨?_, ?_, hframe.settled.1⟩
  · rw [rd_settled_other _ _ _ _ (by decide), hbusy0]
  · rw [rd_settled_other _ _ _ _ (by decide), hfail]

end Done

end Repair

/-! The obligation -/

/-- Settles O33: whether or not its context becomes FREE, a cleared region leaves the memory of `regionCleared`; GO sets BUSY or
FAIL by its branch; a repair that is done zeroes the row that was replaced. -/
theorem regionsAndRepairsRun : Obligations.RegionsAndRepairsRun := by
  refine ⟨fun s t region x _ hx => ?_, fun s src chan hm hc hidle => ⟨fun hst hkind => ?_, fun hnot => ?_⟩,
    fun s t chan spares block hc hbusy =>
      ⟨hbmRepairDone_replaces hc hbusy t spares block, hbmRepairDone_fails hc hbusy t spares block⟩⟩
  · have hr : x.region = region := by simpa using List.find?_some hx
    subst hr
    obtain ⟨v, hexec, hmem, hframe, hfree⟩ := regionClearDone_runs hx t
    have hbyte : ∀ b, readByte v b = readByte (zeroRange (tick s t) (regionAddr x.region) 0x4000000) b := fun b =>
      (readByte_congr hmem b).trans (readByte_regionCleared _ x b)
    refine ⟨v, hexec, ?_, fun n hn => ?_, fun i hi => ?_, fun b hb => ?_, ?_, ?_, hframe, hfree⟩
    · rw [hmem]
      exact storeGet_put_same 0x7F s.mem.regions x.region x.next
    · rw [hmem]
      exact storeGet_put_other 0x7F 0x7F s.mem.regions x.next hn
    · rw [hbyte]
      exact readByte_zeroRange_inside ⟨by omega, by omega⟩ _
    · rw [hbyte, bytesKept_zeroRange _ _ _ b hb]
      exact readByte_congr rfl b
    · rw [hmem]
      exact regionCleared_poison (tick s t) x
    · rw [hmem]
      exact not_mem_regionCleared (tick s t) x
  · have hexec := exec_hbmRepairGo hm hc hidle
    rw [if_pos ⟨hst, hkind⟩] at hexec
    exact wr_runs hexec (by decide)
  · have hexec := exec_hbmRepairGo hm hc hidle
    rw [if_neg (by omega)] at hexec
    exact wr_runs hexec (by decide)

end Sys2Proof.Machine
end

section
/-! O57 fails, at a hub reset whose own end of tasks starts a dump of the hub. -/

namespace Sys2Proof.Machine

/-! A hub reset that has to wait (R434, R453) -/

/-- A dump of the hub that is in progress once the hub's tasks have ended keeps the reset waiting. -/
theorem beginHubReset_waits {s : State} {h : Nat} (hdump : (abortHubTasks s h 0x02).dbg.dumps.any (fun d => d.1 == h) = true)
    (trigger : Nat) : storeFind (beginHubReset s h trigger).boot.hubResets h = some trigger := by
  unfold beginHubReset resetRecord
  extract_lets n u v w
  have hdbg : w.dbg = u.dbg := (within_report _ _ _ _ _ _ _).parts .dbg (by simp)
  rw [if_pos (hdbg ▸ hdump)]
  exact storeFind_insert_same _ _ _

theorem exec_hubReset {s : State} {src : Src} {hub : Nat} (hm : isMgmt s src = true) (hidle : rd s .RESET_STATUS_BUSY ≠ 1)
    (hh : hub < 160) (t : Nat) : exec (.hubReset src t hub) s = settle s (beginHubReset (tick s t) hub 2) := by
  show execHubReset src t hub s = _
  simp [execHubReset, hm, rdb_of_ne_one (s := tick s t) hidle, show ¬ 159 < hub by omega]

/-! Two cards that were planned onto one semaphore -/

/-- A card of one command, which acquires and releases semaphore 0. -/
def semaphoreCard (id : Nat) : CardImage :=
  ⟨0x4B434E5A, 1, 0x100, 0x100, id, 1, 0, 1, 1, 0, 1, 0, 64, 64, 1, 100, [100], [], [], 0, 0, 0, 0, 0, 0, 0, 0, 0, true, true, [],
    [⟨0, 0, 0⟩], [], []⟩

/-- That command on a core of hub 0, for item `id` of context 1; it waits for the commands before it. -/
def semaphoreCmd (id core : Nat) (started : Bool) : RunCmd :=
  ⟨id, ⟨0, core, 1, semaphoreCard id, 0, ⟨0, 1, 64, 0, true, []⟩, [(1, id)], 2 ^ core, [], 0⟩, 0, 0, started, [], ⟨0, 0, []⟩, none,
    [0, 0, 0, 0, 0, 0, 0], false, false, false⟩

/-- Card 3 runs on core 1 of hub 0 and holds semaphore 0; card 1 runs on core 0, and behind it waits card 2, which acquires the
same semaphore. A hub error freezes the trails, and frozen trails are dumped. -/
def semaphoreClash : State :=
  let s := wr (wr (wr (wr State.reset .BOOT_STATUS_PHASE 0 8) .DBG_CTRL_FREEZE_ON 0 4) .DBG_DUMP_BASE 0 1) .HUB_SEM_HELD 0 1
  updCore s fun c => { c with
    queues := [(0, [semaphoreCmd 1 0 true, semaphoreCmd 2 0 false]), (1, [semaphoreCmd 3 1 true])]
    tasks := [⟨[(1, 1)], 1, [0]⟩, ⟨[(1, 2)], 2, [0]⟩, ⟨[(1, 3)], 3, [1]⟩]
    semCards := [(0, (3, [1], []))] }

/-- Card 1's task ends first; card 2 then reaches the semaphore of card 3, and its fault starts the dump (R374, R453). -/
theorem dumps_abortHubTasks_semaphoreClash :
    (abortHubTasks (tick semaphoreClash 0) 0 0x02).dbg.dumps = [(0, 0, 3), (160, 0, 3)] := by decide +kernel

/-- Refutes O57: the clause for a hub without a dump in progress says that its reset is done at once. With no dump before it, the
reset of hub 0 ends the hub's tasks in turn; as the first has ended, the queues of the hub move on, and the next card reaches a
semaphore that another card holds. That hub error freezes the hub and starts its dump, for which the reset then waits: it is kept
as 2, the trigger alone, where the clause has 2 + 8 × (1 + its start). -/
theorem not_startUpAndResetsRun : ¬ Obligations.StartUpAndResetsRun := by
  rintro ⟨-, -, -, -, hresets, -⟩
  have hidle : rd semaphoreClash .RESET_STATUS_BUSY ≠ 1 := by decide
  obtain ⟨-, hnow, -⟩ := hresets semaphoreClash .mgmt 0 0 (by decide)
  obtain ⟨v, hexec, -, -, -, hreset, -⟩ := hnow hidle (by decide) (by simp [semaphoreClash, State.reset])
  obtain rfl := Host.Outcome.next.inj ((exec_hubReset (by decide) hidle (by decide) 0).symm.trans hexec)
  have hwaits : storeFind (beginHubReset (tick semaphoreClash 0) 0 2).boot.hubResets 0 = some 2 :=
    beginHubReset_waits (by rw [dumps_abortHubTasks_semaphoreClash]; rfl) 2
  exact absurd (hwaits.symm.trans hreset) (by decide)

end Sys2Proof.Machine
end

section
/-! O25: the sources and outcomes of the operations of INTEG_CORE_CMD (R309), and READMIT (R301). -/

namespace Sys2Proof.Machine

variable {s : State} {src : Src} {hub slot : Nat}

/-! Who may ask for an operation -/

theorem eq_mgmt_of_isMgmt (h : isMgmt s src = true) : src = .mgmt := by
  simp only [isMgmt, Bool.and_eq_true, beq_iff_eq] at h
  exact h.1

theorem coreCmd_of_other (hm : isMgmt s src = false) (hc : src ≠ .core hub) (mgmtOnly : Bool) (f : State → Nat → State) :
    coreCmd s src hub slot mgmtOnly f = s := by
  cases src with
  | core h => simp [coreCmd, show h ≠ hub from fun e => hc (by rw [e])]
  | mgmt => simp [coreCmd, hm]
  | blueprint => simp [coreCmd, hm]
  | driver c => simp [coreCmd, hm]
  | other => simp [coreCmd, hm]

section Allowed
variable (hh : hub < 160)
include hh

theorem coreCmd_of_mgmt (hm : isMgmt s src = true) (mgmtOnly : Bool) (f : State → Nat → State) :
    coreCmd s src hub slot mgmtOnly f = if 66 ≤ slot then cmdRejected s hub 3 else f s (hub * 66 + slot) := by
  obtain rfl := eq_mgmt_of_isMgmt hm
  simp [coreCmd, hm, show ¬ 160 ≤ hub by omega]

theorem coreCmd_of_core (mgmtOnly : Bool) (f : State → Nat → State) : coreCmd s (.core hub) hub slot mgmtOnly f =
    if mgmtOnly then cmdRejected s hub 1 else if 66 ≤ slot then cmdRejected s hub 3 else f s (hub * 66 + slot) := by
  simp [coreCmd, show ¬ 160 ≤ hub by omega, show isMgmt s (.core hub) = false from rfl]

/-- The operations 1 to 3 are the management context's and the hub's own control core's. -/
theorem coreCmd_of_either (hs : isMgmt s src = true ∨ src = .core hub) (f : State → Nat → State) :
    coreCmd s src hub slot false f = if 66 ≤ slot then cmdRejected s hub 3 else f s (hub * 66 + slot) := by
  obtain hm | rfl := hs
  · exact coreCmd_of_mgmt hh hm false f
  · exact coreCmd_of_core hh false f

end Allowed

/-! Outcomes -/

theorem coreState_settled (s t : State) (k : Nat) : coreState (settled s t) k = coreState t k := rd_settled_other s t _ k (by decide)

theorem coreState_cmdDone (s : State) (hub k : Nat) : coreState (cmdDone s hub) k = coreState s k := rd_wr_ne _ _ _ _ _ _ (by simp)

theorem coreState_cmdRejected (s : State) (hub reason k : Nat) : coreState (cmdRejected s hub reason) k = coreState s k :=
  (rd_wr_ne _ _ _ _ _ _ (by simp)).trans (rd_wr_ne _ _ _ _ _ _ (by simp))

/-- What an operation that is done shows of any other field. -/
theorem rd_settled_cmdDone {f : Fld} (hf : f ≠ .INTEG_CMD_STATUS_DONE) (hv : f ∉ viewFlds) (s t : State) (n : Nat) :
    rd (settled s (cmdDone t hub)) f n = rd t f n := by
  rw [rd_settled_other _ _ _ _ hv, cmdDone, rd_wr_ne _ _ _ _ _ _ fun e => hf e.1]

theorem rd_settled_cmdDone_done (s t : State) (hub : Nat) : rd (settled s (cmdDone t hub)) .INTEG_CMD_STATUS_DONE hub = 1 := by
  rw [rd_settled_other _ _ _ _ (by decide), cmdDone, rd_wr_same]

theorem mem_settled_cmdDone (s t : State) (hub : Nat) : (settled s (cmdDone t hub)).mem = t.mem := rfl

theorem cmdRejected_runs {c : Instr} {reason : Nat} (hexec : exec c s = settle s (cmdRejected s hub reason)) : Runs c s fun v =>
    rd v .INTEG_CMD_STATUS_REJECTED hub = 1 ∧ rd v .INTEG_CMD_STATUS_REASON hub = reason ∧ KeptBut [] s v ∧
    RegsKept [(.INTEG_CMD_STATUS_REJECTED, hub), (.INTEG_CMD_STATUS_REASON, hub)] s v := by
  have hframe : WithinAt [] [(.INTEG_CMD_STATUS_REJECTED, hub), (.INTEG_CMD_STATUS_REASON, hub)] s (cmdRejected s hub reason) :=
    (withinAt_wr s _ _ _).trans (withinAt_wr _ _ _ _)
  refine runs_of_settle hexec ⟨?_, ?_, hframe.settled⟩
  · rw [rd_settled_other _ _ _ _ (by decide)]
    simp [cmdRejected, rd_wr]
  · rw [rd_settled_other _ _ _ _ (by decide)]
    simp [cmdRejected]

/-- An operation that leaves a frame and is done. -/
theorem cmdDone_runs {c : Instr} {ps : List Part} {ex : List (Fld × Nat)} {u : State} {p : State → Prop} (h : WithinAt ps ex s u)
    (hexec : exec c s = settle s (cmdDone u hub)) (hp : p (settled s (cmdDone u hub))) : Runs c s fun v =>
      p v ∧ rd v .INTEG_CMD_STATUS_DONE hub = 1 ∧ KeptBut ps s v ∧ RegsKept (ex ++ [(.INTEG_CMD_STATUS_DONE, hub)]) s v :=
  runs_of_settle hexec ⟨hp, rd_settled_cmdDone_done s u hub,
    ((h.trans (withinAt_wr u .INTEG_CMD_STATUS_DONE hub 1)).mono (by simp) (List.Subset.refl _)).settled⟩

/-! READMIT (R301) -/

/-- A core that does not become RETIRED changes its state's field alone, beside what a record changes. -/
theorem rd_setCoreState {f : Fld} {v : Nat} (hv : v ≠ 4) (hf : f ∉ reportFlds) (s : State) (k reason n : Nat) :
    rd (setCoreState s k v reason) f n = if f = .HUB_SLOT_STATE_STATE ∧ n = k then v else rd s f n := by
  rw [setCoreState_eq, (within_coreRecord_saveCore _ _ _ _).regs _ _ hf, coreMarked, if_neg hv, rd_wr]

/-- The fields that say which physical core serves a slot. -/
def servedFlds : List Fld :=
  [.HUB_REMAP_CTRL_ACTIVE_BANK, .HUB_REMAP_B0_SLOT_VALID, .HUB_REMAP_B0_SLOT_PHYS_SLOT, .HUB_REMAP_B1_SLOT_VALID,
    .HUB_REMAP_B1_SLOT_PHYS_SLOT]

theorem physOf_congr {t : State} (h : ∀ f ∈ servedFlds, ∀ n, rd t f n = rd s f n) (hub slot : Nat) : physOf t hub slot = physOf s hub slot := by
  have hval : ∀ f ∈ servedFlds, ∀ n, rdb t f n = rdb s f n := fun f hf n => by rw [rdb, h f hf n, rdb]
  unfold physOf
  simp only [h .HUB_REMAP_CTRL_ACTIVE_BANK (by simp [servedFlds]), hval .HUB_REMAP_B0_SLOT_VALID (by simp [servedFlds]),
    h .HUB_REMAP_B0_SLOT_PHYS_SLOT (by simp [servedFlds]), hval .HUB_REMAP_B1_SLOT_VALID (by simp [servedFlds]),
    h .HUB_REMAP_B1_SLOT_PHYS_SLOT (by simp [servedFlds])]

/-- The fields of a core that is readmitted, before it is SPARE. -/
def readmitted (s : State) (k : Nat) : State :=
  dropRun (wr (wr (wr (wr s .HUB_SLOT_STATE_FENCED k 0) .INTEG_CORE_INFO_SKIP k 0) .INTEG_CORE_INFO_CLEARED k 0)
    .INTEG_CORE_INFO_READMITS k (rd s .INTEG_CORE_INFO_READMITS k + 1)) k

theorem rd_readmitted (s : State) (k : Nat) (f : Fld) (n : Nat) : rd (readmitted s k) f n =
    if f = .INTEG_CORE_INFO_PASS_RUN ∧ n = k then 0
    else if f = .INTEG_CORE_INFO_READMITS ∧ n = k then rd s .INTEG_CORE_INFO_READMITS k + 1
    else if f = .INTEG_CORE_INFO_CLEARED ∧ n = k then 0
    else if f = .INTEG_CORE_INFO_SKIP ∧ n = k then 0
    else if f = .HUB_SLOT_STATE_FENCED ∧ n = k then 0
    else rd s f n := by
  simp only [readmitted, dropRun, rd_updCore, rd_wr]

/-- What READMIT does by what it finds. -/
theorem exec_readmit (hh : hub < 160) (hs : slot < 66) (hm : isMgmt s src = true) : exec (.readmit src hub slot) s =
    settle s (if coreState s (hub * 66 + slot) ≠ 4 then cmdRejected s hub 2
      else if 2 ≤ rd s .INTEG_CORE_INFO_READMITS (hub * 66 + slot) then cmdRejected s hub 4
      else if rd s .INTEG_CORE_INFO_CLEARED (hub * 66 + slot) = 0 then cmdRejected s hub 2
      else cmdDone (setCoreState (readmitted s (hub * 66 + slot)) (hub * 66 + slot) 2 0x0C) hub) := by
  show execReadmit src hub slot s = _
  rw [execReadmit, coreCmd_of_mgmt hh hm, if_neg (by omega)]
  simp [readmitted, rd_wr]

theorem readmit_makes_spare (hh : hub < 160) (hs : slot < 66) (hm : isMgmt s src = true) {k : Nat} (hk : k = hub * 66 + slot)
    (hst : coreState s k = 4) (hre : rd s .INTEG_CORE_INFO_READMITS k < 2) (hcl : rd s .INTEG_CORE_INFO_CLEARED k ≠ 0) :
    Runs (.readmit src hub slot) s fun v =>
      coreState v k = 2 ∧ rd v .HUB_SLOT_STATE_FENCED k = 0 ∧ rd v .INTEG_CORE_INFO_SKIP k = 0 ∧
      rd v .INTEG_CORE_INFO_CLEARED k = 0 ∧ rd v .INTEG_CORE_INFO_READMITS k = rd s .INTEG_CORE_INFO_READMITS k + 1 ∧
      rd v .INTEG_CMD_STATUS_DONE hub = 1 ∧ (∀ l, physOf v hub l = physOf s hub l) ∧
      (∀ j, j ≠ k → coreState v j = coreState s j) := by
  have hexec := exec_readmit hh hs hm
  rw [← hk, if_neg (not_not_intro hst), if_neg (by omega), if_neg hcl] at hexec
  -- Beside what a record changes, the outcome shows what `readmitted` left, and SPARE.
  have hrd : ∀ f, f ∉ .INTEG_CMD_STATUS_DONE :: (viewFlds ++ reportFlds) → ∀ n,
      rd (settled s (cmdDone (setCoreState (readmitted s k) k 2 0x0C) hub)) f n =
        if f = .HUB_SLOT_STATE_STATE ∧ n = k then 2 else rd (readmitted s k) f n := fun f hf n => by
    simp only [List.mem_cons, List.mem_append, not_or] at hf
    rw [rd_settled_cmdDone hf.1 hf.2.1, rd_setCoreState (by decide) hf.2.2]
  refine runs_of_settle hexec ⟨(hrd _ (by decide) k).trans (by simp), (hrd _ (by decide) k).trans (by simp [rd_readmitted]),
    (hrd _ (by decide) k).trans (by simp [rd_readmitted]), (hrd _ (by decide) k).trans (by simp [rd_readmitted]),
    (hrd _ (by decide) k).trans (by simp [rd_readmitted]), rd_settled_cmdDone_done _ _ _,
    physOf_congr (fun f hf n => ?_) hub, fun j hj => ?_⟩
  · have hother : ∀ g ∈ servedFlds, g ∉ .INTEG_CMD_STATUS_DONE :: (viewFlds ++ reportFlds) ∧
        g ∉ [Fld.HUB_SLOT_STATE_STATE, .INTEG_CORE_INFO_PASS_RUN, .INTEG_CORE_INFO_READMITS, .INTEG_CORE_INFO_CLEARED,
          .INTEG_CORE_INFO_SKIP, .HUB_SLOT_STATE_FENCED] := by decide
    obtain ⟨hd, ho⟩ := hother f hf
    rw [hrd f hd, rd_readmitted]
    simp_all
  · exact (hrd _ (by decide) j).trans (by simp [rd_readmitted, hj, coreState])

/-- READMIT of any other core, or by the hub's own control core, changes no core's state. -/
theorem readmit_refused (hh : hub < 160) (hs : slot < 66) {k : Nat} (hk : k = hub * 66 + slot)
    (hno : isMgmt s src = false ∨ coreState s k ≠ 4 ∨ 2 ≤ rd s .INTEG_CORE_INFO_READMITS k ∨ rd s .INTEG_CORE_INFO_CLEARED k = 0) :
    Runs (.readmit src hub slot) s fun v => ∀ j, coreState v j = coreState s j := by
  have hrej : ∀ reason, exec (.readmit src hub slot) s = settle s (cmdRejected s hub reason) →
      Runs (.readmit src hub slot) s fun v => ∀ j, coreState v j = coreState s j := fun reason hexec =>
    runs_of_settle hexec fun j => by rw [coreState_settled, coreState_cmdRejected]
  cases hm : isMgmt s src with
  | false =>
    by_cases hc : src = .core hub
    · subst hc
      refine hrej 1 ?_
      show execReadmit (.core hub) hub slot s = _
      rw [execReadmit, coreCmd_of_core hh, if_pos rfl]
    · have hexec : exec (.readmit src hub slot) s = settle s s := by
        show execReadmit src hub slot s = _
        rw [execReadmit, coreCmd_of_other hm hc]
      exact runs_of_settle hexec fun j => coreState_settled s s j
  | true =>
    have hexec := exec_readmit hh hs hm
    rw [← hk] at hexec
    split_ifs at hexec with hst hre hcl
    · exact hrej 2 hexec
    · exact hrej 4 hexec
    · exact hrej 2 hexec
    · obtain h | h | h | h := hno
      · rw [hm] at h; cases h
      · exact absurd h hst
      · exact absurd h hre
      · exact absurd h hcl

/-- Settles O25: a CLEARED RETIRED core becomes SPARE (`readmit_makes_spare`), and every other READMIT is rejected or ignored
(`readmit_refused`). -/
theorem readmissionMakesASpare : Obligations.ReadmissionMakesASpare := fun _ _ _ _ hh hs =>
  ⟨fun hm hst hre hcl => readmit_makes_spare hh hs hm rfl hst hre hcl, fun hno => readmit_refused hh hs rfl hno⟩

end Sys2Proof.Machine
end

section
/-! O26: the other operations of INTEG_CORE_CMD (R309, Table 10-3). -/

namespace Sys2Proof.Machine

variable {s : State} {src : Src} {hub slot k : Nat}

/-! Operations 1 to 3, of the management context and the hub's own control core -/

section Either
variable (hh : hub < 160) (hs : isMgmt s src = true ∨ src = .core hub)
include hh hs

/-- A slot that does not exist. -/
theorem noSlot_refused (hslot : 66 ≤ slot) (value : Nat) :
    ∀ c ∈ [Instr.markSuspect src hub slot, .markRetired src hub slot, .setSkip src hub slot value],
      exec c s = settle s (cmdRejected s hub 3) := by
  have hcmd := fun f => (coreCmd_of_either (slot := slot) hh hs f).trans (if_pos hslot)
  simp only [List.forall_mem_cons, List.not_mem_nil, IsEmpty.forall_iff, implies_true, and_true]
  exact ⟨congrArg (settle s) (hcmd _), congrArg (settle s) (hcmd _), congrArg (settle s) (hcmd _)⟩

variable (hslot : slot < 66) (hk : k = hub * 66 + slot)
include hslot hk

/-- The operation is done on the core that it names. -/
theorem coreCmd_of_slot (f : State → Nat → State) : coreCmd s src hub slot false f = f s k := by
  rw [coreCmd_of_either hh hs, if_neg (by omega), hk]

theorem exec_markSuspect : exec (.markSuspect src hub slot) s = settle s
    (if coreState s k = 4 then cmdRejected s hub 2 else if coreState s k = 3 then cmdDone s hub
      else cmdDone (markSuspect s k 0x0A) hub) := congrArg (settle s) (coreCmd_of_slot hh hs hslot hk _)

theorem exec_markRetired : exec (.markRetired src hub slot) s = settle s (cmdDone (markRetired s k 0x0A false) hub) :=
  congrArg (settle s) (coreCmd_of_slot hh hs hslot hk _)

theorem exec_setSkip (value : Nat) : exec (.setSkip src hub slot value) s = settle s
    (if value ≥ 3 then cmdRejected s hub 2 else cmdDone (saveCore (wr s .INTEG_CORE_INFO_SKIP k value) k) hub) :=
  congrArg (settle s) (coreCmd_of_slot hh hs hslot hk _)

/-- MARK_SUSPECT of a core that is neither SUSPECT nor RETIRED; a TRIMMED hub may retire with it (R293). -/
theorem markSuspect_marks (h3 : coreState s k ≠ 3) (h4 : coreState s k ≠ 4) : Runs (.markSuspect src hub slot) s fun v =>
    (coreState v k = 3 ∨ rd s .INTEG_HUB_STATE hub = 1 ∧ coreState v k = 4) ∧ rd v .INTEG_CMD_STATUS_DONE hub = 1 ∧ v.mem = s.mem := by
  have hexec := exec_markSuspect hh hs hslot hk
  rw [if_neg h4, if_neg h3] at hexec
  refine runs_of_settle hexec
    ⟨?_, rd_settled_cmdDone_done _ _ _, (mem_settled_cmdDone _ _ _).trans (stateFrame_markSuspect s k 0x0A).mem⟩
  have hmark := coreState_markSuspect s k 0x0A
  rw [show k / 66 = hub by omega] at hmark
  rwa [coreState_settled, coreState_cmdDone]

/-- MARK_RETIRED of a core that serves no slot, or is RETIRED already. -/
theorem markRetired_retires (hout : serving s k = false ∨ coreState s k = 4) : Runs (.markRetired src hub slot) s fun v =>
    coreState v k = 4 ∧ rd v .INTEG_CMD_STATUS_DONE hub = 1 ∧ v.mem = s.mem := by
  refine runs_of_settle (exec_markRetired hh hs hslot hk)
    ⟨?_, rd_settled_cmdDone_done _ _ _, (mem_settled_cmdDone _ _ _).trans (stateFrame_markRetired s k 0x0A false).mem⟩
  rw [coreState_settled, coreState_cmdDone, markRetired]
  split
  · assumption
  · next h4 =>
    rw [if_pos (Or.inr (hout.resolve_right h4)), coreState_setCoreState, if_pos rfl]

/-- MARK_RETIRED of a core that serves a slot: it waits for the step boundary (R288). -/
theorem markRetired_waits (hserve : serving s k = true) (h4 : coreState s k ≠ 4) : Runs (.markRetired src hub slot) s fun v =>
    coreState v k = coreState s k ∧ rd v .INTEG_CORE_INFO_RETIRE_PENDING k = 1 ∧ rd v .INTEG_CMD_STATUS_DONE hub = 1 := by
  have hexec := exec_markRetired hh hs hslot hk
  rw [markRetired, if_neg h4, if_neg (by simp [hserve])] at hexec
  refine runs_of_settle hexec ⟨?_, ?_, rd_settled_cmdDone_done _ _ _⟩
  · rw [coreState_settled, coreState_cmdDone, coreState, rd_updCore, rd_wr_ne _ _ _ _ _ _ (by simp), coreState]
  · rw [rd_settled_cmdDone (by decide) (by decide), rd_updCore, rd_wr_same]

theorem setSkip_sets {value : Nat} (hv : value < 3) : Runs (.setSkip src hub slot value) s fun v =>
    rd v .INTEG_CORE_INFO_SKIP k = value ∧ rd v .INTEG_CMD_STATUS_DONE hub = 1 ∧ KeptBut [.rep] s v ∧
    RegsKept [(.INTEG_CORE_INFO_SKIP, k), (.INTEG_CMD_STATUS_DONE, hub)] s v := by
  have hexec := exec_setSkip hh hs hslot hk value
  rw [if_neg (by omega)] at hexec
  have hsave := (within_saveCore (wr s .INTEG_CORE_INFO_SKIP k value) k).toWithinAt
  refine cmdDone_runs ((withinAt_wr s .INTEG_CORE_INFO_SKIP k value).trans hsave) hexec ?_
  rw [rd_settled_cmdDone (by decide) (by decide), hsave.regs _ _ List.not_mem_nil, rd_wr_same]

end Either

/-! Operations of the management context alone -/

section Mgmt
variable (hh : hub < 160) (hm : isMgmt s src = true)
include hh hm

theorem clearLastEvent_clears (hslot : slot < 66) : Runs (.clearLastEvent src hub slot) s fun v =>
    storeFind v.core.events (eventKey (hub * 66 + slot)) = none ∧ rd v .INTEG_CMD_STATUS_DONE hub = 1 ∧ KeptBut [.core] s v ∧
    RegsKept [(.INTEG_CMD_STATUS_DONE, hub)] s v := by
  have hexec : exec (.clearLastEvent src hub slot) s = settle s (cmdDone
      (updCore s fun c => { c with events := storeErase c.events (eventKey (hub * 66 + slot)) }) hub) := by
    show execClearLastEvent src hub slot s = _
    rw [execClearLastEvent, coreCmd_of_mgmt hh hm, if_neg (by omega)]
  exact cmdDone_runs (within_core s _).toWithinAt hexec (storeFind_erase_same _ _)

/-- A hub that is NORMAL again: what had been counted against it starts anew (R293). -/
def hubNormal (s : State) (hub : Nat) : State :=
  updCore (wr (wr (wr s .INTEG_HUB_STATE hub 0) .INTEG_HUB_OUT hub 0) .INTEG_HUB_SUSPECTS hub 0) fun c => { c with
    hubEvents := storeErase c.hubEvents hub, hubSuspects := storeErase c.hubSuspects hub
    pantryErrs := storeErase c.pantryErrs hub, ccFails := storeErase c.ccFails hub }

theorem setHubNormal_restores : Runs (.setHubNormal src hub) s fun v =>
    rd v .INTEG_HUB_STATE hub = 0 ∧ rd v .INTEG_HUB_OUT hub = 0 ∧ rd v .INTEG_CMD_STATUS_DONE hub = 1 ∧
    (∀ j, coreState v j = coreState s j) := by
  have hexec : exec (.setHubNormal src hub) s = settle s (cmdDone
      (hubRecord (saveHub (hubNormal s hub) hub) hub (rd s .INTEG_HUB_STATE hub) 5) hub) := by
    show execSetHubNormal src hub s = _
    rw [execSetHubNormal, coreCmd_of_mgmt hh hm, if_neg (by decide), hubNormal]
  have hrd : ∀ f, f ∉ .INTEG_CMD_STATUS_DONE :: (viewFlds ++ reportFlds) → ∀ n,
      rd (settled s (cmdDone (hubRecord (saveHub (hubNormal s hub) hub) hub (rd s .INTEG_HUB_STATE hub) 5) hub)) f n =
        rd (hubNormal s hub) f n := fun f hf n => by
    simp only [List.mem_cons, List.mem_append, not_or] at hf
    rw [rd_settled_cmdDone hf.1 hf.2.1, hubRecord, (within_report _ _ _ _ _ _ _).regs _ _ hf.2.2,
      (within_saveHub _ _).regs _ _ List.not_mem_nil]
  exact runs_of_settle hexec ⟨(hrd _ (by decide) hub).trans (by simp [hubNormal, rd_wr]),
    (hrd _ (by decide) hub).trans (by simp [hubNormal, rd_wr]), rd_settled_cmdDone_done _ _ _,
    fun j => (hrd _ (by decide) j).trans (by simp [hubNormal, rd_wr, coreState])⟩

end Mgmt

/-- To the hub's own control core they answer reason 1. -/
theorem mgmtOnly_refused (hh : hub < 160) : ∀ c ∈ [Instr.clearLastEvent (.core hub) hub slot, .setHubNormal (.core hub) hub],
    exec c s = settle s (cmdRejected s hub 1) := by
  simp only [List.forall_mem_cons, List.not_mem_nil, IsEmpty.forall_iff, implies_true, and_true]
  exact ⟨congrArg (settle s) (coreCmd_of_core hh true _), congrArg (settle s) (coreCmd_of_core hh true _)⟩

/-- A write from any other source comes to nothing. -/
theorem other_ignored (hm : isMgmt s src = false) (hc : src ≠ .core hub) (value : Nat) :
    ∀ c ∈ [Instr.markSuspect src hub slot, .markRetired src hub slot, .setSkip src hub slot value, .clearLastEvent src hub slot,
      .setHubNormal src hub], exec c s = settle s s := by
  simp only [List.forall_mem_cons, List.not_mem_nil, IsEmpty.forall_iff, implies_true, and_true]
  exact ⟨congrArg (settle s) (coreCmd_of_other hm hc _ _), congrArg (settle s) (coreCmd_of_other hm hc _ _),
    congrArg (settle s) (coreCmd_of_other hm hc _ _), congrArg (settle s) (coreCmd_of_other hm hc _ _),
    congrArg (settle s) (coreCmd_of_other hm hc _ _)⟩

/-- Settles O26: who may ask for an operation decides what the command comes to (`coreCmd_of_either`, `coreCmd_of_mgmt`,
`coreCmd_of_core`, `coreCmd_of_other`), and each operation that is carried out does as Table 10-3 says. -/
theorem coreCommandsRun : Obligations.CoreCommandsRun := by
  intro s src hub slot k hh
  refine ⟨fun hs hslot => ⟨markSuspect_marks hh hs hslot rfl, fun h3 => ?_, fun h4 => ?_, markRetired_retires hh hs hslot rfl,
    markRetired_waits hh hs hslot rfl, fun value => setSkip_sets hh hs hslot rfl, fun value hv => ?_⟩,
    fun hm hslot => clearLastEvent_clears hh hm hslot, fun hm => setHubNormal_restores hh hm,
    fun c hc => cmdRejected_runs (mgmtOnly_refused hh c hc),
    fun hs hslot value c hc => cmdRejected_runs (noSlot_refused hh hs hslot value c hc),
    fun hm hsrc value c hc => unchanged_runs (other_ignored hm hsrc value c hc)⟩
  · have hexec := exec_markSuspect hh hs hslot rfl
    rw [if_neg (by rw [h3]; decide), if_pos h3] at hexec
    exact wr_runs hexec (by decide)
  · have hexec := exec_markSuspect hh hs hslot rfl
    rw [if_pos h4] at hexec
    exact cmdRejected_runs hexec
  · have hexec := exec_setSkip hh hs hslot rfl value
    rw [if_pos hv] at hexec
    exact cmdRejected_runs hexec

end Sys2Proof.Machine
end

section
/-! O30: the report path (R304, R418): durable records, coalescing windows, events and dumps. -/

namespace Sys2Proof.Machine

variable {s : State}

/-! What an interrupt leaves of the report path -/

/-- The records on their way and the windows that are open. -/
structure RecordsKept (s t : State) : Prop where
  toWrite : t.rep.toWrite = s.rep.toWrite
  coalesce : t.rep.coalesce = s.rep.coalesce

theorem RecordsKept.trans {t u : State} (h : RecordsKept s t) (k : RecordsKept t u) : RecordsKept s u :=
  ⟨k.toWrite.trans h.toWrite, k.coalesce.trans h.coalesce⟩

theorem recordsKept_sendMsix (s : State) (fn entry : Nat) : RecordsKept s (sendMsix s fn entry) := by
  unfold sendMsix
  split <;> exact ⟨rfl, rfl⟩

theorem recordsKept_sendPf (s : State) (e : Nat) (src : IrqSource) : RecordsKept s (sendPf s e src) := by
  unfold sendPf
  extract_lets old target
  exact RecordsKept.trans (t := setPfTarget s e target) ⟨rfl, rfl⟩ (recordsKept_sendMsix _ _ _)

theorem recordsKept_deliver (s : State) (src : IrqSource) : RecordsKept s (deliver s src) := by
  unfold deliver
  split
  · split <;> exact ⟨rfl, rfl⟩
  · extract_lets u t
    refine RecordsKept.trans (t := u) ⟨rfl, rfl⟩ ?_
    split
    · exact recordsKept_sendPf _ _ _
    · split <;> exact ⟨rfl, rfl⟩

/-- A record that enters the path waits for its durable write with the next SEQ, and no window changes. -/
theorem acceptRecord_records (s : State) (c : CellarRec) :
    (acceptRecord s c).rep.toWrite = s.rep.toWrite ++ [{ c with seq := rd s .CELLAR_NEXT_SEQ }] ∧
    (acceptRecord s c).rep.coalesce = s.rep.coalesce := by
  unfold acceptRecord
  dsimp only
  split
  · have h := fun u => recordsKept_deliver (wr u .EVC_STATUS_CELLAR 0 1) .module
    exact ⟨(h _).toWrite, (h _).coalesce⟩
  · exact ⟨rfl, rfl⟩

/-! CELLAR_WRITE (R304, R307) -/

/-- The ring of durable records after one more (R307). -/
def ringWith (ring : List CellarRec) (c : CellarRec) : List CellarRec := (ring ++ [c]).drop (ring.length + 1 - 30720)

theorem getLast?_ringWith (ring : List CellarRec) (c : CellarRec) : (ringWith ring c).getLast? = some c := by
  rw [ringWith, List.getLast?_drop, if_neg (by simp)]
  simp

theorem length_ringWith {ring : List CellarRec} (h : ring.length ≤ 30720) (c : CellarRec) : (ringWith ring c).length ≤ 30720 := by
  simp only [ringWith, List.length_drop, List.length_append, List.length_singleton]
  omega

theorem cellarWrite_writes {c : CellarRec} {rest : List CellarRec} (hw : s.rep.toWrite = c :: rest) (t : Nat) :
    Runs (.cellarWrite t) s fun v =>
      v.rep.toWrite = rest ∧ v.rep.ring.getLast? = some c ∧ (s.rep.ring.length ≤ 30720 → v.rep.ring.length ≤ 30720) ∧
      KeptBut [.rep, .now] s v ∧ RegsKept [] s v := by
  let u := updRep (tick s t) fun r => { r with toWrite := rest, ring := ringWith r.ring c }
  have hexec : exec (.cellarWrite t) s = settle s u := by
    show execCellarWrite t s = _
    simp only [execCellarWrite, tick_rep, hw]
    rfl
  have hframe : Within [.rep, .now] [] s u :=
    ((within_tick s t).mono (by simp) (by simp)).trans ((within_rep _ _).mono (by simp) (by simp))
  have hring : (settled s u).rep.ring = ringWith s.rep.ring c := by simp only [settled_rep, u, updRep, tick]
  refine runs_of_settle hexec ⟨rfl, ?_, fun hlen => ?_, hframe.toWithinAt.settled⟩
  · rw [hring, getLast?_ringWith]
  · rw [hring]
    exact length_ringWith hlen c

/-! COALESCE_WINDOW_END (R304) -/

theorem coalesceWindowEnd_reports {kind unit t : Nat} {w : Coalesce}
    (hw : s.rep.coalesce.find? (fun x => x.kind == kind && x.unit == unit) = some w)
    (hdue : w.start + 1000000000 ≤ (tick s t).now) (hmore : w.more ≠ 0) : Runs (.coalesceWindowEnd t kind unit) s fun v =>
      (∀ x ∈ v.rep.coalesce, ¬ (x.kind = kind ∧ x.unit = unit)) ∧
      v.rep.toWrite = s.rep.toWrite ++
        [{ w.last with flags := w.last.flags % 4 + 4, count := min w.more 65535, seq := rd s .CELLAR_NEXT_SEQ }] ∧
      KeptBut [.rep, .now] s v := by
  let u := updRep (tick s t) fun r => { r with coalesce := r.coalesce.filter (fun x => !(x.kind == kind && x.unit == unit)) }
  let c : CellarRec := { w.last with flags := w.last.flags % 4 + 4, count := min w.more 65535 }
  have hexec : exec (.coalesceWindowEnd t kind unit) s = settle s (acceptRecord u c) := by
    show execCoalesceWindowEnd t kind unit s = _
    simp only [execCoalesceWindowEnd, tick_rep, hw, if_neg (Nat.not_lt.mpr hdue), if_neg hmore]
    rfl
  obtain ⟨hwrite, hopen⟩ := acceptRecord_records u c
  have hu : Within [.rep, .now] [] s u :=
    ((within_tick s t).mono (by simp) (by simp)).trans ((within_rep _ _).mono (by simp) (by simp))
  refine runs_of_settle hexec ⟨fun x hx ⟨hkind, hunit⟩ => ?_, hwrite,
    ((hu.mono (List.Subset.refl _) (by simp)).trans ((within_acceptRecord u c).mono (by simp) (List.Subset.refl _))).settled.1⟩
  have hx' : x ∈ u.rep.coalesce := by rwa [settled_rep, hopen] at hx
  have hleft := (List.mem_filter.mp hx').2
  simp [hkind, hunit] at hleft

/-! Platform events (R418) -/

section Events
variable {c : CellarRec} {rest : List CellarRec} (hq : s.rep.faultQueue = c :: rest) (hrec : s.rep.receiver ≠ none)

/-- The head record has gone to the event receiver. -/
def eventSent (s : State) (t : Nat) (c : CellarRec) : State := emit (tick s t) (.platformEvent (cellarBytes c))

theorem within_eventSent (s : State) (t : Nat) (c : CellarRec) : Within [.rep, .now] [] s (eventSent s t c) :=
  ((within_tick s t).mono (by simp) (by simp)).trans ((within_emit _ _).mono (by simp) (by simp))

include hq in
/-- An event that is answered leaves the queue. -/
theorem answered_runs {i : Instr} {t : Nat} (hexec : exec i s = settle s (popEvent (eventSent s t c))) : Runs i s fun v =>
    v.rep.faultQueue = rest ∧ v.rep.outs = s.rep.outs ++ [.platformEvent (cellarBytes c)] ∧ v.rep.eventTries = 0 ∧
    KeptBut [.rep, .now] s v ∧ RegsKept [] s v := by
  have hframe := (within_eventSent s t c).trans ((within_rep _ _ : Within _ _ _ (popEvent _)).mono (by simp) (by simp))
  refine runs_of_settle hexec ⟨?_, rfl, rfl, hframe.toWithinAt.settled⟩
  show s.rep.faultQueue.tail = rest
  rw [hq, List.tail_cons]

include hq hrec

theorem exec_platformEventMessage (t : Nat) (hfirst : s.rep.eventTries = 0) (answered : Bool) :
    exec (.platformEventMessage t answered) s = settle s (if answered then popEvent (eventSent s t c)
      else updRep (eventSent s t c) fun r => { r with eventTries := 1, eventNext := some ((eventSent s t c).now + 100000000) }) := by
  obtain ⟨x, hx⟩ := Option.ne_none_iff_exists'.mp hrec
  show execPlatformEventMessage t answered s = _
  simp only [execPlatformEventMessage, tick_rep, hq, hx, hfirst]
  rfl

theorem exec_pldmEventRetry {t due : Nat} (hnext : s.rep.eventNext = some due) (hdue : due ≤ max s.now t) (answered : Bool) :
    exec (.pldmEventRetry t answered) s = settle s (if answered then popEvent (eventSent s t c)
      else updRep (eventSent s t c) fun r => { r with
        eventTries := (eventSent s t c).rep.eventTries + 1, eventHeld := decide (4 ≤ (eventSent s t c).rep.eventTries + 1)
        eventNext := some ((eventSent s t c).now +
          if (eventSent s t c).rep.eventTries + 1 < 4 then 100000000 else 1000000000) }) := by
  obtain ⟨x, hx⟩ := Option.ne_none_iff_exists'.mp hrec
  show execPldmEventRetry t answered s = _
  simp only [execPldmEventRetry, tick_rep, hq, hx, hnext, tick_now, if_neg (Nat.not_lt.mpr hdue)]
  rfl

end Events

/-! TRAIL_DUMP_DONE (R453) -/

/-- The dump of a hub has ended and its record is written. -/
def dumpEnded (s : State) (scope : Nat) (data : List (Nat × Nat × Bool)) : State :=
  report (wr (updDbg s fun d => { d with dumps := d.dumps.filter (fun x => x.1 != scope) }) .DBG_TRAIL_STATUS_DUMPED scope 1)
    0x28 scope data

theorem dumpEnded_dumps (s : State) (scope : Nat) (data : List (Nat × Nat × Bool)) :
    (dumpEnded s scope data).dbg.dumps = s.dbg.dumps.filter (fun x => x.1 != scope) :=
  congrArg DebugState.dumps ((within_report _ 0x28 scope data none 0 false).parts .dbg (by simp))

theorem dumpEnded_boot (s : State) (scope : Nat) (data : List (Nat × Nat × Bool)) : (dumpEnded s scope data).boot = s.boot :=
  (within_report _ 0x28 scope data none 0 false).parts .boot (by simp)

theorem rd_dumpEnded (s : State) (scope : Nat) (data : List (Nat × Nat × Bool)) :
    rd (dumpEnded s scope data) .DBG_TRAIL_STATUS_DUMPED scope = 1 :=
  ((within_report _ 0x28 scope data none 0 false).regs .DBG_TRAIL_STATUS_DUMPED scope (by simp [reportFlds])).trans
    (rd_wr_same _ _ _ _)

/-- With no reset of the hub waiting, the dump is stored, marked and recorded. -/
theorem exec_trailDumpDone {t scope time trigger : Nat} (hs : scope < 160)
    (hd : s.dbg.dumps.find? (fun d => d.1 == scope) = some (scope, time, trigger)) (hidle : storeFind s.boot.hubResets scope = none) :
    ∃ a bytes data, exec (.trailDumpDone t scope) s = settle s (dumpEnded (storeHbm (tick s t) a bytes) scope data) := by
  have hdump : (tick s t).dbg.dumps.find? (fun d => d.1 == scope) = some (scope, time, trigger) := hd
  have hidle' : ∀ a bytes data, storeFind (dumpEnded (storeHbm (tick s t) a bytes) scope data).boot.hubResets scope = none := by
    intro a bytes data
    have hboot : (storeHbm (tick s t) a bytes).boot = s.boot := (publish_storeHbm (tick s t) a bytes).parts .boot (by simp)
    rw [dumpEnded_boot, hboot, hidle]
  have hexec : exec (.trailDumpDone t scope) s = execTrailDumpDone t scope s := rfl
  simp only [execTrailDumpDone, hdump, if_pos hs] at hexec
  rw [← dumpEnded, hidle'] at hexec
  exact ⟨_, _, _, hexec⟩

theorem trailDumpDone_marks {t scope time trigger : Nat} (hs : scope < 160)
    (hd : s.dbg.dumps.find? (fun d => d.1 == scope) = some (scope, time, trigger)) (hidle : storeFind s.boot.hubResets scope = none) :
    Runs (.trailDumpDone t scope) s fun v =>
      rd v .DBG_TRAIL_STATUS_DUMPED scope = 1 ∧ (∀ d ∈ v.dbg.dumps, d.1 ≠ scope) := by
  obtain ⟨a, bytes, data, hexec⟩ := exec_trailDumpDone (t := t) hs hd hidle
  refine runs_of_settle hexec ⟨?_, fun d hin => ?_⟩
  · rw [rd_settled_other _ _ _ _ (by decide)]
    exact rd_dumpEnded _ scope data
  · rw [settled_dbg, dumpEnded_dumps] at hin
    simpa using (List.mem_filter.mp hin).2

/-- Settles O30: the records on their way are framed by what an interrupt leaves of the report path, and each event of the path
by the one state it ends in. -/
theorem reportPathRuns : Obligations.ReportPathRuns := by
  unfold Obligations.ReportPathRuns
  refine ⟨fun s t c rest hw => cellarWrite_writes hw t, fun s t kind unit w hw hdue hmore => coalesceWindowEnd_reports hw hdue hmore,
    fun s t c rest hq hrec => ⟨fun hfirst => ?_, fun hfirst => ?_, fun due hnext hdue => ?_, fun due hnext hdue => ?_⟩,
    fun s t scope time trigger hs hd hidle => trailDumpDone_marks hs hd hidle⟩
  · obtain ⟨v, hv, hqueue, houts, _, hkept, hregs⟩ := answered_runs hq (exec_platformEventMessage hq hrec t hfirst true)
    exact ⟨v, hv, hqueue, houts, hkept, hregs⟩
  · exact runs_of_settle (exec_platformEventMessage hq hrec t hfirst false) ⟨rfl, rfl, rfl⟩
  · exact answered_runs hq (exec_pldmEventRetry hq hrec hnext hdue true)
  · exact runs_of_settle (exec_pldmEventRetry hq hrec hnext hdue false) ⟨rfl, rfl, decide_eq_true_iff⟩

end Sys2Proof.Machine
end

section
/-! O29: heartbeats of the hubs' control cores and of the lead (R302). -/

namespace Sys2Proof.Machine

variable {s : State}

/-! A hub whose control core has failed leaves placement -/

/-- A reset leaves the fields of its own class and of the higher ones. -/
theorem rd_resetRegs_of_kept {f : Fld} {rank : Nat} (hkept : rank ≤ keptRank (fieldRow f).kept) (s : State) (p : Fld → Nat → Bool)
    (n : Nat) : rd (resetRegs s rank p) f n = rd s f n := by
  have heq : resetRegs s rank p = resetRegs s rank fun g m => decide (keptRank (fieldRow g).kept < rank) && p g m := by
    simp [resetRegs]
  rw [heq]
  exact rd_resetRegs_of_not (fun n => by simp [Nat.not_lt.mpr hkept]) s rank n

theorem within_settleDebug (s : State) : Within [] [.DBG_STATUS_FROZEN, .DBG_STATUS_HALTED] s (settleDebug s) := by
  unfold settleDebug
  exact ((within_wrb s _ 0 _).mono (by simp) (by simp)).trans ((within_wrb _ _ 0 _).mono (by simp) (by simp))

theorem rd_hubReset_out (s : State) (h n : Nat) : rd (hubReset s h) .INTEG_HUB_OUT n = rd s .INTEG_HUB_OUT n := by
  unfold hubReset
  extract_lets u v w x
  have hu : rd u .INTEG_HUB_OUT n = rd s .INTEG_HUB_OUT n := rd_resetRegs_of_kept (by decide) s _ n
  have hmem : rd (loseHubMemory x h) .INTEG_HUB_OUT n = rd u .INTEG_HUB_OUT n := rfl
  exact ((within_settleDebug _).regs _ _ (by decide)).trans (hmem.trans hu)

/-- A hub whose reset begins is out of placement, even while its reset waits. -/
theorem rd_beginHubReset_out (s : State) (h trigger : Nat) : rd (beginHubReset s h trigger) .INTEG_HUB_OUT h = 1 := by
  unfold beginHubReset
  extract_lets n u v w
  have hw : rd w .INTEG_HUB_OUT h = 1 := ((within_report _ _ _ _ _ _ _).regs _ _ (by decide)).trans (rd_wr_same _ _ _ _)
  split
  · exact hw
  · exact (rd_hubReset_out w h h).trans hw

theorem rd_markRetired_out (s : State) (k reason : Nat) (atOnce : Bool) (n : Nat) :
    rd (markRetired s k reason atOnce) .INTEG_HUB_OUT n = rd s .INTEG_HUB_OUT n := by
  unfold markRetired
  split
  · rfl
  · split
    · rw [setCoreState_eq, (within_coreRecord_saveCore _ _ _ _).regs _ _ (by decide), coreMarked, if_pos rfl]
      simp [rd_wr]
    · exact rd_wr_ne s .INTEG_CORE_INFO_RETIRE_PENDING .INTEG_HUB_OUT k n 1 (by simp)

theorem rd_setHubState_out (s : State) (h trigger : Nat) : rd (setHubState s h 2 trigger) .INTEG_HUB_OUT h = 1 := by
  unfold setHubState
  extract_lets before u
  rw [if_pos rfl]
  exact each_keep (p := fun t => rd t .INTEG_HUB_OUT h = 1) _ (fun t p ht => (rd_markRetired_out t _ _ _ h).trans ht) _ _
    (rd_wr_same u _ _ _)

theorem rd_hubFailed_out (s : State) (h : Nat) : rd (hubFailed s h) .INTEG_HUB_OUT h = 1 := by
  unfold hubFailed
  extract_lets times u v
  split
  · exact rd_setHubState_out v h 3
  · exact rd_beginHubReset_out _ h 1

/-! HEARTBEAT_SAMPLE -/

section Sample
variable {t hub value : Nat} (hh : hub < 160) (hstate : rd s .INTEG_HUB_STATE hub ≠ 2) (hrun : hub ∉ s.core.halted)
  (hreset : storeFind s.boot.hubResets hub = none)

/-- The hub's heartbeat as it was sampled. -/
def heartbeatSeen (s : State) (t hub value : Nat) : State :=
  updCore (wr (tick s t) .INTEG_HEARTBEAT hub (value % 2 ^ 32)) fun c =>
    { c with beat := storeInsert c.beat hub (value, (tick s t).now) }

theorem withinAt_heartbeatSeen (s : State) (t hub value : Nat) :
    WithinAt [.core, .now] [(.INTEG_HEARTBEAT, hub)] s (heartbeatSeen s t hub value) :=
  (((within_tick s t).toWithinAt.trans (withinAt_wr _ .INTEG_HEARTBEAT hub _)).trans (within_core _ _).toWithinAt).mono
    (by simp) (by simp)

include hh hstate hrun hreset

theorem exec_heartbeatSample : exec (.heartbeatSample t hub value) s = settle s
    (if value ≠ (storeGet (0, 0) s.core.beat hub).1 then heartbeatSeen s t hub value
    else if (storeGet (0, 0) s.core.beat hub).2 + 300000 ≤ (tick s t).now then hubFailed (heartbeatSeen s t hub value) hub
    else tick s t) := by
  show execHeartbeatSample t hub value s = _
  have hskip : ¬ (hub ≥ 160 ∨ rd (tick s t) .INTEG_HUB_STATE hub = 2 ∨ hub ∈ (tick s t).core.halted ∨
      (storeFind (tick s t).boot.hubResets hub).isSome) := by
    rintro (h | h | h | h)
    · omega
    · exact hstate h
    · exact hrun h
    · rw [show storeFind (tick s t).boot.hubResets hub = none from hreset] at h
      exact absurd h (by simp)
  unfold execHeartbeatSample
  extract_lets u b fresh
  rw [if_neg hskip]
  rfl

theorem heartbeat_kept (hnew : value ≠ (storeGet (0, 0) s.core.beat hub).1) : Runs (.heartbeatSample t hub value) s fun v =>
    rd v .INTEG_HEARTBEAT hub = value % 2 ^ 32 ∧ storeFind v.core.beat hub = some (value, (tick s t).now) ∧
    KeptBut [.core, .now] s v ∧ RegsKept [(.INTEG_HEARTBEAT, hub)] s v := by
  have hexec := exec_heartbeatSample (t := t) (value := value) hh hstate hrun hreset
  rw [if_pos hnew] at hexec
  refine runs_of_settle hexec ⟨?_, storeFind_insert_same _ _ _, (withinAt_heartbeatSeen s t hub value).settled⟩
  rw [rd_settled_other _ _ _ _ (by decide)]
  exact rd_wr_same _ _ _ _

theorem heartbeat_fails (hold : value = (storeGet (0, 0) s.core.beat hub).1)
    (hlate : (storeGet (0, 0) s.core.beat hub).2 + 300000 ≤ (tick s t).now) :
    Runs (.heartbeatSample t hub value) s fun v => rd v .INTEG_HUB_OUT hub = 1 := by
  have hexec := exec_heartbeatSample (t := t) (value := value) hh hstate hrun hreset
  rw [if_neg (not_not.mpr hold), if_pos hlate] at hexec
  exact runs_of_settle hexec ((rd_settled_other _ _ _ _ (by decide)).trans (rd_hubFailed_out _ hub))

end Sample

/-! The shadow takes over -/

theorem rd_takeover_lead (s : State) : rd (takeover s) .INTEG_LEAD_LEAD_WING 0 = rd s .INTEG_LEAD_SHADOW_WING 0 := by
  unfold takeover
  extract_lets old lead sh u v
  calc rd (trail (controlRecord v (lead * 40) 2) vestTrail 0x43 0 lead sh) .INTEG_LEAD_LEAD_WING 0
      = rd (controlRecord v (lead * 40) 2) .INTEG_LEAD_LEAD_WING 0 := (within_trail _ _ _ _ _ _).regs _ _ (by decide)
    _ = rd v .INTEG_LEAD_LEAD_WING 0 := (within_report _ _ _ _ _ _ _).regs _ _ (by decide)
    _ = rd u .INTEG_LEAD_LEAD_WING 0 := (within_saveRetirement u _).regs _ _ (by decide)
    _ = lead := by simp [u, inc, rd_wr]

/-- While the shadow's hub is in placement, it takes over. -/
theorem rd_leadFails_lead (hin : rd s .INTEG_HUB_OUT (shadowHub s) = 0) :
    rd (leadFails s) .INTEG_LEAD_LEAD_WING 0 = rd s .INTEG_LEAD_SHADOW_WING 0 := by
  have hplaced : rdb s .INTEG_HUB_OUT (rd s .INTEG_LEAD_SHADOW_WING * 40) = false := rdb_of_ne_one (by
    rw [← shadowHub, hin]
    decide)
  rw [leadFails, hplaced, if_neg Bool.false_ne_true]
  exact rd_takeover_lead s

/-- The lead's heartbeat as the shadow keeps it. -/
def leadSeen (s : State) (t value : Nat) : State := updCore (tick s t) fun c => { c with shadowBeat := (value, (tick s t).now) }

theorem within_leadSeen (s : State) (t value : Nat) : Within [.core, .now] [] s (leadSeen s t value) :=
  ((within_tick s t).mono (by simp) (by simp)).trans ((within_core _ _).mono (by simp) (by simp))

theorem exec_shadowHeartbeatSample (s : State) (t value : Nat) : exec (.shadowHeartbeatSample t value) s = settle s
    (if value ≠ s.core.shadowBeat.1 then leadSeen s t value
    else if leadHub s ∈ s.core.halted ∨ shadowHub s ∈ s.core.halted then tick s t
    else if s.core.shadowBeat.2 + 30000 ≤ (tick s t).now then leadFails (leadSeen s t value)
    else tick s t) := rfl

theorem exec_machineCheck (s : State) (t : Nat) : exec (.machineCheck t) s = settle s
    (if shadowHub s ∈ s.core.halted then tick s t else leadFails (leadSeen s t s.core.shadowBeat.1)) := rfl

theorem shadowHeartbeat_kept {t value : Nat} (hnew : value ≠ s.core.shadowBeat.1) :
    Runs (.shadowHeartbeatSample t value) s fun v =>
      v.core.shadowBeat = (value, (tick s t).now) ∧ KeptBut [.core, .now] s v ∧ RegsKept [] s v := by
  have hexec := exec_shadowHeartbeatSample s t value
  rw [if_pos hnew] at hexec
  exact runs_of_settle hexec ⟨rfl, (within_leadSeen s t value).toWithinAt.settled⟩

/-- A failed lead has its shadow take over. -/
theorem leadFails_takesOver {i : Instr} {t value : Nat} (hexec : exec i s = settle s (leadFails (leadSeen s t value)))
    (hin : rd s .INTEG_HUB_OUT (shadowHub s) = 0) :
    Runs i s fun v => rd v .INTEG_LEAD_LEAD_WING 0 = rd s .INTEG_LEAD_SHADOW_WING 0 :=
  runs_of_settle hexec ((rd_settled_other _ _ _ _ (by decide)).trans (rd_leadFails_lead (s := leadSeen s t value) hin))

theorem shadowHeartbeat_takesOver {t value : Nat} (hlead : leadHub s ∉ s.core.halted) (hshadow : shadowHub s ∉ s.core.halted)
    (hin : rd s .INTEG_HUB_OUT (shadowHub s) = 0) (hold : value = s.core.shadowBeat.1)
    (hlate : s.core.shadowBeat.2 + 30000 ≤ (tick s t).now) : Runs (.shadowHeartbeatSample t value) s fun v =>
      rd v .INTEG_LEAD_LEAD_WING 0 = rd s .INTEG_LEAD_SHADOW_WING 0 := by
  have hexec := exec_shadowHeartbeatSample s t value
  rw [if_neg (not_not.mpr hold), if_neg (not_or.mpr ⟨hlead, hshadow⟩), if_pos hlate] at hexec
  exact leadFails_takesOver hexec hin

theorem machineCheck_takesOver {t : Nat} (hshadow : shadowHub s ∉ s.core.halted) (hin : rd s .INTEG_HUB_OUT (shadowHub s) = 0) :
    Runs (.machineCheck t) s fun v => rd v .INTEG_LEAD_LEAD_WING 0 = rd s .INTEG_LEAD_SHADOW_WING 0 := by
  have hexec := exec_machineCheck s t
  rw [if_neg hshadow] at hexec
  exact leadFails_takesOver hexec hin

/-- Settles O29: a failed hub is taken out of placement as its reset begins, and INTEG_HUB_OUT survives the reset by its class;
a takeover writes the lead's wing, and nothing it does after that touches it. -/
theorem heartbeatsRun : Obligations.HeartbeatsRun := by
  unfold Obligations.HeartbeatsRun
  refine ⟨fun s t hub value hh hstate hrun hreset => ⟨heartbeat_kept hh hstate hrun hreset, heartbeat_fails hh hstate hrun hreset⟩,
    fun s t value => ⟨shadowHeartbeat_kept, fun hlead hshadow hin => ⟨?_, machineCheck_takesOver hshadow hin⟩⟩⟩
  exact shadowHeartbeat_takesOver hlead hshadow hin

end Sys2Proof.Machine
end

section
/-! The commands that stand in the queues, as tasks end and queues move on (R99, R476): no other command comes into one. -/

namespace Sys2Proof.Machine

variable {s t u : State}

/-- The commands of all the queues. -/
def queuedCmds (s : State) : List QueuedCmd := s.core.queues.flatMap fun e => e.2.map (·.q)

theorem mem_queuedCmds {q : QueuedCmd} : q ∈ queuedCmds s ↔ ∃ e ∈ s.core.queues, ∃ x ∈ e.2, x.q = q := by simp [queuedCmds]

/-- Every command of a queue was in a queue before. -/
def QueuesFrom (s t : State) : Prop := queuedCmds t ⊆ queuedCmds s

theorem QueuesFrom.refl (s : State) : QueuesFrom s s := List.Subset.refl _

theorem QueuesFrom.trans (h : QueuesFrom s t) (k : QueuesFrom t u) : QueuesFrom s u := List.Subset.trans k h

theorem queuesFrom_of_queues (h : t.core.queues = s.core.queues) : QueuesFrom s t := by
  unfold QueuesFrom queuedCmds
  rw [h]
  exact List.Subset.refl _

theorem queuesFrom_of_core (h : t.core = s.core) : QueuesFrom s t := queuesFrom_of_queues (by rw [h])

theorem queuesFrom_each {α : Type} {f : State → α → State} (hf : ∀ s a, QueuesFrom s (f s a)) (l : List α) (s : State) :
    QueuesFrom s (each l s f) := each_rel QueuesFrom.refl QueuesFrom.trans hf l s

/-- Steps that keep the cores keep them one after the other. -/
theorem each_core {α : Type} {f : State → α → State} (hf : ∀ s a, (f s a).core = s.core) (l : List α) (s : State) :
    (each l s f).core = s.core :=
  each_rel (r := fun s t => t.core = s.core) (fun _ => rfl) (fun h k => k.trans h) hf l s

/-! One queue -/

theorem mem_storePut {α : Type} [DecidableEq α] {d : α} {m : Store α} {k : Nat} {v : α} {e : Nat × α} (h : e ∈ storePut d m k v) :
    e = (k, v) ∨ e ∈ m := by
  unfold storePut at h
  split at h
  · exact Or.inr (List.mem_filter.mp h).1
  · exact storeInsert_mem m k v e h

theorem mem_queuedCmds_of_queueAt {k : Nat} {x : RunCmd} (h : x ∈ queueAt s k) : x.q ∈ queuedCmds s := by
  unfold queueAt storeGet at h
  cases hk : storeFind s.core.queues k with
  | none => simp [hk] at h
  | some l => exact mem_queuedCmds.mpr ⟨(k, l), mem_of_storeFind hk, x, by simpa [hk] using h, rfl⟩

theorem queuesFrom_setQueueAt {k : Nat} {l : List RunCmd} (h : ∀ x ∈ l, x.q ∈ queuedCmds s) : QueuesFrom s (setQueueAt s k l) := by
  intro q hq
  obtain ⟨e, he, x, hx, rfl⟩ := mem_queuedCmds.mp hq
  rcases mem_storePut he with rfl | he
  · exact h x hx
  · exact mem_queuedCmds.mpr ⟨e, he, x, hx, rfl⟩

theorem queuesFrom_setCmd {k : Nat} {r : RunCmd} (h : r.q ∈ queuedCmds s) : QueuesFrom s (setCmd s k r) := by
  refine queuesFrom_setQueueAt fun x hx => ?_
  obtain ⟨y, hy, rfl⟩ := List.mem_map.mp hx
  split
  · exact h
  · exact mem_queuedCmds_of_queueAt hy

theorem mem_queueAt_of_nextCmd {k : Nat} {r : RunCmd} (h : nextCmd s k = some r) : r ∈ queueAt s k := by
  unfold nextCmd at h
  split at h
  · exact absurd h (by simp)
  · split at h
    · next x i hfind =>
      split at h
      · obtain rfl := Option.some.inj h
        exact List.fst_mem_of_mem_zipIdx (List.mem_of_find?_eq_some hfind)
      · exact absurd h (by simp)
    · exact absurd h (by simp)

/-! A task that stops -/

theorem abortSegments_core (s : State) (p : Segment → Bool) : (abortSegments s p).core = s.core := by
  refine each_core (fun t g => ?_) _ s
  have harrive : (arriveBarrier t g true).1.core = t.core := (within_arriveBarrier t g true).parts .core (by simp)
  split
  · next u g' hu =>
    rw [hu] at harrive
    have hitems : (endSegmentItems u g').core = u.core := (itemsEnd_endItems u _ _ _).within.parts .core (by simp)
    exact hitems.trans harrive
  · next u hu =>
    rw [hu] at harrive
    exact harrive

theorem queues_freeCard (s : State) (card : Nat) : (freeCard s card).core.queues = s.core.queues := by
  unfold freeCard
  split
  · rfl
  · extract_lets u v w
    have hu : u.core = s.core := by
      unfold u
      refine each_core (fun _ _ => ?_) _ s
      rfl
    have hv : v.core = u.core := by
      unfold v
      refine each_core (fun _ _ => ?_) _ u
      rfl
    show v.core.queues = s.core.queues
    rw [hv, hu]

/-- The commands of a task leave every queue, and a queue that is then empty is no longer listed. -/
theorem queues_stopTask (s : State) (task : List (Nat × Nat)) (card code detail : Nat) :
    (stopTask s task card code detail).core.queues =
      (s.core.queues.map fun e => (e.1, e.2.filter fun r => !(r.q.card.cardId == card && r.q.task == task))).filter
        fun e => !e.2.isEmpty := by
  unfold stopTask
  extract_lets mine ran opened u v w
  have hv : v.core = u.core := by
    unfold v
    refine each_core (fun _ _ => ?_) ran u
    rfl
  have hw : w.core = (freeCard v card).core :=
    (itemsEnd_endEach task code detail (freeCard v card)).within.parts .core (by simp)
  rw [abortSegments_core, hw, queues_freeCard, hv]
  rfl

theorem mem_queuedCmds_stopTask {task : List (Nat × Nat)} {card code detail : Nat} {q : QueuedCmd}
    (h : q ∈ queuedCmds (stopTask s task card code detail)) :
    q ∈ queuedCmds s ∧ ¬ (q.card.cardId = card ∧ q.task = task) := by
  obtain ⟨e, he, x, hx, rfl⟩ := mem_queuedCmds.mp h
  rw [queues_stopTask] at he
  obtain ⟨e', he', rfl⟩ := List.mem_map.mp (List.mem_filter.mp he).1
  obtain ⟨hin, hother⟩ := List.mem_filter.mp hx
  exact ⟨mem_queuedCmds.mpr ⟨e', he', x, hin, rfl⟩, fun ⟨hcard, htask⟩ => by simp [hcard, htask] at hother⟩

theorem queuesFrom_stopTask (s : State) (task : List (Nat × Nat)) (card code detail : Nat) :
    QueuesFrom s (stopTask s task card code detail) := fun _ hq => (mem_queuedCmds_stopTask hq).1

/-! Queues that move on -/

theorem queuesFrom_noteStarts (s : State) (k n : Nat) : QueuesFrom s (noteStarts s k n) := by
  unfold noteStarts
  split
  · exact QueuesFrom.refl s
  · next r hr =>
    extract_lets vec
    split
    · have hin : r.q ∈ queuedCmds s := mem_queuedCmds_of_queueAt (List.mem_of_find?_eq_some hr)
      exact queuesFrom_setCmd hin
    · exact QueuesFrom.refl s

theorem drawCredits_core (s : State) (q : QueuedCmd) : (drawCredits s q).core = s.core := by
  unfold drawCredits
  refine each_core (fun _ _ => ?_) _ s
  rfl

theorem hubError_core (s : State) (hub off value slot : Nat) (cause : Option Nat) :
    (hubError s hub off value slot cause).core = s.core := (within_hubError s hub off value slot cause).parts .core (by simp)

theorem queuesFrom_beginCmd {k : Nat} {r : RunCmd} (h : r.q ∈ queuedCmds s) : QueuesFrom s (beginCmd s k r) := by
  unfold beginCmd
  extract_lets u v w at_
  have hqueues : w.core.queues = s.core.queues := by
    simp only [w, trail_core, v, updCore_core, u, drawCredits_core]
  have hr : r.q ∈ queuedCmds w := by rwa [queuedCmds, hqueues]
  have hset : QueuesFrom w (setCmd w k { r with started := true, start := at_, unused := reserveLeft w }) := queuesFrom_setCmd hr
  exact ((queuesFrom_of_queues hqueues).trans hset).trans ((queuesFrom_noteStarts _ _ _).trans (queuesFrom_of_core (showBusy_core _ _)))

theorem queuesFrom_arriveSem (s : State) (k : Nat) (r : RunCmd) (n : Nat) : QueuesFrom s (arriveSem s k r n) := by
  unfold arriveSem
  dsimp only
  split
  · refine QueuesFrom.trans (queuesFrom_of_core ?_) (queuesFrom_stopTask _ _ _ _ _)
    simp only [hubError_core, wr_core]
  · split
    · exact QueuesFrom.refl s
    · refine queuesFrom_of_queues ?_
      simp only [updCore_core, trail_core, wr_core]
      split <;> rfl

theorem queuesFrom_reachSems (s : State) (k : Nat) : QueuesFrom s (reachSems s k) := by
  unfold reachSems
  split
  · exact queuesFrom_each (fun t n => queuesFrom_arriveSem t k _ n) _ s
  · exact QueuesFrom.refl s

theorem queuesFrom_startHead (n : Nat) (s : State) (k : Nat) : QueuesFrom s (startHead n s k) := by
  induction n generalizing s with
  | zero => exact QueuesFrom.refl s
  | succ n ih =>
    unfold startHead
    split
    · next r hr =>
      split
      · have hbegin := queuesFrom_beginCmd (k := k) (mem_queuedCmds_of_queueAt (mem_queueAt_of_nextCmd hr))
        exact (hbegin.trans (queuesFrom_reachSems _ k)).trans (ih _)
      · exact QueuesFrom.refl s
    · exact QueuesFrom.refl s

theorem queuesFrom_pump (s : State) (h : Nat) : QueuesFrom s (pump s h) := by
  have honce : ∀ t, QueuesFrom t (pumpOnce t h) := fun t =>
    (queuesFrom_each queuesFrom_reachSems _ t).trans (queuesFrom_each (queuesFrom_startHead 16) _ _)
  exact (honce s).trans (honce _)

theorem queuesFrom_pumpAll (s : State) (hs : List Nat) : QueuesFrom s (pumpAll s hs) := queuesFrom_each queuesFrom_pump hs s

theorem queuesFrom_endTask (s : State) (task : List (Nat × Nat)) (card code detail : Nat) :
    QueuesFrom s (endTask s task card code detail) := (queuesFrom_stopTask s task card code detail).trans (queuesFrom_pumpAll _ _)

/-- No command of a task that has ended is queued. -/
theorem not_mine_of_endTask {task : List (Nat × Nat)} {card code detail : Nat} {q : QueuedCmd}
    (h : q ∈ queuedCmds (endTask s task card code detail)) : ¬ (q.card.cardId = card ∧ q.task = task) :=
  (mem_queuedCmds_stopTask (queuesFrom_pumpAll _ _ h)).2

/-! A core that leaves service -/

theorem queuesFrom_markRetired (s : State) (k reason : Nat) (atOnce : Bool) : QueuesFrom s (markRetired s k reason atOnce) := by
  have hmark : QueuesFrom s (coreMarked s k 4) := by
    intro q hq
    obtain ⟨e, he, x, hx, rfl⟩ := mem_queuedCmds.mp hq
    exact mem_queuedCmds.mpr ⟨e, (List.mem_filter.mp he).1, x, hx, rfl⟩
  unfold markRetired
  split
  · exact QueuesFrom.refl s
  · split
    · rw [setCoreState_eq]
      exact hmark.trans (queuesFrom_of_core ((within_coreRecord_saveCore _ _ _ _).parts .core (by simp)))
    · exact queuesFrom_of_queues rfl

/-- A core that is marked RETIRED at once is fenced, and not only RETIRED. -/
theorem fenced_markRetired_atOnce {k : Nat} (h4 : coreState s k ≠ 4) (reason : Nat) :
    rd (markRetired s k reason true) .HUB_SLOT_STATE_FENCED k = 1 := by
  rw [markRetired, if_neg h4, if_pos (Or.inl rfl), setCoreState_eq, (within_coreRecord_saveCore _ _ _ _).regs _ _ (by decide),
    coreMarked, if_pos rfl]
  simp [rd_wr]

end Sys2Proof.Machine
end

section
/-! O27: a command that hangs (R291). -/

namespace Sys2Proof.Machine

variable {s : State} {t hub phys reserve : Nat} {r : RunCmd}

/-- Every task with a command on the core of the hang has ended, the hanging command's own first. -/
def hangStopped (s : State) (t hub k : Nat) (r : RunCmd) : State :=
  let u := endTask (trail (incX (tick s t) .INTEG_HANGS hub) k 0x09 r.q.ctx r.q.index 2) r.q.task r.q.card.cardId 0x23 0x02
  each (tasksOn u (· == k)) u fun x e => endTask x e.1 e.2 0x23 0x02

/-- The core has then left service. -/
def hangRetired (s : State) (t hub k : Nat) (r : RunCmd) : State := markRetired (hangStopped s t hub k r) k 0x06 true

/-- The end of the hanging command's own task, and then of what else is on the core. -/
theorem hangStopped_split (s : State) (t hub k : Nat) (r : RunCmd) : ∃ v,
    v = endTask (trail (incX (tick s t) .INTEG_HANGS hub) k 0x09 r.q.ctx r.q.index 2) r.q.task r.q.card.cardId 0x23 0x02 ∧
    TasksEnd v (hangStopped s t hub k r) ∧ QueuesFrom v (hangStopped s t hub k r) :=
  ⟨_, rfl, tasksEnd_each (fun x (e : List (Nat × Nat) × Nat) => tasksEnd_endTask x e.1 e.2 0x23 0x02) _ _,
    queuesFrom_each (fun x (e : List (Nat × Nat) × Nat) => queuesFrom_endTask x e.1 e.2 0x23 0x02) _ _⟩

theorem within_hangStopped (s : State) (t hub k : Nat) (r : RunCmd) :
    Within [.now, .core, .serve, .rep, .lard, .tt, .fab, .dbg] (.INTEG_HANGS :: queueFlds) s (hangStopped s t hub k r) := by
  obtain ⟨v, rfl, hend, -⟩ := hangStopped_split s t hub k r
  have htrail : Within [.now, .dbg] [.INTEG_HANGS] s (trail (incX (tick s t) .INTEG_HANGS hub) k 0x09 r.q.ctx r.q.index 2) :=
    (((within_tick s t).mono (by simp) (by simp)).trans ((within_incX _ _ hub 1).mono (by simp) (by simp))).trans
      ((within_trail _ _ _ _ _ _).mono (by simp) (by simp))
  exact (htrail.mono (by simp) (by simp)).trans
    (((tasksEnd_endTask _ _ _ _ _).trans hend).frame.within.mono (by simp) (by simp))

/-- What follows is a record, and trails that may freeze. -/
def hangReported (s : State) (hub phys : Nat) (r : RunCmd) : State :=
  freezeHub (report s 0x04 (physIndex hub phys) [(4, r.q.card.cardId, true), (4, r.q.index, true), (8, r.start, false)]
    (some r.q.ctx)) hub 0

theorem within_hangReported (s : State) (hub phys : Nat) (r : RunCmd) :
    Within [.rep, .dbg] errorFlds s (hangReported s hub phys r) :=
  ((within_report _ _ _ _ _ _ _).mono (by simp) (by simp [errorFlds])).trans
    ((within_freezeHub _ _ _).mono (by simp) (by simp [errorFlds]))

theorem exec_hangTimeout (hcur : curCmd (tick s t) (coreKey hub phys) = some r) (hunused : r.unused ≤ reserve)
    (hlate : r.start + r.q.card.maxNs + reserve < (tick s t).now) : exec (.hangTimeout t hub phys reserve) s =
      settle s (hangReported (hangRetired s t hub (coreKey hub phys) r) hub phys r) := by
  obtain ⟨hhead, hstarted⟩ := Option.filter_eq_some_iff.mp hcur
  obtain ⟨rest, hqueue⟩ := List.head?_eq_some_iff.mp hhead
  have hfind : (queueAt (tick s t) (coreKey hub phys)).find? (fun x =>
      x.started && decide (x.unused ≤ reserve ∧ x.start + x.q.card.maxNs + reserve < (tick s t).now)) = some r := by
    rw [hqueue, List.find?_cons_of_pos (by simp only [hstarted, hunused, hlate, and_self, decide_true, Bool.and_self])]
  show execHangTimeout t hub phys reserve s = _
  unfold execHangTimeout
  extract_lets u k
  rw [hfind]
  rfl

/-- Settles O27: no command comes into a queue as the tasks end and the queues move on, so the task's commands, which its end has
taken out, stay out; its items stay ended; and the core is fenced as it leaves service. -/
theorem hangRetiresTheCore : Obligations.HangRetiresTheCore := by
  unfold Obligations.HangRetiresTheCore
  intro s t hub phys reserve r u k hcur hunused hlate h4
  have hstop := within_hangStopped s t hub k r
  obtain ⟨v, hv, hend, hfrom⟩ := hangStopped_split s t hub k r
  have hretire := (stateFrame_markRetired (hangStopped s t hub k r) k 0x06 true).within
  have hreport := within_hangReported (hangRetired s t hub k r) hub phys r
  have hserving : coreState (hangStopped s t hub k r) k ≠ 4 := by
    rw [coreState, hstop.regs _ _ (by decide)]
    exact h4
  refine runs_of_settle (exec_hangTimeout hcur hunused hlate) ⟨?_, ?_, fun e he x hx => ?_, fun i hi => ?_, ?_⟩
  · rw [coreState_settled, coreState, hreport.regs _ _ (by decide)]
    exact coreState_markRetired_atOnce _ k k 0x06 (Or.inl rfl)
  · rw [rd_settled_other _ _ _ _ (by decide), hreport.regs _ _ (by decide)]
    exact fenced_markRetired_atOnce hserving 0x06
  · have hqueued := queuesFrom_of_core (hreport.parts .core (by simp)) (mem_queuedCmds.mpr ⟨e, he, x, hx, rfl⟩)
    have hended := hfrom (queuesFrom_markRetired _ _ _ _ hqueued)
    rw [hv] at hended
    exact not_mine_of_endTask hended
  · have hserve : (hangReported (hangRetired s t hub k r) hub phys r).serve = (hangStopped s t hub k r).serve :=
      (hretire.parts .serve (by simp)).trans (hreport.parts .serve (by simp))
    have hgone : itemAt (hangStopped s t hub k r) i.1 i.2 = none := hend.closed _ _ (by rw [hv]; exact itemAt_endTask hi _ _ _ _)
    exact (itemAt_congr (congrArg Serving.items hserve) i.1 i.2).trans hgone
  · exact ((hstop.parts .mem (by simp)).trans (hretire.parts .mem (by simp))).trans (hreport.parts .mem (by simp))

end Sys2Proof.Machine
end

section
/-! Gears, ceilings and alerts: what each operation leaves as it was, and what the gears and ceilings then show (R322, R323, R326). -/

namespace Sys2Proof.Machine

variable {s t u : State}

/-- Two frames one after the other. -/
theorem Within.append {ps qs : List Part} {fs gs : List Fld} (h : Within ps fs s t) (k : Within qs gs t u) :
    Within (ps ++ qs) (fs ++ gs) s u :=
  (h.mono (List.subset_append_left _ _) (List.subset_append_left _ _)).trans
    (k.mono (List.subset_append_right _ _) (List.subset_append_right _ _))

/-- A frame of what follows the Cadence's move to the command's time. -/
theorem Within.afterTick {ps : List Part} {fs : List Fld} {at_ : Nat} (h : Within ps fs (tick s at_) t) :
    Within (.now :: ps) fs s t := (within_tick s at_).append h

/-! Gears -/

/-- The gear that a wing's demands leave it (R323). -/
def gearInEffect (s : State) (w : Nat) : Nat :=
  if forcedG0 s w = true ∨ s.pwr.railForced ≠ [] ∨ w ∈ s.pwr.tripped then 0
  else if rd s .DRL_GEAR_THROTTLED w = 1 then min (rd s .DRL_GEAR_PLANNED w) (rd s .PWR_CONFIG_THROTTLE_GEAR)
  else rd s .DRL_GEAR_PLANNED w

/-- The fields, beside the power state, that a gear depends on. -/
def demandFlds : List Fld := [.DRL_GEAR_PLANNED, .DRL_GEAR_THROTTLED, .PWR_CONFIG_THROTTLE_GEAR]

theorem forcedG0_congr (h : t.pwr = s.pwr) (w : Nat) : forcedG0 t w = forcedG0 s w := by rw [forcedG0, alerted, h]; rfl

theorem gearInEffect_congr (hpwr : t.pwr = s.pwr) (hregs : ∀ f ∈ demandFlds, ∀ n, rd t f n = rd s f n) (w : Nat) :
    gearInEffect t w = gearInEffect s w := by
  simp only [demandFlds, List.forall_mem_cons, List.not_mem_nil, false_imp_iff, implies_true, and_true] at hregs
  obtain ⟨hplanned, hthrottled, hgear⟩ := hregs
  rw [gearInEffect, gearInEffect, forcedG0_congr hpwr, hpwr, hplanned, hthrottled, hgear]

/-- A wing's registers show its gear, whether an alert forces it, and the VCORE of a wing that has slewed. -/
structure GearShown (s : State) (w : Nat) : Prop where
  current : rd s .DRL_GEAR_CURRENT w = gearInEffect s w
  forced : rd s .DRL_GEAR_FORCED w = b2n (forcedG0 s w)
  vcore : w ∈ s.pwr.slewed → rd s .DRL_VCORE_MILLIVOLTS w = vcoreMv (gearInEffect s w)

/-- What the registers show of a gear, a step that leaves the wing's registers and demands leaves too. -/
theorem GearShown.congr {w : Nat} (h : GearShown s w) (hpwr : t.pwr = s.pwr)
    (hdemands : ∀ f ∈ demandFlds, ∀ n, rd t f n = rd s f n) (hshown : ∀ f ∈ gearFlds, rd t f w = rd s f w) : GearShown t w := by
  have hgear := gearInEffect_congr hpwr hdemands w
  refine ⟨?_, ?_, fun hw => ?_⟩
  · rw [hshown _ (by simp [gearFlds]), h.current, hgear]
  · rw [hshown _ (by simp [gearFlds]), h.forced, forcedG0_congr hpwr]
  · rw [hshown _ (by simp [gearFlds]), h.vcore (by rwa [hpwr] at hw), hgear]

/-- The registers of a wing's gear. -/
abbrev gearRegs (w : Nat) : List (Fld × Nat) := [(.DRL_GEAR_FORCED, w), (.DRL_GEAR_CURRENT, w), (.DRL_VCORE_MILLIVOLTS, w)]

theorem withinAt_settleGear (s : State) (w : Nat) : WithinAt [] (gearRegs w) s (settleGear s w) :=
  ((withinAt_wr s .DRL_GEAR_FORCED w _).trans (withinAt_wr _ _ w _)).trans (withinAt_wr _ _ w _)

@[simp] theorem settleGear_pwr (s : State) (w : Nat) : (settleGear s w).pwr = s.pwr := rfl

theorem gearInEffect_settleGear (s : State) (x w : Nat) : gearInEffect (settleGear s x) w = gearInEffect s w :=
  gearInEffect_congr (settleGear_pwr s x) (fun f hf n => (within_settleGear s x).regs f n (by revert f; decide)) w

theorem gearShown_settleGear (s : State) (w : Nat) : GearShown (settleGear s w) w := by
  have hgear : rd (settleGear s w) .DRL_GEAR_CURRENT w = gearInEffect s w := by
    simp only [settleGear, rd_wr, rd_wrb, reduceCtorEq, false_and, and_self, if_true, if_false]
    simp [gearInEffect, rdb, or_assoc]
  refine ⟨hgear.trans (gearInEffect_settleGear s w w).symm, ?_, fun hw => ?_⟩
  · simp only [settleGear, rd_wr, rd_wrb, reduceCtorEq, false_and, and_self, if_true, if_false]
    rfl
  · have hw' : w ∈ s.pwr.slewed := hw
    rw [gearInEffect_settleGear, ← hgear]
    simp [settleGear, rd_wr, hw']

theorem gearShown_settleGear_of_shown {w : Nat} (h : GearShown s w) (x : Nat) : GearShown (settleGear s x) w := by
  by_cases hx : w = x
  · exact hx ▸ gearShown_settleGear s w
  · refine h.congr rfl (fun f hf n => (within_settleGear s x).regs f n (by revert f; decide)) fun f _ => ?_
    exact (withinAt_settleGear s x).regs f w (by simp [hx])

theorem within_settleGears (s : State) : Within [] gearFlds s (settleGears s) := within_each _ within_settleGear _ s

@[simp] theorem settleGears_pwr (s : State) : (settleGears s).pwr = s.pwr := each_view State.pwr settleGear settleGear_pwr _ s

theorem gearShown_settleGears (s : State) {w : Nat} (hw : w < 4) : GearShown (settleGears s) w :=
  each_reach (p := fun t => GearShown t w) (f := settleGear) (gearShown_settleGear · w)
    (fun _ x h => gearShown_settleGear_of_shown h x) (List.mem_range.mpr hw) s

theorem gearInEffect_settleGears (s : State) (w : Nat) : gearInEffect (settleGears s) w = gearInEffect s w :=
  gearInEffect_congr (settleGears_pwr s) (fun f hf n => (within_settleGears s).regs f n (by revert f; decide)) w

/-- Each of the four wings runs at the gear its demands leave it. -/
theorem rd_settleGears_current (s : State) {w : Nat} (hw : w < 4) :
    rd (settleGears s) .DRL_GEAR_CURRENT w = gearInEffect s w :=
  (gearShown_settleGears s hw).current.trans (gearInEffect_settleGears s w)

theorem rd_settleGears_forced (s : State) {w : Nat} (hw : w < 4) :
    rd (settleGears s) .DRL_GEAR_FORCED w = b2n (forcedG0 s w) :=
  (gearShown_settleGears s hw).forced.trans (congrArg b2n (forcedG0_congr (settleGears_pwr s) w))

theorem gearInEffect_of_forced {w : Nat} (h : forcedG0 s w = true ∨ s.pwr.railForced ≠ [] ∨ w ∈ s.pwr.tripped) :
    gearInEffect s w = 0 := if_pos h

theorem forcedG0_of_alerted {w : Nat} (h : alerted s w = true) : forcedG0 s w = true := by rw [forcedG0, h, Bool.true_or]

/-! Ceilings -/

/-- The fields that the ceilings of the wings are shown in. -/
def ceilFlds : List Fld := [.DRL_GEAR_CEILING, .DRL_GEAR_CEILING_PENDING]

/-- A ceiling depends on the drops in force, not on when they began. -/
theorem ceilingNow_congr (hboot : t.boot = s.boot) (hpwr : ∃ l, t.pwr = { s.pwr with drops := l })
    (hregs : ∀ f ∈ [Fld.PWR_CONFIG_GEAR_CEILING, .PWR_CONFIG_FALLBACK_DROP], rd t f 0 = rd s f 0) (w : Nat) :
    ceilingNow t w = ceilingNow s w := by
  obtain ⟨l, hl⟩ := hpwr
  simp only [List.forall_mem_cons, List.not_mem_nil, false_imp_iff, implies_true, and_true] at hregs
  obtain ⟨hceiling, hdrop⟩ := hregs
  simp only [ceilingNow, gearCeiling, hboot, hl, hceiling, hdrop]

/-- One wing's ceiling is set, as a drop that is still owed or not. -/
def ceilingSet (owed : Bool) (t : State) (w : Nat) : State :=
  wr (if owed && decide (ceilingNow t w < rd t .DRL_GEAR_CEILING w) then wr t .DRL_GEAR_CEILING_PENDING w 1 else t)
    .DRL_GEAR_CEILING w (ceilingNow t w)

theorem within_ceilingSet (owed : Bool) (s : State) (w : Nat) : Within [] ceilFlds s (ceilingSet owed s w) := by
  refine Within.trans (t := if owed && decide (ceilingNow s w < rd s .DRL_GEAR_CEILING w) then _ else s) ?_
    ((within_wr _ _ _ _).mono (by simp) (by simp [ceilFlds]))
  split
  · exact (within_wr _ _ _ _).mono (by simp) (by simp [ceilFlds])
  · exact Within.refl _ _ s

theorem ceilingNow_ceilingSet (owed : Bool) (s : State) (w x : Nat) : ceilingNow (ceilingSet owed s w) x = ceilingNow s x :=
  have h := within_ceilingSet owed s w
  ceilingNow_congr (h.parts .boot (by simp)) ⟨s.pwr.drops, h.parts .pwr (by simp)⟩
    (fun f hf => h.regs f 0 (by revert f; decide)) x

theorem rd_ceilingSet_same (owed : Bool) (s : State) (w : Nat) :
    rd (ceilingSet owed s w) .DRL_GEAR_CEILING w = ceilingNow (ceilingSet owed s w) w := by
  rw [ceilingNow_ceilingSet]
  exact rd_wr_same _ _ _ _

theorem rd_ceilingSet_other (owed : Bool) (s : State) {w x : Nat} (h : x ≠ w) :
    rd (ceilingSet owed s w) .DRL_GEAR_CEILING x = rd s .DRL_GEAR_CEILING x := by
  rw [ceilingSet, rd_wr_ne _ _ _ _ _ _ (by simp [h])]
  split
  · exact rd_wr_ne _ _ _ _ _ _ (by simp)
  · rfl

/-- The ceilings of the four wings are set. -/
def ceilingsSet (owed : Bool) (s : State) : State := each (List.range 4) s (ceilingSet owed)

theorem within_ceilingsSet (owed : Bool) (s : State) : Within [] ceilFlds s (ceilingsSet owed s) :=
  within_each _ (within_ceilingSet owed) _ s

theorem rd_ceilingsSet (owed : Bool) (s : State) {x : Nat} (hx : x < 4) :
    rd (ceilingsSet owed s) .DRL_GEAR_CEILING x = ceilingNow (ceilingsSet owed s) x := by
  refine each_reach (p := fun t => rd t .DRL_GEAR_CEILING x = ceilingNow t x) (rd_ceilingSet_same owed · x) (fun t w ht => ?_)
    (List.mem_range.mpr hx) s
  by_cases h : x = w
  · exact h ▸ rd_ceilingSet_same owed t x
  · rw [rd_ceilingSet_other owed t h, ht, ceilingNow_ceilingSet]

theorem setCeilings_eq (s : State) : ∃ l, setCeilings s =
    updPwr (ceilingsSet (!s.serve.items.isEmpty) s) fun p => { p with drops := l } := by
  have heq : setCeilings s = (if (!s.serve.items.isEmpty && _ : Bool) = true then _ else _ : State) := rfl
  rw [heq]
  split
  · exact ⟨_, rfl⟩
  · exact ⟨(ceilingsSet (!s.serve.items.isEmpty) s).pwr.drops, rfl⟩

theorem within_setCeilings (s : State) : Within [.pwr] ceilFlds s (setCeilings s) := by
  obtain ⟨l, hl⟩ := setCeilings_eq s
  rw [hl]
  exact ((within_ceilingsSet _ s).append (within_pwr _ _)).mono (by simp) (by simp)

theorem setCeilings_pwr (s : State) : ∃ l, (setCeilings s).pwr = { s.pwr with drops := l } := by
  obtain ⟨l, hl⟩ := setCeilings_eq s
  have hpwr : (ceilingsSet (!s.serve.items.isEmpty) s).pwr = s.pwr := (within_ceilingsSet _ s).parts .pwr (by simp)
  exact ⟨l, by rw [hl, updPwr_pwr, hpwr]⟩

/-- Each of the four wings has the ceiling that the drops in force leave it. -/
theorem rd_setCeilings (s : State) {x : Nat} (hx : x < 4) :
    rd (setCeilings s) .DRL_GEAR_CEILING x = ceilingNow (setCeilings s) x := by
  obtain ⟨l, hl⟩ := setCeilings_eq s
  rw [hl, rd_updPwr, rd_ceilingsSet _ s hx]
  exact (ceilingNow_congr (s := ceilingsSet _ s) (t := updPwr (ceilingsSet _ s) _) rfl ⟨l, rfl⟩ (fun _ _ => rfl) x).symm

theorem ceilingNow_settled (s t : State) (w : Nat) : ceilingNow (settled s t) w = ceilingNow t w :=
  ceilingNow_congr (s := t) (t := settled s t) rfl ⟨t.pwr.drops, rfl⟩ (fun f hf => rd_settled_other s t f 0 (by revert f; decide)) w

/-! Records, trails and storms -/

theorem within_alertRecord (s : State) (code : Nat) (wings : List Nat) (gear flags asserted atG0 : Nat) :
    Within [.rep] reportFlds s (alertRecord s code wings gear flags asserted atG0) := within_report _ _ _ _ _ _ _

theorem within_powerTrail (s : State) (unit gear : Nat) (throttle : Bool) : Within [.dbg] [] s (powerTrail s unit gear throttle) :=
  within_trail _ _ _ _ _ _

theorem within_stepCause (s : State) (bit : Nat) : Within [.tt] [] s (stepCause s bit) := by
  unfold stepCause
  split
  · exact within_tt s _
  · exact Within.refl _ _ s

theorem within_freezeAll (s : State) (trigger : Nat) : Within [.dbg] freezeFlds s (freezeAll s trigger) :=
  within_each _ (fun t h => within_freezeScope t h trigger) _ s

/-- The sensors' levels are as they were. -/
def LevelsKept (s t : State) : Prop := t.pwr.levels = s.pwr.levels ∧ t.pwr.vestTemp = s.pwr.vestTemp

theorem LevelsKept.trans (h : LevelsKept s t) (k : LevelsKept t u) : LevelsKept s u := ⟨k.1.trans h.1, k.2.trans h.2⟩

theorem levelsKept_of_pwr (h : t.pwr = s.pwr) : LevelsKept s t := by rw [LevelsKept, h]; exact ⟨rfl, rfl⟩

theorem Within.levelsKept {ps : List Part} {fs : List Fld} (h : Within ps fs s t) (hp : Part.pwr ∉ ps := by simp) : LevelsKept s t :=
  levelsKept_of_pwr (h.parts .pwr hp)

theorem levelsKept_setCeilings (s : State) : LevelsKept s (setCeilings s) := by
  obtain ⟨l, hl⟩ := setCeilings_pwr s
  rw [LevelsKept, hl]
  exact ⟨rfl, rfl⟩

theorem levelsKept_each {α : Type} {f : State → α → State} (hf : ∀ s a, LevelsKept s (f s a)) (l : List α) (s : State) :
    LevelsKept s (each l s f) := each_rel (r := LevelsKept) (fun _ => ⟨rfl, rfl⟩) LevelsKept.trans hf l s

/-- A storm begins: its drop holds for a second (R326). -/
def stormBegun (s : State) (code w : Nat) : State :=
  let u := updPwr s fun p => { p with stormEnd := storeInsert p.stormEnd w (s.now + 1000000000) }
  setCeilings (alertRecord u code [w] (rd u .DRL_GEAR_CURRENT w) 4 0 0)

theorem within_stormBegun (s : State) (code w : Nat) : Within [.pwr, .rep] (reportFlds ++ ceilFlds) s (stormBegun s code w) := by
  unfold stormBegun
  extract_lets u
  exact ((within_pwr s _).append ((within_alertRecord u _ _ _ _ _ _).append (within_setCeilings _))).mono (by simp) (by simp)

theorem levelsKept_stormBegun (s : State) (code w : Nat) : LevelsKept s (stormBegun s code w) := by
  unfold stormBegun
  extract_lets u
  have hu : LevelsKept s u := ⟨rfl, rfl⟩
  exact (hu.trans (within_alertRecord u _ _ _ _ _ _).levelsKept).trans (levelsKept_setCeilings _)

/-- An assertion on a wing is counted, and may begin a storm. -/
theorem stormCheck_cases (s : State) (code w : Nat) : ∃ l, stormCheck s code w = updPwr s (fun p => { p with asserts := l }) ∨
    stormCheck s code w = stormBegun (updPwr s fun p => { p with asserts := l }) code w := by
  unfold stormCheck
  extract_lets l storm keep t
  split
  · exact ⟨_, Or.inr rfl⟩
  · exact ⟨_, Or.inl rfl⟩

theorem within_stormCheck (s : State) (code w : Nat) : Within [.pwr, .rep] (reportFlds ++ ceilFlds) s (stormCheck s code w) := by
  obtain ⟨l, h | h⟩ := stormCheck_cases s code w <;> rw [h]
  · exact (within_pwr s _).mono (by simp) (by simp)
  · exact ((within_pwr s _).append (within_stormBegun _ code w)).mono (by simp) (by simp)

theorem levelsKept_stormCheck (s : State) (code w : Nat) : LevelsKept s (stormCheck s code w) := by
  obtain ⟨l, h | h⟩ := stormCheck_cases s code w <;> rw [h]
  · exact ⟨rfl, rfl⟩
  · exact LevelsKept.trans (t := updPwr s fun p => { p with asserts := l }) ⟨rfl, rfl⟩ (levelsKept_stormBegun _ code w)

/-! The assertion of an alert -/

/-- The alert that an assertion begins. -/
def alertBegun (s : State) (src code : Nat) (wings : List Nat) (delay : Nat) : AlertRun :=
  ⟨src, code, wings, s.now, slotCeil s.now + min delay 480 / 40 * 40, none,
    ((wings.map (fun w => rd s .DRL_GEAR_CURRENT w)).min?).getD 0,
    b2n (wings.any (lockedOn s)) + 2 * b2n (wings.any (fun w => storeGet 0 s.pwr.duty w != 0))⟩

/-- An alert is listed with its registers, before the gears follow it. -/
def alertListed (s : State) (src code : Nat) (wings : List Nat) (delay : Nat) : State :=
  let u := updPwr s fun p => { p with
    alerts := p.alerts ++ [alertBegun s src code wings delay], duty := storeKeep (fun w => !decide (w ∈ wings)) p.duty
    high := storeKeep (fun w => !decide (w ∈ wings)) p.high, low := storeKeep (fun w => !decide (w ∈ wings)) p.low }
  let v := wr (wr (inc u .PWR_ALERT_COUNT) .PWR_STATUS_ALERT_ACTIVE 0 1) .PWR_STATUS_ALERT_SEEN 0 1
  if code ≤ 20 then wr v .PWR_ALERT_MAP 0 (rd v .PWR_ALERT_MAP ||| 2 ^ code) else v

/-- What follows an alert whose wings are at G0: the step's causes, storms, interrupts and trails. -/
def alertSpread (s : State) (code : Nat) (wings : List Nat) : State :=
  let s := if s.tt.run.running then updTt s fun t => { t with run := { t.run with alertSeen := true } } else s
  let s := stepCause s 2
  let s := each wings (raiseModule s .EVC_STATUS_POWER) fun t w => stormCheck t code w
  let s := powerTrail s code 0 false
  if bitAt (rd s .DBG_CTRL_FREEZE_ON) 4 then freezeAll s 5 else s

section Alert
variable {src : Nat} (code : Nat) (wings : List Nat) (delay : Nat)

theorem alertOn_of_new (h : s.pwr.alerts.any (fun a => a.src == src && a.ended.isNone) = false) :
    alertOn s src code wings delay = alertSpread (settleGears (alertListed s src code wings delay)) code wings := by
  rw [alertOn, if_neg (by rw [h]; exact Bool.false_ne_true)]
  rfl

theorem alertOn_of_ongoing (h : s.pwr.alerts.any (fun a => a.src == src && a.ended.isNone) = true) :
    alertOn s src code wings delay = s := by rw [alertOn, if_pos h]

/-- The fields that show the alerts of the module. -/
def alertFlds : List Fld := [.PWR_ALERT_COUNT, .PWR_STATUS_ALERT_ACTIVE, .PWR_STATUS_ALERT_SEEN, .PWR_ALERT_MAP]

theorem within_alertListed (s : State) (src : Nat) : Within [.pwr] alertFlds s (alertListed s src code wings delay) := by
  unfold alertListed
  extract_lets u v
  have hu : Within [.pwr] alertFlds s v :=
    ((((within_pwr s _).append (within_inc _ _ _ _)).append (within_wr _ _ _ _)).append (within_wr _ _ _ _)).mono
      (by decide) (by decide)
  split
  · exact hu.trans ((within_wr _ _ _ _).mono (by simp) (by simp [alertFlds]))
  · exact hu

/-- The fields that what follows an alert changes. -/
def spreadFlds : List Fld := .EVC_STATUS_POWER :: (reportFlds ++ ceilFlds ++ freezeFlds)

theorem within_alertSpread (s : State) : Within [.dbg, .pwr, .rep, .tt] spreadFlds s (alertSpread s code wings) := by
  unfold alertSpread
  extract_lets a b c d
  have ha : Within [.tt] [] s a := by
    unfold a
    split
    · exact within_tt s _
    · exact Within.refl _ _ s
  have hc : Within [.pwr, .rep] (.EVC_STATUS_POWER :: (reportFlds ++ ceilFlds)) b c :=
    ((within_raiseModule b _).append (within_each _ (fun t w => within_stormCheck t code w) wings _)).mono (by decide) (by decide)
  have hd : Within [.dbg, .pwr, .rep, .tt] spreadFlds s d :=
    ((ha.append (within_stepCause a 2)).append (hc.append (within_powerTrail c code 0 false))).mono (by decide) (by decide)
  refine hd.trans ?_
  split
  · exact (within_freezeAll d 5).mono (by decide) (by decide)
  · exact Within.refl _ _ d

theorem levelsKept_alertSpread (s : State) : LevelsKept s (alertSpread s code wings) := by
  unfold alertSpread
  extract_lets a b c d
  have ha : LevelsKept s a := by
    unfold a
    split <;> exact ⟨rfl, rfl⟩
  have hc : LevelsKept b c :=
    (within_raiseModule b _).levelsKept.trans (levelsKept_each (fun t w => levelsKept_stormCheck t code w) wings _)
  have hd : LevelsKept s d :=
    (ha.trans (within_stepCause a 2).levelsKept).trans (hc.trans (within_powerTrail c code 0 false).levelsKept)
  refine hd.trans ?_
  split
  · exact (within_freezeAll d 5).levelsKept
  · exact ⟨rfl, rfl⟩

theorem alertListed_pwr (s : State) (src : Nat) : (alertListed s src code wings delay).pwr = { s.pwr with
    alerts := s.pwr.alerts ++ [alertBegun s src code wings delay]
    duty := storeKeep (fun w => !decide (w ∈ wings)) s.pwr.duty, high := storeKeep (fun w => !decide (w ∈ wings)) s.pwr.high
    low := storeKeep (fun w => !decide (w ∈ wings)) s.pwr.low } := by
  unfold alertListed
  extract_lets u v
  split <;> rfl

theorem levelsKept_alertOn (s : State) (src : Nat) : LevelsKept s (alertOn s src code wings delay) := by
  cases h : s.pwr.alerts.any (fun a => a.src == src && a.ended.isNone) with
  | true =>
    rw [alertOn_of_ongoing code wings delay h]
    exact ⟨rfl, rfl⟩
  | false =>
    rw [alertOn_of_new code wings delay h]
    have hlisted : LevelsKept s (alertListed s src code wings delay) := by rw [LevelsKept, alertListed_pwr]; exact ⟨rfl, rfl⟩
    exact (hlisted.trans (levelsKept_of_pwr (settleGears_pwr _))).trans (levelsKept_alertSpread _ _ _)

theorem within_alertOn (s : State) (src : Nat) : Within [.dbg, .pwr, .rep, .tt] (alertFlds ++ gearFlds ++ spreadFlds) s
    (alertOn s src code wings delay) := by
  cases h : s.pwr.alerts.any (fun a => a.src == src && a.ended.isNone) with
  | true =>
    rw [alertOn_of_ongoing code wings delay h]
    exact Within.refl _ _ s
  | false =>
    rw [alertOn_of_new code wings delay h]
    exact (((within_alertListed code wings delay s src).append (within_settleGears _)).append (within_alertSpread code wings _)).mono
      (by decide) (by decide)

variable (hnew : s.pwr.alerts.any (fun a => a.src == src && a.ended.isNone) = false)
include hnew

/-- A field that nothing after the assertion itself changes. -/
theorem rd_alertOn {f : Fld} (hf : f ∉ gearFlds ++ spreadFlds) (n : Nat) :
    rd (alertOn s src code wings delay) f n = rd (alertListed s src code wings delay) f n := by
  simp only [List.mem_append, not_or] at hf
  rw [alertOn_of_new code wings delay hnew, (within_alertSpread code wings _).regs f n hf.2, (within_settleGears _).regs f n hf.1]

/-- The wings of a new alert are at G0, forced there (R323). -/
theorem alertOn_forces {w : Nat} (hw : w ∈ wings) (hw4 : w < 4) :
    rd (alertOn s src code wings delay) .DRL_GEAR_CURRENT w = 0 ∧ rd (alertOn s src code wings delay) .DRL_GEAR_FORCED w = 1 := by
  have hforced : forcedG0 (alertListed s src code wings delay) w = true := by
    refine forcedG0_of_alerted ?_
    rw [alerted, alertListed_pwr]
    simp [alertBegun, hw]
  rw [alertOn_of_new code wings delay hnew, (within_alertSpread code wings _).regs _ _ (by decide),
    (within_alertSpread code wings _).regs _ _ (by decide), rd_settleGears_current _ hw4, rd_settleGears_forced _ hw4, hforced]
  exact ⟨gearInEffect_of_forced (Or.inl hforced), rfl⟩

end Alert

end Sys2Proof.Machine
end

section
/-! O51: alerts, storms, holds and the throttle (R323, R325, R326, R333). -/

namespace Sys2Proof.Machine

variable {s : State} {t : Nat}

/-! The assertion of an alert -/

theorem mem_railWings_lt {rail w : Nat} (h : w ∈ railWings rail) : w < 4 := by
  unfold railWings at h
  split at h <;> simp at h <;> omega

theorem bitAt_or_two_pow (v n : Nat) : bitAt (v ||| 2 ^ n) n = true := by
  have h : (v ||| 2 ^ n).testBit n = true := by simp
  rw [Nat.testBit_eq_decide_div_mod_eq] at h
  exact (beq_iff_eq ..).mpr (of_decide_eq_true h)

/-- What a new alert shows in the registers of the module. -/
theorem rd_alertListed (s : State) {code : Nat} (hcode : code ≤ 20) (src : Nat) (wings : List Nat) (delay : Nat) :
    rd (alertListed s src code wings delay) .PWR_STATUS_ALERT_ACTIVE = 1 ∧
    rd (alertListed s src code wings delay) .PWR_STATUS_ALERT_SEEN = 1 ∧
    bitAt (rd (alertListed s src code wings delay) .PWR_ALERT_MAP) code = true ∧
    rd (alertListed s src code wings delay) .PWR_ALERT_COUNT = rd (inc s .PWR_ALERT_COUNT) .PWR_ALERT_COUNT := by
  unfold alertListed
  extract_lets u v
  rw [if_pos hcode]
  refine ⟨by simp [v, rd_wr], by simp [v, rd_wr], by rw [rd_wr_same]; exact bitAt_or_two_pow _ _, ?_⟩
  rw [rd_wr_ne _ _ _ _ _ _ (by simp), rd_wr_ne _ _ _ _ _ _ (by simp), rd_wr_ne _ _ _ _ _ _ (by simp), rd_inc, rd_inc]
  rfl

section Rail
variable {rail : Nat}

/-- The filter of the line lets an assertion of less than 40 ns pass unseen (R323). -/
theorem pwrAlertAssert_filtered (delay : Nat) {width : Nat} (hw : width < 40) : Runs (.pwrAlertAssert t rail delay width) s fun v =>
    KeptBut [.now] s v ∧ RegsKept [] s v := by
  have hexec : exec (.pwrAlertAssert t rail delay width) s = settle s (tick s t) := by
    show execPwrAlertAssert t rail delay width s = _
    rw [execPwrAlertAssert, if_neg fun h => by omega]
  exact runs_of_settle hexec (within_tick s t).toWithinAt.settled

theorem pwrAlertAssert_alerts (hrail : rail ≤ 20) (delay : Nat) {width : Nat} (hw : 40 ≤ width)
    (hnew : s.pwr.alerts.any (fun a => a.src == rail && a.ended.isNone) = false) :
    Runs (.pwrAlertAssert t rail delay width) s fun v =>
      (∀ w ∈ railWings rail, rd v .DRL_GEAR_CURRENT w = 0 ∧ rd v .DRL_GEAR_FORCED w = 1) ∧ rd v .PWR_STATUS_ALERT_ACTIVE = 1 ∧
      rd v .PWR_STATUS_ALERT_SEEN = 1 ∧ bitAt (rd v .PWR_ALERT_MAP) rail = true ∧
      rd v .PWR_ALERT_COUNT = rd (inc s .PWR_ALERT_COUNT) .PWR_ALERT_COUNT ∧ KeptBut [.dbg, .now, .pwr, .rep, .tt] s v := by
  have hexec : exec (.pwrAlertAssert t rail delay width) s = settle s (alertOn (tick s t) rail rail (railWings rail) delay) := by
    show execPwrAlertAssert t rail delay width s = _
    rw [execPwrAlertAssert, if_pos ⟨hrail, hw⟩]
  have hnew' : (tick s t).pwr.alerts.any (fun a => a.src == rail && a.ended.isNone) = false := hnew
  have hshown := fun {f : Fld} (hf : f ∉ viewFlds) (hg : f ∉ gearFlds ++ spreadFlds) =>
    (rd_settled_other s _ f 0 hf).trans (rd_alertOn rail (railWings rail) delay hnew' hg 0)
  obtain ⟨hactive, hseen, hmap, hcount⟩ := rd_alertListed (tick s t) hrail rail (railWings rail) delay
  refine runs_of_settle hexec ⟨fun w hw => ?_, ?_, ?_, ?_, ?_, ?_⟩
  · rw [rd_settled_other _ _ _ _ (by decide), rd_settled_other _ _ _ _ (by decide)]
    exact alertOn_forces rail (railWings rail) delay hnew' hw (mem_railWings_lt hw)
  · exact (hshown (by decide) (by decide)).trans hactive
  · exact (hshown (by decide) (by decide)).trans hseen
  · rwa [hshown (by decide) (by decide)]
  · exact (hshown (by decide) (by decide)).trans hcount
  · have hwithin := (within_alertOn rail (railWings rail) delay (tick s t) rail).afterTick
    exact (hwithin.mono (qs := [.dbg, .now, .pwr, .rep, .tt]) (by decide) (List.Subset.refl _)).settled.1

end Rail

/-! The end of an alert -/

/-- A wing is held until a time, or as long as it already is. -/
def holdUntil (hold : Nat) (s : State) (w : Nat) : State :=
  updPwr s fun p => { p with holdEnd := storeInsert p.holdEnd w (max hold ((storeFind p.holdEnd w).getD 0)) }

/-- An alert has ended, and its wings' hold has begun. -/
def alertHeld (s : State) (a : AlertRun) : State :=
  let u := updPwr s fun p => { p with alerts := p.alerts.map (fun x => if x = a then { x with ended := some s.now } else x) }
  each a.wings u (holdUntil (u.now + rd u .PWR_CONFIG_ALERT_HOLD * 1000))

/-- The registers show the alerts that are still asserted. -/
def alertsShown (s : State) : State :=
  let on := s.pwr.alerts.filter (fun x => x.ended.isNone)
  let m := ((on.filter (fun x => decide (x.code ≤ 20))).map (·.code)).eraseDups
  wr (wrb s .PWR_STATUS_ALERT_ACTIVE 0 (!on.isEmpty)) .PWR_ALERT_MAP 0 ((m.map (fun c => 2 ^ c)).sum)

theorem alertOff_eq {src : Nat} {a : AlertRun} (h : s.pwr.alerts.find? (fun a => a.src == src && a.ended.isNone) = some a) :
    alertOff s src = alertsShown (alertHeld s a) := by
  unfold alertOff
  rw [h]
  rfl

theorem withinAt_alertsShown (s : State) :
    WithinAt [] [(.PWR_STATUS_ALERT_ACTIVE, 0), (.PWR_ALERT_MAP, 0)] s (alertsShown s) :=
  (withinAt_wr s _ 0 _).trans (withinAt_wr _ _ 0 _)

theorem within_alertHeld (s : State) (a : AlertRun) : Within [.pwr] [] s (alertHeld s a) :=
  (within_pwr s _).trans (within_each _ (fun t _ => within_pwr t _) _ _)

theorem alertHeld_alerts (s : State) (a : AlertRun) :
    (alertHeld s a).pwr.alerts = s.pwr.alerts.map (fun x => if x = a then { x with ended := some s.now } else x) := by
  unfold alertHeld
  extract_lets u
  exact each_view (fun v => v.pwr.alerts) (holdUntil _) (fun _ _ => rfl) a.wings u

/-- Each wing of the alert is held for ALERT_HOLD at least. -/
theorem alertHeld_holds (s : State) {a : AlertRun} {w : Nat} (hw : w ∈ a.wings) :
    ∃ e, storeFind (alertHeld s a).pwr.holdEnd w = some e ∧ s.now + rd s .PWR_CONFIG_ALERT_HOLD * 1000 ≤ e := by
  unfold alertHeld
  extract_lets u
  set hold := u.now + rd u .PWR_CONFIG_ALERT_HOLD * 1000
  have hset : ∀ t : State, ∃ e, storeFind (holdUntil hold t w).pwr.holdEnd w = some e ∧ hold ≤ e := fun t =>
    ⟨_, storeFind_insert_same _ _ _, le_max_left _ _⟩
  refine each_reach (p := fun t => ∃ e, storeFind t.pwr.holdEnd w = some e ∧ hold ≤ e) hset (fun t x ht => ?_) hw u
  by_cases hx : w = x
  · exact hx ▸ hset t
  · obtain ⟨e, he, hle⟩ := ht
    exact ⟨e, (storeFind_insert_other _ _ hx).trans he, hle⟩

theorem rd_alertsShown_of_none (h : ∀ x ∈ s.pwr.alerts, x.ended ≠ none) :
    rd (alertsShown s) .PWR_STATUS_ALERT_ACTIVE = 0 ∧ rd (alertsShown s) .PWR_ALERT_MAP = 0 := by
  have hnone : s.pwr.alerts.filter (fun x => x.ended.isNone) = [] :=
    List.filter_eq_nil_iff.mpr fun x hx => by simpa using h x hx
  unfold alertsShown
  rw [hnone]
  exact ⟨(rd_wr_ne _ _ _ _ _ _ (by simp)).trans (rd_wr_same _ _ _ _), rd_wr_same _ _ _ _⟩

/-- The last alert of a list ends with it. -/
theorem alertHeld_none {a : AlertRun} (h : ∀ x ∈ s.pwr.alerts, x.ended = none → x = a) :
    ∀ x ∈ (alertHeld s a).pwr.alerts, x.ended ≠ none := by
  rw [alertHeld_alerts]
  intro y hy
  obtain ⟨x, hx, rfl⟩ := List.mem_map.mp hy
  by_cases hxa : x = a
  · simp [hxa]
  · rw [if_neg hxa]
    exact fun hnone => hxa (h x hx hnone)

theorem within_alertOff (s : State) (src : Nat) : Within [.pwr] [.PWR_STATUS_ALERT_ACTIVE, .PWR_ALERT_MAP] s (alertOff s src) := by
  cases h : s.pwr.alerts.find? (fun a => a.src == src && a.ended.isNone) with
  | none =>
    rw [alertOff, h]
    exact Within.refl _ _ s
  | some a =>
    rw [alertOff_eq h]
    exact ((within_alertHeld s a).append ((withinAt_alertsShown _).toWithin (fs := [.PWR_STATUS_ALERT_ACTIVE, .PWR_ALERT_MAP])
      (by simp))).mono (by simp) (by simp)

theorem pwrAlertDeassert_holds {rail : Nat} {a : AlertRun} (hrail : rail ≤ 20)
    (ha : s.pwr.alerts.find? (fun a => a.src == rail && a.ended.isNone) = some a) : Runs (.pwrAlertDeassert t rail) s fun v =>
      (∀ w ∈ a.wings, ∃ e, storeFind v.pwr.holdEnd w = some e ∧ max s.now t + rd s .PWR_CONFIG_ALERT_HOLD * 1000 ≤ e) ∧
      ((∀ x ∈ s.pwr.alerts, x.ended = none → x = a) → rd v .PWR_STATUS_ALERT_ACTIVE = 0 ∧ rd v .PWR_ALERT_MAP = 0) ∧
      KeptBut [.now, .pwr] s v ∧ RegsKept [(.PWR_STATUS_ALERT_ACTIVE, 0), (.PWR_ALERT_MAP, 0)] s v := by
  have hexec : exec (.pwrAlertDeassert t rail) s = settle s (alertsShown (alertHeld (tick s t) a)) := by
    show execPwrAlertDeassert t rail s = _
    rw [execPwrAlertDeassert, if_pos hrail, alertOff_eq (s := tick s t) ha]
  refine runs_of_settle hexec ⟨fun w hw => alertHeld_holds (tick s t) hw, fun hlast => ?_, ?_⟩
  · rw [rd_settled_other _ _ _ _ (by decide), rd_settled_other _ _ _ _ (by decide)]
    exact rd_alertsShown_of_none (alertHeld_none hlast)
  · exact (((within_tick s t).toWithinAt.trans (within_alertHeld _ a).toWithinAt).trans (withinAt_alertsShown _)).settled

/-! The end of a storm (R326) -/

theorem stormExpiry_runs {w e : Nat} (hstorm : storeFind s.pwr.stormEnd w = some e) (hdue : e ≤ max s.now t) :
    Runs (.stormExpiry t w) s fun v => storeFind v.pwr.stormEnd w = none ∧ (∀ x, x < 4 → rd v .DRL_GEAR_CEILING x = ceilingNow v x) ∧
      Frame [.now, .pwr] [.DRL_GEAR_CEILING, .DRL_GEAR_CEILING_PENDING] s v := by
  have hexec : exec (.stormExpiry t w) s =
      settle s (setCeilings (updPwr (tick s t) fun p => { p with stormEnd := storeErase p.stormEnd w })) := by
    show execStormExpiry t w s = _
    have hstorm' : storeFind (tick s t).pwr.stormEnd w = some e := hstorm
    have hdue' : e ≤ (tick s t).now := hdue
    simp only [execStormExpiry, hstorm', if_pos hdue']
  refine runs_of_settle hexec ⟨?_, fun x hx => ?_, ?_⟩
  · obtain ⟨l, hl⟩ := setCeilings_pwr (updPwr (tick s t) fun p => { p with stormEnd := storeErase p.stormEnd w })
    rw [settled_pwr, hl]
    exact storeFind_erase_same _ _
  · rw [rd_settled_other _ _ _ _ (by decide), rd_setCeilings _ hx, ceilingNow_settled]
  · exact (((within_pwr (tick s t) _).append (within_setCeilings _)).afterTick.mono (by simp) (by simp [ceilFlds])).settled

/-! The end of a hold (R323, R325) -/

/-- A wing whose hold is over returns to the gear that is left to it. -/
def gearReturned (s : State) (w : Nat) : State :=
  settleGear (wr (updPwr s fun p => { p with holdEnd := storeErase p.holdEnd w }) .DRL_GEAR_DEFERRED w 0) w

theorem withinAt_gearReturned (s : State) (w : Nat) : WithinAt [.pwr] ((.DRL_GEAR_DEFERRED, w) :: gearRegs w) s (gearReturned s w) :=
  ((within_pwr s _).toWithinAt.trans (withinAt_wr _ .DRL_GEAR_DEFERRED w 0)).trans (withinAt_settleGear _ w)

theorem gearReturned_pwr (s : State) (w : Nat) :
    (gearReturned s w).pwr = { s.pwr with holdEnd := storeErase s.pwr.holdEnd w } := rfl

theorem forcedG0_gearReturned {w : Nat} (h : alerted s w = false) : forcedG0 (gearReturned s w) w = false := by
  have halert : alerted (gearReturned s w) w = false := h
  rw [forcedG0, halert, gearReturned_pwr, storeFind_erase_same]
  rfl

theorem rd_gearReturned {w : Nat} (h : alerted s w = false) :
    rd (gearReturned s w) .DRL_GEAR_FORCED w = 0 ∧ rd (gearReturned s w) .DRL_GEAR_DEFERRED w = 0 ∧
    rd (gearReturned s w) .DRL_GEAR_CURRENT w = (if s.pwr.railForced ≠ [] ∨ w ∈ s.pwr.tripped then 0
      else if rd s .DRL_GEAR_THROTTLED w = 1 then min (rd s .DRL_GEAR_PLANNED w) (rd s .PWR_CONFIG_THROTTLE_GEAR)
      else rd s .DRL_GEAR_PLANNED w) := by
  obtain ⟨hcurrent, hforced, -⟩ : GearShown (gearReturned s w) w := gearShown_settleGear _ w
  have hfree := forcedG0_gearReturned h
  have hplain : ∀ f ∈ demandFlds, rd (gearReturned s w) f w = rd s f w := fun f hf =>
    (withinAt_gearReturned s w).regs f w (by revert f; simp [demandFlds])
  have hthrottle : rd (gearReturned s w) .PWR_CONFIG_THROTTLE_GEAR = rd s .PWR_CONFIG_THROTTLE_GEAR :=
    (withinAt_gearReturned s w).regs _ _ (by simp)
  refine ⟨by rw [hforced, hfree]; rfl, ?_, ?_⟩
  · rw [gearReturned, (within_settleGear _ w).regs _ _ (by decide), rd_wr_same]
  · rw [hcurrent, gearInEffect, hfree, hplain _ (by simp [demandFlds]), hplain _ (by simp [demandFlds]), hthrottle]
    simp [gearReturned_pwr]

/-- The record of an assertion that is over (R333). -/
def alertFinished (s : State) (a : AlertRun) : State :=
  alertRecord s a.code a.wings a.gear (a.flags % 4) (a.ended.getD 0 - a.start) (slotCeil s.now - a.g0)

theorem within_alertFinished (s : State) (a : AlertRun) : Within [.rep] reportFlds s (alertFinished s a) :=
  within_alertRecord _ _ _ _ _ _ _

theorem finishAlerts_eq (s : State) : ∃ l d, finishAlerts s = each d (updPwr s fun p => { p with alerts := l }) alertFinished :=
  ⟨_, _, rfl⟩

theorem within_finishAlerts (s : State) : Within [.pwr, .rep] reportFlds s (finishAlerts s) := by
  obtain ⟨l, d, h⟩ := finishAlerts_eq s
  rw [h]
  exact ((within_pwr s _).append (within_each _ within_alertFinished d _)).mono (by simp) (by simp)

theorem finishAlerts_holdEnd (s : State) : (finishAlerts s).pwr.holdEnd = s.pwr.holdEnd := by
  obtain ⟨l, d, h⟩ := finishAlerts_eq s
  rw [h, each_view State.pwr alertFinished (fun t a => (within_alertFinished t a).parts .pwr (by simp)) d _]
  rfl

section Hold
variable {w e : Nat} (hhold : storeFind s.pwr.holdEnd w = some e) (hdue : e ≤ max s.now t) (halert : alerted s w = false)
include hhold hdue halert

theorem exec_alertHoldExpiry (mv : Nat) : exec (.alertHoldExpiry t w mv) s = settle s
    (if lockedOn (tick s t) w then
      if rdb (tick s t) .DRL_GEAR_DEFERRED w then tick s t
      else inc (wr (tick s t) .DRL_GEAR_DEFERRED w 1) .DRL_DEFERRED_COUNT w
    else if w ∈ s.pwr.slewed then
      updPwr (tick s t) fun p => { p with
        slewed := p.slewed.filter (· != w)
        holdEnd := storeInsert p.holdEnd w ((tick s t).now + (vcoreMv (rd (tick s t) .DRL_GEAR_PLANNED w) - max mv (vcoreMv 0)) * 100) }
    else finishAlerts (powerTrail (gearReturned (tick s t) w) (0x40 + w) (rd (tick s t) .DRL_GEAR_PLANNED w)
      (rdb (tick s t) .DRL_GEAR_THROTTLED w))) := by
  show execAlertHoldExpiry t w mv s = _
  have hhold' : storeFind (tick s t).pwr.holdEnd w = some e := hhold
  have hgo : ¬ ((tick s t).now < e ∨ alerted (tick s t) w = true) := by
    rintro (h | h)
    · exact absurd h (not_lt.mpr hdue)
    · exact absurd (halert.symm.trans h) (by simp)
  simp only [execAlertHoldExpiry, hhold', if_neg hgo]
  rfl

/-- The wing returns to the plan (R323). -/
theorem alertHoldExpiry_returns (mv : Nat) (hfree : lockedOn (tick s t) w = false) (hfast : w ∉ s.pwr.slewed) :
    Runs (.alertHoldExpiry t w mv) s fun v =>
      storeFind v.pwr.holdEnd w = none ∧ rd v .DRL_GEAR_FORCED w = 0 ∧ rd v .DRL_GEAR_DEFERRED w = 0 ∧
      rd v .DRL_GEAR_CURRENT w = (if s.pwr.railForced ≠ [] ∨ w ∈ s.pwr.tripped then 0
        else if rd s .DRL_GEAR_THROTTLED w = 1 then min (rd s .DRL_GEAR_PLANNED w) (rd s .PWR_CONFIG_THROTTLE_GEAR)
        else rd s .DRL_GEAR_PLANNED w) ∧ KeptBut [.dbg, .now, .pwr, .rep] s v ∧
      (∀ x, x ≠ w → rd v .DRL_GEAR_CURRENT x = rd s .DRL_GEAR_CURRENT x) := by
  have hexec := exec_alertHoldExpiry hhold hdue halert mv
  rw [hfree, if_neg Bool.false_ne_true, if_neg hfast] at hexec
  have htrail := within_powerTrail (gearReturned (tick s t) w) (0x40 + w) (rd (tick s t) .DRL_GEAR_PLANNED w)
    (rdb (tick s t) .DRL_GEAR_THROTTLED w)
  have hlast := within_finishAlerts (powerTrail (gearReturned (tick s t) w) (0x40 + w) (rd (tick s t) .DRL_GEAR_PLANNED w)
    (rdb (tick s t) .DRL_GEAR_THROTTLED w))
  have hrest := htrail.append hlast
  obtain ⟨hforced, hdeferred, hcurrent⟩ := rd_gearReturned (s := tick s t) halert
  refine runs_of_settle hexec ⟨?_, ?_, ?_, ?_, ?_, fun x hx => ?_⟩
  · rw [settled_pwr, finishAlerts_holdEnd, show (powerTrail _ _ _ _).pwr = _ from htrail.parts .pwr (by simp), gearReturned_pwr]
    exact storeFind_erase_same _ _
  · rw [rd_settled_other _ _ _ _ (by decide), hrest.regs _ _ (by decide), hforced]
  · rw [rd_settled_other _ _ _ _ (by decide), hrest.regs _ _ (by decide), hdeferred]
  · rw [rd_settled_other _ _ _ _ (by decide), hrest.regs _ _ (by decide), hcurrent]
    rfl
  · have hreturned := (withinAt_gearReturned (tick s t) w).toWithin (fs := .DRL_GEAR_DEFERRED :: gearFlds) (by simp [gearFlds])
    exact ((hreturned.append hrest).afterTick.mono (qs := [.dbg, .now, .pwr, .rep]) (by simp) (List.Subset.refl _)).settled.1
  · rw [rd_settled_other _ _ _ _ (by decide), hrest.regs _ _ (by decide), (withinAt_gearReturned _ w).regs _ _ (by simp [hx])]
    rfl

/-- After a long hold VCORE slews back first (R315). -/
theorem alertHoldExpiry_slews (mv : Nat) (hfree : lockedOn (tick s t) w = false) (hslow : w ∈ s.pwr.slewed) :
    Runs (.alertHoldExpiry t w mv) s fun v => w ∉ v.pwr.slewed ∧
      storeFind v.pwr.holdEnd w = some (max s.now t + (vcoreMv (rd s .DRL_GEAR_PLANNED w) - max mv (vcoreMv 0)) * 100) ∧
      KeptBut [.now, .pwr] s v ∧ RegsKept [] s v := by
  have hexec := exec_alertHoldExpiry hhold hdue halert mv
  rw [hfree, if_neg Bool.false_ne_true, if_pos hslow] at hexec
  exact runs_of_settle hexec ⟨fun h => by simpa using (List.mem_filter.mp h).2, storeFind_insert_same _ _ _,
    ((within_tick s t).toWithinAt.trans (within_pwr _ _).toWithinAt).settled⟩

/-- A locked segment on the wing defers the return (R325). -/
theorem alertHoldExpiry_defers (mv : Nat) (hlocked : lockedOn (tick s t) w = true) (hfirst : rd s .DRL_GEAR_DEFERRED w ≠ 1) :
    Runs (.alertHoldExpiry t w mv) s fun v =>
      rd v .DRL_GEAR_DEFERRED w = 1 ∧ rd v .DRL_DEFERRED_COUNT w = rd (inc s .DRL_DEFERRED_COUNT w) .DRL_DEFERRED_COUNT w ∧
      KeptBut [.now] s v ∧ RegsKept [(.DRL_GEAR_DEFERRED, w), (.DRL_DEFERRED_COUNT, w)] s v := by
  have hexec := exec_alertHoldExpiry hhold hdue halert mv
  rw [if_pos hlocked, show rdb (tick s t) .DRL_GEAR_DEFERRED w = false from rdb_of_ne_one hfirst, if_neg Bool.false_ne_true] at hexec
  refine runs_of_settle hexec ⟨?_, ?_, (((within_tick s t).toWithinAt.trans (withinAt_wr _ _ _ _)).trans (withinAt_wr _ _ _ _)).settled⟩
  · rw [rd_settled_other _ _ _ _ (by decide), rd_inc, if_neg (by simp), rd_wr_same]
  · rw [rd_settled_other _ _ _ _ (by decide), rd_inc, rd_inc, rd_wr_ne _ _ _ _ _ _ (by simp)]
    rfl

end Hold

/-! Long alerts -/

theorem alertLongHold_slews {rail : Nat} {a : AlertRun}
    (ha : s.pwr.alerts.find? (fun a => a.src == rail && a.ended.isNone && decide (a.start + 100000 ≤ max s.now t)) = some a) :
    Runs (.alertLongHold t rail) s fun v =>
      (∀ w ∈ a.wings, w ∈ v.pwr.slewed ∧ (w < 4 → rd v .DRL_VCORE_MILLIVOLTS w = 590 ∧ rd v .DRL_GEAR_CURRENT w = 0)) ∧
      Frame [.now, .pwr] [.DRL_GEAR_CURRENT, .DRL_GEAR_FORCED, .DRL_VCORE_MILLIVOLTS] s v := by
  have hexec : exec (.alertLongHold t rail) s =
      settle s (settleGears (updPwr (tick s t) fun p => { p with slewed := (p.slewed ++ a.wings).eraseDups })) := by
    show execAlertLongHold t rail s = _
    have ha' : (tick s t).pwr.alerts.find? (fun a => a.src == rail && a.ended.isNone && decide (a.start + 100000 ≤ (tick s t).now)) =
        some a := ha
    simp only [execAlertLongHold, ha']
  set u := updPwr (tick s t) fun p => { p with slewed := (p.slewed ++ a.wings).eraseDups } with hu
  have hon : a.ended.isNone = true := by
    have := List.find?_some ha
    simp only [Bool.and_eq_true] at this
    exact this.1.2
  refine runs_of_settle hexec ⟨fun w hw => ?_, ?_⟩
  · have hslewed : w ∈ u.pwr.slewed := List.mem_eraseDups.mpr (List.mem_append_right _ hw)
    have hgear : gearInEffect u w = 0 := gearInEffect_of_forced (Or.inl (forcedG0_of_alerted
      (List.any_eq_true.mpr ⟨a, List.mem_of_find?_eq_some ha, by simp [hon, hw]⟩)))
    refine ⟨by rw [settled_pwr, settleGears_pwr]; exact hslewed, fun hw4 => ⟨?_, ?_⟩⟩
    · rw [rd_settled_other _ _ _ _ (by decide), (gearShown_settleGears u hw4).vcore (by rw [settleGears_pwr]; exact hslewed),
        gearInEffect_settleGears, hgear]
      rfl
    · rw [rd_settled_other _ _ _ _ (by decide), rd_settleGears_current u hw4, hgear]
  · exact (((within_pwr (tick s t) _).append (within_settleGears u)).afterTick.mono (by simp) (by decide)).settled

theorem alertOngoing_reports {rail : Nat} {a : AlertRun}
    (ha : s.pwr.alerts.find? (fun a => a.src == rail && a.ended.isNone && decide (a.start + 1000000000 ≤ max s.now t) &&
      decide (a.flags < 16)) = some a) : Runs (.alertOngoing t rail) s fun v =>
      (∃ b ∈ v.pwr.alerts, b.src = rail ∧ 16 ≤ b.flags) ∧ Frame [.now, .pwr, .rep] reportFlds s v := by
  have ha' : (tick s t).pwr.alerts.find? (fun a => a.src == rail && a.ended.isNone && decide (a.start + 1000000000 ≤ (tick s t).now) &&
      decide (a.flags < 16)) = some a := ha
  set u := alertRecord (tick s t) a.code a.wings a.gear (a.flags % 4 + 8) ((tick s t).now - a.start) ((tick s t).now - a.g0) with hu
  have hexec : exec (.alertOngoing t rail) s = settle s (updPwr u fun p => { p with
      alerts := p.alerts.map (fun x => if x = a then { x with flags := x.flags + 16 } else x) }) := by
    show execAlertOngoing t rail s = _
    simp only [execAlertOngoing, ha']
    rfl
  have hrecord : Within [.rep] reportFlds (tick s t) u := within_alertRecord _ _ _ _ _ _ _
  have hsrc : a.src = rail := by
    have := List.find?_some ha
    simp only [Bool.and_eq_true, beq_iff_eq] at this
    exact this.1.1.1
  have hmem : a ∈ u.pwr.alerts := by
    rw [show u.pwr = (tick s t).pwr from hrecord.parts .pwr (by simp)]
    exact List.mem_of_find?_eq_some ha
  refine runs_of_settle hexec ⟨⟨{ a with flags := a.flags + 16 }, List.mem_map.mpr ⟨a, hmem, if_pos rfl⟩, hsrc, by simp⟩, ?_⟩
  exact ((hrecord.append (within_pwr u _)).afterTick.mono (by simp) (by simp)).settled

/-! The throttle -/

/-- The wings that the throttle caps. -/
def throttledWings (s : State) : List Nat :=
  (List.range 4).filter (fun w => decide (rd s .PWR_CONFIG_THROTTLE_GEAR < rd s .DRL_GEAR_PLANNED w))

/-- THROTTLE_IN_N is seen: the registers show it, and the wings above THROTTLE_GEAR are marked. -/
def throttleSeen (s : State) : State :=
  let u := updPwr s fun p => { p with throttleAt := some s.now }
  wrAll (wr (wr (wr u .PWR_STATUS_THROTTLE_ACTIVE 0 1) .PWR_STATUS_THROTTLE_SEEN 0 1) .EVC_INPUTS_THROTTLE 0 1)
    .DRL_GEAR_THROTTLED (throttledWings s) 1

/-- What follows a throttle whose gears have switched. -/
def throttleSpread (s : State) (ws : List Nat) : State :=
  let u := if ws = [] then s else stepCause s 64
  each ws (raiseModule u .EVC_STATUS_POWER) fun x w => powerTrail x (0x40 + w) (rd x .DRL_GEAR_CURRENT w) true

theorem exec_throttleAssert (hoff : s.pwr.throttleAt = none) : exec (.throttleAssert t) s =
    settle s (throttleSpread (settleGears (throttleSeen (tick s t))) (throttledWings (tick s t))) := by
  show execThrottleAssert t s = _
  have hoff' : ¬ (tick s t).pwr.throttleAt.isSome = true := by
    rw [tick_pwr, hoff]
    exact Bool.false_ne_true
  unfold execThrottleAssert
  extract_lets u
  rw [if_neg hoff']
  rfl

theorem rd_wrAll_of_mem (f : Fld) (v : Nat) {w : Nat} : ∀ {ns : List Nat} (s : State), w ∈ ns → rd (wrAll s f ns v) f w = v :=
  fun s hw => each_reach (p := fun t => rd t f w = v) (f := fun t n => wr t f n v) (fun t => rd_wr_same t f w v)
    (fun t c ht => by rw [rd_wr, ht, ite_self]) hw s

theorem within_throttleSeen (s : State) : Within [.pwr]
    [.PWR_STATUS_THROTTLE_ACTIVE, .PWR_STATUS_THROTTLE_SEEN, .EVC_INPUTS_THROTTLE, .DRL_GEAR_THROTTLED] s (throttleSeen s) :=
  (((((within_pwr s _).append (within_wr _ _ _ _)).append (within_wr _ _ _ _)).append (within_wr _ _ _ _)).append
    (within_wrAll _ _ _ _)).mono (by simp) (by simp)

theorem throttleSeen_pwr (s : State) : (throttleSeen s).pwr = { s.pwr with throttleAt := some s.now } :=
  (within_wrAll .DRL_GEAR_THROTTLED 1 (throttledWings s) _).parts .pwr (by simp)

theorem rd_throttleSeen (s : State) : rd (throttleSeen s) .PWR_STATUS_THROTTLE_ACTIVE = 1 ∧
    rd (throttleSeen s) .PWR_STATUS_THROTTLE_SEEN = 1 ∧ rd (throttleSeen s) .EVC_INPUTS_THROTTLE = 1 := by
  unfold throttleSeen
  extract_lets u
  refine ⟨?_, ?_, ?_⟩ <;> rw [rd_wrAll_ne _ _ _ _ (by decide)] <;> simp [rd_wr]

theorem within_throttleSpread (s : State) (ws : List Nat) :
    Within [.dbg, .rep, .tt] [.EVC_STATUS_POWER] s (throttleSpread s ws) := by
  unfold throttleSpread
  extract_lets u
  have hu : Within [.tt] [] s u := by
    unfold u
    split
    · exact Within.refl _ _ s
    · exact within_stepCause s 64
  exact ((hu.append (within_raiseModule u _)).append (within_each _ (fun x w => within_powerTrail x _ _ _) ws _)).mono
    (by simp) (by simp)

/-- A wing above THROTTLE_GEAR switches to it, or lower (R323). -/
theorem rd_settleGears_throttleSeen {w : Nat} (hw : w < 4) (habove : rd s .PWR_CONFIG_THROTTLE_GEAR < rd s .DRL_GEAR_PLANNED w) :
    rd (settleGears (throttleSeen s)) .DRL_GEAR_THROTTLED w = 1 ∧
    rd (settleGears (throttleSeen s)) .DRL_GEAR_CURRENT w ≤ rd s .PWR_CONFIG_THROTTLE_GEAR := by
  have hmark : rd (throttleSeen s) .DRL_GEAR_THROTTLED w = 1 :=
    rd_wrAll_of_mem _ _ _ (List.mem_filter.mpr ⟨List.mem_range.mpr hw, decide_eq_true habove⟩)
  have hgear : rd (throttleSeen s) .PWR_CONFIG_THROTTLE_GEAR = rd s .PWR_CONFIG_THROTTLE_GEAR :=
    (within_throttleSeen s).regs _ _ (by simp)
  refine ⟨by rw [(within_settleGears _).regs _ _ (by decide), hmark], ?_⟩
  rw [rd_settleGears_current _ hw, gearInEffect, if_pos hmark, hgear]
  split
  · exact Nat.zero_le _
  · exact min_le_right _ _

theorem throttleAssert_caps (hoff : s.pwr.throttleAt = none) : Runs (.throttleAssert t) s fun v =>
    v.pwr.throttleAt = some (max s.now t) ∧ rd v .PWR_STATUS_THROTTLE_ACTIVE = 1 ∧ rd v .PWR_STATUS_THROTTLE_SEEN = 1 ∧
    rd v .EVC_INPUTS_THROTTLE = 1 ∧
    (∀ w, w < 4 → rd s .PWR_CONFIG_THROTTLE_GEAR < rd s .DRL_GEAR_PLANNED w →
      rd v .DRL_GEAR_THROTTLED w = 1 ∧ rd v .DRL_GEAR_CURRENT w ≤ rd s .PWR_CONFIG_THROTTLE_GEAR) ∧
    KeptBut [.dbg, .now, .pwr, .rep, .tt] s v := by
  have hgears := within_settleGears (throttleSeen (tick s t))
  have hrest := within_throttleSpread (settleGears (throttleSeen (tick s t))) (throttledWings (tick s t))
  have hshown := fun {f : Fld} (hv : f ∉ viewFlds) (hf : f ∉ gearFlds ++ [.EVC_STATUS_POWER]) =>
    (rd_settled_other s _ f 0 hv).trans ((hgears.append hrest).regs f 0 hf)
  obtain ⟨hactive, hseen, hinput⟩ := rd_throttleSeen (tick s t)
  refine runs_of_settle (exec_throttleAssert hoff) ⟨?_, (hshown (by decide) (by decide)).trans hactive,
    (hshown (by decide) (by decide)).trans hseen, (hshown (by decide) (by decide)).trans hinput, fun w hw habove => ?_, ?_⟩
  · rw [settled_pwr, show (throttleSpread _ _).pwr = _ from hrest.parts .pwr (by simp), settleGears_pwr, throttleSeen_pwr]
    rfl
  · rw [rd_settled_other _ _ _ _ (by decide), rd_settled_other _ _ _ _ (by decide), hrest.regs _ _ (by decide),
      hrest.regs _ _ (by decide)]
    exact rd_settleGears_throttleSeen (s := tick s t) hw habove
  · have hwithin := (((within_throttleSeen (tick s t)).append hgears).append hrest).afterTick
    exact (hwithin.mono (qs := [.dbg, .now, .pwr, .rep, .tt]) (by simp) (List.Subset.refl _)).settled.1

theorem throttleDeassert_runs {t0 : Nat} (hon : s.pwr.throttleAt = some t0) : Runs (.throttleDeassert t) s fun v =>
    v.pwr.throttleAt = none ∧ rd v .PWR_STATUS_THROTTLE_ACTIVE = 0 ∧ rd v .EVC_INPUTS_THROTTLE = 0 ∧
    Frame [.now, .pwr, .rep, .tt] (reportFlds ++ [.PWR_STATUS_THROTTLE_ACTIVE, .EVC_INPUTS_THROTTLE]) s v := by
  set u := wr (wr (updPwr (tick s t) fun p => { p with throttleAt := none }) .PWR_STATUS_THROTTLE_ACTIVE 0 0)
    .EVC_INPUTS_THROTTLE 0 0 with hu
  set x := report u 0x11 0 [(1, rd u .PWR_CONFIG_THROTTLE_GEAR, false), (4, min (u.now - t0) (maxOf 32), false)] with hx
  have hexec : exec (.throttleDeassert t) s = settle s (wantBoundary x) := by
    show execThrottleDeassert t s = _
    have hon' : (tick s t).pwr.throttleAt = some t0 := hon
    simp only [execThrottleDeassert, hon']
    rfl
  have hseen : Within [.pwr] [.PWR_STATUS_THROTTLE_ACTIVE, .EVC_INPUTS_THROTTLE] (tick s t) u :=
    (((within_pwr (tick s t) _).append (within_wr _ _ _ _)).append (within_wr _ _ _ _)).mono (by simp) (by simp)
  have hrest : Within [.rep, .tt] reportFlds u (wantBoundary x) :=
    ((within_report u _ _ _ _ _ _).append (within_wantBoundary x)).mono (by simp) (by simp)
  refine runs_of_settle hexec ⟨?_, ?_, ?_, ?_⟩
  · rw [settled_pwr, show (wantBoundary x).pwr = u.pwr from hrest.parts .pwr (by simp)]
    rfl
  · rw [rd_settled_other _ _ _ _ (by decide), hrest.regs _ _ (by decide), hu, rd_wr_ne _ _ _ _ _ _ (by simp), rd_wr_same]
  · rw [rd_settled_other _ _ _ _ (by decide), hrest.regs _ _ (by decide), hu, rd_wr_same]
  · exact ((hseen.append hrest).afterTick.mono (by simp) (by decide)).settled

/-- Settles O51, clause by clause: every event ends in the gears or the ceilings that the alerts, holds and drops then in force leave
(`gearInEffect`, `ceilingNow`), and what follows it names none of their registers. -/
theorem alertsAndThrottleRun : Obligations.AlertsAndThrottleRun :=
  ⟨fun _ _ _ delay _ hrail => ⟨pwrAlertAssert_filtered delay, pwrAlertAssert_alerts hrail delay⟩,
    fun _ _ _ _ hrail ha => pwrAlertDeassert_holds hrail ha,
    fun _ _ _ _ hstorm hdue => stormExpiry_runs hstorm hdue,
    fun _ _ _ mv _ hhold hdue halert => ⟨alertHoldExpiry_returns hhold hdue halert mv, alertHoldExpiry_slews hhold hdue halert mv,
      alertHoldExpiry_defers hhold hdue halert mv⟩,
    fun _ _ _ _ ha => alertLongHold_slews ha,
    fun _ _ _ _ ha => alertOngoing_reports ha,
    fun _ _ hoff => throttleAssert_caps hoff,
    fun _ _ _ hon => throttleDeassert_runs hon⟩

end Sys2Proof.Machine
end

section
/-! O52: the estimator's windows (R316, R317, R330, R331, Table 11-3). -/

namespace Sys2Proof.Machine

variable {s : State} {t w : Nat}

/-! Energy counters -/

/-- The energy that entered the module in a window, where the window gives it. -/
def energyEntered (s : State) (input : Option Nat) : State :=
  match input with
  | some e => wr (wr s .ENERGY_MODULE 0 ((rd s .ENERGY_MODULE + e) % 2 ^ 64)) .PWR_INPUT_W 0 (min (e / 1000) (maxOf 16))
  | none => s

theorem within_energyEntered (s : State) (input : Option Nat) :
    Within [] [.ENERGY_MODULE, .PWR_INPUT_W] s (energyEntered s input) := by
  cases input with
  | none => exact Within.refl _ _ s
  | some e => exact ((within_wr s _ _ _).append (within_wr _ _ _ _)).mono (by simp) (by simp)

theorem rd_energyEntered (s : State) (input : Option Nat) : rd (energyEntered s input) .ENERGY_MODULE =
    (match input with | some e => (rd s .ENERGY_MODULE + e) % 2 ^ 64 | none => rd s .ENERGY_MODULE) := by
  cases input with
  | none => rfl
  | some e => exact (rd_wr_ne _ _ _ _ _ _ (by simp)).trans (rd_wr_same _ _ _ _)

/-- The energy of each context reaches its counters (R331). -/
def energyAttributed (s : State) (attrib : List (Nat × Nat)) : State := each attrib s fun x a => attribute331 x a.1 a.2

/-- A meter of the context advances. -/
def meterAdvanced (c uj : Nat) (s : State) (m : Nat) : State :=
  if rdb s .PWR_METER_CTX_EN m && rd s .PWR_METER_CTX_CTX m == c then
    wr s .PWR_METER_ENERGY m ((rd s .PWR_METER_ENERGY m + uj) % 2 ^ 64)
  else s

theorem within_meterAdvanced (c uj : Nat) (s : State) (m : Nat) : Within [] [.PWR_METER_ENERGY] s (meterAdvanced c uj s m) := by
  unfold meterAdvanced
  split
  · exact within_wr s _ _ _
  · exact Within.refl _ _ s

/-- Beside the attribution counter, attributed energy reaches the open window's total or the context's meters (R331). -/
theorem within_attribute331_rest (s : State) (c uj : Nat) : Within [.pwr] [.PWR_METER_ENERGY]
    (wr s .ENERGY_ATTRIB 0 ((rd s .ENERGY_ATTRIB + uj) % 2 ^ 64)) (attribute331 s c uj) := by
  unfold attribute331
  extract_lets add u
  split
  · exact (within_pwr u _).mono (by simp) (by simp)
  · exact (within_each _ (within_meterAdvanced c uj) (List.range 8) u).mono (by simp) (by simp)

theorem rd_attribute331 (s : State) (c uj : Nat) :
    rd (attribute331 s c uj) .ENERGY_ATTRIB = (rd s .ENERGY_ATTRIB + uj) % 2 ^ 64 :=
  ((within_attribute331_rest s c uj).regs _ _ (by simp)).trans (rd_wr_same _ _ _ _)

theorem within_energyAttributed (s : State) (attrib : List (Nat × Nat)) :
    Within [.pwr] [.ENERGY_ATTRIB, .PWR_METER_ENERGY] s (energyAttributed s attrib) :=
  within_each _ (fun x a => ((within_wr x _ _ _).append (within_attribute331_rest x a.1 a.2)).mono (by simp) (by simp)) attrib s

/-- The attribution counter advances by the sum of a window's attributed energy. -/
theorem rd_energyAttributed : ∀ (attrib : List (Nat × Nat)) (s : State), attrib ≠ [] ∨ rd s .ENERGY_ATTRIB < 2 ^ 64 →
    rd (energyAttributed s attrib) .ENERGY_ATTRIB = (rd s .ENERGY_ATTRIB + (attrib.map (·.2)).sum) % 2 ^ 64
  | [], s, h => by
    obtain h | h := h
    · exact absurd rfl h
    · exact (Nat.mod_eq_of_lt h).symm
  | a :: rest, s, _ => by
    have ih := rd_energyAttributed rest (attribute331 s a.1 a.2)
      (Or.inr (by rw [rd_attribute331]; exact Nat.mod_lt _ (Nat.two_pow_pos 64)))
    rw [rd_attribute331, Nat.mod_add_mod, Nat.add_assoc] at ih
    rw [List.map_cons, List.sum_cons]
    exact ih

/-! Free quotients -/

theorem within_freeQuot (s : State) (a b : Nat) : Within [.free] [] s (freeQuot s a b).2 := by
  unfold freeQuot
  split
  · exact Within.refl _ _ s
  · exact within_takeFree s 1

theorem within_nextK (s : State) (k meas est : Nat) : Within [.free] [] s (nextK s k meas est).2 := by
  have hsnd : (nextK s k meas est).2 =
      (if est = 0 then takeFree s 18 else freeQuot s (7 * k * est + meas * 65536) (8 * est)).2 := rfl
  rw [hsnd]
  split
  · exact within_takeFree s 18
  · exact within_freeQuot s _ _

/-- k_w stays from 0.5 to 2.0 (R316). -/
theorem nextK_bounds (s : State) (k meas est : Nat) : 0x8000 ≤ (nextK s k meas est).1 ∧ (nextK s k meas est).1 ≤ 0x20000 := by
  unfold nextK
  dsimp only
  omega

/-! The estimator -/

/-- The fields of a wing's estimator. -/
def estimatorFlds : List Fld := [.DRL_K, .DRL_EST_STATE, .DRL_EST_MISSES]

theorem within_estimatorRecord (s : State) (w event : Nat) : Within [.rep] reportFlds s (estimatorRecord s w event) :=
  within_report _ _ _ _ _ _ _

/-- An UNTRUSTED estimator with its record, before the ceilings follow. -/
def untrusted (s : State) (w : Nat) : State :=
  updPwr (estimatorRecord (wr s .DRL_EST_STATE w 2) w 2) fun p => { p with estDrop := (p.estDrop ++ [w]).eraseDups }

theorem untrust_eq (s : State) (w : Nat) : untrust s w = setCeilings (untrusted s w) := rfl

theorem within_untrust_rest (s : State) (w : Nat) :
    Within [.pwr, .rep] (reportFlds ++ ceilFlds) (wr s .DRL_EST_STATE w 2) (untrust s w) := by
  rw [untrust_eq]
  exact (((within_estimatorRecord _ w 2).append (within_pwr _ _)).append (within_setCeilings _)).mono (by simp) (by decide)

theorem within_untrust (s : State) (w : Nat) :
    Within [.pwr, .rep] (.DRL_EST_STATE :: (reportFlds ++ ceilFlds)) s (untrust s w) :=
  ((within_wr s _ _ _).append (within_untrust_rest s w)).mono (by simp) (by simp)

theorem rd_untrust (s : State) (w : Nat) : rd (untrust s w) .DRL_EST_STATE w = 2 :=
  ((within_untrust_rest s w).regs _ _ (by decide)).trans (rd_wr_same _ _ _ _)

/-- What the ceilings of an UNTRUSTED estimator leave of the power state. -/
theorem untrust_pwr (s : State) (w : Nat) :
    ∃ l, (untrust s w).pwr = { s.pwr with estDrop := (s.pwr.estDrop ++ [w]).eraseDups, drops := l } := by
  obtain ⟨l, hl⟩ := setCeilings_pwr (untrusted s w)
  have hrecord : (estimatorRecord (wr s .DRL_EST_STATE w 2) w 2).pwr = s.pwr := (within_estimatorRecord _ w 2).parts .pwr (by simp)
  exact ⟨l, by rw [untrust_eq, hl, untrusted, updPwr_pwr, hrecord]⟩

theorem mem_estDrop_untrust (s : State) (w : Nat) : w ∈ (untrust s w).pwr.estDrop := by
  obtain ⟨l, hl⟩ := untrust_pwr s w
  rw [hl]
  exact List.mem_eraseDups.mpr (List.mem_append_right _ (List.mem_singleton_self w))

/-- A window counts as a miss, and the estimator is LEARNING again. -/
def missCounted (s : State) (w k : Nat) : State :=
  let n := rd s .DRL_EST_MISSES w
  let u := wr (wr (wr s .DRL_K w k) .DRL_EST_STATE w 1) .DRL_EST_MISSES w (n + 1)
  if n = 0 then estimatorRecord u w 1 else u

section Estimate
variable {k : Nat}

theorem estimate_of_untrusted (h : rd s .DRL_EST_STATE w = 2) (miss : Bool) : estimate s w k miss = s := if_pos h

theorem estimate_of_hit (h : rd s .DRL_EST_STATE w ≠ 2) :
    estimate s w k false = wr (wr (wr s .DRL_K w k) .DRL_EST_STATE w 0) .DRL_EST_MISSES w 0 := by
  rw [estimate, if_neg h]
  rfl

theorem estimate_of_last_miss (h : rd s .DRL_EST_STATE w ≠ 2)
    (hn : rd s .PWR_CONFIG_DISAGREE_WINDOWS ≤ rd s .DRL_EST_MISSES w + 1) :
    estimate s w k true = untrust (wr s .DRL_EST_MISSES w (rd s .DRL_EST_MISSES w + 1)) w := by
  rw [estimate, if_neg h, if_neg (by simp), if_pos hn]

theorem estimate_of_miss (h : rd s .DRL_EST_STATE w ≠ 2)
    (hn : rd s .DRL_EST_MISSES w + 1 < rd s .PWR_CONFIG_DISAGREE_WINDOWS) : estimate s w k true = missCounted s w k := by
  rw [estimate, if_neg h, if_neg (by simp), if_neg (not_le.mpr hn)]
  rfl

theorem withinAt_hit (s : State) (w k : Nat) :
    WithinAt [] [(.DRL_K, w), (.DRL_EST_STATE, w), (.DRL_EST_MISSES, w)] s
      (wr (wr (wr s .DRL_K w k) .DRL_EST_STATE w 0) .DRL_EST_MISSES w 0) :=
  ((withinAt_wr s _ w _).trans (withinAt_wr _ _ w _)).trans (withinAt_wr _ _ w _)

theorem rd_missCounted (s : State) (w k : Nat) : rd (missCounted s w k) .DRL_K w = k ∧
    rd (missCounted s w k) .DRL_EST_STATE w = 1 ∧ rd (missCounted s w k) .DRL_EST_MISSES w = rd s .DRL_EST_MISSES w + 1 := by
  unfold missCounted
  extract_lets n u
  have hu : rd u .DRL_K w = k ∧ rd u .DRL_EST_STATE w = 1 ∧ rd u .DRL_EST_MISSES w = n + 1 := by simp [u, rd_wr]
  split
  · have hrecord := within_estimatorRecord u w 1
    rwa [hrecord.regs _ _ (by decide), hrecord.regs _ _ (by decide), hrecord.regs _ _ (by decide)]
  · exact hu

theorem within_missCounted (s : State) (w k : Nat) : Within [.rep] (estimatorFlds ++ reportFlds) s (missCounted s w k) := by
  unfold missCounted
  extract_lets n u
  have hu : Within [] estimatorFlds s u :=
    (((within_wr s _ _ _).append (within_wr _ _ _ _)).append (within_wr _ _ _ _)).mono (by simp) (by decide)
  split
  · exact (hu.append (within_estimatorRecord u w 1)).mono (by simp) (by simp)
  · exact hu.mono (by simp) (by simp)

/-- Nothing but the estimator, its record and the ceilings changes with a window's comparison. -/
theorem within_estimate (s : State) (w k : Nat) (miss : Bool) :
    Within [.pwr, .rep] (estimatorFlds ++ (reportFlds ++ ceilFlds)) s (estimate s w k miss) := by
  by_cases h : rd s .DRL_EST_STATE w = 2
  · rw [estimate_of_untrusted h]
    exact Within.refl _ _ s
  · cases miss with
    | false =>
      rw [estimate_of_hit h]
      exact ((withinAt_hit s w k).toWithin (fs := estimatorFlds) (by simp [estimatorFlds])).mono (by simp) (by simp)
    | true =>
      obtain hn | hn := le_or_gt (rd s .PWR_CONFIG_DISAGREE_WINDOWS) (rd s .DRL_EST_MISSES w + 1)
      · rw [estimate_of_last_miss h hn]
        exact ((within_wr s _ _ _).append (within_untrust _ w)).mono (by simp) (by decide)
      · rw [estimate_of_miss h hn]
        exact (within_missCounted s w k).mono (by simp) (by decide)

end Estimate

/-! A window -/

/-- Whether a window's estimate is off by more than DISAGREE_PCT of the measured energy (R317). -/
def windowMisses (s : State) (w meas : Nat) (est : WingActivity) : Bool :=
  decide (rd s .PWR_CONFIG_DISAGREE_PCT * measEnergy meas * 65536 <
    100 * ((rd s .DRL_K w * estEnergy s est - measEnergy meas * 65536) + (measEnergy meas * 65536 - rd s .DRL_K w * estEnergy s est)))

/-- DRL_DISAGREE of a window in ‰, before it is capped; free where there is nothing to compare with. -/
def disagreement (s : State) (diff meas : Nat) : Nat × State :=
  if meas = 0 then (if diff = 0 then takeFree s 10 else (1023, s)) else freeQuot s (1000 * diff) (meas * 65536)

theorem within_disagreement (s : State) (diff meas : Nat) : Within [.free] [] s (disagreement s diff meas).2 := by
  unfold disagreement
  split
  · split
    · exact within_takeFree s 10
    · exact Within.refl _ _ s
  · exact within_freeQuot s _ _

/-- What a window's comparison begins from. -/
structure WindowShown (s : State) (w : Nat) (x : State) : Prop where
  within : WithinAt [.free] [(.DRL_DISAGREE, w)] s x
  disagree : rd x .DRL_DISAGREE w ≤ 1023

theorem dist_eq_sub_add_sub (a b : Nat) : (if a ≤ b then b - a else a - b) = (b - a) + (a - b) := by
  split <;> omega

/-- The energy that is counted before a window's comparison. -/
def windowCounted (s : State) (t : Nat) (input : Option Nat) (attrib : List (Nat × Nat)) : State :=
  energyAttributed (energyEntered (tick s t) input) attrib

theorem within_windowCounted (s : State) (t : Nat) (input : Option Nat) (attrib : List (Nat × Nat)) :
    Within [.now, .pwr] [.ENERGY_MODULE, .PWR_INPUT_W, .ENERGY_ATTRIB, .PWR_METER_ENERGY] s (windowCounted s t input attrib) :=
  ((within_energyEntered (tick s t) input).append (within_energyAttributed _ attrib)).afterTick.mono (by simp) (by simp)

/-- An estimate depends on the hubs' states only. -/
theorem estEnergy_congr {u : State} (h : ∀ n, rd u .INTEG_HUB_STATE n = rd s .INTEG_HUB_STATE n) (a : WingActivity) :
    estEnergy u a = estEnergy s a := by simp only [estEnergy, h]

theorem windowMisses_congr {u : State} (h : ∀ f ∈ [Fld.PWR_CONFIG_DISAGREE_PCT, .DRL_K, .INTEG_HUB_STATE], ∀ n, rd u f n = rd s f n)
    (w meas : Nat) (est : WingActivity) : windowMisses u w meas est = windowMisses s w meas est := by
  simp only [List.forall_mem_cons, List.not_mem_nil, false_imp_iff, implies_true, and_true] at h
  obtain ⟨hpct, hk, hstate⟩ := h
  simp only [windowMisses, hpct, hk, estEnergy_congr hstate]

/-- A window leads to the estimator's next state by the comparison alone, once its energy has been counted. -/
theorem window_estimates (s : State) (t : Nat) (hw : w < 4) (meas : Nat) (est : WingActivity) (input : Option Nat)
    (attrib : List (Nat × Nat)) : ∃ x k', WindowShown (windowCounted s t input attrib) w x ∧ (0x8000 ≤ k' ∧ k' ≤ 0x20000) ∧
      exec (.derailleurWindow t w meas est input attrib) s = settle s (estimate x w k' (windowMisses s w meas est)) := by
  have hexec : exec (.derailleurWindow t w meas est input attrib) s = execDerailleurWindow t w meas est input attrib s := rfl
  unfold execDerailleurWindow at hexec
  extract_lets u v counted k e m diff at hexec
  rw [if_neg (not_le.mpr hw)] at hexec
  have hcounted : counted = windowCounted s t input attrib := by cases input <;> rfl
  have hfree := within_disagreement counted diff m
  unfold disagreement at hfree
  generalize (if m = 0 then if diff = 0 then takeFree counted 10 else (1023, counted)
    else freeQuot counted (1000 * diff) (m * 65536)) = shown at hexec hfree
  obtain ⟨d, u1⟩ := shown
  dsimp only at hexec hfree
  have hnext := within_nextK (wr u1 .DRL_DISAGREE w (min d 1023)) k m e
  have hbounds := nextK_bounds (wr u1 .DRL_DISAGREE w (min d 1023)) k m e
  generalize nextK (wr u1 .DRL_DISAGREE w (min d 1023)) k m e = next at hexec hnext hbounds
  obtain ⟨k', x⟩ := next
  dsimp only at hexec hnext hbounds
  have hframe : WithinAt [.free] [(.DRL_DISAGREE, w)] counted x :=
    ((hfree.toWithinAt.trans (withinAt_wr u1 _ w _)).trans hnext.toWithinAt).mono (by simp) (by simp)
  have hmiss : windowMisses counted w meas est = windowMisses s w meas est :=
    windowMisses_congr (fun f hf n => by
      rw [hcounted]
      exact (within_windowCounted s t input attrib).regs f n (by revert f; decide)) w meas est
  rw [hframe.regs .PWR_CONFIG_DISAGREE_PCT 0 (by simp), show diff = _ from dist_eq_sub_add_sub (m * 65536) (k * e)] at hexec
  rw [← hcounted, ← hmiss]
  refine ⟨x, k', ⟨hframe, ?_⟩, hbounds, hexec⟩
  rw [hnext.regs _ _ (by simp), rd_wr_same]
  exact min_le_right _ _

/-- What a window leaves, whatever its comparison. -/
theorem derailleurWindow_runs (hw : w < 4) (meas : Nat) (est : WingActivity) (input : Option Nat) (attrib : List (Nat × Nat)) :
    Runs (.derailleurWindow t w meas est input attrib) s fun v =>
      rd v .DRL_DISAGREE w ≤ 1023 ∧
      rd v .ENERGY_MODULE = (match input with | some e => (rd s .ENERGY_MODULE + e) % 2 ^ 64 | none => rd s .ENERGY_MODULE) ∧
      (attrib ≠ [] ∨ rd s .ENERGY_ATTRIB < 2 ^ 64 →
        rd v .ENERGY_ATTRIB = (rd s .ENERGY_ATTRIB + (attrib.map (·.2)).sum) % 2 ^ 64) ∧
      (rd s .DRL_EST_STATE w = 2 → rd v .DRL_EST_STATE w = 2 ∧ rd v .DRL_K w = rd s .DRL_K w) ∧
      (rd s .DRL_EST_STATE w ≠ 2 → windowMisses s w meas est = false → rd v .DRL_EST_STATE w = 0 ∧ rd v .DRL_EST_MISSES w = 0 ∧
        0x8000 ≤ rd v .DRL_K w ∧ rd v .DRL_K w ≤ 0x20000) ∧
      (rd s .DRL_EST_STATE w ≠ 2 → windowMisses s w meas est = true → rd v .DRL_EST_MISSES w = rd s .DRL_EST_MISSES w + 1 ∧
        (rd s .DRL_EST_MISSES w + 1 < rd s .PWR_CONFIG_DISAGREE_WINDOWS →
          rd v .DRL_EST_STATE w = 1 ∧ 0x8000 ≤ rd v .DRL_K w ∧ rd v .DRL_K w ≤ 0x20000) ∧
        (rd s .PWR_CONFIG_DISAGREE_WINDOWS ≤ rd s .DRL_EST_MISSES w + 1 →
          rd v .DRL_EST_STATE w = 2 ∧ rd v .DRL_K w = rd s .DRL_K w ∧ w ∈ v.pwr.estDrop)) ∧
      v.mem = s.mem := by
  obtain ⟨x, k', hx, ⟨hlo, hhi⟩, hexec⟩ := window_estimates s t hw meas est input attrib
  have hcounted := within_windowCounted s t input attrib
  have hjudged := within_estimate x w k' (windowMisses s w meas est)
  have hsame : ∀ f ∈ [Fld.DRL_EST_STATE, .DRL_K, .DRL_EST_MISSES], rd x f w = rd s f w := fun f hf =>
    (hx.within.regs f w (by revert f; simp)).trans (hcounted.regs f w (by revert f; decide))
  have hwindows : rd x .PWR_CONFIG_DISAGREE_WINDOWS = rd s .PWR_CONFIG_DISAGREE_WINDOWS :=
    (hx.within.regs _ _ (by simp)).trans (hcounted.regs _ _ (by decide))
  simp only [List.forall_mem_cons, List.not_mem_nil, false_imp_iff, implies_true, and_true] at hsame
  obtain ⟨hstate, hk, hmisses⟩ := hsame
  have henergy : ∀ f ∈ [Fld.ENERGY_MODULE, .ENERGY_ATTRIB],
      rd (settled s (estimate x w k' (windowMisses s w meas est))) f = rd (windowCounted s t input attrib) f := fun f hf => by
    rw [rd_settled_other _ _ _ _ (by revert f; decide), hjudged.regs f 0 (by revert f; decide), hx.within.regs f 0 (by revert f; simp)]
  refine runs_of_settle hexec ⟨?_, ?_, fun h => ?_, fun h => ?_, fun h hmiss => ?_, fun h hmiss => ⟨?_, fun hn => ?_, fun hn => ?_⟩, ?_⟩
  · rw [rd_settled_other _ _ _ _ (by decide), hjudged.regs _ _ (by decide)]
    exact hx.disagree
  · rw [henergy _ (by simp), windowCounted, (within_energyAttributed _ attrib).regs _ _ (by decide), rd_energyEntered]
    rfl
  · have hattrib : rd (energyEntered (tick s t) input) .ENERGY_ATTRIB = rd s .ENERGY_ATTRIB :=
      (within_energyEntered (tick s t) input).regs _ _ (by decide)
    rw [henergy _ (by simp), windowCounted, rd_energyAttributed attrib _ (by rwa [hattrib]), hattrib]
  · rw [estimate_of_untrusted (hstate.trans h), rd_settled_other _ _ _ _ (by decide), rd_settled_other _ _ _ _ (by decide), hstate, hk]
    exact ⟨h, rfl⟩
  · rw [hmiss, estimate_of_hit (hstate ▸ h)]
    simp only [rd_settled_other _ _ _ _ (show Fld.DRL_EST_STATE ∉ viewFlds by decide), rd_settled_other _ _ _ _
      (show Fld.DRL_EST_MISSES ∉ viewFlds by decide), rd_settled_other _ _ _ _ (show Fld.DRL_K ∉ viewFlds by decide)]
    simp [rd_wr, hlo, hhi]
  · rw [hmiss, rd_settled_other _ _ _ _ (by decide)]
    obtain hn | hn := le_or_gt (rd x .PWR_CONFIG_DISAGREE_WINDOWS) (rd x .DRL_EST_MISSES w + 1)
    · rw [estimate_of_last_miss (hstate ▸ h) hn, (within_untrust _ w).regs _ _ (by decide), rd_wr_same, hmisses]
    · rw [estimate_of_miss (hstate ▸ h) hn, (rd_missCounted x w k').2.2, hmisses]
  · obtain ⟨hk', hst, -⟩ := rd_missCounted x w k'
    rw [hmiss, rd_settled_other _ _ _ _ (by decide), rd_settled_other _ _ _ _ (by decide),
      estimate_of_miss (hstate ▸ h) (by rwa [hmisses, hwindows]), hst, hk']
    exact ⟨rfl, hlo, hhi⟩
  · rw [hmiss, rd_settled_other _ _ _ _ (by decide), rd_settled_other _ _ _ _ (by decide), settled_pwr,
      estimate_of_last_miss (hstate ▸ h) (by rwa [hmisses, hwindows])]
    exact ⟨rd_untrust _ w, by rw [(within_untrust _ w).regs _ _ (by decide), rd_wr_ne _ _ _ _ _ _ (by simp), hk],
      mem_estDrop_untrust _ w⟩
  · exact Eq.trans (hjudged.parts .mem (by simp)) (Eq.trans (hx.within.parts .mem (by simp)) (hcounted.parts .mem (by simp)))

/-- A window whose estimate agrees touches its wing's estimator only. -/
theorem derailleurWindow_agrees (hw : w < 4) (meas : Nat) (est : WingActivity) (hhit : windowMisses s w meas est = false)
    (hst : rd s .DRL_EST_STATE w ≠ 2) : Runs (.derailleurWindow t w meas est none []) s fun v =>
      rd v .DRL_EST_STATE w = 0 ∧ rd v .DRL_EST_MISSES w = 0 ∧ 0x8000 ≤ rd v .DRL_K w ∧ rd v .DRL_K w ≤ 0x20000 ∧
      KeptBut [.free, .now] s v ∧
      RegsKept [(.DRL_DISAGREE, w), (.DRL_K, w), (.DRL_EST_STATE, w), (.DRL_EST_MISSES, w)] s v := by
  obtain ⟨x, k', hx, ⟨hlo, hhi⟩, hexec⟩ := window_estimates s t hw meas est none []
  have hcounted : WithinAt [.now] [] s (windowCounted s t none []) := (within_tick s t).toWithinAt
  have hst' : rd x .DRL_EST_STATE w ≠ 2 := by
    rwa [hx.within.regs _ _ (by simp), hcounted.regs _ _ (by simp)]
  rw [hhit, estimate_of_hit hst'] at hexec
  have hframe := ((hcounted.trans hx.within).trans (withinAt_hit x w k')).mono (qs := [.free, .now])
    (ey := [(.DRL_DISAGREE, w), (.DRL_K, w), (.DRL_EST_STATE, w), (.DRL_EST_MISSES, w)]) (by simp) (by simp)
  refine runs_of_settle hexec ⟨?_, ?_, ?_, ?_, hframe.settled⟩ <;> rw [rd_settled_other _ _ _ _ (by decide)] <;>
    simp [rd_wr, hlo, hhi]

end Sys2Proof.Machine
end

section
/-! O52: the limiter (R320, R321), the estimator's clearing, the cap and the meters (R324, R331, R335). -/

namespace Sys2Proof.Machine

variable {s : State} {t w : Nat}

/-! The limiter -/

/-- The registers that a limiter sample within a segment changes beside the current it shows. -/
abbrev sampleRegs (w : Nat) : List (Fld × Nat) := [(.DRL_LIMIT_NS, w), (.DRL_GEAR_DEFERRED, w), (.DRL_DEFERRED_COUNT, w)]

/-- Those that one at a segment's end may change. -/
abbrev segmentRegs (w : Nat) : List (Fld × Nat) :=
  sampleRegs w ++ [(.DRL_GEAR_PLANNED, w), (.DRL_GEAR_CURRENT, w), (.DRL_GEAR_FORCED, w), (.DRL_VCORE_MILLIVOLTS, w)]

/-- A part of a limiter sample: it touches these registers, and leaves the duty that the sample has set. -/
structure LimiterStep (ex : List (Fld × Nat)) (s u : State) : Prop where
  within : WithinAt [.pwr] ex s u
  duty : u.pwr.duty = s.pwr.duty

theorem LimiterStep.trans {ex ey : List (Fld × Nat)} {s t u : State} (h : LimiterStep ex s t) (k : LimiterStep ey t u) :
    LimiterStep (ex ++ ey) s u := ⟨(h.within.trans k.within).mono (by simp) (by simp), k.duty.trans h.duty⟩

theorem LimiterStep.mono {ex ey : List (Fld × Nat)} {s t : State} (h : LimiterStep ex s t) (he : ex ⊆ ey) : LimiterStep ey s t :=
  ⟨h.within.mono (List.Subset.refl _) he, h.duty⟩

theorem LimiterStep.refl (ex : List (Fld × Nat)) (s : State) : LimiterStep ex s s :=
  ⟨(WithinAt.refl s).mono (by simp) (by simp), rfl⟩

theorem limiterStep_wr (s : State) (f : Fld) (n v : Nat) : LimiterStep [(f, n)] s (wr s f n v) :=
  ⟨(withinAt_wr s f n v).mono (by simp) (by simp), rfl⟩

theorem limiterStep_updPwr {s : State} (f : Power → Power) (h : (f s.pwr).duty = s.pwr.duty) : LimiterStep [] s (updPwr s f) :=
  ⟨(within_pwr s f).toWithinAt, h⟩

theorem limiterStep_chargeLimiter (s : State) (w q : Nat) : LimiterStep [(.DRL_LIMIT_NS, w)] s (chargeLimiter s w q) := by
  unfold chargeLimiter
  split
  · extract_lets c u
    have hu : LimiterStep [] s u := limiterStep_updPwr _ rfl
    exact hu.trans (limiterStep_wr u _ w _)
  · exact LimiterStep.refl _ s

theorem limiterStep_settleGear (s : State) (w : Nat) : LimiterStep (gearRegs w) s (settleGear s w) :=
  ⟨(withinAt_settleGear s w).mono (by simp) (by simp), rfl⟩

/-- A downshift at a segment's boundary, or one that lapses (R321). -/
theorem limiterStep_segmentEnd (s : State) (w extra : Nat) (above : Bool) : LimiterStep (segmentRegs w) s (segmentEnd s w extra above) := by
  unfold segmentEnd
  split
  · extract_lets left u v
    have hu : LimiterStep [] s u := limiterStep_updPwr _ rfl
    have hv : LimiterStep [(.DRL_GEAR_DEFERRED, w)] u v := by
      unfold v
      split
      · exact LimiterStep.refl _ u
      · exact limiterStep_wr u _ w _
    split
    · exact ((hu.trans hv).trans (((limiterStep_wr v .DRL_GEAR_PLANNED w _).trans (limiterStep_chargeLimiter _ w _)).trans
        (limiterStep_settleGear _ w))).mono (by simp)
    · exact (hu.trans hv).mono (by simp)
  · exact LimiterStep.refl _ s

/-- The current that the limiter compares with the cap (R320). -/
def limiterCurrent (s : State) (w predicted measured : Nat) : Nat :=
  if w ∈ s.pwr.noTelemetry then predicted else if rd s .DRL_EST_STATE w = 2 then measured else max predicted measured

/-- The duty, in eighths, that a sample sets (R320). -/
def nextDuty (s : State) (w cur : Nat) : Nat :=
  let cap := rd s .DRL_RAIL_CAP_AMPS w
  let duty := storeGet 0 s.pwr.duty w
  if forcedG0 s w = true ∨ reserveGone s w = true then 0
  else if cap < cur then min 7 (duty + 1)
  else if cur * 10 < cap * 9 ∧ storeGet 0 s.pwr.low w = 3 then duty - 1 else duty

/-- A sample's duty is set, with the counts of samples below 90 % of the cap and at or above 1/4. -/
def dutySet (s : State) (w next low high : Nat) : State :=
  updPwr s fun p => { p with
    duty := storePut 0 p.duty w next, low := storePut 0 p.low w low, high := storePut 0 p.high w high }

/-- What a sample does once its duty is set: the charge, a downshift request, its deferral, and a segment's end. -/
def sampleSpread (s : State) (w next extra : Nat) (request ends above : Bool) : State :=
  let u := chargeLimiter s w (125 * next)
  let u := if request = true ∧ w ∉ u.pwr.downReq then updPwr u fun p => { p with downReq := p.downReq ++ [w] } else u
  let u := if lockedOn u w = true ∧ w ∈ u.pwr.downReq ∧ rdb u .DRL_GEAR_DEFERRED w = false
    then inc (wr u .DRL_GEAR_DEFERRED w 1) .DRL_DEFERRED_COUNT w else u
  if ends = true ∧ lockedOn u w = false then segmentEnd u w extra above else u

/-- A sample within a segment changes no gear. -/
theorem limiterStep_sampleSpread_within (s : State) (w next extra : Nat) (request above : Bool) :
    LimiterStep (sampleRegs w) s (sampleSpread s w next extra request false above) := by
  unfold sampleSpread
  extract_lets a b c
  have ha : LimiterStep [(.DRL_LIMIT_NS, w)] s a := limiterStep_chargeLimiter s w _
  have hb : LimiterStep [] a b := by
    unfold b
    split
    · exact limiterStep_updPwr _ rfl
    · exact LimiterStep.refl _ a
  have hc : LimiterStep [(.DRL_GEAR_DEFERRED, w), (.DRL_DEFERRED_COUNT, w)] b c := by
    unfold c
    split
    · exact (limiterStep_wr b _ w _).trans (limiterStep_wr _ _ w _)
    · exact LimiterStep.refl _ b
  rw [if_neg (by simp)]
  exact ((ha.trans hb).trans hc).mono (by simp)

/-- A sample at a segment's end is one within it, and then the segment's end where no locked segment runs. -/
theorem limiterStep_sampleSpread (s : State) (w next extra : Nat) (request ends above : Bool) :
    LimiterStep (segmentRegs w) s (sampleSpread s w next extra request ends above) := by
  have hwithin := limiterStep_sampleSpread_within s w next extra request above
  cases ends with
  | false => exact hwithin.mono (by simp)
  | true =>
    have hcases : sampleSpread s w next extra request true above = sampleSpread s w next extra request false above ∨
        sampleSpread s w next extra request true above =
          segmentEnd (sampleSpread s w next extra request false above) w extra above := by
      unfold sampleSpread
      extract_lets a b c
      rw [if_neg (show ¬ (false = true ∧ lockedOn c w = false) by simp)]
      split
      · exact Or.inr rfl
      · exact Or.inl rfl
    obtain h | h := hcases <;> rw [h]
    · exact hwithin.mono (by simp)
    · exact (hwithin.trans (limiterStep_segmentEnd _ w extra above)).mono (by simp)

theorem exec_limiterSample (hw : w < 4) (predicted measured extra : Nat) (ends : Bool) : ∃ low high request,
    exec (.limiterSample t w predicted measured ends extra) s = settle s
      (sampleSpread (dutySet (wr (tick s t) .DRL_VCORE_AMPS w (min measured 1023)) w (nextDuty s w (limiterCurrent s w predicted measured))
          low high)
        w (nextDuty s w (limiterCurrent s w predicted measured)) extra request ends
        (decide (rd s .DRL_RAIL_CAP_AMPS w < limiterCurrent s w predicted measured))) := by
  have hexec : exec (.limiterSample t w predicted measured ends extra) s = execLimiterSample t w predicted measured ends extra s := rfl
  unfold execLimiterSample at hexec
  extract_lets u cur cap u1 duty low next high u2 at hexec
  have hnext : next = nextDuty s w cur := by
    have hlow : low = 4 ↔ cur * 10 < cap * 9 ∧ storeGet 0 s.pwr.low w = 3 := by
      show (if cur * 10 < cap * 9 then storeGet 0 s.pwr.low w + 1 else 0) = 4 ↔ _
      split <;> simp [*]
    show (if forcedG0 s w = true then 0 else if reserveGone s w = true then 0
      else if cap < cur then min 7 (duty + 1) else if low = 4 then duty - 1 else duty) = _
    simp only [hlow, ← ite_or]
    rfl
  refine ⟨low % 4, min high 80, decide (high = 80), hexec.trans ?_⟩
  rw [if_neg (not_le.mpr hw), show limiterCurrent s w predicted measured = cur from rfl, ← hnext, sampleSpread]
  simp only [decide_eq_true_eq]
  rfl

theorem limiterSample_runs (hw : w < 4) (predicted measured extra : Nat) (ends : Bool) :
    Runs (.limiterSample t w predicted measured ends extra) s fun v =>
      storeGet 0 v.pwr.duty w = nextDuty s w (limiterCurrent s w predicted measured) ∧
      rd v .DRL_VCORE_AMPS w = min measured 1023 ∧
      (ends = false → rd v .DRL_GEAR_PLANNED w = rd s .DRL_GEAR_PLANNED w ∧ rd v .DRL_GEAR_CURRENT w = rd s .DRL_GEAR_CURRENT w) ∧
      KeptBut [.now, .pwr] s v ∧ RegsKept ((.DRL_VCORE_AMPS, w) :: segmentRegs w) s v := by
  obtain ⟨low, high, request, hexec⟩ := exec_limiterSample (s := s) (t := t) hw predicted measured extra ends
  set next := nextDuty s w (limiterCurrent s w predicted measured)
  set above := decide (rd s .DRL_RAIL_CAP_AMPS w < limiterCurrent s w predicted measured)
  set shown := wr (tick s t) .DRL_VCORE_AMPS w (min measured 1023) with hshown
  set u := dutySet shown w next low high with hu
  have hset : WithinAt [.pwr] [] shown u := (within_pwr shown _).toWithinAt
  have hbegun : WithinAt [.now, .pwr] [(.DRL_VCORE_AMPS, w)] s u :=
    (((within_tick s t).toWithinAt.trans (withinAt_wr _ _ w _)).trans hset).mono (by simp) (by simp)
  have hspread := limiterStep_sampleSpread u w next extra request ends above
  refine runs_of_settle hexec ⟨?_, ?_, fun hends => ?_, ?_⟩
  · rw [settled_pwr, hspread.duty]
    exact storeGet_put_same 0 _ w next
  · rw [rd_settled_other _ _ _ _ (by decide), hspread.within.regs _ _ (by simp), hset.regs _ _ (by simp), hshown, rd_wr_same]
  · subst hends
    have hquiet := hbegun.trans (limiterStep_sampleSpread_within u w next extra request above).within
    rw [rd_settled_other _ _ _ _ (by decide), rd_settled_other _ _ _ _ (by decide)]
    exact ⟨hquiet.regs _ _ (by simp), hquiet.regs _ _ (by simp)⟩
  · exact ((hbegun.trans hspread.within).mono (by simp) (by simp)).settled

/-! Management writes -/

section Management
variable {src : Src} (hm : isMgmt s src = true)
include hm

theorem drlEstClear_clears (hw : w < 4) (hst : rd s .DRL_EST_STATE w = 2) : Runs (.drlEstClear src t w) s fun v =>
    rd v .DRL_EST_STATE w = 0 ∧ rd v .DRL_EST_MISSES w = 0 ∧ rd v .DRL_K w = 0x10000 ∧
    Frame [.now, .pwr, .rep] (reportFlds ++ [.DRL_EST_STATE, .DRL_EST_MISSES, .DRL_K]) s v := by
  set u := wr (wr (wr (tick s t) .DRL_EST_STATE w 0) .DRL_EST_MISSES w 0) .DRL_K w 0x10000 with hu
  set x := updPwr u fun p => { p with noTelemetry := p.noTelemetry.filter (· != w) }
  have hexec : exec (.drlEstClear src t w) s = settle s (estimatorRecord x w 3) := by
    show execDrlEstClear src t w s = _
    have hgo : ¬ (isMgmt s src = false ∨ 4 ≤ w) := by simp [hm, hw]
    have hst' : rd (tick s t) .DRL_EST_STATE w = 2 := hst
    simp only [execDrlEstClear, if_neg hgo, if_pos hst']
    rfl
  have hrest : Within [.pwr, .rep] reportFlds u (estimatorRecord x w 3) :=
    ((within_pwr u _).append (within_estimatorRecord x w 3)).mono (by simp) (by simp)
  have hcleared : Within [] [.DRL_EST_STATE, .DRL_EST_MISSES, .DRL_K] (tick s t) u :=
    (((within_wr (tick s t) _ _ _).append (within_wr _ _ _ _)).append (within_wr _ _ _ _)).mono (by simp) (by simp)
  refine runs_of_settle hexec ⟨?_, ?_, ?_, ((hcleared.append hrest).afterTick.mono (by simp) (by simp)).settled⟩ <;>
    rw [rd_settled_other _ _ _ _ (by decide), hrest.regs _ _ (by decide)] <;> simp [hu, rd_wr]

theorem drlEstClear_trusted (hw : w < 4) (hst : rd s .DRL_EST_STATE w ≠ 2) : Runs (.drlEstClear src t w) s fun v =>
    KeptBut [.now] s v ∧ RegsKept [] s v := by
  have hexec : exec (.drlEstClear src t w) s = settle s (tick s t) := by
    show execDrlEstClear src t w s = _
    have hgo : ¬ (isMgmt s src = false ∨ 4 ≤ w) := by simp [hm, hw]
    have hst' : ¬ rd (tick s t) .DRL_EST_STATE w = 2 := hst
    simp only [execDrlEstClear, if_neg hgo, if_neg hst']
  exact runs_of_settle hexec (within_tick s t).toWithinAt.settled

theorem exec_pwrCapWrite (x : Nat) : exec (.pwrCapWrite src t x) s = settle s (writeCap (tick s t) x) := by
  show execPwrCapWrite src t x s = _
  rw [execPwrCapWrite, if_pos hm]

theorem pwrCapWrite_ignored {x : Nat} (hx : x < 1000 ∨ (3300 < x ∧ x < 4096)) : Runs (.pwrCapWrite src t x) s fun v =>
    KeptBut [.now] s v ∧ RegsKept [] s v := by
  have hout : x % 4096 < 1000 ∨ 3300 < x % 4096 := by omega
  have hcap : writeCap (tick s t) x = tick s t := if_pos hout
  exact runs_of_settle ((exec_pwrCapWrite hm x).trans (by rw [hcap])) (within_tick s t).toWithinAt.settled

theorem pwrMeterWrite_resets {m : Nat} (hmeter : m < 8) (x : Nat) : Runs (.pwrMeterWrite src t m x) s fun v =>
    rd v .PWR_METER_CTX_CTX m = x % 64 ∧ rd v .PWR_METER_CTX_EN m = bitsOf x 7 7 ∧ rd v .PWR_METER_ENERGY m = 0 ∧
    KeptBut [.now] s v ∧ RegsKept [(.PWR_METER_CTX_CTX, m), (.PWR_METER_CTX_EN, m), (.PWR_METER_ENERGY, m)] s v := by
  have hexec : exec (.pwrMeterWrite src t m x) s = settle s
      (wr (wr (wr (tick s t) .PWR_METER_CTX_CTX m (x % 64)) .PWR_METER_CTX_EN m (bitsOf x 7 7)) .PWR_METER_ENERGY m 0) := by
    show execPwrMeterWrite src t m x s = _
    rw [execPwrMeterWrite, if_neg (by simp [hm, hmeter])]
  have hframe := (((within_tick s t).toWithinAt.trans (withinAt_wr _ .PWR_METER_CTX_CTX m (x % 64))).trans
    (withinAt_wr _ .PWR_METER_CTX_EN m (bitsOf x 7 7))).trans (withinAt_wr _ .PWR_METER_ENERGY m 0)
  refine runs_of_settle hexec ⟨?_, ?_, ?_, hframe.settled⟩ <;> rw [rd_settled_other _ _ _ _ (by decide)] <;> simp [rd_wr]

end Management

/-- CAP_W is written, with CAP_PENDING where promises were made under a higher cap (R324). -/
def capSet (s : State) (x : Nat) : State :=
  let u := wr s .PWR_CAP_CAP_W 0 x
  if x < rd s .PWR_CAP_CAP_W ∧ u.serve.items ≠ [] then wr u .PWR_CAP_CAP_PENDING 0 1 else u

theorem within_capSet (s : State) (x : Nat) : Within [] [.PWR_CAP_CAP_W, .PWR_CAP_CAP_PENDING] s (capSet s x) := by
  unfold capSet
  extract_lets u
  have hu : Within [] [.PWR_CAP_CAP_W, .PWR_CAP_CAP_PENDING] s u := (within_wr s _ _ _).mono (by simp) (by simp)
  split
  · exact hu.trans ((within_wr u _ _ _).mono (by simp) (by simp))
  · exact hu

theorem rd_capSet (s : State) (x : Nat) : rd (capSet s x) .PWR_CAP_CAP_W = x ∧
    (x < rd s .PWR_CAP_CAP_W → s.serve.items ≠ [] → rd (capSet s x) .PWR_CAP_CAP_PENDING = 1) := by
  unfold capSet
  extract_lets u
  split
  · exact ⟨by simp [u, rd_wr], fun _ _ => rd_wr_same _ _ _ _⟩
  · next h => exact ⟨rd_wr_same _ _ _ _, fun hlt hitems => absurd ⟨hlt, hitems⟩ h⟩

/-- A cap in range is set; one that differs is reported (R335). -/
theorem writeCap_cases {x : Nat} (hlo : 1000 ≤ x) (hhi : x ≤ 3300) (s : State) : ∃ d,
    writeCap s x = capSet s x ∨ writeCap s x = raiseModule (report (capSet s x) 0x14 0 d) .EVC_STATUS_POWER := by
  have hmod : x % 4096 = x := Nat.mod_eq_of_lt (by omega)
  unfold writeCap
  rw [hmod]
  dsimp only
  rw [if_neg (by omega)]
  split
  · exact ⟨[], Or.inl rfl⟩
  · exact ⟨_, Or.inr rfl⟩

theorem pwrCapWrite_sets {src : Src} (hm : isMgmt s src = true) {x : Nat} (hlo : 1000 ≤ x) (hhi : x ≤ 3300) :
    Runs (.pwrCapWrite src t x) s fun v =>
      rd v .PWR_CAP_CAP_W = x ∧ (x < rd s .PWR_CAP_CAP_W → s.serve.items ≠ [] → rd v .PWR_CAP_CAP_PENDING = 1) ∧
      Frame [.now, .rep] (reportFlds ++ [.PWR_CAP_CAP_W, .PWR_CAP_CAP_PENDING, .EVC_STATUS_POWER]) s v := by
  have hrest : Within [.rep] (reportFlds ++ [.EVC_STATUS_POWER]) (capSet (tick s t) x) (writeCap (tick s t) x) := by
    obtain ⟨d, h | h⟩ := writeCap_cases hlo hhi (tick s t) <;> rw [h]
    · exact Within.refl _ _ _
    · exact ((within_report (capSet (tick s t) x) _ _ _ _ _ _).append (within_raiseModule _ _)).mono (by simp) (by simp)
  obtain ⟨hcap, hpending⟩ := rd_capSet (tick s t) x
  refine runs_of_settle (exec_pwrCapWrite hm x) ⟨?_, fun hlt hitems => ?_, ?_⟩
  · rw [rd_settled_other _ _ _ _ (by decide), hrest.regs _ _ (by decide), hcap]
  · rw [rd_settled_other _ _ _ _ (by decide), hrest.regs _ _ (by decide)]
    exact hpending hlt hitems
  · exact (((within_capSet (tick s t) x).append hrest).afterTick.mono (by simp) (by decide)).settled

end Sys2Proof.Machine
end

section
/-! O52: temperatures and their levels (R328, R329, Table 11-5). -/

namespace Sys2Proof.Machine

variable {s t u : State}

/-! What a TRIP ends -/

/-- A context's state that is written over is the one that was written last. -/
theorem wr_ctxState_twice {c v w : Nat} (hc : c ≠ 0) (hv : v ≠ 0) (hw : w ≠ 0) (s : State) :
    wr (wr s .CTX_STATE_STATE c v) .CTX_STATE_STATE c w = wr s .CTX_STATE_STATE c w := by
  have hreset : regReset .CTX_STATE_STATE c = 0 := if_neg hc
  simp only [wr, hreset, storePut, if_neg hv, if_neg hw, storeInsert_storeInsert]

/-- Whatever state a context is torn down from, its teardown starts as one from CTX_STATE 1 does. -/
theorem startTeardown_from_one {c : Nat} (h : ¬ (c = 0 ∨ rd s .CTX_STATE_STATE c = 0 ∨ rd s .CTX_STATE_STATE c = 3)) (cause : Nat) :
    startTeardown s c cause = startTeardown (wr s .CTX_STATE_STATE c 1) c cause := by
  have hone : ¬ (c = 0 ∨ rd (wr s .CTX_STATE_STATE c 1) .CTX_STATE_STATE c = 0 ∨
      rd (wr s .CTX_STATE_STATE c 1) .CTX_STATE_STATE c = 3) := by
    rw [rd_wr_same]
    omega
  have hset : setCtxState (wr s .CTX_STATE_STATE c 1) c 3 = setCtxState s c 3 := by
    unfold setCtxState
    rw [wr_ctxState_twice (fun hc => h (Or.inl hc)) (by simp) (by simp)]
  unfold startTeardown
  dsimp only
  rw [if_neg h, if_neg hone, hset]

/-- The fields that a TRIP changes beside the gears. -/
def tripFlds : List Fld := [.CTX_STATE_STATE, .CTXWIN_INFO_STATE, .EVC_STATUS_CTX, .SERVE_CTRL_ENABLE] ++ teardownFlds

/-- The start of a teardown keeps memory, the power state and the wings' registers. -/
theorem within_startTeardown (s : State) (c cause : Nat) :
    Within [.core, .serve, .rep, .lard, .tt, .fab, .dbg, .ctxs] tripFlds s (startTeardown s c cause) := by
  by_cases h : c = 0 ∨ rd s .CTX_STATE_STATE c = 0 ∨ rd s .CTX_STATE_STATE c = 3
  · have hnone : startTeardown s c cause = s := if_pos h
    rw [hnone]
    exact Within.refl _ _ s
  · have hframe := startTeardown_frame (s := wr s .CTX_STATE_STATE c 1) (c := c) (fun hc => h (Or.inl hc))
      (Or.inl (rd_wr_same _ _ _ _)) cause
    rw [startTeardown_from_one h]
    exact ((((within_wr s _ _ _).append (within_setCtxState _ c 3)).append (within_wr _ _ _ _)).append hframe).mono
      (by decide) (by decide)

/-- What becomes of a context with open items that need tripped wings (R329). -/
def tripContext (s : State) (wings : List Nat) (t : State) (c : Nat) : State :=
  if c = 0 then endItems (stopCommands t 0) (fun i => i.ctx == 0 && needsWings s wings i) 0x24 0 else startTeardown t c 2

theorem within_tripContext (s : State) (wings : List Nat) (t : State) (c : Nat) :
    Within [.core, .serve, .rep, .lard, .tt, .fab, .dbg, .ctxs] tripFlds t (tripContext s wings t c) := by
  unfold tripContext
  split
  · exact ((teardown_stopCommands t 0).append (frame_endItems _ _ 0x24 0)).mono (by decide) (by decide)
  · exact within_startTeardown t c 2

/-- The wings lose their supplies, before the contexts that need them go. -/
def wingsTripped (s : State) (wings : List Nat) : State :=
  settleGears (updPwr s fun p => { p with tripped := (p.tripped ++ wings).eraseDups })

theorem trip_eq (s : State) (wings : List Nat) :
    ∃ cs x, trip s wings = each cs (wingsTripped s wings) (tripContext x wings) := ⟨_, _, rfl⟩

theorem within_trip_rest (s : State) (wings : List Nat) :
    Within [.core, .serve, .rep, .lard, .tt, .fab, .dbg, .ctxs] tripFlds (wingsTripped s wings) (trip s wings) := by
  obtain ⟨cs, x, h⟩ := trip_eq s wings
  rw [h]
  exact within_each _ (within_tripContext x wings) cs _

theorem within_wingsTripped (s : State) (wings : List Nat) : Within [.pwr] gearFlds s (wingsTripped s wings) :=
  ((within_pwr s _).append (within_settleGears _)).mono (by simp) (by simp)

theorem rd_trip_current {wings : List Nat} {w : Nat} (hw : w ∈ wings) (hw4 : w < 4) :
    rd (trip s wings) .DRL_GEAR_CURRENT w = 0 := by
  rw [(within_trip_rest s wings).regs _ _ (by decide), wingsTripped, rd_settleGears_current _ hw4]
  exact gearInEffect_of_forced (Or.inr (Or.inr (List.mem_eraseDups.mpr (List.mem_append_right _ hw))))

theorem levelsKept_trip (s : State) (wings : List Nat) : LevelsKept s (trip s wings) := by
  have hgears : LevelsKept s (wingsTripped s wings) := by
    rw [LevelsKept, wingsTripped, settleGears_pwr]
    exact ⟨rfl, rfl⟩
  exact hgears.trans (within_trip_rest s wings).levelsKept

/-! Levels -/

/-- The level that holds at a sensor. -/
def levelOf (s : State) (kind idx : Nat) : Nat :=
  ((s.pwr.levels.find? (fun l => l.1 == kind && l.2.1 == idx)).map (·.2.2)).getD 0

theorem levelOf_congr (h : LevelsKept s t) (kind idx : Nat) : levelOf t kind idx = levelOf s kind idx := by
  rw [levelOf, h.1, levelOf]

theorem levelOf_eq_zero {kind idx : Nat} (h : ∀ l ∈ s.pwr.levels, ¬ (l.1 = kind ∧ l.2.1 = idx)) : levelOf s kind idx = 0 := by
  have hnone : s.pwr.levels.find? (fun l => l.1 == kind && l.2.1 == idx) = none :=
    List.find?_eq_none.mpr fun l hl => by simpa using h l hl
  rw [levelOf, hnone]
  rfl

/-- A sensor's level is kept in place of the one before. -/
def levelKept (s : State) (kind idx new : Nat) : State :=
  updPwr s fun p => { p with
    levels := s.pwr.levels.filter (fun l => !(l.1 == kind && l.2.1 == idx)) ++ (if new = 0 then [] else [(kind, idx, new)]) }

theorem levelOf_levelKept (s : State) (kind idx new : Nat) : levelOf (levelKept s kind idx new) kind idx = new := by
  have hnone : (s.pwr.levels.filter (fun l => !(l.1 == kind && l.2.1 == idx))).find? (fun l => l.1 == kind && l.2.1 == idx) = none :=
    List.find?_eq_none.mpr fun l hl => by simpa [imp_iff_not_or] using (List.mem_filter.mp hl).2
  rw [levelOf, levelKept, updPwr_pwr]
  dsimp only
  rw [List.find?_append, hnone]
  split
  · next h => exact h.symm
  · simp

/-- What a level that has changed leads to: the alert of an ALARM, or the end of one. -/
def levelAlert (s : State) (src code old new : Nat) (wings : List Nat) : State :=
  if new = 2 then alertOn s src code wings 0 else if old = 2 then alertOff s src else s

theorem setLevel_of_same {kind idx r : Nat} (h : thermalLevel kind (levelOf s kind idx) r = levelOf s kind idx) (wings : List Nat)
    (code : Nat) : setLevel s kind idx r wings code = s := if_pos h

/-- A level that has changed, with its record. -/
def levelSeen (s : State) (kind idx new r : Nat) : State :=
  thermalRecord (levelKept s kind idx new) kind idx (if new = 0 then 5 else new) r

theorem setLevel_of_new {kind idx r new : Nat} (hnew : thermalLevel kind (levelOf s kind idx) r = new) (h : new ≠ levelOf s kind idx)
    (wings : List Nat) (code : Nat) : setLevel s kind idx r wings code =
      (let u := levelAlert (levelSeen s kind idx new r) (100 * kind + idx) code (levelOf s kind idx) new wings
      if new = 3 then trip u wings else u) := by
  subst hnew
  exact if_neg h

theorem within_thermalRecord (s : State) (kind idx level r : Nat) :
    Within [.rep] (reportFlds ++ [.EVC_STATUS_POWER]) s (thermalRecord s kind idx level r) :=
  ((within_report s _ _ _ _ _ _).append (within_raiseModule _ _)).mono (by simp) (by simp)

theorem within_levelSeen (s : State) (kind idx new r : Nat) :
    Within [.pwr, .rep] (reportFlds ++ [.EVC_STATUS_POWER]) s (levelSeen s kind idx new r) :=
  ((within_pwr s _).append (within_thermalRecord _ kind idx _ r)).mono (by simp) (by simp)

theorem levelSeen_pwr (s : State) (kind idx new r : Nat) : (levelSeen s kind idx new r).pwr = (levelKept s kind idx new).pwr :=
  (within_thermalRecord (levelKept s kind idx new) kind idx _ r).parts .pwr (by simp)

theorem within_levelAlert (s : State) (src code old new : Nat) (wings : List Nat) :
    Within [.dbg, .pwr, .rep, .tt] (alertFlds ++ gearFlds ++ spreadFlds) s (levelAlert s src code old new wings) := by
  unfold levelAlert
  split
  · exact within_alertOn code wings 0 s src
  · split
    · exact (within_alertOff s src).mono (by decide) (by decide)
    · exact Within.refl _ _ s

theorem levelsKept_alertOff (s : State) (src : Nat) : LevelsKept s (alertOff s src) := by
  cases h : s.pwr.alerts.find? (fun a => a.src == src && a.ended.isNone) with
  | none =>
    rw [alertOff, h]
    exact ⟨rfl, rfl⟩
  | some a =>
    rw [alertOff_eq h]
    have hheld : LevelsKept s (alertHeld s a) := by
      unfold alertHeld
      extract_lets v
      have hv : LevelsKept s v := ⟨rfl, rfl⟩
      exact hv.trans (levelsKept_each (f := holdUntil _) (fun _ _ => ⟨rfl, rfl⟩) a.wings v)
    exact hheld.trans ⟨rfl, rfl⟩

theorem levelsKept_levelAlert (s : State) (src code old new : Nat) (wings : List Nat) :
    LevelsKept s (levelAlert s src code old new wings) := by
  unfold levelAlert
  split
  · exact levelsKept_alertOn code wings 0 s src
  · split
    · exact levelsKept_alertOff s src
    · exact ⟨rfl, rfl⟩

/-- The fields that a sensor's level may change. -/
def levelFlds : List Fld := [.EVC_STATUS_POWER] ++ reportFlds ++ (alertFlds ++ gearFlds ++ spreadFlds) ++ tripFlds

section SetLevel
variable (s : State) (kind idx r : Nat) (wings : List Nat) (code : Nat)

/-- A level's change keeps memory and every sensor's reading. -/
theorem within_setLevel : Within [.core, .ctxs, .dbg, .fab, .lard, .pwr, .rep, .serve, .tt] levelFlds s
    (setLevel s kind idx r wings code) := by
  by_cases h : thermalLevel kind (levelOf s kind idx) r = levelOf s kind idx
  · rw [setLevel_of_same h]
    exact Within.refl _ _ s
  · rw [setLevel_of_new rfl h]
    dsimp only
    have hu := ((within_levelSeen s kind idx (thermalLevel kind (levelOf s kind idx) r) r).append
      (within_levelAlert _ (100 * kind + idx) code (levelOf s kind idx) (thermalLevel kind (levelOf s kind idx) r) wings)).mono
        (qs := [.core, .ctxs, .dbg, .fab, .lard, .pwr, .rep, .serve, .tt]) (gs := levelFlds) (by decide) (by decide)
    refine hu.trans ?_
    split
    · exact ((within_wingsTripped _ wings).append (within_trip_rest _ wings)).mono (by decide) (by decide)
    · exact Within.refl _ _ _

/-- The sensor's level is the one its reading leads to, and the other sensors' temperatures stay. -/
theorem setLevel_levels : levelOf (setLevel s kind idx r wings code) kind idx = thermalLevel kind (levelOf s kind idx) r ∧
    (setLevel s kind idx r wings code).pwr.vestTemp = s.pwr.vestTemp := by
  by_cases h : thermalLevel kind (levelOf s kind idx) r = levelOf s kind idx
  · rw [setLevel_of_same h]
    exact ⟨h.symm, rfl⟩
  · generalize hnew : thermalLevel kind (levelOf s kind idx) r = new at h
    rw [setLevel_of_new hnew h]
    dsimp only
    set seen := levelSeen s kind idx new r with hseen
    set alerting := levelAlert seen (100 * kind + idx) code (levelOf s kind idx) new wings with halerting
    have hrest : LevelsKept seen (if new = 3 then trip alerting wings else alerting) := by
      refine LevelsKept.trans (t := alerting)
        (levelsKept_levelAlert seen (100 * kind + idx) code (levelOf s kind idx) new wings) ?_
      split
      · exact levelsKept_trip _ wings
      · exact ⟨rfl, rfl⟩
    have hkept : LevelsKept (levelKept s kind idx new) seen := levelsKept_of_pwr (levelSeen_pwr s kind idx new r)
    exact ⟨(levelOf_congr (hkept.trans hrest) kind idx).trans (levelOf_levelKept s kind idx new), (hkept.trans hrest).2⟩

/-- A wing whose sensor goes to ALARM or TRIP from below runs at G0 (R328, R329). -/
theorem rd_setLevel_current {w : Nat} (hw : w ∈ wings) (hw4 : w < 4) (hold : levelOf s kind idx < 2)
    (hhot : 2 ≤ thermalLevel kind (levelOf s kind idx) r) (hquiet : ∀ a ∈ s.pwr.alerts, a.src = 100 * kind + idx → a.ended ≠ none) :
    rd (setLevel s kind idx r wings code) .DRL_GEAR_CURRENT w = 0 := by
  generalize hnew : thermalLevel kind (levelOf s kind idx) r = new at hhot
  rw [setLevel_of_new hnew (by omega)]
  dsimp only
  split
  · exact rd_trip_current hw hw4
  · next h3 =>
    have h2 : new = 2 := by
      have hmax : thermalLevel kind (levelOf s kind idx) r ≤ 3 := by
        unfold thermalLevel
        dsimp only
        split_ifs <;> omega
      omega
    rw [levelAlert, if_pos h2]
    refine (alertOn_forces code wings 0 (List.any_eq_false.mpr fun a ha => ?_) hw hw4).1
    rw [levelSeen_pwr] at ha
    have := hquiet a ha
    simp only [Bool.and_eq_true, beq_iff_eq, not_and, Option.isNone_iff_eq_none]
    exact this

end SetLevel

/-! Readings -/

theorem wingReading_congr {w : Nat} (h : ∀ i, i < 40 → rd t .HUB_PWR_TEMP (w * 40 + i) = rd s .HUB_PWR_TEMP (w * 40 + i)) :
    wingReading t w = wingReading s w := by
  unfold wingReading
  rw [List.map_congr_left fun i hi => h i (List.mem_range.mp hi)]

/-- The hottest sensor of a hub's wing is at least that hub's. -/
theorem rd_le_wingReading (s : State) (h : Nat) : rd s .HUB_PWR_TEMP h ≤ wingReading s (h / 40) := by
  refine le_foldl_max_iff.mpr (Or.inr ⟨_, List.mem_map.mpr ⟨h % 40, List.mem_range.mpr (Nat.mod_lt _ (by simp)), rfl⟩, ?_⟩)
  rw [Nat.div_add_mod' h 40]

section Hub
variable {at_ h r : Nat} (hh : h < 160)

/-- A hub's reading, and its wing's, are shown. -/
def hubHeated (s : State) (h r : Nat) : State :=
  let u := wr s .HUB_PWR_TEMP h r
  wr u .DRL_TEMP (h / 40) (wingReading u (h / 40))

theorem within_hubHeated (s : State) (h r : Nat) : Within [] [.HUB_PWR_TEMP, .DRL_TEMP] s (hubHeated s h r) := by
  unfold hubHeated
  exact ((within_wr s _ _ _).append (within_wr _ _ _ _)).mono (by simp) (by simp)

theorem wingReading_hubHeated (s : State) (h r w : Nat) : wingReading (hubHeated s h r) w = wingReading (wr s .HUB_PWR_TEMP h r) w :=
  wingReading_congr fun _ _ => rd_wr_ne _ _ _ _ _ _ (by simp)

theorem rd_hubHeated (s : State) (h r : Nat) : rd (hubHeated s h r) .HUB_PWR_TEMP h = r ∧
    rd (hubHeated s h r) .DRL_TEMP (h / 40) = wingReading (hubHeated s h r) (h / 40) :=
  ⟨(rd_wr_ne _ _ _ _ _ _ (by simp)).trans (rd_wr_same _ _ _ _), (rd_wr_same _ _ _ _).trans (wingReading_hubHeated s h r _).symm⟩

/-- The state after a hub's reading. -/
def hubLevelled (s : State) (at_ h r : Nat) : State :=
  let u := hubHeated (tick s at_) h (min r 4095)
  setLevel u 1 (h / 40) (wingReading u (h / 40)) [h / 40] (0x40 + h / 40)

theorem levelOf_settled (s u : State) (kind idx : Nat) : levelOf (settled s u) kind idx = levelOf u kind idx := rfl

theorem levelOf_hubHeated (s : State) (at_ h r kind idx : Nat) : levelOf (hubHeated (tick s at_) h r) kind idx = levelOf s kind idx :=
  levelOf_congr (((within_tick s at_).levelsKept).trans (within_hubHeated _ h r).levelsKept) kind idx

theorem within_hubLevelled (s : State) (at_ h r : Nat) :
    Within [.core, .ctxs, .dbg, .fab, .lard, .pwr, .rep, .serve, .tt] levelFlds (hubHeated (tick s at_) h (min r 4095))
      (hubLevelled s at_ h r) := within_setLevel _ _ _ _ _ _

theorem wingReading_hubLevelled (s : State) (at_ h r w : Nat) :
    wingReading (settled s (hubLevelled s at_ h r)) w = wingReading (hubHeated (tick s at_) h (min r 4095)) w :=
  wingReading_congr fun _ _ =>
    (rd_settled_other _ _ _ _ (by decide)).trans ((within_hubLevelled s at_ h r).regs _ _ (by decide))

include hh

theorem exec_thermalLevel_hub : exec (.thermalLevel at_ (.hub h) r) s = settle s (hubLevelled s at_ h r) := by
  show execThermalLevel at_ (.hub h) r s = _
  unfold execThermalLevel
  dsimp only
  rw [if_neg (not_le.mpr hh), hubLevelled, wingReading_hubHeated]
  rfl

theorem thermalLevel_hub : Runs (.thermalLevel at_ (.hub h) r) s fun v =>
    rd v .HUB_PWR_TEMP h = min r 4095 ∧ rd v .DRL_TEMP (h / 40) = wingReading v (h / 40) ∧
    levelOf v 1 (h / 40) = thermalLevel 1 (levelOf s 1 (h / 40)) (wingReading v (h / 40)) := by
  have hframe := within_hubLevelled s at_ h r
  obtain ⟨hhub, hwing⟩ := rd_hubHeated (tick s at_) h (min r 4095)
  refine runs_of_settle (exec_thermalLevel_hub hh) ⟨?_, ?_, ?_⟩
  · rw [rd_settled_other _ _ _ _ (by decide), hframe.regs _ _ (by decide), hhub]
  · rw [rd_settled_other _ _ _ _ (by decide), hframe.regs _ _ (by decide), hwing, wingReading_hubLevelled]
  · rw [wingReading_hubLevelled, levelOf_settled, ← levelOf_hubHeated s at_ h (min r 4095)]
    exact (setLevel_levels (hubHeated (tick s at_) h (min r 4095)) 1 (h / 40) _ [h / 40] (0x40 + h / 40)).1

/-- At 105 °C or more a wing without an alert of its own goes to G0. -/
theorem thermalLevel_hub_hot (hhot : 1050 ≤ r) (hlevel : ∀ l ∈ s.pwr.levels, ¬ (l.1 = 1 ∧ l.2.1 = h / 40))
    (hquiet : ∀ a ∈ s.pwr.alerts, a.src = 100 + h / 40 → a.ended ≠ none) : Runs (.thermalLevel at_ (.hub h) r) s fun v =>
      rd v .HUB_PWR_TEMP h = min r 4095 ∧ rd v .DRL_GEAR_CURRENT (h / 40) = 0 ∧ v.mem = s.mem := by
  have hframe := within_hubLevelled s at_ h r
  have hhub := (rd_hubHeated (tick s at_) h (min r 4095)).1
  have hcold : levelOf (hubHeated (tick s at_) h (min r 4095)) 1 (h / 40) = 0 :=
    (levelOf_hubHeated s at_ h _ 1 (h / 40)).trans (levelOf_eq_zero hlevel)
  have hreading : 1050 ≤ wingReading (hubHeated (tick s at_) h (min r 4095)) (h / 40) := by
    have := rd_le_wingReading (hubHeated (tick s at_) h (min r 4095)) h
    rw [hhub] at this
    omega
  have hwing : h / 40 < 4 := by omega
  refine runs_of_settle (exec_thermalLevel_hub hh) ⟨?_, ?_, ?_⟩
  · rw [rd_settled_other _ _ _ _ (by decide), hframe.regs _ _ (by decide), hhub]
  · rw [rd_settled_other _ _ _ _ (by decide), hubLevelled]
    refine rd_setLevel_current _ _ _ _ _ _ (List.mem_singleton_self _) hwing (by omega) ?_ hquiet
    rw [hcold, thermalLevel]
    dsimp only
    rw [if_pos rfl]
    split_ifs <;> omega
  · have hmem := (((within_tick s at_).append (within_hubHeated _ h (min r 4095))).append hframe).parts .mem (by simp)
    rw [settled_mem]
    exact hmem

end Hub

section Stack
variable {at_ n r : Nat} (hn : n < 12)
include hn

theorem exec_thermalLevel_stack : exec (.thermalLevel at_ (.stack n) r) s = settle s
    (setLevel (wr (tick s at_) .DRL_STACK_TEMP n (min r 4095)) 2 n (min r 4095) [n / 3] (0x40 + n / 3)) := by
  show execThermalLevel at_ (.stack n) r s = _
  unfold execThermalLevel
  dsimp only
  rw [if_neg (not_le.mpr hn)]

theorem thermalLevel_stack : Runs (.thermalLevel at_ (.stack n) r) s fun v =>
    rd v .DRL_STACK_TEMP n = min r 4095 ∧ levelOf v 2 n = thermalLevel 2 (levelOf s 2 n) (min r 4095) := by
  have hframe := within_setLevel (wr (tick s at_) .DRL_STACK_TEMP n (min r 4095)) 2 n (min r 4095) [n / 3] (0x40 + n / 3)
  refine runs_of_settle (exec_thermalLevel_stack hn) ⟨?_, (setLevel_levels _ _ _ _ _ _).1⟩
  rw [rd_settled_other _ _ _ _ (by decide), hframe.regs _ _ (by decide), rd_wr_same]

/-- Below 85 °C a stack without a level gets none. -/
theorem thermalLevel_stack_cold (hcool : r < 850) (hlevel : ∀ l ∈ s.pwr.levels, ¬ (l.1 = 2 ∧ l.2.1 = n)) :
    Runs (.thermalLevel at_ (.stack n) r) s fun v =>
      rd v .DRL_STACK_TEMP n = r ∧ KeptBut [.now] s v ∧ RegsKept [(.DRL_STACK_TEMP, n)] s v := by
  have hmin : min r 4095 = r := by omega
  have hcold : levelOf (wr (tick s at_) .DRL_STACK_TEMP n r) 2 n = 0 := levelOf_eq_zero hlevel
  have hnone : thermalLevel 2 0 r = 0 := by
    unfold thermalLevel
    dsimp only
    rw [if_neg (show ¬ (2 : Nat) = 1 by simp), if_pos (show (2 : Nat) = 2 from rfl), if_neg (by omega), if_neg (by omega), if_neg (by omega)]
  have hexec := exec_thermalLevel_stack (s := s) (at_ := at_) (r := r) hn
  rw [hmin, setLevel_of_same (by rw [hcold, hnone])] at hexec
  exact runs_of_settle hexec ⟨by rw [rd_settled_other _ _ _ _ (by decide), rd_wr_same],
    ((within_tick s at_).toWithinAt.trans (withinAt_wr _ _ _ _)).settled⟩

end Stack

theorem thermalLevel_vestibule (s : State) (at_ r : Nat) : Runs (.thermalLevel at_ .vestibule r) s fun v =>
    v.pwr.vestTemp = min r 4095 ∧ levelOf v 4 0 = thermalLevel 4 (levelOf s 4 0) (min r 4095) := by
  have hexec : exec (.thermalLevel at_ .vestibule r) s = settle s
      (setLevel (updPwr (tick s at_) fun p => { p with vestTemp := min r 4095 }) 4 0 (min r 4095) [0, 1, 2, 3] 19) := rfl
  obtain ⟨hlevel, htemp⟩ := setLevel_levels (updPwr (tick s at_) fun p => { p with vestTemp := min r 4095 }) 4 0 (min r 4095)
    [0, 1, 2, 3] 19
  exact runs_of_settle hexec ⟨htemp, hlevel⟩

/-! The inlet -/

/-- The inlet's reading is shown, with the drop it demands. -/
def inletSeen (s : State) (r : Nat) : State :=
  updPwr (wrb (wr s .PWR_INLET 0 r) .PWR_STATUS_INLET_HIGH 0 (decide (450 < r))) fun p => { p with
    inletDrop := (r - 450) / 20
    levels := p.levels.filter (fun l => l.1 != 3) ++ (if decide (450 ≤ r) then [(3, 0, 4)] else []) }

/-- A change of the inlet's level has its record. -/
def inletReported (s : State) (before : Bool) (r : Nat) : State :=
  if before = decide (450 ≤ r) then s else thermalRecord s 3 0 (if decide (450 ≤ r) then 4 else 5) r

theorem within_inletReported (s : State) (before : Bool) (r : Nat) :
    Within [.rep] (reportFlds ++ [.EVC_STATUS_POWER]) s (inletReported s before r) := by
  unfold inletReported
  split
  · exact Within.refl _ _ s
  · exact within_thermalRecord s _ _ _ _

theorem within_inletSeen (s : State) (r : Nat) : Within [.pwr] [.PWR_INLET, .PWR_STATUS_INLET_HIGH] s (inletSeen s r) :=
  (((within_wr s _ _ _).append (within_wrb _ _ _ _)).append (within_pwr _ _)).mono (by simp) (by simp)

theorem rd_inletSeen (s : State) (r : Nat) : rd (inletSeen s r) .PWR_INLET = r ∧
    rd (inletSeen s r) .PWR_STATUS_INLET_HIGH = (if 450 < r then 1 else 0) := by
  refine ⟨(rd_wr_ne _ _ _ _ _ _ (by simp)).trans (rd_wr_same _ _ _ _), (rd_wr_same _ _ _ _).trans ?_⟩
  simp [b2n]

theorem thermalLevel_inlet (s : State) (at_ r : Nat) : Runs (.thermalLevel at_ .inlet r) s fun v =>
    rd v .PWR_INLET = min r 4095 ∧ rd v .PWR_STATUS_INLET_HIGH = (if 450 < min r 4095 then 1 else 0) ∧
    v.pwr.inletDrop = (min r 4095 - 450) / 20 ∧
    (∀ x, x < 4 → rd v .DRL_GEAR_CEILING x = ceilingNow v x) ∧
    Frame [.now, .pwr, .rep] (reportFlds ++ [.PWR_INLET, .PWR_STATUS_INLET_HIGH, .EVC_STATUS_POWER, .DRL_GEAR_CEILING,
      .DRL_GEAR_CEILING_PENDING]) s v := by
  set m := min r 4095
  set seen := inletSeen (tick s at_) m with hseen
  set told := inletReported seen (s.pwr.levels.any (fun l => l.1 == 3)) m with htold
  have hexec : exec (.thermalLevel at_ .inlet r) s = settle s (setCeilings told) := rfl
  have hreport : Within [.rep] (reportFlds ++ [.EVC_STATUS_POWER]) seen told := within_inletReported _ _ _
  have hrest := hreport.append (within_setCeilings told)
  obtain ⟨hinlet, hhigh⟩ := rd_inletSeen (tick s at_) m
  refine runs_of_settle hexec ⟨?_, ?_, ?_, fun x hx => ?_, ?_⟩
  · rw [rd_settled_other _ _ _ _ (by decide), hrest.regs _ _ (by decide), hinlet]
  · rw [rd_settled_other _ _ _ _ (by decide), hrest.regs _ _ (by decide), hhigh]
  · obtain ⟨l, hl⟩ := setCeilings_pwr told
    rw [settled_pwr, hl, show told.pwr = seen.pwr from hreport.parts .pwr (by simp)]
    rfl
  · rw [rd_settled_other _ _ _ _ (by decide), rd_setCeilings _ hx, ceilingNow_settled]
  · exact (((within_inletSeen (tick s at_) m).append hrest).afterTick.mono (by simp) (by decide)).settled

end Sys2Proof.Machine
end

section
/-! O52: the rails that fail (R334). -/

namespace Sys2Proof.Machine

variable {s t u : State}

/-! Channels that a failed stack retires -/

/-- No channel's state changed. -/
def ChansKept (s t : State) : Prop := ∀ n, rd t .HBM_CH_STATE_STATE n = rd s .HBM_CH_STATE_STATE n

theorem ChansKept.refl (s : State) : ChansKept s s := fun _ => rfl

theorem ChansKept.trans (h : ChansKept s t) (k : ChansKept t u) : ChansKept s u := fun n => (k n).trans (h n)

theorem Within.chansKept {ps : List Part} {fs : List Fld} (h : Within ps fs s t)
    (hf : .HBM_CH_STATE_STATE ∉ fs := by decide) : ChansKept s t := fun n => h.regs _ n hf

theorem chansKept_each {α : Type} {f : State → α → State} (hf : ∀ s a, ChansKept s (f s a)) (l : List α) (s : State) :
    ChansKept s (each l s f) := each_rel ChansKept.refl ChansKept.trans hf l s

theorem chansKept_endItems (s : State) (p : Item → Bool) (code detail : Nat) : ChansKept s (endItems s p code detail) :=
  (frame_endItems s p code detail).chansKept

theorem chansKept_startRelease (s : State) (slot : Nat) (item : Option (Nat × Nat)) (teardown : Bool) :
    ChansKept s (startRelease s slot item teardown) := (within_startRelease s slot item teardown).chansKept

theorem chansKept_loseSession (s : State) (i : Nat) : ChansKept s (loseSession s i) := by
  unfold loseSession
  exact (chansKept_endItems s _ 0x20 0).trans (frame_freeSession _ _).chansKept

theorem chansKept_dropJob (s : State) (n code detail : Nat) : ChansKept s (dropJob s n code detail) := by
  unfold dropJob
  split
  · exact ChansKept.refl s
  · next j _ =>
    extract_lets dropped counted ended a zeroed
    have hcounted : ChansKept s counted := ((within_pann s _).append (within_wr dropped _ _ _)).chansKept
    have hzeroed : ChansKept s zeroed :=
      (hcounted.trans (chansKept_endItems counted _ code detail)).trans (within_zeroRange ended a _).chansKept
    split
    · exact hzeroed
    · exact hzeroed.trans (chansKept_startRelease _ _ _ _)

theorem chansKept_parkForCover (w : Nat) : ∀ (l : List Nat) (s : State) (g : Nat), ChansKept s (parkForCover w l s g).1
  | [], s, g => ChansKept.refl s
  | i :: r, s, g => by
    unfold parkForCover
    split
    · exact ChansKept.refl s
    · split
      · next f _ _ =>
        dsimp only
        split
        · exact chansKept_parkForCover w r s g
        · exact (park_parkSession s f i).chansKept.trans (chansKept_parkForCover w r _ _)
      · exact chansKept_parkForCover w r s g

theorem chansKept_endForCover (w g : Nat) : ∀ (l : List Item) (s : State), ChansKept s (endForCover w g l s)
  | [], s => ChansKept.refl s
  | x :: r, s => by
    unfold endForCover
    split
    · exact ChansKept.refl s
    · refine ChansKept.trans ?_ (chansKept_endForCover w g r _)
      split
      · split
        · exact (frame_endItem _ _ _ _ _).chansKept
        · exact ChansKept.refl s
      · exact ChansKept.refl s

theorem chansKept_coverReservations (s : State) (w : Nat) : ChansKept s (coverReservations s w) := by
  unfold coverReservations
  exact (chansKept_parkForCover w _ s 0).trans (chansKept_endForCover w _ _ _)

theorem chansKept_loseModel (s : State) (w k m : Nat) : ChansKept s (loseModel s w k m) := by
  unfold loseModel
  split
  · exact ChansKept.refl s
  · have hrecord : ∀ x : State, ChansKept x (weightRecord x w 4 k m) := fun x => (within_report x 0x09 w _ _ _ _).chansKept
    exact ((within_serve s _).chansKept.trans (hrecord _)).trans (chansKept_endItems _ _ 0x20 0)

theorem chansKept_stallOnWeights (s : State) : ChansKept s (stallOnWeights s) := by
  unfold stallOnWeights
  split
  · exact (within_tt s _).chansKept
  · exact ChansKept.refl s

/-- A fold that may give up keeps the channels if each of its steps does. -/
theorem chansKept_foldl_bind {α : Type} {f : State → α → Option State} (hf : ∀ {x a y}, f x a = some y → ChansKept x y)
    (l : List α) {s v : State} (h : l.foldl (fun acc a => acc.bind fun x => f x a) (some s) = some v) : ChansKept s v := by
  induction l generalizing s with
  | nil =>
    obtain rfl := Option.some.inj h
    exact ChansKept.refl s
  | cons a r ih =>
    rw [List.foldl_cons, Option.bind_some] at h
    cases hfirst : f s a with
    | none =>
      rw [hfirst, List.foldl_fixed' (fun _ => rfl)] at h
      exact absurd h (by simp)
    | some x =>
      rw [hfirst] at h
      exact (hf hfirst).trans (ih h)

theorem chansKept_relayWing {w : Nat} (h : relayWing s w = some u) : ChansKept s u := by
  unfold relayWing at h
  extract_lets onWing put bare at h
  have hput : ∀ x n rows mask, ChansKept x (put x n rows mask) := fun x _ _ _ => (within_serve x _).chansKept
  have hbare : ChansKept s bare := chansKept_each (fun _ _ => hput _ _ _ _) _ _
  refine hbare.trans (chansKept_foldl_bind (fun {x e y} hy => ?_) _ h)
  obtain ⟨k, -, rfl⟩ := Option.map_eq_some_iff.mp hy
  exact hput _ _ _ _

theorem rd_setChan (s : State) (c v row n : Nat) :
    rd (setChan s c v row) .HBM_CH_STATE_STATE n = if n = c then v else rd s .HBM_CH_STATE_STATE n := by
  unfold setChan
  extract_lets set_ saved recent
  have hrest : ChansKept set_ (report saved 0x08 c [(1, row, false), (4, recent, false), (2, chanPoison saved c, false)]) :=
    (within_saveRetirement set_ _).chansKept.trans (within_report saved _ _ _ _ _ _).chansKept
  rw [hrest n, rd_wr]
  simp

/-- A channel that is retired is the only one whose state changes (R271). -/
theorem rd_retireChan (s : State) (c row n : Nat) :
    rd (retireChan s c row) .HBM_CH_STATE_STATE n = if n = c then 2 else rd s .HBM_CH_STATE_STATE n := by
  unfold retireChan
  split
  · next h => split <;> simp_all
  · extract_lets set_ lost released
    have hlost : ChansKept set_ lost := chansKept_each chansKept_loseSession _ _
    have hreleased : ChansKept lost released := by
      refine chansKept_each (fun x k => ?_) _ _
      dsimp only
      split
      · exact (chansKept_endItems x _ 0x20 0).trans (chansKept_startRelease _ _ _ _)
      · exact chansKept_endItems x _ 0x20 0
    have hjobs : ChansKept released (each (jobsOn released c) released fun t n => dropJob t n 0x20 0) :=
      chansKept_each (fun x j => chansKept_dropJob x j 0x20 0) _ _
    rw [(((hlost.trans hreleased).trans hjobs).trans (chansKept_coverReservations _ _)) n, rd_setChan]

/-- The channels of a stack, one after the other. -/
def stackRetired (s : State) (stack : Nat) : State := each (List.range 32) s fun x i => retireChan x (stack * 32 + i) 5

theorem chansKept_stackFails (s : State) (stack : Nat) (room : Bool) : ChansKept (stackRetired s stack) (stackFails s stack room) := by
  unfold stackFails
  extract_lets w retired onWing
  show ChansKept retired _
  have hlost : ChansKept retired (each onWing retired fun x e => loseModel x w (e.2.weightRows.getD w (0, 0)).1 e.1) :=
    chansKept_each (fun x e => chansKept_loseModel x w _ _) _ _
  split
  · exact ChansKept.refl retired
  · split
    · next hrelay =>
      exact ((chansKept_relayWing hrelay).trans (within_mem _ _).chansKept).trans (chansKept_stallOnWeights _)
    · exact hlost

/-- A failed stack's channels are RETIRED. -/
theorem rd_stackFails_own (s : State) (stack : Nat) (room : Bool) {i : Nat} (hi : i < 32) :
    rd (stackFails s stack room) .HBM_CH_STATE_STATE (stack * 32 + i) = 2 := by
  rw [chansKept_stackFails s stack room]
  exact each_reach (p := fun x => rd x .HBM_CH_STATE_STATE (stack * 32 + i) = 2) (a := i)
    (fun x => by rw [rd_retireChan, if_pos rfl]) (fun x j hx => by rw [rd_retireChan, hx, ite_self]) (List.mem_range.mpr hi) s

/-- What was RETIRED stays so. -/
theorem rd_stackFails_retired (stack : Nat) (room : Bool) {n : Nat} (h : rd s .HBM_CH_STATE_STATE n = 2) :
    rd (stackFails s stack room) .HBM_CH_STATE_STATE n = 2 := by
  rw [chansKept_stackFails s stack room]
  exact each_keep (p := fun x => rd x .HBM_CH_STATE_STATE n = 2) _ (fun x j hx => by rw [rd_retireChan, hx, ite_self]) _ s h

/-! Hubs that a failed wing takes out -/

/-- What the failure of a hub keeps: the power state, the lead, and that a reset is under way and hubs are out of placement. -/
structure HubFailureKept (s t : State) : Prop where
  pwr : t.pwr = s.pwr
  lead : ∀ n, rd t .INTEG_LEAD_LEAD_WING n = rd s .INTEG_LEAD_LEAD_WING n
  busy : rd s .RESET_STATUS_BUSY = 1 → rd t .RESET_STATUS_BUSY = 1
  out : ∀ n, rd s .INTEG_HUB_OUT n = 1 → rd t .INTEG_HUB_OUT n = 1

theorem HubFailureKept.refl (s : State) : HubFailureKept s s := ⟨rfl, fun _ => rfl, id, fun _ => id⟩

theorem HubFailureKept.trans (h : HubFailureKept s t) (k : HubFailureKept t u) : HubFailureKept s u :=
  ⟨k.pwr.trans h.pwr, fun n => (k.lead n).trans (h.lead n), k.busy ∘ h.busy, fun n => k.out n ∘ h.out n⟩

theorem Within.hubFailureKept {ps : List Part} {fs : List Fld} (h : Within ps fs s t) (hp : Part.pwr ∉ ps := by decide)
    (hf : .INTEG_LEAD_LEAD_WING ∉ fs ∧ .RESET_STATUS_BUSY ∉ fs ∧ .INTEG_HUB_OUT ∉ fs := by decide) : HubFailureKept s t :=
  ⟨h.parts .pwr hp, fun n => h.regs _ n hf.1, fun hb => (h.regs _ 0 hf.2.1).trans hb, fun n ho => (h.regs _ n hf.2.2).trans ho⟩

theorem hubFailureKept_each {α : Type} {f : State → α → State} (hf : ∀ s a, HubFailureKept s (f s a)) (l : List α) (s : State) :
    HubFailureKept s (each l s f) := each_rel HubFailureKept.refl HubFailureKept.trans hf l s

theorem hubFailureKept_abortHubTasks (s : State) (h detail : Nat) : HubFailureKept s (abortHubTasks s h detail) := by
  unfold abortHubTasks
  refine hubFailureKept_each (fun x e => ?_) _ s
  exact (queueFrame_endTask x e.1 e.2 0x23 detail).within.hubFailureKept

/-- A hub reset leaves the fields of its own class and of the higher ones. -/
theorem hubFailureKept_hubReset (s : State) (h : Nat) : HubFailureKept s (hubReset s h) := by
  have hregs : ∀ f, keptRank .hub ≤ keptRank (fieldRow f).kept → f ∉ [Fld.DBG_STATUS_FROZEN, .DBG_STATUS_HALTED] →
      ∀ n, rd (hubReset s h) f n = rd s f n := by
    intro f hkept hf n
    unfold hubReset
    extract_lets reset uncached idle untrailed
    have hlost : rd (loseHubMemory untrailed h) f n = rd reset f n := rfl
    exact ((within_settleDebug _).regs _ _ hf).trans (hlost.trans (rd_resetRegs_of_kept hkept s _ n))
  exact ⟨rfl, hregs _ (by decide) (by decide), fun hb => (hregs _ (by decide) (by decide) 0).trans hb,
    fun n ho => (hregs _ (by decide) (by decide) n).trans ho⟩

/-- A hub's reset has begun to be shown: BUSY, with the hub out of placement. -/
def hubResetShown (s : State) (h : Nat) : State :=
  wr (wr (wr s .RESET_STATUS_BUSY 0 1) .RESET_STATUS_LAST_KIND 0 1) .INTEG_HUB_OUT h 1

theorem hubFailureKept_hubResetShown (s : State) (h : Nat) : HubFailureKept s (hubResetShown s h) :=
  ⟨rfl, fun n => by simp [hubResetShown, rd_wr], fun _ => by simp [hubResetShown, rd_wr],
    fun n ho => by simp [hubResetShown, rd_wr, ho]⟩

theorem beginHubReset_shown (s : State) (h trigger : Nat) :
    HubFailureKept (hubResetShown (abortHubTasks s h 0x02) h) (beginHubReset s h trigger) := by
  unfold beginHubReset
  extract_lets n aborted reported thinned
  have hthinned : HubFailureKept (hubResetShown aborted h) thinned :=
    ((within_report (hubResetShown aborted h) 0x21 h _ _ _ _).append (within_core reported _)).hubFailureKept
  refine hthinned.trans ?_
  split
  · exact (within_boot thinned _).hubFailureKept
  · exact (hubFailureKept_hubReset thinned h).trans (within_boot _ _).hubFailureKept

theorem hubFailureKept_beginHubReset (s : State) (h trigger : Nat) : HubFailureKept s (beginHubReset s h trigger) :=
  ((hubFailureKept_abortHubTasks s h 0x02).trans (hubFailureKept_hubResetShown _ h)).trans (beginHubReset_shown s h trigger)

theorem rd_beginHubReset_busy (s : State) (h trigger : Nat) : rd (beginHubReset s h trigger) .RESET_STATUS_BUSY = 1 :=
  (beginHubReset_shown s h trigger).busy (by simp [hubResetShown, rd_wr])

theorem hubFailureKept_setHubState (s : State) (h trigger : Nat) : HubFailureKept s (setHubState s h 2 trigger) := by
  have hframe := (stateFrame_setHubState s h 2 trigger).within
  refine ⟨hframe.parts .pwr (by decide), fun n => hframe.regs _ n (by decide), fun hb => (hframe.regs _ 0 (by decide)).trans hb,
    fun n ho => ?_⟩
  unfold setHubState
  extract_lets before recorded
  have hrecorded : HubFailureKept s recorded :=
    (((within_wr s .INTEG_HUB_STATE h 2).append (within_saveHub _ h)).append (within_report _ 0x05 h _ _ _ _)).hubFailureKept
  rw [if_pos rfl]
  refine each_keep (p := fun x => rd x .INTEG_HUB_OUT n = 1) _ (fun x p hx => (rd_markRetired_out x _ _ _ n).trans hx) _ _ ?_
  rw [rd_wr]
  split
  · rfl
  · exact hrecorded.out n ho

theorem hubFailed_shown (s : State) (h : Nat) : ∃ x, HubFailureKept s x ∧ HubFailureKept (beginHubReset x h 1) (hubFailed s h) := by
  unfold hubFailed
  extract_lets times recorded begun
  refine ⟨freezeHub recorded h 3, ?_, ?_⟩
  · exact (((within_core s _).append (within_report _ 0x0A h _ _ _ _)).append (within_freezeHub recorded h 3)).hubFailureKept
  · split
    · exact hubFailureKept_setHubState begun h 3
    · exact HubFailureKept.refl begun

theorem hubFailureKept_hubFailed (s : State) (h : Nat) : HubFailureKept s (hubFailed s h) := by
  obtain ⟨x, hx, hfailed⟩ := hubFailed_shown s h
  exact (hx.trans (hubFailureKept_beginHubReset x h 1)).trans hfailed

theorem rd_hubFailed_busy (s : State) (h : Nat) : rd (hubFailed s h) .RESET_STATUS_BUSY = 1 := by
  obtain ⟨x, -, hfailed⟩ := hubFailed_shown s h
  exact hfailed.busy (rd_beginHubReset_busy x h 1)

/-- The wing is out of service and its hubs have failed, before its lead is looked at. -/
def wingHubsFailed (s : State) (w : Nat) : State :=
  each (List.range 40) (updPwr s fun p => { p with wingsOut := (p.wingsOut ++ [w]).eraseDups }) fun t i => hubFailed t (w * 40 + i)

theorem wingFails_eq (s : State) (w : Nat) : wingFails s w =
    if rd (wingHubsFailed s w) .INTEG_LEAD_LEAD_WING = w then leadFails (wingHubsFailed s w) else wingHubsFailed s w := rfl

theorem hubFailureKept_wingHubsFailed (s : State) (w : Nat) :
    HubFailureKept (updPwr s fun p => { p with wingsOut := (p.wingsOut ++ [w]).eraseDups }) (wingHubsFailed s w) :=
  hubFailureKept_each (fun x i => hubFailureKept_hubFailed x (w * 40 + i)) _ _

theorem rd_wingHubsFailed_busy (s : State) (w : Nat) : rd (wingHubsFailed s w) .RESET_STATUS_BUSY = 1 := by
  unfold wingHubsFailed
  refine each_reach (p := fun x => rd x .RESET_STATUS_BUSY = 1) (a := 0) (fun x => ?_) (fun x i hx => ?_)
    (List.mem_range.mpr (by simp)) _
  · exact rd_hubFailed_busy x (w * 40 + 0)
  · exact (hubFailureKept_hubFailed x (w * 40 + i)).busy hx

theorem rd_wingHubsFailed_out (s : State) (w : Nat) {i : Nat} (hi : i < 40) :
    rd (wingHubsFailed s w) .INTEG_HUB_OUT (w * 40 + i) = 1 := by
  unfold wingHubsFailed
  refine each_reach (p := fun x => rd x .INTEG_HUB_OUT (w * 40 + i) = 1) (a := i) (fun x => ?_) (fun x j hx => ?_)
    (List.mem_range.mpr hi) _
  · exact rd_hubFailed_out x (w * 40 + i)
  · exact (hubFailureKept_hubFailed x (w * 40 + j)).out _ hx

/-! The failure of the lead -/

theorem rd_takeover_busy (s : State) : rd (takeover s) .RESET_STATUS_BUSY = rd s .RESET_STATUS_BUSY := by
  unfold takeover
  extract_lets old lead sh led saved
  have hled := ((within_wr s .INTEG_LEAD_LEAD_WING 0 lead).append (within_wr _ .INTEG_LEAD_SHADOW_WING 0 sh)).append
    (within_inc _ .INTEG_LEAD_TAKEOVERS 0 1)
  exact (((hled.append (within_saveRetirement led _)).append (within_report saved 0x0A (lead * 40) _ _ _ _)).append
    (within_trail _ vestTrail 0x43 0 lead sh)).regs _ 0 (by decide)

theorem rd_wingRegs_of_kept {f : Fld} {rank : Nat} (hkept : rank ≤ keptRank (fieldRow f).kept) (s : State) (n : Nat) :
    rd (wingRegs s rank) f n = rd s f n := by
  unfold wingRegs loseTables
  rw [rd_updTt, rd_resetRegs_of_kept hkept, rd_updCore]

theorem rd_warmReset_busy {trigger : Nat} (h : rd s .RESET_STATUS_BUSY = 1) : rd (warmReset s trigger) .RESET_STATUS_BUSY = 1 := by
  unfold warmReset
  split
  · exact h
  · split
    · exact ((within_startExit (updBoot s _) 3).regs _ _ (by decide)).trans h
    · extract_lets stopped shown lost debugged idle
      have hshown : rd shown .RESET_STATUS_BUSY = 1 := by simp [shown, rd_wr]
      have hplan : rd (dropParks (dropPlan shown)) .RESET_STATUS_BUSY = 1 := by
        rw [← hshown]
        exact ((((within_wr shown .CTX_WINDOW_OPEN 0 0).append (within_wr _ .CTX_WINDOW_CTX 0 0)).append (within_tt _ _)).append
          (within_lard _ _)).regs _ _ (by decide)
      have hlost : rd lost .RESET_STATUS_BUSY = 1 :=
        (rd_wingRegs_of_kept (by decide) (dropParks (dropPlan shown)) 0).trans hplan
      exact ((within_settleDebug idle).regs .RESET_STATUS_BUSY 0 (by decide)).trans hlost

theorem rd_leadFails_busy (h : rd s .RESET_STATUS_BUSY = 1) : rd (leadFails s) .RESET_STATUS_BUSY = 1 := by
  unfold leadFails
  split
  · exact rd_warmReset_busy h
  · exact (rd_takeover_busy s).trans h

theorem rd_wingFails_busy (s : State) (w : Nat) : rd (wingFails s w) .RESET_STATUS_BUSY = 1 := by
  rw [wingFails_eq]
  split
  · exact rd_leadFails_busy (rd_wingHubsFailed_busy s w)
  · exact rd_wingHubsFailed_busy s w

/-- A wing that does not hold the lead goes out of service with all its hubs. -/
theorem wingFails_out {w : Nat} (h : rd s .INTEG_LEAD_LEAD_WING ≠ w) : w ∈ (wingFails s w).pwr.wingsOut ∧
    ∀ i, i < 40 → rd (wingFails s w) .INTEG_HUB_OUT (w * 40 + i) = 1 := by
  have hkept := hubFailureKept_wingHubsFailed s w
  have heq : wingFails s w = wingHubsFailed s w := by
    rw [wingFails_eq, if_neg ((hkept.lead 0).trans_ne h)]
  rw [heq, hkept.pwr]
  exact ⟨List.mem_eraseDups.mpr (List.mem_append_right _ (List.mem_singleton_self w)), fun i hi => rd_wingHubsFailed_out s w hi⟩

end Sys2Proof.Machine
end

section
/-! O52: rail faults, the input's voltage and HOTSWAP (R334, R464 to R466). -/

namespace Sys2Proof.Machine

variable {s : State} {t rail kind : Nat} {room : Bool}

/-! Rail faults -/

/-- A rail's fault, with its record. -/
def railReported (s : State) (t rail kind : Nat) : State := report (tick s t) 0x15 0 [(1, rail, false), (1, kind, false)]

/-- What a rail's fault leads to. -/
def railHandled (u : State) (rail kind : Nat) (room : Bool) : State :=
  let w := (rail - 3) % 4
  if kind = 4 then
    if 3 ≤ rail ∧ rail ≤ 18 then untrust (updPwr u fun p => { p with noTelemetry := (p.noTelemetry ++ [w]).eraseDups }) w else u
  else if rail = 0 then u
  else if 15 ≤ rail ∧ rail ≤ 18 then each [0, 1, 2] u fun x i => stackFails x (w * 3 + i) room
  else if 3 ≤ rail ∧ rail ≤ 18 then wingFails u w
  else settleGears (updPwr u fun p => { p with railForced := (p.railForced ++ [rail]).eraseDups })

theorem within_railReported (s : State) (t rail kind : Nat) : Within [.now, .rep] reportFlds s (railReported s t rail kind) :=
  (within_report (tick s t) 0x15 0 _ none 0 false).afterTick

theorem exec_railFault (hrail : rail ≤ 20) (h1 : 1 ≤ kind) (h4 : kind ≤ 4) :
    exec (.railFault t rail kind room) s = settle s (railHandled (railReported s t rail kind) rail kind room) := by
  show execRailFault t rail kind room s = _
  have hvalid : ¬ (20 < rail ∨ kind = 0 ∨ 4 < kind) := by omega
  unfold execRailFault railHandled
  dsimp only
  rw [if_neg hvalid]
  simp only [decide_eq_true_eq]
  rfl

/-- A failed rail of the module takes every wing to G0. -/
theorem railFault_forces (hrail : rail ∈ [1, 2, 19, 20]) (h1 : 1 ≤ kind) (h3 : kind ≤ 3) :
    Runs (.railFault t rail kind room) s fun v =>
      rail ∈ v.pwr.railForced ∧ (∀ w, w < 4 → rd v .DRL_GEAR_CURRENT w = 0) ∧ KeptBut [.now, .pwr, .rep] s v := by
  set reported := railReported s t rail kind with hreported
  set forced := updPwr reported fun p => { p with railForced := (p.railForced ++ [rail]).eraseDups } with hforced
  have hrange : rail ≤ 20 ∧ rail ≠ 0 ∧ ¬ (15 ≤ rail ∧ rail ≤ 18) ∧ ¬ (3 ≤ rail ∧ rail ≤ 18) := by
    simp only [List.mem_cons, List.not_mem_nil, or_false] at hrail
    omega
  obtain ⟨hle, h0, hstack, hwing⟩ := hrange
  have hexec := exec_railFault (s := s) (t := t) (room := room) hle h1 (by omega : kind ≤ 4)
  have hhandled : railHandled reported rail kind room = settleGears forced := by
    unfold railHandled
    dsimp only
    rw [if_neg (by omega), if_neg h0, if_neg hstack, if_neg hwing]
  rw [← hreported, hhandled] at hexec
  have hmem : rail ∈ forced.pwr.railForced := List.mem_eraseDups.mpr (List.mem_append_right _ (List.mem_singleton_self rail))
  refine runs_of_settle hexec ⟨?_, fun w hw => ?_, ?_⟩
  · rw [settled_pwr, settleGears_pwr]
    exact hmem
  · rw [rd_settled_other _ _ _ _ (by decide), rd_settleGears_current _ hw]
    exact gearInEffect_of_forced (Or.inr (Or.inl (List.ne_nil_of_mem hmem)))
  · exact ((((within_railReported s t rail kind).append (within_pwr _ _)).append (within_settleGears forced)).mono
      (qs := [.now, .pwr, .rep]) (by simp) (List.Subset.refl _)).settled.1

/-- Lost telemetry of a wing's rail makes its estimator UNTRUSTED. -/
theorem railFault_untrusts (hlo : 3 ≤ rail) (hhi : rail ≤ 18) : Runs (.railFault t rail 4 room) s fun v =>
    rd v .DRL_EST_STATE ((rail - 3) % 4) = 2 ∧ (rail - 3) % 4 ∈ v.pwr.noTelemetry ∧ KeptBut [.now, .pwr, .rep] s v := by
  set w := (rail - 3) % 4 with hw
  set reported := railReported s t rail 4 with hreported
  set lost := updPwr reported fun p => { p with noTelemetry := (p.noTelemetry ++ [w]).eraseDups } with hlost
  have hexec := exec_railFault (s := s) (t := t) (room := room) (kind := 4) (by omega : rail ≤ 20) (by simp) (by simp)
  have hhandled : railHandled reported rail 4 room = untrust lost w := by
    unfold railHandled
    dsimp only
    rw [if_pos rfl, if_pos ⟨hlo, hhi⟩]
  rw [← hreported, hhandled] at hexec
  refine runs_of_settle hexec ⟨?_, ?_, ?_⟩
  · rw [rd_settled_other _ _ _ _ (by decide), rd_untrust]
  · obtain ⟨l, hl⟩ := untrust_pwr lost w
    rw [settled_pwr, hl]
    exact List.mem_eraseDups.mpr (List.mem_append_right _ (List.mem_singleton_self w))
  · exact ((((within_railReported s t rail 4).append (within_pwr _ _)).append (within_untrust lost w)).mono
      (qs := [.now, .pwr, .rep]) (by simp) (List.Subset.refl _)).settled.1

/-- The other faults are recorded only. -/
theorem railFault_recorded (h : rail = 0 ∧ 1 ≤ kind ∧ kind ≤ 4 ∨ rail ∈ [1, 2, 19, 20] ∧ kind = 4) :
    Runs (.railFault t rail kind room) s fun v => Frame [.now, .rep] reportFlds s v := by
  have hrange : rail ≤ 20 ∧ 1 ≤ kind ∧ kind ≤ 4 ∧ ¬ (3 ≤ rail ∧ rail ≤ 18) ∧ (kind ≠ 4 → rail = 0) := by
    simp only [List.mem_cons, List.not_mem_nil, or_false] at h
    omega
  obtain ⟨hle, h1, h4, hwing, hhotswap⟩ := hrange
  have hexec := exec_railFault (s := s) (t := t) (room := room) hle h1 h4
  have hhandled : railHandled (railReported s t rail kind) rail kind room = railReported s t rail kind := by
    unfold railHandled
    dsimp only
    split
    · rfl
    · next hkind => rw [if_pos (hhotswap hkind)]
  rw [hhandled] at hexec
  exact runs_of_settle hexec (within_railReported s t rail kind).settled

/-- A failed VHBM fails the three stacks of its wing. -/
theorem railFault_stacks (hlo : 15 ≤ rail) (hhi : rail ≤ 18) (h1 : 1 ≤ kind) (h3 : kind ≤ 3) :
    Runs (.railFault t rail kind room) s fun v => ∀ i, i < 96 → rd v .HBM_CH_STATE_STATE ((rail - 15) * 96 + i) = 2 := by
  set reported := railReported s t rail kind with hreported
  have hexec := exec_railFault (s := s) (t := t) (room := room) (by omega : rail ≤ 20) h1 (by omega : kind ≤ 4)
  have hhandled : railHandled reported rail kind room =
      each [0, 1, 2] reported fun x i => stackFails x ((rail - 3) % 4 * 3 + i) room := by
    unfold railHandled
    dsimp only
    rw [if_neg (by omega), if_neg (by omega), if_pos ⟨hlo, hhi⟩]
  rw [← hreported, hhandled] at hexec
  refine runs_of_settle hexec fun i hi => ?_
  have hchan : (rail - 15) * 96 + i = ((rail - 3) % 4 * 3 + i / 32) * 32 + i % 32 := by omega
  have hstack : i / 32 ∈ [0, 1, 2] := by
    simp only [List.mem_cons, List.not_mem_nil, or_false]
    omega
  rw [rd_settled_other _ _ _ _ (by decide), hchan]
  generalize (rail - 3) % 4 = w
  refine each_reach (p := fun x => rd x .HBM_CH_STATE_STATE ((w * 3 + i / 32) * 32 + i % 32) = 2) (a := i / 32)
    (fun x => ?_) (fun x j hx => ?_) hstack _
  · exact rd_stackFails_own x (w * 3 + i / 32) room (Nat.mod_lt _ (by simp))
  · exact rd_stackFails_retired (w * 3 + j) room hx

/-- A failed VCORE, VHALL or VSRAM takes its wing out. -/
theorem railFault_wing (hlo : 3 ≤ rail) (hhi : rail ≤ 14) (h1 : 1 ≤ kind) (h3 : kind ≤ 3) :
    Runs (.railFault t rail kind room) s fun v => rd v .RESET_STATUS_BUSY = 1 ∧
      (rd s .INTEG_LEAD_LEAD_WING ≠ (rail - 3) % 4 → (rail - 3) % 4 ∈ v.pwr.wingsOut ∧
        ∀ i, i < 40 → rd v .INTEG_HUB_OUT ((rail - 3) % 4 * 40 + i) = 1) := by
  set reported := railReported s t rail kind with hreported
  have hexec := exec_railFault (s := s) (t := t) (room := room) (by omega : rail ≤ 20) h1 (by omega : kind ≤ 4)
  have hhandled : railHandled reported rail kind room = wingFails reported ((rail - 3) % 4) := by
    unfold railHandled
    dsimp only
    rw [if_neg (by omega), if_neg (by omega), if_neg (by omega), if_pos (by omega)]
  rw [← hreported, hhandled] at hexec
  refine runs_of_settle hexec ⟨?_, fun hlead => ?_⟩
  · rw [rd_settled_other _ _ _ _ (by decide), rd_wingFails_busy]
  · have hled : rd reported .INTEG_LEAD_LEAD_WING = rd s .INTEG_LEAD_LEAD_WING :=
      (within_railReported s t rail kind).regs _ _ (by decide)
    obtain ⟨hout, hhubs⟩ := wingFails_out (s := reported) (hled.trans_ne hlead)
    rw [settled_pwr]
    refine ⟨hout, fun i hi => ?_⟩
    rw [rd_settled_other _ _ _ _ (by decide)]
    exact hhubs i hi

/-! HOTSWAP -/

theorem withinAt_hotswapOff (s : State) : WithinAt [.pwr] [(.BOOT_STATUS_PHASE, 0), (.PCIE_LINK_UP, 0)] s (hotswapOff s) :=
  (((within_pwr s _).toWithinAt.trans (withinAt_wr _ .PCIE_LINK_UP 0 0)).trans (withinAt_wr _ .BOOT_STATUS_PHASE 0 0)).mono
    (by simp) (by simp)

theorem within_hotswapOff (s : State) : Within [.pwr] [.BOOT_STATUS_PHASE, .PCIE_LINK_UP] s (hotswapOff s) :=
  (((within_pwr s _).append (within_wr _ .PCIE_LINK_UP 0 0)).append (within_wr _ .BOOT_STATUS_PHASE 0 0)).mono (by simp) (by simp)

theorem hotswapOff_pwr (s : State) : (hotswapOff s).pwr = { s.pwr with hotswapOff := some s.now } := rfl

theorem rd_hotswapOff (s : State) : rd (hotswapOff s) .BOOT_STATUS_PHASE = 0 ∧ rd (hotswapOff s) .PCIE_LINK_UP = 0 :=
  ⟨rd_wr_same _ _ _ _, (rd_wr_ne _ _ _ _ _ _ (by simp)).trans (rd_wr_same _ _ _ _)⟩

/-- HOTSWAP is off from a time on: the module is without its supplies. -/
theorem settled_hotswapOff (s u : State) : (settled s (hotswapOff u)).pwr.hotswapOff = some u.now ∧
    rd (settled s (hotswapOff u)) .BOOT_STATUS_PHASE = 0 ∧ rd (settled s (hotswapOff u)) .PCIE_LINK_UP = 0 := by
  obtain ⟨hphase, hlink⟩ := rd_hotswapOff u
  rw [settled_pwr, hotswapOff_pwr, rd_settled_other _ _ _ _ (by decide), rd_settled_other _ _ _ _ (by decide)]
  exact ⟨rfl, hphase, hlink⟩

theorem within_inputRecord (s : State) (kind : Nat) : Within [.rep] reportFlds s (inputRecord s kind) := within_report _ _ _ _ _ _ _

theorem hotswapLimitTimeout_turnsOff (hon : s.pwr.hotswapOff = none) (t : Nat) : Runs (.hotswapLimitTimeout t) s fun v =>
    v.pwr.hotswapOff = some (max s.now t) ∧ rd v .BOOT_STATUS_PHASE = 0 ∧ rd v .PCIE_LINK_UP = 0 ∧
    Frame [.now, .pwr, .rep] (reportFlds ++ [.BOOT_STATUS_PHASE, .PCIE_LINK_UP]) s v := by
  have hexec : exec (.hotswapLimitTimeout t) s = settle s (hotswapOff (inputRecord (tick s t) 3)) := by
    show execHotswapLimitTimeout t s = _
    simp [execHotswapLimitTimeout, hon]
  have hrecord := within_inputRecord (tick s t) 3
  obtain ⟨hoff, hphase, hlink⟩ := settled_hotswapOff s (inputRecord (tick s t) 3)
  exact runs_of_settle hexec ⟨hoff.trans (congrArg some (hrecord.parts .now (by simp))), hphase, hlink,
    ((hrecord.append (within_hotswapOff _)).afterTick.mono (by simp) (List.Subset.refl _)).settled⟩

theorem shortCircuit_turnsOff (hon : s.pwr.hotswapOff = none) (t : Nat) : Runs (.shortCircuit t) s fun v =>
    v.pwr.hotswapOff = some (max s.now t) ∧ rd v .BOOT_STATUS_PHASE = 0 ∧ rd v .PCIE_LINK_UP = 0 ∧
    KeptBut [.now, .pwr] s v ∧ RegsKept [(.BOOT_STATUS_PHASE, 0), (.PCIE_LINK_UP, 0)] s v := by
  have hexec : exec (.shortCircuit t) s = settle s (hotswapOff (tick s t)) := by
    show execShortCircuit t s = _
    simp [execShortCircuit, hon]
  obtain ⟨hoff, hphase, hlink⟩ := settled_hotswapOff s (tick s t)
  exact runs_of_settle hexec ⟨hoff, hphase, hlink, ((within_tick s t).toWithinAt.trans (withinAt_hotswapOff _)).settled⟩

/-! The input's voltage -/

/-- The input as it was measured, with its band. -/
def inputSeen (s : State) (t volts amps : Nat) : State :=
  updPwr (wr (wr (tick s t) .PWR_INPUT_VOLTS 0 (min volts 65535)) .PWR_INPUT_AMPS 0 (min amps 65535)) fun p =>
    { p with band := inputBand s.pwr.band volts }

/-- What a change of the band leads to (R464). -/
def bandHandled (u : State) (old new : Nat) : State :=
  if new = old then u
  else if new = 2 ∧ 3 ≤ old then inputRecord u 1
  else if new = 4 ∧ old < 4 then inputRecord u 2
  else if new = 5 then hotswapOff (inputRecord u 2)
  else if new = 0 then hotswapOff u
  else u

theorem exec_inputVoltageBand (s : State) (t volts amps : Nat) : exec (.inputVoltageBand t volts amps) s =
    settle s (bandHandled (inputSeen s t volts amps) s.pwr.band (inputBand s.pwr.band volts)) := rfl

theorem within_inputSeen (s : State) (t volts amps : Nat) :
    Within [.now, .pwr] [.PWR_INPUT_VOLTS, .PWR_INPUT_AMPS] s (inputSeen s t volts amps) :=
  (((within_tick s t).append (within_wr _ .PWR_INPUT_VOLTS 0 _)).append (within_wr _ .PWR_INPUT_AMPS 0 _)).append (within_pwr _ _)
    |>.mono (by simp) (by simp)

theorem rd_inputSeen (s : State) (t volts amps : Nat) : rd (inputSeen s t volts amps) .PWR_INPUT_VOLTS = min volts 65535 ∧
    rd (inputSeen s t volts amps) .PWR_INPUT_AMPS = min amps 65535 :=
  ⟨(rd_wr_ne _ _ _ _ _ _ (by simp)).trans (rd_wr_same _ _ _ _), rd_wr_same _ _ _ _⟩

/-- A change of the band is recorded, or turns HOTSWAP off; the band stays the one measured. -/
theorem bandHandled_frame (u : State) (old new : Nat) :
    Within [.pwr, .rep] (reportFlds ++ [.BOOT_STATUS_PHASE, .PCIE_LINK_UP]) u (bandHandled u old new) ∧
    (bandHandled u old new).pwr.band = u.pwr.band := by
  have hrecord : ∀ kind, Within [.pwr, .rep] (reportFlds ++ [.BOOT_STATUS_PHASE, .PCIE_LINK_UP]) u (inputRecord u kind) :=
    fun kind => (within_inputRecord u kind).mono (by simp) (by simp)
  have hoff : ∀ x, Within [.pwr, .rep] (reportFlds ++ [.BOOT_STATUS_PHASE, .PCIE_LINK_UP]) x (hotswapOff x) :=
    fun x => (within_hotswapOff x).mono (by simp) (by simp)
  have hband : ∀ kind, (inputRecord u kind).pwr.band = u.pwr.band :=
    fun kind => congrArg Power.band ((within_inputRecord u kind).parts .pwr (by simp))
  unfold bandHandled
  split
  · exact ⟨Within.refl _ _ u, rfl⟩
  · split
    · exact ⟨hrecord 1, hband 1⟩
    · split
      · exact ⟨hrecord 2, hband 2⟩
      · split
        · exact ⟨(hrecord 2).trans (hoff _), hband 2⟩
        · split
          · exact ⟨hoff u, rfl⟩
          · exact ⟨Within.refl _ _ u, rfl⟩

theorem inputVoltageBand_shows (s : State) (t volts amps : Nat) : Runs (.inputVoltageBand t volts amps) s fun v =>
    rd v .PWR_INPUT_VOLTS = min volts 65535 ∧ rd v .PWR_INPUT_AMPS = min amps 65535 ∧
    v.pwr.band = inputBand s.pwr.band volts ∧ KeptBut [.now, .pwr, .rep] s v := by
  obtain ⟨hframe, hband⟩ := bandHandled_frame (inputSeen s t volts amps) s.pwr.band (inputBand s.pwr.band volts)
  obtain ⟨hvolts, hamps⟩ := rd_inputSeen s t volts amps
  refine runs_of_settle (exec_inputVoltageBand s t volts amps) ⟨?_, ?_, hband, ?_⟩
  · rw [rd_settled_other _ _ _ _ (by decide), hframe.regs _ _ (by decide), hvolts]
  · rw [rd_settled_other _ _ _ _ (by decide), hframe.regs _ _ (by decide), hamps]
  · exact (((within_inputSeen s t volts amps).append hframe).mono (qs := [.now, .pwr, .rep]) (by simp)
      (List.Subset.refl _)).settled.1

/-- Below 46 V, less 0.5 V on the way down, no threshold holds any more. -/
theorem inputBand_of_collapsed {volts : Nat} (h : volts < 4550) : inputBand 3 volts = 0 := by
  have h1 : ¬ 7000 < volts ∧ ¬ 6600 < volts ∧ ¬ 5400 ≤ volts ∧ ¬ 4800 ≤ volts ∧ ¬ 4600 ≤ volts := by omega
  simp [inputBand, h1]

theorem inputVoltageBand_collapses (hband : s.pwr.band = 3) {volts : Nat} (hlow : volts < 4550) (t amps : Nat) :
    Runs (.inputVoltageBand t volts amps) s fun v =>
      v.pwr.hotswapOff = some (max s.now t) ∧ rd v .BOOT_STATUS_PHASE = 0 ∧ rd v .PCIE_LINK_UP = 0 := by
  have hexec := exec_inputVoltageBand s t volts amps
  have hhandled : ∀ u, bandHandled u 3 0 = hotswapOff u := fun u => rfl
  rw [hband, inputBand_of_collapsed hlow, hhandled] at hexec
  exact runs_of_settle hexec (settled_hotswapOff s _)

/-! Power fail -/

/-- The records that waited are written before HOTSWAP turns off. -/
def powerFailed (s : State) (volts n : Nat) : State :=
  report (wr (updBoot s fun b => { b with failing := true }) .PWR_INPUT_VOLTS 0 (min volts 65535)) 0x23 0
    [(2, volts / 10, false), (4, n, false)]

/-- The ring after the hold-up's writes, which keeps the last 30,720 records. -/
def ringFlushed (s : State) (done : List CellarRec) : State :=
  let last := s.rep.toWrite.drop (s.rep.toWrite.length - 1)
  let ring := s.rep.ring ++ done ++ last
  updRep s fun r => { r with toWrite := [], ring := ring.drop (ring.length - 30720) }

theorem ringFlushed_rep (s : State) (done : List CellarRec) :
    (ringFlushed s done).rep.toWrite = [] ∧ (ringFlushed s done).rep.ring.length ≤ 30720 := by
  unfold ringFlushed
  rw [updRep_rep]
  dsimp only
  rw [List.length_drop]
  exact ⟨rfl, by omega⟩

theorem logEntry_ring (s : State) (kind detail unit duration : Nat) :
    (logEntry s kind detail unit duration).rep.toWrite = s.rep.toWrite ∧
    (logEntry s kind detail unit duration).rep.ring = s.rep.ring := by
  unfold logEntry
  rw [updRep_rep]
  exact ⟨rfl, rfl⟩

theorem exec_powerFail (hup : s.boot.failing = false) (t volts flushed : Nat) : ∃ n done,
    exec (.powerFail t volts flushed) s =
      settle s (hotswapOff (logEntry (ringFlushed (powerFailed (tick s t) volts n) done) 7 0 0 0)) := by
  refine ⟨min s.rep.toWrite.length (max 64 flushed), s.rep.toWrite.take (min s.rep.toWrite.length (max 64 flushed)), ?_⟩
  show execPowerFail t volts flushed s = _
  unfold execPowerFail
  dsimp only
  rw [if_neg (by simp [hup])]
  rfl

theorem within_powerFailed (s : State) (volts n : Nat) :
    Within [.boot, .rep] (.PWR_INPUT_VOLTS :: reportFlds) s (powerFailed s volts n) :=
  ((within_boot s _).append (within_wr _ .PWR_INPUT_VOLTS 0 _)).append (within_report _ 0x23 0 _ none 0 false)

theorem powerFail_runs (hup : s.boot.failing = false) (t volts flushed : Nat) : Runs (.powerFail t volts flushed) s fun v =>
    v.boot.failing = true ∧ v.pwr.hotswapOff = some (max s.now t) ∧ rd v .BOOT_STATUS_PHASE = 0 ∧ v.rep.toWrite = [] ∧
    v.rep.ring.length ≤ 30720 ∧ KeptBut [.boot, .now, .pwr, .rep] s v := by
  obtain ⟨n, done, hexec⟩ := exec_powerFail hup t volts flushed
  set failed := powerFailed (tick s t) volts n with hfailed
  set logged := logEntry (ringFlushed failed done) 7 0 0 0 with hlogged
  have hfail : Within [.boot, .rep] (.PWR_INPUT_VOLTS :: reportFlds) (tick s t) failed := within_powerFailed (tick s t) volts n
  have hflush : Within [.rep] [] failed logged := (within_rep failed _).trans (within_logEntry _ 7 0 0 0)
  have hfailing : failed.boot.failing = true := congrArg Boot.failing ((within_report _ 0x23 0 _ none 0 false).parts .boot (by simp))
  have hnow : logged.now = max s.now t := (hfail.append hflush).parts .now (by simp)
  obtain ⟨hwritten, hring⟩ := ringFlushed_rep failed done
  obtain ⟨hoff, hphase, -⟩ := settled_hotswapOff s logged
  obtain ⟨hwrote, hringed⟩ := logEntry_ring (ringFlushed failed done) 7 0 0 0
  have hrep : (settled s (hotswapOff logged)).rep = logged.rep := (within_hotswapOff logged).parts .rep (by simp)
  rw [← hrep] at hwrote hringed
  exact runs_of_settle hexec ⟨hfailing, hoff.trans (congrArg some hnow), hphase, hwrote.trans hwritten,
    (congrArg List.length hringed).trans_le hring,
    ((((hfail.append hflush).append (within_hotswapOff logged)).afterTick).mono (qs := [.boot, .now, .pwr, .rep]) (by simp)
      (List.Subset.refl _)).settled.1⟩

end Sys2Proof.Machine
end

section
/-! O52 holds. -/

namespace Sys2Proof.Machine

/-- A window whose energy has an input and one attribution (R331). -/
theorem derailleurWindow_meters {w : Nat} (hw : w < 4) (s : State) (t meas e c uj : Nat) (est : WingActivity) :
    Runs (.derailleurWindow t w meas est (some e) [(c, uj)]) s fun v =>
      rd v .ENERGY_MODULE = (rd s .ENERGY_MODULE + e) % 2 ^ 64 ∧ rd v .ENERGY_ATTRIB = (rd s .ENERGY_ATTRIB + uj) % 2 ^ 64 ∧
      rd v .DRL_DISAGREE w ≤ 1023 ∧ v.mem = s.mem := by
  obtain ⟨v, hexec, hdisagree, hmodule, hattrib, -, -, -, hmem⟩ := derailleurWindow_runs (s := s) (t := t) hw meas est (some e) [(c, uj)]
  have hsum : ([(c, uj)].map (·.2)).sum = uj := rfl
  rw [hsum] at hattrib
  exact ⟨v, hexec, hmodule, hattrib (Or.inl (List.cons_ne_nil _ _)), hdisagree, hmem⟩

/-- An estimate within DISAGREE_PCT of the measured energy is no miss. -/
theorem windowMisses_eq_false {s : State} {w meas : Nat} {est : WingActivity}
    (h : 100 * ((rd s .DRL_K w * estEnergy s est - measEnergy meas * 65536) + (measEnergy meas * 65536 - rd s .DRL_K w * estEnergy s est)) ≤
      rd s .PWR_CONFIG_DISAGREE_PCT * measEnergy meas * 65536) : windowMisses s w meas est = false :=
  decide_eq_false (not_lt.mpr h)

/-- Settles O52: each input of the Derailleur by what its handler writes; a failed stack's channels stay RETIRED through all that
their loss ends, and a failed wing's hubs stay out of placement through the resets of the hubs after them. -/
theorem powerInputsRun : Obligations.PowerInputsRun := by
  unfold Obligations.PowerInputsRun
  refine ⟨fun s t w meas e c uj est hw => ⟨derailleurWindow_meters hw s t meas e c uj est, fun hagrees hst =>
      derailleurWindow_agrees hw meas est (windowMisses_eq_false hagrees) hst⟩,
    fun s t w meas est input attrib hw n miss hn hmiss => ?_,
    fun s t w predicted measured extra ends hw => limiterSample_runs hw predicted measured extra ends,
    fun s src t hm => ⟨fun w hw hst => drlEstClear_clears hm hw hst, fun w hw hst => drlEstClear_trusted hm hw hst,
      fun x hlo hhi => pwrCapWrite_sets hm hlo hhi, fun x hx => pwrCapWrite_ignored hm hx,
      fun m x hmeter => pwrMeterWrite_resets hm hmeter x⟩,
    fun s t r => ⟨fun h hh hhot hlevel hquiet => thermalLevel_hub_hot hh hhot hlevel hquiet,
      fun n hn hcool hlevel => thermalLevel_stack_cold hn hcool hlevel,
      fun h hh => thermalLevel_hub hh, fun n hn => thermalLevel_stack hn, thermalLevel_vestibule s t r, thermalLevel_inlet s t r⟩,
    fun s t rail kind room => ⟨railFault_forces, railFault_untrusts, railFault_recorded, railFault_stacks, railFault_wing⟩,
    fun s t volts amps => ⟨inputVoltageBand_shows s t volts amps, fun hband hlow => inputVoltageBand_collapses hband hlow t amps⟩,
    fun s t volts flushed hup => powerFail_runs hup t volts flushed,
    fun s t hon => ⟨hotswapLimitTimeout_turnsOff hon t, shortCircuit_turnsOff hon t⟩⟩
  subst hn
  have hmisses : miss = windowMisses s w meas est := hmiss
  subst hmisses
  obtain ⟨v, hexec, hdisagree, hmodule, hattrib, hrest⟩ := derailleurWindow_runs (s := s) (t := t) hw meas est input attrib
  exact ⟨v, hexec, hdisagree, hmodule, fun hbound => hattrib (Or.inr hbound), hrest⟩

end Sys2Proof.Machine
end

section
/-! O1 to O4: the step, what every command ends with, and the registers that are views of lists. -/

namespace Sys2Proof.Machine

/-- Settles O1. -/
theorem stepRunsTheFrontCommand : Obligations.StepRunsTheFrontCommand := by
  refine ⟨fun s c rest h => ?_, fun s h => ?_⟩
  · unfold step
    rw [h]
  · unfold step
    rw [h]
    simp [tick, h]

/-- Each arm of `exec` ends with `settle`. -/
theorem exec_settles (c : Instr) (s : State) : ∃ t, exec c s = .next (settled s t) := by
  cases c <;> exact ⟨_, rfl⟩

/-- Settles O2: every command ends with `settle`, which keeps the queue and shows the views. -/
theorem everyCommandAnswersANextState : Obligations.EveryCommandAnswersANextState := by
  intro c s
  obtain ⟨t, ht⟩ := exec_settles c s
  exact ⟨_, ht, settled_pending s t, settled_views s t⟩

/-- Settles O3: a step with a command ends with `settle`, and one without changes the time alone. -/
theorem viewsAgreeAfterEveryStep : Obligations.ViewsAgreeAfterEveryStep := by
  intro s t hs h
  obtain ⟨run, idle⟩ := stepRunsTheFrontCommand
  cases hp : s.pending with
  | nil =>
    rw [idle s hp] at h
    cases h
    exact hs
  | cons c rest =>
    obtain ⟨u, hu⟩ := exec_settles c { s with pending := rest }
    rw [run s c rest hp, hu] at h
    cases h
    exact settled_views _ u

/-- Settles O4: at reset no register is written and every list is empty. -/
theorem viewsAgreeAtReset : Obligations.ViewsAgreeAtReset := by
  refine ⟨fun c _ => ?_, rfl, rfl⟩
  rfl

end Sys2Proof.Machine
end

section
/-! O12: the vector registers of a core after an instruction that may read its scalar. -/

namespace Sys2Proof.Machine

theorem regsOf_keepRegs_same (s : State) (k lane : Nat) (g : VecRegs) : regsOf (keepRegs s k lane g) k = (lane, g) := by
  simp [regsOf, keepRegs, storeGet]

theorem regsOf_keepRegs_other (s : State) {k j : Nat} (lane : Nat) (g : VecRegs) (h : j ≠ k) :
    regsOf (keepRegs s k lane g) j = regsOf s j := by
  simp [regsOf, keepRegs, storeGet, storeFind_insert_other _ _ h]

/-- An instruction that may read its scalar, or reads none, keeps its result. -/
theorem vecOp_of_scalarReadable {s : State} {hub phys : Nat} {i : VInstr} (h : scalarReadable s hub phys i)
    (f : VEnv → VInstr → VecRegs → VecRegs) :
    vecOp s hub phys i f = keepRegs s (coreKey hub phys) (regsOf s (coreKey hub phys)).1
      (f (vEnv s hub (regsOf s (coreKey hub phys)).1 (opCopy s hub phys)) i (regsOf s (coreKey hub phys)).2) := by
  have hnone : (curCmd s (coreKey hub phys)).filter
      (fun r => i.bKind == 1 && scalarFaults (opCopy s hub phys) r.q.ctx (i.imm % 32)) = none := by
    simpa [Option.filter_eq_none_iff] using fun r hr hkind => h hkind r hr
  unfold vecOp
  simp only [hnone]

/-- Settles O12: the result is kept in the core's own registers (`vecOp_of_scalarReadable`). -/
theorem vectorInstructionsRun : Obligations.VectorInstructionsRun := by
  intro o ho s hub phys i hread
  refine runs_of_settle (exec_vectorOps o ho hub phys i s) ?_
  rw [vecOp_of_scalarReadable hread]
  exact ⟨regsOf_keepRegs_same s _ _ _, fun k hk => regsOf_keepRegs_other s _ _ hk, rfl, (within_core s _).toWithinAt.settled⟩

end Sys2Proof.Machine
end

section
/-! What a stage that runs leaves of its core's queue: the other commands as they were, and its own but for its counts and the rows
that it hands over. -/

namespace Sys2Proof.Machine

/-- The queue of core k has kept every command but number n, and of that its command and which of its stages are done. -/
structure CmdKept (k n : Nat) (s t : State) : Prop where
  others : (queueAt t k).filter (fun x => x.num != n) = (queueAt s k).filter (fun x => x.num != n)
  own : ∀ r, cmdAt s k n = some r → ∃ r', cmdAt t k n = some r' ∧ r'.q = r.q ∧ r'.done = r.done

theorem CmdKept.refl (k n : Nat) (s : State) : CmdKept k n s s := ⟨rfl, fun r h => ⟨r, h, rfl, rfl⟩⟩

theorem CmdKept.trans {k n : Nat} {s t u : State} (h : CmdKept k n s t) (g : CmdKept k n t u) : CmdKept k n s u := by
  refine ⟨g.others.trans h.others, fun r hr => ?_⟩
  obtain ⟨a, ha, haq, had⟩ := h.own r hr
  obtain ⟨b, hb, hbq, hbd⟩ := g.own a ha
  exact ⟨b, hb, hbq.trans haq, hbd.trans had⟩

theorem cmdKept_of_queues {k n : Nat} {s t : State} (h : t.core.queues = s.core.queues) : CmdKept k n s t := by
  have hq : queueAt t k = queueAt s k := by unfold queueAt; rw [h]
  exact ⟨by rw [hq], fun r hr => ⟨r, by unfold cmdAt at hr ⊢; rwa [hq], rfl, rfl⟩⟩

theorem Within.cmdKept {ps : List Part} {fs : List Fld} {s t : State} (h : Within ps fs s t) (hp : .core ∉ ps) (k n : Nat) :
    CmdKept k n s t := cmdKept_of_queues (congrArg Cores.queues (h.parts .core hp))

theorem cmdKept_each {α : Type} {k n : Nat} (f : State → α → State) (h : ∀ s a, CmdKept k n s (f s a)) (l : List α) (s : State) :
    CmdKept k n s (each l s f) := each_rel (CmdKept.refl k n) CmdKept.trans h l s

theorem num_of_cmdAt {s : State} {k n : Nat} {r : RunCmd} (h : cmdAt s k n = some r) : r.num = n := by
  simpa using List.find?_some h

/-- A change of the command that leaves what it is and which of its stages are done. -/
theorem cmdKept_setCmd {s : State} {k n : Nat} {r r' : RunCmd} (hr : cmdAt s k n = some r) (hn : r'.num = n) (hq : r'.q = r.q)
    (hd : r'.done = r.done) : CmdKept k n s (setCmd s k r') := by
  refine ⟨?_, fun x hx => ⟨r', cmdAt_setCmd hr hn, ?_⟩⟩
  · unfold setCmd
    rw [queueAt_setQueueAt, hn]
    induction queueAt s k with
    | nil => rfl
    | cons x l ih =>
      by_cases hx : x.num = n
      · simpa [hx, hn] using ih
      · simpa [hx] using ih
  · rw [hr] at hx
    cases hx
    exact ⟨hq, hd⟩

theorem cmdKept_updCmd (s : State) (k n : Nat) (f : RunCmd → RunCmd)
    (hf : ∀ r, (f r).num = r.num ∧ (f r).q = r.q ∧ (f r).done = r.done) : CmdKept k n s (updCmd s k n f) := by
  unfold updCmd
  split
  · next r hr => exact cmdKept_setCmd hr ((hf r).1.trans (num_of_cmdAt hr)) (hf r).2.1 (hf r).2.2
  · exact CmdKept.refl k n s

theorem cmdKept_handOver (s : State) (k n : Nat) (h : HandOver) : CmdKept k n s (handOver s k n h) :=
  cmdKept_updCmd s k n _ fun _ => ⟨rfl, rfl, rfl⟩

theorem cmdKept_addStats (s : State) (k n rows replay : Nat) (run : StageRun) (replayed held : Bool) :
    CmdKept k n s (addStats s k n rows replay run replayed held) := cmdKept_updCmd s k n _ fun _ => ⟨rfl, rfl, rfl⟩

theorem cmdKept_noteStarts (s : State) (k n : Nat) : CmdKept k n s (noteStarts s k n) := by
  unfold noteStarts
  split
  · exact CmdKept.refl k n s
  · next r hr =>
    dsimp only
    split
    · have hn := num_of_cmdAt hr
      exact cmdKept_setCmd (r' := { r with scalars := some (scalarWindow s (k / 66)) }) hr hn rfl rfl
    · exact CmdKept.refl k n s

/-! Work that may stop its stage -/

/-- Work that answers whether it stopped its stage keeps the queue where it did not. -/
def Going (k n : Nat) (s : State) (x : State × Bool) : Prop := x.2 = false → CmdKept k n s x.1

theorem CmdKept.going {k n : Nat} {s t : State} (h : CmdKept k n s t) : Going k n s (t, false) := fun _ => h

theorem going_stopped (k n : Nat) (s t : State) : Going k n s (t, true) := fun h => nomatch h

theorem Going.after {k n : Nat} {s t : State} {x : State × Bool} (g : Going k n t x) (h : CmdKept k n s t) : Going k n s x :=
  fun hx => h.trans (g hx)

/-- Work that goes on only where the work before it did not stop the stage. -/
theorem Going.andThen {k n : Nat} {s : State} {x : State × Bool} {f : State → State × Bool} (h : Going k n s x)
    (g : ∀ t, Going k n t (f t)) : Going k n s (if x.2 then x else f x.1) := by
  split
  · next hx => exact fun hgo => absurd (hx.symm.trans hgo) (by simp)
  · next hx => exact (g x.1).after (h (by simpa using hx))

/-! The end of a stage -/

theorem not_all_done {done : List Bool} {i j : Nat} (hij : j ≠ i) (hlt : j < done.length) (hj : done.getD j true = false) :
    (done.set i true).all id = false := by
  rw [List.all_eq_false]
  have hget : (done.set i true)[j]'(by simpa using hlt) = false := by
    rw [List.getElem_set_ne (Ne.symm hij)]
    simpa [List.getD_eq_getElem?_getD, List.getElem?_eq_getElem hlt] using hj
  exact ⟨false, List.mem_of_getElem hget, by simp⟩

/-- A stage that ends while another of its command has still to run counts as done. -/
theorem stageDone_own {w : State} {k i j : Nat} {r r' : RunCmd} (hcmd : cmdAt w k r.num = some r') (hq : r'.q = r.q)
    (hd : r'.done = r.done) (hij : j ≠ i) (hlt : j < r.done.length) (hj : r.done.getD j true = false) :
    ∃ x, cmdAt (stageDone w k r.num i) k r.num = some x ∧ x.q = r.q ∧ x.done = r.done.set i true := by
  have hn := num_of_cmdAt hcmd
  have hset := cmdAt_setCmd (r' := { r' with done := r'.done.set i true }) hcmd hn
  obtain ⟨x, hx, hxq, hxd⟩ := (cmdKept_noteStarts _ k r.num).own _ hset
  unfold stageDone
  simp only [hcmd, hd, not_all_done hij hlt hj, Bool.false_eq_true, if_false]
  rw [hd] at hx
  exact ⟨x, hx, hxq.trans hq, hxd.trans (by rw [hd])⟩

/-- A stage whose work has kept its core's queue runs to its end. -/
theorem stageEnds_of_cmdKept {s u w : State} {k i : Nat} {r : RunCmd} (hcmd : cmdAt u k r.num = some r)
    (h : CmdKept k r.num u w) : StageEnds s u (settled s (stageDone w k r.num i)) k i r := by
  obtain ⟨r', hr', hq, hd⟩ := h.own r hcmd
  exact ⟨⟨w, r', settle_eq _ _, hr', hq, hd, h.others⟩, fun ⟨j, hij, hlt, hj⟩ => stageDone_own hr' hq hd hij hlt hj⟩

/-! What every stage does before it moves data -/

/-- A stage that nothing keeps back, and that meets no word in error, is entered. -/
theorem enterStage_go {s : State} {k i : Nat} {r : RunCmd} {st : Stage} {run : StageRun} (hfree : stageFree s k r i st)
    (hclean : cleanRun run) (go : State → State) : enterStage s k r i st run go = go (runCounts s k run) := by
  obtain ⟨_, hretain, hwait, hext⟩ := hfree
  obtain ⟨_, huncorr, hcorr⟩ := hclean
  simp [enterStage, hretain, hwait, hext, huncorr, hcorr]

theorem cmdKept_incX (s : State) (f : Fld) (n j a b : Nat) : CmdKept a b s (incX s f n j) :=
  (within_incX s f n j).cmdKept (by simp) a b

theorem within_runCounts (s : State) (k : Nat) (run : StageRun) :
    Within [.dbg, .tt] [.HUB_TT_SLIP, .MEM_ECC_CORRECTED, .VEC_COEF_CORRECTED] s (runCounts s k run) := by
  unfold runCounts
  exact ((((within_contribute s _ _).append (within_contribute _ _ _)).append ((within_inc _ _ _ _).append
    (within_useReserve _ _))).append ((within_incX _ _ _ _).append (within_incX _ _ _ _))).mono (by simp) (by simp)

theorem cmdKept_runCounts (s : State) (k n : Nat) (run : StageRun) : CmdKept k n s (runCounts s k run) :=
  (within_runCounts s k run).cmdKept (by simp) k n

theorem cmdKept_stall (s : State) (j ctx kind m k n : Nat) : CmdKept k n s (stall s j ctx kind m) :=
  (within_stall s j ctx kind m).cmdKept (by simp) k n

theorem cmdKept_hubError (s : State) (hub off value slot : Nat) (cause : Option Nat) (k n : Nat) :
    CmdKept k n s (hubError s hub off value slot cause) := (within_hubError s hub off value slot cause).cmdKept (by simp) k n

theorem cmdKept_liveClamp (s : State) (j : Nat) (r : RunCmd) (en : Bool) (off m k n : Nat) :
    CmdKept k n s (liveClamp s j r en off m) := by
  unfold liveClamp
  split
  · exact ((within_wr s _ _ _).cmdKept (by simp) k n).trans (cmdKept_hubError _ _ _ _ _ _ k n)
  · exact CmdKept.refl k n s

theorem cmdKept_writeBytes (l : List Nat) (a : Nat) (s : State) (k n : Nat) : CmdKept k n s (writeBytes l a s) :=
  (within_writeBytes l a s).cmdKept (by simp) k n

end Sys2Proof.Machine
end

section
/-! O16: the rows of a vector, reduction or SFU stage keep its core's queue, unless an entry outside its memory stops them. -/

namespace Sys2Proof.Machine

variable {k n : Nat}

/-! What a row writes -/

theorem cmdKept_writeWords (s : State) (a : Nat) (ws : List Nat) : CmdKept k n s (writeWords s a ws) :=
  cmdKept_writeBytes _ _ _ k n

theorem cmdKept_writeCols (s : State) (a fmt : Nat) (vals : List (Option Nat)) : CmdKept k n s (writeCols s a fmt vals) := by
  refine cmdKept_each _ (fun t e => ?_) _ s
  split
  · exact (within_writeBits t _ _ _ _).cmdKept (by simp) k n
  · exact CmdKept.refl k n t

theorem cmdKept_padFp6 (s : State) (a fmt m : Nat) : CmdKept k n s (padFp6 s a fmt m) := by
  unfold padFp6
  split
  · exact cmdKept_writeCols s _ _ _
  · exact CmdKept.refl k n s

theorem cmdKept_eachByte {α : Type} (addr val : State → α → Nat) (l : List α) (s : State) :
    CmdKept k n s (l.foldl (fun t e => writeByte t (addr t e) (val t e)) s) :=
  cmdKept_each _ (fun t _ => (within_writeByte t _ _).cmdKept (by simp) k n) l s

theorem cmdKept_putOut (s : State) (d : VecDesc) (row from_ : Nat) (vals : List (Option Nat)) (final : Bool) :
    CmdKept k n s (putOut s k n d row from_ vals final) := by
  unfold putOut
  extract_lets base lo hi c els scs u v
  have hu : CmdKept k n s u := cmdKept_eachByte _ _ scs s
  split
  · exact hu.trans (cmdKept_updCmd u k n _ fun _ => ⟨rfl, rfl, rfl⟩)
  · have hv : CmdKept k n s v := hu.trans (cmdKept_writeCols u _ _ _)
    split
    · exact hv.trans (cmdKept_padFp6 v _ _ _)
    · exact hv

/-! Summaries -/

theorem queues_sumTurn (s : State) (h : Nat) : (sumTurn s h).core.queues = s.core.queues := by
  refine each_view (fun t => t.core.queues) _ (fun t e => ?_) _ s
  split
  · rfl
  · dsimp only
    split
    · rfl
    · split <;> rfl

theorem queues_drainSums (s : State) (h : Nat) : (drainSums s h).core.queues = s.core.queues :=
  each_view (fun t => t.core.queues) (fun t (_ : Nat) => sumTurn t h) (fun t _ => queues_sumTurn t h) _ s

theorem cmdKept_drainSums (s : State) (h : Nat) : CmdKept k n s (drainSums s h) := cmdKept_of_queues (queues_drainSums s h)

theorem cmdKept_postRecord (s : State) (j : Nat) (x : SummaryRec) : CmdKept k n s (postRecord s j x) :=
  CmdKept.trans (t := updCore s fun c => { c with sumWait := storePut [] c.sumWait j (storeGet [] c.sumWait j ++ [x]) })
    (cmdKept_of_queues rfl) (cmdKept_drainSums _ _)

theorem cmdKept_postSummary (s : State) (j : Nat) (r : RunCmd) (row kk : Nat) (all replayed : Bool) (st : RedState) :
    CmdKept k n s (postSummary s j r row kk all replayed st) := cmdKept_postRecord s j _

theorem cmdKept_setRed (s : State) (j : Nat) (st : RedState) : CmdKept k n s (setRed s j st) := cmdKept_of_queues rfl

theorem cmdKept_keepRegs (s : State) (j lane : Nat) (g : VecRegs) : CmdKept k n s (keepRegs s j lane g) := cmdKept_of_queues rfl

theorem cmdKept_closeReds (s : State) (j : Nat) (r : RunCmd) (d : VecDesc) (row : Nat) (replayed : Bool) (reds : List RedState) :
    CmdKept k n s (closeReds s j r d row replayed reds) := by
  refine cmdKept_each _ (fun t e => ?_) _ s
  dsimp only
  split
  · exact cmdKept_setRed t j _
  · have hw := cmdKept_writeWords (k := k) (n := n) t
    split
    · exact (hw _ _).trans (cmdKept_postSummary _ j r row _ _ _ _)
    · exact hw _ _

theorem cmdKept_closeHist (s : State) (j : Nat) (r : RunCmd) (off rows : Nat) (summary : Bool) :
    CmdKept k n s (closeHist s j r off rows summary) := by
  unfold closeHist
  extract_lets x st u v
  have hu : CmdKept k n s u := cmdKept_writeWords s _ _
  have hv : CmdKept k n u v := by
    unfold v
    split
    · exact cmdKept_postSummary u j r _ _ _ _ _
    · exact CmdKept.refl k n u
  exact (hu.trans hv).trans (cmdKept_of_queues rfl)

theorem cmdKept_lenClamp (s : State) (j : Nat) (r : RunCmd) (bad : Bool) : CmdKept k n s (lenClamp s j r bad) := by
  unfold lenClamp
  split
  · exact ((within_wr s _ _ _).cmdKept (by simp) k n).trans (cmdKept_hubError _ _ _ _ _ _ k n)
  · exact CmdKept.refl k n s

/-! Row plans -/

/-- What leaves after a chunk, and the end of a row that does not stop the stage, keep the queue. -/
structure RowsKeep (k n : Nat) (p : RowWalk) : Prop where
  put : ∀ s row ch before o, CmdKept k n s (p.put s row ch before o)
  close : ∀ s row o, Going k n s (p.close s row o)

variable {r : RunCmd} {d : VecDesc} {replayed : List Nat}

theorem cmdKept_putChunk (hn : r.num = n) (cols : Nat) (s : State) (row ch : Nat) (before o : RowOut) :
    CmdKept k n s (putChunk k r d cols s row ch before o) := by
  subst hn
  exact cmdKept_putOut s d row _ _ _

theorem rowsKeep_map (hn : r.num = n) : RowsKeep k n (mapPlan k r d replayed) :=
  ⟨cmdKept_putChunk hn _, fun s _ _ => ((cmdKept_closeReds s k r d _ _ _).trans (cmdKept_keepRegs _ k _ _)).going⟩

theorem rowsKeep_compress (hn : r.num = n) : RowsKeep k n (compressPlan k r d replayed) := by
  subst hn
  exact ⟨fun s _ _ _ _ => (cmdKept_putOut s d _ _ _ _).trans (cmdKept_writeWords _ _ _),
    fun s _ _ => ((((cmdKept_putOut s d _ _ _ _).trans (cmdKept_writeWords _ _ _)).trans
      (cmdKept_closeReds _ k r d _ _ _)).trans (cmdKept_keepRegs _ k _ _)).going⟩

theorem rowsKeep_expand (hn : r.num = n) : RowsKeep k n (expandPlan k r d replayed) := by
  subst hn
  refine ⟨fun s _ _ _ _ => CmdKept.refl k _ s, fun s row o => ?_⟩
  unfold expandPlan
  dsimp only
  split
  · exact going_stopped k _ s _
  · exact ((((cmdKept_lenClamp s k r _).trans (cmdKept_putOut _ d _ _ _ _)).trans (cmdKept_closeReds _ k r d _ _ _)).trans
      (cmdKept_keepRegs _ k _ _)).going

theorem rowsKeep_gate (hn : r.num = n) : RowsKeep k n (gatePlan k r d) :=
  ⟨cmdKept_putChunk hn _, fun s _ _ => (CmdKept.refl k n s).going⟩

theorem rowsKeep_softmax (hn : r.num = n) : RowsKeep k n (softmaxPlan k r d) := by
  refine ⟨fun s row ch before o => ?_, fun s _ _ => (CmdKept.refl k n s).going⟩
  unfold softmaxPlan
  dsimp only
  split
  · exact CmdKept.refl k n s
  · split
    · exact cmdKept_writeWords s _ _
    · exact cmdKept_putChunk hn _ s row ch before o

theorem rowsKeep_gather (hn : r.num = n) : RowsKeep k n (gatherPlan k r d) := by
  subst hn
  refine ⟨fun s row ch before o => ?_, fun s row o => ?_⟩
  · unfold gatherPlan
    dsimp only
    split
    · exact cmdKept_updCmd s k _ _ fun _ => ⟨rfl, rfl, rfl⟩
    · exact cmdKept_writeCols s _ _ _
  · unfold gatherPlan
    refine CmdKept.going ?_
    split
    · exact cmdKept_eachByte _ _ _ s
    · refine CmdKept.trans ?_ (cmdKept_padFp6 _ _ _ _)
      exact cmdKept_eachByte _ _ _ s

theorem rowsKeep_scatter : RowsKeep k n (scatterPlan k r d) :=
  ⟨fun s _ _ _ _ => cmdKept_writeCols s _ _ _, fun s _ _ => (CmdKept.refl k n s).going⟩

theorem rowsKeep_sfu (hn : r.num = n) : RowsKeep k n (sfuPlan k r d) :=
  ⟨cmdKept_putChunk hn _, fun s _ _ => (CmdKept.refl k n s).going⟩

theorem rowsKeep_reduce : RowsKeep k n (reducePlan k r d replayed) := by
  refine ⟨fun s _ _ _ _ => CmdKept.refl k n s, fun s row o => ?_⟩
  unfold reducePlan basePlan
  dsimp only
  split
  · exact (cmdKept_setRed s k _).going
  · refine CmdKept.going ?_
    split
    · exact (cmdKept_writeWords s _ _).trans (cmdKept_postSummary _ k r _ _ _ _ _)
    · exact cmdKept_writeWords s _ _

theorem rowsKeep_merge : RowsKeep k n (mergePlan k r d replayed) := by
  refine ⟨fun s _ _ _ _ => CmdKept.refl k n s, fun s row o => CmdKept.going ?_⟩
  split
  · exact (cmdKept_writeWords s _ _).trans (cmdKept_postRecord _ k _)
  · exact cmdKept_writeWords s _ _

theorem rowsKeep_rowPlan (hn : r.num = n) (kind : Nat) : RowsKeep k n (rowPlan k r kind d replayed) := by
  unfold rowPlan
  split
  · exact rowsKeep_sfu hn
  · split
    · split
      · exact rowsKeep_merge
      · exact rowsKeep_reduce
    · split
      · exact rowsKeep_gate hn
      · exact rowsKeep_softmax hn
      · exact rowsKeep_compress hn
      · exact rowsKeep_expand hn
      · exact rowsKeep_gather hn
      · exact rowsKeep_scatter
      · exact rowsKeep_map hn

/-! Rows without faults -/

variable {e : VecRun} {p : RowWalk}

/-- The chunks of a row without faults all run. -/
theorem runChunks_clean (hf : e.faults = []) (hp : RowsKeep k n p) (row : Nat) :
    ∀ (m ch : Nat) (o : RowOut) (s : State), ∃ t o', runChunks e p row m ch o s = (t, some o') ∧ CmdKept k n s t
  | 0, _, o, s => ⟨s, o, rfl, CmdKept.refl k n s⟩
  | m + 1, ch, o, s => by
    have hnone : chunkFault e row ch = none := by simp [chunkFault, hf]
    obtain ⟨t, o', hrun, ht⟩ := runChunks_clean hf hp row m (ch + 1) (p.work s row ch (p.load s row ch) o)
      (p.put s row (ch + 1) o (p.work s row ch (p.load s row ch) o))
    refine ⟨t, o', ?_, (hp.put s _ _ _ _).trans ht⟩
    unfold runChunks
    simp only [hnone]
    exact hrun

theorem going_runRow (hf : e.faults = []) (hp : RowsKeep k n p) (s : State) (row : Nat) : Going k n s (runRow e p s row) := by
  unfold runRow
  split
  · exact going_stopped k n s _
  · exact (CmdKept.refl k n s).going
  · next reds _ =>
    obtain ⟨t, o, hrun, ht⟩ := runChunks_clean hf hp row p.chunks 0 (rowStart reds) s
    rw [hrun]
    exact (hp.close t row o).after ht

/-- The rows of a stage that nothing stops keep the queue. -/
theorem going_runRows (hf : e.faults = []) (hp : RowsKeep k n p) : ∀ (m row : Nat) (s : State), Going k n s (runRows e p m row s)
  | 0, _, s => (CmdKept.refl k n s).going
  | m + 1, row, s => (going_runRow hf hp s row).andThen (going_runRows hf hp m (row + 1))

/-! The stage -/

theorem cmdKept_vecEntry (s : State) (r : RunCmd) (d : VecDesc) (kind : Nat) (run : StageRun) :
    CmdKept k r.num s (vecEntry s k r d kind run) := by
  unfold vecEntry
  extract_lets live base u w v x
  have hu : CmdKept k r.num s u := (cmdKept_liveClamp s k r _ _ _ k _).trans (cmdKept_lenClamp _ k r _)
  have hv : CmdKept k r.num s v := by
    refine hu.trans ?_
    unfold v
    split
    · exact cmdKept_handOver u k _ _
    · exact CmdKept.refl k _ u
  have hx : CmdKept k r.num s x :=
    (hv.trans (cmdKept_incX v _ _ _ k _)).trans ((within_useReserve _ _).cmdKept (by simp) k _)
  exact hx.trans (cmdKept_stall x k _ _ _ k _)

theorem cmdKept_rowsEnd (s : State) (r : RunCmd) (kind : Nat) (d : VecDesc) (live : Nat) :
    CmdKept k n s (rowsEnd k r kind d live s) := by
  unfold rowsEnd
  split
  · exact CmdKept.refl k n s
  · split
    · split
      · exact cmdKept_closeHist s k r _ _ _
      · exact CmdKept.refl k n s
    · split
      · split
        · exact cmdKept_closeHist s k r _ _ _
        · exact CmdKept.refl k n s
      · exact CmdKept.refl k n s

/-- A vector stage that is ready ends after work that has kept its core's queue. -/
theorem vecStage_ends {u : State} {i : Nat} {st : Stage} {run : StageRun} (hclean : cleanRun run)
    (hfree : stageFree u k r i st) (hready : vectorReady u k r i st d run) :
    ∃ w, vecStage u k r i st d run = stageDone w k r.num i ∧ CmdKept k r.num u w := by
  obtain ⟨htable, hscalars, hrows⟩ := hready
  unfold vecStage
  simp only [enterStage_go hfree hclean]
  have hu := cmdKept_runCounts u k r.num run
  have htag := (within_runCounts u k run).regs .VEC_COEF_TAG_ACTIVE_TAG (k / 66) (by decide)
  generalize runCounts u k run = c at *
  have hno : ¬ ((withProg c k d).tableTag ≠ 0 ∧ (withProg c k d).tableTag ≠ rd c .VEC_COEF_TAG_ACTIVE_TAG (k / 66)) := by
    rw [htag]
    exact fun ⟨hzero, hactive⟩ => htable.elim hzero hactive
  have hok : ¬ (vecLive c k d ≠ 0 ∧
      (scalarsRead (stageKind st) (withProg c k d)).any (scalarFaults (scalarsOf c (k / 66) r) r.q.ctx) = true) := by
    simpa using fun _ => hscalars
  rw [if_neg hno, if_neg hok]
  simp only [hclean.1, List.map_nil, hrows, Bool.false_eq_true, if_false]
  refine ⟨_, rfl, hu.trans ?_⟩
  exact ((cmdKept_vecEntry c r _ _ run).trans (going_runRows rfl (rowsKeep_rowPlan rfl _) _ _ _ hrows)).trans
    ((cmdKept_addStats _ k _ _ _ run _ _).trans (cmdKept_rowsEnd _ r _ _ _))

theorem exec_vectorStages : ∀ e ∈ vectorStages, ∀ (t hub phys : Nat) (run : StageRun) (s : State),
    exec (e.1 t hub phys run) s = settle s (vecEvent s t hub phys e.2.1 e.2.2 run) := by
  simp only [vectorStages, List.forall_mem_cons, List.not_mem_nil, IsEmpty.forall_iff, implies_true, and_true]
  and_intros <;> intros <;> rfl

/-- Settles O16: the stage that its event finds runs its rows (`going_runRows`) and ends (`stageEnds_of_cmdKept`). -/
theorem vectorStagesRunToTheirEnd : Obligations.VectorStagesRunToTheirEnd := by
  intro e he s t hub phys run r i st d u k hstage hd hclean hfree hready
  obtain ⟨w, hw, hkept⟩ := vecStage_ends hclean hfree hready
  have hevent : vecEvent s t hub phys e.2.1 e.2.2 run = stageDone w k r.num i := by
    unfold vecEvent
    dsimp only
    rw [hstage]
    dsimp only
    rw [hd]
    exact hw
  refine runs_of_settle (exec_vectorStages e he t hub phys run s) ?_
  rw [hevent]
  exact stageEnds_of_cmdKept hfree.1 hkept

end Sys2Proof.Machine
end

section
/-! O17: the tiles of a MATRIX or Freewheel stage keep its core's queue, unless one is held at a checkpoint or in its drain. -/

namespace Sys2Proof.Machine

variable {k n : Nat}

theorem cmdKept_setEngine (s : State) (j kind : Nat) (x : ArrayState) : CmdKept k n s (setEngine s j kind x) := by
  unfold setEngine
  split <;> exact cmdKept_of_queues rfl

theorem cmdKept_updEngine (s : State) (j kind : Nat) (f : ArrayState → ArrayState) : CmdKept k n s (updEngine s j kind f) :=
  cmdKept_setEngine s j kind _

/-! Injected faults that a replay clears -/

/-- A fault that was injected and that its replay clears (R120): it is counted and reported, but is no event of the core. -/
def Passing (f : StageFault) : Prop := f.injected = true ∧ f.replayOk = true

theorem cmdKept_faultCounts (s : State) (j : Nat) (st : Stage) (f : StageFault) (sum : Bool) (cyc : Nat) :
    CmdKept k n s (faultCounts s j st f sum cyc) := by
  unfold faultCounts
  extract_lets m u v w x y
  have hu : CmdKept k n s u := (within_contribute s _ _).cmdKept (by simp) k n
  split
  · have hx : CmdKept k n s w := (hu.trans (cmdKept_incX u _ _ _ k n)).trans (cmdKept_incX v _ _ _ k n)
    refine CmdKept.trans ?_ (cmdKept_incX x _ _ _ k n)
    unfold x
    split
    · exact hx
    · exact hx.trans (cmdKept_incX w _ _ _ k n)
  · refine CmdKept.trans (hu.trans ?_) ((cmdKept_incX y _ _ _ k n).trans (cmdKept_incX _ _ _ _ k n))
    unfold y
    split <;> exact cmdKept_incX u _ _ _ k n

theorem cmdKept_stageFault {f : StageFault} (hf : Passing f) (s : State) (j : Nat) (r : RunCmd) (i : Nat) (st : Stage) (sum : Bool)
    (cyc : Nat) (row : RowOut) : CmdKept k n s (stageFault s j r i st f sum cyc row) := by
  unfold stageFault
  simp only [hf.1, hf.2, if_true]
  exact (((cmdKept_faultCounts s j st f sum cyc).trans ((within_useReserve _ _).cmdKept (by simp) k n)).trans
    ((within_trail _ _ _ _ _ _).cmdKept (by simp) k n)).trans
    (((within_report _ _ _ _ _ _ _).cmdKept (by simp) k n).trans ((within_trail _ _ _ _ _ _).cmdKept (by simp) k n))

variable {e : ArrayRun} {ts : TileSet}

theorem passing_segFault (he : ∀ f ∈ e.faults, Passing f) {tile seg : Nat} {f : StageFault} (h : segFault e tile seg = some f)
    (residue : Bool) : Passing { f with residue := residue } := by
  unfold segFault at h
  split at h
  · cases h
  · next g rest hlist =>
    have hmem : ∀ x ∈ g :: rest, Passing x := fun x hx => he x (List.mem_of_mem_filter (hlist ▸ hx))
    cases h
    have hg := hmem g List.mem_cons_self
    have hrest : ∀ x ∈ rest, Passing x := fun x hx => hmem x (List.mem_cons_of_mem _ hx)
    simp only [Passing, hg.1, hg.2, Bool.true_and, List.all_eq_true]
    exact ⟨fun x hx => (hrest x hx).1, fun x hx => (hrest x hx).2⟩

/-! Tiles -/

/-- A checkpoint that does not hold the engine. -/
theorem going_checkpoint (he : ∀ f ∈ e.faults, Passing f) (t : Tile) (tile seg cyc : Nat) (s : State) :
    Going k n s (checkpoint e t tile seg cyc s) := by
  unfold checkpoint
  extract_lets blks u x clean hit a sum pass f v w
  have hu : CmdKept k n s u := cmdKept_updEngine s _ _ _
  have hpass : ∀ (y : State) (b : Bank), CmdKept k n y (pass y b) := fun y b => cmdKept_updEngine y _ _ _
  split
  · split
    · next hreplay =>
      have hf : Passing { f with residue := hit.2 } := by
        unfold f at hreplay ⊢
        cases hseg : segFault e tile seg with
        | none => simp [hseg] at hreplay
        | some g => exact passing_segFault he hseg _
      have hv : CmdKept k n s v := hu.trans (cmdKept_updEngine u _ _ _)
      have hw : CmdKept k n v w := cmdKept_stageFault hf v _ _ _ _ _ _ _
      exact ((hv.trans hw).trans (hpass w clean)).going
    · exact going_stopped k n s _
  · exact (hu.trans (hpass u hit.1)).going

theorem going_runSegments (he : ∀ f ∈ e.faults, Passing f) (t : Tile) (tile : Nat) :
    ∀ (m seg : Nat) (s : State), Going k n s (runSegments e ts t tile m seg s)
  | 0, _, s => (CmdKept.refl k n s).going
  | m + 1, seg, s => by
    have hu := cmdKept_updEngine (k := k) (n := n) s e.k e.kind fun x => { x with port := ts.port tile seg }
    exact ((going_checkpoint he t tile seg _ _).after hu).andThen (going_runSegments he t tile m (seg + 1))

theorem going_runDrain : ∀ (l : List StageFault), (∀ f ∈ l, Passing f) → ∀ s : State, Going k n s (runDrain e l s)
  | [], _, s => (CmdKept.refl k n s).going
  | f :: rest, hl, s => by
    have hf : Passing { f with residue := true } := hl f List.mem_cons_self
    unfold runDrain
    dsimp only
    split
    · exact (going_runDrain rest (fun g hg => hl g (List.mem_cons_of_mem _ hg)) _).after (cmdKept_stageFault hf s _ _ _ _ _ _ _)
    · exact going_stopped k n s _

/-- The rows that a tile gives out keep the queue. -/
def OutKeeps (k n : Nat) (ts : TileSet) : Prop := ∀ s t accs, CmdKept k n s (ts.out s t accs)

theorem going_endTile (he : ∀ f ∈ e.faults, Passing f) (hout : OutKeeps k n ts) (t : Tile) (tile : Nat) (s : State) :
    Going k n s (endTile e ts t tile s) := by
  unfold endTile
  extract_lets m x u v d
  split
  · exact CmdKept.going (cmdKept_updEngine s _ _ _)
  · have hu : CmdKept k n s u := cmdKept_setEngine s _ _ _
    have hv : CmdKept k n u v := by
      unfold v
      split
      · exact CmdKept.refl k n u
      · exact cmdKept_incX u _ _ _ k n
    have hd : Going k n s d := by
      refine (going_runDrain _ (fun f hf => ?_) v).after (hu.trans hv)
      split at hf
      · cases hf
      · exact he f (List.mem_of_mem_filter hf)
    exact hd.andThen fun y => (hout y tile _).going

theorem going_runTile (he : ∀ f ∈ e.faults, Passing f) (hout : OutKeeps k n ts) (s : State) (tile seg : Nat) (fresh : Bool) :
    Going k n s (runTile e ts s tile seg fresh) := by
  unfold runTile
  extract_lets x t mine w u y
  have hu : CmdKept k n s u := by
    unfold u
    split
    · exact cmdKept_setEngine s _ _ _
    · exact CmdKept.refl k n s
  exact ((going_runSegments he t tile _ seg u).after hu).andThen (going_endTile he hout t tile)

/-- The tiles of a stage none of which is held keep the queue. -/
theorem going_runTiles (he : ∀ f ∈ e.faults, Passing f) (hout : OutKeeps k n ts) :
    ∀ (m tile : Nat) (s : State), Going k n s (runTiles e ts m tile s)
  | 0, _, s => (CmdKept.refl k n s).going
  | m + 1, tile, s => (going_runTile he hout s tile 0 true).andThen (going_runTiles he hout m (tile + 1))

/-! Injections -/

/-- An injection takes the armed fault away and gives faults that a replay clears. -/
theorem injected_passes (s : State) (j slot live : Nat) (joins stays : Bool) (kind : Nat) :
    (∀ f ∈ (injected s j slot live joins stays kind).1, Passing f) ∧
      CmdKept k n s (injected s j slot live joins stays kind).2 := by
  unfold injected
  extract_lets late u v f
  have hlate : ∀ g ∈ late, Passing g := by
    unfold late
    split <;> simp [Passing]
  have hu : CmdKept k n s u := by
    unfold u
    split
    · exact CmdKept.refl k n s
    · exact cmdKept_updEngine s _ _ _
  have hv : CmdKept k n s v := hu.trans (cmdKept_of_queues rfl)
  have happend : ∀ l : List StageFault, (∀ g ∈ l, Passing g) → ∀ g ∈ late ++ l, Passing g :=
    fun l hl g hg => (List.mem_append.mp hg).elim (hlate g) (hl g)
  split
  · split
    · exact ⟨hlate, hu⟩
    · split
      · refine ⟨happend _ ?_, hv⟩
        split <;> simp [f, Passing]
      · exact ⟨happend _ (by simp [f, Passing]), hv⟩
      · split
        · exact ⟨hlate, hv.trans (cmdKept_updEngine v j kind fun x => { x with drainFault := true })⟩
        · exact ⟨happend _ (by simp [f, Passing]), hv⟩
      · exact ⟨hlate, hv⟩
  · exact ⟨hlate, hu⟩

/-! The stages -/

theorem cmdKept_writeRow (s : State) (addr fmt col : Nat) (vals : List Nat) : CmdKept k n s (writeRow s addr fmt col vals) :=
  cmdKept_each _ (fun t _ => (within_writeBits t _ _ _ _).cmdKept (by simp) k n) _ s

theorem cmdKept_emitTile (s : State) (hand : Bool) (o : OutDesc) (off stride row0 col0 : Nat) (out : List (List Nat)) :
    CmdKept k n s (emitTile s k n hand o off stride row0 col0 out) := by
  unfold emitTile
  split
  · exact cmdKept_updCmd s k n _ fun _ => ⟨rfl, rfl, rfl⟩
  · exact cmdKept_each _ (fun t _ => cmdKept_writeRow t _ _ _ _) _ s

theorem cmdKept_arrayCounts (s : State) (j ctx kind : Nat) (run : StageRun) : CmdKept k n s (arrayCounts s j ctx kind run) := by
  unfold arrayCounts
  extract_lets u v w
  have hu : CmdKept k n s u := cmdKept_incX s _ _ _ k n
  have hv : CmdKept k n u v := by
    unfold v
    split
    · exact cmdKept_incX u _ _ _ k n
    · exact CmdKept.refl k n u
  have hw : CmdKept k n v w := cmdKept_incX v _ _ _ k n
  exact ((hu.trans hv).trans hw).trans ((cmdKept_stall w _ _ _ _ k n).trans (cmdKept_stall _ _ _ _ _ k n))

theorem cmdKept_writeThrough (s : State) (hand : HandOver) (d : MatrixDesc) (live : Nat) :
    CmdKept k n s (writeThrough s k hand d live) := cmdKept_each _ (fun t _ => cmdKept_writeRow t _ _ _ _) _ s

theorem cmdKept_matSetup (s : State) (r : RunCmd) (d : MatrixDesc) (live : Nat) : CmdKept k r.num s (matSetup k r d live s) := by
  unfold matSetup
  extract_lets u v
  have hu : CmdKept k r.num s u := cmdKept_liveClamp s k r _ _ _ k _
  have hv : CmdKept k r.num u v := by
    unfold v
    split
    · exact cmdKept_writeThrough u _ _ _
    · exact CmdKept.refl k _ u
  split
  · exact (hu.trans hv).trans (cmdKept_handOver v k _ _)
  · exact hu.trans hv

theorem cmdKept_fwSetup (s : State) (r : RunCmd) (d : FwDesc) (live : Nat) : CmdKept k r.num s (fwSetup k r d live s) := by
  unfold fwSetup
  extract_lets u
  have hu : CmdKept k r.num s u := cmdKept_liveClamp s k r _ _ _ k _
  split
  · exact hu.trans (cmdKept_handOver u k _ _)
  · exact hu

theorem cmdKept_preloadNext (s : State) (m : Nat) : CmdKept k n s (preloadNext k m s) := by
  unfold preloadNext
  split
  · exact cmdKept_updEngine s _ _ _
  · exact CmdKept.refl k n s

/-- A MATRIX or Freewheel stage none of whose tiles is held ends after work that has kept its core's queue. -/
theorem arrayStage_ends {u : State} {i kind live rows : Nat} {r : RunCmd} {st : Stage} {run : StageRun} {joins stays : Bool}
    {setup after : State → State} (hclean : cleanRun run) (hfree : stageFree u k r i st)
    (hsetup : ∀ s, CmdKept k r.num s (setup s)) (hafter : ∀ s, CmdKept k r.num s (after s)) (hout : OutKeeps k r.num ts)
    (hgo : (passTiles (arrayCounts (setup (runCounts u k run)) k r.q.ctx kind run) k r i st run kind live joins stays ts).2.2 = false) :
    ∃ w, arrayStage u k r i st run kind live rows joins stays setup ts after = stageDone w k r.num i ∧ CmdKept k r.num u w := by
  unfold arrayStage
  simp only [enterStage_go hfree hclean, hgo, Bool.false_eq_true, if_false]
  have hcounts : CmdKept k r.num u (arrayCounts (setup (runCounts u k run)) k r.q.ctx kind run) :=
    ((cmdKept_runCounts u k _ run).trans (hsetup _)).trans (cmdKept_arrayCounts _ k _ _ run)
  generalize arrayCounts (setup (runCounts u k run)) k r.q.ctx kind run = c at hgo hcounts ⊢
  obtain ⟨hfaults, hinj⟩ := injected_passes (k := k) (n := r.num) c k r.q.slot live joins stays kind
  have htiles : CmdKept k r.num c (passTiles c k r i st run kind live joins stays ts).2.1 := by
    refine hinj.trans (going_runTiles (fun f hf => ?_) hout _ _ _ hgo)
    dsimp only at hf
    split at hf
    · cases hf
    · exact hfaults f (by simpa [hclean.1] using hf)
  have hrows : ∀ x, CmdKept k r.num x (contribute x 1 rows) := fun x => (within_contribute x _ _).cmdKept (by simp) k _
  exact ⟨_, rfl, (((hcounts.trans htiles).trans (cmdKept_addStats _ k _ _ _ run _ _)).trans (hrows _)).trans (hafter _)⟩

/-- Settles O17: the stage that its event finds runs its tiles (`going_runTiles`) and ends (`stageEnds_of_cmdKept`). -/
theorem matrixStagesRunToTheirEnd : Obligations.MatrixStagesRunToTheirEnd := by
  intro s t hub phys run r i u k hclean
  refine ⟨fun d hstage hfree hgo => ?_, fun d port hstage hfree hgo => ?_⟩
  · obtain ⟨w, hw, hkept⟩ := arrayStage_ends (rows := matRows d (matLive u k d)) hclean hfree (cmdKept_matSetup · r d _)
      (cmdKept_preloadNext · r.num) (fun x _ _ => cmdKept_emitTile x _ _ _ _ _ _ _) hgo
    have hexec : exec (.matrixStage t hub phys run) s = settle s (stageDone w k r.num i) := by
      rw [← hw]
      show execMatrixStage t hub phys run s = _
      unfold execMatrixStage
      dsimp only
      rw [hstage]
    exact runs_of_settle hexec (stageEnds_of_cmdKept hfree.1 hkept)
  · obtain ⟨w, hw, hkept⟩ := arrayStage_ends (rows := fwLive u k d * ceilDiv d.n 16 * ceilDiv d.k 32) hclean hfree
      (cmdKept_fwSetup · r d _) (CmdKept.refl k r.num) (fun x _ _ => cmdKept_emitTile x _ _ _ _ _ _ _) hgo
    have hexec : exec (.freewheelStage t hub phys port run) s = settle s (stageDone w k r.num i) := by
      rw [← hw]
      show execFreewheelStage t hub phys port run s = _
      unfold execFreewheelStage
      dsimp only
      rw [hstage]
      rfl
    exact runs_of_settle hexec (stageEnds_of_cmdKept hfree.1 hkept)

end Sys2Proof.Machine
end

section
/-! O18: the pages, tokens, slices and rows that a STREAM stage moves keep its core's queue, unless one meets a fault. -/

namespace Sys2Proof.Machine

variable {k n : Nat}

/-! Work that answers whether its stage completed -/

/-- Work that answers whether its stage completed keeps the queue where it did. -/
def Completing (k n : Nat) (s : State) (x : State × Bool) : Prop := x.2 = true → CmdKept k n s x.1

theorem CmdKept.completing {s t : State} (h : CmdKept k n s t) : Completing k n s (t, true) := fun _ => h

theorem completing_stopped (k n : Nat) (s t : State) : Completing k n s (t, false) := fun h => nomatch h

theorem Completing.after {s t : State} {x : State × Bool} (g : Completing k n t x) (h : CmdKept k n s t) : Completing k n s x :=
  fun hx => h.trans (g hx)

/-! What a stream unit writes -/

theorem cmdKept_writeLe (s : State) (a m v : Nat) : CmdKept k n s (writeLe s a m v) := cmdKept_writeBytes _ _ _ k n

theorem cmdKept_storeHbm (s : State) (a : Nat) (l : List Nat) : CmdKept k n s (storeHbm s a l) :=
  (publish_storeHbm s a l).cmdKept (by simp) k n

theorem cmdKept_clearLr (s : State) (a m : Nat) : CmdKept k n s (clearLr s a m) := (within_clearLr s a m).cmdKept (by simp) k n

theorem cmdKept_updPann (s : State) (f : Pannier → Pannier) : CmdKept k n s (updPann s f) := (within_pann s f).cmdKept (by simp) k n

theorem cmdKept_wr (s : State) (f : Fld) (j v : Nat) : CmdKept k n s (wr s f j v) := (within_wr s f j v).cmdKept (by simp) k n

theorem cmdKept_endItems (s : State) (p : Item → Bool) (code detail : Nat) : CmdKept k n s (endItems s p code detail) :=
  (frame_endItems s p code detail).cmdKept (by simp) k n

theorem cmdKept_loseSession (s : State) (i : Nat) : CmdKept k n s (loseSession s i) :=
  (cmdKept_endItems s _ _ _).trans ((frame_freeSession _ _).cmdKept (by simp) k n)

/-! PAGE_READ and PAGE_WRITE -/

theorem cmdKept_fillSlot (r : RunCmd) (rows : List LenRow) (flags parts layout layer dataOff mapOff stagingOff : Nat) (s : State)
    (e : Nat × Option (Nat × Nat)) :
    CmdKept k n s (fillSlot k r rows flags parts layout layer dataOff mapOff stagingOff s e) := by
  unfold fillSlot
  extract_lets h base i slab ring put mapTo
  have hput : ∀ (t : State) (l : List Nat), CmdKept k n t (put t l) := fun t l => by
    unfold put
    extract_lets filled
    have hfilled : CmdKept k n t filled := cmdKept_writeBytes _ _ t k n
    split
    · exact (hfilled.trans (cmdKept_writeBytes _ _ filled k n)).trans (cmdKept_clearLr _ _ _)
    · exact hfilled
  split
  · exact (((hput s _).trans (cmdKept_writeLe _ _ _ _)).trans (cmdKept_writeLe _ _ _ _)).trans (cmdKept_incX _ _ _ _ k n)
  · split
    · exact CmdKept.refl k n s
    · extract_lets bad src m img filled mapped
      have hmapped : CmdKept k n s mapped := ((hput s _).trans (cmdKept_writeLe filled _ _ _)).trans (cmdKept_writeLe _ _ _ _)
      split
      · exact hmapped.trans ((within_wr _ _ _ _).cmdKept (by simp) k n)
      · exact hmapped.trans (cmdKept_incX _ _ _ _ k n)

theorem completing_pageReadBody (r : RunCmd) (flags parts layout cores share budget layer idx lenOff dataOff mapOff qrySrc qryDst
    qryBytes heads stagingOff : Nat) (s : State) : Completing k n s
      (pageReadBody k r flags parts layout cores share budget layer idx lenOff dataOff mapOff qrySrc qryDst qryBytes heads
        stagingOff s) := by
  unfold pageReadBody
  extract_lets h base rows slab list slots held fill row0 qa asked lost filled valid
  split
  · exact completing_stopped k n s _
  · split
    · exact completing_stopped k n s _
    · split
      · exact completing_stopped k n s _
      · split
        · exact completing_stopped k n s _
        · have hasked : CmdKept k n s asked := by
            unfold asked
            split
            · exact cmdKept_writeBytes _ _ _ k n
            · exact CmdKept.refl k n s
          have hfilled : CmdKept k n asked filled := cmdKept_each _ (cmdKept_fillSlot r rows _ _ _ _ _ _ _) slots asked
          refine CmdKept.completing ((hasked.trans hfilled).trans (CmdKept.trans ?_ (cmdKept_each _ cmdKept_loseSession lost _)))
          exact ((cmdKept_writeLe filled _ _ _).trans (cmdKept_writeLe _ _ _ _)).trans
            ((cmdKept_writeLe _ _ _ _).trans (cmdKept_writeLe _ _ _ _))

theorem cmdKept_writeToken (layout parts layer : Nat) (s : State) (e : Nat × Nat × Nat) :
    CmdKept k n s (writeToken layout parts layer s e) := by
  unfold writeToken
  extract_lets perTok perSc perRo slabAt slot src part u v
  have hpart : ∀ t on from_ m dst, CmdKept k n t (part t on from_ m dst) := fun t on from_ m dst => by
    unfold part
    split
    · exact cmdKept_storeHbm t _ _
    · exact CmdKept.refl k n t
  exact ((hpart s _ _ _ _).trans (hpart u _ _ _ _)).trans (hpart v _ _ _ _)

theorem completing_pageWriteBody (r : RunCmd) (parts layout cores share layer lenOff dataOff : Nat) (s : State) :
    Completing k n s (pageWriteBody k r parts layout cores share layer lenOff dataOff s) := by
  unfold pageWriteBody
  extract_lets h base rows toks size pages fill places
  split
  · exact completing_stopped k n s _
  · split
    · exact completing_stopped k n s _
    · exact ((cmdKept_each _ (cmdKept_writeToken layout parts layer) places s).trans (cmdKept_incX _ _ _ _ k n)).completing

/-! ADAPTER_READ -/

theorem cmdKept_lookupEntry (s : State) (h slot : Nat) : CmdKept k n s (lookupEntry s h slot).2 := by
  unfold lookupEntry
  extract_lets gen l e u
  split
  · exact cmdKept_updPann s fun p => { p with caches := _ }
  · exact (cmdKept_incX s .PANNIER_CACHE_MISS h 1 k n).trans (cmdKept_updPann u fun p => { p with caches := _ })

/-- The items of a group that cannot be served end. -/
theorem cmdKept_endEach (code detail : Nat) (l : List (Nat × Nat)) (s : State) :
    CmdKept k n s (each l s fun t i =>
      match itemAt t i.1 i.2 with
      | some x => endItem t x code detail
      | none => t) := by
  refine cmdKept_each _ (fun t i => ?_) l s
  split
  · exact (frame_endItem t _ _ _ _).cmdKept (by simp) k n
  · exact CmdKept.refl k n t

theorem cmdKept_serveGroup (r : RunCmd) (model target cores share groupOff rowOff dataOff groupBytes statusOff : Nat) (s : State)
    (g : Nat) : CmdKept k n s (serveGroup k r model target cores share groupOff rowOff dataOff groupBytes statusOff s g) := by
  unfold serveGroup
  extract_lets h base ga slot budget first handles
  have hread := cmdKept_lookupEntry (k := k) (n := n) s h slot
  generalize lookupEntry s h slot = x at hread ⊢
  split
  next e read =>
  extract_lets why img written shown reason fault counted ended
  have hshown : CmdKept k n s shown := (hread.trans (cmdKept_writeBytes _ _ read k n)).trans (cmdKept_writeLe written _ _ _)
  split
  · exact hshown
  · have hended : CmdKept k n shown ended :=
      ((((cmdKept_wr shown _ _ _).trans (cmdKept_wr _ _ _ _)).trans ((cmdKept_wr reason _ _ _).trans (cmdKept_wr _ _ _ _))).trans
        (((within_inc fault _ _ _).cmdKept (by simp) k n).trans (cmdKept_hubError _ _ _ _ _ _ k n))).trans (cmdKept_endEach _ _ _ counted)
    split
    · exact (hshown.trans hended).trans ((within_startRelease ended _ _ _).cmdKept (by simp) k n)
    · exact hshown.trans hended

/-! Transfers -/

theorem cmdKept_cacheLine (h owner : Nat) (s : State) (line : Nat) : CmdKept k n s (cacheLine h owner s line) := by
  unfold cacheLine
  extract_lets sets same hit rest mine keep u
  split
  · exact CmdKept.refl k n s
  · refine CmdKept.trans ?_ ((within_mem u _).cmdKept (by simp) k n)
    unfold u
    split
    · exact cmdKept_incX s _ _ _ k n
    · exact CmdKept.refl k n s

theorem completing_moveRow (r : RunCmd) (mode sk dk fmt srcIdx cnt m fill : Nat) (cache : Bool) (host : Option (List Nat)) (s : State)
    (row src dst : Nat) : Completing k n s (moveRow k r mode sk dk fmt srcIdx cnt m fill cache host s row src dst) := by
  unfold moveRow
  extract_lets h ctx maint cs cd cold cached data flits
  split
  · exact completing_stopped k n s _
  · split
    · exact completing_stopped k n s _
    · split
      · split <;> exact completing_stopped k n s _
      · split
        · exact completing_stopped k n s _
        · split
          · exact (CmdKept.refl k n s).completing
          · have hcached : CmdKept k n s cached := by
              unfold cached
              split
              · exact cmdKept_each _ (cmdKept_cacheLine _ _) _ s
              · exact CmdKept.refl k n s
            split
            · exact (hcached.trans (cmdKept_each _ (fun t f => (within_redArrive _ t _ _ _ _ _).cmdKept (by simp) k n) flits
                cached)).completing
            · exact (hcached.trans ((publish_putBytes cached _ _ _).cmdKept (by simp) k n)).completing

/-- The rows of a transfer stage that nothing stops keep the queue. -/
theorem completing_moveRows (r : RunCmd) (d : StreamDesc) (host : Option (List Nat)) :
    ∀ (m row : Nat) (s : State), Completing k n s (moveRows k r d host m row s)
  | 0, _, s => (CmdKept.refl k n s).completing
  | m + 1, row, s => by
    unfold moveRows
    split
    · split
      · next mode flags fmt _ srcIdx rowB cnt _ _ _ _ fill _ _ _ _ a b _ _ =>
        have hrow := completing_moveRow (k := k) (n := n) r mode (flags % 4) (flags / 4 % 4) fmt srcIdx cnt rowB fill (bitAt flags 4) host s
          row a b
        generalize moveRow k r mode _ _ fmt srcIdx cnt rowB fill _ host s row a b = x at hrow ⊢
        obtain ⟨t, ok⟩ := x
        dsimp only
        split
        · next hok => exact (completing_moveRows r _ host m (row + 1) t).after (hrow hok)
        · exact completing_stopped k n s t
      · exact completing_stopped k n s _
    · exact completing_stopped k n s s

/-! The stages -/

/-- A stream stage whose work completes ends after work that has kept its core's queue. -/
theorem streamStage_ends {u : State} {i rows : Nat} {r : RunCmd} {st : Stage} {run : StageRun} {body : State → State × Bool}
    (hclean : cleanRun run) (hfree : stageFree u k r i st) (hbody : ∀ s, Completing k r.num s (body s))
    (hdone : (body (runCounts u k run)).2 = true) :
    ∃ w, streamStage u k r i st run rows body = stageDone w k r.num i ∧ CmdKept k r.num u w := by
  have hkept : CmdKept k r.num u (body (runCounts u k run)).1 := (cmdKept_runCounts u k _ run).trans (hbody _ hdone)
  obtain ⟨r', hr', -⟩ := hkept.own r hfree.1
  unfold streamStage
  simp only [enterStage_go hfree hclean, hdone, hr', Option.isSome_some, Bool.and_self, if_true]
  exact ⟨_, rfl, hkept.trans (cmdKept_addStats _ k _ _ _ run _ _)⟩

/-- A test of stream stages, as a test of stages. -/
def streamTest (p : StreamDesc → Bool) : Stage → Bool
  | .stream d => p d
  | _ => false

/-- The event of a stream stage finds the stage that a test of stages finds, where both tests agree. -/
theorem streamEvent_finds {s : State} {t hub phys i : Nat} {q : Stage → Bool} {p : StreamDesc → Bool} {r : RunCmd} {d : StreamDesc}
    (h : stageOf (tick s t) (coreKey hub phys) q = some (r, i, .stream d)) (htest : ∀ st, q st = streamTest p st)
    (f : State → Nat → RunCmd → Nat → StreamDesc → State) :
    streamEvent s t hub phys p f = f (tick s t) (coreKey hub phys) r i d := by
  have hsame : ∀ q' : Stage → Bool, (∀ st, q' st = q st) → stageOf (tick s t) (coreKey hub phys) q' = some (r, i, .stream d) :=
    fun q' hq => by rwa [funext hq]
  unfold streamEvent
  dsimp only
  rw [hsame _ fun st => ?_]
  rw [htest]
  cases st <;> rfl

variable {s : State} {t hub phys i : Nat} {run : StageRun} {r : RunCmd} {d : StreamDesc} {c : Instr} {q : Stage → Bool}
  {p : StreamDesc → Bool} {f : State → Nat → RunCmd → Nat → StreamDesc → State}

/-- A stream stage that its event finds, and whose work completes, runs to its end. -/
theorem streamStage_runs {rows : Nat} {body : State → State × Bool}
    (hexec : exec c s = settle s (streamEvent s t hub phys p f))
    (hstage : stageOf (tick s t) (coreKey hub phys) q = some (r, i, .stream d)) (htest : ∀ st, q st = streamTest p st)
    (hf : f (tick s t) (coreKey hub phys) r i d = streamStage (tick s t) (coreKey hub phys) r i (.stream d) run rows body)
    (hclean : cleanRun run) (hfree : stageFree (tick s t) (coreKey hub phys) r i (.stream d))
    (hbody : ∀ x, Completing (coreKey hub phys) r.num x (body x))
    (hdone : (body (runCounts (tick s t) (coreKey hub phys) run)).2 = true) :
    Runs c s fun v => StageEnds s (tick s t) v (coreKey hub phys) i r := by
  obtain ⟨w, hw, hkept⟩ := streamStage_ends (rows := rows) hclean hfree hbody hdone
  rw [streamEvent_finds hstage htest, hf, hw] at hexec
  exact runs_of_settle hexec (stageEnds_of_cmdKept hfree.1 hkept)

theorem completing_transfer (r : RunCmd) (d : StreamDesc) (host : Option (List Nat)) (en : Bool) (off rows rowB live : Nat) (s : State) :
    Completing k n s (if rowB = 0 then (liveClamp s k r en off rows, true)
      else moveRows k r d host live 0 (liveClamp s k r en off rows)) := by
  have hclamp : CmdKept k n s (liveClamp s k r en off rows) := cmdKept_liveClamp s k r en off rows k n
  split
  · exact hclamp.completing
  · exact (completing_moveRows r d host live 0 _).after hclamp

/-- Settles O18: the stage that its event finds does its work (`completing_pageReadBody`, `completing_pageWriteBody`,
`cmdKept_serveGroup`, `completing_moveRows`) and ends (`stageEnds_of_cmdKept`). -/
theorem streamStagesRunToTheirEnd : Obligations.StreamStagesRunToTheirEnd := by
  intro s t hub phys run r i d u k w hclean hfree
  refine ⟨?_, ?_, ?_, ?_⟩
  · intro fl pa la co sh bu ly ix lo dt mo qs qd qb hd so rz hd hstage hdone
    subst hd
    exact streamStage_runs rfl hstage (by rintro (_ | _ | _ | _ | _ | ⟨⟨⟩⟩) <;> rfl) rfl hclean hfree
      (completing_pageReadBody r _ _ _ _ _ _ _ _ _ _ _ _ _ _ _ _) hdone
  · intro fl pa la co sh bu ly ix lo dt mo qs qd qb hd so rz hd hstage hdone
    subst hd
    exact streamStage_runs rfl hstage (by rintro (_ | _ | _ | _ | _ | ⟨⟨⟩⟩) <;> rfl) rfl hclean hfree
      (completing_pageWriteBody r _ _ _ _ _ _ _) hdone
  · intro mo tg co sh gr go ro dt gb so rz hd hstage
    subst hd
    exact streamStage_runs rfl hstage (by rintro (_ | _ | _ | _ | _ | ⟨⟨⟩⟩) <;> rfl) rfl hclean hfree
      (fun x => (cmdKept_each _ (cmdKept_serveGroup r _ _ _ _ _ _ _ _ _) _ x).completing) rfl
  · intro m fl fm rows si rb sc src dst ss ds fv lo rz host hd hstage hdone
    subst hd
    have hbody : ∀ x, Completing k r.num x (if rb = 0 then (liveClamp x k r (bitAt fl 5) lo rows, true)
        else moveRows k r (.transfer m fl fm rows si rb sc src dst ss ds fv lo rz) host (liveRows u k (bitAt fl 5) lo rows) 0
          (liveClamp x k r (bitAt fl 5) lo rows)) := completing_transfer r _ host _ lo rows rb _
    have hend : (if rb = 0 then (liveClamp w k r (bitAt fl 5) lo rows, true)
        else moveRows k r (.transfer m fl fm rows si rb sc src dst ss ds fv lo rz) host (liveRows u k (bitAt fl 5) lo rows) 0
          (liveClamp w k r (bitAt fl 5) lo rows)).2 = true := by
      split
      · rfl
      · next hne => exact hdone.resolve_left hne
    refine ⟨fun hm => ?_, fun hm => ?_, fun hm hhost => ?_⟩
    · subst hm
      exact streamStage_runs rfl hstage (by rintro (_ | _ | _ | _ | _ | ⟨⟨⟩⟩) <;> rfl) rfl hclean hfree hbody hend
    · subst hm
      exact streamStage_runs rfl hstage (by rintro (_ | _ | _ | _ | _ | ⟨⟨⟩⟩) <;> rfl) rfl hclean hfree hbody hend
    · subst hm hhost
      exact streamStage_runs rfl hstage (by rintro (_ | _ | _ | _ | _ | ⟨⟨⟩⟩) <;> rfl) rfl hclean hfree hbody hend

end Sys2Proof.Machine
end

section
/-! O38 and O41: who commands contexts, and IDE streams that fail. -/

namespace Sys2Proof.Machine

/-! CTX_CMD from another source (R396) -/

theorem ctxCmd_of_other {s : State} {src : Src} (h : isMgmt s src = false) (t op c : Nat) (cls : Bool) :
    ctxCmd s src t op c cls = s := by
  unfold ctxCmd
  dsimp only
  rw [if_pos h]

/-- Settles O38: a write of CTX_CMD from another source is ignored. -/
theorem onlyManagementCommandsContexts : Obligations.OnlyManagementCommandsContexts := by
  intro s src t c cls hsrc e he
  simp only [List.mem_cons, List.not_mem_nil, or_false] at he
  rcases he with rfl | rfl | rfl | rfl <;>
    exact unchanged_runs (congrArg (settle s) (ctxCmd_of_other hsrc _ _ _ _))

/-! The states of the other contexts -/

theorem rd_setCtxState_other {d c : Nat} (h : d ≠ c) (s : State) (v : Nat) :
    rd (setCtxState s c v) .CTX_STATE_STATE d = rd s .CTX_STATE_STATE d := by
  unfold setCtxState
  rw [(within_raiseModule _ _).regs _ _ (by simp), rd_wr_ne _ _ _ _ _ _ (by simp), rd_wr_ne _ _ _ _ _ _ fun e => h e.2]

theorem rd_startTeardown_state_other {s : State} {c d : Nat} (hc : c ≠ 0)
    (hst : rd s .CTX_STATE_STATE c = 1 ∨ rd s .CTX_STATE_STATE c = 2) (cause : Nat) (h : d ≠ c) :
    rd (startTeardown s c cause) .CTX_STATE_STATE d = rd s .CTX_STATE_STATE d := by
  rw [(startTeardown_frame hc hst cause).regs _ _ (by decide), tornDown, rd_wr_ne _ _ _ _ _ _ (by simp), rd_setCtxState_other h]

/-! Streams -/

theorem confGranted_congr {s t : State} {c : Nat} (hclass : rd t .CTX_STATE_CLASS c = rd s .CTX_STATE_CLASS c)
    (hstate : rd t .CTX_STATE_STATE c = rd s .CTX_STATE_STATE c) : confGranted t c = confGranted s c := by
  unfold confGranted confidential rdb
  rw [hclass, hstate]

theorem granted_of_confGranted {s : State} {c : Nat} (h : confGranted s c = true) :
    c ≠ 0 ∧ c < 64 ∧ (rd s .CTX_STATE_STATE c = 1 ∨ rd s .CTX_STATE_STATE c = 2) := by
  simp only [confGranted, Bool.and_eq_true, Bool.or_eq_true, beq_iff_eq, decide_eq_true_eq] at h
  obtain ⟨⟨⟨hpos, hlt⟩, -⟩, hst⟩ := h
  exact ⟨by omega, hlt, hst⟩

/-- A function's stream leaves the secure state. -/
def streamLost (s : State) (c : Nat) : State :=
  updMgt (wr (wr s .CTX_STATE_IDE_READY c 0) .CTXWIN_INFO_IDE_READY c 0)
    fun m => { m with ide := m.ide.map (fun e => if e.1 = c then (e.1, { e.2 with active := none }) else e) }

theorem withinAt_streamLost (s : State) (c : Nat) :
    WithinAt [.mgt] [(.CTX_STATE_IDE_READY, c), (.CTXWIN_INFO_IDE_READY, c)] s (streamLost s c) :=
  (((withinAt_wr s _ _ _).trans (withinAt_wr _ _ _ _)).trans (within_mgt _ _).toWithinAt).mono (by simp) (by simp)

/-- An entry that changes in place is found changed. -/
theorem storeFind_mapAt {α : Type} (f : α → α) (k : Nat) : ∀ m : Store α,
    storeFind (m.map fun e => if e.1 = k then (e.1, f e.2) else e) k = (storeFind m k).map f
  | [] => rfl
  | (j, v) :: r => by
    by_cases h : j = k
    · simp [storeFind, h]
    · simpa [storeFind, h, Ne.symm h] using storeFind_mapAt f k r

theorem active_streamLost (s : State) (c : Nat) : (ideStream (streamLost s c) c).active = none := by
  have h := storeFind_mapAt (fun x : IdeStream => { x with active := none }) c s.mgt.ide
  unfold ideStream storeGet
  rw [show (streamLost s c).mgt.ide = s.mgt.ide.map (fun e => if e.1 = c then (e.1, { e.2 with active := none }) else e) from rfl, h]
  cases storeFind s.mgt.ide c <;> rfl

theorem confGranted_streamLost (s : State) (c d : Nat) : confGranted (streamLost s c) d = confGranted s d :=
  confGranted_congr ((withinAt_streamLost s c).regs _ _ (by simp)) ((withinAt_streamLost s c).regs _ _ (by simp))

theorem ideDown_eq (s : State) (c : Nat) :
    ideDown s c = if confGranted s c then startTeardown (streamLost s c) c 2 else streamLost s c := by
  rw [← confGranted_streamLost s c c]
  rfl

/-- The state in which a failed stream is dealt with: an integrity failure has been counted. -/
def failureCounted (s : State) (t : Nat) (integrity : Bool) : State :=
  if integrity then inc (tick s t) .PCIE_IDE_FAIL else tick s t

theorem withinAt_failureCounted (s : State) (t : Nat) (integrity : Bool) :
    WithinAt [.now] [(.PCIE_IDE_FAIL, 0)] s (failureCounted s t integrity) := by
  have htick := (within_tick s t).toWithinAt
  unfold failureCounted
  split
  · exact (htick.trans (withinAt_wr (tick s t) .PCIE_IDE_FAIL 0 _)).mono (by simp) (by simp)
  · exact htick.mono (by simp) (by simp)

theorem rd_failureCounted (s : State) (t : Nat) (integrity : Bool) : rd (failureCounted s t integrity) .PCIE_IDE_FAIL =
    if integrity then rd (inc s .PCIE_IDE_FAIL) .PCIE_IDE_FAIL else rd s .PCIE_IDE_FAIL := by
  unfold failureCounted
  split <;> rfl

theorem exec_ideFailure {s : State} {c : Nat} (hpos : 1 ≤ c) (hlt : c < 64) (hready : rd s .CTX_STATE_IDE_READY c = 1) (t : Nat)
    (integrity : Bool) : exec (.ideFailure t c integrity) s = settle s (ideDown (failureCounted s t integrity) c) := by
  have hgo : ¬ (c = 0 ∨ 64 ≤ c ∨ rdb (tick s t) .CTX_STATE_IDE_READY c = false) := by
    simp only [rdb, rd_tick, hready]
    simp
    omega
  show execIdeFailure t c integrity s = _
  unfold execIdeFailure
  dsimp only
  rw [if_neg hgo]
  rfl

/-- A context that is not a granted confidential one loses its stream alone. -/
theorem ideFailure_drops {s : State} {c : Nat} (hpos : 1 ≤ c) (hlt : c < 64) (hconf : confGranted s c = false)
    (hready : rd s .CTX_STATE_IDE_READY c = 1) (t : Nat) (integrity : Bool) : Runs (.ideFailure t c integrity) s fun v =>
      rd v .CTX_STATE_IDE_READY c = 0 ∧ rd v .CTXWIN_INFO_IDE_READY c = 0 ∧ (ideStream v c).active = none ∧
      rd v .PCIE_IDE_FAIL = (if integrity then rd (inc s .PCIE_IDE_FAIL) .PCIE_IDE_FAIL else rd s .PCIE_IDE_FAIL) ∧
      KeptBut [.mgt, .now] s v ∧
      RegsKept [(.CTX_STATE_IDE_READY, c), (.CTXWIN_INFO_IDE_READY, c), (.PCIE_IDE_FAIL, 0)] s v := by
  refine runs_of_settle (exec_ideFailure hpos hlt hready t integrity) ?_
  have hcount := withinAt_failureCounted s t integrity
  have hfail := rd_failureCounted s t integrity
  have hkeep : confGranted (failureCounted s t integrity) c = false :=
    (confGranted_congr (hcount.regs _ _ (by simp)) (hcount.regs _ _ (by simp))).trans hconf
  rw [ideDown_eq, hkeep, if_neg (by simp)]
  generalize failureCounted s t integrity = u at *
  have hlost := withinAt_streamLost u c
  refine ⟨?_, ?_, active_streamLost u c, ?_, ((hcount.trans hlost).mono (by simp) (by simp)).settled⟩
  · rw [rd_settled_other _ _ _ _ (by decide)]
    simp [streamLost, rd_wr]
  · rw [rd_settled_other _ _ _ _ (by decide)]
    simp [streamLost]
  · rw [rd_settled_other _ _ _ _ (by decide), hlost.regs _ _ (by simp), hfail]

/-- What the start of a teardown leaves of a context that is torn down, and of the others. -/
theorem tearsDown {s u : State} {c : Nat} (hconf : confGranted s c = true) (hmem : u.mem = s.mem)
    (hstate : ∀ d, rd u .CTX_STATE_STATE d = rd s .CTX_STATE_STATE d) :
    let v := settled s (startTeardown u c 2)
    rd v .CTX_STATE_STATE c = 3 ∧ rd v .SERVE_CTRL_ENABLE c = 0 ∧ v.mem = s.mem ∧
      (∀ d, d ≠ c → rd v .CTX_STATE_STATE d = rd s .CTX_STATE_STATE d) ∧
      rd v .PCIE_IDE_FAIL = rd u .PCIE_IDE_FAIL ∧ rd v .CTX_STATE_IDE_READY c = rd u .CTX_STATE_IDE_READY c := by
  obtain ⟨hc, -, hst⟩ := granted_of_confGranted hconf
  rw [← hstate c] at hst
  obtain ⟨htearing, henable, hmemory⟩ := startTeardown_starts hc hst 2
  refine ⟨?_, ?_, hmemory.trans hmem, fun d hd => ?_, ?_, ?_⟩ <;> rw [rd_settled_other _ _ _ _ (by decide)]
  · exact htearing
  · exact henable
  · rw [rd_startTeardown_state_other hc hst 2 hd, hstate]
  · exact rd_startTeardown hc hst 2 (by decide) 0
  · exact rd_startTeardown hc hst 2 (by decide) c

/-- A granted confidential context whose stream fails is torn down. -/
theorem ideFailure_tears {s : State} {c : Nat} (hconf : confGranted s c = true) (hready : rd s .CTX_STATE_IDE_READY c = 1) (t : Nat)
    (integrity : Bool) : Runs (.ideFailure t c integrity) s fun v =>
      rd v .CTX_STATE_STATE c = 3 ∧ rd v .CTX_STATE_IDE_READY c = 0 ∧ rd v .SERVE_CTRL_ENABLE c = 0 ∧
      rd v .PCIE_IDE_FAIL = (if integrity then rd (inc s .PCIE_IDE_FAIL) .PCIE_IDE_FAIL else rd s .PCIE_IDE_FAIL) ∧
      v.mem = s.mem ∧ (∀ d, d ≠ c → rd v .CTX_STATE_STATE d = rd s .CTX_STATE_STATE d) := by
  obtain ⟨hc, hlt, -⟩ := granted_of_confGranted hconf
  refine runs_of_settle (exec_ideFailure (Nat.one_le_iff_ne_zero.mpr hc) hlt hready t integrity) ?_
  have hcount := withinAt_failureCounted s t integrity
  have hfail := rd_failureCounted s t integrity
  have hkeep : confGranted (failureCounted s t integrity) c = true :=
    (confGranted_congr (hcount.regs _ _ (by simp)) (hcount.regs _ _ (by simp))).trans hconf
  rw [ideDown_eq, hkeep, if_pos rfl]
  generalize failureCounted s t integrity = u at *
  have hlost := withinAt_streamLost u c
  obtain ⟨hstate, henable, hmem, hothers, hcounted, hdown⟩ := tearsDown (u := streamLost u c) hconf
    ((hcount.parts .mem (by simp)).trans (hlost.parts .mem (by simp)))
    fun d => (hlost.regs _ _ (by simp)).trans (hcount.regs _ _ (by simp))
  refine ⟨hstate, ?_, henable, ?_, hmem, hothers⟩
  · rw [hdown]
    simp [streamLost, rd_wr]
  · rw [hcounted, hlost.regs _ _ (by simp), hfail]

/-- A request outside the stream of a granted confidential context tears it down. -/
theorem nonIdeRequest_tears {s : State} {c : Nat} (hconf : confGranted s c = true) (t : Nat) : Runs (.nonIdeRequest t c) s fun v =>
      rd v .CTX_STATE_STATE c = 3 ∧ rd v .SERVE_CTRL_ENABLE c = 0 ∧
      rd v .PCIE_IDE_FAIL = rd (inc s .PCIE_IDE_FAIL) .PCIE_IDE_FAIL ∧ v.mem = s.mem ∧
      (∀ d, d ≠ c → rd v .CTX_STATE_STATE d = rd s .CTX_STATE_STATE d) := by
  have hexec : exec (.nonIdeRequest t c) s = settle s (startTeardown (failureCounted s t true) c 2) := by
    show execNonIdeRequest t c s = _
    unfold execNonIdeRequest
    dsimp only
    rw [if_pos (show confGranted (tick s t) c = true from hconf)]
    rfl
  have hcount := withinAt_failureCounted s t true
  obtain ⟨hstate, henable, hmem, hothers, hcounted, -⟩ := tearsDown hconf (hcount.parts .mem (by simp))
    fun d => hcount.regs _ d (by simp)
  exact runs_of_settle hexec ⟨hstate, henable, hcounted.trans (rd_failureCounted s t true), hmem, hothers⟩

theorem ticks_runs {c : Instr} {s : State} {t : Nat} (hexec : exec c s = settle s (tick s t)) :
    Runs c s fun v => KeptBut [.now] s v ∧ RegsKept [] s v := runs_of_settle hexec (within_tick s t).toWithinAt.settled

/-- Settles O41: the failure of a stream tears a granted confidential context down (`ideFailure_tears`) and no other
(`ideFailure_drops`). -/
theorem ideFailuresTearDown : Obligations.IdeFailuresTearDown := by
  refine ⟨fun s t c hpos hlt hconf hready integrity => ideFailure_drops hpos hlt hconf hready t integrity,
    fun s t c hready integrity => ticks_runs (t := t) ?_, fun s t c hconf => ticks_runs (t := t) ?_,
    fun s t c hconf => ⟨fun hready integrity => ideFailure_tears hconf hready t integrity, nonIdeRequest_tears hconf t⟩⟩
  · show execIdeFailure t c integrity s = _
    unfold execIdeFailure
    dsimp only
    rw [if_pos (Or.inr (Or.inr (by simpa [rdb] using hready)))]
  · show execNonIdeRequest t c s = _
    unfold execNonIdeRequest
    dsimp only
    rw [if_neg (by simpa using (show confGranted (tick s t) c = false from hconf))]

end Sys2Proof.Machine
end

section
/-! What the start of a teardown does to the queues and to the list of contexts that are torn down (R116, R378). -/

namespace Sys2Proof.Machine

variable {c : Nat}

/-! The contexts' own state -/

theorem ctxs_profile (s : State) (k : Nat) (r : RunCmd) (stopped : Bool) : (profile s k r stopped).ctxs = s.ctxs := by
  unfold profile
  extract_lets h sel n head full u g row v w
  have hu : u.ctxs = s.ctxs := by
    unfold u
    split <;> rfl
  split
  · rfl
  · split
    · exact hu
    · split <;> exact hu

theorem ctxs_stopOnCore (s : State) (k : Nat) : (stopOnCore c s k).ctxs = s.ctxs := by
  unfold stopOnCore
  extract_lets mine u hold v w x
  have hu : u.ctxs = s.ctxs := each_view (·.ctxs) _ (fun t r => (ctxs_profile _ k r true).trans
    ((within_trail t _ _ _ _ _).parts .ctxs (by simp))) mine s
  have hx : x.ctxs = u.ctxs := by
    unfold x
    split <;> rfl
  exact hx.trans hu

theorem ctxs_sumTurn (s : State) (h : Nat) : (sumTurn s h).ctxs = s.ctxs := by
  refine each_view (·.ctxs) _ (fun t e => ?_) _ s
  split
  · rfl
  · dsimp only
    split
    · rfl
    · split <;> rfl

theorem ctxs_drainSums (s : State) (h : Nat) : (drainSums s h).ctxs = s.ctxs :=
  each_view (·.ctxs) (fun t (_ : Nat) => sumTurn t h) (fun t _ => ctxs_sumTurn t h) _ s

theorem ctxs_stopCommands (s : State) : (stopCommands s c).ctxs = s.ctxs := by
  unfold stopCommands
  extract_lets ks hubs u v w x named y
  have hu : u.ctxs = s.ctxs := each_view (·.ctxs) _ ctxs_stopOnCore ks s
  have hw : w.ctxs = v.ctxs := each_view (·.ctxs) (fun t (e : Nat × List SummaryRec) =>
    setSumq t e.1 (e.2.filter (fun r => r.ctx != c))) (fun _ _ => rfl) _ v
  have hx : x.ctxs = w.ctxs := each_view (·.ctxs) _ ctxs_drainSums _ w
  have hy : y.ctxs = x.ctxs := each_view (·.ctxs) (fun t n =>
    wr (wr (wr (wr t .VEC_SCALAR_VALID n 0) .VEC_SCALAR_CTX n 0) .VEC_SCALAR_SHARED n 0) .VEC_SCALAR_VALUE n 0)
    (fun _ _ => rfl) _ x
  have hp : (pumpAll y hubs).ctxs = y.ctxs := (queueFrame_each queueFrame_pump hubs y).within.parts .ctxs (by simp)
  exact hp.trans (hy.trans (hx.trans (hw.trans hu)))

theorem ctxs_freeSems (s : State) : (freeSems s c).ctxs = s.ctxs := by
  unfold freeSems
  refine each_view (·.ctxs) _ (fun t n => ?_) _ s
  split <;> rfl

theorem within_dropCredits (s : State) : Within [.rep, .fab] [.SPOKE_CREDIT_POOL] s (dropCredits s c) := by
  unfold dropCredits
  refine Within.trans (within_each _ (fun t l => ?_) _ s) ((within_fab _ _).mono (by simp) (by simp))
  extract_lets x n u
  have hu : Within [.rep, .fab] [.SPOKE_CREDIT_POOL] t u := (within_fab t _).mono (by simp) (by simp)
  exact (hu.trans ((within_returnCredits u l c n).mono (by simp) (by simp))).trans ((within_wr _ _ _ _).mono (by simp) (by simp))

/-! The queues -/

/-- No core holds a command of a context. -/
def FreeOf (c : Nat) (s : State) : Prop := ∀ q ∈ queuedCmds s, q.ctx ≠ c

theorem FreeOf.of_queuesFrom {s t : State} (h : FreeOf c s) (k : QueuesFrom s t) : FreeOf c t := fun q hq => h q (k hq)

theorem freeOf_iff {s : State} : FreeOf c s ↔ ∀ e ∈ s.core.queues, ∀ r ∈ e.2, r.q.ctx ≠ c :=
  ⟨fun h e he r hr => h r.q (mem_queuedCmds.mpr ⟨e, he, r, hr, rfl⟩), fun h q hq => by
    obtain ⟨e, he, r, hr, rfl⟩ := mem_queuedCmds.mp hq
    exact h e he r hr⟩

theorem freeOf_stopCommands (s : State) : FreeOf c (stopCommands s c) := by
  unfold stopCommands
  extract_lets ks hubs u v w x named y
  have hv : FreeOf c v := by
    rw [freeOf_iff]
    intro e he r hr
    obtain ⟨he, -⟩ := List.mem_filter.mp he
    obtain ⟨e', -, rfl⟩ := List.mem_map.mp he
    simpa using (List.mem_filter.mp hr).2
  have hw : w.core.queues = v.core.queues := each_view (fun t => t.core.queues) (fun t (e : Nat × List SummaryRec) =>
    setSumq t e.1 (e.2.filter (fun r => r.ctx != c))) (fun _ _ => rfl) _ v
  have hx : x.core.queues = w.core.queues := each_view (fun t => t.core.queues) _ queues_drainSums _ w
  have hy : y.core.queues = x.core.queues := each_view (fun t => t.core.queues) (fun t n =>
    wr (wr (wr (wr t .VEC_SCALAR_VALID n 0) .VEC_SCALAR_CTX n 0) .VEC_SCALAR_SHARED n 0) .VEC_SCALAR_VALUE n 0)
    (fun _ _ => rfl) _ x
  exact hv.of_queuesFrom ((queuesFrom_of_queues (hy.trans (hx.trans hw))).trans (queuesFrom_pumpAll y hubs))

theorem queues_freeSems (s : State) : (freeSems s c).core.queues = s.core.queues := by
  unfold freeSems
  refine each_view (fun t => t.core.queues) _ (fun t n => ?_) _ s
  split <;> rfl

/-- What a teardown stops of a context's work, and of the locked segments that it takes part in. -/
def stopWork (s : State) (c : Nat) (p : Segment → Bool) : State :=
  abortSegments (dropCredits (freeSems (stopCommands (dropWindows s c) c) c) c) p

theorem ctxs_stopWork (s : State) (p : Segment → Bool) : (stopWork s c p).ctxs = s.ctxs := by
  have hsegs (u : State) : (abortSegments u p).ctxs = u.ctxs := (queueFrame_abortSegments u p).within.parts .ctxs (by simp)
  have hcredits (u : State) : (dropCredits u c).ctxs = u.ctxs := (within_dropCredits u).parts .ctxs (by simp)
  have hwindows : (dropWindows s c).ctxs = s.ctxs := (within_dropWindows s c).parts .ctxs (by simp)
  unfold stopWork
  rw [hsegs, hcredits, ctxs_freeSems, ctxs_stopCommands, hwindows]

theorem freeOf_stopWork (s : State) (p : Segment → Bool) : FreeOf c (stopWork s c p) := by
  refine (freeOf_stopCommands (dropWindows s c)).of_queuesFrom (queuesFrom_of_queues ?_)
  have hcredits (u : State) : (dropCredits u c).core = u.core := (within_dropCredits u).parts .core (by simp)
  unfold stopWork
  rw [abortSegments_core, hcredits, queues_freeSems]

/-- The end of a teardown's start: heartbeats, the count and the report. -/
theorem within_teardownCounted (s : State) (cause : Nat) : Within [.rep] ([.INTEG_HEARTBEAT, .CTX_TEARDOWNS] ++ reportFlds) s
    (reportTeardown (inc (resetRegs s (keptRank .ctx) (fun f _ => f == .INTEG_HEARTBEAT)) .CTX_TEARDOWNS) c cause) := by
  have hbeats := within_resetRegs (p := fun f _ => f == .INTEG_HEARTBEAT) (fs := [.INTEG_HEARTBEAT]) (fun f hf _ => by simpa using hf)
    s (keptRank .ctx)
  have hcount := hbeats.append (within_inc _ .CTX_TEARDOWNS 0 1)
  exact hcount.append (within_report _ _ _ _ _ _ _)

/-- As a teardown starts, the context is listed and its commands have stopped. -/
theorem startTeardown_stops {s : State} (hc : c ≠ 0) (hst : rd s .CTX_STATE_STATE c = 1 ∨ rd s .CTX_STATE_STATE c = 2) (cause : Nat) :
    FreeOf c (startTeardown s c cause) ∧ (c, s.now) ∈ (startTeardown s c cause).ctxs.tearing := by
  have hgo : ¬ (c = 0 ∨ rd s .CTX_STATE_STATE c = 0 ∨ rd s .CTX_STATE_STATE c = 3) := by omega
  unfold startTeardown
  extract_lets st tasks u v w x
  rw [if_neg hgo]
  have hnow : v.now = s.now := by
    unfold v
    split <;> exact (within_setCtxState s c 3).parts .now (by simp)
  have hlisted : (c, s.now) ∈ w.ctxs.tearing := by simp [w, hnow]
  have hfree : FreeOf c x := freeOf_stopWork w tasks
  have hctxs : x.ctxs = w.ctxs := ctxs_stopWork w tasks
  clear_value x
  have hend := within_teardownCounted (c := c) x cause
  have hcore := hend.parts .core (by simp)
  have hkept := hend.parts .ctxs (by simp)
  exact ⟨hfree.of_queuesFrom (queuesFrom_of_core hcore), by rwa [← hctxs, ← show _ = _ from hkept] at hlisted⟩

end Sys2Proof.Machine
end

section
/-! O37: the commands of CTX_CMD (R369, R375, R377, R378, R440). -/

namespace Sys2Proof.Machine

variable {s : State} {src : Src} {t c : Nat}

/-! The outcome of a command (R369) -/

theorem within_ctxOutcome (s : State) (took refused : Bool) :
    Within [] [.CTX_CMD_STATUS_DONE, .CTX_CMD_STATUS_CMD_REJECTED] s (ctxOutcome s took refused) :=
  (within_wrb s _ _ _).append (within_wrb _ _ _ _)

theorem within_ctxDone (s : State) :
    Within [] [.CTX_CMD_STATUS_BUSY, .CTX_CMD_STATUS_DONE, .CTX_CMD_STATUS_CMD_REJECTED] s (ctxDone s) :=
  (within_wr s _ _ _).append (within_ctxOutcome _ _ _)

theorem within_ctxBusy (s : State) :
    Within [] [.CTX_CMD_STATUS_BUSY, .CTX_CMD_STATUS_DONE, .CTX_CMD_STATUS_CMD_REJECTED] s (ctxBusy s) :=
  (within_wr s _ _ _).append (within_ctxOutcome _ _ _)

@[simp] theorem rd_ctxDone_done (s : State) : rd (ctxDone s) .CTX_CMD_STATUS_DONE = 1 := by
  simp [ctxDone, ctxOutcome, wrb, rd_wr, b2n]

@[simp] theorem rd_ctxDone_busy (s : State) : rd (ctxDone s) .CTX_CMD_STATUS_BUSY = 0 := by
  simp [ctxDone, ctxOutcome, wrb, rd_wr]

@[simp] theorem rd_ctxBusy_busy (s : State) : rd (ctxBusy s) .CTX_CMD_STATUS_BUSY = 1 := by
  simp [ctxBusy, ctxOutcome, wrb, rd_wr]

theorem withinAt_ctxRejected (s : State) (r : Nat) :
    WithinAt [] [(.CTX_CMD_STATUS_DONE, 0), (.CTX_CMD_STATUS_CMD_REJECTED, 0), (.CTX_CMD_STATUS_REASON, 0)] s (ctxRejected s r) :=
  ((withinAt_wr s _ _ _).trans (withinAt_wr _ _ _ _)).trans (withinAt_wr _ _ _ _)

/-- A command that is rejected changes its outcome alone. -/
theorem rejected_runs {e : Instr} {r : Nat} (hexec : exec e s = settle s (ctxRejected (tick s t) r)) : Runs e s fun v =>
    rd v .CTX_CMD_STATUS_CMD_REJECTED = 1 ∧ rd v .CTX_CMD_STATUS_REASON = r ∧ KeptBut [.now] s v ∧
    RegsKept [(.CTX_CMD_STATUS_DONE, 0), (.CTX_CMD_STATUS_CMD_REJECTED, 0), (.CTX_CMD_STATUS_REASON, 0)] s v := by
  refine runs_of_settle hexec ⟨?_, ?_,
    (((within_tick s t).toWithinAt.trans (withinAt_ctxRejected _ r)).mono (by simp) (by simp)).settled⟩
  all_goals
    rw [rd_settled_other _ _ _ _ (by decide)]
    simp [ctxRejected, ctxOutcome, wrb, rd_wr, b2n]

/-! Which command runs -/

/-- A command from management, with none busy and the module awake. -/
structure Commands (s : State) (src : Src) (c : Nat) : Prop where
  ctx : c < 64
  mgmt : isMgmt s src = true
  idle : rd s .CTX_CMD_STATUS_BUSY ≠ 1
  awake : rd s .LP_STATUS_STATE < 2

/-- It runs at once. -/
theorem ctxCmd_of_awake (h : Commands s src c) (t op : Nat) (cls : Bool) :
    ctxCmd s src t op c cls = runCtxCmd (tick s t) op c cls := by
  have hbusy : ¬ (rdb (tick s t) .CTX_CMD_STATUS_BUSY = true ∧
      ¬ (op = 4 ∧ (tick s t).ctxs.suspending.any (fun e => e.1 == c) = true)) := fun hb =>
    absurd hb.1 (by rw [rdb_of_ne_one (by rw [rd_tick]; exact h.idle)]; simp)
  unfold ctxCmd
  dsimp only
  rw [Nat.mod_eq_of_lt h.ctx, if_neg (by simp [h.mgmt]), if_neg hbusy, if_neg (by rw [rd_tick]; exact Nat.not_le.mpr h.awake)]

theorem exec_ctxGrant_of_awake (h : Commands s src c) (t : Nat) (cls : Bool) :
    exec (.ctxGrant src t c cls) s = settle s (ctxGrant (tick s t) c cls) :=
  congrArg (settle s) (ctxCmd_of_awake h t 1 cls)

theorem exec_ctxSuspend_of_awake (h : Commands s src c) (t : Nat) :
    exec (.ctxSuspend src t c) s = settle s (ctxSuspend (tick s t) c) :=
  congrArg (settle s) (ctxCmd_of_awake h t 2 false)

theorem exec_ctxResume_of_awake (h : Commands s src c) (t : Nat) :
    exec (.ctxResume src t c) s = settle s (ctxResume (tick s t) c) :=
  congrArg (settle s) (ctxCmd_of_awake h t 3 false)

theorem exec_ctxTeardown_of_awake (h : Commands s src c) (t : Nat) :
    exec (.ctxTeardown src t c) s = settle s (ctxTeardown (tick s t) c) :=
  congrArg (settle s) (ctxCmd_of_awake h t 4 false)

/-! GRANT (R215, R369, R370) -/

theorem fldOf_ctorIdx (f : Fld) : fldOf f.ctorIdx = some f := by cases f <;> rfl

/-- Whether the window's reset keeps the register of a key. -/
def windowKeeps (c k : Nat) : Bool :=
  !(match fldOf (k % 1024) with
    | some f => (servingFld f || f == .MBX_CTRL_IN_FULL || f == .MBX_CTRL_OUT_BUSY || f == .MBX_CTRL_OVERRUN)
        && blockIdx f (k / 1024) == c
    | none => false)

theorem resetWindow_regs (s : State) (c : Nat) : (resetWindow s c).regs = storeKeep (windowKeeps c) s.regs := rfl

theorem windowKeeps_regKey (c n : Nat) (f : Fld) : windowKeeps c (regKey f n) =
    !((servingFld f || f == .MBX_CTRL_IN_FULL || f == .MBX_CTRL_OUT_BUSY || f == .MBX_CTRL_OVERRUN) && blockIdx f n == c) := by
  have hlt := ctorIdx_lt f
  have hmod : regKey f n % 1024 = f.ctorIdx := by
    rw [regKey]
    omega
  have hdiv : regKey f n / 1024 = n := by
    rw [regKey]
    omega
  unfold windowKeeps
  rw [hmod, hdiv, fldOf_ctorIdx]

theorem rd_resetWindow (s : State) (c n : Nat) (f : Fld) :
    rd (resetWindow s c) f n = if windowKeeps c (regKey f n) then rd s f n else regReset f n := by
  unfold rd
  rw [resetWindow_regs, storeGet_keep]

theorem rd_resetWindow_serving {f : Fld} {n : Nat} (hf : servingFld f = true) (hn : blockIdx f n = c) (s : State) :
    rd (resetWindow s c) f n = regReset f n := by
  rw [rd_resetWindow, windowKeeps_regKey, hf, hn]
  simp

theorem rd_resetWindow_state (s : State) (c d : Nat) : rd (resetWindow s c) .CTX_STATE_STATE d = rd s .CTX_STATE_STATE d := by
  rw [rd_resetWindow, windowKeeps_regKey, show servingFld .CTX_STATE_STATE = false by decide]
  simp

theorem parts_resetWindow (s : State) (c : Nat) : KeptBut [.ctxs, .serve] s (resetWindow s c) := fun p hp => by
  cases p with
  | ctxs | serve => exact absurd (by simp) hp
  | _ => rfl

/-- What a grant writes once the window is reset. -/
def ctxGranted (s : State) (c slot : Nat) (cls : Bool) : State :=
  ctxDone (setCtxState (wr (wr (wr s .CTX_STATE_CLASS c (b2n cls)) .CTXWIN_INFO_CLASS c (b2n cls)) .CTX_STATE_SLOT c slot) c 1)

/-- The fields that a grant writes. -/
def grantFlds : List Fld :=
  [.CTX_STATE_CLASS, .CTXWIN_INFO_CLASS, .CTX_STATE_SLOT] ++ [.CTX_STATE_STATE, .CTXWIN_INFO_STATE, .EVC_STATUS_CTX] ++
    [.CTX_CMD_STATUS_BUSY, .CTX_CMD_STATUS_DONE, .CTX_CMD_STATUS_CMD_REJECTED]

theorem within_ctxGranted (s : State) (c slot : Nat) (cls : Bool) : Within [.rep] grantFlds s (ctxGranted s c slot cls) := by
  have hclass := ((within_wr s .CTX_STATE_CLASS c (b2n cls)).append (within_wr _ .CTXWIN_INFO_CLASS c (b2n cls))).append
    (within_wr _ .CTX_STATE_SLOT c slot)
  exact (hclass.append (within_setCtxState _ c 1)).append (within_ctxDone _)

theorem rd_ctxGranted_state (s : State) (c slot d : Nat) (cls : Bool) :
    rd (ctxGranted s c slot cls) .CTX_STATE_STATE d = if d = c then 1 else rd s .CTX_STATE_STATE d := by
  unfold ctxGranted
  rw [(within_ctxDone _).regs _ _ (by simp)]
  split
  · next h => rw [h, rd_setCtxState]
  · next h => rw [rd_setCtxState_other h, rd_wr_ne _ _ _ _ _ _ (by simp), rd_wr_ne _ _ _ _ _ _ (by simp), rd_wr_ne _ _ _ _ _ _ (by simp)]

theorem rd_ctxGranted_class (s : State) (c slot : Nat) (cls : Bool) :
    rd (ctxGranted s c slot cls) .CTX_STATE_CLASS c = b2n cls := by
  unfold ctxGranted
  rw [(within_ctxDone _).regs _ _ (by simp), (within_setCtxState _ _ _).regs _ _ (by simp)]
  simp [rd_wr]

theorem rd_ctxGranted_slot (s : State) (c slot : Nat) (cls : Bool) : rd (ctxGranted s c slot cls) .CTX_STATE_SLOT c = slot := by
  unfold ctxGranted
  rw [(within_ctxDone _).regs _ _ (by simp), (within_setCtxState _ _ _).regs _ _ (by simp), rd_wr_same]

theorem ctxGrant_of_free {cls : Bool} (hfree : rd s .CTX_STATE_STATE c = 0) (hphase : rd s .BOOT_STATUS_PHASE = 8)
    (htest : rd s .DBG_STATUS_TEST_MODE ≠ 1) (hslot : cls = true → freeSaveSlot s ≠ none) :
    ctxGrant s c cls = ctxGranted (resetWindow s c) c (if cls then (freeSaveSlot s).getD 0 else 0) cls := by
  unfold ctxGrant
  dsimp only
  rw [if_neg (by simp [hfree, hphase, rdb_of_ne_one htest]), if_neg fun h => hslot h.1 h.2]
  rfl

theorem ctxGrant_runs (h : Commands s src c) {cls : Bool} (hfree : rd s .CTX_STATE_STATE c = 0) (hphase : rd s .BOOT_STATUS_PHASE = 8)
    (htest : rd s .DBG_STATUS_TEST_MODE ≠ 1) (hslot : cls = true → freeSaveSlot s ≠ none) : Runs (.ctxGrant src t c cls) s fun v =>
      rd v .CTX_STATE_STATE c = 1 ∧ rd v .CTX_STATE_CLASS c = (if cls then 1 else 0) ∧
      (cls = true → freeSaveSlot s = some (rd v .CTX_STATE_SLOT c)) ∧ (cls = false → rd v .CTX_STATE_SLOT c = 0) ∧
      rd v .CTX_CMD_STATUS_DONE = 1 ∧
      (∀ f n, servingFld f = true → f ∉ viewFlds → blockIdx f n = c → rd v f n = regReset f n) ∧
      (∀ d, d ≠ c → rd v .CTX_STATE_STATE d = rd s .CTX_STATE_STATE d) ∧ KeptBut [.ctxs, .now, .rep, .serve] s v := by
  have hexec := exec_ctxGrant_of_awake h t cls
  rw [ctxGrant_of_free (s := tick s t) hfree hphase htest hslot] at hexec
  have hview : ∀ (u : State) (f : Fld) (n : Nat), f ∉ viewFlds → rd (settled s u) f n = rd u f n := fun u f n hf =>
    rd_settled_other _ _ _ _ hf
  have hwritten : ∀ f ∈ grantFlds, servingFld f = false := by decide
  have hgrant := within_ctxGranted (resetWindow (tick s t) c) c (if cls then (freeSaveSlot (tick s t)).getD 0 else 0) cls
  refine runs_of_settle hexec ⟨?_, ?_, fun hc => ?_, fun hc => ?_, ?_, fun f n hf hview' hn => ?_, fun d hd => ?_, fun p hp => ?_⟩
  · rw [hview _ _ _ (by decide), rd_ctxGranted_state, if_pos rfl]
  · rw [hview _ _ _ (by decide), rd_ctxGranted_class, b2n]
  · obtain ⟨n, hn⟩ := Option.ne_none_iff_exists'.mp (hslot hc)
    rw [hview _ _ _ (by decide), rd_ctxGranted_slot, if_pos hc, show freeSaveSlot (tick s t) = some n from hn, hn]
    rfl
  · rw [hview _ _ _ (by decide), rd_ctxGranted_slot, if_neg (by simp [hc])]
  · rw [hview _ _ _ (by decide)]
    exact rd_ctxDone_done _
  · rw [hview _ _ _ hview', show rd _ f n = _ from hgrant.regs f n fun hm => by simp [hwritten f hm] at hf]
    exact rd_resetWindow_serving hf hn _
  · rw [hview _ _ _ (by decide), rd_ctxGranted_state, if_neg hd, rd_resetWindow_state, rd_tick]
  · have hnow : [Part.now] ⊆ [.ctxs, .now, .rep, .serve] := by simp
    have hwindow : [Part.ctxs, .serve] ⊆ [.ctxs, .now, .rep, .serve] := by simp
    have hrep : [Part.rep] ⊆ [.ctxs, .now, .rep, .serve] := by simp
    have hreset := parts_resetWindow (tick s t) c p fun hm => hp (hwindow hm)
    exact (((within_tick s t).parts p fun hm => hp (hnow hm)).trans hreset).trans (hgrant.settled.1 p fun hm => hp (hrep hm))

/-! SUSPEND (R375, R377) -/

theorem no_items_of_endItems (s : State) (c code detail : Nat) :
    ∀ x ∈ (endItems s (fun i => i.ctx == c) code detail).serve.items, x.ctx ≠ c := by
  intro x hx hc
  have hnone := itemAt_endItems (P := fun i => i.ctx == c) (ctx := c) (idx := x.idx) (fun y hy _ => by simpa using hy) s code detail
  exact List.find?_eq_none.mp hnone x hx (by simp [hc])

/-- A suspend that has begun: later cards of the context are discarded, and it waits for its cores. -/
def suspendBegun (s : State) (c : Nat) : State :=
  updCtxs (ctxBusy (updCore s fun x => { x with
    queues := (x.queues.map (fun e => (e.1, keepRunning c s.now e.2))).filter (fun e => !e.2.isEmpty) }))
    fun x => { x with suspending := x.suspending ++ [(c, s.now)] }

theorem within_suspendBegun (s : State) (c : Nat) : Within [.core, .ctxs]
    [.CTX_CMD_STATUS_BUSY, .CTX_CMD_STATUS_DONE, .CTX_CMD_STATUS_CMD_REJECTED] s (suspendBegun s c) :=
  ((within_core s _).append (within_ctxBusy _)).append (within_ctxs _ _)

/-- What ends with it: the segments that have not begun, the items, and the planned windows. -/
def suspendEnds (s : State) (c : Nat) : State :=
  dropWindows (endItems (leaveUnbegun s c) (fun i => i.ctx == c) 0x23 0x04) c

theorem within_suspendEnds (s : State) (c : Nat) : Within [.fab, .serve, .rep, .lard, .tt] itemFlds s (suspendEnds s c) :=
  (((within_fab s _).mono (by simp) (by simp)).trans ((frame_endItems _ _ _ _).mono (by simp) (by simp))).trans
    ((within_dropWindows _ c).mono (by simp) (by simp))

theorem ctxSuspend_of_active (hc : c ≠ 0) (hst : rd s .CTX_STATE_STATE c = 1) :
    ctxSuspend s c = suspendEnds (suspendBegun s c) c := by
  unfold ctxSuspend
  dsimp only
  rw [if_neg hc, if_neg (by simp [hst])]
  rfl

theorem ctxSuspend_runs (h : Commands s src c) (hc : c ≠ 0) (hst : rd s .CTX_STATE_STATE c = 1) :
    Runs (.ctxSuspend src t c) s fun v =>
      rd v .CTX_CMD_STATUS_BUSY = 1 ∧ (c, max s.now t) ∈ v.ctxs.suspending ∧ (∀ x ∈ v.serve.items, x.ctx ≠ c) ∧
      (∀ d, rd v .CTX_STATE_STATE d = rd s .CTX_STATE_STATE d) ∧
      KeptBut [.core, .ctxs, .fab, .lard, .now, .rep, .serve, .tt] s v := by
  have hexec := exec_ctxSuspend_of_awake h t
  rw [ctxSuspend_of_active (s := tick s t) hc hst] at hexec
  have hbegun := within_suspendBegun (tick s t) c
  have hends := within_suspendEnds (suspendBegun (tick s t) c) c
  have hctxs := hends.parts .ctxs (by simp)
  have hall := ((within_tick s t).append hbegun).append hends
  refine runs_of_settle hexec ⟨?_, ?_, ?_, fun d => ?_, (hall.frame (by simp) (List.Subset.refl _)).1⟩
  · rw [rd_settled_other _ _ _ _ (by decide), hends.regs _ _ (by decide)]
    exact rd_ctxBusy_busy _
  · show _ ∈ (suspendEnds (suspendBegun (tick s t) c) c).ctxs.suspending
    rw [show _ = _ from hctxs]
    simp [suspendBegun]
  · have hserve := (within_dropWindows (endItems (leaveUnbegun (suspendBegun (tick s t) c) c) (fun i => i.ctx == c) 0x23 0x04) c).parts
      .serve (by simp)
    show ∀ x ∈ (suspendEnds (suspendBegun (tick s t) c) c).serve.items, x.ctx ≠ c
    unfold suspendEnds
    rw [show _ = _ from hserve]
    exact no_items_of_endItems _ c _ _
  · rw [rd_settled_other _ _ _ _ (by decide), hall.regs _ _ (by decide)]

/-! RESUME (R369) and TEARDOWN (R378) -/

theorem ctxResume_runs (h : Commands s src c) (hst : rd s .CTX_STATE_STATE c = 2) : Runs (.ctxResume src t c) s fun v =>
    rd v .CTX_STATE_STATE c = 1 ∧ rd v .CTX_CMD_STATUS_DONE = 1 ∧
    Frame [.now, .rep] [.CTX_STATE_STATE, .CTXWIN_INFO_STATE, .EVC_STATUS_CTX, .CTX_CMD_STATUS_BUSY, .CTX_CMD_STATUS_DONE,
      .CTX_CMD_STATUS_CMD_REJECTED] s v := by
  have hexec := exec_ctxResume_of_awake h t
  rw [ctxResume, if_pos (show rd (tick s t) .CTX_STATE_STATE c = 2 from hst)] at hexec
  refine runs_of_settle hexec ⟨?_, ?_, (((within_tick s t).append (within_setCtxState _ c 1)).append (within_ctxDone _)).settled⟩
  · rw [rd_settled_other _ _ _ _ (by decide), (within_ctxDone _).regs _ _ (by decide), rd_setCtxState]
  · rw [rd_settled_other _ _ _ _ (by decide), rd_ctxDone_done]

theorem ctxTeardown_runs (h : Commands s src c) (hc : c ≠ 0) (hst : rd s .CTX_STATE_STATE c = 1 ∨ rd s .CTX_STATE_STATE c = 2) :
    Runs (.ctxTeardown src t c) s fun v =>
      rd v .CTX_STATE_STATE c = 3 ∧ rd v .SERVE_CTRL_ENABLE c = 0 ∧ rd v .CTX_CMD_STATUS_DONE = 1 ∧
      (∀ e ∈ v.core.queues, ∀ r ∈ e.2, r.q.ctx ≠ c) ∧ (∃ x, (c, x) ∈ v.ctxs.tearing) ∧ v.mem = s.mem ∧
      (∀ d, d ≠ c → rd v .CTX_STATE_STATE d = rd s .CTX_STATE_STATE d) := by
  have hst' : rd (tick s t) .CTX_STATE_STATE c = 1 ∨ rd (tick s t) .CTX_STATE_STATE c = 2 := hst
  have hexec := exec_ctxTeardown_of_awake h t
  rw [ctxTeardown, if_neg hc, if_pos hst'] at hexec
  obtain ⟨hstate, henable, hmem⟩ := startTeardown_starts hc hst' 3
  obtain ⟨hfree, hlisted⟩ := startTeardown_stops hc hst' 3
  have hother := fun d (hd : d ≠ c) => rd_startTeardown_state_other hc hst' 3 hd
  generalize startTeardown (tick s t) c 3 = u at *
  have hdone := within_ctxDone u
  refine runs_of_settle hexec ⟨?_, ?_, ?_, freeOf_iff.mp hfree, ⟨_, hlisted⟩, hmem, fun d hd => ?_⟩
  · rw [rd_settled_other _ _ _ _ (by decide), hdone.regs _ _ (by decide), hstate]
  · rw [rd_settled_other _ _ _ _ (by decide), hdone.regs _ _ (by decide), henable]
  · rw [rd_settled_other _ _ _ _ (by decide), rd_ctxDone_done]
  · rw [rd_settled_other _ _ _ _ (by decide), hdone.regs _ _ (by decide), hother d hd, rd_tick]

/-! In a low-power state (R440) -/

theorem startExit_begins (h : rd s .LP_STATUS_STATE ∈ [2, 3, 4]) (reason : Nat) : ExitBegins s (startExit s reason) reason := by
  have hst : rd s .LP_STATUS_STATE = 2 ∨ rd s .LP_STATUS_STATE = 3 ∨ rd s .LP_STATUS_STATE = 4 := by simpa using h
  unfold startExit
  extract_lets st u v w x
  have hboot : x.boot = v.boot := by
    unfold x w
    split <;> split <;> rfl
  rw [if_neg (by omega), if_pos hst]
  refine ⟨?_, ?_, congrArg (·.lpReason) hboot, congrArg (·.lpFrom) hboot⟩
  all_goals simp [rd_wr]

/-- The command is held and the module wakes. -/
theorem ctxCmd_held (hc : c < 64) (hmgmt : isMgmt s src = true) (hidle : rd s .CTX_CMD_STATUS_BUSY ≠ 1)
    (hlow : rd s .LP_STATUS_STATE ∈ [2, 3, 4]) (t op : Nat) (cls : Bool) : ctxCmd s src t op c cls =
      updBoot (ctxBusy (startExit (tick s t) 3)) fun b => { b with heldCmd := some (op, c, cls) } := by
  have hbusy : rdb (tick s t) .CTX_CMD_STATUS_BUSY = false := rdb_of_ne_one hidle
  have hst : rd s .LP_STATUS_STATE = 2 ∨ rd s .LP_STATUS_STATE = 3 ∨ rd s .LP_STATUS_STATE = 4 := by simpa using hlow
  unfold ctxCmd
  dsimp only
  rw [Nat.mod_eq_of_lt hc, if_neg (by simp [hmgmt]), if_neg (by simp [hbusy]), if_pos (by rw [rd_tick]; omega)]

theorem held_runs {e : Instr} {op : Nat} {cls : Bool} (hlow : rd s .LP_STATUS_STATE ∈ [2, 3, 4])
    (hexec : exec e s = settle s (updBoot (ctxBusy (startExit (tick s t) 3)) fun b => { b with heldCmd := some (op, c, cls) })) :
    Runs e s fun v => v.boot.heldCmd = some (op, c, cls) ∧ rd v .CTX_CMD_STATUS_BUSY = 1 ∧ ExitBegins s v 3 ∧
      Frame [.boot, .now, .rep] (exitFlds ++ [.CTX_CMD_STATUS_BUSY, .CTX_CMD_STATUS_DONE, .CTX_CMD_STATUS_CMD_REJECTED]) s v := by
  obtain ⟨hstate, hready, hreason, hfrom⟩ := startExit_begins (s := tick s t) hlow 3
  have hexit := within_startExit (tick s t) 3
  generalize startExit (tick s t) 3 = u at *
  have hall := (((within_tick s t).append hexit).append (within_ctxBusy u)).append
    (within_boot (ctxBusy u) fun b => { b with heldCmd := some (op, c, cls) })
  refine runs_of_settle hexec ⟨rfl, ?_, ⟨?_, ?_, hreason, hfrom⟩, (hall.mono (by simp) (by simp)).settled⟩
  · rw [rd_settled_other _ _ _ _ (by decide)]
    exact rd_ctxBusy_busy u
  · rw [rd_settled_other _ _ _ _ (by decide), (within_boot _ _).regs _ _ (by simp), (within_ctxBusy u).regs _ _ (by decide), hstate]
  · rw [rd_settled_other _ _ _ _ (by decide), (within_boot _ _).regs _ _ (by simp), (within_ctxBusy u).regs _ _ (by decide), hready]

theorem commands_held (hc : c < 64) (hmgmt : isMgmt s src = true) (hidle : rd s .CTX_CMD_STATUS_BUSY ≠ 1)
    (hlow : rd s .LP_STATUS_STATE ∈ [2, 3, 4]) (cls : Bool) (e : Instr) (op : Nat)
    (he : (e, op) ∈ [(Instr.ctxSuspend src t c, 2), (.ctxResume src t c, 3), (.ctxTeardown src t c, 4)] ++ [(Instr.ctxGrant src t c cls, 1)]) :
    exec e s = settle s (updBoot (ctxBusy (startExit (tick s t) 3)) fun b => { b with heldCmd := some (op, c, op = 1 && cls) }) := by
  have hheld := ctxCmd_held hc hmgmt hidle hlow t
  simp only [List.cons_append, List.nil_append, List.mem_cons, List.not_mem_nil, or_false, Prod.mk.injEq] at he
  rcases he with ⟨rfl, rfl⟩ | ⟨rfl, rfl⟩ | ⟨rfl, rfl⟩ | ⟨rfl, rfl⟩
  · exact congrArg (settle s) (hheld 2 false)
  · exact congrArg (settle s) (hheld 3 false)
  · exact congrArg (settle s) (hheld 4 false)
  · exact congrArg (settle s) (hheld 1 cls)

/-- Settles O37: each operation in the state it needs, its rejections, and the wake from a low-power state. -/
theorem contextCommandsRun : Obligations.ContextCommandsRun := by
  intro s src t c hctx hmgmt hidle hawake
  have h : Commands s src c := ⟨hctx, hmgmt, hidle, hawake⟩
  refine ⟨fun cls hfree hphase htest hslot => ctxGrant_runs h hfree hphase htest hslot,
    fun hc hst => ctxSuspend_runs h hc hst, fun hst => ctxResume_runs h hst, fun hc hst => ctxTeardown_runs h hc hst,
    fun cls hst => ?_, fun hc e he => ?_, fun e he => ?_, fun s hidle hmgmt hlow cls e op he =>
    held_runs hlow (commands_held hctx hmgmt hidle hlow cls e op he)⟩
  · obtain ⟨v, hv, hrej, -, hkept⟩ := rejected_runs (r := 2) ((exec_ctxGrant_of_awake h t cls).trans (congrArg _ (if_pos (Or.inl hst))))
    exact ⟨v, hv, hrej, hkept⟩
  · simp only [List.mem_cons, List.not_mem_nil, or_false] at he
    rcases he with rfl | rfl
    · exact rejected_runs ((exec_ctxSuspend_of_awake h t).trans (congrArg _ (if_pos hc)))
    · exact rejected_runs ((exec_ctxTeardown_of_awake h t).trans (congrArg _ (if_pos hc)))
  · rcases he with ⟨rfl, hc, hst⟩ | ⟨rfl, hst⟩ | ⟨rfl, hc, hactive, hsuspended⟩
    · exact rejected_runs ((exec_ctxSuspend_of_awake h t).trans (congrArg _ ((if_neg hc).trans (if_pos hst))))
    · exact rejected_runs ((exec_ctxResume_of_awake h t).trans (congrArg _ (if_neg hst)))
    · exact rejected_runs ((exec_ctxTeardown_of_awake h t).trans
        (congrArg _ ((if_neg hc).trans (if_neg (not_or.mpr ⟨hactive, hsuspended⟩)))))

end Sys2Proof.Machine
end

section
/-! O39: the later stages of suspend and teardown (R375, R378, Table 13-2). -/

namespace Sys2Proof.Machine

variable {s : State} {t c : Nat}

/-! SUSPEND_DONE -/

theorem suspendDone_runs {start : Nat} (hlisted : s.ctxs.suspending.find? (fun e => e.1 == c) = some (c, start))
    (hcores : s.core.queues.any (fun q => q.2.any (fun r => r.q.ctx == c)) = false) (hlocked : lockedCtx s c = false) :
    Runs (.suspendDone t c) s fun v =>
      rd v .CTX_STATE_STATE c = 2 ∧ rd v .CTX_CMD_STATUS_DONE = 1 ∧ rd v .CTX_CMD_STATUS_BUSY = 0 ∧
      rd v .CTX_PREEMPT_WAIT_MAX = max (rd s .CTX_PREEMPT_WAIT_MAX) (min (max s.now t - start) (2 ^ 32 - 1)) ∧
      (∀ e ∈ v.ctxs.suspending, e.1 ≠ c) ∧
      Frame [.ctxs, .now, .rep] [.CTX_STATE_STATE, .CTXWIN_INFO_STATE, .EVC_STATUS_CTX, .CTX_CMD_STATUS_BUSY,
        .CTX_CMD_STATUS_DONE, .CTX_CMD_STATUS_CMD_REJECTED, .CTX_PREEMPT_WAIT_MAX] s v := by
  let u := updCtxs (tick s t) fun x => { x with suspending := x.suspending.filter (fun y => y.1 != c) }
  let w := wr u .CTX_PREEMPT_WAIT_MAX 0 (max (rd s .CTX_PREEMPT_WAIT_MAX) (min (max s.now t - start) (maxOf 32)))
  have hexec : exec (.suspendDone t c) s = settle s (ctxDone (setCtxState w c 2)) := by
    show execSuspendDone t c s = _
    unfold execSuspendDone
    dsimp only
    rw [show (tick s t).ctxs.suspending.find? (fun e => e.1 == c) = some (c, start) from hlisted]
    dsimp only
    rw [show (tick s t).core = s.core from rfl, hcores, show lockedCtx (tick s t) c = false from hlocked, if_neg (by simp)]
    rfl
  have hw : Within [.now, .ctxs] [.CTX_PREEMPT_WAIT_MAX] s w :=
    ((within_tick s t).append (within_ctxs _ _)).append (within_wr u _ _ _)
  have hlist : ∀ e ∈ w.ctxs.suspending, e.1 ≠ c := fun e he => by simpa using (List.mem_filter.mp he).2
  have hwait : rd w .CTX_PREEMPT_WAIT_MAX = max (rd s .CTX_PREEMPT_WAIT_MAX) (min (max s.now t - start) (2 ^ 32 - 1)) := by
    simp [w, maxOf]
  generalize w = w at *
  have hstate := within_setCtxState w c 2
  have hdone := within_ctxDone (setCtxState w c 2)
  have hctxs := (hstate.append hdone).parts .ctxs (by simp)
  refine runs_of_settle hexec ⟨?_, ?_, ?_, ?_, fun e he => hlist e ?_, (((hw.append hstate).append hdone).mono (by simp) (by simp)).settled⟩
  · rw [rd_settled_other _ _ _ _ (by decide), hdone.regs _ _ (by decide), rd_setCtxState]
  · rw [rd_settled_other _ _ _ _ (by decide), rd_ctxDone_done]
  · rw [rd_settled_other _ _ _ _ (by decide), rd_ctxDone_busy]
  · rw [rd_settled_other _ _ _ _ (by decide), (hstate.append hdone).regs _ _ (by decide), hwait]
  · rwa [← show _ = _ from hctxs]

/-! The stores that a teardown empties -/

/-- Entries of a store that are dropped one by one, each with its key, are gone. -/
theorem dropped_each {α : Type} {m : State → Store α} {f : State → Nat × α → State} (hsub : ∀ s a, m (f s a) ⊆ m s)
    (hkey : ∀ s a, ∀ e ∈ m (f s a), e.1 ≠ a.1) (p : Nat × α → Bool) (s : State) :
    ∀ e ∈ m (each ((m s).filter p) s f), p e = false := by
  intro e he
  have hs : e ∈ m s := each_rel (r := fun t u => m u ⊆ m t) (fun _ => List.Subset.refl _) (fun h k => List.Subset.trans k h) hsub _ s he
  by_contra hp
  have hin : e ∈ (m s).filter p := List.mem_filter.mpr ⟨hs, by simpa using hp⟩
  exact each_reach (p := fun u => ∀ x ∈ m u, x.1 ≠ e.1) (fun u => hkey u e) (fun u a hu x hx => hu x (hsub u a hx)) hin s e he rfl

theorem mem_storeErase {α : Type} {m : Store α} {k : Nat} {e : Nat × α} : e ∈ storeErase m k ↔ e ∈ m ∧ e.1 ≠ k := by
  simp [storeErase]

theorem mem_storeKeep {α : Type} {m : Store α} {p : Nat → Bool} {e : Nat × α} : e ∈ storeKeep p m ↔ e ∈ m ∧ p e.1 = true := by
  simp [storeKeep]

theorem ne_of_storeFind_none {α : Type} {m : Store α} {k : Nat} (h : storeFind m k = none) : ∀ e ∈ m, e.1 ≠ k := by
  induction m with
  | nil => simp
  | cons e r ih =>
    by_cases hk : k = e.1
    · simp [storeFind, hk] at h
    · exact List.forall_mem_cons.mpr ⟨Ne.symm hk, ih (by simpa [storeFind, hk] using h)⟩

/-! Sessions -/

theorem mem_freeIndex {s : State} {i : Nat} {e : Nat × Session} (he : e ∈ (freeIndex s i).serve.sessions) :
    e ∈ s.serve.sessions ∧ e.1 ≠ i := by
  unfold freeIndex at he
  split at he
  · next h => exact ⟨he, ne_of_storeFind_none h e he⟩
  · exact mem_storeErase.mp he

theorem mem_freeSession {s : State} {i : Nat} {e : Nat × Session} (he : e ∈ (freeSession s i).serve.sessions) :
    e ∈ s.serve.sessions ∧ e.1 ≠ i := by
  unfold freeSession at he
  split at he
  · next h => exact ⟨he, ne_of_storeFind_none h e he⟩
  · split at he
    · obtain ⟨hk, hi⟩ := mem_freeIndex he
      exact ⟨(mem_freeIndex hk).1, hi⟩
    · exact mem_freeIndex he

/-- The sessions of a context are freed. -/
def freeSessions (s : State) (c : Nat) : State :=
  each (s.serve.sessions.filter (fun e => e.2.ctx == c)) s fun t e => freeSession t e.1

theorem released_freeSessions (s : State) (c : Nat) : Released s (freeSessions s c) :=
  each_rel Released.refl Released.trans (fun t (e : Nat × Session) => released_freeSession t e.1) _ s

theorem no_sessions_of_freeSessions (s : State) (c : Nat) : ∀ e ∈ (freeSessions s c).serve.sessions, e.2.ctx ≠ c := fun e he => by
  simpa using dropped_each (m := fun u => u.serve.sessions) (f := fun u (x : Nat × Session) => freeSession u x.1)
    (fun _ _ _ hx => (mem_freeSession hx).1) (fun _ _ _ hx => (mem_freeSession hx).2) (fun x => x.2.ctx == c) s e he

/-! Jobs -/

theorem within_dropJobs (s : State) (c : Nat) : Within [.pann, .mem] [.TRAIN_JOBS_OPEN] s (dropJobs s c) :=
  within_each _ (fun t _ => (((within_pann t _).mono (by simp) (by simp)).trans ((within_zeroRange _ _ _).mono (by simp) (by simp))).trans
    ((within_wr _ _ _ _).mono (by simp) (by simp))) _ s

theorem no_jobs_of_dropJobs (s : State) (c : Nat) : ∀ e ∈ (dropJobs s c).pann.jobs, e.2.ctx ≠ c := fun e he => by
  unfold dropJobs at he
  have hmem : ∀ (t : State) (k : Nat), ∀ x ∈ storeErase t.pann.jobs k, x ∈ t.pann.jobs ∧ x.1 ≠ k := fun _ _ _ => mem_storeErase.mp
  simpa using dropped_each (m := fun u => u.pann.jobs) (fun t a x hx => (hmem t a.1 x hx).1) (fun t a x hx => (hmem t a.1 x hx).2)
    (fun x => x.2.ctx == c) s e he

/-! Slots -/

/-- The slots of a context that hold an adapter start to be released. -/
def releaseSlots (s : State) (c : Nat) : State :=
  each ((slotsInUse s).filter (fun k => (plannedEntry s k).ctx == c && (plannedEntry s k).st != 4)) s fun t k =>
    startRelease t k none true

theorem within_releaseSlots (s : State) (c : Nat) : Within [.pann, .tt] [] s (releaseSlots s c) :=
  within_each _ (fun t k => within_startRelease t k none true) _ s

theorem jobs_releaseSlots (s : State) (c : Nat) : (releaseSlots s c).pann.jobs = s.pann.jobs :=
  each_view (fun u => u.pann.jobs) (fun t k => startRelease t k none true)
    (fun t k => congrArg (·.jobs) (queueEdit_pann t k { plannedEntry t k with st := 4, job := 0 } none)) _ s

/-! TEARDOWN_ITEMS_ENDED -/

/-- The context's keys and reports go, and it is listed as ended. -/
def keysDropped (s : State) (c : Nat) : State :=
  updCtxs s fun x => { x with
    keys := storeKeep (fun k => k / 4 != c) x.keys
    pendingKeys := storeKeep (fun k => k / 4 != c) x.pendingKeys
    reports := x.reports.filter (fun j => j.ctx != c)
    ended := x.ended ++ [c] }

theorem keys_of_storeKeep {α : Type} {m : Store α} : ∀ e ∈ storeKeep (fun k => k / 4 != c) m, e.1 / 4 ≠ c := fun e he => by
  simpa using (mem_storeKeep.mp he).2

theorem keys_keysDropped (s : State) (c : Nat) : ∀ e ∈ (keysDropped s c).ctxs.keys, e.1 / 4 ≠ c := keys_of_storeKeep

theorem pendingKeys_keysDropped (s : State) (c : Nat) : ∀ e ∈ (keysDropped s c).ctxs.pendingKeys, e.1 / 4 ≠ c := keys_of_storeKeep

theorem endContext_eq (s : State) (c : Nat) : endContext s c =
    mirrorKeys (keysDropped (releaseSlots (dropJobs (freeSessions (endItems s (fun i => i.ctx == c) 0x24 0) c) c) c) c) c := rfl

theorem teardownItemsEnded_runs (hlisted : s.ctxs.tearing.any (fun e => e.1 == c) = true) (hended : c ∉ s.ctxs.ended) :
    Runs (.teardownItemsEnded t c) s fun v =>
      c ∈ v.ctxs.ended ∧ (∀ x ∈ v.serve.items, x.ctx ≠ c) ∧ (∀ e ∈ v.serve.sessions, e.2.ctx ≠ c) ∧
      (∀ e ∈ v.pann.jobs, e.2.ctx ≠ c) ∧ (∀ e ∈ v.ctxs.keys, e.1 / 4 ≠ c) ∧ (∀ e ∈ v.ctxs.pendingKeys, e.1 / 4 ≠ c) ∧
      (∀ d, rd v .CTX_STATE_STATE d = rd s .CTX_STATE_STATE d) := by
  have hexec : exec (.teardownItemsEnded t c) s = settle s (endContext (tick s t) c) := by
    show execTeardownItemsEnded t c s = _
    unfold execTeardownItemsEnded
    dsimp only
    rw [if_pos ⟨hlisted, hended⟩]
  rw [endContext_eq] at hexec
  have hitems := no_items_of_endItems (tick s t) c 0x24 0
  have hfirst := ((within_tick s t).append (frame_endItems (tick s t) (fun i => i.ctx == c) 0x24 0))
  generalize endItems (tick s t) (fun i => i.ctx == c) 0x24 0 = u1 at *
  have hsessions := no_sessions_of_freeSessions u1 c
  have hfreed := released_freeSessions u1 c
  generalize freeSessions u1 c = u2 at *
  have hjobs := no_jobs_of_dropJobs u2 c
  have hdropped := within_dropJobs u2 c
  generalize dropJobs u2 c = u3 at *
  have hkept := jobs_releaseSlots u3 c
  have hreleased := within_releaseSlots u3 c
  generalize releaseSlots u3 c = u4 at *
  have hkeys : ∀ e ∈ (keysDropped u4 c).ctxs.keys, e.1 / 4 ≠ c := keys_keysDropped u4 c
  have hpending : ∀ e ∈ (keysDropped u4 c).ctxs.pendingKeys, e.1 / 4 ≠ c :=
    pendingKeys_keysDropped u4 c
  have hdrop := within_ctxs u4 fun x => { x with
    keys := storeKeep (fun k => k / 4 != c) x.keys
    pendingKeys := storeKeep (fun k => k / 4 != c) x.pendingKeys
    reports := x.reports.filter (fun j => j.ctx != c)
    ended := x.ended ++ [c] }
  have hlast := hdrop.append (within_mirrorKeys (keysDropped u4 c) c)
  have hserve : (mirrorKeys (keysDropped u4 c) c).serve = u2.serve := ((hdropped.append hreleased).append hlast).parts .serve (by simp)
  refine runs_of_settle hexec ⟨by simp [mirrorKeys, keysDropped], fun x hx => hitems x ?_, fun e he => hsessions e ?_,
    fun e he => hjobs e ?_, hkeys, hpending, fun d => ?_⟩
  · rw [← hfreed.items, ← hserve]
    exact hx
  · rw [← hserve]
    exact he
  · rw [← hkept, ← show _ = _ from hlast.parts .pann (by simp)]
    exact he
  · rw [rd_settled_other _ _ _ _ (by decide)]
    exact ((((hfirst.append hfreed.within).append hdropped).append hreleased).append hlast).regs _ _ (by decide)

/-! TEARDOWN_GRANULES_FREED -/

/-- The granules of a list are cleared. -/
def clearGranules (s : State) (gs : List Nat) : State := each gs s fun x g => clearGranule x (g * 4096)

theorem within_clearGranules (s : State) (gs : List Nat) : Within [.mem] [] s (clearGranules s gs) :=
  within_each _ (fun t _ => within_mem t _) gs s

/-- Their lines are all invalid. -/
theorem granuleWritten_clearGranules {gs : List Nat} {g : Nat} (hg : g ∈ gs) (s : State) :
    granuleWritten (clearGranules s gs) (g * 4096) = false := by
  refine each_reach (p := fun u => granuleWritten u (g * 4096) = false) (f := fun u k => clearGranule u (k * 4096))
    (fun u => granuleWritten_clearGranule u _) (fun u k hu => ?_) hg s
  unfold granuleWritten at hu ⊢
  rw [List.any_eq_false] at hu ⊢
  exact fun e he => hu e (mem_storeKeep (p := fun j => j / 32 != k * 4096 / 4096).mp he).1

theorem clearGranules_mem (s : State) (gs : List Nat) : ∃ lines, (clearGranules s gs).mem = { s.mem with valid := lines } :=
  each_rel (r := fun t u => ∃ lines, u.mem = { t.mem with valid := lines })
    (f := fun u k => clearGranule u (k * 4096)) (fun t => ⟨t.mem.valid, rfl⟩)
    (fun ⟨_, h⟩ ⟨l, k⟩ => ⟨l, by rw [k, h]⟩) (fun t _ => ⟨_, rfl⟩) gs s

/-- The context's granules are FREE and cleared, and its save slot is empty. -/
def granulesFreed (s : State) (c : Nat) : State :=
  updMem (clearGranules s (keysOf s.mem.granules c)) fun m => { m with
    granules := storeKeep (fun g => !decide (g ∈ keysOf s.mem.granules c)) m.granules
    saves := m.saves.filter (fun e => e.ctx != c) }

theorem within_granulesFreed (s : State) (c : Nat) : Within [.mem] [] s (granulesFreed s c) :=
  (within_clearGranules s _).trans (within_mem _ _)

theorem mem_keysOf {m : Store Nat} {k : Nat} (hc : c ≠ 0x7F) (h : storeGet 0x7F m k = c) : k ∈ keysOf m c := by
  unfold storeGet at h
  cases hk : storeFind m k with
  | none => simp [hk, hc.symm] at h
  | some v =>
    have hv : v = c := by simpa [hk] using h
    exact List.mem_map.mpr ⟨(k, v), List.mem_filter.mpr ⟨mem_of_storeFind hk, by simp [hv]⟩, rfl⟩

theorem granulesFreed_granule {g : Nat} (hc : c ≠ 0x7F) (h : storeGet 0x7F s.mem.granules g = c) :
    storeGet 0x7F (granulesFreed s c).mem.granules g = 0x7F ∧ granuleWritten (granulesFreed s c) (g * 4096) = false := by
  have hg := mem_keysOf hc h
  refine ⟨?_, granuleWritten_clearGranules hg s⟩
  show storeGet 0x7F (storeKeep (fun k => !decide (k ∈ keysOf s.mem.granules c))
    (clearGranules s (keysOf s.mem.granules c)).mem.granules) g = 0x7F
  rw [storeGet_keep, if_neg (by simpa using hg)]

theorem granulesFreed_saves (s : State) (c : Nat) : ∀ e ∈ (granulesFreed s c).mem.saves, e.ctx ≠ c := fun e he => by
  simpa using (List.mem_filter.mp he).2

theorem granulesFreed_regions (s : State) (c : Nat) : (granulesFreed s c).mem.regions = s.mem.regions := by
  obtain ⟨lines, hlines⟩ := clearGranules_mem s (keysOf s.mem.granules c)
  show (clearGranules s _).mem.regions = _
  rw [hlines]

/-- Regions of a list start to be cleared for a context. -/
def startClears (s : State) (rs : List Nat) (c : Nat) : State := each rs s fun x r => startClear x r 0x7F c

theorem startClear_mem (s : State) (r next ctx : Nat) : (startClear s r next ctx).mem = { s.mem with
    regions := storePut 0x7F s.mem.regions r 0x7E,
    regionClears := s.mem.regionClears.filter (fun x => x.region != r) ++ [⟨r, next, ctx⟩] } :=
  (within_planMove _ _).parts .mem (by simp)

theorem startClears_mem (s : State) (rs : List Nat) (c : Nat) : ∃ regions clears,
    (startClears s rs c).mem = { s.mem with regions := regions, regionClears := clears } :=
  each_rel (r := fun t u => ∃ regions clears, u.mem = { t.mem with regions := regions, regionClears := clears })
    (fun t => ⟨t.mem.regions, t.mem.regionClears, rfl⟩) (fun ⟨_, _, h⟩ ⟨a, b, k⟩ => ⟨a, b, by rw [k, h]⟩)
    (fun t r => ⟨_, _, startClear_mem t r 0x7F c⟩) rs s

/-- They are CLEARING. -/
theorem startClears_region {rs : List Nat} {r : Nat} (hr : r ∈ rs) (s : State) (c : Nat) :
    storeGet 0x7F (startClears s rs c).mem.regions r = 0x7E := by
  refine each_reach (p := fun u => storeGet 0x7F u.mem.regions r = 0x7E) (fun u => ?_) (fun u k hu => ?_) hr s
  · rw [startClear_mem, storeGet_put_same]
  · rw [startClear_mem]
    by_cases h : r = k
    · rw [h, storeGet_put_same]
    · rw [storeGet_put_other _ _ _ _ h, hu]

/-- The regions start to be cleared; a context without a region is FREE at once. -/
def regionsLeft (s : State) (c : Nat) : State :=
  if keysOf s.mem.regions c = [] then contextFree s c else startClears s (keysOf s.mem.regions c) c

theorem regionsLeft_mem (s : State) (c : Nat) : ∃ regions clears,
    (regionsLeft s c).mem = { s.mem with regions := regions, regionClears := clears } := by
  unfold regionsLeft
  split
  · exact ⟨s.mem.regions, s.mem.regionClears, contextFree_mem s c⟩
  · exact startClears_mem s _ c

theorem regionsLeft_region {r : Nat} (hc : c ≠ 0x7F) (h : storeGet 0x7F s.mem.regions r = c) :
    storeGet 0x7F (regionsLeft s c).mem.regions r = 0x7E := by
  have hr := mem_keysOf hc h
  unfold regionsLeft
  rw [if_neg (List.ne_nil_of_mem hr)]
  exact startClears_region hr s c

theorem rd_regionsLeft (h : ∀ e ∈ s.mem.regions, e.2 ≠ c) : rd (regionsLeft s c) .CTX_STATE_STATE c = 0 := by
  have hnone : keysOf s.mem.regions c = [] := by
    unfold keysOf
    rw [List.filter_eq_nil_iff.mpr fun e he => by simpa using h e he]
    rfl
  unfold regionsLeft
  rw [if_pos hnone, rd_contextFree]

theorem teardownGranulesFreed_runs (hc : c ≠ 0x7F) (hlisted : s.ctxs.tearing.any (fun e => e.1 == c) = true) (hended : c ∈ s.ctxs.ended) :
    Runs (.teardownGranulesFreed t c) s fun v =>
      (∀ g, storeGet 0x7F s.mem.granules g = c → storeGet 0x7F v.mem.granules g = 0x7F ∧ granuleWritten v (g * 4096) = false) ∧
      (∀ e ∈ v.mem.saves, e.ctx ≠ c) ∧ (∀ r, storeGet 0x7F s.mem.regions r = c → storeGet 0x7F v.mem.regions r = 0x7E) ∧
      ((∀ e ∈ s.mem.regions, e.2 ≠ c) → rd v .CTX_STATE_STATE c = 0) := by
  have hexec : exec (.teardownGranulesFreed t c) s = settle s (regionsLeft (granulesFreed (tick s t) c) c) := by
    show execTeardownGranulesFreed t c s = _
    unfold execTeardownGranulesFreed
    dsimp only
    rw [if_pos ⟨hlisted, hended⟩]
    rfl
  have hgranule := fun g (hg : storeGet 0x7F s.mem.granules g = c) => granulesFreed_granule (s := tick s t) hc hg
  have hsaves := granulesFreed_saves (tick s t) c
  have hregions : (granulesFreed (tick s t) c).mem.regions = s.mem.regions := granulesFreed_regions (tick s t) c
  generalize granulesFreed (tick s t) c = u at *
  obtain ⟨regions, clears, hmem⟩ := regionsLeft_mem u c
  refine runs_of_settle hexec ⟨fun g hg => ?_, ?_, fun r hr => regionsLeft_region hc (by rw [hregions, hr]), fun h => ?_⟩
  · have hm : (settled s (regionsLeft u c)).mem = { u.mem with regions := regions, regionClears := clears } := hmem
    unfold granuleWritten at hgranule ⊢
    rw [hm]
    exact hgranule g hg
  · show ∀ e ∈ (regionsLeft u c).mem.saves, e.ctx ≠ c
    rw [hmem]
    exact hsaves
  · rw [rd_settled_other _ _ _ _ (by decide)]
    exact rd_regionsLeft (by rwa [hregions])

/-- Settles O39: a suspend that is done, and the two stages of a teardown. -/
theorem contextStagesRun : Obligations.ContextStagesRun := fun _ _ _ hc =>
  ⟨fun _ hlisted hcores hlocked => suspendDone_runs hlisted hcores hlocked, teardownItemsEnded_runs,
    teardownGranulesFreed_runs (by omega)⟩

end Sys2Proof.Machine
end

section
/-! The low-power family's shared functions: what selection reads, and what entries and exits leave unchanged (R437 to R442). -/

namespace Sys2Proof.Machine

variable {s t u : State}

/-! What two steps in a row leave unchanged -/

theorem KeptBut.trans {ps qs : List Part} (h : KeptBut ps s t) (k : KeptBut qs t u) : KeptBut (ps ++ qs) s u := fun p hp =>
  (h p fun hm => hp (List.mem_append_left _ hm)).trans (k p fun hm => hp (List.mem_append_right _ hm))

theorem KeptBut.mono {ps qs : List Part} (h : KeptBut ps s t) (hp : ps ⊆ qs) : KeptBut qs s t := fun p hq => h p fun hm => hq (hp hm)

theorem Within.kept {ps : List Part} {fs : List Fld} (h : Within ps fs s t) : KeptBut ps s t := h.parts

/-- The parts of the state are not settled. -/
theorem KeptBut.settled {ps : List Part} (h : KeptBut ps s t) (u : State) : KeptBut ps s (settled u t) := fun p hp => by
  refine (h p hp).trans ?_
  cases p <;> rfl

/-! What selection reads -/

/-- The fields that selection writes. -/
def selectFlds : List Fld := [.LP_STATUS_STATE, .LP_STATUS_TARGET, .LP_STATUS_BLOCKER, .LP_NEXT_EVENT, .LP_WAKE_AT]

theorem parkTime_congr (h : ∀ f n, f ∉ selectFlds → rd t f n = rd s f n) (n form p : Nat) : parkTime t n form p = parkTime s n form p := by
  have hlayers := h .LARDER_LAYOUT_LAYERS n (by decide)
  have hlatent := h .LARDER_LAYOUT_LATENT_UNITS n (by decide)
  have hrope := h .LARDER_LAYOUT_ROPE_UNITS n (by decide)
  have hfmt := h .LARDER_LAYOUT_LATENT_FMT n (by decide)
  have hslab : slabBytes t n = slabBytes s n := by
    simp only [slabBytes, layRopeOff, layLat, layScale, layW, layDim, layRope, hlatent, hrope, hfmt]
  have hpark : ∀ form, parkSlab t n form = parkSlab s n form := fun form => by
    simp only [parkSlab, hslab, layDim, layRope, hlatent, hrope]
  unfold parkTime imageBytes layLayers
  simp only [hlayers, hslab, hpark, h .LARDER_CTRL_PARK_RATE 0 (by decide), h .LARDER_CTRL_SQUEEZE_PCT 0 (by decide)]

theorem nextEvent_congr (h : Within [.boot, .now] selectFlds s t) : nextEvent t = nextEvent s := by
  have hserve : t.serve = s.serve := h.parts .serve (by simp)
  have hlard : t.lard = s.lard := h.parts .lard (by simp)
  have hpark := parkTime_congr h.regs
  have hreq := h.regs .LP_WAKE_REQ 0 (by decide)
  simp only [nextEvent, knownEvents, rootAt, hserve, hlard, hpark, hreq]

theorem lpMargin_congr (h : Within [.boot, .now] selectFlds s t) : lpMargin t = lpMargin s :=
  congrArg (· * 1000) (h.regs .LP_CONFIG_MARGIN 0 (by decide))

theorem lpChoice_congr (h : Within [.boot, .now] selectFlds s t) (hnow : t.now = s.now) : lpChoice t = lpChoice s := by
  unfold lpChoice
  rw [nextEvent_congr h, lpMargin_congr h, hnow, h.regs .LP_CONFIG_CEILING 0 (by decide)]

theorem lpBlocker_congr (h : Within [] selectFlds s t) (depends : Bool) : lpBlocker t depends = lpBlocker s depends := by
  have hserve : t.serve = s.serve := h.parts .serve (by simp)
  have hlard : t.lard = s.lard := h.parts .lard (by simp)
  have htt : t.tt = s.tt := h.parts .tt (by simp)
  have hboot : t.boot = s.boot := h.parts .boot (by simp)
  have hnow : t.now = s.now := h.parts .now (by simp)
  have hhold := h.regs .LP_CTRL_HOLD 0 (by decide)
  have hmin := h.regs .LP_CONFIG_IDLE_MIN 0 (by decide)
  have hwindow : windowCtx t = windowCtx s := by
    unfold windowCtx rdb
    rw [h.regs .CTX_WINDOW_OPEN 0 (by decide), h.regs .CTX_WINDOW_CTX 0 (by decide)]
  unfold lpBlocker parksMoving rdb
  rw [hserve, hlard, htt, hboot, hnow, hhold, hmin, hwindow]

/-! Engines that lose their state -/

theorem within_loseEngines (s : State) : Within [.core, .mem, .pann] [] s (loseEngines s) :=
  ⟨fun p hp => by
    cases p with
    | core | mem | pann => exact absurd (by simp) hp
    | _ => rfl, fun _ _ _ => rfl⟩

theorem queueAt_loseEngines (s : State) (k : Nat) : queueAt (loseEngines s) k = [] := rfl

theorem readByte_loseEngines (s : State) (a : Nat) : readByte (loseEngines s) a = readByte s a := rfl

theorem pann_loseEngines (s : State) : (loseEngines s).pann = { s.pann with caches := [] } := rfl

theorem sumq_loseEngines (s : State) : (loseEngines s).core.sumq = s.core.sumq := rfl

/-! Wings that lose their registers and tables -/

theorem within_loseTables (s : State) : Within [.tt] [] s (loseTables s) := within_tt s _

theorem parts_wingRegs (s : State) (rank : Nat) : KeptBut [.core, .tt] s (wingRegs s rank) := fun p hp => by
  cases p with
  | core | tt => exact absurd (by simp) hp
  | _ => rfl

theorem queues_wingRegs (s : State) (rank : Nat) : (wingRegs s rank).core.queues = s.core.queues := rfl

/-- A field that no reset of the wings takes away. -/
theorem rd_wingRegs_of_vest {f : Fld} (hf : ((fieldRow f).block == .hub || (fieldRow f).block == .wing || (fieldRow f).block == .chan) = false)
    (s : State) (rank n : Nat) : rd (wingRegs s rank) f n = rd s f n :=
  rd_resetRegs_of_not (p := fun f _ => ((fieldRow f).block == .hub || (fieldRow f).block == .wing || (fieldRow f).block == .chan)
    && !decide (f ∈ restoredFlds)) (fun _ => by rw [hf, Bool.false_and]) s rank n

/-! Records of the low-power log -/

theorem within_lowPowerRecord (s : State) (a b c d : Nat) : Within [.rep] reportFlds s (lowPowerRecord s a b c d) :=
  within_report s _ _ _ _ _ _

/-- The record, the log entry and the trail entry of an entry or exit. -/
def lowPowerNoted (s : State) (a b reason us kind unit what : Nat) : State :=
  trail (logEntry (lowPowerRecord s a b reason us) kind unit 0 us) vestTrail 0x44 0 unit what

theorem within_lowPowerNoted (s : State) (a b reason us kind unit what : Nat) :
    Within [.rep, .dbg] reportFlds s (lowPowerNoted s a b reason us kind unit what) :=
  (((within_lowPowerRecord s a b reason us).append (within_logEntry _ _ _ _ _)).append (within_trail _ _ _ _ _ _)).mono (by simp) (by simp)

/-- A state is entered: its register and count, and the records of it. -/
def enteredNoted (s : State) (a st : Nat) : State :=
  lowPowerNoted (inc (wr s .LP_STATUS_STATE 0 st) .LP_ENTRIES (st - 2)) a st 1 ((s.now - s.boot.lpSince) / 1000) 5 st 1

theorem entered_eq (s : State) (a st : Nat) :
    entered s a st = updBoot (enteredNoted s a st) fun b => { b with lpSince := (enteredNoted s a st).now } := rfl

theorem within_entered (s : State) (a st : Nat) :
    Within [.boot, .rep, .dbg] ([.LP_STATUS_STATE, .LP_ENTRIES] ++ reportFlds) s (entered s a st) := by
  have h := ((within_wr s .LP_STATUS_STATE 0 st).append (within_inc _ .LP_ENTRIES (st - 2) 1)).append
    (within_lowPowerNoted _ a st 1 ((s.now - s.boot.lpSince) / 1000) 5 st 1)
  refine (h.append (within_boot _ fun b => { b with lpSince := (enteredNoted s a st).now })).mono ?_ ?_
  · simp
  · simp

theorem rd_entered_state (s : State) (a st : Nat) : rd (entered s a st) .LP_STATUS_STATE = st := by
  have hnoted := within_lowPowerNoted (inc (wr s .LP_STATUS_STATE 0 st) .LP_ENTRIES (st - 2)) a st 1 ((s.now - s.boot.lpSince) / 1000) 5 st 1
  rw [entered_eq]
  refine (hnoted.regs .LP_STATUS_STATE 0 (by decide)).trans ?_
  simp [inc, rd_wr]

/-- An entry leaves the boot state but for the time. -/
theorem boot_entered (s : State) (a st : Nat) : ∃ since, (entered s a st).boot = { s.boot with lpSince := since } := by
  have hnoted := (within_lowPowerNoted (inc (wr s .LP_STATUS_STATE 0 st) .LP_ENTRIES (st - 2)) a st 1 ((s.now - s.boot.lpSince) / 1000)
    5 st 1).parts .boot (by simp)
  exact ⟨_, congrArg (fun b => { b with lpSince := (enteredNoted s a st).now }) (show (enteredNoted s a st).boot = s.boot from hnoted)⟩

/-! Leaving the fabric (R361) and the link (R397) -/

theorem within_flood (s : State) (type : Nat) (body : List Nat) (l : Nat) : Within [.rep, .fab] [] s (flood s type body l) := by
  unfold flood
  split
  · exact Within.refl _ _ _
  · exact ((within_fab s _).mono (by simp) (by simp)).trans (within_each _ (fun t _ => within_sendPacket t _ _) _ _)

theorem within_floodEpoch (s : State) (b : EpochBody) (l : Nat) : Within [.rep, .fab] [] s (floodEpoch s b l) := within_flood s _ _ _

theorem within_setEntry (s : State) (a e st : Nat) : Within [] [.EPOCH_ENTRY_EPOCH, .EPOCH_ENTRY_STATE] s (setEntry s a e st) :=
  (within_wr s _ _ _).append (within_wr _ _ _ _)

theorem within_epochRecord (s : State) (a e st reason by_ : Nat) : Within [.rep] reportFlds s (epochRecord s a e st reason by_) :=
  within_report s _ _ _ _ _ _

theorem within_drainRecord (s : State) (phase moved : Nat) : Within [.rep] reportFlds s (drainRecord s phase moved) :=
  within_report s _ _ _ _ _ _

/-- The fields that leaving the fabric changes. -/
def leaveFlds : List Fld :=
  reportFlds ++ [.EPOCH_ENTRY_EPOCH, .EPOCH_ENTRY_STATE, .SPOKE_FAB_STATUS_STATE, .SPOKE_FAB_STATUS_SETTLED]

theorem within_leaveFabric (s : State) : Within [.fab, .rep, .serve] leaveFlds s (leaveFabric s) := by
  unfold leaveFabric
  extract_lets a e u v
  have hu : Within [.fab, .rep, .serve] leaveFlds s u :=
    (((within_setEntry s _ _ _).append (within_epochRecord _ _ _ _ _ _)).append (within_floodEpoch _ _ _)).mono (by simp) (by decide)
  have hv : Within [.fab, .rep, .serve] leaveFlds u v :=
    (((within_wr u .SPOKE_FAB_STATUS_STATE 0 0).append (within_wr _ .SPOKE_FAB_STATUS_SETTLED 0 0)).append (within_serve _ _)).mono
      (by simp) (by decide)
  exact (hu.trans hv).trans ((within_drainRecord v 3 0).mono (by simp) (by decide))

theorem within_leaveDlUp (s : State) :
    Within [.rep, .dbg] [.PCIE_LINK_UP, .PCIE_LINK_DOWNS, .EVC_STATUS_LINK] s (leaveDlUp s) := by
  unfold leaveDlUp
  extract_lets u
  have hu : Within [] [.PCIE_LINK_UP, .PCIE_LINK_DOWNS] s u := (within_wr s .PCIE_LINK_UP 0 0).append (within_inc _ .PCIE_LINK_DOWNS 0 1)
  exact ((hu.append (within_trail u _ _ _ _ _)).append (within_raiseModule _ _)).mono (by simp) (by simp)

end Sys2Proof.Machine
end

section
/-! O58: low-power states (R437 to R442). -/

namespace Sys2Proof.Machine

variable {s : State} {t : Nat}

/-! Selection (R438, R439) -/

/-- The next event as selection shows it. -/
def eventShown (s : State) (t : Nat) : State := wr (tick s t) .LP_NEXT_EVENT 0 ((nextEvent (tick s t)).getD noEvent)

/-- The choice as selection shows it. -/
def choiceShown (s : State) (t st why : Nat) : State :=
  wr (wr (eventShown s t) .LP_STATUS_TARGET 0 st) .LP_STATUS_BLOCKER 0 why

/-- The planned exit. -/
def wakePlanned (s : State) (st : Nat) : State :=
  match nextEvent s with
  | some e => wr s .LP_WAKE_AT 0 (e - lpWake st - lpMargin s)
  | none => s

/-- The entry of the chosen state starts. -/
def entryStarted (s : State) (st : Nat) : State :=
  updBoot (wr s .LP_STATUS_STATE 0 5) fun b => { b with lpTarget := st, lpReason := 1, lpSince := s.now, wakePending := false }

theorem within_eventShown (s : State) (t : Nat) : Within [] selectFlds (tick s t) (eventShown s t) :=
  (within_wr _ _ _ _).mono (by simp) (by simp [selectFlds])

theorem withinAt_choiceShown (s : State) (t st why : Nat) : WithinAt [.now]
    [(.LP_NEXT_EVENT, 0), (.LP_STATUS_TARGET, 0), (.LP_STATUS_BLOCKER, 0)] s (choiceShown s t st why) :=
  (((within_tick s t).toWithinAt.trans (withinAt_wr _ _ _ _)).trans (withinAt_wr _ _ _ _)).trans (withinAt_wr _ _ _ _)

theorem withinAt_wakePlanned (s : State) (st : Nat) : WithinAt [] [(.LP_WAKE_AT, 0)] s (wakePlanned s st) := by
  unfold wakePlanned
  split
  · exact withinAt_wr _ _ _ _
  · exact (WithinAt.refl s).mono (by simp) (by simp)

theorem rd_choiceShown (s : State) (t st why : Nat) : rd (choiceShown s t st why) .LP_STATUS_TARGET = st ∧
    rd (choiceShown s t st why) .LP_STATUS_BLOCKER = why ∧
    rd (choiceShown s t st why) .LP_NEXT_EVENT = (nextEvent (tick s t)).getD noEvent := by
  simp [choiceShown, eventShown, rd_wr]

theorem within_choiceShown (s : State) (t st why : Nat) : Within [.boot, .now] selectFlds s (choiceShown s t st why) :=
  ((withinAt_choiceShown s t st why).toWithin (by simp [selectFlds])).mono (by simp) (List.Subset.refl _)

theorem exec_lpIdleSelect {depends : Bool} {st why : Nat} (hstate : rd s .LP_STATUS_STATE = 1) (hphase : rd s .BOOT_STATUS_PHASE = 8)
    (hwhy : lpBlocker (tick s t) depends = why) (hst : (if why = 0 then lpChoice (tick s t) else 1) = st) :
    exec (.lpIdleSelect t depends) s = settle s (if st = 1 then choiceShown s t st (if why = 0 ∧ st = 1 then 4 else why)
      else entryStarted (wakePlanned (choiceShown s t st (if why = 0 ∧ st = 1 then 4 else why)) st) st) := by
  have hshown := within_eventShown s t
  have hblocker : lpBlocker (eventShown s t) depends = why := (lpBlocker_congr hshown depends).trans hwhy
  have hchoice : lpChoice (eventShown s t) = lpChoice (tick s t) := lpChoice_congr (hshown.mono (by simp) (by simp)) rfl
  show execLpIdleSelect t depends s = _
  unfold execLpIdleSelect
  dsimp only
  rw [if_neg (by simp [hstate, hphase]), show wr (tick s t) .LP_NEXT_EVENT 0 _ = eventShown s t from rfl, hblocker, hchoice, hst]
  rfl

theorem lpIdleSelect_enters {depends : Bool} {st : Nat} (hstate : rd s .LP_STATUS_STATE = 1) (hphase : rd s .BOOT_STATUS_PHASE = 8)
    (hwhy : lpBlocker (tick s t) depends = 0) (hst : lpChoice (tick s t) = st) (hdeep : 2 ≤ st) :
    Runs (.lpIdleSelect t depends) s fun v =>
      rd v .LP_STATUS_STATE = 5 ∧ rd v .LP_STATUS_TARGET = st ∧ v.boot.lpTarget = st ∧ rd v .LP_STATUS_BLOCKER = 0 ∧
      (∀ e, nextEvent s = some e → rd v .LP_NEXT_EVENT = e ∧ rd v .LP_WAKE_AT = e - lpWake st - lpMargin s) ∧
      KeptBut [.boot, .now] s v ∧ RegsKept [(.LP_STATUS_STATE, 0), (.LP_STATUS_TARGET, 0), (.LP_STATUS_BLOCKER, 0),
        (.LP_NEXT_EVENT, 0), (.LP_WAKE_AT, 0)] s v := by
  have hexec := exec_lpIdleSelect hstate hphase hwhy (st := st) (by rw [if_pos rfl, hst])
  rw [if_neg (by omega), if_neg (by omega)] at hexec
  obtain ⟨htarget, hblocker, hevent⟩ := rd_choiceShown s t st 0
  have hshown := within_choiceShown s t st 0
  have hall := (withinAt_choiceShown s t st 0).trans (withinAt_wakePlanned _ st)
  have hnext : nextEvent (tick s t) = nextEvent s := nextEvent_congr ((within_tick s t).mono (by simp) (by simp))
  have hwake : ∀ e, nextEvent s = some e →
      rd (wakePlanned (choiceShown s t st 0) st) .LP_WAKE_AT = e - lpWake st - lpMargin s := fun e he => by
    unfold wakePlanned
    rw [show nextEvent (choiceShown s t st 0) = some e from (nextEvent_congr hshown).trans he]
    exact (rd_wr_same _ _ _ _).trans (by rw [lpMargin_congr hshown])
  have hkept := withinAt_wakePlanned (choiceShown s t st 0) st
  generalize wakePlanned (choiceShown s t st 0) st = u at *
  have hstart : WithinAt [.boot] [(.LP_STATUS_STATE, 0)] u (entryStarted u st) :=
    ((withinAt_wr u _ _ _).trans (within_boot _ _).toWithinAt).mono (by simp) (by simp)
  have hreg : ∀ f, f ∉ viewFlds → f ≠ .LP_STATUS_STATE → rd (settled s (entryStarted u st)) f = rd u f := fun f hv hf => by
    rw [rd_settled_other _ _ _ _ hv, hstart.regs _ _ (by simpa using hf)]
  refine runs_of_settle hexec ⟨?_, ?_, rfl, ?_, fun e he => ⟨?_, ?_⟩, ((hall.trans hstart).mono (by simp) (by simp)).settled⟩
  · rw [rd_settled_other _ _ _ _ (by decide)]
    exact rd_wr_same u .LP_STATUS_STATE 0 5
  · rw [hreg _ (by decide) (by simp), hkept.regs _ _ (by simp), htarget]
  · rw [hreg _ (by decide) (by simp), hkept.regs _ _ (by simp), hblocker]
  · rw [hreg _ (by decide) (by simp), hkept.regs _ _ (by simp), hevent, hnext, he]
    rfl
  · rw [hreg _ (by decide) (by simp), hwake e he]

theorem lpIdleSelect_stays {depends : Bool} {why : Nat} (hstate : rd s .LP_STATUS_STATE = 1) (hphase : rd s .BOOT_STATUS_PHASE = 8)
    (hwhy : lpBlocker (tick s t) depends = why) (hne : why ≠ 0) : Runs (.lpIdleSelect t depends) s fun v =>
      rd v .LP_STATUS_STATE = 1 ∧ rd v .LP_STATUS_TARGET = 1 ∧ rd v .LP_STATUS_BLOCKER = why ∧ KeptBut [.now] s v ∧
      RegsKept [(.LP_STATUS_TARGET, 0), (.LP_STATUS_BLOCKER, 0), (.LP_NEXT_EVENT, 0)] s v := by
  have hexec := exec_lpIdleSelect hstate hphase hwhy (st := 1) (if_neg hne)
  rw [if_pos rfl, if_neg (by omega)] at hexec
  obtain ⟨htarget, hblocker, -⟩ := rd_choiceShown s t 1 why
  have hall := withinAt_choiceShown s t 1 why
  refine runs_of_settle hexec ⟨?_, ?_, ?_, (hall.mono (by simp) (by simp)).settled⟩
  · rw [rd_settled_other _ _ _ _ (by decide), hall.regs _ _ (by simp), hstate]
  · rw [rd_settled_other _ _ _ _ (by decide), htarget]
  · rw [rd_settled_other _ _ _ _ (by decide), hblocker]

/-! Entries (R437, R441, R442) -/

/-- The wings are powered down: their registers, tables and trails go. -/
def wingsDark (s : State) : State :=
  updDbg (wingRegs s (keptRank .stow)) fun d => { d with
    trails := storeKeep (fun k => k == vestTrail) d.trails, trailNext := storeKeep (fun k => k == vestTrail) d.trailNext,
    prof := [], profCount := [], armed := [], haltAt := [], tests := [], dmi := [] }

def stowed (s : State) : State := settleDebug (wingsDark s)

theorem parts_stowed (s : State) : KeptBut [.core, .tt, .dbg] s (stowed s) := fun p hp => by
  refine Part.Same.trans ?_ ((within_settleDebug (wingsDark s)).parts p (by simp))
  cases p with
  | core | tt | dbg => exact absurd (by simp) hp
  | _ => rfl

theorem queues_stowed (s : State) : (stowed s).core.queues = s.core.queues := by
  have hdebug : (stowed s).core = (wingsDark s).core := (within_settleDebug (wingsDark s)).parts .core (by simp)
  rw [hdebug]
  rfl

/-- What an entry of a state leaves (Table 15-8). -/
structure LowEntered (s : State) (target : Nat) (v : State) : Prop where
  state : rd v .LP_STATUS_STATE = min target 3
  queues : v.core.queues = []
  doze : target = 2 → v.tt = s.tt ∧ v.core.sumq = s.core.sumq
  pann : v.pann = { s.pann with caches := [] }
  bytes : ∀ a, readByte v a = readByte s a
  boot : ∃ since, v.boot = { s.boot with lpSince := since }
  kept : KeptBut [.boot, .core, .dbg, .mem, .now, .pann, .rep, .tt] s v

/-- The engines' state, the wings from STOW on, and the records of the entry. -/
def lowEntered (s : State) (target : Nat) : State :=
  entered (if 3 ≤ target then stowed (loseEngines s) else loseEngines s) 1 (min target 3)

theorem lowEntered_enters (s : State) (t : Nat) (target : Nat) : LowEntered s target (lowEntered (tick s t) target) := by
  unfold lowEntered
  have hparts : KeptBut [.core, .tt, .dbg] (loseEngines (tick s t))
      (if 3 ≤ target then stowed (loseEngines (tick s t)) else loseEngines (tick s t)) := by
    split
    · exact parts_stowed _
    · exact fun p _ => (Within.refl [] [] _).parts p (by simp)
  have hqueues : (if 3 ≤ target then stowed (loseEngines (tick s t)) else loseEngines (tick s t)).core.queues = [] := by
    split
    · exact queues_stowed _
    · rfl
  have hdoze : target = 2 → (if 3 ≤ target then stowed (loseEngines (tick s t)) else loseEngines (tick s t)) = loseEngines (tick s t) :=
    fun h => if_neg (by omega)
  generalize (if 3 ≤ target then stowed (loseEngines (tick s t)) else loseEngines (tick s t)) = u at *
  have hentered := within_entered u 1 (min target 3)
  have hcore : (entered u 1 (min target 3)).core = u.core := hentered.parts .core (by simp)
  have htt : (entered u 1 (min target 3)).tt = u.tt := hentered.parts .tt (by simp)
  have hpann : (entered u 1 (min target 3)).pann = u.pann := hentered.parts .pann (by simp)
  have hmem : (entered u 1 (min target 3)).mem = u.mem := hentered.parts .mem (by simp)
  have hpann' : u.pann = (loseEngines (tick s t)).pann := hparts .pann (by simp)
  have hmem' : u.mem = (loseEngines (tick s t)).mem := hparts .mem (by simp)
  have hboot' : u.boot = s.boot := hparts .boot (by simp)
  refine ⟨rd_entered_state u 1 _, hcore ▸ hqueues, fun h => ⟨?_, ?_⟩, hpann.trans hpann', fun a => ?_, hboot' ▸ boot_entered u 1 _,
    fun p hp => ?_⟩
  · rw [htt, hdoze h]
    rfl
  · rw [hcore, hdoze h]
    rfl
  · exact (readByte_congr (hmem.trans hmem') a).trans rfl
  · have hlost := ((within_tick s t).append (within_loseEngines _)).kept
    exact ((hlost.trans hparts).trans hentered.kept).mono (by simp) p hp

theorem LowEntered.after {s v w : State} {target : Nat} {fs : List Fld} (h : LowEntered s target v) (k : Within [.rep] fs v w)
    (hf : .LP_STATUS_STATE ∉ fs) : LowEntered s target w where
  state := (k.regs _ _ hf).trans h.state
  queues := (congrArg Cores.queues (show w.core = v.core from k.parts .core (by simp))).trans h.queues
  doze := fun e => by
    rw [show w.tt = v.tt from k.parts .tt (by simp), show w.core = v.core from k.parts .core (by simp)]
    exact h.doze e
  pann := (show w.pann = v.pann from k.parts .pann (by simp)).trans h.pann
  bytes := fun a => (readByte_congr (k.parts .mem (by simp)) a).trans (h.bytes a)
  boot := (show w.boot = v.boot from k.parts .boot (by simp)) ▸ h.boot
  kept := (h.kept.trans k.kept).mono (by simp)

/-- The module is ready for KICKSTAND, for which its link must be in L2. -/
def kickstandShown (s : State) : State :=
  raiseModule (wr (wr s .LP_STATUS_KICKSTAND_READY 0 1) .LP_STATUS_BLOCKER 0 6) .EVC_STATUS_POWER

theorem within_kickstandShown (s : State) : Within [.rep] [.LP_STATUS_KICKSTAND_READY, .LP_STATUS_BLOCKER, .EVC_STATUS_POWER] s
    (kickstandShown s) := ((within_wr s _ _ _).append (within_wr _ _ _ _)).append (within_raiseModule _ _)

theorem rd_kickstandShown (s : State) :
    rd (kickstandShown s) .LP_STATUS_KICKSTAND_READY = 1 ∧ rd (kickstandShown s) .LP_STATUS_BLOCKER = 6 := by
  unfold kickstandShown
  rw [(within_raiseModule _ _).regs _ _ (by simp), (within_raiseModule _ _).regs _ _ (by simp)]
  simp [rd_wr]

/-- The end of an entry but for a wake event that has come. -/
def entryDone (s : State) (target : Nat) : State :=
  if target = 4 then kickstandShown (lowEntered s target) else lowEntered s target

theorem entryDone_enters (s : State) (t target : Nat) : LowEntered s target (entryDone (tick s t) target) := by
  unfold entryDone
  split
  · exact (lowEntered_enters s t target).after (within_kickstandShown _) (by simp)
  · exact lowEntered_enters s t target

theorem exec_lpEntryComplete (hstate : rd s .LP_STATUS_STATE = 5) : exec (.lpEntryComplete t) s = settle s
    (if (entryDone (tick s t) s.boot.lpTarget).boot.wakePending then
      startExit (updBoot (entryDone (tick s t) s.boot.lpTarget) fun b => { b with wakePending := false })
        (entryDone (tick s t) s.boot.lpTarget).boot.lpReason
    else entryDone (tick s t) s.boot.lpTarget) := by
  show execLpEntryComplete t s = _
  unfold execLpEntryComplete
  dsimp only
  rw [if_neg (show ¬ rd (tick s t) .LP_STATUS_STATE ≠ 5 from not_not.mpr hstate)]
  rfl

theorem lpEntryComplete_enters (hstate : rd s .LP_STATUS_STATE = 5) (hwake : s.boot.wakePending = false) :
    Runs (.lpEntryComplete t) s fun v =>
      rd v .LP_STATUS_STATE = min s.boot.lpTarget 3 ∧ (∀ k, queueAt v k = []) ∧
      (s.boot.lpTarget = 4 → rd v .LP_STATUS_KICKSTAND_READY = 1 ∧ rd v .LP_STATUS_BLOCKER = 6) ∧
      (s.boot.lpTarget = 2 → v.tt = s.tt ∧ v.core.sumq = s.core.sumq) ∧ v.pann = { s.pann with caches := [] } ∧
      (∀ a, onChip a = false → readByte v a = readByte s a) ∧ KeptBut [.boot, .core, .dbg, .mem, .now, .pann, .rep, .tt] s v := by
  have hexec := exec_lpEntryComplete (t := t) hstate
  have hdone := entryDone_enters s t s.boot.lpTarget
  obtain ⟨since, hboot⟩ := hdone.boot
  have hkick : s.boot.lpTarget = 4 → rd (entryDone (tick s t) s.boot.lpTarget) .LP_STATUS_KICKSTAND_READY = 1 ∧
      rd (entryDone (tick s t) s.boot.lpTarget) .LP_STATUS_BLOCKER = 6 := fun h => by
    rw [entryDone, if_pos h]
    exact rd_kickstandShown _
  rw [if_neg (by rw [hboot, hwake]; simp)] at hexec
  generalize entryDone (tick s t) s.boot.lpTarget = u at *
  refine runs_of_settle hexec ⟨?_, fun k => ?_, fun h => ?_, hdone.doze, hdone.pann, fun a _ => hdone.bytes a, hdone.kept.settled s⟩
  · rw [rd_settled_other _ _ _ _ (by decide), hdone.state]
  · exact (congrArg (storeGet [] · k) hdone.queues).trans rfl
  · rw [rd_settled_other _ _ _ _ (by decide), rd_settled_other _ _ _ _ (by decide)]
    exact hkick h

theorem wakePending_startExit (h : rd s .LP_STATUS_STATE ≠ 5) (reason : Nat) :
    (startExit s reason).boot.wakePending = s.boot.wakePending := by
  unfold startExit
  dsimp only
  rw [if_neg h]
  split
  · split <;> split <;> rfl
  · rfl

theorem lpEntryComplete_wakes (hstate : rd s .LP_STATUS_STATE = 5) (hwake : s.boot.wakePending = true)
    (htarget : s.boot.lpTarget ∈ [2, 3, 4]) : Runs (.lpEntryComplete t) s fun v =>
      rd v .LP_STATUS_STATE = 6 ∧ v.boot.wakePending = false ∧ v.boot.lpFrom = min s.boot.lpTarget 3 ∧
      v.boot.lpReason = s.boot.lpReason ∧ (∀ k, queueAt v k = []) ∧
      (∀ a, onChip a = false → readByte v a = readByte s a) ∧ KeptBut [.boot, .core, .dbg, .mem, .now, .pann, .rep, .tt] s v := by
  have hexec := exec_lpEntryComplete (t := t) hstate
  have hdone := entryDone_enters s t s.boot.lpTarget
  obtain ⟨since, hboot⟩ := hdone.boot
  rw [if_pos (by rw [hboot, hwake])] at hexec
  generalize entryDone (tick s t) s.boot.lpTarget = u at *
  rw [show u.boot.lpReason = s.boot.lpReason by rw [hboot]] at hexec
  have hlow : min s.boot.lpTarget 3 = 2 ∨ min s.boot.lpTarget 3 = 3 := by
    have : s.boot.lpTarget = 2 ∨ s.boot.lpTarget = 3 ∨ s.boot.lpTarget = 4 := by simpa using htarget
    omega
  let w := updBoot u fun b => { b with wakePending := false }
  have hw : rd w .LP_STATUS_STATE = min s.boot.lpTarget 3 := hdone.state
  obtain ⟨hexit, -, hreason, hfrom⟩ := startExit_begins (s := w) (by simp only [hw, List.mem_cons]; omega) s.boot.lpReason
  have hpending := wakePending_startExit (s := w) (by rw [hw]; omega) s.boot.lpReason
  have hframe := (within_boot u fun b => { b with wakePending := false }).append (within_startExit w s.boot.lpReason)
  refine runs_of_settle hexec ⟨?_, hpending, hfrom.trans hw, hreason, fun k => ?_, fun a _ => ?_,
    ((hdone.kept.trans hframe.kept).mono (by simp)).settled s⟩
  · rw [rd_settled_other _ _ _ _ (by decide)]
    exact hexit
  · have hcore : (startExit w s.boot.lpReason).core = u.core := hframe.parts .core (by simp)
    exact (congrArg (storeGet [] · k) ((congrArg Cores.queues hcore).trans hdone.queues)).trans rfl
  · exact (readByte_congr (hframe.parts .mem (by simp)) a).trans (hdone.bytes a)

/-! KICKSTAND (R441) -/

theorem exec_kickstandEntry (hstate : rd s .LP_STATUS_STATE = 3) (hready : rd s .LP_STATUS_KICKSTAND_READY = 1) :
    exec (.kickstandEntry t false) s = settle s (lowPowerRecord (tick s t) 3 3 7 (((tick s t).now - (tick s t).boot.lpSince) / 1000)) := by
  show execKickstandEntry t false s = _
  unfold execKickstandEntry
  dsimp only
  rw [if_neg (by simp [hstate, rdb, hready]), if_pos rfl]

/-- Without L2 the module stays in STOW. -/
theorem kickstandEntry_stays (hstate : rd s .LP_STATUS_STATE = 3) (hready : rd s .LP_STATUS_KICKSTAND_READY = 1) :
    Runs (.kickstandEntry t false) s fun v => rd v .LP_STATUS_STATE = 3 ∧ Frame [.now, .rep] reportFlds s v := by
  have hall := (within_tick s t).append (within_lowPowerRecord (tick s t) 3 3 7 (((tick s t).now - (tick s t).boot.lpSince) / 1000))
  refine runs_of_settle (exec_kickstandEntry hstate hready) ⟨?_, hall.settled⟩
  rw [rd_settled_other _ _ _ _ (by decide), hall.regs _ _ (by decide), hstate]

/-- The module has left the fabric and the link. -/
def disconnected (s : State) : State :=
  let u := inc s .LP_RESIDENCY 1 ((s.now - s.boot.lpSince) / 1000)
  let u := if 2 ≤ rd u .SPOKE_FAB_STATUS_STATE ∧ rd u .SPOKE_FAB_STATUS_STATE ≤ 4 then leaveFabric u else u
  if rdb u .PCIE_LINK_UP then leaveDlUp u else u

/-- The registers as KICKSTAND is entered. -/
def darkRegs (s : State) : State :=
  resetRegs (resetEndpoint (entered (wr s .LP_STATUS_BLOCKER 0 0) 3 4)) (keptRank .kickstand) (fun f _ => kickstandLost f)

/-- Everything but the Porch is powered down. -/
def allDark (s : State) : State := updDbg (updFab (darkRegs s) fun _ => {}) fun d => { d with trails := [], trailNext := [] }

theorem exec_kickstandEntry_l2 (hstate : rd s .LP_STATUS_STATE = 3) (hready : rd s .LP_STATUS_KICKSTAND_READY = 1) :
    exec (.kickstandEntry t true) s = settle s (allDark (disconnected (tick s t))) := by
  show execKickstandEntry t true s = _
  unfold execKickstandEntry
  dsimp only
  rw [if_neg (by simp [hstate, rdb, hready]), if_neg (by simp)]
  rfl

theorem parts_disconnected (s : State) : KeptBut [.dbg, .fab, .rep, .serve] s (disconnected s) := by
  unfold disconnected
  extract_lets u v
  have hu : Within [.dbg, .fab, .rep, .serve] (.LP_RESIDENCY :: leaveFlds) s u := (within_inc s _ _ _).mono (by simp) (by simp)
  have hv : Within [.dbg, .fab, .rep, .serve] (.LP_RESIDENCY :: leaveFlds) u v := by
    unfold v
    split
    · exact (within_leaveFabric u).mono (by simp) (by simp)
    · exact Within.refl _ _ u
  split
  · exact ((hu.trans hv).kept.trans (within_leaveDlUp v).kept).mono (by simp)
  · exact (hu.trans hv).kept

theorem within_resetEndpoint (s : State) :
    Within [.mgt, .ctxs, .rep] [.CTX_STATE_IDE_READY, .CTXWIN_INFO_IDE_READY] s (resetEndpoint s) := by
  unfold resetEndpoint
  exact ((((within_wrAll _ _ _ _).append (within_wrAll _ _ _ _)).append (within_mgt _ _)).append
    ((within_ctxs _ _).append (within_rep _ _))).mono (by simp) (by simp)

/-- A reset takes a field of a lower class to its reset value. -/
theorem rd_resetRegs_of_lost {f : Fld} {p : Fld → Nat → Bool} {rank n : Nat} (hrank : keptRank (fieldRow f).kept < rank)
    (hp : p f n = true) (s : State) : rd (resetRegs s rank p) f n = regReset f n := by
  have hlt := ctorIdx_lt f
  have hmod : regKey f n % 1024 = f.ctorIdx := by
    rw [regKey]
    omega
  have hdiv : regKey f n / 1024 = n := by
    rw [regKey]
    omega
  have hkeep : resetKeeps rank p (regKey f n) = false := by
    unfold resetKeeps
    rw [hmod, hdiv, fldOf_ctorIdx]
    simp [hrank, hp]
  unfold rd
  rw [resetRegs_regs, storeGet_keep, hkeep, if_neg (by simp)]

theorem parts_resetRegs (s : State) (rank : Nat) (p : Fld → Nat → Bool) : KeptBut [] s (resetRegs s rank p) := fun q _ => by
  cases q <;> rfl

theorem parts_allDark (s : State) : KeptBut [.boot, .ctxs, .dbg, .fab, .mgt, .rep] s (allDark s) := by
  have hentered := (within_wr s .LP_STATUS_BLOCKER 0 0).append (within_entered (wr s .LP_STATUS_BLOCKER 0 0) 3 4)
  have hreset := (hentered.append (within_resetEndpoint _)).kept
  have hregs := hreset.trans (parts_resetRegs _ (keptRank .kickstand) (fun f _ => kickstandLost f))
  exact (hregs.trans ((within_fab _ _).append (within_dbg _ _)).kept).mono (by simp)

theorem rd_allDark (s : State) (f : Fld) (n : Nat) : rd (allDark s) f n = rd (darkRegs s) f n := by
  rw [allDark, rd_updDbg, rd_updFab]

theorem links_allDark (s : State) : (allDark s).fab.links = [] := by
  unfold allDark
  generalize darkRegs s = u
  rfl

theorem rd_allDark_state (s : State) : rd (allDark s) .LP_STATUS_STATE = 4 := by
  rw [rd_allDark, darkRegs, rd_resetRegs_of_kept (by decide), (within_resetEndpoint _).regs _ _ (by simp), rd_entered_state]

theorem rd_allDark_link (s : State) : rd (allDark s) .PCIE_LINK_UP = 0 := by
  rw [rd_allDark, darkRegs, rd_resetRegs_of_lost (by decide) (by decide)]
  rfl

theorem kickstandEntry_enters (hstate : rd s .LP_STATUS_STATE = 3) (hready : rd s .LP_STATUS_KICKSTAND_READY = 1) :
    Runs (.kickstandEntry t true) s fun v =>
      rd v .LP_STATUS_STATE = 4 ∧ rd v .PCIE_LINK_UP = 0 ∧ v.fab.links = [] ∧ v.mem = s.mem ∧
      KeptBut [.boot, .ctxs, .dbg, .fab, .mgt, .now, .rep, .serve] s v := by
  have hexec := exec_kickstandEntry_l2 (t := t) hstate hready
  have hparts : KeptBut [.boot, .ctxs, .dbg, .fab, .mgt, .now, .rep, .serve] s (allDark (disconnected (tick s t))) :=
    (((within_tick s t).kept.trans (parts_disconnected _)).trans (parts_allDark _)).mono (by simp)
  have hstate' := rd_allDark_state (disconnected (tick s t))
  have hlink := rd_allDark_link (disconnected (tick s t))
  have hlinks := links_allDark (disconnected (tick s t))
  generalize allDark (disconnected (tick s t)) = u at *
  refine runs_of_settle hexec ⟨?_, ?_, hlinks, hparts .mem (by simp), hparts.settled s⟩
  · rw [rd_settled_other _ _ _ _ (by decide), hstate']
  · rw [rd_settled_other _ _ _ _ (by decide), hlink]

/-! Wake events (R439 to R441) -/

theorem exits_runs {e : Instr} {reason : Nat} (hlow : rd s .LP_STATUS_STATE ∈ [2, 3, 4])
    (hexec : exec e s = settle s (startExit (tick s t) reason)) :
    Runs e s fun v => ExitBegins s v reason ∧ Frame [.boot, .now, .rep] exitFlds s v := by
  obtain ⟨hstate, hready, hreason, hfrom⟩ := startExit_begins (s := tick s t) hlow reason
  have hall := (within_tick s t).append (within_startExit (tick s t) reason)
  refine runs_of_settle hexec ⟨⟨?_, ?_, hreason, hfrom⟩, (hall.mono (by simp) (by simp)).settled⟩
  · rw [rd_settled_other _ _ _ _ (by decide), hstate]
  · rw [rd_settled_other _ _ _ _ (by decide), hready]

theorem exec_lpWakeTimer (hevent : rd s .LP_NEXT_EVENT ≠ noEvent) (hdue : rd s .LP_WAKE_AT -
    (if rd s .LP_STATUS_STATE = 4 then (rd s .LP_WAKE_AT - s.boot.lpSince) * 20 / 1000000 else 0) ≤ max s.now t) :
    exec (.lpWakeTimer t) s = settle s (startExit (tick s t) 2) := by
  show execLpWakeTimer t s = _
  unfold execLpWakeTimer
  dsimp only
  rw [if_pos ⟨hevent, hdue⟩]

theorem exec_lpWake {src : Src} (hmgmt : isMgmt s src = true) : exec (.lpWake src t) s = settle s (startExit (tick s t) 3) := by
  show execLpWake src t s = _
  unfold execLpWake
  rw [if_pos hmgmt]

/-- During an entry a wake event is kept for its end. -/
theorem lpWake_pends {src : Src} (hmgmt : isMgmt s src = true) (hstate : rd s .LP_STATUS_STATE = 5) : Runs (.lpWake src t) s fun v =>
    v.boot.wakePending = true ∧ v.boot.lpReason = 3 ∧ KeptBut [.boot, .now] s v ∧ RegsKept [] s v := by
  have hexec := exec_lpWake (t := t) hmgmt
  rw [startExit, if_pos (show rd (tick s t) .LP_STATUS_STATE = 5 from hstate)] at hexec
  exact runs_of_settle hexec ⟨rfl, rfl, (((within_tick s t).toWithinAt.trans (within_boot _ _).toWithinAt).mono (by simp) (by simp)).settled⟩

theorem lpWake_idle {src : Src} (hmgmt : isMgmt s src = true) (hstate : rd s .LP_STATUS_STATE ∈ [0, 1, 6]) :
    Runs (.lpWake src t) s fun v => KeptBut [.now] s v ∧ RegsKept [] s v := by
  have hcases : rd s .LP_STATUS_STATE = 0 ∨ rd s .LP_STATUS_STATE = 1 ∨ rd s .LP_STATUS_STATE = 6 := by simpa using hstate
  have hexec := exec_lpWake (t := t) hmgmt
  rw [startExit] at hexec
  dsimp only at hexec
  rw [if_neg (by rw [rd_tick]; omega), if_neg (by rw [rd_tick]; omega)] at hexec
  exact ticks_runs hexec

end Sys2Proof.Machine
end

section
/-! Exits from a low-power state (R440, R442): what is restored, and the command or reset that waited. -/

namespace Sys2Proof.Machine

variable {s : State} {t : Nat}

/-! Reports leave the retirement records -/

theorem retirement_sendMsix (s : State) (fn entry : Nat) : (sendMsix s fn entry).rep.retirement = s.rep.retirement := by
  unfold sendMsix
  split <;> rfl

theorem retirement_deliver (s : State) (src : IrqSource) : (deliver s src).rep.retirement = s.rep.retirement := by
  unfold deliver
  split
  · split <;> rfl
  · extract_lets u t
    split
    · exact retirement_sendMsix _ _ _
    · split <;> rfl

theorem retirement_acceptRecord (s : State) (c : CellarRec) : (acceptRecord s c).rep.retirement = s.rep.retirement := by
  unfold acceptRecord
  dsimp only
  split
  · exact retirement_deliver _ _
  · rfl

theorem retirement_report (s : State) (kind unit : Nat) (data : List (Nat × Nat × Bool)) (cause : Option Nat) (st : Nat) (injected : Bool) :
    (report s kind unit data cause st injected).rep.retirement = s.rep.retirement := by
  unfold report queueRecord
  dsimp only
  split
  · exact retirement_acceptRecord _ _
  · split
    · rfl
    · exact retirement_acceptRecord _ _

theorem retirement_lowPowerNoted (s : State) (a b reason us kind unit what : Nat) :
    (lowPowerNoted s a b reason us kind unit what).rep.retirement = s.rep.retirement := by
  have htrail : (lowPowerNoted s a b reason us kind unit what).rep = (logEntry (lowPowerRecord s a b reason us) kind unit 0 us).rep :=
    (within_trail _ _ _ _ _ _).parts .rep (by simp)
  have hlog (u : State) : (logEntry u kind unit 0 us).rep.retirement = u.rep.retirement := by
    unfold logEntry
    simp only [updRep]
  rw [htrail, hlog, lowPowerRecord, retirement_report]

theorem recordedChan_congr {s t : State} (h : t.rep.retirement = s.rep.retirement) (c : Nat) : recordedChan t c = recordedChan s c := by
  unfold recordedChan liveRetirement
  rw [h]

/-! What the wings get back -/

/-- The fields that are restored from the retirement records and with the tables. -/
def wingFlds : List Fld :=
  [.HUB_SLOT_STATE_STATE, .HUB_SLOT_STATE_FENCED, .INTEG_CORE_INFO_SKIP, .INTEG_CORE_INFO_READMITS, .INTEG_CORE_INFO_CLEARED,
    .HUB_REMAP_B0_SLOT_PHYS_SLOT, .HUB_REMAP_B0_SLOT_VALID, .HUB_REMAP_B1_SLOT_PHYS_SLOT, .HUB_REMAP_B1_SLOT_VALID,
    .INTEG_HUB_STATE, .INTEG_HUB_OUT, .INTEG_HUB_SERVING, .HBM_CH_STATE_STATE, .HUB_TT_CTRL_LOAD_DONE]

theorem within_wingFld {f : Fld} (hf : f ∈ wingFlds) (s : State) (n v : Nat) : Within [.tt] wingFlds s (wr s f n v) :=
  (within_wr s f n v).mono (by simp) (by simpa using hf)

theorem bankEntry_within (s : State) (bank n v : Nat) : Within [.tt] wingFlds s (setBankEntry s bank n v) :=
  (within_setBankEntry s bank n v).mono (by simp) (by decide)

theorem within_restoreRetired (s : State) : Within [.tt] wingFlds s (restoreRetired s) := by
  unfold restoreRetired
  extract_lets r u v w
  have hu : Within [.tt] wingFlds s u := within_each _ (fun t e =>
    ((((within_wingFld (by decide) t _ _).trans (within_wingFld (by decide) _ _ _)).trans (within_wingFld (by decide) _ _ _)).trans
      (within_wingFld (by decide) _ _ _)).trans (within_wingFld (by decide) _ _ _)) _ s
  have hv : Within [.tt] wingFlds u v :=
    within_each _ (fun t e => (bankEntry_within t _ _ _).trans (bankEntry_within _ _ _ _)) _ u
  have hw : Within [.tt] wingFlds v w :=
    within_each _ (fun t e => (within_wingFld (by decide) t _ _).trans (within_wingFld (by decide) _ _ _)) _ v
  exact ((hu.trans hv).trans hw).trans (within_each _ (fun t h => within_wingFld (by decide) t _ _) _ w)

theorem within_reloadTables (s : State) : Within [.tt] [.HUB_TT_CTRL_LOAD_DONE] s (reloadTables s) := by
  unfold reloadTables
  split
  · extract_lets u
    have hu : Within [.tt] [.HUB_TT_CTRL_LOAD_DONE] s u := (within_tt s _).mono (by simp) (by simp)
    refine hu.trans (within_each _ (fun t k => ?_) _ u)
    extract_lets wing v
    have hv : Within [.tt] [.HUB_TT_CTRL_LOAD_DONE] t v := (within_tt t _).mono (by simp) (by simp)
    split
    · exact Within.refl _ _ t
    · split
      · exact hv.trans ((within_wr v _ _ _).mono (by simp) (by simp))
      · exact hv
  · exact Within.refl _ _ s

/-- The channels as the retirement records have them. -/
def channelsRestored (s : State) : State :=
  each (List.range 384) (restoreRetired s) fun u c => wr u .HBM_CH_STATE_STATE c (recordedChan s c)

theorem restoreWings_eq (s : State) : restoreWings s = reloadTables (channelsRestored s) := rfl

theorem within_restoreWings (s : State) : Within [.tt] wingFlds s (restoreWings s) := by
  have hchans : Within [.tt] wingFlds (restoreRetired s) (channelsRestored s) :=
    within_each _ (fun u c => within_wingFld (by decide) u _ _) _ _
  rw [restoreWings_eq]
  exact ((within_restoreRetired s).trans hchans).trans ((within_reloadTables _).mono (by simp) (by decide))

theorem rd_restoreWings_chan {c : Nat} (hc : c < 384) (s : State) : rd (restoreWings s) .HBM_CH_STATE_STATE c = recordedChan s c := by
  rw [restoreWings_eq, (within_reloadTables _).regs _ _ (by simp)]
  refine each_reach (p := fun u => rd u .HBM_CH_STATE_STATE c = recordedChan s c)
    (f := fun u d => wr u .HBM_CH_STATE_STATE d (recordedChan s d)) (fun u => rd_wr_same _ _ _ _) (fun u d hu => ?_) (List.mem_range.mpr hc) _
  by_cases h : c = d
  · rw [h, rd_wr_same]
  · rw [rd_wr_ne _ _ _ _ _ _ fun e => h e.2, hu]

theorem within_ceilingsAtFreeze (s : State) : Within [.pwr] ceilFlds s (ceilingsAtFreeze s) := by
  unfold ceilingsAtFreeze
  extract_lets u
  have hu : Within [.pwr] ceilFlds s u := (within_pwr s _).mono (by simp) (by simp)
  exact (hu.trans (within_each _ (fun t w => (within_pwr t _).mono (by simp) (by simp)) _ u)).trans (within_setCeilings _)

/-! The exit (R437, R440) -/

/-- The module is in COAST again. -/
def coasting (s : State) (t : Nat) : State :=
  wr (wr (wr (tick s (max t (s.boot.lpSince + lpWake s.boot.lpFrom))) .LP_STATUS_STATE 0 1) .LP_STATUS_TARGET 0 1) .BOOT_STATUS_PHASE 0 8

/-- The records of the exit. -/
def exitNoted (s : State) (t : Nat) : State :=
  lowPowerNoted (coasting s t) s.boot.lpFrom 1 s.boot.lpReason (((coasting s t).now - s.boot.lpSince) / 1000) 6 s.boot.lpFrom 2

/-- The wings and gears after it. -/
def lowExited (s : State) (t : Nat) : State :=
  settleGears (if s.boot.lpFrom = 2 then exitNoted s t else ceilingsAtFreeze (restoreWings (exitNoted s t)))

theorem within_exitNoted (s : State) (t : Nat) :
    Within [.now, .rep, .dbg] ([.LP_STATUS_STATE, .LP_STATUS_TARGET, .BOOT_STATUS_PHASE] ++ reportFlds) s (exitNoted s t) := by
  have h := (((within_tick s (max t (s.boot.lpSince + lpWake s.boot.lpFrom))).append (within_wr _ .LP_STATUS_STATE 0 1)).append
    (within_wr _ .LP_STATUS_TARGET 0 1)).append (within_wr _ .BOOT_STATUS_PHASE 0 8)
  unfold exitNoted coasting
  exact (h.append (within_lowPowerNoted _ _ _ _ _ _ _ _)).mono (by simp) (by simp)

theorem rd_exitNoted {f : Fld} (hf : f ∉ reportFlds) (s : State) (t : Nat) : rd (exitNoted s t) f = rd (coasting s t) f :=
  (within_lowPowerNoted _ _ _ _ _ _ _ _).regs _ _ hf

/-- What an exit leaves (R440). -/
structure LowExited (s v : State) : Prop where
  state : rd v .LP_STATUS_STATE = 1
  target : rd v .LP_STATUS_TARGET = 1
  phase : rd v .BOOT_STATUS_PHASE = 8
  time : s.boot.lpSince + lpWake s.boot.lpFrom ≤ v.now
  doze : s.boot.lpFrom = 2 → v.tt = s.tt
  chans : s.boot.lpFrom ≠ 2 → ∀ c, c < 384 → rd v .HBM_CH_STATE_STATE c = recordedChan s c
  within : Within [.dbg, .now, .pwr, .rep, .tt] (reportFlds ++ [.LP_STATUS_STATE, .LP_STATUS_TARGET, .BOOT_STATUS_PHASE] ++ gearFlds ++
    if s.boot.lpFrom = 2 then [] else ceilFlds ++ wingFlds) s v

theorem lowExited_exits (s : State) (t : Nat) : LowExited s (lowExited s t) := by
  have hnoted := within_exitNoted s t
  have hnow : (exitNoted s t).now = (coasting s t).now := (within_lowPowerNoted _ _ _ _ _ _ _ _).parts .now (by simp)
  have htime : s.boot.lpSince + lpWake s.boot.lpFrom ≤ (exitNoted s t).now := by
    rw [hnow]
    exact le_trans (le_max_right _ _) (le_max_right _ _)
  have hretired : (exitNoted s t).rep.retirement = s.rep.retirement := retirement_lowPowerNoted _ _ _ _ _ _ _ _
  have hstate : rd (exitNoted s t) .LP_STATUS_STATE = 1 := (rd_exitNoted (by decide) s t).trans (by simp [coasting, rd_wr])
  have htarget : rd (exitNoted s t) .LP_STATUS_TARGET = 1 := (rd_exitNoted (by decide) s t).trans (by simp [coasting, rd_wr])
  have hphase : rd (exitNoted s t) .BOOT_STATUS_PHASE = 8 := (rd_exitNoted (by decide) s t).trans (by simp [coasting])
  unfold lowExited
  generalize exitNoted s t = u at *
  have hwings := (within_restoreWings u).append (within_ceilingsAtFreeze (restoreWings u))
  have hchans : ∀ c, c < 384 → rd (ceilingsAtFreeze (restoreWings u)) .HBM_CH_STATE_STATE c = recordedChan s c := fun c hc => by
    rw [(within_ceilingsAtFreeze _).regs _ _ (by decide), rd_restoreWings_chan hc, recordedChan_congr hretired]
  by_cases hfrom : s.boot.lpFrom = 2
  · rw [if_pos hfrom]
    have hgears := within_settleGears u
    refine ⟨?_, ?_, ?_, htime.trans_eq (hgears.parts .now (by simp)).symm, fun _ => ?_, fun h => absurd hfrom h, ?_⟩
    · rw [hgears.regs _ _ (by decide), hstate]
    · rw [hgears.regs _ _ (by decide), htarget]
    · rw [hgears.regs _ _ (by decide), hphase]
    · exact Eq.trans (hgears.parts .tt (by simp)) (hnoted.parts .tt (by simp))
    · rw [if_pos hfrom]
      exact (hnoted.append hgears).mono (by simp) (by decide)
  · rw [if_neg hfrom]
    have hgears := hwings.append (within_settleGears (ceilingsAtFreeze (restoreWings u)))
    refine ⟨?_, ?_, ?_, htime.trans_eq (hgears.parts .now (by simp)).symm, fun h => absurd h hfrom, fun _ c hc => ?_, ?_⟩
    · rw [hgears.regs _ _ (by decide), hstate]
    · rw [hgears.regs _ _ (by decide), htarget]
    · rw [hgears.regs _ _ (by decide), hphase]
    · rw [(within_settleGears _).regs _ _ (by decide), hchans c hc]
    · rw [if_neg hfrom]
      exact (hnoted.append hgears).mono (by simp) (by decide)

/-! What waited for it (R440, R442) -/

/-- The command that waited for the exit. -/
def heldCmdRun (s : State) : State :=
  match s.boot.heldCmd with
  | some (op, c, cls) => runCtxCmd (wr (updBoot s fun b => { b with heldCmd := none }) .CTX_CMD_STATUS_BUSY 0 0) op c cls
  | none => s

/-- The reset that waited for the exit. -/
def heldResetRun (s : State) : State :=
  match s.boot.heldReset with
  | some k => warmReset (updBoot s fun b => { b with heldReset := none }) k
  | none => s

theorem exec_lpExitComplete (hstate : rd s .LP_STATUS_STATE = 6) :
    exec (.lpExitComplete t) s = settle s (heldResetRun (heldCmdRun (lowExited s t))) := by
  show execLpExitComplete t s = _
  unfold execLpExitComplete
  rw [if_neg (not_not.mpr hstate)]
  rfl

end Sys2Proof.Machine
end

section
/-! A warm reset that begins (R434), and the end of a low-power exit; O58. -/

namespace Sys2Proof.Machine

variable {s : State} {t : Nat}

/-! A warm reset that begins (R434) -/

/-- Intake stops and the reset is shown. -/
def resetShown (s : State) : State :=
  wr (wr (wr (updServe s fun v => { v with intakeStopped := true }) .RESET_STATUS_BUSY 0 1) .RESET_STATUS_LAST_KIND 0 2) .BOOT_STATUS_PHASE 0 3

/-- What a warm reset takes. -/
def warmLost (s : State) : State := loseOnChip (loseEngines (wingRegs (dropParks (dropPlan s)) (keptRank .warm)))

/-- The traces and the power manager's measurements that it takes. -/
def warmTraces (s : State) : State :=
  updPwr (updDbg s fun d => { d with
    trails := storeKeep (fun k => k == vestTrail) d.trails, trailNext := storeKeep (fun k => k == vestTrail) d.trailNext
    prof := [], profCount := [], armed := [], haltAt := [], tests := [], dmi := [], dumps := d.dumps.filter (fun e => e.1 == 160) })
    fun p => { p with duty := [], high := [], low := [], charge := [], downReq := [] }

/-- The reset is in progress. -/
def warmStarted (s : State) (trigger : Nat) : State :=
  updBoot (settleDebug (warmTraces (warmLost (resetShown s)))) fun b =>
    { b with warm := some (trigger, (settleDebug (warmTraces (warmLost (resetShown s)))).now), hubResets := [] }

theorem warmReset_of_awake (hnone : s.boot.warm = none) (hawake : rd s .LP_STATUS_STATE < 2) (trigger : Nat) :
    warmReset s trigger = warmStarted s trigger := by
  unfold warmReset
  rw [hnone, if_neg (by simp), if_neg (by omega)]
  rfl

theorem kept_warmLost (s : State) : KeptBut [.core, .lard, .mem, .pann, .tt] s (warmLost s) := fun p hp => by
  cases p with
  | core | lard | mem | pann | tt => exact absurd (by simp) hp
  | _ => rfl

theorem kept_resetShown (s : State) : KeptBut [.serve] s (resetShown s) := fun p hp => by
  cases p with
  | serve => exact absurd (by simp) hp
  | _ => rfl

theorem kept_warmTraces (s : State) : KeptBut [.dbg, .pwr] s (warmTraces s) := fun p hp => by
  cases p with
  | dbg | pwr => exact absurd (by simp) hp
  | _ => rfl

theorem kept_warmStarted (s : State) (trigger : Nat) :
    KeptBut [.boot, .core, .dbg, .lard, .mem, .pann, .pwr, .serve, .tt] s (warmStarted s trigger) := by
  have hlost := ((kept_resetShown s).trans (kept_warmLost _)).trans (kept_warmTraces _)
  exact ((hlost.trans (within_settleDebug _).kept).trans (within_boot _ _).kept).mono (by simp)

theorem rd_warmStarted {f : Fld} (hdebug : f ∉ [.DBG_STATUS_FROZEN, .DBG_STATUS_HALTED]) (hplan : f ∉ [.CTX_WINDOW_OPEN, .CTX_WINDOW_CTX])
    (hkept : keptRank .warm ≤ keptRank (fieldRow f).kept) (s : State) (trigger : Nat) :
    rd (warmStarted s trigger) f = rd (resetShown s) f := by
  have hdrop : Within [.tt, .lard] [.CTX_WINDOW_OPEN, .CTX_WINDOW_CTX] (resetShown s) (dropParks (dropPlan (resetShown s))) := by
    unfold dropParks dropPlan
    exact (((within_wr _ _ _ _).append (within_wr _ _ _ _)).append (within_tt _ _)).append (within_lard _ _)
  have hlost : rd (warmLost (resetShown s)) f = rd (resetShown s) f :=
    (rd_wingRegs_of_kept hkept (dropParks (dropPlan (resetShown s))) 0).trans (hdrop.regs _ _ hplan)
  exact ((within_settleDebug _).regs f 0 hdebug).trans hlost

theorem lost_onChip {a : Nat} (ha : onChip a = true) (s : State) : readByte (loseOnChip s) a = 0 := by
  have hbyte : storeGet (0 : Byte) (loseOnChip s).mem.bytes a = 0 := by
    show storeGet (0 : Byte) (storeKeep (fun a => !onChip a) s.mem.bytes) a = 0
    rw [storeGet_keep, ha]
    rfl
  unfold readByte
  rw [hbyte]
  split <;> rfl

theorem kept_offChip {a : Nat} (ha : onChip a = false) (s : State) : readByte (loseOnChip s) a = readByte s a := by
  have hbyte : storeGet (0 : Byte) (loseOnChip s).mem.bytes a = storeGet 0 s.mem.bytes a := by
    show storeGet (0 : Byte) (storeKeep (fun a => !onChip a) s.mem.bytes) a = _
    rw [storeGet_keep, ha]
    rfl
  unfold readByte
  rw [hbyte, ha]
  simp

theorem mem_warmStarted (s : State) (trigger : Nat) : (warmStarted s trigger).mem = (warmLost (resetShown s)).mem := by
  have hdebug := (within_settleDebug (warmTraces (warmLost (resetShown s)))).parts .mem (by simp)
  exact show _ = _ from hdebug

theorem core_warmStarted (s : State) (trigger : Nat) : (warmStarted s trigger).core = (warmLost (resetShown s)).core := by
  have hdebug := (within_settleDebug (warmTraces (warmLost (resetShown s)))).parts .core (by simp)
  exact show _ = _ from hdebug

theorem tt_warmStarted (s : State) (trigger : Nat) : (warmStarted s trigger).tt = (warmLost (resetShown s)).tt := by
  have hdebug := (within_settleDebug (warmTraces (warmLost (resetShown s)))).parts .tt (by simp)
  exact show _ = _ from hdebug

theorem plan_warmLost (s : State) : (warmLost s).tt.plan = [] := by
  show (if (dropPlan s).tt.reloadDue then (dropPlan s).tt else _).plan = []
  split <;> rfl

theorem pann_warmStarted (s : State) (trigger : Nat) : (warmStarted s trigger).pann = { s.pann with caches := [] } := by
  have hdebug := (within_settleDebug (warmTraces (warmLost (resetShown s)))).parts .pann (by simp)
  exact show _ = _ from hdebug

theorem serve_warmStarted (s : State) (trigger : Nat) : (warmStarted s trigger).serve = { s.serve with intakeStopped := true } := by
  have hdebug := (within_settleDebug (warmTraces (warmLost (resetShown s)))).parts .serve (by simp)
  exact show _ = _ from hdebug

/-- What a warm reset that begins leaves, before the views are shown. -/
structure WarmStarts (s v : State) (trigger : Nat) : Prop where
  busy : rd v .RESET_STATUS_BUSY = 1
  kind : rd v .RESET_STATUS_LAST_KIND = 2
  phase : rd v .BOOT_STATUS_PHASE = 3
  boot : v.boot = { s.boot with warm := some (trigger, v.now), hubResets := [] }
  serve : v.serve = { s.serve with intakeStopped := true }
  queues : v.core.queues = []
  plan : v.tt.plan = []
  lost : ∀ a, onChip a = true → readByte v a = 0
  bytes : ∀ a, onChip a = false → readByte v a = readByte s a
  pann : v.pann = { s.pann with caches := [] }
  kept : KeptBut [.boot, .core, .dbg, .lard, .mem, .pann, .pwr, .serve, .tt] s v

theorem warmReset_starts (hnone : s.boot.warm = none) (hawake : rd s .LP_STATUS_STATE < 2) (trigger : Nat) :
    WarmStarts s (warmReset s trigger) trigger := by
  rw [warmReset_of_awake hnone hawake]
  have hboot := (within_settleDebug (warmTraces (warmLost (resetShown s)))).parts .boot (by simp)
  refine ⟨?_, ?_, ?_, ?_, serve_warmStarted s trigger, ?_, ?_, fun a ha => ?_, fun a ha => ?_, pann_warmStarted s trigger,
    kept_warmStarted s trigger⟩
  · rw [rd_warmStarted (by decide) (by decide) (by decide)]
    simp [resetShown, rd_wr]
  · rw [rd_warmStarted (by decide) (by decide) (by decide)]
    simp [resetShown, rd_wr]
  · rw [rd_warmStarted (by decide) (by decide) (by decide)]
    simp [resetShown]
  · exact congrArg (fun b => { b with warm := some (trigger, (warmStarted s trigger).now), hubResets := [] }) (show _ = s.boot from hboot)
  · rw [core_warmStarted]
    rfl
  · rw [tt_warmStarted, plan_warmLost]
  · rw [readByte_congr (mem_warmStarted s trigger)]
    exact lost_onChip ha _
  · rw [readByte_congr (mem_warmStarted s trigger)]
    exact kept_offChip ha _

/-- The start of a warm reset, as Table 15-7 has it. -/
theorem WarmStarts.begins {s u v : State} {trigger : Nat} (h : WarmStarts u v trigger) (hkept : KeptBut [.now, .rep] s u)
    (w : State) : WarmBegins s (settled w v) trigger u.now := by
  have hserve : u.serve = s.serve := hkept .serve (by simp)
  have hmem : u.mem = s.mem := hkept .mem (by simp)
  have hpann : u.pann = s.pann := hkept .pann (by simp)
  have hnow : v.now = u.now := h.kept .now (by simp)
  refine ⟨?_, ?_, ?_, ?_, ?_, ?_, fun k => ?_, h.plan, h.lost, fun a ha => ?_, ?_, ((hkept.trans h.kept).mono (by simp)).settled w⟩
  · rw [rd_settled_other _ _ _ _ (by decide), h.busy]
  · rw [rd_settled_other _ _ _ _ (by decide), h.kind]
  · rw [rd_settled_other _ _ _ _ (by decide), h.phase]
  · exact (congrArg Boot.warm h.boot).trans (by rw [hnow])
  · exact congrArg Serving.intakeStopped h.serve
  · have hitems : u.serve.items = s.serve.items := congrArg Serving.items hserve
    exact (congrArg Serving.items h.serve).trans hitems
  · exact (congrArg (storeGet [] · k) h.queues).trans rfl
  · exact (h.bytes a ha).trans (readByte_congr hmem a)
  · exact h.pann.trans (by rw [hpann])

/-! What a command that waited for an exit leaves of the boot state -/

theorem boot_ctxGrant (s : State) (c : Nat) (cls : Bool) : (ctxGrant s c cls).boot = s.boot := by
  unfold ctxGrant
  dsimp only
  split
  · exact (withinAt_ctxRejected s _).parts .boot (by simp)
  · split
    · exact (withinAt_ctxRejected s _).parts .boot (by simp)
    · have hgrant := (within_ctxGranted (resetWindow s c) c (if cls then (freeSaveSlot s).getD 0 else 0) cls).parts .boot (by simp)
      exact Eq.trans hgrant (parts_resetWindow s c .boot (by simp))

theorem boot_ctxSuspend (s : State) (c : Nat) : (ctxSuspend s c).boot = s.boot := by
  by_cases hc : c = 0
  · rw [ctxSuspend, if_pos hc]
    exact (withinAt_ctxRejected s _).parts .boot (by simp)
  · by_cases hst : rd s .CTX_STATE_STATE c = 1
    · rw [ctxSuspend_of_active hc hst]
      exact ((within_suspendBegun s c).append (within_suspendEnds _ c)).parts .boot (by simp)
    · rw [ctxSuspend, if_neg hc, if_pos hst]
      exact (withinAt_ctxRejected s _).parts .boot (by simp)

theorem boot_ctxResume (s : State) (c : Nat) : (ctxResume s c).boot = s.boot := by
  unfold ctxResume
  split
  · exact ((within_setCtxState s c 1).append (within_ctxDone _)).parts .boot (by simp)
  · exact (withinAt_ctxRejected s _).parts .boot (by simp)

theorem boot_ctxTeardown (s : State) (c : Nat) : (ctxTeardown s c).boot = s.boot := by
  unfold ctxTeardown
  split
  · exact (withinAt_ctxRejected s _).parts .boot (by simp)
  · split
    · next hc hst =>
      have hdown := ((startTeardown_frame hc hst 3).append (within_ctxDone _)).parts .boot (by simp)
      exact Eq.trans hdown ((within_setCtxState s c 3).parts .boot (by simp))
    · exact (withinAt_ctxRejected s _).parts .boot (by simp)

theorem boot_runCtxCmd (s : State) (op c : Nat) (cls : Bool) : (runCtxCmd s op c cls).boot = s.boot := by
  unfold runCtxCmd
  split
  · exact boot_ctxGrant s c cls
  · split
    · exact boot_ctxSuspend s c
    · split
      · exact boot_ctxResume s c
      · split
        · exact boot_ctxTeardown s c
        · exact (withinAt_ctxRejected s _).parts .boot (by simp)

/-! Exits with what waited for them -/

theorem lpExitComplete_resets {k : Nat} (hstate : rd s .LP_STATUS_STATE = 6) (hcmd : s.boot.heldCmd = none)
    (hreset : s.boot.heldReset = some k) (hwarm : s.boot.warm = none) : Runs (.lpExitComplete t) s fun v =>
      v.boot.heldReset = none ∧ v.boot.warm = some (k, v.now) ∧ rd v .RESET_STATUS_BUSY = 1 ∧ rd v .RESET_STATUS_LAST_KIND = 2 ∧
      rd v .BOOT_STATUS_PHASE = 3 ∧ v.serve.items = s.serve.items := by
  have hexit := lowExited_exits s t
  have hboot : (lowExited s t).boot = s.boot := hexit.within.parts .boot (by simp)
  have hserve : (lowExited s t).serve = s.serve := hexit.within.parts .serve (by simp)
  have hexec := exec_lpExitComplete (t := t) hstate
  rw [heldCmdRun, hboot, hcmd] at hexec
  dsimp only at hexec
  rw [heldResetRun, hboot, hreset] at hexec
  dsimp only at hexec
  have hawake := hexit.state
  generalize lowExited s t = u at *
  have hstarts := warmReset_starts (s := updBoot u fun b => { b with heldReset := none }) (by rw [updBoot_boot, hboot]; exact hwarm)
    (by rw [rd_updBoot, hawake]; decide) k
  generalize warmReset (updBoot u fun b => { b with heldReset := none }) k = v at *
  refine runs_of_settle hexec ⟨congrArg Boot.heldReset hstarts.boot, congrArg Boot.warm hstarts.boot, ?_, ?_, ?_, ?_⟩
  · rw [rd_settled_other _ _ _ _ (by decide), hstarts.busy]
  · rw [rd_settled_other _ _ _ _ (by decide), hstarts.kind]
  · rw [rd_settled_other _ _ _ _ (by decide), hstarts.phase]
  · have hitems : u.serve.items = s.serve.items := congrArg Serving.items hserve
    exact (congrArg Serving.items hstarts.serve).trans hitems

theorem lpExitComplete_commands {x : Nat × Nat × Bool} (hstate : rd s .LP_STATUS_STATE = 6) (hcmd : s.boot.heldCmd = some x)
    (hreset : s.boot.heldReset = none) : Runs (.lpExitComplete t) s fun v =>
      ∃ w, settle s (runCtxCmd w x.1 x.2.1 x.2.2) = .next v ∧ rd w .LP_STATUS_STATE = 1 ∧ rd w .BOOT_STATUS_PHASE = 8 ∧
        w.boot.heldCmd = none ∧ rd w .CTX_CMD_STATUS_BUSY = 0 ∧ w.serve.items = s.serve.items ∧
        s.boot.lpSince + lpWake s.boot.lpFrom ≤ w.now := by
  have hexit := lowExited_exits s t
  have hboot : (lowExited s t).boot = s.boot := hexit.within.parts .boot (by simp)
  have hserve : (lowExited s t).serve = s.serve := hexit.within.parts .serve (by simp)
  have hexec := exec_lpExitComplete (t := t) hstate
  rw [heldCmdRun, hboot, hcmd] at hexec
  dsimp only at hexec
  have hawake := hexit.state
  have hphase := hexit.phase
  have htime := hexit.time
  generalize lowExited s t = u at *
  rw [heldResetRun, boot_runCtxCmd, show (wr (updBoot u fun b => { b with heldCmd := none }) .CTX_CMD_STATUS_BUSY 0 0).boot.heldReset = none from
    (congrArg Boot.heldReset hboot).trans hreset] at hexec
  dsimp only at hexec
  have hw := within_wr (updBoot u fun b => { b with heldCmd := none }) .CTX_CMD_STATUS_BUSY 0 0
  refine runs_of_settle hexec ⟨_, rfl, ?_, ?_, rfl, rd_wr_same _ _ _ _, congrArg Serving.items hserve, htime⟩
  · rw [hw.regs _ _ (by decide), rd_updBoot, hawake]
  · rw [hw.regs _ _ (by decide), rd_updBoot, hphase]

theorem exec_lpExitComplete_alone (hstate : rd s .LP_STATUS_STATE = 6) (hcmd : s.boot.heldCmd = none) (hreset : s.boot.heldReset = none) :
    exec (.lpExitComplete t) s = settle s (lowExited s t) := by
  have hboot : (lowExited s t).boot = s.boot := (lowExited_exits s t).within.parts .boot (by simp)
  rw [exec_lpExitComplete hstate, heldCmdRun, hboot, hcmd]
  dsimp only
  rw [heldResetRun, hboot, hreset]

/-- Settles O58: selection, entries, KICKSTAND, wake events and exits. -/
theorem lowPowerRuns : Obligations.LowPowerRuns := by
  refine ⟨fun s t depends hstate hphase => ⟨fun st hwhy hst hdeep => lpIdleSelect_enters hstate hphase hwhy hst hdeep,
      fun why hwhy hne => lpIdleSelect_stays hstate hphase hwhy hne⟩,
    fun s t hstate hwake _ => lpEntryComplete_enters hstate hwake,
    fun s t hstate hwake htarget => lpEntryComplete_wakes hstate hwake htarget,
    fun s t hstate hready => ⟨kickstandEntry_stays hstate hready, kickstandEntry_enters hstate hready⟩,
    fun s src t hlow => ⟨fun hevent hdue => exits_runs hlow (exec_lpWakeTimer hevent hdue),
      fun hmgmt => exits_runs hlow (exec_lpWake hmgmt)⟩,
    fun s src t hmgmt => ⟨lpWake_pends hmgmt, lpWake_idle hmgmt⟩,
    fun s t hstate => ⟨fun k hcmd hreset hwarm => lpExitComplete_resets hstate hcmd hreset hwarm,
      fun x hcmd hreset => lpExitComplete_commands hstate hcmd hreset⟩,
    fun s t hstate hcmd hreset => ?_⟩
  have hexit := lowExited_exits s t
  have hexec := exec_lpExitComplete_alone (t := t) hstate hcmd hreset
  generalize lowExited s t = u at *
  refine runs_of_settle hexec ⟨?_, ?_, ?_, hexit.time, hexit.doze, fun h c hc => ?_, (hexit.within.mono ?_ ?_).settled⟩
  · rw [rd_settled_other _ _ _ _ (by decide), hexit.state]
  · rw [rd_settled_other _ _ _ _ (by decide), hexit.target]
  · rw [rd_settled_other _ _ _ _ (by decide), hexit.phase]
  · rw [rd_settled_other _ _ _ _ (by decide), hexit.chans h c hc]
  · simp
  · by_cases h : s.boot.lpFrom = 2
    · rw [if_pos h, if_pos h]
      decide
    · rw [if_neg h, if_neg h]
      decide

end Sys2Proof.Machine
end

section
/-! What tasks that end and queues that move on keep: a relation of states that each of their parts keeps. -/

namespace Sys2Proof.Machine

/-- A relation that each part of a task's end and of a queue's move keeps. -/
structure MovesKeep (R : State → State → Prop) : Prop where
  refl : ∀ s, R s s
  trans : ∀ {s t u}, R s t → R t u → R s u
  parts : ∀ {fs : List Fld} {s t : State}, Within [.fab, .rep, .tt] fs s t → R s t
  core : ∀ (s : State) (f : Cores → Cores), (f s.core).halted = s.core.halted → R s (updCore s f)
  trail : ∀ s k code ctx arg16 arg32, R s (trail s k code ctx arg16 arg32)
  hubError : ∀ s hub off value slot cause, R s (hubError s hub off value slot cause)
  endItem : ∀ s x code detail cardId, R s (endItem s x code detail cardId)

namespace MovesKeep

variable {R : State → State → Prop} (h : MovesKeep R)
include h

theorem wr (s : State) (f : Fld) (n v : Nat) : R s (wr s f n v) := h.parts ((within_wr s f n v).mono (by simp) (List.Subset.refl _))

theorem fab (s : State) (f : Fabric → Fabric) : R s (updFab s f) := h.parts ((within_fab s f).mono (by simp) (List.Subset.refl _))

theorem showBusy (s : State) (k : Nat) : R s (showBusy s k) := h.parts ((within_showBusy s k).mono (by simp) (List.Subset.refl _))

theorem each {α : Type} {f : State → α → State} (hf : ∀ s a, R s (f s a)) (l : List α) (s : State) : R s (each l s f) :=
  each_rel h.refl h.trans hf l s

/-! Tasks that stop -/

theorem endItems (s : State) (p : Item → Bool) (code detail : Nat) : R s (endItems s p code detail) := by
  refine h.each (fun t x => ?_) _ s
  split
  · exact h.endItem t _ _ _ _
  · exact h.refl t

theorem abortSegments (s : State) (p : Segment → Bool) : R s (abortSegments s p) := by
  refine h.each (fun t g => ?_) _ s
  have harrive := h.parts ((within_arriveBarrier t g true).mono (by simp) (List.Subset.refl _))
  split
  · next u g' hu =>
    rw [hu] at harrive
    exact h.trans harrive (h.endItems u _ _ _)
  · next u hu =>
    rw [hu] at harrive
    exact harrive

theorem freeCard (s : State) (card : Nat) : R s (freeCard s card) := by
  unfold Machine.freeCard
  split
  · exact h.refl s
  · extract_lets u v w
    have hu : R s u := h.each (fun t _ => h.trans (h.trans (h.wr t _ _ _) (h.wr _ _ _ _)) (h.trans (h.wr _ _ _ _) (h.wr _ _ _ _))) _ s
    have hv : R u v := h.each (fun t _ => h.wr t .SPOKE_CREDIT_POOL _ _) _ u
    have hw : R v w := h.core v _ rfl
    exact h.trans (h.trans (h.trans hu hv) hw) (h.fab w _)

theorem idled (s : State) (k : Nat) : R s (Machine.wr (Machine.wr (Machine.showBusy s k) .MAT_CORE_STATUS_HELD k 0) .VEC_CORE_STATUS_HELD k 0) :=
  h.trans (h.trans (h.showBusy s k) (h.wr _ _ _ _)) (h.wr _ _ _ _)

theorem stopTask (s : State) (task : List (Nat × Nat)) (card code detail : Nat) : R s (stopTask s task card code detail) := by
  unfold Machine.stopTask
  extract_lets mine ran opened u v w
  have hu : R s u := h.core s _ rfl
  have hv : R u v := h.each h.idled _ u
  have hw : R v w := by
    refine h.trans (h.freeCard v card) (h.each (fun t k => ?_) _ _)
    split
    · exact h.endItem t _ _ _ _
    · exact h.refl t
  exact h.trans (h.trans (h.trans hu hv) hw) (h.abortSegments w _)

/-! Queues that move on -/

theorem arriveSem (s : State) (k : Nat) (r : RunCmd) (n : Nat) : R s (arriveSem s k r n) := by
  unfold Machine.arriveSem
  dsimp only
  split
  · exact h.trans (h.trans (h.trans (h.wr s _ _ _) (h.wr _ _ _ _)) (h.hubError _ _ _ _ _ _)) (h.stopTask _ _ _ _ _)
  · split
    · exact h.refl s
    · refine h.trans ?_ (h.trans (h.trans (h.wr _ _ _ _) (h.trail _ _ _ _ _ _)) (h.core _ _ rfl))
      split
      · exact h.refl s
      · exact h.trans (h.trans (h.wr s _ _ _) (h.wr _ _ _ _)) (h.wr _ _ _ _)

theorem drawCredits (s : State) (q : QueuedCmd) : R s (drawCredits s q) :=
  h.each (fun t _ => h.trans (h.wr t _ _ _) (h.fab _ _)) _ s

theorem setCmd (s : State) (k : Nat) (r : RunCmd) : R s (setCmd s k r) := by
  unfold Machine.setCmd setQueueAt
  exact h.core s _ rfl

theorem noteStarts (s : State) (k n : Nat) : R s (noteStarts s k n) := by
  unfold Machine.noteStarts
  split
  · exact h.refl s
  · dsimp only
    split
    · exact h.setCmd s k _
    · exact h.refl s

theorem beginCmd (s : State) (k : Nat) (r : RunCmd) : R s (beginCmd s k r) := by
  unfold Machine.beginCmd
  extract_lets u v w at_
  have hu : R s u := h.drawCredits s r.q
  have hw : R u w := h.trans (h.core u _ rfl : R u v) (h.trail v _ _ _ _ _)
  exact h.trans (h.trans hu hw) (h.trans (h.setCmd _ _ _) (h.trans (h.noteStarts _ _ _) (h.showBusy _ _)))

theorem reachSems (s : State) (k : Nat) : R s (reachSems s k) := by
  unfold Machine.reachSems
  split
  · exact h.each (fun t n => h.arriveSem t k _ n) _ s
  · exact h.refl s

theorem startHead (n : Nat) (s : State) (k : Nat) : R s (startHead n s k) := by
  induction n generalizing s with
  | zero => exact h.refl s
  | succ n ih =>
    unfold Machine.startHead
    split
    · split
      · exact h.trans (h.trans (h.beginCmd s k _) (h.reachSems _ k)) (ih _)
      · exact h.refl s
    · exact h.refl s

theorem pump (s : State) (hub : Nat) : R s (pump s hub) := by
  have honce : ∀ t, R t (pumpOnce t hub) := fun t => h.trans (h.each h.reachSems _ t) (h.each (h.startHead 16) _ _)
  exact h.trans (honce s) (honce _)

theorem endTask (s : State) (task : List (Nat × Nat)) (card code detail : Nat) : R s (endTask s task card code detail) :=
  h.trans (h.stopTask s task card code detail) (h.each h.pump _ _)

theorem abortHubTasks (s : State) (hub detail : Nat) : R s (abortHubTasks s hub detail) :=
  h.each (fun t (e : List (Nat × Nat) × Nat) => h.endTask t e.1 e.2 0x23 detail) _ s

end MovesKeep

/-! Control cores stay halted and dumps stay in progress -/

variable {s t u : State}

/-- The halted control cores are as they were, and every dump in progress still is. -/
structure HaltKept (s t : State) : Prop where
  halted : t.core.halted = s.core.halted
  dumps : ∀ d ∈ s.dbg.dumps, d ∈ t.dbg.dumps

theorem HaltKept.refl (s : State) : HaltKept s s := ⟨rfl, fun _ => id⟩

theorem HaltKept.trans (h : HaltKept s t) (k : HaltKept t u) : HaltKept s u :=
  ⟨k.halted.trans h.halted, fun d hd => k.dumps d (h.dumps d hd)⟩

/-- What touches neither debug nor the cores. -/
theorem Within.haltKept {ps : List Part} {fs : List Fld} (h : Within ps fs s t) (hcore : Part.core ∉ ps := by simp)
    (hdbg : Part.dbg ∉ ps := by simp) : HaltKept s t := by
  have hc : t.core = s.core := h.parts .core hcore
  have hd : t.dbg = s.dbg := h.parts .dbg hdbg
  exact ⟨by rw [hc], fun d hmem => by rwa [hd]⟩

theorem haltKept_trail (s : State) (k code ctx arg16 arg32 : Nat) : HaltKept s (trail s k code ctx arg16 arg32) := by
  refine ⟨congrArg Cores.halted (trail_core s k code ctx arg16 arg32), fun d hd => ?_⟩
  unfold trail
  split
  · exact hd
  · split
    · exact hd
    · exact hd

theorem haltKept_freezeScope (s : State) (h trigger : Nat) : HaltKept s (freezeScope s h trigger) := by
  refine ⟨congrArg Cores.halted ((within_freezeScope s h trigger).parts .core (by simp)), fun d hd => ?_⟩
  unfold freezeScope
  extract_lets frozen v w
  have hv : d ∈ v.dbg.dumps := by
    unfold v
    split <;> exact hd
  split
  · exact hd
  · split
    · exact hv
    · exact List.mem_append_left _ hv

theorem haltKept_freezeHub (s : State) (h bit : Nat) : HaltKept s (freezeHub s h bit) := by
  unfold freezeHub
  split
  · exact (haltKept_freezeScope _ _ _).trans (haltKept_freezeScope _ _ _)
  · exact HaltKept.refl _

theorem haltKept_hubError (s : State) (hub off value slot : Nat) (cause : Option Nat) : HaltKept s (hubError s hub off value slot cause) := by
  unfold hubError
  exact ((within_report s _ _ _ _ _ _).haltKept.trans (haltKept_trail _ _ _ _ _ _)).trans (haltKept_freezeHub _ _ _)

theorem movesKeep_haltKept : MovesKeep HaltKept where
  refl := HaltKept.refl
  trans := HaltKept.trans
  parts w := w.haltKept
  core _ _ h := ⟨h, fun _ => id⟩
  trail := haltKept_trail
  hubError := haltKept_hubError
  endItem s x code detail cardId := (frame_endItem s x code detail cardId).haltKept

theorem haltKept_abortHubTasks (s : State) (h detail : Nat) : HaltKept s (abortHubTasks s h detail) :=
  movesKeep_haltKept.abortHubTasks s h detail

theorem queueFrame_abortHubTasks (s : State) (h detail : Nat) : QueueFrame s (abortHubTasks s h detail) :=
  queueFrame_each (fun t (e : List (Nat × Nat) × Nat) => queueFrame_endTask t e.1 e.2 0x23 detail) _ s

end Sys2Proof.Machine
end

section
/-! Freezes and counters of debug (R449, R453). -/

namespace Sys2Proof.Machine

variable {s : State} {src : Src} {t : Nat}

/-! Freezes (R453) -/

theorem rd_freezeScope (s : State) (h trigger n : Nat) : rd (freezeScope s h trigger) .DBG_TRAIL_STATUS_FROZEN n =
    if n = h ∧ h ≠ 160 then 1 else rd s .DBG_TRAIL_STATUS_FROZEN n := by
  unfold freezeScope
  extract_lets frozen u v
  have hu : rd u .DBG_TRAIL_STATUS_FROZEN n = if n = h ∧ h ≠ 160 then 1 else rd s .DBG_TRAIL_STATUS_FROZEN n := by
    unfold u
    split
    · next hv => simp [hv]
    · next hv => simp [rd_wr, hv]
  have hv : rd v .DBG_TRAIL_STATUS_FROZEN n = rd u .DBG_TRAIL_STATUS_FROZEN n := by simp [v, rd_wr]
  split
  · next hf =>
    split
    · next hn =>
      simp only [frozen, if_neg hn.2, rdb, beq_iff_eq] at hf
      rw [hn.1, hf]
    · rfl
  · split
    · exact hv.trans hu
    · exact hv.trans hu

theorem vFrozen_freezeScope (s : State) (h trigger : Nat) : (freezeScope s h trigger).dbg.vFrozen = (s.dbg.vFrozen || h == 160) := by
  unfold freezeScope
  extract_lets frozen u v
  have hu : u.dbg.vFrozen = (s.dbg.vFrozen || h == 160) := by
    unfold u
    split
    · next hv => simp [hv]
    · next hv => simp [hv]
  split
  · next hf =>
    by_cases hv : h = 160
    · simp only [frozen, if_pos hv] at hf
      simp [hf]
    · simp [hv]
  · split
    · exact hu
    · exact hu

theorem rd_freezeAll (s : State) (trigger : Nat) {h : Nat} (hh : h < 160) : rd (freezeAll s trigger) .DBG_TRAIL_STATUS_FROZEN h = 1 := by
  refine each_reach (p := fun u => rd u .DBG_TRAIL_STATUS_FROZEN h = 1) (f := fun u k => freezeScope u k trigger) (a := h) (fun u => ?_)
    (fun u k hu => ?_) (List.mem_range.mpr (by omega)) s
  · rw [rd_freezeScope, if_pos ⟨rfl, by omega⟩]
  · rw [rd_freezeScope, hu]
    split <;> rfl

theorem vFrozen_freezeAll (s : State) (trigger : Nat) : (freezeAll s trigger).dbg.vFrozen = true := by
  have hin : 160 ∈ List.range 161 := List.mem_range.mpr (by omega)
  unfold freezeAll
  refine each_reach (p := fun u => u.dbg.vFrozen = true) (fun u => ?_) (fun u k hu => ?_) hin s
  · simp [vFrozen_freezeScope]
  · rw [vFrozen_freezeScope, hu, Bool.true_or]

theorem dbgFreeze_freezes (hmgmt : isMgmt s src = true) : Runs (.dbgFreeze src t) s fun v =>
    v.dbg.vFrozen = true ∧ (∀ h, h < 160 → rd v .DBG_TRAIL_STATUS_FROZEN h = 1) ∧ Frame [.dbg, .now] freezeFlds s v := by
  have hexec : exec (.dbgFreeze src t) s = settle s (freezeAll (tick s t) 6) := by
    show execDbgFreeze src t s = _
    unfold execDbgFreeze
    rw [if_pos hmgmt]
  have hvest := vFrozen_freezeAll (tick s t) 6
  have hhubs := fun h (hh : h < 160) => rd_freezeAll (tick s t) 6 hh
  have hall := (within_tick s t).append (within_freezeAll (tick s t) 6)
  generalize freezeAll (tick s t) 6 = u at *
  refine runs_of_settle hexec ⟨hvest, fun h hh => ?_, (hall.mono (by simp) (by simp)).settled⟩
  rw [rd_settled_other _ _ _ _ (by decide), hhubs h hh]

/-- Every trail thaws. -/
def thawed (s : State) : State := updDbg (wrAll s .DBG_TRAIL_STATUS_FROZEN (List.range 160) 0) fun d => { d with vFrozen := false }

theorem within_thawed (s : State) : Within [.dbg] [.DBG_TRAIL_STATUS_FROZEN] s (thawed s) := by
  unfold thawed
  exact ((within_wrAll _ _ _ _).append (within_dbg _ _)).mono (by simp) (by simp)

theorem rd_thawed (s : State) {h : Nat} (hh : h < 160) : rd (thawed s) .DBG_TRAIL_STATUS_FROZEN h = 0 := by
  rw [thawed, rd_updDbg]
  exact rd_wrAll_of_mem _ _ _ (List.mem_range.mpr hh)

theorem vFrozen_thawed (s : State) : (thawed s).dbg.vFrozen = false := by
  unfold thawed
  generalize wrAll s .DBG_TRAIL_STATUS_FROZEN (List.range 160) 0 = u
  rfl

theorem dbgUnfreeze_unfreezes (hmgmt : isMgmt s src = true) : Runs (.dbgUnfreeze src t) s fun v =>
    v.dbg.vFrozen = false ∧ (∀ h, h < 160 → rd v .DBG_TRAIL_STATUS_FROZEN h = 0) ∧
    Frame [.dbg, .now] [.DBG_TRAIL_STATUS_FROZEN, .DBG_STATUS_FROZEN, .DBG_STATUS_HALTED] s v := by
  have hexec : exec (.dbgUnfreeze src t) s = settle s (settleDebug (thawed (tick s t))) := by
    show execDbgUnfreeze src t s = _
    unfold execDbgUnfreeze
    rw [if_pos hmgmt]
    rfl
  have hvest := vFrozen_thawed (tick s t)
  have hhubs := fun h (hh : h < 160) => rd_thawed (tick s t) hh
  have hthaw := (within_tick s t).append (within_thawed (tick s t))
  generalize thawed (tick s t) = u at *
  have hsettle := within_settleDebug u
  have hdbg : (settleDebug u).dbg = u.dbg := hsettle.parts .dbg (by simp)
  refine runs_of_settle hexec ⟨(congrArg DebugState.vFrozen hdbg).trans hvest, fun h hh => ?_,
    ((hthaw.append hsettle).mono (by simp) (by simp)).settled⟩
  rw [rd_settled_other _ _ _ _ (by decide), hsettle.regs _ _ (by decide), hhubs h hh]

/-! Snapshots (R449) -/

/-- Each counter of a list is copied to its place in the shadow. -/
theorem rd_copied {f : Fld} {i : Nat} : ∀ (l : List (Fld × Nat)) (s : State), (∀ e ∈ l, e.1 ≠ .DBG_SHADOW) →
    (l.map (·.2)).Nodup → (f, i) ∈ l →
    rd (each l s fun u e => wr u .DBG_SHADOW e.2 (rd u e.1)) .DBG_SHADOW i = rd s f
  | [], _, _, _, h => absurd h (by simp)
  | e :: l, s, hne, hnd, h => by
    obtain ⟨hnot, hnd⟩ := List.nodup_cons.mp hnd
    obtain ⟨he, hne⟩ := List.forall_mem_cons.mp hne
    have hkeep : ∀ (m : List (Fld × Nat)) (u : State), (∀ x ∈ m, x.2 ≠ i) →
        rd (each m u fun u e => wr u .DBG_SHADOW e.2 (rd u e.1)) .DBG_SHADOW i = rd u .DBG_SHADOW i := fun m => by
      induction m with
      | nil => exact fun _ _ => rfl
      | cons x m ih =>
        intro u hm
        obtain ⟨hx, hm⟩ := List.forall_mem_cons.mp hm
        exact (ih _ hm).trans (rd_wr_ne _ _ _ _ _ _ fun e => hx e.2.symm)
    rcases List.mem_cons.mp h with rfl | h
    · exact (hkeep l _ fun x hx hi => hnot (List.mem_map.mpr ⟨x, hx, hi⟩)).trans (rd_wr_same _ _ _ _)
    · refine (rd_copied l _ hne hnd h).trans (rd_wr_ne _ _ _ _ _ _ fun e' => ?_)
      exact hne (f, i) h e'.1

theorem dbgSnap_snaps (hmgmt : isMgmt s src = true) : Runs (.dbgSnap src t) s fun v =>
    (∀ i f, debugCounters[i]? = some f → rd v .DBG_SHADOW i = rd s f) ∧ rd v .DBG_SNAP_TIME = max s.now t ∧
    Frame [.now] [.DBG_SHADOW, .DBG_SNAP_TIME] s v := by
  let u := each debugCounters.zipIdx (tick s t) fun u e => wr u .DBG_SHADOW e.2 (rd u e.1)
  have hexec : exec (.dbgSnap src t) s = settle s (wr u .DBG_SNAP_TIME 0 u.now) := by
    show execDbgSnap src t s = _
    unfold execDbgSnap
    rw [if_pos hmgmt]
  have hcopied : ∀ i f, debugCounters[i]? = some f → rd u .DBG_SHADOW i = rd s f := fun i f hf =>
    rd_copied debugCounters.zipIdx (tick s t) (by decide) (by decide) (List.mem_zipIdx_iff_getElem?.mpr hf)
  have hu : Within [] [.DBG_SHADOW] (tick s t) u := within_each _ (fun x e => within_wr x .DBG_SHADOW _ _) _ _
  have hnow : u.now = max s.now t := hu.parts .now (by simp)
  clear_value u
  refine runs_of_settle hexec ⟨fun i f hf => ?_, ?_, (((within_tick s t).append hu).append (within_wr u _ _ _)).settled⟩
  · rw [rd_settled_other _ _ _ _ (by decide), rd_wr_ne _ _ _ _ _ _ (by simp), hcopied i f hf]
  · rw [rd_settled_other _ _ _ _ (by decide), rd_wr_same, hnow]

/-! Counters (R449) -/

/-- One contribution is added. -/
def contributionAdded (u : State) (e : Nat × Nat) : State :=
  match debugCounters[e.1]? with
  | some f => wr u f 0 ((rd u f + e.2) % 2 ^ 64)
  | none => u

theorem contributionAdded_of_some {f : Fld} {e : Nat × Nat} (h : debugCounters[e.1]? = some f) (u : State) :
    contributionAdded u e = wr u f 0 ((rd u f + e.2) % 2 ^ 64) := by
  unfold contributionAdded
  rw [h]

theorem withinAt_contributionAdded (u : State) (e : Nat × Nat) :
    WithinAt [] (debugCounters.map fun f => (f, 0)) u (contributionAdded u e) := by
  unfold contributionAdded
  split
  · next f hf => exact (withinAt_wr u f 0 _).mono (by simp) (by simpa using List.mem_of_getElem? hf)
  · exact (WithinAt.refl u).mono (by simp) (by simp)

theorem rd_contributionAdded_other {f : Fld} {e : Nat × Nat} (h : debugCounters[e.1]? ≠ some f) (u : State) :
    rd (contributionAdded u e) f = rd u f := by
  unfold contributionAdded
  split
  · next g hg => exact rd_wr_ne _ _ _ _ _ _ fun e' => h (hg.trans (congrArg some e'.1.symm))
  · rfl

/-- The contributions of a list are added. -/
def contributed (l : List (Nat × Nat)) (s : State) : State := each l s contributionAdded

theorem addContributions_eq (s : State) : addContributions s = updDbg (contributed s.dbg.contrib s) fun d => { d with contrib := [] } := rfl

theorem withinAt_contributed (l : List (Nat × Nat)) (s : State) :
    WithinAt [] (debugCounters.map fun f => (f, 0)) s (contributed l s) :=
  each_rel (r := WithinAt [] (debugCounters.map fun f => (f, 0))) (fun s => (WithinAt.refl s).mono (by simp) (by simp))
    (fun h k => h.chain k) withinAt_contributionAdded l s

/-- A counter to which nothing was contributed. -/
theorem rd_contributed_other {f : Fld} : ∀ (l : List (Nat × Nat)) (s : State), (∀ e ∈ l, debugCounters[e.1]? ≠ some f) →
    rd (contributed l s) f = rd s f
  | [], _, _ => rfl
  | e :: l, s, h => by
    obtain ⟨he, hl⟩ := List.forall_mem_cons.mp h
    exact (rd_contributed_other l _ hl).trans (rd_contributionAdded_other he s)

theorem eq_of_debugCounters {i j : Nat} {f : Fld} (hi : debugCounters[i]? = some f) (hj : debugCounters[j]? = some f) : i = j :=
  (List.getElem?_inj (List.getElem?_eq_some_iff.mp hi).1 (by decide)).mp (hi.trans hj.symm)

/-- A counter with one contribution. -/
theorem rd_contributed {f : Fld} {i n : Nat} (hi : debugCounters[i]? = some f) : ∀ (l : List (Nat × Nat)) (s : State),
    (l.map (·.1)).Nodup → (i, n) ∈ l → rd (contributed l s) f = (rd s f + n) % 2 ^ 64
  | [], _, _, h => absurd h (by simp)
  | e :: l, s, hnd, h => by
    obtain ⟨hnot, hnd⟩ := List.nodup_cons.mp hnd
    rcases List.mem_cons.mp h with rfl | h
    · refine (rd_contributed_other l _ fun x hx hf => hnot (List.mem_map.mpr ⟨x, hx, eq_of_debugCounters hf hi⟩)).trans ?_
      rw [contributionAdded_of_some hi, rd_wr_same]
    · refine (rd_contributed hi l _ hnd h).trans ?_
      rw [rd_contributionAdded_other fun hf => hnot (List.mem_map.mpr ⟨(i, n), h, eq_of_debugCounters hi hf⟩)]

/-- The counts of a command are contributed. -/
def countsTaken (s : State) (counts : List (Nat × Nat)) : State := each counts s fun u e => contribute u e.1 e.2

theorem within_countsTaken (s : State) (counts : List (Nat × Nat)) : Within [.dbg] [] s (countsTaken s counts) :=
  within_each _ (fun u _ => within_dbg u _) _ s

theorem contrib_countsTaken_wf {s : State} (h : StoreWf (fun _ => 0) s.dbg.contrib) (counts : List (Nat × Nat)) :
    StoreWf (fun _ => 0) (countsTaken s counts).dbg.contrib :=
  each_keep (p := fun u => StoreWf (fun _ => 0) u.dbg.contrib) (fun u (e : Nat × Nat) => contribute u e.1 e.2)
    (fun u e hu => storePut_wf (fun _ => 0) u.dbg.contrib e.1 _ hu) counts s h

theorem contrib_countsTaken (i : Nat) : ∀ (counts : List (Nat × Nat)) (s : State), storeGet 0 (countsTaken s counts).dbg.contrib i =
    storeGet 0 s.dbg.contrib i + ((counts.filter (fun e => e.1 == i)).map (·.2)).sum
  | [], _ => rfl
  | e :: l, s => by
    refine (contrib_countsTaken i l (contribute s e.1 e.2)).trans ?_
    by_cases h : e.1 = i
    · rw [List.filter_cons_of_pos (by simpa using h), List.map_cons, List.sum_cons, ← Nat.add_assoc]
      congr 1
      rw [← h]
      exact storeGet_put_same _ _ _ _
    · rw [List.filter_cons_of_neg (by simpa using h)]
      congr 1
      exact storeGet_put_other _ _ _ _ fun e' => h e'.symm

theorem exec_counterContribution (counts : List (Nat × Nat)) :
    exec (.counterContribution t counts) s = settle s (addContributions (countsTaken (tick s t) counts)) := rfl

theorem mem_of_storeGet_ne {m : Store Nat} {i : Nat} (hne : storeGet 0 m i ≠ 0) : (i, storeGet 0 m i) ∈ m := by
  unfold storeGet at hne ⊢
  cases hi : storeFind m i with
  | none => simp [hi] at hne
  | some v => exact mem_of_storeFind hi

theorem storeFind_of_mem {α : Type} {i : Nat} {x : α} : ∀ {m : Store α}, m.Pairwise (fun a b => a.1 < b.1) → (i, x) ∈ m →
    storeFind m i = some x
  | [], _, h => absurd h (by simp)
  | e :: m, hs, h => by
    obtain ⟨hlt, hs⟩ := List.pairwise_cons.mp hs
    rcases List.mem_cons.mp h with rfl | h
    · simp [storeFind]
    · have hne : i ≠ e.1 := (Nat.ne_of_lt (hlt _ h)).symm
      simpa [storeFind, hne] using storeFind_of_mem hs h

/-- In the canonical form a counter that reads 0 is not listed. -/
theorem not_listed_of_storeGet {m : Store Nat} {i : Nat} (h : StoreWf (fun _ => 0) m) (h0 : storeGet 0 m i = 0) : ∀ e ∈ m, e.1 ≠ i := by
  rintro ⟨j, x⟩ he rfl
  have hfind := storeFind_of_mem h.1 he
  exact h.2 _ he (by simpa [storeGet, hfind] using h0)

theorem counterContribution_counts {counts : List (Nat × Nat)} (hwf : StoreWf (fun _ => 0) s.dbg.contrib) :
    Runs (.counterContribution t counts) s fun v =>
      (∀ i f, debugCounters[i]? = some f → ∀ n, n = storeGet 0 s.dbg.contrib i + ((counts.filter (fun e => e.1 == i)).map (·.2)).sum →
        rd v f = if n = 0 then rd s f else (rd s f + n) % 2 ^ 64) ∧
      v.dbg.contrib = [] ∧ KeptBut [.dbg, .now] s v ∧ RegsKept (debugCounters.map (fun f => (f, 0))) s v := by
  have hwf' := contrib_countsTaken_wf (s := tick s t) hwf counts
  have hget := fun i => contrib_countsTaken i counts (tick s t)
  have htaken := (within_tick s t).append (within_countsTaken (tick s t) counts)
  have hexec := exec_counterContribution (s := s) (t := t) counts
  generalize countsTaken (tick s t) counts = u at *
  have hall := (htaken.toWithinAt.trans (withinAt_contributed u.dbg.contrib u)).trans
    (within_dbg (contributed u.dbg.contrib u) fun d => { d with contrib := [] }).toWithinAt
  refine runs_of_settle hexec ⟨fun i f hi n hn => ?_, rfl, (hall.mono (by simp) (by simp)).settled⟩
  have hview : ∀ g ∈ debugCounters, g ∉ viewFlds := by decide
  rw [rd_settled_other _ _ _ _ (hview f (List.mem_of_getElem? hi)), addContributions_eq, rd_updDbg]
  have hu : rd u f = rd s f := htaken.regs f 0 (by simp)
  have hn' : storeGet 0 u.dbg.contrib i = n := (hget i).trans hn.symm
  have hnd : (u.dbg.contrib.map (·.1)).Nodup := by
    rw [List.Nodup, List.pairwise_map]
    exact hwf'.1.imp fun h => Nat.ne_of_lt h
  split
  · next h0 =>
    rw [rd_contributed_other _ _ fun e he hf => not_listed_of_storeGet hwf' (hn'.trans h0) e he (eq_of_debugCounters hf hi), hu]
  · next h0 =>
    rw [rd_contributed hi _ _ hnd (hn' ▸ mem_of_storeGet_ne (by rwa [hn'])), hu]

theorem counterContribution_one {i n : Nat} {f : Fld} (hi : debugCounters[i]? = some f) (hnone : s.dbg.contrib = []) (hpos : 0 < n) :
    Runs (.counterContribution t [(i, n)]) s fun v =>
      rd v f = (rd s f + n) % 2 ^ 64 ∧ v.dbg.contrib = [] ∧ KeptBut [.dbg, .now] s v ∧ RegsKept [(f, 0)] s v := by
  have hlist : (countsTaken (tick s t) [(i, n)]).dbg.contrib = [(i, n)] := by
    show storePut 0 s.dbg.contrib i (storeGet 0 s.dbg.contrib i + n) = _
    rw [hnone]
    simp [storePut, storeGet, storeFind, storeInsert, Nat.pos_iff_ne_zero.mp hpos]
  have htaken := (within_tick s t).append (within_countsTaken (tick s t) [(i, n)])
  have hexec := exec_counterContribution (s := s) (t := t) [(i, n)]
  generalize countsTaken (tick s t) [(i, n)] = u at *
  have hadded : contributed u.dbg.contrib u = wr u f 0 ((rd u f + n) % 2 ^ 64) := by
    rw [hlist]
    exact contributionAdded_of_some (e := (i, n)) hi u
  rw [addContributions_eq, hadded] at hexec
  have hview : ∀ g ∈ debugCounters, g ∉ viewFlds := by decide
  have hall := (htaken.toWithinAt.trans (withinAt_wr u f 0 ((rd u f + n) % 2 ^ 64))).trans
    (within_dbg (wr u f 0 ((rd u f + n) % 2 ^ 64)) fun d => { d with contrib := [] }).toWithinAt
  refine runs_of_settle hexec ⟨?_, rfl, (hall.mono (by simp) (by simp)).settled⟩
  rw [rd_settled_other _ _ _ _ (hview f (List.mem_of_getElem? hi)), rd_updDbg, rd_wr_same, htaken.regs f 0 (by simp)]

end Sys2Proof.Machine
end

section
/-! Halts of control cores, and their debug modules (R454 to R456). -/

namespace Sys2Proof.Machine

variable {s : State} {src : Src} {t hub : Nat}

theorem within_debugRecord (s : State) (event h : Nat) (byte value : Option Nat) :
    Within [.free, .rep] reportFlds s (debugRecord s event h byte value) := by
  have hfree : ∀ (u : State) (w : Nat), Within [.free, .rep] reportFlds u (takeFree u w).2 := fun u w =>
    (within_takeFree u w).mono (by simp) (by simp)
  have hreport : ∀ (u : State) (d : List (Nat × Nat × Bool)), Within [.free, .rep] reportFlds u (report u 0x28 h d) := fun u d =>
    (within_report u _ _ d none 0 false).mono (by simp) (List.Subset.refl _)
  unfold debugRecord
  cases byte with
  | some b =>
    cases value with
    | some v => exact hreport s _
    | none => exact (hfree s 64).trans (hreport _ _)
  | none =>
    cases value with
    | some v => exact (hfree s 8).trans (hreport _ _)
    | none => exact ((hfree s 8).trans (hfree _ 64)).trans (hreport _ _)

theorem within_haltTrail (s : State) (h what : Nat) : Within [.dbg] [] s (haltTrail s h what) := within_trail s _ _ _ _ _

theorem rd_settleDebug_halted (s : State) : rd (settleDebug s) .DBG_STATUS_HALTED = b2n (!s.core.halted.isEmpty) := by
  simp [settleDebug, wrb]

/-! A halt (R455) -/

/-- The hub is listed as halted and shown so. -/
def haltListed (s : State) (h : Nat) : State :=
  wr (wr (wr (updDbg (updCore s fun c => { c with halted := c.halted ++ [h] }) fun d => { d with haltAt := storeInsert d.haltAt h s.now })
    .DBG_HALT_HALTED h 1) .DBG_HALT_DRAINED h 0) .INTEG_HUB_OUT h 1

/-- And the halt is recorded. -/
def haltNoted (s : State) (h : Nat) : State := debugRecord (haltTrail (settleDebug (haltListed s h)) h 1) 2 h none none

theorem haltHub_eq (hnot : hub ∉ s.core.halted) : haltHub s hub =
    if hub = leadHub (haltNoted s hub) then endItems (haltNoted s hub) (fun _ => true) 0x23 0x08
    else abortHubTasks (haltNoted s hub) hub 0x08 := by
  unfold haltHub
  rw [if_neg hnot]
  rfl

/-- What a halt leaves. -/
structure Halts (s : State) (h : Nat) (v : State) : Prop where
  listed : h ∈ v.core.halted
  halted : rd v .DBG_HALT_HALTED h = 1
  drained : rd v .DBG_HALT_DRAINED h = 0
  out : rd v .INTEG_HUB_OUT h = 1
  status : rd v .DBG_STATUS_HALTED = 1
  mem : v.mem = s.mem

theorem within_noted (s : State) (h : Nat) : Within [.dbg, .free, .rep] ([.DBG_STATUS_FROZEN, .DBG_STATUS_HALTED] ++ reportFlds)
    (haltListed s h) (haltNoted s h) := by
  unfold haltNoted
  exact (((within_settleDebug _).append (within_haltTrail _ _ _)).append (within_debugRecord _ _ _ _ _)).mono (by simp) (by simp)

theorem haltNoted_halts (s : State) (h : Nat) : Halts s h (haltNoted s h) := by
  have hnoted := within_noted s h
  have hcore : (haltNoted s h).core = (haltListed s h).core := hnoted.parts .core (by simp)
  have hmem : (haltNoted s h).mem = s.mem := hnoted.parts .mem (by simp)
  have hstatus : rd (haltNoted s h) .DBG_STATUS_HALTED = 1 := by
    unfold haltNoted
    rw [((within_haltTrail _ h 1).append (within_debugRecord _ 2 h none none)).regs _ _ (by decide), rd_settleDebug_halted]
    simp [haltListed, b2n]
  refine ⟨?_, ?_, ?_, ?_, hstatus, hmem⟩
  · rw [hcore]
    simp [haltListed]
  all_goals
    rw [hnoted.regs _ _ (by decide)]
    simp [haltListed, rd_wr]

theorem Halts.after {s v w : State} {h : Nat} (k : Halts s h v) (hhalted : w.core.halted = v.core.halted) (hmem : w.mem = v.mem)
    (hregs : ∀ f ∈ [Fld.DBG_HALT_HALTED, .DBG_HALT_DRAINED, .INTEG_HUB_OUT, .DBG_STATUS_HALTED], ∀ n, rd w f n = rd v f n) : Halts s h w :=
  ⟨hhalted ▸ k.listed, (hregs _ (by simp) h).trans k.halted, (hregs _ (by simp) h).trans k.drained, (hregs _ (by simp) h).trans k.out,
    (hregs _ (by simp) 0).trans k.status, hmem.trans k.mem⟩

theorem haltHub_halts (hnot : hub ∉ s.core.halted) : Halts s hub (haltHub s hub) := by
  have hnoted := haltNoted_halts s hub
  rw [haltHub_eq hnot]
  have hfld : ∀ f ∈ [Fld.DBG_HALT_HALTED, .DBG_HALT_DRAINED, .INTEG_HUB_OUT, .DBG_STATUS_HALTED], f ∉ itemFlds ∧ f ∉ queueFlds := by decide
  split
  · have hitems := frame_endItems (haltNoted s hub) (fun _ => true) 0x23 0x08
    exact hnoted.after (congrArg Cores.halted (hitems.parts .core (by simp))) (hitems.parts .mem (by simp))
      fun f hf n => hitems.regs f n (hfld f hf).1
  · have hqueues := (queueFrame_abortHubTasks (haltNoted s hub) hub 0x08).within
    exact hnoted.after (haltKept_abortHubTasks _ _ _).halted (hqueues.parts .mem (by simp)) fun f hf n => hqueues.regs f n (hfld f hf).2

theorem no_items_of_endAll (s : State) (code detail : Nat) : (endItems s (fun _ => true) code detail).serve.items = [] := by
  refine List.eq_nil_iff_forall_not_mem.mpr fun x hx => ?_
  have hnone := itemAt_endItems (P := fun _ => true) (ctx := x.ctx) (idx := x.idx) (fun _ _ _ => rfl) s code detail
  exact List.find?_eq_none.mp hnone x hx (by simp)

/-- The lead's halt ends every open item. -/
theorem haltHub_lead (hnot : hub ∉ s.core.halted) (hlead : hub = leadHub s) : (haltHub s hub).serve.items = [] := by
  have hsame : leadHub (haltNoted s hub) = leadHub s := by
    unfold leadHub
    rw [(within_noted s hub).regs _ _ (by decide)]
    simp [haltListed, rd_wr]
  rw [haltHub_eq hnot, if_pos (hlead.trans hsame.symm)]
  exact no_items_of_endAll _ _ _

theorem halts_runs {e : Instr} {u : State} (hexec : exec e s = settle s (haltHub u hub)) (hcore : u.core = s.core) (hmem : u.mem = s.mem)
    (hnot : hub ∉ s.core.halted) (hlead : leadHub u = leadHub s) : Runs e s fun v =>
      hub ∈ v.core.halted ∧ rd v .DBG_HALT_HALTED hub = 1 ∧ rd v .DBG_HALT_DRAINED hub = 0 ∧ rd v .INTEG_HUB_OUT hub = 1 ∧
      rd v .DBG_STATUS_HALTED = 1 ∧ (hub = leadHub s → v.serve.items = []) ∧ v.mem = s.mem := by
  have hnot' : hub ∉ u.core.halted := by rwa [hcore]
  have h := haltHub_halts hnot'
  have hitems : hub = leadHub s → (haltHub u hub).serve.items = [] := fun e => haltHub_lead hnot' (e.trans hlead.symm)
  generalize haltHub u hub = v at *
  refine runs_of_settle hexec ⟨h.listed, ?_, ?_, ?_, ?_, hitems, h.mem.trans hmem⟩
  · rw [rd_settled_other _ _ _ _ (by decide), h.halted]
  · rw [rd_settled_other _ _ _ _ (by decide), h.drained]
  · rw [rd_settled_other _ _ _ _ (by decide), h.out]
  · rw [rd_settled_other _ _ _ _ (by decide), h.status]

theorem exec_dbgHaltReq (hmgmt : isMgmt s src = true) (hhub : hub < 160) (t : Nat) : exec (.dbgHaltReq src t hub) s =
    settle s (if debugAllowed s hub then haltHub (tick s t) hub else dmiRefused (tick s t) hub) := by
  show execDbgHaltReq src t hub s = _
  unfold execDbgHaltReq
  rw [if_neg (by simp [hmgmt]; omega)]

theorem exec_breakpointTrigger (hhub : hub < 160) (harmed : hub ∈ s.dbg.armed) (hwindow : windowCtx s = none)
    (hallowed : debugAllowed s hub = true) (t : Nat) : exec (.breakpointTrigger t hub) s = settle s (haltHub (tick s t) hub) := by
  show execBreakpointTrigger t hub s = _
  unfold execBreakpointTrigger
  rw [if_pos ⟨hhub, harmed, by simp [hwindow], hallowed⟩]

/-! A resume (R456) -/

/-- The hub is no longer listed as halted. -/
def resumeListed (s : State) (h : Nat) : State :=
  wr (wr (updCore s fun c => { c with halted := c.halted.filter (· != h), beat := storeErase c.beat h }) .DBG_HALT_HALTED h 0)
    .DBG_HALT_DRAINED h 0

/-- It returns to placement unless something else keeps it out. -/
def resumePlaced (s : State) (h : Nat) : State := if keptOut s h then s else wr s .INTEG_HUB_OUT h 0

def resumeNoted (s : State) (h : Nat) : State := debugRecord (haltTrail (settleDebug s) h 3) 3 h none none

theorem resumeHub_eq (hin : hub ∈ s.core.halted) : resumeHub s hub = resumeNoted (resumePlaced (resumeListed s hub) hub) hub := by
  unfold resumeHub
  rw [if_pos hin]
  rfl

theorem within_resumeListed (s : State) (h : Nat) : Within [.core] [.DBG_HALT_HALTED, .DBG_HALT_DRAINED] s (resumeListed s h) := by
  unfold resumeListed
  exact (((within_core s _).append (within_wr _ _ _ _)).append (within_wr _ _ _ _)).mono (by simp) (by simp)

theorem keptOut_resumeListed (s : State) (h : Nat) : keptOut (resumeListed s h) h = keptOut s h := by
  have hregs := within_resumeListed s h
  unfold keptOut
  rw [hregs.regs _ _ (by decide), hregs.regs _ _ (by decide)]
  rfl

theorem within_resumeNoted (s : State) (h : Nat) :
    Within [.dbg, .free, .rep] ([.DBG_STATUS_FROZEN, .DBG_STATUS_HALTED] ++ reportFlds) s (resumeNoted s h) := by
  unfold resumeNoted
  exact (((within_settleDebug _).append (within_haltTrail _ _ _)).append (within_debugRecord _ _ _ _ _)).mono (by simp) (by simp)

theorem within_resumePlaced (s : State) (h : Nat) : Within [] [.INTEG_HUB_OUT] s (resumePlaced s h) := by
  unfold resumePlaced
  split
  · exact Within.refl _ _ s
  · exact within_wr s _ _ _

/-- What a resume leaves. -/
structure Resumes (s : State) (h : Nat) (v : State) : Prop where
  listed : h ∉ v.core.halted
  halted : rd v .DBG_HALT_HALTED h = 0
  drained : rd v .DBG_HALT_DRAINED h = 0
  mem : v.mem = s.mem
  kept : keptOut s h = true → Within [.core, .dbg, .free, .rep]
    (reportFlds ++ [.DBG_HALT_HALTED, .DBG_HALT_DRAINED, .DBG_STATUS_FROZEN, .DBG_STATUS_HALTED]) s v
  placed : keptOut s h = false → rd v .INTEG_HUB_OUT h = 0
  within : Within [.core, .dbg, .free, .rep]
    (reportFlds ++ [.DBG_HALT_HALTED, .DBG_HALT_DRAINED, .INTEG_HUB_OUT, .DBG_STATUS_FROZEN, .DBG_STATUS_HALTED]) s v

theorem resumeHub_resumes (hin : hub ∈ s.core.halted) : Resumes s hub (resumeHub s hub) := by
  have hlisted := within_resumeListed s hub
  have hplaced := within_resumePlaced (resumeListed s hub) hub
  have hnoted := within_resumeNoted (resumePlaced (resumeListed s hub) hub) hub
  have hrest := hplaced.append hnoted
  have hcore : (resumeNoted (resumePlaced (resumeListed s hub) hub) hub).core = (resumeListed s hub).core := hrest.parts .core (by simp)
  rw [resumeHub_eq hin]
  refine ⟨?_, ?_, ?_, ?_, fun hk => ?_, fun hk => ?_, ?_⟩
  · rw [hcore]
    simp [resumeListed]
  · rw [hrest.regs _ _ (by decide)]
    simp [resumeListed, rd_wr]
  · rw [hrest.regs _ _ (by decide)]
    simp [resumeListed]
  · exact (hlisted.append hrest).parts .mem (by simp)
  · rw [resumePlaced, if_pos ((keptOut_resumeListed s hub).trans hk)] at hnoted ⊢
    exact (hlisted.append hnoted).mono (by simp) (by decide)
  · rw [hnoted.regs _ _ (by decide), resumePlaced, if_neg (by rw [keptOut_resumeListed, hk]; simp), rd_wr_same]
  · exact (hlisted.append hrest).mono (by simp) (by decide)

theorem exec_dbgResume (hmgmt : isMgmt s src = true) (hhub : hub < 160) (t : Nat) :
    exec (.dbgResume src t hub) s = settle s (resumeHub (tick s t) hub) := by
  show execDbgResume src t hub s = _
  unfold execDbgResume
  rw [if_neg (by simp [hmgmt]; omega)]

theorem dbgResume_keepsOut (hmgmt : isMgmt s src = true) (hhub : hub < 160) (hin : hub ∈ s.core.halted) (hkept : keptOut s hub = true) :
    Runs (.dbgResume src t hub) s fun v =>
      hub ∉ v.core.halted ∧ rd v .DBG_HALT_HALTED hub = 0 ∧ rd v .DBG_HALT_DRAINED hub = 0 ∧
      Frame [.core, .dbg, .free, .now, .rep] (reportFlds ++ [.DBG_HALT_HALTED, .DBG_HALT_DRAINED, .DBG_STATUS_FROZEN,
        .DBG_STATUS_HALTED]) s v := by
  have h := resumeHub_resumes (s := tick s t) hin
  have hexec := exec_dbgResume hmgmt hhub t
  generalize resumeHub (tick s t) hub = v at *
  refine runs_of_settle hexec ⟨h.listed, ?_, ?_, (((within_tick s t).append (h.kept hkept)).mono (by simp) (by simp)).settled⟩
  · rw [rd_settled_other _ _ _ _ (by decide), h.halted]
  · rw [rd_settled_other _ _ _ _ (by decide), h.drained]

theorem dbgResume_places (hmgmt : isMgmt s src = true) (hhub : hub < 160) (hin : hub ∈ s.core.halted) (hkept : keptOut s hub = false) :
    Runs (.dbgResume src t hub) s fun v =>
      hub ∉ v.core.halted ∧ rd v .DBG_HALT_HALTED hub = 0 ∧ rd v .DBG_HALT_DRAINED hub = 0 ∧ rd v .INTEG_HUB_OUT hub = 0 ∧
      Frame [.core, .dbg, .free, .now, .rep] (reportFlds ++ [.DBG_HALT_HALTED, .DBG_HALT_DRAINED, .INTEG_HUB_OUT,
        .DBG_STATUS_FROZEN, .DBG_STATUS_HALTED]) s v := by
  have h := resumeHub_resumes (s := tick s t) hin
  have hexec := exec_dbgResume hmgmt hhub t
  generalize resumeHub (tick s t) hub = v at *
  refine runs_of_settle hexec ⟨h.listed, ?_, ?_, ?_, (((within_tick s t).append h.within).mono (by simp) (by simp)).settled⟩
  · rw [rd_settled_other _ _ _ _ (by decide), h.halted]
  · rw [rd_settled_other _ _ _ _ (by decide), h.drained]
  · rw [rd_settled_other _ _ _ _ (by decide), h.placed hkept]

theorem dbgResume_ignored (hmgmt : isMgmt s src = true) (hhub : hub < 160) (hnot : hub ∉ s.core.halted) :
    Runs (.dbgResume src t hub) s fun v => KeptBut [.now] s v ∧ RegsKept [] s v :=
  ticks_runs ((exec_dbgResume hmgmt hhub t).trans (congrArg _ (if_neg hnot)))

/-! HALT_DRAINED (R455) -/

theorem haltDrained_drains {a : Nat} (hin : hub ∈ s.core.halted) (hnot : rd s .DBG_HALT_DRAINED hub ≠ 1) (hempty : hubQueues s hub = [])
    (hat : storeFind s.dbg.haltAt hub = some a) : Runs (.haltDrained t hub) s fun v =>
      rd v .DBG_HALT_DRAINED hub = 1 ∧ rd v .DBG_HALT_NS hub = min (max s.now t - a) (2 ^ 32 - 1) ∧
      KeptBut [.dbg, .now] s v ∧ RegsKept [(.DBG_HALT_DRAINED, hub), (.DBG_HALT_NS, hub)] s v := by
  let u := wr (wr (tick s t) .DBG_HALT_DRAINED hub 1) .DBG_HALT_NS hub (min (max s.now t - a) (maxOf 32))
  have hexec : exec (.haltDrained t hub) s = settle s (haltTrail u hub 2) := by
    show execHaltDrained t hub s = _
    unfold execHaltDrained
    dsimp only
    rw [if_pos ⟨hin, rdb_of_ne_one hnot, hempty⟩]
    simp only [storeGet, tick_dbg, hat, Option.getD_some]
    rfl
  have hu : WithinAt [.now] [(.DBG_HALT_DRAINED, hub), (.DBG_HALT_NS, hub)] s u :=
    ((within_tick s t).toWithinAt.trans (withinAt_wr _ _ _ _)).trans (withinAt_wr _ _ _ _)
  have htrail := within_haltTrail u hub 2
  refine runs_of_settle hexec ⟨?_, ?_, ((hu.trans htrail.toWithinAt).mono (by simp) (by simp)).settled⟩
  all_goals
    rw [rd_settled_other _ _ _ _ (by decide), htrail.regs _ _ (by decide)]
    simp [u, rd_wr, maxOf]

/-! The debug module (R454) -/

/-- The address of an access is shown. -/
def dmiSeen (s : State) (hub addr : Nat) : State := wr (wr s .DBG_DMI_ADDR_ADDR hub (addr % 128)) .DBG_DMI_ADDR_ERROR hub 0

theorem withinAt_dmiSeen (s : State) (hub addr : Nat) :
    WithinAt [] [(.DBG_DMI_ADDR_ADDR, hub), (.DBG_DMI_ADDR_ERROR, hub)] s (dmiSeen s hub addr) :=
  (withinAt_wr s _ _ _).trans (withinAt_wr _ _ _ _)

theorem debugAllowed_addr (s : State) (hub v : Nat) : debugAllowed (wr s .DBG_DMI_ADDR_ADDR hub v) hub = debugAllowed s hub := by
  simp [debugAllowed, planner, leadHub, shadowHub, rdb, rd_wr]

theorem dmiAccess_allowed (hmgmt : isMgmt s src = true) (hhub : hub < 160) (hallowed : debugAllowed s hub = true) (addr : Nat)
    (f : State → State) : dmiAccess s src hub addr f = f (dmiSeen s hub addr) := by
  unfold dmiAccess
  dsimp only
  rw [if_neg (by simp [hmgmt]; omega), debugAllowed_addr, if_pos hallowed]
  rfl

theorem dmiAccess_refused (hmgmt : isMgmt s src = true) (hhub : hub < 160) (hrefused : debugAllowed s hub = false) (addr : Nat)
    (f : State → State) : dmiAccess s src hub addr f = dmiRefused (wr s .DBG_DMI_ADDR_ADDR hub (addr % 128)) hub := by
  unfold dmiAccess
  dsimp only
  rw [if_neg (by simp [hmgmt]; omega), debugAllowed_addr, if_neg (by simp [hrefused])]

theorem dmi_refused (hmgmt : isMgmt s src = true) (hhub : hub < 160) (hrefused : debugAllowed s hub = false) (a : Nat) (e : Instr)
    (he : e ∈ [Instr.dmiRead src hub a, .dmiWrite src hub a]) : Runs e s fun v =>
      rd v .DBG_DMI_ADDR_ADDR hub = a % 128 ∧ rd v .DBG_DMI_ADDR_ERROR hub = 1 ∧ KeptBut [] s v ∧
      RegsKept [(.DBG_DMI_ADDR_ADDR, hub), (.DBG_DMI_ADDR_ERROR, hub)] s v := by
  have hexec : exec e s = settle s (dmiRefused (wr s .DBG_DMI_ADDR_ADDR hub (a % 128)) hub) := by
    simp only [List.mem_cons, List.not_mem_nil, or_false] at he
    rcases he with rfl | rfl
    · exact congrArg (settle s) (dmiAccess_refused hmgmt hhub hrefused a _)
    · exact congrArg (settle s) (dmiAccess_refused hmgmt hhub hrefused a _)
  refine runs_of_settle hexec ⟨?_, ?_, ((withinAt_wr s _ _ _).trans (withinAt_wr _ _ _ _)).settled⟩
  all_goals
    rw [rd_settled_other _ _ _ _ (by decide)]
    simp [dmiRefused, rd_wr]

theorem dmiRead_reads (hmgmt : isMgmt s src = true) (hhub : hub < 160) (hallowed : debugAllowed s hub = true) (a : Nat) :
    Runs (.dmiRead src hub a) s fun v =>
      rd v .DBG_DMI_ADDR_ADDR hub = a % 128 ∧ rd v .DBG_DMI_ADDR_ERROR hub = 0 ∧ rd v .DBG_DMI_DATA hub < 2 ^ 32 ∧
      KeptBut [.free] s v ∧ RegsKept [(.DBG_DMI_ADDR_ADDR, hub), (.DBG_DMI_ADDR_ERROR, hub), (.DBG_DMI_DATA, hub)] s v := by
  let u := (takeFree (dmiSeen s hub a) 32).2
  let w := wr u .DBG_DMI_DATA hub (takeFree (dmiSeen s hub a) 32).1
  have hexec : exec (.dmiRead src hub a) s = settle s w := congrArg (settle s) (dmiAccess_allowed hmgmt hhub hallowed a _)
  have hu := (withinAt_dmiSeen s hub a).trans (within_takeFree (dmiSeen s hub a) 32).toWithinAt
  refine runs_of_settle hexec ⟨?_, ?_, ?_, ((hu.trans (withinAt_wr u .DBG_DMI_DATA hub _)).mono (by simp) (by simp)).settled⟩
  · rw [rd_settled_other _ _ _ _ (by decide), rd_wr_ne _ _ _ _ _ _ (by simp), (within_takeFree _ _).regs _ _ (by simp)]
    simp [dmiSeen, rd_wr]
  · rw [rd_settled_other _ _ _ _ (by decide), rd_wr_ne _ _ _ _ _ _ (by simp), (within_takeFree _ _).regs _ _ (by simp)]
    simp [dmiSeen]
  · rw [rd_settled_other _ _ _ _ (by decide), rd_wr_same]
    exact Nat.mod_lt _ (by decide)

/-- A write's data is kept at its address. -/
def dmiStored (s : State) (hub addr : Nat) : State :=
  updDbg (dmiSeen s hub addr) fun d => { d with dmi := storeInsert d.dmi (hub * 128 + addr % 128) (rd s .DBG_DMI_DATA hub) }

theorem withinAt_dmiStored (s : State) (hub addr : Nat) :
    WithinAt [.dbg] [(.DBG_DMI_ADDR_ADDR, hub), (.DBG_DMI_ADDR_ERROR, hub)] s (dmiStored s hub addr) :=
  ((withinAt_dmiSeen s hub addr).trans (within_dbg _ _).toWithinAt).mono (by simp) (by simp)

theorem exec_dmiWrite (hmgmt : isMgmt s src = true) (hhub : hub < 160) (hallowed : debugAllowed s hub = true) (a : Nat) :
    exec (.dmiWrite src hub a) s = settle s (dmiEffect (dmiStored s hub a) hub (a % 128) (rd s .DBG_DMI_DATA hub)) := by
  have hdata : rd (dmiSeen s hub a) .DBG_DMI_DATA hub = rd s .DBG_DMI_DATA hub := by simp [dmiSeen, rd_wr]
  refine (congrArg (settle s) (dmiAccess_allowed hmgmt hhub hallowed a _)).trans ?_
  dsimp only
  rw [hdata]
  rfl

theorem dmiWrite_stores (hmgmt : isMgmt s src = true) (hhub : hub < 160) (hallowed : debugAllowed s hub = true) {a : Nat}
    (hctl : a % 128 ≠ 0x10) (hcmd : a % 128 ≠ 0x17) : Runs (.dmiWrite src hub a) s fun v =>
      rd v .DBG_DMI_ADDR_ADDR hub = a % 128 ∧ storeFind v.dbg.dmi (hub * 128 + a % 128) = some (rd s .DBG_DMI_DATA hub) ∧
      KeptBut [.dbg] s v ∧ RegsKept [(.DBG_DMI_ADDR_ADDR, hub), (.DBG_DMI_ADDR_ERROR, hub)] s v := by
  have hexec := exec_dmiWrite hmgmt hhub hallowed a
  rw [dmiEffect] at hexec
  rw [if_neg hctl, if_neg fun h => hcmd h.1] at hexec
  refine runs_of_settle hexec ⟨?_, storeFind_insert_same _ _ _, (withinAt_dmiStored s hub a).settled⟩
  rw [rd_settled_other _ _ _ _ (by decide)]
  simp [dmiStored, dmiSeen, rd_wr]

theorem dmiWrite_halts (hmgmt : isMgmt s src = true) (hhub : hub < 160) (hallowed : debugAllowed s hub = true) (hnot : hub ∉ s.core.halted)
    (hbit : bitAt (rd s .DBG_DMI_DATA hub) 31 = true) : Runs (.dmiWrite src hub 0x10) s fun v =>
      hub ∈ v.core.halted ∧ rd v .DBG_HALT_HALTED hub = 1 ∧ rd v .INTEG_HUB_OUT hub = 1 ∧ v.mem = s.mem := by
  have hexec := exec_dmiWrite hmgmt hhub hallowed 0x10
  rw [dmiEffect] at hexec
  rw [if_pos (by decide), if_pos hbit] at hexec
  have hlead : leadHub (dmiStored s hub 0x10) = leadHub s := by simp [leadHub, dmiStored, dmiSeen, rd_wr]
  obtain ⟨v, hv, hlisted, hhalted, -, hout, -, -, hmem⟩ := halts_runs hexec rfl rfl hnot hlead
  exact ⟨v, hv, hlisted, hhalted, hout, hmem⟩

theorem dmiWrite_resumes (hmgmt : isMgmt s src = true) (hhub : hub < 160) (hallowed : debugAllowed s hub = true) (hin : hub ∈ s.core.halted)
    (hhalt : bitAt (rd s .DBG_DMI_DATA hub) 31 = false) (hbit : bitAt (rd s .DBG_DMI_DATA hub) 30 = true) :
    Runs (.dmiWrite src hub 0x10) s fun v =>
      hub ∉ v.core.halted ∧ rd v .DBG_HALT_HALTED hub = 0 ∧ rd v .DBG_HALT_DRAINED hub = 0 ∧ v.mem = s.mem := by
  have hexec := exec_dmiWrite hmgmt hhub hallowed 0x10
  rw [dmiEffect] at hexec
  rw [if_pos (by decide), if_neg (by simp [hhalt]), if_pos hbit] at hexec
  have h := resumeHub_resumes (s := dmiStored s hub 0x10) hin
  generalize resumeHub (dmiStored s hub 0x10) hub = v at *
  refine runs_of_settle hexec ⟨h.listed, ?_, ?_, h.mem⟩
  · rw [rd_settled_other _ _ _ _ (by decide), h.halted]
  · rw [rd_settled_other _ _ _ _ (by decide), h.drained]

/-- An abstract command that writes tdata1 arms the trigger, disarms it, or is refused while a window is open. -/
theorem dmiWrite_arms (hmgmt : isMgmt s src = true) (hhub : hub < 160) (hallowed : debugAllowed s hub = true) {w d : Nat}
    (hw : w = rd s .DBG_DMI_DATA hub) (hcmd : bitsOf w 31 24 = 0) (htransfer : bitsOf w 17 16 = 3) (hreg : w % 65536 = 0x7A1)
    (hd : d = storeGet 0 s.dbg.dmi (hub * 128 + 4)) : Runs (.dmiWrite src hub 0x17) s fun v =>
      (d % 8 ≠ 0 → windowCtx s = none → hub ∈ v.dbg.armed) ∧ (d % 8 = 0 → hub ∉ v.dbg.armed) ∧
      (d % 8 ≠ 0 → windowCtx s ≠ none → rd v .DBG_DMI_ADDR_ERROR hub = 1 ∧ v.dbg.armed = s.dbg.armed) ∧ KeptBut [.dbg] s v ∧
      RegsKept [(.DBG_DMI_ADDR_ADDR, hub), (.DBG_DMI_ADDR_ERROR, hub)] s v := by
  have hexec := exec_dmiWrite hmgmt hhub hallowed 0x17
  have hdata : storeGet 0 (dmiStored s hub 0x17).dbg.dmi (hub * 128 + 4) = d := by
    rw [hd]
    unfold storeGet
    congr 1
    exact storeFind_insert_other _ _ (by omega)
  have hwindow : windowCtx (dmiStored s hub 0x17) = windowCtx s := by simp [windowCtx, rdb, dmiStored, dmiSeen, rd_wr]
  have hstored := withinAt_dmiStored s hub 0x17
  have harmed : (dmiStored s hub 0x17).dbg.armed = s.dbg.armed := rfl
  rw [dmiEffect] at hexec
  rw [if_neg (by decide), if_pos ⟨by decide, hw ▸ hcmd, hw ▸ htransfer, hw ▸ hreg⟩, hdata, hwindow] at hexec
  generalize dmiStored s hub 0x17 = u at *
  by_cases h0 : d % 8 = 0
  · rw [if_pos h0] at hexec
    refine runs_of_settle hexec ⟨fun h => absurd h0 h, fun _ => ?_, fun h => absurd h0 h,
      ((hstored.trans (within_dbg u _).toWithinAt).mono (by simp) (by simp)).settled⟩
    simp
  · rw [if_neg h0] at hexec
    cases hopen : windowCtx s with
    | some c =>
      rw [hopen, if_pos (Option.isSome_some)] at hexec
      refine runs_of_settle hexec ⟨fun _ h => absurd h (by simp), fun h => absurd h h0, fun _ _ => ⟨?_, harmed⟩,
        ((hstored.trans (withinAt_wr u _ _ _)).mono (by simp) (by simp)).settled⟩
      rw [rd_settled_other _ _ _ _ (by decide)]
      exact rd_wr_same _ _ _ _
    | none =>
      rw [hopen, if_neg (by simp)] at hexec
      refine runs_of_settle hexec ⟨fun _ _ => ?_, fun h => absurd h h0, fun _ h => absurd rfl h,
        ((hstored.trans (within_dbg u _).toWithinAt).mono (by simp) (by simp)).settled⟩
      simp

end Sys2Proof.Machine
end

section
/-! O59: withdrawal and self-tests of hubs (R457, R458), and debug as a whole. -/

namespace Sys2Proof.Machine

variable {s : State} {src : Src} {t hub : Nat}

/-! DBG_HUB_CMD (R457) -/

/-- The first reason for which a hub command is refused, in numerical order; 0 if there is none. -/
def hubWhy (s : State) (hub op patterns : Nat) : Nat :=
  if decide (3 ≤ op ∧ op ≤ 5) && (rd s .DBG_HUB_STATUS_STATE hub != 2 && rd s .DBG_HUB_STATUS_STATE hub != 3) then 2
  else if 3 ≤ op ∧ op ≤ 6 ∧ meetsWindow s (testNs op patterns) = true then 3
  else if op = 0 ∨ 6 < op then 4
  else if rd s .DBG_HUB_STATUS_STATE hub = 1 ∨ rd s .DBG_HUB_STATUS_STATE hub = 3 ∨ rd s .DBG_HUB_STATUS_STATE hub = 4 then 5
  else if op = 1 ∧ planner s hub = true then 6
  else if op = 3 ∧ (patterns = 0 ∨ 64 < patterns) then 7
  else 0

/-- The command is accepted. -/
def hubCmdTaken (s : State) (hub : Nat) : State := wr (wr s .DBG_HUB_STATUS_RESULT hub 0) .DBG_HUB_STATUS_REASON hub 0

/-- A self-test of a hub starts. -/
def hubTestStarted (s : State) (hub op phys n : Nat) : State :=
  updDbg (wr s .DBG_HUB_STATUS_STATE hub 3) fun d => { d with tests := storeInsert d.tests hub ⟨op, phys, n, s.now⟩ }

/-- A hub leaves placement; with no step running it is WITHDRAWN once nothing uses it. -/
def hubWithdrawing (s : State) (hub : Nat) : State :=
  if s.tt.run.running then wr (wr s .DBG_HUB_STATUS_STATE hub 1) .INTEG_HUB_OUT hub 1
  else hubsWithdrawn (wr (wr s .DBG_HUB_STATUS_STATE hub 1) .INTEG_HUB_OUT hub 1)

/-- What an accepted command does; `st` is the hub's state before it. -/
def hubCmdRuns (s : State) (hub op phys patterns st : Nat) : State :=
  if op = 1 then (if st = 2 then s else hubWithdrawing s hub)
  else if op = 2 then beginHubReset (wr s .DBG_HUB_STATUS_STATE hub 4) hub 2
  else if op = 6 then (if 66 ≤ phys then s else hubTestStarted s hub op phys st)
  else hubTestStarted (loseHubMemory s hub) hub op phys patterns

theorem hubCmd_of_mgmt (hmgmt : isMgmt s src = true) (hhub : hub < 160) (t op phys patterns : Nat) : hubCmd s src t hub op phys patterns =
    if hubWhy (tick s t) hub op patterns ≠ 0 then hubCmdRejected (tick s t) hub (hubWhy (tick s t) hub op patterns)
    else hubCmdRuns (hubCmdTaken (tick s t) hub) hub op phys patterns (rd s .DBG_HUB_STATUS_STATE hub) := by
  unfold hubCmd
  rw [if_neg (by simp [hmgmt]; omega)]
  rfl

theorem withinAt_hubCmdTaken (s : State) (hub : Nat) :
    WithinAt [] [(.DBG_HUB_STATUS_RESULT, hub), (.DBG_HUB_STATUS_REASON, hub)] s (hubCmdTaken s hub) :=
  (withinAt_wr s _ _ _).trans (withinAt_wr _ _ _ _)

/-- A refused command shows its reason. -/
theorem hubCmd_rejected {e : Instr} {op phys patterns why : Nat} (hmgmt : isMgmt s src = true) (hhub : hub < 160)
    (hexec : exec e s = settle s (hubCmd s src t hub op phys patterns)) (hwhy : hubWhy (tick s t) hub op patterns = why) (hne : why ≠ 0) :
    Runs e s fun v => rd v .DBG_HUB_STATUS_RESULT hub = 3 ∧ rd v .DBG_HUB_STATUS_REASON hub = why ∧ KeptBut [.now] s v ∧
      RegsKept [(.DBG_HUB_STATUS_RESULT, hub), (.DBG_HUB_STATUS_REASON, hub)] s v := by
  rw [hubCmd_of_mgmt hmgmt hhub, hwhy, if_pos hne] at hexec
  refine runs_of_settle hexec ⟨?_, ?_,
    (((within_tick s t).toWithinAt.trans (withinAt_wr _ _ _ _)).trans (withinAt_wr _ _ _ _)).settled⟩
  all_goals
    rw [rd_settled_other _ _ _ _ (by decide)]
    simp [hubCmdRejected, rd_wr]

theorem exec_hubCmd {e : Instr} {op phys patterns : Nat} (hmgmt : isMgmt s src = true) (hhub : hub < 160)
    (hexec : exec e s = settle s (hubCmd s src t hub op phys patterns)) (hwhy : hubWhy (tick s t) hub op patterns = 0) :
    exec e s = settle s (hubCmdRuns (hubCmdTaken (tick s t) hub) hub op phys patterns (rd s .DBG_HUB_STATUS_STATE hub)) := by
  rw [hubCmd_of_mgmt hmgmt hhub, hwhy, if_neg (by simp)] at hexec
  exact hexec

/-! Withdrawal -/

theorem within_hubsWithdrawn (s : State) : Within [] [.DBG_HUB_STATUS_STATE] s (hubsWithdrawn s) :=
  within_each _ (fun t _ => within_wr t _ _ _) _ s

theorem rd_each_wr_of_not_mem {f : Fld} {n v : Nat} : ∀ {l : List Nat} (s : State), n ∉ l → rd (each l s fun t h => wr t f h v) f n = rd s f n
  | [], _, _ => rfl
  | x :: l, s, h => by
    obtain ⟨hx, hl⟩ := not_or.mp (List.mem_cons.not.mp h)
    exact (rd_each_wr_of_not_mem _ hl).trans (rd_wr_ne _ _ _ _ _ _ fun e => hx e.2)

theorem hubsWithdrawn_eq (s : State) : hubsWithdrawn s =
    each ((instancesSet s .DBG_HUB_STATUS_STATE).filter (fun h => (hubQueues s h).isEmpty)) s fun t h => wr t .DBG_HUB_STATUS_STATE h 2 := rfl

theorem rd_hubsWithdrawn_empty (hst : rd s .DBG_HUB_STATUS_STATE hub = 1) (hempty : hubQueues s hub = []) :
    rd (hubsWithdrawn s) .DBG_HUB_STATUS_STATE hub = 2 := by
  have hin : hub ∈ (instancesSet s .DBG_HUB_STATUS_STATE).filter (fun h => (hubQueues s h).isEmpty) :=
    List.mem_filter.mpr ⟨mem_instancesSet (show (0 : Nat) ≠ 1 by decide) hst, by simp [hempty]⟩
  rw [hubsWithdrawn_eq]
  refine each_reach (p := fun u => rd u .DBG_HUB_STATUS_STATE hub = 2) (f := fun u k => wr u .DBG_HUB_STATUS_STATE k 2)
    (fun u => rd_wr_same u _ _ _) (fun u k hu => ?_) hin s
  rw [rd_wr]
  split
  · rfl
  · exact hu

theorem rd_hubsWithdrawn_used (hused : hubQueues s hub ≠ []) :
    rd (hubsWithdrawn s) .DBG_HUB_STATUS_STATE hub = rd s .DBG_HUB_STATUS_STATE hub := by
  rw [hubsWithdrawn_eq]
  exact rd_each_wr_of_not_mem s fun h => hused (by simpa using (List.mem_filter.mp h).2)

/-- Nothing refuses the withdrawal of a hub in service that is no planner. -/
theorem hubWhy_withdraw (hst : rd s .DBG_HUB_STATUS_STATE hub = 0) (hplanner : planner s hub = false) : hubWhy s hub 1 0 = 0 := by
  simp [hubWhy, hst, hplanner]

/-- The hub that withdraws, shown so. -/
def hubLeaving (s : State) (t hub : Nat) : State :=
  wr (wr (hubCmdTaken (tick s t) hub) .DBG_HUB_STATUS_STATE hub 1) .INTEG_HUB_OUT hub 1

theorem withinAt_hubLeaving (s : State) (t hub : Nat) : WithinAt [.now] [(.DBG_HUB_STATUS_STATE, hub), (.INTEG_HUB_OUT, hub),
    (.DBG_HUB_STATUS_RESULT, hub), (.DBG_HUB_STATUS_REASON, hub)] s (hubLeaving s t hub) :=
  ((((within_tick s t).toWithinAt.trans (withinAt_hubCmdTaken _ hub)).trans (withinAt_wr _ _ _ _)).trans (withinAt_wr _ _ _ _)).mono
    (by simp) (by simp)

theorem rd_hubLeaving (s : State) (t hub : Nat) :
    rd (hubLeaving s t hub) .DBG_HUB_STATUS_STATE hub = 1 ∧ rd (hubLeaving s t hub) .INTEG_HUB_OUT hub = 1 := by
  simp [hubLeaving, rd_wr]

theorem exec_hubWithdraw (hmgmt : isMgmt s src = true) (hhub : hub < 160) (hst : rd s .DBG_HUB_STATUS_STATE hub = 0)
    (hplanner : planner s hub = false) : exec (.hubWithdraw src t hub) s =
      settle s (if s.tt.run.running then hubLeaving s t hub else hubsWithdrawn (hubLeaving s t hub)) := by
  have hexec := exec_hubCmd (t := t) hmgmt hhub (e := .hubWithdraw src t hub) (op := 1) (phys := 0) (patterns := 0) rfl
    (hubWhy_withdraw (s := tick s t) hst hplanner)
  rw [hubCmdRuns, if_pos rfl, hst, if_neg (by simp)] at hexec
  exact hexec

theorem hubWithdraw_waits (hmgmt : isMgmt s src = true) (hhub : hub < 160) (hst : rd s .DBG_HUB_STATUS_STATE hub = 0)
    (hplanner : planner s hub = false) (hrunning : s.tt.run.running = true) : Runs (.hubWithdraw src t hub) s fun v =>
      rd v .DBG_HUB_STATUS_STATE hub = 1 ∧ rd v .INTEG_HUB_OUT hub = 1 ∧ KeptBut [.now] s v ∧
      RegsKept [(.DBG_HUB_STATUS_STATE, hub), (.INTEG_HUB_OUT, hub), (.DBG_HUB_STATUS_RESULT, hub), (.DBG_HUB_STATUS_REASON, hub)] s v := by
  have hexec := exec_hubWithdraw (t := t) hmgmt hhub hst hplanner
  rw [if_pos hrunning] at hexec
  obtain ⟨hleaves, hout⟩ := rd_hubLeaving s t hub
  refine runs_of_settle hexec ⟨?_, ?_, (withinAt_hubLeaving s t hub).settled⟩
  · rw [rd_settled_other _ _ _ _ (by decide), hleaves]
  · rw [rd_settled_other _ _ _ _ (by decide), hout]

theorem hubWithdraw_idle (hmgmt : isMgmt s src = true) (hhub : hub < 160) (hst : rd s .DBG_HUB_STATUS_STATE hub = 0)
    (hplanner : planner s hub = false) (hidle : s.tt.run.running = false) : Runs (.hubWithdraw src t hub) s fun v =>
      (hubQueues s hub = [] → rd v .DBG_HUB_STATUS_STATE hub = 2) ∧ (hubQueues s hub ≠ [] → rd v .DBG_HUB_STATUS_STATE hub = 1) ∧
      rd v .INTEG_HUB_OUT hub = 1 ∧ KeptBut [.now] s v := by
  have hexec := exec_hubWithdraw (t := t) hmgmt hhub hst hplanner
  rw [if_neg (by simp [hidle])] at hexec
  obtain ⟨hleaves, hout⟩ := rd_hubLeaving s t hub
  have hleaving := withinAt_hubLeaving s t hub
  have hqueues : hubQueues (hubLeaving s t hub) hub = hubQueues s hub := rfl
  generalize hubLeaving s t hub = u at *
  have hwithdrawn := within_hubsWithdrawn u
  refine runs_of_settle hexec ⟨fun h => ?_, fun h => ?_, ?_, (KeptBut.trans hleaving.parts hwithdrawn.kept).settled s⟩
  · rw [rd_settled_other _ _ _ _ (by decide), rd_hubsWithdrawn_empty hleaves (hqueues.trans h)]
  · rw [rd_settled_other _ _ _ _ (by decide), rd_hubsWithdrawn_used (by rwa [hqueues]), hleaves]
  · rw [rd_settled_other _ _ _ _ (by decide), hwithdrawn.regs _ _ (by decide), hout]

/-! The return of a hub -/

theorem rd_beginHubReset_state (s : State) (h trigger n : Nat) :
    rd (beginHubReset s h trigger) .DBG_HUB_STATUS_STATE n = rd s .DBG_HUB_STATUS_STATE n := by
  unfold beginHubReset
  extract_lets k aborted reported thinned
  have hshown : rd thinned .DBG_HUB_STATUS_STATE n = rd s .DBG_HUB_STATUS_STATE n := by
    have hreport : rd reported .DBG_HUB_STATUS_STATE n = rd aborted .DBG_HUB_STATUS_STATE n :=
      ((within_report (hubResetShown aborted h) 0x21 h _ _ _ _).regs _ _ (by decide)).trans (by simp [hubResetShown, rd_wr])
    exact hreport.trans ((queueFrame_abortHubTasks s h 0x02).within.regs _ _ (by decide))
  split
  · exact hshown
  · refine Eq.trans ?_ hshown
    show rd (hubReset thinned h) .DBG_HUB_STATUS_STATE n = _
    unfold hubReset
    extract_lets u v w x
    have hu : rd u .DBG_HUB_STATUS_STATE n = rd thinned .DBG_HUB_STATUS_STATE n := rd_resetRegs_of_kept (by decide) thinned _ n
    exact ((within_settleDebug _).regs _ _ (by decide)).trans hu

theorem hubResets_beginHubReset (s : State) (h trigger : Nat) : (storeFind (beginHubReset s h trigger).boot.hubResets h).isSome = true := by
  unfold beginHubReset
  dsimp only
  split
  · exact congrArg Option.isSome (storeFind_insert_same _ _ _)
  · exact congrArg Option.isSome (storeFind_insert_same _ _ _)

/-- The reset of a hub with a dump in progress waits for it. -/
theorem beginHubReset_waits_of_dump {h : Nat} (hdump : ∃ d ∈ s.dbg.dumps, d.1 = h) (trigger : Nat) :
    storeFind (beginHubReset s h trigger).boot.hubResets h = some trigger := by
  obtain ⟨d, hd, rfl⟩ := hdump
  exact beginHubReset_waits (List.any_eq_true.mpr ⟨d, (haltKept_abortHubTasks s d.1 0x02).dumps d hd, by simp⟩) trigger

theorem exec_hubReturn (hmgmt : isMgmt s src = true) (hhub : hub < 160) (hst : rd s .DBG_HUB_STATUS_STATE hub = 2) :
    exec (.hubReturn src t hub) s =
      settle s (beginHubReset (wr (hubCmdTaken (tick s t) hub) .DBG_HUB_STATUS_STATE hub 4) hub 2) := by
  have hexec := exec_hubCmd (t := t) hmgmt hhub (e := .hubReturn src t hub) (op := 2) (phys := 0) (patterns := 0) rfl
    (by simp [hubWhy, hst])
  rw [hubCmdRuns, if_neg (by simp), if_pos rfl] at hexec
  exact hexec

theorem hubReturn_resets (hmgmt : isMgmt s src = true) (hhub : hub < 160) (hst : rd s .DBG_HUB_STATUS_STATE hub = 2) :
    Runs (.hubReturn src t hub) s fun v => rd v .DBG_HUB_STATUS_STATE hub = 4 ∧ rd v .RESET_STATUS_BUSY = 1 ∧
      ((∃ d ∈ s.dbg.dumps, d.1 = hub) → storeFind v.boot.hubResets hub = some 2) ∧ (storeFind v.boot.hubResets hub).isSome = true := by
  have hexec := exec_hubReturn (t := t) hmgmt hhub hst
  let u := wr (hubCmdTaken (tick s t) hub) .DBG_HUB_STATUS_STATE hub 4
  refine runs_of_settle hexec ⟨?_, ?_, fun hd => beginHubReset_waits_of_dump (s := u) hd 2, hubResets_beginHubReset u hub 2⟩
  · rw [rd_settled_other _ _ _ _ (by decide), rd_beginHubReset_state, rd_wr_same]
  · rw [rd_settled_other _ _ _ _ (by decide), rd_beginHubReset_busy]

/-! Self-tests that start -/

theorem rd_hubTestStarted (s : State) (hub op phys n : Nat) : rd (hubTestStarted s hub op phys n) .DBG_HUB_STATUS_STATE hub = 3 ∧
    storeFind (hubTestStarted s hub op phys n).dbg.tests hub = some ⟨op, phys, n, s.now⟩ :=
  ⟨rd_wr_same s .DBG_HUB_STATUS_STATE hub 3, storeFind_insert_same _ _ _⟩

theorem withinAt_hubTestStarted (s : State) (hub op phys n : Nat) :
    WithinAt [.dbg] [(.DBG_HUB_STATUS_STATE, hub)] s (hubTestStarted s hub op phys n) :=
  ((withinAt_wr s _ _ _).trans (within_dbg _ _).toWithinAt).mono (by simp) (by simp)

/-- The three self-tests whose reasons are alike. -/
theorem exec_selfTest {c : Instr} {op n : Nat}
    (hc : (c, op, n) ∈ [(Instr.lbist src t hub n, 3, n), (.mbist src t hub, 4, 0), (.mbistRet src t hub, 5, 0)]) :
    exec c s = settle s (hubCmd s src t hub op 0 n) ∧ 3 ≤ op ∧ op ≤ 5 := by
  simp only [List.mem_cons, List.not_mem_nil, or_false, Prod.mk.injEq] at hc
  rcases hc with ⟨rfl, rfl, -⟩ | ⟨rfl, rfl, rfl⟩ | ⟨rfl, rfl, rfl⟩ <;> exact ⟨rfl, by omega, by omega⟩

theorem hubWhy_selfTest {op n : Nat} (h3 : 3 ≤ op) (h5 : op ≤ 5)
    (hst : rd s .DBG_HUB_STATUS_STATE hub = 2 ∨ rd s .DBG_HUB_STATUS_STATE hub = 3) :
    hubWhy s hub op n = if meetsWindow s (testNs op n) = true then 3 else if rd s .DBG_HUB_STATUS_STATE hub = 3 then 5
      else if op = 3 ∧ (n = 0 ∨ 64 < n) then 7 else 0 := by
  have htest : (decide (3 ≤ op ∧ op ≤ 5) && (rd s .DBG_HUB_STATUS_STATE hub != 2 && rd s .DBG_HUB_STATUS_STATE hub != 3)) = false := by
    rcases hst with h | h <;> simp [h]
  have hbusy : (rd s .DBG_HUB_STATUS_STATE hub = 1 ∨ rd s .DBG_HUB_STATUS_STATE hub = 3 ∨ rd s .DBG_HUB_STATUS_STATE hub = 4) ↔
      rd s .DBG_HUB_STATUS_STATE hub = 3 := by omega
  unfold hubWhy
  rw [htest, if_neg (by simp)]
  simp only [hbusy, h3, show op ≤ 6 by omega, true_and, show ¬ (op = 0 ∨ 6 < op) by omega, if_false,
    show ¬ (op = 1 ∧ planner s hub = true) by omega]

theorem selfTest_starts {c : Instr} {op n : Nat} (hmgmt : isMgmt s src = true) (hhub : hub < 160)
    (hc : (c, op, n) ∈ [(Instr.lbist src t hub n, 3, n), (.mbist src t hub, 4, 0), (.mbistRet src t hub, 5, 0)])
    (hst : rd s .DBG_HUB_STATUS_STATE hub = 2) (hn : op = 3 → 1 ≤ n ∧ n ≤ 64) (hwindow : meetsWindow (tick s t) (testNs op n) = false) :
    Runs c s fun v =>
      rd v .DBG_HUB_STATUS_STATE hub = 3 ∧ rd v .DBG_HUB_STATUS_RESULT hub = 0 ∧
      storeFind v.dbg.tests hub = some ⟨op, 0, n, max s.now t⟩ ∧ KeptBut [.dbg, .mem, .now] s v ∧
      RegsKept [(.DBG_HUB_STATUS_STATE, hub), (.DBG_HUB_STATUS_RESULT, hub), (.DBG_HUB_STATUS_REASON, hub)] s v := by
  obtain ⟨hcmd, h3, h5⟩ := exec_selfTest (s := s) hc
  have hwhy : hubWhy (tick s t) hub op n = 0 := by
    rw [hubWhy_selfTest (s := tick s t) h3 h5 (Or.inl hst), hwindow, if_neg (by simp), if_neg (by rw [rd_tick, hst]; simp), if_neg]
    rintro ⟨hop, hrange⟩
    have := hn hop
    omega
  have hexec := exec_hubCmd hmgmt hhub hcmd hwhy
  rw [hubCmdRuns, if_neg (by omega), if_neg (by omega), if_neg (by omega)] at hexec
  let u := loseHubMemory (hubCmdTaken (tick s t) hub) hub
  have hlost : Within [.mem] [] (hubCmdTaken (tick s t) hub) u := by
    unfold u loseHubMemory
    exact within_mem _ _
  have hu : WithinAt [.now, .mem] [(.DBG_HUB_STATUS_RESULT, hub), (.DBG_HUB_STATUS_REASON, hub)] s u :=
    ((within_tick s t).toWithinAt.trans (withinAt_hubCmdTaken _ hub)).trans hlost.toWithinAt
  have hstarted := withinAt_hubTestStarted u hub op 0 n
  obtain ⟨hstate, htests⟩ := rd_hubTestStarted u hub op 0 n
  refine runs_of_settle hexec ⟨?_, ?_, htests, ((hu.trans hstarted).mono (by simp) (by simp)).settled⟩
  · rw [rd_settled_other _ _ _ _ (by decide)]
    exact hstate
  · rw [rd_settled_other _ _ _ _ (by decide)]
    refine (hstarted.regs _ _ (by simp)).trans ?_
    show rd (hubCmdTaken (tick s t) hub) .DBG_HUB_STATUS_RESULT hub = 0
    simp [hubCmdTaken, rd_wr]

theorem hubSweep_starts {phys : Nat} (hmgmt : isMgmt s src = true) (hhub : hub < 160) (hphys : phys < 66)
    (hst : rd s .DBG_HUB_STATUS_STATE hub = 0 ∨ rd s .DBG_HUB_STATUS_STATE hub = 2) (hwindow : meetsWindow (tick s t) 500000 = false) :
    Runs (.hubSweep src t hub phys) s fun v =>
      rd v .DBG_HUB_STATUS_STATE hub = 3 ∧ storeFind v.dbg.tests hub = some ⟨6, phys, rd s .DBG_HUB_STATUS_STATE hub, max s.now t⟩ ∧
      KeptBut [.dbg, .now] s v ∧
      RegsKept [(.DBG_HUB_STATUS_STATE, hub), (.DBG_HUB_STATUS_RESULT, hub), (.DBG_HUB_STATUS_REASON, hub)] s v := by
  have hwhy : hubWhy (tick s t) hub 6 0 = 0 := by
    rcases hst with h | h <;> simp [hubWhy, h, testNs, hwindow]
  have hexec := exec_hubCmd (t := t) hmgmt hhub (e := .hubSweep src t hub phys) (op := 6) (phys := phys) (patterns := 0) rfl hwhy
  rw [hubCmdRuns, if_neg (by simp), if_neg (by simp), if_pos rfl, if_neg (by omega)] at hexec
  let u := hubCmdTaken (tick s t) hub
  have hu : WithinAt [.now] [(.DBG_HUB_STATUS_RESULT, hub), (.DBG_HUB_STATUS_REASON, hub)] s u :=
    (within_tick s t).toWithinAt.trans (withinAt_hubCmdTaken _ hub)
  have hstarted := withinAt_hubTestStarted u hub 6 phys (rd s .DBG_HUB_STATUS_STATE hub)
  obtain ⟨hstate, htests⟩ := rd_hubTestStarted u hub 6 phys (rd s .DBG_HUB_STATUS_STATE hub)
  refine runs_of_settle hexec ⟨?_, htests, ((hu.trans hstarted).mono (by simp) (by simp)).settled⟩
  rw [rd_settled_other _ _ _ _ (by decide)]
  exact hstate

end Sys2Proof.Machine
end

section
/-! O59: what the run of a hub's self-test found (R457, R458), and debug as a whole. -/

namespace Sys2Proof.Machine

variable {s : State} {src : Src} {t hub : Nat}

/-! LBIST: the signatures -/

/-- The signatures of a hub's partitions are kept. -/
def sigsKept (h : Nat) (sig : Nat → Nat) (l : List Nat) (m : Store Nat) : Store Nat := l.foldl (fun m p => storePut 0 m (h * 68 + p) (sig p)) m

theorem storeGet_sigsKept {h : Nat} {sig : Nat → Nat} {p : Nat} : ∀ {l : List Nat} {m : Store Nat},
    (p ∈ l ∨ storeGet 0 m (h * 68 + p) = sig p) → storeGet 0 (sigsKept h sig l m) (h * 68 + p) = sig p
  | [], m, hp => hp.resolve_left (by simp)
  | q :: l, m, hp => by
    refine storeGet_sigsKept (l := l) ?_
    by_cases hq : p = q
    · exact Or.inr (hq ▸ storeGet_put_same _ _ _ _)
    · refine hp.imp (fun h => (List.mem_cons.mp h).resolve_left hq) fun h => ?_
      rw [storeGet_put_other _ _ _ _ (by omega), h]

/-- LBIST's signatures are kept and its result is shown. -/
def sigsShown (s : State) (h : Nat) (sigs : List Nat) (result : Nat) : State :=
  wr (updDbg s fun d => { d with sigs := sigsKept h (fun p => sigs.getD p 0 % 2 ^ 64) (List.range 68) d.sigs }) .DBG_HUB_STATUS_RESULT h result

theorem lbistDone_eq (s : State) (h patterns : Nat) (sigs : List Nat) : ∃ result value,
    lbistDone s h patterns sigs = debugRecord (sigsShown s h sigs result) 4 h (some result) (some value) := ⟨_, _, rfl⟩

/-! The ends of runs -/

/-- The fields that the end of a self-test changes. -/
def testFlds : List Fld := reportFlds ++ [.DBG_HUB_STATUS_STATE, .DBG_HUB_STATUS_RESULT, .DBG_MBIST_FIRST_MEMORY,
  .DBG_MBIST_FIRST_COUNT, .DBG_MBIST_WORD, .INTEG_TEST_PASS, .INTEG_TEST_FAIL]

theorem within_testFld {f : Fld} (hf : f ∈ testFlds) (s : State) (n v : Nat) : Within [.dbg, .free, .rep] testFlds s (wr s f n v) :=
  (within_wr s f n v).mono (by simp) (by simpa using hf)

theorem within_testRecord (s : State) (event h : Nat) (byte value : Option Nat) :
    Within [.dbg, .free, .rep] testFlds s (debugRecord s event h byte value) :=
  (within_debugRecord s event h byte value).mono (by simp) (by decide)

theorem within_lbistDone (s : State) (h patterns : Nat) (sigs : List Nat) : Within [.dbg, .free, .rep] testFlds s (lbistDone s h patterns sigs) := by
  obtain ⟨result, value, heq⟩ := lbistDone_eq s h patterns sigs
  have hshown : Within [.dbg, .free, .rep] testFlds s (sigsShown s h sigs result) :=
    ((within_dbg s _).append (within_wr _ .DBG_HUB_STATUS_RESULT h result)).mono (by simp) (by decide)
  rw [heq]
  exact hshown.trans (within_testRecord _ _ _ _ _)

theorem dbg_lbistDone (s : State) (h patterns : Nat) (sigs : List Nat) : (lbistDone s h patterns sigs).dbg =
    { s.dbg with sigs := sigsKept h (fun p => sigs.getD p 0 % 2 ^ 64) (List.range 68) s.dbg.sigs } := by
  obtain ⟨result, value, heq⟩ := lbistDone_eq s h patterns sigs
  rw [heq]
  exact (within_debugRecord (sigsShown s h sigs result) 4 h (some result) (some value)).parts .dbg (by simp)

/-- The result of a march or retention test is shown. -/
def mbistShown (s : State) (h first word count : Nat) : State :=
  wr (wr (wr (wr s .DBG_MBIST_FIRST_MEMORY h (if count != 0 then first % 65536 else 0)) .DBG_MBIST_FIRST_COUNT h (min count (maxOf 16)))
    .DBG_MBIST_WORD h (if count != 0 then word % 2 ^ 32 else 0)) .DBG_HUB_STATUS_RESULT h (if count != 0 then 2 else 1)

theorem mbistDone_eq (s : State) (h first word count : Nat) : ∃ byte value,
    mbistDone s h first word count = debugRecord (mbistShown s h first word count) 5 h byte value := by
  unfold mbistDone mbistShown
  exact ⟨_, _, rfl⟩

theorem within_mbistDone (s : State) (h first word count : Nat) : Within [.dbg, .free, .rep] testFlds s (mbistDone s h first word count) := by
  obtain ⟨byte, value, heq⟩ := mbistDone_eq s h first word count
  have hshown : Within [.dbg, .free, .rep] testFlds s (mbistShown s h first word count) :=
    (((within_testFld (by decide) s _ _).trans (within_testFld (by decide) _ _ _)).trans (within_testFld (by decide) _ _ _)).trans
      (within_testFld (by decide) _ _ _)
  rw [heq]
  exact hshown.trans (within_testRecord _ _ _ _ _)

theorem dbg_mbistDone (s : State) (h first word count : Nat) : (mbistDone s h first word count).dbg = s.dbg := by
  obtain ⟨byte, value, heq⟩ := mbistDone_eq s h first word count
  rw [heq]
  exact (within_debugRecord (mbistShown s h first word count) 5 h byte value).parts .dbg (by simp)

theorem rd_mbistDone (s : State) (h first word count : Nat) :
    rd (mbistDone s h first word count) .DBG_HUB_STATUS_RESULT h = (if count = 0 then 1 else 2) ∧
    rd (mbistDone s h first word count) .DBG_MBIST_FIRST_COUNT h = min count 65535 ∧
    rd (mbistDone s h first word count) .DBG_HUB_STATUS_STATE h = rd s .DBG_HUB_STATUS_STATE h := by
  obtain ⟨byte, value, heq⟩ := mbistDone_eq s h first word count
  have hrecord := within_debugRecord (mbistShown s h first word count) 5 h byte value
  rw [heq, hrecord.regs _ _ (by decide), hrecord.regs _ _ (by decide), hrecord.regs _ _ (by decide)]
  refine ⟨?_, ?_, ?_⟩
  · by_cases hc : count = 0
    · simp [mbistShown, hc]
    · simp [mbistShown, hc]
  · simp [mbistShown, rd_wr, maxOf]
  · simp [mbistShown, rd_wr]

/-- The tests of a sweep count, and those that failed are recorded. -/
def sweepCounted (s : State) (h phys : Nat) (fails : List (Nat × Nat × Nat)) : State :=
  each fails (incX (incX s .INTEG_TEST_PASS h (testCount - fails.length)) .INTEG_TEST_FAIL h fails.length) fun t e =>
    report t 0x06 (physIndex h phys)
      [(1, e.1, false), (1, testSkip t (h * 66 + phys), false), (1, 2, false), (8, e.2.1, false), (8, e.2.2, false)]

def sweepShown (s : State) (h phys : Nat) (fails : List (Nat × Nat × Nat)) : State :=
  wr (sweepCounted s h phys fails) .DBG_HUB_STATUS_RESULT h (if fails.isEmpty then 1 else 2)

theorem sweepDone_eq (s : State) (h phys : Nat) (fails : List (Nat × Nat × Nat)) : ∃ event byte,
    sweepDone s h phys fails = debugRecord (takeFree (sweepShown s h phys fails) 8).2 event h byte none := by
  unfold sweepDone sweepShown sweepCounted
  exact ⟨_, _, rfl⟩

theorem within_sweepCounted (s : State) (h phys : Nat) (fails : List (Nat × Nat × Nat)) :
    Within [.rep] ([.INTEG_TEST_PASS, .INTEG_TEST_FAIL] ++ reportFlds) s (sweepCounted s h phys fails) := by
  have hcount := (within_incX s .INTEG_TEST_PASS h (testCount - fails.length)).append (within_incX _ .INTEG_TEST_FAIL h fails.length)
  unfold sweepCounted
  exact (hcount.append (within_each _ (fun t _ => within_report t _ _ _ _ _ _) fails _)).mono (by simp) (by simp)

theorem within_sweepDone (s : State) (h phys : Nat) (fails : List (Nat × Nat × Nat)) :
    Within [.dbg, .free, .rep] testFlds s (sweepDone s h phys fails) := by
  obtain ⟨event, byte, heq⟩ := sweepDone_eq s h phys fails
  have hshown : Within [.dbg, .free, .rep] testFlds s (sweepShown s h phys fails) :=
    ((within_sweepCounted s h phys fails).mono (by simp) (by decide)).trans (within_testFld (by decide) _ _ _)
  rw [heq]
  exact (hshown.trans ((within_takeFree _ _).mono (by simp) (by simp))).trans (within_testRecord _ _ _ _ _)

theorem after_sweepDone (s : State) (h phys : Nat) (fails : List (Nat × Nat × Nat)) :
    (sweepDone s h phys fails).dbg = s.dbg ∧ rd (sweepDone s h phys fails) .DBG_HUB_STATUS_STATE h = rd s .DBG_HUB_STATUS_STATE h ∧
    rd (sweepDone s h phys fails) .DBG_HUB_STATUS_RESULT h = (if fails = [] then 1 else 2) := by
  obtain ⟨event, byte, heq⟩ := sweepDone_eq s h phys fails
  have hrecord := (within_takeFree (sweepShown s h phys fails) 8).append
    (within_debugRecord (takeFree (sweepShown s h phys fails) 8).2 event h byte none)
  have hcounted := within_sweepCounted s h phys fails
  rw [heq]
  refine ⟨Eq.trans (hrecord.parts .dbg (by simp)) (hcounted.parts .dbg (by simp)), ?_, ?_⟩
  · rw [hrecord.regs _ _ (by decide), sweepShown, rd_wr_ne _ _ _ _ _ _ (by simp), hcounted.regs _ _ (by decide)]
  · rw [hrecord.regs _ _ (by decide), sweepShown, rd_wr_same]
    simp

/-! BIST_COMPLETE -/

/-- A run of a self-test is over; the hub is again in the state that the run leaves. -/
def bistOver (s : State) (t hub : Nat) (r : BistRun) : State :=
  wr (updDbg (tick s (max t (r.start + testNs r.op r.patterns))) fun d => { d with tests := storeErase d.tests hub }) .DBG_HUB_STATUS_STATE hub
    (if r.op = 6 then r.patterns else 2)

/-- What the run found. -/
def bistFound (s : State) (hub : Nat) (r : BistRun) (sigs : List Nat) (fails : List (Nat × Nat × Nat)) (first word count : Nat) : State :=
  if r.op = 6 then sweepDone s hub r.phys fails
  else if r.op = 3 then lbistDone s hub r.patterns sigs else mbistDone s hub first word count

theorem exec_bistComplete {r : BistRun} {sigs : List Nat} {fails : List (Nat × Nat × Nat)} {first word count : Nat}
    (hr : storeFind s.dbg.tests hub = some r) : exec (.bistComplete t hub sigs fails first word count) s =
      settle s (bistFound (bistOver s t hub r) hub r sigs fails first word count) := by
  show execBistComplete t hub sigs fails first word count s = _
  unfold execBistComplete bistFound bistOver
  rw [hr]
  by_cases h : r.op = 6
  · simp only [h, if_true]
  · simp only [h, if_false]

theorem within_bistFound (s : State) (hub : Nat) (r : BistRun) (sigs : List Nat) (fails : List (Nat × Nat × Nat)) (first word count : Nat) :
    Within [.dbg, .free, .rep] testFlds s (bistFound s hub r sigs fails first word count) := by
  unfold bistFound
  split
  · exact within_sweepDone _ _ _ _
  · split
    · exact within_lbistDone _ _ _ _
    · exact within_mbistDone _ _ _ _ _

theorem tests_bistFound (s : State) (hub : Nat) (r : BistRun) (sigs : List Nat) (fails : List (Nat × Nat × Nat)) (first word count : Nat) :
    (bistFound s hub r sigs fails first word count).dbg.tests = s.dbg.tests := by
  unfold bistFound
  split
  · rw [(after_sweepDone _ _ _ _).1]
  · split
    · rw [dbg_lbistDone]
    · rw [dbg_mbistDone]

theorem rd_lbistDone_state (s : State) (h patterns : Nat) (sigs : List Nat) :
    rd (lbistDone s h patterns sigs) .DBG_HUB_STATUS_STATE h = rd s .DBG_HUB_STATUS_STATE h := by
  obtain ⟨result, value, heq⟩ := lbistDone_eq s h patterns sigs
  rw [heq, (within_debugRecord _ _ _ _ _).regs _ _ (by decide)]
  simp [sigsShown, rd_wr]

theorem rd_bistFound_state (s : State) (hub : Nat) (r : BistRun) (sigs : List Nat) (fails : List (Nat × Nat × Nat)) (first word count : Nat) :
    rd (bistFound s hub r sigs fails first word count) .DBG_HUB_STATUS_STATE hub = rd s .DBG_HUB_STATUS_STATE hub := by
  unfold bistFound
  split
  · exact (after_sweepDone _ _ _ _).2.1
  · split
    · exact rd_lbistDone_state _ _ _ _
    · exact (rd_mbistDone _ _ _ _ _).2.2

theorem bistComplete_completes {r : BistRun} {sigs : List Nat} {fails : List (Nat × Nat × Nat)} {first word count : Nat}
    (hr : storeFind s.dbg.tests hub = some r) : Runs (.bistComplete t hub sigs fails first word count) s fun v =>
      rd v .DBG_HUB_STATUS_STATE hub = (if r.op = 6 then r.patterns else 2) ∧ storeFind v.dbg.tests hub = none ∧
      (r.op = 4 ∨ r.op = 5 → rd v .DBG_HUB_STATUS_RESULT hub = (if count = 0 then 1 else 2) ∧
        rd v .DBG_MBIST_FIRST_COUNT hub = min count 65535) ∧
      (r.op = 6 → rd v .DBG_HUB_STATUS_RESULT hub = (if fails = [] then 1 else 2)) ∧
      (r.op = 3 → ∀ p, p < 68 → storeGet 0 v.dbg.sigs (hub * 68 + p) = sigs.getD p 0 % 2 ^ 64) ∧
      r.start + testNs r.op r.patterns ≤ v.now ∧ Frame [.dbg, .free, .now, .rep] testFlds s v := by
  have hover : Within [.dbg, .now] [.DBG_HUB_STATUS_STATE] s (bistOver s t hub r) := by
    unfold bistOver
    exact (((within_tick s _).append (within_dbg _ _)).append (within_wr _ _ _ _)).mono (by simp) (by simp)
  have hfound := within_bistFound (bistOver s t hub r) hub r sigs fails first word count
  have hnow : (bistFound (bistOver s t hub r) hub r sigs fails first word count).now = (bistOver s t hub r).now := hfound.parts .now (by simp)
  refine runs_of_settle (exec_bistComplete hr) ⟨?_, ?_, fun h => ⟨?_, ?_⟩, fun h => ?_, fun h p hp => ?_, ?_,
    ((hover.append hfound).mono (by simp) (by decide)).settled⟩
  · rw [rd_settled_other _ _ _ _ (by decide), rd_bistFound_state, bistOver, rd_wr_same]
  · show storeFind (bistFound _ hub r sigs fails first word count).dbg.tests hub = none
    rw [tests_bistFound]
    exact storeFind_erase_same _ _
  · rw [rd_settled_other _ _ _ _ (by decide), bistFound, if_neg (by omega), if_neg (by omega), (rd_mbistDone _ _ _ _ _).1]
  · rw [rd_settled_other _ _ _ _ (by decide), bistFound, if_neg (by omega), if_neg (by omega), (rd_mbistDone _ _ _ _ _).2.1]
  · rw [rd_settled_other _ _ _ _ (by decide), bistFound, if_pos h, (after_sweepDone _ _ _ _).2.2]
  · have hsigs : (bistFound (bistOver s t hub r) hub r sigs fails first word count).dbg.sigs =
        sigsKept hub (fun p => sigs.getD p 0 % 2 ^ 64) (List.range 68) (bistOver s t hub r).dbg.sigs := by
      rw [bistFound, if_neg (by omega), if_pos h, dbg_lbistDone]
    show storeGet 0 (bistFound (bistOver s t hub r) hub r sigs fails first word count).dbg.sigs (hub * 68 + p) = _
    rw [hsigs]
    exact storeGet_sigsKept (sig := fun p => sigs.getD p 0 % 2 ^ 64) (Or.inl (List.mem_range.mpr hp))
  · show _ ≤ (bistFound _ hub r sigs fails first word count).now
    rw [hnow]
    exact le_trans (le_max_right _ _) (le_max_right _ _)

/-! The test access port (R459) -/

theorem tdo_runs {e : Instr} {b : Bool} {o : Out} (hexec : exec e s = settle s (emit (updMgt s fun m => { m with bypass := b }) o)) :
    Runs e s fun v => v.rep.outs = s.rep.outs ++ [o] ∧ v.mgt.bypass = b ∧ KeptBut [.mgt, .rep] s v ∧ RegsKept [] s v :=
  runs_of_settle hexec ⟨rfl, rfl, (((within_mgt s _).append (within_emit _ o)).mono (by simp) (by simp)).toWithinAt.settled⟩

/-- Settles O59: freezes and counters, halts and the debug module, withdrawal and self-tests of hubs. -/
theorem debugRuns : Obligations.DebugRuns := by
  refine ⟨fun s src t hmgmt => ⟨dbgFreeze_freezes hmgmt, dbgUnfreeze_unfreezes hmgmt, dbgSnap_snaps hmgmt⟩,
    fun s t i n f hi hnone hpos => counterContribution_one hi hnone hpos, fun s t counts hwf => counterContribution_counts hwf,
    fun s src t hub hmgmt hhub => ?_, fun s t hub a hin hnot hempty hat => haltDrained_drains hin hnot hempty hat,
    fun s src t hub hmgmt hhub st hst => ?_, fun s t hub r sigs fails first word count hr _ _ => bistComplete_completes hr,
    fun s n x => ⟨tdo_runs rfl, tdo_runs rfl⟩⟩
  · have hreq := exec_dbgHaltReq hmgmt hhub t
    refine ⟨fun hallowed hnot => ⟨fun c hc => ?_, dmiWrite_halts hmgmt hhub hallowed hnot⟩, fun hrefused => ?_, fun hallowed hin => ?_,
      dbgResume_keepsOut hmgmt hhub, dbgResume_ignored hmgmt hhub, fun a hrefused c hc => dmi_refused hmgmt hhub hrefused a c hc,
      fun hallowed hhalt hbit hin => dmiWrite_resumes hmgmt hhub hallowed hin hhalt hbit,
      fun hallowed w d hw hcmd htransfer hreg hd => dmiWrite_arms hmgmt hhub hallowed hw hcmd htransfer hreg hd,
      dbgResume_places hmgmt hhub,
      fun a hallowed => ⟨dmiRead_reads hmgmt hhub hallowed a, fun hctl hcmd => dmiWrite_stores hmgmt hhub hallowed hctl hcmd⟩⟩
    · rcases hc with rfl | ⟨rfl, harmed, hwindow⟩
      · rw [if_pos hallowed] at hreq
        exact halts_runs hreq rfl rfl hnot rfl
      · exact halts_runs (exec_breakpointTrigger hhub harmed hwindow hallowed t) rfl rfl hnot rfl
    · rw [if_neg (by simp [hrefused])] at hreq
      refine runs_of_settle hreq ⟨?_, ((within_tick s t).toWithinAt.trans (withinAt_wr _ _ _ _)).settled⟩
      rw [rd_settled_other _ _ _ _ (by decide)]
      exact rd_wr_same _ _ _ _
    · rw [if_pos hallowed, haltHub, if_pos (show hub ∈ (tick s t).core.halted from hin)] at hreq
      exact ticks_runs hreq
  · subst hst
    refine ⟨fun hst hplanner hrunning => hubWithdraw_waits hmgmt hhub hst hplanner hrunning, fun hst hplanner hidle hempty => ?_,
      fun hst hplanner hidle hused => ?_, fun hst hplanner => ?_, fun hst hdump => ?_, fun hst _ => ?_, fun c op n hc => ?_,
      fun phys hphys hst hwindow => hubSweep_starts hmgmt hhub hphys hst hwindow⟩
    · obtain ⟨v, hv, hdone, -, hout, hkept⟩ := hubWithdraw_idle (t := t) hmgmt hhub hst hplanner hidle
      exact ⟨v, hv, hdone hempty, hout, hkept⟩
    · obtain ⟨v, hv, -, hwaits, hout, hkept⟩ := hubWithdraw_idle (t := t) hmgmt hhub hst hplanner hidle
      exact ⟨v, hv, hwaits hused, hout, hkept⟩
    · exact hubCmd_rejected hmgmt hhub (op := 1) (phys := 0) (patterns := 0) (why := 6) (t := t) rfl
        (by simp [hubWhy, hst, show planner (tick s t) hub = true from hplanner]) (by simp)
    · obtain ⟨v, hv, hstate, hbusy, hwaits, -⟩ := hubReturn_resets (t := t) hmgmt hhub hst
      exact ⟨v, hv, hstate, hbusy, hwaits hdump⟩
    · obtain ⟨v, hv, hstate, hbusy, -, hreset⟩ := hubReturn_resets (t := t) hmgmt hhub hst
      exact ⟨v, hv, hstate, hbusy, hreset⟩
    · obtain ⟨hcmd, h3, h5⟩ := exec_selfTest (s := s) hc
      refine ⟨fun hst hn hwindow => selfTest_starts hmgmt hhub hc hst hn hwindow, fun h2 hne3 => ?_, fun why hwhy hst hne => ?_⟩
      · exact hubCmd_rejected hmgmt hhub hcmd (why := 2) (by simp [hubWhy, h3, h5, h2, hne3]) (by simp)
      · exact hubCmd_rejected hmgmt hhub hcmd ((hubWhy_selfTest (s := tick s t) h3 h5 hst).trans hwhy.symm) hne

end Sys2Proof.Machine
end


section
/-! O53 fails, at the end of a link whose own end of tasks lets another task's command start. -/

namespace Sys2Proof.Machine

/-- A packet that link 0 has sent and not yet delivered. -/
def undelivered : Packet := ⟨0, 0, 0, false, 0, 1, 0, 0, 1, true, 0, 0, 0, 0, 0, 0, [], 0⟩

/-- Link 0 retrains and keeps a packet for card 1, which runs on core 0; behind it waits card 2. -/
def retrainingLink : State :=
  let s := setLink (wr State.reset .SPOKE_LINK_STATE_STATE 0 3) 0 { emptyLink with replay := [(1, undelivered)] }
  updCore s fun c => { c with
    queues := [(0, [semaphoreCmd 1 0 true, semaphoreCmd 2 0 false])]
    tasks := [⟨[(1, 1)], 1, [0]⟩, ⟨[(1, 2)], 2, [0]⟩] }

/-- As card 1's task ends with the link, card 2 starts, of which core 0's trail takes an entry (R452). -/
theorem trail_retireLink_retrainingLink :
    (storeGet [] (retireLink (tick retrainingLink 0) 0 [([(1, 1)], 1)]).dbg.trails 0).map (·.code) = [0x01] := by decide +kernel

theorem exec_linkRetrainTimeout {s : State} {l : Nat} (hl : l < 6) (hst : rd s .SPOKE_LINK_STATE_STATE l = 3) (t : Nat)
    (tasks : List (List (Nat × Nat) × Nat)) : exec (.linkRetrainTimeout t l tasks) s = settle s (retireLink (tick s t) l tasks) := by
  show execLinkRetrainTimeout t l tasks s = _
  rw [execLinkRetrainTimeout, if_pos ⟨hl, show rd (tick s t) .SPOKE_LINK_STATE_STATE l = 3 from hst⟩]

/-- Refutes O53: the clause for a link whose retraining times out says that the debug state is as it was. The link's retirement ends
the tasks whose packets it has not delivered (R343); the queues of their cores then move on (R476), and the command that starts there
leaves an entry in its core's event trail (R452). -/
theorem not_linksRun : ¬ Obligations.LinksRun := by
  intro h
  obtain ⟨-, -, -, -, hretraining, -⟩ := h retrainingLink .mgmt 0 0 [([(1, 1)], 1)] (by decide)
  have hst : rd retrainingLink .SPOKE_LINK_STATE_STATE 0 = 3 := by decide
  obtain ⟨-, v, hexec, -, hkept⟩ := hretraining hst
  obtain rfl := Host.Outcome.next.inj ((exec_linkRetrainTimeout (by decide) hst 0 _).symm.trans hexec)
  have hdbg : (retireLink (tick retrainingLink 0) 0 [([(1, 1)], 1)]).dbg = retrainingLink.dbg := hkept .dbg (by decide)
  have htrail := trail_retireLink_retrainingLink
  rw [hdbg] at htrail
  exact absurd htrail (by decide)

end Sys2Proof.Machine
end


section
/-! O60: requests on the management port (R414 to R418). -/

namespace Sys2Proof.Machine

variable {s u : State} {c : Instr}

/-! Answers -/

theorem within_reply (s : State) (proto cmd : Nat) (fs : List Nat) : Within [.rep] [] s (reply s proto cmd fs) := within_emit s _

/-- What an answer leaves, after what the request has done. -/
theorem replies_runs {ps : List Part} {ex : List (Fld × Nat)} {proto cmd : Nat} {fs : List Nat}
    (hexec : exec c s = settle s (reply u proto cmd fs)) (w : WithinAt ps ex s u) (houts : u.rep.outs = s.rep.outs) : Runs c s fun v =>
      v.rep.outs = s.rep.outs ++ [.answer proto cmd 0 fs] ∧ KeptBut (ps ++ [.rep]) s v ∧ RegsKept ex s v := by
  have hreply := w.trans (within_reply u proto cmd fs).toWithinAt
  exact runs_of_settle hexec ⟨congrArg (· ++ _) houts, (hreply.mono (List.Subset.refl _) (by simp)).settled⟩

/-- A request that is only answered. -/
theorem answers_runs {proto cmd : Nat} {fs : List Nat} (hexec : exec c s = settle s (reply s proto cmd fs)) : Runs c s fun v =>
    v.rep.outs = s.rep.outs ++ [.answer proto cmd 0 fs] ∧ KeptBut [.rep] s v ∧ RegsKept [] s v :=
  replies_runs hexec (WithinAt.refl s) rfl

/-- A request that is only answered, with a field that the spec does not give. -/
theorem answersFree_runs {proto cmd width : Nat} {fs : List Nat} (hexec : exec c s = settle s (replyFree s proto cmd fs width)) :
    Runs c s fun v => (∃ x, v.rep.outs = s.rep.outs ++ [.answer proto cmd 0 (fs ++ [x])]) ∧ KeptBut [.free, .rep] s v ∧
      RegsKept [] s v := by
  obtain ⟨v, hnext, houts, hkept⟩ := replies_runs (ps := [.free]) hexec (within_takeFree s width).toWithinAt rfl
  exact ⟨v, hnext, ⟨_, houts⟩, hkept⟩

theorem Runs.imp {p q : State → Prop} (h : Runs c s p) (himp : ∀ v, p v → q v) : Runs c s q := by
  obtain ⟨v, hexec, hv⟩ := h
  exact ⟨v, hexec, himp v hv⟩

/-! The port (R414, R415) -/

theorem entdaa_runs (h : rd s .MGMT_I3C_ADDR_VALID ≠ 1) (addr : Nat) : Runs (.entdaa addr) s fun v =>
    rd v .MGMT_I3C_DYN_ADDR = addr % 128 ∧ rd v .MGMT_I3C_ADDR_VALID = 1 ∧
    v.rep.outs = s.rep.outs ++ [.answer 5 7 0 [provisionedId s]] ∧ KeptBut [.rep] s v ∧
    RegsKept [(.MGMT_I3C_DYN_ADDR, 0), (.MGMT_I3C_ADDR_VALID, 0)] s v := by
  have hexec : exec (.entdaa addr) s = settle s (wr (wr (reply s 5 7 [provisionedId s]) .MGMT_I3C_DYN_ADDR 0 (addr % 128))
      .MGMT_I3C_ADDR_VALID 0 1) := by
    show execEntdaa addr s = _
    rw [execEntdaa, if_neg (by simp [portUp, rdb, h])]
  have hall := ((within_reply s 5 7 [provisionedId s]).toWithinAt.trans (withinAt_wr _ .MGMT_I3C_DYN_ADDR 0 (addr % 128))).trans
    (withinAt_wr _ .MGMT_I3C_ADDR_VALID 0 1)
  refine runs_of_settle hexec ⟨?_, ?_, rfl, hall.settled⟩
  all_goals
    rw [rd_settled_other _ _ _ _ (by decide)]
    simp [rd_wr]

section Port
variable (hup : portUp s = true)
include hup

theorem port_answers (proto cmd : Nat) (fs : List Nat) (h : (c, proto, cmd, fs) ∈
    [(Instr.getEndpointId, 1, 2, [rd s .MGMT_I3C_EID]), (.getEndpointUuid, 1, 3, [endpointUuid]),
     (.getMessageTypeSupport, 1, 5, [1, 1]), (.getTid, 2, 2, [s.mgt.tid]), (.getPldmTypes, 2, 4, [0, 2, 5]),
     (.getPldmCommands 0, 2, 5, pldmCommands 0), (.getPldmCommands 2, 2, 5, pldmCommands 2),
     (.getPldmCommands 5, 2, 5, pldmCommands 5), (.getStatus, 2, 0x1B, [rd s .MGMT_UPDATE_STATE])]) :
    exec c s = settle s (reply s proto cmd fs) := by
  have hport : ∀ x : State, settle s (if portUp s then x else s) = settle s x := fun x => by rw [if_pos hup]
  have hcommands : ∀ type, pldmCommands type ≠ [] → exec (.getPldmCommands type) s = settle s (reply s 2 5 (pldmCommands type)) := by
    intro type htype
    show execGetPldmCommands type s = _
    rw [execGetPldmCommands, if_neg (by simp [hup]), if_neg htype]
  simp only [List.mem_cons, List.not_mem_nil, or_false, Prod.mk.injEq] at h
  rcases h with h | h | h | h | h | h | h | h | h <;> obtain ⟨rfl, rfl, rfl, rfl⟩ := h
  · exact hport _
  · exact hport _
  · exact hport _
  · exact hport _
  · exact hport _
  · exact hcommands 0 (by decide)
  · exact hcommands 2 (by decide)
  · exact hcommands 5 (by decide)
  · exact hport _

theorem port_answersFree (type proto cmd : Nat) (fs : List Nat) (h : (c, proto, cmd, fs) ∈
    [(Instr.getMctpVersionSupport type, 1, 4, [type]), (.queryDeviceIdentifiers, 2, 1, []),
     (.getFirmwareParameters, 2, 2, [1, (runningImage s).fwSvn, (runningImage s).bpSvn])] ++
    (if type ∈ [0, 2, 5] then [(Instr.getPldmVersion type, 2, 3, [type])] else [])) :
    ∃ width, exec c s = settle s (replyFree s proto cmd fs width) := by
  have hport : ∀ x : State, settle s (if portUp s then x else s) = settle s x := fun x => by rw [if_pos hup]
  rcases List.mem_append.mp h with h | h
  · simp only [List.mem_cons, List.not_mem_nil, or_false, Prod.mk.injEq] at h
    rcases h with h | h | h <;> obtain ⟨rfl, rfl, rfl, rfl⟩ := h
    · exact ⟨32, hport _⟩
    · exact ⟨64, hport _⟩
    · exact ⟨64, hport _⟩
  · split at h
    · next htype =>
      simp only [List.mem_cons, List.not_mem_nil, or_false, Prod.mk.injEq] at h
      obtain ⟨rfl, rfl, rfl, rfl⟩ := h
      have hcommands : pldmCommands type ≠ [] := by
        have htypes : type = 0 ∨ type = 2 ∨ type = 5 := by simpa using htype
        rcases htypes with rfl | rfl | rfl <;> decide
      refine ⟨32, ?_⟩
      show execGetPldmVersion type s = _
      rw [execGetPldmVersion, if_neg (by simp [hup]), if_neg hcommands]
    · simp at h

theorem setEndpointId_runs {x : Nat} (hnull : x % 256 ≠ 0) (hall : x % 256 ≠ 255) : Runs (.setEndpointId x) s fun v =>
    rd v .MGMT_I3C_EID = x % 256 ∧ v.rep.outs = s.rep.outs ++ [.answer 1 1 0 [x % 256]] ∧
    KeptBut [.rep] s v ∧ RegsKept [(.MGMT_I3C_EID, 0)] s v := by
  have hexec : exec (.setEndpointId x) s = settle s (reply (wr s .MGMT_I3C_EID 0 (x % 256)) 1 1 [x % 256]) := by
    show execSetEndpointId x s = _
    rw [execSetEndpointId, if_neg (by simp [hup]), if_neg (by omega)]
  have hreply := (withinAt_wr s .MGMT_I3C_EID 0 (x % 256)).trans (within_reply _ 1 1 [x % 256]).toWithinAt
  refine runs_of_settle hexec ⟨?_, rfl, hreply.settled⟩
  rw [rd_settled_other _ _ _ _ (by decide)]
  exact rd_wr_same _ _ _ _

theorem setTid_runs {x : Nat} (hnull : x % 256 ≠ 0) (hall : x % 256 ≠ 255) : Runs (.setTid x) s fun v =>
    v.mgt.tid = x % 256 ∧ v.rep.outs = s.rep.outs ++ [.answer 2 1 0 []] ∧ KeptBut [.mgt, .rep] s v ∧ RegsKept [] s v := by
  have hexec : exec (.setTid x) s = settle s (reply (updMgt s fun m => { m with tid := x % 256 }) 2 1 []) := by
    show execSetTid x s = _
    rw [execSetTid, if_neg (by simp [hup]), if_neg (by omega)]
  have hreply := (within_mgt s fun m => { m with tid := x % 256 }).toWithinAt.trans (within_reply _ 2 1 []).toWithinAt
  exact runs_of_settle hexec ⟨rfl, rfl, hreply.settled⟩

end Port

end Sys2Proof.Machine
end


section
/-! O60: monitoring over the management port (R416 to R418). -/

namespace Sys2Proof.Machine

variable {s u : State} {c : Instr}

/-! A reset that a low-power state holds (R442) -/

theorem heldReset_startExit (s : State) (reason : Nat) : (startExit s reason).boot.heldReset = s.boot.heldReset := by
  unfold startExit
  dsimp only
  split
  · rfl
  · split
    · split <;> split <;> rfl
    · rfl

theorem within_reset_startExit (s : State) (trigger reason : Nat) :
    Within [.boot, .rep] exitFlds s (startExit (updBoot s fun b => { b with heldReset := some trigger }) reason) :=
  ((within_boot s _).append (within_startExit _ reason)).mono (by simp) (by simp)

theorem warmReset_of_low (hnone : s.boot.warm = none) (hlow : rd s .LP_STATUS_STATE ∈ [2, 3, 4]) (trigger : Nat) :
    warmReset s trigger = startExit (updBoot s fun b => { b with heldReset := some trigger }) 3 := by
  have hst : 2 ≤ rd s .LP_STATUS_STATE := by
    simp only [List.mem_cons, List.not_mem_nil, or_false] at hlow
    omega
  unfold warmReset
  rw [hnone, if_neg (by simp), if_pos hst]

theorem ExitBegins.congr {s v w : State} {reason : Nat} (h : ExitBegins s v reason) (hboot : w.boot = v.boot)
    (hregs : ∀ f ∈ exitFlds, rd w f = rd v f) : ExitBegins s w reason := by
  obtain ⟨hstate, hready, hreason, hfrom⟩ := h
  refine ⟨?_, ?_, ?_, ?_⟩
  · rw [hregs _ (by decide), hstate]
  · rw [hregs _ (by decide), hready]
  · rw [hboot, hreason]
  · rw [hboot, hfrom]

/-- A reset request in a low-power state is held, and the exit begins; what then leaves (`v`) is the answer, if there is one. -/
theorem heldReset_runs {trigger t : Nat} {v : State} (hnone : s.boot.warm = none) (hlow : rd s .LP_STATUS_STATE ∈ [2, 3, 4])
    (hexec : exec c s = settle s v) (hv : Within [.rep] [] (warmReset (tick s t) trigger) v) : Runs c s fun v =>
      v.boot.heldReset = some trigger ∧ ExitBegins s v 3 ∧ Frame [.boot, .now, .rep] exitFlds s v := by
  rw [warmReset_of_low (s := tick s t) hnone hlow] at hv
  have hexit : ExitBegins s (startExit (updBoot (tick s t) fun b => { b with heldReset := some trigger }) 3) 3 :=
    startExit_begins (s := updBoot (tick s t) _) hlow 3
  have hheld := heldReset_startExit (updBoot (tick s t) fun b => { b with heldReset := some trigger }) 3
  have hall := ((within_tick s t).append (within_reset_startExit (tick s t) trigger 3)).append hv
  generalize startExit (updBoot (tick s t) fun b => { b with heldReset := some trigger }) 3 = u at *
  have hboot : v.boot = u.boot := hv.parts .boot (by simp)
  refine runs_of_settle hexec ⟨(congrArg Boot.heldReset hboot).trans hheld, hexit.congr hboot fun f hf => ?_,
    (hall.mono (by simp) (by simp)).settled⟩
  have hfld : f ∉ viewFlds := by
    revert f
    decide
  rw [rd_settled_other _ _ _ _ hfld, hv.regs _ _ (by simp)]

/-- What leaves after a warm reset has started does not change what it has started. -/
theorem WarmBegins.emitted {s u v w : State} {trigger now : Nat} (h : WarmBegins s (settled w u) trigger now)
    (hv : Within [.rep] [] u v) : WarmBegins s (settled w v) trigger now := by
  obtain ⟨hbusy, hkind, hphase, hwarm, hstopped, hitems, hqueues, hplan, hlost, hbytes, hpann, hkept⟩ := h
  have hreg : ∀ f n, f ∉ viewFlds → rd (settled w v) f n = rd (settled w u) f n := fun f n hf => by
    rw [rd_settled_other _ _ _ _ hf, rd_settled_other _ _ _ _ hf, hv.regs _ _ (by simp)]
  have hpart : KeptBut [.rep] (settled w u) (settled w v) := fun p hp => by
    have h := hv.parts p hp
    cases p <;> exact h
  have hmem : (settled w v).mem = (settled w u).mem := hpart .mem (by simp)
  refine ⟨?_, ?_, ?_, ?_, ?_, ?_, fun k => ?_, ?_, fun a ha => ?_, fun a ha => ?_, ?_, (hkept.trans hpart).mono (by simp)⟩
  · rw [hreg _ _ (by decide), hbusy]
  · rw [hreg _ _ (by decide), hkind]
  · rw [hreg _ _ (by decide), hphase]
  · rw [hpart .boot (by simp), hwarm]
  · rw [hpart .serve (by simp), hstopped]
  · rw [hpart .serve (by simp), hitems]
  · rw [queueAt, hpart .core (by simp)]
    exact hqueues k
  · rw [hpart .tt (by simp), hplan]
  · rw [readByte_congr hmem, hlost a ha]
  · rw [readByte_congr hmem, hbytes a ha]
  · rw [hpart .pann (by simp), hpann]

theorem warmBegins_runs {trigger t : Nat} {v : State} (hnone : s.boot.warm = none) (hawake : rd s .LP_STATUS_STATE < 2)
    (hexec : exec c s = settle s v) (hv : Within [.rep] [] (warmReset (tick s t) trigger) v) : Runs c s fun v =>
      WarmBegins s v trigger (max s.now t) := by
  have hstarts := warmReset_starts (s := tick s t) hnone hawake trigger
  exact runs_of_settle hexec ((hstarts.begins ((within_tick s t).kept.mono (by simp)) s).emitted hv)

/-! Monitoring (R416 to R418) -/

section Monitor
variable (hmon : monitorUp s = true)
include hmon

theorem getPdr_runs {h : Nat} (hpos : 1 ≤ h) (hlast : h ≤ 27) : Runs (.getPdr h) s fun v =>
    (∃ k x, v.rep.outs = s.rep.outs ++ [.answer 2 0x51 0 [h, (if h = 27 then 0 else h + 1), k, x]]) ∧ KeptBut [.free, .rep] s v ∧
    RegsKept [] s v := by
  obtain ⟨k, hk⟩ : ∃ k, pdrKinds[h - 1]? = some k := by
    have hlen : pdrKinds.length = 27 := by decide
    exact ⟨_, List.getElem?_eq_getElem (by omega)⟩
  have hexec : exec (.getPdr h) s = settle s (replyFree s 2 0x51 [h, (if h = 27 then 0 else h + 1), k] 64) := by
    show execGetPdr h s = _
    unfold execGetPdr
    dsimp only
    rw [if_neg (by simp [hmon]), Nat.max_eq_left hpos, hk]
  exact (answersFree_runs hexec).imp fun v ⟨⟨x, houts⟩, hkept⟩ => ⟨⟨k, x, houts⟩, hkept⟩

theorem getPdrRepositoryInfo_runs : Runs .getPdrRepositoryInfo s fun v =>
    (∃ x, v.rep.outs = s.rep.outs ++ [.answer 2 0x50 0 [27, x]]) ∧ KeptBut [.free, .rep] s v ∧ RegsKept [] s v :=
  answersFree_runs (fs := [27]) (width := 64) (by
    show execGetPdrRepositoryInfo s = _
    rw [execGetPdrRepositoryInfo, if_pos hmon]
    rfl)

theorem getSensorReading_runs {n x : Nat} (hx : sensorValue s n = some x) : Runs (.getSensorReading n) s fun v =>
    v.rep.outs = s.rep.outs ++ [.answer 2 0x11 0 [x]] ∧ KeptBut [.rep] s v ∧ RegsKept [] s v :=
  answers_runs (by
    show execGetSensorReading n s = _
    rw [execGetSensorReading, if_neg (by simp [hmon]), hx])

theorem getStateSensorReadings_runs {n : Nat} (hn : n = 23 ∨ n = 24) : Runs (.getStateSensorReadings n) s fun v =>
    v.rep.outs = s.rep.outs ++ [.answer 2 0x21 0 [if n = 23 then moduleState s else rd s .SPOKE_FAB_STATUS_STATE]] ∧
    KeptBut [.rep] s v ∧ RegsKept [] s v :=
  answers_runs (by
    show execGetStateSensorReadings n s = _
    rw [execGetStateSensorReadings, if_neg (by simp [hmon])]
    rcases hn with rfl | rfl <;> rfl)

theorem exec_moduleCapEffecter (t x : Nat) : exec (.moduleCapEffecter t x) s = settle s (reply (writeCap (tick s t) x) 2 0x31 []) := by
  show execModuleCapEffecter t x s = _
  rw [execModuleCapEffecter, if_pos hmon]

theorem moduleCapEffecter_sets (t : Nat) {x : Nat} (hlo : 1000 ≤ x) (hhi : x ≤ 3300) : Runs (.moduleCapEffecter t x) s fun v =>
    rd v .PWR_CAP_CAP_W = x ∧ Frame [.now, .rep] (reportFlds ++ [.PWR_CAP_CAP_W, .PWR_CAP_CAP_PENDING, .EVC_STATUS_POWER]) s v := by
  have hrest : Within [.rep] (reportFlds ++ [.EVC_STATUS_POWER]) (capSet (tick s t) x) (writeCap (tick s t) x) := by
    obtain ⟨d, h | h⟩ := writeCap_cases hlo hhi (tick s t) <;> rw [h]
    · exact Within.refl _ _ _
    · exact ((within_report (capSet (tick s t) x) _ _ _ _ _ _).append (within_raiseModule _ _)).mono (by simp) (by simp)
  obtain ⟨hcap, -⟩ := rd_capSet (tick s t) x
  have hreply := within_reply (writeCap (tick s t) x) 2 0x31 []
  have hall := (((within_tick s t).append (within_capSet (tick s t) x)).append hrest).append hreply
  refine runs_of_settle (exec_moduleCapEffecter hmon t x) ⟨?_, (hall.mono (by simp) (by simp)).settled⟩
  rw [rd_settled_other _ _ _ _ (by decide), hreply.regs _ _ (by simp), hrest.regs _ _ (by decide), hcap]

theorem moduleCapEffecter_ignores (t : Nat) {x : Nat} (hx : x % 4096 < 1000 ∨ 3300 < x % 4096) : Runs (.moduleCapEffecter t x) s fun v =>
    v.rep.outs = s.rep.outs ++ [.answer 2 0x31 0 []] ∧ KeptBut [.now, .rep] s v ∧ RegsKept [] s v := by
  have hcap : writeCap (tick s t) x = tick s t := by
    unfold writeCap
    dsimp only
    rw [if_pos hx]
  refine replies_runs ((exec_moduleCapEffecter hmon t x).trans (by rw [hcap])) (within_tick s t).toWithinAt rfl

/-- What WAKE_EFFECTER does before it is answered. -/
theorem exec_wakeEffecter (t : Nat) : exec (.wakeEffecter t) s = settle s (reply
    (if rd s .LP_STATUS_STATE = 4 ∨ (rd s .LP_STATUS_STATE = 5 ∧ s.boot.lpTarget = 4) then startExit (tick s t) 4 else tick s t) 2 0x39 []) := by
  show execWakeEffecter t s = _
  unfold execWakeEffecter
  dsimp only
  rw [if_neg (by simp [hmon])]
  rfl

theorem wakeEffecter_exits (t : Nat) (h : rd s .LP_STATUS_STATE = 4) : Runs (.wakeEffecter t) s fun v =>
    ExitBegins s v 4 ∧ Frame [.boot, .now, .rep] exitFlds s v := by
  have hexec := exec_wakeEffecter hmon t
  rw [if_pos (Or.inl h)] at hexec
  have hexit : ExitBegins s (startExit (tick s t) 4) 4 :=
    startExit_begins (s := tick s t) (by rw [rd_tick, h]; decide) 4
  have hreply := within_reply (startExit (tick s t) 4) 2 0x39 []
  have hall := ((within_tick s t).append (within_startExit (tick s t) 4)).append hreply
  refine runs_of_settle hexec ⟨hexit.congr rfl fun f hf => ?_, (hall.mono (by simp) (by simp)).settled⟩
  have hfld : f ∉ viewFlds := by
    revert f
    decide
  rw [rd_settled_other _ _ _ _ hfld, hreply.regs _ _ (by simp)]

theorem wakeEffecter_pends (t : Nat) (h : rd s .LP_STATUS_STATE = 5) (htarget : s.boot.lpTarget = 4) : Runs (.wakeEffecter t) s fun v =>
    v.boot.wakePending = true ∧ v.boot.lpReason = 4 ∧ v.rep.outs = s.rep.outs ++ [.answer 2 0x39 0 []] ∧
    KeptBut [.boot, .now, .rep] s v ∧ RegsKept [] s v := by
  have hexit : startExit (tick s t) 4 = updBoot (tick s t) fun b => { b with wakePending := true, lpReason := 4 } := if_pos h
  have hexec := exec_wakeEffecter hmon t
  rw [if_pos (Or.inr ⟨h, htarget⟩), hexit] at hexec
  have hall := ((within_tick s t).append (within_boot (tick s t) fun b => { b with wakePending := true, lpReason := 4 })).append
    (within_reply _ 2 0x39 [])
  exact runs_of_settle hexec ⟨rfl, rfl, rfl, (hall.mono (qs := [.boot, .now, .rep]) (by simp) (by simp)).toWithinAt.settled⟩

theorem wakeEffecter_ignored (t : Nat) (h : rd s .LP_STATUS_STATE ≠ 4) (htarget : rd s .LP_STATUS_STATE ≠ 5 ∨ s.boot.lpTarget ≠ 4) :
    Runs (.wakeEffecter t) s fun v =>
      v.rep.outs = s.rep.outs ++ [.answer 2 0x39 0 []] ∧ KeptBut [.now, .rep] s v ∧ RegsKept [] s v := by
  have hexec := exec_wakeEffecter hmon t
  rw [if_neg (by tauto)] at hexec
  exact replies_runs hexec (within_tick s t).toWithinAt rfl

theorem exec_resetEffecter (t : Nat) : exec (.resetEffecter t) s = settle s
    (reply (if rdb s .RESET_STATUS_BUSY then resetRejected (tick s t) else warmReset (tick s t) 2) 2 0x39 []) := by
  show execResetEffecter t s = _
  unfold execResetEffecter
  dsimp only
  rw [if_neg (by simp [hmon])]
  rfl

theorem resetEffecter_rejected (t : Nat) (h : rd s .RESET_STATUS_BUSY = 1) : Runs (.resetEffecter t) s fun v =>
    rd v .RESET_STATUS_REJECTED = 1 ∧ KeptBut [.now, .rep] s v ∧ RegsKept [(.RESET_STATUS_REJECTED, 0)] s v := by
  have hexec := exec_resetEffecter hmon t
  rw [if_pos (rdb_of_one h)] at hexec
  have hall := ((within_tick s t).toWithinAt.trans (withinAt_wr (tick s t) .RESET_STATUS_REJECTED 0 1)).trans
    (within_reply _ 2 0x39 []).toWithinAt
  refine runs_of_settle hexec ⟨?_, hall.settled⟩
  rw [rd_settled_other _ _ _ _ (by decide)]
  exact rd_wr_same (tick s t) .RESET_STATUS_REJECTED 0 1

theorem exec_resetEffecter_idle (t : Nat) (h : rd s .RESET_STATUS_BUSY ≠ 1) :
    exec (.resetEffecter t) s = settle s (reply (warmReset (tick s t) 2) 2 0x39 []) :=
  (exec_resetEffecter hmon t).trans (by rw [if_neg (by simp [rdb_of_ne_one h])])

theorem setEventReceiver_runs (t : Nat) (eid : Option Nat) : Runs (.setEventReceiver t eid) s fun v =>
    v.rep.receiver = eid ∧ rd v .MGMT_I3C_RECEIVER_SET = (if eid.isSome then 1 else 0) ∧ KeptBut [.now, .rep] s v ∧
    RegsKept [(.MGMT_I3C_RECEIVER_SET, 0)] s v := by
  have hexec : exec (.setEventReceiver t eid) s = settle s
      (reply (wrb (updRep (tick s t) fun r => { r with receiver := eid }) .MGMT_I3C_RECEIVER_SET 0 eid.isSome) 2 0x04 []) := by
    show execSetEventReceiver t eid s = _
    rw [execSetEventReceiver, if_neg (by simp [hmon])]
  have hall := (((within_tick s t).append (within_rep (tick s t) fun r => { r with receiver := eid })).toWithinAt.trans
    (withinAt_wr _ .MGMT_I3C_RECEIVER_SET 0 (b2n eid.isSome))).trans (within_reply _ 2 0x04 []).toWithinAt
  refine runs_of_settle hexec ⟨rfl, ?_, (hall.mono (by simp) (by simp)).settled⟩
  rw [rd_settled_other _ _ _ _ (by decide)]
  refine (rd_wr_same _ _ _ _).trans ?_
  cases eid <;> rfl

theorem exec_poll_of_cons {r : CellarRec} {q : List CellarRec} (hq : s.rep.faultQueue = r :: q) :
    exec .pollForPlatformEventMessage s = settle s
      (if s.rep.eventHeld ∨ s.rep.receiver = none then popEvent (emit s (.platformEvent (cellarBytes r))) else reply s 2 0x0B []) := by
  show execPollForPlatformEventMessage s = _
  rw [execPollForPlatformEventMessage, if_neg (by simp [hmon]), hq]

/-- A poll collects a record that is held, or any where there is no receiver. -/
theorem poll_collects {r : CellarRec} {q : List CellarRec} (hq : s.rep.faultQueue = r :: q)
    (hfree : s.rep.eventHeld = true ∨ s.rep.receiver = none) : Runs .pollForPlatformEventMessage s fun v =>
      v.rep.faultQueue = q ∧ v.rep.eventHeld = false ∧ v.rep.outs = s.rep.outs ++ [.platformEvent (cellarBytes r)] ∧ KeptBut [.rep] s v ∧
      RegsKept [] s v := by
  have hexec := exec_poll_of_cons hmon hq
  rw [if_pos hfree] at hexec
  have hall := (within_emit s (.platformEvent (cellarBytes r))).trans (within_rep _ fun x =>
    { x with faultQueue := x.faultQueue.tail, eventTries := 0, eventNext := none, eventHeld := false })
  exact runs_of_settle hexec ⟨congrArg List.tail hq, rfl, rfl, hall.toWithinAt.settled⟩

theorem poll_empty (hq : s.rep.faultQueue = []) : Runs .pollForPlatformEventMessage s fun v =>
    v.rep.outs = s.rep.outs ++ [.answer 2 0x0B 0 []] ∧ KeptBut [.rep] s v ∧ RegsKept [] s v := by
  refine answers_runs ?_
  show execPollForPlatformEventMessage s = _
  rw [execPollForPlatformEventMessage, if_neg (by simp [hmon]), hq]

theorem poll_waits {r : CellarRec} {q : List CellarRec} {e : Nat} (hq : s.rep.faultQueue = r :: q) (hheld : s.rep.eventHeld = false)
    (hreceiver : s.rep.receiver = some e) : Runs .pollForPlatformEventMessage s fun v =>
      v.rep.faultQueue = r :: q ∧ v.rep.outs = s.rep.outs ++ [.answer 2 0x0B 0 []] ∧ KeptBut [.rep] s v ∧ RegsKept [] s v := by
  have hexec := exec_poll_of_cons hmon hq
  rw [if_neg (by simp [hheld, hreceiver])] at hexec
  exact runs_of_settle hexec ⟨hq, rfl, (within_reply s 2 0x0B []).toWithinAt.settled⟩

end Monitor

end Sys2Proof.Machine
end


section
/-! O60: firmware updates over the management port (R419, R428). -/

namespace Sys2Proof.Machine

variable {s u : State} {c : Instr}

/-! The selection record and its images -/

theorem imageState_congr {s t : State} (h : t.boot = s.boot) (i : Nat) : imageState t i = imageState s i := by
  rw [imageState, liveSelection, h]
  rfl

theorem imageState_setImageState (s : State) (i x : Nat) : imageState (setImageState s i x) i = x := by
  by_cases h : i = 0 <;> simp [h, imageState, setImageState, saveSelection, liveSelection]

theorem within_saveSelection (s : State) (f : Selection → Selection) : Within [.boot] [] s (saveSelection s f) := within_boot s fun b =>
  { b with selection := { f (liveSelection s) with generation := (liveSelection s).generation + 1 } :: b.selection.take 1 }

theorem within_setImageState (s : State) (i x : Nat) : Within [.boot] [] s (setImageState s i x) := within_saveSelection s _

theorem within_imageRecord (s : State) (event i svn : Nat) : Within [.rep] reportFlds s (imageRecord s event i svn) :=
  within_report s _ _ _ _ _ _

theorem within_markInvalid (s : State) (i : Nat) : Within [.boot, .rep] reportFlds s (markInvalid s i) :=
  ((within_setImageState s i 0).append (within_imageRecord _ _ _ _)).mono (by simp) (by simp)

theorem within_spoilImage (s : State) : Within [.boot, .rep] reportFlds s (spoilImage s) := by
  unfold spoilImage
  split
  · exact Within.refl _ _ s
  · exact within_markInvalid s _

/-- The image that is written is INVALID, whether or not it was before. -/
theorem imageState_spoilImage (s : State) : imageState (spoilImage s) (updateImage s) = 0 := by
  unfold spoilImage
  split
  · next h => exact h
  · exact (imageState_congr ((within_imageRecord _ _ _ _).parts .boot (by simp)) _).trans (imageState_setImageState s _ 0)

theorem within_setUpdate (s : State) (x : Nat) : Within [] [.MGMT_UPDATE_STATE] s (setUpdate s x) := within_wr s _ _ _

/-- A cancelled update: its image is INVALID, and it is IDLE. -/
theorem cancels_runs {cmd : Nat} (f : Management → Management)
    (hexec : exec c s = settle s (reply (updMgt (setUpdate (spoilImage s) 0) f) 2 cmd [])) : Runs c s fun v =>
      imageState v (rd s .MGMT_UPDATE_IMAGE) = 0 ∧ rd v .MGMT_UPDATE_STATE = 0 ∧ v.mgt = f s.mgt ∧
      Frame [.boot, .mgt, .rep] (reportFlds ++ [.MGMT_UPDATE_STATE]) s v := by
  have hspoiled := within_spoilImage s
  have hinvalid := imageState_spoilImage s
  have hmgt : (spoilImage s).mgt = s.mgt := hspoiled.parts .mgt (by simp)
  generalize spoilImage s = u at *
  have hall := ((hspoiled.append (within_setUpdate u 0)).append (within_mgt (setUpdate u 0) f)).append (within_reply _ 2 cmd [])
  refine runs_of_settle hexec ⟨(imageState_congr rfl _).trans hinvalid, ?_, congrArg f hmgt, (hall.mono (by simp) (by simp)).settled⟩
  rw [rd_settled_other _ _ _ _ (by decide)]
  exact rd_wr_same u .MGMT_UPDATE_STATE 0 0

section Port
variable (hup : portUp s = true)
include hup

theorem requestUpdate_runs (h : s.mgt.requested = false) : Runs .requestUpdate s fun v =>
    v.mgt.requested = true ∧ rd v .MGMT_UPDATE_STATE = 0 ∧ rd v .MGMT_UPDATE_IMAGE = 1 - rd s .BOOT_STATUS_IMAGE ∧
    KeptBut [.mgt, .rep] s v ∧ RegsKept [(.MGMT_UPDATE_STATE, 0), (.MGMT_UPDATE_IMAGE, 0)] s v := by
  have hmgt := within_mgt s fun m => { m with requested := true, passed := false, written := none }
  have hexec : exec .requestUpdate s = settle s (reply (setUpdate (wr (updMgt s fun m =>
      { m with requested := true, passed := false, written := none }) .MGMT_UPDATE_IMAGE 0 (1 - rd s .BOOT_STATUS_IMAGE)) 0) 2 0x10 []) := by
    show execRequestUpdate s = _
    rw [execRequestUpdate, if_neg (by simp [hup]), if_neg (by simp [h])]
    rfl
  have hall := ((hmgt.toWithinAt.trans (withinAt_wr _ .MGMT_UPDATE_IMAGE 0 (1 - rd s .BOOT_STATUS_IMAGE))).trans
    (withinAt_wr _ .MGMT_UPDATE_STATE 0 0)).trans (within_reply _ 2 0x10 []).toWithinAt
  refine runs_of_settle hexec ⟨rfl, ?_, ?_, (hall.mono (by simp) (by simp)).settled⟩
  all_goals rw [rd_settled_other _ _ _ _ (by decide)]
  · exact rd_wr_same _ .MGMT_UPDATE_STATE 0 0
  · exact (rd_wr_ne _ .MGMT_UPDATE_STATE .MGMT_UPDATE_IMAGE 0 0 0 (by simp)).trans (rd_wr_same _ .MGMT_UPDATE_IMAGE 0 _)

theorem passComponentTable_runs (h : s.mgt.requested = true) (hstate : rd s .MGMT_UPDATE_STATE = 0) : Runs .passComponentTable s fun v =>
    v.mgt.passed = true ∧ KeptBut [.mgt, .rep] s v ∧ RegsKept [] s v := by
  have hexec : exec .passComponentTable s = settle s (reply (updMgt s fun m => { m with passed := true }) 2 0x13 []) := by
    show execPassComponentTable s = _
    rw [execPassComponentTable, if_neg (by simp [hup]), if_pos ⟨h, hstate⟩]
  have hall := (within_mgt s fun m => { m with passed := true }).append (within_reply _ 2 0x13 [])
  exact runs_of_settle hexec ⟨rfl, hall.toWithinAt.settled⟩

theorem updateComponent_runs (h : s.mgt.requested = true) (hpassed : s.mgt.passed = true)
    (hstate : rd s .MGMT_UPDATE_STATE = 0 ∨ rd s .MGMT_UPDATE_STATE = 4) : Runs .updateComponent s fun v =>
      rd v .MGMT_UPDATE_STATE = 1 ∧ imageState v (rd s .MGMT_UPDATE_IMAGE) = 0 ∧
      Frame [.boot, .rep] (reportFlds ++ [.MGMT_UPDATE_STATE]) s v := by
  have hexec : exec .updateComponent s = settle s (reply (setUpdate (spoilImage s) 1) 2 0x14 []) := by
    show execUpdateComponent s = _
    rw [execUpdateComponent, if_neg (by simp [hup]), if_pos ⟨h, hpassed, hstate⟩]
  have hall := ((within_spoilImage s).append (within_setUpdate (spoilImage s) 1)).append (within_reply _ 2 0x14 [])
  refine runs_of_settle hexec ⟨?_, (imageState_congr rfl _).trans (imageState_spoilImage s), (hall.mono (by simp) (by simp)).settled⟩
  rw [rd_settled_other _ _ _ _ (by decide)]
  exact rd_wr_same _ .MGMT_UPDATE_STATE 0 1

theorem activateFirmware_runs (hstate : rd s .MGMT_UPDATE_STATE = 3) : Runs (.activateFirmware false) s fun v =>
    imageState v (rd s .MGMT_UPDATE_IMAGE) = 1 ∧ (liveSelection v).tries = 3 ∧ (liveSelection v).preferred = rd s .MGMT_UPDATE_IMAGE ∧
    rd v .MGMT_UPDATE_STATE = 0 ∧ v.mgt.requested = false ∧
    Frame [.boot, .mgt, .rep] (reportFlds ++ [.MGMT_UPDATE_STATE]) s v := by
  generalize hi : rd s .MGMT_UPDATE_IMAGE = i
  let chosen := saveSelection (setImageState s i 1) fun r => { r with tries := 3, preferred := i }
  have hexec : exec (.activateFirmware false) s = settle s (reply (setUpdate (updMgt (imageRecord chosen 1 i (flashImage chosen i).fwSvn)
      fun m => { m with requested := false, passed := false, written := none }) 0) 2 0x1A []) := by
    show execActivateFirmware false s = _
    rw [execActivateFirmware, if_neg (by simp [hup]), if_neg (by simp [hstate]), updateImage, hi]
  have hchosen : Within [.boot] [] s chosen := (within_setImageState s i 1).trans (within_saveSelection _ _)
  have hrecord := within_imageRecord chosen 1 i (flashImage chosen i).fwSvn
  have hboot : (imageRecord chosen 1 i (flashImage chosen i).fwSvn).boot = chosen.boot := hrecord.parts .boot (by simp)
  have himage : imageState chosen i = 1 := imageState_setImageState s i 1
  have hselection : liveSelection (imageRecord chosen 1 i (flashImage chosen i).fwSvn) = liveSelection chosen := by
    rw [liveSelection, hboot]
    rfl
  have hall := (hchosen.append hrecord)
  have hlive : (liveSelection chosen).tries = 3 ∧ (liveSelection chosen).preferred = i := ⟨rfl, rfl⟩
  clear_value chosen
  generalize imageRecord chosen 1 i (flashImage chosen i).fwSvn = u at *
  have hend := ((hall.append (within_mgt u fun m => { m with requested := false, passed := false, written := none })).append
    (within_setUpdate _ 0)).append (within_reply _ 2 0x1A [])
  refine runs_of_settle hexec ⟨(imageState_congr hboot i).trans himage, ?_, ?_, ?_, rfl, (hend.mono (by simp) (by simp)).settled⟩
  · exact (congrArg Selection.tries hselection).trans hlive.1
  · exact (congrArg Selection.preferred hselection).trans hlive.2
  · rw [rd_settled_other _ _ _ _ (by decide)]
    exact rd_wr_same _ .MGMT_UPDATE_STATE 0 0

theorem cancelUpdateComponent_runs (hstate : rd s .MGMT_UPDATE_STATE ≠ 0) : Runs .cancelUpdateComponent s fun v =>
    imageState v (rd s .MGMT_UPDATE_IMAGE) = 0 ∧ rd v .MGMT_UPDATE_STATE = 0 ∧ v.mgt.requested = s.mgt.requested ∧
    Frame [.boot, .mgt, .rep] (reportFlds ++ [.MGMT_UPDATE_STATE]) s v := by
  refine (cancels_runs (cmd := 0x1C) (fun m => { m with written := none }) ?_).imp
    fun v ⟨hinvalid, hnone, hmgt, hkept⟩ => ⟨hinvalid, hnone, by rw [hmgt], hkept⟩
  show execCancelUpdateComponent s = _
  rw [execCancelUpdateComponent, if_neg (by simp [hup]), if_neg hstate]

theorem cancelUpdate_runs (h : s.mgt.requested = true) : Runs .cancelUpdate s fun v =>
    imageState v (rd s .MGMT_UPDATE_IMAGE) = 0 ∧ rd v .MGMT_UPDATE_STATE = 0 ∧ v.mgt.requested = false ∧
    Frame [.boot, .mgt, .rep] (reportFlds ++ [.MGMT_UPDATE_STATE]) s v := by
  refine (cancels_runs (cmd := 0x1D) (fun m => { m with requested := false, passed := false, written := none }) ?_).imp
    fun v ⟨hinvalid, hnone, hmgt, hkept⟩ => ⟨hinvalid, hnone, by rw [hmgt], hkept⟩
  show execCancelUpdate s = _
  rw [execCancelUpdate, if_neg (by simp [hup]), if_neg (by simp [h])]

end Port

/-! A transferred image (R419) -/

/-- The transferred image is in flash. -/
def imageWritten (s : State) (img : FlashImage) : State :=
  updMgt (updBoot s fun b => { b with images := b.images.set (updateImage s) img }) fun m => { m with written := some img }

/-- Whether the check of a transferred image fails. -/
def imageRefused (s : State) (w : FlashWrite) : Bool :=
  let img := flashOf s w
  let r := liveSelection s
  !w.signed || !rootTrusted w.bytes || decide (img.rootKey < r.rootKey) || decide (img.fwSvn < r.minFw) || decide (img.bpSvn < r.minBp)

theorem exec_fwTransferComplete (hstate : rd s .MGMT_UPDATE_STATE = 1) (w : FlashWrite) : exec (.fwTransferComplete w) s = settle s
    (reply (setUpdate (if imageRefused s w then spoilImage (imageWritten s (flashOf s w)) else imageWritten s (flashOf s w))
      (if imageRefused s w then 4 else 3)) 2 0x17 [b2n (imageRefused s w)]) := by
  show execFwTransferComplete w s = _
  rw [execFwTransferComplete, if_neg (by simp [hstate])]
  rfl

theorem within_imageWritten (s : State) (img : FlashImage) : Within [.boot, .mgt] [] s (imageWritten s img) :=
  (within_boot s _).append (within_mgt _ _)

theorem fwTransferComplete_takes {w : FlashWrite} (hstate : rd s .MGMT_UPDATE_STATE = 1)
    (hi : rd s .MGMT_UPDATE_IMAGE < s.boot.images.length) (hgood : imageRefused s w = false) : Runs (.fwTransferComplete w) s fun v =>
      flashImage v (rd s .MGMT_UPDATE_IMAGE) = flashOf s w ∧ rd v .MGMT_UPDATE_STATE = 3 ∧
      v.rep.outs = s.rep.outs ++ [.answer 2 0x17 0 [0]] ∧ KeptBut [.boot, .mgt, .rep] s v ∧ RegsKept [(.MGMT_UPDATE_STATE, 0)] s v := by
  have hexec := exec_fwTransferComplete hstate w
  rw [hgood] at hexec
  have hflash : flashImage (imageWritten s (flashOf s w)) (rd s .MGMT_UPDATE_IMAGE) = flashOf s w := by
    simp [flashImage, imageWritten, updateImage, List.getD_eq_getElem?_getD, List.getElem?_set_self hi]
  have hwritten := within_imageWritten s (flashOf s w)
  have houts : (imageWritten s (flashOf s w)).rep.outs = s.rep.outs := rfl
  generalize imageWritten s (flashOf s w) = u at *
  have hall := (hwritten.toWithinAt.trans (withinAt_wr u .MGMT_UPDATE_STATE 0 3)).trans (within_reply _ 2 0x17 [0]).toWithinAt
  refine runs_of_settle (t := reply (setUpdate u 3) 2 0x17 [0]) hexec ⟨hflash, ?_, congrArg (· ++ _) houts, hall.settled⟩
  rw [rd_settled_other _ _ _ _ (by decide)]
  exact rd_wr_same u .MGMT_UPDATE_STATE 0 3

theorem fwTransferComplete_refuses {w : FlashWrite} (hstate : rd s .MGMT_UPDATE_STATE = 1) (hbad : imageRefused s w = true) :
    Runs (.fwTransferComplete w) s fun v =>
      imageState v (rd s .MGMT_UPDATE_IMAGE) = 0 ∧ rd v .MGMT_UPDATE_STATE = 4 ∧
      Frame [.boot, .mgt, .rep] (reportFlds ++ [.MGMT_UPDATE_STATE]) s v := by
  have hexec := exec_fwTransferComplete hstate w
  rw [hbad] at hexec
  have hwritten := within_imageWritten s (flashOf s w)
  have himage : updateImage (imageWritten s (flashOf s w)) = rd s .MGMT_UPDATE_IMAGE := hwritten.regs _ _ (by simp)
  have hspoiled := imageState_spoilImage (imageWritten s (flashOf s w))
  have hall := hwritten.append (within_spoilImage (imageWritten s (flashOf s w)))
  rw [himage] at hspoiled
  simp only [if_true] at hexec
  generalize spoilImage (imageWritten s (flashOf s w)) = u at *
  have hend := (hall.append (within_setUpdate u 4)).append (within_reply _ 2 0x17 [b2n true])
  refine runs_of_settle hexec ⟨(imageState_congr rfl _).trans hspoiled, ?_, (hend.mono (by simp) (by simp)).settled⟩
  rw [rd_settled_other _ _ _ _ (by decide)]
  exact rd_wr_same u .MGMT_UPDATE_STATE 0 4

end Sys2Proof.Machine
end


section
/-! O60: SPDM and IDE_KM over the DOE mailbox (R393, R394, R399), and the management port as a whole. -/

namespace Sys2Proof.Machine

variable {s u : State} {c : Instr} {n set : Nat}

/-! Streams (R393) -/

theorem ideStream_setStream_same (s : State) (n : Nat) (x : IdeStream) : ideStream (setStream s n x) n = x := storeGet_put_same _ _ _ _

theorem ideStream_setStream_other (s : State) {n m : Nat} (x : IdeStream) (h : m ≠ n) : ideStream (setStream s n x) m = ideStream s m :=
  storeGet_put_other _ _ _ _ h

theorem within_setStream (s : State) (n : Nat) (x : IdeStream) : Within [.mgt] [] s (setStream s n x) := within_mgt s _

section Mailbox
variable (hlink : rd s .PCIE_LINK_UP = 1) (hmaster : 0 ∉ s.ctxs.noMaster)
include hlink hmaster

/-! SPDM (R399) -/

theorem spdmStep_steps {cmd to_ : Nat} {from_ fs : List Nat} (h : s.mgt.spdm ∈ from_) :
    spdmStep s cmd true from_ to_ fs = reply (updMgt s fun m => { m with spdm := to_ }) 3 cmd fs := by
  unfold spdmStep
  rw [if_neg (by simp [rdb_of_one hlink, hmaster]), if_pos (by simp [h])]

/-- A step of the exchange, from the state that allows it. -/
theorem spdm_runs {cmd to_ : Nat} {from_ fs : List Nat} (h : s.mgt.spdm ∈ from_)
    (hexec : exec c s = settle s (spdmStep s cmd true from_ to_ fs)) : Runs c s fun v =>
      v.mgt.spdm = to_ ∧ v.rep.outs = s.rep.outs ++ [.answer 3 cmd 0 fs] ∧ KeptBut [.mgt, .rep] s v ∧ RegsKept [] s v := by
  rw [spdmStep_steps hlink hmaster h] at hexec
  have hall := (within_mgt s fun m => { m with spdm := to_ }).append (within_reply _ 3 cmd fs)
  exact runs_of_settle hexec ⟨rfl, rfl, hall.toWithinAt.settled⟩

theorem spdm_requests (from_ to_ cmd : Nat) (fs : List Nat) (h : (c, from_, to_, cmd, fs) ∈
    (List.range 6).map (fun i => (Instr.getVersion, i, 1, 0x84, [0x13])) ++ [(.negotiateAlgorithms true, 2, 3, 0xE3, []),
     (.pskFinish true, 4, 5, 0xE7, []), (.endSession, 5, 3, 0xEC, [])] ++
    (if (storeFind s.ctxs.keys 3).isSome then [(Instr.pskExchange true, 3, 4, 0xE6, [])] else []))
    (hfrom : s.mgt.spdm = from_) : Runs c s fun v =>
      v.mgt.spdm = to_ ∧ v.rep.outs = s.rep.outs ++ [.answer 3 cmd 0 fs] ∧ KeptBut [.mgt, .rep] s v ∧ RegsKept [] s v := by
  rcases List.mem_append.mp h with h | h
  · rcases List.mem_append.mp h with h | h
    · obtain ⟨i, hi, heq⟩ := List.mem_map.mp h
      simp only [Prod.mk.injEq] at heq
      obtain ⟨rfl, rfl, rfl, rfl, rfl⟩ := heq
      have hsix : i < 6 := List.mem_range.mp hi
      exact spdm_runs hlink hmaster (from_ := [0, 1, 2, 3, 4, 5]) (by rw [hfrom]; simp; omega) rfl
    · simp only [List.mem_cons, List.not_mem_nil, or_false, Prod.mk.injEq] at h
      rcases h with h | h | h <;> obtain ⟨rfl, rfl, rfl, rfl, rfl⟩ := h
      · exact spdm_runs hlink hmaster (from_ := [2]) (by simp [hfrom]) rfl
      · exact spdm_runs hlink hmaster (from_ := [4]) (by simp [hfrom]) rfl
      · exact spdm_runs hlink hmaster (from_ := [5]) (by simp [hfrom]) rfl
  · split at h
    · next hkey =>
      simp only [List.mem_cons, List.not_mem_nil, or_false, Prod.mk.injEq] at h
      obtain ⟨rfl, rfl, rfl, rfl, rfl⟩ := h
      refine spdm_runs hlink hmaster (from_ := [3]) (by simp [hfrom]) ?_
      show execPskExchange true s = _
      rw [execPskExchange, hkey]
      rfl
    · simp at h

theorem getCapabilities_runs (h : s.mgt.spdm = 1) : Runs .getCapabilities s fun v =>
    v.mgt.spdm = 2 ∧ (∃ x, v.rep.outs = s.rep.outs ++ [.answer 3 0xE1 0 [x]]) ∧ KeptBut [.free, .mgt, .rep] s v ∧ RegsKept [] s v := by
  have hfree := within_takeFree s 32
  have hexec : exec .getCapabilities s = settle s (reply (updMgt (takeFree s 32).2 fun m => { m with spdm := 2 }) 3 0xE1 [(takeFree s 32).1]) := by
    show settle s (spdmStep (takeFree s 32).2 0xE1 true [1] 2 [(takeFree s 32).1]) = _
    rw [spdmStep_steps (s := (takeFree s 32).2) hlink hmaster (List.mem_singleton.mpr h)]
  have hall := (hfree.append (within_mgt _ fun m => { m with spdm := 2 })).append (within_reply _ 3 0xE1 [(takeFree s 32).1])
  exact runs_of_settle hexec ⟨rfl, ⟨_, rfl⟩, hall.toWithinAt.settled⟩

/-! IDE_KM (R393, R394) -/

variable (hsecured : s.mgt.spdm = 5) (hpos : 1 ≤ n) (hlt : n < 64) (hset : set < 2)
include hsecured hpos hlt hset

theorem ideRequest_runs {cmd : Nat} {ok : Bool} (hok : ok = true) (f : State → State) :
    ideRequest s cmd n set ok f = reply (f s) 3 cmd [] := by
  unfold ideRequest
  rw [if_neg (by simp [rdb_of_one hlink, hmaster]), if_pos ⟨hsecured, hpos, hlt, hset, hok⟩]

theorem keyProg_runs {sub : Nat} (rx : Bool) (hsub : sub < 3) (hidle : (ideStream s n).active ≠ some set) :
    Runs (.keyProg n set sub rx) s fun v =>
      set * 8 + sub + (if rx then 3 else 0) ∈ (ideStream v n).programmed ∧ (∀ m, m ≠ n → ideStream v m = ideStream s m) ∧
      v.rep.outs = s.rep.outs ++ [.answer 3 2 0 []] ∧ KeptBut [.mgt, .rep] s v ∧ RegsKept [] s v := by
  let k := set * 8 + sub + 3 * b2n rx
  have hk : set * 8 + sub + (if rx then 3 else 0) = k := by cases rx <;> rfl
  let x : IdeStream := { ideStream s n with programmed := (ideStream s n).programmed.filter (· != k) ++ [k] }
  have hexec : exec (.keyProg n set sub rx) s = settle s (reply (setStream s n x) 3 2 []) := by
    show execKeyProg n set sub rx s = _
    unfold execKeyProg
    dsimp only
    rw [ideRequest_runs hlink hmaster hsecured hpos hlt hset (by simp [hsub, hidle])]
  have hall := (within_setStream s n x).append (within_reply (setStream s n x) 3 2 [])
  refine runs_of_settle hexec ⟨?_, fun m hm => ideStream_setStream_other s x hm, rfl, hall.toWithinAt.settled⟩
  rw [hk]
  have hstream : ideStream (settled s (reply (setStream s n x) 3 2 [])) n = x := ideStream_setStream_same s n x
  rw [hstream]
  exact List.mem_append_right _ (List.mem_singleton_self k)

theorem kSetGo_runs (hprog : ∀ i, i < 6 → set * 8 + i ∈ (ideStream s n).programmed) : Runs (.kSetGo n set) s fun v =>
    (ideStream v n).active = some set ∧ rd v .CTX_STATE_IDE_READY n = 1 ∧ rd v .CTXWIN_INFO_IDE_READY n = 1 ∧
    KeptBut [.mgt, .rep] s v ∧ RegsKept [(.CTX_STATE_IDE_READY, n), (.CTXWIN_INFO_IDE_READY, n)] s v := by
  let x : IdeStream := ⟨(ideStream s n).programmed.filter (fun k => k / 8 == set), some set⟩
  have hexec : exec (.kSetGo n set) s = settle s
      (reply (wr (wr (setStream s n x) .CTX_STATE_IDE_READY n 1) .CTXWIN_INFO_IDE_READY n 1) 3 4 []) := by
    show execKSetGo n set s = _
    unfold execKSetGo
    dsimp only
    rw [ideRequest_runs hlink hmaster hsecured hpos hlt hset (by simpa using hprog)]
  have hall := (((within_setStream s n x).toWithinAt.trans (withinAt_wr _ .CTX_STATE_IDE_READY n 1)).trans
    (withinAt_wr _ .CTXWIN_INFO_IDE_READY n 1)).trans (within_reply _ 3 4 []).toWithinAt
  refine runs_of_settle hexec ⟨?_, ?_, ?_, hall.settled⟩
  · have hstream : ideStream (settled s (reply (wr (wr (setStream s n x) .CTX_STATE_IDE_READY n 1) .CTXWIN_INFO_IDE_READY n 1) 3 4 [])) n = x :=
      ideStream_setStream_same s n x
    rw [hstream]
  · rw [rd_settled_other _ _ _ _ (by decide)]
    exact (rd_wr_ne _ .CTXWIN_INFO_IDE_READY .CTX_STATE_IDE_READY n n 1 (by simp)).trans (rd_wr_same _ .CTX_STATE_IDE_READY n 1)
  · rw [rd_settled_other _ _ _ _ (by decide)]
    exact rd_wr_same _ .CTXWIN_INFO_IDE_READY n 1

/-- The keys of a set are gone. -/
def setStopped (s : State) (n set : Nat) : State :=
  setStream s n { ideStream s n with programmed := (ideStream s n).programmed.filter (fun k => k / 8 != set) }

theorem exec_kSetStop : exec (.kSetStop n set) s = settle s (reply
    (if (ideStream s n).active = some set then ideDown (setStopped s n set) n else setStopped s n set) 3 5 []) := by
  show execKSetStop n set s = _
  unfold execKSetStop
  dsimp only
  rw [ideRequest_runs hlink hmaster hsecured hpos hlt hset rfl]
  rfl

theorem kSetStop_idle (hidle : (ideStream s n).active ≠ some set) : Runs (.kSetStop n set) s fun v =>
    (∀ k ∈ (ideStream v n).programmed, k / 8 ≠ set) ∧ KeptBut [.mgt, .rep] s v ∧ RegsKept [] s v := by
  have hexec := exec_kSetStop hlink hmaster hsecured hpos hlt hset
  rw [if_neg hidle] at hexec
  have hall := (within_setStream s n _ : Within [.mgt] [] s (setStopped s n set)).append
    (within_reply (setStopped s n set) 3 5 [])
  refine runs_of_settle hexec ⟨fun k hk => ?_, hall.toWithinAt.settled⟩
  have hstream : ideStream (settled s (reply (setStopped s n set) 3 5 [])) n = _ := ideStream_setStream_same s n _
  rw [hstream] at hk
  simpa using (List.mem_filter.mp hk).2

theorem kSetStop_inUse (huse : (ideStream s n).active = some set) : Runs (.kSetStop n set) s fun v =>
    rd v .CTX_STATE_IDE_READY n = 0 ∧ v.mem = s.mem ∧ (confGranted s n = true → rd v .CTX_STATE_STATE n = 3) := by
  have hexec := exec_kSetStop hlink hmaster hsecured hpos hlt hset
  rw [if_pos huse, ideDown_eq] at hexec
  have hlost := withinAt_streamLost (setStopped s n set) n
  have hready : rd (streamLost (setStopped s n set) n) .CTX_STATE_IDE_READY n = 0 := by simp [streamLost, rd_wr]
  have hmem : (streamLost (setStopped s n set) n).mem = s.mem := hlost.parts .mem (by simp)
  have hstate : ∀ d, rd (streamLost (setStopped s n set) n) .CTX_STATE_STATE d = rd s .CTX_STATE_STATE d :=
    fun d => hlost.regs _ _ (by simp)
  have hsame : confGranted (setStopped s n set) n = confGranted s n := rfl
  rw [hsame] at hexec
  generalize streamLost (setStopped s n set) n = u at *
  have hreply : ∀ (w : State) (f : Fld), f ∉ viewFlds → rd (settled s (reply w 3 5 [])) f n = rd (settled s w) f n := fun w f hf => by
    rw [rd_settled_other _ _ _ _ hf, rd_settled_other _ _ _ _ hf]
    rfl
  by_cases hconf : confGranted s n = true
  · rw [if_pos hconf] at hexec
    obtain ⟨htearing, -, hmemory, -, -, hdown⟩ := tearsDown hconf hmem hstate
    refine runs_of_settle hexec ⟨?_, hmemory, fun _ => ?_⟩
    · rw [hreply _ _ (by decide), hdown, hready]
    · rw [hreply _ _ (by decide), htearing]
  · rw [if_neg hconf] at hexec
    refine runs_of_settle hexec ⟨?_, hmem, fun h => absurd h hconf⟩
    rw [hreply _ _ (by decide), rd_settled_other _ _ _ _ (by decide), hready]

end Mailbox

/-! The obligation -/

theorem portUp_iff (s : State) : portUp s = true ↔ rd s .MGMT_I3C_ADDR_VALID = 1 := by simp [portUp, rdb]

theorem monitorUp_of (hvalid : rd s .MGMT_I3C_ADDR_VALID = 1) (hrecovery : rd s .BOOT_STATUS_RECOVERY ≠ 1) : monitorUp s = true := by
  simp [monitorUp, portUp, rdb_of_one hvalid, rdb_of_ne_one hrecovery]

/-- Settles O60: a request is answered as its state allows (`port_answers`, `port_answersFree`); a transferred image is taken or refused
(`fwTransferComplete_takes`, `fwTransferComplete_refuses`); and the DOE mailbox steps through its exchanges (`spdm_requests`). -/
theorem managementRuns : Obligations.ManagementRuns := by
  refine ⟨fun s addr h => entdaa_runs h addr, fun s hvalid => ?_, fun s hvalid i hi => ?_, fun s hlink hmaster => ?_⟩
  · have hup := (portUp_iff s).mpr hvalid
    refine ⟨fun c proto cmd fs h => answers_runs (port_answers hup proto cmd fs h), fun type c proto cmd fs h => ?_,
      fun x hnull hall => ⟨setEndpointId_runs hup hnull hall, setTid_runs hup hnull hall⟩, fun hrecovery => ?_⟩
    · obtain ⟨width, hexec⟩ := port_answersFree hup type proto cmd fs h
      exact answersFree_runs hexec
    · have hmon := monitorUp_of hvalid hrecovery
      exact ⟨fun h hpos hlast => getPdr_runs hmon hpos hlast, getPdrRepositoryInfo_runs hmon, fun n x hx => getSensorReading_runs hmon hx,
        fun n hn => getStateSensorReadings_runs hmon hn, fun t x hlo hhi => moduleCapEffecter_sets hmon t hlo hhi,
        fun t h => wakeEffecter_exits hmon t h, fun t h htarget => wakeEffecter_pends hmon t h htarget,
        fun t h htarget => wakeEffecter_ignored hmon t h htarget, fun t h => resetEffecter_rejected hmon t h,
        fun t hidle hnone hlow => heldReset_runs hnone hlow (exec_resetEffecter_idle hmon t hidle) (within_reply _ _ _ _),
        fun t x hx => moduleCapEffecter_ignores hmon t hx, fun hq => poll_empty hmon hq,
        fun c q hq hheld => poll_collects hmon hq (Or.inl hheld), fun c q e hq hheld hreceiver => poll_waits hmon hq hheld hreceiver,
        fun t hidle hnone hawake => warmBegins_runs hnone hawake (exec_resetEffecter_idle hmon t hidle) (within_reply _ _ _ _),
        fun t eid => setEventReceiver_runs hmon t eid, fun c q hq hreceiver =>
          (poll_collects hmon hq (Or.inr hreceiver)).imp fun v ⟨hrest, _, houts, hkept⟩ => ⟨hrest, houts, hkept⟩⟩
  · subst hi
    have hup := (portUp_iff s).mpr hvalid
    refine ⟨fun h => requestUpdate_runs hup h, fun h hstate => passComponentTable_runs hup h hstate,
      fun h hpassed hstate _ => updateComponent_runs hup h hpassed hstate, fun w img himg hstate hlt sel hsel => ?_,
      fun hstate _ => activateFirmware_runs hup hstate, fun hstate _ => cancelUpdateComponent_runs hup hstate,
      fun h _ => cancelUpdate_runs hup h⟩
    subst himg hsel
    refine ⟨fun hsigned hroot hkey hfw hbp => fwTransferComplete_takes hstate hlt ?_, fun hbad _ => fwTransferComplete_refuses hstate ?_⟩
    · simp [imageRefused, hsigned, hroot, hkey, hfw, hbp]
    · simpa [imageRefused, or_assoc] using hbad
  · refine ⟨fun c from_ to_ cmd fs h hfrom => spdm_requests hlink hmaster from_ to_ cmd fs h hfrom,
      fun h => getCapabilities_runs hlink hmaster h, fun hsecured n set hpos hlt hset => ?_⟩
    exact ⟨fun sub rx hsub hidle => keyProg_runs hlink hmaster hsecured hpos hlt hset rx hsub hidle,
      fun hprog => kSetGo_runs hlink hmaster hsecured hpos hlt hset hprog,
      fun hidle => kSetStop_idle hlink hmaster hsecured hpos hlt hset hidle,
      fun huse => kSetStop_inUse hlink hmaster hsecured hpos hlt hset huse⟩

end Sys2Proof.Machine
end


section
/-! O55: SYNC and the choice of the upstream (R350 to R352). -/

namespace Sys2Proof.Machine

variable {s u : State} {t l : Nat}

/-! What Cadence's operations change -/

theorem within_cadenceRecord (s : State) (event : Nat) : Within [.rep] reportFlds s (cadenceRecord s event) := within_report s _ _ _ _ _ _

/-- Cadence's operations change these fields at most, leave the links, and never set the time back. -/
structure CadenceStep (fs : List Fld) (s v : State) : Prop where
  within : Within [.fab, .now, .rep] (reportFlds ++ fs) s v
  links : v.fab.links = s.fab.links
  later : s.now ≤ v.now

theorem CadenceStep.refl {fs : List Fld} (s : State) : CadenceStep fs s s := ⟨Within.refl _ _ s, rfl, Nat.le_refl _⟩

theorem CadenceStep.trans {fs : List Fld} {v : State} (h : CadenceStep fs s u) (k : CadenceStep fs u v) : CadenceStep fs s v :=
  ⟨h.within.trans k.within, k.links.trans h.links, Nat.le_trans h.later k.later⟩

theorem CadenceStep.mono {fs gs : List Fld} (h : CadenceStep fs s u) (hf : fs ⊆ gs) : CadenceStep gs s u :=
  ⟨h.within.mono (List.Subset.refl _) (List.append_subset.mpr ⟨List.subset_append_left _ _, fun _ hg => List.mem_append_right _ (hf hg)⟩),
    h.links, h.later⟩

theorem cadence_wr {fs : List Fld} {f : Fld} (hf : f ∈ fs) (s : State) (n v : Nat) : CadenceStep fs s (wr s f n v) :=
  ⟨(within_wr s f n v).mono (List.nil_subset _) fun g hg => by
    rw [List.mem_singleton.mp hg]
    exact List.mem_append_right _ hf, rfl, Nat.le_refl _⟩

theorem cadence_record {fs : List Fld} (s : State) (event : Nat) : CadenceStep fs s (cadenceRecord s event) := by
  have h := within_cadenceRecord s event
  have hfab : (cadenceRecord s event).fab = s.fab := h.parts .fab (by simp)
  have hnow : (cadenceRecord s event).now = s.now := h.parts .now (by simp)
  exact ⟨h.mono (by simp) (List.subset_append_left _ _), by rw [hfab], by rw [hnow]⟩

theorem cadence_fab {fs : List Fld} {f : Fabric → Fabric} (hf : (f s.fab).links = s.fab.links) : CadenceStep fs s (updFab s f) :=
  ⟨(within_fab s f).mono (by simp) (by simp), hf, Nat.le_refl _⟩

theorem cadence_ite {fs : List Fld} {p : Prop} [Decidable p] {v : State} (h : CadenceStep fs s u) (k : CadenceStep fs s v) :
    CadenceStep fs s (if p then u else v) := by
  split
  · exact h
  · exact k

/-! The choice of the upstream (R350, R352) -/

/-- The upstream as its registers show it, and whether it is too far. -/
def upstreamShown (s : State) (l : Nat) : State :=
  wr (wr (wr (wr s .SPOKE_CAD_UPSTREAM_LINK 0 l) .SPOKE_CAD_UPSTREAM_HOPS 0 (min 63 ((linkOf s l).syncHops + 1)))
    .SPOKE_CAD_UPSTREAM_GM 0 (linkOf s l).syncGm) .SPOKE_FAB_STATUS_HOPS_EXCEEDED 0 (b2n (decide (24 < (linkOf s l).syncHops + 1)))

theorem cadence_upstreamShown (s : State) (l : Nat) : CadenceStep cadenceFlds s (upstreamShown s l) :=
  (((cadence_wr (by decide) s _ _).trans (cadence_wr (by decide) _ _ _)).trans (cadence_wr (by decide) _ _ _)).trans
    (cadence_wr (by decide) _ _ _)

theorem rd_upstreamShown (s : State) (l : Nat) : rd (upstreamShown s l) .SPOKE_CAD_UPSTREAM_LINK = l ∧
    rd (upstreamShown s l) .SPOKE_CAD_UPSTREAM_HOPS = min 63 ((linkOf s l).syncHops + 1) ∧
    rd (upstreamShown s l) .SPOKE_CAD_UPSTREAM_GM = (linkOf s l).syncGm := by
  refine ⟨?_, ?_, ?_⟩ <;> simp [upstreamShown, rd_wr]

/-- The upstream is taken, and reported where that is new. -/
theorem chooseUpstream_of_some (h : bestUpstream s = some l) : ∃ p q : Prop, ∃ (_ : Decidable p) (_ : Decidable q), chooseUpstream s =
    (let v := if p then cadenceRecord (upstreamShown s l) 6 else upstreamShown s l
     if q then v else cadenceRecord (updFab v fun f => { f with cadGood := 0, holdSince := none }) 5) := by
  unfold chooseUpstream
  rw [h]
  exact ⟨_, _, _, _, rfl⟩

theorem chooseUpstream_takes (h : bestUpstream s = some l) : CadenceStep cadenceFlds s (chooseUpstream s) ∧ (chooseUpstream s).now = s.now ∧
    rd (chooseUpstream s) .SPOKE_CAD_UPSTREAM_LINK = l ∧
    rd (chooseUpstream s) .SPOKE_CAD_UPSTREAM_HOPS = min 63 ((linkOf s l).syncHops + 1) ∧
    rd (chooseUpstream s) .SPOKE_CAD_UPSTREAM_GM = (linkOf s l).syncGm := by
  obtain ⟨p, q, _, _, heq⟩ := chooseUpstream_of_some h
  have hshown := cadence_upstreamShown s l
  obtain ⟨hlink, hhops, hgm⟩ := rd_upstreamShown s l
  have hnow : (upstreamShown s l).now = s.now := rfl
  rw [heq]
  generalize upstreamShown s l = u at *
  have hfirst : Within [.rep] reportFlds u (if p then cadenceRecord u 6 else u) := by
    split
    · exact within_cadenceRecord u 6
    · exact Within.refl _ _ u
  extract_lets v
  have hv : Within [.rep] reportFlds u v := hfirst
  have hrest : Within [.fab, .rep] reportFlds v
      (if q then v else cadenceRecord (updFab v fun f => { f with cadGood := 0, holdSince := none }) 5) := by
    split
    · exact Within.refl _ _ v
    · exact ((within_fab v _).append (within_cadenceRecord _ 5)).mono (by simp) (by simp)
  have hall := hv.append hrest
  have hchosen : CadenceStep cadenceFlds u v := cadence_ite (cadence_record u 6) (CadenceStep.refl u)
  refine ⟨(hshown.trans hchosen).trans (cadence_ite (CadenceStep.refl v)
    ((cadence_fab rfl).trans (cadence_record _ 5))), Eq.trans (hall.parts .now (by simp)) hnow, ?_, ?_, ?_⟩
  all_goals rw [hall.regs _ _ (by decide)]
  · exact hlink
  · exact hhops
  · exact hgm

/-- With no upstream left the module holds over. -/
theorem chooseUpstream_holds (h : bestUpstream s = none) (hfollowed : rd s .SPOKE_CAD_UPSTREAM_LINK ≠ 7) : chooseUpstream s =
    cadenceRecord (updFab (wr (wr s .SPOKE_CAD_UPSTREAM_LINK 0 7) .SPOKE_FAB_STATUS_CAD_STATE 0 3) fun f =>
      { f with holdSince := some s.now, cadGood := 0 }) 2 := by
  unfold chooseUpstream
  rw [h]
  dsimp only
  rw [if_neg hfollowed]

theorem cadence_chooseUpstream (s : State) : CadenceStep cadenceFlds s (chooseUpstream s) ∧ (chooseUpstream s).now = s.now := by
  cases h : bestUpstream s with
  | some l =>
    obtain ⟨hstep, hnow, -⟩ := chooseUpstream_takes h
    exact ⟨hstep, hnow⟩
  | none =>
    by_cases hfollowed : rd s .SPOKE_CAD_UPSTREAM_LINK = 7
    · have hsame : chooseUpstream s = s := by
        unfold chooseUpstream
        rw [h]
        exact if_pos hfollowed
      rw [hsame]
      exact ⟨CadenceStep.refl s, rfl⟩
    · rw [chooseUpstream_holds h hfollowed]
      have hset : CadenceStep cadenceFlds s (wr (wr s .SPOKE_CAD_UPSTREAM_LINK 0 7) .SPOKE_FAB_STATUS_CAD_STATE 0 3) :=
        (cadence_wr (by decide) s _ _).trans (cadence_wr (by decide) _ _ _)
      exact ⟨(hset.trans (cadence_fab rfl)).trans (cadence_record _ 2), (within_cadenceRecord _ 2).parts .now (by simp)⟩

/-! An offset from the upstream (R350, R352) -/

/-- What follows the write of the offset leaves it. -/
theorem cadence_takeOffset (s : State) (off : Int) :
    CadenceStep [.SPOKE_FAB_STATUS_CAD_STATE] (wr s .SPOKE_CAD_OFFSET 0 (off % 4294967296).toNat) (takeOffset s off) := by
  unfold takeOffset
  extract_lets st u n v joining w x
  have hstate : ∀ (y : State) (a : Nat), CadenceStep [.SPOKE_FAB_STATUS_CAD_STATE] y (wr y .SPOKE_FAB_STATUS_CAD_STATE 0 a) :=
    fun y a => cadence_wr (by simp) y _ _
  have hv : CadenceStep [.SPOKE_FAB_STATUS_CAD_STATE] u v := cadence_fab rfl
  have hx : CadenceStep [.SPOKE_FAB_STATUS_CAD_STATE] u x :=
    (cadence_fab rfl).trans (cadence_ite (CadenceStep.refl w) (hstate w 1))
  split
  · split
    · exact hv.trans (cadence_ite (CadenceStep.refl v) ((hstate v 2).trans (cadence_record _ 1)))
    · exact hv.trans (cadence_ite (CadenceStep.refl v) (hstate v 1))
  · have hstepped : CadenceStep [.SPOKE_FAB_STATUS_CAD_STATE] x { x with now := x.now + off.toNat } :=
      ⟨⟨fun p hp => by cases p <;> first | rfl | exact absurd (by simp) hp, fun _ _ _ => rfl⟩, rfl, Nat.le_add_right _ _⟩
    exact hx.trans (cadence_ite (hstepped.trans (cadence_record _ 4)) (CadenceStep.refl x))

theorem rd_takeOffset (s : State) (off : Int) : rd (takeOffset s off) .SPOKE_CAD_OFFSET = (off % 4294967296).toNat := by
  rw [(cadence_takeOffset s off).within.regs _ _ (by decide), rd_wr_same]

theorem cadence_takeOffset_all (s : State) (off : Int) : CadenceStep cadenceFlds s (takeOffset s off) :=
  (cadence_wr (by decide) s _ _).trans ((cadence_takeOffset s off).mono (by decide))

/-! SYNC arrives and is sent (R350) -/

/-- A SYNC has arrived on a link. -/
def syncNoted (s : State) (l : Nat) (p : Packet) : State :=
  setLink s l { linkOf s l with syncHops := p.flow % 64, syncGm := p.flow / 256 % 4096, syncAt := some s.now }

/-- The offset that a SYNC gives. -/
def syncOffset (s : State) (l : Nat) (p : Packet) : Int := (4 * (p.destAddr : Int) + rd s .SPOKE_LINK_DELAY l - 4 * s.now) / 4

theorem exec_spokeSync (hl : l < 6) (hst : rd s .SPOKE_LINK_STATE_STATE l = 2) (t : Nat) (p : Packet) : exec (.spokeSync t l p) s = settle s
    (let u := chooseUpstream (syncNoted (tick s t) l p)
     if rd u .SPOKE_CAD_UPSTREAM_LINK = l then takeOffset u (syncOffset u l p) else u) := by
  show execSpokeSync t l p s = _
  unfold execSpokeSync
  dsimp only
  rw [if_neg (show ¬ ¬ (l < 6 ∧ linkUp (tick s t) l = true) from not_not.mpr ⟨hl, linkUp_of_state hst⟩)]
  rfl

theorem spokeSync_runs (hl : l < 6) (hst : rd s .SPOKE_LINK_STATE_STATE l = 2) (t : Nat) (p : Packet) : Runs (.spokeSync t l p) s fun v =>
    (linkOf v l).syncAt = some (max s.now t) ∧ (linkOf v l).syncHops = p.flow % 64 ∧ (linkOf v l).syncGm = p.flow / 256 % 4096 ∧
    s.now ≤ v.now ∧ Frame [.fab, .now, .rep] (reportFlds ++ cadenceFlds) s v := by
  have hexec := exec_spokeSync hl hst t p
  obtain ⟨hchoose, -⟩ := cadence_chooseUpstream (syncNoted (tick s t) l p)
  have hnoted : Within [.fab, .now, .rep] (reportFlds ++ cadenceFlds) s (syncNoted (tick s t) l p) :=
    ((within_tick s t).append (within_setLink (tick s t) l _)).mono (by simp) (by simp)
  have hlink : linkOf (syncNoted (tick s t) l p) l =
      { linkOf s l with syncHops := p.flow % 64, syncGm := p.flow / 256 % 4096, syncAt := some (max s.now t) } := linkOf_setLink_same _ _ _
  have hnow : s.now ≤ (syncNoted (tick s t) l p).now := Nat.le_max_left _ _
  generalize syncNoted (tick s t) l p = x at *
  extract_lets u at hexec
  have hrest : CadenceStep cadenceFlds u (if rd u .SPOKE_CAD_UPSTREAM_LINK = l then takeOffset u (syncOffset u l p) else u) :=
    cadence_ite (cadence_takeOffset_all u _) (CadenceStep.refl u)
  have hall := hchoose.trans hrest
  generalize (if rd u .SPOKE_CAD_UPSTREAM_LINK = l then takeOffset u (syncOffset u l p) else u) = v at *
  have hkept : linkOf (settled s v) l = linkOf x l := by rw [linkOf_settled, linkOf, hall.links, linkOf]
  refine runs_of_settle hexec ⟨?_, ?_, ?_, hnow.trans hall.later, (hnoted.trans hall.within).settled⟩ <;> rw [hkept, hlink]

/-- The one link that is UP is the upstream, unless its grandmaster is this module. -/
theorem bestUpstream_of_only (hl : l < 6) (hup : linkUp u l = true) (hsync : (linkOf u l).syncAt = some u.now)
    (hgm : (linkOf u l).syncGm ≠ ownAddr u) (hothers : ∀ m, m < 6 → m ≠ l → linkUp u m = false) : bestUpstream u = some l := by
  have honly : upstreamLinks u = (List.range 6).filter (fun m => decide (m = l)) := by
    refine List.filter_congr fun m hm => ?_
    by_cases h : m = l
    · subst h
      simp [hup, hsync, hgm]
    · simp [hothers m (List.mem_range.mp hm) h, h]
  have hlist : (List.range 6).filter (fun m => decide (m = l)) = [l] := by
    clear hup hsync hgm hothers honly
    revert l
    decide
  rw [bestUpstream, honly, hlist]
  rfl

theorem spokeSync_follows (hl : l < 6) (hst : rd s .SPOKE_LINK_STATE_STATE l = 2) (t : Nat) {p : Packet}
    (hgm : p.flow / 256 % 4096 ≠ ownAddr s) (hothers : ∀ m, m < 6 → m ≠ l → rd s .SPOKE_LINK_STATE_STATE m ≠ 2) :
    Runs (.spokeSync t l p) s fun v =>
      rd v .SPOKE_CAD_UPSTREAM_LINK = l ∧ rd v .SPOKE_CAD_UPSTREAM_HOPS = min 63 (p.flow % 64 + 1) ∧
      rd v .SPOKE_CAD_UPSTREAM_GM = p.flow / 256 % 4096 ∧
      rd v .SPOKE_CAD_OFFSET = ((4 * (p.destAddr : Int) + rd s .SPOKE_LINK_DELAY l - 4 * (max s.now t : Nat)) / 4 % 4294967296).toNat := by
  have hexec := exec_spokeSync hl hst t p
  have hlink : linkOf (syncNoted (tick s t) l p) l =
      { linkOf s l with syncHops := p.flow % 64, syncGm := p.flow / 256 % 4096, syncAt := some (max s.now t) } := linkOf_setLink_same _ _ _
  have hbest : bestUpstream (syncNoted (tick s t) l p) = some l := by
    refine bestUpstream_of_only hl (linkUp_of_state hst) (by rw [hlink]; rfl) (by rw [hlink]; exact hgm) fun m hm hne => ?_
    exact beq_eq_false_iff_ne.mpr (hothers m hm hne)
  obtain ⟨hstep, hnow, hup, hhops, hmaster⟩ := chooseUpstream_takes hbest
  rw [hlink] at hhops hmaster
  have hdelay : rd (chooseUpstream (syncNoted (tick s t) l p)) .SPOKE_LINK_DELAY l = rd s .SPOKE_LINK_DELAY l :=
    hstep.within.regs _ _ (by decide)
  have htime : (chooseUpstream (syncNoted (tick s t) l p)).now = max s.now t := hnow
  generalize chooseUpstream (syncNoted (tick s t) l p) = u at *
  dsimp only at hexec
  rw [if_pos hup] at hexec
  have htake := (cadence_takeOffset u (syncOffset u l p)).within
  refine runs_of_settle hexec ⟨?_, ?_, ?_, ?_⟩ <;> rw [rd_settled_other _ _ _ _ (by decide)]
  · rw [htake.regs _ _ (by decide), rd_wr_ne _ _ _ _ _ _ (by simp), hup]
  · rw [htake.regs _ _ (by decide), rd_wr_ne _ _ _ _ _ _ (by simp), hhops]
  · rw [htake.regs _ _ (by decide), rd_wr_ne _ _ _ _ _ _ (by simp), hmaster]
  · rw [rd_takeOffset, syncOffset, hdelay, htime]

end Sys2Proof.Machine
end


section
/-! O55: SYNC on a schedule, holdover (R350, R352), and draining (R361). -/

namespace Sys2Proof.Machine

variable {s u : State} {src : Src} {t l : Nat}

/-! SYNC_SEND (R350) -/

/-- The SYNC of a link, with its flow. -/
def syncPacket (s : State) (l flow : Nat) : Packet := { ctlPacket s 5 (peerOf s l) [] with destAddr := s.now, flow := flow }

theorem within_sendSync (s : State) (l flow : Nat) : Within [.rep] [] s (sendPacket s l (syncPacket s l flow)) := by
  cases hup : linkUp s l with
  | true =>
    rw [sendPacket_exempt hup rfl]
    exact within_emit s _
  | false =>
    rw [sendPacket_of_down hup]
    exact Within.refl _ _ s

theorem outsKept_sendSync (s : State) (l flow : Nat) : OutsKept s (sendPacket s l (syncPacket s l flow)) := by
  cases hup : linkUp s l with
  | true =>
    rw [sendPacket_exempt hup rfl]
    exact List.subset_append_left _ _
  | false =>
    rw [sendPacket_of_down hup]
    exact List.Subset.refl _

theorem sendSync_sends (hup : linkUp s l = true) (flow : Nat) :
    ∃ p, Out.packet l p ∈ (sendPacket s l (syncPacket s l flow)).rep.outs ∧ p.type = 5 ∧ p.destAddr = s.now := by
  rw [sendPacket_exempt hup rfl]
  exact ⟨_, List.mem_append_right _ (List.mem_singleton_self _), rfl, rfl⟩

/-- Each link that is UP sends its SYNC. -/
theorem sendSyncs_send (flow : Nat) : ∀ (ls : List Nat) (s : State),
    Within [.rep] [] s (each ls s fun x l => sendPacket x l (syncPacket x l flow)) ∧
    OutsKept s (each ls s fun x l => sendPacket x l (syncPacket x l flow)) ∧
    ∀ l ∈ ls, linkUp s l = true →
      ∃ p, Out.packet l p ∈ (each ls s fun x l => sendPacket x l (syncPacket x l flow)).rep.outs ∧ p.type = 5 ∧ p.destAddr = s.now
  | [], s => ⟨Within.refl _ _ s, List.Subset.refl _, fun l hl => absurd hl List.not_mem_nil⟩
  | k :: ls, s => by
    have hsend := within_sendSync s k flow
    obtain ⟨hwithin, houts, hsent⟩ := sendSyncs_send flow ls (sendPacket s k (syncPacket s k flow))
    refine ⟨hsend.trans hwithin, List.Subset.trans (outsKept_sendSync s k flow) houts, fun l hl hup => ?_⟩
    rcases List.mem_cons.mp hl with rfl | hl
    · obtain ⟨p, hp, hrest⟩ := sendSync_sends hup flow
      exact ⟨p, houts hp, hrest⟩
    · obtain ⟨p, hp, htype, htime⟩ := hsent l hl ((linkUp_congr (hsend.regs _ _ (by simp))).trans hup)
      exact ⟨p, hp, htype, htime.trans (hsend.parts .now (by simp))⟩

/-- The flow of the SYNCs that a module sends: its hops and grandmaster, and whether its Cadence is LOCKED. -/
def syncFlow (s : State) : Nat :=
  let up := rd s .SPOKE_CAD_UPSTREAM_LINK
  (if up = 7 then 0 else rd s .SPOKE_CAD_UPSTREAM_HOPS) + 64 * b2n (rd s .SPOKE_FAB_STATUS_CAD_STATE == 2) +
    256 * (if up = 7 then ownAddr s else rd s .SPOKE_CAD_UPSTREAM_GM)

theorem syncSend_runs (hslot : max s.now t / slotNs % 250 = 0) : Runs (.syncSend t) s fun v =>
    (∀ l, l < 6 → rd s .SPOKE_LINK_STATE_STATE l = 2 → ∃ p, .packet l p ∈ v.rep.outs ∧ p.type = 5 ∧ p.destAddr = max s.now t) ∧
    KeptBut [.now, .rep] s v ∧ RegsKept [] s v := by
  have hexec : exec (.syncSend t) s =
      settle s (each (List.range 6) (tick s t) fun x l => sendPacket x l (syncPacket x l (syncFlow (tick s t)))) := by
    show execSyncSend t s = _
    unfold execSyncSend
    dsimp only
    rw [if_pos (show (tick s t).now / slotNs % 250 = 0 from hslot)]
    rfl
  obtain ⟨hwithin, -, hsent⟩ := sendSyncs_send (syncFlow (tick s t)) (List.range 6) (tick s t)
  have htick : Within [.now] [] s (tick s t) := within_tick s t
  have hup : ∀ l, rd s .SPOKE_LINK_STATE_STATE l = 2 → linkUp (tick s t) l = true := fun l hst => linkUp_of_state hst
  have hnow : (tick s t).now = max s.now t := rfl
  generalize each (List.range 6) (tick s t) (fun x l => sendPacket x l (syncPacket x l (syncFlow (tick s t)))) = v at *
  rw [hnow] at hsent
  refine runs_of_settle hexec ⟨fun l hl hst => ?_, (htick.append hwithin).toWithinAt.settled⟩
  exact hsent l (List.mem_range.mpr hl) (hup l hst)

theorem syncSend_waits (hslot : max s.now t / slotNs % 250 ≠ 0) : Runs (.syncSend t) s fun v => KeptBut [.now] s v ∧ RegsKept [] s v :=
  ticks_runs (t := t) (by
    show execSyncSend t s = _
    unfold execSyncSend
    dsimp only
    rw [if_neg (show ¬ (tick s t).now / slotNs % 250 = 0 from hslot)])

/-! UPSTREAM_TIMEOUT and HOLDOVER_TIMEOUT (R352) -/

/-- The upstream of a link is lost: it is not UP, or its last SYNC is 100 µs old. -/
def upstreamLost (s : State) (l now : Nat) : Prop :=
  rd s .SPOKE_LINK_STATE_STATE l ≠ 2 ∨ ∀ a, (linkOf s l).syncAt = some a → a + 100000 ≤ now

theorem exec_upstreamTimeout (hl : rd s .SPOKE_CAD_UPSTREAM_LINK < 6)
    (hlost : upstreamLost s (rd s .SPOKE_CAD_UPSTREAM_LINK) (max s.now t)) :
    exec (.upstreamTimeout t) s = settle s (chooseUpstream (tick s t)) := by
  have hcond : linkUp (tick s t) (rd s .SPOKE_CAD_UPSTREAM_LINK) = false ∨
      (linkOf (tick s t) (rd s .SPOKE_CAD_UPSTREAM_LINK)).syncAt.all (fun a => decide (a + 100000 ≤ (tick s t).now)) = true := by
    refine hlost.imp (fun h => beq_eq_false_iff_ne.mpr h) fun h => ?_
    show (linkOf s (rd s .SPOKE_CAD_UPSTREAM_LINK)).syncAt.all _ = true
    cases hsync : (linkOf s (rd s .SPOKE_CAD_UPSTREAM_LINK)).syncAt with
    | none => rfl
    | some a => exact decide_eq_true (h a hsync)
  show execUpstreamTimeout t s = _
  unfold execUpstreamTimeout
  dsimp only
  rw [if_pos ⟨hl, hcond⟩]

theorem bestUpstream_of_lost (h : ∀ m, m < 6 → upstreamLost u m u.now) : bestUpstream u = none := by
  have hnone : upstreamLinks u = [] := by
    refine List.filter_eq_nil_iff.mpr fun m hm => ?_
    rcases h m (List.mem_range.mp hm) with hdown | hold
    · simp [linkUp, hdown]
    · cases hsync : (linkOf u m).syncAt with
      | none => simp [hsync]
      | some a =>
        have hlate := hold a hsync
        simp [hsync, show ¬ u.now < a + 100000 by omega]
  rw [bestUpstream, hnone]
  rfl

theorem upstreamTimeout_holds (hl : rd s .SPOKE_CAD_UPSTREAM_LINK < 6) (hlost : ∀ m, m < 6 → upstreamLost s m (max s.now t)) :
    Runs (.upstreamTimeout t) s fun v =>
      rd v .SPOKE_CAD_UPSTREAM_LINK = 7 ∧ rd v .SPOKE_FAB_STATUS_CAD_STATE = 3 ∧ v.fab.holdSince = some (max s.now t) ∧
      Frame [.fab, .now, .rep] (reportFlds ++ [.SPOKE_CAD_UPSTREAM_LINK, .SPOKE_FAB_STATUS_CAD_STATE]) s v := by
  have hexec := exec_upstreamTimeout hl (hlost _ hl)
  rw [chooseUpstream_holds (bestUpstream_of_lost (u := tick s t) hlost) (by rw [rd_tick]; omega)] at hexec
  have hset := ((within_tick s t).append (within_wr (tick s t) .SPOKE_CAD_UPSTREAM_LINK 0 7)).append
    (within_wr _ .SPOKE_FAB_STATUS_CAD_STATE 0 3)
  have hfab := within_fab (wr (wr (tick s t) .SPOKE_CAD_UPSTREAM_LINK 0 7) .SPOKE_FAB_STATUS_CAD_STATE 0 3) fun f =>
    { f with holdSince := some (tick s t).now, cadGood := 0 }
  have hlink : rd (wr (wr (tick s t) .SPOKE_CAD_UPSTREAM_LINK 0 7) .SPOKE_FAB_STATUS_CAD_STATE 0 3) .SPOKE_CAD_UPSTREAM_LINK = 7 := by
    simp [rd_wr]
  have hstate : rd (wr (wr (tick s t) .SPOKE_CAD_UPSTREAM_LINK 0 7) .SPOKE_FAB_STATUS_CAD_STATE 0 3) .SPOKE_FAB_STATUS_CAD_STATE = 3 := by
    simp
  generalize wr (wr (tick s t) .SPOKE_CAD_UPSTREAM_LINK 0 7) .SPOKE_FAB_STATUS_CAD_STATE 0 3 = x at *
  have hrecord := within_cadenceRecord (updFab x fun f => { f with holdSince := some (tick s t).now, cadGood := 0 }) 2
  refine runs_of_settle hexec ⟨?_, ?_, congrArg Fabric.holdSince (hrecord.parts .fab (by simp)),
    (((hset.append hfab).append hrecord).mono (by simp) (by simp)).settled⟩
  · rw [rd_settled_other _ _ _ _ (by decide), hrecord.regs _ _ (by decide), hfab.regs _ _ (by simp), hlink]
  · rw [rd_settled_other _ _ _ _ (by decide), hrecord.regs _ _ (by decide), hfab.regs _ _ (by simp), hstate]

theorem upstreamTimeout_chooses {b : Nat} (hl : rd s .SPOKE_CAD_UPSTREAM_LINK < 6)
    (hlost : upstreamLost s (rd s .SPOKE_CAD_UPSTREAM_LINK) (max s.now t)) (hbest : bestUpstream (tick s t) = some b) :
    Runs (.upstreamTimeout t) s fun v =>
      rd v .SPOKE_CAD_UPSTREAM_LINK = b ∧ rd v .SPOKE_CAD_UPSTREAM_HOPS = min 63 ((linkOf s b).syncHops + 1) ∧
      rd v .SPOKE_CAD_UPSTREAM_GM = (linkOf s b).syncGm ∧ v.now = max s.now t ∧
      Frame [.fab, .now, .rep] (reportFlds ++ cadenceFlds) s v := by
  obtain ⟨hstep, hnow, hlink, hhops, hgm⟩ := chooseUpstream_takes hbest
  refine runs_of_settle (exec_upstreamTimeout hl hlost) ⟨?_, ?_, ?_, hnow,
    (((within_tick s t).mono (by simp) (by simp)).trans hstep.within).settled⟩ <;> rw [rd_settled_other _ _ _ _ (by decide)]
  · exact hlink
  · exact hhops
  · exact hgm

theorem holdoverTimeout_runs {h : Nat} (hsince : s.fab.holdSince = some h) (hdue : h + 20000000 ≤ max s.now t)
    (hstate : rd s .SPOKE_FAB_STATUS_CAD_STATE = 3) : Runs (.holdoverTimeout t) s fun v =>
      rd v .SPOKE_FAB_STATUS_CAD_STATE = 4 ∧ Frame [.now, .rep] (reportFlds ++ [.SPOKE_FAB_STATUS_CAD_STATE]) s v := by
  have hexec : exec (.holdoverTimeout t) s = settle s (cadenceRecord (wr (tick s t) .SPOKE_FAB_STATUS_CAD_STATE 0 4) 3) := by
    show execHoldoverTimeout t s = _
    unfold execHoldoverTimeout
    dsimp only
    rw [show (tick s t).fab.holdSince = some h from hsince]
    dsimp only
    rw [if_pos (show h + 20000000 ≤ (tick s t).now ∧ rd (tick s t) .SPOKE_FAB_STATUS_CAD_STATE = 3 from ⟨hdue, hstate⟩)]
  have hset := (within_tick s t).append (within_wr (tick s t) .SPOKE_FAB_STATUS_CAD_STATE 0 4)
  have hrecord := within_cadenceRecord (wr (tick s t) .SPOKE_FAB_STATUS_CAD_STATE 0 4) 3
  refine runs_of_settle hexec ⟨?_, ((hset.append hrecord).mono (by simp) (by simp)).settled⟩
  rw [rd_settled_other _ _ _ _ (by decide), hrecord.regs _ _ (by decide), rd_wr_same]

/-! SETTLED_TIMER (R359) -/

theorem settledTimer_runs {g : Nat} (hgrant : s.fab.grantAt = some g) (hdue : g + 1000000 ≤ max s.now t) : Runs (.settledTimer t) s fun v =>
    rd v .SPOKE_FAB_STATUS_SETTLED = 1 ∧ v.fab.grantAt = none ∧ KeptBut [.fab, .now] s v ∧
    RegsKept [(.SPOKE_FAB_STATUS_SETTLED, 0)] s v := by
  have hexec : exec (.settledTimer t) s =
      settle s (updFab (wr (tick s t) .SPOKE_FAB_STATUS_SETTLED 0 1) fun f => { f with grantAt := none }) := by
    show execSettledTimer t s = _
    unfold execSettledTimer
    dsimp only
    rw [show (tick s t).fab.grantAt = some g from hgrant]
    dsimp only
    rw [if_pos (show g + 1000000 ≤ (tick s t).now from hdue)]
  have hall := ((within_tick s t).toWithinAt.trans (withinAt_wr (tick s t) .SPOKE_FAB_STATUS_SETTLED 0 1)).trans
    (within_fab _ fun f => { f with grantAt := none }).toWithinAt
  refine runs_of_settle hexec ⟨?_, rfl, (hall.mono (by simp) (by simp)).settled⟩
  rw [rd_settled_other _ _ _ _ (by decide)]
  exact rd_wr_same (tick s t) .SPOKE_FAB_STATUS_SETTLED 0 1

/-! Draining and leaving (R361) -/

/-- The module's own entry is LEFT. -/
theorem leaveFabric_leaves (s : State) : rd (leaveFabric s) .SPOKE_FAB_STATUS_STATE = 0 ∧ rd (leaveFabric s) .SPOKE_FAB_STATUS_SETTLED = 0 ∧
    rd (leaveFabric s) .EPOCH_ENTRY_STATE (ownAddr s) = 3 ∧
    rd (leaveFabric s) .EPOCH_ENTRY_EPOCH (ownAddr s) = nextEpoch (rd s .EPOCH_ENTRY_EPOCH (ownAddr s)) ∧
    (leaveFabric s).serve.draining = false := by
  unfold leaveFabric
  extract_lets a e u v
  have hu : Within [.fab, .rep] reportFlds (setEntry s a e 3) u :=
    ((within_epochRecord _ a e 3 3 a).append (within_floodEpoch _ ⟨a, e, 3, a⟩ 6)).mono (by simp) (by simp)
  have hstate : rd u .EPOCH_ENTRY_STATE a = 3 := by rw [hu.regs _ _ (by decide), setEntry, rd_wr_same]
  have hepoch : rd u .EPOCH_ENTRY_EPOCH a = e := by
    rw [hu.regs _ _ (by decide), setEntry, rd_wr_ne _ _ _ _ _ _ (by simp), rd_wr_same]
  clear_value u
  have hrecord := within_drainRecord v 3 0
  refine ⟨?_, ?_, ?_, ?_, congrArg Serving.draining (hrecord.parts .serve (by simp))⟩ <;> rw [hrecord.regs _ _ (by decide)]
  · simp [v, rd_wr]
  · simp [v]
  · refine Eq.trans ?_ hstate
    simp [v, rd_wr, a]
  · refine Eq.trans ?_ hepoch
    simp [v, rd_wr, a]

section Commands
variable (hm : isMgmt s src = true)
include hm

/-- A command of the fabric is a management write. -/
theorem fabCmd_of_mgmt (x : State) : settle s (if isMgmt s src = false then s else x) = settle s x := by
  rw [if_neg (by simp [hm])]

theorem fabDrain_starts {m : Nat} (hlt : m < 4096) (hst : rd s .SPOKE_FAB_STATUS_STATE = 2) (hne : m ≠ ownAddr s)
    (hlive : rd s .EPOCH_ENTRY_STATE m = 1) : Runs (.fabDrain src t m) s fun v =>
      rd v .SPOKE_FAB_STATUS_STATE = 3 ∧ v.fab.successor = m ∧ v.serve.draining = true ∧
      Frame [.fab, .now, .rep, .serve] (reportFlds ++ [.SPOKE_FAB_STATUS_STATE]) s v := by
  let x := updServe (updFab (wr (tick s t) .SPOKE_FAB_STATUS_STATE 0 3) fun f => { f with successor := m }) fun v => { v with draining := true }
  have hexec : exec (.fabDrain src t m) s = settle s (drainRecord x 1 0) := by
    refine (fabCmd_of_mgmt hm _).trans ?_
    rw [Nat.mod_eq_of_lt hlt, if_neg (show ¬ (rd (tick s t) .SPOKE_FAB_STATUS_STATE ≠ 2 ∨ m = ownAddr (tick s t) ∨
      entryState (tick s t) m ≠ 1) from fun h => h.elim (fun h => h hst) fun h => h.elim hne fun h => h hlive)]
  have hx : Within [.fab, .now, .rep, .serve] (reportFlds ++ [.SPOKE_FAB_STATUS_STATE]) s x :=
    ((((within_tick s t).append (within_wr (tick s t) .SPOKE_FAB_STATUS_STATE 0 3)).append (within_fab _ _)).append
      (within_serve _ _)).mono (by simp) (by simp)
  have hstate : rd x .SPOKE_FAB_STATUS_STATE = 3 := rd_wr_same (tick s t) .SPOKE_FAB_STATUS_STATE 0 3
  have hparts : x.fab.successor = m ∧ x.serve.draining = true := ⟨rfl, rfl⟩
  clear_value x
  have hrecord := within_drainRecord x 1 0
  refine runs_of_settle hexec ⟨?_, ?_, ?_, (hx.trans (hrecord.mono (by simp) (by simp))).settled⟩
  · rw [rd_settled_other _ _ _ _ (by decide), hrecord.regs _ _ (by decide), hstate]
  · exact (congrArg Fabric.successor (hrecord.parts .fab (by simp))).trans hparts.1
  · exact (congrArg Serving.draining (hrecord.parts .serve (by simp))).trans hparts.2

theorem fabDrain_rejected {m : Nat} (hlt : m < 4096)
    (h : rd s .SPOKE_FAB_STATUS_STATE ≠ 2 ∨ m = ownAddr s ∨ rd s .EPOCH_ENTRY_STATE m ≠ 1) : Runs (.fabDrain src t m) s fun v =>
      rd v .SPOKE_FAB_STATUS_CMD_REJECTED = 1 ∧ KeptBut [.now] s v ∧ RegsKept [(.SPOKE_FAB_STATUS_CMD_REJECTED, 0)] s v := by
  have hexec : exec (.fabDrain src t m) s = settle s (wr (tick s t) .SPOKE_FAB_STATUS_CMD_REJECTED 0 1) := by
    refine (fabCmd_of_mgmt hm _).trans ?_
    rw [Nat.mod_eq_of_lt hlt, if_pos (show rd (tick s t) .SPOKE_FAB_STATUS_STATE ≠ 2 ∨ m = ownAddr (tick s t) ∨
      entryState (tick s t) m ≠ 1 from h)]
    rfl
  refine runs_of_settle hexec ⟨?_, ((within_tick s t).toWithinAt.trans (withinAt_wr _ _ _ _)).settled⟩
  rw [rd_settled_other _ _ _ _ (by decide), rd_wr_same]

theorem fabCancelDrain_runs (h : rd s .SPOKE_FAB_STATUS_STATE = 3 ∨ rd s .SPOKE_FAB_STATUS_STATE = 4) : Runs (.fabCancelDrain src t) s fun v =>
    rd v .SPOKE_FAB_STATUS_STATE = 2 ∧ v.serve.draining = false ∧
    Frame [.now, .rep, .serve] (reportFlds ++ [.SPOKE_FAB_STATUS_STATE]) s v := by
  let x := updServe (wr (tick s t) .SPOKE_FAB_STATUS_STATE 0 2) fun v => { v with draining := false }
  have hexec : exec (.fabCancelDrain src t) s = settle s (drainRecord x 4 0) := by
    refine (fabCmd_of_mgmt hm _).trans ?_
    rw [if_pos (show rd (tick s t) .SPOKE_FAB_STATUS_STATE = 3 ∨ rd (tick s t) .SPOKE_FAB_STATUS_STATE = 4 from h)]
  have hx := ((within_tick s t).append (within_wr (tick s t) .SPOKE_FAB_STATUS_STATE 0 2)).append
    (within_serve _ fun v => { v with draining := false })
  have hstate : rd x .SPOKE_FAB_STATUS_STATE = 2 := rd_wr_same (tick s t) .SPOKE_FAB_STATUS_STATE 0 2
  have hrecord := within_drainRecord x 4 0
  refine runs_of_settle hexec ⟨?_, congrArg Serving.draining (hrecord.parts .serve (by simp)),
    ((hx.append hrecord).mono (by simp) (by simp)).settled⟩
  rw [rd_settled_other _ _ _ _ (by decide), hrecord.regs _ _ (by decide), hstate]

theorem fabLeave_runs (h : rd s .SPOKE_FAB_STATUS_STATE = 4) : Runs (.fabLeave src t) s fun v =>
    rd v .SPOKE_FAB_STATUS_STATE = 0 ∧ rd v .SPOKE_FAB_STATUS_SETTLED = 0 ∧ rd v .EPOCH_ENTRY_STATE (ownAddr s) = 3 ∧
    rd v .EPOCH_ENTRY_EPOCH (ownAddr s) = nextEpoch (rd s .EPOCH_ENTRY_EPOCH (ownAddr s)) ∧ v.serve.draining = false ∧
    Frame [.fab, .now, .rep, .serve] (reportFlds ++ [.EPOCH_ENTRY_EPOCH, .EPOCH_ENTRY_STATE, .SPOKE_FAB_STATUS_STATE,
      .SPOKE_FAB_STATUS_SETTLED]) s v := by
  have hexec : exec (.fabLeave src t) s = settle s (leaveFabric (tick s t)) := by
    refine (fabCmd_of_mgmt hm _).trans ?_
    rw [if_pos (show rd (tick s t) .SPOKE_FAB_STATUS_STATE = 4 from h)]
  obtain ⟨hstate, hsettled, hentry, hepoch, hdraining⟩ := leaveFabric_leaves (tick s t)
  have hall := (within_tick s t).append (within_leaveFabric (tick s t))
  refine runs_of_settle hexec ⟨?_, ?_, ?_, ?_, hdraining, (hall.mono (by simp) (by simp [leaveFlds])).settled⟩ <;>
    rw [rd_settled_other _ _ _ _ (by decide)]
  · exact hstate
  · exact hsettled
  · exact hentry
  · exact hepoch

end Commands

theorem drainComplete_runs (hst : rd s .SPOKE_FAB_STATUS_STATE = 3) (hroots : ∀ e ∈ s.lard.roots, e.2.members = [])
    (hsegments : s.fab.segments = []) (moved : Nat) : Runs (.drainComplete t moved) s fun v =>
      rd v .SPOKE_FAB_STATUS_STATE = 4 ∧ Frame [.now, .rep] (reportFlds ++ [.SPOKE_FAB_STATUS_STATE]) s v := by
  have hexec : exec (.drainComplete t moved) s = settle s (drainRecord (wr (tick s t) .SPOKE_FAB_STATUS_STATE 0 4) 2 moved) := by
    show execDrainComplete t moved s = _
    unfold execDrainComplete
    dsimp only
    rw [if_pos (show rd (tick s t) .SPOKE_FAB_STATUS_STATE = 3 ∧ (tick s t).lard.roots.all (fun e => e.2.members.isEmpty) = true ∧
      (tick s t).fab.segments = [] from ⟨hst, List.all_eq_true.mpr fun e he => by rw [hroots e he]; rfl, hsegments⟩)]
  have hset := (within_tick s t).append (within_wr (tick s t) .SPOKE_FAB_STATUS_STATE 0 4)
  have hrecord := within_drainRecord (wr (tick s t) .SPOKE_FAB_STATUS_STATE 0 4) 2 moved
  refine runs_of_settle hexec ⟨?_, ((hset.append hrecord).mono (by simp) (by simp)).settled⟩
  rw [rd_settled_other _ _ _ _ (by decide), hrecord.regs _ _ (by decide), rd_wr_same]

end Sys2Proof.Machine
end


section
/-! O55: HELLO and what it implies (R348), and the requests to join (R359). -/

namespace Sys2Proof.Machine

variable {s u : State} {t l a : Nat} {b : HelloBody} {ps : List Part} {fs : List Fld}

/-! What discovery reads -/

theorem dimSize_congr (w : Within ps fs s u)
    (hf : ∀ f ∈ [Fld.SPOKE_FAB_CFG_SIZE_X, .SPOKE_FAB_CFG_SIZE_Y, .SPOKE_FAB_CFG_SIZE_Z], f ∉ fs) (d : Nat) : dimSize u d = dimSize s d := by
  simp only [dimSize, w.regs .SPOKE_FAB_CFG_SIZE_X 0 (hf _ (by simp)), w.regs .SPOKE_FAB_CFG_SIZE_Y 0 (hf _ (by simp)),
    w.regs .SPOKE_FAB_CFG_SIZE_Z 0 (hf _ (by simp))]

theorem neighbour_congr (w : Within ps fs s u) (a l : Nat)
    (hf : ∀ f ∈ [Fld.SPOKE_FAB_CFG_SIZE_X, .SPOKE_FAB_CFG_SIZE_Y, .SPOKE_FAB_CFG_SIZE_Z, .SPOKE_FAB_CFG_WRAP], f ∉ fs := by decide) :
    neighbour u a l = neighbour s a l := by
  have hsize := dimSize_congr w fun f hm => hf f (by
    simp only [List.mem_cons, List.not_mem_nil, or_false] at hm ⊢
    tauto)
  have hstep : stepCoord u = stepCoord s := by
    funext d c up
    simp only [stepCoord, hsize, w.regs .SPOKE_FAB_CFG_WRAP 0 (hf _ (by simp))]
  unfold neighbour
  rw [hstep]

theorem implied_congr (w : Within ps fs s u) (l : Nat) (b : HelloBody)
    (hf : ∀ f ∈ [Fld.SPOKE_FAB_CFG_SIZE_X, .SPOKE_FAB_CFG_SIZE_Y, .SPOKE_FAB_CFG_SIZE_Z, .SPOKE_FAB_CFG_WRAP], f ∉ fs := by decide) :
    implied u l b = implied s l b := neighbour_congr w _ _ hf

theorem helloLive_congr (w : Within ps fs s u) (b : HelloBody)
    (hf : ∀ f ∈ [Fld.EPOCH_ENTRY_STATE, .EPOCH_ENTRY_EPOCH], f ∉ fs := by decide) : helloLive u b = helloLive s b := by
  have hstate := w.regs .EPOCH_ENTRY_STATE b.addr (hf _ (by simp))
  have hepoch := w.regs .EPOCH_ENTRY_EPOCH b.addr (hf _ (by simp))
  simp only [helloLive, entryState, entryEpoch, hstate, hepoch]

theorem liveLinks_congr (w : Within ps fs s u) (hlinks : u.fab.links = s.fab.links)
    (hf : ∀ f ∈ [Fld.EPOCH_ENTRY_STATE, .EPOCH_ENTRY_EPOCH, .SPOKE_LINK_STATE_STATE], f ∉ fs := by decide) : liveLinks u = liveLinks s := by
  unfold liveLinks
  have hlive : ∀ b, helloLive u b = helloLive s b := fun b => helloLive_congr w b fun f hm => hf f (by
    simp only [List.mem_cons, List.not_mem_nil, or_false] at hm ⊢
    tauto)
  have hup : ∀ m, linkUp u m = linkUp s m := fun m => linkUp_congr (w.regs _ _ (hf _ (by simp)))
  simp only [hlive, hup, linkOf, hlinks]

/-- A link with a LIVE neighbour is UP, and the neighbour has said so. -/
theorem mem_liveLinks {e : Nat × HelloBody} :
    e ∈ liveLinks s ↔ e.1 < 6 ∧ (linkOf s e.1).peer = some e.2 ∧ linkUp s e.1 = true ∧ helloLive s e.2 = true := by
  obtain ⟨m, c⟩ := e
  simp only [liveLinks, List.mem_filterMap, List.mem_range]
  constructor
  · rintro ⟨i, hi, hsome⟩
    cases hpeer : (linkOf s i).peer with
    | none => simp [hpeer] at hsome
    | some d =>
      by_cases hboth : linkUp s i = true ∧ helloLive s d = true
      · simp only [hpeer, hboth.1, hboth.2, Bool.and_self, if_true, Option.some.injEq, Prod.mk.injEq] at hsome
        obtain ⟨rfl, rfl⟩ := hsome
        exact ⟨hi, hpeer, hboth⟩
      · simp [hpeer, hboth] at hsome
  · rintro ⟨hi, hpeer, hup, hlive⟩
    exact ⟨m, hi, by simp [hpeer, hup, hlive]⟩

/-! Packets that are sent -/

theorem sendPacket_sends (hup : linkUp s l = true) (p : Packet) :
    ∃ q, Out.packet l q ∈ (sendPacket s l p).rep.outs ∧ q.type = p.type ∧ q.dst = p.dst ∧ q.data = p.data := by
  cases he : exemptType p.type with
  | true =>
    rw [sendPacket_exempt hup he]
    exact ⟨_, List.mem_append_right _ (List.mem_singleton_self _), rfl, rfl, rfl⟩
  | false =>
    rw [sendPacket_kept hup he]
    exact ⟨_, List.mem_append_right _ (List.mem_singleton_self _), rfl, rfl, rfl⟩

theorem within_sendJoin (s : State) : Within [.rep, .fab] [] s (sendJoin s) := by
  unfold sendJoin
  split
  · exact ((within_fab s _).mono (by simp) (by simp)).trans (within_sendPacket _ _ _)
  · exact Within.refl _ _ s

/-- A JOIN goes out on the lowest link whose neighbour is LIVE. -/
theorem sendJoin_sends {e : Nat × HelloBody} {es : List (Nat × HelloBody)} (h : liveLinks s = e :: es) :
    (sendJoin s).fab.joinRetry = none ∧
    ∃ p, Out.packet e.1 p ∈ (sendJoin s).rep.outs ∧ p.type = 7 ∧ p.dst = e.2.addr ∧ p.data = [ownAddr s, 1, 0, 0] := by
  have hmem : e ∈ liveLinks s := by
    rw [h]
    exact List.mem_cons_self
  obtain ⟨-, -, hup, -⟩ := mem_liveLinks.mp hmem
  let x := updFab s fun f => { f with joinRetry := none }
  have hsend : sendJoin s = sendPacket x e.1 (ctlPacket s 7 e.2.addr [ownAddr s, 1, 0, 0]) := by
    unfold sendJoin
    rw [h]
  have hx : linkUp x e.1 = true := hup
  obtain ⟨ls, hls⟩ := (sends_sendPacket x e.1 (ctlPacket s 7 e.2.addr [ownAddr s, 1, 0, 0])).links
  rw [hsend]
  exact ⟨congrArg Fabric.joinRetry hls, sendPacket_sends hx _⟩

/-! The state of a link -/

theorem within_setLinkState (s : State) (l v event : Nat) : Within [.rep] linkFlds s (setLinkState s l v event) := by
  have hset := within_wr s .SPOKE_LINK_STATE_STATE l v
  unfold setLinkState
  dsimp only
  split
  · exact (hset.append (within_raiseModule _ _)).mono (by simp) (by decide)
  · exact (hset.append (within_linkRecord _ _ _)).mono (by simp) (by decide)

theorem rd_setLinkState (s : State) (l v event m : Nat) : rd (setLinkState s l v event) .SPOKE_LINK_STATE_STATE m =
    if m = l then v else rd s .SPOKE_LINK_STATE_STATE m := by
  have hset : rd (wr s .SPOKE_LINK_STATE_STATE l v) .SPOKE_LINK_STATE_STATE m = if m = l then v else rd s .SPOKE_LINK_STATE_STATE m := by
    simp [rd_wr]
  unfold setLinkState
  dsimp only
  split
  · rw [(within_raiseModule _ _).regs _ _ (by simp), hset]
  · rw [(within_linkRecord _ _ _).regs _ _ (by decide), hset]

/-! HELLO (R348) -/

/-- What a HELLO says is noted. -/
def helloNoted (s : State) (l : Nat) (b : HelloBody) : State :=
  wr (setLink s l { linkOf s l with peer := some b }) .SPOKE_LINK_STATE_PEER l (b.addr % 4096)

/-- Whether a HELLO agrees with the fabric that this module is configured for, and with the link. -/
def helloAgrees (s : State) (l : Nat) (b : HelloBody) : Prop :=
  b.link = opposite l ∧ b.sizeX = rd s .SPOKE_FAB_CFG_SIZE_X ∧ b.sizeY = rd s .SPOKE_FAB_CFG_SIZE_Y ∧
  b.sizeZ = rd s .SPOKE_FAB_CFG_SIZE_Z ∧ b.wrap = rd s .SPOKE_FAB_CFG_WRAP

/-- Whether an implied address contradicts the one that the module has, or that management has written. -/
def addrConflicts (s : State) (a : Nat) : Prop := a ≠ ownAddr s ∧ (rd s .SPOKE_FAB_ADDR_ASSIGNED = 1 ∨ s.fab.addrWritten = true)

/-- The neighbour's entry, where its HELLO is ahead of the epoch table. -/
def neighbourNoted (s : State) (b : HelloBody) : State :=
  if entryState s b.addr = 0 ∨ serialAhead b.epoch (entryEpoch s b.addr) = true then setEntry s b.addr b.epoch 1 else s

/-- The module has an address. -/
def addressed (s : State) (a : Nat) : State := wr (wr s .SPOKE_FAB_ADDR_ADDR 0 a) .SPOKE_FAB_ADDR_ASSIGNED 0 1

/-- A module with an address and no epoch discovers, and asks to join. -/
def discovers (s : State) : State :=
  if wantsJoin s then sendJoin (if rd s .SPOKE_FAB_STATUS_STATE = 0 then wr s .SPOKE_FAB_STATUS_STATE 0 1 else s) else s

section Hello
variable (l b)

theorem helloSame_iff (s : State) : ((b.sizeX == rd s .SPOKE_FAB_CFG_SIZE_X && b.sizeY == rd s .SPOKE_FAB_CFG_SIZE_Y &&
    b.sizeZ == rd s .SPOKE_FAB_CFG_SIZE_Z && b.wrap == rd s .SPOKE_FAB_CFG_WRAP && b.link == opposite l) = true) ↔ helloAgrees s l b := by
  simp only [Bool.and_eq_true, beq_iff_eq, helloAgrees]
  tauto

theorem hello_disagrees (h : ¬ helloAgrees (helloNoted s l b) l b) : hello s l b = setLinkState (helloNoted s l b) l 5 5 := by
  rw [← helloSame_iff] at h
  unfold hello
  dsimp only
  exact if_pos ((Bool.not_eq_true' _).mpr (Bool.eq_false_iff.mpr h))

theorem hello_agrees (h : helloAgrees (helloNoted s l b) l b) : hello s l b =
    (if helloLive (helloNoted s l b) b = false then helloNoted s l b
     else match implied (helloNoted s l b) l b with
      | none => setLinkState (helloNoted s l b) l 5 5
      | some a =>
        if rdb (helloNoted s l b) .SPOKE_FAB_ADDR_ASSIGNED ∧ a ≠ ownAddr (helloNoted s l b) ∨
            (helloNoted s l b).fab.addrWritten ∧ a ≠ ownAddr (helloNoted s l b) then setLinkState (helloNoted s l b) l 5 5
        else discovers (addressed (neighbourNoted (helloNoted s l b) b) a)) := by
  rw [← helloSame_iff] at h
  unfold hello
  dsimp only
  exact if_neg fun hc => Bool.eq_false_iff.mp ((Bool.not_eq_true' _).mp hc) h

end Hello

theorem within_helloNoted (s : State) (l : Nat) (b : HelloBody) : Within [.fab] [.SPOKE_LINK_STATE_PEER] s (helloNoted s l b) :=
  ((within_setLink s l _).append (within_wr _ .SPOKE_LINK_STATE_PEER l _))

theorem exec_hello (hl : l < 6) (hst : rd s .SPOKE_LINK_STATE_STATE l = 1 ∨ rd s .SPOKE_LINK_STATE_STATE l = 2) (t : Nat) (b : HelloBody) :
    exec (.hello t l b) s = settle s (hello (takeSeq (tick s t) l) l b) := by
  show execHello t l b s = _
  unfold execHello
  dsimp only
  rw [if_pos (show l < 6 ∧ (linkUp (tick s t) l = true ∨ rd (tick s t) .SPOKE_LINK_STATE_STATE l = 1) from
    ⟨hl, hst.symm.imp (fun h => linkUp_of_state h) id⟩)]

section Arrived
variable (hl : l < 6) (hst : rd s .SPOKE_LINK_STATE_STATE l = 1 ∨ rd s .SPOKE_LINK_STATE_STATE l = 2) (t : Nat)

theorem within_helloTaken (s : State) (t l : Nat) (b : HelloBody) :
    Within [.fab, .now, .rep] [.SPOKE_LINK_STATE_PEER] s (helloNoted (takeSeq (tick s t) l) l b) :=
  ((within_takeSeq s t l).append (within_helloNoted _ l b)).mono (by simp) (by simp)

theorem helloAgrees_taken (s : State) (t l : Nat) (b : HelloBody) :
    helloAgrees (helloNoted (takeSeq (tick s t) l) l b) l b ↔ helloAgrees s l b := by
  have hw := within_helloTaken s t l b
  unfold helloAgrees
  rw [hw.regs _ _ (by simp), hw.regs _ _ (by simp), hw.regs _ _ (by simp), hw.regs _ _ (by simp)]

theorem addrWritten_helloTaken (s : State) (t l : Nat) (b : HelloBody) :
    (helloNoted (takeSeq (tick s t) l) l b).fab.addrWritten = s.fab.addrWritten := by
  obtain ⟨ls, hls⟩ := takeSeq_links s t l
  show (takeSeq (tick s t) l).fab.addrWritten = _
  rw [hls]

include hl hst

theorem hello_miscabled (h : ¬ helloAgrees s l b ∨ (helloLive s b = true ∧ ∀ a, implied s l b = some a → addrConflicts s a)) :
    Runs (.hello t l b) s fun v =>
      rd v .SPOKE_LINK_STATE_STATE l = 5 ∧ rd v .SPOKE_LINK_STATE_PEER l = b.addr % 4096 ∧ ownAddr v = ownAddr s ∧
      Frame [.fab, .now, .rep] (linkFlds ++ [.SPOKE_LINK_STATE_PEER]) s v := by
  have hw := within_helloTaken s t l b
  have hpeer : rd (helloNoted (takeSeq (tick s t) l) l b) .SPOKE_LINK_STATE_PEER l = b.addr % 4096 := rd_wr_same _ _ _ _
  have hexec : exec (.hello t l b) s = settle s (setLinkState (helloNoted (takeSeq (tick s t) l) l b) l 5 5) := by
    rw [exec_hello hl hst t b]
    by_cases hagrees : helloAgrees s l b
    · obtain ⟨hlive, hconflict⟩ := h.resolve_left (not_not.mpr hagrees)
      rw [hello_agrees l b ((helloAgrees_taken s t l b).mpr hagrees), helloLive_congr hw b, implied_congr hw l b, hlive, if_neg (by simp)]
      cases himplied : implied s l b with
      | none => rfl
      | some a =>
        obtain ⟨hne, hhas⟩ := hconflict a himplied
        dsimp only
        rw [if_pos]
        have hown : ownAddr (helloNoted (takeSeq (tick s t) l) l b) = ownAddr s := hw.regs _ _ (by simp)
        rw [hown, addrWritten_helloTaken, rdb, hw.regs _ _ (by simp)]
        rcases hhas with hhas | hhas
        · exact Or.inl ⟨by simp [hhas], hne⟩
        · exact Or.inr ⟨hhas, hne⟩
    · rw [hello_disagrees l b (fun hc => hagrees ((helloAgrees_taken s t l b).mp hc))]
  generalize helloNoted (takeSeq (tick s t) l) l b = u at *
  have hset := within_setLinkState u l 5 5
  refine runs_of_settle hexec ⟨?_, ?_, ?_, ((hw.append hset).mono (by simp) (by simp)).settled⟩
  · rw [rd_settled_other _ _ _ _ (by decide), rd_setLinkState, if_pos rfl]
  · rw [rd_settled_other _ _ _ _ (by decide), hset.regs _ _ (by decide), hpeer]
  · rw [ownAddr, rd_settled_other _ _ _ _ (by decide), hset.regs _ _ (by decide), hw.regs _ _ (by simp)]
    rfl

theorem hello_notLive (hagrees : helloAgrees s l b) (hlive : helloLive s b = false) : Runs (.hello t l b) s fun v =>
    rd v .SPOKE_LINK_STATE_PEER l = b.addr % 4096 ∧ KeptBut [.fab, .now, .rep] s v ∧ RegsKept [(.SPOKE_LINK_STATE_PEER, l)] s v := by
  have hexec : exec (.hello t l b) s = settle s (helloNoted (takeSeq (tick s t) l) l b) := by
    rw [exec_hello hl hst t b, hello_agrees l b ((helloAgrees_taken s t l b).mpr hagrees), helloLive_congr (within_helloTaken s t l b) b,
      hlive, if_pos rfl]
  have hall : WithinAt [.fab, .now, .rep] [(.SPOKE_LINK_STATE_PEER, l)] s (helloNoted (takeSeq (tick s t) l) l b) := by
    unfold helloNoted
    exact (((within_takeSeq s t l).toWithinAt.trans (within_setLink _ l _).toWithinAt).trans (withinAt_wr _ _ l _)).mono (by simp) (by simp)
  refine runs_of_settle hexec ⟨?_, hall.settled⟩
  rw [rd_settled_other _ _ _ _ (by decide)]
  exact rd_wr_same _ _ _ _

end Arrived

theorem within_neighbourNoted (s : State) (b : HelloBody) :
    Within [] [.EPOCH_ENTRY_EPOCH, .EPOCH_ENTRY_STATE] s (neighbourNoted s b) := by
  unfold neighbourNoted
  split
  · exact within_setEntry s _ _ _
  · exact Within.refl _ _ s

theorem within_addressed (s : State) (a : Nat) : Within [] [.SPOKE_FAB_ADDR_ADDR, .SPOKE_FAB_ADDR_ASSIGNED] s (addressed s a) :=
  (within_wr s _ _ _).append (within_wr _ _ _ _)

theorem within_discovers (s : State) : Within [.rep, .fab] [.SPOKE_FAB_STATUS_STATE] s (discovers s) := by
  unfold discovers
  split
  · refine Within.trans ?_ ((within_sendJoin _).mono (List.Subset.refl _) (by simp))
    split
    · exact (within_wr s _ _ _).mono (by simp) (by simp)
    · exact Within.refl _ _ s
  · exact Within.refl _ _ s

theorem hello_addresses (hl : l < 6) (hst : rd s .SPOKE_LINK_STATE_STATE l = 1 ∨ rd s .SPOKE_LINK_STATE_STATE l = 2) (t : Nat)
    (hagrees : helloAgrees s l b) (hlive : helloLive s b = true) (himplied : implied s l b = some a)
    (hassigned : rd s .SPOKE_FAB_ADDR_ASSIGNED ≠ 1 ∨ a = ownAddr s) (hwritten : s.fab.addrWritten = false ∨ a = ownAddr s) :
    Runs (.hello t l b) s fun v =>
      rd v .SPOKE_FAB_ADDR_ADDR = a ∧ rd v .SPOKE_FAB_ADDR_ASSIGNED = 1 ∧ rd v .SPOKE_LINK_STATE_STATE l = rd s .SPOKE_LINK_STATE_STATE l ∧
      Frame [.fab, .now, .rep] [.SPOKE_LINK_STATE_PEER, .EPOCH_ENTRY_EPOCH, .EPOCH_ENTRY_STATE, .SPOKE_FAB_ADDR_ADDR,
        .SPOKE_FAB_ADDR_ASSIGNED, .SPOKE_FAB_STATUS_STATE] s v := by
  have hw := within_helloTaken s t l b
  have hexec : exec (.hello t l b) s =
      settle s (discovers (addressed (neighbourNoted (helloNoted (takeSeq (tick s t) l) l b) b) a)) := by
    rw [exec_hello hl hst t b, hello_agrees l b ((helloAgrees_taken s t l b).mpr hagrees), helloLive_congr hw b, implied_congr hw l b,
      hlive, if_neg (by simp), himplied]
    dsimp only
    rw [if_neg]
    have hown : ownAddr (helloNoted (takeSeq (tick s t) l) l b) = ownAddr s := hw.regs _ _ (by simp)
    rw [hown, addrWritten_helloTaken, rdb, hw.regs _ _ (by simp)]
    rintro (⟨hone, hne⟩ | ⟨hone, hne⟩)
    · exact hassigned.elim (fun h => h (by simpa using hone)) hne
    · exact hwritten.elim (fun h => by simp [h] at hone) hne
  generalize helloNoted (takeSeq (tick s t) l) l b = u at *
  have hnoted := within_neighbourNoted u b
  generalize neighbourNoted u b = w at *
  have haddr : rd (addressed w a) .SPOKE_FAB_ADDR_ADDR = a ∧ rd (addressed w a) .SPOKE_FAB_ADDR_ASSIGNED = 1 := by
    constructor <;> simp [addressed, rd_wr]
  have hset := within_addressed w a
  generalize addressed w a = x at *
  have hjoin := within_discovers x
  have hall := ((hw.append hnoted).append hset).append hjoin
  refine runs_of_settle hexec ⟨?_, ?_, ?_, (hall.mono (by simp) (by simp)).settled⟩
  · rw [rd_settled_other _ _ _ _ (by decide), hjoin.regs _ _ (by simp), haddr.1]
  · rw [rd_settled_other _ _ _ _ (by decide), hjoin.regs _ _ (by simp), haddr.2]
  · rw [rd_settled_other _ _ _ _ (by decide), hall.regs _ _ (by simp)]

/-! JOIN_RETRY (R359) -/

theorem joinRetry_runs {r : Nat} {es : List (Nat × HelloBody)} (hretry : s.fab.joinRetry = some r) (hdue : r ≤ max s.now t)
    (hwants : wantsJoin s = true) (hlive : liveLinks s = (l, b) :: es) : Runs (.joinRetry t) s fun v =>
      v.fab.joinRetry = none ∧ (∃ p, .packet l p ∈ v.rep.outs ∧ p.type = 7 ∧ p.dst = b.addr ∧ p.data = [ownAddr s, 1, 0, 0]) ∧
      KeptBut [.fab, .now, .rep] s v ∧ RegsKept [] s v := by
  have hexec : exec (.joinRetry t) s = settle s (sendJoin (tick s t)) := by
    show execJoinRetry t s = _
    unfold execJoinRetry
    dsimp only
    rw [show (tick s t).fab.joinRetry = some r from hretry]
    dsimp only
    rw [if_pos (show r ≤ (tick s t).now ∧ wantsJoin (tick s t) = true from ⟨hdue, hwants⟩)]
  obtain ⟨hnone, hsent⟩ := sendJoin_sends (s := tick s t) hlive
  have hall := ((within_tick s t).append (within_sendJoin (tick s t))).mono (qs := [.fab, .now, .rep]) (gs := []) (by simp) (by simp)
  exact runs_of_settle hexec ⟨hnone, hsent, hall.toWithinAt.settled⟩

end Sys2Proof.Machine
end


section
/-! O55: the answers to JOIN (R359, R352), and an address that management writes (R348). -/

namespace Sys2Proof.Machine

variable {s u : State} {src : Src} {t l a : Nat} {b : JoinBody}

/-! JOIN (R359) -/

theorem exec_join (hl : l < 6) (hst : rd s .SPOKE_LINK_STATE_STATE l = 2) (t : Nat) (b : JoinBody) : exec (.join t l b) s = settle s
    (let u := takeSeq (tick s t) l
     let a := b.addr % 4096
     let peer := peerOf u l
     if b.kind = 1 then joinRequest u l a
     else if a ≠ ownAddr u ∨ wantsJoin u = false then u
     else if b.kind = 2 then
       if (cadOffset u).natAbs ≤ 1000 ∨ steppable u then
         let u := wr (wr (setEntry u a b.epoch 1) .SPOKE_FAB_ADDR_EPOCH 0 b.epoch) .SPOKE_FAB_STATUS_STATE 0 2
         let u := updFab (wr u .SPOKE_FAB_STATUS_SETTLED 0 0) fun f => { f with grantAt := some u.now, joinRetry := none }
         epochRecord u a b.epoch 1 2 peer
       else epochRecord u a b.epoch (entryState u a) 4 peer
     else if b.kind = 3 then
       let u := epochRecord u a (ownEpoch u) (entryState u a) 4 peer
       if b.reason = 1 then updFab u fun f => { f with joinRetry := some (u.now + 10000000) } else u
     else u) := by
  show execJoin t l b s = _
  unfold execJoin
  dsimp only
  rw [if_neg (show ¬ ¬ (l < 6 ∧ linkUp (tick s t) l = true) from not_not.mpr ⟨hl, linkUp_of_state hst⟩)]

/-- A new epoch of a module that is LIVE again, and what goes out of it. -/
def joinGranted (s : State) (a : Nat) : State :=
  let u := epochRecord (setEntry s a (nextEpoch (entryEpoch s a)) 1) a (nextEpoch (entryEpoch s a)) 1 2 (ownAddr s)
  floodEpoch u ⟨a, nextEpoch (entryEpoch s a), 1, ownAddr u⟩ 6

theorem within_joinGranted (s : State) (a : Nat) :
    Within [.fab, .rep] (reportFlds ++ [.EPOCH_ENTRY_EPOCH, .EPOCH_ENTRY_STATE]) s (joinGranted s a) :=
  (((within_setEntry s a _ 1).append (within_epochRecord _ _ _ _ _ _)).append (within_floodEpoch _ _ _)).mono (by simp) (by simp)

theorem rd_joinGranted (s : State) (a : Nat) : rd (joinGranted s a) .EPOCH_ENTRY_STATE a = 1 ∧
    rd (joinGranted s a) .EPOCH_ENTRY_EPOCH a = nextEpoch (entryEpoch s a) := by
  unfold joinGranted
  extract_lets u
  have hrecord : Within [.rep] reportFlds (setEntry s a (nextEpoch (entryEpoch s a)) 1) u := within_epochRecord _ _ _ _ _ _
  have hrest := hrecord.append (within_floodEpoch u ⟨a, nextEpoch (entryEpoch s a), 1, ownAddr u⟩ 6)
  rw [hrest.regs _ _ (by decide), hrest.regs _ _ (by decide)]
  simp [setEntry, rd_wr]

/-- The registers of a module that takes a grant. -/
def grantTaken (s : State) (a epoch : Nat) : State :=
  wr (wr (wr (setEntry s a epoch 1) .SPOKE_FAB_ADDR_EPOCH 0 epoch) .SPOKE_FAB_STATUS_STATE 0 2) .SPOKE_FAB_STATUS_SETTLED 0 0

theorem within_grantTaken (s : State) (a epoch : Nat) : Within [] [.EPOCH_ENTRY_EPOCH, .EPOCH_ENTRY_STATE, .SPOKE_FAB_ADDR_EPOCH,
    .SPOKE_FAB_STATUS_STATE, .SPOKE_FAB_STATUS_SETTLED] s (grantTaken s a epoch) :=
  (((within_setEntry s _ _ _).append (within_wr _ .SPOKE_FAB_ADDR_EPOCH 0 _)).append (within_wr _ .SPOKE_FAB_STATUS_STATE 0 2)).append
    (within_wr _ .SPOKE_FAB_STATUS_SETTLED 0 0)

theorem rd_grantTaken (s : State) (a epoch : Nat) : rd (grantTaken s a epoch) .SPOKE_FAB_STATUS_STATE = 2 ∧
    rd (grantTaken s a epoch) .SPOKE_FAB_ADDR_EPOCH = epoch ∧ rd (grantTaken s a epoch) .SPOKE_FAB_STATUS_SETTLED = 0 ∧
    rd (grantTaken s a epoch) .EPOCH_ENTRY_STATE a = 1 := by
  refine ⟨?_, ?_, ?_, ?_⟩ <;> simp [grantTaken, setEntry, rd_wr]

section Join
variable (hl : l < 6) (hst : rd s .SPOKE_LINK_STATE_STATE l = 2) (t : Nat)
include hl hst

/-! A request -/

theorem exec_join_request (hkind : b.kind = 1) : exec (.join t l b) s = settle s (joinRequest (takeSeq (tick s t) l) l (b.addr % 4096)) := by
  rw [exec_join hl hst t b]
  dsimp only
  rw [if_pos hkind]

theorem join_grants (hkind : b.kind = 1) (ha : a = b.addr % 4096) (hnot : rd s .EPOCH_ENTRY_STATE a ≠ 1) : Runs (.join t l b) s fun v =>
    rd v .EPOCH_ENTRY_STATE a = 1 ∧ rd v .EPOCH_ENTRY_EPOCH a = nextEpoch (rd s .EPOCH_ENTRY_EPOCH a) ∧
    (∃ p, .packet l p ∈ v.rep.outs ∧ p.type = 7 ∧ p.data = [a, 2, nextEpoch (rd s .EPOCH_ENTRY_EPOCH a), 0]) ∧
    Frame [.fab, .now, .rep] (reportFlds ++ [.EPOCH_ENTRY_EPOCH, .EPOCH_ENTRY_STATE]) s v := by
  have htake := within_takeSeq s t l
  have hexec := exec_join_request (b := b) hl hst t hkind
  rw [← ha] at hexec
  have hepoch : entryEpoch (takeSeq (tick s t) l) a = rd s .EPOCH_ENTRY_EPOCH a := rd_takeSeq s t l _ a
  have hnotYet : entryState (takeSeq (tick s t) l) a ≠ 1 := by
    rw [entryState, rd_takeSeq]
    exact hnot
  have hup : linkUp (takeSeq (tick s t) l) l = true := linkUp_of_state (by rw [rd_takeSeq, hst])
  generalize takeSeq (tick s t) l = u at *
  obtain ⟨hstate, hnew⟩ := rd_joinGranted u a
  rw [hepoch] at hnew
  have hgranted := within_joinGranted u a
  have hupThen : linkUp (joinGranted u a) l = true := (linkUp_congr (hgranted.regs _ _ (by decide))).trans hup
  have hreply : joinRequest u l a = sendPacket (joinGranted u a) l (ctlPacket (joinGranted u a) 7 a [a, 2, nextEpoch (entryEpoch u a), 0]) := by
    unfold joinRequest
    dsimp only
    rw [if_neg hnotYet]
    rfl
  rw [hreply, hepoch] at hexec
  generalize joinGranted u a = x at *
  have hsend := within_sendPacket x l (ctlPacket x 7 a [a, 2, nextEpoch (rd s .EPOCH_ENTRY_EPOCH a), 0])
  obtain ⟨q, hq, htype, -, hdata⟩ := sendPacket_sends hupThen (ctlPacket x 7 a [a, 2, nextEpoch (rd s .EPOCH_ENTRY_EPOCH a), 0])
  refine runs_of_settle hexec ⟨?_, ?_, ⟨q, hq, htype, hdata⟩, (((htake.append hgranted).append hsend).mono (by simp) (by simp)).settled⟩
  · rw [rd_settled_other _ _ _ _ (by decide), hsend.regs _ _ (by simp), hstate]
  · rw [rd_settled_other _ _ _ _ (by decide), hsend.regs _ _ (by simp), hnew]

theorem join_refuses (hkind : b.kind = 1) (ha : a = b.addr % 4096) (hlive : rd s .EPOCH_ENTRY_STATE a = 1) : Runs (.join t l b) s fun v =>
    (∃ p, .packet l p ∈ v.rep.outs ∧ p.type = 7 ∧ p.data = [a, 3, 0, 1]) ∧ KeptBut [.fab, .now, .rep] s v ∧ RegsKept [] s v := by
  have htake := within_takeSeq s t l
  have hexec := exec_join_request (b := b) hl hst t hkind
  rw [← ha] at hexec
  have hstill : entryState (takeSeq (tick s t) l) a = 1 := by
    rw [entryState, rd_takeSeq]
    exact hlive
  have hup : linkUp (takeSeq (tick s t) l) l = true := linkUp_of_state (by rw [rd_takeSeq, hst])
  generalize takeSeq (tick s t) l = u at *
  have hreply : joinRequest u l a = sendPacket u l (ctlPacket u 7 a [a, 3, 0, 1]) := by
    unfold joinRequest
    dsimp only
    rw [if_pos hstill]
  rw [hreply] at hexec
  obtain ⟨q, hq, htype, -, hdata⟩ := sendPacket_sends hup (ctlPacket u 7 a [a, 3, 0, 1])
  exact runs_of_settle hexec ⟨⟨q, hq, htype, hdata⟩,
    ((htake.append (within_sendPacket u l _)).mono (gs := []) (by simp) (by simp)).toWithinAt.settled⟩

/-! A grant and a refusal -/

theorem join_elsewhere (hkind : b.kind ≠ 1) (h : b.addr % 4096 ≠ ownAddr s ∨ wantsJoin s = false) : Runs (.join t l b) s fun v =>
    KeptBut [.fab, .now, .rep] s v ∧ RegsKept [] s v := by
  have htake := within_takeSeq s t l
  have hexec := exec_join hl hst t b
  dsimp only at hexec
  have hown : ownAddr (takeSeq (tick s t) l) = ownAddr s := rd_takeSeq s t l _ 0
  have hwants : wantsJoin (takeSeq (tick s t) l) = wantsJoin s := by simp only [wantsJoin, rdb, rd_takeSeq]
  rw [if_neg hkind, hown, hwants, if_pos h] at hexec
  exact runs_of_settle hexec htake.toWithinAt.settled

variable (hown : b.addr % 4096 = ownAddr s) (hwants : wantsJoin s = true)
include hown hwants

/-- What a grant or a refusal meets at the module that asked. -/
theorem exec_join_own (hkind : b.kind ≠ 1) : exec (.join t l b) s = settle s
    (let u := takeSeq (tick s t) l
     if b.kind = 2 then
       if (cadOffset s).natAbs ≤ 1000 ∨ steppable s then
         epochRecord (updFab (grantTaken u (ownAddr s) b.epoch) fun f => { f with grantAt := some (max s.now t), joinRetry := none })
           (ownAddr s) b.epoch 1 2 (peerOf u l)
       else epochRecord u (ownAddr s) b.epoch (entryState u (ownAddr s)) 4 (peerOf u l)
     else if b.kind = 3 then
       if b.reason = 1 then updFab (epochRecord u (ownAddr s) (ownEpoch u) (entryState u (ownAddr s)) 4 (peerOf u l)) fun f =>
         { f with joinRetry := some (max s.now t + 10000000) }
       else epochRecord u (ownAddr s) (ownEpoch u) (entryState u (ownAddr s)) 4 (peerOf u l)
     else u) := by
  have hexec := exec_join hl hst t b
  have htake := within_takeSeq s t l
  have howned : ownAddr (takeSeq (tick s t) l) = ownAddr s := rd_takeSeq s t l _ 0
  have hwanted : wantsJoin (takeSeq (tick s t) l) = true := by
    simp only [wantsJoin, rdb, rd_takeSeq]
    exact hwants
  have hoffset : cadOffset (takeSeq (tick s t) l) = cadOffset s := by simp only [cadOffset, rd_takeSeq]
  have hstep : steppable (takeSeq (tick s t) l) = steppable s := by
    have hserve : (takeSeq (tick s t) l).serve = s.serve := htake.parts .serve (by simp)
    have htt : (takeSeq (tick s t) l).tt = s.tt := htake.parts .tt (by simp)
    rw [steppable, hserve, htt, steppable]
  have hnow : (takeSeq (tick s t) l).now = max s.now t :=
    (sends_sendPacket (setLink (tick s t) l _) l _).within.parts .now (by simp)
  have hrecord : ∀ x y z w, (epochRecord (takeSeq (tick s t) l) x y z 4 w).now = max s.now t := fun x y z w =>
    Eq.trans ((within_epochRecord _ x y z 4 w).parts .now (by simp)) hnow
  generalize takeSeq (tick s t) l = u at *
  dsimp only at hexec
  rw [if_neg hkind, howned, hwanted, hoffset, hstep, hown, if_neg (by simp), hrecord] at hexec
  rw [hexec]
  dsimp only
  rw [← hnow]
  rfl

theorem join_granted (hkind : b.kind = 2) (hstep : (cadOffset s).natAbs ≤ 1000 ∨ steppable s = true) : Runs (.join t l b) s fun v =>
    rd v .SPOKE_FAB_STATUS_STATE = 2 ∧ rd v .SPOKE_FAB_ADDR_EPOCH = b.epoch ∧ rd v .SPOKE_FAB_STATUS_SETTLED = 0 ∧
    rd v .EPOCH_ENTRY_STATE (ownAddr s) = 1 ∧ v.fab.grantAt = some (max s.now t) ∧
    Frame [.fab, .now, .rep] (reportFlds ++ [.EPOCH_ENTRY_EPOCH, .EPOCH_ENTRY_STATE, .SPOKE_FAB_ADDR_EPOCH,
      .SPOKE_FAB_STATUS_STATE, .SPOKE_FAB_STATUS_SETTLED]) s v := by
  have htake := within_takeSeq s t l
  have hexec := exec_join_own hl hst t hown hwants (by omega)
  generalize takeSeq (tick s t) l = u at *
  dsimp only at hexec
  rw [if_pos hkind, if_pos hstep] at hexec
  have hset := within_grantTaken u (ownAddr s) b.epoch
  have hregs := rd_grantTaken u (ownAddr s) b.epoch
  generalize grantTaken u (ownAddr s) b.epoch = x at *
  obtain ⟨hstate, hepoch, hsettled, hentry⟩ := hregs
  have hfab := within_fab x fun f => { f with grantAt := some (max s.now t), joinRetry := none }
  have hrecord := within_epochRecord (updFab x fun f => { f with grantAt := some (max s.now t), joinRetry := none }) (ownAddr s) b.epoch 1 2
    (peerOf u l)
  have hrest := hfab.append hrecord
  refine runs_of_settle hexec ⟨?_, ?_, ?_, ?_, congrArg Fabric.grantAt (hrecord.parts .fab (by simp)),
    (((htake.append hset).append hrest).mono (by simp) (by simp)).settled⟩ <;> rw [rd_settled_other _ _ _ _ (by decide), hrest.regs _ _ (by decide)]
  · exact hstate
  · exact hepoch
  · exact hsettled
  · exact hentry

/-- A module whose Cadence is off and may not be stepped does not take the grant. -/
theorem join_notGranted (hkind : b.kind = 2) (hoff : 1000 < (cadOffset s).natAbs) (hstep : steppable s = false) : Runs (.join t l b) s fun v =>
    rd v .SPOKE_FAB_STATUS_STATE = rd s .SPOKE_FAB_STATUS_STATE ∧ Frame [.fab, .now, .rep] reportFlds s v := by
  have htake := within_takeSeq s t l
  have hexec := exec_join_own hl hst t hown hwants (by omega)
  generalize takeSeq (tick s t) l = u at *
  dsimp only at hexec
  rw [if_pos hkind, if_neg (by rw [hstep]; simp; omega)] at hexec
  have hall := htake.append (within_epochRecord u (ownAddr s) b.epoch (entryState u (ownAddr s)) 4 (peerOf u l))
  refine runs_of_settle hexec ⟨?_, (hall.mono (by simp) (by simp)).settled⟩
  rw [rd_settled_other _ _ _ _ (by decide), hall.regs _ _ (by decide)]

theorem join_retries (hkind : b.kind = 3) (hreason : b.reason = 1) : Runs (.join t l b) s fun v =>
    v.fab.joinRetry = some (max s.now t + 10000000) ∧ Frame [.fab, .now, .rep] reportFlds s v := by
  have htake := within_takeSeq s t l
  have hexec := exec_join_own hl hst t hown hwants (by omega)
  generalize takeSeq (tick s t) l = u at *
  dsimp only at hexec
  rw [if_neg (by omega), if_pos hkind, if_pos hreason] at hexec
  have hall := (htake.append (within_epochRecord u (ownAddr s) (ownEpoch u) (entryState u (ownAddr s)) 4 (peerOf u l))).append
    (within_fab _ fun f => { f with joinRetry := some (max s.now t + 10000000) })
  exact runs_of_settle hexec ⟨rfl, (hall.mono (by simp) (by simp)).settled⟩

theorem join_gives_up (hkind : b.kind = 3) (hreason : b.reason ≠ 1) : Runs (.join t l b) s fun v =>
    v.fab.joinRetry = s.fab.joinRetry ∧ Frame [.fab, .now, .rep] reportFlds s v := by
  have htake := within_takeSeq s t l
  have hexec := exec_join_own hl hst t hown hwants (by omega)
  obtain ⟨ls, hls⟩ := takeSeq_links s t l
  generalize takeSeq (tick s t) l = u at *
  dsimp only at hexec
  rw [if_neg (by omega), if_pos hkind, if_neg hreason] at hexec
  have hrecord := within_epochRecord u (ownAddr s) (ownEpoch u) (entryState u (ownAddr s)) 4 (peerOf u l)
  refine runs_of_settle hexec ⟨?_, ((htake.append hrecord).mono (by simp) (by simp)).settled⟩
  exact (congrArg Fabric.joinRetry (hrecord.parts .fab (by simp))).trans (by rw [hls])

end Join

end Sys2Proof.Machine
end


section
/-! O55: an address that management writes (R348). -/

namespace Sys2Proof.Machine

variable {s u : State} {src : Src} {t a : Nat}

/-! Links that turn out to be miscabled -/

theorem within_miscabled (es : List (Nat × HelloBody)) (s : State) :
    Within [.rep] linkFlds s (each es s fun x e => setLinkState x e.1 5 5) :=
  within_each _ (fun x (e : Nat × HelloBody) => within_setLinkState x e.1 5 5) es s

theorem rd_miscabled (m : Nat) : ∀ (es : List (Nat × HelloBody)) (s : State),
    rd (each es s fun x e => setLinkState x e.1 5 5) .SPOKE_LINK_STATE_STATE m =
      if m ∈ es.map (·.1) then 5 else rd s .SPOKE_LINK_STATE_STATE m
  | [], s => rfl
  | e :: es, s => by
    have hrest := rd_miscabled m es (setLinkState s e.1 5 5)
    refine hrest.trans ?_
    rw [rd_setLinkState]
    by_cases hm : m = e.1
    · simp [hm]
    · have hmem : m ∈ (e :: es).map (·.1) ↔ m ∈ es.map (·.1) := by simp [hm]
      simp only [hmem, hm, if_false]

/-! SPOKE_FAB_ADDR_WRITE -/

/-- The address that management writes. -/
def addrNoted (s : State) (t a : Nat) : State :=
  updFab (wr (tick s t) .SPOKE_FAB_ADDR_ADDR 0 a) fun f => { f with addrWritten := true }

theorem within_addrNoted (s : State) (t a : Nat) : Within [.fab, .now] [.SPOKE_FAB_ADDR_ADDR] s (addrNoted s t a) :=
  (((within_tick s t).append (within_wr (tick s t) .SPOKE_FAB_ADDR_ADDR 0 a)).append (within_fab _ _)).mono (by simp) (by simp)

theorem liveLinks_addrNoted (s : State) (t a : Nat) : liveLinks (addrNoted s t a) = liveLinks s :=
  liveLinks_congr (within_addrNoted s t a) rfl

theorem inFabric_tick (s : State) (t a : Nat) : inFabric (tick s t) a = inFabric s a := rfl

theorem exec_spokeFabAddrWrite (hm : isMgmt s src = true) (t a : Nat) : exec (.spokeFabAddrWrite src t a) s = settle s
    (if rdb s .SPOKE_FAB_ADDR_ASSIGNED ∨ inFabric s (a % 4096) = false then tick s t
     else match liveLinks s with
      | [] => rootFabric (addrNoted s t (a % 4096))
      | ls =>
        let bad := ls.filter (fun e => implied s e.1 e.2 != some (a % 4096))
        let u := each bad (addrNoted s t (a % 4096)) fun x e => setLinkState x e.1 5 5
        if bad.length = ls.length then u else sendJoin (wr (wr u .SPOKE_FAB_ADDR_ASSIGNED 0 1) .SPOKE_FAB_STATUS_STATE 0 1)) := by
  have himplied : ∀ l b, implied (addrNoted s t (a % 4096)) l b = implied s l b := fun l b => implied_congr (within_addrNoted s t (a % 4096)) l b
  have hlive := liveLinks_addrNoted s t (a % 4096)
  refine (fabCmd_of_mgmt hm _).trans ?_
  show settle s (if rdb s .SPOKE_FAB_ADDR_ASSIGNED ∨ inFabric s (a % 4096) = false then tick s t
     else match liveLinks (addrNoted s t (a % 4096)) with
      | [] => rootFabric (addrNoted s t (a % 4096))
      | ls =>
        let bad := ls.filter (fun e => implied (addrNoted s t (a % 4096)) e.1 e.2 != some (a % 4096))
        let u := each bad (addrNoted s t (a % 4096)) fun x e => setLinkState x e.1 5 5
        if bad.length = ls.length then u else sendJoin (wr (wr u .SPOKE_FAB_ADDR_ASSIGNED 0 1) .SPOKE_FAB_STATUS_STATE 0 1)) = _
  simp only [himplied, hlive]

/-! The fabric that a module forms alone -/

theorem within_rootFabric (s : State) : Within [.fab, .rep] (reportFlds ++ [.EPOCH_ENTRY_EPOCH, .EPOCH_ENTRY_STATE,
    .SPOKE_FAB_ADDR_ASSIGNED, .SPOKE_FAB_ADDR_EPOCH, .SPOKE_FAB_STATUS_STATE]) s (rootFabric s) := by
  unfold rootFabric
  extract_lets a u v
  have hu : Within [] [.SPOKE_FAB_ADDR_ASSIGNED, .SPOKE_FAB_ADDR_EPOCH, .SPOKE_FAB_STATUS_STATE] s u :=
    ((within_wr s _ _ _).append (within_wr _ .SPOKE_FAB_ADDR_EPOCH _ _)).append (within_wr _ .SPOKE_FAB_STATUS_STATE _ _)
  have hv : Within [.fab] [] u v := within_fab u _
  exact ((hu.append hv).append (((within_setEntry v _ _ _).append (within_epochRecord _ _ _ _ _ _)).append (within_floodEpoch _ _ _))).mono
    (by simp) (by decide)

theorem rootFabric_forms (s : State) : rd (rootFabric s) .SPOKE_FAB_ADDR_ADDR = ownAddr s ∧ rd (rootFabric s) .SPOKE_FAB_ADDR_ASSIGNED = 1 ∧
    rd (rootFabric s) .SPOKE_FAB_ADDR_EPOCH = 1 ∧ rd (rootFabric s) .SPOKE_FAB_STATUS_STATE = 2 ∧
    rd (rootFabric s) .EPOCH_ENTRY_STATE (ownAddr s) = 1 ∧ rd (rootFabric s) .EPOCH_ENTRY_EPOCH (ownAddr s) = 1 := by
  refine ⟨(within_rootFabric s).regs _ _ (by decide), ?_⟩
  unfold rootFabric
  extract_lets a u v
  have hrest := (within_epochRecord (setEntry v a 1 1) a 1 1 2 a).append (within_floodEpoch _ ⟨a, 1, 1, a⟩ 6)
  have hset : rd (setEntry v a 1 1) .SPOKE_FAB_ADDR_ASSIGNED = 1 ∧ rd (setEntry v a 1 1) .SPOKE_FAB_ADDR_EPOCH = 1 ∧
      rd (setEntry v a 1 1) .SPOKE_FAB_STATUS_STATE = 2 ∧ rd (setEntry v a 1 1) .EPOCH_ENTRY_STATE a = 1 ∧
      rd (setEntry v a 1 1) .EPOCH_ENTRY_EPOCH a = 1 := by
    have hreg : ∀ f n, rd v f n = rd u f n := fun f n => (within_fab u _).regs f n (by simp)
    refine ⟨?_, ?_, ?_, ?_, ?_⟩ <;> simp [setEntry, rd_wr, hreg, u]
  rw [hrest.regs _ _ (by decide), hrest.regs _ _ (by decide), hrest.regs _ _ (by decide), hrest.regs _ _ (by decide),
    hrest.regs _ _ (by decide)]
  exact hset

/-- The links that imply another address than the one written are MISCABLED. -/
def linksMiscabled (s : State) (t a : Nat) : State :=
  each ((liveLinks s).filter fun e => implied s e.1 e.2 != some a) (addrNoted s t a) fun x e => setLinkState x e.1 5 5

theorem within_linksMiscabled (s : State) (t a : Nat) :
    Within [.fab, .now, .rep] (linkFlds ++ [.SPOKE_FAB_ADDR_ADDR]) s (linksMiscabled s t a) :=
  ((within_addrNoted s t a).append (within_miscabled _ _)).mono (by simp) (by simp)

theorem rd_linksMiscabled_addr (s : State) (t a : Nat) : rd (linksMiscabled s t a) .SPOKE_FAB_ADDR_ADDR = a :=
  ((within_miscabled _ _).regs _ _ (by decide)).trans (rd_wr_same (tick s t) .SPOKE_FAB_ADDR_ADDR 0 a)

theorem fab_linksMiscabled (s : State) (t a : Nat) : (linksMiscabled s t a).fab = (addrNoted s t a).fab :=
  (within_miscabled _ (addrNoted s t a)).kept .fab (by simp)

/-- A link goes MISCABLED exactly where its LIVE neighbour implies another address. -/
theorem rd_linksMiscabled_state {e : Nat × HelloBody} (he : e ∈ liveLinks s) (t a : Nat) :
    rd (linksMiscabled s t a) .SPOKE_LINK_STATE_STATE e.1 =
      if implied s e.1 e.2 = some a then rd s .SPOKE_LINK_STATE_STATE e.1 else 5 := by
  have hmem : e.1 ∈ ((liveLinks s).filter fun e => implied s e.1 e.2 != some a).map (·.1) ↔ implied s e.1 e.2 ≠ some a := by
    constructor
    · intro h
      obtain ⟨c, hc, hce⟩ := List.mem_map.mp h
      obtain ⟨hlive, hbad⟩ := List.mem_filter.mp hc
      obtain ⟨-, hpeer, -, -⟩ := mem_liveLinks.mp hlive
      obtain ⟨-, hpeer', -, -⟩ := mem_liveLinks.mp he
      have hsame : c = e := Prod.ext hce (Option.some.inj ((hce ▸ hpeer).symm.trans hpeer'))
      subst hsame
      simpa using hbad
    · intro h
      exact List.mem_map.mpr ⟨e, List.mem_filter.mpr ⟨he, by simpa using h⟩, rfl⟩
  have hstate : rd (addrNoted s t a) .SPOKE_LINK_STATE_STATE e.1 = rd s .SPOKE_LINK_STATE_STATE e.1 :=
    (within_addrNoted s t a).regs _ _ (by decide)
  rw [linksMiscabled, rd_miscabled, hstate]
  by_cases hgood : implied s e.1 e.2 = some a
  · rw [if_neg (fun h => hmem.mp h hgood), if_pos hgood]
  · rw [if_pos (hmem.mpr hgood), if_neg hgood]

/-- The module has the address that management wrote, and asks to join. -/
def addressTaken (s : State) : State := sendJoin (wr (wr s .SPOKE_FAB_ADDR_ASSIGNED 0 1) .SPOKE_FAB_STATUS_STATE 0 1)

theorem within_addressTaken (s : State) : Within [.rep, .fab] [.SPOKE_FAB_ADDR_ASSIGNED, .SPOKE_FAB_STATUS_STATE] s (addressTaken s) :=
  (((within_wr s .SPOKE_FAB_ADDR_ASSIGNED 0 1).append (within_wr _ .SPOKE_FAB_STATUS_STATE 0 1)).append (within_sendJoin _)).mono (by simp) (by simp)

theorem addrWritten_sendJoin (s : State) : (sendJoin s).fab.addrWritten = s.fab.addrWritten := by
  unfold sendJoin
  split
  · rename_i l b _ _
    obtain ⟨ls, hls⟩ := (sends_sendPacket (updFab s fun f => { f with joinRetry := none }) l (ctlPacket s 7 b.addr [ownAddr s, 1, 0, 0])).links
    rw [hls]
    rfl
  · rfl

theorem addrWritten_addressTaken (s : State) : (addressTaken s).fab.addrWritten = s.fab.addrWritten := addrWritten_sendJoin _

theorem addressTaken_joins {e : Nat × HelloBody} (he : e ∈ liveLinks s) :
    rd (addressTaken s) .SPOKE_FAB_ADDR_ASSIGNED = 1 ∧ rd (addressTaken s) .SPOKE_FAB_STATUS_STATE = 1 ∧
    ∃ m p, Out.packet m p ∈ (addressTaken s).rep.outs ∧ p.type = 7 ∧ p.data = [ownAddr s, 1, 0, 0] := by
  have hset := (within_wr s .SPOKE_FAB_ADDR_ASSIGNED 0 1).append (within_wr _ .SPOKE_FAB_STATUS_STATE 0 1)
  have hstatus : rd (wr (wr s .SPOKE_FAB_ADDR_ASSIGNED 0 1) .SPOKE_FAB_STATUS_STATE 0 1) .SPOKE_FAB_STATUS_STATE = 1 := rd_wr_same _ _ _ _
  have hassigned : rd (wr (wr s .SPOKE_FAB_ADDR_ASSIGNED 0 1) .SPOKE_FAB_STATUS_STATE 0 1) .SPOKE_FAB_ADDR_ASSIGNED = 1 :=
    by simp [rd_wr]
  have hlive := liveLinks_congr hset rfl
  have hown : ownAddr (wr (wr s .SPOKE_FAB_ADDR_ASSIGNED 0 1) .SPOKE_FAB_STATUS_STATE 0 1) = ownAddr s := hset.regs _ _ (by decide)
  unfold addressTaken
  generalize wr (wr s .SPOKE_FAB_ADDR_ASSIGNED 0 1) .SPOKE_FAB_STATUS_STATE 0 1 = u at *
  have hjoin := within_sendJoin u
  refine ⟨(hjoin.regs _ _ (by simp)).trans hassigned, (hjoin.regs _ _ (by simp)).trans hstatus, ?_⟩
  rw [← hlive] at he
  obtain ⟨c, cs, hcs⟩ := List.exists_cons_of_ne_nil (List.ne_nil_of_mem he)
  obtain ⟨-, p, hp, htype, -, hdata⟩ := sendJoin_sends hcs
  exact ⟨c.1, p, hp, htype, hown ▸ hdata⟩

theorem liveLinks_of_linksMiscabled {e : Nat × HelloBody} (he : e ∈ liveLinks s) (hgood : implied s e.1 e.2 = some a) (t : Nat) :
    e ∈ liveLinks (linksMiscabled s t a) := by
  obtain ⟨hlt, hpeer, hup, hlive⟩ := mem_liveLinks.mp he
  have hlink : linkOf (linksMiscabled s t a) e.1 = linkOf s e.1 := by
    simp only [linkOf, fab_linksMiscabled]
    rfl
  refine mem_liveLinks.mpr ⟨hlt, hlink ▸ hpeer, ?_, (helloLive_congr (within_linksMiscabled s t a) e.2).trans hlive⟩
  rw [linkUp, rd_linksMiscabled_state he, if_pos hgood]
  exact hup

/-- What a written address does where some neighbour is LIVE. -/
theorem exec_spokeFabAddrWrite_live (hlive : liveLinks s ≠ []) (t : Nat) (hm : isMgmt s src = true) (hfree : rd s .SPOKE_FAB_ADDR_ASSIGNED ≠ 1)
    (hin : inFabric s (a % 4096) = true) : exec (.spokeFabAddrWrite src t a) s = settle s
      (if ∃ e ∈ liveLinks s, implied s e.1 e.2 = some (a % 4096) then addressTaken (linksMiscabled s t (a % 4096))
       else linksMiscabled s t (a % 4096)) := by
  rw [exec_spokeFabAddrWrite hm t a, if_neg (by simp [rdb_of_ne_one hfree, hin])]
  have hlen : ((liveLinks s).filter fun e => implied s e.1 e.2 != some (a % 4096)).length = (liveLinks s).length ↔
      ¬ ∃ e ∈ liveLinks s, implied s e.1 e.2 = some (a % 4096) := by
    rw [List.length_filter_eq_length_iff]
    simp
  generalize hls : liveLinks s = ls at *
  cases ls with
  | nil => exact absurd rfl hlive
  | cons e es =>
    dsimp only
    by_cases hgood : ∃ c ∈ e :: es, implied s c.1 c.2 = some (a % 4096)
    · rw [if_pos hgood, if_neg (fun h => hlen.mp h hgood), linksMiscabled, hls]
      rfl
    · rw [if_neg hgood, if_pos (hlen.mpr hgood), linksMiscabled, hls]

section Written
variable (hm : isMgmt s src = true) (hfree : rd s .SPOKE_FAB_ADDR_ASSIGNED ≠ 1) (hin : inFabric s (a % 4096) = true) (t : Nat)
include hm hfree hin

theorem spokeFabAddrWrite_roots (hlive : liveLinks s = []) : Runs (.spokeFabAddrWrite src t a) s fun v =>
    rd v .SPOKE_FAB_ADDR_ADDR = a % 4096 ∧ rd v .SPOKE_FAB_ADDR_ASSIGNED = 1 ∧ rd v .SPOKE_FAB_ADDR_EPOCH = 1 ∧
    rd v .SPOKE_FAB_STATUS_STATE = 2 ∧ rd v .EPOCH_ENTRY_STATE (a % 4096) = 1 ∧ rd v .EPOCH_ENTRY_EPOCH (a % 4096) = 1 ∧
    Frame [.fab, .now, .rep] (reportFlds ++ [.EPOCH_ENTRY_EPOCH, .EPOCH_ENTRY_STATE, .SPOKE_FAB_ADDR_ADDR,
      .SPOKE_FAB_ADDR_ASSIGNED, .SPOKE_FAB_ADDR_EPOCH, .SPOKE_FAB_STATUS_STATE]) s v := by
  have hexec : exec (.spokeFabAddrWrite src t a) s = settle s (rootFabric (addrNoted s t (a % 4096))) := by
    rw [exec_spokeFabAddrWrite hm t a, if_neg (by simp [rdb_of_ne_one hfree, hin]), hlive]
  have haddr : rd (addrNoted s t (a % 4096)) .SPOKE_FAB_ADDR_ADDR = a % 4096 := rd_wr_same (tick s t) .SPOKE_FAB_ADDR_ADDR 0 (a % 4096)
  have hw := within_addrNoted s t (a % 4096)
  generalize addrNoted s t (a % 4096) = u at *
  obtain ⟨haddr', hassigned, hepoch, hst, hentry, hentryEpoch⟩ := rootFabric_forms u
  have hroot := within_rootFabric u
  generalize rootFabric u = w at *
  refine runs_of_settle hexec ?_
  have hall : Within [.fab, .now, .rep] _ s w := (hw.append hroot).mono (by simp) (List.Subset.refl _)
  rw [rd_settled_other _ _ _ _ (by decide), rd_settled_other _ _ _ _ (by decide), rd_settled_other _ _ _ _ (by decide),
    rd_settled_other _ _ _ _ (by decide), rd_settled_other _ _ _ _ (by decide), rd_settled_other _ _ _ _ (by decide), ← haddr]
  exact ⟨haddr', hassigned, hepoch, hst, hentry, hentryEpoch, (hall.mono (List.Subset.refl _) (by decide)).settled⟩

theorem spokeFabAddrWrite_joins (hlive : liveLinks s ≠ []) : Runs (.spokeFabAddrWrite src t a) s fun v =>
    rd v .SPOKE_FAB_ADDR_ADDR = a % 4096 ∧ v.fab.addrWritten = true ∧
    (∀ e ∈ liveLinks s, implied s e.1 e.2 ≠ some (a % 4096) → rd v .SPOKE_LINK_STATE_STATE e.1 = 5) ∧
    ((∃ e ∈ liveLinks s, implied s e.1 e.2 = some (a % 4096)) → rd v .SPOKE_FAB_ADDR_ASSIGNED = 1 ∧ rd v .SPOKE_FAB_STATUS_STATE = 1 ∧
      ∃ m p, .packet m p ∈ v.rep.outs ∧ p.type = 7 ∧ p.data = [a % 4096, 1, 0, 0]) ∧
    Frame [.fab, .now, .rep] (linkFlds ++ [.SPOKE_FAB_ADDR_ADDR, .SPOKE_FAB_ADDR_ASSIGNED, .SPOKE_FAB_STATUS_STATE]) s v := by
  have hexec := exec_spokeFabAddrWrite_live hlive t hm hfree hin
  have haddr := rd_linksMiscabled_addr s t (a % 4096)
  have hwritten : (linksMiscabled s t (a % 4096)).fab.addrWritten = true := by
    rw [fab_linksMiscabled]
    rfl
  have hbad := fun e (he : e ∈ liveLinks s) => rd_linksMiscabled_state he t (a % 4096)
  have hw := within_linksMiscabled s t (a % 4096)
  have hstill := fun e (he : e ∈ liveLinks s) => liveLinks_of_linksMiscabled (e := e) (a := a % 4096) he (t := t)
  generalize linksMiscabled s t (a % 4096) = u at *
  by_cases hgood : ∃ e ∈ liveLinks s, implied s e.1 e.2 = some (a % 4096)
  · rw [if_pos hgood] at hexec
    obtain ⟨e, he, hegood⟩ := hgood
    obtain ⟨hassigned, hst, m, p, hp, htype, hdata⟩ := addressTaken_joins (hstill e he hegood)
    have hown : ownAddr u = a % 4096 := haddr
    have htaken := within_addressTaken u
    have hwritten' : (addressTaken u).fab.addrWritten = u.fab.addrWritten := addrWritten_addressTaken u
    generalize addressTaken u = w at *
    refine runs_of_settle hexec ?_
    have hall : Within [.fab, .now, .rep] _ s w := (hw.append htaken).mono (by simp) (List.Subset.refl _)
    refine ⟨?_, hwritten'.trans hwritten, fun c hc hcbad => ?_, fun _ => ⟨?_, ?_, m, p, hp, htype, hown ▸ hdata⟩,
      (hall.mono (List.Subset.refl _) (by decide)).settled⟩
    · rw [rd_settled_other _ _ _ _ (by decide), htaken.regs _ _ (by decide)]
      exact haddr
    · rw [rd_settled_other _ _ _ _ (by decide), htaken.regs _ _ (by decide), hbad c hc, if_neg hcbad]
    · rw [rd_settled_other _ _ _ _ (by decide)]
      exact hassigned
    · rw [rd_settled_other _ _ _ _ (by decide)]
      exact hst
  · rw [if_neg hgood] at hexec
    refine runs_of_settle hexec ?_
    refine ⟨?_, hwritten, fun c hc hcbad => ?_, fun h => absurd h hgood, (hw.mono (List.Subset.refl _) (by decide)).settled⟩
    · rw [rd_settled_other _ _ _ _ (by decide)]
      exact haddr
    · rw [rd_settled_other _ _ _ _ (by decide), hbad c hc, if_neg hcbad]

end Written

theorem spokeFabAddrWrite_ignored (hm : isMgmt s src = true) (t : Nat)
    (h : rd s .SPOKE_FAB_ADDR_ASSIGNED = 1 ∨ inFabric s (a % 4096) = false) : Runs (.spokeFabAddrWrite src t a) s fun v =>
      KeptBut [.now] s v ∧ RegsKept [] s v :=
  ticks_runs (t := t) (by
    rw [exec_spokeFabAddrWrite hm t a, if_pos (h.imp_left fun h => by simp [rdb, h])])

end Sys2Proof.Machine
end


section
/-! O55: liveness, with the loss of a module and what it does here (R355, R357, R358, Table 12-6). -/

namespace Sys2Proof.Machine

variable {s u : State} {t l a m : Nat}

/-! What the loss of a member changes: items, sessions, jobs, commands and reports, never memory or an epoch -/

/-- What the loss of a module may change here. -/
abbrev LossFrame (s u : State) : Prop := Within [.core, .serve, .rep, .lard, .tt, .fab, .dbg, .pann] queueFlds s u

theorem QueueFrame.loss (h : QueueFrame s u) : LossFrame s u := h.within.mono (by decide) (List.Subset.refl _)

theorem lossFrame_of_item (h : ItemFrame s u) : LossFrame s u := h.mono (by decide) (by decide)

theorem lossFrame_losePeerSession (s : State) (i : Nat) : LossFrame s (losePeerSession s i) :=
  lossFrame_of_item ((frame_endItems s _ 0x21 0).trans (frame_freeSession _ i))

theorem lossFrame_discardCycle (s : State) (slot : Nat) : LossFrame s (discardCycle s slot) :=
  (within_pann s _).mono (by decide) (by decide)

theorem lossFrame_losePeerSegment (s : State) (g : Segment) : LossFrame s (losePeerSegment s g) := by
  unfold losePeerSegment
  extract_lets u slots ts v
  have hdrop : LossFrame s u := (within_fab s _).mono (by decide) (by decide)
  have htasks : LossFrame u v := within_each _ (fun x (e : List (Nat × Nat) × Nat) => (queueFrame_endTask x e.1 e.2 0x21 0).loss) _ _
  exact hdrop.trans (htasks.trans ((lossFrame_of_item (frame_endItems v _ 0x21 0)).trans (within_each _ lossFrame_discardCycle _ _)))

theorem lossFrame_peerDead (s : State) (m : Nat) : LossFrame s (peerDead s m) := by
  unfold peerDead
  extract_lets u hit v heads w
  have hsegments : LossFrame s u := within_each _ lossFrame_losePeerSegment _ _
  have hsessions : LossFrame u v := within_each _ (fun x (e : Nat × Root) => lossFrame_losePeerSession x e.1) _ _
  have hheads : LossFrame v w := (within_lard v _).mono (by decide) (by decide)
  refine hsegments.trans (hsessions.trans (hheads.trans ?_))
  split
  · exact Within.refl _ _ w
  · exact (within_tt w _).mono (by decide) (by decide)

/-! LOST links that go DOWN -/

/-- A link is DOWN. -/
def linkDropped (s : State) (l : Nat) : State :=
  setLinkState (setLink (setLanes s l []) l { emptyLink with badLanes := (linkOf s l).badLanes }) l 0 0

theorem lostDown_eq (s : State) (p : Nat → Bool) : lostDown s p =
    each ((List.range 6).filter fun l => rd s .SPOKE_LINK_STATE_STATE l == 6 && p l) s linkDropped := rfl

theorem within_setLanes (s : State) (l : Nat) (ls : List Nat) :
    Within [] [.SPOKE_LINK_STATE_LANES, .SPOKE_LINK_STATE_LANE_MASK] s (setLanes s l ls) :=
  (within_wr s _ _ _).append (within_wr _ .SPOKE_LINK_STATE_LANE_MASK _ _)

theorem within_linkDropped (s : State) (l : Nat) : Within [.fab, .rep] linkFlds s (linkDropped s l) :=
  (((within_setLanes s l []).append (within_setLink _ l _)).append (within_setLinkState _ l 0 0)).mono (by simp) (by decide)

theorem rd_linkDropped (s : State) (l m : Nat) : rd (linkDropped s l) .SPOKE_LINK_STATE_STATE m =
    if m = l then 0 else rd s .SPOKE_LINK_STATE_STATE m := by
  rw [linkDropped, rd_setLinkState, (within_setLink _ l _).regs _ _ (by simp), (within_setLanes s l []).regs _ _ (by simp)]

theorem within_lostDown (s : State) (p : Nat → Bool) : Within [.fab, .rep] linkFlds s (lostDown s p) :=
  within_each _ within_linkDropped _ s

theorem within_linksDown (s : State) (m : Nat) : Within [.fab, .rep] linkFlds s (linksDown s m) := within_lostDown s _

theorem rd_linksDropped (m : Nat) : ∀ (ls : List Nat) (s : State), m ∈ ls ∨ rd s .SPOKE_LINK_STATE_STATE m = 0 →
    rd (each ls s linkDropped) .SPOKE_LINK_STATE_STATE m = 0
  | [], s, h => h.resolve_left List.not_mem_nil
  | l :: ls, s, h => by
    refine rd_linksDropped m ls (linkDropped s l) ?_
    rw [rd_linkDropped]
    rcases h with hmem | hzero
    · rcases List.mem_cons.mp hmem with rfl | hrest
      · exact .inr (if_pos rfl)
      · exact .inl hrest
    · exact .inr (by simp [hzero])

theorem linksDown_drops (hl : l < 6) (hst : rd s .SPOKE_LINK_STATE_STATE l = 6) (hm : peerOf s l = m) :
    rd (linksDown s m) .SPOKE_LINK_STATE_STATE l = 0 := by
  rw [linksDown, lostDown_eq]
  exact rd_linksDropped l _ s (.inl (List.mem_filter.mpr ⟨List.mem_range.mpr hl, by simp [hst, hm]⟩))

/-! The module that declares another dead -/

/-- What a declaration, or a module that finds itself dead, may change. -/
abbrev DeathFrame (s u : State) : Prop := Within [.core, .serve, .rep, .lard, .tt, .fab, .dbg, .pann, .now] (queueFlds ++ linkFlds) s u

theorem deathFrame_lost (s : State) (m : Nat) : DeathFrame s (linksDown (peerDead s m) m) :=
  ((lossFrame_peerDead s m).append (within_linksDown _ m)).mono (by decide) (List.Subset.refl _)

/-- The entry of a module that is declared dead, with its record and its flood. -/
def deathNoted (s : State) (m : Nat) : State :=
  let e := nextEpoch (entryEpoch s m)
  let u := floodEpoch (epochRecord (setEntry s m e 2) m e 2 1 (ownAddr s)) ⟨m, e, 2, ownAddr s⟩ 6
  updFab u fun f => { f with reports := f.reports.filter (fun r => r.2 != m) }

theorem declareDead_eq (s : State) (m : Nat) : declareDead s m = linksDown (peerDead (deathNoted s m) m) m := rfl

theorem within_deathNoted (s : State) (m : Nat) :
    Within [.fab, .rep] (reportFlds ++ [.EPOCH_ENTRY_EPOCH, .EPOCH_ENTRY_STATE]) s (deathNoted s m) := by
  unfold deathNoted
  extract_lets e u
  have hu := ((within_setEntry s m e 2).append (within_epochRecord _ m e 2 1 (ownAddr s))).append (within_floodEpoch _ ⟨m, e, 2, ownAddr s⟩ 6)
  exact (hu.append (within_fab u _)).mono (by simp) (by simp)

theorem rd_deathNoted (s : State) (m : Nat) : rd (deathNoted s m) .EPOCH_ENTRY_STATE m = 2 ∧
    rd (deathNoted s m) .EPOCH_ENTRY_EPOCH m = nextEpoch (rd s .EPOCH_ENTRY_EPOCH m) := by
  unfold deathNoted
  extract_lets e u
  have hu := (within_epochRecord (setEntry s m e 2) m e 2 1 (ownAddr s)).append (within_floodEpoch _ ⟨m, e, 2, ownAddr s⟩ 6)
  show rd u _ _ = 2 ∧ rd u _ _ = _
  rw [hu.regs _ _ (by decide), hu.regs _ _ (by decide)]
  constructor <;> simp [setEntry, rd_wr, entryEpoch, e]

theorem declareDead_declares (s : State) (m : Nat) : rd (declareDead s m) .EPOCH_ENTRY_STATE m = 2 ∧
    rd (declareDead s m) .EPOCH_ENTRY_EPOCH m = nextEpoch (rd s .EPOCH_ENTRY_EPOCH m) ∧ (declareDead s m).mem = s.mem := by
  obtain ⟨hstate, hepoch⟩ := rd_deathNoted s m
  have hw := within_deathNoted s m
  rw [declareDead_eq]
  generalize deathNoted s m = u at *
  have hlost := deathFrame_lost u m
  exact ⟨(hlost.regs _ _ (by decide)).trans hstate, (hlost.regs _ _ (by decide)).trans hepoch,
    Eq.trans (hlost.kept .mem (by decide)) (hw.kept .mem (by decide))⟩

theorem declareDead_drops (hl : l < 6) (hst : rd s .SPOKE_LINK_STATE_STATE l = 6) (hm : peerOf s l = m) :
    rd (declareDead s m) .SPOKE_LINK_STATE_STATE l = 0 := by
  rw [declareDead_eq]
  have hw := (within_deathNoted s m).append (lossFrame_peerDead (deathNoted s m) m)
  exact linksDown_drops hl ((hw.regs _ _ (by decide)).trans hst) ((hw.regs _ _ (by decide)).trans hm)

/-! A module that finds itself dead (R358) -/

/-- Its segments and its spread sessions are lost. -/
def selfLost (s : State) : State :=
  let u := each s.fab.segments s losePeerSegment
  each (u.lard.roots.filter fun e => !e.2.members.isEmpty) u fun x e => losePeerSession x e.1

/-- No module's liveness is known. -/
def entriesCleared (s : State) : State := { s with regs := s.regs.filter fun e => e.1 % 1024 != Fld.EPOCH_ENTRY_STATE.ctorIdx }

/-- It is SELF_DEAD. -/
def selfDeadSet (s : State) : State :=
  updFab (wr (wr s .SPOKE_FAB_STATUS_STATE 0 5) .SPOKE_FAB_STATUS_SETTLED 0 0) fun f => { f with allLostAt := none, grantAt := none }

theorem selfDead_eq (s : State) : ∃ ended, selfDead s =
    lostDown (report (selfDeadSet (entriesCleared (selfLost s))) 0x1B 0
      [(2, ownAddr (selfDeadSet (entriesCleared (selfLost s))), false), (2, ownEpoch (selfDeadSet (entriesCleared (selfLost s))), false),
        (4, ended, false)]) fun _ => true := ⟨_, rfl⟩

theorem lossFrame_selfLost (s : State) : LossFrame s (selfLost s) := by
  unfold selfLost
  extract_lets u
  have hsegments : LossFrame s u := within_each _ lossFrame_losePeerSegment _ _
  exact hsegments.trans (within_each _ (fun x (e : Nat × Root) => lossFrame_losePeerSession x e.1) _ _)

theorem rd_entriesCleared (s : State) (f : Fld) (n : Nat) :
    rd (entriesCleared s) f n = if f = .EPOCH_ENTRY_STATE then 0 else rd s f n := by
  have hkeep : (entriesCleared s).regs = storeKeep (fun k => k % 1024 != Fld.EPOCH_ENTRY_STATE.ctorIdx) s.regs := rfl
  have hmod : regKey f n % 1024 = f.ctorIdx := by
    have hlt := ctorIdx_lt f
    rw [regKey]
    omega
  unfold rd
  rw [hkeep, storeGet_keep, hmod]
  by_cases hf : f = .EPOCH_ENTRY_STATE
  · subst hf
    simp
    rfl
  · have hne : f.ctorIdx ≠ Fld.EPOCH_ENTRY_STATE.ctorIdx := fun h => hf (ctorIdx_inj h)
    simp [hf, hne]

theorem parts_entriesCleared (s : State) : KeptBut [] s (entriesCleared s) := fun p _ => by cases p <;> rfl

/-- A module that is SELF_DEAD keeps its epochs and its memory, and knows of no module whether it lives. -/
theorem selfDead_clears (s : State) : rd (selfDead s) .SPOKE_FAB_STATUS_STATE = 5 ∧ rd (selfDead s) .SPOKE_FAB_STATUS_SETTLED = 0 ∧
    (∀ d, rd (selfDead s) .EPOCH_ENTRY_STATE d = 0) ∧ (∀ d, rd (selfDead s) .EPOCH_ENTRY_EPOCH d = rd s .EPOCH_ENTRY_EPOCH d) ∧
    (selfDead s).mem = s.mem := by
  obtain ⟨ended, hdead⟩ := selfDead_eq s
  rw [hdead]
  have hlost := lossFrame_selfLost s
  generalize selfLost s = u at *
  have hmem : (entriesCleared u).mem = u.mem := rfl
  have hstate := fun d => rd_entriesCleared u .EPOCH_ENTRY_STATE d
  have hepoch := fun d => rd_entriesCleared u .EPOCH_ENTRY_EPOCH d
  generalize entriesCleared u = v at *
  have hset : Within [.fab] [.SPOKE_FAB_STATUS_STATE, .SPOKE_FAB_STATUS_SETTLED] v (selfDeadSet v) :=
    ((within_wr v _ _ _).append (within_wr _ .SPOKE_FAB_STATUS_SETTLED 0 0)).append (within_fab _ _)
  have hfive : rd (selfDeadSet v) .SPOKE_FAB_STATUS_STATE = 5 ∧ rd (selfDeadSet v) .SPOKE_FAB_STATUS_SETTLED = 0 := by
    have hreg : ∀ f n, rd (selfDeadSet v) f n = rd (wr (wr v .SPOKE_FAB_STATUS_STATE 0 5) .SPOKE_FAB_STATUS_SETTLED 0 0) f n := fun _ _ => rfl
    constructor <;> simp [hreg, rd_wr]
  generalize selfDeadSet v = w at *
  have hrest := (within_report w 0x1B 0 [(2, ownAddr w, false), (2, ownEpoch w, false), (4, ended, false)] none 0 false).append
    (within_lostDown _ fun _ => true)
  refine ⟨(hrest.regs _ _ (by decide)).trans hfive.1, (hrest.regs _ _ (by decide)).trans hfive.2, fun d => ?_, fun d => ?_, ?_⟩
  · rw [hrest.regs _ _ (by decide), hset.regs _ _ (by decide), hstate, if_pos rfl]
  · rw [hrest.regs _ _ (by decide), hset.regs _ _ (by decide), hepoch, if_neg (by decide), hlost.regs _ _ (by decide)]
  · exact Eq.trans (hrest.kept .mem (by decide)) (Eq.trans (hset.kept .mem (by decide)) (hmem.trans (hlost.kept .mem (by decide))))

end Sys2Proof.Machine
end


section
/-! O55: SELF_DEAD_TIMEOUT, EPOCH, LINKLOST and DECLARE_TIMEOUT (R355, R357, R358). -/

namespace Sys2Proof.Machine

variable {s u : State} {t l a m : Nat}

/-! SELF_DEAD_TIMEOUT (R358) -/

theorem selfDeadTimeout_runs {x : Nat} (hlost : s.fab.allLostAt = some x) (hdue : x + 200000 ≤ max s.now t) (hall : allLost s = true)
    (hst : rd s .SPOKE_FAB_STATUS_STATE ∈ [2, 3, 4]) : Runs (.selfDeadTimeout t) s fun v =>
      rd v .SPOKE_FAB_STATUS_STATE = 5 ∧ rd v .SPOKE_FAB_STATUS_SETTLED = 0 ∧ (∀ d, rd v .EPOCH_ENTRY_STATE d = 0) ∧
      (∀ d, rd v .EPOCH_ENTRY_EPOCH d = rd s .EPOCH_ENTRY_EPOCH d) ∧ v.mem = s.mem := by
  have hexec : exec (.selfDeadTimeout t) s = settle s (selfDead (tick s t)) := by
    show execSelfDeadTimeout t s = _
    unfold execSelfDeadTimeout
    dsimp only
    rw [show (tick s t).fab.allLostAt = some x from hlost]
    dsimp only
    rw [if_pos (show x + 200000 ≤ (tick s t).now ∧ allLost (tick s t) = true ∧ rd (tick s t) .SPOKE_FAB_STATUS_STATE ∈ [2, 3, 4] from
      ⟨hdue, hall, hst⟩)]
  obtain ⟨hfive, hsettled, hstate, hepoch, hmem⟩ := selfDead_clears (tick s t)
  refine runs_of_settle hexec ⟨?_, ?_, fun d => ?_, fun d => ?_, hmem⟩
  · rwa [rd_settled_other _ _ _ _ (by decide)]
  · rwa [rd_settled_other _ _ _ _ (by decide)]
  · rw [rd_settled_other _ _ _ _ (by decide)]
    exact hstate d
  · rw [rd_settled_other _ _ _ _ (by decide)]
    exact hepoch d

/-! EPOCH (R355, R358) -/

/-- A body that is ahead of its entry, or that says DEAD of a LIVE module at the same epoch. -/
def bodyTaken (s : State) (b : EpochBody) (a : Nat) : Prop :=
  serialAhead b.epoch (rd s .EPOCH_ENTRY_EPOCH a) = true ∨
    (b.epoch = rd s .EPOCH_ENTRY_EPOCH a ∧ b.st = 2 ∧ rd s .EPOCH_ENTRY_STATE a = 1)

/-- A body that is taken: its entry, with the record. -/
def entryTaken (s : State) (b : EpochBody) (a : Nat) : State :=
  epochRecord (setEntry s a b.epoch b.st) a b.epoch b.st (if b.st = 1 then 2 else if b.st = 2 then 1 else 3) b.orig

theorem within_entryTaken (s : State) (b : EpochBody) (a : Nat) :
    Within [.rep] (reportFlds ++ [.EPOCH_ENTRY_EPOCH, .EPOCH_ENTRY_STATE]) s (entryTaken s b a) :=
  ((within_setEntry s a _ _).append (within_epochRecord _ _ _ _ _ _)).mono (by simp) (by simp)

theorem rd_entryTaken_state (s : State) (b : EpochBody) (a d : Nat) :
    rd (entryTaken s b a) .EPOCH_ENTRY_STATE d = if d = a then b.st else rd s .EPOCH_ENTRY_STATE d := by
  rw [entryTaken, (within_epochRecord _ _ _ _ _ _).regs _ _ (by decide)]
  simp [setEntry, rd_wr]

theorem rd_entryTaken_epoch (s : State) (b : EpochBody) (a d : Nat) :
    rd (entryTaken s b a) .EPOCH_ENTRY_EPOCH d = if d = a then b.epoch else rd s .EPOCH_ENTRY_EPOCH d := by
  rw [entryTaken, (within_epochRecord _ _ _ _ _ _).regs _ _ (by decide)]
  simp [setEntry, rd_wr]

/-- A body that has come and been flooded on. -/
def bodyFlooded (s : State) (t l : Nat) (b : EpochBody) : State := floodEpoch (tick s t) b l

theorem within_bodyFlooded (s : State) (t l : Nat) (b : EpochBody) : Within [.fab, .now, .rep] [] s (bodyFlooded s t l b) :=
  ((within_tick s t).append (within_floodEpoch _ b l)).mono (by simp) (by simp)

theorem bodyAhead_iff (s : State) (t l a : Nat) (b : EpochBody) :
    (serialAhead b.epoch (entryEpoch (bodyFlooded s t l b) a) ||
      (b.epoch == entryEpoch (bodyFlooded s t l b) a && b.st == 2 && entryState (bodyFlooded s t l b) a == 1)) = true ↔ bodyTaken s b a := by
  have hw := within_bodyFlooded s t l b
  rw [entryEpoch, entryState, hw.regs _ _ (by simp), hw.regs _ _ (by simp)]
  simp [bodyTaken, and_assoc]

section Epoch
variable {b : EpochBody} (hl : l < 6) (hup : rd s .SPOKE_LINK_STATE_STATE l = 2)
include hl hup

theorem exec_epoch (t : Nat) (hst : b.st = 1 ∨ b.st = 2 ∨ b.st = 3) : exec (.epoch t l b) s = settle s
    (let u := bodyFlooded s t l b
     let a := b.addr % 4096
     let w := entryTaken u b a
     if (!(serialAhead b.epoch (entryEpoch u a) || (b.epoch == entryEpoch u a && b.st == 2 && entryState u a == 1))) = true then u
     else if a = ownAddr w ∧ rdb w .SPOKE_FAB_ADDR_ASSIGNED ∧ b.st ≠ 1 then sendJoin (selfDead w)
     else if b.st = 2 then linksDown (peerDead w a) a
     else w) := by
  show execEpoch t l b s = _
  unfold execEpoch
  dsimp only
  rw [if_neg (show ¬ (¬ (l < 6 ∧ linkUp (tick s t) l = true) ∨ b.st = 0 ∨ 3 < b.st) from fun h => by
    rcases h with h | h
    · exact h ⟨hl, linkUp_of_state hup⟩
    · omega)]
  rfl

theorem exec_epoch_taken (t : Nat) (hst : b.st = 1 ∨ b.st = 2 ∨ b.st = 3) (htaken : bodyTaken s b (b.addr % 4096)) :
    exec (.epoch t l b) s = settle s
      (if b.addr % 4096 = ownAddr s ∧ rdb s .SPOKE_FAB_ADDR_ASSIGNED ∧ b.st ≠ 1 then
        sendJoin (selfDead (entryTaken (bodyFlooded s t l b) b (b.addr % 4096)))
       else if b.st = 2 then linksDown (peerDead (entryTaken (bodyFlooded s t l b) b (b.addr % 4096)) (b.addr % 4096)) (b.addr % 4096)
       else entryTaken (bodyFlooded s t l b) b (b.addr % 4096)) := by
  have hahead := (bodyAhead_iff s t l (b.addr % 4096) b).mpr htaken
  have hw := (within_bodyFlooded s t l b).append (within_entryTaken (bodyFlooded s t l b) b (b.addr % 4096))
  have hown : ownAddr (entryTaken (bodyFlooded s t l b) b (b.addr % 4096)) = ownAddr s := hw.regs _ _ (by decide)
  have hassigned : rdb (entryTaken (bodyFlooded s t l b) b (b.addr % 4096)) .SPOKE_FAB_ADDR_ASSIGNED = rdb s .SPOKE_FAB_ADDR_ASSIGNED := by
    rw [rdb, rdb, hw.regs _ _ (by decide)]
  rw [exec_epoch hl hup t hst]
  dsimp only
  rw [hahead, if_neg (by decide), hown, hassigned]

theorem epoch_kills (t : Nat) (hst : b.st = 2 ∨ b.st = 3) (htaken : bodyTaken s b (b.addr % 4096)) (hown : b.addr % 4096 = ownAddr s)
    (hassigned : rd s .SPOKE_FAB_ADDR_ASSIGNED = 1) : Runs (.epoch t l b) s fun v =>
      rd v .SPOKE_FAB_STATUS_STATE = 5 ∧ rd v .SPOKE_FAB_STATUS_SETTLED = 0 ∧ (∀ d, rd v .EPOCH_ENTRY_STATE d = 0) ∧ v.mem = s.mem := by
  have hexec := exec_epoch_taken hl hup t (.inr hst) htaken
  rw [if_pos ⟨hown, rdb_of_one hassigned, by omega⟩] at hexec
  have hw := (within_bodyFlooded s t l b).append (within_entryTaken (bodyFlooded s t l b) b (b.addr % 4096))
  generalize entryTaken (bodyFlooded s t l b) b (b.addr % 4096) = u at *
  obtain ⟨hfive, hsettled, hstate, -, hmem⟩ := selfDead_clears u
  generalize selfDead u = w at *
  have hjoin := within_sendJoin w
  refine runs_of_settle hexec ⟨?_, ?_, fun d => ?_, ?_⟩
  · rwa [rd_settled_other _ _ _ _ (by decide), hjoin.regs _ _ (by simp)]
  · rwa [rd_settled_other _ _ _ _ (by decide), hjoin.regs _ _ (by simp)]
  · rw [rd_settled_other _ _ _ _ (by decide), hjoin.regs _ _ (by simp)]
    exact hstate d
  · exact Eq.trans (hjoin.kept .mem (by decide)) (hmem.trans (hw.kept .mem (by decide)))

theorem epoch_takes (t : Nat) (hst : b.st = 1 ∨ b.st = 2 ∨ b.st = 3) (htaken : bodyTaken s b (b.addr % 4096))
    (hother : b.addr % 4096 ≠ ownAddr s ∨ b.st = 1 ∨ rd s .SPOKE_FAB_ADDR_ASSIGNED ≠ 1) : Runs (.epoch t l b) s fun v =>
      rd v .EPOCH_ENTRY_EPOCH (b.addr % 4096) = b.epoch ∧ rd v .EPOCH_ENTRY_STATE (b.addr % 4096) = b.st ∧ v.mem = s.mem ∧
      (∀ d, d ≠ b.addr % 4096 → rd v .EPOCH_ENTRY_STATE d = rd s .EPOCH_ENTRY_STATE d ∧
        rd v .EPOCH_ENTRY_EPOCH d = rd s .EPOCH_ENTRY_EPOCH d) ∧
      (b.st ≠ 2 → Frame [.fab, .now, .rep] (reportFlds ++ [.EPOCH_ENTRY_EPOCH, .EPOCH_ENTRY_STATE]) s v) := by
  have hexec := exec_epoch_taken hl hup t hst htaken
  rw [if_neg (fun h => hother.elim (fun k => k h.1) fun k => k.elim h.2.2 fun k => by
    rw [rdb_of_ne_one k] at h
    simp at h)] at hexec
  have hflood := within_bodyFlooded s t l b
  have htake := within_entryTaken (bodyFlooded s t l b) b (b.addr % 4096)
  have hstate := rd_entryTaken_state (bodyFlooded s t l b) b (b.addr % 4096)
  have hepoch := rd_entryTaken_epoch (bodyFlooded s t l b) b (b.addr % 4096)
  generalize entryTaken (bodyFlooded s t l b) b (b.addr % 4096) = w at *
  generalize bodyFlooded s t l b = u at *
  have hall : Within [.fab, .now, .rep] _ s w := (hflood.append htake).mono (by simp) (List.Subset.refl _)
  have hentries : ∀ {x : State}, DeathFrame w x → rd x .EPOCH_ENTRY_EPOCH (b.addr % 4096) = b.epoch ∧
      rd x .EPOCH_ENTRY_STATE (b.addr % 4096) = b.st ∧ x.mem = s.mem ∧ ∀ d, d ≠ b.addr % 4096 →
        rd x .EPOCH_ENTRY_STATE d = rd s .EPOCH_ENTRY_STATE d ∧ rd x .EPOCH_ENTRY_EPOCH d = rd s .EPOCH_ENTRY_EPOCH d := by
    intro x hx
    refine ⟨?_, ?_, Eq.trans (hx.kept .mem (by decide)) (hall.kept .mem (by decide)), fun d hd => ⟨?_, ?_⟩⟩
    · rw [hx.regs _ _ (by decide), hepoch, if_pos rfl]
    · rw [hx.regs _ _ (by decide), hstate, if_pos rfl]
    · rw [hx.regs _ _ (by decide), hstate, if_neg hd, hflood.regs _ _ (by simp)]
    · rw [hx.regs _ _ (by decide), hepoch, if_neg hd, hflood.regs _ _ (by simp)]
  by_cases hdead : b.st = 2
  · rw [if_pos hdead] at hexec
    obtain ⟨he, hs, hmem, hrest⟩ := hentries (deathFrame_lost w (b.addr % 4096))
    generalize linksDown (peerDead w (b.addr % 4096)) (b.addr % 4096) = x at *
    refine runs_of_settle hexec ⟨?_, ?_, hmem, fun d hd => ?_, fun h => absurd hdead h⟩
    · exact (rd_settled_other _ _ _ _ (by decide)).trans he
    · exact (rd_settled_other _ _ _ _ (by decide)).trans hs
    · rw [rd_settled_other _ _ _ _ (by decide), rd_settled_other _ _ _ _ (by decide)]
      exact hrest d hd
  · rw [if_neg hdead] at hexec
    obtain ⟨he, hs, hmem, hrest⟩ := hentries (Within.refl _ _ w)
    refine runs_of_settle hexec ⟨?_, ?_, hmem, fun d hd => ?_, fun _ => (hall.mono (List.Subset.refl _) (by simp)).settled⟩
    · exact (rd_settled_other _ _ _ _ (by decide)).trans he
    · exact (rd_settled_other _ _ _ _ (by decide)).trans hs
    · rw [rd_settled_other _ _ _ _ (by decide), rd_settled_other _ _ _ _ (by decide)]
      exact hrest d hd

theorem epoch_notTaken (t : Nat) (h : ¬ bodyTaken s b (b.addr % 4096)) : Runs (.epoch t l b) s fun v =>
    KeptBut [.fab, .now, .rep] s v ∧ RegsKept [] s v := by
  by_cases hst : b.st = 1 ∨ b.st = 2 ∨ b.st = 3
  · have hexec := exec_epoch hl hup t hst
    dsimp only at hexec
    rw [if_pos (by rw [Bool.not_eq_true', Bool.eq_false_iff]; exact fun k => h ((bodyAhead_iff s t l _ b).mp k))] at hexec
    exact runs_of_settle hexec (within_bodyFlooded s t l b).toWithinAt.settled
  · refine runs_of_settle (t := tick s t) ?_ ((within_tick s t).mono (qs := [.fab, .now, .rep]) (by simp) (List.Subset.refl [])).toWithinAt.settled
    show execEpoch t l b s = _
    unfold execEpoch
    dsimp only
    rw [if_pos (.inr (by omega))]

end Epoch

/-! LINKLOST (R357) -/

/-- Whether this module, with a report more, declares a module dead. -/
def declares (s : State) (reporter lost : Nat) : Prop :=
  (∃ m, m < 6 ∧ rd s .SPOKE_LINK_STATE_STATE m = 6 ∧ peerOf s m = lost) ∧ declarer s lost = true ∧ rd s .EPOCH_ENTRY_STATE lost = 1 ∧
    ∀ a ∈ liveNeighbours s lost, a = reporter ∨ (a, lost) ∈ s.fab.reports

theorem liveNeighbours_congr {ps : List Part} (w : Within ps [] s u) (m : Nat) : liveNeighbours u m = liveNeighbours s m := by
  have hentry : ∀ a, entryState u a = entryState s a := fun a => w.regs _ _ (by simp)
  simp only [liveNeighbours, hentry, neighbour_congr w]

theorem declarer_congr {ps : List Part} (w : Within ps [] s u) (m : Nat) : declarer u m = declarer s m := by
  have hown : ownAddr u = ownAddr s := w.regs _ _ (by simp)
  rw [declarer, declarer, liveNeighbours_congr w, hown]

/-- The loss that a neighbour reports: it is flooded on and kept. -/
def lossNoted (s : State) (t l reporter lost rlink : Nat) : State :=
  updFab (flood (tick s t) 0xA [reporter, lost, rlink] l) fun f =>
    { f with reports := if (reporter, lost) ∈ f.reports then f.reports else f.reports ++ [(reporter, lost)] }

theorem within_lossNoted (s : State) (t l reporter lost rlink : Nat) :
    Within [.fab, .now, .rep] [] s (lossNoted s t l reporter lost rlink) :=
  (((within_tick s t).append (within_flood _ 0xA [reporter, lost, rlink] l)).append (within_fab _ _)).mono (by simp) (by simp)

theorem reports_flood (s : State) (type : Nat) (body : List Nat) (l : Nat) : (flood s type body l).fab.reports = s.fab.reports := by
  have hsend : ∀ (ls : List Nat) (x : State) (p : State → Nat → Packet),
      (each ls x fun y k => sendPacket y k (p y k)).fab.reports = x.fab.reports := by
    intro ls
    induction ls with
    | nil => exact fun x p => rfl
    | cons k ks ih =>
      intro x p
      refine (ih (sendPacket x k (p x k)) p).trans ?_
      obtain ⟨es, hes⟩ := (sends_sendPacket x k (p x k)).links
      rw [hes]
  unfold flood
  split
  · rfl
  · exact (hsend _ _ _).trans rfl

theorem mem_reports_lossNoted (s : State) (t l reporter lost rlink : Nat) (e : Nat × Nat) :
    e ∈ (lossNoted s t l reporter lost rlink).fab.reports ↔ e = (reporter, lost) ∨ e ∈ s.fab.reports := by
  have hreports := reports_flood (tick s t) 0xA [reporter, lost, rlink] l
  show e ∈ (if (reporter, lost) ∈ (flood (tick s t) 0xA [reporter, lost, rlink] l).fab.reports then _ else _) ↔ _
  rw [hreports]
  show e ∈ (if (reporter, lost) ∈ s.fab.reports then s.fab.reports else s.fab.reports ++ [(reporter, lost)]) ↔ _
  split
  · next h =>
    exact ⟨.inr, fun k => k.elim (fun he => he ▸ h) id⟩
  · simp [or_comm]

theorem tryDeclare_lossNoted (s : State) (t l reporter lost rlink : Nat) :
    (declares s reporter lost → tryDeclare (lossNoted s t l reporter lost rlink) lost = declareDead (lossNoted s t l reporter lost rlink) lost) ∧
    (¬ declares s reporter lost → tryDeclare (lossNoted s t l reporter lost rlink) lost = lossNoted s t l reporter lost rlink) := by
  have hw := within_lossNoted s t l reporter lost rlink
  have hreports := mem_reports_lossNoted s t l reporter lost rlink
  generalize lossNoted s t l reporter lost rlink = u at *
  have hstate : ∀ k, rd u .SPOKE_LINK_STATE_STATE k = rd s .SPOKE_LINK_STATE_STATE k := fun k => hw.regs _ _ (by simp)
  have hpeer : ∀ k, peerOf u k = peerOf s k := fun k => hw.regs _ _ (by simp)
  have hentry : entryState u lost = rd s .EPOCH_ENTRY_STATE lost := hw.regs _ _ (by simp)
  have hiff : ((List.range 6).any (fun k => rd u .SPOKE_LINK_STATE_STATE k == 6 && peerOf u k == lost) && declarer u lost &&
      entryState u lost == 1 && (liveNeighbours u lost).all (fun a => decide ((a, lost) ∈ u.fab.reports))) = true ↔ declares s reporter lost := by
    simp only [Bool.and_eq_true, List.any_eq_true, List.all_eq_true, List.mem_range, beq_iff_eq, decide_eq_true_eq, declares, hstate, hpeer,
      hentry, hreports, declarer_congr hw, liveNeighbours_congr hw, Prod.mk.injEq, and_true, and_assoc]
  unfold tryDeclare
  exact ⟨fun h => if_pos (hiff.mpr h), fun h => if_neg fun k => h (hiff.mp k)⟩

section Linklost
variable {reporter lost : Nat} (hl : l < 6) (hup : rd s .SPOKE_LINK_STATE_STATE l = 2) (t rlink : Nat)
include hl hup

theorem exec_linklost (reporter lost : Nat) : exec (.linklost t l reporter lost rlink) s =
    settle s (tryDeclare (lossNoted s t l reporter lost rlink) lost) := by
  show execLinklost t l reporter lost rlink s = _
  unfold execLinklost
  dsimp only
  rw [if_neg (fun h => h ⟨hl, show linkUp (tick s t) l = true from linkUp_of_state hup⟩)]
  rfl

theorem linklost_kept (h : ¬ declares s reporter lost) : Runs (.linklost t l reporter lost rlink) s fun v =>
    (reporter, lost) ∈ v.fab.reports ∧ KeptBut [.fab, .now, .rep] s v ∧ RegsKept [] s v := by
  have hexec := exec_linklost hl hup t rlink reporter lost
  rw [(tryDeclare_lossNoted s t l reporter lost rlink).2 h] at hexec
  exact runs_of_settle hexec ⟨(mem_reports_lossNoted s t l reporter lost rlink _).mpr (.inl rfl),
    (within_lossNoted s t l reporter lost rlink).toWithinAt.settled⟩

theorem linklost_declares (h : declares s reporter lost) : Runs (.linklost t l reporter lost rlink) s fun v =>
    rd v .EPOCH_ENTRY_STATE lost = 2 ∧ rd v .EPOCH_ENTRY_EPOCH lost = nextEpoch (rd s .EPOCH_ENTRY_EPOCH lost) ∧ v.mem = s.mem := by
  have hexec := exec_linklost hl hup t rlink reporter lost
  rw [(tryDeclare_lossNoted s t l reporter lost rlink).1 h] at hexec
  have hw := within_lossNoted s t l reporter lost rlink
  generalize lossNoted s t l reporter lost rlink = u at *
  obtain ⟨hstate, hepoch, hmem⟩ := declareDead_declares u lost
  generalize declareDead u lost = w at *
  refine runs_of_settle hexec ⟨?_, ?_, Eq.trans hmem (hw.kept .mem (by decide))⟩
  · exact (rd_settled_other _ _ _ _ (by decide)).trans hstate
  · rwa [rd_settled_other _ _ _ _ (by decide), ← hw.regs _ _ (by simp)]

end Linklost

/-! DECLARE_TIMEOUT (R357) -/

theorem within_linkRetired (s : State) (l : Nat) : Within [.fab, .rep] linkFlds s (linkRetired s l) := by
  have hwr := (within_setLink s l { linkOf s l with replay := [] }).append (within_wr _ .SPOKE_LINK_STATE_STATE l 4)
  exact ((hwr.append (within_setLanes _ l [])).append (within_linkRecord _ l 4)).mono (by simp) (by decide)

theorem within_retireLink_nil (s : State) (l : Nat) : Within [.fab, .rep] linkFlds s (retireLink s l []) := by
  rw [retireLink_eq]
  split
  · exact within_linkRetired s l
  · exact within_linkRetired s l

section Declare
variable {x : Nat} (hl : l < 6) (hst : rd s .SPOKE_LINK_STATE_STATE l = 6) (hlost : (linkOf s l).lostAt = some x)
  (hdue : x + 100000 ≤ max s.now t)

section
include hst hlost hdue

theorem exec_declareTimeout (heard : Bool) : exec (.declareTimeout t l heard) s = settle s
    (if heard then retireLink (tick s t) l []
     else if rd s .EPOCH_ENTRY_STATE (peerOf s l) ≠ 1 then linksDown (tick s t) (peerOf s l)
     else if declarer s (peerOf s l) then declareDead (tick s t) (peerOf s l)
     else tick s t) := by
  show execDeclareTimeout t l heard s = _
  unfold execDeclareTimeout
  dsimp only
  rw [show (linkOf (tick s t) l).lostAt = some x from hlost]
  dsimp only
  rw [if_neg (show ¬ ((tick s t).now < x + 100000 ∨ rd (tick s t) .SPOKE_LINK_STATE_STATE l ≠ 6) from fun h =>
    h.elim (fun h => absurd hdue (by simpa using h)) fun h => h hst)]
  rfl

theorem declareTimeout_heard : Runs (.declareTimeout t l true) s fun v => LinkGone v l ∧ Frame [.fab, .now, .rep] linkFlds s v := by
  have hexec := exec_declareTimeout hst hlost hdue true
  rw [if_pos rfl] at hexec
  have hgone := linkGone_retireLink (tick s t) l []
  have hretired : Within [.fab, .rep] linkFlds (tick s t) (retireLink (tick s t) l []) := within_retireLink_nil _ l
  generalize retireLink (tick s t) l [] = u at *
  refine runs_of_settle hexec ⟨linkGone_congr hgone (fun f hf => rd_settled_other _ _ _ _ ?_) rfl,
    (((within_tick s t).append hretired).mono (by simp) (by simp)).settled⟩
  revert f
  decide

theorem declareTimeout_waits (hdecl : declarer s (peerOf s l) = false) (hlive : rd s .EPOCH_ENTRY_STATE (peerOf s l) = 1) :
    Runs (.declareTimeout t l false) s fun v => KeptBut [.now] s v ∧ RegsKept [] s v :=
  ticks_runs (t := t) (by
    rw [exec_declareTimeout hst hlost hdue false, if_neg (by decide), if_neg (fun h => h hlive), if_neg (by simp [hdecl])])

end

include hl hst hlost hdue

theorem declareTimeout_declares (hdecl : declarer s (peerOf s l) = true) (hlive : rd s .EPOCH_ENTRY_STATE (peerOf s l) = 1) :
    Runs (.declareTimeout t l false) s fun v =>
      rd v .EPOCH_ENTRY_STATE (peerOf s l) = 2 ∧ rd v .EPOCH_ENTRY_EPOCH (peerOf s l) = nextEpoch (rd s .EPOCH_ENTRY_EPOCH (peerOf s l)) ∧
      rd v .SPOKE_LINK_STATE_STATE l = 0 ∧ v.mem = s.mem := by
  have hexec := exec_declareTimeout hst hlost hdue false
  rw [if_neg (by decide), if_neg (fun h => h hlive), if_pos hdecl] at hexec
  obtain ⟨hstate, hepoch, hmem⟩ := declareDead_declares (tick s t) (peerOf s l)
  have hdown := declareDead_drops (s := tick s t) (m := peerOf s l) hl hst rfl
  generalize declareDead (tick s t) (peerOf s l) = u at *
  refine runs_of_settle hexec ⟨?_, ?_, ?_, hmem⟩
  · exact (rd_settled_other _ _ _ _ (by decide)).trans hstate
  · rw [rd_settled_other _ _ _ _ (by decide)]
    exact hepoch
  · rwa [rd_settled_other _ _ _ _ (by decide)]

theorem declareTimeout_drops (hlive : rd s .EPOCH_ENTRY_STATE (peerOf s l) ≠ 1) : Runs (.declareTimeout t l false) s fun v =>
    rd v .SPOKE_LINK_STATE_STATE l = 0 ∧ Frame [.fab, .now, .rep] linkFlds s v := by
  have hexec := exec_declareTimeout hst hlost hdue false
  rw [if_neg (by decide), if_pos hlive] at hexec
  have hdown := linksDown_drops (s := tick s t) (m := peerOf s l) hl hst rfl
  have hw := within_linksDown (tick s t) (peerOf s l)
  generalize linksDown (tick s t) (peerOf s l) = u at *
  refine runs_of_settle hexec ⟨?_, (((within_tick s t).append hw).mono (by simp) (by simp)).settled⟩
  rwa [rd_settled_other _ _ _ _ (by decide)]

end Declare

end Sys2Proof.Machine
end


section
/-! O55, assembled. -/

namespace Sys2Proof.Machine

/-- Settles O55: the Cadence (`spokeSync_runs`, `upstreamTimeout_holds`), HELLO and the address it implies (`hello_addresses`,
`hello_miscabled`), JOIN (`join_grants`, `join_granted`), the epochs and the loss of modules (`epoch_takes`, `linklost_declares`,
`declareTimeout_declares`), and the commands of management (`spokeFabAddrWrite_joins`, `fabDrain_starts`, `fabLeave_runs`). -/
theorem fabricRuns : Obligations.FabricRuns := by
  refine ⟨fun s t l p hl hup => ⟨spokeSync_runs hl hup t p, spokeSync_follows hl hup t⟩, fun s t => syncSend_runs,
    fun s t => upstreamTimeout_holds, ?_, fun s t => syncSend_waits, fun s t h => holdoverTimeout_runs, ?_, ?_,
    fun s t r l b ls => joinRetry_runs, fun s t g => settledTimer_runs, ?_, fun s t x => selfDeadTimeout_runs, ?_, ?_, ?_, ?_,
    fun s t moved hst hroots hsegments => drainComplete_runs hst hroots hsegments moved⟩
  case refine_1 =>
    rintro s t l b rfl hl hlost hbest
    exact upstreamTimeout_chooses hl hlost hbest
  case refine_2 =>
    intro s t l b hl hst
    refine ⟨fun h => hello_miscabled hl hst t ?_, fun a h1 h2 h3 h4 h5 hlive himplied hassigned hwritten =>
      hello_addresses hl hst t ⟨h1, h2, h3, h4, h5⟩ hlive himplied hassigned hwritten,
      fun h1 h2 h3 h4 h5 hlive => hello_notLive hl hst t ⟨h1, h2, h3, h4, h5⟩ hlive⟩
    unfold helloAgrees addrConflicts
    tauto
  case refine_3 =>
    intro s t l b hl hst a ha
    refine ⟨fun hkind => join_grants hl hst t hkind ha, fun hkind => join_refuses hl hst t hkind ha, fun hkind hown hwants => ?_,
      fun hkind hreason hown hwants => ?_, fun hkind hreason hown hwants => ?_, fun hkind hown hwants => ?_, fun hkind => ?_⟩
    · subst ha
      intro hstep
      rw [hown]
      exact join_granted hl hst t hown hwants hkind hstep
    · exact join_retries hl hst t (ha ▸ hown) hwants hkind hreason
    · exact join_gives_up hl hst t (ha ▸ hown) hwants hkind hreason
    · exact join_notGranted hl hst t (ha ▸ hown) hwants hkind
    · exact ha ▸ join_elsewhere hl hst t hkind
  case refine_4 =>
    rintro s t l b hl hup a rfl
    refine ⟨fun taken htaken => ⟨fun hst h => epoch_kills hl hup t hst (htaken.mp h), fun hst h => epoch_takes hl hup t hst (htaken.mp h)⟩,
      fun hbehind hother => epoch_notTaken hl hup t ?_⟩
    unfold bodyTaken
    rw [hbehind]
    tauto
  case refine_5 =>
    intro s t l reporter lost rlink hl hup declared hdeclared
    exact ⟨fun h => linklost_kept hl hup t rlink fun k => h (hdeclared.mpr k), fun h => linklost_declares hl hup t rlink (hdeclared.mp h)⟩
  case refine_6 =>
    intro s t l x hl hst hlost hdue
    refine ⟨declareTimeout_heard hst hlost hdue, ?_, declareTimeout_waits hst hlost hdue, declareTimeout_drops hl hst hlost hdue⟩
    rintro m rfl
    exact declareTimeout_declares hl hst hlost hdue
  case refine_7 =>
    rintro s src t addr hm a rfl
    exact ⟨fun hfree hin => spokeFabAddrWrite_roots hm hfree hin t, spokeFabAddrWrite_ignored hm t,
      fun hfree hin => spokeFabAddrWrite_joins hm hfree hin t⟩
  case refine_8 =>
    intro s src t m hm hlt
    exact ⟨fabDrain_starts hm hlt, fabDrain_rejected hm hlt, fabCancelDrain_runs hm, fabLeave_runs hm⟩

end Sys2Proof.Machine
end


section
/-! O56: the PCI Express link, bus mastering, the windows and the filtered signals (R397, R401, R402, R404, R406). -/

namespace Sys2Proof.Machine

variable {s u : State} {t c f : Nat}

/-! Items that end at the next boundary (R401) -/

theorem within_abortAtBoundary (s : State) (p : Nat → Bool) : Within [.serve, .tt] [] s (abortAtBoundary s p) := by
  unfold abortAtBoundary
  dsimp only
  split
  · exact Within.refl _ _ s
  · exact (within_serve s _).append (within_wantBoundary _)

theorem items_abortAtBoundary (s : State) (p : Nat → Bool) : (abortAtBoundary s p).serve.items = s.serve.items := by
  unfold abortAtBoundary
  dsimp only
  split
  · rfl
  · refine (congrArg Serving.items ((within_wantBoundary (updServe s _)).kept .serve (by simp))).trans ?_
    rfl

theorem mem_aborting_abortAtBoundary {p : Nat → Bool} {x : Item} (hx : x ∈ s.serve.items) (hp : p x.ctx = true) :
    (x.ctx, x.idx) ∈ (abortAtBoundary s p).serve.aborting := by
  have hid : (x.ctx, x.idx) ∈ (s.serve.items.filter fun i => p i.ctx).map fun i => (i.ctx, i.idx) :=
    List.mem_map.mpr ⟨x, List.mem_filter.mpr ⟨hx, hp⟩, rfl⟩
  unfold abortAtBoundary
  dsimp only
  rw [if_neg (by rw [List.isEmpty_iff]; exact List.ne_nil_of_mem hid),
    congrArg Serving.aborting ((within_wantBoundary _).kept .serve (by simp))]
  exact List.mem_eraseDups.mpr (List.mem_append_right _ hid)

/-! PCIE_LINK_DOWN (R401) -/

theorem withinAt_leaveDlUp (s : State) :
    WithinAt [.dbg, .rep] [(.PCIE_LINK_UP, 0), (.PCIE_LINK_DOWNS, 0), (.EVC_STATUS_LINK, 0)] s (leaveDlUp s) := by
  unfold leaveDlUp raiseModule
  extract_lets u
  have hu : WithinAt [] [(.PCIE_LINK_UP, 0), (.PCIE_LINK_DOWNS, 0)] s u :=
    ((withinAt_wr s .PCIE_LINK_UP 0 0).trans (withinAt_wr _ .PCIE_LINK_DOWNS 0 _)).mono (by simp) (by simp)
  exact (((hu.trans (within_trail u _ _ _ _ _).toWithinAt).trans (withinAt_wr _ .EVC_STATUS_LINK 0 1)).trans
    (within_deliver _ _).toWithinAt).mono (by simp) (by simp)

theorem leaveDlUp_counts (s : State) : rd (leaveDlUp s) .PCIE_LINK_UP = 0 ∧
    rd (leaveDlUp s) .PCIE_LINK_DOWNS = rd (inc s .PCIE_LINK_DOWNS) .PCIE_LINK_DOWNS := by
  have hrest := (within_trail (inc (wr s .PCIE_LINK_UP 0 0) .PCIE_LINK_DOWNS) vestTrail 0x45 0 1
    (pcieLinkValue (inc (wr s .PCIE_LINK_UP 0 0) .PCIE_LINK_DOWNS))).append (within_raiseModule _ .EVC_STATUS_LINK)
  have hdown : rd (leaveDlUp s) .PCIE_LINK_UP = rd (inc (wr s .PCIE_LINK_UP 0 0) .PCIE_LINK_DOWNS) .PCIE_LINK_UP := hrest.regs _ _ (by simp)
  have hcount : rd (leaveDlUp s) .PCIE_LINK_DOWNS = rd (inc (wr s .PCIE_LINK_UP 0 0) .PCIE_LINK_DOWNS) .PCIE_LINK_DOWNS :=
    hrest.regs _ _ (by simp)
  rw [hdown, hcount]
  constructor <;> simp [inc, rd_wr]

theorem pcieLinkDown_runs (hup : rd s .PCIE_LINK_UP = 1) (t : Nat) : Runs (.pcieLinkDown t) s fun v =>
    rd v .PCIE_LINK_UP = 0 ∧ rd v .PCIE_LINK_DOWNS = rd (inc s .PCIE_LINK_DOWNS) .PCIE_LINK_DOWNS ∧
    (∀ x ∈ s.serve.items, (x.ctx, x.idx) ∈ v.serve.aborting) ∧ v.serve.items = s.serve.items ∧
    KeptBut [.dbg, .now, .rep, .serve, .tt] s v ∧
    RegsKept [(.PCIE_LINK_UP, 0), (.PCIE_LINK_DOWNS, 0), (.EVC_STATUS_LINK, 0)] s v := by
  have hexec : exec (.pcieLinkDown t) s = settle s (abortAtBoundary (leaveDlUp (tick s t)) fun _ => true) := by
    show execPcieLinkDown t s = _
    unfold execPcieLinkDown
    dsimp only
    rw [if_pos (show rdb (tick s t) .PCIE_LINK_UP = true from rdb_of_one hup)]
  obtain ⟨hdown, hcount⟩ := leaveDlUp_counts (tick s t)
  have hleave := withinAt_leaveDlUp (tick s t)
  have hcount' : rd (inc (tick s t) .PCIE_LINK_DOWNS) .PCIE_LINK_DOWNS = rd (inc s .PCIE_LINK_DOWNS) .PCIE_LINK_DOWNS := by
    simp [inc, rd_tick]
  have hserve : (leaveDlUp (tick s t)).serve = s.serve := hleave.parts .serve (by simp)
  generalize leaveDlUp (tick s t) = u at *
  have habort := within_abortAtBoundary u fun _ => true
  refine runs_of_settle hexec ⟨?_, ?_, fun x hx => mem_aborting_abortAtBoundary (hserve ▸ hx) rfl, ?_,
    ((((within_tick s t).toWithinAt.trans hleave).trans habort.toWithinAt).mono (by simp) (by simp)).settled⟩
  · rw [rd_settled_other _ _ _ _ (by decide), habort.regs _ _ (by simp), hdown]
  · rw [rd_settled_other _ _ _ _ (by decide), habort.regs _ _ (by simp), hcount, hcount']
  · exact (items_abortAtBoundary u _).trans (congrArg Serving.items hserve)

/-! PCIE_LINK_UP and PCIE_LINK_RETRAIN (R397, R401) -/

/-- The width and the rate that the link shows. -/
def trainedSet (s : State) (width rate : Nat) : State :=
  wrb (wr (wr s .PCIE_LINK_WIDTH 0 (width % 32)) .PCIE_LINK_RATE 0 (rate % 8)) .PCIE_LINK_DEGRADED 0 (decide (width < 16 ∨ rate < 7))

theorem within_trainedTo_set (s : State) (width rate : Nat) :
    Within [.free, .rep] reportFlds (trainedSet s width rate) (trainedTo s width rate) := by
  unfold trainedTo
  dsimp only
  split
  · exact ((within_takeFree (trainedSet s width rate) 8).append (within_report _ _ 0 [] none 0 false)).mono (by simp) (by simp)
  · exact Within.refl _ _ _

theorem within_trainedTo (s : State) (width rate : Nat) : Within [.free, .rep]
    (reportFlds ++ [.PCIE_LINK_WIDTH, .PCIE_LINK_RATE, .PCIE_LINK_DEGRADED]) s (trainedTo s width rate) := by
  have hset : Within [] [.PCIE_LINK_WIDTH, .PCIE_LINK_RATE, .PCIE_LINK_DEGRADED] s (trainedSet s width rate) :=
    ((within_wr s _ _ _).append (within_wr _ .PCIE_LINK_RATE _ _)).append (within_wrb _ .PCIE_LINK_DEGRADED _ _)
  exact (hset.append (within_trainedTo_set s width rate)).mono (by simp) (by simp)

theorem trainedTo_shows (s : State) (width rate : Nat) : rd (trainedTo s width rate) .PCIE_LINK_WIDTH = width % 32 ∧
    rd (trainedTo s width rate) .PCIE_LINK_RATE = rate % 8 ∧
    rd (trainedTo s width rate) .PCIE_LINK_DEGRADED = if width < 16 ∨ rate < 7 then 1 else 0 := by
  have hset := within_trainedTo_set s width rate
  rw [hset.regs _ _ (by decide), hset.regs _ _ (by decide), hset.regs _ _ (by decide)]
  refine ⟨?_, ?_, ?_⟩ <;> simp [trainedSet, rd_wr, rd_wrb, b2n]

/-- The link is up: what it trained to is shown, the host's interrupt is raised and a wake signal ends. -/
def linkRaised (s : State) (width rate : Nat) (flit : Bool) : State :=
  let u := trainedTo (wrb (wr s .PCIE_LINK_UP 0 1) .PCIE_LINK_FLIT 0 flit) width rate
  raiseModule (trail u vestTrail 0x45 0 2 (pcieLinkValue u)) .EVC_STATUS_LINK

def wakeEnded (s : State) : State := if s.boot.wakeN then emit (updBoot s fun b => { b with wakeN := false }) (.wakeN false) else s

theorem within_wakeEnded (s : State) : Within [.boot, .rep] [] s (wakeEnded s) := by
  unfold wakeEnded
  split
  · exact ((within_boot s _).append (within_emit _ _)).mono (by simp) (by simp)
  · exact Within.refl _ _ s

theorem wakeN_wakeEnded (s : State) : (wakeEnded s).boot.wakeN = false := by
  unfold wakeEnded
  split
  · rfl
  · next h => simpa using h

theorem within_linkRaised_set (s : State) (width rate : Nat) (flit : Bool) : Within [.free, .rep, .dbg]
    (reportFlds ++ [.PCIE_LINK_WIDTH, .PCIE_LINK_RATE, .PCIE_LINK_DEGRADED, .EVC_STATUS_LINK])
    (wrb (wr s .PCIE_LINK_UP 0 1) .PCIE_LINK_FLIT 0 flit) (linkRaised s width rate flit) := by
  unfold linkRaised
  extract_lets u
  have hu : Within [.free, .rep] _ (wrb (wr s .PCIE_LINK_UP 0 1) .PCIE_LINK_FLIT 0 flit) u := within_trainedTo _ width rate
  exact ((hu.append (within_trail u _ _ _ _ _)).append (within_raiseModule _ .EVC_STATUS_LINK)).mono (by simp) (by simp)

theorem linkRaised_shows (s : State) (width rate : Nat) (flit : Bool) :
    rd (linkRaised s width rate flit) .PCIE_LINK_UP = 1 ∧ rd (linkRaised s width rate flit) .PCIE_LINK_WIDTH = width % 32 ∧
    rd (linkRaised s width rate flit) .PCIE_LINK_RATE = rate % 8 ∧
    rd (linkRaised s width rate flit) .PCIE_LINK_FLIT = (if flit then 1 else 0) ∧
    rd (linkRaised s width rate flit) .PCIE_LINK_DEGRADED = if width < 16 ∨ rate < 7 then 1 else 0 := by
  have hset := within_linkRaised_set s width rate flit
  have hup : rd (linkRaised s width rate flit) .PCIE_LINK_UP = 1 := by
    rw [hset.regs _ _ (by decide)]
    simp [rd_wrb]
  have hflit : rd (linkRaised s width rate flit) .PCIE_LINK_FLIT = if flit then 1 else 0 := by
    rw [hset.regs _ _ (by decide)]
    simp [rd_wrb, b2n]
  have hshown := trainedTo_shows (wrb (wr s .PCIE_LINK_UP 0 1) .PCIE_LINK_FLIT 0 flit) width rate
  unfold linkRaised at *
  generalize trainedTo (wrb (wr s .PCIE_LINK_UP 0 1) .PCIE_LINK_FLIT 0 flit) width rate = u at *
  have hrest := (within_trail u vestTrail 0x45 0 2 (pcieLinkValue u)).append (within_raiseModule _ .EVC_STATUS_LINK)
  refine ⟨hup, ?_, ?_, hflit, ?_⟩
  · rw [hrest.regs _ _ (by simp), hshown.1]
  · rw [hrest.regs _ _ (by simp), hshown.2.1]
  · rw [hrest.regs _ _ (by simp), hshown.2.2]

theorem frame_hostReturns (cs : List Nat) (s : State) : EventFrame s (hostReturns s cs) :=
  within_each _ (fun x c => (frame_setQueue x c _).trans (frame_drainSpill _ c)) cs s

theorem pcieLinkUp_runs (hdown : rd s .PCIE_LINK_UP ≠ 1) (hperst : rd s .EVC_INPUTS_PERST ≠ 1) (hrecovery : rd s .BOOT_STATUS_RECOVERY ≠ 1)
    (hphase : 3 ≤ rd s .BOOT_STATUS_PHASE) (hlp : rd s .LP_STATUS_STATE ≠ 4) (t width rate : Nat) (flit : Bool) :
    Runs (.pcieLinkUp t width rate flit) s fun v =>
      rd v .PCIE_LINK_UP = 1 ∧ rd v .PCIE_LINK_WIDTH = width % 32 ∧ rd v .PCIE_LINK_RATE = rate % 8 ∧
      rd v .PCIE_LINK_FLIT = (if flit then 1 else 0) ∧
      rd v .PCIE_LINK_DEGRADED = (if width < 16 ∨ rate < 7 then 1 else 0) ∧ v.boot.wakeN = false ∧
      Frame [.boot, .dbg, .free, .now, .rep, .serve] (reportFlds ++ eventFlds ++ [.EVC_STATUS_LINK, .PCIE_LINK_UP,
        .PCIE_LINK_WIDTH, .PCIE_LINK_RATE, .PCIE_LINK_FLIT, .PCIE_LINK_DEGRADED]) s v := by
  have hexec : exec (.pcieLinkUp t width rate flit) s =
      settle s (hostReturns (wakeEnded (linkRaised (tick s t) width rate flit)) (List.range 64)) := by
    show execPcieLinkUp t width rate flit s = _
    unfold execPcieLinkUp
    dsimp only
    rw [if_neg (show ¬ (rdb (tick s t) .PCIE_LINK_UP = true ∨ rdb (tick s t) .EVC_INPUTS_PERST = true ∨
      rdb (tick s t) .BOOT_STATUS_RECOVERY = true ∨ rd (tick s t) .BOOT_STATUS_PHASE < 3 ∨ rd (tick s t) .LP_STATUS_STATE = 4) by
        simp only [rdb, rd_tick, beq_iff_eq]
        omega)]
    rfl
  obtain ⟨hup, hwidth, hrate, hflit, hdeg⟩ := linkRaised_shows (tick s t) width rate flit
  have hset : Within [] [.PCIE_LINK_UP, .PCIE_LINK_FLIT] (tick s t) (wrb (wr (tick s t) .PCIE_LINK_UP 0 1) .PCIE_LINK_FLIT 0 flit) :=
    (within_wr _ _ _ _).append (within_wrb _ .PCIE_LINK_FLIT _ _)
  have hraised := ((within_tick s t).append hset).append (within_linkRaised_set (tick s t) width rate flit)
  generalize linkRaised (tick s t) width rate flit = u at *
  have hwake := within_wakeEnded u
  have hwakeN := wakeN_wakeEnded u
  generalize wakeEnded u = w at *
  have hreturn := frame_hostReturns (List.range 64) w
  have hboot : (hostReturns w (List.range 64)).boot = w.boot := hreturn.kept .boot (by simp)
  generalize hostReturns w (List.range 64) = x at *
  have hall := (hraised.append hwake).append hreturn
  refine runs_of_settle hexec ⟨?_, ?_, ?_, ?_, ?_, (congrArg Boot.wakeN hboot).trans hwakeN, (hall.mono (by decide) (by decide)).settled⟩
  · rw [rd_settled_other _ _ _ _ (by decide), hreturn.regs _ _ (by decide), hwake.regs _ _ (by simp), hup]
  · rw [rd_settled_other _ _ _ _ (by decide), hreturn.regs _ _ (by decide), hwake.regs _ _ (by simp), hwidth]
  · rw [rd_settled_other _ _ _ _ (by decide), hreturn.regs _ _ (by decide), hwake.regs _ _ (by simp), hrate]
  · rw [rd_settled_other _ _ _ _ (by decide), hreturn.regs _ _ (by decide), hwake.regs _ _ (by simp), hflit]
  · rw [rd_settled_other _ _ _ _ (by decide), hreturn.regs _ _ (by decide), hwake.regs _ _ (by simp), hdeg]

theorem pcieLinkRetrain_runs (hup : rd s .PCIE_LINK_UP = 1) (t width rate : Nat) : Runs (.pcieLinkRetrain t width rate) s fun v =>
    rd v .PCIE_LINK_WIDTH = width % 32 ∧ rd v .PCIE_LINK_RATE = rate % 8 ∧ rd v .EVC_STATUS_LINK = 1 ∧
    rd v .PCIE_LINK_DEGRADED = (if width < 16 ∨ rate < 7 then 1 else 0) ∧
    Frame [.free, .now, .rep] (reportFlds ++ [.EVC_STATUS_LINK, .PCIE_LINK_WIDTH, .PCIE_LINK_RATE, .PCIE_LINK_DEGRADED]) s v := by
  have hexec : exec (.pcieLinkRetrain t width rate) s = settle s (raiseModule (trainedTo (tick s t) width rate) .EVC_STATUS_LINK) := by
    show execPcieLinkRetrain t width rate s = _
    unfold execPcieLinkRetrain
    dsimp only
    rw [if_pos (show rdb (tick s t) .PCIE_LINK_UP = true from rdb_of_one hup)]
  obtain ⟨hwidth, hrate, hdeg⟩ := trainedTo_shows (tick s t) width rate
  have htrained := (within_tick s t).append (within_trainedTo (tick s t) width rate)
  generalize trainedTo (tick s t) width rate = u at *
  have hraise := within_raiseModule u .EVC_STATUS_LINK
  have hraised : rd (raiseModule u .EVC_STATUS_LINK) .EVC_STATUS_LINK = 1 :=
    ((within_deliver _ _).regs _ _ (by simp)).trans (rd_wr_same u .EVC_STATUS_LINK 0 1)
  generalize raiseModule u .EVC_STATUS_LINK = w at *
  refine runs_of_settle hexec ⟨?_, ?_, ?_, ?_, ((htrained.append hraise).mono (by decide) (by decide)).settled⟩
  · rw [rd_settled_other _ _ _ _ (by decide), hraise.regs _ _ (by simp), hwidth]
  · rw [rd_settled_other _ _ _ _ (by decide), hraise.regs _ _ (by simp), hrate]
  · rw [rd_settled_other _ _ _ _ (by decide), hraised]
  · rw [rd_settled_other _ _ _ _ (by decide), hraise.regs _ _ (by simp), hdeg]

/-! BUS_MASTER_DISABLE and MEMORY_SPACE_DISABLE (R402) -/

/-- The functions with Bus Master Enable cleared. -/
def mastersSet (s : State) (l : List Nat) : State := updCtxs s fun x => { x with noMaster := l }

def memoriesSet (s : State) (l : List Nat) : State := updCtxs s fun x => { x with noMemory := l }

theorem busMaster_clears (hf : f < 64) (t : Nat) : Runs (.busMasterDisable t f false) s fun v =>
    f ∈ v.ctxs.noMaster ∧ KeptBut [.ctxs, .now] s v ∧ RegsKept [] s v := by
  have hexec : exec (.busMasterDisable t f false) s = settle s (mastersSet (tick s t) (s.ctxs.noMaster.filter (· != f) ++ [f])) := by
    show execBusMasterDisable t f false s = _
    unfold execBusMasterDisable
    dsimp only
    rw [if_neg (by omega), if_neg (by simp)]
    rfl
  refine runs_of_settle hexec ⟨List.mem_append_right _ (List.mem_singleton_self _), ?_⟩
  exact ((within_tick s t).append (within_ctxs _ _)).mono (qs := [.ctxs, .now]) (gs := []) (by simp) (by simp) |>.toWithinAt.settled

theorem busMaster_sets (hf : f < 64) (t : Nat) : Runs (.busMasterDisable t f true) s fun v =>
    f ∉ v.ctxs.noMaster ∧ Frame [.ctxs, .now, .rep, .serve] eventFlds s v := by
  have hexec : exec (.busMasterDisable t f true) s = settle s (drainSpill (mastersSet (tick s t) (s.ctxs.noMaster.filter (· != f))) f) := by
    show execBusMasterDisable t f true s = _
    unfold execBusMasterDisable
    dsimp only
    rw [if_neg (by omega), if_pos rfl]
    rfl
  have hgone : f ∉ (mastersSet (tick s t) (s.ctxs.noMaster.filter (· != f))).ctxs.noMaster := fun h => by
    have hne := (List.mem_filter.mp h).2
    simp at hne
  have hset : Within [.ctxs, .now] [] s (mastersSet (tick s t) (s.ctxs.noMaster.filter (· != f))) :=
    ((within_tick s t).append (within_ctxs _ _)).mono (by simp) (by simp)
  generalize mastersSet (tick s t) (s.ctxs.noMaster.filter (· != f)) = u at *
  have hdrain := frame_drainSpill u f
  have hctxs : (drainSpill u f).ctxs = u.ctxs := hdrain.kept .ctxs (by simp)
  exact runs_of_settle hexec ⟨fun h => hgone (congrArg Contexts.noMaster hctxs ▸ h), ((hset.append hdrain).mono (by simp) (by simp)).settled⟩

theorem memorySpace_sets (hf : f < 64) (t : Nat) (en : Bool) : Runs (.memorySpaceDisable t f en) s fun v =>
    (f ∈ v.ctxs.noMemory ↔ en = false) ∧ KeptBut [.ctxs, .now] s v ∧ RegsKept [] s v := by
  have hexec : exec (.memorySpaceDisable t f en) s = settle s (memoriesSet (tick s t)
      (if en then s.ctxs.noMemory.filter (· != f) else s.ctxs.noMemory.filter (· != f) ++ [f])) := by
    show execMemorySpaceDisable t f en s = _
    unfold execMemorySpaceDisable
    dsimp only
    rw [if_neg (by omega)]
    rfl
  refine runs_of_settle hexec ⟨?_, ?_⟩
  · show f ∈ (if en then s.ctxs.noMemory.filter (· != f) else s.ctxs.noMemory.filter (· != f) ++ [f]) ↔ en = false
    cases en <;> simp
  · exact ((within_tick s t).append (within_ctxs _ _)).mono (qs := [.ctxs, .now]) (gs := []) (by simp) (by simp) |>.toWithinAt.settled

/-! CTXWIN_CADENCE_READ (R404) -/

section Cadence
variable (hc : c < 64) (hmem : c ∉ s.ctxs.noMemory) (t : Nat)
include hc hmem

theorem exec_ctxwinCadenceRead (width : Nat) (high : Bool) : exec (.ctxwinCadenceRead t c width high) s = settle s
    (if width = 8 then emit (tick s t) (.readData ((max s.now t) % 2 ^ 64))
     else if high then
       emit (updCtxs (tick s t) fun x => { x with latched := storeErase x.latched c })
         (.readData (storeGet ((max s.now t) / 2 ^ 32 % 2 ^ 32) s.ctxs.latched c))
     else emit (updCtxs (tick s t) fun x => { x with latched := storeInsert x.latched c ((max s.now t) / 2 ^ 32 % 2 ^ 32) })
       (.readData ((max s.now t) % 2 ^ 32))) := by
  show execCtxwinCadenceRead t c width high s = _
  unfold execCtxwinCadenceRead
  dsimp only
  rw [if_neg (show ¬ (64 ≤ c ∨ c ∈ (tick s t).ctxs.noMemory) from fun h => h.elim (by omega) hmem)]
  rfl

theorem cadenceRead_whole (high : Bool) : Runs (.ctxwinCadenceRead t c 8 high) s fun v =>
    v.rep.outs = s.rep.outs ++ [.readData ((max s.now t) % 2 ^ 64)] ∧ KeptBut [.now, .rep] s v ∧ RegsKept [] s v := by
  have hexec := exec_ctxwinCadenceRead hc hmem t 8 high
  rw [if_pos rfl] at hexec
  exact runs_of_settle hexec ⟨rfl, ((within_tick s t).append (within_emit _ _)).mono (qs := [.now, .rep]) (gs := []) (by simp) (by simp)
    |>.toWithinAt.settled⟩

theorem cadenceRead_low : Runs (.ctxwinCadenceRead t c 4 false) s fun v =>
    v.rep.outs = s.rep.outs ++ [.readData ((max s.now t) % 2 ^ 32)] ∧
    storeFind v.ctxs.latched c = some ((max s.now t) / 2 ^ 32 % 2 ^ 32) ∧ KeptBut [.ctxs, .now, .rep] s v ∧ RegsKept [] s v := by
  have hexec := exec_ctxwinCadenceRead hc hmem t 4 false
  rw [if_neg (by decide), if_neg (by decide)] at hexec
  exact runs_of_settle hexec ⟨rfl, storeFind_insert_same _ _ _, (((within_tick s t).append (within_ctxs _ _)).append (within_emit _ _)).mono
    (qs := [.ctxs, .now, .rep]) (gs := []) (by simp) (by simp) |>.toWithinAt.settled⟩

theorem cadenceRead_high : Runs (.ctxwinCadenceRead t c 4 true) s fun v =>
    v.rep.outs = s.rep.outs ++ [.readData (storeGet ((max s.now t) / 2 ^ 32 % 2 ^ 32) s.ctxs.latched c)] ∧
    storeFind v.ctxs.latched c = none ∧ KeptBut [.ctxs, .now, .rep] s v ∧ RegsKept [] s v := by
  have hexec := exec_ctxwinCadenceRead hc hmem t 4 true
  rw [if_neg (by decide), if_pos rfl] at hexec
  exact runs_of_settle hexec ⟨rfl, storeFind_erase_same _ _, (((within_tick s t).append (within_ctxs _ _)).append (within_emit _ _)).mono
    (qs := [.ctxs, .now, .rep]) (gs := []) (by simp) (by simp) |>.toWithinAt.settled⟩

end Cadence

/-! Filtered signals (R397, R406) -/

theorem slotIdSample_runs (hfree : s.boot.slotSampled = false) (t x : Nat) : Runs (.slotIdSample t x) s fun v =>
    rd v .EVC_INPUTS_SLOT_ID = x % 64 ∧ v.boot.slotSampled = true ∧ KeptBut [.boot, .now] s v ∧ RegsKept [(.EVC_INPUTS_SLOT_ID, 0)] s v := by
  have hexec : exec (.slotIdSample t x) s =
      settle s (wr (updBoot (tick s t) fun b => { b with slotSampled := true }) .EVC_INPUTS_SLOT_ID 0 (x % 64)) := by
    show execSlotIdSample t x s = _
    unfold execSlotIdSample
    dsimp only
    rw [if_neg (show ¬ (tick s t).boot.slotSampled = true from by
      rw [show (tick s t).boot.slotSampled = false from hfree]
      decide)]
  refine runs_of_settle hexec ⟨?_, rfl, ((((within_tick s t).append (within_boot _ _)).mono (qs := [.boot, .now]) (gs := []) (by simp)
    (by simp)).toWithinAt.trans (withinAt_wr _ _ _ _)).mono (by simp) (by simp) |>.settled⟩
  rw [rd_settled_other _ _ _ _ (by decide), rd_wr_same]

theorem slotIdChange_runs {x : Nat} (hsampled : s.boot.slotSampled = true) (hx : x % 64 ≠ rd s .EVC_INPUTS_SLOT_ID) (t : Nat) :
    Runs (.slotIdChange t x) s fun v =>
      rd v .EVC_INPUTS_SLOT_ID = rd s .EVC_INPUTS_SLOT_ID ∧ v.freeNext = s.freeNext + 1 ∧ Frame [.free, .now, .rep] reportFlds s v := by
  have hexec : exec (.slotIdChange t x) s = settle s (report (takeFree (tick s t) 8).2 (takeFree (tick s t) 8).1 0 []) := by
    show execSlotIdChange t x s = _
    unfold execSlotIdChange
    dsimp only
    rw [if_pos (show (tick s t).boot.slotSampled = true ∧ x % 64 ≠ rd (tick s t) .EVC_INPUTS_SLOT_ID from ⟨hsampled, hx⟩)]
  have htake := (within_tick s t).append (within_takeFree (tick s t) 8)
  have hnext : (takeFree (tick s t) 8).2.freeNext = s.freeNext + 1 := rfl
  generalize (takeFree (tick s t) 8).2 = u at *
  have hreport := within_report u (takeFree (tick s t) 8).1 0 [] none 0 false
  have hall := htake.append hreport
  refine runs_of_settle hexec ⟨?_, Eq.trans (hreport.kept .free (by simp)) hnext, (hall.mono (by simp) (by simp)).settled⟩
  rw [rd_settled_other _ _ _ _ (by decide), hall.regs _ _ (by decide)]

theorem inputGlitch_runs (t : Nat) : Runs (.inputGlitch t) s fun v =>
    rd v .EVC_GLITCHES = rd (inc s .EVC_GLITCHES) .EVC_GLITCHES ∧ KeptBut [.now] s v ∧ RegsKept [(.EVC_GLITCHES, 0)] s v := by
  refine runs_of_settle (t := inc (tick s t) .EVC_GLITCHES) rfl ⟨?_,
    ((within_tick s t).toWithinAt.trans (withinAt_wr (tick s t) .EVC_GLITCHES 0 _)).mono (by simp) (by simp) |>.settled⟩
  rw [rd_settled_other _ _ _ _ (by decide)]
  simp [inc, rd_tick]

theorem doeDiscovery_runs {x : Nat} (hup : rd s .PCIE_LINK_UP = 1) (hx : x < 3) : Runs (.doeDiscovery x) s fun v =>
    v.rep.outs = s.rep.outs ++ [.answer 4 x 0 [1, x, (x + 1) % 3]] ∧ KeptBut [.rep] s v ∧ RegsKept [] s v := by
  have hexec : exec (.doeDiscovery x) s = settle s (emit s (.answer 4 x 0 [1, x, (x + 1) % 3])) := by
    show execDoeDiscovery x s = _
    unfold execDoeDiscovery
    rw [if_pos ⟨rdb_of_one hup, hx⟩]
  exact runs_of_settle hexec ⟨rfl, (within_emit s _).toWithinAt.settled⟩

end Sys2Proof.Machine
end


section
/-! O56: mailboxes and interrupts (R405 to R412). -/

namespace Sys2Proof.Machine

variable {s u : State} {src : Src} {c fn e : Nat} {pf : Bool}

/-! Mailboxes (R405) -/

/-- What the copied part of a buffer holds is what the other buffer held. -/
theorem storeGet_copied (m : Store Nat) (from_ to_ i : Nat) : ∀ (n : Nat) (b : Store Nat), i < n →
    storeGet 0 ((List.range n).foldl (fun b i => storePut 0 b (to_ + i) (storeGet 0 m (from_ + i))) b) (to_ + i) = storeGet 0 m (from_ + i)
  | 0, _, h => absurd h (Nat.not_lt_zero i)
  | n + 1, b, h => by
    rw [List.range_succ, List.foldl_append, List.foldl_cons, List.foldl_nil]
    by_cases hi : i = n
    · rw [hi, storeGet_put_same]
    · rw [storeGet_put_other _ _ _ _ (by omega)]
      exact storeGet_copied m from_ to_ i n b (by omega)

theorem storeGet_copyBox (m : Store Nat) (from_ to_ : Nat) {i : Nat} (hi : i < 256) :
    storeGet 0 (copyBox m from_ to_) (to_ + i) = storeGet 0 m (from_ + i) := storeGet_copied m from_ to_ i 256 m hi

/-- The buffers once a side has sent. -/
def boxCopied (s : State) (c : Nat) (pf : Bool) : State := updCtxs s fun x => { x with
  mbox := if pf then copyBox x.mbox (c * 1024 + 0x300) (c * 1024) else copyBox x.mbox (c * 1024 + 0x100) (c * 1024 + 0x200) }

/-- A message is under way: the sender's side is busy and the other's is full. -/
def messageSent (s : State) (c : Nat) (pf : Bool) : State :=
  wr (wr (boxCopied s c pf) .MBX_CTRL_OUT_BUSY (mbxSide c pf) 1) .MBX_CTRL_IN_FULL (mbxSide c (!pf)) 1

/-- The receiver is told. -/
def receiverTold (s : State) (c : Nat) (pf : Bool) : State :=
  if pf then sendMsix s c 1 else deliver (wr s .EVC_MBX_PENDING 0 (rd s .EVC_MBX_PENDING ||| 2 ^ (c - 1))) .mbxVf

theorem withinAt_messageSent (s : State) (c : Nat) (pf : Bool) :
    WithinAt [.ctxs] [(.MBX_CTRL_OUT_BUSY, mbxSide c pf), (.MBX_CTRL_IN_FULL, mbxSide c (!pf))] s (messageSent s c pf) :=
  (((within_ctxs s _).toWithinAt.trans (withinAt_wr _ .MBX_CTRL_OUT_BUSY _ _)).trans (withinAt_wr _ .MBX_CTRL_IN_FULL _ _)).mono
    (by simp) (by simp)

theorem withinAt_receiverTold (s : State) (c : Nat) (pf : Bool) : WithinAt [.rep] [(.EVC_MBX_PENDING, 0)] s (receiverTold s c pf) := by
  unfold receiverTold
  split
  · exact (within_sendMsix s c 1).toWithinAt.mono (List.Subset.refl _) (by simp)
  · exact ((withinAt_wr s _ 0 _).trans (within_deliver _ _).toWithinAt).mono (by simp) (by simp)

theorem rd_receiverTold_pending (s : State) (c : Nat) : bitAt (rd (receiverTold s c false) .EVC_MBX_PENDING) (c - 1) = true := by
  unfold receiverTold
  rw [if_neg (by simp), (within_deliver _ _).regs _ _ (by simp), rd_wr_same]
  exact bitAt_or_two_pow _ _

section Mailbox
variable (hpos : 1 ≤ c) (hlt : c < 64) (hmay : mayWrite s src .MBX_CTRL_OVERRUN (mbxSide c pf) = true)
include hpos hlt hmay

theorem exec_mbxSend : exec (.mbxSend src c pf) s = settle s
    (if rdb s .MBX_CTRL_OUT_BUSY (mbxSide c pf) then wr s .MBX_CTRL_OVERRUN (mbxSide c pf) 1
     else receiverTold (messageSent s c pf) c pf) := by
  show execMbxSend src c pf s = _
  unfold execMbxSend
  dsimp only
  rw [if_neg (by rw [hmay]; simp; omega)]
  rfl

theorem mbxSend_sends (hidle : rd s .MBX_CTRL_OUT_BUSY (mbxSide c pf) ≠ 1) : Runs (.mbxSend src c pf) s fun v =>
    rd v .MBX_CTRL_OUT_BUSY (mbxSide c pf) = 1 ∧ rd v .MBX_CTRL_IN_FULL (mbxSide c (!pf)) = 1 ∧
    (∀ i, i < 256 → pf = true → storeGet 0 v.ctxs.mbox (c * 1024 + i) = storeGet 0 s.ctxs.mbox (c * 1024 + 0x300 + i)) ∧
    (∀ i, i < 256 → pf = false → storeGet 0 v.ctxs.mbox (c * 1024 + 0x200 + i) = storeGet 0 s.ctxs.mbox (c * 1024 + 0x100 + i)) ∧
    (pf = false → bitAt (rd v .EVC_MBX_PENDING) (c - 1) = true) ∧ KeptBut [.ctxs, .rep] s v ∧
    RegsKept [(.MBX_CTRL_OUT_BUSY, mbxSide c pf), (.MBX_CTRL_IN_FULL, mbxSide c (!pf)), (.EVC_MBX_PENDING, 0)] s v := by
  have hexec := exec_mbxSend hpos hlt hmay
  rw [rdb_of_ne_one hidle, if_neg (by simp)] at hexec
  have hsent := withinAt_messageSent s c pf
  have hbusy : rd (messageSent s c pf) .MBX_CTRL_OUT_BUSY (mbxSide c pf) = 1 := by simp [messageSent, rd_wr]
  have hfull : rd (messageSent s c pf) .MBX_CTRL_IN_FULL (mbxSide c (!pf)) = 1 := rd_wr_same _ _ _ _
  have hbox : (messageSent s c pf).ctxs.mbox =
      if pf then copyBox s.ctxs.mbox (c * 1024 + 0x300) (c * 1024) else copyBox s.ctxs.mbox (c * 1024 + 0x100) (c * 1024 + 0x200) := rfl
  generalize messageSent s c pf = u at *
  have htold := withinAt_receiverTold u c pf
  have hctxs : (receiverTold u c pf).ctxs = u.ctxs := htold.parts .ctxs (by simp)
  have hpending := rd_receiverTold_pending u c
  refine runs_of_settle hexec ⟨?_, ?_, fun i hi hpf => ?_, fun i hi hpf => ?_, fun hpf => ?_,
    ((hsent.trans htold).mono (by simp) (by simp)).settled⟩
  · rw [rd_settled_other _ _ _ _ (by decide), htold.regs _ _ (by simp), hbusy]
  · rw [rd_settled_other _ _ _ _ (by decide), htold.regs _ _ (by simp), hfull]
  · show storeGet 0 (receiverTold u c pf).ctxs.mbox _ = _
    rw [hctxs, hbox, if_pos hpf]
    exact storeGet_copyBox _ _ _ hi
  · show storeGet 0 (receiverTold u c pf).ctxs.mbox _ = _
    rw [hctxs, hbox, if_neg (by simp [hpf])]
    exact storeGet_copyBox _ _ _ hi
  · rw [rd_settled_other _ _ _ _ (by decide), hpf]
    exact hpending

theorem mbxSend_overruns (hbusy : rd s .MBX_CTRL_OUT_BUSY (mbxSide c pf) = 1) : Runs (.mbxSend src c pf) s fun v =>
    rd v .MBX_CTRL_OVERRUN (mbxSide c pf) = 1 ∧ KeptBut [] s v ∧ RegsKept [(.MBX_CTRL_OVERRUN, mbxSide c pf)] s v := by
  have hexec := exec_mbxSend hpos hlt hmay
  rw [rdb_of_one hbusy, if_pos rfl] at hexec
  exact wr_runs hexec (by decide)

theorem mbxAck_runs : Runs (.mbxAck src c pf) s fun v =>
    rd v .MBX_CTRL_IN_FULL (mbxSide c pf) = 0 ∧ rd v .MBX_CTRL_OUT_BUSY (mbxSide c (!pf)) = 0 ∧ KeptBut [] s v ∧
    RegsKept [(.MBX_CTRL_IN_FULL, mbxSide c pf), (.MBX_CTRL_OUT_BUSY, mbxSide c (!pf))] s v := by
  have hexec : exec (.mbxAck src c pf) s =
      settle s (wr (wr s .MBX_CTRL_IN_FULL (mbxSide c pf) 0) .MBX_CTRL_OUT_BUSY (mbxSide c (!pf)) 0) := by
    show execMbxAck src c pf s = _
    unfold execMbxAck
    rw [if_neg (by rw [hmay]; simp; omega)]
  refine runs_of_settle hexec ⟨?_, ?_, ((withinAt_wr s _ _ _).trans (withinAt_wr _ _ _ _)).settled⟩
  · rw [rd_settled_other _ _ _ _ (by decide), rd_wr_ne _ _ _ _ _ _ (by simp), rd_wr_same]
  · rw [rd_settled_other _ _ _ _ (by decide), rd_wr_same]

end Mailbox

/-! MODERATION_EXPIRY (R409) -/

theorem pfTarget_sendMsix (s : State) (fn k e : Nat) : pfTarget (sendMsix s fn k) e = pfTarget s e := by
  unfold sendMsix
  split <;> rfl

theorem pfTarget_setPfTarget (s : State) (e : Nat) (x : PfTarget) : pfTarget (setPfTarget s e x) e = x := by
  unfold pfTarget setPfTarget updRep
  dsimp only
  exact storeGet_put_same _ _ _ _

theorem sendPf_sends (s : State) (e : Nat) (w : IrqSource) :
    (pfTarget (sendPf s e w) e).lastSent = some s.now ∧ w ∉ (pfTarget (sendPf s e w) e).waiting := by
  unfold sendPf
  extract_lets old target
  rw [pfTarget_sendMsix, pfTarget_setPfTarget]
  exact ⟨rfl, fun h => by simpa using (List.mem_filter.mp h).2⟩

theorem moderationExpiry_runs {w : IrqSource} {ws : List IrqSource} {t : Nat} (hwaiting : (pfTarget s e).waiting = w :: ws)
    (hpassed : ∀ l, (pfTarget s e).lastSent = some l → l + rd s .EVC_MOD e * 1000 ≤ max s.now t) : Runs (.moderationExpiry t e) s fun v =>
      (pfTarget v e).lastSent = some (max s.now t) ∧ w ∉ (pfTarget v e).waiting ∧ KeptBut [.now, .rep] s v ∧ RegsKept [] s v := by
  have hdue : modPassed (tick s t) e = true := by
    unfold modPassed
    cases hsent : (pfTarget (tick s t) e).lastSent with
    | none => rfl
    | some l => exact decide_eq_true (hpassed l hsent)
  have hexec : exec (.moderationExpiry t e) s = settle s (sendPf (tick s t) e w) := by
    show execModerationExpiry t e s = _
    unfold execModerationExpiry
    dsimp only
    rw [show (pfTarget (tick s t) e).waiting = w :: ws from hwaiting]
    dsimp only
    rw [if_pos hdue]
  obtain ⟨hsent, hgone⟩ := sendPf_sends (tick s t) e w
  have hall := ((within_tick s t).append (within_sendPf (tick s t) e w)).mono (qs := [.now, .rep]) (gs := []) (by simp) (by simp)
  exact runs_of_settle hexec ⟨hsent, hgone, hall.toWithinAt.settled⟩

/-! What an interrupt leaves of the masks and of what was sent -/

/-- The masks are as they were, and what was sent still is. -/
structure MasksKept (s u : State) : Prop where
  mask : u.rep.msixMask = s.rep.msixMask
  fnMask : u.rep.fnMask = s.rep.fnMask
  outs : OutsKept s u

theorem MasksKept.refl (s : State) : MasksKept s s := ⟨rfl, rfl, List.Subset.refl _⟩

theorem MasksKept.trans {v : State} (h : MasksKept s u) (k : MasksKept u v) : MasksKept s v :=
  ⟨k.mask.trans h.mask, k.fnMask.trans h.fnMask, h.outs.trans k.outs⟩

theorem MasksKept.msixMasked (h : MasksKept s u) (fn x : Nat) : msixMasked u fn x = msixMasked s fn x := by
  rw [Machine.msixMasked, Machine.msixMasked, h.mask, h.fnMask]

theorem masksKept_each {α : Type} {f : State → α → State} (hf : ∀ s a, MasksKept s (f s a)) :
    ∀ (l : List α) (s : State), MasksKept s (each l s f)
  | [], s => MasksKept.refl s
  | a :: l, s => (hf s a).trans (masksKept_each hf l (f s a))

theorem masksKept_sendMsix (s : State) (fn k : Nat) : MasksKept s (sendMsix s fn k) := by
  refine ⟨?_, ?_, outsKept_sendMsix s fn k⟩
  · unfold sendMsix
    split <;> rfl
  · unfold sendMsix
    split <;> rfl

theorem masksKept_setPfTarget (s : State) (e : Nat) (x : PfTarget) : MasksKept s (setPfTarget s e x) := ⟨rfl, rfl, List.Subset.refl _⟩

theorem masksKept_sendPf (s : State) (e : Nat) (w : IrqSource) : MasksKept s (sendPf s e w) :=
  (masksKept_setPfTarget s e _).trans (masksKept_sendMsix _ _ _)

theorem masksKept_deliver (s : State) (w : IrqSource) : MasksKept s (deliver s w) := by
  unfold deliver
  split
  · split
    · exact MasksKept.refl s
    · exact ⟨rfl, rfl, List.Subset.refl _⟩
  · extract_lets u x
    refine MasksKept.trans (u := u) ⟨rfl, rfl, List.Subset.refl _⟩ ?_
    split
    · exact masksKept_sendPf _ _ _
    · split
      · exact MasksKept.refl u
      · exact masksKept_setPfTarget _ _ _

theorem masksKept_deliverPending (s : State) : MasksKept s (deliverPending s) := by
  unfold deliverPending
  refine masksKept_each (fun x w => ?_) _ _
  split
  · exact MasksKept.trans (u := updRep x fun r => { r with pendingSrc := r.pendingSrc.filter (· ≠ w) }) ⟨rfl, rfl, List.Subset.refl _⟩
      (masksKept_deliver _ _)
  · exact MasksKept.refl x

theorem deliverPending_of_none (h : s.rep.pendingSrc = []) : deliverPending s = s := by
  rw [deliverPending, h]
  rfl

/-! Messages that are no longer masked (R412) -/

/-- Whether an entry has a message that may go. -/
def msixReady (s : State) (fn x : Nat) : Bool := storeGet false s.rep.msixPending (msixKey fn x) && !msixMasked s fn x

/-- An entry whose message may go sends it. -/
def msixFlushed (s : State) (fn x : Nat) : State :=
  if msixReady s fn x then
    emit (updRep s fun r => { r with msixPending := storePut false r.msixPending (msixKey fn x) false }) (.msix ⟨fn, x⟩)
  else s

theorem within_msixFlushed (s : State) (fn x : Nat) : Within [.rep] [] s (msixFlushed s fn x) := by
  unfold msixFlushed
  split
  · exact (within_rep s _).trans (within_emit _ _)
  · exact Within.refl _ _ s

theorem masksKept_msixFlushed (s : State) (fn x : Nat) : MasksKept s (msixFlushed s fn x) := by
  unfold msixFlushed
  split
  · exact ⟨rfl, rfl, outsKept_emit _ _⟩
  · exact MasksKept.refl s

theorem pendingSrc_msixFlushed (s : State) (fn x : Nat) : (msixFlushed s fn x).rep.pendingSrc = s.rep.pendingSrc := by
  unfold msixFlushed
  split <;> rfl

theorem pending_msixFlushed (s : State) (fn x y : Nat) : storeGet false (msixFlushed s fn x).rep.msixPending (msixKey fn y) =
    if y = x ∧ msixReady s fn x = true then false else storeGet false s.rep.msixPending (msixKey fn y) := by
  unfold msixFlushed
  by_cases hready : msixReady s fn x = true
  · rw [if_pos hready]
    show storeGet false (storePut false s.rep.msixPending (msixKey fn x) false) (msixKey fn y) = _
    by_cases hy : y = x
    · rw [hy, storeGet_put_same, if_pos ⟨rfl, hready⟩]
    · rw [storeGet_put_other _ _ _ _ (by simp only [msixKey]; omega), if_neg (fun h => hy h.1)]
  · rw [if_neg hready, if_neg (fun h => hready h.2)]

theorem msixFlushed_sends (h : msixReady s fn e = true) : Out.msix ⟨fn, e⟩ ∈ (msixFlushed s fn e).rep.outs := by
  rw [msixFlushed, if_pos h]
  exact List.mem_append_right _ (List.mem_singleton_self _)

theorem msixFlushed_of_not (h : msixReady s fn e = false) : msixFlushed s fn e = s := by
  rw [msixFlushed, h, if_neg (by simp)]

/-- The entries of a function, one after the other. -/
def entriesFlushed (s : State) (fn : Nat) (es : List Nat) : State := each es s fun t x => msixFlushed t fn x

theorem masksKept_entriesFlushed (s : State) (fn : Nat) (es : List Nat) : MasksKept s (entriesFlushed s fn es) :=
  masksKept_each (fun t x => masksKept_msixFlushed t fn x) es s

theorem within_entriesFlushed (s : State) (fn : Nat) (es : List Nat) : Within [.rep] [] s (entriesFlushed s fn es) :=
  within_each _ (fun t x => within_msixFlushed t fn x) es s

theorem pendingSrc_entriesFlushed (fn : Nat) : ∀ (es : List Nat) (s : State), (entriesFlushed s fn es).rep.pendingSrc = s.rep.pendingSrc
  | [], _ => rfl
  | x :: es, s => (pendingSrc_entriesFlushed fn es (msixFlushed s fn x)).trans (pendingSrc_msixFlushed s fn x)

theorem msixReady_msixFlushed {x y : Nat} (hne : y ≠ x) : msixReady (msixFlushed s fn x) fn y = msixReady s fn y := by
  rw [msixReady, msixReady, pending_msixFlushed, if_neg (fun h => hne h.1), (masksKept_msixFlushed s fn x).msixMasked]

/-- Nothing changes where no entry has a message that may go. -/
theorem entriesFlushed_of_none : ∀ (es : List Nat), (∀ x ∈ es, msixReady s fn x = false) → entriesFlushed s fn es = s
  | [], _ => rfl
  | x :: es, h => by
    have hrest := entriesFlushed_of_none es fun y hy => h y (List.mem_cons_of_mem _ hy)
    show entriesFlushed (msixFlushed s fn x) fn es = s
    rw [msixFlushed_of_not (h x List.mem_cons_self), hrest]

/-- An entry that is no longer pending does not become so again. -/
theorem notPending_entriesFlushed : ∀ (es : List Nat) (s : State), storeGet false s.rep.msixPending (msixKey fn e) = false →
    storeGet false (entriesFlushed s fn es).rep.msixPending (msixKey fn e) = false
  | [], _, h => h
  | x :: es, s, h => notPending_entriesFlushed es (msixFlushed s fn x) (by
      rw [pending_msixFlushed]
      split
      · rfl
      · exact h)

/-- Each entry whose message may go sends it, once. -/
theorem entriesFlushed_send : ∀ (es : List Nat) (s : State), e ∈ es → msixReady s fn e = true →
    Out.msix ⟨fn, e⟩ ∈ (entriesFlushed s fn es).rep.outs ∧
    storeGet false (entriesFlushed s fn es).rep.msixPending (msixKey fn e) = false
  | [], _, hmem, _ => absurd hmem List.not_mem_nil
  | x :: es, s, hmem, hready => by
    by_cases hx : e = x
    · subst hx
      exact ⟨(masksKept_entriesFlushed _ fn es).outs (msixFlushed_sends hready),
        notPending_entriesFlushed es _ (by rw [pending_msixFlushed, if_pos ⟨rfl, hready⟩])⟩
    · have hrest : e ∈ es := (List.mem_cons.mp hmem).resolve_left hx
      exact entriesFlushed_send es (msixFlushed s fn x) hrest ((msixReady_msixFlushed hx).trans hready)

/-! MSIX_MASK and MSIX_UNMASK (R412) -/

/-- The Mask bit of an entry, or the Function Mask. -/
def maskSet (s : State) (fn e : Nat) (m : Bool) : State := updRep s fun r => { r with msixMask := storePut true r.msixMask (msixKey fn e) m }

def fnMaskSet (s : State) (fn : Nat) (m : Bool) : State := updRep s fun r => { r with fnMask := storePut false r.fnMask fn m }

theorem mask_maskSet (s : State) (fn e : Nat) (m : Bool) (x : Nat) :
    storeGet true (maskSet s fn e m).rep.msixMask (msixKey fn x) = if x = e then m else storeGet true s.rep.msixMask (msixKey fn x) := by
  show storeGet true (storePut true s.rep.msixMask (msixKey fn e) m) (msixKey fn x) = _
  by_cases hx : x = e
  · rw [hx, storeGet_put_same, if_pos rfl]
  · rw [storeGet_put_other _ _ _ _ (by simp only [msixKey]; omega), if_neg hx]

theorem fnMask_fnMaskSet (s : State) (fn : Nat) (m : Bool) : storeGet false (fnMaskSet s fn m).rep.fnMask fn = m := storeGet_put_same _ _ _ _

section Msix
variable (hfn : fn < 64)
include hfn

theorem msixMask_fn : Runs (.msixMask fn none) s fun v => (∀ x, msixMasked v fn x = true) ∧ KeptBut [.rep] s v ∧ RegsKept [] s v := by
  have hexec : exec (.msixMask fn none) s = settle s (fnMaskSet s fn true) := by
    show execMsixMask fn none s = _
    unfold execMsixMask
    rw [if_neg (by omega)]
    rfl
  refine runs_of_settle hexec ⟨fun x => ?_, (within_rep s _).toWithinAt.settled⟩
  show (storeGet true _ _ || storeGet false (fnMaskSet s fn true).rep.fnMask fn) = true
  rw [fnMask_fnMaskSet, Bool.or_true]

theorem exec_msixUnmask_fn : exec (.msixUnmask fn none) s =
    settle s (deliverPending (entriesFlushed (fnMaskSet s fn false) fn (List.range (msixEntries fn)))) := by
  show execMsixUnmask fn none s = _
  unfold execMsixUnmask
  rw [if_neg (by omega)]
  rfl

theorem msixUnmask_fn : Runs (.msixUnmask fn none) s fun v =>
    (∀ x, msixMasked v fn x = storeGet true s.rep.msixMask (msixKey fn x)) ∧
    (∀ x, x < msixEntries fn → storeGet true s.rep.msixMask (msixKey fn x) = false →
      storeGet false s.rep.msixPending (msixKey fn x) = true → .msix ⟨fn, x⟩ ∈ v.rep.outs) ∧
    KeptBut [.rep] s v ∧ RegsKept [] s v := by
  have hexec := exec_msixUnmask_fn (s := s) hfn
  have hset : Within [.rep] [] s (fnMaskSet s fn false) := within_rep s _
  have hmasked : ∀ x, msixMasked (fnMaskSet s fn false) fn x = storeGet true s.rep.msixMask (msixKey fn x) := fun x => by
    rw [msixMasked, fnMask_fnMaskSet, Bool.or_false]
    rfl
  have hpending : (fnMaskSet s fn false).rep.msixPending = s.rep.msixPending := rfl
  generalize fnMaskSet s fn false = u at *
  have hflush := masksKept_entriesFlushed u fn (List.range (msixEntries fn))
  have hsends := fun x hx => entriesFlushed_send (fn := fn) (e := x) (List.range (msixEntries fn)) u (List.mem_range.mpr hx)
  have hwflush := within_entriesFlushed u fn (List.range (msixEntries fn))
  generalize entriesFlushed u fn (List.range (msixEntries fn)) = w at *
  have hdeliver := masksKept_deliverPending w
  refine runs_of_settle hexec ⟨fun x => ((hflush.trans hdeliver).msixMasked fn x).trans (hmasked x), fun x hx hfree hwaits => ?_,
    ((hset.trans hwflush).trans (within_deliverPending w)).toWithinAt.settled⟩
  have hready : msixReady u fn x = true := by rw [msixReady, hpending, hwaits, hmasked, hfree]; rfl
  exact hdeliver.outs (hsends x hx hready).1

variable (he : e < msixEntries fn)
include he

theorem msixMask_entry : Runs (.msixMask fn (some e)) s fun v => msixMasked v fn e = true ∧ KeptBut [.rep] s v ∧ RegsKept [] s v := by
  have hexec : exec (.msixMask fn (some e)) s = settle s (maskSet s fn e true) := by
    show execMsixMask fn (some e) s = _
    unfold execMsixMask
    rw [if_neg (by omega)]
    exact congrArg (settle s) (if_pos he)
  refine runs_of_settle hexec ⟨?_, (within_rep s _).toWithinAt.settled⟩
  show (storeGet true (maskSet s fn e true).rep.msixMask (msixKey fn e) || storeGet false s.rep.fnMask fn) = true
  rw [mask_maskSet, if_pos rfl, Bool.true_or]

theorem exec_msixUnmask_entry : exec (.msixUnmask fn (some e)) s =
    settle s (deliverPending (entriesFlushed (maskSet s fn e false) fn (List.range (msixEntries fn)))) := by
  show execMsixUnmask fn (some e) s = _
  unfold execMsixUnmask
  rw [if_neg (by omega)]
  dsimp only
  rw [if_pos he]
  rfl

theorem msixUnmask_entry : Runs (.msixUnmask fn (some e)) s fun v =>
    storeGet true v.rep.msixMask (msixKey fn e) = false ∧ (∀ x, x < msixEntries fn → x ≠ e → msixMasked v fn x = msixMasked s fn x) ∧
    KeptBut [.rep] s v ∧ RegsKept [] s v := by
  have hexec := exec_msixUnmask_entry (s := s) hfn he
  have hmask := mask_maskSet s fn e false
  have hset : Within [.rep] [] s (maskSet s fn e false) := within_rep s _
  have hfnMask : (maskSet s fn e false).rep.fnMask = s.rep.fnMask := rfl
  generalize maskSet s fn e false = u at *
  have hkept := (masksKept_entriesFlushed u fn (List.range (msixEntries fn))).trans (masksKept_deliverPending _)
  have hall := (hset.trans (within_entriesFlushed u fn (List.range (msixEntries fn)))).trans (within_deliverPending _)
  refine runs_of_settle hexec ⟨?_, fun x hx hne => (hkept.msixMasked fn x).trans ?_, hall.toWithinAt.settled⟩
  · exact (congrArg (storeGet true · (msixKey fn e)) hkept.mask).trans ((hmask e).trans (if_pos rfl))
  · rw [msixMasked, msixMasked, hfnMask, hmask, if_neg hne]

theorem msixUnmask_quiet (hsrc : s.rep.pendingSrc = [])
    (hnone : storeGet false s.rep.msixPending (msixKey fn e) = false ∨ storeGet false s.rep.fnMask fn = true)
    (hothers : ∀ x, x < msixEntries fn → x ≠ e → storeGet false s.rep.msixPending (msixKey fn x) = false ∨ msixMasked s fn x = true) :
    Runs (.msixUnmask fn (some e)) s fun v =>
      storeGet true v.rep.msixMask (msixKey fn e) = false ∧ v.rep.outs = s.rep.outs ∧ KeptBut [.rep] s v ∧ RegsKept [] s v := by
  have hexec := exec_msixUnmask_entry (s := s) hfn he
  have hquiet : ∀ x ∈ List.range (msixEntries fn), msixReady (maskSet s fn e false) fn x = false := by
    intro x hx
    have hmasked : msixMasked (maskSet s fn e false) fn x =
        ((if x = e then false else storeGet true s.rep.msixMask (msixKey fn x)) || storeGet false s.rep.fnMask fn) := by
      rw [msixMasked, mask_maskSet]
      rfl
    show (storeGet false s.rep.msixPending (msixKey fn x) && !msixMasked (maskSet s fn e false) fn x) = false
    rw [hmasked]
    by_cases hxe : x = e
    · subst hxe
      rcases hnone with h | h <;> simp [h]
    · rw [if_neg hxe]
      rcases hothers x (List.mem_range.mp hx) hxe with h | h
      · simp [h]
      · rw [← msixMasked, h]
        simp
  rw [entriesFlushed_of_none _ hquiet, deliverPending_of_none (show (maskSet s fn e false).rep.pendingSrc = [] from hsrc)] at hexec
  exact runs_of_settle hexec ⟨(mask_maskSet s fn e false e).trans (if_pos rfl), rfl, (within_rep s _).toWithinAt.settled⟩

theorem msixUnmask_sends (hsrc : s.rep.pendingSrc = []) (hpending : storeGet false s.rep.msixPending (msixKey fn e) = true)
    (hfnMask : storeGet false s.rep.fnMask fn = false) : Runs (.msixUnmask fn (some e)) s fun v =>
      msixMasked v fn e = false ∧ storeGet false v.rep.msixPending (msixKey fn e) = false ∧ .msix ⟨fn, e⟩ ∈ v.rep.outs ∧
      KeptBut [.rep] s v ∧ RegsKept [] s v := by
  have hexec := exec_msixUnmask_entry (s := s) hfn he
  have hmasked : msixMasked (maskSet s fn e false) fn e = false := by
    rw [msixMasked, mask_maskSet, if_pos rfl, Bool.false_or]
    exact hfnMask
  have hready : msixReady (maskSet s fn e false) fn e = true := by
    rw [msixReady, hmasked]
    show (storeGet false s.rep.msixPending (msixKey fn e) && !false) = true
    rw [hpending]
    rfl
  have hset : Within [.rep] [] s (maskSet s fn e false) := within_rep s _
  have hnone : (maskSet s fn e false).rep.pendingSrc = [] := hsrc
  generalize maskSet s fn e false = u at *
  obtain ⟨hsent, hdone⟩ := entriesFlushed_send _ u (List.mem_range.mpr he) hready
  rw [deliverPending_of_none ((pendingSrc_entriesFlushed fn _ u).trans hnone)] at hexec
  exact runs_of_settle hexec ⟨((masksKept_entriesFlushed u fn _).msixMasked fn e).trans hmasked, hdone, hsent,
    (hset.trans (within_entriesFlushed u fn _)).toWithinAt.settled⟩

end Msix

end Sys2Proof.Machine
end


section
/-! O56: host reads that fail (R193, R197, R400). -/

namespace Sys2Proof.Machine

variable {s u : State} {t c i : Nat} {x : Item}

/-! HOST_READ_FAILURE of an item -/

/-- A completion that came too late is counted. -/
def timeoutNoted (s : State) (t : Nat) (late : Bool) : State := if late then inc (tick s t) .PCIE_CPL_TIMEOUT else tick s t

theorem within_timeoutNoted (s : State) (t : Nat) (late : Bool) : Within [.now] [.PCIE_CPL_TIMEOUT] s (timeoutNoted s t late) := by
  have htick : Within [.now] [.PCIE_CPL_TIMEOUT] s (tick s t) := (within_tick s t).mono (List.Subset.refl _) (by simp)
  unfold timeoutNoted
  split
  · exact htick.trans ((within_inc _ .PCIE_CPL_TIMEOUT 0 1).mono (by simp) (by simp))
  · exact htick

theorem rd_timeoutNoted (s : State) (t : Nat) (late : Bool) : rd (timeoutNoted s t late) .PCIE_CPL_TIMEOUT =
    if late then rd (inc s .PCIE_CPL_TIMEOUT) .PCIE_CPL_TIMEOUT else rd s .PCIE_CPL_TIMEOUT := by
  unfold timeoutNoted
  split
  · simp [inc, rd_tick]
  · rfl

theorem exec_hostReadFailure_item (hx : itemAt s c i = some x) (t : Nat) (late : Bool) :
    exec (.hostReadFailure t (.item c i) late) s = settle s (itemReadFailed (timeoutNoted s t late) x) := by
  have hserve : (timeoutNoted s t late).serve = s.serve := (within_timeoutNoted s t late).parts .serve (by simp)
  have hstill : itemAt (timeoutNoted s t late) c i = some x := (itemAt_congr (congrArg Serving.items hserve) c i).trans hx
  show settle s (match itemAt (timeoutNoted s t late) c i with
    | some x => itemReadFailed (timeoutNoted s t late) x
    | none => timeoutNoted s t late) = _
  rw [hstill]

theorem exec_hostReadFailure_intime (hx : itemAt s c i = some x) (t : Nat) :
    exec (.hostReadFailure t (.item c i) false) s = settle s (itemReadFailed (tick s t) x) := exec_hostReadFailure_item hx t false

theorem itemReadFailed_ends (hop : x.opcode ∉ [5, 0x10, 0x12]) (s : State) :
    itemReadFailed s x = endItem s x 0x23 (if x.opcode = 0x01 then 0x01 else 0x05) := by
  simp only [List.mem_cons, List.not_mem_nil, or_false, not_or] at hop
  obtain ⟨hload, hadapter, htrain⟩ := hop
  unfold itemReadFailed
  by_cases hprompt : x.opcode = 0x01
  · rw [if_pos hprompt, if_pos hprompt]
  · rw [if_neg hprompt, if_neg hload, if_neg (fun h => h.elim hadapter htrain), if_neg hprompt]

theorem hostReadFailure_ends (hx : itemAt s c i = some x) (hop : x.opcode ∉ [5, 0x10, 0x12]) (t : Nat) (late : Bool) :
    Runs (.hostReadFailure t (.item c i) late) s fun v =>
      itemAt v c i = none ∧
      rd v .PCIE_CPL_TIMEOUT = (if late then rd (inc s .PCIE_CPL_TIMEOUT) .PCIE_CPL_TIMEOUT else rd s .PCIE_CPL_TIMEOUT) ∧
      Frame [.lard, .now, .rep, .serve, .tt] (itemFlds ++ [.PCIE_CPL_TIMEOUT]) s v := by
  have hexec := exec_hostReadFailure_item hx t late
  rw [itemReadFailed_ends hop] at hexec
  obtain ⟨rfl, rfl⟩ := key_of_itemAt hx
  have hnoted := within_timeoutNoted s t late
  have hcount := rd_timeoutNoted s t late
  generalize timeoutNoted s t late = u at *
  have hgone := itemAt_endItem u x 0x23 (if x.opcode = 0x01 then 0x01 else 0x05) 0
  have hend := frame_endItem u x 0x23 (if x.opcode = 0x01 then 0x01 else 0x05) 0
  generalize endItem u x 0x23 (if x.opcode = 0x01 then 0x01 else 0x05) = w at *
  refine runs_of_settle hexec ⟨hgone, ?_, ((hnoted.append hend).mono (by decide) (by simp)).settled⟩
  rw [rd_settled_other _ _ _ _ (by decide), hend.regs _ _ (by decide), hcount]

/-! A model, an adapter and a training job whose read fails -/

theorem itemReadFailed_load {m : Model} (hop : x.opcode = 5) (hm : modelAt s x.model = some m) :
    itemReadFailed s x = failLoad s x.model m 0x23 0x05 0 := by
  rw [itemReadFailed, if_neg (by omega), if_pos hop, hm]

theorem itemReadFailed_unloaded (hop : x.opcode = 5) (hm : modelAt s x.model = none) : itemReadFailed s x = endItem s x 0x23 0x05 := by
  rw [itemReadFailed, if_neg (by omega), if_pos hop, hm]

theorem itemReadFailed_image {k : Nat} (hop : x.opcode = 0x10 ∨ x.opcode = 0x12) (hslot : x.slot = some k) (hstop : x.stop = 0) (s : State) :
    itemReadFailed s x = if x.opcode = 0x10 then finishLoad s x k none false [] else finishOpen s x k none false [] := by
  rw [itemReadFailed, if_neg (by omega), if_neg (by omega), if_pos hop, hslot]
  exact if_neg (not_not.mpr hstop)

theorem hostReadFailure_load (hx : itemAt s c i = some x) (hop : x.opcode = 5)
    (howner : ∀ m, modelAt s x.model = some m → m.owner = (c, i)) (t : Nat) : Runs (.hostReadFailure t (.item c i) false) s fun v =>
      itemAt v c i = none ∧ modelAt v x.model = none ∧ Frame [.lard, .now, .rep, .serve, .tt] itemFlds s v := by
  have hfailed : LoadFailed x.model (c, i) (tick s t) (itemReadFailed (tick s t) x) := by
    cases hm : modelAt s x.model with
    | some m =>
      rw [itemReadFailed_load (s := tick s t) hop hm, ← howner m hm]
      exact failLoad_fails (tick s t) x.model m 0x23 0x05 0
    | none =>
      rw [itemReadFailed_unloaded (s := tick s t) hop hm]
      obtain ⟨rfl, rfl⟩ := key_of_itemAt hx
      have hend := itemsEnd_endItem (tick s t) x 0x23 0x05 0
      exact ⟨hend.unloaded _ hm, itemAt_endItem _ x 0x23 0x05 0, hend.within.mono (by simp) (List.Subset.refl _)⟩
  exact (loadFailed_runs (exec_hostReadFailure_intime hx t) hfailed).imp fun v ⟨hmodel, hitem, hframe⟩ => ⟨hitem, hmodel, hframe⟩

theorem finishLoad_unread (s : State) (x : Item) (k : Nat) :
    finishLoad s x k none false [] = queueEdit (imageSeen s x) k freeEntry (some (x.ctx, x.idx, 0x23, 0x05)) := rfl

theorem hostReadFailure_adapter {k : Nat} (hx : itemAt s c i = some x) (hop : x.opcode = 0x10) (hstop : x.stop = 0) (hslot : x.slot = some k)
    (t : Nat) : Runs (.hostReadFailure t (.item c i) false) s fun v =>
      v.pann.edits = s.pann.edits ++ [⟨k, freeEntry, some (c, i, 0x23, 0x05)⟩] ∧ KeptBut [.now, .pann, .serve, .tt] s v ∧
      RegsKept [] s v := by
  have hexec := exec_hostReadFailure_intime hx t
  rw [itemReadFailed_image (.inl hop) hslot hstop, if_pos hop, finishLoad_unread] at hexec
  obtain ⟨rfl, rfl⟩ := key_of_itemAt hx
  have hall := ((within_tick s t).append (within_setItem (tick s t) { x with stop := 1 })).append
    (within_queueEdit (imageSeen (tick s t) x) k freeEntry (some (x.ctx, x.idx, 0x23, 0x05)))
  refine runs_of_settle hexec ⟨?_, (hall.mono (qs := [.now, .pann, .serve, .tt]) (gs := []) (by simp) (by simp)).toWithinAt.settled⟩
  rw [settled_pann, queueEdit_pann]
  rfl

/-- A training job is gone. -/
def jobDropped (s : State) (n : Nat) : State :=
  wr (updPann s fun p => { p with jobs := storeErase p.jobs n }) .TRAIN_JOBS_OPEN 0 (storeErase s.pann.jobs n).length

theorem within_jobDropped (s : State) (n : Nat) : Within [.pann] [.TRAIN_JOBS_OPEN] s (jobDropped s n) :=
  (within_pann s _).append (within_wr _ .TRAIN_JOBS_OPEN 0 _)

theorem finishOpen_unread {k n : Nat} {j : Job} (hjob : jobOf s k = some (n, j)) (x : Item) :
    finishOpen s x k none false [] = endItem (jobDropped (imageSeen s x) n) x 0x23 0x05 := by
  rw [finishOpen, hjob]
  rfl

theorem hostReadFailure_train {k n : Nat} {j : Job} (hx : itemAt s c i = some x) (hop : x.opcode = 0x12) (hstop : x.stop = 0)
    (hslot : x.slot = some k) (hjob : jobOf s k = some (n, j)) (t : Nat) : Runs (.hostReadFailure t (.item c i) false) s fun v =>
      itemAt v c i = none ∧ storeFind v.pann.jobs n = none ∧ rd v .TRAIN_JOBS_OPEN = v.pann.jobs.length ∧
      Frame [.lard, .now, .pann, .rep, .serve, .tt] (itemFlds ++ [.TRAIN_JOBS_OPEN]) s v := by
  have hexec := exec_hostReadFailure_intime hx t
  rw [itemReadFailed_image (.inr hop) hslot hstop, if_neg (by omega), finishOpen_unread (s := tick s t) hjob] at hexec
  obtain ⟨rfl, rfl⟩ := key_of_itemAt hx
  have hdrop := ((within_tick s t).append (within_setItem (tick s t) { x with stop := 1 })).append (within_jobDropped (imageSeen (tick s t) x) n)
  have hjobs : (jobDropped (imageSeen (tick s t) x) n).pann.jobs = storeErase s.pann.jobs n := rfl
  have hopen : rd (jobDropped (imageSeen (tick s t) x) n) .TRAIN_JOBS_OPEN = (storeErase s.pann.jobs n).length := rd_wr_same _ _ _ _
  generalize jobDropped (imageSeen (tick s t) x) n = u at *
  have hend := frame_endItem u x 0x23 0x05 0
  have hpann : (endItem u x 0x23 0x05).pann = u.pann := hend.parts .pann (by simp)
  have hgone := itemAt_endItem u x 0x23 0x05 0
  generalize endItem u x 0x23 0x05 = w at *
  refine runs_of_settle hexec ⟨hgone, ?_, ?_, ((hdrop.append hend).mono (by decide) (by simp)).settled⟩
  · rw [settled_pann, hpann, hjobs]
    exact storeFind_erase_same _ _
  · rw [rd_settled_other _ _ _ _ (by decide), hend.regs _ _ (by decide), hopen, settled_pann, hpann, hjobs]

/-! HOST_READ_FAILURE of a control block (R193) -/

theorem exec_hostReadFailure_control (s : State) (t c : Nat) :
    exec (.hostReadFailure t (.control c) false) s = settle s (readFailed (tick s t) c) := rfl

theorem hostReadFailure_counts (h : (queueOf s c).ringFails < 2) (t : Nat) : Runs (.hostReadFailure t (.control c) false) s fun v =>
    (queueOf v c).ringFails = (queueOf s c).ringFails + 1 ∧ KeptBut [.now, .serve] s v ∧ RegsKept [] s v := by
  have hexec := exec_hostReadFailure_control s t c
  rw [readFailed_counts (s := tick s t) h] at hexec
  have hall := ((within_tick s t).append (within_failsSet (tick s t) c ((queueOf (tick s t) c).ringFails + 1))).mono
    (qs := [.now, .serve]) (gs := []) (by simp) (by simp)
  exact runs_of_settle hexec ⟨queueOf_failsSet _ _ _, hall.toWithinAt.settled⟩

theorem hostReadFailure_faults (h : 2 ≤ (queueOf s c).ringFails) (t : Nat) : Runs (.hostReadFailure t (.control c) false) s fun v =>
    rd v .SERVE_CTRL_ENABLE c = 0 ∧ rd v .SERVE_CTRL_FAULTED c = 1 ∧
    Frame [.now, .rep, .serve] (eventFlds ++ [.SERVE_CTRL_ENABLE, .SERVE_CTRL_FAULTED]) s v := by
  have hexec := exec_hostReadFailure_control s t c
  rw [readFailed_faults (s := tick s t) h] at hexec
  have hset := (within_tick s t).append (within_failsSet (tick s t) c 0)
  generalize failsSet (tick s t) c 0 = u at *
  obtain ⟨henable, hfaulted, -⟩ := ringFault_disables u c 0x02
  have hfault : Within [.serve, .rep] _ u (ringFault u c 0x02) :=
    (((frame_ringEvent u c 0x02).append (within_wr _ .SERVE_CTRL_ENABLE c 0)).append (within_wr _ .SERVE_CTRL_FAULTED c 1)).mono
      (by simp) (List.Subset.refl _)
  generalize ringFault u c 0x02 = w at *
  refine runs_of_settle hexec ⟨?_, ?_, ((hset.append hfault).mono (by simp) (by simp)).settled⟩
  · rw [rd_settled_other _ _ _ _ (by decide), henable]
  · rw [rd_settled_other _ _ _ _ (by decide), hfaulted]

end Sys2Proof.Machine
end


section
/-! O56: as items end, commands stop and queues move on, the items that end at the next boundary (R401) stay listed. -/

namespace Sys2Proof.Machine

variable {s t u : State}

/-- The items that end at the next boundary are as they were. -/
def AbortingKept (s t : State) : Prop := t.serve.aborting = s.serve.aborting

theorem AbortingKept.refl (s : State) : AbortingKept s s := rfl

theorem AbortingKept.trans (h : AbortingKept s t) (k : AbortingKept t u) : AbortingKept s u := Eq.trans k h

/-- What does not touch serving. -/
theorem Within.abortingKept {ps : List Part} {fs : List Fld} (h : Within ps fs s t) (hp : Part.serve ∉ ps := by simp) : AbortingKept s t :=
  congrArg Serving.aborting (h.parts .serve hp)

theorem abortingKept_each {α : Type} {f : State → α → State} (hf : ∀ s a, AbortingKept s (f s a)) (l : List α) (s : State) :
    AbortingKept s (each l s f) := each_rel AbortingKept.refl AbortingKept.trans hf l s

theorem abortingKept_wr (s : State) (f : Fld) (n v : Nat) : AbortingKept s (wr s f n v) := rfl

/-! Event records -/

theorem abortingKept_setQueue (s : State) (c : Nat) (q : CtxQueue) : AbortingKept s (setQueue s c q) := rfl

theorem abortingKept_fireEvq (s : State) (c : Nat) : AbortingKept s (fireEvq s c) := by
  unfold fireEvq
  dsimp only
  split
  · exact (abortingKept_setQueue s c _).trans (within_sendMsix _ _ _).abortingKept
  · exact AbortingKept.refl s

theorem abortingKept_spillStatus (s : State) (c : Nat) : AbortingKept s (spillStatus s c) := rfl

theorem abortingKept_putEvent (s : State) (c : Nat) (final : Bool) (r : EventRec) : AbortingKept s (putEvent s c final r) := by
  unfold putEvent
  split
  · exact AbortingKept.trans (t := writeControl (writeEvq s c r) c) rfl (abortingKept_fireEvq _ c)
  · dsimp only
    split <;> rfl

theorem abortingKept_sendEvent (s : State) (ctx handle tag idx status cause detail : Nat) (final : Bool) (body : EventBody) :
    AbortingKept s (sendEvent s ctx handle tag idx status cause detail final body) := by
  unfold sendEvent
  split
  · split
    · next x _ => exact AbortingKept.trans (t := setSession s _ _) rfl (abortingKept_putEvent _ _ _ _)
    · exact AbortingKept.refl s
  · exact abortingKept_putEvent _ _ _ _

/-! The end of an item -/

theorem abortingKept_freeIndex (s : State) (i : Nat) : AbortingKept s (freeIndex s i) := by
  unfold freeIndex
  split <;> rfl

theorem abortingKept_freeSession (s : State) (i : Nat) : AbortingKept s (freeSession s i) := by
  unfold freeSession
  split
  · exact AbortingKept.refl s
  · split
    · exact (abortingKept_freeIndex _ _).trans (abortingKept_freeIndex _ _)
    · exact abortingKept_freeIndex _ _

theorem abortingKept_releaseReserve (s : State) (i : Nat) : AbortingKept s (releaseReserve s i) := by
  have clear : ∀ (t : State) (k : Nat), AbortingKept t (match rootAt t k with
      | some r => setRoot t k { r with reserved := if r.st = 4 then committedPages r else 0 }
      | none => t) := by
    intro t k
    split <;> rfl
  unfold releaseReserve
  dsimp only
  split
  · exact (clear s i).trans (clear _ _)
  · exact clear s i

theorem abortingKept_sessionAtFinal (s : State) (x : Item) : AbortingKept s (sessionAtFinal s x) := by
  unfold sessionAtFinal
  split
  · exact AbortingKept.refl s
  · split
    · extract_lets u
      refine AbortingKept.trans (t := u) (abortingKept_releaseReserve s _) ?_
      split
      · exact AbortingKept.refl _
      · split
        · exact abortingKept_freeSession _ _
        · rfl
    · exact AbortingKept.refl s

theorem abortingKept_finishItem (s : State) (x : Item) (code detail cardId : Nat) : AbortingKept s (finishItem s x code detail cardId) := by
  unfold finishItem
  extract_lets u late v
  have hu : AbortingKept s u := (within_lastBlock s x).abortingKept
  have hv : AbortingKept u v := abortingKept_sendEvent _ _ _ _ _ _ _ _ _ _
  have hremoved : AbortingKept v (removeItem v x) := rfl
  exact (((hu.trans hv).trans hremoved).trans (abortingKept_sessionAtFinal _ x)).trans (within_dropItem _ _ _).abortingKept

theorem abortingKept_releaseModel (s : State) (m : Nat) : AbortingKept s (releaseModel s m) :=
  abortingKept_each (fun t (e : Nat × Session) => abortingKept_freeSession t e.1) _ s

theorem abortingKept_settleWaiters (s : State) (x : Item) : AbortingKept s (settleWaiters s x) := by
  unfold settleWaiters
  extract_lets u
  have hu : AbortingKept s u := rfl
  refine hu.trans (abortingKept_each (fun t i => ?_) _ u)
  dsimp only
  split
  · exact (abortingKept_finishItem t i 0x01 0x07 0).trans (abortingKept_releaseModel _ _)
  · exact abortingKept_finishItem t i 0x01 0x07 0

theorem abortingKept_endItem (s : State) (x : Item) (code detail cardId : Nat) : AbortingKept s (endItem s x code detail cardId) :=
  (abortingKept_finishItem s x code detail cardId).trans (abortingKept_settleWaiters _ x)

theorem movesKeep_abortingKept : MovesKeep AbortingKept where
  refl := AbortingKept.refl
  trans := AbortingKept.trans
  parts w := w.abortingKept
  core _ _ _ := rfl
  trail s k code ctx arg16 arg32 := (within_trail s k code ctx arg16 arg32).abortingKept
  hubError s hub off value slot cause := (within_hubError s hub off value slot cause).abortingKept
  endItem := abortingKept_endItem

/-! Commands of a context that stop -/

theorem abortingKept_profile (s : State) (k : Nat) (r : RunCmd) (stopped : Bool) : AbortingKept s (profile s k r stopped) := by
  unfold profile
  extract_lets h sel n head full u g row v w
  have hu : AbortingKept s u := by
    unfold u
    split <;> rfl
  split
  · exact AbortingKept.refl s
  · split
    · exact hu
    · split <;> exact hu

theorem abortingKept_stopOnCore (c : Nat) (s : State) (k : Nat) : AbortingKept s (stopOnCore c s k) := by
  unfold stopOnCore
  extract_lets mine u hold v w x
  have hu : AbortingKept s u :=
    abortingKept_each (fun t r => (within_trail t _ _ _ _ _).abortingKept.trans (abortingKept_profile _ _ _ _)) _ s
  have hx : AbortingKept u x := by
    unfold x
    split <;> rfl
  exact (hu.trans hx).trans (within_showBusy x k).abortingKept

theorem abortingKept_setSumq (s : State) (h : Nat) (l : List SummaryRec) : AbortingKept s (setSumq s h l) := rfl

theorem abortingKept_sumTurn (s : State) (h : Nat) : AbortingKept s (sumTurn s h) := by
  refine abortingKept_each (fun t e => ?_) _ s
  split
  · exact AbortingKept.refl t
  · dsimp only
    split
    · rfl
    · split <;> rfl

theorem abortingKept_stopCommands (s : State) (c : Nat) : AbortingKept s (stopCommands s c) := by
  unfold stopCommands
  extract_lets ks hubs u v w x named y
  have hu : AbortingKept s u := abortingKept_each (abortingKept_stopOnCore c) _ s
  have hw : AbortingKept v w := abortingKept_each (fun t (e : Nat × List SummaryRec) => abortingKept_setSumq t e.1 _) _ v
  have hx : AbortingKept w x := abortingKept_each (fun t h => abortingKept_each (fun t (_ : Nat) => abortingKept_sumTurn t h) _ t) _ w
  have hy : AbortingKept x y := abortingKept_each (fun t _ => abortingKept_wr (wr (wr (wr t _ _ _) _ _ _) _ _ _) _ _ _) _ x
  exact (((hu.trans hw).trans hx).trans hy).trans (abortingKept_each movesKeep_abortingKept.pump _ y)

theorem abortingKept_freeSems (s : State) (c : Nat) : AbortingKept s (freeSems s c) := by
  refine abortingKept_each (fun t n => ?_) _ s
  split <;> rfl

theorem abortingKept_startTeardown (s : State) (c cause : Nat) : AbortingKept s (startTeardown s c cause) := by
  unfold startTeardown
  extract_lets st tasks u v w x
  split
  · exact AbortingKept.refl s
  · have hu : AbortingKept s u := (within_setCtxState s c 3).abortingKept
    have hw : AbortingKept u w := by
      unfold w v
      split <;> rfl
    have hx : AbortingKept w x :=
      ((within_dropWindows w c).abortingKept.trans (abortingKept_stopCommands _ c)).trans
        ((abortingKept_freeSems _ c).trans ((within_dropCredits _).abortingKept.trans (movesKeep_abortingKept.abortSegments _ tasks)))
    exact ((hu.trans hw).trans hx).trans (within_teardownCounted (c := c) x cause).abortingKept

end Sys2Proof.Machine
end


section
/-! O56: functions and their resets, and PERST_N (R402, R432, R434, R436, R441, Table 14-2). -/

namespace Sys2Proof.Machine

variable {s u : State} {t c d : Nat}

/-! What the start of a teardown leaves of the other contexts -/

/-- A teardown starts in every context but 0 that is not FREE and not already TEARING. -/
theorem startTeardown_of_not {cause : Nat} (h : c = 0 ∨ rd s .CTX_STATE_STATE c = 0 ∨ rd s .CTX_STATE_STATE c = 3) :
    startTeardown s c cause = s := if_pos h

theorem rd_startTeardown_state (s : State) (c cause d : Nat) : rd (startTeardown s c cause) .CTX_STATE_STATE d =
    if d = c ∧ c ≠ 0 ∧ rd s .CTX_STATE_STATE c ≠ 0 then 3 else rd s .CTX_STATE_STATE d := by
  by_cases h : c = 0 ∨ rd s .CTX_STATE_STATE c = 0 ∨ rd s .CTX_STATE_STATE c = 3
  · rw [startTeardown_of_not h]
    split
    · next hd =>
      obtain ⟨rfl, hpos, hfree⟩ := hd
      omega
    · rfl
  · rw [startTeardown_from_one h]
    by_cases hd : d = c
    · subst hd
      rw [(startTeardown_starts (s := wr s .CTX_STATE_STATE d 1) (by omega) (.inl (rd_wr_same _ _ _ _)) cause).1, if_pos (by omega)]
    · rw [rd_startTeardown_state_other (s := wr s .CTX_STATE_STATE c 1) (by omega) (.inl (rd_wr_same _ _ _ _)) cause hd,
        rd_wr_ne _ _ _ _ _ _ (by simp [hd]), if_neg (fun k => hd k.1)]

/-- No teardown sets ENABLE. -/
theorem enable_startTeardown (s : State) (c cause : Nat) (h : rd s .SERVE_CTRL_ENABLE d = 0) :
    rd (startTeardown s c cause) .SERVE_CTRL_ENABLE d = 0 := by
  by_cases hno : c = 0 ∨ rd s .CTX_STATE_STATE c = 0 ∨ rd s .CTX_STATE_STATE c = 3
  · rwa [startTeardown_of_not hno]
  · have hframe := startTeardown_frame (s := wr s .CTX_STATE_STATE c 1) (by omega) (.inl (rd_wr_same _ _ _ _)) cause
    rw [startTeardown_from_one hno, hframe.regs _ _ (by decide), tornDown, rd_wr, (within_setCtxState _ c 3).regs _ _ (by simp),
      rd_wr_ne _ _ _ _ _ _ (by simp), h]
    split <;> rfl

/-- No teardown's start ends another teardown. -/
theorem tearing_startTeardown (s : State) (c cause : Nat) : s.ctxs.tearing ⊆ (startTeardown s c cause).ctxs.tearing := by
  unfold startTeardown
  extract_lets st tasks u v w x
  split
  · exact List.Subset.refl _
  · have hv : v.ctxs = s.ctxs := by
      unfold v
      split <;> exact (within_setCtxState s c 3).parts .ctxs (by simp)
    have hw : s.ctxs.tearing ⊆ w.ctxs.tearing := by
      rw [← hv]
      exact List.subset_append_left _ _
    clear_value w
    have hctxs : x.ctxs = w.ctxs := ctxs_stopWork w tasks
    clear_value x
    have hkept := (within_teardownCounted (c := c) x cause).parts .ctxs (by simp)
    rw [← hctxs, ← show _ = _ from hkept] at hw
    exact hw

/-! VF_FLR (Table 14-2) -/

theorem vfFlr_runs (hc : c ≠ 0) (hst : rd s .CTX_STATE_STATE c = 1 ∨ rd s .CTX_STATE_STATE c = 2) (t : Nat) : Runs (.vfFlr t c) s fun v =>
    rd v .CTX_STATE_STATE c = 3 ∧ rd v .SERVE_CTRL_ENABLE c = 0 ∧ (∃ x, (c, x) ∈ v.ctxs.tearing) ∧ v.mem = s.mem ∧
    (∀ d, d ≠ c → rd v .CTX_STATE_STATE d = rd s .CTX_STATE_STATE d) := by
  have hexec : exec (.vfFlr t c) s = settle s (startTeardown (tick s t) c 3) := rfl
  obtain ⟨hstate, henable, hmem⟩ := startTeardown_starts (s := tick s t) hc hst 3
  obtain ⟨-, hlisted⟩ := startTeardown_stops (s := tick s t) hc hst 3
  have hother := fun d (hd : d ≠ c) => rd_startTeardown_state_other (s := tick s t) hc hst 3 hd
  generalize startTeardown (tick s t) c 3 = u at *
  refine runs_of_settle hexec ⟨?_, ?_, ⟨_, hlisted⟩, hmem, fun d hd => ?_⟩
  · rw [rd_settled_other _ _ _ _ (by decide), hstate]
  · rw [rd_settled_other _ _ _ _ (by decide), henable]
  · rw [rd_settled_other _ _ _ _ (by decide), hother d hd, rd_tick]

/-! VF_ENABLE_CLEARED (Table 14-2) -/

/-- Contexts that are torn down one after the other. -/
def tornEach (s : State) (cs : List Nat) : State := each cs s fun t c => startTeardown t c 3

theorem within_tornEach (s : State) (cs : List Nat) :
    Within [.core, .serve, .rep, .lard, .tt, .fab, .dbg, .ctxs] tripFlds s (tornEach s cs) :=
  within_each _ (fun t c => within_startTeardown t c 3) cs s

theorem abortingKept_tornEach (s : State) (cs : List Nat) : AbortingKept s (tornEach s cs) :=
  abortingKept_each (fun t c => abortingKept_startTeardown t c 3) cs s

theorem rd_tornEach_state (d : Nat) : ∀ (cs : List Nat) (s : State), rd (tornEach s cs) .CTX_STATE_STATE d =
    if d ∈ cs ∧ d ≠ 0 ∧ rd s .CTX_STATE_STATE d ≠ 0 then 3 else rd s .CTX_STATE_STATE d
  | [], s => by simp [tornEach, each]
  | c :: cs, s => by
    refine (rd_tornEach_state d cs (startTeardown s c 3)).trans ?_
    rw [rd_startTeardown_state]
    by_cases hd : d = c
    · subst hd
      by_cases hgo : d ≠ 0 ∧ rd s .CTX_STATE_STATE d ≠ 0
      · simp [hgo]
      · have hno : ¬ (d = d ∧ d ≠ 0 ∧ rd s .CTX_STATE_STATE d ≠ 0) := fun h => hgo h.2
        rw [if_neg hno, if_neg (fun h => hgo h.2), if_neg (fun h => hgo h.2)]
    · have hno : ¬ (d = c ∧ c ≠ 0 ∧ rd s .CTX_STATE_STATE c ≠ 0) := fun h => hd h.1
      rw [if_neg hno]
      simp [hd]

theorem enable_tornEach : ∀ (cs : List Nat) (s : State), rd s .SERVE_CTRL_ENABLE d = 0 → rd (tornEach s cs) .SERVE_CTRL_ENABLE d = 0
  | [], _, h => h
  | c :: cs, s, h => enable_tornEach cs (startTeardown s c 3) (enable_startTeardown s c 3 h)

theorem tearing_tornEach : ∀ (cs : List Nat) (s : State), s.ctxs.tearing ⊆ (tornEach s cs).ctxs.tearing
  | [], _ => List.Subset.refl _
  | c :: cs, s => List.Subset.trans (tearing_startTeardown s c 3) (tearing_tornEach cs (startTeardown s c 3))

/-- A granted context among those that are torn down reads no ring, and is listed. -/
theorem tornEach_starts (hc : c ≠ 0) : ∀ (cs : List Nat) (s : State), c ∈ cs → rd s .CTX_STATE_STATE c = 1 ∨ rd s .CTX_STATE_STATE c = 2 →
    rd (tornEach s cs) .SERVE_CTRL_ENABLE c = 0 ∧ ∃ x, (c, x) ∈ (tornEach s cs).ctxs.tearing
  | [], _, hmem, _ => absurd hmem List.not_mem_nil
  | d :: cs, s, hmem, hst => by
    by_cases hd : c = d
    · subst hd
      obtain ⟨-, henable, -⟩ := startTeardown_starts hc hst 3
      obtain ⟨-, hlisted⟩ := startTeardown_stops hc hst 3
      exact ⟨enable_tornEach cs _ henable, _, tearing_tornEach cs _ hlisted⟩
    · refine tornEach_starts hc cs (startTeardown s d 3) ((List.mem_cons.mp hmem).resolve_left hd) ?_
      rwa [rd_startTeardown_state, if_neg (fun h => hd h.1)]

theorem mem_virtual (hpos : 1 ≤ c) (hlt : c < 64) : c ∈ (List.range 64).drop 1 := by
  rw [show (List.range 64).drop 1 = List.range' 1 63 from rfl, List.mem_range'_1]
  omega

theorem vfEnableCleared_states (s : State) (t : Nat) : Runs (.vfEnableCleared t) s fun v =>
    (∀ c, 1 ≤ c → c < 64 → rd v .CTX_STATE_STATE c = if rd s .CTX_STATE_STATE c = 0 then 0 else 3) ∧ v.mem = s.mem := by
  have hexec : exec (.vfEnableCleared t) s = settle s (tornEach (tick s t) ((List.range 64).drop 1)) := rfl
  have hstate := fun c => rd_tornEach_state c ((List.range 64).drop 1) (tick s t)
  have hmem := (within_tornEach (tick s t) ((List.range 64).drop 1)).parts .mem (by simp)
  generalize tornEach (tick s t) ((List.range 64).drop 1) = u at *
  refine runs_of_settle hexec ⟨fun c hpos hlt => ?_, hmem⟩
  rw [rd_settled_other _ _ _ _ (by decide), hstate, rd_tick]
  by_cases hfree : rd s .CTX_STATE_STATE c = 0
  · rw [if_neg (fun h => h.2.2 hfree), if_pos hfree, hfree]
  · rw [if_pos ⟨mem_virtual hpos hlt, by omega, hfree⟩, if_neg hfree]

theorem vfEnableCleared_tears (hpos : 1 ≤ c) (hlt : c < 64) (hst : rd s .CTX_STATE_STATE c = 1 ∨ rd s .CTX_STATE_STATE c = 2) (t : Nat) :
    Runs (.vfEnableCleared t) s fun v =>
      rd v .CTX_STATE_STATE c = 3 ∧ rd v .SERVE_CTRL_ENABLE c = 0 ∧ (∃ x, (c, x) ∈ v.ctxs.tearing) ∧ v.mem = s.mem ∧
      rd v .CTX_STATE_STATE 0 = rd s .CTX_STATE_STATE 0 := by
  have hexec : exec (.vfEnableCleared t) s = settle s (tornEach (tick s t) ((List.range 64).drop 1)) := rfl
  have hstate := fun c => rd_tornEach_state c ((List.range 64).drop 1) (tick s t)
  have hmem := (within_tornEach (tick s t) ((List.range 64).drop 1)).parts .mem (by simp)
  obtain ⟨henable, hlisted⟩ := tornEach_starts (by omega) ((List.range 64).drop 1) (tick s t) (mem_virtual hpos hlt) hst
  generalize tornEach (tick s t) ((List.range 64).drop 1) = u at *
  refine runs_of_settle hexec ⟨?_, ?_, hlisted, hmem, ?_⟩
  · rw [rd_settled_other _ _ _ _ (by decide), hstate, if_pos ⟨mem_virtual hpos hlt, by omega, by rw [rd_tick]; omega⟩]
  · rw [rd_settled_other _ _ _ _ (by decide), henable]
  · rw [rd_settled_other _ _ _ _ (by decide), hstate, if_neg (fun h => h.2.1 rfl), rd_tick]

/-! PERST_ASSERT (R436) -/

/-- PERST_N is asserted. -/
def perstShown (s : State) (t : Nat) : State := wr (tick s t) .EVC_INPUTS_PERST 0 1

/-- The link goes down with PERST_N, if it was up, and the endpoint is reset. -/
def perstReset (s : State) (t : Nat) : State :=
  resetEndpoint (if rdb (perstShown s t) .PCIE_LINK_UP then leaveDlUp (perstShown s t) else perstShown s t)

/-- Every context is stopped. -/
def perstStopped (s : State) (t : Nat) : State := tornEach (abortAtBoundary (perstReset s t) (· == 0)) ((List.range 64).drop 1)

/-- The reset's kind, its report and its entry in the log. -/
def perstReported (s : State) (n : Nat) : State :=
  logEntry (report (wr s .RESET_STATUS_LAST_KIND 0 3) 0x21 0 [(1, 3, false), (1, 1, false), (2, 0, false), (4, n, false)]) 4 0 0 0

theorem within_perstReset (s : State) (t : Nat) : Within [.now, .rep, .dbg, .mgt, .ctxs]
    [.EVC_INPUTS_PERST, .PCIE_LINK_UP, .PCIE_LINK_DOWNS, .EVC_STATUS_LINK, .CTX_STATE_IDE_READY, .CTXWIN_INFO_IDE_READY] s (perstReset s t) := by
  have hshown : Within [.now] [.EVC_INPUTS_PERST] s (perstShown s t) := (within_tick s t).append (within_wr _ .EVC_INPUTS_PERST 0 1)
  unfold perstReset
  split
  · exact ((hshown.append (within_leaveDlUp _)).append (within_resetEndpoint _)).mono (by simp) (by simp)
  · exact (hshown.append (within_resetEndpoint _)).mono (by simp) (by simp)

theorem rd_perstReset (s : State) (t : Nat) : rd (perstReset s t) .EVC_INPUTS_PERST = 1 ∧ rd (perstReset s t) .PCIE_LINK_UP ≠ 1 := by
  have hperst : rd (perstShown s t) .EVC_INPUTS_PERST = 1 := rd_wr_same (tick s t) .EVC_INPUTS_PERST 0 1
  unfold perstReset
  rw [(within_resetEndpoint _).regs _ _ (by simp), (within_resetEndpoint _).regs _ _ (by simp)]
  split
  · rw [(within_leaveDlUp _).regs _ _ (by simp), (leaveDlUp_counts _).1]
    exact ⟨hperst, by simp⟩
  · next hdown => exact ⟨hperst, fun h => hdown (rdb_of_one h)⟩

theorem within_perstReported (s : State) (n : Nat) : Within [.rep] (.RESET_STATUS_LAST_KIND :: reportFlds) s (perstReported s n) :=
  (((within_wr s .RESET_STATUS_LAST_KIND 0 3).append (within_report _ 0x21 0 [(1, 3, false), (1, 1, false), (2, 0, false), (4, n, false)]
    none 0 false)).append (within_logEntry _ 4 0 0 0)).mono (by simp) (by simp)

theorem rd_perstReported (s : State) (n : Nat) : rd (perstReported s n) .RESET_STATUS_LAST_KIND = 3 := by
  unfold perstReported
  rw [(within_logEntry _ 4 0 0 0).regs _ _ (by simp), (within_report _ _ _ _ _ _ _).regs _ _ (by decide), rd_wr_same]

theorem exec_perstAssert (s : State) (t : Nat) : exec (.perstAssert t) s = settle s
    (if rdb s .EVC_INPUTS_PERST then tick s t
     else if s.boot.failing ∨ rd s .LP_STATUS_STATE = 4 then perstShown s t
     else perstReported (perstStopped s t) s.serve.items.length) := by
  have hlp : rd (perstShown s t) .LP_STATUS_STATE = rd s .LP_STATUS_STATE := rd_wr_ne _ _ _ _ _ _ (by simp)
  rw [← hlp]
  rfl

theorem perstAssert_shows (h : rd s .EVC_INPUTS_PERST = 1 ∨ s.boot.failing = true ∨ rd s .LP_STATUS_STATE = 4) (t : Nat) :
    Runs (.perstAssert t) s fun v =>
      rd v .EVC_INPUTS_PERST = 1 ∧ KeptBut [.now] s v ∧ RegsKept [(.EVC_INPUTS_PERST, 0)] s v := by
  have hexec := exec_perstAssert s t
  by_cases hasserted : rd s .EVC_INPUTS_PERST = 1
  · rw [rdb_of_one hasserted, if_pos rfl] at hexec
    refine runs_of_settle hexec ⟨?_, ((within_tick s t).toWithinAt.mono (List.Subset.refl _) (by simp)).settled⟩
    rw [rd_settled_other _ _ _ _ (by decide), rd_tick, hasserted]
  · rw [rdb_of_ne_one hasserted, if_neg (by simp), if_pos (h.resolve_left hasserted)] at hexec
    refine runs_of_settle hexec ⟨?_, ((within_tick s t).toWithinAt.trans (withinAt_wr (tick s t) _ _ _)).settled⟩
    rw [rd_settled_other _ _ _ _ (by decide), perstShown, rd_wr_same]

theorem perstAssert_stops (hperst : rd s .EVC_INPUTS_PERST ≠ 1) (hlp : rd s .LP_STATUS_STATE ≠ 4) (hgood : s.boot.failing = false) (t : Nat) :
    Runs (.perstAssert t) s fun v =>
      rd v .EVC_INPUTS_PERST = 1 ∧ rd v .PCIE_LINK_UP ≠ 1 ∧ rd v .RESET_STATUS_LAST_KIND = 3 ∧ v.mem = s.mem ∧
      (∀ c, 1 ≤ c → c < 64 → rd s .CTX_STATE_STATE c = 1 ∨ rd s .CTX_STATE_STATE c = 2 → rd v .CTX_STATE_STATE c = 3) ∧
      (∀ x ∈ s.serve.items, x.ctx = 0 → (0, x.idx) ∈ v.serve.aborting) := by
  have hexec := exec_perstAssert s t
  rw [rdb_of_ne_one hperst, if_neg (by simp), if_neg (by simp [hgood, hlp])] at hexec
  obtain ⟨hshown, hdown⟩ := rd_perstReset s t
  have hreset := within_perstReset s t
  unfold perstStopped at hexec
  generalize perstReset s t = u at *
  have hserve : u.serve = s.serve := hreset.parts .serve (by simp)
  have habort := within_abortAtBoundary u (· == 0)
  have hlisted : ∀ x ∈ s.serve.items, x.ctx = 0 → (0, x.idx) ∈ (abortAtBoundary u (· == 0)).serve.aborting := fun x hx h0 =>
    h0 ▸ mem_aborting_abortAtBoundary (hserve ▸ hx) (by simp [h0])
  generalize abortAtBoundary u (· == 0) = w at *
  have hstate := fun c => rd_tornEach_state c ((List.range 64).drop 1) w
  have htorn := within_tornEach w ((List.range 64).drop 1)
  have haborting : (tornEach w ((List.range 64).drop 1)).serve.aborting = w.serve.aborting := abortingKept_tornEach w _
  generalize tornEach w ((List.range 64).drop 1) = x at *
  have hreport := within_perstReported x s.serve.items.length
  have hkind := rd_perstReported x s.serve.items.length
  have hserve' : (perstReported x s.serve.items.length).serve = x.serve := hreport.parts .serve (by simp)
  have hall := habort.append (htorn.append hreport)
  generalize perstReported x s.serve.items.length = y at *
  refine runs_of_settle hexec ⟨?_, ?_, ?_, Eq.trans (hall.kept .mem (by decide)) (hreset.kept .mem (by decide)), fun c hpos hlt hst => ?_,
    fun i hi h0 => ?_⟩
  · rw [rd_settled_other _ _ _ _ (by decide), hall.regs _ _ (by decide), hshown]
  · rwa [rd_settled_other _ _ _ _ (by decide), hall.regs _ _ (by decide)]
  · rw [rd_settled_other _ _ _ _ (by decide), hkind]
  · have hfree : rd w .CTX_STATE_STATE c ≠ 0 := by
      rw [habort.regs .CTX_STATE_STATE c (by simp), hreset.regs .CTX_STATE_STATE c (by decide)]
      omega
    rw [rd_settled_other _ _ _ _ (by decide), hreport.regs _ _ (by decide), hstate, if_pos ⟨mem_virtual hpos hlt, by omega, hfree⟩]
  · show (0, i.idx) ∈ y.serve.aborting
    rw [hserve', haborting]
    exact hlisted i hi h0

/-! PERST_DEASSERT (R432, R441) -/

/-- PERST_N is released, at the earliest 100 ms after the input reached 54 V. -/
def perstReleased (s : State) (t : Nat) : State := wr (tick s (max t (s.boot.coldAt + 100000000))) .EVC_INPUTS_PERST 0 0

theorem exec_perstDeassert (hperst : rd s .EVC_INPUTS_PERST = 1) (t : Nat) : exec (.perstDeassert t) s =
    settle s (if rd s .LP_STATUS_STATE = 4 then startExit (perstReleased s t) 5 else perstReleased s t) := by
  have hlp : rd (perstReleased s t) .LP_STATUS_STATE = rd s .LP_STATUS_STATE := rd_wr_ne _ _ _ _ _ _ (by simp)
  rw [← hlp]
  show execPerstDeassert t s = _
  unfold execPerstDeassert
  dsimp only
  rw [if_pos (show rdb (tick s (max t (s.boot.coldAt + 100000000))) .EVC_INPUTS_PERST = true from rdb_of_one hperst)]
  rfl

theorem perstDeassert_releases (hperst : rd s .EVC_INPUTS_PERST = 1) (hlp : rd s .LP_STATUS_STATE ≠ 4) (t : Nat) :
    Runs (.perstDeassert t) s fun v =>
      rd v .EVC_INPUTS_PERST = 0 ∧ s.boot.coldAt + 100000000 ≤ v.now ∧ KeptBut [.now] s v ∧ RegsKept [(.EVC_INPUTS_PERST, 0)] s v := by
  have hexec := exec_perstDeassert hperst t
  rw [if_neg hlp] at hexec
  refine runs_of_settle hexec ⟨?_, ?_, ((within_tick s _).toWithinAt.trans (withinAt_wr (tick s _) _ _ _)).settled⟩
  · rw [rd_settled_other _ _ _ _ (by decide), perstReleased, rd_wr_same]
  · exact (le_max_right t _).trans (le_max_right s.now _)

theorem perstDeassert_exits (hperst : rd s .EVC_INPUTS_PERST = 1) (hlp : rd s .LP_STATUS_STATE = 4) (t : Nat) :
    Runs (.perstDeassert t) s fun v =>
      rd v .EVC_INPUTS_PERST = 0 ∧ ExitBegins s v 5 ∧ Frame [.boot, .now, .rep] (.EVC_INPUTS_PERST :: exitFlds) s v := by
  have hexec := exec_perstDeassert hperst t
  rw [if_pos hlp] at hexec
  have hrel : Within [.now] [.EVC_INPUTS_PERST] s (perstReleased s t) :=
    (within_tick s (max t (s.boot.coldAt + 100000000))).append (within_wr _ .EVC_INPUTS_PERST 0 0)
  have hzero : rd (perstReleased s t) .EVC_INPUTS_PERST = 0 := rd_wr_same (tick s (max t (s.boot.coldAt + 100000000))) .EVC_INPUTS_PERST 0 0
  generalize perstReleased s t = u at *
  have hst : rd u .LP_STATUS_STATE = rd s .LP_STATUS_STATE := hrel.regs _ _ (by simp)
  obtain ⟨hstate, hready, hreason, hfrom⟩ := startExit_begins (s := u) (by rw [hst, hlp]; decide) 5
  have hexit := within_startExit u 5
  generalize startExit u 5 = w at *
  refine runs_of_settle hexec ⟨?_, ⟨?_, ?_, hreason, hfrom.trans hst⟩, ((hrel.append hexit).mono (by simp) (by simp)).settled⟩
  · rw [rd_settled_other _ _ _ _ (by decide), hexit.regs _ _ (by decide), hzero]
  · rw [rd_settled_other _ _ _ _ (by decide), hstate]
  · rw [rd_settled_other _ _ _ _ (by decide), hready]

end Sys2Proof.Machine
end


section
/-! O56, assembled. -/

namespace Sys2Proof.Machine

/-- Settles O56: the link (`pcieLinkUp_runs`, `pcieLinkDown_runs`), host reads that fail (`hostReadFailure_ends`), functions and their
resets (`vfFlr_runs`, `vfEnableCleared_states`, `perstAssert_stops`), windows and mailboxes (`cadenceRead_low`, `mbxSend_sends`), and
interrupts (`moderationExpiry_runs`, `msixUnmask_sends`). -/
theorem hostInterfaceRuns : Obligations.HostInterfaceRuns := by
  refine ⟨fun s t width rate => ⟨fun hup => pcieLinkDown_runs hup t, fun hdown hperst hrecovery hphase hlp flit =>
      pcieLinkUp_runs hdown hperst hrecovery hphase hlp t width rate flit, fun hup => pcieLinkRetrain_runs hup t width rate⟩,
    fun s t c i x hx hop _ late => hostReadFailure_ends hx hop t late,
    fun s t c i x hx _ => ⟨fun hop howner => hostReadFailure_load hx hop howner t,
      fun hop hstop k hslot => hostReadFailure_adapter hx hop hstop hslot t,
      fun hop hstop k n j hslot hjob => hostReadFailure_train hx hop hstop hslot hjob t⟩,
    fun s t c => ⟨fun h => hostReadFailure_counts h t, fun h => hostReadFailure_faults h t⟩,
    fun s t c hpos hlt hst => ⟨vfFlr_runs (by omega) hst t, vfEnableCleared_tears hpos hlt hst t⟩, vfEnableCleared_states,
    fun s t hnone => ⟨fun hawake => warmBegins_runs hnone hawake rfl (Within.refl _ _ _),
      fun hlow => heldReset_runs hnone hlow rfl (Within.refl _ _ _)⟩,
    fun s t f hf => ⟨busMaster_clears hf t, busMaster_sets hf t, memorySpace_sets hf t⟩,
    fun s t => ⟨fun _ hlp => perstAssert_shows (.inr (.inr hlp)) t, fun hperst hlp hgood => perstAssert_stops hperst hlp hgood t,
      fun h => perstAssert_shows (h.imp_right .inl) t, fun hperst hlp => perstDeassert_releases hperst hlp t,
      fun hperst hlp => perstDeassert_exits hperst hlp t⟩, ?_,
    fun s src c pf hpos hlt hmay => ⟨mbxSend_sends hpos hlt hmay, mbxSend_overruns hpos hlt hmay, mbxAck_runs hpos hlt hmay⟩,
    fun s t e w ws => moderationExpiry_runs,
    fun s fn e hfn he => ⟨msixMask_entry hfn he, msixMask_fn hfn, msixUnmask_quiet hfn he, msixUnmask_entry hfn he, msixUnmask_fn hfn,
      msixUnmask_sends hfn he⟩,
    fun s t x => ⟨fun hfree => slotIdSample_runs hfree t x, fun hsampled hx => slotIdChange_runs hsampled hx t, inputGlitch_runs t,
      doeDiscovery_runs⟩⟩
  rintro s t c hc hmem now rfl
  refine ⟨cadenceRead_whole hc hmem t, cadenceRead_low hc hmem t, fun x hlatched => ?_, fun hnone => ?_⟩
  · exact (cadenceRead_high hc hmem t).imp fun v ⟨houts, hgone, hkept⟩ => ⟨by rw [houts, storeGet, hlatched]; rfl, hgone, hkept⟩
  · exact (cadenceRead_high hc hmem t).imp fun v ⟨houts, _, hkept⟩ => ⟨by rw [houts, storeGet, hnone]; rfl, hkept⟩

end Sys2Proof.Machine
end
